-- ==== Sys2Proof/Word.lean ====
section
/-! DEFINITION. The word types of the module and the small record types of its register tables. A register is 32 bits and a memory word 64 bits, little-endian
(R12, R13). -/
namespace Sys2Proof

abbrev Word32 := BitVec 32
abbrev Word64 := BitVec 64
abbrev Word128 := BitVec 128
abbrev Byte := BitVec 8

/-- A logical tile number, T000 to T255 (R18, R19). -/
abbrev TileId := Fin 256

namespace Machine

/-- One field of one register: `key` is 64 times the register's offset plus the field's lowest bit, `width` its width in bits,
`reset` its value after the reset level its register's header line names (R22, R23). -/
structure Field where
  key : Nat
  width : Nat
  reset : Nat
deriving DecidableEq, Repr

/-- The field at bit `lo` of the register at offset `ofs`. -/
def fld (ofs lo width reset : Nat) : Field := ⟨ofs * 64 + lo, width, reset⟩

/-- The access codes of R21. -/
inductive Acc where
  | rw | ro | wo | w1c | w1s | rwt | roc | rws
deriving DecidableEq, Repr

/-- The reset levels of R22, widest last. -/
inductive Level where
  | block | compute | cold
deriving DecidableEq, Repr

/-- A field as a row of a register table. -/
structure FieldRow where
  lo : Nat
  width : Nat
  acc : Acc
  reset : Nat
deriving DecidableEq, Repr

/-- A register as a row of a page's table: page offset, repetitions (stride, count), reset level, whether it is a 64-bit
value, fields. -/
structure RegRow where
  ofs : Nat
  dims : List (Nat × Nat)
  level : Level
  wide : Bool
  fields : List FieldRow
deriving DecidableEq, Repr

end Machine

/-- Sources of register accesses (R56): each has its own order and its own shadows. -/
inductive Source where
  | host | wcore | ecore | bridge
deriving DecidableEq, Repr

end Sys2Proof
end

