-- ==== Sys2Proof/Syntax.lean ====
section
/-! DEFINITION. The commands the module takes, as syntax: one constructor per row of spec/opcode_table.json, with the row's operands. -/
namespace Sys2Proof

/-- A scalar, vector or queue register number of a slot (5 bits). -/
abbrev Reg := Fin 32

/-- A BAR0 offset (26 bits, R49). -/
abbrev Ofs := BitVec 26

/-- A module address (48 bits, R42). -/
abbrev Addr := BitVec 48

/-- A B-net request that reaches register space through the register bridge (R45). -/
inductive BridgeReq where
  | rd (addr : Addr) (len : Nat)
  | wr (addr : Addr) (data : List Byte)
  | atom (addr : Addr)
  | fnc
deriving DecidableEq, Repr

/-- TYPE of a vector operation (R124). -/
inductive VType where
  | fp32 | bf16 | int32
deriving DecidableEq, Repr

/-- The stored word an UPSET hits (R31, R68): a memory word of the module address space, a lane word of a tile, a global lane word, a queue SRAM word, a crown
SRAM word, or one bit of one copy of a voted field. -/
inductive UpsetTarget where
  | memWord (addr : Addr) (bit : Fin 72)
  | laneWord (n : TileId) (index : Fin 16384) (bit : Fin 144)
  | globalWord (store : Fin 2) (index : Fin 16384) (bit : Fin 144)
  | queueWord (n : TileId) (addr : Fin 16384) (bit : Fin 72)
  | crownWord (core : Fin 2) (addr : Nat) (bit : Fin 72)
  | voted (key : Nat) (copies : List (Fin 3)) (bit : Fin 64)
deriving DecidableEq, Repr

/-- The path a mailbox request takes (R407, R383): the CROWN page's mailbox, or an MCTP vendor message carrying the whole request. -/
inductive MbPath where
  | mailbox
  | mctp (msg : List Byte)
deriving DecidableEq, Repr

/-- An endpoint number (R237). -/
abbrev Ep := Fin 384

/-- A destination that fences are counted for: endpoint 0 to 383, or 384 + m for module m (R255, R320). -/
abbrev Dst := Fin 4480

/-- A B-net request packet (R239, R240): operation (0 RD, 1 WR, 2 to 9 the atomics of R112 with their value 0 to 7), source endpoint and module, tag, class, epoch, destination module, address, data (for a write, an atomic's operand, a
reduction line), size in bytes, the destination mask of a multicast packet; the PCIe bus address of an access to host memory, which goes to endpoint 177 (R380). -/
structure Pkt where
  op : Fin 10
  src : Ep
  smod : BitVec 12
  tag : BitVec 12
  cls : Fin 8
  epoch : Bool
  dmod : BitVec 12
  addr : Addr
  size : Nat
  data : List Byte
  mcast : Option (List Ep)
  host : Option Word64 := none
deriving DecidableEq, Repr

/-- A port-A access of a tile that meets a packet's access in its cycle (R109): 0 read, 1 write, 2 an atomic that holds its word; store offset of its first word; words. -/
structure PortA where
  tile : TileId
  kind : Fin 3
  lo : BitVec 22
  words : Nat
deriving DecidableEq, Repr

/-- A flit that fails its CRC (R245): its number in the packet (0 is the head), the switch (0 to 23 leaf, 24 to 35 spine, 36 destination NI) and the input port. -/
structure BadFlit where
  flit : Nat
  sw : Fin 37
  port : Fin 32
deriving DecidableEq, Repr

/-- What befalls a packet on its way (R241, R245, R109): the flits that fail their CRC, in order of occurrence; the OPC, CLASS and VC that its head flit states, where they are not those of its kind; the port-A accesses it meets at a tile store. -/
structure Luck where
  crc : List BadFlit
  hdr : Option (Fin 16 × Fin 8 × Bool)
  coll : List PortA
deriving DecidableEq, Repr

/-- What a packet or a flit carries, together with what befalls it on its way. -/
structure Carried (α β : Type) where
  what : α
  fate : β
deriving DecidableEq, Repr

/-- What a peer reports in training, and the widths that the two sides reach (R308 to R310): module ID, port, highest and lowest version (major, minor in a byte each
nibble), the narrowest width that the peer permits and the width on which its lanes and this port's lock: 0 ×4, 1 ×2, 2 ×1, 3 none. -/
structure PeerCaps where
  id : BitVec 12
  port : Fin 8
  hi : BitVec 8
  lo : BitVec 8
  minW : Fin 4
  plock : Fin 4
  width : Fin 4
deriving DecidableEq, Repr

/-- What befalls the units of a packet on a link (R307, R338): units lost to an uncorrectable FEC codeword, units that fail their CRC, codewords that FEC corrected; a data unit carries POISON (R245). -/
structure RxLuck where
  fec : Nat
  crc : Nat
  fixed : Nat
  poison : Bool
deriving DecidableEq, Repr

/-- What arrives on a Freash port (R303, R304, R306, R313, R326, R334, R335): a request, a fence, a completion, a fence
confirmation, events of one step, a result line, a broadcast; `d` is the dateline state. A stray unit has VC 10 + vc: one of VC 10 to 13, which are never sent, a management unit with its type, or an idle unit. -/
inductive LinkPkt where
  | req (d : Bool) (p : Pkt)
  | fnc (d : Bool) (dmod smod : BitVec 12) (src : Ep) (tag : BitVec 12) (addr : Addr)
  | rsp (d : Bool) (dmod smod : BitVec 12) (ep : Ep) (tag : BitVec 12) (ack : Bool) (status : Fin 16) (data : List Byte)
  | fncack (d : Bool) (dmod smod : BitVec 12) (ep : Ep) (tag : BitVec 12)
  | evt (d : Bool) (dmod smod : BitVec 12) (src : Ep) (stamp : Word32) (evs : List Word64)
  | coll (g : Fin 64) (o : BitVec 16) (line : List Byte)
  | bcast (d : Bool) (addr : Addr) (data : List Byte)
  | stray (vc : Fin 6) (mtype : Byte)
deriving DecidableEq, Repr

/-- Where a fence marker goes (R255, R257): an endpoint or another module, or by multicast, which no account orders. -/
inductive FncTo where
  | one (dst : Dst)
  | many (eps : List Ep)
deriving DecidableEq, Repr

/-- A queue message that a management core sends over its own C-net port (R281, R282): destination tile and queue, mode, limit, key, words. -/
structure CoreMsg where
  tile : Fin 256
  queue : Fin 64
  mode : Fin 4
  tmo : BitVec 8
  key : BitVec 16
  words : List Word64
deriving DecidableEq, Repr

/-- The sender of a reduction contribution (R260): a member tile with its line, or a leaf's partial sum on its way to the spine. -/
inductive RedFrom where
  | tile (n : TileId) (line : List Byte)
  | leaf (l : Fin 24)
deriving DecidableEq, Repr

/-- Errors that the endpoint reports through AER (R379). -/
inductive AerError where
  | unsupportedRequest | completerAbort | poisonedTlp | completionTimeout | unexpectedCompletion
deriving DecidableEq, Repr

/-- An inbound TLP to BAR2 (R371, R372): a read of some bytes at an offset, or a write of bytes, each with its byte enable, which may be poisoned. -/
inductive Bar2Tlp where
  | rd (ofs : Nat) (len : Nat)
  | wr (ofs : Nat) (data : List (Byte × Bool)) (poisoned : Bool)
deriving DecidableEq, Repr

/-- What a host configuration request does to the PCIe function (R369, R371, R378, R379): a field of the function's state, a word of the MSI-X table or an access elsewhere in BAR4 (which have no row of
their own), or a read of the identity registers. -/
inductive CfgReq where
  | busMaster (on : Bool)
  | msixEnable (on : Bool)
  | functionMask (on : Bool)
  | powerState (d3 : Bool)
  | bar2Size (log2 : Nat)
  | maxPayload (bytes : Nat)
  | maxReadRequest (bytes : Nat)
  | clearError (e : AerError)
  | msixEntry (vec : Fin 2048) (word : Fin 4) (v : Word32)
  | bar4Other (write : Bool)
  | identity
deriving DecidableEq, Repr

/-- How an outbound request is completed by the host (R380): its status is Successful Completion, its data are poisoned, the data. -/
structure HostCpl where
  ok : Bool
  poisoned : Bool
  data : List Byte
deriving DecidableEq, Repr

/-- A UDP datagram that arrives at a stream port (R386, R388): port, destination MAC address, IPv6, addresses (IPv4 in the low 32 bits), UDP ports, payload; what the MAC found: 0 nothing, 1 a bad FCS or an
oversize frame, 2 no room in its receive buffer (R395). -/
structure InFrame where
  port : Fin 2
  dmac : BitVec 48
  v6 : Bool
  sip : BitVec 128
  dip : BitVec 128
  sport : BitVec 16
  dport : BitVec 16
  payload : List Byte
  mac : Fin 3
deriving DecidableEq, Repr

/-- An ARP request or a Neighbor Solicitation (R385): the asker's addresses and the address asked for. -/
structure AddrQuery where
  smac : BitVec 48
  sip : BitVec 128
  target : BitVec 128
deriving DecidableEq, Repr

/-- An access of the host to BAR0 or BAR4 that waits behind BAR2 writes (R373): a register write, a register read behind such a write (R56), a launch of a send window, a doorbell. -/
inductive HostWrite where
  | register (off : Ofs) (v : Word32)
  | read (off : Ofs)
  | launch (m : Fin 4) (before : List (Fin 18 × Word32)) (v : Word32)
  | dbIssue (v : Word32)
  | dbInj (v : Word32)
  | dbMover (m : Fin 32) (v : Word32)
deriving DecidableEq, Repr

/-- A TWIN management unit as it arrives (R492, R498): sequence number, the sender's role, HEALTHY, REFUSE, module ID, STEP_CNT, handover step. -/
structure TwinUnit where
  seq : BitVec 16
  role : Fin 8
  healthy : Bool
  refuse : Bool
  id : BitVec 12
  step : Word64
  hstep : Word64
deriving DecidableEq, Repr

/-- The commands: one constructor per row of spec/opcode_table.json, in the table's order. -/
inductive Instr where
  | registerWrite (src : Source) (off : Ofs) (v : Carried Word32 (Option Bool))  -- REGISTER_WRITE, R55
  | enable (src : Source) (pg : Ofs)  -- ENABLE, R59
  | consistencyCheckEnd (pg : Ofs)  -- CONSISTENCY_CHECK_END, R60
  | blockReset (src : Source) (pg : Ofs)  -- BLOCK_RESET, R466
  | blockResetEnd (pg : Ofs)  -- BLOCK_RESET_END, R466
  | unusedPageAccess (src : Source) (off : Ofs) (w : Option Word32)  -- UNUSED_PAGE_ACCESS, R51
  | downPageAccess (src : Source) (off : Ofs) (w : Option Word32)  -- DOWN_PAGE_ACCESS, R52
  | vote (src : Source) (off : Ofs) (v : Word32)  -- VOTE, R447
  | shadowRead (src : Source) (off : Ofs)  -- SHADOW_READ, R64
  | shadowWrite (src : Source) (off : Ofs) (v : Word32)  -- SHADOW_WRITE, R64
  | slowWriteComplete (src : Source) (off : Ofs)  -- SLOW_WRITE_COMPLETE, R67
  | registerBridgeRequest (req : BridgeReq)  -- REGISTER_BRIDGE_REQUEST, R45
  | load  -- LOAD, R90
  | loadEnd  -- LOAD_END, R91
  | loadTimeout  -- LOAD_TIMEOUT, R91
  | start  -- START, R93
  | stop  -- STOP, R94
  | launchWord  -- LAUNCH_WORD, R78
  | bundleExecute (n : TileId)  -- BUNDLE_EXECUTE, R78
  | trackedOpComplete (n : TileId) (k : Nat)  -- TRACKED_OP_COMPLETE, R88
  | lstart (who : Option TileId) (lvl : Fin 4) (count : BitVec 12)  -- LSTART, R83
  | lend (who : Option TileId) (lvl : Fin 4)  -- LEND, R83
  | lone (who : Option TileId) (lvl : Fin 4) (count : BitVec 12)  -- LONE, R83
  | endOp  -- END, R81
  | exitif (cond : BitVec 7) (arg : BitVec 16)  -- EXITIF, R84
  | dbclr (bit : Fin 32)  -- DBCLR, R81
  | setflag (f : Fin 16)  -- SETFLAG, R81
  | clrflag (f : Fin 16)  -- CLRFLAG, R81
  | one  -- ONE, R193
  | oneLearn  -- ONE_LEARN, R193
  | run  -- RUN, R193
  | halt  -- HALT, R193
  | waitBarrier (g : Fin 64)  -- WAIT_BARRIER, R85
  | waitMover (m : Fin 32)  -- WAIT_MOVER, R85
  | waitEvtDrain  -- WAIT_EVT_DRAIN, R85
  | waitStepTimer  -- WAIT_STEP_TIMER, R85
  | waitDoorbell (bit : Fin 32)  -- WAIT_DOORBELL, R85
  | waitFlagSet (f : Fin 16)  -- WAIT_FLAG_SET, R85
  | waitFlagClr (f : Fin 16)  -- WAIT_FLAG_CLR, R85
  | waitTracked  -- WAIT_TRACKED, R85
  | waitCycles (cyc : BitVec 24)  -- WAIT_CYCLES, R85
  | waitSatisfied  -- WAIT_SATISFIED, R85
  | waitTimeout  -- WAIT_TIMEOUT, R86
  | dbgHalt  -- DBG_HALT, R98
  | resume  -- RESUME, R99
  | dbgStep  -- DBG_STEP, R99
  | stepDone  -- STEP_DONE, R99
  | move (n : TileId) (m : Fin 32) (rs rd : Reg)  -- MOVE, R359
  | qsend (n : TileId) (mode : Fin 4) (rs : Reg) (nm1 : Fin 8) (ra rd : Reg) (tmo : BitVec 8)  -- QSEND, R286
  | recv (n : TileId) (rd : Reg) (nm1 : Fin 8) (rs : Reg) (q : Fin 64)  -- RECV, R289
  | peek (n : TileId) (rd : Reg) (nm1 : Fin 8) (rs : Reg) (q : Fin 64)  -- PEEK, R289
  | discard (n : TileId) (rd : Reg) (nm1 : Fin 8) (rs : Reg) (q : Fin 64)  -- DISCARD, R289
  | evctlStart (n : TileId)  -- EVCTL_START, R191
  | evctlDrain (n : TileId)  -- EVCTL_DRAIN, R191
  | evctlStop (n : TileId)  -- EVCTL_STOP, R191
  | drainComplete (n : TileId)  -- DRAIN_COMPLETE, R191
  | learn (n : TileId) (args : BitVec 24)  -- LEARN, R219
  | arrive (n : TileId) (g : Fin 64)  -- ARRIVE, R268
  | flag (n : TileId) (f : Fin 16) (set : Bool)  -- FLAG, R270
  | load8 (n : TileId) (rd ra : Reg)  -- LOAD8, R265
  | store8 (n : TileId) (ra rs : Reg)  -- STORE8, R265
  | atomic (n : TileId) (aop : Fin 8) (rd ra rs : Reg)  -- ATOMIC, R265
  | fence (n : TileId) (ra : Reg)  -- FENCE, R265
  | add (n : TileId) (rd rs1 rs2 : Reg)  -- ADD, R121
  | sub (n : TileId) (rd rs1 rs2 : Reg)  -- SUB, R121
  | andOp (n : TileId) (rd rs1 rs2 : Reg)  -- AND, R121
  | orOp (n : TileId) (rd rs1 rs2 : Reg)  -- OR, R121
  | xorOp (n : TileId) (rd rs1 rs2 : Reg)  -- XOR, R121
  | sll (n : TileId) (rd rs1 rs2 : Reg)  -- SLL, R121
  | srl (n : TileId) (rd rs1 rs2 : Reg)  -- SRL, R121
  | sra (n : TileId) (rd rs1 rs2 : Reg)  -- SRA, R121
  | slt (n : TileId) (rd rs1 rs2 : Reg)  -- SLT, R121
  | sltu (n : TileId) (rd rs1 rs2 : Reg)  -- SLTU, R121
  | mul (n : TileId) (rd rs1 rs2 : Reg)  -- MUL, R121
  | mulh (n : TileId) (rd rs1 rs2 : Reg)  -- MULH, R121
  | selnz (n : TileId) (rd rs1 rs2 : Reg)  -- SELNZ, R121
  | addi (n : TileId) (rd rs1 : Reg) (imm : BitVec 15)  -- ADDI, R121
  | andi (n : TileId) (rd rs1 : Reg) (imm : BitVec 15)  -- ANDI, R121
  | ori (n : TileId) (rd rs1 : Reg) (imm : BitVec 15)  -- ORI, R121
  | xori (n : TileId) (rd rs1 : Reg) (imm : BitVec 15)  -- XORI, R121
  | slli (n : TileId) (rd rs1 : Reg) (sh : BitVec 6)  -- SLLI, R121
  | srli (n : TileId) (rd rs1 : Reg) (sh : BitVec 6)  -- SRLI, R121
  | srai (n : TileId) (rd rs1 : Reg) (sh : BitVec 6)  -- SRAI, R121
  | shori (n : TileId) (rd rs1 : Reg) (imm : BitVec 15)  -- SHORI, R121
  | ld (n : TileId) (rd rs1 : Reg) (imm : BitVec 15)  -- LD, R122
  | lw (n : TileId) (rd rs1 : Reg) (imm : BitVec 15)  -- LW, R122
  | lwu (n : TileId) (rd rs1 : Reg) (imm : BitVec 15)  -- LWU, R122
  | sd (n : TileId) (rd rs1 : Reg) (imm : BitVec 15)  -- SD, R122
  | sw (n : TileId) (rd rs1 : Reg) (imm : BitVec 15)  -- SW, R122
  | atom (n : TileId) (sub : Fin 6) (rd rs1 rs2 : Reg)  -- ATOM, R122
  | mfv (n : TileId) (rd vs : Reg) (half : Bool) (idx : BitVec 8)  -- MFV, R121
  | rdcsr (n : TileId) (rd : Reg) (csr : Fin 3)  -- RDCSR, R123
  | compactAdd (n : TileId) (rd rs1 rs2 : Fin 16)  -- COMPACT_ADD, R121
  | compactSub (n : TileId) (rd rs1 rs2 : Fin 16)  -- COMPACT_SUB, R121
  | compactAnd (n : TileId) (rd rs1 rs2 : Fin 16)  -- COMPACT_AND, R121
  | compactOr (n : TileId) (rd rs1 rs2 : Fin 16)  -- COMPACT_OR, R121
  | compactXor (n : TileId) (rd rs1 rs2 : Fin 16)  -- COMPACT_XOR, R121
  | compactSll (n : TileId) (rd rs1 rs2 : Fin 16)  -- COMPACT_SLL, R121
  | compactSrl (n : TileId) (rd rs1 rs2 : Fin 16)  -- COMPACT_SRL, R121
  | compactMov (n : TileId) (rd rs1 : Fin 16)  -- COMPACT_MOV, R121
  | vadd (n : TileId) (ty : VType) (vd va vb : Reg) (mask : Fin 8)  -- VADD, R125
  | vsub (n : TileId) (ty : VType) (vd va vb : Reg) (mask : Fin 8)  -- VSUB, R125
  | vmul (n : TileId) (ty : VType) (vd va vb : Reg) (mask : Fin 8)  -- VMUL, R125
  | vfma (n : TileId) (ty : VType) (vd va vb : Reg) (mask : Fin 8) (vc : Reg) (neg : Bool)  -- VFMA, R125
  | vmax (n : TileId) (ty : VType) (vd va vb : Reg) (mask : Fin 8)  -- VMAX, R125
  | vmin (n : TileId) (ty : VType) (vd va vb : Reg) (mask : Fin 8)  -- VMIN, R125
  | vlerp (n : TileId) (ty : VType) (vd va vb : Reg) (mask : Fin 8) (k : Fin 16)  -- VLERP, R125
  | vrms (n : TileId) (ty : VType) (vd va vb : Reg) (mask : Fin 8) (k : Fin 16)  -- VRMS, R125
  | vdive (n : TileId) (ty : VType) (vd va vb : Reg) (mask : Fin 8) (k : Fin 16)  -- VDIVE, R125
  | vrcp (n : TileId) (ty : VType) (vd va : Reg) (mask : Fin 8)  -- VRCP, R127
  | vrsqrt (n : TileId) (ty : VType) (vd va : Reg) (mask : Fin 8)  -- VRSQRT, R127
  | vexp2 (n : TileId) (ty : VType) (vd va : Reg) (mask : Fin 8)  -- VEXP2, R127
  | vlog2 (n : TileId) (ty : VType) (vd va : Reg) (mask : Fin 8)  -- VLOG2, R127
  | vsqrt (n : TileId) (ty : VType) (vd va : Reg) (mask : Fin 8)  -- VSQRT, R127
  | vcmp (n : TileId) (ty : VType) (md : Fin 8) (va vb : Reg) (mask : Fin 8) (cond : Fin 4)  -- VCMP, R125
  | vsel (n : TileId) (ty : VType) (vd va vb : Reg) (mask : Fin 8)  -- VSEL, R125
  | vcvt (n : TileId) (ty tt : VType) (vd va : Reg) (mask : Fin 8) (stoch : Bool)  -- VCVT, R125
  | vred (n : TileId) (ty : VType) (vd va : Reg) (mask : Fin 8) (op : Fin 4)  -- VRED, R128
  | vscan (n : TileId) (ty : VType) (vd va : Reg) (mask : Fin 8) (chain : Bool)  -- VSCAN, R129
  | vscanl (n : TileId) (ty : VType) (vd va vb : Reg) (mask : Fin 8) (chain : Bool)  -- VSCANL, R129
  | vld (n : TileId) (ty : VType) (v : Reg) (sa : Reg) (part : Fin 8) (imm : BitVec 11)  -- VLD, R125
  | vst (n : TileId) (ty : VType) (v : Reg) (sa : Reg) (part : Fin 8) (imm : BitVec 11)  -- VST, R125
  | vbcast (n : TileId) (ty : VType) (vd sa : Reg)  -- VBCAST, R125
  | vsetk (n : TileId) (k : Fin 16) (sa : Reg)  -- VSETK, R125
  | vdq (n : TileId) (vd va vb : Reg) (mask : Fin 8)  -- VDQ, R126
  | vq (n : TileId) (vd va vb : Reg) (mask : Fin 8)  -- VQ, R126
  | ldw (n : TileId) (d : Fin 16)  -- LDW, R159
  | swapw (n : TileId)  -- SWAPW, R163
  | swapwDeferred (n : TileId)  -- SWAPW_DEFERRED, R163
  | mac (n : TileId) (d : Fin 16) (k : BitVec 8)  -- MAC, R159
  | out (n : TileId) (d : Fin 16) (k : BitVec 8)  -- OUT, R161
  | clr (n : TileId) (d : Fin 16) (k : BitVec 8)  -- CLR, R159
  | eccWriteback (addr : Addr)  -- ECC_WRITEBACK, R114
  | scrubRead (u : Fin 320) (bank : Fin 16) (displaced : Bool)  -- SCRUB_READ, R116
  | bankPwr (src : Source) (u : Fin 320) (v : Word32)  -- BANK_PWR, R118
  | bankTransitionEnd (u : Fin 320) (bank : Fin 16)  -- BANK_TRANSITION_END, R118
  | bankInit (src : Source) (u : Fin 320) (v : Word32)  -- BANK_INIT, R120
  | initDone (u : Fin 320) (bank : Fin 16)  -- INIT_DONE, R120
  | rngSeed (src : Source) (n : TileId) (v : Word64)  -- RNG_SEED, R147
  | retune  -- RETUNE, R152
  | retuneUpdate  -- RETUNE_UPDATE, R153
  | retuneTimeout  -- RETUNE_TIMEOUT, R154
  | apply (src : Source)  -- APPLY, R156
  | walkEntry (n : TileId)  -- WALK_ENTRY, R174
  | eventGroup (n : TileId) (waited : Nat)  -- EVENT_GROUP, R188
  | lockTimeout (n : TileId)  -- LOCK_TIMEOUT, R229
  | psetLoad (src : Source) (n : TileId)  -- PSET_LOAD, R181
  | psetLoadEnd (n : TileId)  -- PSET_LOAD_END, R181
  | stepBoundary  -- STEP_BOUNDARY, R194
  | phaseEnter (n : TileId)  -- PHASE_ENTER, R192
  | readoutCopyEnd (n : TileId)  -- READOUT_COPY_END, R204
  | drainClose  -- DRAIN_CLOSE, R192
  | neuronSweepEnd (n : TileId)  -- NEURON_SWEEP_END, R182
  | barrierComplete (g : Fin 64)  -- BARRIER_COMPLETE, R268
  | stretch  -- STRETCH, R195
  | lateStep  -- LATE_STEP, R195
  | close (src : Source)  -- CLOSE, R198
  | extend (src : Source)  -- EXTEND, R198
  | defer (src : Source) (n : TileId)  -- DEFER, R198
  | drop (src : Source) (n : TileId)  -- DROP, R198
  | injectEvent (from_ : Option (Fin 128))  -- INJECT_EVENT, R201
  | injectCount (from_ : Option (Fin 128))  -- INJECT_COUNT, R201
  | injectDelta (from_ : Option (Fin 128))  -- INJECT_DELTA, R201
  | learnCmdGo (src : Source) (n : TileId) (args : BitVec 24)  -- LEARN_CMD_GO, R219
  | gatherEnd (n : TileId)  -- GATHER_END, R221
  | rowUpdate (n : TileId) (waited : Option Nat)  -- ROW_UPDATE, R222
  | delayMoveComplete (n : TileId)  -- DELAY_MOVE_COMPLETE, R225
  | applyFinish (n : TileId)  -- APPLY_FINISH, R221
  | learnCtrlDone (src : Source) (n : TileId)  -- LEARN_CTRL_DONE, R232
  | hlockReq (src : Source) (n : TileId) (row : BitVec 16)  -- HLOCK_REQ, R231
  | hlockGrant (n : TileId)  -- HLOCK_GRANT, R230
  | hlockRel (src : Source) (n : TileId)  -- HLOCK_REL, R231
  | rd (p : Pkt) (luck : Luck)  -- RD, R241
  | wr (p : Pkt) (luck : Luck)  -- WR, R241
  | addI32 (p : Pkt) (luck : Luck)  -- ADD_I32, R112
  | addI64 (p : Pkt) (luck : Luck)  -- ADD_I64, R112
  | addF32 (p : Pkt) (luck : Luck)  -- ADD_F32, R112
  | add2bf16 (p : Pkt) (luck : Luck)  -- ADD_2BF16, R112
  | swap64 (p : Pkt) (luck : Luck)  -- SWAP_64, R112
  | delayStep (p : Pkt) (luck : Luck)  -- DELAY_STEP, R112
  | rdrsp (ep : Ep) (tag : BitVec 12) (luck : Luck)  -- RDRSP, R241
  | wrack (ep : Ep) (tag : BitVec 12) (luck : Luck)  -- WRACK, R241
  | evt (src dst : Ep) (evs : List Word64) (luck : Luck)  -- EVT, R241
  | red (from_ : RedFrom) (g : Fin 64) (o : Carried (BitVec 16) Luck)  -- RED, R262
  | redres (g : Fin 64) (o : Carried (BitVec 16) Luck)  -- REDRES, R260
  | fnc (src : Ep) (dst : FncTo) (luck : Luck)  -- FNC, R255
  | fncack (src : Ep) (dst : Carried Dst Luck)  -- FNCACK, R255
  | probe (cls : Fin 8) (luck : Luck)  -- PROBE, R241
  | fenceDeliver (src : Ep) (dst : Dst)  -- FENCE_DELIVER, R255
  | fenceTimeout (src : Ep) (dst : Dst)  -- FENCE_TIMEOUT, R256
  | fenceSourceTimeout (src : Ep) (dst : Dst)  -- FENCE_SOURCE_TIMEOUT, R255
  | requestTimeout (ep : Ep) (tag : BitVec 12)  -- REQUEST_TIMEOUT, R247
  | combineWindowClose (addr : Addr) (cls : Fin 8)  -- COMBINE_WINDOW_CLOSE, R258
  | reductionTimeout (sw : Fin 36) (g : Fin 64) (o : BitVec 16)  -- REDUCTION_TIMEOUT, R263
  | barTmo (g : Fin 64)  -- BAR_TMO, R269
  | barMask (src : Source) (g : Fin 64) (w : Fin 8) (v : Word32)  -- BAR_MASK, R268
  | flags (src : Source) (v : BitVec 16)  -- FLAGS, R270
  | cuffTimeout (k : Nat)  -- CUFF_TIMEOUT, R273
  | cuffVoteWithdraw (half : Fin 2)  -- CUFF_VOTE_WITHDRAW, R273
  | messageHead (ch : BitVec 16) (core : Option CoreMsg) (parity : Bool)  -- MESSAGE_HEAD, R283
  | slotGrant (n : TileId)  -- SLOT_GRANT, R290
  | timedExpiry (n : TileId)  -- TIMED_EXPIRY, R293
  | qstall (n : TileId)  -- QSTALL, R295
  | sendComplete (ch : Carried (BitVec 16) Bool)  -- SEND_COMPLETE, R285
  | lost (ch : BitVec 16)  -- LOST, R288
  | combFlush (src : Source) (n : TileId) (v : Word32)  -- COMB_FLUSH, R299
  | pop (src : Source) (n : TileId)  -- POP, R302
  | stallDiscard (src : Source) (n : TileId)  -- STALL_DISCARD, R296
  | retain (src : Source) (n : TileId)  -- RETAIN, R296
  | trainingEnd (p : Fin 8) (peer : PeerCaps)  -- TRAINING_END, R308
  | trainTimeout (p : Fin 8)  -- TRAIN_TIMEOUT, R308
  | trainRetry (p : Fin 8)  -- TRAIN_RETRY, R308
  | linkPacket (p : Fin 8) (pkt : LinkPkt) (luck : RxLuck)  -- LINK_PACKET, R315
  | idleUnit (p : Fin 8)  -- IDLE_UNIT, R304
  | credit (p : Fin 8) (pairs : List (Fin 15 × BitVec 16))  -- CREDIT, R306
  | steptok (p : Fin 8) (tok : Word32)  -- STEPTOK, R329
  | bartok (p : Fin 8) (k : Fin 4)  -- BARTOK, R333
  | cgrant (p : Fin 8) (g : Fin 64) (cr : BitVec 8)  -- CGRANT, R334
  | creturn (p : Fin 8) (g : Fin 64) (cr : BitVec 8)  -- CRETURN, R334
  | linkDown (p : Fin 8)  -- LINK_DOWN, R321
  | failover (p : Fin 8)  -- FAILOVER, R322
  | rtSel (src : Source) (bank : Bool)  -- RT_SEL, R324
  | xsyncCfg (src : Source) (v : Word32)  -- XSYNC_CFG, R331
  | xcolEnable (src : Source) (p : Fin 8) (k : Fin 4) (v : Word32)  -- XCOL_ENABLE, R334
  | evtLife (p : Fin 8) (landing : Bool) (k : Nat)  -- EVT_LIFE, R332
  | memTrainEnd (c : Fin 32) (bin : Option (Fin 3))  -- MEM_TRAIN_END, R349
  | retrain (src : Source) (c : Fin 32)  -- RETRAIN, R349
  | refresh (c : Fin 32)  -- REFRESH, R347
  | deviceReport (c : Fin 32) (temp : Fin 16)  -- DEVICE_REPORT, R347
  | recalibration (c : Fin 32)  -- RECALIBRATION, R348
  | memScrubRead (c : Fin 32) (displaced : Bool)  -- MEM_SCRUB_READ, R346
  | ringHead (src : Source) (m : Fin 32) (v : Word32)  -- RING_HEAD, R358
  | post (m : Fin 32)  -- POST, R359
  | descFetch (m : Fin 32)  -- DESC_FETCH, R358
  | checkChannelGrant (c : Fin 8)  -- CHECK_CHANNEL_GRANT, R363
  | moverPacketDone (m : Fin 32) (ofs : BitVec 27)  -- MOVER_PACKET_DONE, R353
  | moverRetry (m : Fin 32) (ofs : BitVec 27)  -- MOVER_RETRY, R356
  | mvResume (src : Source) (m : Fin 32)  -- MV_RESUME, R356
  | mvAbort (src : Source) (m : Fin 32)  -- MV_ABORT, R365
  | retry (src : Source) (m : Fin 32)  -- RETRY, R356
  | skip (src : Source) (m : Fin 32)  -- SKIP, R356
  | scanGo (src : Source) (c : Fin 8) (op : Fin 4) (cont : Bool)  -- SCAN_GO, R364
  | scanAbort (src : Source) (c : Fin 8) (processed : BitVec 30)  -- SCAN_ABORT, R364
  | scanDone (c : Fin 8) (coll : List PortA)  -- SCAN_DONE, R363
  | perstDeassert  -- PERST_DEASSERT, R370
  | hotReset  -- HOT_RESET, R370
  | functionLevelReset  -- FUNCTION_LEVEL_RESET, R370
  | pcieLinkDown  -- PCIE_LINK_DOWN, R370
  | bar2Tlp (tlp : Bar2Tlp)  -- BAR2_TLP, R372
  | dbIssue (v : Word32)  -- DB_ISSUE, R375
  | dbInj (v : Word32)  -- DB_INJ, R375
  | dbMover (m : Fin 32) (v : Word32)  -- DB_MOVER, R375
  | launch (m : Fin 4) (before : List (Fin 18 × Word32)) (v : Word32)  -- LAUNCH, R376
  | msixSend (vec : Fin 2048)  -- MSIX_SEND, R378
  | hostCompletion (tag : BitVec 10) (c : HostCpl)  -- HOST_COMPLETION, R380
  | setEndpointId (eid : BitVec 8)  -- SET_ENDPOINT_ID, R383
  | getEndpointId  -- GET_ENDPOINT_ID, R383
  | getMctpVersionSupport  -- GET_MCTP_VERSION_SUPPORT, R383
  | getMessageTypeSupport  -- GET_MESSAGE_TYPE_SUPPORT, R383
  | ingestFrame (f : InFrame)  -- INGEST_FRAME, R388
  | arpRequest (p : Fin 2) (q : AddrQuery)  -- ARP_REQUEST, R385
  | neighborSolicitation (p : Fin 2) (q : AddrQuery)  -- NEIGHBOR_SOLICITATION, R385
  | pauseFrame (p : Fin 2)  -- PAUSE_FRAME, R385
  | otherFrame (p : Fin 2)  -- OTHER_FRAME, R386
  | countFrame (c : Fin 128)  -- COUNT_FRAME, R394
  | gateTmo (c : Fin 128)  -- GATE_TMO, R392
  | contextEnable (src : Source) (c : Fin 128) (v : Word32)  -- CONTEXT_ENABLE, R398
  | streamLinkUp (p : Fin 2) (media : Fin 4)  -- STREAM_LINK_UP, R397
  | streamLinkDown (p : Fin 2)  -- STREAM_LINK_DOWN, R397
  | hb (src : Source) (v : Fin 4)  -- HB, R402
  | hbBoundary  -- HB_BOUNDARY, R402
  | tokenHolder (src : Source) (v : Fin 4)  -- TOKEN_HOLDER, R404
  | mbGo (src : Source)  -- MB_GO, R407
  | mbComplete (src : Source)  -- MB_COMPLETE, R407
  | getInfo (path : MbPath)  -- GET_INFO, R408
  | setModuleId (path : MbPath)  -- SET_MODULE_ID, R408
  | sensorRead (path : MbPath)  -- SENSOR_READ, R408
  | threshSet (path : MbPath)  -- THRESH_SET, R408
  | logRead (path : MbPath)  -- LOG_READ, R416
  | fwStage (path : MbPath)  -- FW_STAGE, R423
  | fwActivate (path : MbPath)  -- FW_ACTIVATE, R424
  | fwCommit (path : MbPath)  -- FW_COMMIT, R424
  | attest (path : MbPath)  -- ATTEST, R427
  | getCert (path : MbPath)  -- GET_CERT, R426
  | lockSet (path : MbPath)  -- LOCK_SET, R430
  | tokenAssign (path : MbPath)  -- TOKEN_ASSIGN, R409
  | lock (src : Source) (v : BitVec 8)  -- LOCK, R430
  | sensorSample (i : Fin 84) (v : BitVec 16) (ok : Bool)  -- SENSOR_SAMPLE, R411
  | tripSample (i : Fin 64) (v : BitVec 16)  -- TRIP_SAMPLE, R412
  | logWrite  -- LOG_WRITE, R415
  | boot  -- BOOT, R421
  | mult (src : Source) (v : BitVec 8)  -- MULT, R435
  | relockDone  -- RELOCK_DONE, R435
  | lockLost  -- LOCK_LOST, R437
  | pllRelock  -- PLL_RELOCK, R437
  | halfCfg (src : Source) (west east : Fin 4)  -- HALF_CFG, R438
  | throttleWindow  -- THROTTLE_WINDOW, R441
  | capTrip  -- CAP_TRIP, R442
  | capTripRelease  -- CAP_TRIP_RELEASE, R442
  | domEn (src : Source) (w : Fin 11) (v : Word32)  -- DOM_EN, R446
  | domainOn (d : Fin 325)  -- DOMAIN_ON, R451
  | domainLow (d : Fin 325)  -- DOMAIN_LOW, R451
  | watchWake (temps : List (BitVec 16)) (panel cables : List Bool)  -- WATCH_WAKE, R455
  | powerOn  -- POWER_ON, R461
  | supplyFault (vm : Fin 16)  -- SUPPLY_FAULT, R461
  | cold (src : Source) (key : BitVec 16)  -- COLD, R462
  | compute (src : Source) (key : BitVec 16)  -- COMPUTE, R463
  | computeResetEnd  -- COMPUTE_RESET_END, R463
  | tileMap (src : Source) (n : TileId) (phys : BitVec 9)  -- TILE_MAP, R468
  | rowfixSoft (src : Source) (slice : Fin 64) (bank : Fin 16) (row : BitVec 8)  -- ROWFIX_SOFT, R469
  | tfwGo (src : Source)  -- TFW_GO, R471
  | tfwLoadEnd (failed : List TileId)  -- TFW_LOAD_END, R471
  | bistGo (src : Source)  -- BIST_GO, R474
  | bistTargetStart (kind : Fin 6) (inst : Fin 512)  -- BIST_TARGET_START, R477
  | bistTargetEnd (kind : Fin 6) (inst : Fin 512) (sig : Word64)  -- BIST_TARGET_END, R480
  | bistAbort  -- BIST_ABORT, R482
  | verdictPass  -- VERDICT_PASS, R481
  | verdictFail  -- VERDICT_FAIL, R481
  | bistRecord  -- BIST_RECORD, R483
  | twinRole (src : Source) (v : Fin 8)  -- TWIN_ROLE, R489
  | twinHbSend  -- TWIN_HB_SEND, R492
  | twinHb (p : Fin 8) (u : TwinUnit)  -- TWIN_HB, R493
  | twinWindow  -- TWIN_WINDOW, R493
  | takeover  -- TAKEOVER, R494
  | roleConflict  -- ROLE_CONFLICT, R497
  | sick (src : Source) (on : Bool)  -- SICK, R496
  | stepWatchdog  -- STEP_WATCHDOG, R492
  | handover (src : Source)  -- HANDOVER, R498
  | handoverRequest (p : Fin 8) (u : TwinUnit)  -- HANDOVER_REQUEST, R498
  | handoverAck (p : Fin 8) (u : TwinUnit)  -- HANDOVER_ACK, R498
  | handoverTimeout  -- HANDOVER_TIMEOUT, R498
  | detach (src : Source)  -- DETACH, R500
  | detachUnit (p : Fin 8) (u : TwinUnit)  -- DETACH_UNIT, R499
  | buttonPress  -- BUTTON_PRESS, R502
  | buttonRelease (ms : Nat)  -- BUTTON_RELEASE, R502
  | longPress  -- LONG_PRESS, R502
  | padChargeCycle (ns : BitVec 16)  -- PAD_CHARGE_CYCLE, R501
  | padFault  -- PAD_FAULT, R501
  | latch  -- LATCH, R502
  | cable (pres : BitVec 10)  -- CABLE, R502
  | wrap (t : Fin 16)  -- WRAP, R506
  | matchOp (t : Fin 16)  -- MATCH, R506
  | hold (src : Source) (t : Fin 16)  -- HOLD, R508
  | holdRelease (src : Source) (t : Fin 16)  -- HOLD_RELEASE, R508
  | gtCntRead (src : Source) (t : Fin 16)  -- GT_CNT_READ, R508
  | capture (i : Fin 16) (falling : Bool) (read : Option Source)  -- CAPTURE, R509
  | pendingCapture (i : Fin 16) (falling : Bool)  -- PENDING_CAPTURE, R510
  | inputPowerLoss (torn : Bool)  -- INPUT_POWER_LOSS, R3
  | rootPllLock  -- ROOT_PLL_LOCK, R441
  | pcieLinkTrained (speed : Fin 8) (width : Fin 32) (flit : Bool)  -- PCIE_LINK_TRAINED, R369
  | configurationRequest (req : CfgReq)  -- CONFIGURATION_REQUEST, R370
  | completionTimeout (tag : BitVec 10)  -- COMPLETION_TIMEOUT, R380
  | tick (t : Fin 16)  -- TICK, R506
  | latchCloses  -- LATCH_CLOSES, R502
  | upset (t : UpsetTarget)  -- UPSET, R68
  | coreHalt (core : Fin 2) (addr : Nat)  -- CORE_HALT, R517
deriving DecidableEq, Repr

end Sys2Proof
end

