-- ==== Sys2Proof/Decode.lean ====
section
/-! DEFINITION. The command that a word spells by the bits of spec/opcode_table.json. No row of that table gives a bit: a command comes to the module as an event or a register access, not as a word, so no word spells
one. The 128-bit lane and global words of a stream image, which the spec does encode, are decoded and encoded in Machine/Slots.lean. -/
namespace Sys2Proof

/-- The command that a table word spells: none. -/
def decodeTableWord (nbits w : Nat) : Option Instr :=
  let _ := (nbits, w)
  none

end Sys2Proof
end

