-- ==== Sys2Proof/Config.lean ====
section
/-! DEFINITION. What an implementation fixes, and the free values: values the spec leaves open. None has a body, so no
proof can see them and every claim holds for all of them. Free values that a fresh draw gives are applied to the counter
`State.fresh`. -/
namespace Sys2Proof.Config

/-- A fresh undefined value of w bits: the k-th draw of the run (log entry 7). -/
opaque freeBits (w : Nat) (k : Nat) : BitVec w

/-- The content of a byte whose memory has lost its contents: the number of the loss and the address (R117, R118; log entry 8). -/
opaque lostByte (loss addr : Nat) : Byte

/-- Whether a word that has not been initialised after OFF reads as uncorrectable (R120; log entry 8). -/
opaque lostUncorr (loss word : Nat) : Bool

/-- SHAKE256 with a 32-byte output (R419, R420, R426; NIST standard, not restated by the spec; log entry 9). -/
opaque shake256 : List Byte → List Byte

/-- XMSS-SHAKE256_20_256 verification: key, message, signature (R419; log entry 9). -/
opaque xmssVerify : List Byte → List Byte → List Byte → Bool

/-- XMSS-SHAKE256_20_256 signature, 2,820 bytes: seed, index, message (R427; log entry 9). -/
opaque xmssSign : Nat → Nat → List Byte → BitVec 22560

/-- The device's public key of 68 bytes, from the identity seed (R426; log entry 9). -/
opaque xmssPublic : Nat → List Byte

/-- SEV of a log record that R521 places in no class: its CODE (log entry 11). -/
opaque logSev (code : Nat) : Fin 4

/-- DATA of the record of a self-test pass (R520; log entry 11): its failed targets. -/
opaque bistData (failed : List (Nat × Nat)) : List Byte

/-- CODE and DATA of the record of an image that the gauntlet has refused (R421 step 3; log entry 11): the slot. -/
opaque refusedRecord (slot : Nat) : BitVec 16 × List Byte

/-- The digests of the two vendor keys in fuses (R3, R419; log entry 6). -/
opaque vendorDigest : Fin 2 → List Byte

/-- The bytes of the fuse map, from the marked physical tiles and the repaired slice rows, as FUSE_TAG (R483) and M3 (R420) take them (log entry 6). -/
opaque fuseMap : List Nat → List (Nat × Nat × Nat) → List Byte

/-! Vector results that the spec bounds or leaves open (log entry 13). -/

/-- Which of the values within the stated error an approximating operation returns: operation, operands (R127). -/
opaque ulpPick (op : Nat) (args : List Nat) : Nat

/-- VMAX and VMIN with a NaN operand or with zeros of both signs (R125, R127). -/
opaque vmaxOpen (isMin : Bool) (a b : Nat) : Word32

/-- VLERP where the places at which it rounds matter: K, VA, VB (R125). -/
opaque vlerpOpen (k a b : Nat) : Word32

/-- VRED SUMSQ where the rounding of the squares matters (R125, R128). -/
opaque vsumsqOpen (xs : List Nat) : Word32

/-- A lane of VSCAN where the shape of the prefix network matters: inputs, carry, lane (R128). -/
opaque vscanOpen (xs : List Nat) (carry lane : Nat) : Word32

/-- A lane of VSCANL where the shape of the prefix network matters: decays, inputs, carry, lane (R128). -/
opaque vscanlOpen (as bs : List Nat) (carry lane : Nat) : Word32

/-- VLOG2 of a zero (R125). -/
opaque log2Zero (x : Nat) : Word32

/-- VCVT to INT32 of a value that no INT32 is near: NaN, an infinity, out of range (R125). -/
opaque cvtInt (x : Nat) : Word32

/-- VCVT from BF16 to a 32-bit type: the element that a lane takes (R125 does not say). -/
opaque cvtWiden (lane : Nat) : Fin 256

/-- VCVT from a 32-bit type to BF16: the lane that an element takes, if any (R125 does not say). -/
opaque cvtNarrow (elem : Nat) : Option (Fin 128)

/-- VCVT from a 32-bit type to BF16: an element that takes no lane, a function of the inputs (R125; R128 makes equal inputs give equal results). -/
opaque cvtRest (xs : List Nat) (elem : Nat) : BitVec 16

/-- VCMP with BF16: the mask bit of a lane whose two elements compare differently (R125 does not say). -/
opaque bfCmpBit (lane : Nat) (lo hi : Bool) : Bool

/-- The stage of a tile's generator that supplies bit i of 16 random bits (R147; log entry 15). -/
opaque rngTap (i : Nat) : Fin 64

/-- Which neighbour a UE4M3 scale takes when 2^-D leaves it between two (R144; log entry 15). -/
opaque ueRound (m : Nat) (e : Int) : Bool

/-- Which of the two NaN codes of E4M3 or E5M2 a NaN input is written as (R145; log entry 15). -/
opaque quantNanNeg (x : Nat) : Bool

/-- The crossing count where both differences overflow to infinity: V, V_RESET, θ (R182; log entry 17). -/
opaque crossOpen (v vreset theta : Nat) : Fin 8

/-- The PCI-SIG vendor ID, which the spec does not state (R369; log entry 28). -/
opaque vendorId : BitVec 16

/-- The answers to Get MCTP Version Support and Get Message Type Support, which the spec does not state (R383; log entry 28). -/
opaque mctpVersions : List Byte
opaque mctpTypes : List Byte

end Sys2Proof.Config
end

