-- ==== Sys2Proof/Machine/Fields.lean ====
section
/-! DEFINITION. Every named register field of the spec (the field tables of chapters 02 to 16), one constant per field, named
PAGE.REGISTER.FIELD as the spec names it. `fld off lo width reset` is a field whose register stands at BAR0 offset `off`,
with its lowest bit, its width and its reset value. Parameters select an instance page (tile n, slice s, channel c, port p,
mover m, context page k) and an index of a repeated register (i, j). Reset entries given as "fuse" take the value of
log entry 6. The BAR4 send windows (R376) are placed above the 64 MiB of BAR0, at 0x8010000. -/
namespace Sys2Proof.Machine.Reg

/-- Nominal voltage in mV of monitor VM0 to VM15 (R524). -/
def rail (i : Nat) : Nat :=
  [750, 750, 850, 850, 800, 800, 900, 1200, 500, 1050, 900, 900, 1800, 3300, 1800, 12000].getD i 0

/-- p percent of the nominal voltage, rounded to the nearest mV, halves up (R524; log entry 6). -/
def percent (p i : Nat) : Nat := (rail i * p + 50) / 100

/-- The fused default thresholds of sensor i at grade code g (R7, R524): k = 0 WARN_HI, 1 CRIT_HI, 2 CRIT_LO, 3 HYST. -/
def thrOf (g k i : Nat) : Nat :=
  if i < 64 then [0x05F0, 0x0690, 0xFD80, 0x0020].getD k 0
  else if i < 80 then percent ([105, 108, 92, 1].getD k 0) (i - 64)
  else if i = 80 then (if g = 1 then [2500, 2625, 0, 50] else if g = 2 then [3750, 3938, 0, 50] else [5000, 5250, 0, 50]).getD k 0
  else if i = 81 then (if g = 1 then [3000, 3150, 0, 100] else if g = 2 then [4500, 4725, 0, 100] else [6000, 6300, 0, 100]).getD k 0
  else if i = 82 then [0x0280, 0x0320, 0xFF60, 0x0010].getD k 0
  else [0x0460, 0x0500, 0xFF60, 0x0010].getD k 0

/-- The thresholds of the grade that State.reset's fuses hold (log entry 6). -/
def thrDefault (k i : Nat) : Nat := thrOf 3 k i

def HDR.BLK_VER.MAJOR (pg : Nat) : Field := fld (pg + 0x4) 8 8 1
def HDR.BLK_VER.MINOR (pg : Nat) : Field := fld (pg + 0x4) 0 8 0
def HDR.BLK_CTRL.SRST (pg : Nat) : Field := fld (pg + 0xC) 31 1 0
def HDR.BLK_CTRL.MODE (pg : Nat) : Field := fld (pg + 0xC) 1 1 0
def HDR.BLK_CTRL.EN (pg : Nat) : Field := fld (pg + 0xC) 0 1 0
def HDR.BLK_STAT.REFUSED (pg : Nat) : Field := fld (pg + 0x10) 3 1 0
def HDR.BLK_STAT.ERR (pg : Nat) : Field := fld (pg + 0x10) 2 1 0
def HDR.BLK_STAT.BUSY (pg : Nat) : Field := fld (pg + 0x10) 1 1 0
def HDR.BLK_STAT.READY (pg : Nat) : Field := fld (pg + 0x10) 0 1 0
def HDR.BLK_REASON.OFFSET (pg : Nat) : Field := fld (pg + 0x14) 8 12 0
def HDR.BLK_REASON.CODE (pg : Nat) : Field := fld (pg + 0x14) 0 8 0
def HDR.BLK_IRQ_STAT.BLK_SPEC (pg : Nat) : Field := fld (pg + 0x18) 4 28 0
def HDR.BLK_IRQ_STAT.READY_UP (pg : Nat) : Field := fld (pg + 0x18) 2 1 0
def HDR.BLK_IRQ_STAT.ERR (pg : Nat) : Field := fld (pg + 0x18) 1 1 0
def HDR.BLK_IRQ_STAT.REFUSED (pg : Nat) : Field := fld (pg + 0x18) 0 1 0
def HDR.BLK_IRQ_EN.EN (pg : Nat) : Field := fld (pg + 0x1C) 0 32 0
def HDR.BLK_IRQ_VEC.DEST (pg : Nat) : Field := fld (pg + 0x20) 16 2 3
def HDR.BLK_IRQ_VEC.VEC (pg : Nat) : Field := fld (pg + 0x20) 0 11 0
def HDR.BLK_VOTE.VOTE (pg : Nat) : Field := fld (pg + 0x24) 0 8 0
def GLOBAL.MOD_ID.PART : Field := fld 0x40 16 16 0x9200
def GLOBAL.MOD_ID.STEPPING : Field := fld 0x40 8 8 0xB0
def GLOBAL.MOD_ID.GRADE : Field := fld 0x40 0 2 3
def GLOBAL.TMR_FIX_CNT.CNT : Field := fld 0x48 0 32 0
def GLOBAL.TMR_FIX_LOC.OFS : Field := fld 0x4C 0 26 0
def GLOBAL.REG_UNMAPPED_CNT.CNT : Field := fld 0x50 0 32 0
def GLOBAL.REG_UNMAPPED_OFS.OFS : Field := fld 0x54 0 26 0
def GLOBAL.REG_DOWN_CNT.CNT : Field := fld 0x58 0 32 0
def ISSUE.IMG_ADDR.ADDR : Field := fld 0x6040 0 48 0
def ISSUE.LOAD_CTRL.LOAD : Field := fld 0x6048 0 1 0
def ISSUE.LOAD_STAT.SEG_DONE : Field := fld 0x604C 16 16 0
def ISSUE.LOAD_STAT.FAILED : Field := fld 0x604C 1 1 0
def ISSUE.LOAD_STAT.LOADED : Field := fld 0x604C 0 1 0
def ISSUE.RUN_CTRL.STOP : Field := fld 0x6050 1 1 0
def ISSUE.RUN_CTRL.START : Field := fld 0x6050 0 1 0
def ISSUE.RUN_STAT.INDEX : Field := fld 0x6054 16 14 0
def ISSUE.RUN_STAT.COND : Field := fld 0x6054 9 7 0
def ISSUE.RUN_STAT.WAITING : Field := fld 0x6054 8 1 0
def ISSUE.RUN_STAT.STATE : Field := fld 0x6054 0 3 0
def ISSUE.LAUNCH_CNT.CNT : Field := fld 0x6058 0 64 0
def ISSUE.WAIT_CYC.CNT : Field := fld 0x6060 0 64 0
def ISSUE.HALT_CAUSE.INDEX : Field := fld 0x6068 16 14 0
def ISSUE.HALT_CAUSE.TILE : Field := fld 0x6068 8 8 0
def ISSUE.HALT_CAUSE.TILE_VALID : Field := fld 0x6068 7 1 0
def ISSUE.HALT_CAUSE.CAUSE : Field := fld 0x6068 0 4 0
def ISSUE.WAIT_TMO.CYC : Field := fld 0x606C 0 32 0
def ISSUE.DBG_CTRL.STEP : Field := fld 0x6070 2 1 0
def ISSUE.DBG_CTRL.RESUME : Field := fld 0x6070 1 1 0
def ISSUE.DBG_CTRL.HALT : Field := fld 0x6070 0 1 0
def ISSUE.BRK_CFG.CNT_EN : Field := fld 0x6074 4 1 0
def ISSUE.BRK_CFG.IDX_EN : Field := fld 0x6074 0 4 0
def ISSUE.BRK_IDX.INDEX (i : Nat) : Field := fld (0x6078 + i * 0x4) 0 14 0
def ISSUE.BRK_CNT.CNT : Field := fld 0x6088 0 64 0
def ISSUE.DBELL.BELL : Field := fld 0x6090 0 32 0
def ISSUE.IMG_INFO.PLAN_E : Field := fld 0x6094 28 4 0
def ISSUE.IMG_INFO.PLAN_W : Field := fld 0x6094 26 2 0
def ISSUE.IMG_INFO.BOUNDS : Field := fld 0x6094 25 1 0
def ISSUE.IMG_INFO.FMT : Field := fld 0x6094 16 8 0
def ISSUE.IMG_INFO.LEN_M1 : Field := fld 0x6094 0 14 0
def ISSUE.RUN_MASK.TILES (i : Nat) : Field := fld (0x60A0 + i * 0x4) 0 32 0
def LANE.LANE_PC.DEPTH (n : Nat) : Field := fld (0x1002040 + n * 0x10000) 16 3 0
def LANE.LANE_PC.INDEX (n : Nat) : Field := fld (0x1002040 + n * 0x10000) 0 14 0
def LANE.LANE_CNT.CNT (n : Nat) : Field := fld (0x1002044 + n * 0x10000) 0 64 0
def LANE.LANE_ECC_CNT.CNT (n : Nat) : Field := fld (0x100204C + n * 0x10000) 0 32 0
def LANE.LANE_FAULT.INDEX (n : Nat) : Field := fld (0x1002050 + n * 0x10000) 16 14 0
def LANE.LANE_FAULT.STATUS (n : Nat) : Field := fld (0x1002050 + n * 0x10000) 8 8 0
def LANE.LANE_FAULT.CAUSE (n : Nat) : Field := fld (0x1002050 + n * 0x10000) 0 4 0
def TILE.TILE_INFO.HALF (n : Nat) : Field := fld (0x1000040 + n * 0x10000) 8 1 (n / 128)
def TILE.TILE_INFO.TILE (n : Nat) : Field := fld (0x1000040 + n * 0x10000) 0 8 n
def TILE.UNIT_RDY.RDY (n : Nat) : Field := fld (0x1000044 + n * 0x10000) 0 16 0
def TILE.ERR_SUM.ERR (n : Nat) : Field := fld (0x1000048 + n * 0x10000) 0 16 0
def STORE.BANK_PWR.STATE (n : Nat) : Field := fld (0x1001040 + n * 0x10000) 0 32 0
def STORE.BANK_PSTAT.STATE (n : Nat) : Field := fld (0x1001044 + n * 0x10000) 0 32 0
def STORE.BANK_INIT.INIT (n : Nat) : Field := fld (0x1001048 + n * 0x10000) 0 16 0
def STORE.CONF_CNT.CNT (n : Nat) : Field := fld (0x100104C + n * 0x10000) 0 32 0
def STORE.CONF_ADDR.KIND (n : Nat) : Field := fld (0x1001050 + n * 0x10000) 30 2 0
def STORE.CONF_ADDR.OFS (n : Nat) : Field := fld (0x1001050 + n * 0x10000) 0 22 0
def STORE.ECC_CE_CNT.CNT (n : Nat) : Field := fld (0x1001054 + n * 0x10000) 0 32 0
def STORE.ECC_UE_CNT.CNT (n : Nat) : Field := fld (0x1001058 + n * 0x10000) 0 32 0
def STORE.ECC_ADDR.UNIT (n : Nat) : Field := fld (0x100105C + n * 0x10000) 28 4 0
def STORE.ECC_ADDR.OFS (n : Nat) : Field := fld (0x100105C + n * 0x10000) 0 22 0
def STORE.SCRUB_CFG.INTERVAL (n : Nat) : Field := fld (0x1001060 + n * 0x10000) 0 16 0
def STORE.BANK_OFF_CNT.CNT (n : Nat) : Field := fld (0x1001064 + n * 0x10000) 0 32 0
def SCALAR.SREG_SEL.REG (n : Nat) : Field := fld (0x1003040 + n * 0x10000) 0 5 0
def SCALAR.SREG_DATA.DATA (n : Nat) : Field := fld (0x1003048 + n * 0x10000) 0 64 0
def VECTOR.VREG_SEL.REG (n : Nat) : Field := fld (0x1004040 + n * 0x10000) 8 5 0
def VECTOR.VREG_SEL.LANE (n : Nat) : Field := fld (0x1004040 + n * 0x10000) 0 7 0
def VECTOR.VREG_DATA.DATA (n : Nat) : Field := fld (0x1004044 + n * 0x10000) 0 32 0
def VECTOR.MASK_DATA.BITS (n i : Nat) : Field := fld (0x1004048 + n * 0x10000 + i * 0x4) 0 32 0
def VECTOR.VCARRY.VALUE (n : Nat) : Field := fld (0x1004068 + n * 0x10000) 0 32 0
def VECTOR.VEC_FLAGS.DIVZERO (n : Nat) : Field := fld (0x100406C + n * 0x10000) 2 1 0
def VECTOR.VEC_FLAGS.OVERFLOW (n : Nat) : Field := fld (0x100406C + n * 0x10000) 1 1 0
def VECTOR.VEC_FLAGS.INVALID (n : Nat) : Field := fld (0x100406C + n * 0x10000) 0 1 0
def VECTOR.KREG.VALUE (n i : Nat) : Field := fld (0x1004080 + n * 0x10000 + i * 0x4) 0 32 0
def ARRAY.ARR_STAT.SWAP_PEND (n : Nat) : Field := fld (0x1005040 + n * 0x10000) 3 1 0
def ARRAY.ARR_STAT.DRAINER (n : Nat) : Field := fld (0x1005040 + n * 0x10000) 2 1 0
def ARRAY.ARR_STAT.STREAMER (n : Nat) : Field := fld (0x1005040 + n * 0x10000) 1 1 0
def ARRAY.ARR_STAT.LOADER (n : Nat) : Field := fld (0x1005040 + n * 0x10000) 0 1 0
def ARRAY.ARR_FAULT.INDEX (n : Nat) : Field := fld (0x1005044 + n * 0x10000) 16 14 0
def ARRAY.ARR_FAULT.AOP (n : Nat) : Field := fld (0x1005044 + n * 0x10000) 12 4 0
def ARRAY.ARR_FAULT.DESC (n : Nat) : Field := fld (0x1005044 + n * 0x10000) 8 4 0
def ARRAY.ARR_FAULT.CODE (n : Nat) : Field := fld (0x1005044 + n * 0x10000) 0 3 0
def ARRAY.MAC_ROWS.CNT (n : Nat) : Field := fld (0x1005048 + n * 0x10000) 0 64 0
def ARRAY.DESC_W0.A_FMT (n i : Nat) : Field := fld (0x1005400 + n * 0x10000 + i * 0x40) 28 4 0
def ARRAY.DESC_W0.B_FMT (n i : Nat) : Field := fld (0x1005400 + n * 0x10000 + i * 0x40) 24 4 0
def ARRAY.DESC_W0.A_SFMT (n i : Nat) : Field := fld (0x1005400 + n * 0x10000 + i * 0x40) 22 2 0
def ARRAY.DESC_W0.B_SFMT (n i : Nat) : Field := fld (0x1005400 + n * 0x10000 + i * 0x40) 20 2 0
def ARRAY.DESC_W0.GSIZE (n i : Nat) : Field := fld (0x1005400 + n * 0x10000 + i * 0x40) 18 2 0
def ARRAY.DESC_W0.OVW (n i : Nat) : Field := fld (0x1005400 + n * 0x10000 + i * 0x40) 17 1 0
def ARRAY.DESC_W0.QCH (n i : Nat) : Field := fld (0x1005400 + n * 0x10000 + i * 0x40) 12 4 0
def ARRAY.DESC_W1.A_ADDR (n i : Nat) : Field := fld (0x1005404 + n * 0x10000 + i * 0x40) 0 22 0
def ARRAY.DESC_W2.OUT_STRIDE (n i : Nat) : Field := fld (0x1005408 + n * 0x10000 + i * 0x40) 16 16 0
def ARRAY.DESC_W2.A_STRIDE (n i : Nat) : Field := fld (0x1005408 + n * 0x10000 + i * 0x40) 0 16 0
def ARRAY.DESC_W3.A_SCL (n i : Nat) : Field := fld (0x100540C + n * 0x10000 + i * 0x40) 0 22 0
def ARRAY.DESC_W4.B_ADDR (n i : Nat) : Field := fld (0x1005410 + n * 0x10000 + i * 0x40) 0 22 0
def ARRAY.DESC_W5.B_SCL (n i : Nat) : Field := fld (0x1005414 + n * 0x10000 + i * 0x40) 0 22 0
def ARRAY.DESC_W6.GSTRIDE (n i : Nat) : Field := fld (0x1005418 + n * 0x10000 + i * 0x40) 16 9 0
def ARRAY.DESC_W6.ACC_BASE (n i : Nat) : Field := fld (0x1005418 + n * 0x10000 + i * 0x40) 0 9 0
def ARRAY.DESC_W7.OUT_ADDR (n i : Nat) : Field := fld (0x100541C + n * 0x10000 + i * 0x40) 0 22 0
def ARRAY.DESC_W8.OUT_SCL (n i : Nat) : Field := fld (0x1005420 + n * 0x10000 + i * 0x40) 0 22 0
def QUANT.RNG_SEED.SEED (n : Nat) : Field := fld (0x1006040 + n * 0x10000) 0 64 0
def QUANT.VQ_SEL.CH (n : Nat) : Field := fld (0x1006048 + n * 0x10000) 0 4 0
def QUANT.DQ_RANGE_CNT.CNT (n : Nat) : Field := fld (0x1006050 + n * 0x10000) 0 32 0
def QUANT.DQ_NAN_CNT.CNT (n : Nat) : Field := fld (0x1006054 + n * 0x10000) 0 32 0
def QUANT.CH_CFG.BOUND (n i : Nat) : Field := fld (0x1006100 + n * 0x10000 + i * 0x20) 31 1 0
def QUANT.CH_CFG.TENSOR (n i : Nat) : Field := fld (0x1006100 + n * 0x10000 + i * 0x20) 24 6 0
def QUANT.CH_CFG.FMT (n i : Nat) : Field := fld (0x1006100 + n * 0x10000 + i * 0x20) 16 4 0
def QUANT.CH_CFG.SFMT (n i : Nat) : Field := fld (0x1006100 + n * 0x10000 + i * 0x20) 12 2 0
def QUANT.CH_CFG.GSIZE (n i : Nat) : Field := fld (0x1006100 + n * 0x10000 + i * 0x20) 8 2 0
def QUANT.CH_CFG.RND (n i : Nat) : Field := fld (0x1006100 + n * 0x10000 + i * 0x20) 4 2 0
def QUANT.CH_CFG.SMODE (n i : Nat) : Field := fld (0x1006100 + n * 0x10000 + i * 0x20) 0 1 0
def QUANT.CH_EXP.BASE (n i : Nat) : Field := fld (0x1006104 + n * 0x10000 + i * 0x20) 24 8 0
def QUANT.CH_EXP.D (n i : Nat) : Field := fld (0x1006104 + n * 0x10000 + i * 0x20) 8 8 0
def QUANT.CH_AMAX.AMAX (n i : Nat) : Field := fld (0x1006108 + n * 0x10000 + i * 0x20) 0 32 0
def QUANT.CH_CLIP.CNT (n i : Nat) : Field := fld (0x100610C + n * 0x10000 + i * 0x20) 0 32 0
def QUANT.CH_VAL.CNT (n i : Nat) : Field := fld (0x1006110 + n * 0x10000 + i * 0x20) 0 32 0
def QUANT.CH_QNAN.CNT (n i : Nat) : Field := fld (0x1006118 + n * 0x10000 + i * 0x20) 0 32 0
def QUANT.CH_SHARE.SHARE (n i : Nat) : Field := fld (0x1006114 + n * 0x10000 + i * 0x20) 0 16 0
def STATS.MSE_CFG.EN (n i : Nat) : Field := fld (0x100E040 + n * 0x10000 + i * 0x4) 4 1 0
def STATS.MSE_CFG.CH (n i : Nat) : Field := fld (0x100E040 + n * 0x10000 + i * 0x4) 0 4 0
def STATS.MSE_ERR.SUM (n i : Nat) : Field := fld (0x100E080 + n * 0x10000 + i * 0x10) 0 64 0
def STATS.MSE_SQ.SUM (n i : Nat) : Field := fld (0x100E088 + n * 0x10000 + i * 0x10) 0 64 0
def SCALE.CFG.FLAG_EN : Field := fld 0xC040 5 1 0
def SCALE.CFG.ON_STEP : Field := fld 0xC040 4 1 0
def SCALE.CFG.FLAG : Field := fld 0xC040 0 4 0
def SCALE.CTRL.APPLY : Field := fld 0xC044 1 1 0
def SCALE.CTRL.RETUNE : Field := fld 0xC044 0 1 0
def SCALE.STAT.TIMEOUT : Field := fld 0xC048 2 1 0
def SCALE.STAT.DONE : Field := fld 0xC048 1 1 0
def SCALE.STAT.ACTIVE : Field := fld 0xC048 0 1 0
def SCALE.OVERRUN_CNT.CNT : Field := fld 0xC04C 0 32 0
def SCALE.LATE_CNT.CNT : Field := fld 0xC050 0 32 0
def SCALE.TILE_MASK.TILES (i : Nat) : Field := fld (0xC060 + i * 0x4) 0 32 0
def SCALE.T_CFG.EN (i : Nat) : Field := fld (0xC200 + i * 0x20) 31 1 0
def SCALE.T_CFG.FMT (i : Nat) : Field := fld (0xC200 + i * 0x20) 24 4 0
def SCALE.T_CFG.HIST (i : Nat) : Field := fld (0xC200 + i * 0x20) 20 4 0
def SCALE.T_CFG.TARGET (i : Nat) : Field := fld (0xC200 + i * 0x20) 0 16 0
def SCALE.T_LIM.DMAX (i : Nat) : Field := fld (0xC204 + i * 0x20) 8 8 0
def SCALE.T_LIM.DMIN (i : Nat) : Field := fld (0xC204 + i * 0x20) 0 8 0
def SCALE.T_EXP.EXP (i : Nat) : Field := fld (0xC208 + i * 0x20) 0 32 0
def SCALE.T_AMAX.VALUE (i : Nat) : Field := fld (0xC20C + i * 0x20) 0 32 0
def SCALE.T_CLIP.VALUE (i : Nat) : Field := fld (0xC210 + i * 0x20) 0 32 0
def SCALE.T_VAL.VALUE (i : Nat) : Field := fld (0xC214 + i * 0x20) 0 32 0
def EVENT.EVT_CFG.DROP_POL (n : Nat) : Field := fld (0x1007040 + n * 0x10000) 8 1 0
def EVENT.EVT_CFG.COAL_WIN (n : Nat) : Field := fld (0x1007040 + n * 0x10000) 0 7 0x40
def EVENT.EVT_CTRL.STOP (n : Nat) : Field := fld (0x1007044 + n * 0x10000) 2 1 0
def EVENT.EVT_CTRL.DRAIN (n : Nat) : Field := fld (0x1007044 + n * 0x10000) 1 1 0
def EVENT.EVT_CTRL.START (n : Nat) : Field := fld (0x1007044 + n * 0x10000) 0 1 0
def EVENT.EVT_STAT.FIFO_OCC (n : Nat) : Field := fld (0x1007048 + n * 0x10000) 16 13 0
def EVENT.EVT_STAT.IDLE (n : Nat) : Field := fld (0x1007048 + n * 0x10000) 2 1 1
def EVENT.EVT_STAT.STATE (n : Nat) : Field := fld (0x1007048 + n * 0x10000) 0 2 0
def EVENT.DROP_FULL_CNT.CNT (n : Nat) : Field := fld (0x100704C + n * 0x10000) 0 32 0
def EVENT.DROP_DEAD_CNT.CNT (n : Nat) : Field := fld (0x1007050 + n * 0x10000) 0 32 0
def EVENT.LATE_CNT.CNT (n : Nat) : Field := fld (0x1007054 + n * 0x10000) 0 32 0
def EVENT.DROP_LATE_CNT.CNT (n : Nat) : Field := fld (0x1007058 + n * 0x10000) 0 32 0
def EVENT.EVT_APPLIED.CNT (n : Nat) : Field := fld (0x1007060 + n * 0x10000) 0 64 0
def EVENT.ACC_CNT.CNT (n : Nat) : Field := fld (0x1007068 + n * 0x10000) 0 64 0
def EVENT.ROW_FETCH.CNT (n : Nat) : Field := fld (0x1007070 + n * 0x10000) 0 64 0
def EVENT.DROP_EVT.EVT (n : Nat) : Field := fld (0x1007078 + n * 0x10000) 0 64 0
def EVENT.DROP_WHY.WHY (n : Nat) : Field := fld (0x1007080 + n * 0x10000) 0 3 0
def EVENT.FIFO_HWM.HWM (n : Nat) : Field := fld (0x1007084 + n * 0x10000) 0 13 0
def NEURON.N_CFG.N_M1 (n : Nat) : Field := fld (0x1008040 + n * 0x10000) 16 16 0
def NEURON.N_CFG.NB (n : Nat) : Field := fld (0x1008040 + n * 0x10000) 8 5 1
def NEURON.N_CFG.BANK0 (n : Nat) : Field := fld (0x1008040 + n * 0x10000) 4 4 0
def NEURON.STATE_LINE.LINE (n : Nat) : Field := fld (0x1008044 + n * 0x10000) 0 12 0
def NEURON.STATIC_BASE.OFS (n : Nat) : Field := fld (0x1008048 + n * 0x10000) 0 22 0
def NEURON.PSET_BASE.OFS (n : Nat) : Field := fld (0x1008050 + n * 0x10000) 0 22 0
def NEURON.WORLD.W_FIRST (n : Nat) : Field := fld (0x100804C + n * 0x10000) 16 14 0
def NEURON.WORLD.W_COUNT (n : Nat) : Field := fld (0x100804C + n * 0x10000) 0 15 1
def NEURON.PSET_CTRL.LOAD (n : Nat) : Field := fld (0x1008054 + n * 0x10000) 0 1 0
def NEURON.PSET_BAD.BAD (n : Nat) : Field := fld (0x1008058 + n * 0x10000) 0 64 0
def NEURON.FIRE_BASE0.OFS (n : Nat) : Field := fld (0x1008060 + n * 0x10000) 0 22 0
def NEURON.FIRE_BASE1.OFS (n : Nat) : Field := fld (0x1008064 + n * 0x10000) 0 22 0
def NEURON.FIRE_CAP.VALUE (n : Nat) : Field := fld (0x1008068 + n * 0x10000) 0 20 0
def NEURON.FIRE_CNT.VALUE (n : Nat) : Field := fld (0x100806C + n * 0x10000) 0 20 0
def NEURON.FIRE_OVF_CNT.CNT (n : Nat) : Field := fld (0x1008070 + n * 0x10000) 0 32 0
def NEURON.NEU_NAN_CNT.CNT (n : Nat) : Field := fld (0x1008074 + n * 0x10000) 0 32 0
def NEURON.NEU_SKIP_CNT.CNT (n : Nat) : Field := fld (0x1008078 + n * 0x10000) 0 32 0
def NEURON.RO_READY.READY (n : Nat) : Field := fld (0x1008080 + n * 0x10000) 0 16 0
def NEURON.RO_OVR_CNT.CNT (n : Nat) : Field := fld (0x1008084 + n * 0x10000) 0 32 0
def NEURON.RO_MISS_CNT.CNT (n : Nat) : Field := fld (0x1008088 + n * 0x10000) 0 32 0
def NEURON.RO_GRP_W0.EN (n i : Nat) : Field := fld (0x1008200 + n * 0x10000 + i * 0x10) 31 1 0
def NEURON.RO_GRP_W0.WIN (n i : Nat) : Field := fld (0x1008200 + n * 0x10000 + i * 0x10) 0 16 1
def NEURON.RO_GRP_W1.NEU (n i : Nat) : Field := fld (0x1008204 + n * 0x10000 + i * 0x10) 16 12 0
def NEURON.RO_GRP_W1.BASE (n i : Nat) : Field := fld (0x1008204 + n * 0x10000 + i * 0x10) 0 12 0
def NEURON.RO_GRP_W2.W_FIRST (n i : Nat) : Field := fld (0x1008208 + n * 0x10000 + i * 0x10) 16 14 0
def NEURON.RO_GRP_W2.W_COUNT (n i : Nat) : Field := fld (0x1008208 + n * 0x10000 + i * 0x10) 0 15 0
def NEURON.RO_GRP_W3.DEST (n i : Nat) : Field := fld (0x100820C + n * 0x10000 + i * 0x10) 0 22 0
def EGRESS.EGR_CFG.LATE_POL (n : Nat) : Field := fld (0x100B040 + n * 0x10000) 8 1 0
def EGRESS.EGR_WMAP.OFS (n : Nat) : Field := fld (0x100B044 + n * 0x10000) 16 14 0
def EGRESS.EGR_WMAP.MASK (n : Nat) : Field := fld (0x100B044 + n * 0x10000) 0 14 0x3FFF
def EGRESS.EGR_CTRL.DROP (n : Nat) : Field := fld (0x100B048 + n * 0x10000) 1 1 0
def EGRESS.EGR_CTRL.DEFER (n : Nat) : Field := fld (0x100B048 + n * 0x10000) 0 1 0
def EGRESS.EGR_STAT.RING_OCC (n : Nat) : Field := fld (0x100B04C + n * 0x10000) 16 14 0
def EGRESS.EGR_STAT.HOLD (n : Nat) : Field := fld (0x100B04C + n * 0x10000) 3 1 0
def EGRESS.EGR_STAT.REMNANT (n : Nat) : Field := fld (0x100B04C + n * 0x10000) 2 1 0
def EGRESS.EGR_STAT.WALKING (n : Nat) : Field := fld (0x100B04C + n * 0x10000) 1 1 0
def EGRESS.EGR_STAT.IDLE (n : Nat) : Field := fld (0x100B04C + n * 0x10000) 0 1 1
def EGRESS.DROP_RING_CNT.CNT (n : Nat) : Field := fld (0x100B050 + n * 0x10000) 0 32 0
def EGRESS.BAD_ENT_CNT.CNT (n : Nat) : Field := fld (0x100B054 + n * 0x10000) 0 32 0
def EGRESS.FIRE_DROP_CNT.CNT (n : Nat) : Field := fld (0x100B058 + n * 0x10000) 0 32 0
def EGRESS.LATE_DROP_CNT.CNT (n : Nat) : Field := fld (0x100B05C + n * 0x10000) 0 32 0
def EGRESS.EMIT_CNT.CNT (n : Nat) : Field := fld (0x100B060 + n * 0x10000) 0 64 0
def EGRESS.RING_HWM.HWM (n : Nat) : Field := fld (0x100B068 + n * 0x10000) 0 14 0
def EGRESS.BAD_LAST.WHY (n : Nat) : Field := fld (0x100B06C + n * 0x10000) 29 3 0
def EGRESS.BAD_LAST.SPACE (n : Nat) : Field := fld (0x100B06C + n * 0x10000) 28 1 0
def EGRESS.BAD_LAST.OFS (n : Nat) : Field := fld (0x100B06C + n * 0x10000) 0 28 0
def STEP.STEP_CFG.LEARN_EVERY : Field := fld 0x7040 24 8 0
def STEP.STEP_CFG.BGRP : Field := fld 0x7040 16 6 0
def STEP.STEP_CFG.PACED : Field := fld 0x7040 0 1 0
def STEP.STEP_PERIOD.NS : Field := fld 0x7044 0 32 0xF4240
def STEP.DUE.NS : Field := fld 0x7048 0 32 0xC3500
def STEP.STRETCH_MAX.NS : Field := fld 0x704C 0 32 0x186A0
def STEP.STEP_CTRL.EXTEND : Field := fld 0x7050 5 1 0
def STEP.STEP_CTRL.CLOSE : Field := fld 0x7050 4 1 0
def STEP.STEP_CTRL.HALT : Field := fld 0x7050 3 1 0
def STEP.STEP_CTRL.RUN : Field := fld 0x7050 2 1 0
def STEP.STEP_CTRL.ONE_LEARN : Field := fld 0x7050 1 1 0
def STEP.STEP_CTRL.ONE : Field := fld 0x7050 0 1 0
def STEP.STEP_STAT.RUN : Field := fld 0x7054 6 1 0
def STEP.STEP_STAT.PEND : Field := fld 0x7054 5 1 0
def STEP.STEP_STAT.HOLD : Field := fld 0x7054 4 1 0
def STEP.STEP_STAT.STRETCH : Field := fld 0x7054 3 1 0
def STEP.STEP_STAT.PHASE : Field := fld 0x7054 0 3 0
def STEP.STEP_CNT.CNT : Field := fld 0x7058 0 64 0
def STEP.LAST_CYC.CYC : Field := fld 0x7060 0 32 0
def STEP.STRETCH_CNT.CNT : Field := fld 0x7064 0 32 0
def STEP.LATE_STEP_CNT.CNT : Field := fld 0x7068 0 32 0
def STEP.OVERRUN_CNT.CNT : Field := fld 0x706C 0 32 0
def STEP.CMD_OVR_CNT.CNT : Field := fld 0x7070 0 32 0
def STEP.INJ_BAD_CNT.CNT : Field := fld 0x7074 0 32 0
def STEP.INJ_RING.ADDR : Field := fld 0x7080 0 48 0
def STEP.INJ_SIZE.LOG2 : Field := fld 0x7088 0 4 4
def STEP.INJ_HEAD.IDX : Field := fld 0x708C 0 15 0
def STEP.INJ_TAIL.IDX : Field := fld 0x7090 0 15 0
def STEP.TILE_MASK.TILES (i : Nat) : Field := fld (0x70A0 + i * 0x4) 0 32 0
def STEP.IGRP_W0.ENC (i : Nat) : Field := fld (0x7400 + i * 0x10) 30 2 0
def STEP.IGRP_W0.NCHAN (i : Nat) : Field := fld (0x7400 + i * 0x10) 0 16 0
def STEP.IGRP_W1.MAP_LO (i : Nat) : Field := fld (0x7404 + i * 0x10) 0 32 0
def STEP.IGRP_W2.MAP_HI (i : Nat) : Field := fld (0x7408 + i * 0x10) 0 16 0
def STEP.IGRP_W3.THR (i : Nat) : Field := fld (0x740C + i * 0x10) 0 32 0
def SYNAPSE.ROW_BASE.OFS (n : Nat) : Field := fld (0x1009040 + n * 0x10000) 0 22 0
def SYNAPSE.ROW_COUNT.COUNT (n : Nat) : Field := fld (0x1009044 + n * 0x10000) 0 17 0
def SYNAPSE.LOCK_TMO.CYC (n : Nat) : Field := fld (0x1009048 + n * 0x10000) 0 32 0
def SYNAPSE.HLOCK_CTRL.REL (n : Nat) : Field := fld (0x100904C + n * 0x10000) 17 1 0
def SYNAPSE.HLOCK_CTRL.REQ (n : Nat) : Field := fld (0x100904C + n * 0x10000) 16 1 0
def SYNAPSE.HLOCK_CTRL.ROW (n : Nat) : Field := fld (0x100904C + n * 0x10000) 0 16 0
def SYNAPSE.HLOCK_STAT.PEND (n : Nat) : Field := fld (0x1009050 + n * 0x10000) 17 1 0
def SYNAPSE.HLOCK_STAT.GRANT (n : Nat) : Field := fld (0x1009050 + n * 0x10000) 16 1 0
def SYNAPSE.HLOCK_STAT.ROW (n : Nat) : Field := fld (0x1009050 + n * 0x10000) 0 16 0
def SYNAPSE.ROW_BAD_CNT.CNT (n : Nat) : Field := fld (0x1009054 + n * 0x10000) 0 32 0
def SYNAPSE.TGT_SKIP_CNT.CNT (n : Nat) : Field := fld (0x1009058 + n * 0x10000) 0 32 0
def SYNAPSE.LOCK_WAIT_CNT.CNT (n : Nat) : Field := fld (0x100905C + n * 0x10000) 0 32 0
def SYNAPSE.LOCK_DROP_CNT.CNT (n : Nat) : Field := fld (0x1009060 + n * 0x10000) 0 32 0
def SYNAPSE.ROW_BAD_LAST.WHY (n : Nat) : Field := fld (0x1009064 + n * 0x10000) 29 3 0
def SYNAPSE.ROW_BAD_LAST.ROW (n : Nat) : Field := fld (0x1009064 + n * 0x10000) 0 16 0
def SYNAPSE.LOCK_WAIT_MAX.CYC (n : Nat) : Field := fld (0x1009068 + n * 0x10000) 0 32 0
def LEARN.CMD.GO (n : Nat) : Field := fld (0x100A040 + n * 0x10000) 31 1 0
def LEARN.CMD.ARGS (n : Nat) : Field := fld (0x100A040 + n * 0x10000) 0 24 0
def LEARN.STEP_CMD.ARGS (n : Nat) : Field := fld (0x100A044 + n * 0x10000) 0 24 0
def LEARN.STAT.ROW (n : Nat) : Field := fld (0x100A048 + n * 0x10000) 16 16 0
def LEARN.STAT.PROG_FAULT (n : Nat) : Field := fld (0x100A048 + n * 0x10000) 4 1 0
def LEARN.STAT.HOLD (n : Nat) : Field := fld (0x100A048 + n * 0x10000) 3 1 0
def LEARN.STAT.DONE (n : Nat) : Field := fld (0x100A048 + n * 0x10000) 2 1 0
def LEARN.STAT.DLY_PEND (n : Nat) : Field := fld (0x100A048 + n * 0x10000) 1 1 0
def LEARN.STAT.BUSY (n : Nat) : Field := fld (0x100A048 + n * 0x10000) 0 1 0
def LEARN.CTRL.DONE (n : Nat) : Field := fld (0x100A04C + n * 0x10000) 0 1 0
def LEARN.MOD_BASE.OFS (n : Nat) : Field := fld (0x100A050 + n * 0x10000) 0 22 0
def LEARN.POST_BASE.OFS (n : Nat) : Field := fld (0x100A054 + n * 0x10000) 0 22 0
def LEARN.TRC_L2R.VALUE (n : Nat) : Field := fld (0x100A058 + n * 0x10000) 0 32 0
def LEARN.TRC_L2S.VALUE (n : Nat) : Field := fld (0x100A05C + n * 0x10000) 0 32 0
def LEARN.INC_R.VALUE (n : Nat) : Field := fld (0x100A060 + n * 0x10000) 0 32 0
def LEARN.INC_S.VALUE (n : Nat) : Field := fld (0x100A064 + n * 0x10000) 0 32 0
def LEARN.DTHR.VALUE (n : Nat) : Field := fld (0x100A068 + n * 0x10000) 0 32 0
def LEARN.RANGE.LAST (n i : Nat) : Field := fld (0x100A070 + n * 0x10000 + i * 0x4) 16 16 0
def LEARN.RANGE.FIRST (n i : Nat) : Field := fld (0x100A070 + n * 0x10000 + i * 0x4) 0 16 0
def LEARN.WGRP.EN (n i : Nat) : Field := fld (0x100A080 + n * 0x10000 + i * 0x4) 31 1 0
def LEARN.WGRP.W_FIRST (n i : Nat) : Field := fld (0x100A080 + n * 0x10000 + i * 0x4) 16 14 0
def LEARN.WGRP.W_COUNT (n i : Nat) : Field := fld (0x100A080 + n * 0x10000 + i * 0x4) 0 15 0
def LEARN.ROWS_DONE.CNT (n : Nat) : Field := fld (0x100A0A0 + n * 0x10000) 0 32 0
def LEARN.CLAMP_CNT.CNT (n : Nat) : Field := fld (0x100A0A4 + n * 0x10000) 0 32 0
def LEARN.SKIP_CNT.CNT (n : Nat) : Field := fld (0x100A0A8 + n * 0x10000) 0 32 0
def LEARN.DLY_UP_CNT.CNT (n : Nat) : Field := fld (0x100A0AC + n * 0x10000) 0 32 0
def LEARN.DLY_DN_CNT.CNT (n : Nat) : Field := fld (0x100A0B0 + n * 0x10000) 0 32 0
def LEARN.DLY_FAIL_CNT.CNT (n : Nat) : Field := fld (0x100A0B4 + n * 0x10000) 0 32 0
def LEARN.CMD_DROP_CNT.CNT (n : Nat) : Field := fld (0x100A0B8 + n * 0x10000) 0 32 0
def LEARN.APPLY_CYC.CYC (n : Nat) : Field := fld (0x100A0C0 + n * 0x10000) 0 32 0
def LEARN.PROG.UOP (n i j : Nat) : Field := fld (0x100A200 + n * 0x10000 + i * 0x40 + j * 0x4) 0 32 0
def LEARN.CONST.VALUE (n i j : Nat) : Field := fld (0x100A300 + n * 0x10000 + i * 0x20 + j * 0x4) 0 32 0
def FAB0.NI_TMO.CYC : Field := fld 0x90040 0 32 0x40000
def FAB0.FENCE_TMO.CYC : Field := fld 0x90044 0 32 0x10000
def FAB0.RED_TMO.CYC : Field := fld 0x90048 0 32 0x10000
def FAB0.CRC_DROP_CNT.CNT : Field := fld 0x90050 0 32 0
def FAB0.UNMAPPED_CNT.CNT : Field := fld 0x90054 0 32 0
def FAB0.EP_DOWN_CNT.CNT : Field := fld 0x90058 0 32 0
def FAB0.LATE_RSP_CNT.CNT : Field := fld 0x9005C 0 32 0
def FAB0.FENCE_TMO_CNT.CNT : Field := fld 0x90060 0 32 0
def FAB0.COLL_ERR_CNT.CNT : Field := fld 0x90064 0 32 0
def FAB0.BAD_PKT_CNT.CNT : Field := fld 0x90068 0 32 0
def FAB0.CNET_PAR_CNT.CNT : Field := fld 0x9006C 0 32 0
def FAB0.CRC_LAST.SWITCH : Field := fld 0x90070 24 6 0
def FAB0.CRC_LAST.PORT : Field := fld 0x90070 16 5 0
def FAB0.CRC_LAST.EP : Field := fld 0x90070 0 9 0
def FAB0.UNMAPPED_LAST.SRC_EP : Field := fld 0x90078 48 9 0
def FAB0.UNMAPPED_LAST.ADDR : Field := fld 0x90078 0 48 0
def FAB0.EP_DOWN_LAST.EP : Field := fld 0x90080 0 9 0
def FAB0.COLL_ERR_LAST.WHY : Field := fld 0x90084 29 3 0
def FAB0.COLL_ERR_LAST.GROUP : Field := fld 0x90084 16 6 0
def FAB0.COLL_ERR_LAST.LINE : Field := fld 0x90084 0 16 0
def CUFF.CUFF_TMO.US : Field := fld 0x91040 0 16 0x64
def CUFF.CUFF_STAT.HELD_E2W : Field := fld 0x91044 12 12 0
def CUFF.CUFF_STAT.HELD_W2E : Field := fld 0x91044 0 12 0
def CUFF.CUFF_HOLD_CNT.CNT : Field := fld 0x91048 0 32 0
def CUFF.CUFF_DROP_CNT.CNT : Field := fld 0x9104C 0 32 0
def CUFF.CUFF_HOLD_MAX.US : Field := fld 0x91050 0 32 0
def SNET.FLAGS.FLAG : Field := fld 0x92040 0 16 0
def SNET.BAR_TMO.CYC : Field := fld 0x92044 0 32 0
def SNET.BAR_DONE.DONE (i : Nat) : Field := fld (0x92048 + i * 0x4) 0 32 0
def SNET.BAR_TMO_STAT.TMO (i : Nat) : Field := fld (0x92050 + i * 0x4) 0 32 0
def SNET.BAR_ERR_CNT.CNT : Field := fld 0x92058 0 32 0
def SNET.BAR_TMO_CNT.CNT : Field := fld 0x9205C 0 32 0
def SNETM.BAR_MASK.TILES (i j : Nat) : Field := fld (0x93100 + i * 0x20 + j * 0x4) 0 32 0
def REDUCE.RG_MASK.TILES (i j : Nat) : Field := fld (0x94100 + i * 0x30 + j * 0x4) 0 32 0
def REDUCE.RG_CFG.VALID (i : Nat) : Field := fld (0x94120 + i * 0x30) 31 1 0
def REDUCE.RG_CFG.MODE (i : Nat) : Field := fld (0x94120 + i * 0x30) 30 1 0
def REDUCE.RG_CFG.OP (i : Nat) : Field := fld (0x94120 + i * 0x30) 27 3 0
def REDUCE.RG_CFG.SPINE (i : Nat) : Field := fld (0x94120 + i * 0x30) 23 4 0
def REDUCE.RG_CFG.DEPTH_M1 (i : Nat) : Field := fld (0x94120 + i * 0x30) 18 5 0
def REDUCE.RG_CFG.ROOT_EP (i : Nat) : Field := fld (0x94120 + i * 0x30) 9 9 0
def REDUCE.RG_DEST.OFS (i : Nat) : Field := fld (0x94124 + i * 0x30) 0 32 0
def SLICE.COMB_CFG.EN (s : Nat) : Field := fld (0x2000080 + s * 0x1000) 0 1 1
def SLICE.COMB_HIT_CNT.CNT (s : Nat) : Field := fld (0x2000084 + s * 0x1000) 0 32 0
def SLICE.COMB_FULL_CNT.CNT (s : Nat) : Field := fld (0x2000088 + s * 0x1000) 0 32 0
def QUEUE.QSTALL_TMO.CYC (n : Nat) : Field := fld (0x100C040 + n * 0x10000) 0 32 0x100000
def QUEUE.TX_GUARD.CYC (n : Nat) : Field := fld (0x100C044 + n * 0x10000) 0 32 0x800000
def QUEUE.STALL_A.WAITER (n : Nat) : Field := fld (0x100C048 + n * 0x10000) 16 16 0
def QUEUE.STALL_A.RX (n : Nat) : Field := fld (0x100C048 + n * 0x10000) 0 16 0
def QUEUE.STALL_B.OWN_VALID (n : Nat) : Field := fld (0x100C04C + n * 0x10000) 16 1 0
def QUEUE.STALL_B.OWN_TX (n : Nat) : Field := fld (0x100C04C + n * 0x10000) 0 16 0
def QUEUE.STALL_CTRL.HOLD (n : Nat) : Field := fld (0x100C050 + n * 0x10000) 2 1 0
def QUEUE.STALL_CTRL.RETAIN (n : Nat) : Field := fld (0x100C050 + n * 0x10000) 1 1 0
def QUEUE.STALL_CTRL.DISCARD (n : Nat) : Field := fld (0x100C050 + n * 0x10000) 0 1 0
def QUEUE.TX_STAT.BUSY (n : Nat) : Field := fld (0x100C054 + n * 0x10000) 0 4 0
def QUEUE.TX_MSG_CNT.CNT (n i : Nat) : Field := fld (0x100C060 + n * 0x10000 + i * 0x4) 0 32 0
def QUEUE.TX_STALL_CNT.CNT (n i : Nat) : Field := fld (0x100C070 + n * 0x10000 + i * 0x4) 0 32 0
def QUEUE.TX_DEAD_CNT.CNT (n : Nat) : Field := fld (0x100C080 + n * 0x10000) 0 32 0
def QUEUE.TX_LATE_CNT.CNT (n : Nat) : Field := fld (0x100C084 + n * 0x10000) 0 32 0
def QUEUE.RX_DEAD_CNT.CNT (n : Nat) : Field := fld (0x100C088 + n * 0x10000) 0 32 0
def QUEUE.BAD_CNT.CNT (n : Nat) : Field := fld (0x100C08C + n * 0x10000) 0 32 0
def QUEUE.QCFG.OPEN (n i : Nat) : Field := fld (0x100C100 + n * 0x10000 + i * 0x4) 31 1 0
def QUEUE.QCFG.COMB (n i : Nat) : Field := fld (0x100C100 + n * 0x10000 + i * 0x4) 30 1 0
def QUEUE.QCFG.TYPE (n i : Nat) : Field := fld (0x100C100 + n * 0x10000 + i * 0x4) 29 1 0
def QUEUE.QCFG.NOTIFY (n i : Nat) : Field := fld (0x100C100 + n * 0x10000 + i * 0x4) 28 1 0
def QUEUE.QCFG.FLAG (n i : Nat) : Field := fld (0x100C100 + n * 0x10000 + i * 0x4) 24 4 0
def QUEUE.QCFG.EXPECT (n i : Nat) : Field := fld (0x100C100 + n * 0x10000 + i * 0x4) 12 12 0
def QUEUE.QSTAT.HELD (n i : Nat) : Field := fld (0x100C200 + n * 0x10000 + i * 0x4) 16 1 0
def QUEUE.QSTAT.READY (n i : Nat) : Field := fld (0x100C200 + n * 0x10000 + i * 0x4) 8 6 0
def QUEUE.QSTAT.OCC (n i : Nat) : Field := fld (0x100C200 + n * 0x10000 + i * 0x4) 0 6 0
def QUEUE2.HEAD_SEL.Q (n : Nat) : Field := fld (0x100D040 + n * 0x10000) 0 6 0
def QUEUE2.HEAD_INFO.STATUS (n : Nat) : Field := fld (0x100D048 + n * 0x10000) 0 64 0
def QUEUE2.HEAD_CTRL.POP (n : Nat) : Field := fld (0x100D050 + n * 0x10000) 0 1 0
def QUEUE2.COMB_FLUSH.GO (n : Nat) : Field := fld (0x100D054 + n * 0x10000) 31 1 0
def QUEUE2.COMB_FLUSH.KEY (n : Nat) : Field := fld (0x100D054 + n * 0x10000) 6 16 0
def QUEUE2.COMB_FLUSH.Q (n : Nat) : Field := fld (0x100D054 + n * 0x10000) 0 6 0
def QUEUE2.QECC_CE_CNT.CNT (n : Nat) : Field := fld (0x100D058 + n * 0x10000) 0 32 0
def QUEUE2.QECC_UE_CNT.CNT (n : Nat) : Field := fld (0x100D05C + n * 0x10000) 0 32 0
def QUEUE2.HEAD_DATA.DATA (n i : Nat) : Field := fld (0x100D080 + n * 0x10000 + i * 0x4) 0 32 0
def QUEUE2.RX_MSG_CNT.CNT (n i : Nat) : Field := fld (0x100D100 + n * 0x10000 + i * 0x4) 0 32 0
def QUEUE2.RX_STALL_CNT.CNT (n i : Nat) : Field := fld (0x100D200 + n * 0x10000 + i * 0x4) 0 32 0
def FL.PORT_CFG.MIN_W (p : Nat) : Field := fld (0x60040 + p * 0x4000) 14 2 0
def FL.PORT_CFG.FAILOVER (p : Nat) : Field := fld (0x60040 + p * 0x4000) 8 1 0
def FL.PORT_CFG.ROLE (p : Nat) : Field := fld (0x60040 + p * 0x4000) 0 3 0
def FL.DOWN_DET.US (p : Nat) : Field := fld (0x60044 + p * 0x4000) 0 4 0xA
def FL.PORT_STAT.VER (p : Nat) : Field := fld (0x60048 + p * 0x4000) 24 8 0
def FL.PORT_STAT.WIDTH (p : Nat) : Field := fld (0x60048 + p * 0x4000) 14 2 0
def FL.PORT_STAT.STATE (p : Nat) : Field := fld (0x60048 + p * 0x4000) 0 3 0
def FL.PEER.VALID (p : Nat) : Field := fld (0x6004C + p * 0x4000) 31 1 0
def FL.PEER.PORT (p : Nat) : Field := fld (0x6004C + p * 0x4000) 28 3 0
def FL.PEER.VER (p : Nat) : Field := fld (0x6004C + p * 0x4000) 20 8 0
def FL.PEER.ID (p : Nat) : Field := fld (0x6004C + p * 0x4000) 0 12 0
def FL.TOK_RX.STEP (p : Nat) : Field := fld (0x60050 + p * 0x4000) 0 32 0
def FL.TOK_TX.STEP (p : Nat) : Field := fld (0x60054 + p * 0x4000) 0 32 0
def FL.BARX.EN (p i : Nat) : Field := fld (0x60060 + p * 0x4000 + i * 0x4) 31 1 0
def FL.BARX.GROUP (p i : Nat) : Field := fld (0x60060 + p * 0x4000 + i * 0x4) 16 6 0
def FL.BARX.FLAG (p i : Nat) : Field := fld (0x60060 + p * 0x4000 + i * 0x4) 0 4 0
def FL.XCOL_W0.EN (p i : Nat) : Field := fld (0x60080 + p * 0x4000 + i * 0x10) 31 1 0
def FL.XCOL_W0.GROUP (p i : Nat) : Field := fld (0x60080 + p * 0x4000 + i * 0x10) 16 6 0
def FL.XCOL_W0.DEPTH_M1 (p i : Nat) : Field := fld (0x60080 + p * 0x4000 + i * 0x10) 0 6 0
def FL.XCOL_W1.DEST_LO (p i : Nat) : Field := fld (0x60084 + p * 0x4000 + i * 0x10) 0 32 0
def FL.XCOL_W2.DEST_HI (p i : Nat) : Field := fld (0x60088 + p * 0x4000 + i * 0x10) 0 16 0
def FL.MOD_ID.VALID (p : Nat) : Field := fld (0x60200 + p * 0x4000) 31 1 0
def FL.MOD_ID.ID (p : Nat) : Field := fld (0x60200 + p * 0x4000) 0 12 0
def FL.RT_SEL.BANK (p : Nat) : Field := fld (0x60204 + p * 0x4000) 0 1 0
def FL.RT_STAT.MISS (p : Nat) : Field := fld (0x60208 + p * 0x4000) 24 8 0
def FL.RT_STAT.AUTO (p : Nat) : Field := fld (0x60208 + p * 0x4000) 8 1 0
def FL.RT_STAT.SWITCHES (p : Nat) : Field := fld (0x60208 + p * 0x4000) 0 8 0
def FL.XSYNC_CFG.EN (p : Nat) : Field := fld (0x6020C + p * 0x4000) 31 1 0
def FL.XSYNC_CFG.XDELAY_MIN (p : Nat) : Field := fld (0x6020C + p * 0x4000) 16 6 1
def FL.XSYNC_CFG.LOOKAHEAD (p : Nat) : Field := fld (0x6020C + p * 0x4000) 0 4 1
def FL.EVT_LIFE.US (p : Nat) : Field := fld (0x60210 + p * 0x4000) 0 16 0x32
def FL.BCAST_FWD.PORTS (p i : Nat) : Field := fld (0x60220 + p * 0x4000 + i * 0x4) 0 8 0
def FLR.RT_CHK.RULE (p : Nat) : Field := fld (0x61040 + p * 0x4000) 29 3 0
def FLR.RT_CHK.ID (p : Nat) : Field := fld (0x61040 + p * 0x4000) 0 12 0
def FLC.FEC_CW_CNT.CNT (p : Nat) : Field := fld (0x63040 + p * 0x4000) 0 32 0
def FLC.FEC_UNC_CNT.CNT (p : Nat) : Field := fld (0x63044 + p * 0x4000) 0 32 0
def FLC.CRC_DROP_CNT.CNT (p : Nat) : Field := fld (0x63048 + p * 0x4000) 0 32 0
def FLC.DOWN_CNT.CNT (p : Nat) : Field := fld (0x6304C + p * 0x4000) 0 32 0
def FLC.XEVT_FULL_CNT.CNT (p : Nat) : Field := fld (0x63050 + p * 0x4000) 0 32 0
def FLC.XEVT_FAR_CNT.CNT (p : Nat) : Field := fld (0x63054 + p * 0x4000) 0 32 0
def FLC.XEVT_LATE_CNT.CNT (p : Nat) : Field := fld (0x63058 + p * 0x4000) 0 32 0
def FLC.XEVT_LIFE_CNT.CNT (p : Nat) : Field := fld (0x6305C + p * 0x4000) 0 32 0
def FLC.XEVT_NONNBR_CNT.CNT (p : Nat) : Field := fld (0x63060 + p * 0x4000) 0 32 0
def FLC.XEVT_XDELAY_CNT.CNT (p : Nat) : Field := fld (0x63064 + p * 0x4000) 0 32 0
def FLC.XCOL_NOGRANT_CNT.CNT (p : Nat) : Field := fld (0x63068 + p * 0x4000) 0 32 0
def FLC.BCAST_DROP_CNT.CNT (p : Nat) : Field := fld (0x6306C + p * 0x4000) 0 32 0
def FLC.RX_UNITS.CNT (p : Nat) : Field := fld (0x63070 + p * 0x4000) 0 64 0
def FLC.TX_UNITS.CNT (p : Nat) : Field := fld (0x63078 + p * 0x4000) 0 64 0
def FLC.RT_NOROUTE_CNT.CNT (p : Nat) : Field := fld (0x63080 + p * 0x4000) 0 32 0
def FLC.RT_PORTDOWN_CNT.CNT (p : Nat) : Field := fld (0x63084 + p * 0x4000) 0 32 0
def FLC.RT_UTURN_CNT.CNT (p : Nat) : Field := fld (0x63088 + p * 0x4000) 0 32 0
def FLC.RT_TURN_CNT.CNT (p : Nat) : Field := fld (0x6308C + p * 0x4000) 0 32 0
def FLC.RT_DL2_CNT.CNT (p : Nat) : Field := fld (0x63090 + p * 0x4000) 0 32 0
def FLC.RT_RESET_CNT.CNT (p : Nat) : Field := fld (0x63094 + p * 0x4000) 0 32 0
def FLC.RT_DROP_LAST.WHY (p : Nat) : Field := fld (0x63098 + p * 0x4000) 28 4 0
def FLC.RT_DROP_LAST.IN (p : Nat) : Field := fld (0x63098 + p * 0x4000) 24 4 0
def FLC.RT_DROP_LAST.DST_MOD (p : Nat) : Field := fld (0x63098 + p * 0x4000) 0 12 0
def MEM.MEM_CFG.BIN_MIN (c : Nat) : Field := fld (0x40040 + c * 0x1000) 4 2 2
def MEM.MEM_CFG.BIN_MAX (c : Nat) : Field := fld (0x40040 + c * 0x1000) 0 2 0
def MEM.MEM_STAT.TEMP (c : Nat) : Field := fld (0x40044 + c * 0x1000) 8 4 0
def MEM.MEM_STAT.BIN (c : Nat) : Field := fld (0x40044 + c * 0x1000) 4 2 0
def MEM.MEM_STAT.RECAL (c : Nat) : Field := fld (0x40044 + c * 0x1000) 3 1 0
def MEM.MEM_STAT.STATE (c : Nat) : Field := fld (0x40044 + c * 0x1000) 0 3 0
def MEM.TRAIN_CTRL.RETRAIN (c : Nat) : Field := fld (0x40048 + c * 0x1000) 0 1 0
def MEM.RECAL_CFG.INTERVAL (c : Nat) : Field := fld (0x4004C + c * 0x1000) 0 16 0x64
def MEM.SCRUB_CFG.INTERVAL (c : Nat) : Field := fld (0x40050 + c * 0x1000) 0 16 0
def MEM.ECC_CE_CNT.CNT (c : Nat) : Field := fld (0x40054 + c * 0x1000) 0 32 0
def MEM.ECC_UE_CNT.CNT (c : Nat) : Field := fld (0x40058 + c * 0x1000) 0 32 0
def MEM.RMW_CNT.CNT (c : Nat) : Field := fld (0x4005C + c * 0x1000) 0 32 0
def MEM.NRDY_CNT.CNT (c : Nat) : Field := fld (0x40060 + c * 0x1000) 0 32 0
def MEM.ECC_ADDR.EP (c : Nat) : Field := fld (0x40068 + c * 0x1000) 32 9 0
def MEM.ECC_ADDR.ADDR (c : Nat) : Field := fld (0x40068 + c * 0x1000) 0 32 0
def MEM.RD_BYTES.CNT (c : Nat) : Field := fld (0x40070 + c * 0x1000) 0 64 0
def MEM.WR_BYTES.CNT (c : Nat) : Field := fld (0x40078 + c * 0x1000) 0 64 0
def MOVER.MV_CFG.RETRY_GAP (m : Nat) : Field := fld (0x20040 + m * 0x800) 16 16 0x40
def MOVER.MV_CFG.RETRY_MAX (m : Nat) : Field := fld (0x20040 + m * 0x800) 8 8 0x10
def MOVER.MV_CFG.POST (m : Nat) : Field := fld (0x20040 + m * 0x800) 1 1 0
def MOVER.MV_CFG.ERR_STOP (m : Nat) : Field := fld (0x20040 + m * 0x800) 0 1 1
def MOVER.RING_BASE.ADDR (m : Nat) : Field := fld (0x20048 + m * 0x800) 0 48 0
def MOVER.RING_SIZE.LOG2 (m : Nat) : Field := fld (0x20050 + m * 0x800) 0 5 4
def MOVER.RING_HEAD.IDX (m : Nat) : Field := fld (0x20054 + m * 0x800) 0 16 0
def MOVER.RING_TAIL.IDX (m : Nat) : Field := fld (0x20058 + m * 0x800) 0 16 0
def MOVER.MV_STAT.DONE_FLAG (m : Nat) : Field := fld (0x2005C + m * 0x800) 8 1 0
def MOVER.MV_STAT.OUTSTANDING (m : Nat) : Field := fld (0x2005C + m * 0x800) 0 5 0
def MOVER.MV_STAT2.STATE (m : Nat) : Field := fld (0x20060 + m * 0x800) 0 3 0
def MOVER.MV_CTRL.RESUME (m : Nat) : Field := fld (0x20064 + m * 0x800) 3 1 0
def MOVER.MV_CTRL.ABORT (m : Nat) : Field := fld (0x20064 + m * 0x800) 2 1 0
def MOVER.MV_CTRL.SKIP (m : Nat) : Field := fld (0x20064 + m * 0x800) 1 1 0
def MOVER.MV_CTRL.RETRY (m : Nat) : Field := fld (0x20064 + m * 0x800) 0 1 0
def MOVER.LAST_STATUS.VALUE (m : Nat) : Field := fld (0x20068 + m * 0x800) 0 32 0
def MOVER.ERR_DESC.VALUE (m : Nat) : Field := fld (0x2006C + m * 0x800) 0 32 0
def MOVER.ERR_OFS.VALUE (m : Nat) : Field := fld (0x20070 + m * 0x800) 0 32 0
def MOVER.DESC_CNT.CNT (m : Nat) : Field := fld (0x20074 + m * 0x800) 0 32 0
def MOVER.BUSY_CNT.CNT (m : Nat) : Field := fld (0x20078 + m * 0x800) 0 32 0
def MOVER.POST_DROP_CNT.CNT (m : Nat) : Field := fld (0x2007C + m * 0x800) 0 32 0
def MOVER.WB_FAIL_CNT.CNT (m : Nat) : Field := fld (0x20080 + m * 0x800) 0 32 0
def MOVER.MV_BYTES.CNT (m : Nat) : Field := fld (0x20088 + m * 0x800) 0 64 0
def CHECK.CHK_CFG.BIND (c : Nat) : Field := fld (0x10040 + c * 0x1000) 4 2 0
def CHECK.CHK_CFG.POLY (c : Nat) : Field := fld (0x10040 + c * 0x1000) 0 2 0
def CHECK.SCAN_ADDR.ADDR (c : Nat) : Field := fld (0x10048 + c * 0x1000) 0 48 0
def CHECK.SCAN_LEN.LEN (c : Nat) : Field := fld (0x10050 + c * 0x1000) 0 30 0
def CHECK.SCAN_CTRL.ABORT (c : Nat) : Field := fld (0x10054 + c * 0x1000) 4 1 0
def CHECK.SCAN_CTRL.CONT (c : Nat) : Field := fld (0x10054 + c * 0x1000) 3 1 0
def CHECK.SCAN_CTRL.OP (c : Nat) : Field := fld (0x10054 + c * 0x1000) 1 2 0
def CHECK.SCAN_CTRL.GO (c : Nat) : Field := fld (0x10054 + c * 0x1000) 0 1 0
def CHECK.SCAN_STAT.CODE (c : Nat) : Field := fld (0x10058 + c * 0x1000) 8 8 0
def CHECK.SCAN_STAT.MISMATCH (c : Nat) : Field := fld (0x10058 + c * 0x1000) 3 1 0
def CHECK.SCAN_STAT.MATCH (c : Nat) : Field := fld (0x10058 + c * 0x1000) 2 1 0
def CHECK.SCAN_STAT.DONE (c : Nat) : Field := fld (0x10058 + c * 0x1000) 1 1 0
def CHECK.SCAN_STAT.HELD (c : Nat) : Field := fld (0x10058 + c * 0x1000) 0 1 0
def CHECK.CHK_RUN.VALUE (c : Nat) : Field := fld (0x10060 + c * 0x1000) 0 64 0
def CHECK.CHK_RESULT.VALUE (c : Nat) : Field := fld (0x10068 + c * 0x1000) 0 64 0
def CHECK.CHK_JOBS.CNT (c : Nat) : Field := fld (0x10070 + c * 0x1000) 0 32 0
def CHECK.CHK_FAIL_CNT.CNT (c : Nat) : Field := fld (0x10074 + c * 0x1000) 0 32 0
def WIN.LAUNCH.KEY (m : Nat) : Field := fld (0x8010040 + m * 0x100) 32 16 0
def WIN.LAUNCH.TMO (m : Nat) : Field := fld (0x8010040 + m * 0x100) 19 8 0
def WIN.LAUNCH.MODE (m : Nat) : Field := fld (0x8010040 + m * 0x100) 17 2 0
def WIN.LAUNCH.WORDS_M1 (m : Nat) : Field := fld (0x8010040 + m * 0x100) 14 3 0
def WIN.LAUNCH.QUEUE (m : Nat) : Field := fld (0x8010040 + m * 0x100) 8 6 0
def WIN.LAUNCH.TILE (m : Nat) : Field := fld (0x8010040 + m * 0x100) 0 8 0
def WIN.STATUS.DONE (m : Nat) : Field := fld (0x8010048 + m * 0x100) 31 1 0
def WIN.STATUS.BUSY (m : Nat) : Field := fld (0x8010048 + m * 0x100) 30 1 0
def WIN.STATUS.CODE (m : Nat) : Field := fld (0x8010048 + m * 0x100) 0 8 0
def GLOBAL.PCIE_STAT.DL_UP : Field := fld 0x100 13 1 0
def GLOBAL.PCIE_STAT.FLIT : Field := fld 0x100 12 1 0
def GLOBAL.PCIE_STAT.WIDTH : Field := fld 0x100 4 5 0
def GLOBAL.PCIE_STAT.SPEED : Field := fld 0x100 0 3 0
def GLOBAL.BAR2_BASE.BASE : Field := fld 0x108 30 18 0
def GLOBAL.HOST_ERR_CNT.CNT : Field := fld 0x110 0 32 0
def GLOBAL.POISON_CNT.CNT : Field := fld 0x114 0 32 0
def GLOBAL.HQ_BUSY_CNT.CNT : Field := fld 0x118 0 32 0
def GLOBAL.HOST_ERR_LAST.STATUS : Field := fld 0x120 52 4 0
def GLOBAL.HOST_ERR_LAST.ADDR : Field := fld 0x120 0 48 0
def SP.SP_CFG.TX_CHK (p : Nat) : Field := fld (0x80040 + p * 0x1000) 4 3 0
def SP.SP_CFG.RX_CHK (p : Nat) : Field := fld (0x80040 + p * 0x1000) 0 3 0
def SP.MAC.ADDR (p : Nat) : Field := fld (0x80048 + p * 0x1000) 0 48 0
def SP.IPV4.ADDR (p : Nat) : Field := fld (0x80050 + p * 0x1000) 0 32 0
def SP.IPV6.ADDR (p i : Nat) : Field := fld (0x80060 + p * 0x1000 + i * 0x4) 0 32 0
def SP.SP_STAT.MEDIA (p : Nat) : Field := fld (0x80070 + p * 0x1000) 2 2 0
def SP.SP_STAT.LINK (p : Nat) : Field := fld (0x80070 + p * 0x1000) 0 2 0
def SP.RX_FILTER_CNT.CNT (p : Nat) : Field := fld (0x80080 + p * 0x1000) 0 32 0
def SP.RX_NOCTX_CNT.CNT (p : Nat) : Field := fld (0x80084 + p * 0x1000) 0 32 0
def SP.RX_VER_CNT.CNT (p : Nat) : Field := fld (0x80088 + p * 0x1000) 0 32 0
def SP.RX_CRC_CNT.CNT (p : Nat) : Field := fld (0x8008C + p * 0x1000) 0 32 0
def SP.RX_LEN_CNT.CNT (p : Nat) : Field := fld (0x80090 + p * 0x1000) 0 32 0
def SP.RX_OVF_CNT.CNT (p : Nat) : Field := fld (0x80094 + p * 0x1000) 0 32 0
def SP.RX_FCS_CNT.CNT (p : Nat) : Field := fld (0x80098 + p * 0x1000) 0 32 0
def SP.RX_PAUSE_CNT.CNT (p : Nat) : Field := fld (0x8009C + p * 0x1000) 0 32 0
def SP.RX_RESET_CNT.CNT (p : Nat) : Field := fld (0x800A0 + p * 0x1000) 0 32 0
def SP.RX_FRAMES.CNT (p : Nat) : Field := fld (0x800B0 + p * 0x1000) 0 64 0
def SP.TX_FRAMES.CNT (p : Nat) : Field := fld (0x800B8 + p * 0x1000) 0 64 0
def SCTX.CTX_W0.EN (k i : Nat) : Field := fld (0x82200 + k * 0x1000 + i * 0x60) 31 1 0
def SCTX.CTX_W0.DIR (k i : Nat) : Field := fld (0x82200 + k * 0x1000 + i * 0x60) 30 1 0
def SCTX.CTX_W0.GATE (k i : Nat) : Field := fld (0x82200 + k * 0x1000 + i * 0x60) 29 1 0
def SCTX.CTX_W0.PORT (k i : Nat) : Field := fld (0x82200 + k * 0x1000 + i * 0x60) 28 1 0
def SCTX.CTX_W0.IPV6 (k i : Nat) : Field := fld (0x82200 + k * 0x1000 + i * 0x60) 27 1 0
def SCTX.CTX_W0.MATCH_SRC (k i : Nat) : Field := fld (0x82200 + k * 0x1000 + i * 0x60) 26 1 0
def SCTX.CTX_W0.UDP_DPORT (k i : Nat) : Field := fld (0x82200 + k * 0x1000 + i * 0x60) 0 16 0
def SCTX.CTX_W1.UDP_SPORT (k i : Nat) : Field := fld (0x82204 + k * 0x1000 + i * 0x60) 0 16 0
def SCTX.CTX_W2.PEER_IP (k i : Nat) : Field := fld (0x82208 + k * 0x1000 + i * 0x60) 0 32 0
def SCTX.CTX_W3.PEER_IP (k i : Nat) : Field := fld (0x8220C + k * 0x1000 + i * 0x60) 0 32 0
def SCTX.CTX_W4.PEER_IP (k i : Nat) : Field := fld (0x82210 + k * 0x1000 + i * 0x60) 0 32 0
def SCTX.CTX_W5.PEER_IP (k i : Nat) : Field := fld (0x82214 + k * 0x1000 + i * 0x60) 0 32 0
def SCTX.CTX_W6.PEER_MAC (k i : Nat) : Field := fld (0x82218 + k * 0x1000 + i * 0x60) 0 32 0
def SCTX.CTX_W7.PEER_MAC (k i : Nat) : Field := fld (0x8221C + k * 0x1000 + i * 0x60) 0 16 0
def SCTX.CTX_W8.W_FIRST (k i : Nat) : Field := fld (0x82220 + k * 0x1000 + i * 0x60) 16 14 0
def SCTX.CTX_W8.GROUP (k i : Nat) : Field := fld (0x82220 + k * 0x1000 + i * 0x60) 0 6 0
def SCTX.CTX_W8.T_FIRST (k i : Nat) : Field := fld (0x82220 + k * 0x1000 + i * 0x60) 8 8 0
def SCTX.CTX_W9.W_COUNT (k i : Nat) : Field := fld (0x82224 + k * 0x1000 + i * 0x60) 0 15 0
def SCTX.CTX_W9.MAX_PAYLOAD (k i : Nat) : Field := fld (0x82224 + k * 0x1000 + i * 0x60) 16 14 0
def SCTX.CTX_W10.BUF_BASE (k i : Nat) : Field := fld (0x82228 + k * 0x1000 + i * 0x60) 0 32 0
def SCTX.CTX_W11.BUF_BASE (k i : Nat) : Field := fld (0x8222C + k * 0x1000 + i * 0x60) 0 16 0
def SCTX.CTX_W12.GATE_TMO (k i : Nat) : Field := fld (0x82230 + k * 0x1000 + i * 0x60) 16 16 0
def SCTX.CTX_W12.BUF_LOG2 (k i : Nat) : Field := fld (0x82230 + k * 0x1000 + i * 0x60) 0 4 0
def SCTX.CTX_W13.SEQ_INIT (k i : Nat) : Field := fld (0x82234 + k * 0x1000 + i * 0x60) 0 32 0
def SCTX.CTX_W14.SEQ_NEXT (k i : Nat) : Field := fld (0x82238 + k * 0x1000 + i * 0x60) 0 32 0
def SCTX.CTX_W15.FRAMES (k i : Nat) : Field := fld (0x8223C + k * 0x1000 + i * 0x60) 0 32 0
def SCTX.CTX_W16.SEQ_GAP_CNT (k i : Nat) : Field := fld (0x82240 + k * 0x1000 + i * 0x60) 0 32 0
def SCTX.CTX_W17.SEQ_OLD_CNT (k i : Nat) : Field := fld (0x82244 + k * 0x1000 + i * 0x60) 0 32 0
def SCTX.CTX_W18.STALE_CNT (k i : Nat) : Field := fld (0x82248 + k * 0x1000 + i * 0x60) 0 32 0
def SCTX.CTX_W19.RING_FULL_CNT (k i : Nat) : Field := fld (0x8224C + k * 0x1000 + i * 0x60) 0 32 0
def SCTX.CTX_W20.GATE_TMO_CNT (k i : Nat) : Field := fld (0x82250 + k * 0x1000 + i * 0x60) 0 32 0
def SCTX.CTX_W21.HEAD (k i : Nat) : Field := fld (0x82254 + k * 0x1000 + i * 0x60) 16 16 0
def SCTX.CTX_W21.TAIL (k i : Nat) : Field := fld (0x82254 + k * 0x1000 + i * 0x60) 0 16 0
def SCTX.CTX_EVT.EVT (k : Nat) : Field := fld (0x82040 + k * 0x1000) 0 32 0
def CROWN.TOKEN.MOVES : Field := fld 0x1040 16 16 0
def CROWN.TOKEN.HOLDER : Field := fld 0x1040 0 2 0
def CROWN.HB.EAST : Field := fld 0x1044 1 1 0
def CROWN.HB.WEST : Field := fld 0x1044 0 1 0
def CROWN.HB_CFG.PERIOD : Field := fld 0x1048 0 16 0x3E8
def CROWN.HB_STAT.MISS_E : Field := fld 0x104C 4 4 0
def CROWN.HB_STAT.MISS_W : Field := fld 0x104C 0 4 0
def CROWN.NOHOLD_VEC.VEC : Field := fld 0x1050 0 11 0
def CROWN.MB_CTRL.GO : Field := fld 0x1060 0 1 0
def CROWN.MB_STAT.DONE : Field := fld 0x1064 1 1 0
def CROWN.MB_STAT.BUSY : Field := fld 0x1064 0 1 0
def CROWN.MB_DONE.COMPLETE : Field := fld 0x1068 0 1 0
def CROWN.LOG_NEXT.SEQ : Field := fld 0x1070 0 32 0
def CROWN.LOG_DROP_CNT.CNT : Field := fld 0x1078 0 32 0
def CROWN.LOG_WRAP_CNT.CNT : Field := fld 0x107C 0 32 0
def CROWN.LOG_TORN_CNT.CNT : Field := fld 0x1080 0 32 0
def CROWN.FW_STAT.SVN : Field := fld 0x1090 24 8 0
def CROWN.FW_STAT.ROLLBACK : Field := fld 0x1090 16 8 0
def CROWN.FW_STAT.STATE : Field := fld 0x1090 8 3 0
def CROWN.FW_STAT.TRIES : Field := fld 0x1090 4 2 0
def CROWN.FW_STAT.PEND_VALID : Field := fld 0x1090 3 1 0
def CROWN.FW_STAT.PEND : Field := fld 0x1090 2 1 0
def CROWN.FW_STAT.ACTIVE : Field := fld 0x1090 1 1 0
def CROWN.FW_STAT.BOOTED : Field := fld 0x1090 0 1 0
def CROWN.BOOT_CNT.CNT : Field := fld 0x1094 0 32 0
def CROWN.MB_REQ.DATA (i : Nat) : Field := fld (0x1400 + i * 0x4) 0 32 0
def CROWN.MB_RSP.DATA (i : Nat) : Field := fld (0x1500 + i * 0x4) 0 32 0
def CROWN.SENS_VAL.VALID (i : Nat) : Field := fld (0x1800 + i * 0x4) 31 1 0
def CROWN.SENS_VAL.STATE (i : Nat) : Field := fld (0x1800 + i * 0x4) 26 2 0
def CROWN.SENS_VAL.VALUE (i : Nat) : Field := fld (0x1800 + i * 0x4) 0 16 0
def CROWN.SENS_THR_HI.CRIT_HI (i : Nat) : Field := fld (0x1C00 + i * 0x8) 16 16 (thrDefault 1 i)
def CROWN.SENS_THR_HI.WARN_HI (i : Nat) : Field := fld (0x1C00 + i * 0x8) 0 16 (thrDefault 0 i)
def CROWN.SENS_THR_LO.HYST (i : Nat) : Field := fld (0x1C04 + i * 0x8) 16 16 (thrDefault 3 i)
def CROWN.SENS_THR_LO.CRIT_LO (i : Nat) : Field := fld (0x1C04 + i * 0x8) 0 16 (thrDefault 2 i)
def SECURITY.LOCK.BITS : Field := fld 0xB040 0 8 0
def SECURITY.PERM_LOCK.BITS : Field := fld 0xB044 0 8 0
def SECURITY.OTP_STAT.PROV : Field := fld 0xB048 31 1 1
def SECURITY.OTP_STAT.VKEY_REVOKE : Field := fld 0xB048 8 2 0
def SECURITY.OTP_STAT.ROLLBACK : Field := fld 0xB048 0 8 0
def SECURITY.DEV_ID.ID (i : Nat) : Field := fld (0xB050 + i * 0x4) 0 32 0
def SECURITY.SIG_LEFT.VALUE : Field := fld 0xB060 0 21 0
def SECURITY.SIG_NEXT.VALUE : Field := fld 0xB064 0 21 0
def SECURITY.MEAS.DATA (i j : Nat) : Field := fld (0xB100 + i * 0x20 + j * 0x4) 0 32 0
def CLOCK.RCLK_CFG.MULT : Field := fld 0x2040 0 8 100
def CLOCK.HALF_CFG.EAST : Field := fld 0x2044 2 2 0
def CLOCK.HALF_CFG.WEST : Field := fld 0x2044 0 2 0
def CLOCK.CLK_STAT.EAST_EFF : Field := fld 0x2048 6 2 2
def CLOCK.CLK_STAT.WEST_EFF : Field := fld 0x2048 4 2 2
def CLOCK.CLK_STAT.RELOCK : Field := fld 0x2048 2 1 0
def CLOCK.CLK_STAT.BYPASS : Field := fld 0x2048 1 1 1
def CLOCK.CLK_STAT.LOCK : Field := fld 0x2048 0 1 0
def CLOCK.LOCK_LOST_CNT.CNT : Field := fld 0x204C 0 32 0
def CLOCK.HALF_CHG_CNT.CNT : Field := fld 0x2050 0 32 0
def POWER.DOM_EN.EN (i : Nat) : Field := fld (0x3040 + i * 0x4) 0 32 (if i = 10 then 0x7 else 0xFFFFFFFF)
def POWER.LOW.OFF (i : Nat) : Field := fld (0x3080 + i * 0x4) 0 32 (if i = 10 then 0xF else 0xFFFFFFFF)
def POWER.VOTE_FAB_W.VOTE : Field := fld 0x30C0 0 8 0
def POWER.VOTE_FAB_E.VOTE : Field := fld 0x30C4 0 8 0
def POWER.VOTE_MEM.VOTE : Field := fld 0x30C8 0 8 0
def POWER.VOTE_CROWN.VOTE : Field := fld 0x30CC 0 8 0x10
def POWER.DOM_SEL.INDEX : Field := fld 0x3100 0 9 0
def POWER.DOM_STAT.VOTES : Field := fld 0x3104 24 8 0
def POWER.DOM_STAT.EN : Field := fld 0x3104 16 1 0
def POWER.DOM_STAT.LOW : Field := fld 0x3104 15 1 0
def POWER.DOM_STAT.STATE : Field := fld 0x3104 0 3 0
def POWER.RES_ON.CYC : Field := fld 0x3108 0 64 0
def POWER.RES_RET.CYC : Field := fld 0x3110 0 64 0
def POWER.RES_OFF.CYC : Field := fld 0x3118 0 64 0
def POWER.RES_WATCH.CYC : Field := fld 0x3120 0 64 0
def POWER.WATCH_CFG.EN : Field := fld 0x3140 31 1 0
def POWER.WATCH_CFG.PERIOD : Field := fld 0x3140 0 16 0x3E8
def POWER.WATCH_THR.TEMP_HI : Field := fld 0x3144 0 16 0x500
def POWER.WATCH_STAT.IN_WATCH : Field := fld 0x3148 31 1 0
def POWER.WATCH_STAT.CAUSE : Field := fld 0x3148 0 3 0
def POWER.WATCH_WAKES.CNT : Field := fld 0x314C 0 32 0
def POWER.CAP_TRIP_CNT.CNT : Field := fld 0x3198 0 32 0
def POWER.CAP_CFG.AUTO : Field := fld 0x3180 31 1 1
def POWER.CAP_CFG.CRIT_LEVEL : Field := fld 0x3180 24 4 8
def POWER.CAP_CFG.MARGIN : Field := fld 0x3180 16 8 0x14
def POWER.CAP_CFG.CAP : Field := fld 0x3180 0 10 600
def POWER.CAP_LEVEL.LEVEL : Field := fld 0x3184 0 4 0
def POWER.CAP_STAT.POWER : Field := fld 0x3188 16 16 0
def POWER.CAP_STAT.TRIP : Field := fld 0x3188 6 1 0
def POWER.CAP_STAT.CRIT : Field := fld 0x3188 5 1 0
def POWER.CAP_STAT.LEVEL : Field := fld 0x3188 0 4 0
def POWER.THROT_PER.CNT : Field := fld 0x3190 0 64 0
def RESET.RST_CTRL.KEY : Field := fld 0x4040 16 16 0
def RESET.RST_CTRL.COLD : Field := fld 0x4040 1 1 0
def RESET.RST_CTRL.COMPUTE : Field := fld 0x4040 0 1 0
def RESET.RST_STAT.COMP_ACTIVE : Field := fld 0x4044 8 1 0
def RESET.RST_STAT.COLD_CAUSE : Field := fld 0x4044 0 2 0
def RESET.COMP_CNT.CNT : Field := fld 0x4048 0 32 0
def RESET.RST_EVT_DROP_CNT.CNT : Field := fld 0x404C 0 32 0
def RESET.RST_REQ_CNT.CNT : Field := fld 0x4050 0 32 0
def RESET.RST_OTHER_DROP_CNT.CNT : Field := fld 0x4054 0 32 0
def RESET.FUSE_BAD.BAD (i : Nat) : Field := fld (0x4060 + i * 0x4) 0 32 0
def RESET.TFW_ADDR.ADDR : Field := fld 0x40C0 0 48 0
def RESET.TFW_LEN.VALUE : Field := fld 0x40C8 0 32 0
def RESET.TFW_CRC.VALUE : Field := fld 0x40CC 0 32 0
def RESET.TFW_CTRL.GO : Field := fld 0x40D0 0 1 0
def RESET.TFW_STAT.FAIL : Field := fld 0x40D4 1 1 0
def RESET.TFW_STAT.DONE : Field := fld 0x40D4 0 1 0
def RESET.TFW_MASK.TILES (i : Nat) : Field := fld (0x40E0 + i * 0x4) 0 32 0
def RESET.TFW_OK.TILES (i : Nat) : Field := fld (0x4100 + i * 0x4) 0 32 0
def RESET.TILE_MAP.PHYS (i : Nat) : Field := fld (0x4400 + i * 0x4) 0 9 (i + 8 * (i / 128))
def RESET.ROWFIX_SOFT.GO : Field := fld 0x4800 31 1 0
def RESET.ROWFIX_SOFT.ROW : Field := fld 0x4800 10 8 0
def RESET.ROWFIX_SOFT.BANK : Field := fld 0x4800 6 4 0
def RESET.ROWFIX_SOFT.SLICE : Field := fld 0x4800 0 6 0
def RESET.ROWFIX_CNT.ROWS (i : Nat) : Field := fld (0x4900 + i * 0x4) 0 7 0
def BIST.BIST_CFG.FORCE : Field := fld 0x5040 8 1 0
def BIST.BIST_CFG.MAX_CONC : Field := fld 0x5040 0 5 0x10
def BIST.SAVE_BASE.ADDR : Field := fld 0x5048 0 48 0
def BIST.BIST_CTRL.VERDICT_FAIL : Field := fld 0x5054 9 1 0
def BIST.BIST_CTRL.VERDICT_PASS : Field := fld 0x5054 8 1 0
def BIST.BIST_CTRL.KIND : Field := fld 0x5054 4 2 0
def BIST.BIST_CTRL.ABORT : Field := fld 0x5054 1 1 0
def BIST.BIST_CTRL.GO : Field := fld 0x5054 0 1 0
def BIST.BIST_STAT.RECORD_OK : Field := fld 0x5058 24 1 0
def BIST.BIST_STAT.RUNNING : Field := fld 0x5058 16 5 0
def BIST.BIST_STAT.DONE : Field := fld 0x5058 2 1 0
def BIST.BIST_STAT.HOLD : Field := fld 0x5058 1 1 0
def BIST.BIST_STAT.ACTIVE : Field := fld 0x5058 0 1 0
def BIST.TMASK.BITS (i : Nat) : Field := fld (0x5060 + i * 0x4) 0 32 0
def BIST.SMASK.BITS (i : Nat) : Field := fld (0x5080 + i * 0x4) 0 32 0
def BIST.MVMASK.BITS : Field := fld 0x5088 0 32 0
def BIST.XMASK.SWITCHES : Field := fld 0x508C 9 1 0
def BIST.XMASK.ISSUE : Field := fld 0x508C 8 1 0
def BIST.XMASK.CHECK : Field := fld 0x508C 0 8 0
def BIST.RES_SEL.TARGET : Field := fld 0x50A0 16 3 0
def BIST.RES_SEL.INST : Field := fld 0x50A0 0 9 0
def BIST.RES_SIG.SIG : Field := fld 0x50A8 0 64 0
def BIST.RES_INFO.VERDICT : Field := fld 0x50B0 29 3 0
def BIST.RES_INFO.COV : Field := fld 0x50B0 20 9 0
def BIST.RES_INFO.DUR : Field := fld 0x50B0 0 20 0
def BIST.HOLD_ID.TARGET : Field := fld 0x50B4 16 3 0
def BIST.HOLD_ID.INST : Field := fld 0x50B4 0 9 0
def BIST.FRESH.SKIPPED : Field := fld 0x50B8 1 1 0
def BIST.FRESH.FRESH : Field := fld 0x50B8 0 1 0
def BIST.FAIL_CNT.CNT : Field := fld 0x50C0 0 32 0
def BIST.SAVE_FAIL_CNT.CNT : Field := fld 0x50C4 0 32 0
def BIST.GOLD.SIG (i : Nat) : Field := fld (0x5100 + i * 0x8) 0 64 0
def TWIN.TWIN_ROLE.ROLE : Field := fld 0xA040 0 3 0
def TWIN.TWIN_CFG.ALT_EN : Field := fld 0xA044 31 1 0
def TWIN.TWIN_CFG.ALT_PORT : Field := fld 0xA044 24 3 0
def TWIN.TWIN_CFG.STEP_WD : Field := fld 0xA044 0 16 0
def TWIN.TWIN_CTRL.DETACH : Field := fld 0xA048 2 1 0
def TWIN.TWIN_CTRL.HANDOVER : Field := fld 0xA048 1 1 0
def TWIN.TWIN_CTRL.SICK : Field := fld 0xA048 0 1 0
def TWIN.TWIN_STAT.PEER_ID : Field := fld 0xA04C 20 12 0
def TWIN.TWIN_STAT.PEER_ROLE : Field := fld 0xA04C 16 3 0
def TWIN.TWIN_STAT.PAIRED : Field := fld 0xA04C 15 1 0
def TWIN.TWIN_STAT.HANDOVER_PEND : Field := fld 0xA04C 14 1 0
def TWIN.TWIN_STAT.HEALTHY : Field := fld 0xA04C 13 1 0
def TWIN.TWIN_STAT.MISS : Field := fld 0xA04C 0 4 0
def TWIN.HANDOVER_STEP.STEP : Field := fld 0xA050 0 64 0
def TWIN.TAKEOVER_CNT.CNT : Field := fld 0xA058 0 32 0
def TWIN.CONFLICT_CNT.CNT : Field := fld 0xA05C 0 32 0
def TWIN.HB_BAD_CNT.CNT : Field := fld 0xA060 0 32 0
def TWIN.SUPPR_CNT.CNT : Field := fld 0xA064 0 32 0
def PANEL.PANEL_CFG.LATCH_SICK : Field := fld 0x9040 31 1 1
def PANEL.PANEL_CFG.LONG_MS : Field := fld 0x9040 0 16 0xBB8
def PANEL.PANEL_CFG2.TOUCH_MS : Field := fld 0x9044 16 16 0x7D0
def PANEL.PANEL_CFG2.TOUCH_THR : Field := fld 0x9044 0 16 0x190
def PANEL.PANEL_CTRL.SAFE : Field := fld 0x9048 2 1 0
def PANEL.PANEL_CTRL.DETACHING : Field := fld 0x9048 1 1 0
def PANEL.PANEL_CTRL.IDENT : Field := fld 0x9048 0 1 0
def PANEL.PANEL_STAT.PAD_NS : Field := fld 0x904C 16 16 0
def PANEL.PANEL_STAT.LATCH_OPEN : Field := fld 0x904C 2 1 0
def PANEL.PANEL_STAT.TOUCHED : Field := fld 0x904C 1 1 0
def PANEL.PANEL_STAT.BUTTON : Field := fld 0x904C 0 1 0
def PANEL.CAGE_PRES.PRES : Field := fld 0x9050 0 10 0
def PANEL.LED_OVR.TWIN : Field := fld 0x9054 12 4 0
def PANEL.LED_OVR.ATTN : Field := fld 0x9054 8 4 0
def PANEL.LED_OVR.FAULT : Field := fld 0x9054 4 4 0
def PANEL.LED_OVR.POWER : Field := fld 0x9054 0 4 0
def PANEL.BOUNCE_CNT.CNT : Field := fld 0x9058 0 32 0
def PANEL.DETACH_DUP_CNT.CNT : Field := fld 0x905C 0 32 0
def PANEL.PAD_FAULT_CNT.CNT : Field := fld 0x9060 0 32 0
def PANEL.GPIO_DIR.PINS : Field := fld 0x9080 0 16 0
def PANEL.GPIO_OUT.PINS : Field := fld 0x9084 0 16 0
def PANEL.GPIO_IN.PINS : Field := fld 0x9088 0 16 0
def PANEL.GPIO_SRC.PIN (i : Nat) : Field := fld (0x9090 + i * 0x4) 0 32 0
def TIMERS.GT_CFG.PRESCALE (i : Nat) : Field := fld (0x8100 + i * 0x20) 16 16 0
def TIMERS.GT_CFG.DBG_FRZ (i : Nat) : Field := fld (0x8100 + i * 0x20) 8 1 0
def TIMERS.GT_CFG.OUTMODE (i : Nat) : Field := fld (0x8100 + i * 0x20) 6 2 0
def TIMERS.GT_CFG.CASC (i : Nat) : Field := fld (0x8100 + i * 0x20) 4 1 0
def TIMERS.GT_CFG.ONESHOT (i : Nat) : Field := fld (0x8100 + i * 0x20) 0 1 0
def TIMERS.GT_CTRL.HOLD (i : Nat) : Field := fld (0x8104 + i * 0x20) 1 1 0
def TIMERS.GT_CTRL.RUN (i : Nat) : Field := fld (0x8104 + i * 0x20) 0 1 0
def TIMERS.GT_CNT.VALUE (i : Nat) : Field := fld (0x8108 + i * 0x20) 0 32 0
def TIMERS.GT_TOP.VALUE (i : Nat) : Field := fld (0x810C + i * 0x20) 0 32 0xFFFFFFFF
def TIMERS.GT_CMP.VALUE (i : Nat) : Field := fld (0x8110 + i * 0x20) 0 32 0
def TIMERS.GT_STAT.CATCHUP (i : Nat) : Field := fld (0x8114 + i * 0x20) 8 8 0
def TIMERS.GT_STAT.CATCHUP_OVF (i : Nat) : Field := fld (0x8114 + i * 0x20) 4 1 0
def TIMERS.GT_STAT.RD_WHILE_RUN (i : Nat) : Field := fld (0x8114 + i * 0x20) 3 1 0
def TIMERS.GT_STAT.HELD (i : Nat) : Field := fld (0x8114 + i * 0x20) 2 1 0
def TIMERS.GT_STAT.WRAP (i : Nat) : Field := fld (0x8114 + i * 0x20) 1 1 0
def TIMERS.GT_STAT.MATCH (i : Nat) : Field := fld (0x8114 + i * 0x20) 0 1 0
def TIMERS.CAP_CFG.SRC (i : Nat) : Field := fld (0x8400 + i * 0x10) 8 5 0
def TIMERS.CAP_CFG.EN (i : Nat) : Field := fld (0x8400 + i * 0x10) 4 1 0
def TIMERS.CAP_CFG.TMR (i : Nat) : Field := fld (0x8400 + i * 0x10) 0 4 0
def TIMERS.CAP_RISE.VALUE (i : Nat) : Field := fld (0x8404 + i * 0x10) 0 32 0
def TIMERS.CAP_FALL.VALUE (i : Nat) : Field := fld (0x8408 + i * 0x10) 0 32 0
def TIMERS.CAP_STAT.NEW_F (i : Nat) : Field := fld (0x840C + i * 0x10) 5 1 0
def TIMERS.CAP_STAT.NEW_R (i : Nat) : Field := fld (0x840C + i * 0x10) 4 1 0
def TIMERS.CAP_STAT.OVR_F (i : Nat) : Field := fld (0x840C + i * 0x10) 3 1 0
def TIMERS.CAP_STAT.OVR_R (i : Nat) : Field := fld (0x840C + i * 0x10) 2 1 0
def TIMERS.CAP_STAT.PEND_F (i : Nat) : Field := fld (0x840C + i * 0x10) 1 1 0
def TIMERS.CAP_STAT.PEND_R (i : Nat) : Field := fld (0x840C + i * 0x10) 0 1 0
def FLR.RTE.VALID (p i : Nat) : Field := fld (0x61800 + p * 0x4000 + i * 0x4) 31 1 0
def FLR.RTE.DATELINE (p i : Nat) : Field := fld (0x61800 + p * 0x4000 + i * 0x4) 30 1 0
def FLR.RTE.PORT (p i : Nat) : Field := fld (0x61800 + p * 0x4000 + i * 0x4) 0 3 0
def TIMERS.TIRQ_EN.EN : Field := fld 0x8040 0 16 0
def SLICE.BANK_PWR.STATE (s : Nat) : Field := fld (0x2000040 + s * 0x1000) 0 32 0
def SLICE.BANK_PSTAT.STATE (s : Nat) : Field := fld (0x2000044 + s * 0x1000) 0 32 0
def SLICE.BANK_INIT.INIT (s : Nat) : Field := fld (0x2000048 + s * 0x1000) 0 16 0
def SLICE.ECC_CE_CNT.CNT (s : Nat) : Field := fld (0x2000054 + s * 0x1000) 0 32 0
def SLICE.ECC_UE_CNT.CNT (s : Nat) : Field := fld (0x2000058 + s * 0x1000) 0 32 0
def SLICE.ECC_ADDR.UNIT (s : Nat) : Field := fld (0x200005C + s * 0x1000) 28 4 0
def SLICE.ECC_ADDR.OFS (s : Nat) : Field := fld (0x200005C + s * 0x1000) 0 22 0
def SLICE.SCRUB_CFG.INTERVAL (s : Nat) : Field := fld (0x2000060 + s * 0x1000) 0 16 0
def SLICE.BANK_OFF_CNT.CNT (s : Nat) : Field := fld (0x2000064 + s * 0x1000) 0 32 0

end Sys2Proof.Machine.Reg
end

