-- ==== Sys2Proof/Machine/State.lean ====
section
/-! DEFINITION. The state of the module as plain data: every register (as field contents), every memory, FIFO, buffer, counter, mode and pin
of the spec, the queue of waiting commands, and the state after reset. Sparse stores are lists of (key, value) with keys
strictly rising and nothing listed at its reset value, so that equal contents are equal data. -/
namespace Sys2Proof.Machine

/-- The stops of a step. None of the spec's commands ends the machine: every error of the module is contained and reported in
its registers (R517), so no meaning raises a fault; the type keeps the one stop an implementer's frame needs. -/
inductive Fault where
  /-- Raised by nothing in this model (safe: it stops nothing). -/
  | none
deriving DecidableEq, Repr

/-- Refusals. -/
inductive Refusal where
  /-- Raised by an arm of exec whose command has no meaning yet (safe: the machine stops). -/
  | notModelled (mnemonic : String)
deriving DecidableEq, Repr

/-- The states of a power domain (R445, R449). -/
inductive DomState where
  | off | retention | on | waking | dropping
deriving DecidableEq, Repr

/-- One 64-bit shadow of one page for one source (R64): the tag is the BAR0 offset of the register's low word. -/
structure Shadow where
  page : Nat
  src : Source
  read : Option (Nat × Word32)
  write : Option (Nat × Word32)
deriving DecidableEq, Repr

/-- What the module has sent out at its ports: the model's own record of its outputs (log entry 5). -/
inductive Out where
  /-- An interrupt to a management core (0 West, 1 East) from the page at an offset (R71). -/
  | coreIrq (core page : Nat)
  /-- An MSI-X message with its vector (R378). -/
  | msix (vec : Nat)
  /-- A unit sent on a Freash port (R303): port, its 68 bytes. -/
  | link (port : Nat) (unit : List Byte)
  /-- A frame sent on a stream port: port, kind, bytes. -/
  | frame (port kind : Nat) (bytes : List Byte)
  /-- A completion of an inbound PCIe request: status (0 successful, 1 Unsupported Request, 4 Completer Abort) and data. -/
  | pcie (status : Nat) (bytes : List Byte)
  /-- A write to host memory, and a read request with its tag (R380). -/
  | hostWrite (addr : Nat) (bytes : List Byte)
  | hostRead (addr len tag : Nat)
  /-- A sideband (MCTP) response. -/
  | mctp (bytes : List Byte)
deriving DecidableEq, Repr

/-- Power, clocks and the always-on sequencer (chapter 14). A domain not listed in `dom` is OFF. -/
structure PowerS where
  /-- Domain states, by domain index (R445). -/
  dom : List (Nat × DomState)
  /-- Domains brought down by a fabric's cleared enable and held there (R446). -/
  held : List Nat
  /-- AOCLK residency counts, key 4 d + (0 ON, 1 RETENTION, 2 OFF, 3 WATCH) (R453). -/
  residency : List (Nat × Word64)
  /-- The slow loop's own level (R443). -/
  loopLevel : Nat
  /-- cap_trip_n is asserted (R442). -/
  capTrip : Bool
  /-- A thermal trip has gated every domain (R412). -/
  tripped : Bool
  /-- R437 has stopped CCLK and FCLK. -/
  stopped : Bool
  /-- The inputs of the last watch sample (R456). -/
  watchRef : Option (List Nat)
  /-- Input power is present. -/
  input : Bool
deriving DecidableEq, Repr

/-- A GO sent and not yet executed (R78): the period in which it executes, the bundle index, EXIT, CHK and the launch
count. -/
structure Go where
  due : Nat
  index : Nat
  exit : Bool
  chk : Nat
  /-- The global word of the bundle. -/
  word : Word128
  /-- Tiles of the mask that have not executed it yet. -/
  left : List Nat
deriving DecidableEq, Repr

/-- An entry of a loop stack (R83): start index, remaining count (0 for a flag loop), whether the loop has just continued to its start. -/
structure LoopEntry where
  start : Nat
  remaining : Nat
  flag : Bool
  again : Bool
deriving DecidableEq, Repr

/-- The fields of an image header that a load records (R92). -/
structure ImageRec where
  mask : Nat
  entry : Nat
  len : Nat
  planW : Nat
  planE : Nat
  bounds : Bool
  fmt : Nat
deriving DecidableEq, Repr

/-- An image load in progress (R90, R91): the latched address, the header record, the segments as (mask of target lanes, start, length, data offset, CRC), where bit n stands for tile n and bit 256 for the global lane; all
target lanes. -/
structure LoadJob where
  addr : Nat
  hdr : ImageRec
  segs : List (Nat × Nat × Nat × Nat × Nat)
  lanes : Nat
deriving DecidableEq, Repr

/-- A WAIT under test (R85): bundle, condition, argument; armed once its bundle has executed; launch periods tested. -/
structure WaitRec where
  index : Nat
  cond : Nat
  arg : Nat
  armed : Bool
  tested : Nat
deriving DecidableEq, Repr

/-- The issue controller (chapter 03). -/
structure IssueS where
  /-- Launch periods since reset. -/
  period : Nat
  next : Nat
  /-- The first period in which the next GO may be sent (R85, R93, R99). -/
  goFrom : Nat
  /-- S-net flags that have been set in this period (R270). -/
  flagsSet : List (Nat × Nat)
  /-- EXIT as the EXITIF of the bundle being launched has set it (R84). -/
  exit : Bool
  gos : List Go
  loops : List LoopEntry
  wait : Option WaitRec
  /-- END or a WAIT has been launched: no further GO until it has executed or holds (R85). -/
  noGo : Bool
  /-- A STOP, a debugger halt or a single step is pending (R94, R98, R99). -/
  stopReq : Bool
  haltReq : Bool
  stepping : Bool
  /-- The halt that is waiting for the launched bundles to complete: cause and index. -/
  ending : Option (Nat × Nat)
  skipBreak : Bool
  /-- The image that the next START launches, and the running stream's own record. -/
  loaded : Option ImageRec
  run : Option ImageRec
  /-- Which global lane store the running stream uses, and which holds the loaded image (R92). -/
  runStore : Nat
  loadStore : Nat
  /-- Global lane words: key 16384 store + index. -/
  lanes : List (Nat × Word128)
  /-- Upset bits (0 to 143) of global lane words (R31). -/
  flips : List (Nat × List Nat)
  job : Option LoadJob
  /-- A load whose header and tables have not been read yet: the image's address (R91, R273). -/
  loadAddr : Option Nat
deriving DecidableEq, Repr
/-- A quantiser channel's configuration as an operation latches it (R155, R164): channel, format, scale format, group size, rounding,
scale mode, base exponent, offset, attached monitors. -/
structure QCfg where
  ch : Nat
  fmt : Nat
  sfmt : Nat
  gsize : Nat
  rnd : Nat
  smode : Nat
  base : Int
  d : Int
  mons : List Nat
deriving DecidableEq, Repr

/-- One of the array's two weight blocks (chapter 05): BF16 weights that are not +0, key 64 × column + K, and the group size it was
loaded with. -/
structure Block where
  w : List (Nat × BitVec 16)
  gsize : Option Nat
deriving DecidableEq, Repr

/-- The matrix array of a tile: both blocks, which one is active, the launch periods from which loader, streamer and drainer are free, a
deferred SWAPW, the output group being read. -/
structure ArrayS where
  blk0 : Block
  blk1 : Block
  active : Nat
  loaderFree : Nat
  streamerFree : Nat
  drainerFree : Nat
  swapPend : Bool
  outBuf : List Word32
deriving DecidableEq, Repr

/-- A scale retune (R152 to R156): records on their way, records that have arrived as (tile, 64 × (amax, clip, val)), the history values
(key 16 t + slot) and their numbers. -/
structure ScaleS where
  sent : List (Nat × List (Nat × Nat × Nat))
  arrived : List (Nat × List (Nat × Nat × Nat))
  /-- Tiles whose record of a retune that has timed out is still on its way (R154). -/
  late : List Nat
  hist : List (Nat × Word32)
  histN : List (Nat × Nat)
deriving DecidableEq, Repr


/-- An item of an egress router's work in DELIVER (R174, R175, R197): an event of the delay ring, a fire entry at a store offset, a list being
walked (space, start, entries read, world slot, count k). `late` is sent in LATE; `again` marks work deferred once. -/
inductive Work where
  | ring (ev : Word64) (late again : Bool)
  | fire (ofs : Nat) (late again : Bool)
  | list (space base i world k : Nat) (late again : Bool)
deriving DecidableEq, Repr

/-- An apply of the learning-rule engine (R221): argument, modulators, enabled world groups as (group, first, count), W_COUNT of all eight, next row, last row, stage (0 gather,
1 sweep, 2 held in host mode, 3 finish), whether a LEARN phase commanded it, the CCLK count at its start. -/
structure ApplyJob where
  args : Nat
  mods : List Word32
  groups : List (Nat × Nat × Nat)
  counts : List Nat
  next : Nat
  last : Nat
  stage : Nat
  inStep : Bool
  start : Nat
deriving DecidableEq, Repr

/-- A delay move in flight (R225): header offset of its row, direction, tag of its atomic, status and returned word once it has completed. -/
structure Move where
  hofs : Nat
  up : Bool
  tag : Nat
  res : Option (Nat × Nat)
deriving DecidableEq, Repr

/-- Events, neurons and learning of one tile (chapters 06 and 07): the ingress FIFO, whether delivery has closed, the phase entered, whether the group
at the head is waiting for the host lock, the parameter sets in the unit, the fire list of the last INTEGRATE as (offset, entries), the list that the
INTEGRATE in progress writes as (offset, capacity), readout counters (key 4096 buffer + counter), active buffers, steps counted, groups that do not
count the current step, the step that closed each group's window, copies under way as (group, offset, bytes), the delay ring as (slot, event), the router's work, its deferred work, the work held
in host mode, a DELIVER that arrived during the hold, the host lock's header offset, the apply, delay moves in flight. -/
structure EvtS where
  fifo : List Word64
  closed : Bool
  phase : Nat
  waiting : Bool
  psets : List (Nat × List Word32)
  fire : Option (Nat × Nat)
  sweep : Option (Nat × Nat)
  ro : List (Nat × Nat)
  roAct : Nat
  roCount : List (Nat × Nat)
  roSkip : Nat
  roStep : List (Nat × Nat)
  copies : List (Nat × Nat × List Byte)
  ring : List (Nat × Word64)
  work : List Work
  remnant : List Work
  held : List Work
  heldDeliver : Bool
  hlock : Option Nat
  /-- The learning-rule engine's lock slot and the event engine's fetch tag, each a header offset (R227). -/
  elock : Option Nat
  fetch : Option Nat
  apply : Option ApplyJob
  moves : List Move
deriving DecidableEq, Repr

def EvtS.reset : EvtS where
  fifo := []
  closed := false
  phase := 0
  waiting := false
  psets := []
  fire := none
  sweep := none
  ro := []
  roAct := 0
  roCount := []
  roSkip := 0
  roStep := []
  copies := []
  ring := []
  work := []
  remnant := []
  held := []
  heldDeliver := false
  hlock := none
  elock := none
  fetch := none
  apply := none
  moves := []

/-- A queue message as its head flit describes it (R282): destination tile and queue, mode (0 BLOCK, 1 NOWAIT, 2 TIMED), limit, key, words. -/
structure QHead where
  tile : Nat
  queue : Nat
  mode : Nat
  tmo : Nat
  key : Nat
  words : List Word64
deriving DecidableEq, Repr

/-- A message on its way over C-net: its number, the sender's channel, the message, and, once it has arrived, whether its queue combined then (R300). -/
structure QFly where
  id : Nat
  ch : Nat
  head : QHead
  comb : Bool := false
deriving DecidableEq, Repr

/-- A message in a slot of a queue: queue, slot, words, sender's channel, key, contributions, flushed; for an open combining entry the latched EXPECT and TYPE
(true INT32) (R289, R298). -/
structure QMsg where
  queue : Nat
  slot : Nat
  words : List Word64
  ch : Nat
  key : Nat
  count : Nat
  part : Bool
  expect : Nat
  int : Bool
deriving DecidableEq, Repr

/-- The queues of a tile (chapter 09): readable messages, oldest first in each queue; open combining entries; the held head; sends outstanding as (channel, number, status
register); numbers of sends declared LOST; upset bits of queue words. -/
structure QueueS where
  msgs : List QMsg
  opens : List QMsg
  held : Option QFly
  tx : List (Nat × Nat × Nat)
  lost : List Nat
  flips : List (Nat × List Nat)
deriving DecidableEq, Repr

def QueueS.reset : QueueS := ⟨[], [], none, [], [], []⟩

/-- Messages of the module: on their way, completions on their way as (number, channel, status), the last number given, the host windows' words (16 m + i for the data
halves, 64 + m for LAUNCH's high half) and outstanding sends as (window, number). -/
structure QNetS where
  fly : List QFly
  done : List (Nat × Nat × Nat)
  seq : Nat
  win : List (Nat × Word32)
  winTx : List (Nat × Nat)
deriving DecidableEq, Repr

def QNetS.reset : QNetS := ⟨[], [], 0, [], []⟩

/-- What a finished operation of a tile writes (R123). -/
inductive Result where
  | sreg (r : Nat) (v : Word64)
  /-- Lanes of a vector register: (lane, value) pairs. -/
  | vreg (r : Nat) (lanes : List (Nat × Word32))
  /-- The bits of a mask register that are selected. -/
  | mask (m : Nat) (sel bits : Word128)
  | kreg (k : Nat) (v : Word32)
  | vcarry (v : Word32)
  /-- Bytes of a vector register from byte 0. -/
  | vbytes (r : Nat) (bs : List Byte)
  /-- A weight block loaded into one of the two blocks. -/
  | block (i : Nat) (b : Block)
  /-- A row of A read and multiplied with the active block: row address, scale address, formats, group size, accumulator row, overwrite. -/
  | macRow (addr scl fmt sfmt gsize row : Nat) (ovw : Bool)
  /-- 32 sums added to, or written over, an accumulator row. -/
  | accRow (row : Nat) (sums : List Word32) (ovw : Bool)
  /-- An accumulator row read by OUT; the last one of a group quantises it: store offset of its codes and scale, cycles until they are written. -/
  | drain (row : Nat) (last : Bool) (q : QCfg) (ofs scl lat : Nat)
  /-- Bytes of the own tile store from an offset (R161). -/
  | store (ofs : Nat) (bytes : List Byte)
deriving DecidableEq, Repr

/-- A fixed-latency result on its way (R123): the time of its writing in half launch periods (launch period p begins at 2 p; a CCLK cycle is one half or two),
and the launch period in which it was issued, in issue order. -/
structure Due where
  at' : Nat
  since : Nat
  res : Result
deriving DecidableEq, Repr

/-- A tracked operation outstanding in a tile (R88): the register it marks (none without one), the launch period and the bundle
that issued it, the period from which its data can arrive (none while a response is awaited), its completion status, its results; for a
port-A access the store offset, length and form (0 LD, 1 LW, 2 LWU, 3 VLD) that a port collision reaches. -/
structure Tracked where
  vector : Bool
  reg : Option Nat
  since : Nat
  index : Nat
  ready : Option Nat
  tag : Nat
  status : Nat
  res : List Result
  src : Option (Nat × Nat × Nat)
deriving DecidableEq, Repr

/-- One tile's hidden state (its registers that stand on register pages are in `regs`). -/
structure Tile where
  /-- Scalar registers s1 to s31 (s0 reads zero, R121). -/
  sregs : List (Nat × Word64)
  /-- Vector lanes: key 128 v + lane. -/
  vregs : List (Nat × Word32)
  /-- Mask registers m1 to m7. -/
  masks : List (Nat × Word128)
  due : List Due
  /-- Registers that results of fixed latency have written in this launch period, with the period of their issue (R123). -/
  landed : List (Nat × Nat)
  /-- Words of the store whose port-A read in this cycle has met a port-B access: that read returns undefined data (R109). -/
  taint : List Nat
  tracked : List Tracked
  /-- Lane words (R77), and the bits of each that are upset (0 to 143). -/
  lanes : List (Nat × Word128)
  /-- The re-initialisation after a self-test has left every lane word zero, and no image has been loaded since (R478). -/
  lanesZero : Bool
  laneFlips : List (Nat × List Nat)
  loops : List LoopEntry
  /-- The half's CCLK count when the domain last came ON (R123). -/
  cclk0 : Nat
  /-- The firmware store holds checked firmware (R470). -/
  fwOk : Bool
  /-- Accumulator cells of the matrix array: key 32 row + column (chapter 05). -/
  acc : List (Nat × Word32)
  /-- The 64-bit shift register of the random generator (R147). -/
  lfsr : Word64
  arr : ArrayS
  /-- Channels whose clip share has exceeded its target since the last retune (R168). -/
  clipSeen : List Nat
  /-- Events, neurons and learning. -/
  evt : EvtS
  /-- Message queues. -/
  queue : QueueS
deriving DecidableEq, Repr

/-- A tile after cold reset. -/
def Tile.reset : Tile where
  sregs := []
  vregs := []
  masks := []
  due := []
  landed := []
  taint := []
  tracked := []
  lanes := []
  lanesZero := false
  laneFlips := []
  loops := []
  cclk0 := 0
  fwOk := false
  acc := []
  lfsr := 1
  arr := ⟨⟨[], none⟩, ⟨[], none⟩, 0, 0, 0, 0, false, []⟩
  clipSeen := []
  evt := EvtS.reset
  queue := QueueS.reset

/-- A record of the event log (R414). -/
structure LogRec where
  seq : Nat
  boot : Nat
  source : Nat
  code : Nat
  sev : Nat
  core : Nat
  data : List Byte
  good : Bool
deriving DecidableEq, Repr

/-- One firmware slot's image as far as the gauntlet reads it (R417, R419). `bytes` are the slot's programmed bytes. -/
structure Slot where
  bytes : List Byte
deriving DecidableEq, Repr

/-- A directory record of the boot flash (R418). -/
structure DirRec where
  seq : Nat
  active : Nat
  pending : Option Nat
  tries : Nat
  committed : Bool
  bootCnt : Nat
  good : Bool
deriving DecidableEq, Repr

/-- A self-test result record (R483): kind, boot, time, fuse tag, entries (kind of target, instance, verdict, signature), good CRC. -/
structure BistRec where
  kind : Nat
  boot : Nat
  time : Word64
  tag : List Byte
  entries : List (Nat × Nat × Nat × Word64)
  good : Bool
deriving DecidableEq, Repr

/-- The boot flash (R417): what the module keeps without power. -/
structure FlashS where
  dir : List DirRec
  slotA : Slot
  slotB : Slot
  log : List LogRec
  /-- The signature-index journal: programmed slots, true where the CRC is good (R428). -/
  journal : List Bool
  bist : List BistRec
  /-- The device certificate. -/
  cert : List Byte
  /-- The XMSS traversal cache's CRC is good (R426). -/
  cacheOk : Bool
  /-- What of the device does not take programming: slots of the journal (R428), firmware slots (FLASH_ERR, R408). -/
  badJournal : List Nat
  badSlots : List Nat
deriving DecidableEq, Repr

/-- The one-time-programmable fuses (R3): the grade; the defect map: marked physical tiles (R467) and repaired slice rows (slice, bank, row) (R469); the rollback counter, which the crown raises (R425); the identity seed and
its provisioning fuse (R426); the revoke fuses of the two vendor keys (R419); the permanent locks (R430); and the MAC address of each stream port. -/
structure FusesS where
  grade : Nat
  bad : List Nat
  rows : List (Nat × Nat × Nat)
  rollback : Nat
  prov : Bool
  seed : Nat
  revoke : Nat
  permLock : Nat
  macs : List Nat
deriving DecidableEq, Repr

/-- The crown (chapter 13). -/
structure CrownS where
  /-- Cores halted by an uncorrectable word of their SRAM (R517). -/
  halted : List Nat
  /-- The SEQ of the last completed mailbox request with its response bytes and status (R407). -/
  lastSeq : List (Nat × Nat × List Byte)
  /-- Records waiting for the log engine, oldest first, and the count dropped since the last one written (R415). -/
  logQueue : List LogRec
  logDropped : Nat
  /-- The always-on sequencer's own buffer (R415). -/
  aonQueue : List LogRec
  aonDropped : Nat
  /-- Sensors holding a throttle request (R411). -/
  critReq : List Nat
  /-- The running firmware was booted from the PENDING slot (R424). -/
  bootedPending : Bool
  /-- Index within the reserved block, and the block (R428). -/
  sigBlock : Option Nat
  sigUsed : Nat
  /-- Uncorrectable crown SRAM words: (core, address, flips). -/
  sramFlips : List (Nat × Nat × List Nat)
  /-- A token move to NONE waits for its log record (R403). -/
  tokenNoneLog : Bool
  /-- A pass of the boot chain is to be made or made again (R421, R422). -/
  booting : Bool
  /-- The boot found a fresh self-test record, and firmware has yet to set FRESH and SKIPPED (R484). -/
  freshDue : Bool
  mctpEid : Nat
deriving DecidableEq, Repr

/-- The self-test engine (chapter 15). Targets are (kind, instance). -/
structure BistS where
  kind : Nat
  /-- The targets of the present or last pass. -/
  targets : List (Nat × Nat)
  waiting : List (Nat × Nat)
  running : List (Nat × Nat)
  /-- Ended in host mode and awaiting a verdict, first is held (R481). -/
  ended : List (Nat × Nat × Word64)
  /-- Reserved targets (R476), failed ones among them until remap or reset. -/
  reserved : List (Nat × Nat)
  results : List (Nat × Nat × Nat × Word64)
  golden : List (Nat × Word64)
  saveBase : Nat
  saved : List (Nat × List Byte)
  everReady : Bool
  /-- A STARTUP or SHUTDOWN pass has ended and its record is to be programmed (R483). -/
  recordDue : Bool
deriving DecidableEq, Repr

/-- A tile-firmware load in progress (R471). -/
structure TfwJob where
  addr : Nat
  len : Nat
  crc : Nat
  mask : List Nat
deriving DecidableEq, Repr

/-- A completion on its way to its requester (R243): destination endpoint and tag, source endpoint and epoch, status, data; the line address and class of a response
from a combine window (R258); a WRACK; a packet that no fence account counts: a multicast, or an answer given by a leaf or the cuff (log entry 24); for a response that leaves the module by
the brim port `dst`: the module and endpoint of its requester and the dateline state that its lookup gave (R313). -/
structure Rsp where
  dst : Nat
  tag : Nat
  src : Nat
  epoch : Bool
  status : Nat
  data : List Byte
  line : Option (Nat × Nat)
  ack : Bool
  free : Bool
  via : Option (Nat × Nat × Nat)
deriving DecidableEq, Repr

/-- An event on its way in the EVT class: source endpoint, destination tile, the event, its epoch, the fence number of an event that is a fence (R255). -/
structure EvtFlight where
  src : Nat
  dst : Nat
  ev : Word64
  epoch : Bool
  fence : Option Nat
deriving DecidableEq, Repr

/-- A fence (R255): source and destination endpoints, its number at the source, the count it carries, its epoch, the tag of an FNC (none for an EVT fence or a hidden
one), the event of an EVT fence, its address, and for another module the port and dateline state of its hop. -/
structure FenceRec where
  src : Nat
  dst : Nat
  id : Nat
  count : Nat
  epoch : Bool
  tag : Option Nat
  ev : Option Word64
  addr : Nat
  hop : Option (Nat × Nat)
deriving DecidableEq, Repr

/-- What waits in a source NI for a fence to be confirmed (R255): a request, a response, an event for a tile, a fence with its tag, its address and the hop that its lookup gave (R313), a request of another
module that a port passes onto the die. -/
inductive Waiting where
  | req (p : Pkt)
  | rsp (r : Rsp)
  | evt (ev : Word64) (fence : Bool)
  | fnc (tag addr : Nat) (hop : Option (Nat × Nat))
  | brought (p : Pkt)
deriving DecidableEq, Repr

/-- A source NI's account of one destination (R255): packets sent since the last fence, the epoch, the fence outstanding as (number, tag), the next fence number, what
waits. -/
structure Lane where
  count : Nat
  epoch : Bool
  openF : Option (Nat × Option Nat)
  next : Nat
  wait : List Waiting
deriving DecidableEq, Repr

def Lane.reset : Lane := ⟨0, false, none, 0, []⟩

/-- The header of a B-net packet (R240). -/
structure Hdr where
  addr : Nat
  tag : Nat
  sizeM1 : Nat
  opc : Nat
  status : Nat
  dmod : Nat
  smod : Nat
  ep : Nat
  aux : Nat
deriving DecidableEq, Repr

/-- What stands in a port's output queue (R303 to R306): a packet; a fence (R320); a broadcast; a response to a request of another module, which holds an entry of the reply table (R314); a management unit; a step token (R329). -/
inductive LinkKind where
  | packet | fence | bcast | reply | mgmt | token
deriving DecidableEq, Repr

/-- An item of an output queue: its link VC and kind; its header and its data, or the bytes of a management unit; a data flit of it is poisoned (R245); its units sent so far. -/
structure LinkItem where
  vc : Nat
  kind : LinkKind
  hdr : Hdr
  data : List Byte
  poison : Bool
  sent : Nat
deriving DecidableEq, Repr

/-- A packet in the receive buffer of a port (R306, R314): the packet, its VC, its units, a unit of it carries POISON, and the output port and dateline state that its lookup gave, none for this module. -/
structure RxItem where
  pkt : LinkPkt
  poison : Bool
  vc : Nat
  units : Nat
  hop : Option (Nat × Nat)
deriving DecidableEq, Repr

/-- A packet that the cuff holds (R273): a request, an event, a completion, a partial sum, a result, a fence, a fence confirmation, a post to a mover (mover, tile, tag), a packet that crosses to an output port
(R314), an access of an engine to a line (R29). -/
inductive CuffItem where
  | req (p : Pkt)
  | evt (src dst : Nat) (evs : List Word64)
  | rsp (dst tag : Nat)
  | part (leaf group line : Nat)
  | res (group line : Nat)
  | fnc (src dst : Nat)
  | ack (src dst id : Nat)
  | post (m tile tag : Nat)
  | link (p : Nat) (i : LinkItem)
  | acc (ep line : Nat)
deriving DecidableEq, Repr

/-- An open combine window of a slice (R258): slice, line address, class, requesters as (module, endpoint, tag), data. -/
structure Comb where
  slice : Nat
  line : Nat
  cls : Nat
  who : List (Nat × Nat × Nat)
  data : List Byte
deriving DecidableEq, Repr

/-- A reduction entry (R262, R263): switch (0 to 23 leaf, 24 to 35 spine), group, line, slot, contributions awaited, operator, input ports that have contributed, sum,
expired. -/
structure RedEntry where
  sw : Nat
  group : Nat
  line : Nat
  slot : Nat
  left : Nat
  op : Nat
  ports : List Nat
  acc : Option (List Byte)
  dead : Bool
deriving DecidableEq, Repr

/-- A result on its way (R260): group, line, sum, and the endpoints it has still to reach (the root, or every member). -/
structure RedResult where
  group : Nat
  line : Nat
  sum : List Byte
  dests : List Nat
deriving DecidableEq, Repr

/-- The confirmation of a fence on its way (R255): the fence's source, destination and number, and the endpoint it comes from. -/
structure AckRec where
  src : Nat
  dst : Nat
  id : Nat
  at' : Nat
deriving DecidableEq, Repr

/-- A fence of another module on this die (R320): the port that brought it, the tag of the port's own fence, the module, endpoint and tag that it confirms. -/
structure Gate where
  port : Nat
  key : Nat
  smod : Nat
  ep : Nat
  tag : Nat
deriving DecidableEq, Repr

/-- B-net (chapter 08): requests not completed; those of them, as (endpoint, tag), whose packet has reached its target or is lost; requests that are no longer outstanding whose packet is still on its way; completions, events and fences on their way; source NI accounts by 8192 × source + destination (384 + m is module m); destination counts by
2 × (8192 × source + destination) + epoch; fences held at destinations; confirmations on their way; combine windows;
reduction entries; partial sums on their way as (leaf, group, line, sum); results on their way; packets held in the cuff as
(half addressed, 2 × class + VC, packet); requests of other modules on this die, with the endpoint of the port they came by; the reply table as (module, endpoint, tag) (R314); their fences; the hops of requests
that wait after their lookup, by (endpoint, tag) (R313); tags of requests that have timed out and whose response may still come (R247); TO_ALL contributions whose result is awaited, as (tile, tag, group, line)
(R260); the status so far of a multicast write that has reached part of its targets, as (endpoint, tag, status); engine accesses that the cuff has timed out, as (endpoint, line). -/
structure NetS where
  out : List Pkt
  past : List (Nat × Nat)
  late : List Pkt
  rsps : List Rsp
  evts : List EvtFlight
  fences : List FenceRec
  lanes : List (Nat × Lane)
  got : List (Nat × Nat)
  held : List FenceRec
  acks : List AckRec
  comb : List Comb
  red : List RedEntry
  partials : List (Nat × Nat × Nat × List Byte)
  results : List RedResult
  cuff : List (Nat × Nat × CuffItem)
  brought : List (Nat × Pkt)
  replies : List (Nat × Nat × Nat)
  gates : List Gate
  hops : List ((Nat × Nat) × Nat × Nat)
  stale : List (Nat × Nat)
  reds : List (Nat × Nat × Nat × Nat)
  mparts : List (Nat × Nat × Nat)
  cut : List (Nat × Nat)
deriving DecidableEq, Repr

def NetS.reset : NetS := ⟨[], [], [], [], [], [], [], [], [], [], [], [], [], [], [], [], [], [], [], [], [], [], []⟩

/-- One Freash port (chapter 10): credits held towards the peer by VC, the output queue, the receive buffer, the class whose turn it is among RSP, COLL, REQ and FWD, and the VC that each class serves next as bit c (R305); the landing store as
(due step, event), collective credits held by group (a group its peer has granted has an entry), result lines waiting for a credit as (group, line, sum), result lines of the peer whose write is on its way as (tag, group)
(R334); a failed negotiation awaits a new EN (R308); a loss of link awaits the failover decision (R322). -/
structure PortS where
  credits : List (Nat × Nat)
  queue : List LinkItem
  rx : List RxItem
  turn : Nat
  alt : Nat
  landing : List (Nat × Word64)
  grants : List (Nat × Nat)
  lines : List (Nat × Nat × List Byte)
  writes : List (Nat × Nat)
  failed : Bool
  lost : Bool
deriving DecidableEq, Repr

def PortS.reset : PortS := ⟨[], [], [], 0, 0, [], [], [], [], false, false⟩

/-- The step controller and the injector (chapter 06): tile mask, PACED and BGRP latched at the step start; tiles that have not entered the phase sent; the step includes LEARN;
a pending ONE or ONE_LEARN; steps of continuous running; the next boundary (none: no grid yet; true: reached); a step closed after its boundary; the West CCLK count
at the step start; the limit has passed before DELIVER; the closure waits for a debugger (R98); steps closed wait for a token (R330). -/
structure StepS where
  mask : Nat
  paced : Bool
  bgrp : Nat
  wait : List Nat
  learn : Bool
  pend : Option Bool
  ran : Nat
  bound : Option Bool
  late : Bool
  start : Nat
  ended : Bool
  tokenWait : Bool
deriving DecidableEq, Repr

def StepS.reset : StepS := ⟨0, false, 0, [], false, none, 0, none, false, 0, false, false⟩
/-- A packet of a mover's descriptor (R353, R356): offset and bytes (offset LEN: the trailer), stage (0 its read or write has been sent, 1 its write is done, 2 it waits to be sent again after BUSY,
3 it is held in host mode, 4 it has failed), whether the write is the present phase, its tag, its data, whether they have arrived and been fed to the check channel, retries, a completion of its write that
has arrived, a broadcast of it has gone to the ports. -/
structure MvPkt where
  ofs : Nat
  size : Nat
  stage : Nat
  wr : Bool
  tag : Nat
  data : List Byte
  got : Bool
  fed : Bool
  tries : Nat
  ack : Option Nat
  cast : Bool
deriving DecidableEq, Repr

/-- A descriptor in progress (R352 to R363): ring slot, spaces and addresses, length, flags, check channel with operation, CONT and algorithm, the tile and key to answer for a post, the next offset to send,
packets outstanding, retries, the first failure as (code, offset), no more packets are sent, ABORT, the trailer has been sent, bytes fed. -/
structure MvJob where
  idx : Nat
  ssp : Nat
  src : Nat
  dsp : Nat
  dst : Nat
  len : Nat
  bcast : Bool
  doneF : Bool
  irq : Bool
  chk : Option Nat
  op : Nat
  cont : Bool
  poly : Nat
  post : Option (Nat × Nat)
  next : Nat
  pkts : List MvPkt
  retries : Nat
  fail : Option (Nat × Nat)
  stop : Bool
  abort : Bool
  trail : Bool
  fed : Nat
deriving DecidableEq, Repr

/-- A descriptor whose STATUS is being written (R357): the tag of that write, the ring slot, the status word, the code, the offset of the first failed packet, DONE_FLAG, IRQ, whether an abort ended it, the
tile and key to answer for a post. -/
structure MvFin where
  tag : Nat
  idx : Nat
  word : Nat
  code : Nat
  ofs : Option Nat
  doneF : Bool
  irq : Bool
  abort : Bool
  post : Option (Nat × Nat)
deriving DecidableEq, Repr

/-- A data mover (R352 to R360): the descriptor in progress or waiting for its check channel, the tag of a fetch on its way, a fetch that has arrived as (status, bytes), its own copies of posted descriptors by
slot with the tile and key to answer, an ABORT that waits for the fetch, a descriptor whose STATUS is being written, ring writes of posts on their way as (tag, slot). -/
structure MoverS where
  job : Option MvJob
  fetch : Option Nat
  fetched : Option (Nat × List Byte)
  copies : List (Nat × (List Byte × Option (Nat × Nat)))
  abortF : Bool
  fin : Option MvFin
  rings : List (Nat × Nat)
deriving DecidableEq, Repr

def MoverS.reset : MoverS := ⟨none, none, none, [], false, none, []⟩

/-- A MOVE post on its way (R359): mover, tile, its request's tag, the key of RD's mark, the descriptor. -/
structure Post where
  mover : Nat
  tile : Nat
  tag : Nat
  key : Option Nat
  desc : List Byte
deriving DecidableEq, Repr

/-- A check channel (R361 to R364): the mover whose descriptor holds it, the movers that wait for it, oldest first, a scan job as (address, length, operation, algorithm). -/
structure ChkS where
  holder : Option Nat
  wait : List Nat
  scan : Option (Nat × Nat × Nat × Nat)
deriving DecidableEq, Repr

def ChkS.reset : ChkS := ⟨none, [], none⟩

/-- A packet of an inbound TLP (R372): module address, bytes to read, data to write, its tag once sent, its status and data once complete. -/
structure TlpPart where
  addr : Nat
  size : Nat
  data : List Byte
  tag : Option Nat
  status : Option Nat
  got : List Byte
deriving DecidableEq, Repr

/-- An inbound BAR2 TLP (R371 to R374): its number, write or read, the range it covers, its packets. -/
structure Tlp where
  id : Nat
  wr : Bool
  lo : Nat
  hi : Nat
  parts : List TlpPart
deriving DecidableEq, Repr

/-- An outbound PCIe read (R380): endpoint and tag of the B-net request that it belongs to, bus address and bytes, its tag once sent, its data once complete. -/
structure OutRead where
  ep : Nat
  key : Nat
  addr : Nat
  len : Nat
  tag : Option Nat
  got : Option (List Byte)
deriving DecidableEq, Repr

/-- The PCIe function (R369 to R380): Bus Master Enable, MSI-X Enable, function mask, D3hot, the BAR2 size as a power of two, Max Payload and Max Read Request Size, the link is training, MSI-X table words
(key 4 × vector + word), errors reported through AER, inbound TLPs, the next TLP number, host writes that wait behind BAR2 writes as (the TLP number they wait for, the write), outbound reads; requests of the
host that a function reset left in flight, by tag. -/
structure PcieS where
  bme : Bool
  msixEn : Bool
  fmask : Bool
  d3 : Bool
  bar2 : Nat
  mps : Nat
  mrrs : Nat
  training : Bool
  table : List (Nat × Word32)
  aer : List AerError
  tlps : List Tlp
  seq : Nat
  writes : List (Nat × HostWrite)
  outb : List OutRead
  stale : List Nat
deriving DecidableEq, Repr

/-- The function after a reset (R370, R371, R378). Max Payload Size 128 and Max Read Request Size 512 are the PCIe specification's reset values. -/
def PcieS.reset : PcieS := ⟨false, false, false, false, 30, 128, 512, false, [], [], [], 0, [], [], []⟩


/-- A slot of a landing ring as it was checked and published (R390, R391, R396): slot index, STEP, END, group, COUNT, first world, payload bytes. -/
structure LandSlot where
  idx : Nat
  step : Nat
  fin : Bool
  group : Nat
  count : Nat
  first : Nat
  len : Nat
deriving DecidableEq, Repr

/-- A stream context (chapter 12): slots whose payload is being written, in order of arrival, each with the writes still outstanding as (endpoint, tag); published slots, oldest first; the slot with END for the step has been consumed, or the gate has opened by its time-out, in the INGEST in
progress (R392); the next tile of an egress context (R394); GATE as the INGEST in progress found it at its start (R396). -/
structure CtxS where
  writing : List (LandSlot × List (Nat × Nat))
  slots : List LandSlot
  ended : Bool
  opened : Bool
  cursor : Nat
  gated : Bool
deriving DecidableEq, Repr

def CtxS.reset : CtxS := ⟨[], [], false, false, 0, false⟩

/-- The twin controller (chapter 16): units sent, role and flags of the last good heartbeat of the present window, the step watchdog has expired, a handover as (sent by this module,
agreed) and its step, a takeover is due, the role a conflict gives. -/
structure TwinS where
  seq : Nat
  good : Option (Nat × Nat)
  expired : Bool
  handover : Option (Bool × Bool)
  hstep : Nat
  takeover : Bool
  conflict : Option Nat
deriving DecidableEq, Repr

def TwinS.reset : TwinS := ⟨0, none, false, none, 0, false, none⟩

/-- A timer beside its registers (R506, R508): active TOP and compare values, its output's level, the count at the last hold or stop. -/
structure TimerS where
  top : Word32
  cmp : Word32
  out : Bool
  shown : Word32
deriving DecidableEq, Repr

def TimerS.reset : TimerS := ⟨0xFFFFFFFF, 0, false, 0⟩

/-- The service panel (R502): the present press has been classified as long; milliseconds for which every pad sample has been a touch; the present touch has been classified. -/
structure PanelS where
  long : Bool
  touch : Nat
  touchSeen : Bool
deriving DecidableEq, Repr


/-- The state of the module. -/
structure State where
  /-- Register fields, by key, that do not read their reset value. -/
  regs : List (Nat × Word64)
  shadows : List Shadow
  /-- Enable checks running: page and the source that wrote EN (R59). -/
  checking : List (Nat × Source)
  /-- Slow-domain writes whose C-net completion is due (R67). -/
  slow : List (Source × Nat)
  /-- The data returned by the last register read of each source. -/
  rdata : List (Source × Word32)
  /-- The completion of the last register-bridge request: status (R243) and data (R45). -/
  bridge : Option (Nat × List Byte)
  /-- Memory of the 48-bit module space (R42). -/
  mem : List Host.Cell
  /-- Ranges whose contents are undefined: [from, to) and a number that tells one loss of contents from another (R117, R118). -/
  undef : List (Nat × Nat × Nat)
  /-- Upset bits (0 to 71) of memory words, by word address / 8 (R31). -/
  flips : List (Nat × List Nat)
  /-- Words with a corrected value waiting to be written back (R114). -/
  writebacks : List Nat
  /-- Scrubbers (R116, R346): the next line and the reads that wait, by 16 u + bank, or 8192 + channel. -/
  scrub : List (Nat × (Nat × Nat))
  /-- Bank transitions in progress: key 16 u + bank, target state; u is a tile, or 256 + slice (R118). -/
  bankTo : List (Nat × Nat)
  power : PowerS
  issue : IssueS
  tiles : List (Nat × Tile)
  crown : CrownS
  flash : FlashS
  fuses : FusesS
  bist : BistS
  tfw : Option TfwJob
  /-- Host MSI-X vectors pending (R378). -/
  msixPending : List Nat
  /-- Occurrences, since the last log record of each, of the enabled causes whose interrupt goes to a management core: page × 32 + bit, count (R520, R522). -/
  causes : List (Nat × Nat)
  /-- Soft slice row repairs: (slice, bank, row) (R469). -/
  rowfix : List (Nat × Nat × Nat)
  /-- CCLK cycles of the West and East halves since reset (R123). -/
  cclkW : Nat
  cclkE : Nat
  scale : ScaleS
  /-- Barrier arrivals of the current round: group, mask of tiles (R268). -/
  bar : List (Nat × Nat)
  net : NetS
  /-- Freash ports; the neighbour modules in the lookahead test with the highest step token of each, none before its first (R329, R330). -/
  links : List (Nat × PortS)
  tokens : List (Nat × Option Nat)
  /-- Neighbours whose last port went DOWN and that have sent no token since (R330). -/
  gone : List Nat
  step : StepS
  /-- Stream contexts 0 to 127, and the twin controller. -/
  ctx : List (Nat × CtxS)
  twin : TwinS
  qnet : QNetS
  /-- Data movers, posts on their way to them, check channels, the bins latched by a training in progress as (fastest, slowest, retrain) (chapter 11). -/
  movers : List (Nat × MoverS)
  posts : List Post
  chk : List (Nat × ChkS)
  train : List (Nat × (Nat × Nat × Bool))
  /-- The PCIe function (chapter 12). -/
  pcie : PcieS
  /-- Timers GT0 to GT15, captures waiting in pending latches (key 2 × input + 1 for a falling edge), the service panel (chapter 16). -/
  timers : List (Nat × TimerS)
  caps : List (Nat × Word32)
  panel : PanelS
  /-- Outputs, oldest first. -/
  out : List Out
  /-- The free-value counter (the model's own field). -/
  fresh : Nat
  /-- Commands waiting, first in, first out (the model's own field). -/
  pending : List Instr
deriving DecidableEq, Repr

/-- The module right after cold reset (R22, R459, R460): every register at its reset value, every domain but always-on and the crown OFF, the crown
waking on its WAKE vote, no memory contents. -/
def State.reset : State where
  regs := []
  shadows := []
  checking := []
  slow := []
  rdata := []
  bridge := none
  mem := []
  undef := []
  flips := []
  writebacks := []
  scrub := []
  bankTo := []
  power := { dom := [(323, .waking), (324, .on)], held := [], residency := [], loopLevel := 0, capTrip := false,
             tripped := false, stopped := false, watchRef := none, input := true }
  issue := { period := 0, next := 0, goFrom := 0, flagsSet := [], exit := false, gos := [], loops := [], wait := none, noGo := false, stopReq := false, haltReq := false,
             stepping := false, ending := none, skipBreak := false, loaded := none, run := none, runStore := 0,
             loadStore := 0, lanes := [], flips := [], job := none, loadAddr := none }
  tiles := []
  crown := { halted := [], lastSeq := [], logQueue := [], logDropped := 0, aonQueue := [], aonDropped := 0, critReq := [],
             bootedPending := false, sigBlock := none, sigUsed := 0, sramFlips := [],
             tokenNoneLog := false, booting := true, freshDue := false, mctpEid := 0 }
  flash := { dir := [], slotA := ⟨[]⟩, slotB := ⟨[]⟩, log := [], journal := [], bist := [], cert := [], cacheOk := true, badJournal := [], badSlots := [] }
  fuses := { grade := 3, bad := [], rows := [], rollback := 0, prov := true, seed := 0, revoke := 0, permLock := 0, macs := [] }
  bist := { kind := 0, targets := [], waiting := [], running := [], ended := [], reserved := [], results := [], golden := [],
            saveBase := 0, saved := [], everReady := false, recordDue := false }
  tfw := none
  msixPending := []
  causes := []
  rowfix := []
  cclkW := 0
  cclkE := 0
  scale := ⟨[], [], [], [], []⟩
  bar := []
  net := NetS.reset
  links := []
  tokens := []
  gone := []
  step := StepS.reset
  ctx := []
  twin := TwinS.reset
  qnet := QNetS.reset
  movers := []
  posts := []
  chk := []
  train := []
  pcie := PcieS.reset
  timers := []
  caps := []
  panel := ⟨false, 0, false⟩
  out := []
  fresh := 0
  pending := []

end Sys2Proof.Machine
end

