-- ==== Sys2Proof/Machine/Ops.lean ====
section
/-! DEFINITION. The named operations over the state that every meaning uses: sparse stores, register fields, interrupts and
refusals, byte lists, memory bytes. -/
namespace Sys2Proof.Machine

/-! Sparse stores: lists of (key, value) with keys strictly rising. -/

/-- The value listed under a key. -/
def lookup {α : Type} (k : Nat) : List (Nat × α) → Option α
  | [] => none
  | (k', v) :: t => if k' = k then some v else lookup k t

/-- List a value under a key, keeping the keys rising. -/
def insert {α : Type} (k : Nat) (v : α) : List (Nat × α) → List (Nat × α)
  | [] => [(k, v)]
  | (k', v') :: t => if k < k' then (k, v) :: (k', v') :: t else if k' = k then (k, v) :: t else (k', v') :: insert k v t

/-- Remove a key. -/
def remove {α : Type} (k : Nat) : List (Nat × α) → List (Nat × α)
  | [] => []
  | (k', v') :: t => if k' = k then t else (k', v') :: remove k t

/-- Set a key, listing nothing at the default. -/
def setAt {α : Type} [DecidableEq α] (d : α) (k : Nat) (v : α) (l : List (Nat × α)) : List (Nat × α) :=
  if v = d then remove k l else insert k v l

/-- Read a key with a default. -/
def getAt {α : Type} (d : α) (k : Nat) (l : List (Nat × α)) : α := (lookup k l).getD d

/-- Keys strictly rising from a bound: the canonical form of a sparse store. -/
def risingFrom {α : Type} (b : Nat) : List (Nat × α) → Bool
  | [] => true
  | (k, _) :: t => decide (b ≤ k) && risingFrom (k + 1) t

/-! Numbers and bytes. -/

/-- The w low bits of n. -/
def low (w n : Nat) : Nat := n % 2 ^ w

/-- Bits [hi:lo] of n. -/
def bits (n hi lo : Nat) : Nat := (n >>> lo) % 2 ^ (hi + 1 - lo)

/-- Bit i of n. -/
def bit (n i : Nat) : Bool := n.testBit i

/-- n with bit i set or cleared. -/
def setBit (n i : Nat) (b : Bool) : Nat :=
  if b then (if n.testBit i then n else n + 2 ^ i) else (if n.testBit i then n - 2 ^ i else n)

/-- The signed value of the w low bits of n. -/
def signed (w n : Nat) : Int := if low w n < 2 ^ (w - 1) then low w n else (low w n : Int) - 2 ^ w

/-- The w-bit pattern of an integer. -/
def unsigned (w : Nat) (i : Int) : Nat := (i % 2 ^ w).toNat

/-- The bit of a truth value. -/
def bnat (b : Bool) : Nat := if b then 1 else 0

/-- The k low bytes of n, least significant first (R12). -/
def toBytes (k n : Nat) : List Byte :=
  match k with
  | 0 => []
  | k + 1 => BitVec.ofNat 8 n :: toBytes k (n / 256)

/-- The number a little-endian byte list spells (R12). -/
def ofBytes : List Byte → Nat
  | [] => 0
  | b :: t => b.toNat + 256 * ofBytes t

/-- The members of a 256-bit mask held as a number. -/
def members (mask count : Nat) : List Nat := (List.range count).filter (fun i => mask.testBit i)

namespace State

/-! Register fields. -/

/-- The contents of a field. -/
def get (s : State) (f : Field) : Nat :=
  match lookup f.key s.regs with
  | some v => v.toNat
  | none => low f.width f.reset

/-- Write a field: the value's low bits are kept. -/
def put (s : State) (f : Field) (v : Nat) : State :=
  { s with regs := setAt (BitVec.ofNat 64 (low f.width f.reset)) f.key (BitVec.ofNat 64 (low f.width v)) s.regs }

/-- A one-bit field as a truth value. -/
def flag (s : State) (f : Field) : Bool := s.get f != 0

/-- Add to a counter; it saturates at all ones (R58). -/
def add (s : State) (f : Field) (n : Nat) : State := s.put f (min (s.get f + n) (2 ^ f.width - 1))

/-- Count one event (R58). -/
def bump (s : State) (f : Field) : State := s.add f 1

/-- Apply a change when a condition holds. -/
def when (s : State) (c : Bool) (f : State → State) : State := if c then f s else s

/-! Domains, clocks and the token, as the access rules need them. -/

/-- The state of a power domain (R445). -/
def domState (s : State) (d : Nat) : DomState := if d = 324 then (if s.power.input then .on else .off) else getAt .off d s.power.dom

/-- A domain is ON. -/
def domOn (s : State) (d : Nat) : Bool := s.domState d == .on

/-- The fabric domain of a half: 320 West, 321 East. -/
def fab (half : Nat) : Nat := 320 + half

/-- The effective clock setting of a half: 0 FULL, 1 HALF, 2 GATED (R439). -/
def effective (s : State) (half : Nat) : Nat :=
  if s.power.stopped || !s.domOn (fab half) then 2
  else if half = 0 then s.get Reg.CLOCK.HALF_CFG.WEST else s.get Reg.CLOCK.HALF_CFG.EAST

/-- The sources that can be crown-token holder: 0 West, 1 East, 2 none (R400). -/
def holder (s : State) : Nat := s.get Reg.CROWN.TOKEN.HOLDER

/-- A source may write global configuration (R62, R401): the holding core, or the host while the token is NONE. -/
def authorised (s : State) (src : Source) : Bool :=
  match src with
  | .wcore => s.holder == 0
  | .ecore => s.holder == 1
  | .host => s.holder == 2
  | .bridge => false

/-! Outputs. -/

def emit (s : State) (o : Out) : State := { s with out := s.out ++ [o] }

/-! Interrupts and the common header. -/

/-- The value of a page's BLK_IRQ_STAT. -/
def irqStat (s : State) (pg : Nat) : Nat :=
  s.get (Reg.HDR.BLK_IRQ_STAT.BLK_SPEC pg) * 16 + s.get (Reg.HDR.BLK_IRQ_STAT.READY_UP pg) * 4
    + s.get (Reg.HDR.BLK_IRQ_STAT.ERR pg) * 2 + s.get (Reg.HDR.BLK_IRQ_STAT.REFUSED pg)

/-- Queue a host MSI-X vector: it becomes pending and MSIX_SEND sends it once its masks permit (R378). -/
def pendMsix (s : State) (vec : Nat) : State := { s with msixPending := if s.msixPending.contains vec then s.msixPending else s.msixPending ++ [vec] }

/-- Send a page's interrupt to the destination of BLK_IRQ_VEC (R71); DEST 3 goes to the token's holder, or to NOHOLD_VEC while the token is NONE
(R406). -/
def sendIrq (s : State) (pg : Nat) : State :=
  match s.get (Reg.HDR.BLK_IRQ_VEC.DEST pg) with
  | 0 => s.pendMsix (s.get (Reg.HDR.BLK_IRQ_VEC.VEC pg))
  | 1 => s.emit (.coreIrq 0 pg)
  | 2 => s.emit (.coreIrq 1 pg)
  | _ => if s.holder == 2 then s.pendMsix (s.get Reg.CROWN.NOHOLD_VEC.VEC)
         else s.emit (.coreIrq (s.holder) pg)

/-- Send one interrupt when the AND of BLK_IRQ_STAT and BLK_IRQ_EN has become non-zero (R71). -/
def irqEdge (s : State) (pg before : Nat) : State :=
  if before == 0 && (s.irqStat pg &&& s.get (Reg.HDR.BLK_IRQ_EN.EN pg)) != 0 then s.sendIrq pg else s

/-- The AND that decides the interrupt. -/
def irqAnd (s : State) (pg : Nat) : Nat := s.irqStat pg &&& s.get (Reg.HDR.BLK_IRQ_EN.EN pg)

/-- Crown firmware counts an occurrence of an enabled cause whose interrupt goes to a management core (R522). -/
def note (s : State) (pg b : Nat) : State :=
  if s.get (Reg.HDR.BLK_IRQ_VEC.DEST pg) != 0 && (s.get (Reg.HDR.BLK_IRQ_EN.EN pg)).testBit b then
    { s with causes := insert (pg * 32 + b) ((lookup (pg * 32 + b) s.causes).getD 0 + 1) s.causes }
  else s

/-- Set cause bit b of a page's BLK_IRQ_STAT (R71). -/
def cause (s : State) (pg b : Nat) : State :=
  let f := if b = 0 then Reg.HDR.BLK_IRQ_STAT.REFUSED pg else if b = 1 then Reg.HDR.BLK_IRQ_STAT.ERR pg
           else if b = 2 then Reg.HDR.BLK_IRQ_STAT.READY_UP pg else Reg.HDR.BLK_IRQ_STAT.BLK_SPEC pg
  let v := if b < 4 then 1 else setBit (s.get f) (b - 4) true
  ((s.put f v).note pg b).irqEdge pg (s.irqAnd pg)

/-- Set BLK_STAT.ERR and its cause. -/
def setErr (s : State) (pg : Nat) : State := (s.put (Reg.HDR.BLK_STAT.ERR pg) 1).cause pg 1

/-- A block-specific cause that also sets BLK_STAT.ERR. -/
def causeErr (s : State) (pg b : Nat) : State := (s.setErr pg).cause pg b

/-- BLK_STAT.READY, with the READY_UP cause when it rises. -/
def setReady (s : State) (pg : Nat) (r : Bool) : State :=
  if r then (if s.flag (Reg.HDR.BLK_STAT.READY pg) then s else (s.put (Reg.HDR.BLK_STAT.READY pg) 1).cause pg 2)
  else s.put (Reg.HDR.BLK_STAT.READY pg) 0

def isReady (s : State) (pg : Nat) : Bool := s.flag (Reg.HDR.BLK_STAT.READY pg)
def isEnabled (s : State) (pg : Nat) : Bool := s.flag (Reg.HDR.BLK_CTRL.EN pg)
def hostMode (s : State) (pg : Nat) : Bool := s.flag (Reg.HDR.BLK_CTRL.MODE pg)

/-- Record the reason code and the page offset (R60). -/
def reason (s : State) (pg code ofs : Nat) : State :=
  (s.put (Reg.HDR.BLK_REASON.CODE pg) code).put (Reg.HDR.BLK_REASON.OFFSET pg) ofs

/-- A refusal: REFUSED and its cause, and the reason (R60, R63). -/
def refuse (s : State) (pg code ofs : Nat) : State :=
  ((s.reason pg code ofs).put (Reg.HDR.BLK_STAT.REFUSED pg) 1).cause pg 0

/-- Acceptance: BLK_REASON is ACCEPTED (R60). -/
def accept (s : State) (pg : Nat) : State := s.reason pg 0 0

/-! Reason codes (R61). -/

end State

/-- Shared reason codes of R61. -/
def rcRange : Nat := 0x01
def rcAlign : Nat := 0x02
def rcOverlap : Nat := 0x03
def rcDep : Nat := 0x04
def rcDomOff : Nat := 0x05
def rcVersion : Nat := 0x06
def rcNotHolder : Nat := 0x07
def rcLocked : Nat := 0x08
def rcCapacity : Nat := 0x09
def rcMode : Nat := 0x0A
def rcLoop : Nat := 0x0B
def rcBusy : Nat := 0x0C
def rcClock : Nat := 0x0D
def rcLook : Nat := 0x0E

namespace State

/-! Free values and tiles. -/

/-- A fresh undefined value (log entry 7). -/
def draw (s : State) (w : Nat) : BitVec w × State := (Config.freeBits w s.fresh, { s with fresh := s.fresh + 1 })

/-- A tile's hidden state. -/
def tile (s : State) (n : Nat) : Tile := getAt Tile.reset n s.tiles

/-- Replace a tile's hidden state. -/
def setTile (s : State) (n : Nat) (t : Tile) : State := { s with tiles := setAt Tile.reset n t s.tiles }

/-- Change a tile's hidden state. -/
def modTile (s : State) (n : Nat) (f : Tile → Tile) : State := s.setTile n (f (s.tile n))

/-! Memory bytes. -/

/-- The content of a byte of the module's memory: listed, lost, or 0 (log entries 2 and 8). -/
def byte (s : State) (a : Nat) : Byte :=
  match s.undef.find? (fun r => decide (r.1 ≤ a) && decide (a < r.2.1)) with
  | some r => Config.lostByte r.2.2 a
  | none => getAt 0 a s.mem

/-- Cut a range out of the lost ranges. -/
def cutRange (lo hi : Nat) (l : List (Nat × Nat × Nat)) : List (Nat × Nat × Nat) :=
  l.flatMap fun r =>
    if r.2.1 ≤ lo || hi ≤ r.1 then [r]
    else (if r.1 < lo then [(r.1, lo, r.2.2)] else []) ++ (if hi < r.2.1 then [(hi, r.2.1, r.2.2)] else [])

/-- Write one byte. -/
def setByte (s : State) (a : Nat) (v : Byte) : State :=
  { s with mem := setAt 0 a v s.mem, undef := cutRange a (a + 1) s.undef }

/-- Write consecutive bytes. -/
def setBytes (s : State) (a : Nat) : List Byte → State
  | [] => s
  | b :: t => (s.setByte a b).setBytes (a + 1) t

/-- Read consecutive bytes. -/
def bytes (s : State) (a n : Nat) : List Byte := (List.range n).map fun i => s.byte (a + i)

/-- The contents of a range are lost: nothing in it is listed, its bytes are free until written. -/
def lose (s : State) (lo hi : Nat) : State :=
  { s with mem := s.mem.filter (fun c => !(decide (lo ≤ c.1) && decide (c.1 < hi)))
           undef := (lo, hi, s.fresh) :: cutRange lo hi s.undef
           flips := s.flips.filter (fun c => !(decide (lo ≤ c.1 * 8) && decide (c.1 * 8 < hi)))
           writebacks := s.writebacks.filter (fun w => !(decide (lo ≤ w * 8) && decide (w * 8 < hi)))
           fresh := s.fresh + 1 }

/-- A range is written with zero and valid check bits (R120). -/
def zero (s : State) (lo hi : Nat) : State :=
  { s with mem := s.mem.filter (fun c => !(decide (lo ≤ c.1) && decide (c.1 < hi)))
           undef := cutRange lo hi s.undef
           flips := s.flips.filter (fun c => !(decide (lo ≤ c.1 * 8) && decide (c.1 * 8 < hi)))
           writebacks := s.writebacks.filter (fun w => !(decide (lo ≤ w * 8) && decide (w * 8 < hi))) }

end State

/-- The canonical form of memory: addresses strictly rising, no byte listed as 0. -/
def Memory.wf (m : List Host.Cell) : Bool := risingFrom 0 m && m.all (fun c => c.2 != 0)

/-- Page bases of tile pages (R49). -/
def tilePg (n i : Nat) : Nat := 0x1000000 + n * 0x10000 + i * 0x1000
def lanePg (n : Nat) : Nat := tilePg n 2
def moverPg (m : Nat) : Nat := 0x20000 + m * 0x800
def checkPg (c : Nat) : Nat := 0x10000 + c * 0x1000
def memPg (c : Nat) : Nat := 0x40000 + c * 0x1000
def flPg (p : Nat) : Nat := 0x60000 + p * 0x4000
def flcPg (p : Nat) : Nat := 0x63000 + p * 0x4000
def routePg (p bank : Nat) : Nat := 0x61000 + p * 0x4000 + bank * 0x1000
def spPg (p : Nat) : Nat := 0x80000 + p * 0x1000
def sctxPg (k : Nat) : Nat := 0x82000 + k * 0x1000
def fabPg (i : Nat) : Nat := 0x90000 + i * 0x1000
def slicePg (s : Nat) : Nat := 0x2000000 + s * 0x1000
def pgGLOBAL : Nat := 0x0
def pgCROWN : Nat := 0x1000
def pgCLOCK : Nat := 0x2000
def pgPOWER : Nat := 0x3000
def pgRESET : Nat := 0x4000
def pgBIST : Nat := 0x5000
def pgISSUE : Nat := 0x6000
def pgSTEP : Nat := 0x7000
def pgTIMERS : Nat := 0x8000
def pgPANEL : Nat := 0x9000
def pgTWIN : Nat := 0xA000
def pgSECURITY : Nat := 0xB000
def pgSCALE : Nat := 0xC000

/-- The half of a tile, a slice, an LPDDR6 channel. -/
def tileHalf (n : Nat) : Nat := n / 128
def sliceHalf (s : Nat) : Nat := s / 32

/-- The page that holds the bank registers of unit u: tile u, or slice u − 256 (R279). -/
def bankPg (u : Nat) : Nat := if u < 256 then tilePg u 1 else slicePg (u - 256)

/-- The first module address of unit u, and its bank size (R42, R103, R274). -/
def bankSize (u : Nat) : Nat := if u < 256 then 0x30000 else 0x40000
def bankBase (u b : Nat) : Nat := (if u < 256 then u * 0x400000 else 0x40000000 + (u - 256) * 0x400000) + b * bankSize u

/-- Every meaning ends in a next state: the module contains each of its errors (R517). -/
abbrev Res := Host.Outcome State Fault Refusal

end Sys2Proof.Machine
end

