-- ==== Sys2Proof/Machine/RegTable.lean ====
section
/-! DEFINITION. The register tables of the spec as data: for each page, one row per register with its page offset, its repetition
(stride, count), the narrowest reset level that clears it (R22), whether it is a 64-bit value (R64), and each field's lowest
bit, width, access code (R21) and reset value. Reserved fields have no row: they read zero and ignore writes (R14). -/
namespace Sys2Proof.Machine

/-- Registers of the HDR page. -/
def rowsHdr : List RegRow := [
  ⟨0x0, [], .cold, false, [⟨16, 16, .ro, 0⟩, ⟨0, 16, .ro, 0⟩]⟩,  -- BLK_ID
  ⟨0x4, [], .cold, false, [⟨8, 8, .ro, 1⟩, ⟨0, 8, .ro, 0⟩]⟩,  -- BLK_VER
  ⟨0x8, [], .cold, false, [⟨16, 16, .ro, 0⟩, ⟨4, 1, .ro, 0⟩, ⟨3, 1, .ro, 0⟩, ⟨2, 1, .ro, 0⟩, ⟨1, 1, .ro, 0⟩, ⟨0, 1, .ro, 0⟩]⟩,  -- BLK_CAP
  ⟨0xC, [], .block, false, [⟨31, 1, .w1s, 0⟩, ⟨1, 1, .rw, 0⟩, ⟨0, 1, .rw, 0⟩]⟩,  -- BLK_CTRL
  ⟨0x10, [], .block, false, [⟨3, 1, .w1c, 0⟩, ⟨2, 1, .w1c, 0⟩, ⟨1, 1, .ro, 0⟩, ⟨0, 1, .ro, 0⟩]⟩,  -- BLK_STAT
  ⟨0x14, [], .block, false, [⟨8, 12, .ro, 0⟩, ⟨0, 8, .ro, 0⟩]⟩,  -- BLK_REASON
  ⟨0x18, [], .block, false, [⟨4, 28, .w1c, 0⟩, ⟨2, 1, .w1c, 0⟩, ⟨1, 1, .w1c, 0⟩, ⟨0, 1, .w1c, 0⟩]⟩,  -- BLK_IRQ_STAT
  ⟨0x1C, [], .compute, false, [⟨0, 32, .rw, 0⟩]⟩,  -- BLK_IRQ_EN
  ⟨0x20, [], .compute, false, [⟨16, 2, .rw, 3⟩, ⟨0, 11, .rw, 0⟩]⟩,  -- BLK_IRQ_VEC
  ⟨0x24, [], .compute, false, [⟨0, 8, .rw, 0⟩]⟩ ]  -- BLK_VOTE

/-- Registers of the GLOBAL page. -/
def rowsGlobal : List RegRow := [
  ⟨0x40, [], .cold, false, [⟨16, 16, .ro, 0x9200⟩, ⟨8, 8, .ro, 0xB0⟩, ⟨0, 2, .ro, 3⟩]⟩,  -- MOD_ID
  ⟨0x48, [], .cold, false, [⟨0, 32, .rw, 0⟩]⟩,  -- TMR_FIX_CNT
  ⟨0x4C, [], .cold, false, [⟨0, 26, .ro, 0⟩]⟩,  -- TMR_FIX_LOC
  ⟨0x50, [], .compute, false, [⟨0, 32, .rw, 0⟩]⟩,  -- REG_UNMAPPED_CNT
  ⟨0x54, [], .compute, false, [⟨0, 26, .ro, 0⟩]⟩,  -- REG_UNMAPPED_OFS
  ⟨0x58, [], .compute, false, [⟨0, 32, .rw, 0⟩]⟩,  -- REG_DOWN_CNT
  ⟨0x100, [], .cold, false, [⟨13, 1, .roc, 0⟩, ⟨12, 1, .roc, 0⟩, ⟨4, 5, .roc, 0⟩, ⟨0, 3, .roc, 0⟩]⟩,  -- PCIE_STAT
  ⟨0x108, [], .cold, true, [⟨30, 18, .rws, 0⟩]⟩,  -- BAR2_BASE
  ⟨0x110, [], .compute, false, [⟨0, 32, .rw, 0⟩]⟩,  -- HOST_ERR_CNT
  ⟨0x114, [], .compute, false, [⟨0, 32, .rw, 0⟩]⟩,  -- POISON_CNT
  ⟨0x118, [], .compute, false, [⟨0, 32, .rw, 0⟩]⟩,  -- HQ_BUSY_CNT
  ⟨0x120, [], .compute, true, [⟨52, 4, .rws, 0⟩, ⟨0, 48, .ro, 0⟩]⟩ ]  -- HOST_ERR_LAST

/-- Registers of the ISSUE page. -/
def rowsIssue : List RegRow := [
  ⟨0x40, [], .block, true, [⟨0, 48, .rws, 0⟩]⟩,  -- IMG_ADDR
  ⟨0x48, [], .block, false, [⟨0, 1, .w1s, 0⟩]⟩,  -- LOAD_CTRL
  ⟨0x4C, [], .block, false, [⟨16, 16, .ro, 0⟩, ⟨1, 1, .ro, 0⟩, ⟨0, 1, .ro, 0⟩]⟩,  -- LOAD_STAT
  ⟨0x50, [], .block, false, [⟨1, 1, .w1s, 0⟩, ⟨0, 1, .w1s, 0⟩]⟩,  -- RUN_CTRL
  ⟨0x54, [], .block, false, [⟨16, 14, .ro, 0⟩, ⟨9, 7, .ro, 0⟩, ⟨8, 1, .ro, 0⟩, ⟨0, 3, .ro, 0⟩]⟩,  -- RUN_STAT
  ⟨0x58, [], .block, true, [⟨0, 64, .rws, 0⟩]⟩,  -- LAUNCH_CNT
  ⟨0x60, [], .block, true, [⟨0, 64, .rws, 0⟩]⟩,  -- WAIT_CYC
  ⟨0x68, [], .block, false, [⟨16, 14, .ro, 0⟩, ⟨8, 8, .ro, 0⟩, ⟨7, 1, .ro, 0⟩, ⟨0, 4, .ro, 0⟩]⟩,  -- HALT_CAUSE
  ⟨0x6C, [], .block, false, [⟨0, 32, .rw, 0⟩]⟩,  -- WAIT_TMO
  ⟨0x70, [], .block, false, [⟨2, 1, .w1s, 0⟩, ⟨1, 1, .w1s, 0⟩, ⟨0, 1, .w1s, 0⟩]⟩,  -- DBG_CTRL
  ⟨0x74, [], .block, false, [⟨4, 1, .rw, 0⟩, ⟨0, 4, .rw, 0⟩]⟩,  -- BRK_CFG
  ⟨0x78, [(0x4, 4)], .block, false, [⟨0, 14, .rw, 0⟩]⟩,  -- BRK_IDX
  ⟨0x88, [], .block, true, [⟨0, 64, .rws, 0⟩]⟩,  -- BRK_CNT
  ⟨0x90, [], .compute, false, [⟨0, 32, .w1s, 0⟩]⟩,  -- DBELL
  ⟨0x94, [], .block, false, [⟨28, 4, .ro, 0⟩, ⟨26, 2, .ro, 0⟩, ⟨25, 1, .ro, 0⟩, ⟨16, 8, .ro, 0⟩, ⟨0, 14, .ro, 0⟩]⟩,  -- IMG_INFO
  ⟨0xA0, [(0x4, 8)], .block, false, [⟨0, 32, .ro, 0⟩]⟩ ]  -- RUN_MASK

/-- Registers of the LANE page. -/
def rowsLane : List RegRow := [
  ⟨0x40, [], .compute, false, [⟨16, 3, .ro, 0⟩, ⟨0, 14, .ro, 0⟩]⟩,  -- LANE_PC
  ⟨0x44, [], .compute, true, [⟨0, 64, .ro, 0⟩]⟩,  -- LANE_CNT
  ⟨0x4C, [], .compute, false, [⟨0, 32, .rw, 0⟩]⟩,  -- LANE_ECC_CNT
  ⟨0x50, [], .compute, false, [⟨16, 14, .ro, 0⟩, ⟨8, 8, .ro, 0⟩, ⟨0, 4, .ro, 0⟩]⟩ ]  -- LANE_FAULT

/-- Registers of the TILE page. -/
def rowsTile : List RegRow := [
  ⟨0x40, [], .cold, false, [⟨8, 1, .ro, 0⟩, ⟨0, 8, .ro, 0⟩]⟩,  -- TILE_INFO
  ⟨0x44, [], .compute, false, [⟨0, 16, .ro, 0⟩]⟩,  -- UNIT_RDY
  ⟨0x48, [], .compute, false, [⟨0, 16, .ro, 0⟩]⟩ ]  -- ERR_SUM

/-- Registers of the STORE page. -/
def rowsStore : List RegRow := [
  ⟨0x40, [], .compute, false, [⟨0, 32, .rw, 0⟩]⟩,  -- BANK_PWR
  ⟨0x44, [], .compute, false, [⟨0, 32, .ro, 0⟩]⟩,  -- BANK_PSTAT
  ⟨0x48, [], .compute, false, [⟨0, 16, .w1s, 0⟩]⟩,  -- BANK_INIT
  ⟨0x4C, [], .compute, false, [⟨0, 32, .rw, 0⟩]⟩,  -- CONF_CNT
  ⟨0x50, [], .compute, false, [⟨30, 2, .ro, 0⟩, ⟨0, 22, .ro, 0⟩]⟩,  -- CONF_ADDR
  ⟨0x54, [], .compute, false, [⟨0, 32, .rw, 0⟩]⟩,  -- ECC_CE_CNT
  ⟨0x58, [], .compute, false, [⟨0, 32, .rw, 0⟩]⟩,  -- ECC_UE_CNT
  ⟨0x5C, [], .compute, false, [⟨28, 4, .ro, 0⟩, ⟨0, 22, .ro, 0⟩]⟩,  -- ECC_ADDR
  ⟨0x60, [], .compute, false, [⟨0, 16, .rw, 0⟩]⟩,  -- SCRUB_CFG
  ⟨0x64, [], .compute, false, [⟨0, 32, .rw, 0⟩]⟩ ]  -- BANK_OFF_CNT

/-- Registers of the SCALAR page. -/
def rowsScalar : List RegRow := [
  ⟨0x40, [], .block, false, [⟨0, 5, .rw, 0⟩]⟩,  -- SREG_SEL
  ⟨0x48, [], .block, true, [⟨0, 64, .rws, 0⟩]⟩ ]  -- SREG_DATA

/-- Registers of the VECTOR page. -/
def rowsVector : List RegRow := [
  ⟨0x40, [], .block, false, [⟨8, 5, .rw, 0⟩, ⟨0, 7, .rw, 0⟩]⟩,  -- VREG_SEL
  ⟨0x44, [], .block, false, [⟨0, 32, .rw, 0⟩]⟩,  -- VREG_DATA
  ⟨0x48, [(0x4, 4)], .block, false, [⟨0, 32, .rw, 0⟩]⟩,  -- MASK_DATA
  ⟨0x68, [], .block, false, [⟨0, 32, .rw, 0⟩]⟩,  -- VCARRY
  ⟨0x6C, [], .block, false, [⟨2, 1, .w1c, 0⟩, ⟨1, 1, .w1c, 0⟩, ⟨0, 1, .w1c, 0⟩]⟩,  -- VEC_FLAGS
  ⟨0x80, [(0x4, 16)], .block, false, [⟨0, 32, .rw, 0⟩]⟩ ]  -- KREG

/-- Registers of the ARRAY page. -/
def rowsArray : List RegRow := [
  ⟨0x40, [], .block, false, [⟨3, 1, .ro, 0⟩, ⟨2, 1, .ro, 0⟩, ⟨1, 1, .ro, 0⟩, ⟨0, 1, .ro, 0⟩]⟩,  -- ARR_STAT
  ⟨0x44, [], .block, false, [⟨16, 14, .ro, 0⟩, ⟨12, 4, .ro, 0⟩, ⟨8, 4, .ro, 0⟩, ⟨0, 3, .ro, 0⟩]⟩,  -- ARR_FAULT
  ⟨0x48, [], .compute, true, [⟨0, 64, .rws, 0⟩]⟩,  -- MAC_ROWS
  ⟨0x400, [(0x40, 16)], .block, false, [⟨28, 4, .rw, 0⟩, ⟨24, 4, .rw, 0⟩, ⟨22, 2, .rw, 0⟩, ⟨20, 2, .rw, 0⟩, ⟨18, 2, .rw, 0⟩, ⟨17, 1, .rw, 0⟩, ⟨12, 4, .rw, 0⟩]⟩,  -- DESC_W0
  ⟨0x404, [(0x40, 16)], .block, false, [⟨0, 22, .rw, 0⟩]⟩,  -- DESC_W1
  ⟨0x408, [(0x40, 16)], .block, false, [⟨16, 16, .rw, 0⟩, ⟨0, 16, .rw, 0⟩]⟩,  -- DESC_W2
  ⟨0x40C, [(0x40, 16)], .block, false, [⟨0, 22, .rw, 0⟩]⟩,  -- DESC_W3
  ⟨0x410, [(0x40, 16)], .block, false, [⟨0, 22, .rw, 0⟩]⟩,  -- DESC_W4
  ⟨0x414, [(0x40, 16)], .block, false, [⟨0, 22, .rw, 0⟩]⟩,  -- DESC_W5
  ⟨0x418, [(0x40, 16)], .block, false, [⟨16, 9, .rw, 0⟩, ⟨0, 9, .rw, 0⟩]⟩,  -- DESC_W6
  ⟨0x41C, [(0x40, 16)], .block, false, [⟨0, 22, .rw, 0⟩]⟩,  -- DESC_W7
  ⟨0x420, [(0x40, 16)], .block, false, [⟨0, 22, .rw, 0⟩]⟩ ]  -- DESC_W8

/-- Registers of the QUANT page. -/
def rowsQuant : List RegRow := [
  ⟨0x40, [], .compute, true, [⟨0, 64, .rws, 0⟩]⟩,  -- RNG_SEED
  ⟨0x48, [], .block, false, [⟨0, 4, .rw, 0⟩]⟩,  -- VQ_SEL
  ⟨0x50, [], .compute, false, [⟨0, 32, .rw, 0⟩]⟩,  -- DQ_RANGE_CNT
  ⟨0x54, [], .compute, false, [⟨0, 32, .rw, 0⟩]⟩,  -- DQ_NAN_CNT
  ⟨0x100, [(0x20, 16)], .block, false, [⟨31, 1, .rw, 0⟩, ⟨24, 6, .rw, 0⟩, ⟨16, 4, .rw, 0⟩, ⟨12, 2, .rw, 0⟩, ⟨8, 2, .rw, 0⟩, ⟨4, 2, .rw, 0⟩, ⟨0, 1, .rw, 0⟩]⟩,  -- CH_CFG
  ⟨0x104, [(0x20, 16)], .block, false, [⟨24, 8, .rw, 0⟩, ⟨8, 8, .rw, 0⟩]⟩,  -- CH_EXP
  ⟨0x108, [(0x20, 16)], .block, false, [⟨0, 32, .rw, 0⟩]⟩,  -- CH_AMAX
  ⟨0x10C, [(0x20, 16)], .block, false, [⟨0, 32, .rw, 0⟩]⟩,  -- CH_CLIP
  ⟨0x110, [(0x20, 16)], .block, false, [⟨0, 32, .rw, 0⟩]⟩,  -- CH_VAL
  ⟨0x118, [(0x20, 16)], .block, false, [⟨0, 32, .rw, 0⟩]⟩,  -- CH_QNAN
  ⟨0x114, [(0x20, 16)], .block, false, [⟨0, 16, .ro, 0⟩]⟩ ]  -- CH_SHARE

/-- Registers of the STATS page. -/
def rowsStats : List RegRow := [
  ⟨0x40, [(0x4, 8)], .block, false, [⟨4, 1, .rw, 0⟩, ⟨0, 4, .rw, 0⟩]⟩,  -- MSE_CFG
  ⟨0x80, [(0x10, 8)], .block, true, [⟨0, 64, .rws, 0⟩]⟩,  -- MSE_ERR
  ⟨0x88, [(0x10, 8)], .block, true, [⟨0, 64, .rws, 0⟩]⟩ ]  -- MSE_SQ

/-- Registers of the SCALE page. -/
def rowsScale : List RegRow := [
  ⟨0x40, [], .compute, false, [⟨5, 1, .rw, 0⟩, ⟨4, 1, .rw, 0⟩, ⟨0, 4, .rw, 0⟩]⟩,  -- CFG
  ⟨0x44, [], .block, false, [⟨1, 1, .w1s, 0⟩, ⟨0, 1, .w1s, 0⟩]⟩,  -- CTRL
  ⟨0x48, [], .block, false, [⟨2, 1, .w1c, 0⟩, ⟨1, 1, .w1c, 0⟩, ⟨0, 1, .ro, 0⟩]⟩,  -- STAT
  ⟨0x4C, [], .compute, false, [⟨0, 32, .rw, 0⟩]⟩,  -- OVERRUN_CNT
  ⟨0x50, [], .compute, false, [⟨0, 32, .rw, 0⟩]⟩,  -- LATE_CNT
  ⟨0x60, [(0x4, 8)], .compute, false, [⟨0, 32, .rw, 0⟩]⟩,  -- TILE_MASK
  ⟨0x200, [(0x20, 64)], .compute, false, [⟨31, 1, .rw, 0⟩, ⟨24, 4, .rw, 0⟩, ⟨20, 4, .rw, 0⟩, ⟨0, 16, .rw, 0⟩]⟩,  -- T_CFG
  ⟨0x204, [(0x20, 64)], .compute, false, [⟨8, 8, .rw, 0⟩, ⟨0, 8, .rw, 0⟩]⟩,  -- T_LIM
  ⟨0x208, [(0x20, 64)], .compute, false, [⟨0, 32, .rw, 0⟩]⟩,  -- T_EXP
  ⟨0x20C, [(0x20, 64)], .compute, false, [⟨0, 32, .ro, 0⟩]⟩,  -- T_AMAX
  ⟨0x210, [(0x20, 64)], .compute, false, [⟨0, 32, .ro, 0⟩]⟩,  -- T_CLIP
  ⟨0x214, [(0x20, 64)], .compute, false, [⟨0, 32, .ro, 0⟩]⟩ ]  -- T_VAL

/-- Registers of the EVENT page. -/
def rowsEvent : List RegRow := [
  ⟨0x40, [], .compute, false, [⟨8, 1, .rw, 0⟩, ⟨0, 7, .rw, 0x40⟩]⟩,  -- EVT_CFG
  ⟨0x44, [], .block, false, [⟨2, 1, .w1s, 0⟩, ⟨1, 1, .w1s, 0⟩, ⟨0, 1, .w1s, 0⟩]⟩,  -- EVT_CTRL
  ⟨0x48, [], .block, false, [⟨16, 13, .ro, 0⟩, ⟨2, 1, .ro, 1⟩, ⟨0, 2, .ro, 0⟩]⟩,  -- EVT_STAT
  ⟨0x4C, [], .compute, false, [⟨0, 32, .rw, 0⟩]⟩,  -- DROP_FULL_CNT
  ⟨0x50, [], .compute, false, [⟨0, 32, .rw, 0⟩]⟩,  -- DROP_DEAD_CNT
  ⟨0x54, [], .compute, false, [⟨0, 32, .rw, 0⟩]⟩,  -- LATE_CNT
  ⟨0x58, [], .compute, false, [⟨0, 32, .rw, 0⟩]⟩,  -- DROP_LATE_CNT
  ⟨0x60, [], .compute, true, [⟨0, 64, .rws, 0⟩]⟩,  -- EVT_APPLIED
  ⟨0x68, [], .compute, true, [⟨0, 64, .rws, 0⟩]⟩,  -- ACC_CNT
  ⟨0x70, [], .compute, true, [⟨0, 64, .rws, 0⟩]⟩,  -- ROW_FETCH
  ⟨0x78, [], .compute, true, [⟨0, 64, .ro, 0⟩]⟩,  -- DROP_EVT
  ⟨0x80, [], .compute, false, [⟨0, 3, .ro, 0⟩]⟩,  -- DROP_WHY
  ⟨0x84, [], .compute, false, [⟨0, 13, .rw, 0⟩]⟩ ]  -- FIFO_HWM

/-- Registers of the NEURON page. -/
def rowsNeuron : List RegRow := [
  ⟨0x40, [], .compute, false, [⟨16, 16, .rw, 0⟩, ⟨8, 5, .rw, 1⟩, ⟨4, 4, .rw, 0⟩]⟩,  -- N_CFG
  ⟨0x44, [], .compute, false, [⟨0, 12, .rw, 0⟩]⟩,  -- STATE_LINE
  ⟨0x48, [], .compute, false, [⟨0, 22, .rw, 0⟩]⟩,  -- STATIC_BASE
  ⟨0x50, [], .compute, false, [⟨0, 22, .rw, 0⟩]⟩,  -- PSET_BASE
  ⟨0x4C, [], .compute, false, [⟨16, 14, .rw, 0⟩, ⟨0, 15, .rw, 1⟩]⟩,  -- WORLD
  ⟨0x54, [], .block, false, [⟨0, 1, .w1s, 0⟩]⟩,  -- PSET_CTRL
  ⟨0x58, [], .compute, true, [⟨0, 64, .ro, 0⟩]⟩,  -- PSET_BAD
  ⟨0x60, [], .compute, false, [⟨0, 22, .rw, 0⟩]⟩,  -- FIRE_BASE0
  ⟨0x64, [], .compute, false, [⟨0, 22, .rw, 0⟩]⟩,  -- FIRE_BASE1
  ⟨0x68, [], .compute, false, [⟨0, 20, .rw, 0⟩]⟩,  -- FIRE_CAP
  ⟨0x6C, [], .compute, false, [⟨0, 20, .ro, 0⟩]⟩,  -- FIRE_CNT
  ⟨0x70, [], .compute, false, [⟨0, 32, .rw, 0⟩]⟩,  -- FIRE_OVF_CNT
  ⟨0x74, [], .compute, false, [⟨0, 32, .rw, 0⟩]⟩,  -- NEU_NAN_CNT
  ⟨0x78, [], .compute, false, [⟨0, 32, .rw, 0⟩]⟩,  -- NEU_SKIP_CNT
  ⟨0x80, [], .compute, false, [⟨0, 16, .w1c, 0⟩]⟩,  -- RO_READY
  ⟨0x84, [], .compute, false, [⟨0, 32, .rw, 0⟩]⟩,  -- RO_OVR_CNT
  ⟨0x88, [], .compute, false, [⟨0, 32, .rw, 0⟩]⟩,  -- RO_MISS_CNT
  ⟨0x200, [(0x10, 16)], .compute, false, [⟨31, 1, .rw, 0⟩, ⟨0, 16, .rw, 1⟩]⟩,  -- RO_GRP_W0
  ⟨0x204, [(0x10, 16)], .compute, false, [⟨16, 12, .rw, 0⟩, ⟨0, 12, .rw, 0⟩]⟩,  -- RO_GRP_W1
  ⟨0x208, [(0x10, 16)], .compute, false, [⟨16, 14, .rw, 0⟩, ⟨0, 15, .rw, 0⟩]⟩,  -- RO_GRP_W2
  ⟨0x20C, [(0x10, 16)], .compute, false, [⟨0, 22, .rw, 0⟩]⟩ ]  -- RO_GRP_W3

/-- Registers of the EGRESS page. -/
def rowsEgress : List RegRow := [
  ⟨0x40, [], .compute, false, [⟨8, 1, .rw, 0⟩]⟩,  -- EGR_CFG
  ⟨0x44, [], .compute, false, [⟨16, 14, .rw, 0⟩, ⟨0, 14, .rw, 0x3FFF⟩]⟩,  -- EGR_WMAP
  ⟨0x48, [], .block, false, [⟨1, 1, .w1s, 0⟩, ⟨0, 1, .w1s, 0⟩]⟩,  -- EGR_CTRL
  ⟨0x4C, [], .block, false, [⟨16, 14, .ro, 0⟩, ⟨3, 1, .ro, 0⟩, ⟨2, 1, .ro, 0⟩, ⟨1, 1, .ro, 0⟩, ⟨0, 1, .ro, 1⟩]⟩,  -- EGR_STAT
  ⟨0x50, [], .compute, false, [⟨0, 32, .rw, 0⟩]⟩,  -- DROP_RING_CNT
  ⟨0x54, [], .compute, false, [⟨0, 32, .rw, 0⟩]⟩,  -- BAD_ENT_CNT
  ⟨0x58, [], .compute, false, [⟨0, 32, .rw, 0⟩]⟩,  -- FIRE_DROP_CNT
  ⟨0x5C, [], .compute, false, [⟨0, 32, .rw, 0⟩]⟩,  -- LATE_DROP_CNT
  ⟨0x60, [], .compute, true, [⟨0, 64, .rws, 0⟩]⟩,  -- EMIT_CNT
  ⟨0x68, [], .compute, false, [⟨0, 14, .rw, 0⟩]⟩,  -- RING_HWM
  ⟨0x6C, [], .compute, false, [⟨29, 3, .ro, 0⟩, ⟨28, 1, .ro, 0⟩, ⟨0, 28, .ro, 0⟩]⟩ ]  -- BAD_LAST

/-- Registers of the STEP page. -/
def rowsStep : List RegRow := [
  ⟨0x40, [], .compute, false, [⟨24, 8, .rw, 0⟩, ⟨16, 6, .rw, 0⟩, ⟨0, 1, .rw, 0⟩]⟩,  -- STEP_CFG
  ⟨0x44, [], .compute, false, [⟨0, 32, .rw, 0xF4240⟩]⟩,  -- STEP_PERIOD
  ⟨0x48, [], .compute, false, [⟨0, 32, .rw, 0xC3500⟩]⟩,  -- DUE
  ⟨0x4C, [], .compute, false, [⟨0, 32, .rw, 0x186A0⟩]⟩,  -- STRETCH_MAX
  ⟨0x50, [], .block, false, [⟨5, 1, .w1s, 0⟩, ⟨4, 1, .w1s, 0⟩, ⟨3, 1, .w1s, 0⟩, ⟨2, 1, .w1s, 0⟩, ⟨1, 1, .w1s, 0⟩, ⟨0, 1, .w1s, 0⟩]⟩,  -- STEP_CTRL
  ⟨0x54, [], .block, false, [⟨6, 1, .ro, 0⟩, ⟨5, 1, .ro, 0⟩, ⟨4, 1, .ro, 0⟩, ⟨3, 1, .ro, 0⟩, ⟨0, 3, .ro, 0⟩]⟩,  -- STEP_STAT
  ⟨0x58, [], .compute, true, [⟨0, 64, .rws, 0⟩]⟩,  -- STEP_CNT
  ⟨0x60, [], .block, false, [⟨0, 32, .ro, 0⟩]⟩,  -- LAST_CYC
  ⟨0x64, [], .compute, false, [⟨0, 32, .rw, 0⟩]⟩,  -- STRETCH_CNT
  ⟨0x68, [], .compute, false, [⟨0, 32, .rw, 0⟩]⟩,  -- LATE_STEP_CNT
  ⟨0x6C, [], .compute, false, [⟨0, 32, .rw, 0⟩]⟩,  -- OVERRUN_CNT
  ⟨0x70, [], .compute, false, [⟨0, 32, .rw, 0⟩]⟩,  -- CMD_OVR_CNT
  ⟨0x74, [], .compute, false, [⟨0, 32, .rw, 0⟩]⟩,  -- INJ_BAD_CNT
  ⟨0x80, [], .compute, true, [⟨0, 48, .rws, 0⟩]⟩,  -- INJ_RING
  ⟨0x88, [], .compute, false, [⟨0, 4, .rw, 4⟩]⟩,  -- INJ_SIZE
  ⟨0x8C, [], .compute, false, [⟨0, 15, .rw, 0⟩]⟩,  -- INJ_HEAD
  ⟨0x90, [], .compute, false, [⟨0, 15, .ro, 0⟩]⟩,  -- INJ_TAIL
  ⟨0xA0, [(0x4, 8)], .compute, false, [⟨0, 32, .rw, 0⟩]⟩,  -- TILE_MASK
  ⟨0x400, [(0x10, 64)], .compute, false, [⟨30, 2, .rw, 0⟩, ⟨0, 16, .rw, 0⟩]⟩,  -- IGRP_W0
  ⟨0x404, [(0x10, 64)], .compute, false, [⟨0, 32, .rw, 0⟩]⟩,  -- IGRP_W1
  ⟨0x408, [(0x10, 64)], .compute, false, [⟨0, 16, .rw, 0⟩]⟩,  -- IGRP_W2
  ⟨0x40C, [(0x10, 64)], .compute, false, [⟨0, 32, .rw, 0⟩]⟩ ]  -- IGRP_W3

/-- Registers of the SYNAPSE page. -/
def rowsSynapse : List RegRow := [
  ⟨0x40, [], .compute, false, [⟨0, 22, .rw, 0⟩]⟩,  -- ROW_BASE
  ⟨0x44, [], .compute, false, [⟨0, 17, .rw, 0⟩]⟩,  -- ROW_COUNT
  ⟨0x48, [], .compute, false, [⟨0, 32, .rw, 0⟩]⟩,  -- LOCK_TMO
  ⟨0x4C, [], .block, false, [⟨17, 1, .w1s, 0⟩, ⟨16, 1, .w1s, 0⟩, ⟨0, 16, .rw, 0⟩]⟩,  -- HLOCK_CTRL
  ⟨0x50, [], .block, false, [⟨17, 1, .ro, 0⟩, ⟨16, 1, .ro, 0⟩, ⟨0, 16, .ro, 0⟩]⟩,  -- HLOCK_STAT
  ⟨0x54, [], .compute, false, [⟨0, 32, .rw, 0⟩]⟩,  -- ROW_BAD_CNT
  ⟨0x58, [], .compute, false, [⟨0, 32, .rw, 0⟩]⟩,  -- TGT_SKIP_CNT
  ⟨0x5C, [], .compute, false, [⟨0, 32, .rw, 0⟩]⟩,  -- LOCK_WAIT_CNT
  ⟨0x60, [], .compute, false, [⟨0, 32, .rw, 0⟩]⟩,  -- LOCK_DROP_CNT
  ⟨0x64, [], .compute, false, [⟨29, 3, .ro, 0⟩, ⟨0, 16, .ro, 0⟩]⟩,  -- ROW_BAD_LAST
  ⟨0x68, [], .compute, false, [⟨0, 32, .rw, 0⟩]⟩ ]  -- LOCK_WAIT_MAX

/-- Registers of the LEARN page. -/
def rowsLearn : List RegRow := [
  ⟨0x40, [], .block, false, [⟨31, 1, .w1s, 0⟩, ⟨0, 24, .rw, 0⟩]⟩,  -- CMD
  ⟨0x44, [], .compute, false, [⟨0, 24, .rw, 0⟩]⟩,  -- STEP_CMD
  ⟨0x48, [], .block, false, [⟨16, 16, .ro, 0⟩, ⟨4, 1, .w1c, 0⟩, ⟨3, 1, .ro, 0⟩, ⟨2, 1, .w1c, 0⟩, ⟨1, 1, .ro, 0⟩, ⟨0, 1, .ro, 0⟩]⟩,  -- STAT
  ⟨0x4C, [], .block, false, [⟨0, 1, .w1s, 0⟩]⟩,  -- CTRL
  ⟨0x50, [], .compute, false, [⟨0, 22, .rw, 0⟩]⟩,  -- MOD_BASE
  ⟨0x54, [], .compute, false, [⟨0, 22, .rw, 0⟩]⟩,  -- POST_BASE
  ⟨0x58, [], .compute, false, [⟨0, 32, .rw, 0⟩]⟩,  -- TRC_L2R
  ⟨0x5C, [], .compute, false, [⟨0, 32, .rw, 0⟩]⟩,  -- TRC_L2S
  ⟨0x60, [], .compute, false, [⟨0, 32, .rw, 0⟩]⟩,  -- INC_R
  ⟨0x64, [], .compute, false, [⟨0, 32, .rw, 0⟩]⟩,  -- INC_S
  ⟨0x68, [], .compute, false, [⟨0, 32, .rw, 0⟩]⟩,  -- DTHR
  ⟨0x70, [(0x4, 4)], .compute, false, [⟨16, 16, .rw, 0⟩, ⟨0, 16, .rw, 0⟩]⟩,  -- RANGE
  ⟨0x80, [(0x4, 8)], .compute, false, [⟨31, 1, .rw, 0⟩, ⟨16, 14, .rw, 0⟩, ⟨0, 15, .rw, 0⟩]⟩,  -- WGRP
  ⟨0xA0, [], .compute, false, [⟨0, 32, .rw, 0⟩]⟩,  -- ROWS_DONE
  ⟨0xA4, [], .compute, false, [⟨0, 32, .rw, 0⟩]⟩,  -- CLAMP_CNT
  ⟨0xA8, [], .compute, false, [⟨0, 32, .rw, 0⟩]⟩,  -- SKIP_CNT
  ⟨0xAC, [], .compute, false, [⟨0, 32, .rw, 0⟩]⟩,  -- DLY_UP_CNT
  ⟨0xB0, [], .compute, false, [⟨0, 32, .rw, 0⟩]⟩,  -- DLY_DN_CNT
  ⟨0xB4, [], .compute, false, [⟨0, 32, .rw, 0⟩]⟩,  -- DLY_FAIL_CNT
  ⟨0xB8, [], .compute, false, [⟨0, 32, .rw, 0⟩]⟩,  -- CMD_DROP_CNT
  ⟨0xC0, [], .block, false, [⟨0, 32, .ro, 0⟩]⟩,  -- APPLY_CYC
  ⟨0x200, [(0x40, 4), (0x4, 16)], .compute, false, [⟨0, 32, .rw, 0⟩]⟩,  -- PROG
  ⟨0x300, [(0x20, 4), (0x4, 8)], .compute, false, [⟨0, 32, .rw, 0⟩]⟩ ]  -- CONST

/-- Registers of the FAB0 page. -/
def rowsFab0 : List RegRow := [
  ⟨0x40, [], .compute, false, [⟨0, 32, .rw, 0x40000⟩]⟩,  -- NI_TMO
  ⟨0x44, [], .compute, false, [⟨0, 32, .rw, 0x10000⟩]⟩,  -- FENCE_TMO
  ⟨0x48, [], .compute, false, [⟨0, 32, .rw, 0x10000⟩]⟩,  -- RED_TMO
  ⟨0x50, [], .compute, false, [⟨0, 32, .rw, 0⟩]⟩,  -- CRC_DROP_CNT
  ⟨0x54, [], .compute, false, [⟨0, 32, .rw, 0⟩]⟩,  -- UNMAPPED_CNT
  ⟨0x58, [], .compute, false, [⟨0, 32, .rw, 0⟩]⟩,  -- EP_DOWN_CNT
  ⟨0x5C, [], .compute, false, [⟨0, 32, .rw, 0⟩]⟩,  -- LATE_RSP_CNT
  ⟨0x60, [], .compute, false, [⟨0, 32, .rw, 0⟩]⟩,  -- FENCE_TMO_CNT
  ⟨0x64, [], .compute, false, [⟨0, 32, .rw, 0⟩]⟩,  -- COLL_ERR_CNT
  ⟨0x68, [], .compute, false, [⟨0, 32, .rw, 0⟩]⟩,  -- BAD_PKT_CNT
  ⟨0x6C, [], .compute, false, [⟨0, 32, .rw, 0⟩]⟩,  -- CNET_PAR_CNT
  ⟨0x70, [], .compute, false, [⟨24, 6, .ro, 0⟩, ⟨16, 5, .ro, 0⟩, ⟨0, 9, .ro, 0⟩]⟩,  -- CRC_LAST
  ⟨0x78, [], .compute, true, [⟨48, 9, .rws, 0⟩, ⟨0, 48, .ro, 0⟩]⟩,  -- UNMAPPED_LAST
  ⟨0x80, [], .compute, false, [⟨0, 9, .ro, 0⟩]⟩,  -- EP_DOWN_LAST
  ⟨0x84, [], .compute, false, [⟨29, 3, .ro, 0⟩, ⟨16, 6, .ro, 0⟩, ⟨0, 16, .ro, 0⟩]⟩ ]  -- COLL_ERR_LAST

/-- Registers of the CUFF page. -/
def rowsCuff : List RegRow := [
  ⟨0x40, [], .compute, false, [⟨0, 16, .rw, 0x64⟩]⟩,  -- CUFF_TMO
  ⟨0x44, [], .block, false, [⟨12, 12, .ro, 0⟩, ⟨0, 12, .ro, 0⟩]⟩,  -- CUFF_STAT
  ⟨0x48, [], .compute, false, [⟨0, 32, .rw, 0⟩]⟩,  -- CUFF_HOLD_CNT
  ⟨0x4C, [], .compute, false, [⟨0, 32, .rw, 0⟩]⟩,  -- CUFF_DROP_CNT
  ⟨0x50, [], .compute, false, [⟨0, 32, .rw, 0⟩]⟩ ]  -- CUFF_HOLD_MAX

/-- Registers of the SNET page. -/
def rowsSnet : List RegRow := [
  ⟨0x40, [], .block, false, [⟨0, 16, .rw, 0⟩]⟩,  -- FLAGS
  ⟨0x44, [], .compute, false, [⟨0, 32, .rw, 0⟩]⟩,  -- BAR_TMO
  ⟨0x48, [(0x4, 2)], .block, false, [⟨0, 32, .w1c, 0⟩]⟩,  -- BAR_DONE
  ⟨0x50, [(0x4, 2)], .block, false, [⟨0, 32, .w1c, 0⟩]⟩,  -- BAR_TMO_STAT
  ⟨0x58, [], .compute, false, [⟨0, 32, .rw, 0⟩]⟩,  -- BAR_ERR_CNT
  ⟨0x5C, [], .compute, false, [⟨0, 32, .rw, 0⟩]⟩ ]  -- BAR_TMO_CNT

/-- Registers of the SNETM page. -/
def rowsSnetm : List RegRow := [
  ⟨0x100, [(0x20, 64), (0x4, 8)], .compute, false, [⟨0, 32, .rw, 0⟩]⟩ ]  -- BAR_MASK

/-- Registers of the REDUCE page. -/
def rowsReduce : List RegRow := [
  ⟨0x100, [(0x30, 64), (0x4, 8)], .compute, false, [⟨0, 32, .rw, 0⟩]⟩,  -- RG_MASK
  ⟨0x120, [(0x30, 64)], .compute, false, [⟨31, 1, .rw, 0⟩, ⟨30, 1, .rw, 0⟩, ⟨27, 3, .rw, 0⟩, ⟨23, 4, .rw, 0⟩, ⟨18, 5, .rw, 0⟩, ⟨9, 9, .rw, 0⟩]⟩,  -- RG_CFG
  ⟨0x124, [(0x30, 64)], .compute, false, [⟨0, 32, .rw, 0⟩]⟩ ]  -- RG_DEST

/-- Registers of the SLICE page. -/
def rowsSlice : List RegRow := [
  ⟨0x80, [], .compute, false, [⟨0, 1, .rw, 1⟩]⟩,  -- COMB_CFG
  ⟨0x84, [], .compute, false, [⟨0, 32, .rw, 0⟩]⟩,  -- COMB_HIT_CNT
  ⟨0x88, [], .compute, false, [⟨0, 32, .rw, 0⟩]⟩,  -- COMB_FULL_CNT
  ⟨0x40, [], .compute, false, [⟨0, 32, .rw, 0⟩]⟩,  -- BANK_PWR
  ⟨0x44, [], .compute, false, [⟨0, 32, .ro, 0⟩]⟩,  -- BANK_PSTAT
  ⟨0x48, [], .compute, false, [⟨0, 16, .w1s, 0⟩]⟩,  -- BANK_INIT
  ⟨0x54, [], .compute, false, [⟨0, 32, .rw, 0⟩]⟩,  -- ECC_CE_CNT
  ⟨0x58, [], .compute, false, [⟨0, 32, .rw, 0⟩]⟩,  -- ECC_UE_CNT
  ⟨0x5C, [], .compute, false, [⟨28, 4, .ro, 0⟩, ⟨0, 22, .ro, 0⟩]⟩,  -- ECC_ADDR
  ⟨0x60, [], .compute, false, [⟨0, 16, .rw, 0⟩]⟩,  -- SCRUB_CFG
  ⟨0x64, [], .compute, false, [⟨0, 32, .rw, 0⟩]⟩ ]  -- BANK_OFF_CNT

/-- Registers of the QUEUE page. -/
def rowsQueue : List RegRow := [
  ⟨0x40, [], .compute, false, [⟨0, 32, .rw, 0x100000⟩]⟩,  -- QSTALL_TMO
  ⟨0x44, [], .compute, false, [⟨0, 32, .rw, 0x800000⟩]⟩,  -- TX_GUARD
  ⟨0x48, [], .compute, false, [⟨16, 16, .ro, 0⟩, ⟨0, 16, .ro, 0⟩]⟩,  -- STALL_A
  ⟨0x4C, [], .compute, false, [⟨16, 1, .ro, 0⟩, ⟨0, 16, .ro, 0⟩]⟩,  -- STALL_B
  ⟨0x50, [], .block, false, [⟨2, 1, .ro, 0⟩, ⟨1, 1, .w1s, 0⟩, ⟨0, 1, .w1s, 0⟩]⟩,  -- STALL_CTRL
  ⟨0x54, [], .block, false, [⟨0, 4, .ro, 0⟩]⟩,  -- TX_STAT
  ⟨0x60, [(0x4, 4)], .compute, false, [⟨0, 32, .rw, 0⟩]⟩,  -- TX_MSG_CNT
  ⟨0x70, [(0x4, 4)], .compute, false, [⟨0, 32, .rw, 0⟩]⟩,  -- TX_STALL_CNT
  ⟨0x80, [], .compute, false, [⟨0, 32, .rw, 0⟩]⟩,  -- TX_DEAD_CNT
  ⟨0x84, [], .compute, false, [⟨0, 32, .rw, 0⟩]⟩,  -- TX_LATE_CNT
  ⟨0x88, [], .compute, false, [⟨0, 32, .rw, 0⟩]⟩,  -- RX_DEAD_CNT
  ⟨0x8C, [], .compute, false, [⟨0, 32, .rw, 0⟩]⟩,  -- BAD_CNT
  ⟨0x100, [(0x4, 64)], .compute, false, [⟨31, 1, .rw, 0⟩, ⟨30, 1, .rw, 0⟩, ⟨29, 1, .rw, 0⟩, ⟨28, 1, .rw, 0⟩, ⟨24, 4, .rw, 0⟩, ⟨12, 12, .rw, 0⟩]⟩,  -- QCFG
  ⟨0x200, [(0x4, 64)], .block, false, [⟨16, 1, .ro, 0⟩, ⟨8, 6, .ro, 0⟩, ⟨0, 6, .ro, 0⟩]⟩ ]  -- QSTAT

/-- Registers of the QUEUE2 page. -/
def rowsQueue2 : List RegRow := [
  ⟨0x40, [], .block, false, [⟨0, 6, .rw, 0⟩]⟩,  -- HEAD_SEL
  ⟨0x48, [], .block, true, [⟨0, 64, .ro, 0⟩]⟩,  -- HEAD_INFO
  ⟨0x50, [], .block, false, [⟨0, 1, .w1s, 0⟩]⟩,  -- HEAD_CTRL
  ⟨0x54, [], .block, false, [⟨31, 1, .w1s, 0⟩, ⟨6, 16, .rw, 0⟩, ⟨0, 6, .rw, 0⟩]⟩,  -- COMB_FLUSH
  ⟨0x58, [], .compute, false, [⟨0, 32, .rw, 0⟩]⟩,  -- QECC_CE_CNT
  ⟨0x5C, [], .compute, false, [⟨0, 32, .rw, 0⟩]⟩,  -- QECC_UE_CNT
  ⟨0x80, [(0x4, 16)], .block, false, [⟨0, 32, .ro, 0⟩]⟩,  -- HEAD_DATA
  ⟨0x100, [(0x4, 64)], .compute, false, [⟨0, 32, .rw, 0⟩]⟩,  -- RX_MSG_CNT
  ⟨0x200, [(0x4, 64)], .compute, false, [⟨0, 32, .rw, 0⟩]⟩ ]  -- RX_STALL_CNT

/-- Registers of the FL page. -/
def rowsFl : List RegRow := [
  ⟨0x40, [], .compute, false, [⟨14, 2, .rw, 0⟩, ⟨8, 1, .rw, 0⟩, ⟨0, 3, .rw, 0⟩]⟩,  -- PORT_CFG
  ⟨0x44, [], .compute, false, [⟨0, 4, .rw, 0xA⟩]⟩,  -- DOWN_DET
  ⟨0x48, [], .block, false, [⟨24, 8, .roc, 0⟩, ⟨14, 2, .roc, 0⟩, ⟨0, 3, .roc, 0⟩]⟩,  -- PORT_STAT
  ⟨0x4C, [], .block, false, [⟨31, 1, .roc, 0⟩, ⟨28, 3, .roc, 0⟩, ⟨20, 8, .roc, 0⟩, ⟨0, 12, .roc, 0⟩]⟩,  -- PEER
  ⟨0x50, [], .block, false, [⟨0, 32, .roc, 0⟩]⟩,  -- TOK_RX
  ⟨0x54, [], .block, false, [⟨0, 32, .roc, 0⟩]⟩,  -- TOK_TX
  ⟨0x60, [(0x4, 4)], .compute, false, [⟨31, 1, .rw, 0⟩, ⟨16, 6, .rw, 0⟩, ⟨0, 4, .rw, 0⟩]⟩,  -- BARX
  ⟨0x80, [(0x10, 4)], .compute, false, [⟨31, 1, .rw, 0⟩, ⟨16, 6, .rw, 0⟩, ⟨0, 6, .rw, 0⟩]⟩,  -- XCOL_W0
  ⟨0x84, [(0x10, 4)], .compute, false, [⟨0, 32, .rw, 0⟩]⟩,  -- XCOL_W1
  ⟨0x88, [(0x10, 4)], .compute, false, [⟨0, 16, .rw, 0⟩]⟩,  -- XCOL_W2
  ⟨0x200, [], .cold, false, [⟨31, 1, .rw, 0⟩, ⟨0, 12, .rw, 0⟩]⟩,  -- MOD_ID
  ⟨0x204, [], .cold, false, [⟨0, 1, .rwt, 0⟩]⟩,  -- RT_SEL
  ⟨0x208, [], .compute, false, [⟨24, 8, .rw, 0⟩, ⟨8, 1, .w1c, 0⟩, ⟨0, 8, .rw, 0⟩]⟩,  -- RT_STAT
  ⟨0x20C, [], .compute, false, [⟨31, 1, .rw, 0⟩, ⟨16, 6, .rw, 1⟩, ⟨0, 4, .rw, 1⟩]⟩,  -- XSYNC_CFG
  ⟨0x210, [], .compute, false, [⟨0, 16, .rw, 0x32⟩]⟩,  -- EVT_LIFE
  ⟨0x220, [(0x4, 9)], .compute, false, [⟨0, 8, .rw, 0⟩]⟩ ]  -- BCAST_FWD

/-- Registers of the FLR page. -/
def rowsFlr : List RegRow := [
  ⟨0x40, [], .block, false, [⟨29, 3, .ro, 0⟩, ⟨0, 12, .ro, 0⟩]⟩,  -- RT_CHK
  ⟨0x800, [(0x4, 512)], .compute, false, [⟨31, 1, .rw, 0⟩, ⟨30, 1, .rw, 0⟩, ⟨0, 3, .rw, 0⟩]⟩ ]  -- RTE

/-- Registers of the FLC page. -/
def rowsFlc : List RegRow := [
  ⟨0x40, [], .compute, false, [⟨0, 32, .rw, 0⟩]⟩,  -- FEC_CW_CNT
  ⟨0x44, [], .compute, false, [⟨0, 32, .rw, 0⟩]⟩,  -- FEC_UNC_CNT
  ⟨0x48, [], .compute, false, [⟨0, 32, .rw, 0⟩]⟩,  -- CRC_DROP_CNT
  ⟨0x4C, [], .compute, false, [⟨0, 32, .rw, 0⟩]⟩,  -- DOWN_CNT
  ⟨0x50, [], .compute, false, [⟨0, 32, .rw, 0⟩]⟩,  -- XEVT_FULL_CNT
  ⟨0x54, [], .compute, false, [⟨0, 32, .rw, 0⟩]⟩,  -- XEVT_FAR_CNT
  ⟨0x58, [], .compute, false, [⟨0, 32, .rw, 0⟩]⟩,  -- XEVT_LATE_CNT
  ⟨0x5C, [], .compute, false, [⟨0, 32, .rw, 0⟩]⟩,  -- XEVT_LIFE_CNT
  ⟨0x60, [], .compute, false, [⟨0, 32, .rw, 0⟩]⟩,  -- XEVT_NONNBR_CNT
  ⟨0x64, [], .compute, false, [⟨0, 32, .rw, 0⟩]⟩,  -- XEVT_XDELAY_CNT
  ⟨0x68, [], .compute, false, [⟨0, 32, .rw, 0⟩]⟩,  -- XCOL_NOGRANT_CNT
  ⟨0x6C, [], .compute, false, [⟨0, 32, .rw, 0⟩]⟩,  -- BCAST_DROP_CNT
  ⟨0x70, [], .compute, true, [⟨0, 64, .rws, 0⟩]⟩,  -- RX_UNITS
  ⟨0x78, [], .compute, true, [⟨0, 64, .rws, 0⟩]⟩,  -- TX_UNITS
  ⟨0x80, [], .compute, false, [⟨0, 32, .rw, 0⟩]⟩,  -- RT_NOROUTE_CNT
  ⟨0x84, [], .compute, false, [⟨0, 32, .rw, 0⟩]⟩,  -- RT_PORTDOWN_CNT
  ⟨0x88, [], .compute, false, [⟨0, 32, .rw, 0⟩]⟩,  -- RT_UTURN_CNT
  ⟨0x8C, [], .compute, false, [⟨0, 32, .rw, 0⟩]⟩,  -- RT_TURN_CNT
  ⟨0x90, [], .compute, false, [⟨0, 32, .rw, 0⟩]⟩,  -- RT_DL2_CNT
  ⟨0x94, [], .compute, false, [⟨0, 32, .rw, 0⟩]⟩,  -- RT_RESET_CNT
  ⟨0x98, [], .compute, false, [⟨28, 4, .ro, 0⟩, ⟨24, 4, .ro, 0⟩, ⟨0, 12, .ro, 0⟩]⟩ ]  -- RT_DROP_LAST

/-- Registers of the MEM page. -/
def rowsMem : List RegRow := [
  ⟨0x40, [], .compute, false, [⟨4, 2, .rw, 2⟩, ⟨0, 2, .rw, 0⟩]⟩,  -- MEM_CFG
  ⟨0x44, [], .block, false, [⟨8, 4, .roc, 0⟩, ⟨4, 2, .roc, 0⟩, ⟨3, 1, .roc, 0⟩, ⟨0, 3, .roc, 0⟩]⟩,  -- MEM_STAT
  ⟨0x48, [], .block, false, [⟨0, 1, .w1s, 0⟩]⟩,  -- TRAIN_CTRL
  ⟨0x4C, [], .compute, false, [⟨0, 16, .rw, 0x64⟩]⟩,  -- RECAL_CFG
  ⟨0x50, [], .compute, false, [⟨0, 16, .rw, 0⟩]⟩,  -- SCRUB_CFG
  ⟨0x54, [], .compute, false, [⟨0, 32, .rw, 0⟩]⟩,  -- ECC_CE_CNT
  ⟨0x58, [], .compute, false, [⟨0, 32, .rw, 0⟩]⟩,  -- ECC_UE_CNT
  ⟨0x5C, [], .compute, false, [⟨0, 32, .rw, 0⟩]⟩,  -- RMW_CNT
  ⟨0x60, [], .compute, false, [⟨0, 32, .rw, 0⟩]⟩,  -- NRDY_CNT
  ⟨0x68, [], .compute, true, [⟨32, 9, .rws, 0⟩, ⟨0, 32, .ro, 0⟩]⟩,  -- ECC_ADDR
  ⟨0x70, [], .compute, true, [⟨0, 64, .rws, 0⟩]⟩,  -- RD_BYTES
  ⟨0x78, [], .compute, true, [⟨0, 64, .rws, 0⟩]⟩ ]  -- WR_BYTES

/-- Registers of the MOVER page. -/
def rowsMover : List RegRow := [
  ⟨0x40, [], .compute, false, [⟨16, 16, .rw, 0x40⟩, ⟨8, 8, .rw, 0x10⟩, ⟨1, 1, .rw, 0⟩, ⟨0, 1, .rw, 1⟩]⟩,  -- MV_CFG
  ⟨0x48, [], .compute, true, [⟨0, 48, .rws, 0⟩]⟩,  -- RING_BASE
  ⟨0x50, [], .compute, false, [⟨0, 5, .rw, 4⟩]⟩,  -- RING_SIZE
  ⟨0x54, [], .block, false, [⟨0, 16, .rw, 0⟩]⟩,  -- RING_HEAD
  ⟨0x58, [], .block, false, [⟨0, 16, .ro, 0⟩]⟩,  -- RING_TAIL
  ⟨0x5C, [], .block, false, [⟨8, 1, .w1c, 0⟩, ⟨0, 5, .ro, 0⟩]⟩,  -- MV_STAT
  ⟨0x60, [], .block, false, [⟨0, 3, .ro, 0⟩]⟩,  -- MV_STAT2
  ⟨0x64, [], .block, false, [⟨3, 1, .w1s, 0⟩, ⟨2, 1, .w1s, 0⟩, ⟨1, 1, .w1s, 0⟩, ⟨0, 1, .w1s, 0⟩]⟩,  -- MV_CTRL
  ⟨0x68, [], .compute, false, [⟨0, 32, .ro, 0⟩]⟩,  -- LAST_STATUS
  ⟨0x6C, [], .compute, false, [⟨0, 32, .ro, 0⟩]⟩,  -- ERR_DESC
  ⟨0x70, [], .compute, false, [⟨0, 32, .ro, 0⟩]⟩,  -- ERR_OFS
  ⟨0x74, [], .compute, false, [⟨0, 32, .rw, 0⟩]⟩,  -- DESC_CNT
  ⟨0x78, [], .compute, false, [⟨0, 32, .rw, 0⟩]⟩,  -- BUSY_CNT
  ⟨0x7C, [], .compute, false, [⟨0, 32, .rw, 0⟩]⟩,  -- POST_DROP_CNT
  ⟨0x80, [], .compute, false, [⟨0, 32, .rw, 0⟩]⟩,  -- WB_FAIL_CNT
  ⟨0x88, [], .compute, true, [⟨0, 64, .rws, 0⟩]⟩ ]  -- MV_BYTES

/-- Registers of the CHECK page. -/
def rowsCheck : List RegRow := [
  ⟨0x40, [], .compute, false, [⟨4, 2, .rw, 0⟩, ⟨0, 2, .rw, 0⟩]⟩,  -- CHK_CFG
  ⟨0x48, [], .block, true, [⟨0, 48, .rws, 0⟩]⟩,  -- SCAN_ADDR
  ⟨0x50, [], .block, false, [⟨0, 30, .rw, 0⟩]⟩,  -- SCAN_LEN
  ⟨0x54, [], .block, false, [⟨4, 1, .w1s, 0⟩, ⟨3, 1, .rw, 0⟩, ⟨1, 2, .rw, 0⟩, ⟨0, 1, .w1s, 0⟩]⟩,  -- SCAN_CTRL
  ⟨0x58, [], .block, false, [⟨8, 8, .ro, 0⟩, ⟨3, 1, .w1c, 0⟩, ⟨2, 1, .ro, 0⟩, ⟨1, 1, .w1c, 0⟩, ⟨0, 1, .ro, 0⟩]⟩,  -- SCAN_STAT
  ⟨0x60, [], .compute, true, [⟨0, 64, .rws, 0⟩]⟩,  -- CHK_RUN
  ⟨0x68, [], .compute, true, [⟨0, 64, .ro, 0⟩]⟩,  -- CHK_RESULT
  ⟨0x70, [], .compute, false, [⟨0, 32, .rw, 0⟩]⟩,  -- CHK_JOBS
  ⟨0x74, [], .compute, false, [⟨0, 32, .rw, 0⟩]⟩ ]  -- CHK_FAIL_CNT

/-- Registers of the WIN page. -/
def rowsWin : List RegRow := [
  ⟨0x40, [], .compute, true, [⟨32, 16, .wo, 0⟩, ⟨19, 8, .wo, 0⟩, ⟨17, 2, .wo, 0⟩, ⟨14, 3, .wo, 0⟩, ⟨8, 6, .wo, 0⟩, ⟨0, 8, .wo, 0⟩]⟩,  -- LAUNCH
  ⟨0x48, [], .compute, false, [⟨31, 1, .ro, 0⟩, ⟨30, 1, .ro, 0⟩, ⟨0, 8, .ro, 0⟩]⟩ ]  -- STATUS

/-- Registers of the SP page. -/
def rowsSp : List RegRow := [
  ⟨0x40, [], .cold, false, [⟨4, 3, .rw, 0⟩, ⟨0, 3, .rw, 0⟩]⟩,  -- SP_CFG
  ⟨0x48, [], .cold, true, [⟨0, 48, .rws, 0⟩]⟩,  -- MAC
  ⟨0x50, [], .cold, false, [⟨0, 32, .rw, 0⟩]⟩,  -- IPV4
  ⟨0x60, [(0x4, 4)], .cold, false, [⟨0, 32, .rw, 0⟩]⟩,  -- IPV6
  ⟨0x70, [], .block, false, [⟨2, 2, .roc, 0⟩, ⟨0, 2, .roc, 0⟩]⟩,  -- SP_STAT
  ⟨0x80, [], .compute, false, [⟨0, 32, .rw, 0⟩]⟩,  -- RX_FILTER_CNT
  ⟨0x84, [], .compute, false, [⟨0, 32, .rw, 0⟩]⟩,  -- RX_NOCTX_CNT
  ⟨0x88, [], .compute, false, [⟨0, 32, .rw, 0⟩]⟩,  -- RX_VER_CNT
  ⟨0x8C, [], .compute, false, [⟨0, 32, .rw, 0⟩]⟩,  -- RX_CRC_CNT
  ⟨0x90, [], .compute, false, [⟨0, 32, .rw, 0⟩]⟩,  -- RX_LEN_CNT
  ⟨0x94, [], .compute, false, [⟨0, 32, .rw, 0⟩]⟩,  -- RX_OVF_CNT
  ⟨0x98, [], .compute, false, [⟨0, 32, .rw, 0⟩]⟩,  -- RX_FCS_CNT
  ⟨0x9C, [], .compute, false, [⟨0, 32, .rw, 0⟩]⟩,  -- RX_PAUSE_CNT
  ⟨0xA0, [], .compute, false, [⟨0, 32, .rw, 0⟩]⟩,  -- RX_RESET_CNT
  ⟨0xB0, [], .compute, true, [⟨0, 64, .rws, 0⟩]⟩,  -- RX_FRAMES
  ⟨0xB8, [], .compute, true, [⟨0, 64, .rws, 0⟩]⟩ ]  -- TX_FRAMES

/-- Registers of the SCTX page. -/
def rowsSctx : List RegRow := [
  ⟨0x200, [(0x60, 32)], .compute, false, [⟨31, 1, .rw, 0⟩, ⟨30, 1, .rw, 0⟩, ⟨29, 1, .rw, 0⟩, ⟨28, 1, .rw, 0⟩, ⟨27, 1, .rw, 0⟩, ⟨26, 1, .rw, 0⟩, ⟨0, 16, .rw, 0⟩]⟩,  -- CTX_W0
  ⟨0x204, [(0x60, 32)], .compute, false, [⟨0, 16, .rw, 0⟩]⟩,  -- CTX_W1
  ⟨0x208, [(0x60, 32)], .compute, false, [⟨0, 32, .rw, 0⟩]⟩,  -- CTX_W2
  ⟨0x20C, [(0x60, 32)], .compute, false, [⟨0, 32, .rw, 0⟩]⟩,  -- CTX_W3
  ⟨0x210, [(0x60, 32)], .compute, false, [⟨0, 32, .rw, 0⟩]⟩,  -- CTX_W4
  ⟨0x214, [(0x60, 32)], .compute, false, [⟨0, 32, .rw, 0⟩]⟩,  -- CTX_W5
  ⟨0x218, [(0x60, 32)], .compute, false, [⟨0, 32, .rw, 0⟩]⟩,  -- CTX_W6
  ⟨0x21C, [(0x60, 32)], .compute, false, [⟨0, 16, .rw, 0⟩]⟩,  -- CTX_W7
  ⟨0x220, [(0x60, 32)], .compute, false, [⟨16, 14, .rw, 0⟩, ⟨0, 6, .rw, 0⟩, ⟨8, 8, .rw, 0⟩]⟩,  -- CTX_W8
  ⟨0x224, [(0x60, 32)], .compute, false, [⟨0, 15, .rw, 0⟩, ⟨16, 14, .rw, 0⟩]⟩,  -- CTX_W9
  ⟨0x228, [(0x60, 32)], .compute, false, [⟨0, 32, .rw, 0⟩]⟩,  -- CTX_W10
  ⟨0x22C, [(0x60, 32)], .compute, false, [⟨0, 16, .rw, 0⟩]⟩,  -- CTX_W11
  ⟨0x230, [(0x60, 32)], .compute, false, [⟨16, 16, .rw, 0⟩, ⟨0, 4, .rw, 0⟩]⟩,  -- CTX_W12
  ⟨0x234, [(0x60, 32)], .compute, false, [⟨0, 32, .rw, 0⟩]⟩,  -- CTX_W13
  ⟨0x238, [(0x60, 32)], .compute, false, [⟨0, 32, .ro, 0⟩]⟩,  -- CTX_W14
  ⟨0x23C, [(0x60, 32)], .compute, false, [⟨0, 32, .rw, 0⟩]⟩,  -- CTX_W15
  ⟨0x240, [(0x60, 32)], .compute, false, [⟨0, 32, .rw, 0⟩]⟩,  -- CTX_W16
  ⟨0x244, [(0x60, 32)], .compute, false, [⟨0, 32, .rw, 0⟩]⟩,  -- CTX_W17
  ⟨0x248, [(0x60, 32)], .compute, false, [⟨0, 32, .rw, 0⟩]⟩,  -- CTX_W18
  ⟨0x24C, [(0x60, 32)], .compute, false, [⟨0, 32, .rw, 0⟩]⟩,  -- CTX_W19
  ⟨0x250, [(0x60, 32)], .compute, false, [⟨0, 32, .rw, 0⟩]⟩,  -- CTX_W20
  ⟨0x254, [(0x60, 32)], .compute, false, [⟨16, 16, .ro, 0⟩, ⟨0, 16, .ro, 0⟩]⟩,  -- CTX_W21
  ⟨0x40, [], .compute, false, [⟨0, 32, .w1c, 0⟩]⟩ ]  -- CTX_EVT

/-- Registers of the CROWN page. -/
def rowsCrown : List RegRow := [
  ⟨0x40, [], .cold, false, [⟨16, 16, .roc, 0⟩, ⟨0, 2, .rwt, 0⟩]⟩,  -- TOKEN
  ⟨0x44, [], .cold, false, [⟨1, 1, .w1s, 0⟩, ⟨0, 1, .w1s, 0⟩]⟩,  -- HB
  ⟨0x48, [], .cold, false, [⟨0, 16, .rw, 0x3E8⟩]⟩,  -- HB_CFG
  ⟨0x4C, [], .cold, false, [⟨4, 4, .roc, 0⟩, ⟨0, 4, .roc, 0⟩]⟩,  -- HB_STAT
  ⟨0x50, [], .cold, false, [⟨0, 11, .rw, 0⟩]⟩,  -- NOHOLD_VEC
  ⟨0x60, [], .cold, false, [⟨0, 1, .w1s, 0⟩]⟩,  -- MB_CTRL
  ⟨0x64, [], .cold, false, [⟨1, 1, .w1c, 0⟩, ⟨0, 1, .ro, 0⟩]⟩,  -- MB_STAT
  ⟨0x68, [], .cold, false, [⟨0, 1, .w1s, 0⟩]⟩,  -- MB_DONE
  ⟨0x70, [], .cold, true, [⟨0, 32, .ro, 0⟩]⟩,  -- LOG_NEXT
  ⟨0x78, [], .cold, false, [⟨0, 32, .rw, 0⟩]⟩,  -- LOG_DROP_CNT
  ⟨0x7C, [], .cold, false, [⟨0, 32, .rw, 0⟩]⟩,  -- LOG_WRAP_CNT
  ⟨0x80, [], .cold, false, [⟨0, 32, .rw, 0⟩]⟩,  -- LOG_TORN_CNT
  ⟨0x90, [], .cold, false, [⟨24, 8, .ro, 0⟩, ⟨16, 8, .ro, 0⟩, ⟨8, 3, .ro, 0⟩, ⟨4, 2, .ro, 0⟩, ⟨3, 1, .ro, 0⟩, ⟨2, 1, .ro, 0⟩, ⟨1, 1, .ro, 0⟩, ⟨0, 1, .ro, 0⟩]⟩,  -- FW_STAT
  ⟨0x94, [], .cold, false, [⟨0, 32, .ro, 0⟩]⟩,  -- BOOT_CNT
  ⟨0x400, [(0x4, 64)], .cold, false, [⟨0, 32, .rw, 0⟩]⟩,  -- MB_REQ
  ⟨0x500, [(0x4, 64)], .cold, false, [⟨0, 32, .rw, 0⟩]⟩,  -- MB_RSP
  ⟨0x800, [(0x4, 84)], .cold, false, [⟨31, 1, .roc, 0⟩, ⟨26, 2, .roc, 0⟩, ⟨0, 16, .roc, 0⟩]⟩,  -- SENS_VAL
  ⟨0xC00, [(0x8, 84)], .cold, false, [⟨16, 16, .rw, 0⟩, ⟨0, 16, .rw, 0⟩]⟩,  -- SENS_THR_HI
  ⟨0xC04, [(0x8, 84)], .cold, false, [⟨16, 16, .rw, 0⟩, ⟨0, 16, .rw, 0⟩]⟩ ]  -- SENS_THR_LO

/-- Registers of the SECURITY page. -/
def rowsSecurity : List RegRow := [
  ⟨0x40, [], .cold, false, [⟨0, 8, .rwt, 0⟩]⟩,  -- LOCK
  ⟨0x44, [], .cold, false, [⟨0, 8, .ro, 0⟩]⟩,  -- PERM_LOCK
  ⟨0x48, [], .cold, false, [⟨31, 1, .ro, 1⟩, ⟨8, 2, .ro, 0⟩, ⟨0, 8, .ro, 0⟩]⟩,  -- OTP_STAT
  ⟨0x50, [(0x4, 4)], .cold, false, [⟨0, 32, .ro, 0⟩]⟩,  -- DEV_ID
  ⟨0x60, [], .cold, false, [⟨0, 21, .ro, 0⟩]⟩,  -- SIG_LEFT
  ⟨0x64, [], .cold, false, [⟨0, 21, .ro, 0⟩]⟩,  -- SIG_NEXT
  ⟨0x100, [(0x20, 4), (0x4, 8)], .cold, false, [⟨0, 32, .ro, 0⟩]⟩ ]  -- MEAS

/-- Registers of the CLOCK page. -/
def rowsClock : List RegRow := [
  ⟨0x40, [], .cold, false, [⟨0, 8, .rwt, 100⟩]⟩,  -- RCLK_CFG
  ⟨0x44, [], .cold, false, [⟨2, 2, .rwt, 0⟩, ⟨0, 2, .rwt, 0⟩]⟩,  -- HALF_CFG
  ⟨0x48, [], .cold, false, [⟨6, 2, .roc, 2⟩, ⟨4, 2, .roc, 2⟩, ⟨2, 1, .roc, 0⟩, ⟨1, 1, .roc, 1⟩, ⟨0, 1, .roc, 0⟩]⟩,  -- CLK_STAT
  ⟨0x4C, [], .cold, false, [⟨0, 32, .rw, 0⟩]⟩,  -- LOCK_LOST_CNT
  ⟨0x50, [], .cold, false, [⟨0, 32, .rw, 0⟩]⟩ ]  -- HALF_CHG_CNT

/-- Registers of the POWER page. -/
def rowsPower : List RegRow := [
  ⟨0x40, [(0x4, 11)], .cold, false, [⟨0, 32, .rwt, 0xFFFFFFFF⟩]⟩,  -- DOM_EN
  ⟨0x80, [(0x4, 11)], .cold, false, [⟨0, 32, .rw, 0xFFFFFFFF⟩]⟩,  -- LOW
  ⟨0xC0, [], .cold, false, [⟨0, 8, .rw, 0⟩]⟩,  -- VOTE_FAB_W
  ⟨0xC4, [], .cold, false, [⟨0, 8, .rw, 0⟩]⟩,  -- VOTE_FAB_E
  ⟨0xC8, [], .cold, false, [⟨0, 8, .rw, 0⟩]⟩,  -- VOTE_MEM
  ⟨0xCC, [], .cold, false, [⟨0, 8, .rw, 0x10⟩]⟩,  -- VOTE_CROWN
  ⟨0x100, [], .cold, false, [⟨0, 9, .rw, 0⟩]⟩,  -- DOM_SEL
  ⟨0x104, [], .cold, false, [⟨24, 8, .roc, 0⟩, ⟨16, 1, .roc, 0⟩, ⟨15, 1, .roc, 0⟩, ⟨0, 3, .roc, 0⟩]⟩,  -- DOM_STAT
  ⟨0x108, [], .cold, true, [⟨0, 64, .rws, 0⟩]⟩,  -- RES_ON
  ⟨0x110, [], .cold, true, [⟨0, 64, .rws, 0⟩]⟩,  -- RES_RET
  ⟨0x118, [], .cold, true, [⟨0, 64, .rws, 0⟩]⟩,  -- RES_OFF
  ⟨0x120, [], .cold, true, [⟨0, 64, .rws, 0⟩]⟩,  -- RES_WATCH
  ⟨0x140, [], .cold, false, [⟨31, 1, .rw, 0⟩, ⟨0, 16, .rw, 0x3E8⟩]⟩,  -- WATCH_CFG
  ⟨0x144, [], .cold, false, [⟨0, 16, .rw, 0x500⟩]⟩,  -- WATCH_THR
  ⟨0x148, [], .cold, false, [⟨31, 1, .roc, 0⟩, ⟨0, 3, .roc, 0⟩]⟩,  -- WATCH_STAT
  ⟨0x14C, [], .cold, false, [⟨0, 32, .rw, 0⟩]⟩,  -- WATCH_WAKES
  ⟨0x198, [], .cold, false, [⟨0, 32, .rw, 0⟩]⟩,  -- CAP_TRIP_CNT
  ⟨0x180, [], .cold, false, [⟨31, 1, .rw, 1⟩, ⟨24, 4, .rw, 8⟩, ⟨16, 8, .rw, 0x14⟩, ⟨0, 10, .rw, 600⟩]⟩,  -- CAP_CFG
  ⟨0x184, [], .cold, false, [⟨0, 4, .rw, 0⟩]⟩,  -- CAP_LEVEL
  ⟨0x188, [], .cold, false, [⟨16, 16, .roc, 0⟩, ⟨6, 1, .roc, 0⟩, ⟨5, 1, .roc, 0⟩, ⟨0, 4, .roc, 0⟩]⟩,  -- CAP_STAT
  ⟨0x190, [], .cold, true, [⟨0, 64, .rws, 0⟩]⟩ ]  -- THROT_PER

/-- Registers of the RESET page. -/
def rowsReset : List RegRow := [
  ⟨0x40, [], .cold, false, [⟨16, 16, .wo, 0⟩, ⟨1, 1, .w1s, 0⟩, ⟨0, 1, .w1s, 0⟩]⟩,  -- RST_CTRL
  ⟨0x44, [], .cold, false, [⟨8, 1, .roc, 0⟩, ⟨0, 2, .roc, 0⟩]⟩,  -- RST_STAT
  ⟨0x48, [], .cold, false, [⟨0, 32, .rw, 0⟩]⟩,  -- COMP_CNT
  ⟨0x4C, [], .cold, false, [⟨0, 32, .rw, 0⟩]⟩,  -- RST_EVT_DROP_CNT
  ⟨0x50, [], .cold, false, [⟨0, 32, .rw, 0⟩]⟩,  -- RST_REQ_CNT
  ⟨0x54, [], .cold, false, [⟨0, 32, .rw, 0⟩]⟩,  -- RST_OTHER_DROP_CNT
  ⟨0x60, [(0x4, 9)], .cold, false, [⟨0, 32, .ro, 0⟩]⟩,  -- FUSE_BAD
  ⟨0xC0, [], .compute, true, [⟨0, 48, .rws, 0⟩]⟩,  -- TFW_ADDR
  ⟨0xC8, [], .compute, false, [⟨0, 32, .rw, 0⟩]⟩,  -- TFW_LEN
  ⟨0xCC, [], .compute, false, [⟨0, 32, .rw, 0⟩]⟩,  -- TFW_CRC
  ⟨0xD0, [], .compute, false, [⟨0, 1, .w1s, 0⟩]⟩,  -- TFW_CTRL
  ⟨0xD4, [], .compute, false, [⟨1, 1, .w1c, 0⟩, ⟨0, 1, .w1c, 0⟩]⟩,  -- TFW_STAT
  ⟨0xE0, [(0x4, 8)], .compute, false, [⟨0, 32, .rw, 0⟩]⟩,  -- TFW_MASK
  ⟨0x100, [(0x4, 8)], .compute, false, [⟨0, 32, .ro, 0⟩]⟩,  -- TFW_OK
  ⟨0x400, [(0x4, 256)], .cold, false, [⟨0, 9, .rwt, 0⟩]⟩,  -- TILE_MAP
  ⟨0x800, [], .cold, false, [⟨31, 1, .w1s, 0⟩, ⟨10, 8, .rw, 0⟩, ⟨6, 4, .rw, 0⟩, ⟨0, 6, .rw, 0⟩]⟩,  -- ROWFIX_SOFT
  ⟨0x900, [(0x4, 64)], .cold, false, [⟨0, 7, .ro, 0⟩]⟩ ]  -- ROWFIX_CNT

/-- Registers of the BIST page. -/
def rowsBist : List RegRow := [
  ⟨0x40, [], .compute, false, [⟨8, 1, .rw, 0⟩, ⟨0, 5, .rw, 0x10⟩]⟩,  -- BIST_CFG
  ⟨0x48, [], .compute, true, [⟨0, 48, .rws, 0⟩]⟩,  -- SAVE_BASE
  ⟨0x54, [], .compute, false, [⟨9, 1, .w1s, 0⟩, ⟨8, 1, .w1s, 0⟩, ⟨4, 2, .rw, 0⟩, ⟨1, 1, .w1s, 0⟩, ⟨0, 1, .w1s, 0⟩]⟩,  -- BIST_CTRL
  ⟨0x58, [], .compute, false, [⟨24, 1, .ro, 0⟩, ⟨16, 5, .ro, 0⟩, ⟨2, 1, .w1c, 0⟩, ⟨1, 1, .ro, 0⟩, ⟨0, 1, .ro, 0⟩]⟩,  -- BIST_STAT
  ⟨0x60, [(0x4, 8)], .compute, false, [⟨0, 32, .rw, 0⟩]⟩,  -- TMASK
  ⟨0x80, [(0x4, 2)], .compute, false, [⟨0, 32, .rw, 0⟩]⟩,  -- SMASK
  ⟨0x88, [], .compute, false, [⟨0, 32, .rw, 0⟩]⟩,  -- MVMASK
  ⟨0x8C, [], .compute, false, [⟨9, 1, .rw, 0⟩, ⟨8, 1, .rw, 0⟩, ⟨0, 8, .rw, 0⟩]⟩,  -- XMASK
  ⟨0xA0, [], .compute, false, [⟨16, 3, .rw, 0⟩, ⟨0, 9, .rw, 0⟩]⟩,  -- RES_SEL
  ⟨0xA8, [], .compute, true, [⟨0, 64, .ro, 0⟩]⟩,  -- RES_SIG
  ⟨0xB0, [], .compute, false, [⟨29, 3, .ro, 0⟩, ⟨20, 9, .ro, 0⟩, ⟨0, 20, .ro, 0⟩]⟩,  -- RES_INFO
  ⟨0xB4, [], .compute, false, [⟨16, 3, .ro, 0⟩, ⟨0, 9, .ro, 0⟩]⟩,  -- HOLD_ID
  ⟨0xB8, [], .compute, false, [⟨1, 1, .rw, 0⟩, ⟨0, 1, .rw, 0⟩]⟩,  -- FRESH
  ⟨0xC0, [], .compute, false, [⟨0, 32, .rw, 0⟩]⟩,  -- FAIL_CNT
  ⟨0xC4, [], .compute, false, [⟨0, 32, .rw, 0⟩]⟩,  -- SAVE_FAIL_CNT
  ⟨0x100, [(0x8, 6)], .compute, true, [⟨0, 64, .rws, 0⟩]⟩ ]  -- GOLD

/-- Registers of the TWIN page. -/
def rowsTwin : List RegRow := [
  ⟨0x40, [], .cold, false, [⟨0, 3, .rwt, 0⟩]⟩,  -- TWIN_ROLE
  ⟨0x44, [], .cold, false, [⟨31, 1, .rw, 0⟩, ⟨24, 3, .rw, 0⟩, ⟨0, 16, .rw, 0⟩]⟩,  -- TWIN_CFG
  ⟨0x48, [], .cold, false, [⟨2, 1, .w1s, 0⟩, ⟨1, 1, .w1s, 0⟩, ⟨0, 1, .rw, 0⟩]⟩,  -- TWIN_CTRL
  ⟨0x4C, [], .cold, false, [⟨20, 12, .roc, 0⟩, ⟨16, 3, .roc, 0⟩, ⟨15, 1, .roc, 0⟩, ⟨14, 1, .roc, 0⟩, ⟨13, 1, .roc, 0⟩, ⟨0, 4, .roc, 0⟩]⟩,  -- TWIN_STAT
  ⟨0x50, [], .cold, true, [⟨0, 64, .ro, 0⟩]⟩,  -- HANDOVER_STEP
  ⟨0x58, [], .cold, false, [⟨0, 32, .rw, 0⟩]⟩,  -- TAKEOVER_CNT
  ⟨0x5C, [], .cold, false, [⟨0, 32, .rw, 0⟩]⟩,  -- CONFLICT_CNT
  ⟨0x60, [], .cold, false, [⟨0, 32, .rw, 0⟩]⟩,  -- HB_BAD_CNT
  ⟨0x64, [], .cold, false, [⟨0, 32, .rw, 0⟩]⟩ ]  -- SUPPR_CNT

/-- Registers of the PANEL page. -/
def rowsPanel : List RegRow := [
  ⟨0x40, [], .cold, false, [⟨31, 1, .rw, 1⟩, ⟨0, 16, .rw, 0xBB8⟩]⟩,  -- PANEL_CFG
  ⟨0x44, [], .cold, false, [⟨16, 16, .rw, 0x7D0⟩, ⟨0, 16, .rw, 0x190⟩]⟩,  -- PANEL_CFG2
  ⟨0x48, [], .cold, false, [⟨2, 1, .w1s, 0⟩, ⟨1, 1, .rw, 0⟩, ⟨0, 1, .rw, 0⟩]⟩,  -- PANEL_CTRL
  ⟨0x4C, [], .cold, false, [⟨16, 16, .ro, 0⟩, ⟨2, 1, .ro, 0⟩, ⟨1, 1, .ro, 0⟩, ⟨0, 1, .ro, 0⟩]⟩,  -- PANEL_STAT
  ⟨0x50, [], .cold, false, [⟨0, 10, .ro, 0⟩]⟩,  -- CAGE_PRES
  ⟨0x54, [], .cold, false, [⟨12, 4, .rw, 0⟩, ⟨8, 4, .rw, 0⟩, ⟨4, 4, .rw, 0⟩, ⟨0, 4, .rw, 0⟩]⟩,  -- LED_OVR
  ⟨0x58, [], .cold, false, [⟨0, 32, .rw, 0⟩]⟩,  -- BOUNCE_CNT
  ⟨0x5C, [], .cold, false, [⟨0, 32, .rw, 0⟩]⟩,  -- DETACH_DUP_CNT
  ⟨0x60, [], .cold, false, [⟨0, 32, .rw, 0⟩]⟩,  -- PAD_FAULT_CNT
  ⟨0x80, [], .cold, false, [⟨0, 16, .rw, 0⟩]⟩,  -- GPIO_DIR
  ⟨0x84, [], .cold, false, [⟨0, 16, .rw, 0⟩]⟩,  -- GPIO_OUT
  ⟨0x88, [], .cold, false, [⟨0, 16, .ro, 0⟩]⟩,  -- GPIO_IN
  ⟨0x90, [(0x4, 4)], .cold, false, [⟨0, 32, .rw, 0⟩]⟩ ]  -- GPIO_SRC

/-- Registers of the TIMERS page. -/
def rowsTimers : List RegRow := [
  ⟨0x100, [(0x20, 16)], .cold, false, [⟨16, 16, .rw, 0⟩, ⟨8, 1, .rw, 0⟩, ⟨6, 2, .rw, 0⟩, ⟨4, 1, .rw, 0⟩, ⟨0, 1, .rw, 0⟩]⟩,  -- GT_CFG
  ⟨0x104, [(0x20, 16)], .cold, false, [⟨1, 1, .rw, 0⟩, ⟨0, 1, .rw, 0⟩]⟩,  -- GT_CTRL
  ⟨0x108, [(0x20, 16)], .cold, false, [⟨0, 32, .rw, 0⟩]⟩,  -- GT_CNT
  ⟨0x10C, [(0x20, 16)], .cold, false, [⟨0, 32, .rw, 0xFFFFFFFF⟩]⟩,  -- GT_TOP
  ⟨0x110, [(0x20, 16)], .cold, false, [⟨0, 32, .rw, 0⟩]⟩,  -- GT_CMP
  ⟨0x114, [(0x20, 16)], .cold, false, [⟨8, 8, .ro, 0⟩, ⟨4, 1, .w1c, 0⟩, ⟨3, 1, .w1c, 0⟩, ⟨2, 1, .ro, 0⟩, ⟨1, 1, .w1c, 0⟩, ⟨0, 1, .w1c, 0⟩]⟩,  -- GT_STAT
  ⟨0x400, [(0x10, 16)], .cold, false, [⟨8, 5, .rw, 0⟩, ⟨4, 1, .rw, 0⟩, ⟨0, 4, .rw, 0⟩]⟩,  -- CAP_CFG
  ⟨0x404, [(0x10, 16)], .cold, false, [⟨0, 32, .ro, 0⟩]⟩,  -- CAP_RISE
  ⟨0x408, [(0x10, 16)], .cold, false, [⟨0, 32, .ro, 0⟩]⟩,  -- CAP_FALL
  ⟨0x40C, [(0x10, 16)], .cold, false, [⟨5, 1, .w1c, 0⟩, ⟨4, 1, .w1c, 0⟩, ⟨3, 1, .w1c, 0⟩, ⟨2, 1, .w1c, 0⟩, ⟨1, 1, .ro, 0⟩, ⟨0, 1, .ro, 0⟩]⟩,  -- CAP_STAT
  ⟨0x40, [], .cold, false, [⟨0, 16, .rw, 0⟩]⟩ ]  -- TIRQ_EN

end Sys2Proof.Machine
end

