-- ==== Sys2Proof/Machine/PageMap.lean ====
section
/-! DEFINITION. Where the pages sit (R49), what each page is (its block type, instance, capabilities, power domain and half), and which
register and fields stand at an offset. -/
namespace Sys2Proof.Machine

/-- The kinds of register page (R49, R53). -/
inductive PageKind where
  | unused | global | crown | clock | power | reset | bist | issue | step | timers | panel | twin | security | scale
  | check | mover | mem | fl | flr | flc | sp | sctx | fabric | tile (i : Nat) | slice
deriving DecidableEq, Repr

/-- A page: its kind, its first offset, its instance number (R53). -/
structure Page where
  kind : PageKind
  base : Nat
  inst : Nat
deriving DecidableEq, Repr

/-- The page that an offset lies in (R49); a mover has half a page. -/
def pageAt (off : Nat) : Page :=
  let b := off / 0x1000 * 0x1000
  if off < 0xD000 then
    ⟨[.global, .crown, .clock, .power, .reset, .bist, .issue, .step, .timers, .panel, .twin, .security, .scale].getD (off / 0x1000) .unused, b, 0⟩
  else if off < 0x10000 then ⟨.unused, b, 0⟩
  else if off < 0x18000 then ⟨.check, b, (off - 0x10000) / 0x1000⟩
  else if off < 0x20000 then ⟨.unused, b, 0⟩
  else if off < 0x30000 then ⟨.mover, off / 0x800 * 0x800, (off - 0x20000) / 0x800⟩
  else if off < 0x40000 then ⟨.unused, b, 0⟩
  else if off < 0x60000 then ⟨.mem, b, (off - 0x40000) / 0x1000⟩
  else if off < 0x80000 then
    let p := (off - 0x60000) / 0x4000
    match (off / 0x1000) % 4 with
    | 0 => ⟨.fl, b, p⟩
    | 1 => ⟨.flr, b, p⟩
    | 2 => ⟨.flr, b, 0x100 + p⟩
    | _ => ⟨.flc, b, p⟩
  else if off < 0x82000 then ⟨.sp, b, (off - 0x80000) / 0x1000⟩
  else if off < 0x86000 then ⟨.sctx, b, (off - 0x82000) / 0x1000⟩
  else if off < 0x90000 then ⟨.unused, b, 0⟩
  else if off < 0xA0000 then ⟨.fabric, b, (off - 0x90000) / 0x1000⟩
  else if off < 0x1000000 then ⟨.unused, b, 0⟩
  else if off < 0x2000000 then
    let n := (off - 0x1000000) / 0x10000
    let i := (off / 0x1000) % 16
    if i = 15 then ⟨.unused, b, 0⟩ else ⟨.tile i, b, if i = 13 then 0x100 + n else n⟩
  else if off < 0x2040000 then ⟨.slice, b, (off - 0x2000000) / 0x1000⟩
  else ⟨.unused, b, 0⟩

/-- Block-type codes (R53). -/
def Page.typeCode (p : Page) : Nat :=
  match p.kind with
  | .unused => 0 | .global => 1 | .crown => 2 | .clock => 3 | .power => 4 | .reset => 5 | .bist => 6 | .issue => 7
  | .step => 8 | .timers => 9 | .panel => 0xA | .twin => 0xB | .security => 0xC | .scale => 0xD | .check => 0x10
  | .mover => 0x11 | .mem => 0x12 | .fl => 0x13 | .flr => 0x14 | .flc => 0x15 | .sp => 0x16 | .sctx => 0x17
  | .fabric => 0x18 | .tile i => 0x20 + (if i = 13 then 12 else if i = 14 then 13 else i) | .slice => 0x30

/-- Pages that implement BLK_CTRL.EN (R59; the owning chapters; log entry 10). -/
def Page.hasEnable (p : Page) : Bool :=
  match p.kind with
  | .issue | .step | .scale | .check | .mover | .mem | .fl | .sp | .sctx | .slice | .panel => true
  | .flr => p.inst % 0x100 == 0
  | .tile i => i == 1 || i == 5 || i == 6 || i == 7 || i == 8 || i == 9 || i == 10 || i == 11 || i == 12
  | .fabric => p.inst == 4
  | _ => false

/-- Pages with host-assisted mode (R69). -/
def Page.hasHostMode (p : Page) : Bool :=
  match p.kind with
  | .scale | .mover | .fl | .bist | .step | .twin | .panel => true
  | .tile i => i == 6 || i == 10 || i == 11 || i == 12
  | _ => false

/-- Pages with BLK_VOTE (R447). -/
def Page.hasVote (p : Page) : Bool := p.kind == .tile 0 || p.kind == .slice

/-- Pages that hold RWT fields (R62). -/
def Page.hasTmr (p : Page) : Bool :=
  match p.kind with
  | .clock | .power | .reset | .crown | .security | .twin => true
  | .fl => p.inst == 0
  | _ => false

/-- Pages with no block at all behind them: FABRIC pages 5 to 15 hold only the header with BLK_CAP = 0 (file 08). -/
def Page.headerOnly (p : Page) : Bool := p.kind == .fabric && p.inst > 4

/-- BLK_CAP (R53); its block-specific bits read 0, since no chapter defines one (log entry 10). -/
def Page.cap (p : Page) : Nat :=
  if p.headerOnly then 0 else
    (if p.hasEnable then 1 else 0) + (if p.hasHostMode then 2 else 0) + 4 + (if p.hasVote then 8 else 0)
      + (if p.hasTmr then 16 else 0)

/-- The power domain of a page (R445, R26). No table places SCALE, FABRIC and SECURITY: SCALE stands with its endpoint in East (R237), FABRIC in West, SECURITY in the always-on domain (DESIGN CHOICE, log entry 10). -/
def Page.domain (p : Page) : Nat :=
  match p.kind with
  | .tile _ => p.inst % 256
  | .slice => 256 + p.inst
  | .issue | .step | .bist | .fabric => 320
  | .scale => 321
  | .mover => 320 + p.inst / 16
  | .check => 320 + p.inst / 4
  | .mem => 322
  | .crown | .panel | .timers => 323
  | _ => 324

/-- The die half whose clocks a page runs on (R26, R440). -/
def Page.half (p : Page) : Option Nat :=
  match p.kind with
  | .tile _ => some (p.inst % 256 / 128)
  | .slice => some (p.inst / 32)
  | .issue | .step | .bist | .fabric => some 0
  | .scale => some 1
  | .mover => some (p.inst / 16)
  | .check => some (p.inst / 4)
  | .mem => some (p.inst / 16)
  | _ => none

/-- Pages that a compute reset clears: outside the always-on domain, the brim and the crown (R463, R526). The stream contexts
are cleared though their page stays reachable. -/
def Page.computeCleared (p : Page) : Bool :=
  match p.kind with
  | .fl | .flr | .flc | .sp => false
  | _ => true

/-- Pages in reset while COMP_ACTIVE = 1 (R463, R465). -/
def Page.inCompute (p : Page) : Bool := p.half.isSome

/-- Registers of a page beyond the header. -/
def Page.rows (p : Page) : List RegRow :=
  match p.kind with
  | .unused => []
  | .global => rowsGlobal | .crown => rowsCrown | .clock => rowsClock | .power => rowsPower | .reset => rowsReset
  | .bist => rowsBist | .issue => rowsIssue | .step => rowsStep | .timers => rowsTimers | .panel => rowsPanel
  | .twin => rowsTwin | .security => rowsSecurity | .scale => rowsScale | .check => rowsCheck | .mover => rowsMover
  | .mem => rowsMem | .fl => rowsFl | .flr => rowsFlr | .flc => rowsFlc | .sp => rowsSp | .sctx => rowsSctx
  | .fabric =>
    match p.inst with
    | 0 => rowsFab0 | 1 => rowsCuff | 2 => rowsSnet | 3 => rowsSnetm | 4 => rowsReduce | _ => []
  | .tile i =>
    match i with
    | 0 => rowsTile | 1 => rowsStore | 2 => rowsLane | 3 => rowsScalar | 4 => rowsVector | 5 => rowsArray | 6 => rowsQuant
    | 7 => rowsEvent | 8 => rowsNeuron | 9 => rowsSynapse | 10 => rowsLearn | 11 => rowsEgress | 12 => rowsQueue
    | 13 => rowsQueue2 | 14 => rowsStats | _ => []
  | .slice => rowsSlice

/-- A page offset d past a row's first register is one of its repetitions: strides from the widest. -/
def inDims (d : Nat) : List (Nat × Nat) → Bool
  | [] => d == 0
  | (st, n) :: t => decide (d / st < n) && inDims (d % st) t

/-- The row that names the register at a page offset, and whether the offset is a 64-bit value's high word. -/
def rowAt (rows : List RegRow) (ofs : Nat) : Option (RegRow × Bool) :=
  rows.findSome? fun r =>
    if r.ofs ≤ ofs && inDims (ofs - r.ofs) r.dims then some (r, false)
    else if r.wide && r.ofs + 4 ≤ ofs && inDims (ofs - 4 - r.ofs) r.dims then some (r, true) else none

/-- FL0 alone holds the module's own registers: those of the port page at and above offset 0x200, and those of the counters page at and above 0x80 (R338). -/
def Page.allRows (p : Page) : List RegRow :=
  rowsHdr ++ (if p.kind == .fl && p.inst != 0 then p.rows.filter (fun r => r.ofs < 0x200)
    else if p.kind == .flc && p.inst != 0 then p.rows.filter (fun r => r.ofs < 0x80) else p.rows)

/-- The reset value of the field at an absolute register offset, where instances differ (the same values as the field constants). -/
def resetAt (off lo dflt : Nat) : Nat :=
  if off = 0x3068 then 0x7
  else if off = 0x30A8 then 0xF
  else if 0x4400 ≤ off && off < 0x4800 then (off - 0x4400) / 4
  else if 0x1C00 ≤ off && off < 0x1EA0 then
    let i := (off - 0x1C00) / 8
    if off % 8 = 0 then (if lo = 0 then Reg.thrDefault 0 i else Reg.thrDefault 1 i)
    else (if lo = 0 then Reg.thrDefault 2 i else Reg.thrDefault 3 i)
  else dflt

/-- The field of a row at the absolute offset of its register's low word. -/
def FieldRow.at' (f : FieldRow) (off : Nat) : Field := fld off f.lo f.width (resetAt off f.lo f.reset)

/-- Every byte offset's register: its page, row, and the offset of its low word. -/
structure RegRef where
  page : Page
  row : RegRow
  low : Nat
  high : Bool
deriving DecidableEq, Repr

/-- The register at an offset, if one is named there. -/
def regAt (off : Nat) : Option RegRef :=
  let p := pageAt off
  if p.kind == .unused then none else
    match rowAt (p.allRows) (off - p.base) with
    | some (r, h) => some ⟨p, r, if h then off - 4 else off, h⟩
    | none => none

namespace State

/-- A page answers for itself: its domain is ON, its half is not GATED, and it is not in compute reset (R52, R440, R465). -/
def pageUp (s : State) (p : Page) : Bool :=
  s.domOn p.domain
    && (match p.half with | some h => s.effective h != 2 | none => true)
    && !(s.flag Reg.RESET.RST_STAT.COMP_ACTIVE && p.inCompute)

/-- The registers of the CROWN page that stand in the always-on domain: TOKEN, HB, HB_CFG, HB_STAT, NOHOLD_VEC (R52; chapter 13, Register pages). -/
def aonReg (p : Page) (o : Nat) : Bool := p.kind == .crown && (o == 0x40 || o == 0x44 || o == 0x48 || o == 0x4C || o == 0x50)

/-- The register at an offset answers for itself (R52): its page is up, or it is one of CROWN's always-on registers. -/
def offUp (s : State) (off : Nat) : Bool := s.pageUp (pageAt off) || (aonReg (pageAt off) (off - (pageAt off).base) && s.domOn 324)

/-- Clear the registers whose absolute offset satisfies a condition. -/
def clearRegs (s : State) (p : Nat → Bool) : State := { s with regs := s.regs.filter (fun c => !p (c.1 / 64)) }

/-- The reset level of the register at an offset (R22). -/
def levelOf (off : Nat) : Option Level := (regAt off).map (fun r => r.row.level)

/-- Clear every register of a page that a block reset clears (R54). -/
def clearBlock (s : State) (p : Page) : State :=
  s.clearRegs fun off => decide ((pageAt off).base = p.base) && (levelOf off == some .block)

/-- A page's offset range: pages of a mover are half pages. -/
def clearPage (s : State) (p : Page) : State := s.clearRegs fun off => decide ((pageAt off).base = p.base)

end State
end Sys2Proof.Machine
end

