-- ==== Sys2Proof/Machine/Crc.lean ====
section
/-! DEFINITION. The CRCs of R361, register words assembled from fields, and where memory is populated (R42). -/
namespace Sys2Proof.Machine

/-- One step of a reflected CRC over a byte: the register shifts right eight times. -/
def crcByteRefl (poly : Nat) (r : Nat) (b : Byte) : Nat :=
  (List.range 8).foldl (fun r _ => if r % 2 = 1 then (r / 2) ^^^ poly else r / 2) (r ^^^ b.toNat)

/-- One step of an unreflected CRC of width w over a byte. -/
def crcByte (w poly : Nat) (r : Nat) (b : Byte) : Nat :=
  (List.range 8).foldl (fun r _ => if r.testBit (w - 1) then (low w (2 * r)) ^^^ poly else low w (2 * r)) (r ^^^ (b.toNat * 2 ^ (w - 8)))

/-- The start value, the step and the end of each CRC (R361): 0 CRC-32C, 1 CRC-64, 2 CRC-16. -/
def crcInit (p : Nat) : Nat := if p = 0 then 0xFFFFFFFF else if p = 1 then 0 else 0xFFFF
def crcStep (p : Nat) (r : Nat) (b : Byte) : Nat :=
  if p = 0 then crcByteRefl 0x82F63B78 r b else if p = 1 then crcByte 64 0x42F0E1EBA9EA3693 r b else crcByte 16 0x1021 r b
def crcFinal (p : Nat) (r : Nat) : Nat := if p = 0 then r ^^^ 0xFFFFFFFF else r
def crcFeed (p : Nat) (r : Nat) (bs : List Byte) : Nat := bs.foldl (crcStep p) r
def crc (p : Nat) (bs : List Byte) : Nat := crcFinal p (crcFeed p (crcInit p) bs)

/-- CRC-32C of a byte list. -/
def crc32c (bs : List Byte) : Nat := crc 0 bs

/-- What a module address names (R42). -/
inductive Region where
  /-- Offset in the store of tile n. -/
  | tile (n ofs : Nat)
  /-- The hole of a tile-store stride. -/
  | hole (n : Nat)
  | slice (s ofs : Nat)
  | regs (ofs : Nat)
  | lpddr (ofs : Nat)
  | unmapped
deriving DecidableEq, Repr

/-- The module address map (R42). -/
def region (a : Nat) : Region :=
  if a < 0x40000000 then
    let n := a / 0x400000
    let o := a % 0x400000
    if o < 0x300000 then .tile n o else .hole n
  else if a < 0x50000000 then .slice ((a - 0x40000000) / 0x400000) ((a - 0x40000000) % 0x400000)
  else if 0x60000000 ≤ a ∧ a < 0x64000000 then .regs (a - 0x60000000)
  else if 0x1000000000 ≤ a ∧ a < 0x3000000000 then .lpddr (a - 0x1000000000)
  else .unmapped

/-- The channel and channel address of an LPDDR6 offset (R342). -/
def lpddrChan (o : Nat) : Nat :=
  let g := o / 4096
  bits g 4 0 ^^^ bits g 9 5 ^^^ bits g 14 10 ^^^ bits g 19 15 ^^^ bits g 24 20
def lpddrAddr (o : Nat) : Nat := o / 4096 / 32 * 4096 + o % 4096

/-- A range lies inside one populated range of R42. -/
def populated (a len : Nat) : Bool :=
  match region a with
  | .tile _ o => decide (o + len ≤ 0x300000)
  | .slice _ o => decide (o + len ≤ 0x400000)
  | .lpddr o => decide (o + len ≤ 0x2000000000)
  | .regs o => decide (o + len ≤ 0x4000000)
  | _ => false

namespace State

/-- The word of the register at an offset as its fields hold it (low or high half of a 64-bit value). -/
def word (s : State) (off : Nat) : Nat :=
  match regAt off with
  | none => 0
  | some r =>
    let v := r.row.fields.foldl (fun n f =>
      match f.acc with
      | .wo => n
      | _ => n + s.get (f.at' r.low) * 2 ^ f.lo) 0
    if r.high then v / 2 ^ 32 else v % 2 ^ 32

/-- The offsets of a page's block-specific _LAST and FAULT registers, in ascending order, by its block type and instance (R520). -/
def lastOffsets (type inst : Nat) : List Nat :=
  if type = 0x0001 then [0x120, 0x124] else if type = 0x0018 ∧ inst = 0 then [0x70, 0x78, 0x7C, 0x80, 0x84] else if type = 0x0015 ∧ inst = 0 then [0x98]
  else if type = 0x0022 then [0x50] else if type = 0x0025 then [0x44] else if type = 0x0029 then [0x64] else if type = 0x002B then [0x6C] else []

/-- DATA of a log record that reports a cause of a page: BLK_IRQ_STAT, BLK_STAT, BLK_REASON, the number of occurrences, and the page's _LAST and FAULT registers (R520). -/
def causeData (s : State) (pg n : Nat) : List Byte :=
  toBytes 4 (s.irqStat pg) ++ toBytes 4 (s.word (pg + 0x10)) ++ toBytes 4 (s.word (pg + 0x14)) ++ toBytes 4 n
    ++ (lastOffsets (pageAt pg).typeCode (pageAt pg).inst).flatMap fun o => toBytes 4 (s.word (pg + o))

/-- CODE of a log record that reports cause bit b of a page (R520). -/
def causeCode (pg b : Nat) : Nat := (pageAt pg).typeCode % 256 * 256 + b

/-- The block-specific causes that set BLK_STAT.ERR, by block type and instance: R130, R167, R206, R209, R234, R235, R276 to R278, R301, R302, R338, R366 to R368, R397, R432, R457, R458, R487, R488, R512 and R514. -/
def errCauses (type inst : Nat) : List Nat :=
  match type with
  | 0x0002 => [5, 8]
  | 0x0003 => [5]
  | 0x0004 => [5]
  | 0x0005 => [6]
  | 0x0006 => [6, 7]
  | 0x0008 => [9]
  | 0x0009 => [7]
  | 0x000B => [4, 9]
  | 0x0010 => [6]
  | 0x0011 => [5]
  | 0x0012 => [5, 6]
  | 0x0013 => [5, 7]
  | 0x0016 => [5]
  | 0x0018 => if inst = 0 then [4, 8, 9, 10, 11] else if inst = 1 then [5] else if inst = 2 then [4] else []
  | 0x0021 => [6, 7]
  | 0x0025 => [4]
  | 0x0027 => [4, 5]
  | 0x0029 => [4, 6]
  | 0x002A => [8, 9]
  | 0x002C => if inst < 256 then [4, 6] else [5]
  | 0x0030 => [6, 7]
  | _ => []

/-- The causes that report a correction: TMR_FIX and ECC_CE (R521). -/
def fixCauses (type inst : Nat) : List Nat :=
  if type = 0x0001 ∨ type = 0x0012 then [4] else if type = 0x0021 ∨ type = 0x0030 then [5] else if type = 0x002C ∧ 256 ≤ inst then [4] else []

/-- The causes that report the loss of an event, frame, message or packet and set no ERR (R521): FEC_UNC, CRC_DROP, XEVT_DROP and RT_DROP of a link, RX_DROP of a stream port, FIRE_OVF, DROP_RING, FIRE_DROP and DEAD of a tile. -/
def lossCauses (type inst : Nat) : List Nat :=
  if type = 0x0015 then [4, 5, 6, 7] else if type = 0x0016 then [6] else if type = 0x0028 then [4] else if type = 0x002B then [4, 6]
  else if type = 0x002C ∧ inst < 256 then [5] else []

/-- SEV of a record that reports cause bit b of a page (R521). -/
def causeSev (pg b : Nat) : Nat :=
  let t := (pageAt pg).typeCode
  let i := (pageAt pg).inst
  if b = 1 || (errCauses t i).contains b then 2 else if (fixCauses t i).contains b then 0 else if (lossCauses t i).contains b then 1
  else (Config.logSev (causeCode pg b)).val

/-- SOURCE of a log record: the page's BLK_ID (R520). -/
def pageSource (pg : Nat) : Nat := (pageAt pg).typeCode * 0x10000 + (pageAt pg).inst

end State
end Sys2Proof.Machine
end

