-- ==== Sys2Proof/Machine/Float.lean ====
section
/-! DEFINITION. IEEE 754 arithmetic on exact numbers with one rounding: FP32, BF16, FP64 and the narrow formats share one decoder and one rounding (R113, R127, R133). -/
namespace Sys2Proof.Machine

/-- An exact value of a binary format: NaN, an infinity, or ± m × 2^e (m = 0 is a signed zero). -/
inductive Num where
  | nan
  | inf (neg : Bool)
  | fin (neg : Bool) (m : Nat) (e : Int)
deriving DecidableEq, Repr

/-- A binary interchange format: exponent bits and fraction bits. -/
structure Fmt where
  eb : Nat
  mb : Nat
deriving DecidableEq, Repr

def f32 : Fmt := ⟨8, 23⟩
def bf16 : Fmt := ⟨8, 7⟩
def f64 : Fmt := ⟨11, 52⟩

def Fmt.bias (f : Fmt) : Nat := 2 ^ (f.eb - 1) - 1
def Fmt.width (f : Fmt) : Nat := 1 + f.eb + f.mb
def Fmt.maxExp (f : Fmt) : Nat := 2 ^ f.eb - 1

/-- The canonical NaN: positive, quiet, no payload (R113). -/
def Fmt.nan (f : Fmt) : Nat := f.maxExp * 2 ^ f.mb + 2 ^ (f.mb - 1)
def Fmt.inf (f : Fmt) (neg : Bool) : Nat := (if neg then 2 ^ (f.eb + f.mb) else 0) + f.maxExp * 2 ^ f.mb

/-- The value that a pattern of the format stands for. -/
def Fmt.dec (f : Fmt) (x : Nat) : Num :=
  let frac := x % 2 ^ f.mb
  let ex := x / 2 ^ f.mb % 2 ^ f.eb
  let neg := x.testBit (f.eb + f.mb)
  if ex = f.maxExp then (if frac = 0 then .inf neg else .nan)
  else if ex = 0 then .fin neg frac (1 - f.bias - f.mb : Int)
  else .fin neg (2 ^ f.mb + frac) ((ex : Int) - f.bias - f.mb)

/-- Bit length. -/
def bitLen (n : Nat) : Nat := if n = 0 then 0 else n.log2 + 1

/-- m / 2^d rounded to nearest, ties to even. -/
def rne (m d : Nat) : Nat :=
  let q := m >>> d
  let r := m % 2 ^ d
  let h := 2 ^ d
  if 2 * r > h then q + 1 else if 2 * r = h then q + q % 2 else q

/-- Round ± m × 2^e to the format with a chosen rounding of m / 2^d; overflow gives an infinity. -/
def Fmt.packWith (f : Fmt) (rnd : Nat → Nat → Nat) (neg : Bool) (m : Nat) (e : Int) : Nat :=
  let sign := if neg then 2 ^ (f.eb + f.mb) else 0
  if m = 0 then sign
  else
    let emin : Int := 1 - f.bias - f.mb
    let q := max (e + bitLen m - (f.mb + 1)) emin
    let n := if q ≤ e then m * 2 ^ (e - q).toNat else rnd m (q - e).toNat
    let mag := if n < 2 ^ f.mb then n else (q - emin + 1).toNat * 2 ^ f.mb + (n - 2 ^ f.mb)
    sign + min mag (f.maxExp * 2 ^ f.mb)

/-- Round to nearest even into the format. -/
def Fmt.pack (f : Fmt) (neg : Bool) (m : Nat) (e : Int) : Nat := f.packWith rne neg m e

/-- A number as a pattern of the format, rounded to nearest even. -/
def Fmt.enc (f : Fmt) : Num → Nat
  | .nan => f.nan
  | .inf n => f.inf n
  | .fin n m e => f.pack n m e

namespace Num

def neg : Num → Num
  | .nan => .nan
  | .inf n => .inf (!n)
  | .fin n m e => .fin (!n) m e

def isNan : Num → Bool
  | .nan => true
  | _ => false

def isInf : Num → Bool
  | .inf _ => true
  | _ => false

def isZero : Num → Bool
  | .fin _ m _ => m == 0
  | _ => false

/-- The signed integer of a finite value scaled to 2^e. -/
def scaled (n : Bool) (m : Nat) (e e' : Int) : Int :=
  let v : Int := m * 2 ^ (e - e').toNat
  if n then -v else v

/-- Exact sum; a zero sum of opposite signs is +0 (round to nearest). -/
def add : Num → Num → Num
  | .nan, _ => .nan
  | _, .nan => .nan
  | .inf a, .inf b => if a = b then .inf a else .nan
  | .inf a, _ => .inf a
  | _, .inf b => .inf b
  | .fin a m e, .fin b m' e' =>
    let q := min e e'
    let s := scaled a m e q + scaled b m' e' q
    if s = 0 then .fin (a && b) 0 q else .fin (decide (s < 0)) s.natAbs q

/-- Exact product. -/
def mul : Num → Num → Num
  | .nan, _ => .nan
  | _, .nan => .nan
  | .inf a, .inf b => .inf (a != b)
  | .inf a, .fin b m _ => if m = 0 then .nan else .inf (a != b)
  | .fin a m _, .inf b => if m = 0 then .nan else .inf (a != b)
  | .fin a m e, .fin b m' e' => .fin (a != b) (m * m') (e + e')

/-- a < b on numbers that are not NaN. -/
def lt : Num → Num → Bool
  | .nan, _ => false
  | _, .nan => false
  | .inf a, .inf b => a && !b
  | .inf a, .fin _ _ _ => a
  | .fin _ _ _, .inf b => !b
  | .fin a m e, .fin b m' e' =>
    let q := min e e'
    decide (scaled a m e q < scaled b m' e' q)

/-- a = b on numbers (zeros of either sign are equal). -/
def eqv (a b : Num) : Bool := !a.isNan && !b.isNan && !lt a b && !lt b a

/-- The number of an integer. -/
def ofInt (i : Int) : Num := .fin (decide (i < 0)) i.natAbs 0

/-- The value as an integer, rounded to nearest even, saturated to w bits signed (R127). -/
def toInt (w : Nat) (rnd : Nat → Nat → Nat) : Num → Int
  | .nan => 0
  | .inf n => if n then -(2 ^ (w - 1)) else 2 ^ (w - 1) - 1
  | .fin n m e =>
    let v : Int := if 0 ≤ e then m * 2 ^ e.toNat else rnd m (-e).toNat
    let v := if n then -v else v
    max (-(2 ^ (w - 1))) (min (2 ^ (w - 1) - 1) v)

end Num

/-- FP32 sum, product, and fused multiply-add on bit patterns, one rounding (R113, R127). -/
def fadd (a b : Nat) : Nat := f32.enc ((f32.dec a).add (f32.dec b))
def fsub (a b : Nat) : Nat := f32.enc ((f32.dec a).add (f32.dec b).neg)
def fmul (a b : Nat) : Nat := f32.enc ((f32.dec a).mul (f32.dec b))
def ffma (a b c : Nat) : Nat := f32.enc (((f32.dec a).mul (f32.dec b)).add (f32.dec c))

/-- BF16 sum (R112). -/
def bfadd (a b : Nat) : Nat := bf16.enc ((bf16.dec a).add (bf16.dec b))

/-- BF16 widened to FP32, and FP32 rounded to BF16. -/
def bfToF (x : Nat) : Nat := if (bf16.dec x).isNan then f32.nan else x % 65536 * 65536
def fToBf (x : Nat) : Nat := bf16.enc (f32.dec x)

end Sys2Proof.Machine
end

