-- ==== Sys2Proof/Machine/StreamBase.lean ====
section
/-! DEFINITION. What every unit needs of the bundle stream: its state, the mask of the running image, the fault halt (R96), the end of a stream
(R94). -/
namespace Sys2Proof.Machine.State

/-- Stream states (RUN_STAT.STATE). -/
def stIdle : Nat := 0
def stLoading : Nat := 1
def stReady : Nat := 2
def stRunning : Nat := 3
def stWaiting : Nat := 4
def stHalted : Nat := 5
def stFaulted : Nat := 6

def stream (s : State) : Nat := s.get Reg.ISSUE.RUN_STAT.STATE
def setStream (s : State) (v : Nat) : State := s.put Reg.ISSUE.RUN_STAT.STATE v

/-- RUNNING, WAITING or HALTED. -/
def streamActive (s : State) : Bool := s.stream == 3 || s.stream == 4 || s.stream == 5

/-- The tile mask of the running stream, kept until it ends (R92). -/
def runMask (s : State) : Nat := if s.streamActive then (s.issue.run.map (·.mask)).getD 0 else 0

/-- Tile n is in the running image's mask. -/
def inRun (s : State) (n : Nat) : Bool := (s.runMask).testBit n

/-- Change the issue controller's hidden state. -/
def modIssue (s : State) (f : IssueS → IssueS) : State := { s with issue := f s.issue }

/-- HALT_CAUSE (R96). -/
def setHalt (s : State) (cause index : Nat) (tile : Option Nat) : State :=
  (((s.put Reg.ISSUE.HALT_CAUSE.CAUSE cause).put Reg.ISSUE.HALT_CAUSE.INDEX index).put Reg.ISSUE.HALT_CAUSE.TILE (tile.getD 0)).put
    Reg.ISSUE.HALT_CAUSE.TILE_VALID (if tile.isSome then 1 else 0)

/-- A fault halt: the first fault is recorded, launching stops, the state is FAULTED, the FAULT cause is set (R96, R101). Outside RUNNING,
WAITING and HALTED there is no stream to halt. -/
def faultHalt (s : State) (cause index : Nat) (tile : Option Nat) : State :=
  if s.streamActive then
    let s := (s.setHalt cause index tile).setStream stFaulted
    let s := (s.put Reg.ISSUE.RUN_STAT.WAITING 0).modIssue fun i =>
      { i with noGo := true, wait := none, ending := none, stopReq := false, haltReq := false, stepping := false }
    s.cause pgISSUE 6
  else s

/-- The index of the last bundle for which GO was sent. -/
def lastIndex (s : State) : Nat := s.get Reg.ISSUE.RUN_STAT.INDEX

/-- The stream's normal end or its halt for the debugger: the cause is recorded, and cause HALTED is set where HALTED or READY is entered from running (R94, R98, R101). -/
def endStream (s : State) (cause index st : Nat) : State :=
  let entered := (s.stream == stRunning || s.stream == stWaiting) && (st == stHalted || st == stReady)
  let s := ((s.setHalt cause index none).setStream st).put Reg.ISSUE.RUN_STAT.WAITING 0
  let s := s.modIssue fun i =>
    { i with ending := none, stopReq := false, haltReq := false, stepping := false,
             wait := if st = stHalted then i.wait else none }
  s.when entered fun s => s.cause pgISSUE 5

/-- READY when an image is loaded, IDLE otherwise (R92, R94), also while a load runs. -/
def restState (s : State) : Nat := if s.flag Reg.ISSUE.LOAD_STAT.LOADED then stReady else stIdle

/-- A tile of the running mask leaves READY: LANE_LOST (R97). -/
def laneLost (s : State) (n : Nat) : State :=
  if s.inRun n then s.faultHalt 0xD s.lastIndex (some n) else s

/-- A half's clock setting changes while the stream is RUNNING, WAITING or HALTED: CLOCK_CHANGE (R97). -/
def clockChange (s : State) : State := s.faultHalt 0xC s.lastIndex none

end Sys2Proof.Machine.State

namespace Sys2Proof.Machine.State

/-- A step is in progress. -/
def stepActive (s : State) : Bool := s.get Reg.STEP.STEP_STAT.PHASE != 0

/-- Tile n is in STEP.TILE_MASK. -/
def inStep (s : State) (n : Nat) : Bool := (s.get (Reg.STEP.TILE_MASK.TILES (n / 32))).testBit (n % 32)

/-- The step controller abandons the step: PHASE is IDLE, continuous running ends, ABORT is set with BLK_STAT.ERR (R199, R209). The routers' unsent work of the
step goes with it (log entry 21). -/
def stepAbandon (s : State) : State :=
  let s := (((s.put Reg.STEP.STEP_STAT.PHASE 0).put Reg.STEP.STEP_STAT.RUN 0).put Reg.STEP.STEP_STAT.HOLD 0).put Reg.STEP.STEP_STAT.STRETCH 0
  let s := { s with step := { s.step with wait := [], ended := false, tokenWait := false } }
  let s := (members s.step.mask 256).foldl (fun s n => s.modTile n fun t => { t with evt := { t.evt with phase := 0, sweep := none, work := [] } }) s
  s.causeErr pgSTEP 9

/-- A masked tile leaves READY during a step (R199). -/
def stepLost (s : State) (n : Nat) : State := if s.stepActive && s.step.mask.testBit n then s.stepAbandon else s

end Sys2Proof.Machine.State

namespace Sys2Proof.Machine.State

/-- A record handed to the always-on sequencer's buffer of 16 (R415, R522): source is the page's type code and instance. SEQ is given when the log engine writes it. -/
def aonLog (s : State) (code sev : Nat) (data : List Byte) : State :=
  if s.crown.aonQueue.length < 16 then
    let r : LogRec := { seq := 0, boot := s.get Reg.CROWN.BOOT_CNT.CNT, source := 0x00040000, code := code, sev := sev, core := 2,
                        data := data, good := true }
    { s with crown := { s.crown with aonQueue := s.crown.aonQueue ++ [r] } }
  else { s with crown := { s.crown with aonDropped := s.crown.aonDropped + 1 } }

/-- A record handed to the log engine by a core (R415): dropped and counted when 256 wait. -/
def coreLog (s : State) (core source code sev : Nat) (data : List Byte) : State :=
  if s.crown.logQueue.length < 256 then
    let r : LogRec := { seq := 0, boot := s.get Reg.CROWN.BOOT_CNT.CNT, source := source, code := code, sev := sev, core := core,
                        data := data, good := true }
    { s with crown := { s.crown with logQueue := s.crown.logQueue ++ [r] } }
  else (({ s with crown := { s.crown with logDropped := s.crown.logDropped + 1 } }).bump Reg.CROWN.LOG_DROP_CNT.CNT).cause pgCROWN 9

end Sys2Proof.Machine.State

namespace Sys2Proof.Machine.State

/-! The twin controller's state, as other units change it (chapter 16). -/

def modTwin (s : State) (f : TwinS → TwinS) : State := { s with twin := f s.twin }

/-- HEALTHY (R492). -/
def healthy (s : State) : Bool :=
  !s.flag Reg.RESET.RST_STAT.COMP_ACTIVE && s.domOn 320 && s.domOn 321 && !s.flag Reg.TWIN.TWIN_CTRL.SICK
    && !(s.get Reg.TWIN.TWIN_CFG.STEP_WD != 0 && s.twin.expired)

/-- The twin role: 0 SOLO, 1 SHARED, 2 MIRROR_ACTIVE, 3 MIRROR_STANDBY. -/
def role (s : State) : Nat := s.get Reg.TWIN.TWIN_ROLE.ROLE
def setRole (s : State) (r : Nat) : State := s.put Reg.TWIN.TWIN_ROLE.ROLE r

/-- A MIRROR_ACTIVE module whose HEALTHY is 0 becomes MIRROR_STANDBY, in both modes (R496). -/
def selfDemote (s : State) : State := if s.role = 2 ∧ !s.healthy then s.setRole 3 else s

end Sys2Proof.Machine.State
end

