-- ==== Sys2Proof/Machine/Store.lean ====
section
/-! DEFINITION. The memories behind their ports: SEC-DED detection, counting and correction, bank power states, line accesses, the bank atomics, scrubbing
(chapters 04, 08 and 11). -/
namespace Sys2Proof.Machine

/-- Units that access a bank, as ECC_ADDR.UNIT numbers them. -/
def uSCALAR : Nat := 0
def uVECTOR : Nat := 1
def uARRAY : Nat := 2
def uEVENT : Nat := 3
def uLEARN : Nat := 4
def uPORTB : Nat := 5
def uSCRUB : Nat := 6

/-- Completion statuses (R243). -/
def stOK : Nat := 0
def stBUSY : Nat := 1
def stUNMAPPED : Nat := 2
def stDOMAIN_OFF : Nat := 3
def stUNCORR : Nat := 4
def stTARGET_RESET : Nat := 5
def stREFUSED : Nat := 6
def stTIMEOUT : Nat := 7

/-- The words that a byte range touches, by word address / 8. -/
def wordsOf (a len : Nat) : List Nat := if len = 0 then [] else (List.range ((a + len - 1) / 8 - a / 8 + 1)).map (a / 8 + ·)

/-- The words of a byte range that it covers only in part. -/
def partWords (a len : Nat) : List Nat := (wordsOf a len).filter fun w => w * 8 < a || a + len < w * 8 + 8

/-- The parts of a byte range cut at multiples of g: (address, length), ascending. -/
def pieces (g a len : Nat) : List (Nat × Nat) :=
  if len = 0 then [] else
    (List.range ((a + len - 1) / g - a / g + 1)).map fun i =>
      let lo := max a ((a / g + i) * g)
      (lo, min (a + len) ((a / g + i + 1) * g) - lo)

/-- The unit and bank that hold a module address of a tile store or a slice: (unit, bank, offset). -/
def bankAt (a : Nat) : Option (Nat × Nat × Nat) :=
  match region a with
  | .tile n o => some (n, o / 0x30000, o)
  | .slice sl o => some (256 + sl, o / 0x40000, o)
  | _ => none

namespace State

/-- Errors of a stored word: 0 none, 1 a single bit, 2 uncorrectable (R31); a word whose contents were lost can read as uncorrectable (R120; log entry 8). -/
def wordErr (s : State) (w : Nat) : Nat :=
  match lookup w s.flips with
  | some l => if l.length ≥ 2 then 2 else l.length
  | none =>
    match s.undef.find? (fun r => decide (r.1 < w * 8 + 8) && decide (w * 8 < r.2.1)) with
    | some r => if Config.lostUncorr r.2.2 w then 2 else 0
    | none => 0

/-- Flip one bit of a stored word: a second upset of the same bit restores it. -/
def flipBit (s : State) (w b : Nat) : State :=
  let l := (lookup w s.flips).getD []
  let l' := if l.contains b then l.filter (· != b) else b :: l
  { s with flips := if l'.isEmpty then remove w s.flips else insert w l' s.flips }

/-- Words rewritten with valid check bits: no upset and no write-back is left (R105, R114). R114 drops a write-back at a write of the same port; a write of the other port drops it here as well, since it leaves the word whole (DESIGN CHOICE, log entry 39). -/
def cleanWords (s : State) (ws : List Nat) : State :=
  { s with flips := ws.foldl (fun l w => remove w l) s.flips, writebacks := s.writebacks.filter (fun w => !ws.contains w) }

/-- Write bytes whose words are rewritten with valid check bits. -/
def putMem (s : State) (a : Nat) (bs : List Byte) : State := (s.cleanWords (wordsOf a bs.length)).setBytes a bs

/-- A bank's state as BANK_PSTAT gives it: 0 ON, 1 RETENTION, 2 OFF, 3 CHANGING or initialising. -/
def bankStat (s : State) (u b : Nat) : Nat := bits (s.get (fld (bankPg u + 0x44) 0 32 0)) (2 * b + 1) (2 * b)
def setBankStat (s : State) (u b v : Nat) : State :=
  let f := fld (bankPg u + 0x44) 0 32 0
  let old := s.get f
  s.put f (old - bits old (2 * b + 1) (2 * b) * 4 ^ b + v * 4 ^ b)

/-- What a bank's BANK_PWR field names. -/
def bankPwr (s : State) (u b : Nat) : Nat := bits (s.get (fld (bankPg u + 0x40) 0 32 0)) (2 * b + 1) (2 * b)

/-- A bank is accessible: its unit's domain is ON, and it is ON and neither changing nor initialising (R117, R119, R120). -/
def bankOn (s : State) (u b : Nat) : Bool := s.domOn u && s.bankStat u b == 0

/-- A corrected word: ECC_CE_CNT, ECC_CE, and one pending write-back in a bank (R114); a memory controller writes it back at once (R345). -/
def noteCE (s : State) (w : Nat) : State :=
  match bankAt (w * 8) with
  | some (u, _, _) =>
    let s := (s.bump (fld (bankPg u + 0x54) 0 32 0)).cause (bankPg u) 5
    { s with writebacks := if s.writebacks.contains w then s.writebacks else s.writebacks ++ [w] }
  | none =>
    match region (w * 8) with
    | .lpddr o => (((s.bump (Reg.MEM.ECC_CE_CNT.CNT (lpddrChan o))).cause (memPg (lpddrChan o)) 4)).cleanWords [w]
    | _ => s

/-- An uncorrectable word: ECC_UE_CNT, ECC_ADDR, ERR and ECC_UE (R105, R115, R345). `unit` is the reader of a bank, `ep` the requester of an LPDDR6 word. -/
def noteUE (s : State) (w unit ep : Nat) : State :=
  match bankAt (w * 8) with
  | some (u, _, o) =>
    let pg := bankPg u
    ((((s.bump (fld (pg + 0x58) 0 32 0)).put (fld (pg + 0x5C) 28 4 0) unit).put (fld (pg + 0x5C) 0 22 0) o)).causeErr pg 6
  | none =>
    match region (w * 8) with
    | .lpddr o =>
      let c := lpddrChan o
      (((s.bump (Reg.MEM.ECC_UE_CNT.CNT c)).put (Reg.MEM.ECC_ADDR.ADDR c) (lpddrAddr o)).put (Reg.MEM.ECC_ADDR.EP c) ep).causeErr (memPg c) 5
    | _ => s

/-- Check the words of one line access: every single-bit error is counted; of the uncorrectable words the lowest is recorded, once for the access (R114, R115). -/
def checkWords (s : State) (ws : List Nat) (unit ep : Nat) : Bool × State :=
  let s1 := (ws.filter (fun w => s.wordErr w == 1)).foldl noteCE s
  match ws.find? (fun w => s.wordErr w == 2) with
  | some w => (false, s1.noteUE w unit ep)
  | none => (true, s1)

/-- The same at a memory controller, where each uncorrectable word is counted (R345). -/
def checkEach (s : State) (ws : List Nat) (ep : Nat) : Bool × State :=
  let s1 := (ws.filter (fun w => s.wordErr w == 1)).foldl noteCE s
  let bad := ws.filter (fun w => s.wordErr w == 2)
  (bad.isEmpty, bad.foldl (fun s w => s.noteUE w 0 ep) s1)

/-- A discard or skip at a bank that is not ON: BANK_OFF_CNT, ERR and BANK_OFF (R119, R130). -/
def bankSkip (s : State) (u : Nat) : State := (s.bump (fld (bankPg u + 0x64) 0 32 0)).causeErr (bankPg u) 7

/-! One line at one port of a bank. -/

/-- Read bytes of one line: status and data (none unless OK). -/
def lineRead (s : State) (unit a len : Nat) : Nat × List Byte × State :=
  match bankAt a with
  | none => (stUNMAPPED, [], s)
  | some (u, b, _) =>
    if !s.bankOn u b then (stDOMAIN_OFF, [], s)
    else
      let r := s.checkWords (wordsOf a len) unit 0
      if r.1 then (stOK, r.2.bytes a len, r.2) else (stUNCORR, [], r.2)

/-- Write bytes of one line: a part of a word merges with the stored word, and an uncorrectable one stops the whole line access (R105). -/
def lineWrite (s : State) (unit a : Nat) (bs : List Byte) : Nat × State :=
  match bankAt a with
  | none => (stUNMAPPED, s)
  | some (u, b, _) =>
    if !s.bankOn u b then (stDOMAIN_OFF, s)
    else
      match (partWords a bs.length).find? (fun w => s.wordErr w == 2) with
      | some w => (stUNCORR, s.noteUE w unit 0)
      | none => (stOK, s.putMem a bs)

end State

/-- Operand size of an atomic (R112). -/
def atomSize (op : Nat) : Nat := if op = 0 ∨ op = 2 ∨ op = 3 then 4 else 8

/-- DELAY_STEP (R112): bits [27:22] move by one step, saturating at 0 and 63. -/
def delayStep (w x : Nat) : Nat :=
  let d := bits w 27 22
  let d' := if x % 2 = 0 then min 63 (d + 1) else d - 1
  w - d * 2 ^ 22 + d' * 2 ^ 22

/-- The result of an atomic operation on a stored operand (R112, R113). -/
def atomResult (op w x : Nat) : Nat :=
  match op with
  | 0 => low 32 (w + x)
  | 1 => low 64 (w + x)
  | 2 => fadd (low 32 w) (low 32 x)
  | 3 => bfadd (low 16 w) (low 16 x) + bfadd (bits w 31 16) (bits x 31 16) * 65536
  | 4 => low 64 x
  | _ => delayStep w x

namespace State

/-- An atomic at a bank: status, previous value (R112, R113). -/
def lineAtomic (s : State) (unit op a x : Nat) : Nat × Nat × State :=
  match bankAt a with
  | none => (stUNMAPPED, 0, s)
  | some (u, b, _) =>
    if op > 5 ∨ a % atomSize op ≠ 0 then (stUNMAPPED, 0, s)
    else if !s.bankOn u b then (stDOMAIN_OFF, 0, s)
    else
      let r := s.checkWords (wordsOf a (atomSize op)) unit 0
      if !r.1 then (stUNCORR, 0, r.2)
      else
        let w := ofBytes (r.2.bytes a (atomSize op))
        (stOK, w, r.2.putMem a (toBytes (atomSize op) (atomResult op w x)))

/-! A memory controller (R342 to R345). -/

/-- The bursts that a range covers only in part. -/
def partBursts (a len : Nat) : List Nat :=
  (pieces 32 a len).filterMap fun p => if p.2 = 32 then none else some (p.1 / 32)

/-- Data bytes counted as read or written at a channel. -/
def countBytes (s : State) (f : Field) (n : Nat) : State := s.add f n

/-- Read at a controller. -/
def chanRead (s : State) (ep a len : Nat) : Nat × List Byte × State :=
  match region a with
  | .lpddr o =>
    let c := lpddrChan o
    if !s.domOn 322 || !s.isReady (memPg c) then (stDOMAIN_OFF, [], s.bump (Reg.MEM.NRDY_CNT.CNT c))
    else if o / 4096 ≠ (o + len - 1) / 4096 then (stUNMAPPED, [], s)
    else
      let r := s.checkEach (wordsOf a len) ep
      if r.1 then (stOK, r.2.bytes a len, r.2.add (Reg.MEM.RD_BYTES.CNT c) len) else (stUNCORR, [], r.2)
  | _ => (stUNMAPPED, [], s)

/-- Write at a controller: partly written bursts are read first; an uncorrectable word in one stops the whole request (R343). -/
def chanWrite (s : State) (ep a : Nat) (bs : List Byte) : Nat × State :=
  match region a with
  | .lpddr o =>
    let c := lpddrChan o
    let parts := partBursts a bs.length
    if !s.domOn 322 || !s.isReady (memPg c) then (stDOMAIN_OFF, s.bump (Reg.MEM.NRDY_CNT.CNT c))
    else if o / 4096 ≠ (o + bs.length - 1) / 4096 then (stUNMAPPED, s)
    else
      let r := s.checkWords (parts.flatMap (fun b => wordsOf (b * 32) 32)) 0 ep
      if r.1 then (stOK, ((r.2.putMem a bs).add (Reg.MEM.RMW_CNT.CNT c) parts.length).add (Reg.MEM.WR_BYTES.CNT c) bs.length)
      else (stUNCORR, r.2)
  | _ => (stUNMAPPED, s)

/-- An atomic at a controller (R344). -/
def chanAtomic (s : State) (ep op a x : Nat) : Nat × Nat × State :=
  match region a with
  | .lpddr o =>
    let c := lpddrChan o
    if !s.domOn 322 || !s.isReady (memPg c) then (stDOMAIN_OFF, 0, s.bump (Reg.MEM.NRDY_CNT.CNT c))
    else if op > 5 ∨ a % atomSize op ≠ 0 then (stUNMAPPED, 0, s)
    else
      let r := s.checkEach (wordsOf a (atomSize op)) ep
      if !r.1 then (stUNCORR, 0, r.2)
      else
        let w := ofBytes (r.2.bytes a (atomSize op))
        (stOK, w, r.2.putMem a (toBytes (atomSize op) (atomResult op w x)))
  | _ => (stUNMAPPED, 0, s)

/-! Port A of a tile's own store. -/

/-- The module address of an offset of tile n's store. -/
def own (n ofs : Nat) : Nat := n * 0x400000 + ofs

/-- A range of the own store is valid for a unit of the tile (R122). -/
def ownOk (ofs len : Nat) : Bool := decide (ofs + len ≤ 0x300000)

/-- A port-A read: status and data (zero bytes unless OK). -/
def portARead (s : State) (unit n ofs len : Nat) : Nat × List Byte × State :=
  if !ownOk ofs len then (stUNMAPPED, List.replicate len 0, s)
  else
    let r := s.lineRead unit (own n ofs) len
    (r.1, if r.1 = stOK then r.2.1 else List.replicate len 0, r.2.2)

/-- A port-A store: it receives no status; a bank that is not ON discards it and counts (R105, R119). -/
def portAWrite (s : State) (unit n ofs : Nat) (bs : List Byte) : State :=
  let r := s.lineWrite unit (own n ofs) bs
  if r.1 = stDOMAIN_OFF then r.2.bankSkip n else r.2

/-- The bytes that a port-A read of the array or an engine returns: the words that a collision of this cycle has reached are undefined, for that one read (R109, R110). -/
def tainted (s : State) (n a : Nat) (bs : List Byte) : List Byte × State :=
  let hit (i : Nat) : Bool := (s.tile n).taint.contains ((a + i) % 0x400000 / 8)
  if !(List.range bs.length).any hit then (bs, s)
  else
    let d := s.draw (8 * bs.length)
    (((List.range bs.length).zip bs).map fun c => if hit c.1 then BitVec.ofNat 8 (bits d.1.toNat (8 * c.1 + 7) (8 * c.1)) else c.2,
      d.2.modTile n fun t => { t with taint := t.taint.filter fun w => !(wordsOf (a % 0x400000) bs.length).contains w })

/-- A read by the event engine or the learning-rule engine: none when the access is skipped (R115, R119). -/
def engineRead (s : State) (unit n ofs len : Nat) : Option (List Byte) × State :=
  if !ownOk ofs len then (none, s)
  else
    (pieces 64 ofs len).foldl (fun acc p =>
      let r := acc.2.lineRead unit (own n p.1) p.2
      if r.1 = stDOMAIN_OFF then (none, r.2.2.bankSkip n)
      else if r.1 = stOK then let d := r.2.2.tainted n (own n p.1) r.2.1; (acc.1.map (· ++ d.1), d.2) else (none, r.2.2)) (some [], s)

/-- A write by the event engine or the learning-rule engine. -/
def engineWrite (s : State) (unit n ofs : Nat) (bs : List Byte) : State :=
  if !ownOk ofs bs.length then s
  else (pieces 64 ofs bs.length).foldl (fun s p => s.portAWrite unit n p.1 ((bs.drop (p.1 - ofs)).take p.2)) s

end State

/-! The commands of the banks. -/

/-- ECC_WRITEBACK (R114): the pending write-back of a word is made; the stored word is whole again. -/
def execEccWriteback (addr : Addr) (s : State) : Res :=
  let w := addr.toNat / 8
  if s.writebacks.contains w then
    match bankAt (w * 8) with
    | some (u, b, _) => if s.bankOn u b then .next (s.cleanWords [w]) else .next s
    | none => .next s
  else .next s

namespace State

/-- A scrubber's next line and the reads that wait at it. -/
def scrubAt (s : State) (k : Nat) : Nat × Nat := getAt (0, 0) k s.scrub

/-- A scrub read of unit k falls due and is displaced, or the next one in line is made: its line, and the state after it. A read that waits is made even when scrubbing has been turned off; no line is skipped (R116, R346). -/
def scrubTake (s : State) (k lines : Nat) (on displaced : Bool) : Option Nat × State :=
  let p := s.scrubAt k
  if displaced then (none, if on then { s with scrub := setAt (0, 0) k (p.1, p.2 + 1) s.scrub } else s)
  else if p.2 = 0 ∧ !on then (none, s)
  else (some p.1, { s with scrub := setAt (0, 0) k ((p.1 + 1) % lines, p.2 - 1) s.scrub })

end State

/-- SCRUB_READ (R116, R119): at a grid time a scrub read of a bank falls due; it is displaced by port B and waits, or the oldest one is made at the next line of the bank, its errors handled as any read's. At a bank that is not ON the read is skipped. -/
def execScrubRead (u : Fin 320) (bank : Fin 16) (displaced : Bool) (s : State) : Res :=
  let on := s.get (fld (bankPg u.val + 0x60) 0 16 0) != 0
  if !s.domOn u.val then .next s
  else if !s.bankOn u.val bank.val then .next (if on then s.bankSkip u.val else s)
  else
    let r := s.scrubTake (16 * u.val + bank.val) (bankSize u.val / 64) on displaced
    match r.1 with
    | none => .next r.2
    | some line => .next (r.2.checkWords (wordsOf (bankBase u.val bank.val + line * 64) 64) uSCRUB 0).2

namespace State

/-- Start a transition of bank b towards state t. -/
def bankGo (s : State) (u b t : Nat) : State :=
  { s with bankTo := insert (16 * u + b) t s.bankTo }.setBankStat u b 3

/-- The BANK_INIT bit of a bank. -/
def initBit (s : State) (u b : Nat) : Bool := (s.get (fld (bankPg u + 0x48) 0 16 0)).testBit b
def setInit (s : State) (u b : Nat) (v : Bool) : State :=
  let f := fld (bankPg u + 0x48) 0 16 0
  s.put f (setBit (s.get f) b v)

/-- One bank's field has been written (R118, R120): a write that changes the state of an initialising bank abandons the initialisation; a bank in transition goes on; else a transition starts when the named state differs. -/
def bankWrite (s : State) (u b : Nat) : State :=
  let want := s.bankPwr u b
  match lookup (16 * u + b) s.bankTo with
  | some _ => s
  | none =>
    if s.initBit u b then
      if want = 0 then s
      else ((s.setInit u b false).lose (bankBase u b) (bankBase u (b + 1))).bankGo u b want
    else if want ≠ s.bankStat u b then s.bankGo u b want else s

end State

/-- BANK_PWR (R117, R118, R120): value 3 in a field is refused with FIELD_RANGE; else each bank whose state changes starts its transition. -/
def actBankPwr (src : Source) (u : Fin 320) (v : Word32) (s : State) : Res :=
  let _ := src
  let pg := bankPg u.val
  if !s.pageUp (pageAt pg) then .next s
  else if (List.range 16).any (fun b => bits v.toNat (2 * b + 1) (2 * b) == 3) then .next (s.refuse pg rcRange 0x40)
  else
    let s := s.put (fld (pg + 0x40) 0 32 0) v.toNat
    .next ((List.range 16).foldl (fun s b => s.bankWrite u.val b) s)

/-- BANK_TRANSITION_END (R118): the bank reaches the state it was heading for; contents pass through OFF as the table says; a field that names another state by then starts the next transition. -/
def execBankTransitionEnd (u : Fin 320) (bank : Fin 16) (s : State) : Res :=
  match lookup (16 * u.val + bank.val) s.bankTo with
  | none => .next s
  | some t =>
    if !s.domOn u.val then .next s
    else
      let s := { s with bankTo := remove (16 * u.val + bank.val) s.bankTo }
      let s := s.setBankStat u.val bank.val t
      let s := if t = 2 then s.lose (bankBase u.val bank.val) (bankBase u.val (bank.val + 1)) else s
      .next (s.bankWrite u.val bank.val)

/-- BANK_INIT (R120): a written 1 starts the initialisation of an ON bank and is ignored otherwise. -/
def actBankInit (src : Source) (u : Fin 320) (v : Word32) (s : State) : Res :=
  let _ := src
  if !s.pageUp (pageAt (bankPg u.val)) then .next s
  else .next ((List.range 16).foldl (fun s b =>
    if v.toNat.testBit b && s.bankOn u.val b then (s.setInit u.val b true).setBankStat u.val b 3 else s) s)

/-- INIT_DONE (R120, R130): every word of the bank holds zero with valid check bits; the INIT bit clears and INIT_DONE is set. -/
def execInitDone (u : Fin 320) (bank : Fin 16) (s : State) : Res :=
  if !s.initBit u.val bank.val || !s.domOn u.val then .next s
  else
    let s := s.zero (bankBase u.val bank.val) (bankBase u.val (bank.val + 1))
    .next (((s.setInit u.val bank.val false).setBankStat u.val bank.val 0).cause (bankPg u.val) 8)

end Sys2Proof.Machine
end

