-- ==== Sys2Proof/Machine/VecMath.lean ====
section
/-! DEFINITION. The lane arithmetic of the vector unit beyond a single IEEE operation: bounded approximations, scans and trees (R125, R127, R128). Where
the spec gives a bound, the result is one of the values within it; which one is free (log entry 13). -/
namespace Sys2Proof.Machine

/-- Flags of VEC_FLAGS as a number: 1 INVALID, 2 OVERFLOW, 4 DIVZERO. -/
abbrev VFlags := Nat

/-- The flags of a result x of format f from operands (R127): a NaN from operands that are not NaN, an infinity from finite operands. -/
def flagsOf (f : Fmt) (ins : List Num) (x : Nat) : VFlags :=
  match f.dec x with
  | .nan => if ins.any Num.isNan then 0 else 1
  | .inf _ => if ins.any (fun i => i.isInf || i.isNan) then 0 else 2
  | _ => 0

/-- One IEEE operation rounded once to the format. -/
def round1 (f : Fmt) (ins : List Num) (r : Num) : Nat × VFlags := (f.enc r, flagsOf f ins (f.enc r))

/-- Integer square root, bit by bit. -/
def isqrtBits (n : Nat) : Nat → Nat → Nat
  | 0, acc => acc
  | k + 1, acc => isqrtBits n k (if (acc + 2 ^ k) * (acc + 2 ^ k) ≤ n then acc + 2 ^ k else acc)
def isqrt (n : Nat) : Nat := isqrtBits n (bitLen n / 2 + 1) 0

/-- The largest FP32 magnitude pattern not above m × 2^e (plus something below one unit of m when `sticky`), and whether it is exact. -/
def truncPack (m : Nat) (e : Int) (sticky : Bool) : Nat × Bool :=
  let p := f32.packWith (fun m d => m >>> d) false m e
  (p, !sticky && Num.eqv (f32.dec p) (.fin false m e))

/-- The FP32 magnitudes within w units in the last place of a positive real, from its truncation; one of them is taken. -/
def withinUlp (w op : Nat) (args : List Nat) (t : Nat × Bool) : Nat :=
  if t.1 ≥ 0x7F800000 then 0x7F800000
  else
    let lo := if t.2 then t.1 - w else t.1 - (w - 1)
    let hi := min 0x7F800000 (t.1 + w)
    lo + Config.ulpPick op args % (hi + 1 - lo)

/-- Truncation of num / den × 2^e. -/
def truncRat (num den : Nat) (e : Int) : Nat × Bool :=
  let k := bitLen den + 40
  truncPack (num * 2 ^ k / den) (e - k) (decide (num * 2 ^ k % den ≠ 0))

/-- Truncation of √(m × 2^e). -/
def truncSqrt (m : Nat) (e : Int) : Nat × Bool :=
  let odd := decide (e % 2 ≠ 0)
  let m := if odd then 2 * m else m
  let e := if odd then e - 1 else e
  let n := m * 2 ^ 80
  let r := isqrt n
  truncPack r ((e - 80) / 2) (decide (r * r ≠ n))

/-- Truncation of 1 / √(m × 2^e). -/
def truncRsqrt (m : Nat) (e : Int) : Nat × Bool :=
  let odd := decide (e % 2 ≠ 0)
  let m := if odd then 2 * m else m
  let e := if odd then e - 1 else e
  let n := 2 ^ 160 / m
  let r := isqrt n
  truncPack r (-80 - e / 2) (decide (r * r * m ≠ 2 ^ 160))

/-- 2^(1/2), 2^(1/4), … with 128 fraction bits, truncated. -/
def exp2Roots : Nat → Nat → List Nat
  | 0, _ => []
  | k + 1, c => let r := isqrt (c * 2 ^ 128); r :: exp2Roots k r
def exp2Table : List Nat := exp2Roots 64 (2 * 2 ^ 128)

/-- Truncation of 2^x for x = ± m × 2^e. -/
def truncExp2 (neg : Bool) (m : Nat) (e : Int) : Nat × Bool :=
  -- x as an integer of units 2^-64, rounded down; larger than any result's range is cut off.
  let big := decide (e + bitLen m > 9)
  let q : Int := if big then 512 * 2 ^ 64 else if e + 64 ≥ 0 then m * 2 ^ (e + 64).toNat else (m >>> (-(e + 64)).toNat : Nat)
  let cut := decide (e + 64 < 0) && decide (m % 2 ^ (-(e + 64)).toNat ≠ 0)
  let x : Int := if neg then -q - (if cut then 1 else 0) else q
  let i := x / 2 ^ 64
  let f := (x % 2 ^ 64).toNat
  let a := (List.range 64).foldl (fun a k => if f.testBit (63 - k) then a * exp2Table.getD k 0 / 2 ^ 128 else a) (2 ^ 128)
  truncPack a (i - 128) (f != 0 || cut)

/-- The fraction bits of log2 of y / 2^256, 1 ≤ y / 2^256 < 2, by repeated squaring. -/
def log2Bits : Nat → Nat → Nat → Nat
  | 0, _, acc => acc
  | k + 1, y, acc =>
    let y2 := y * y / 2 ^ 256
    if y2 ≥ 2 ^ 257 then log2Bits k (y2 / 2) (2 * acc + 1) else log2Bits k y2 (2 * acc)

/-- log2 of m × 2^e (m > 0): sign and truncation of its magnitude. -/
def truncLog2 (m : Nat) (e : Int) : Bool × (Nat × Bool) :=
  let n := bitLen m - 1
  let ex : Int := e + n
  let y := m * 2 ^ 256 / 2 ^ n
  if m = 2 ^ n then (decide (ex < 0), truncPack ex.natAbs 0 false)
  else
    let v : Int := ex * 2 ^ 100 + log2Bits 100 y 0
    if v ≥ 0 then (false, truncPack v.toNat (-100) true) else (true, truncPack ((-v).toNat - 1) (-100) true)

/-- A subnormal operand taken as zero (R127). -/
def flush (n : Num) : Num :=
  match n with
  | .fin s m e => if m < 2 ^ 23 then .fin s 0 e else n
  | _ => n

/-- A signed pattern. -/
def signed32 (neg : Bool) (mag : Nat) : Nat := mag + (if neg then 0x80000000 else 0)

/-- Square root of an exact argument within w units (VSQRT, VRMS). -/
def sqrtWithin (w op : Nat) (args : List Nat) (ins : List Num) (r : Num) : Nat × VFlags :=
  match r with
  | .nan => (f32.nan, if ins.any Num.isNan then 0 else 1)
  | .inf false => (f32.inf false, flagsOf f32 ins (f32.inf false))
  | .inf true => (f32.nan, 1)
  | .fin s 0 _ => (signed32 s 0, 0)
  | .fin true _ _ => (f32.nan, 1)
  | .fin false m e =>
    let x := withinUlp w op args (truncSqrt m e)
    (x, flagsOf f32 ins x)

/-- A quotient of exact numbers within w units (VRCP, VDIVE). -/
def divWithin (w op : Nat) (args : List Nat) (ins : List Num) (a b : Num) : Nat × VFlags :=
  match a, b with
  | .nan, _ => (f32.nan, if ins.any Num.isNan then 0 else 1)
  | _, .nan => (f32.nan, if ins.any Num.isNan then 0 else 1)
  | .inf _, .inf _ => (f32.nan, 1)
  | .inf s, .fin t m _ => (f32.inf (s != t), if m = 0 then 4 else 0)
  | .fin s _ _, .inf t => (signed32 (s != t) 0, 0)
  | .fin s m e, .fin t m' e' =>
    if m' = 0 then (if m = 0 then (f32.nan, 5) else (f32.inf (s != t), 4))
    else if m = 0 then (signed32 (s != t) 0, 0)
    else
      let x := signed32 (s != t) (withinUlp w op args (truncRat m m' (e - e')))
      (x, flagsOf f32 ins x)

/-- VRCP, VRSQRT, VEXP2, VLOG2, VSQRT on an FP32 pattern (R125, R127). -/
def vrcp (a : Nat) : Nat × VFlags :=
  let n := flush (f32.dec a)
  divWithin 1 0x10 [a] [n] (.fin false 1 0) n

def vrsqrt (a : Nat) : Nat × VFlags :=
  let n := flush (f32.dec a)
  match n with
  | .nan => (f32.nan, 0)
  | .inf false => (0, 0)
  | .inf true => (f32.nan, 1)
  | .fin s 0 _ => (f32.inf s, 4)
  | .fin true _ _ => (f32.nan, 1)
  | .fin false m e =>
    let x := withinUlp 1 0x11 [a] (truncRsqrt m e)
    (x, flagsOf f32 [n] x)

def vexp2 (a : Nat) : Nat × VFlags :=
  let n := flush (f32.dec a)
  match n with
  | .nan => (f32.nan, 0)
  | .inf s => (if s then 0 else f32.inf false, 0)
  | .fin s m e =>
    let x := withinUlp 2 0x12 [a] (truncExp2 s m e)
    (x, flagsOf f32 [n] x)

def vlog2 (a : Nat) : Nat × VFlags :=
  let n := flush (f32.dec a)
  match n with
  | .nan => (f32.nan, 0)
  | .inf false => (f32.inf false, 0)
  | .inf true => (f32.nan, 1)
  | .fin s 0 _ =>
    let x := (Config.log2Zero (signed32 s 0)).toNat
    (x, flagsOf f32 [n] x)
  | .fin true _ _ => (f32.nan, 1)
  | .fin false m e =>
    let l := truncLog2 m e
    (signed32 l.1 (withinUlp 2 0x13 [a] l.2), 0)

def vsqrt (a : Nat) : Nat × VFlags :=
  let n := flush (f32.dec a)
  sqrtWithin 1 0x14 [a] [n] n

/-- VRMS (R125): √(K a² + (1 − K) b²). -/
def vrms (k a b : Nat) : Nat × VFlags :=
  let nk := flush (f32.dec k)
  let na := flush (f32.dec a)
  let nb := flush (f32.dec b)
  let r := (nk.mul (na.mul na)).add (((Num.fin false 1 0).add nk.neg).mul (nb.mul nb))
  sqrtWithin 2 0x08 [k, a, b] [nk, na, nb] r

/-- VDIVE (R125): K a / (b + K'). -/
def vdive (k k' a b : Nat) : Nat × VFlags :=
  let nk := flush (f32.dec k)
  let nk' := flush (f32.dec k')
  let na := flush (f32.dec a)
  let nb := flush (f32.dec b)
  divWithin 2 0x09 [k, k', a, b] [nk, nk', na, nb] (nk.mul na) (nb.add nk')

/-- VMAX and VMIN of two patterns: NaN operands and zeros of both signs are open (log entry 13). -/
def fmaxmin (f : Fmt) (isMin : Bool) (a b : Nat) : Nat × VFlags :=
  let na := f.dec a
  let nb := f.dec b
  if na.isNan || nb.isNan || (na.isZero && nb.isZero && a != b) then
    let x := low f.width (Config.vmaxOpen isMin a b).toNat
    let x := if (f.dec x).isNan then f.nan else x
    (x, flagsOf f [na, nb] x)
  else if isMin then (if nb.lt na then (b, 0) else (a, 0))
  else (if na.lt nb then (b, 0) else (a, 0))

/-- VLERP (R125): K × (b − a) + a. Rounded once, at each step, or fused at the end, it is one value in most cases; else it is free. -/
def flerp (f : Fmt) (k a b : Nat) : Nat × VFlags :=
  let nk := f32.dec k
  let na := f.dec a
  let nb := f.dec b
  let d := nb.add na.neg
  let dr := f32.dec (f32.enc d)
  let once := f.enc ((nk.mul d).add na)
  let fused := f.enc (f32.dec (f32.enc ((nk.mul dr).add na)))
  let steps := f.enc (f32.dec (f32.enc ((f32.dec (f32.enc (nk.mul dr))).add na)))
  let x := if once = fused ∧ fused = steps then once else low f.width (Config.vlerpOpen k a b).toNat
  let x := if (f.dec x).isNan then f.nan else x
  (x, flagsOf f [nk, na, nb] x)

/-- One level of a balanced tree: neighbours are combined. -/
def pairUp (f : Nat → Nat → Nat) : List Nat → List Nat
  | a :: b :: t => f a b :: pairUp f t
  | l => l

/-- A balanced pairwise tree of k levels: level l pairs indices that differ only in bit l (R128, R142). -/
def treeFold (f : Nat → Nat → Nat) : Nat → List Nat → Nat
  | 0, l => l.headD 0
  | k + 1, l => treeFold f k (pairUp f l)

/-- The exact square of a pattern, when FP32 holds it. -/
def exactSq (x : Nat) : Option Nat :=
  let n := f32.dec x
  let r := n.mul n
  let y := f32.enc r
  if n.isNan || n.isInf || Num.eqv (f32.dec y) r then some y else none

/-- VRED SUMSQ over FP32 patterns. -/
def sumsq (k : Nat) (xs : List Nat) : Nat :=
  let qs := xs.filterMap exactSq
  if qs.length = xs.length then treeFold fadd k qs
  else
    let x := (Config.vsumsqOpen xs).toNat
    if (f32.dec x).isNan then f32.nan else x

/-- m with its trailing zero bits moved into the exponent. -/
def strip : Nat → Nat → Int → Nat × Int
  | 0, m, e => (m, e)
  | k + 1, m, e => if m % 2 = 0 then strip k (m / 2) (e + 1) else (m, e)

/-- A running exact sum: least exponent, sum of magnitudes in its units, signed sum, whether no term is other than −0, a NaN seen, an infinity of each
sign seen. -/
structure Run where
  e : Int
  mags : Nat
  sum : Int
  allNegZero : Bool
  nan : Bool
  posInf : Bool
  negInf : Bool
deriving DecidableEq, Repr

/-- Add a term to a running sum. -/
def Run.add (r : Run) (n : Num) : Run :=
  match n with
  | .nan => { r with nan := true, allNegZero := false }
  | .inf true => { r with negInf := true, allNegZero := false }
  | .inf false => { r with posInf := true, allNegZero := false }
  | .fin s m e =>
    if m = 0 then { r with allNegZero := r.allNegZero && s }
    else
      let (m, e) := strip 32 m e
      let q := min r.e e
      let v := m * 2 ^ (e - q).toNat
      { r with e := q, mags := r.mags * 2 ^ (r.e - q).toNat + v, sum := r.sum * 2 ^ (r.e - q).toNat + (if s then -(v : Int) else v), allNegZero := false }

/-- The finite terms of a running sum cannot overflow in any order of their addition: their magnitudes add up to less than 2^127. -/
def Run.small (r : Run) : Bool := decide ((r.mags : Int) * 2 ^ (r.e + 200).toNat < 2 ^ 327)

/-- The prefix sum that every order of rounded additions gives; none where it could depend on the order (R128). -/
def Run.result (r : Run) : Option Nat :=
  if r.nan || (r.posInf && r.negInf) then some f32.nan
  else if r.posInf || r.negInf then (if r.small then some (f32.inf r.negInf) else none)
  else if r.mags > 2 ^ 24 then none
  else if r.sum = 0 then some (if r.allNegZero then 0x80000000 else 0)
  else some (f32.enc (.fin (decide (r.sum < 0)) r.sum.natAbs r.e))

/-- A lane that a seven-level prefix of rounded sums fixes whatever its shape (R128): lane 0 is one sum; without a carry lane 1 is one sum, and the last of
128 lanes can only be a balanced tree. -/
def scanFixed (xs : List Nat) (carry i : Nat) : Option Nat :=
  if i = 0 then some (fadd carry (xs.getD 0 0))
  else if carry ≠ 0 then none
  else if i = 1 then some (fadd 0 (fadd (xs.getD 0 0) (xs.getD 1 0)))
  else if i = 127 ∧ xs.length = 128 then some (fadd 0 (treeFold fadd 7 xs))
  else none

/-- A free FP32 pattern; a NaN is canonical (R127). -/
def freeF (y : Nat) : Nat := if (f32.dec y).isNan then f32.nan else y

/-- Inclusive prefix sums of FP32 patterns with a carry-in (R125, R128). -/
def scanF (xs : List Nat) (carry : Nat) : List Nat :=
  let start : Run := (⟨200, 0, 0, true, false, false, false⟩ : Run).add (f32.dec carry)
  (xs.foldl (fun (acc : List Nat × Run) x =>
    let r := acc.2.add (f32.dec x)
    let i := acc.1.length
    ((match scanFixed xs carry i with
      | some y => y
      | none => (r.result).getD (freeF (Config.vscanOpen xs carry i).toNat)) :: acc.1, r)) ([], start)).1.reverse

/-- An affine step h ↦ a h + b held exactly. -/
def affThen (s t : Num × Num) : Num × Num := (t.1.mul s.1, (t.1.mul s.2).add t.2)

/-- FP32 holds a number exactly. -/
def exact32 (n : Num) : Bool := Num.eqv (f32.dec (f32.enc n)) n && !(f32.dec (f32.enc n)).isInf

/-- a × h + b in FP32, the product rounded by itself or not. -/
def mulAdd32 (fused : Bool) (a h b : Nat) : Nat :=
  let p := (f32.dec a).mul (f32.dec h)
  f32.enc ((if fused then p else f32.dec (f32.enc p)).add (f32.dec b))

/-- Two neighbouring affine steps of FP32 patterns combined with rounding (R128). -/
def affRound (fused : Bool) (s t : Nat × Nat) : Nat × Nat :=
  (f32.enc ((f32.dec t.1).mul (f32.dec s.1)), mulAdd32 fused t.1 s.2 t.2)

/-- One level of a balanced tree of affine steps. -/
def affPairs (fused : Bool) : List (Nat × Nat) → List (Nat × Nat)
  | s :: t :: r => affRound fused s t :: affPairs fused r
  | l => l
def affTree (fused : Bool) : Nat → List (Nat × Nat) → Nat × Nat
  | 0, l => l.headD (0, 0)
  | k + 1, l => affTree fused k (affPairs fused l)

/-- A lane of VSCANL that a seven-level prefix fixes whatever its shape, as scanFixed, where a fused combination and one that rounds its product agree (R128). -/
def scanLFixed (ps : List (Nat × Nat)) (carry i : Nat) : Option Nat :=
  let out (fused : Bool) : Option Nat :=
    if i = 0 then some (let p := ps.getD 0 (0, 0); mulAdd32 fused p.1 carry p.2)
    else if carry ≠ 0 then none
    else if i = 1 then some (let p := affRound fused (ps.getD 0 (0, 0)) (ps.getD 1 (0, 0)); mulAdd32 fused p.1 0 p.2)
    else if i = 127 ∧ ps.length = 128 then some (let p := affTree fused 7 ps; mulAdd32 fused p.1 0 p.2)
    else none
  if out true = out false then out true else none

/-- VSCANL over FP32 patterns (R125, R128): every composition of neighbouring steps is exact up to a lane, or the shape fixes it, or the lane is free. -/
def scanLF (as bs : List Nat) (carry : Nat) : List Nat :=
  let ps := as.zip bs
  let open' (i : Nat) : Nat := (scanLFixed ps carry i).getD (freeF (Config.vscanlOpen as bs carry i).toNat)
  let go := ps.foldl (fun (acc : List Nat × (List (Num × Num) × Bool)) ab =>
    let i := acc.1.length
    if acc.2.2 then
      let step : Num × Num := (f32.dec ab.1, f32.dec ab.2)
      -- All compositions that end at this lane; the first one starts at the carry.
      let comps := (acc.2.1.map (fun c => affThen c step)) ++ [step]
      let ok := comps.all (fun c => exact32 c.1 && exact32 c.2)
      let h := (comps.headD step).2
      if ok then (f32.enc h :: acc.1, (comps, true)) else (open' i :: acc.1, ([], false))
    else (open' i :: acc.1, ([], false))) ([], ([(Num.fin false 0 0, f32.dec carry)], exact32 (f32.dec carry)))
  go.1.reverse

/-- One step of a stochastic choice (R146): the magnitude m × 2^e between neighbours of the format, with 16 random bits. -/
def stochRnd (u : Nat) (m d : Nat) : Nat :=
  let q := m >>> d
  let f := (m % 2 ^ d) * 65536 / 2 ^ d
  if u < f then q + 1 else q

end Sys2Proof.Machine
end

