-- ==== Sys2Proof/Machine/TileOps.lean ====
section
/-! DEFINITION. What every slot operation of a tile uses: its registers, the scoreboard (R88), results on their way (R123), and the records of lane
faults (R81, R88, R96, R102). -/
namespace Sys2Proof.Machine

/-- Lanes of a vector register. -/
def lanes : List Nat := List.range 128

namespace State

/-- A launch period is two CCLK cycles of a FULL half while the other half is at HALF (R75). -/
def slowLaunch (s : State) : Bool := s.effective 0 == 1 || s.effective 1 == 1

/-- CCLK cycles of a half in one launch period (R75): none for a GATED half. -/
def cyclesPerLaunch (s : State) (half : Nat) : Nat :=
  match s.effective half with
  | 0 => if s.slowLaunch then 2 else 1
  | 1 => 1
  | _ => 0

/-- A latency in CCLK cycles of tile n as launch periods, rounded up (R89). -/
def periods (s : State) (n lat : Nat) : Nat := if s.cyclesPerLaunch (tileHalf n) = 2 then (lat + 1) / 2 else lat

/-- The bundle that tile n executes. -/
def laneIndex (s : State) (n : Nat) : Nat := s.get (Reg.LANE.LANE_PC.INDEX n)

/-! Fault records of a tile (R102): LANE_FAULT keeps its first cause and its first error status, and the index of the earlier of the two, until BLK_STAT.ERR is written. -/

def laneHeld (s : State) (n : Nat) : Bool :=
  s.get (Reg.LANE.LANE_FAULT.CAUSE n) != 0 || s.get (Reg.LANE.LANE_FAULT.STATUS n) != 0

/-- The index of the first record. -/
def laneRecord (s : State) (n index : Nat) : State :=
  if s.laneHeld n then s else s.put (Reg.LANE.LANE_FAULT.INDEX n) index

/-- A tile fault: recorded in LANE_FAULT, ERR set, the stream fault-halts (R96, R102). -/
def tileFault (s : State) (n cause index : Nat) : State :=
  let s := s.laneRecord n index
  let s := if s.get (Reg.LANE.LANE_FAULT.CAUSE n) = 0 then s.put (Reg.LANE.LANE_FAULT.CAUSE n) cause else s
  (s.setErr (lanePg n)).faultHalt cause index (some n)

/-- An illegal slot (R81): ILLEGAL_OP. -/
def illegalOp (s : State) (n : Nat) : State := s.tileFault n 0xB (s.laneIndex n)

/-- A failed tracked operation (R88): its status and ERR; the stream continues. -/
def trackedError (s : State) (n status index : Nat) : State :=
  let s := s.laneRecord n index
  let s := if s.get (Reg.LANE.LANE_FAULT.STATUS n) = 0 then s.put (Reg.LANE.LANE_FAULT.STATUS n) status else s
  s.setErr (lanePg n)

/-! Registers. -/

/-- Scalar register r of tile n: s0 reads zero (R121). -/
def sreg (s : State) (n r : Nat) : Nat := if r = 0 then 0 else (getAt 0 r (s.tile n).sregs).toNat

/-- Write a scalar register: writes to s0 are discarded. -/
def setSreg (s : State) (n r v : Nat) : State :=
  if r = 0 then s else s.modTile n fun t => { t with sregs := setAt 0 r (BitVec.ofNat 64 v) t.sregs }

/-- Lane i of vector register r. -/
def vlane (s : State) (n r i : Nat) : Nat := (getAt 0 (128 * r + i) (s.tile n).vregs).toNat
def setVlane (s : State) (n r i v : Nat) : State :=
  s.modTile n fun t => { t with vregs := setAt 0 (128 * r + i) (BitVec.ofNat 32 v) t.vregs }

/-- Mask register m (1 to 7). -/
def vmask (s : State) (n m : Nat) : Nat := (getAt 0 m (s.tile n).masks).toNat
def setVmask (s : State) (n m v : Nat) : State := s.modTile n fun t => { t with masks := setAt 0 m (BitVec.ofNat 128 v) t.masks }

/-- The lanes that a MASK field selects: 0 is no mask (R125). -/
def maskBits (s : State) (n m : Nat) : Nat := if m = 0 then 2 ^ 128 - 1 else s.vmask n m

/-- A register is marked by a tracked operation issued in an earlier launch period (R88). -/
def marked (s : State) (n : Nat) (vector : Bool) (r : Nat) : Bool :=
  (s.tile n).tracked.any fun t => t.vector == vector && t.reg == some r && decide (t.since < s.issue.period)

/-- A slot has read a marked register (R88): LANE_HAZARD. -/
def hazard (s : State) (n : Nat) : State := s.tileFault n 8 (s.laneIndex n)

/-- Read a scalar operand: a marked register raises LANE_HAZARD and its value is undefined (R88). -/
def readS (s : State) (n r : Nat) : Nat × State :=
  if s.marked n false r then let d := (s.hazard n).draw 64; (d.1.toNat, d.2) else (s.sreg n r, s)

/-- Read a vector operand as a list of 128 lanes. -/
def readV (s : State) (n r : Nat) : List Nat × State :=
  if s.marked n true r then
    let d := (s.hazard n).draw 4096
    (lanes.map (fun i => bits d.1.toNat (32 * i + 31) (32 * i)), d.2)
  else (lanes.map (s.vlane n r), s)

/-! Results. -/

/-- Bytes written into a vector register from byte 0. -/
def setVbytes (s : State) (n r : Nat) (bs : List Byte) : State :=
  (List.range ((bs.length + 3) / 4)).foldl (fun s i =>
    let old := toBytes 4 (s.vlane n r i)
    let new := (bs.drop (4 * i)).take 4
    s.setVlane n r i (ofBytes (new ++ old.drop new.length))) s

/-- An accumulator cell of tile n. -/
def accCell (s : State) (n row col : Nat) : Nat := (getAt 0 (32 * row + col) (s.tile n).acc).toNat

/-- Write a result that needs no arithmetic unit; the array's own steps are taken by `arrayResult`. -/
def writeResult (s : State) (n : Nat) : Result → State
  | .sreg r v => s.setSreg n r v.toNat
  | .vreg r ls => ls.foldl (fun s c => s.setVlane n r c.1 c.2.toNat) s
  | .vbytes r bs => s.setVbytes n r bs
  | .mask m sel b => s.setVmask n m ((s.vmask n m &&& (2 ^ 128 - 1 - sel.toNat)) + (b.toNat &&& sel.toNat))
  | .kreg k v => s.put (Reg.VECTOR.KREG.VALUE n k) v.toNat
  | .vcarry v => s.put (Reg.VECTOR.VCARRY.VALUE n) v.toNat
  | .store o bs => (pieces 64 o bs.length).foldl (fun s p => s.portAWrite uARRAY n p.1 ((bs.drop (p.1 - o)).take p.2)) s
  | .block i b => s.modTile n fun t => { t with arr := if i = 0 then { t.arr with blk0 := b } else { t.arr with blk1 := b } }
  | .accRow row sums ovw =>
    let vs := ((List.range 32).zip sums).map fun c =>
      (32 * row + c.1, BitVec.ofNat 32 (if ovw then c.2.toNat else fadd (s.accCell n row c.1) c.2.toNat))
    s.modTile n fun t => { t with acc := vs.foldl (fun l c => setAt 0 c.1 c.2 l) t.acc }
  | .macRow .. => s
  | .drain .. => s

/-- The registers that a result writes: scalar register r, or lane l of vector register v at 32 + 128 v + l. -/
def resultKeys : Result → List Nat
  | .sreg r _ => [r]
  | .vreg r ls => ls.map fun c => 32 + 128 * r + c.1
  | .vbytes r bs => (List.range ((bs.length + 3) / 4)).map fun i => 32 + 128 * r + i
  | _ => []

/-- A result without the registers in ks. -/
def dropKeys (ks : List Nat) : Result → Result
  | .sreg r v => if ks.contains r then .sreg 0 v else .sreg r v
  | .vreg r ls => .vreg r (ls.filter fun c => !ks.contains (32 + 128 * r + c.1))
  | x => x

/-- What a tracked operation issued in period `since` still writes: a later-issued result that reached the register in this period is kept (R123). -/
def afterLanded (s : State) (n since : Nat) (r : Result) : Result :=
  dropKeys (((s.tile n).landed.filter fun c => decide (since < c.2)).map (·.1)) r

/-- Half launch periods in a CCLK cycle of tile n (R75). -/
def halves (s : State) (n : Nat) : Nat := if s.cyclesPerLaunch (tileHalf n) = 2 then 1 else 2

/-- A result written `lat` CCLK cycles after a time in half launch periods. -/
def laterAt (s : State) (n base lat : Nat) (r : Result) : State :=
  let d : Due := ⟨base + lat * s.halves n, s.issue.period, r⟩
  s.modTile n fun t => { t with due := t.due ++ [d] }

/-- The time of the bundle that a tile executes, in half launch periods. -/
def issueTime (s : State) : Nat := 2 * s.issue.period

/-- A result of fixed latency (R123): written that many cycles after issue. -/
def later (s : State) (n lat : Nat) (r : Result) : State := s.laterAt n s.issueTime lat r

/-- A scalar result of fixed latency. -/
def laterS (s : State) (n lat r v : Nat) : State := if r = 0 then s else s.later n lat (.sreg r (BitVec.ofNat 64 v))

/-- The selected lanes of a vector result of fixed latency. -/
def laterV (s : State) (n lat r mask : Nat) (vs : List Nat) : State :=
  s.later n lat (.vreg r ((lanes.zip vs).filterMap fun c => if mask.testBit c.1 then some (c.1, BitVec.ofNat 32 c.2) else none))

/-- Add a tracked operation. -/
def track (s : State) (n : Nat) (t : Tracked) : State := s.modTile n fun x => { x with tracked := x.tracked ++ [t] }

/-- A tracked operation on the own store with the data it will write, `lat` cycles from now; an error status writes zero (R88). -/
def trackOwn (s : State) (n lat : Nat) (vector : Bool) (reg : Option Nat) (status : Nat) (res : List Result) (src : Option (Nat × Nat × Nat)) : State :=
  s.track n { vector := vector, reg := if vector then reg else reg.filter (· ≠ 0), since := s.issue.period, index := s.laneIndex n, ready := some (s.issue.period + s.periods n lat),
              tag := 0, status := status, res := res, src := src }

/-- A slot operation runs in a tile whose domain is ON (log entry 4). -/
def slot (s : State) (n : TileId) (f : State → State) : Res := .next (if s.domOn n.val then f s else s)

end State

/-- TRACKED_OP_COMPLETE (R88): the k-th tracked operation of tile n, whose data has arrived, clears its mark and writes its result; an error status is recorded with ERR and zero is written. -/
def execTrackedOpComplete (n : TileId) (k : Nat) (s : State) : Res :=
  match (s.tile n.val).tracked[k]? with
  | none => .next s
  | some t =>
    match t.ready with
    | none => .next s
    | some p =>
      if s.issue.period < p then .next s
      else
        let s := s.modTile n.val fun x => { x with tracked := x.tracked.eraseIdx k }
        let s := t.res.foldl (fun s r => s.writeResult n.val (s.afterLanded n.val t.since r)) s
        .next (if t.status = 0 then s else s.trackedError n.val t.status t.index)

end Sys2Proof.Machine
end

