-- ==== Sys2Proof/Machine/Vector.lean ====
section
/-! DEFINITION. The vector unit (R124 to R129): one operation of VSLOT each. BF16 elements 2i and 2i + 1 stand in lane i. -/
namespace Sys2Proof.Machine

/-- The elements of a register's lanes for a type: 256 BF16 elements or 128 lanes. -/
def elemsOf (ty : VType) (l : List Nat) : List Nat :=
  match ty with
  | .bf16 => l.flatMap (fun x => [low 16 x, x / 65536])
  | _ => l

/-- Pairs of BF16 elements as lanes. -/
def joinPairs : List Nat → List Nat
  | a :: b :: t => (a + 65536 * b) :: joinPairs t
  | _ => []

/-- Elements as lanes. -/
def lanesOf (ty : VType) (l : List Nat) : List Nat :=
  match ty with
  | .bf16 => joinPairs l
  | _ => l

/-- The lane of element i. -/
def laneOf (ty : VType) (i : Nat) : Nat :=
  match ty with
  | .bf16 => i / 2
  | _ => i

/-- The floating format of a type. -/
def fmtOf (ty : VType) : Fmt :=
  match ty with
  | .bf16 => bf16
  | _ => f32

/-- An operand pattern of a type as an FP32 pattern, and an FP32 result rounded to the type, with the overflow of that rounding. -/
def toF (ty : VType) (x : Nat) : Nat :=
  match ty with
  | .bf16 => bfToF x
  | _ => x
def fromF (ty : VType) (r : Nat × VFlags) : Nat × VFlags :=
  match ty with
  | .bf16 =>
    let y := fToBf r.1
    (y, r.2 ||| (if (bf16.dec y).isInf && !(f32.dec r.1).isInf then 2 else 0))
  | _ => r

/-- Two's-complement lane values. -/
def sI (x : Nat) : Int := signed 32 x

/-- Element operations of VADD, VSUB, VMUL, VMAX, VMIN (R125, R127). -/
def eAdd (ty : VType) (a b : Nat) : Nat × VFlags :=
  if ty = .int32 then (low 32 (a + b), 0) else let f := fmtOf ty; round1 f [f.dec a, f.dec b] ((f.dec a).add (f.dec b))
def eSub (ty : VType) (a b : Nat) : Nat × VFlags :=
  if ty = .int32 then (low 32 (a + 2 ^ 32 - b), 0) else let f := fmtOf ty; round1 f [f.dec a, f.dec b] ((f.dec a).add (f.dec b).neg)
def eMul (ty : VType) (a b : Nat) : Nat × VFlags :=
  let f := fmtOf ty
  round1 f [f.dec a, f.dec b] ((f.dec a).mul (f.dec b))
def eMaxMin (isMin : Bool) (ty : VType) (a b : Nat) : Nat × VFlags :=
  if ty = .int32 then (if (if isMin then sI b < sI a else sI a < sI b) then (b, 0) else (a, 0)) else fmaxmin (fmtOf ty) isMin a b
/-- VFMA (R125): ±(a × b) + c with one rounding. -/
def eFma (neg : Bool) (ty : VType) (a b c : Nat) : Nat × VFlags :=
  let f := fmtOf ty
  let p := (f.dec a).mul (f.dec b)
  round1 f [f.dec a, f.dec b, f.dec c] ((if neg then p.neg else p).add (f.dec c))

/-- A comparison: 0 EQ, 1 NE, 2 LT, 3 LE; a NaN compares unequal (R125, R127). -/
def eCmp (cond : Nat) (ty : VType) (a b : Nat) : Bool :=
  if ty = .int32 then
    match cond with
    | 0 => a == b | 1 => a != b | 2 => decide (sI a < sI b) | _ => decide (sI a ≤ sI b)
  else
    let x := (fmtOf ty).dec a
    let y := (fmtOf ty).dec b
    match cond with
    | 0 => x.eqv y | 1 => !x.eqv y | 2 => x.lt y | _ => x.lt y || x.eqv y

namespace State

/-- Set sticky bits of VEC_FLAGS (R127). -/
def vecFlags (s : State) (n : Nat) (fl : VFlags) : State :=
  let s := if fl.testBit 0 then s.put (Reg.VECTOR.VEC_FLAGS.INVALID n) 1 else s
  let s := if fl.testBit 1 then s.put (Reg.VECTOR.VEC_FLAGS.OVERFLOW n) 1 else s
  if fl.testBit 2 then s.put (Reg.VECTOR.VEC_FLAGS.DIVZERO n) 1 else s

/-- Finish an element-wise operation: lanes written after the latency. DESIGN CHOICE (log entry 13): the flags are set at issue, and by the selected lanes
only; R127 says neither. VRED and the scans set them from every lane. -/
def vDone (s : State) (n lat : Nat) (ty : VType) (vd mask : Nat) (es : List (Nat × VFlags)) : State :=
  let sel := s.maskBits n mask
  let fl := ((List.range es.length).zip es).foldl (fun a c => if sel.testBit (laneOf ty c.1) then a ||| c.2.2 else a) 0
  (s.vecFlags n fl).laterV n lat vd sel (lanesOf ty (es.map (·.1)))

/-- A two-operand element-wise operation. -/
def v2 (s : State) (n lat : Nat) (ty : VType) (vd va vb mask : Nat) (f : Nat → Nat → Nat × VFlags) : State :=
  let a := s.readV n va
  let b := a.2.readV n vb
  b.2.vDone n lat ty vd mask ((elemsOf ty a.1).zipWith f (elemsOf ty b.1))

/-- A one-operand element-wise operation. -/
def v1 (s : State) (n lat : Nat) (ty : VType) (vd va mask : Nat) (f : Nat → Nat × VFlags) : State :=
  let a := s.readV n va
  a.2.vDone n lat ty vd mask ((elemsOf ty a.1).map f)

/-- Operations that are illegal on INT32 (R124). -/
def fpOnly (s : State) (n : Nat) (ty : VType) (f : State → State) : State := if ty = .int32 then s.illegalOp n else f s

def kreg (s : State) (n k : Nat) : Nat := s.get (Reg.VECTOR.KREG.VALUE n k)

def opVadd (s : State) (n : Nat) (ty : VType) (vd va vb mask : Nat) : State := s.v2 n 4 ty vd va vb mask (eAdd ty)
def opVsub (s : State) (n : Nat) (ty : VType) (vd va vb mask : Nat) : State := s.v2 n 4 ty vd va vb mask (eSub ty)
def opVmul (s : State) (n : Nat) (ty : VType) (vd va vb mask : Nat) : State := s.fpOnly n ty (·.v2 n 4 ty vd va vb mask (eMul ty))
def opVmax (s : State) (n : Nat) (ty : VType) (vd va vb mask : Nat) : State := s.v2 n 4 ty vd va vb mask (eMaxMin false ty)
def opVmin (s : State) (n : Nat) (ty : VType) (vd va vb mask : Nat) : State := s.v2 n 4 ty vd va vb mask (eMaxMin true ty)

/-- VFMA (R125). -/
def opVfma (s : State) (n : Nat) (ty : VType) (vd va vb mask vc : Nat) (neg : Bool) : State :=
  s.fpOnly n ty fun s =>
    let a := s.readV n va
    let b := a.2.readV n vb
    let c := b.2.readV n vc
    c.2.vDone n 4 ty vd mask
      (((elemsOf ty a.1).zip (elemsOf ty b.1)).zipWith (fun (p : Nat × Nat) z => eFma neg ty p.1 p.2 z) (elemsOf ty c.1))

def opVlerp (s : State) (n : Nat) (ty : VType) (vd va vb mask k : Nat) : State :=
  s.fpOnly n ty (·.v2 n 4 ty vd va vb mask (flerp (fmtOf ty) (s.kreg n k)))
def opVrms (s : State) (n : Nat) (ty : VType) (vd va vb mask k : Nat) : State :=
  s.fpOnly n ty (·.v2 n 8 ty vd va vb mask (fun a b => fromF ty (vrms (s.kreg n k) (toF ty a) (toF ty b))))
/-- VDIVE (R125): VC ≤ 14, since K[VC + 1] is read. -/
def opVdive (s : State) (n : Nat) (ty : VType) (vd va vb mask k : Nat) : State :=
  if k > 14 then s.illegalOp n else
    s.fpOnly n ty (·.v2 n 10 ty vd va vb mask (fun a b => fromF ty (vdive (s.kreg n k) (s.kreg n (k + 1)) (toF ty a) (toF ty b))))

/-- VRCP, VRSQRT, VEXP2, VLOG2, VSQRT (R125, R127). -/
def opVun (s : State) (n : Nat) (ty : VType) (vd va mask : Nat) (f : Nat → Nat × VFlags) : State :=
  s.fpOnly n ty (·.v1 n 8 ty vd va mask (fun a => fromF ty (f (toF ty a))))

/-- VCMP (R125): one mask bit per lane; two BF16 elements that disagree leave it free (log entry 13). -/
def opVcmp (s : State) (n : Nat) (ty : VType) (md va vb mask cond : Nat) : State :=
  if md = 0 then s.illegalOp n else
    let a := s.readV n va
    let b := a.2.readV n vb
    let cs := (elemsOf ty a.1).zipWith (eCmp cond ty) (elemsOf ty b.1)
    let lane (i : Nat) : Bool :=
      match ty with
      | .bf16 =>
        let lo := cs.getD (2 * i) false
        let hi := cs.getD (2 * i + 1) false
        if lo == hi then lo else Config.bfCmpBit i lo hi
      | _ => cs.getD i false
    let v := lanes.foldl (fun v i => if lane i then v + 2 ^ i else v) 0
    b.2.later n 2 (.mask md (BitVec.ofNat 128 (b.2.maskBits n mask)) (BitVec.ofNat 128 v))

/-- VSEL (R125): MASK ≠ 0. -/
def opVsel (s : State) (n : Nat) (vd va vb mask : Nat) : State :=
  if mask = 0 then s.illegalOp n else
    let a := s.readV n va
    let b := a.2.readV n vb
    let m := s.vmask n mask
    b.2.laterV n 2 vd (2 ^ 128 - 1)
      (((lanes.zip a.1).zipWith (fun (p : Nat × Nat) y => if m.testBit p.1 then p.2 else y)) b.1)

/-! VCVT. -/

/-- One shift of the generator with the polynomial x^64 + x^63 + x^61 + x^60 + 1 (R147). DESIGN CHOICE (log entry 15): the register shifts to the left and
takes the sum of the tapped stages in at bit 0. -/
def lfsrStep (r : Word64) : Word64 :=
  (r <<< 1) ||| (if ((r.getLsbD 63 ^^ r.getLsbD 62) ^^ r.getLsbD 60) ^^ r.getLsbD 59 then 1 else 0)

def lfsrSteps : Nat → Word64 → Word64
  | 0, r => r
  | k + 1, r => lfsrSteps k (lfsrStep r)

/-- The next 16 bits of a tile's generator: 16 shifts, then 16 of the register's bits; which of them, R147 leaves open (log entry 15). -/
def rng (s : State) (n : Nat) : Nat × State :=
  let r := lfsrSteps 16 (s.tile n).lfsr
  ((List.range 16).foldl (fun a i => if r.getLsbD (Config.rngTap i).val then a + 2 ^ i else a) 0, s.modTile n fun t => { t with lfsr := r })

/-- Convert one value between types with a rounding of m / 2^d (R125, R127). -/
def cvt1 (src dst : VType) (rnd : Nat → Nat → Nat) (x : Nat) : Nat × VFlags :=
  let n : Num := if src = .int32 then Num.ofInt (sI x) else (fmtOf src).dec x
  match dst with
  | .int32 =>
    let out : Bool := match n with
      | .fin s m e =>
        let v : Int := if 0 ≤ e then m * 2 ^ e.toNat else rnd m (-e).toNat
        let v := if s then -v else v
        decide (v < -(2 ^ 31)) || decide (2 ^ 31 ≤ v)
      | _ => true
    if out then ((Config.cvtInt (if src = .bf16 then bfToF x else x)).toNat, 0) else (unsigned 32 (n.toInt 32 rnd), 0)
  | _ =>
    let f := fmtOf dst
    let y := match n with
      | .nan => f.nan
      | .inf s => f.inf s
      | .fin s m e => f.packWith rnd s m e
    (y, flagsOf f [n] y)

/-- Convert a list of values, drawing 16 bits for each in ascending order when the rounding is stochastic (R147). -/
def cvtList (s : State) (n : Nat) (src dst : VType) (stoch : Bool) (xs : List Nat) : List (Nat × VFlags) × State :=
  xs.foldl (fun acc x =>
    if stoch then
      let u := acc.2.rng n
      (acc.1 ++ [cvt1 src dst (stochRnd u.1) x], u.2)
    else (acc.1 ++ [cvt1 src dst rne x], acc.2)) ([], s)

/-- VCVT (R125): values keep their places when both types have as many; which element a lane takes between 256 and 128 is free (log entry 13). -/
def opVcvt (s : State) (n : Nat) (src dst : VType) (vd va mask : Nat) (stoch : Bool) : State :=
  let a := s.readV n va
  let es := elemsOf src a.1
  let es :=
    if src = .bf16 ∧ dst ≠ .bf16 then lanes.map (fun i => es.getD (Config.cvtWiden i).val 0)
    else if src ≠ .bf16 ∧ dst = .bf16 then (List.range 256).map (fun i => match Config.cvtNarrow i with | some l => es.getD l.val 0 | none => 0)
    else es
  let r := a.2.cvtList n src dst stoch es
  if src ≠ .bf16 ∧ dst = .bf16 then
    let out := ((List.range 256).zip r.1).map fun c =>
      match Config.cvtNarrow c.1 with
      | some _ => c.2
      | none => ((Config.cvtRest (elemsOf src a.1) c.1).toNat, 0)
    r.2.vDone n 3 dst vd mask out
  else r.2.vDone n 3 dst vd mask r.1

/-! Reductions and scans. -/

/-- The combined value of VRED: 0 SUM, 1 MAX, 2 MIN, 3 SUMSQ (R125, R128). -/
def vredValue (ty : VType) (op : Nat) (es : List Nat) : Nat :=
  let k := if ty = .bf16 then 8 else 7
  match ty with
  | .int32 => if op = 0 then treeFold (fun a b => low 32 (a + b)) k es else treeFold (fun a b => (eMaxMin (op == 2) .int32 a b).1) k es
  | _ =>
    let xs := es.map (toF ty)
    let r := if op = 0 then treeFold fadd k xs else if op = 3 then sumsq k xs else treeFold (fun a b => (fmaxmin f32 (op == 2) a b).1) k xs
    if ty = .bf16 then fToBf r else r

/-- VRED (R125, R128). -/
def opVred (s : State) (n : Nat) (ty : VType) (vd va mask op : Nat) : State :=
  if ty = .int32 ∧ op = 3 then s.illegalOp n else
    let a := s.readV n va
    let es := elemsOf ty a.1
    let x := vredValue ty op es
    let fl := if ty = .int32 then 0 else flagsOf (fmtOf ty) (es.map (fmtOf ty).dec) x
    let lane := if ty = .bf16 then x + 65536 * x else x
    (a.2.vecFlags n fl).laterV n 9 vd (a.2.maskBits n mask) (lanes.map (fun _ => lane))

/-- The end of a scan: lanes, and the last lane's result to VCARRY, 11 cycles after issue (R129). `ins i` holds the values that lane i is computed from:
they alone decide its flags (R127). -/
def scanDone (s : State) (n : Nat) (ty : VType) (vd mask : Nat) (ins : Nat → List Num) (rs : List Nat) : State :=
  let out := rs.map (fun x => (fromF ty (x, 0)).1)
  let fl := ((List.range out.length).zip out).foldl (fun a c => a ||| flagsOf (fmtOf ty) (ins c.1) c.2) 0
  ((s.vecFlags n fl).laterV n 11 vd (s.maskBits n mask) (lanesOf ty out)).later n 11 (.vcarry (BitVec.ofNat 32 (out.getLastD 0)))

/-- The carry-in of a scan (R125, R129). -/
def carryIn (s : State) (n : Nat) (ty : VType) (chain : Bool) : Nat :=
  if chain then toF ty (if ty = .bf16 then low 16 (s.get (Reg.VECTOR.VCARRY.VALUE n)) else s.get (Reg.VECTOR.VCARRY.VALUE n)) else 0

/-- VSCAN (R125, R128, R129). -/
def opVscan (s : State) (n : Nat) (ty : VType) (vd va mask : Nat) (chain : Bool) : State :=
  s.fpOnly n ty fun s =>
    let a := s.readV n va
    let xs := (elemsOf ty a.1).map (toF ty)
    let c := s.carryIn n ty chain
    let ns := (c :: xs).map f32.dec
    a.2.scanDone n ty vd mask (fun i => ns.take (i + 2)) (scanF xs c)

/-- VSCANL (R125, R128, R129). -/
def opVscanl (s : State) (n : Nat) (ty : VType) (vd va vb mask : Nat) (chain : Bool) : State :=
  s.fpOnly n ty fun s =>
    let a := s.readV n va
    let b := a.2.readV n vb
    let xs := (elemsOf ty a.1).map (toF ty)
    let ys := (elemsOf ty b.1).map (toF ty)
    let c := s.carryIn n ty chain
    let ns := (c :: xs).map f32.dec
    let ms := ys.map f32.dec
    b.2.scanDone n ty vd mask (fun i => ns.take (i + 2) ++ ms.take (i + 1)) (scanLF xs ys c)

/-! Loads, stores and broadcasts. -/

/-- The line of a VLD or VST: s[SA] + 64 × the signed IMM11. -/
def vecAddr (base : Nat) (imm : BitVec 11) : Nat := low 64 (base + 64 * (imm.signExtend 64).toNat)

/-- A line of the own store. -/
def lineOk (a : Nat) : Bool := decide (a % 64 = 0) && ownOk a 64

/-- VLD (R125, R88): 16 lanes of VD from a line; tracked, 3 cycles. -/
def opVld (s : State) (n vd sa part : Nat) (imm : BitVec 11) : State :=
  let b := s.readS n sa
  let ad := vecAddr b.1 imm
  let fill (bs : List Byte) : Result :=
    .vreg vd ((List.range 16).map fun i => (16 * part + i, BitVec.ofNat 32 (ofBytes ((bs.drop (4 * i)).take 4))))
  if !lineOk ad then b.2.trackOwn n 3 true (some vd) stUNMAPPED [fill []] none
  else
    let r := b.2.portARead uVECTOR n ad 64
    r.2.2.trackOwn n 3 true (some vd) r.1 [fill r.2.1] (some (ad, 64, 3))

/-- VST (R125): 16 lanes of a register to a line. -/
def opVst (s : State) (n v sa part : Nat) (imm : BitVec 11) : State :=
  let b := s.readS n sa
  let r := b.2.readV n v
  let ad := vecAddr b.1 imm
  if !lineOk ad then r.2.setErr (lanePg n)
  else r.2.portAWrite uVECTOR n ad (((r.1.drop (16 * part)).take 16).flatMap (toBytes 4))

/-- VBCAST (R125). -/
def opVbcast (s : State) (n : Nat) (ty : VType) (vd sa : Nat) : State :=
  let b := s.readS n sa
  let lane := if ty = .bf16 then low 16 b.1 * 65537 else low 32 b.1
  b.2.laterV n 2 vd (2 ^ 128 - 1) (lanes.map (fun _ => lane))

/-- VSETK (R125). -/
def opVsetk (s : State) (n k sa : Nat) : State :=
  let b := s.readS n sa
  b.2.later n 1 (.kreg k (BitVec.ofNat 32 b.1))

end State

/-! The commands. -/

/-- VADD (R125). -/
def execVadd (n : TileId) (ty : VType) (vd va vb : Reg) (mask : Fin 8) (s : State) : Res := s.slot n (·.opVadd n.val ty vd.val va.val vb.val mask.val)
/-- VSUB (R125). -/
def execVsub (n : TileId) (ty : VType) (vd va vb : Reg) (mask : Fin 8) (s : State) : Res := s.slot n (·.opVsub n.val ty vd.val va.val vb.val mask.val)
/-- VMUL (R125). -/
def execVmul (n : TileId) (ty : VType) (vd va vb : Reg) (mask : Fin 8) (s : State) : Res := s.slot n (·.opVmul n.val ty vd.val va.val vb.val mask.val)
/-- VFMA (R125). -/
def execVfma (n : TileId) (ty : VType) (vd va vb : Reg) (mask : Fin 8) (vc : Reg) (neg : Bool) (s : State) : Res :=
  s.slot n (·.opVfma n.val ty vd.val va.val vb.val mask.val vc.val neg)
/-- VMAX (R125). -/
def execVmax (n : TileId) (ty : VType) (vd va vb : Reg) (mask : Fin 8) (s : State) : Res := s.slot n (·.opVmax n.val ty vd.val va.val vb.val mask.val)
/-- VMIN (R125). -/
def execVmin (n : TileId) (ty : VType) (vd va vb : Reg) (mask : Fin 8) (s : State) : Res := s.slot n (·.opVmin n.val ty vd.val va.val vb.val mask.val)
/-- VLERP (R125). -/
def execVlerp (n : TileId) (ty : VType) (vd va vb : Reg) (mask : Fin 8) (k : Fin 16) (s : State) : Res :=
  s.slot n (·.opVlerp n.val ty vd.val va.val vb.val mask.val k.val)
/-- VRMS (R125, R127). -/
def execVrms (n : TileId) (ty : VType) (vd va vb : Reg) (mask : Fin 8) (k : Fin 16) (s : State) : Res :=
  s.slot n (·.opVrms n.val ty vd.val va.val vb.val mask.val k.val)
/-- VDIVE (R125, R127). -/
def execVdive (n : TileId) (ty : VType) (vd va vb : Reg) (mask : Fin 8) (k : Fin 16) (s : State) : Res :=
  s.slot n (·.opVdive n.val ty vd.val va.val vb.val mask.val k.val)
/-- VRCP (R127). -/
def execVrcp (n : TileId) (ty : VType) (vd va : Reg) (mask : Fin 8) (s : State) : Res := s.slot n (·.opVun n.val ty vd.val va.val mask.val vrcp)
/-- VRSQRT (R127). -/
def execVrsqrt (n : TileId) (ty : VType) (vd va : Reg) (mask : Fin 8) (s : State) : Res := s.slot n (·.opVun n.val ty vd.val va.val mask.val vrsqrt)
/-- VEXP2 (R127). -/
def execVexp2 (n : TileId) (ty : VType) (vd va : Reg) (mask : Fin 8) (s : State) : Res := s.slot n (·.opVun n.val ty vd.val va.val mask.val vexp2)
/-- VLOG2 (R127). -/
def execVlog2 (n : TileId) (ty : VType) (vd va : Reg) (mask : Fin 8) (s : State) : Res := s.slot n (·.opVun n.val ty vd.val va.val mask.val vlog2)
/-- VSQRT (R127). -/
def execVsqrt (n : TileId) (ty : VType) (vd va : Reg) (mask : Fin 8) (s : State) : Res := s.slot n (·.opVun n.val ty vd.val va.val mask.val vsqrt)
/-- VCMP (R125). -/
def execVcmp (n : TileId) (ty : VType) (md : Fin 8) (va vb : Reg) (mask : Fin 8) (cond : Fin 4) (s : State) : Res :=
  s.slot n (·.opVcmp n.val ty md.val va.val vb.val mask.val cond.val)
/-- VSEL (R125). -/
def execVsel (n : TileId) (ty : VType) (vd va vb : Reg) (mask : Fin 8) (s : State) : Res :=
  let _ := ty
  s.slot n (·.opVsel n.val vd.val va.val vb.val mask.val)
/-- VCVT (R125, R128, R147). -/
def execVcvt (n : TileId) (ty tt : VType) (vd va : Reg) (mask : Fin 8) (stoch : Bool) (s : State) : Res :=
  s.slot n (·.opVcvt n.val ty tt vd.val va.val mask.val stoch)
/-- VRED (R125, R128). -/
def execVred (n : TileId) (ty : VType) (vd va : Reg) (mask : Fin 8) (op : Fin 4) (s : State) : Res :=
  s.slot n (·.opVred n.val ty vd.val va.val mask.val op.val)
/-- VSCAN (R128, R129). -/
def execVscan (n : TileId) (ty : VType) (vd va : Reg) (mask : Fin 8) (chain : Bool) (s : State) : Res :=
  s.slot n (·.opVscan n.val ty vd.val va.val mask.val chain)
/-- VSCANL (R128, R129). -/
def execVscanl (n : TileId) (ty : VType) (vd va vb : Reg) (mask : Fin 8) (chain : Bool) (s : State) : Res :=
  s.slot n (·.opVscanl n.val ty vd.val va.val vb.val mask.val chain)
/-- VLD (R125). -/
def execVld (n : TileId) (ty : VType) (v : Reg) (sa : Reg) (part : Fin 8) (imm : BitVec 11) (s : State) : Res :=
  let _ := ty
  s.slot n (·.opVld n.val v.val sa.val part.val imm)
/-- VST (R125). -/
def execVst (n : TileId) (ty : VType) (v : Reg) (sa : Reg) (part : Fin 8) (imm : BitVec 11) (s : State) : Res :=
  let _ := ty
  s.slot n (·.opVst n.val v.val sa.val part.val imm)
/-- VBCAST (R125). -/
def execVbcast (n : TileId) (ty : VType) (vd sa : Reg) (s : State) : Res := s.slot n (·.opVbcast n.val ty vd.val sa.val)
/-- VSETK (R125). -/
def execVsetk (n : TileId) (k : Fin 16) (sa : Reg) (s : State) : Res := s.slot n (·.opVsetk n.val k.val sa.val)

end Sys2Proof.Machine
end

