-- ==== Sys2Proof/Machine/Quant.lean ====
section
/-! DEFINITION. Narrow arithmetic (chapter 05): code formats, scales, the de-quantiser, the quantiser with its statistics and monitors, VDQ and VQ. -/
namespace Sys2Proof.Machine

/-- Code formats (R133) by number: 0 INT4, 1 INT8, 2 FP4_E2M1, 3 FP6_E2M3, 4 FP6_E3M2, 5 FP8_E4M3, 6 FP8_E5M2, 7 BF16, 8 FP32. -/
def codeWidth (f : Nat) : Nat := [4, 8, 4, 6, 6, 8, 8, 16, 32].getD f 0

/-- Exponent bits, mantissa bits and bias of a floating code (R133). -/
def codeShape (f : Nat) : Nat × Nat × Nat :=
  match f with
  | 2 => (2, 1, 1) | 3 => (2, 3, 1) | 4 => (3, 2, 3) | 5 => (4, 3, 7) | _ => (5, 2, 15)

/-- CODEMAX as numerator and exponent: m × 2^e (R134). -/
def codeMax (f : Nat) : Nat × Int :=
  match f with
  | 0 => (7, 0) | 1 => (127, 0) | 2 => (6, 0) | 3 => (15, -1) | 4 => (28, 0) | 5 => (448, 0) | 6 => (57344, 0)
  | 7 => (255, 120) | _ => (2 ^ 24 - 1, 104)

/-- The value of a code (R133, R134). -/
def codeValue (f c : Nat) : Num :=
  match f with
  | 0 => Num.ofInt (signed 4 c)
  | 1 => Num.ofInt (signed 8 c)
  | 7 => bf16.dec c
  | 8 => f32.dec c
  | _ =>
    let (eb, mb, b) := codeShape f
    let s := c.testBit (eb + mb)
    let e := c / 2 ^ mb % 2 ^ eb
    let m := c % 2 ^ mb
    if f = 5 ∧ c % 128 = 127 then .nan
    else if f = 6 ∧ e = 31 then (if m = 0 then .inf s else .nan)
    else if e = 0 then .fin s m (1 - b - mb : Int) else .fin s (2 ^ mb + m) ((e : Int) - b - mb)

/-- The value of a scale byte (R136): 0 NONE, 1 E8M0, 2 UE4M3. -/
def scaleValue (sf b : Nat) : Num :=
  match sf with
  | 1 => if b = 255 then .nan else .fin false 1 ((b : Int) - 127)
  | 2 =>
    if b ≥ 127 then .nan
    else if b / 8 = 0 then .fin false (b % 8) (-9) else .fin false (8 + b % 8) ((b / 8 : Nat) - 7 - 3 : Int)
  | _ => .fin false 1 0

/-- Formats and scale formats that may stand together (R133, R136, R164). -/
def fmtOk (f sf : Nat) (fp32 : Bool) : Bool :=
  decide (f ≤ 7) && (if f = 7 then sf == 0 else sf == 1 || sf == 2) || fp32 && f == 8 && sf == 0

/-- Elements in a group (R137). -/
def groupSize (g : Nat) : Nat := 32 * 2 ^ g

/-- Element i of a row of codes packed without gaps (R135). -/
def codeAt (w i : Nat) (row : Nat) : Nat := row / 2 ^ (w * i) % 2 ^ w

/-- Codes packed as bytes (R135). -/
def packCodes (w : Nat) (cs : List Nat) : List Byte :=
  toBytes ((w * cs.length + 7) / 8) (((List.range cs.length).zip cs).foldl (fun n c => n + c.2 * 2 ^ (w * c.1)) 0)

/-! The de-quantiser. -/

/-- De-quantise a code with a scale: BF16 pattern, whether the range rule changed it, whether it is a NaN result (R138 to R140). -/
def dequant (f sf c sc : Nat) : Nat × Bool × Bool :=
  let x := codeValue f c
  let y := scaleValue sf sc
  match x, y with
  | .nan, _ => (0x7FC0, false, true)
  | _, .nan => (0x7FC0, false, true)
  | .inf s, y => if y.isZero then (0x7FC0, false, true) else (bf16.inf s, false, false)
  | .fin s m e, y =>
    match (Num.fin s m e).mul y with
    | .fin s m e =>
      let v := bf16.pack s m e
      let sg := if s then 0x8000 else 0
      if m = 0 then (sg, false, false)
      else if v % 0x8000 ≥ 0x7F80 ∨ Num.lt (.fin false 255 120) (.fin false m e) then (sg + 0x7F7F, true, false)
      else if Num.lt (.fin false m e) (.fin false 1 (-126)) then (v, !Num.eqv (bf16.dec v) (.fin s m e), false)
      else (v, false, false)
    | _ => (0x7FC0, false, true)

/-! The quantiser. -/

/-- a/b as a pair of naturals for ± (m / m') × 2^e. -/
def ratio (m m' : Nat) (e : Int) : Nat × Nat := if e ≥ 0 then (m * 2 ^ e.toNat, m') else (m, m' * 2 ^ (-e).toNat)

/-- ⌊log2 (a / b)⌋ for a, b > 0. -/
def floorLog2 (a b : Nat) : Int :=
  let k : Int := (bitLen a : Int) - bitLen b
  if a * 2 ^ (-k).toNat ≥ b * 2 ^ k.toNat then k else k - 1

/-- ⌈log2 (a / b)⌉. -/
def ceilLog2 (a b : Nat) : Int :=
  let k := floorLog2 a b
  if a * 2 ^ (-k).toNat = b * 2 ^ k.toNat then k else k + 1

/-- a/b rounded to an integer: nearest even, or stochastically with 16 random bits (R146). -/
def roundRatio (stoch : Bool) (u a b : Nat) : Nat :=
  let q := a / b
  let r := a % b
  if stoch then (if u < r * 65536 / b then q + 1 else q)
  else if 2 * r > b then q + 1 else if 2 * r = b then q + q % 2 else q

/-- The code magnitude of a quotient a/b that is not clipped (R145, R146). -/
def codeMag (f : Nat) (stoch : Bool) (u a b : Nat) : Nat :=
  if f ≤ 1 then roundRatio stoch u a b
  else if a = 0 then 0
  else
    let (_, mb, bias) := codeShape f
    let emin : Int := 1 - bias
    let e := max (floorLog2 a b) emin
    let q : Int := e - mb
    let n := roundRatio stoch u (a * 2 ^ (-q).toNat) (b * 2 ^ q.toNat)
    if n < 2 ^ mb then n else (e - emin + 1).toNat * 2 ^ mb + (n - 2 ^ mb)

/-- A code of sign and magnitude (R133): two's complement for integers. -/
def signCode (f : Nat) (neg : Bool) (mag : Nat) : Nat :=
  let w := codeWidth f
  if f ≤ 1 then (if neg then (2 ^ w - mag) % 2 ^ w else mag) else mag + (if neg then 2 ^ (w - 1) else 0)

/-- The magnitude code of CODEMAX. -/
def maxCode (f : Nat) : Nat := [7, 127, 7, 31, 31, 126, 123].getD f 0

/-- |x| / scale as a ratio, for finite x and a finite scale that is not zero. -/
def quotient (m : Nat) (e : Int) (sc : Num) : Nat × Nat :=
  match sc with
  | .fin _ ms es => ratio m (max ms 1) (e - es)
  | _ => (0, 1)

/-- Whether a/b exceeds CODEMAX. -/
def overMax (f a b : Nat) : Bool :=
  let (cm, ce) := codeMax f
  let (p, q) := ratio cm 1 ce
  decide (p * b < a * q)

/-- One value quantised (R145, R146): code, clipped, NaN written as zero; which of the two NaN codes of an 8-bit format is free (log entry 15). -/
def quantOne (f : Nat) (stoch : Bool) (u : Nat) (pat : Nat) (x sc : Num) : Nat × Bool × Bool :=
  if f = 7 then (bf16.enc x, false, false)
  else if f = 8 then (f32.enc x, false, false)
  else
    match x with
    | .nan =>
      let neg := if Config.quantNanNeg pat then 0x80 else 0
      if f = 5 then (0x7F + neg, false, false) else if f = 6 then (0x7E + neg, false, false) else (0, false, true)
    | .inf s => (signCode f s (maxCode f), true, false)
    | .fin s m e =>
      let (a, b) := quotient m e sc
      if overMax f a b then (signCode f s (maxCode f), true, false) else (signCode f s (codeMag f stoch u a b), false, false)

/-- The amax of a group as an FP32 pattern (R143). -/
def groupAmax (xs : List Nat) : Nat :=
  xs.foldl (fun m x => if (f32.dec x).isNan then m else max m (x % 0x80000000)) 0

/-- A UE4M3 byte of 2^e clamped to -9..8 (R144). -/
def ueOfExp (e : Int) : Nat :=
  let e := max (-9) (min 8 e)
  if e ≥ -6 then (e + 7).toNat * 8 else 2 ^ (e + 9).toNat

/-- The smallest UE4M3 byte whose value is not below a/b; the largest when none is. -/
def ueCeil (a b : Nat) : Nat :=
  ((List.range 126).find? (fun c => match scaleValue 2 (c + 1) with
    | .fin _ m e => let (p, q) := ratio m 1 e; decide (a * q ≤ p * b)
    | _ => false)).map (· + 1) |>.getD 126

/-- A UE4M3 byte scaled by 2^-D, clamped to 2^-9 … 448; which neighbour it takes between two is free (R144). -/
def ueShift (c : Nat) (d : Int) : Nat :=
  match scaleValue 2 c with
  | .fin _ m e =>
    let (a, b) := ratio m 1 (e - d)
    let hi := ueCeil a b
    match scaleValue 2 hi with
    | .fin _ m' e' =>
      let (p, q) := ratio m' 1 e'
      if a * q = p * b ∨ a * q > p * b then hi else if Config.ueRound m (e - d) || hi ≤ 1 then hi else hi - 1
    | _ => hi
  | _ => c

/-- The scale byte of a group (R144); 0 when the format is NONE. -/
def groupScale (q : QCfg) (amax : Nat) : Nat :=
  let clampE (e : Int) : Nat := (max (-127) (min 127 e) + 127).toNat
  if q.sfmt = 0 then 0
  else if q.smode = 0 then (if q.sfmt = 1 then clampE (q.base - q.d) else ueOfExp (q.base - q.d))
  else
    match f32.dec amax with
    | .inf _ => if q.sfmt = 1 then 254 else 126
    | .fin _ m e =>
      if m = 0 then (if q.sfmt = 1 then 0 else 1)
      else
        let (cm, ce) := codeMax q.fmt
        let (a, b) := ratio m cm (e - ce)
        if q.sfmt = 1 then clampE (ceilLog2 a b - q.d) else ueShift (ueCeil a b) q.d
    | .nan => 0

namespace State

/-- A channel's configuration as it stands (R155). -/
def chanCfg (s : State) (n c : Nat) : QCfg :=
  { ch := c, fmt := s.get (Reg.QUANT.CH_CFG.FMT n c), sfmt := s.get (Reg.QUANT.CH_CFG.SFMT n c), gsize := s.get (Reg.QUANT.CH_CFG.GSIZE n c),
    rnd := s.get (Reg.QUANT.CH_CFG.RND n c), smode := s.get (Reg.QUANT.CH_CFG.SMODE n c),
    base := signed 8 (s.get (Reg.QUANT.CH_EXP.BASE n c)), d := signed 8 (s.get (Reg.QUANT.CH_EXP.D n c)),
    mons := (List.range 8).filter fun k => s.flag (Reg.STATS.MSE_CFG.EN n k) && s.get (Reg.STATS.MSE_CFG.CH n k) == c }

/-- A channel's clip share (R149). The register has 16 bits: it reads 65,535 for a share of 65,536 (DESIGN CHOICE, log entry 15). -/
def chShare (s : State) (n c : Nat) : Nat :=
  let v := s.get (Reg.QUANT.CH_VAL.CNT n c)
  if v = 0 then 0 else s.get (Reg.QUANT.CH_CLIP.CNT n c) * 65536 / v

/-- CLIP (R168): the share first exceeds the target of the bound tensor since the last retune. -/
def clipCause (s : State) (n c : Nat) : State :=
  if s.flag (Reg.QUANT.CH_CFG.BOUND n c) && !(s.tile n).clipSeen.contains c
      && decide (s.get (Reg.SCALE.T_CFG.TARGET (s.get (Reg.QUANT.CH_CFG.TENSOR n c))) < s.chShare n c) then
    (s.modTile n fun t => { t with clipSeen := c :: t.clipSeen }).cause (tilePg n 6) 6
  else s

/-- One value of a monitor (R150): exact error and square, each sum rounded to FP64. -/
def monitor (s : State) (n : Nat) (ks : List Nat) (x qx : Num) : State :=
  let d := x.add qx.neg
  ks.foldl (fun s k =>
    let acc (f : Field) (t : Num) (s : State) : State := s.put f (f64.enc ((f64.dec (s.get f)).add t))
    acc (Reg.STATS.MSE_SQ.SUM n k) (x.mul x) (acc (Reg.STATS.MSE_ERR.SUM n k) (d.mul d) s)) s

/-- CLIP after a write of counts, bindings or targets (R168): every channel of tile n is looked at. -/
def clipCauses (s : State) (n : Nat) : State := (List.range 16).foldl (fun s c => s.clipCause n c) s

/-- One group of FP32 values quantised (R143): codes, scale byte, statistics and monitors. DESIGN CHOICE (log entry 15): clipped values and infinities draw
their random bits, a NaN draws none. -/
def quantGroup (s : State) (n : Nat) (q : QCfg) (xs : List Nat) : List Nat × Nat × State :=
  let amax := groupAmax xs
  let sc := groupScale q amax
  let scv := scaleValue q.sfmt sc
  let stoch := q.rnd == 1 && q.fmt < 7
  let r := xs.foldl (fun (acc : List Nat × Nat × Nat × State) x =>
    let nx := f32.dec x
    let u := if stoch && !nx.isNan then acc.2.2.2.rng n else (0, acc.2.2.2)
    let c := quantOne q.fmt stoch u.1 x nx scv
    let s := if nx.isNan then (if c.2.2 then u.2.bump (Reg.QUANT.CH_QNAN.CNT n q.ch) else u.2)
      else u.2.monitor n q.mons nx ((codeValue q.fmt c.1).mul scv)
    (acc.1 ++ [c.1], acc.2.1 + (if nx.isNan then 0 else 1), acc.2.2.1 + (if c.2.1 then 1 else 0), s)) ([], 0, 0, s)
  let s := r.2.2.2
  let s := s.put (Reg.QUANT.CH_AMAX.AMAX n q.ch) (max (s.get (Reg.QUANT.CH_AMAX.AMAX n q.ch)) amax)
  let s := (s.add (Reg.QUANT.CH_VAL.CNT n q.ch) r.2.1).add (Reg.QUANT.CH_CLIP.CNT n q.ch) r.2.2.1
  (r.1, sc, s.clipCause n q.ch)

/-- De-quantise a list of codes, counting range events and NaN results (R139, R140, R168). -/
def dequantList (s : State) (n f sf : Nat) (cs : List (Nat × Nat)) : List Nat × State :=
  let rs := cs.map (fun c => dequant f sf c.1 c.2)
  let k := (rs.filter (·.2.1)).length
  let m := (rs.filter (·.2.2)).length
  let s := if k = 0 then s else (s.add (Reg.QUANT.DQ_RANGE_CNT.CNT n) k).cause (tilePg n 6) 4
  let s := if m = 0 then s else (s.add (Reg.QUANT.DQ_NAN_CNT.CNT n) m).cause (tilePg n 6) 5
  (rs.map (·.1), s)

/-- VDQ (R126, R138 to R140): 256 codes packed from byte 0 of VA, scales from bytes 0 to 7 of VB. -/
def opVdq (s : State) (n vd va vb mask : Nat) : State :=
  let q := s.chanCfg n (s.get (Reg.QUANT.VQ_SEL.CH n))
  if !fmtOk q.fmt q.sfmt false || q.gsize = 3 then s.illegalOp n
  else
    let a := s.readV n va
    let b := a.2.readV n vb
    let row := ofBytes (a.1.flatMap (toBytes 4))
    let scs := b.1.flatMap (toBytes 4)
    let w := codeWidth q.fmt
    let cs := (List.range 256).map fun i => (codeAt w i row, (scs.getD (i / groupSize q.gsize) 0).toNat)
    let r := b.2.dequantList n q.fmt q.sfmt cs
    r.2.laterV n 5 vd (r.2.maskBits n mask) (joinPairs r.1)

/-- VQ (R126, R143): 256 BF16 elements of VA to codes packed from byte 0 of VD, group scales to bytes 0 to 7 of VB. -/
def opVq (s : State) (n vd va vb mask : Nat) : State :=
  let q := s.chanCfg n (s.get (Reg.QUANT.VQ_SEL.CH n))
  if !fmtOk q.fmt q.sfmt false || q.gsize = 3 || q.rnd > 1 then s.illegalOp n
  else
    let a := s.readV n va
    let es := (elemsOf .bf16 a.1).map bfToF
    let g := groupSize q.gsize
    let r := (List.range (256 / g)).foldl (fun (acc : List Nat × List Byte × State) i =>
      let c := acc.2.2.quantGroup n q ((es.drop (g * i)).take g)
      (acc.1 ++ c.1, acc.2.1 ++ [BitVec.ofNat 8 c.2.1], c.2.2)) ([], [], a.2)
    let bs := packCodes (codeWidth q.fmt) r.1
    let vals := (List.range 128).map fun i => ofBytes ((bs.drop (4 * i)).take 4)
    let s := r.2.2.laterV n 6 vd (r.2.2.maskBits n mask) vals
    if q.sfmt = 0 then s else s.later n 6 (.vbytes vb r.2.1)

end State

/-- VDQ (R126). -/
def execVdq (n : TileId) (vd va vb : Reg) (mask : Fin 8) (s : State) : Res := s.slot n (·.opVdq n.val vd.val va.val vb.val mask.val)
/-- VQ (R126, R143 to R146). -/
def execVq (n : TileId) (vd va vb : Reg) (mask : Fin 8) (s : State) : Res := s.slot n (·.opVq n.val vd.val va.val vb.val mask.val)

/-- RNG_SEED (R147): the commit of a seed; a write reloads the generator at once. -/
def actRngSeed (src : Source) (n : TileId) (v : Word64) (s : State) : Res :=
  let _ := src
  if !s.pageUp (pageAt (tilePg n.val 6)) then .next s
  else .next ((s.put (Reg.QUANT.RNG_SEED.SEED n.val) v.toNat).modTile n.val fun t => { t with lfsr := if v = 0 then 1 else v })

end Sys2Proof.Machine
end

