-- ==== Sys2Proof/Machine/Array.lean ====
section
/-! DEFINITION. The matrix array of a tile (R141, R142, R158 to R167): LDW, SWAPW, MAC, OUT, CLR, and the results that a launch period brings. -/
namespace Sys2Proof.Machine
namespace State

/-- Change a tile's array. -/
def modArr (s : State) (n : Nat) (f : ArrayS → ArrayS) : State := s.modTile n fun t => { t with arr := f t.arr }

/-- One line or part of a line read as an array operand: each word that is uncorrectable, or in a bank that is not ON, is zero (R115, R119). -/
def arrayLine (s : State) (n ofs len : Nat) : List Byte × State :=
  let a := own n ofs
  match bankAt a with
  | none => (List.replicate len 0, s)
  | some (u, b, _) =>
    if !s.bankOn u b then (List.replicate len 0, s.bankSkip n)
    else
      let r := (s.checkWords (wordsOf a len) uARRAY 0).2
      r.tainted n a ((List.range len).map (fun i => if s.wordErr ((a + i) / 8) == 2 then 0 else r.byte (a + i)))

/-- 64 codes of a row or column: one line, or two lines 0x3_0000 apart for BF16 (R160). -/
def arrayRow (s : State) (n ofs f : Nat) : List Nat × State :=
  let w := codeWidth f
  if f = 7 then
    let a := s.arrayLine n ofs 64
    let b := a.2.arrayLine n (ofs + 0x30000) 64
    let row := ofBytes (a.1 ++ b.1)
    ((List.range 64).map (fun i => codeAt w i row), b.2)
  else
    let a := s.arrayLine n ofs (8 * w)
    let row := ofBytes a.1
    ((List.range 64).map (fun i => codeAt w i row), a.2)

/-- 64 operands as BF16: codes with the scale of their group of 32 or of all 64. -/
def widen (s : State) (n f sf g : Nat) (cs : List Nat) (scs : List Byte) : List Nat × State :=
  s.dequantList n f sf (((List.range 64).zip cs).map fun c => (c.2, (scs.getD (if g = 0 then c.1 / 32 else 0) 0).toNat))

/-- The weight of column j, K index k, of a block. -/
def weight (b : Block) (j k : Nat) : Nat := (getAt 0 (64 * j + k) b.w).toNat

def activeBlock (s : State) (n : Nat) : Block := if (s.tile n).arr.active = 0 then (s.tile n).arr.blk0 else (s.tile n).arr.blk1

/-- An FP32 product of two BF16 operands (R141). -/
def cellMul (a b : Nat) : Nat := f32.enc ((bf16.dec a).mul (bf16.dec b))

/-- The 32 tree sums of a row with a block (R141, R142). -/
def treeSums (b : Block) (row : List Nat) : List Word32 :=
  (List.range 32).map fun j => BitVec.ofNat 32 (treeFold fadd 6 (((List.range 64).zip row).map fun c => cellMul c.2 (weight b j c.1)))

/-- A row of A arrives at the cells at a time (R159 to R162): its sums are in the accumulator 8 cycles later. -/
def runMacRow (s : State) (n time addr scl f sf g row : Nat) (ovw : Bool) : State :=
  let a := s.arrayRow n addr f
  let c := if sf = 0 then ([], a.2) else a.2.arrayLine n scl (if g = 0 then 2 else 1)
  let r := c.2.widen n f sf g a.1 c.1
  (r.2.add (Reg.ARRAY.MAC_ROWS.CNT n) 1).laterAt n time 8 (.accRow row (treeSums (r.2.activeBlock n) r.1) ovw)

/-- OUT reads an accumulator row at a time; the group's last row is followed by the quantiser and the stores (R143, R161). -/
def runDrain (s : State) (n time row : Nat) (last : Bool) (q : QCfg) (ofs scl lat : Nat) : State :=
  let vals := (List.range 32).map fun c => BitVec.ofNat 32 (s.accCell n row c)
  let s := s.modArr n fun a => { a with outBuf := a.outBuf ++ vals }
  if !last then s
  else
    let xs := (s.tile n).arr.outBuf.map (·.toNat)
    let s := s.modArr n fun a => { a with outBuf := [] }
    let r := s.quantGroup n q xs
    let bs := packCodes (codeWidth q.fmt) r.1
    let s := if q.fmt = 8 then (r.2.2.laterAt n time lat (.store ofs (bs.take 64))).laterAt n time lat (.store (ofs + 0x30000) (bs.drop 64))
      else r.2.2.laterAt n time lat (.store ofs bs)
    if q.sfmt = 0 then s else s.laterAt n time lat (.store scl [BitVec.ofNat 8 r.2.1])

/-- A due result: plain ones are written, the array's steps are taken. -/
def takeResult (s : State) (n : Nat) (d : Due) : State :=
  match d.res with
  | .macRow a c f sf g row ovw => s.runMacRow n d.at' a c f sf g row ovw
  | .drain row last q o c lat => s.runDrain n d.at' row last q o c lat
  | r => s.writeResult n r

/-- A step of the array that reads: it comes after the results written in the same period. -/
def lateResult : Result → Bool
  | .macRow .. => true
  | .drain .. => true
  | _ => false

/-- The results due by a time, in issue order; the array reads after the writes that are due (R123, R165). -/
def commitTo (s : State) (n time : Nat) : State :=
  let t := s.tile n
  let now := t.due.filter (fun d => decide (d.at' ≤ time))
  let s := s.setTile n { t with due := t.due.filter (fun d => decide (time < d.at')), landed := t.landed ++ now.flatMap fun d => (resultKeys d.res).map fun k => (k, d.since) }
  (now.filter (fun d => !lateResult d.res) ++ now.filter (fun d => lateResult d.res)).foldl (fun s d => s.takeResult n d) s

/-- Results whose launch period has come: those of its first CCLK cycle follow what was due in the cycle before (R75, R123, R165). -/
def commitDue (s : State) (n : Nat) : State :=
  let s := s.modTile n fun t => { t with landed := [] }
  (s.commitTo n (s.issueTime - 1)).commitTo n s.issueTime

/-- Busy until: the launch period from which a sub-unit accepts its next operation. -/
def busyTill (s : State) (n lat : Nat) : Nat := s.issue.period + s.periods n lat

/-- A deferred SWAPW takes effect once the streamer is free (R163). -/
def settleSwap (s : State) (n : Nat) : State :=
  let a := (s.tile n).arr
  if a.swapPend && decide (a.streamerFree ≤ s.issue.period) then s.modArr n fun a => { a with active := 1 - a.active, swapPend := false } else s

/-- A fault of the array (R163, R164): the first one is recorded until ERR is cleared; ERR and FAULT. -/
def arrFault (s : State) (n code aop desc : Nat) : State :=
  let s := if s.get (Reg.ARRAY.ARR_FAULT.CODE n) ≠ 0 then s
    else (((s.put (Reg.ARRAY.ARR_FAULT.CODE n) code).put (Reg.ARRAY.ARR_FAULT.DESC n) desc).put (Reg.ARRAY.ARR_FAULT.AOP n) aop).put
      (Reg.ARRAY.ARR_FAULT.INDEX n) (s.laneIndex n)
  s.causeErr (tilePg n 5) 4

/-- The faults of R163: LANE_HAZARD halts the stream as well. -/
def arrHazard (s : State) (n code aop desc : Nat) : State := (s.arrFault n code aop desc).hazard n

/-- Lines of an operand in the store (R164): aligned, and below 0x30_0000 with the second line of BF16 or FP32. -/
def linesOk (addrs : List Nat) (two : Bool) : Bool := addrs.all fun a => decide (a + (if two then 0x30000 else 0) + 64 ≤ 0x300000)

/-- LDW (R159 to R164). -/
def opLdw (s : State) (n d : Nat) : State :=
  let s := s.settleSwap n
  let f := s.get (Reg.ARRAY.DESC_W0.B_FMT n d)
  let sf := s.get (Reg.ARRAY.DESC_W0.B_SFMT n d)
  let g := s.get (Reg.ARRAY.DESC_W0.GSIZE n d)
  let ba := s.get (Reg.ARRAY.DESC_W4.B_ADDR n d)
  let bs := s.get (Reg.ARRAY.DESC_W5.B_SCL n d)
  let two := f == 7
  let arr := (s.tile n).arr
  if !s.isEnabled (tilePg n 5) then s.arrFault n 5 1 d
  else if s.issue.period < arr.loaderFree || arr.swapPend then s.arrHazard n 6 1 d
  else if !fmtOk f sf false || g = 3 then s.arrFault n 1 1 d
  else if ba % 64 ≠ 0 || (sf ≠ 0 && bs % 64 ≠ 0) then s.arrFault n 2 1 d
  else if !linesOk ((List.range 32).map (fun j => ba + 64 * j)) two || (sf ≠ 0 && !linesOk [bs] false) then s.arrFault n 3 1 d
  else
    let k := if sf = 0 then ([], s) else s.arrayLine n bs 64
    let r := (List.range 32).foldl (fun (acc : List (Nat × BitVec 16) × State) j =>
      let c := acc.2.arrayRow n (ba + 64 * j) f
      let w := c.2.widen n f sf g c.1 (if g = 0 then (k.1.drop (2 * j)).take 2 else (k.1.drop j).take 1)
      (acc.1 ++ (((List.range 64).zip w.1).filterMap fun x => if x.2 = 0 then none else some (64 * j + x.1, BitVec.ofNat 16 x.2)), w.2)) ([], k.2)
    let cyc := 32 * (if two then 2 else 1) + (if sf = 0 then 0 else 1)
    let s := r.2.modArr n fun a => { a with loaderFree := r.2.busyTill n cyc }
    s.later n (cyc + 3) (.block (1 - arr.active) ⟨r.1, some g⟩)

/-- SWAPW (R159, R163). DESIGN CHOICE (log entry 15): a second SWAPW while one is deferred changes nothing more; R163 gives it no outcome. -/
def opSwapw (s : State) (n : Nat) : State :=
  let s := s.settleSwap n
  let arr := (s.tile n).arr
  if !s.isEnabled (tilePg n 5) then s.arrFault n 5 2 0
  else if s.issue.period < arr.loaderFree then s.arrHazard n 7 2 0
  else if s.issue.period < arr.streamerFree then s.modArr n fun a => { a with swapPend := true }
  else s.modArr n fun a => { a with active := 1 - a.active }

/-- The cycles by which reads of A_SCL lines in a bank of the operation's rows have delayed row r (R162): one for each such line up to the row's scales. -/
def sclDelay (rows : List Nat) (sf sc per r : Nat) : Nat :=
  if sf = 0 then 0
  else
    let lo := sc / 64
    let hi := (sc + per * (r + 1) - 1) / 64
    ((List.range (hi + 1 - lo)).filter fun i => rows.any fun a => a / 0x30000 == 64 * (lo + i) / 0x30000).length

/-- MAC of k rows (R159 to R164): row r is read r cycles after issue, later by the delays of R162. DESIGN CHOICE (log entry 15): with no block loaded since
reset no GSIZE can agree, and the MAC is not performed. -/
def opMac (s : State) (n d k : Nat) : State :=
  let s := s.settleSwap n
  let f := s.get (Reg.ARRAY.DESC_W0.A_FMT n d)
  let sf := s.get (Reg.ARRAY.DESC_W0.A_SFMT n d)
  let g := s.get (Reg.ARRAY.DESC_W0.GSIZE n d)
  let aa := s.get (Reg.ARRAY.DESC_W1.A_ADDR n d)
  let st := 64 * s.get (Reg.ARRAY.DESC_W2.A_STRIDE n d)
  let sc := s.get (Reg.ARRAY.DESC_W3.A_SCL n d)
  let base := s.get (Reg.ARRAY.DESC_W6.ACC_BASE n d)
  let ovw := s.flag (Reg.ARRAY.DESC_W0.OVW n d)
  let per := if g = 0 then 2 else 1
  let arr := (s.tile n).arr
  if !s.isEnabled (tilePg n 5) then s.arrFault n 5 3 d
  else if s.issue.period < arr.streamerFree then s.arrHazard n 6 3 d
  else if !fmtOk f sf false || g = 3 then s.arrFault n 1 3 d
  else if aa % 64 ≠ 0 then s.arrFault n 2 3 d
  else if !linesOk ((List.range k).map (fun r => aa + st * r)) (f == 7) || (sf ≠ 0 && sc + per * k > 0x300000) || base + k > 512 then s.arrFault n 3 3 d
  else if (s.activeBlock n).gsize ≠ some g then s.arrFault n 4 3 d
  else
    let lines := (List.range k).flatMap fun r => (aa + st * r) :: (if f = 7 then [aa + st * r + 0x30000] else [])
    let delay (r : Nat) : Nat := sclDelay lines sf sc per r
    let s := s.modArr n fun a => { a with streamerFree := s.busyTill n (k + delay (k - 1)) }
    (List.range k).foldl (fun s r =>
      if r + delay r = 0 then s.runMacRow n s.issueTime aa sc f sf g base ovw
      else s.later n (r + delay r) (.macRow (aa + st * r) (sc + per * r) f sf g (base + r) ovw)) s

/-- CLR of k rows (R159, R162). -/
def opClr (s : State) (n d k : Nat) : State :=
  let s := s.settleSwap n
  let base := s.get (Reg.ARRAY.DESC_W6.ACC_BASE n d)
  if !s.isEnabled (tilePg n 5) then s.arrFault n 5 5 d
  else if s.issue.period < (s.tile n).arr.streamerFree then s.arrHazard n 6 5 d
  else if base + k > 512 then s.arrFault n 3 5 d
  else
    let s := s.modArr n fun a => { a with streamerFree := s.busyTill n k }
    (List.range k).foldl (fun s i => s.later n (i + 2) (.accRow (base + i) (List.replicate 32 0) true)) s

/-- OUT of k groups (R159 to R164): the channel is latched, row i of group r is read r × G/32 + i cycles after issue. -/
def opOut (s : State) (n d k : Nat) : State :=
  let q := s.chanCfg n (s.get (Reg.ARRAY.DESC_W0.QCH n d))
  let base := s.get (Reg.ARRAY.DESC_W6.ACC_BASE n d)
  let gs := s.get (Reg.ARRAY.DESC_W6.GSTRIDE n d)
  let oa := s.get (Reg.ARRAY.DESC_W7.OUT_ADDR n d)
  let st := 64 * s.get (Reg.ARRAY.DESC_W2.OUT_STRIDE n d)
  let os := s.get (Reg.ARRAY.DESC_W8.OUT_SCL n d)
  let wide := decide (q.fmt ≥ 7)
  let parts := if wide then 1 else 2 ^ q.gsize
  let len := codeWidth q.fmt * 32 * parts / 8
  let rows := (List.range k).flatMap fun r => (List.range parts).map fun i => (r, i, base + r + i * gs)
  let total := k * parts + 6
  if !s.isEnabled (tilePg n 5) then s.arrFault n 5 4 d
  else if s.issue.period < (s.tile n).arr.drainerFree then s.arrHazard n 6 4 d
  else if !fmtOk q.fmt q.sfmt true || (!wide && q.gsize = 3) || q.rnd > 1 then s.arrFault n 1 4 d
  else if oa % 64 ≠ 0 then s.arrFault n 2 4 d
  else if (List.range k).any (fun r => oa + st * r + (if q.fmt = 8 then 0x30040 else max len 64) > 0x300000)
      || (q.sfmt ≠ 0 && os + k > 0x300000) || rows.any (fun x => x.2.2 > 511) then s.arrFault n 3 4 d
  else
    let s := s.modArr n fun a => { a with drainerFree := s.busyTill n (k * parts) }
    rows.foldl (fun s x =>
      let c := x.1 * parts + x.2.1
      let last := x.2.1 + 1 == parts
      if c = 0 then s.runDrain n s.issueTime x.2.2 last q (oa + st * x.1) (os + x.1) total
      else s.later n c (.drain x.2.2 last q (oa + st * x.1) (os + x.1) (total - c))) s

end State

/-- LDW (R159). -/
def execLdw (n : TileId) (d : Fin 16) (s : State) : Res := s.slot n (·.opLdw n.val d.val)
/-- SWAPW (R163). -/
def execSwapw (n : TileId) (s : State) : Res := s.slot n (·.opSwapw n.val)
/-- SWAPW_DEFERRED (R163): a deferred SWAPW takes effect in the first period in which the streamer is free. -/
def execSwapwDeferred (n : TileId) (s : State) : Res := s.slot n (·.settleSwap n.val)
/-- MAC of k + 1 rows (R159). -/
def execMac (n : TileId) (d : Fin 16) (k : BitVec 8) (s : State) : Res := s.slot n (·.opMac n.val d.val (k.toNat + 1))
/-- OUT of k + 1 groups (R161). -/
def execOut (n : TileId) (d : Fin 16) (k : BitVec 8) (s : State) : Res := s.slot n (·.opOut n.val d.val (k.toNat + 1))
/-- CLR of k + 1 accumulator rows (R159). -/
def execClr (n : TileId) (d : Fin 16) (k : BitVec 8) (s : State) : Res := s.slot n (·.opClr n.val d.val (k.toNat + 1))

end Sys2Proof.Machine
end

