-- ==== Sys2Proof/Machine/Power.lean ====
section
/-! DEFINITION. Power domains, votes, clocks, throttling and the watch state (chapter 14). -/
namespace Sys2Proof.Machine

namespace State

/-! Votes and enables. -/

/-- The enable word and bit of a domain in DOM_EN and LOW (R446). -/
def domWord (d : Nat) : Nat × Nat := if d < 320 then (d / 32, d % 32) else (10, d - 320)

/-- The domain's own enable; the crown and the always-on domain have none (R446). -/
def ownEnable (s : State) (d : Nat) : Bool :=
  if d ≥ 323 then true else (s.get (Reg.POWER.DOM_EN.EN (domWord d).1)).testBit (domWord d).2

/-- The low state a domain is programmed for. -/
def lowOff (s : State) (d : Nat) : Bool := (s.get (Reg.POWER.LOW.OFF (domWord d).1)).testBit (domWord d).2

/-- The vote register of a domain (R447). -/
def voteField (d : Nat) : Field :=
  if d < 256 then Reg.HDR.BLK_VOTE.VOTE (tilePg d 0)
  else if d < 320 then Reg.HDR.BLK_VOTE.VOTE (slicePg (d - 256))
  else if d = 320 then Reg.POWER.VOTE_FAB_W.VOTE
  else if d = 321 then Reg.POWER.VOTE_FAB_E.VOTE
  else if d = 322 then Reg.POWER.VOTE_MEM.VOTE
  else Reg.POWER.VOTE_CROWN.VOTE

/-- The fabric domains a domain depends on (R448). -/
def parents (d : Nat) : List Nat :=
  if d < 256 then [320 + d / 128] else if d < 320 then [320 + (d - 256) / 32] else if d = 322 then [320, 321] else []

/-- ON or waking. -/
def domActive (s : State) (d : Nat) : Bool := s.domState d == .on || s.domState d == .waking

/-- DEP of a fabric domain (R448). -/
def dep (s : State) (d : Nat) : Bool :=
  (s.power.dom.any fun c => (parents c.1).contains d && (c.2 == .on || c.2 == .waking))
    || (d == 320 && (s.stream == 1 || s.streamActive || s.flag Reg.ISSUE.LOAD_CTRL.LOAD || s.isEnabled pgSTEP))

/-- The votes of a domain with its DEP bit (R447, R448). -/
def votes (s : State) (d : Nat) : Nat :=
  let v := setBit (s.get (voteField d)) 5 false
  if (d == 320 || d == 321) && s.dep d then v + 32 else v

/-- The enable that counts: the own one, and no trip gates the domain (R446, R412). -/
def enabledDom (s : State) (d : Nat) : Bool := s.ownEnable d && (!s.power.tripped || d == 324)

/-- A fabric the domain depends on has its enable cleared (R446). -/
def heldDown (s : State) (d : Nat) : Bool := (parents d).any fun p => !s.enabledDom p

def setDom (s : State) (d : Nat) (st : DomState) : State :=
  { s with power := { s.power with dom := setAt .off d st s.power.dom } }

/-! What a domain holds. -/

/-- Every page of a domain. -/
def domPages (d : Nat) : List Nat :=
  if d < 256 then (List.range 15).map (tilePg d)
  else if d < 320 then [slicePg (d - 256)]
  else if d = 320 then [pgISSUE, pgSTEP, pgBIST] ++ (List.range 16).map fabPg ++ (List.range 16).map moverPg ++ (List.range 4).map checkPg
  else if d = 321 then pgSCALE :: (List.range 16).map (fun m => moverPg (m + 16)) ++ (List.range 4).map (fun c => checkPg (c + 4))
  else if d = 322 then (List.range 32).map memPg
  else if d = 323 then [pgCROWN, pgPANEL, pgTIMERS]
  else []

/-- Pages of a tile that need tile firmware before they are READY (R470): EVENT, NEURON, SYNAPSE, LEARN, EGRESS, both QUEUE pages. -/
def fwPage (i : Nat) : Bool := decide (7 ≤ i) && decide (i ≤ 13)

/-- A target of the self-test is reserved: its pages are not READY (R476). -/
def bistReserved (s : State) (kind inst : Nat) : Bool := s.bist.reserved.contains (kind, inst)

/-- A domain's pages that become READY when it comes ON; LPDDR6 channels and the crown come up by their own rules (R349, R421). -/
def readyPages (s : State) (d : Nat) : List Nat :=
  if d < 256 then
    if s.bistReserved 0 d then [] else ((List.range 15).filter (fun i => !fwPage i || (s.tile d).fwOk)).map (tilePg d)
  else if d < 320 then (if s.bistReserved 1 (d - 256) then [] else [slicePg (d - 256)])
  else if d = 322 then ((List.range 32).filter (fun c => s.get (Reg.MEM.MEM_STAT.STATE c) == 2)).map memPg
  else if d = 323 then [pgPANEL, pgTIMERS]
  else (domPages d).filter fun pg =>
    match (pageAt pg).kind with
    | .mover => !s.bistReserved 2 (pageAt pg).inst
    | .check => !s.bistReserved 3 (pageAt pg).inst
    | .issue => !s.bistReserved 4 0
    | .step => !s.bistReserved 4 0
    | _ => true

/-- Every bank of a unit starts from OFF and heads for the state its BANK_PWR field names; its contents are lost (R117). -/
def banksUp (s : State) (u : Nat) : State :=
  let pwr := s.get (fld (bankPg u + 0x40) 0 32 0)
  let s := s.put (fld (bankPg u + 0x44) 0 32 0) 0xFFFFFFFF
  let s := { s with bankTo := (List.range 16).foldl (fun l b => insert (16 * u + b) (bits pwr (2 * b + 1) (2 * b)) l) s.bankTo }
  s.lose (bankBase u 0) (bankBase u 16)

/-- A domain has reached ON: its blocks become usable (R449, R117). -/
def domUp (s : State) (d : Nat) : State :=
  -- The tile's free-running counter starts (R123).
  let s := if d < 256 then s.modTile d (fun t => { t with cclk0 := if d < 128 then s.cclkW else s.cclkE }) else s
  let s := if d < 320 then s.banksUp d else s
  -- R351: an enabled channel in self-refresh leaves it and is UP again.
  let s := if d = 322 then (List.range 32).foldl (fun s c => if s.get (Reg.MEM.MEM_STAT.STATE c) = 4 && s.isEnabled (memPg c) then s.put (Reg.MEM.MEM_STAT.STATE c) 2 else s) s else s
  (s.readyPages d).foldl (fun s pg => s.setReady pg true) s

/-- The held head of a tile's queues is discarded with DEAD_QUEUE (R294), and a host-mode hold of it ends. -/
def deadHeld (s : State) (n : Nat) : State :=
  match (s.tile n).queue.held with
  | none => s
  | some f =>
    ({ s with qnet := { s.qnet with done := s.qnet.done ++ [(f.id, f.ch, 3)] } }.modTile n fun t => { t with queue := { t.queue with held := none } }).put (Reg.QUEUE.STALL_CTRL.HOLD n) 0

/-- What a tile's logic keeps in RETENTION beside its register pages: the values of its registers (R445; log entry 31). -/
def Tile.kept (t : Tile) : Tile := { Tile.reset with sregs := t.sregs, vregs := t.vregs, masks := t.masks, lfsr := t.lfsr }


/-- The check channels of a half that drops abandon their work, and those of the other half lose the movers of this one; a mover of the other half that waits for a channel goes on waiting (R450; log entry 31). -/
def checksLost (s : State) (h : Nat) : State :=
  (List.range 8).foldl (fun s c =>
    let x := getAt ChkS.reset c s.chk
    let mine : Bool := decide (c / 4 = h)
    let free := mine || x.holder.any (fun m => m / 16 == h)
    let s := if free then (s.put (Reg.CHECK.SCAN_STAT.HELD c) 0).put (Reg.CHECK.SCAN_CTRL.GO c) 0 else s
    { s with chk := setAt ChkS.reset c { holder := if free then none else x.holder, wait := x.wait.filter (fun m => m / 16 != h), scan := if mine then none else x.scan } s.chk }) s

/-- A fabric half begins to drop (R450): packets that its own endpoints have sent and that the cuff does not hold are abandoned, the cuff keeps its own (R272; log entry 31); its movers and check channels abandon
their work, and so do the reductions in its switches. -/
def fabricLost (s : State) (h : Nat) : State :=
  let mine (e : Nat) : Bool := decide (e / 192 = h)
  let inCuff (f : CuffItem → Bool) : Bool := s.net.cuff.any fun c => f c.2.2
  let movers := (List.range 16).map (· + 16 * h)
  let s := (movers.foldl (fun s m => (s.put (Reg.MOVER.MV_STAT.OUTSTANDING m) 0).put (Reg.MOVER.MV_STAT2.STATE m) (if s.get (Reg.MOVER.MV_STAT2.STATE m) = 4 then 4 else 0)) s).checksLost h
  let net := s.net
  let gone (p : Pkt) : Bool := mine p.src.val && !inCuff (· == .req p)
  let lost := (net.out.filter gone).map fun p => (p.src.val, p.tag.toNat)
  { s with
    net := { net with
      past := net.past ++ lost.filter (fun k => !net.past.contains k)
      late := net.late.filter fun p => !gone p
      stale := net.stale.filter fun k => !net.late.any fun p => gone p && (p.src.val, p.tag.toNat) == k
      brought := net.brought.filter fun b => !(mine b.1 && !inCuff (· == .req b.2))
      rsps := net.rsps.filter fun r => !(mine r.src && !inCuff (· == .rsp r.dst r.tag))
      evts := net.evts.filter fun e => !(mine e.src && !inCuff fun i => match i with | .evt a b l => a == e.src && b == e.dst && l.contains e.ev | _ => false)
      fences := net.fences.filter fun f => !(mine f.src && !inCuff fun i => match i with | .fnc a b => a == f.src && b == f.dst | .evt a b l => a == f.src && b == f.dst && f.ev.any l.contains | _ => false)
      acks := net.acks.filter fun a => !(mine a.at' && !inCuff (· == .ack a.src a.dst a.id))
      comb := net.comb.filter fun c => decide (c.slice / 32 ≠ h)
      red := net.red.filter fun r => decide ((if r.sw < 24 then r.sw / 12 else (r.sw - 24) / 6) ≠ h)
      partials := net.partials.filter fun p => !(decide (p.1 / 12 = h) && !inCuff (· == .part p.1 p.2.1 p.2.2.1))
      results := net.results.filter fun r => !(decide (s.get (Reg.REDUCE.RG_CFG.SPINE r.group) / 6 = h) && !inCuff (· == .res r.group r.line)) }
    posts := s.posts.filter fun p => !(decide (p.tile / 128 = h) && !inCuff (· == .post p.mover p.tile p.tag))
    movers := movers.foldl (fun l m => remove m l) s.movers }

/-- The scale controller abandons a retune (R450). -/
def scaleLost (s : State) : State :=
  { (s.put Reg.SCALE.STAT.ACTIVE 0).put Reg.SCALE.CTRL.RETUNE 0 with scale := { s.scale with sent := [], arrived := [], late := [] } }

/-- The West control complex abandons its work (R450): the stream's bundles in flight and a load, the step, barrier rounds, a self-test pass. -/
def controlLost (s : State) : State :=
  let s := if s.stepActive then s.stepAbandon else s
  let s := if s.stream = 1 then s.setStream (if s.flag Reg.ISSUE.LOAD_STAT.LOADED then stReady else stIdle) else s
  let s := s.put Reg.ISSUE.LOAD_CTRL.LOAD 0
  let s := (s.put Reg.BIST.BIST_STAT.ACTIVE 0).put Reg.BIST.BIST_STAT.HOLD 0
  let r := State.reset
  { s with issue := { s.issue with gos := [], loops := [], wait := none, ending := none, job := none, loadAddr := none, lanes := [], flips := [] }
           bar := []
           bist := { s.bist with waiting := r.bist.waiting, running := r.bist.running, ended := r.bist.ended, reserved := r.bist.reserved } }

/-- Tiles and slices under test. -/
def bistConc (s : State) : Nat := (s.bist.running.filter (·.1 < 2)).length + (s.bist.ended.filter (·.1 < 2)).length
def bistCount (s : State) : State := s.put Reg.BIST.BIST_STAT.RUNNING s.bistConc

/-- Crown firmware logs the failed targets of a pass that has ended (R460, R483, R520), where a running core holds the token. -/
def bistLog (s : State) : State :=
  if !s.domOn 323 || s.holder == 2 || s.crown.halted.contains s.holder then s
  else
    let failed := s.bist.targets.filter fun t => s.bist.results.any fun r => r.1 == t.1 && r.2.1 == t.2 && r.2.2.1 == 2
    s.coreLog s.holder (pageSource pgBIST) 0x0009 (Config.logSev 0x0009).val (Config.bistData failed)

/-- The pass ends when no target waits, runs or awaits a verdict. -/
def bistEnd (s : State) : State :=
  if s.flag Reg.BIST.BIST_STAT.ACTIVE && s.bist.waiting.isEmpty && s.bist.running.isEmpty && s.bist.ended.isEmpty then
    let s := (s.put Reg.BIST.BIST_STAT.ACTIVE 0).put Reg.BIST.BIST_STAT.DONE 1
    ({ s with bist := { s.bist with recordDue := s.bist.kind != 0 } }.cause pgBIST 4).bistLog
  else s

/-- Hold the oldest ended target in host mode (R481). -/
def bistHold (s : State) : State :=
  match s.bist.ended with
  | [] => s.put Reg.BIST.BIST_STAT.HOLD 0
  | (k, i, _) :: _ =>
    let s := ((s.put Reg.BIST.BIST_STAT.HOLD 1).put Reg.BIST.HOLD_ID.TARGET k).put Reg.BIST.HOLD_ID.INST i
    s.cause pgBIST 5

/-- A target whose domain drops during its test, or while it is held, ends as ABORTED and the pass goes on (R482). -/
def bistDrop (s : State) (t : Nat × Nat) : State :=
  if s.bist.running.contains t || s.bist.ended.any (fun e => e.1 == t.1 && e.2.1 == t.2) then
    let held := s.bist.ended.head?
    let s := { s with bist := { s.bist with running := s.bist.running.filter (· != t), ended := s.bist.ended.filter (fun e => !(e.1 == t.1 && e.2.1 == t.2)),
                                            reserved := s.bist.reserved.filter (· != t), results := (t.1, t.2, 3, 0) :: s.bist.results } }
    (if s.bist.ended.head? ≠ held then s.bistHold else s).bistCount.bistEnd
  else s

/-- A tile no longer holds checked firmware (R470). -/
def fwLost (s : State) (n : Nat) : State := s.put (Reg.RESET.TFW_OK.TILES (n / 32)) (setBit (s.get (Reg.RESET.TFW_OK.TILES (n / 32))) (n % 32) false)

/-- The registers that show work in progress of a tile's units, or a host's lock, read idle once that work is abandoned (R450). -/
def idleTile (s : State) (n : Nat) : State :=
  [Reg.EGRESS.EGR_STAT.HOLD n, Reg.LEARN.STAT.BUSY n, Reg.LEARN.STAT.HOLD n, Reg.LEARN.STAT.DLY_PEND n, Reg.SYNAPSE.HLOCK_STAT.PEND n, Reg.SYNAPSE.HLOCK_STAT.GRANT n].foldl (fun s f => s.put f 0) s

/-- A drop begins: from its first edge the domain's pages are not READY, its operations are abandoned, a tile in the running mask halts the stream, a masked tile abandons the step, its
firmware is lost, a target under test is ABORTED (R450, R97, R199, R470, R482). -/
def dropBegin (s : State) (d : Nat) : State :=
  let s := (domPages d).foldl (fun s pg => s.setReady pg false) s
  let s := if d < 256 then (((((s.laneLost d).stepLost d).deadHeld d).modTile d Tile.kept).idleTile d).fwLost d else s
  -- Work on its banks is abandoned (R120, R450), and its scrubbers start again at their first line.
  let s := if d < 320 then
      { (s.put (fld (bankPg d + 0x48) 0 16 0) 0) with bankTo := s.bankTo.filter (fun c => decide (c.1 / 16 ≠ d)), scrub := s.scrub.filter fun c => decide (c.1 / 16 ≠ d) }
    else s
  let s := (s.checking.filter fun c => (domPages d).contains c.1).foldl (fun s c =>
    (({ s with checking := s.checking.filter fun x => x.1 != c.1 }.put (Reg.HDR.BLK_STAT.BUSY c.1) 0).refuse c.1 rcDomOff 0xC)) s
  let s := if 256 ≤ d && decide (d < 320) then
      { s with net := { s.net with comb := s.net.comb.filter fun c => decide (c.slice ≠ d - 256) } }
    else s
  -- A half that is not ON makes the module not HEALTHY (R492, R496).
  let s := if d == 320 || d == 321 then (s.clockChange.fabricLost (d - 320)).selfDemote else s
  let s := if d == 320 then s.controlLost else if d == 321 then s.scaleLost else s
  -- R351: every UP channel enters self-refresh. A training goes on when the controllers are back from RETENTION (log entry 31).
  let s := if d = 322 then (List.range 32).foldl (fun s c => if s.get (Reg.MEM.MEM_STAT.STATE c) = 2 then s.put (Reg.MEM.MEM_STAT.STATE c) 4 else s) s else s
  if d < 256 then s.bistDrop (0, d) else if d < 320 then s.bistDrop (1, d - 256) else s

/-- A domain has reached its low state: OFF loses registers and SRAM, RETENTION keeps register values (R445, R117). -/
def domLow (s : State) (d : Nat) (st : DomState) : State :=
  let s := s.setDom d st
  let s := if d < 320 then s.lose (bankBase d 0) (bankBase d 16) else s
  if st == .off then
    -- TRIPPED is kept (R412), and so are the token logic's always-on registers and the vote registers (R52).
    let tripped := if d = 323 then (List.range 84).filter (fun i => s.get (Reg.CROWN.SENS_VAL.STATE i) = 3) else []
    let s := (domPages d).foldl (fun s pg => s.clearRegs fun off =>
      decide ((pageAt off).base = pg) && off % 0x1000 != 0x24 && !(decide (0x1040 ≤ off) && decide (off < 0x1054))) s
    let s := tripped.foldl (fun s i => s.put (Reg.CROWN.SENS_VAL.STATE i) 3) s
    if d < 256 then s.setTile d Tile.reset
    else if d = 320 then
      { s with issue := State.reset.issue, step := StepS.reset, bist := { State.reset.bist with everReady := s.bist.everReady } }
    else if d = 321 then { s with scale := State.reset.scale }
    else if d = 322 then { s.lose 0x1000000000 0x3000000000 with train := [] }
    else if d = 323 then
      { s with timers := [], caps := [], panel := State.reset.panel, causes := []
               crown := { s.crown with halted := [], lastSeq := [], logQueue := [], logDropped := 0, sigBlock := none, sigUsed := 0, sramFlips := [], freshDue := false, mctpEid := 0 } }
    else s
  else s

/-! Evaluation at an AOCLK edge (R449). -/

/-- A fabric wakes also for a domain held behind it (R446). -/
def heldBehind (s : State) (d : Nat) : Bool := s.power.held.any fun x => (parents x).contains d && s.votes x != 0

/-- Decide one domain: wake, drop, or stay. -/
def evalDom (s : State) (d : Nat) : State :=
  let en := s.enabledDom d
  let v := s.votes d
  let isFab := d == 320 || d == 321
  let held := s.heldDown d
  match s.domState d with
  | .on =>
    let stay := if isFab then (en && v != 0) || (s.dep d && !s.power.tripped) else en && v != 0 && !held
    if stay then s
    else
      let s := if held && v != 0 then { (s.cause pgPOWER 7) with power := { s.power with held := d :: s.power.held } } else s
      (s.setDom d .dropping).dropBegin d
  | .off | .retention =>
    let want := en && !held && (v != 0 || (isFab && s.heldBehind d))
    if want && (parents d).all (fun p => s.domOn p) then
      let s := { s with power := { s.power with held := s.power.held.filter (· != d) } }
      s.setDom d .waking
    else if s.domState d == .retention && !en then (s.setDom d .dropping)
    else s
  | _ => s

/-- The module is in the watch state: WATCH_CFG.EN, and every domain but always-on is in its low state (R454). -/
def watchNow (s : State) : Bool :=
  s.flag Reg.POWER.WATCH_CFG.EN && s.power.dom.all fun c => c.1 == 324 || c.2 == .retention || c.2 == .off

/-- Enter or leave the watch state; leaving without a crossing is cause VOTE (R454, R456). -/
def watchEdge (s : State) : State :=
  let was := s.flag Reg.POWER.WATCH_STAT.IN_WATCH
  if s.watchNow == was then s
  else if was then
    let s := s.put Reg.POWER.WATCH_STAT.IN_WATCH 0
    let s := if (s.get Reg.POWER.VOTE_CROWN.VOTE).testBit 4 then s else s.put Reg.POWER.WATCH_STAT.CAUSE 4
    { s with power := { s.power with watchRef := none } }
  else { (s.put Reg.POWER.WATCH_STAT.IN_WATCH 1) with power := { s.power with watchRef := none } }

/-- The copies that show the effective settings (R439). -/
def clockView (s : State) : State :=
  (s.put Reg.CLOCK.CLK_STAT.WEST_EFF (s.effective 0)).put Reg.CLOCK.CLK_STAT.EAST_EFF (s.effective 1)

/-- Evaluate the votes of the domains in question, then of both fabrics, then the watch state (R449). -/
def settle (s : State) (ds : List Nat) : State :=
  ((([320, 321].foldl evalDom (ds.foldl evalDom s))).watchEdge).clockView

/-- The domains that depend on a fabric domain (R446, R448). -/
def dependants (d : Nat) : List Nat := (List.range 323).filter fun x => (parents x).contains d

end State

/-! Votes and domains. -/

/-- The vote bit of a source (R447). -/
def voteBit : Source → Nat
  | .host => 0 | .wcore => 1 | .ecore => 2 | .bridge => 3

/-- The domain whose vote register stands at an offset (R447). -/
def voteDomain (off : Nat) : Option Nat :=
  let p := pageAt off
  if off = 0x30C0 then some 320 else if off = 0x30C4 then some 321 else if off = 0x30C8 then some 322
  else if off = 0x30CC then some 323
  else if off - p.base = 0x24 then
    match p.kind with
    | .tile 0 => some p.inst
    | .slice => some (256 + p.inst)
    | _ => none
  else none

/-- VOTE (R447, R449, R450): the writer's own bit takes the written value; the domain then wakes or begins to drop. A core's own vote on the
crown ends WAKE (R456). A write elsewhere votes for nothing. -/
def actVote (src : Source) (off : Ofs) (v : Word32) (s : State) : Res :=
  match voteDomain off.toNat with
  | none => .next s
  | some d =>
    let b := voteBit src
    let w := setBit (s.get (State.voteField d)) b (v.toNat.testBit b)
    let w := if d = 323 && (b = 1 || b = 2) && v.toNat.testBit b then setBit w 4 false else w
    .next ((s.put (State.voteField d) w).settle [d])

namespace State

/-- The newest self-test record is fresh (R483, R484). -/
def recordFresh (s : State) : Bool :=
  match s.flash.bist.getLast? with
  | none => false
  | some r => r.good && r.kind == 2 && r.boot + 1 == s.get Reg.CROWN.BOOT_CNT.CNT && r.tag == (Config.shake256 (Config.fuseMap s.fuses.bad s.fuses.rows)).take 8
      && r.entries.all (fun e => e.2.2.1 == 1) && !s.flag Reg.BIST.BIST_CFG.FORCE

/-- With a fresh record crown firmware sets FRESH and SKIPPED (R484), as soon as the BIST page is there for it. -/
def setFresh (s : State) : State :=
  if s.crown.freshDue && s.pageUp (pageAt pgBIST) then
    { ((s.put Reg.BIST.FRESH.FRESH 1).put Reg.BIST.FRESH.SKIPPED 1) with crown := { s.crown with freshDue := false } }
  else s

end State

/-- DOMAIN_ON (R449, R451): a waking domain reaches ON; its blocks become usable, domains behind it that hold votes begin to wake, and it drops at once when its votes are gone. The crown then boots when it comes from OFF (R421). -/
def actDomainOn (d : Fin 325) (s : State) : Res :=
  if s.domState d.val == .waking then
    let s := (s.setDom d.val .on).domUp d.val
    let s := if d.val = 323 && !s.isReady pgCROWN then { s with crown := { s.crown with booting := true } } else s
    let s := if d.val = 320 then s.setFresh else s
    .next (s.settle (d.val :: (if d.val = 320 || d.val = 321 then State.dependants d.val else [])))
  else .next s

/-- DOMAIN_LOW (R449, R451): a dropping domain reaches its low state, OFF when its enable is cleared or its LOW bit says so, and wakes at once on a new vote.
The throttle requests of the sensor hub are released with the crown (R410). -/
def execDomainLow (d : Fin 325) (s : State) : Res :=
  if s.domState d.val == .dropping then
    let st := if !s.enabledDom d.val || s.lowOff d.val then DomState.off else .retention
    let s := s.domLow d.val st
    let s := if d.val = 323 then { (s.put Reg.POWER.CAP_STAT.CRIT 0) with crown := { s.crown with critReq := [] } } else s
    .next (s.settle (d.val :: State.parents d.val))
  else .next s

/-- DOM_EN (R446): writes one word of domain enables. Refused with NOT_HOLDER, then with LOCKED under lock PWR (R62, R430). Clearing the enable of a
domain that has votes sets DOM_FORCED; a fabric's cleared enable brings its dependants down first. -/
def actDomEn (src : Source) (w : Fin 11) (v : Word32) (s : State) : Res :=
  if !s.authorised src then .next (s.refuse pgPOWER rcNotHolder (0x40 + 4 * w.val))
  else if (s.get Reg.SECURITY.LOCK.BITS).testBit 1 then .next (s.refuse pgPOWER rcLocked (0x40 + 4 * w.val))
  else
    let old := s.get (Reg.POWER.DOM_EN.EN w.val)
    let new := if w.val = 10 then v.toNat % 8 else v.toNat
    let forced := (List.range 32).any fun b =>
      old.testBit b && !new.testBit b && s.votes (if w.val < 10 then 32 * w.val + b else 320 + b) != 0
    let s := (s.accept pgPOWER).put (Reg.POWER.DOM_EN.EN w.val) new
    let s := if forced then s.cause pgPOWER 7 else s
    let ds := if w.val < 10 then (List.range 32).map (fun b => 32 * w.val + b)
              else State.dependants 320 ++ State.dependants 321 ++ [322]
    .next (s.settle ds)

/-! The root PLL and the halves. -/

/-- The grade's multiplier and cap (R8, R434). -/
def gradeMult (g : Nat) : Nat := if g = 3 then 100 else if g = 2 then 80 else 60
def gradeCap (g : Nat) : Nat := if g = 3 then 600 else if g = 2 then 450 else 300

/-- MULT (R434, R435): checked for authority and lock CLK, then range, then grade, then, when it changes MULT, that both halves read GATED; an accepted change goes through the bypass. -/
def actMult (src : Source) (v : BitVec 8) (s : State) : Res :=
  let m := v.toNat
  if !s.authorised src then .next (s.refuse pgCLOCK rcNotHolder 0x40)
  else if (s.get Reg.SECURITY.LOCK.BITS).testBit 0 then .next (s.refuse pgCLOCK rcLocked 0x40)
  else if m ≠ 60 ∧ m ≠ 80 ∧ m ≠ 100 then .next (s.refuse pgCLOCK rcRange 0x40)
  else if m > gradeMult (s.get Reg.GLOBAL.MOD_ID.GRADE) then .next (s.refuse pgCLOCK 0x10 0x40)
  else if m = s.get Reg.CLOCK.RCLK_CFG.MULT then .next (s.accept pgCLOCK)
  else if s.effective 0 ≠ 2 ∨ s.effective 1 ≠ 2 then .next (s.refuse pgCLOCK rcBusy 0x40)
  else
    let s := ((s.accept pgCLOCK).put Reg.CLOCK.RCLK_CFG.MULT m).put Reg.CLOCK.CLK_STAT.BYPASS 1
    .next ((s.put Reg.CLOCK.CLK_STAT.RELOCK 1).put Reg.CLOCK.CLK_STAT.LOCK 0)

/-- RELOCK_DONE (R435): MCLK and SCLK switch back, RELOCK clears, LOCK reads 1, the cause is set, the throttle windows restart (R441). -/
def execRelockDone (s : State) : Res :=
  if s.flag Reg.CLOCK.CLK_STAT.RELOCK && !s.power.stopped then
    let s := ((s.put Reg.CLOCK.CLK_STAT.RELOCK 0).put Reg.CLOCK.CLK_STAT.BYPASS 0).put Reg.CLOCK.CLK_STAT.LOCK 1
    .next (s.cause pgCLOCK 4)
  else .next s

/-- LOCK_LOST (R437, R457): bypass, CCLK and FCLK stop in both halves, counted, ERR and the cause are set, a running stream halts with CLOCK_CHANGE. -/
def execLockLost (s : State) : Res :=
  if s.flag Reg.CLOCK.CLK_STAT.LOCK then
    let s := { s with power := { s.power with stopped := true } }
    let s := ((s.put Reg.CLOCK.CLK_STAT.LOCK 0).put Reg.CLOCK.CLK_STAT.BYPASS 1).put Reg.CLOCK.CLK_STAT.RELOCK 1
    let s := (s.bump Reg.CLOCK.LOCK_LOST_CNT.CNT).causeErr pgCLOCK 5
    .next (s.clockChange.clockView)
  else .next s

/-- PLL_RELOCK (R437): the PLL has relocked at the same MULT and each half restarts at its programmed setting. -/
def execPllRelock (s : State) : Res :=
  if s.power.stopped then
    let s := { s with power := { s.power with stopped := false } }
    let s := ((s.put Reg.CLOCK.CLK_STAT.RELOCK 0).put Reg.CLOCK.CLK_STAT.BYPASS 0).put Reg.CLOCK.CLK_STAT.LOCK 1
    .next s.clockView
  else .next s

/-- ROOT_PLL_LOCK (R459, R441): after cold reset the PLL locks by itself at the fused MULT. -/
def execRootPllLock (s : State) : Res :=
  if !s.flag Reg.CLOCK.CLK_STAT.LOCK && !s.flag Reg.CLOCK.CLK_STAT.RELOCK then
    .next (((s.put Reg.CLOCK.CLK_STAT.LOCK 1).put Reg.CLOCK.CLK_STAT.BYPASS 0).clockView)
  else .next s

/-- HALF_CFG (R438, R40, R97): authority, lock CLK, then the unused value 3 with FIELD_RANGE; an accepted change is counted, sets HALF_CHG and halts a running stream with CLOCK_CHANGE when an effective setting changes. -/
def actHalfCfg (src : Source) (west east : Fin 4) (s : State) : Res :=
  if !s.authorised src then .next (s.refuse pgCLOCK rcNotHolder 0x44)
  else if (s.get Reg.SECURITY.LOCK.BITS).testBit 0 then .next (s.refuse pgCLOCK rcLocked 0x44)
  else if west.val = 3 ∨ east.val = 3 then .next (s.refuse pgCLOCK rcRange 0x44)
  else
    let changed := s.get Reg.CLOCK.HALF_CFG.WEST ≠ west.val ∨ s.get Reg.CLOCK.HALF_CFG.EAST ≠ east.val
    let s := ((s.accept pgCLOCK).put Reg.CLOCK.HALF_CFG.WEST west.val).put Reg.CLOCK.HALF_CFG.EAST east.val
    if changed then
      let s := (s.bump Reg.CLOCK.HALF_CHG_CNT.CNT).cause pgCLOCK 6
      .next (s.clockChange.clockView)
    else .next s

/-! Throttling. -/

namespace State

/-- The loop level (R442): the slow loop's with AUTO, else CAP_LEVEL. -/
def loopInForce (s : State) : Nat :=
  if s.flag Reg.POWER.CAP_CFG.AUTO then s.power.loopLevel else s.get Reg.POWER.CAP_LEVEL.LEVEL

/-- The throttle level: the greatest of loop level, critical floor and trip (R442). -/
def throttleLevel (s : State) : Nat :=
  max (max s.loopInForce (if s.crown.critReq.isEmpty then 0 else s.get Reg.POWER.CAP_CFG.CRIT_LEVEL))
    (if s.power.capTrip then 12 else 0)

/-- Put a level in force; THROTTLE is set when it rises from 0 (R458). -/
def setLevel (s : State) (k : Nat) : State :=
  let old := s.get Reg.POWER.CAP_STAT.LEVEL
  let s := s.put Reg.POWER.CAP_STAT.LEVEL k
  if old = 0 ∧ k > 0 then s.cause pgPOWER 6 else s

end State

/-- SCLK period i of a window is held at level k (R441). -/
def periodHeld (k i : Nat) : Bool := decide (k * i % 16 < k)

/-- The periods of a window from period i on that level k holds (R441). -/
def heldFrom (k i : Nat) : Nat := ((List.range 16).filter fun j => decide (i ≤ j) && periodHeld k j).length

/-- The dividers and the window counter run: from the first lock after cold reset on (R441, R459). -/
def State.windows (s : State) : Bool := s.flag Reg.CLOCK.CLK_STAT.LOCK || s.flag Reg.CLOCK.CLK_STAT.RELOCK

/-- THROTTLE_WINDOW (R441, R442): a window of 16 SCLK periods begins with the level now in force; each held period counts in THROT_PER. -/
def execThrottleWindow (s : State) : Res :=
  if !s.windows then .next s
  else
    let k := s.throttleLevel
    .next ((s.setLevel k).add Reg.POWER.THROT_PER.CNT (heldFrom k 0))

/-- CAP_TRIP (R441 to R443, R458): the level becomes 12 within the window and holds the loop's own level at 12; the later periods of the window are held as level 12 requires, from a period that is a free value (log entry 31); counted, ERR and the cause set. -/
def execCapTrip (s : State) : Res :=
  if s.power.capTrip then .next s
  else
    let i := (s.draw 4).1.toNat
    let k := s.get Reg.POWER.CAP_STAT.LEVEL
    let s := if s.windows then (s.draw 4).2.add Reg.POWER.THROT_PER.CNT (heldFrom 12 i - heldFrom k i) else (s.draw 4).2
    let s := { s with power := { s.power with capTrip := true, loopLevel := 12 } }
    let s := (s.put Reg.POWER.CAP_STAT.TRIP 1).setLevel 12
    .next ((s.bump Reg.POWER.CAP_TRIP_CNT.CNT).causeErr pgPOWER 5)

/-- CAP_TRIP_RELEASE (R441, R442): the trip input goes away; the level falls at the next window. -/
def execCapTripRelease (s : State) : Res :=
  .next ({ s with power := { s.power with capTrip := false } }.put Reg.POWER.CAP_STAT.TRIP 0)

/-! The watch state. -/

namespace State

/-- A thermal trip (R412): the sensor is TRIPPED and every domain but always-on is gated; the record waits in the sequencer's buffer. -/
def tripNow (s : State) (i v : Nat) : State :=
  let s := s.put (Reg.CROWN.SENS_VAL.STATE i) 3
  let s := if s.power.tripped then s else s.aonLog 0x0003 3 ([BitVec.ofNat 8 i] ++ toBytes 2 v)
  let s := { s with power := { s.power with tripped := true } }
  s.settle (s.power.dom.map (·.1))

end State

/-- WATCH_WAKE (R455, R456, R412): in the watch state the sequencer samples the die sensors, the panel inputs and the cable-presence pins. The first sample sets the reference;
a temperature at or above TEMP_HI or a changed input is a crossing: cause recorded, a record for the log, WATCH_WAKES, WATCH_WAKE, and WAKE raised on the crown. A trip temperature gates every domain. -/
def execWatchWake (temps : List (BitVec 16)) (panel cables : List Bool) (s : State) : Res :=
  if !s.flag Reg.POWER.WATCH_STAT.IN_WATCH then .next s
  else
    let trips := (List.range temps.length).filter fun i => decide ((0x0730 : Int) ≤ (temps.getD i 0).toInt) && decide (i < 64)
    let s := trips.foldl (fun s i => s.tripNow i (temps.getD i 0).toNat) s
    let now := [panel, cables].map fun l => l.foldl (fun n b => 2 * n + (if b then 1 else 0)) l.length
    let hot := temps.any fun t => decide ((BitVec.ofNat 16 (s.get Reg.POWER.WATCH_THR.TEMP_HI)).toInt ≤ t.toInt)
    let cause := match s.power.watchRef with
      | none => 0
      | some r => if hot then 1 else if r.getD 0 0 ≠ now.getD 0 0 then 2 else if r.getD 1 0 ≠ now.getD 1 0 then 3 else 0
    let s := { s with power := { s.power with watchRef := some now } }
    if cause = 0 then .next s
    else
      let s := (s.put Reg.POWER.WATCH_STAT.CAUSE cause).bump Reg.POWER.WATCH_WAKES.CNT
      let s := s.aonLog (State.causeCode pgPOWER 4) (State.causeSev pgPOWER 4) (s.causeData pgPOWER 1)
      let s := s.cause pgPOWER 4
      let w := setBit (s.get Reg.POWER.VOTE_CROWN.VOTE) 4 true
      .next ((s.put Reg.POWER.VOTE_CROWN.VOTE w).settle [323])

end Sys2Proof.Machine
end

