-- ==== Sys2Proof/Machine/Crown.lean ====
section
/-! DEFINITION. The crown: token, heartbeats, mailbox, sensors, event log, boot chain, attestation, locks (chapter 13). -/
namespace Sys2Proof.Machine

namespace State

def modCrown (s : State) (f : CrownS → CrownS) : State := { s with crown := f s.crown }

/-! The token. -/

/-- The token moves to a core or to NONE: MOVES counts, TOKEN_MOVE is set, a move to NONE also sets NO_HOLDER with ERR and owes a log record, a boot in progress
starts again with cleared measurements (R403, R404, R422, R432). -/
def moveToken (s : State) (v : Nat) : State :=
  let s := (s.put Reg.CROWN.TOKEN.HOLDER v).bump Reg.CROWN.TOKEN.MOVES
  let s := s.cause pgCROWN 4
  -- While there is no holder, the VALID of samples 80 to 83 reads 0 (R410).
  let s := if v = 2 then
      [80, 81, 82, 83].foldl (fun s i => s.put (Reg.CROWN.SENS_VAL.VALID i) 0) ((s.causeErr pgCROWN 5).modCrown (fun c => { c with tokenNoneLog := true }))
    else s
  -- The next holder writes the record of the move to NONE (R403, R520): the miss counts are its data.
  let s := if v < 2 && s.crown.tokenNoneLog then
      (s.coreLog v (pageSource pgCROWN) 0x0002 3 [BitVec.ofNat 8 (s.get Reg.CROWN.HB_STAT.MISS_W), BitVec.ofNat 8 (s.get Reg.CROWN.HB_STAT.MISS_E)]).modCrown
        (fun c => { c with tokenNoneLog := false })
    else s
  if s.crown.booting then s.clearRegs fun off => decide (0xB100 ≤ off) && decide (off < 0xB180) else s

end State

/-- TOKEN_HOLDER (R404): only the holder, or the host while the token is NONE, may write; NONE and the unused value are refused with FIELD_RANGE; the named core's miss count must be 0; the holder
naming itself changes nothing. -/
def actTokenHolder (src : Source) (v : Fin 4) (s : State) : Res :=
  if !s.authorised src then .next (s.refuse pgCROWN rcNotHolder 0x40)
  else if v.val ≥ 2 then .next (s.refuse pgCROWN rcRange 0x40)
  else if v.val = s.holder then .next (s.accept pgCROWN)
  else if s.get (if v.val = 0 then Reg.CROWN.HB_STAT.MISS_W else Reg.CROWN.HB_STAT.MISS_E) ≠ 0 then
    .next (s.refuse pgCROWN rcDep 0x40)
  else .next ((s.accept pgCROWN).moveToken v.val)

/-- HB (R402): a core sets its own heartbeat bit; other bits and the host's writes are ignored, and a halted core writes nothing (R517). -/
def actHb (src : Source) (v : Fin 4) (s : State) : Res :=
  match src with
  | .wcore => .next (if v.val.testBit 0 && !s.crown.halted.contains 0 then s.put Reg.CROWN.HB.WEST 1 else s)
  | .ecore => .next (if v.val.testBit 1 && !s.crown.halted.contains 1 then s.put Reg.CROWN.HB.EAST 1 else s)
  | _ => .next s

/-- HB_BOUNDARY (R402, R403, R452): the miss counts are updated, the bits cleared, and the token moves when its holder's count reaches 3: to the other core when that one's count is 0, else to NONE. No period runs
while the crown domain is not ON. -/
def execHbBoundary (s : State) : Res :=
  if !s.domOn 323 then .next s
  else
    let mw := if s.flag Reg.CROWN.HB.WEST then 0 else min 15 (s.get Reg.CROWN.HB_STAT.MISS_W + 1)
    let me := if s.flag Reg.CROWN.HB.EAST then 0 else min 15 (s.get Reg.CROWN.HB_STAT.MISS_E + 1)
    let s := (s.put Reg.CROWN.HB_STAT.MISS_W mw).put Reg.CROWN.HB_STAT.MISS_E me
    let s := (s.put Reg.CROWN.HB.WEST 0).put Reg.CROWN.HB.EAST 0
    if s.holder = 0 ∧ mw ≥ 3 then .next (s.moveToken (if me = 0 then 1 else 2))
    else if s.holder = 1 ∧ me ≥ 3 then .next (s.moveToken (if mw = 0 then 0 else 2))
    else .next s

/-- LOCK (R430, R401): a permitted writer sets lock bits; a 0 has no effect; nothing but cold reset clears them. -/
def actLock (src : Source) (v : BitVec 8) (s : State) : Res :=
  if !s.authorised src then .next (s.refuse pgSECURITY rcNotHolder 0x40)
  else .next ((s.accept pgSECURITY).put Reg.SECURITY.LOCK.BITS (s.get Reg.SECURITY.LOCK.BITS ||| v.toNat))

/-! Sensors. -/

/-- The order of a sensor's VALUE format: die and air sensors are signed, the others unsigned (R410). -/
def sensorInt (i v : Nat) : Int := if i < 64 ∨ i ≥ 82 then signed 16 v else (v : Int)

/-- The next STATE of a sensor (R411): 0 NORMAL, 1 WARN, 2 CRIT, 3 TRIPPED. -/
def sensorNext (i cur v critHi critLo warnHi hyst : Nat) : Nat :=
  let x := sensorInt i v
  let lowTest := !((i == 80 || i == 81) && critLo == 0)
  let ch := sensorInt i critHi
  let cl := sensorInt i critLo
  let wh := sensorInt i warnHi
  if cur = 3 then 3
  else if decide (ch ≤ x) || (lowTest && decide (x ≤ cl)) then 2
  else if cur = 2 && !(decide (x ≤ ch - hyst) && (!lowTest || decide (cl + hyst ≤ x))) then 2
  else if wh ≤ x then 1
  else if cur = 1 && !decide (x ≤ wh - hyst) then 1
  else 0

namespace State

/-- The cap loop on a valid sample P (0.1 W) of sensor 81 (R443): up above CAP, down below CAP − MARGIN; a trip holds it at 12. -/
def capLoop (s : State) (p : Nat) : State :=
  let s := s.put Reg.POWER.CAP_STAT.POWER p
  if !s.flag Reg.POWER.CAP_CFG.AUTO || s.power.capTrip then s
  else
    let l := s.power.loopLevel
    let cap := (s.get Reg.POWER.CAP_CFG.CAP : Int) * 10
    let l' := if cap < p then min 12 (l + 1) else if (p : Int) < cap - s.get Reg.POWER.CAP_CFG.MARGIN * 10 then l - 1 else l
    { s with power := { s.power with loopLevel := l' } }

end State

/-- SENSOR_SAMPLE (R410, R411, R443): the hub stores a sample while the crown is ON; a failed one keeps the value with VALID = 0; samples 80 to 83 need a holder. STATE moves against the thresholds, with its causes,
its throttle request and its log record; sensor 81 drives the cap loop. -/
def execSensorSample (i : Fin 84) (v : BitVec 16) (ok : Bool) (s : State) : Res :=
  if !s.domOn 323 then .next s
  else if !ok || (i.val ≥ 80 && s.holder == 2) then .next (s.put (Reg.CROWN.SENS_VAL.VALID i.val) 0)
  else
    let cur := s.get (Reg.CROWN.SENS_VAL.STATE i.val)
    let nxt := sensorNext i.val cur v.toNat (s.get (Reg.CROWN.SENS_THR_HI.CRIT_HI i.val)) (s.get (Reg.CROWN.SENS_THR_LO.CRIT_LO i.val))
      (s.get (Reg.CROWN.SENS_THR_HI.WARN_HI i.val)) (s.get (Reg.CROWN.SENS_THR_LO.HYST i.val))
    let s := ((s.put (Reg.CROWN.SENS_VAL.VALUE i.val) v.toNat).put (Reg.CROWN.SENS_VAL.VALID i.val) 1).put (Reg.CROWN.SENS_VAL.STATE i.val) nxt
    let s := if nxt = 1 ∧ cur = 0 then s.cause pgCROWN 7 else s
    let s := if nxt = 2 ∧ cur < 2 then s.causeErr pgCROWN 8 else s
    let req := if nxt = 2 then (if s.crown.critReq.contains i.val then s.crown.critReq else i.val :: s.crown.critReq)
               else s.crown.critReq.filter (· != i.val)
    let s := (s.modCrown fun c => { c with critReq := req }).put Reg.POWER.CAP_STAT.CRIT (if req.isEmpty then 0 else 1)
    let s := if nxt ≠ cur then
        s.coreLog s.holder (State.pageSource pgCROWN) 0x0008 (Config.logSev 0x0008).val [BitVec.ofNat 8 i.val, BitVec.ofNat 8 cur, BitVec.ofNat 8 nxt]
      else s
    let s := if i.val = 81 then s.capLoop v.toNat else s
    .next (if i.val < 64 && decide ((0x0730 : Int) ≤ v.toInt) then s.tripNow i.val v.toNat else s)

/-- TRIP_SAMPLE (R412): the sequencer's trip test on a die sample, whatever the crown's state. -/
def execTripSample (i : Fin 64) (v : BitVec 16) (s : State) : Res :=
  .next (if decide ((0x0730 : Int) ≤ v.toInt) then s.tripNow i.val v.toNat else s)

/-! The event log. -/

/-- The 64 bytes of a log record (R414). TIME is a free value: the model keeps no AOCLK count (log entry 11). -/
def LogRec.bytes (r : LogRec) : List Byte :=
  let d := r.data.take 36
  let b := toBytes 4 r.seq ++ toBytes 4 r.boot ++ toBytes 8 (Config.freeBits 64 r.seq).toNat ++ toBytes 4 r.source ++ toBytes 2 r.code
    ++ toBytes 1 r.sev ++ toBytes 1 r.core ++ d ++ List.replicate (36 - d.length) 0
  b ++ toBytes 4 (crc32c b)

/-- LOG_WRITE (R414, R415): the engine programs the oldest waiting record, the cores' queue first, then the sequencer's buffer, then the causes that firmware has yet to log; before the first record of a sector it erases that sector, losing the oldest 1,024 records and
counting LOG_WRAP_CNT once the log is full; after drops it queues one record with the count. Needs the crown ON. -/
def execLogWrite (s : State) : Res :=
  if !s.domOn 323 then .next s
  else
    let c := s.crown
    -- A core's record, else the sequencer's, else one that the holder's firmware makes for a cause (R520, R522).
    let pick : Option (LogRec × State) := match c.logQueue, c.aonQueue, s.causes with
      | r :: t, _, _ => some (r, { s with crown := { c with logQueue := t } })
      | [], r :: t, _ => some (r, { s with crown := { c with aonQueue := t } })
      | [], [], (k, n) :: t =>
        if s.holder = 2 ∨ c.halted.contains s.holder then none
        else
          let pg := k / 32
          let b := k % 32
          some ({ seq := 0, boot := s.get Reg.CROWN.BOOT_CNT.CNT, source := State.pageSource pg, code := State.causeCode pg b, sev := State.causeSev pg b,
                  core := s.holder, data := s.causeData pg n, good := true }, { s with causes := t })
      | [], [], [] => none
    match pick with
    | none => .next s
    | some (r, s') =>
      let seq := s.get Reg.CROWN.LOG_NEXT.SEQ
      let full := 262144 ≤ s.flash.log.length
      let log := if full then s.flash.log.drop 1024 else s.flash.log
      let s := { s' with flash := { s.flash with log := log ++ [{ r with seq := seq, good := true }] } }
      let s := s.put Reg.CROWN.LOG_NEXT.SEQ (seq + 1)
      let s := if full then s.bump Reg.CROWN.LOG_WRAP_CNT.CNT else s
      let n := s.crown.logDropped + s.crown.aonDropped
      if n = 0 then .next s
      else .next ((s.modCrown fun c => { c with logDropped := 0, aonDropped := 0 }).coreLog (s.holder) (State.pageSource pgCROWN) 0x0007 (Config.logSev 0x0007).val (toBytes 4 n))

/-! Boot flash, gauntlet, boot chain. -/

/-- The governing directory record: the highest SEQ with a good CRC (R418). -/
def dirRec (f : FlashS) : DirRec :=
  (f.dir.filter (·.good)).foldl (fun b r => if r.seq ≥ b.seq then r else b)
    { seq := 0, active := 0, pending := none, tries := 0, committed := false, bootCnt := 0, good := true }

def FlashS.slot (f : FlashS) (k : Nat) : Slot := if k = 0 then f.slotA else f.slotB
def FlashS.setSlot (f : FlashS) (k : Nat) (v : Slot) : FlashS := if k = 0 then { f with slotA := v } else { f with slotB := v }

/-- Append a directory record (R418). -/
def FlashS.addDir (f : FlashS) (r : DirRec) : FlashS := { f with dir := f.dir ++ [{ r with seq := (dirRec f).seq + 1, good := true }] }

/-- Bytes o to o + n − 1 of a slot. -/
def Slot.part (x : Slot) (o n : Nat) : List Byte := (x.bytes.drop o).take n
def Slot.num (x : Slot) (o n : Nat) : Nat := ofBytes (x.part o n)
def Slot.comp (x : Slot) (k : Nat) : List Byte := x.part (x.num (0x10 + 8 * k) 4) (x.num (0x14 + 8 * k) 4)
def Slot.svn (x : Slot) : Nat := x.num 6 1

/-- The security version is one that the module accepts (R419 step 4). -/
def svnOk (s : State) (x : Slot) : Bool := decide (s.fuses.rollback ≤ x.svn) && decide (x.svn ≤ 64)

/-- The gauntlet over a slot's image (R419): 0 accepted, 1 refused by format, key, signature or a digest, 2 refused by SVN. -/
def gauntlet (s : State) (x : Slot) : Nat :=
  let vkey := x.part 0x88 68
  let revoked := s.get Reg.SECURITY.OTP_STAT.VKEY_REVOKE
  let keyOk := (Config.shake256 vkey = Config.vendorDigest 0 && !revoked.testBit 0)
    || (Config.shake256 vkey = Config.vendorDigest 1 && !revoked.testBit 1)
  if x.num 0 4 ≠ 0x4B524357 ∨ x.num 4 2 ≠ 1 then 1
  else if !keyOk then 1
  else if !Config.xmssVerify vkey (x.part 0 0xCC) (x.part 0xCC 2820) then 1
  else if !svnOk s x then 2
  else if (List.range 3).all (fun k => Config.shake256 (x.comp k) = x.part (0x28 + 32 * k) 32) then 0 else 1

namespace State

/-- Extend measurement register k with data D (R420). -/
def extend (s : State) (k : Nat) (d : List Byte) : State :=
  let m := (List.range 8).flatMap fun w => toBytes 4 (s.get (Reg.SECURITY.MEAS.DATA k w))
  let m' := Config.shake256 (m ++ Config.shake256 d)
  (List.range 8).foldl (fun s w => s.put (Reg.SECURITY.MEAS.DATA k w) (ofBytes ((m'.drop (4 * w)).take 4))) s

/-- Raise the rollback counter by blowing fuses; it never decreases (R425). FW_EVENT and a record (R432, R520). -/
def raiseRollback (s : State) (svn : Nat) : State :=
  if svn ≤ s.fuses.rollback then s
  else
    let old := s.fuses.rollback
    let s := { s with fuses := { s.fuses with rollback := svn } }
    let s := (s.put Reg.CROWN.FW_STAT.ROLLBACK svn).put Reg.SECURITY.OTP_STAT.ROLLBACK svn
    (s.cause pgCROWN 10).coreLog s.holder (pageSource pgCROWN) 0x0006 (Config.logSev 0x0006).val [BitVec.ofNat 8 old, BitVec.ofNat 8 svn]

/-- The record of an image that the gauntlet has refused (R421 step 3). -/
def logRefused (s : State) (slot : Nat) : State :=
  let r := Config.refusedRecord slot
  s.coreLog s.holder (pageSource pgCROWN) r.1.toNat (Config.logSev r.1.toNat).val r.2

/-- FW_STAT shows the directory. -/
def showDir (s : State) : State :=
  let d := dirRec s.flash
  let s := (s.put Reg.CROWN.FW_STAT.TRIES d.tries).put Reg.CROWN.FW_STAT.ACTIVE d.active
  (s.put Reg.CROWN.FW_STAT.PEND_VALID (if d.pending.isSome then 1 else 0)).put Reg.CROWN.FW_STAT.PEND (d.pending.getD 0)

end State

/-- BOOT (R421, R416, R418 to R420, R424 to R426, R428): the boot chain, run once the crown domain is ON and a core holds the token. It chooses the slot, passes it through the gauntlet, takes the other slot when refused, else RECOVERY;
raises the rollback counter, counts the boot, scans the log and the journal, measures, looks for a fresh self-test record (R484), and sets READY. A module whose grade reads 0 has a fuse fault and stops here (R7). -/
def execBoot (s : State) : Res :=
  if !(s.crown.booting && s.domOn 323) || s.holder == 2 || s.crown.halted.contains s.holder || s.get Reg.GLOBAL.MOD_ID.GRADE == 0 then .next s
  else
    let d := dirRec s.flash
    let revert := d.pending.isSome && d.tries == 0
    -- A PENDING slot with TRIES left is tried, after its count is taken (R421 step 2).
    let first := match d.pending with | some p => if d.tries > 0 then p else d.active | none => d.active
    let s := if first ≠ d.active then { s with flash := s.flash.addDir { d with tries := d.tries - 1 } } else s
    let s := if revert then
        (({ s with flash := s.flash.addDir { d with pending := none } }).cause pgCROWN 10).coreLog s.holder (State.pageSource pgCROWN) 0x0004 (Config.logSev 0x0004).val []
      else s
    let g1 := gauntlet s (s.flash.slot first)
    let g2 := gauntlet s (s.flash.slot (1 - first))
    let s := if g1 ≠ 0 then s.logRefused first else s
    let s := if g1 ≠ 0 ∧ g2 ≠ 0 ∧ svnOk s (s.flash.slot (1 - first)) then s.logRefused (1 - first) else s
    let run : Option Nat := if g1 = 0 then some first else if g2 = 0 then some (1 - first) else none
    let d := dirRec s.flash
    let s := if d.committed then s.raiseRollback (min 64 (s.flash.slot d.active).svn) else s
    let s := { s with flash := s.flash.addDir { dirRec s.flash with bootCnt := d.bootCnt + 1 } }
    let s := s.put Reg.CROWN.BOOT_CNT.CNT (d.bootCnt + 1)
    let good := s.flash.log.filter (·.good)
    let nextSeq := good.foldl (fun n r => max n (r.seq + 1)) 0
    let s := (s.put Reg.CROWN.LOG_NEXT.SEQ nextSeq).add Reg.CROWN.LOG_TORN_CNT.CNT (s.flash.log.length - good.length)
    let idx := 256 * s.flash.journal.length
    let s := (s.put Reg.SECURITY.SIG_NEXT.VALUE idx).put Reg.SECURITY.SIG_LEFT.VALUE (2 ^ 20 - idx)
    let pub := Config.xmssPublic s.fuses.seed
    let id := Config.shake256 pub
    let s := (List.range 4).foldl (fun s w => s.put (Reg.SECURITY.DEV_ID.ID w) (ofBytes ((id.drop (4 * w)).take 4))) s
    let s := s.modCrown fun c => { c with sigBlock := none, sigUsed := 0, booting := false, bootedPending := run.isSome && run == d.pending }
    let s := ((s.modCrown fun c => { c with freshDue := s.recordFresh }).setFresh).showDir
    match run with
    | none =>
      let s := (s.put Reg.CROWN.FW_STAT.STATE 3).cause pgCROWN 10
      .next ((s.coreLog s.holder (State.pageSource pgCROWN) 0x0005 3 []).setReady pgCROWN true)
    | some k =>
      let x := s.flash.slot k
      let s := (((s.put Reg.CROWN.FW_STAT.STATE (if s.crown.bootedPending then 2 else 1)).put Reg.CROWN.FW_STAT.BOOTED k).put Reg.CROWN.FW_STAT.SVN x.svn)
      let s := ((s.extend 0 (x.part 0 0x1000 ++ x.comp 0)).extend 1 (x.comp 1)).extend 2 (x.comp 2)
      let s := s.extend 3 ([BitVec.ofNat 8 (s.get Reg.SECURITY.LOCK.BITS), BitVec.ofNat 8 (s.get Reg.SECURITY.PERM_LOCK.BITS)] ++ Config.fuseMap s.fuses.bad s.fuses.rows
        ++ [BitVec.ofNat 8 (s.get Reg.GLOBAL.MOD_ID.GRADE)])
      .next (s.setReady pgCROWN true)

/-! The mailbox. -/

namespace State

/-- The bytes of the request in MB_REQ. -/
def mbReq (s : State) : List Byte := (List.range 64).flatMap fun i => toBytes 4 (s.get (Reg.CROWN.MB_REQ.DATA i))

/-- Write bytes into MB_RSP, the rest zero. -/
def putRsp (s : State) (bs : List Byte) : State :=
  (List.range 64).foldl (fun s i => s.put (Reg.CROWN.MB_RSP.DATA i) (ofBytes ((bs.drop (4 * i)).take 4))) s

/-- The bytes of MB_RSP. -/
def mbRsp (s : State) : List Byte := (List.range 64).flatMap fun i => toBytes 4 (s.get (Reg.CROWN.MB_RSP.DATA i))

end State

/-- A response message (the mailbox header, R408, R525): no payload unless the status is OK. -/
def mbMessage (cmd seq status : Nat) (payload : List Byte) : List Byte :=
  let p := if status = 0 then payload else []
  [0, 1] ++ toBytes 2 cmd ++ toBytes 4 seq ++ toBytes 2 p.length ++ [BitVec.ofNat 8 status] ++ List.replicate 5 0 ++ p

namespace State

/-- Finish a mailbox request: BUSY clears, DONE and MB_DONE are set, the SEQ and its response are kept (R407). -/
def mbFinish (s : State) (seq : Nat) : State :=
  let s := (s.put Reg.CROWN.MB_STAT.BUSY 0).put Reg.CROWN.MB_STAT.DONE 1
  let s := s.modCrown fun c => { c with lastSeq := insert 0 (seq, s.mbRsp) c.lastSeq }
  s.cause pgCROWN 6

/-- Answer a request on its path. The mailbox's response is in MB_RSP for the holder to complete (MB_COMPLETE); the always-on responder completes one that it has answered (`self`: the token was NONE, R409). -/
def mbAnswer (s : State) (self : Bool) (path : MbPath) (seq : Nat) (msg : List Byte) : State :=
  match path with
  | .mailbox => let s := s.putRsp msg; if self then s.mbFinish seq else s
  | .mctp _ => (s.modCrown fun c => { c with lastSeq := insert 1 (seq, msg) c.lastSeq }).emit (.mctp msg)

end State

/-- The commands of R408 by number. -/
def mbKnown (cmd : Nat) : Bool :=
  [0x0001, 0x0002, 0x0010, 0x0011, 0x0020, 0x0030, 0x0031, 0x0032, 0x0040, 0x0041, 0x0050, 0x0060].contains cmd

/-- What a request is answered with before its own work (R408, R409, R421): VERSION; NOT_READY while the token is NONE, before READY or in RECOVERY, unless the command is one that is served there; BAD_CMD. -/
def State.mbEarly (s : State) (req : List Byte) (inRecovery whileNone : Bool) : Option Nat :=
  if ofBytes ((req.drop 1).take 1) ≠ 1 then some 0x03
  else if s.holder = 2 then (if whileNone then none else some 0x06)
  else if !s.isReady pgCROWN || (s.get Reg.CROWN.FW_STAT.STATE == 3 && !inRecovery) then some 0x06
  else if !mbKnown (ofBytes ((req.drop 2).take 2)) then some 0x01
  else none

/-- The stored response to a request that repeats the last SEQ of its path (R407); the always-on responder repeats only what it serves itself (log entry 12). -/
def State.mbStored (s : State) (path : MbPath) (seq : Nat) (whileNone : Bool) : Option (List Byte) :=
  (lookup (match path with | .mailbox => 0 | .mctp _ => 1) s.crown.lastSeq).bind fun q => if q.1 = seq ∧ (s.holder ≠ 2 ∨ whileNone) then some q.2 else none

/-- The frame of every mailbox command (R407 to R409, R421, R525): the request must be waiting and name the command (an MCTP message that names none comes with any of them); a halted core serves nothing (R517); a repeated SEQ is answered from the stored response; then version, who serves it, its length, the reserved bytes of its header (log entry 12), and the command's own work, which answers a status and a payload. -/
def mailbox (path : MbPath) (cmd reqLen : Nat) (inRecovery whileNone : Bool) (run : State → List Byte → State × Nat × List Byte) (s : State) : Res :=
  let req := match path with | .mailbox => s.mbReq | .mctp m => m
  let waiting := match path with | .mailbox => s.flag Reg.CROWN.MB_STAT.BUSY | .mctp _ => s.isReady pgCROWN || s.holder == 2
  let got := ofBytes ((req.drop 2).take 2)
  let served := decide (got = cmd)
  let unknown := match path with | .mailbox => false | .mctp _ => !mbKnown got
  if !waiting || s.crown.halted.contains s.holder || !(served || unknown) then .next s
  else
    let seq := ofBytes ((req.drop 4).take 4)
    let len := ofBytes ((req.drop 8).take 2)
    let self := s.holder == 2
    let say (s : State) (st : Nat) (p : List Byte) : Res := .next (s.mbAnswer self path seq (mbMessage got seq st p))
    match s.mbStored path seq (served && whileNone) with
    | some m => .next (s.mbAnswer self path seq m)
    | none =>
      match s.mbEarly req (served && inRecovery) (served && whileNone) with
      | some st => say s st []
      | none =>
        if len ≠ reqLen then say s 0x02 []
        else if ofBytes ((req.drop 11).take 5) ≠ 0 then say s 0x0B []
        else let (s', st, p) := run s ((req.drop 16).take len); say s' st p

/-- MB_GO (R407, R409): refused with BUSY while BUSY = 1; else BUSY is set. While the token is NONE the always-on responder answers VERSION and NOT_READY itself. -/
def actMbGo (src : Source) (s : State) : Res :=
  if s.flag Reg.CROWN.MB_STAT.BUSY then .next (s.refuse pgCROWN rcBusy 0x60)
  else
    let _ := src
    let s := s.put Reg.CROWN.MB_STAT.BUSY 1
    let req := s.mbReq
    let cmd := ofBytes ((req.drop 2).take 2)
    let seq := ofBytes ((req.drop 4).take 4)
    if s.holder = 2 then
      match s.mbEarly req false (cmd = 0x0001 ∨ cmd = 0x0060) with
      | some st => .next (s.mbAnswer true .mailbox seq (mbMessage cmd seq st []))
      | none => .next s
    else .next s

/-- MB_COMPLETE (R407, R408): only the holder; the request completes with what MB_RSP holds; a repeated SEQ completes with the stored response, and VERSION, BAD_CMD or NOT_READY answer a header that names no version or command that the crown serves. -/
def actMbComplete (src : Source) (s : State) : Res :=
  if !s.authorised src || src == .host then .next (s.refuse pgCROWN rcNotHolder 0x68)
  else if !s.flag Reg.CROWN.MB_STAT.BUSY then .next s
  else
    let req := s.mbReq
    let cmd := ofBytes ((req.drop 2).take 2)
    let seq := ofBytes ((req.drop 4).take 4)
    let s := match s.mbStored .mailbox seq false with
      | some m => s.putRsp m
      | none =>
        if mbKnown cmd ∧ ofBytes ((req.drop 1).take 1) = 1 then s
        else match s.mbEarly req false false with | some st => s.putRsp (mbMessage cmd seq st []) | none => s
    .next (s.mbFinish seq)

/-- GET_INFO (R408, R525). -/
def execGetInfo (path : MbPath) (s : State) : Res :=
  mailbox path 0x0001 0 true true (fun s _ =>
    (s, 0, toBytes 4 (s.word 0x40) ++ toBytes 4 (s.word 0x60200) ++ toBytes 4 (s.word 0x1040) ++ toBytes 4 (s.word 0x1090) ++ [0, 1, 0, 0]
      ++ (List.range 4).flatMap fun w => toBytes 4 (s.get (Reg.SECURITY.DEV_ID.ID w)))) s

/-- A port page is enabled (R311). -/
def State.anyPortEnabled (s : State) : Bool := (List.range 8).any fun p => s.isEnabled (flPg p)

/-- SET_MODULE_ID (R408, R311): the 12-bit ID with VALID; BUSY while any port is enabled. -/
def execSetModuleId (path : MbPath) (s : State) : Res :=
  mailbox path 0x0002 2 false false (fun s p =>
    let v := ofBytes p
    if v ≥ 4096 then (s, 0x0B, [])
    else if s.anyPortEnabled then (s, 0x04, [])
    else ((s.put (Reg.FL.MOD_ID.ID 0) v).put (Reg.FL.MOD_ID.VALID 0) 1, 0, [])) s

/-- SENSOR_READ (R408, R525). -/
def execSensorRead (path : MbPath) (s : State) : Res :=
  mailbox path 0x0010 2 false false (fun s p =>
    let f := ofBytes (p.take 1)
    let n := ofBytes ((p.drop 1).take 1)
    if n = 0 ∨ n > 60 ∨ f + n > 84 then (s, 0x0B, [])
    else (s, 0, (List.range n).flatMap fun i => toBytes 4 (s.word (0x1800 + 4 * (f + i))))) s

/-- THRESH_SET (R408, R413): the holder writes the sensor's thresholds. -/
def execThreshSet (path : MbPath) (s : State) : Res :=
  mailbox path 0x0011 12 false false (fun s p =>
    let i := ofBytes (p.take 1)
    let hi := ofBytes ((p.drop 4).take 4)
    let lo := ofBytes ((p.drop 8).take 4)
    if i > 83 ∨ ofBytes ((p.drop 1).take 3) ≠ 0 then (s, 0x0B, [])
    else
      let s := (s.put (Reg.CROWN.SENS_THR_HI.CRIT_HI i) (hi / 65536)).put (Reg.CROWN.SENS_THR_HI.WARN_HI i) hi
      ((s.put (Reg.CROWN.SENS_THR_LO.HYST i) (lo / 65536)).put (Reg.CROWN.SENS_THR_LO.CRIT_LO i) lo, 0, [])) s

/-- LOG_READ (R416, R525): up to 3 records with SEQ at or after the requested one, and the oldest SEQ present. -/
def execLogRead (path : MbPath) (s : State) : Res :=
  mailbox path 0x0020 8 true false (fun s p =>
    let f := ofBytes (p.take 4)
    let n := ofBytes ((p.drop 4).take 1)
    if n = 0 ∨ n > 3 ∨ ofBytes ((p.drop 5).take 3) ≠ 0 then (s, 0x0B, [])
    else
      let good := s.flash.log.filter (·.good)
      let rs := (good.filter (fun r => f ≤ r.seq)).take n
      (s, 0, toBytes 4 ((good.head?.map (·.seq)).getD (s.get Reg.CROWN.LOG_NEXT.SEQ)) ++ [BitVec.ofNat 8 rs.length, 0, 0, 0] ++ rs.flatMap LogRec.bytes)) s

/-- FW_ACTIVATE (R424): the staged slot becomes PENDING with TRIES = 3; STATE where no verified image is staged (log entry 12). -/
def execFwActivate (path : MbPath) (s : State) : Res :=
  mailbox path 0x0031 0 true false (fun s _ =>
    let d := dirRec s.flash
    let k := 1 - d.active
    if (s.get Reg.SECURITY.LOCK.BITS).testBit 5 then (s, 0x05, [])
    else if gauntlet s (s.flash.slot k) ≠ 0 then (s, 0x0C, [])
    else ({ s with flash := s.flash.addDir { d with pending := some k, tries := 3 } }.showDir, 0, [])) s

/-- FW_COMMIT (R424, R425): only for firmware booted from PENDING; the slot becomes ACTIVE and COMMITTED, then the rollback counter rises to its SVN. -/
def execFwCommit (path : MbPath) (s : State) : Res :=
  mailbox path 0x0032 0 false false (fun s _ =>
    let d := dirRec s.flash
    if (s.get Reg.SECURITY.LOCK.BITS).testBit 5 then (s, 0x05, [])
    else if !s.crown.bootedPending then (s, 0x0C, [])
    else
      let k := s.get Reg.CROWN.FW_STAT.BOOTED
      let s := { s with flash := s.flash.addDir { d with active := k, pending := none, tries := 0, committed := true } }
      let s := (s.modCrown fun c => { c with bootedPending := false }).showDir
      let s := (s.put Reg.CROWN.FW_STAT.STATE 1).raiseRollback (s.flash.slot k).svn
      (s, 0, [BitVec.ofNat 8 s.fuses.rollback])) s

/-- The first n journal slots from k that do not take programming: each is tried, treated as reserved and never used (R428 step 2). -/
def badRun (f : FlashS) (k : Nat) : Nat → Nat
  | 0 => 0
  | n + 1 => if f.badJournal.contains k then 1 + badRun f (k + 1) n else 0

/-- The next signature index (R428): a block is reserved by programming its journal slot, reading it back and comparing it before its first use; none is left when all 4,096 slots are programmed. -/
def sigIndex (s : State) : Option (Nat × State) :=
  let fresh : Option (Nat × State) :=
    let n := s.flash.journal.length
    let k := n + badRun s.flash n (4096 - n)
    if k < 4096 then
      some (256 * k, { s with flash := { s.flash with journal := s.flash.journal ++ List.replicate (k - n) false ++ [true] }, crown := { s.crown with sigBlock := some k, sigUsed := 1 } })
    else none
  match s.crown.sigBlock with
  | some b => if s.crown.sigUsed < 256 then some (256 * b + s.crown.sigUsed, s.modCrown fun c => { c with sigUsed := c.sigUsed + 1 }) else fresh
  | none => fresh

/-- LOCK_SET (R408, R430): sets lock bits and returns LOCK. -/
def execLockSet (path : MbPath) (s : State) : Res :=
  mailbox path 0x0050 1 false false (fun s p =>
    let s := s.put Reg.SECURITY.LOCK.BITS (s.get Reg.SECURITY.LOCK.BITS ||| ofBytes p)
    (s, 0, [BitVec.ofNat 8 (s.get Reg.SECURITY.LOCK.BITS)])) s

/-- TOKEN_ASSIGN (R409): while the token is NONE, as a host write of TOKEN.HOLDER; the holder answers STATE. -/
def execTokenAssign (path : MbPath) (s : State) : Res :=
  mailbox path 0x0060 1 true true (fun s p =>
    let k := ofBytes p
    if s.holder ≠ 2 then (s, 0x0C, [])
    else if k > 1 then (s, 0x0B, [])
    else if s.get (if k = 0 then Reg.CROWN.HB_STAT.MISS_W else Reg.CROWN.HB_STAT.MISS_E) ≠ 0 then (s.refuse pgCROWN rcDep 0x40, 0x06, [])
    else ((s.accept pgCROWN).moveToken k, 0, [])) s

/-- CORE_HALT (R517): a core reads an uncorrectable word of its own SRAM, halts and stops its heartbeats; the other core's record reports it. -/
def execCoreHalt (core : Fin 2) (addr : Nat) (s : State) : Res :=
  let bad := s.crown.sramFlips.any fun f => f.1 = core.val && f.2.1 = addr && f.2.2.length ≥ 2
  if !bad || s.crown.halted.contains core.val then .next s
  else
    let s := s.modCrown fun c => { c with halted := core.val :: c.halted }
    .next (s.coreLog (1 - core.val) (State.pageSource pgCROWN) 0x000B 3 ([BitVec.ofNat 8 core.val] ++ toBytes 4 addr))

end Sys2Proof.Machine
end

