-- ==== Sys2Proof/Machine/Flit.lean ====
section
/-! DEFINITION. B-net flits, headers and link units (R239 to R242, R303, R304, R306), and the wiring of the switches (R236, R238). -/
namespace Sys2Proof.Machine

/-! Headers (R240, R241). -/

def opRD : Nat := 0
def opWR : Nat := 1
def opATOM : Nat := 2
def opRDRSP : Nat := 3
def opWRACK : Nat := 4
def opEVT : Nat := 5
def opRED : Nat := 6
def opREDRES : Nat := 7
def opFNC : Nat := 8
def opFNCACK : Nat := 9
def opPROBE : Nat := 10

def Hdr.zero : Hdr := ⟨0, 0, 0, 0, 0, 0, 0, 0, 0⟩

/-- The 128 bits of a header (R240). -/
def Hdr.pack (h : Hdr) : Nat :=
  low 48 h.addr * 2 ^ 80 + low 12 h.tag * 2 ^ 68 + low 12 h.sizeM1 * 2 ^ 56 + low 4 h.opc * 2 ^ 52 + low 4 h.status * 2 ^ 48
    + low 12 h.dmod * 2 ^ 36 + low 12 h.smod * 2 ^ 24 + low 9 h.ep * 2 ^ 15 + low 15 h.aux

/-- The header that 128 bits hold (R240). -/
def Hdr.unpack (n : Nat) : Hdr :=
  ⟨bits n 127 80, bits n 79 68, bits n 67 56, bits n 55 52, bits n 51 48, bits n 47 36, bits n 35 24, bits n 23 15, bits n 14 0⟩

/-- OPC and AUX of a request by its operation: 0 RD, 1 WR, 2 to 9 an atomic (R240, R241). -/
def opcOf (op : Nat) : Nat := min op opATOM
def auxOf (op : Nat) : Nat := op - opATOM

/-- The classes and VCs in which an operation may travel (R241): PROBE in any legal class, a reserved OPC in none. -/
def opcOk (opc cls : Nat) (vc : Bool) : Bool :=
  if opc ≤ opATOM ∨ opc = opFNC then cls == 3 || (cls == 5 && !vc)
  else if opc = opRDRSP ∨ opc = opWRACK ∨ opc = opFNCACK then cls == 1 || (cls == 5 && vc)
  else if opc = opEVT then cls == 0
  else if opc = opRED ∨ opc = opREDRES then cls == 2
  else opc == opPROBE && decide (cls < 6)

/-- A packet whose head states an operation in a class that R241 does not allow. -/
def badHead (luck : Luck) : Bool := match luck.hdr with | some (o, c, v) => !opcOk o.val c.val v | none => false

/-! Flits (R239, R242). -/

/-- Bytes filled up with zeros. -/
def pad (n : Nat) (l : List Byte) : List Byte := (l ++ List.replicate n 0).take n

/-- Flits of a packet (R242): a head flit, which holds at most 48 bytes of data and none of a multicast, and data flits. -/
def flitsOf (size : Nat) (mcast : Bool) : Nat := if size ≤ 48 ∧ !mcast then 1 else 1 + (size + 63) / 64

/-- The 64 data bytes of flit k (R240, R242, R257): the head holds the header, then inline data or the destination mask. -/
def flitData (h : Hdr) (mask : Option (List Byte)) (data : List Byte) (k : Nat) : List Byte :=
  if k = 0 then toBytes 16 h.pack ++ pad 48 (match mask with | some m => m | none => if data.length ≤ 48 then data else [])
  else pad 64 (data.drop (64 * (k - 1)))

/-- Sideband bits [23:0] of a flit (R239). -/
def sideband (dst cls : Nat) (vc head tail poison fence mcast epoch : Bool) : Nat :=
  (if head && !mcast then low 9 dst * 2 ^ 15 else 0) + low 3 cls * 2 ^ 12 + bnat vc * 2 ^ 11 + bnat head * 2 ^ 10 + bnat tail * 2 ^ 9
    + bnat poison * 2 ^ 8 + bnat fence * 2 ^ 7 + bnat mcast * 2 ^ 6 + bnat epoch * 2 ^ 5

/-- The CRC-16 of R239 over data and n bytes of flags, most significant bit first (DESIGN CHOICE, log entry 24: the order of the bits in the CRC). -/
def unitCrc (data : List Byte) (n flags : Nat) : Nat := crcFeed 2 0xFFFF (data ++ (toBytes n flags).reverse)

/-- A flit: its 64 data bytes and its 40 sideband bits. -/
def flit (data : List Byte) (side : Nat) : List Byte × Nat := (data, unitCrc data 3 side * 2 ^ 24 + side)

/-- A multicast packet's mask: bit EP stands for endpoint EP (R257). -/
def maskBytes (eps : List Nat) : List Byte := toBytes 48 (eps.eraseDups.foldl (fun m e => m + 2 ^ e) 0)

/-- The header of a request (R240, R241). -/
def pktHdr (p : Pkt) : Hdr :=
  ⟨p.addr.toNat, p.tag.toNat, p.size - 1, opcOf p.op.val, 0, p.dmod.toNat, p.smod.toNat, p.src.val, auxOf p.op.val⟩

/-- The number of flits of a request. -/
def pktFlitCount (p : Pkt) : Nat := if p.data.isEmpty then 1 else flitsOf p.data.length p.mcast.isSome

/-- The flits of a request on its way to an endpoint (R239, R240, R242, R257). -/
def pktFlits (p : Pkt) (dst : Nat) : List (List Byte × Nat) :=
  let mask := p.mcast.map fun l => maskBytes (l.map (·.val))
  (List.range (pktFlitCount p)).map fun k =>
    flit (flitData (pktHdr p) mask p.data k) (sideband dst p.cls.val false (k == 0) (k + 1 == pktFlitCount p) false false p.mcast.isSome p.epoch)

/-! Link units (R303, R304). -/

/-- The 68 bytes of a link unit: data, then the trailer, low byte first. -/
def linkUnit (vc : Nat) (head tail poison fence bcast : Bool) (data : List Byte) : List Byte :=
  let flags := low 4 vc * 2 ^ 12 + bnat head * 2 ^ 11 + bnat tail * 2 ^ 10 + bnat poison * 2 ^ 9 + bnat fence * 2 ^ 8 + bnat bcast * 2 ^ 7
  let d := pad 64 data
  d ++ toBytes 4 (unitCrc d 2 flags * 2 ^ 16 + flags)

/-- Units that data of a size take. -/
def unitsOf (size : Nat) : Nat := flitsOf size false

def LinkItem.units (i : LinkItem) : Nat :=
  match i.kind with
  | .mgmt | .token => 1
  | _ => unitsOf i.data.length

/-- Unit k of an item as it is sent; of a packet with a poisoned data flit the last carries POISON. -/
def LinkItem.unit (i : LinkItem) (k : Nat) : List Byte :=
  match i.kind with
  | .mgmt | .token => linkUnit 14 true true false false false i.data
  | _ => linkUnit i.vc (k == 0) (k + 1 == i.units) (i.poison && k + 1 == i.units) (i.kind == .fence) (i.kind == .bcast) (flitData i.hdr none i.data k)

/-- An idle unit: VC 15, and nothing in it. -/
def idleUnit : List Byte := linkUnit 15 true true false false false []

/-- Receive buffers per VC, in units (R306). -/
def vcBuffer (vc : Nat) : Nat := [64, 64, 128, 128, 32, 32, 64, 64, 128, 128, 0, 0, 0, 0, 16].getD vc 0

/-! Management units (R306). -/

def mgmtCredit (vc n : Nat) : List Byte := [0x01, BitVec.ofNat 8 vc] ++ toBytes 2 n
def mgmtToken (tok id : Nat) : List Byte := [0x02, 0, 0, 0] ++ toBytes 4 tok ++ toBytes 2 id
def mgmtBarrier (k : Nat) : List Byte := [0x03, BitVec.ofNat 8 k]
def mgmtGrant (g n : Nat) : List Byte := [0x04, BitVec.ofNat 8 g, BitVec.ofNat 8 n]
def mgmtReturn (g n : Nat) : List Byte := [0x05, BitVec.ofNat 8 g, BitVec.ofNat 8 n]

/-- A CREDIT unit, which needs no credit of the management VC (log entry 18). -/
def LinkItem.isCredit (i : LinkItem) : Bool := i.kind == .mgmt && i.data.head? == some 1

/-! The switches (R236, R238). -/

/-- The spine (0 to 11) to which uplink u of leaf L goes (R236). -/
def spineOf (leaf u : Nat) : Nat :=
  let l := leaf % 12
  let h := leaf / 12
  if u < 8 then 6 * h + (l + u) % 6 else 6 * (1 - h) + (l + u - 8) % 6

/-- The links of a spine in the order of its ports (R236): ascending (leaf, uplink). -/
def spineLinks (sp : Nat) : List (Nat × Nat) :=
  (List.range 24).flatMap fun l => ((List.range 16).filter fun u => spineOf l u == sp).map fun u => (l, u)

/-- The uplinks that a leaf may use (R238): all while both halves run, else those of its own half. -/
def upAllowed (both : Bool) (u : Nat) : Bool := both || decide (u < 8)

/-- Switch sw, input port `port`, lies on a path that a packet from an endpoint to another may take (R236, R238): its source's leaf, a spine that an allowed uplink reaches, its destination's leaf, or the destination NI. -/
def onPath (both : Bool) (src dst sw port : Nat) : Bool :=
  let ls := src / 16
  let ld := dst / 16
  let reach (sp : Nat) : Bool := (List.range 16).any fun u => upAllowed both u && spineOf ls u == sp
  if sw < 24 then
    (sw == ls && port == src % 16) || (sw == ld && decide (16 ≤ port) && upAllowed both (port - 16) && reach (spineOf ld (port - 16)))
  else if sw < 36 then
    match (spineLinks (sw - 24))[port]? with
    | some (l, u) => l == ls && upAllowed both u
    | none => false
  else true

/-- The same for a result line from a spine (0 to 11) to an endpoint (R260). -/
def fromSpine (both : Bool) (sp dst sw port : Nat) : Bool :=
  (sw == dst / 16 && decide (16 ≤ port) && upAllowed both (port - 16) && spineOf (dst / 16) (port - 16) == sp) || sw == 36

/-- The failures among those named that a packet of n flits can meet (R245): of its flits, at the places on its path, and none after the failure of its head, with which it is discarded. -/
def flitsFail (here : Nat → Nat → Bool) (n : Nat) : List BadFlit → List BadFlit
  | [] => []
  | b :: t =>
    if decide (n ≤ b.flit) || !here b.sw.val b.port.val then flitsFail here n t
    else if b.flit = 0 then [b]
    else b :: flitsFail here n t

end Sys2Proof.Machine
end

