-- ==== Sys2Proof/Machine/Scale.lean ====
section
/-! DEFINITION. The scale controller (R152 to R156, R169) and the S-net flags (R270). -/
namespace Sys2Proof.Machine
namespace State

/-- Set or clear an S-net flag. -/
def setFlag (s : State) (i : Nat) (v : Bool) : State := s.put Reg.SNET.FLAGS.FLAG (setBit (s.get Reg.SNET.FLAGS.FLAG) i v)

/-- A flag change by a tile, or by the issue controller (256): of a set and a clear that different ones make in one launch period the set takes effect (R270). -/
def changeFlag (s : State) (who i : Nat) (v : Bool) : State :=
  if v then (s.setFlag i true).modIssue fun x => { x with flagsSet := (i, who) :: x.flagsSet }
  else if s.issue.flagsSet.any fun x => x.1 == i && x.2 != who then s
  else s.setFlag i false

/-- Tiles of SCALE.TILE_MASK. -/
def scaleTiles (s : State) : List Nat := (List.range 256).filter fun n => (s.get (Reg.SCALE.TILE_MASK.TILES (n / 32))).testBit (n % 32)

/-- The channels of tile n bound to tensor t. -/
def boundChans (s : State) (n t : Nat) : List Nat :=
  (List.range 16).filter fun c => s.flag (Reg.QUANT.CH_CFG.BOUND n c) && s.get (Reg.QUANT.CH_CFG.TENSOR n c) == t

/-- Counts shifted right together until the value count is below 2^23 (R152). -/
def shiftCounts (clip val : Nat) : Nat × Nat :=
  let k := bitLen val - 23
  (clip >>> k, val >>> k)

/-- The record of tile n: amax, clip and value counts of its 64 tensors (R152). -/
def tileRecord (s : State) (n : Nat) : List (Nat × Nat × Nat) :=
  (List.range 64).map fun t =>
    let r := (s.boundChans n t).foldl (fun (a : Nat × Nat × Nat) c =>
      (max a.1 (s.get (Reg.QUANT.CH_AMAX.AMAX n c)), a.2.1 + s.get (Reg.QUANT.CH_CLIP.CNT n c), a.2.2 + s.get (Reg.QUANT.CH_VAL.CNT n c))) (0, 0, 0)
    (r.1, shiftCounts r.2.1 r.2.2)

/-- The live counters of bound channels are cleared (R152). -/
def clearLive (s : State) (n : Nat) : State :=
  let s := s.modTile n fun t => { t with clipSeen := [] }
  ((List.range 16).filter fun c => s.flag (Reg.QUANT.CH_CFG.BOUND n c)).foldl (fun s c =>
    ((s.put (Reg.QUANT.CH_AMAX.AMAX n c) 0).put (Reg.QUANT.CH_CLIP.CNT n c) 0).put (Reg.QUANT.CH_VAL.CNT n c) 0) s

/-- A retune trigger (R152, R154): overrun while one is in progress. A disabled controller takes none (log entry 16). -/
def retune (s : State) : State :=
  if !s.isEnabled pgSCALE then s
  else if s.flag Reg.SCALE.STAT.ACTIVE then (s.bump Reg.SCALE.OVERRUN_CNT.CNT).cause pgSCALE 6
  else
    let ts := s.scaleTiles.filter (fun n => s.domOn n)
    let recs := ts.map fun n => (n, s.tileRecord n)
    let s := ts.foldl clearLive s
    ({ s with scale := { s.scale with sent := s.scale.sent ++ recs, arrived := [] } }.put Reg.SCALE.STAT.ACTIVE 1).put Reg.SCALE.CTRL.RETUNE 1

/-- A tile's record arrives at the controller (R152, R154): one of a retune that has timed out comes first, is discarded and counted. -/
def scaleArrive (s : State) (n : Nat) : State :=
  if s.scale.late.contains n then { s with scale := { s.scale with late := s.scale.late.erase n } }.bump Reg.SCALE.LATE_CNT.CNT
  else
  match s.scale.sent.find? (fun r => r.1 == n) with
  | none => s
  | some r =>
    let s := { s with scale := { s.scale with sent := s.scale.sent.erase r } }
    if s.flag Reg.SCALE.STAT.ACTIVE then { s with scale := { s.scale with arrived := s.scale.arrived ++ [r] } }
    else s.bump Reg.SCALE.LATE_CNT.CNT

/-- BASE and D of a tensor, laid out as in CH_EXP. -/
def tBase (s : State) (t : Nat) : Int := signed 8 (bits (s.get (Reg.SCALE.T_EXP.EXP t)) 31 24)
def tD (s : State) (t : Nat) : Int := signed 8 (bits (s.get (Reg.SCALE.T_EXP.EXP t)) 15 8)
def setTexp (s : State) (t : Nat) (b d : Int) : State := s.put (Reg.SCALE.T_EXP.EXP t) (unsigned 8 b * 2 ^ 24 + unsigned 8 d * 2 ^ 8)

/-- The controller sends BASE and D of the tensors to their bound channels, on tiles in hardware mode (R153, R156). -/
def sendExps (s : State) (ts : List Nat) : State :=
  ((List.range 256).filter (fun n => s.domOn n && !s.hostMode (tilePg n 6))).foldl (fun s n =>
    (List.range 16).foldl (fun s c =>
      let t := s.get (Reg.QUANT.CH_CFG.TENSOR n c)
      if s.flag (Reg.QUANT.CH_CFG.BOUND n c) && ts.contains t then
        (s.put (Reg.QUANT.CH_EXP.BASE n c) (unsigned 8 (s.tBase t))).put (Reg.QUANT.CH_EXP.D n c) (unsigned 8 (s.tD t))
      else s) s) s

/-- DONE, and the flag of CFG.FLAG: its row has it set at every DONE (R153, R156). -/
def scaleDone (s : State) : State :=
  let s := ((s.put Reg.SCALE.STAT.ACTIVE 0).put Reg.SCALE.CTRL.RETUNE 0).put Reg.SCALE.STAT.DONE 1
  let s := s.cause pgSCALE 4
  if s.flag Reg.SCALE.CFG.FLAG_EN then s.setFlag (s.get Reg.SCALE.CFG.FLAG) true else s

/-- The gathered values of tensor t over the arrived records. -/
def gather (s : State) (t : Nat) : Nat × Nat × Nat :=
  s.scale.arrived.foldl (fun (a : Nat × Nat × Nat) r =>
    let e := r.2.getD t (0, 0, 0)
    (max a.1 e.1, low 32 (a.2.1 + e.2.1), low 32 (a.2.2 + e.2.2))) (0, 0, 0)

/-- The new D of a tensor (R153). -/
def newD (share target : Nat) (d dmin dmax : Int) : Int :=
  if share > target ∧ d > dmin then d - 1 else if 4 * share < target ∧ d < dmax then d + 1 else d

/-- One tensor's update in hardware mode (R153). -/
def updTensor (s : State) (t : Nat) : State :=
  let val := s.get (Reg.SCALE.T_VAL.VALUE t)
  let clip := s.get (Reg.SCALE.T_CLIP.VALUE t)
  let amax := s.get (Reg.SCALE.T_AMAX.VALUE t)
  let d := s.tD t
  let d := if val = 0 then d else
    newD (clip * 65536 / val) (s.get (Reg.SCALE.T_CFG.TARGET t)) d (signed 8 (s.get (Reg.SCALE.T_LIM.DMIN t))) (signed 8 (s.get (Reg.SCALE.T_LIM.DMAX t)))
  let h := s.get (Reg.SCALE.T_CFG.HIST t) + 1
  let k := getAt 0 t s.scale.histN
  let s := { s with scale := { s.scale with hist := insert (16 * t + k % h) (BitVec.ofNat 32 amax) s.scale.hist,
                                            histN := setAt 0 t (k + 1) s.scale.histN } }
  let hmax := (List.range h).foldl (fun m i => max m ((lookup (16 * t + i) s.scale.hist).map (·.toNat) |>.getD 0)) 0
  let base := match f32.dec hmax with
    | .fin _ 0 _ => s.tBase t
    | .fin _ m e =>
      let (cm, ce) := codeMax (s.get (Reg.SCALE.T_CFG.FMT t))
      let (a, b) := ratio m cm (e - ce)
      max (-127) (min 127 (ceilLog2 a b))
    | _ => 127
  s.setTexp t base d

/-- A tensor is enabled: no history value is valid yet (R153). -/
def clearHist (s : State) (t : Nat) : State :=
  { s with scale := { s.scale with hist := s.scale.hist.filter (fun c => c.1 / 16 != t), histN := remove t s.scale.histN } }

/-- Tensors with EN = 1. -/
def tunedTensors (s : State) : List Nat := (List.range 64).filter fun t => s.flag (Reg.SCALE.T_CFG.EN t)

end State

/-- RETUNE (R152, R154): a step closure or a write of CTRL.RETUNE triggers a retune. -/
def actRetune (s : State) : Res := .next s.retune

/-- RETUNE_UPDATE (R153, R156): every masked tile's record has arrived; the gathered entries are stored; in hardware mode every enabled tensor is updated and sent; DONE. -/
def execRetuneUpdate (s : State) : Res :=
  if !s.flag Reg.SCALE.STAT.ACTIVE || s.scaleTiles.any (fun n => !s.scale.arrived.any (fun r => r.1 == n)) then .next s
  else
    let s := (List.range 64).foldl (fun s t =>
      let g := s.gather t
      ((s.put (Reg.SCALE.T_AMAX.VALUE t) g.1).put (Reg.SCALE.T_CLIP.VALUE t) g.2.1).put (Reg.SCALE.T_VAL.VALUE t) g.2.2) s
    if s.hostMode pgSCALE then .next s.scaleDone
    else
      let s := s.tunedTensors.foldl State.updTensor s
      .next ((s.sendExps s.tunedTensors).scaleDone)

/-- RETUNE_TIMEOUT (R154): a record has not arrived in 8,192 cycles; nothing is applied and the counts are lost. -/
def execRetuneTimeout (s : State) : Res :=
  if !s.flag Reg.SCALE.STAT.ACTIVE || s.scaleTiles.all (fun n => s.scale.arrived.any (fun r => r.1 == n)) then .next s
  else
    let s := { s with scale := { s.scale with arrived := [], sent := [], late := s.scale.late ++ s.scale.sent.map Prod.fst } }
    .next ((((s.put Reg.SCALE.STAT.ACTIVE 0).put Reg.SCALE.CTRL.RETUNE 0).put Reg.SCALE.STAT.TIMEOUT 1).cause pgSCALE 5)

/-- APPLY (R156): in host-assisted mode every enabled tensor's T_EXP is sent; refused with BUSY during a retune. -/
def actApply (src : Source) (s : State) : Res :=
  let _ := src
  if s.flag Reg.SCALE.STAT.ACTIVE then .next (s.refuse pgSCALE rcBusy 0x44)
  else if !s.isEnabled pgSCALE || !s.hostMode pgSCALE then .next s
  else .next ((s.sendExps s.tunedTensors).scaleDone)

end Sys2Proof.Machine
end

