-- ==== Sys2Proof/Machine/Snet.lean ====
section
/-! DEFINITION. S-net: barriers and flags (R267 to R270). -/
namespace Sys2Proof.Machine
namespace State

/-- The members of barrier group g as a mask of tiles. -/
def barMask (s : State) (g : Nat) : Nat := (List.range 8).foldl (fun m w => m + s.get (Reg.SNETM.BAR_MASK.TILES g w) * 2 ^ (32 * w)) 0

/-- Tiles that have arrived at group g in this round. -/
def arrived (s : State) (g : Nat) : Nat := getAt 0 g s.bar

/-- The group's bit in BAR_DONE and in BAR_TMO_STAT. -/
def barDone (s : State) (g : Nat) : Bool := (s.get (Reg.SNET.BAR_DONE.DONE (g / 32))).testBit (g % 32)
def setBarDone (s : State) (g : Nat) (v : Bool) : State :=
  s.put (Reg.SNET.BAR_DONE.DONE (g / 32)) (setBit (s.get (Reg.SNET.BAR_DONE.DONE (g / 32))) (g % 32) v)
def barTmo (s : State) (g : Nat) : Bool := (s.get (Reg.SNET.BAR_TMO_STAT.TMO (g / 32))).testBit (g % 32)

/-- The base of the SNET page. -/
def pgSNET : Nat := fabPg 2

/-- An arrival that counts for nothing (R268, R278). -/
def barErr (s : State) : State := (s.bump Reg.SNET.BAR_ERR_CNT.CNT).cause pgSNET 5

/-- Tile n arrives at group g (R268, R269). -/
def arrive (s : State) (n g : Nat) : State :=
  if s.barTmo g || !(s.barMask g).testBit n || (s.arrived g).testBit n then s.barErr
  else { s with bar := insert g (setBit (s.arrived g) n true) s.bar }

/-- Every member of a group with members has arrived (R268). -/
def barFull (s : State) (g : Nat) : Bool := s.barMask g != 0 && s.barMask g &&& s.arrived g == s.barMask g

end State

/-- ARRIVE (R268). -/
def execArrive (n : TileId) (g : Fin 64) (s : State) : Res := s.slot n (·.arrive n.val g.val)

/-- FLAG (R270): a tile sets or clears an S-net flag. -/
def execFlag (n : TileId) (f : Fin 16) (set : Bool) (s : State) : Res := s.slot n (·.changeFlag n.val f.val set)

/-- FLAGS (R270, R57): a register write of the flags takes effect at the flag source. -/
def actFlags (src : Source) (v : BitVec 16) (s : State) : Res :=
  let _ := src
  .next (if s.pageUp (pageAt State.pgSNET) then s.put Reg.SNET.FLAGS.FLAG v.toNat else s)

/-- BAR_MASK (R268, R275): a write of one word of a group's mask; the arrivals already recorded stay, so the group can now be complete. -/
def actBarMask (src : Source) (g : Fin 64) (w : Fin 8) (v : Word32) (s : State) : Res :=
  let _ := src
  .next (if s.pageUp (pageAt (fabPg 3)) then s.put (Reg.SNETM.BAR_MASK.TILES g.val w.val) v.toNat else s)

/-- BAR_TMO (R269): a group with an arrival has not completed in BAR_TMO cycles: the round is abandoned and its bit in BAR_TMO_STAT set. -/
def execBarTmo (g : Fin 64) (s : State) : Res :=
  if s.get Reg.SNET.BAR_TMO.CYC = 0 || s.arrived g.val = 0 || s.barFull g.val || s.barTmo g.val then .next s
  else
    let s := { s with bar := remove g.val s.bar }
    let f := Reg.SNET.BAR_TMO_STAT.TMO (g.val / 32)
    .next (((s.put f (setBit (s.get f) (g.val % 32) true)).bump Reg.SNET.BAR_TMO_CNT.CNT).causeErr State.pgSNET 4)

end Sys2Proof.Machine
end

