-- ==== Sys2Proof/Machine/Neuron.lean ====
section
/-! DEFINITION. Neuron records, parameter sets, the INTEGRATE sweep and readout windows (R178 to R186, R203, R204). -/
namespace Sys2Proof.Machine
namespace State

/-- Change the events part of a tile. -/
def modEvt (s : State) (n : Nat) (f : EvtS → EvtS) : State := s.modTile n fun t => { t with evt := f t.evt }
def evt (s : State) (n : Nat) : EvtS := (s.tile n).evt

def pgEVENT (n : Nat) : Nat := tilePg n 7
def pgNEURON (n : Nat) : Nat := tilePg n 8
def pgSYNAPSE (n : Nat) : Nat := tilePg n 9
def pgLEARN (n : Nat) : Nat := tilePg n 10
def pgEGRESS (n : Nat) : Nat := tilePg n 11

/-! Records (R178). -/

/-- Neurons of tile n. -/
def neurons (s : State) (n : Nat) : Nat := s.get (Reg.NEURON.N_CFG.N_M1 n) + 1

/-- World w is served by tile n. -/
def hasWorld (s : State) (n w : Nat) : Bool :=
  decide (s.get (Reg.NEURON.WORLD.W_FIRST n) ≤ w) && decide (w < s.get (Reg.NEURON.WORLD.W_FIRST n) + s.get (Reg.NEURON.WORLD.W_COUNT n))

/-- The store offset of the record of a neuron in a world of the tile's range (R178); none where the mapping leaves the bank (log entry 17). -/
def recordOfs (s : State) (n neuron w : Nat) : Option Nat :=
  let nb := s.get (Reg.NEURON.N_CFG.NB n)
  let i := (w - s.get (Reg.NEURON.WORLD.W_FIRST n)) * s.neurons n + neuron
  let l := i / 4
  let bank := s.get (Reg.NEURON.N_CFG.BANK0 n) + l % nb
  let line := s.get (Reg.NEURON.STATE_LINE.LINE n) + l / nb
  if nb = 0 ∨ 15 < bank ∨ 3072 ≤ line then none else some (bank * 0x30000 + line * 64 + 16 * (i % 4))

/-! Parameter sets (R181). -/

/-- Word i of a list of bytes. -/
def wordAt (bs : List Byte) (i : Nat) : Nat := ofBytes ((bs.drop (4 * i)).take 4)

def inUnit (x : Nat) : Bool := let v := f32.dec x; !v.lt (.fin false 0 0) && !Num.lt (.fin false 1 0) v && !v.isNan
def isFinite (x : Nat) : Bool := !(f32.dec x).isNan && !(f32.dec x).isInf

/-- The load checks of a set. -/
def psetOk (bs : List Byte) : Bool :=
  let f := (List.range 11).map (wordAt bs)
  f.all isFinite && (f32.dec (f.getD 3 0)).lt (f32.dec (f.getD 2 0)) && [0, 4, 5, 7, 8].all (fun i => inUnit (f.getD i 0))
    && !(f32.dec (f.getD 6 0)).lt (.fin false 0 0) && wordAt bs 11 / 512 == 0 && (bs.drop 0x30).all (· == 0)

/-- Set p is read, checked and copied; one that cannot be read is bad (log entry 17). -/
def loadPset (s : State) (n p : Nat) : State :=
  let r := s.engineRead uEVENT n (s.get (Reg.NEURON.PSET_BASE.OFS n) + 64 * p) 64
  let bad := r.2.get (Reg.NEURON.PSET_BAD.BAD n)
  match r.1 with
  | some bs =>
    if psetOk bs then
      (r.2.modEvt n fun e => { e with psets := insert p ((List.range 12).map fun i => BitVec.ofNat 32 (wordAt bs i)) e.psets }).put
        (Reg.NEURON.PSET_BAD.BAD n) (setBit bad p false)
    else (r.2.modEvt n fun e => { e with psets := remove p e.psets }).put (Reg.NEURON.PSET_BAD.BAD n) (setBit bad p true)
  | none => (r.2.modEvt n fun e => { e with psets := remove p e.psets }).put (Reg.NEURON.PSET_BAD.BAD n) (setBit bad p true)

/-! The update of one record (R182 to R184). -/

end State

/-- A per-world record (R179). -/
structure Rec where
  v : Nat
  i : Nat
  a : Nat
  x : Nat
  y : Nat
  refr : Nat
  flags : Nat
deriving DecidableEq, Repr

def Rec.ofBytes (b : List Byte) : Rec :=
  let w := Sys2Proof.Machine.ofBytes b
  ⟨bits w 31 0, bits w 63 32, bits w 79 64, bits w 95 80, bits w 111 96, bits w 119 112, bits w 127 120⟩

def Rec.bytes (r : Rec) : List Byte :=
  toBytes 4 r.v ++ toBytes 4 r.i ++ toBytes 2 r.a ++ toBytes 2 r.x ++ toBytes 2 r.y ++ toBytes 1 r.refr ++ toBytes 1 r.flags

/-- Whole multiples of d in x, at most 8, on finite values with 0 < d ≤ x. -/
def countOf (x d : Num) : Nat :=
  match x, d with
  | .fin _ m e, .fin _ m' e' =>
    let q := min e e'
    min 8 (m * 2 ^ (e - q).toNat / (m' * 2 ^ (e' - q).toNat))
  | _, _ => 8

/-- The crossing count (R182): each operation of the quotient is FP32, rounded to nearest even. -/
def crossing (v vreset theta : Nat) : Nat :=
  let num := f32.dec (fsub v vreset)
  let den := f32.dec (fsub theta vreset)
  match num, den with
  | .fin _ m e, .fin _ m' e' =>
    let (a, b) := if e ≥ e' then (m * 2 ^ (e - e').toNat, m') else (m, m' * 2 ^ (e' - e).toNat)
    if b = 0 then 8
    else
      let k := bitLen b + 26
      let q := f32.dec (f32.pack false (a * 2 ^ k / b * 2 + (if a * 2 ^ k % b = 0 then 0 else 1)) (-(k : Int) - 1))
      countOf q (.fin false 1 0)
  | _, .fin _ _ _ => 8
  | _, _ => 1 + (Config.crossOpen v vreset theta).val

/-- The outcome of an update: the record, the emitted count k (0: no firing), whether NAN was set. -/
structure Upd where
  out : Rec
  k : Nat
  nan : Bool
deriving DecidableEq, Repr

/-- R182 with R183 and R184: p is the parameter set's twelve words. -/
def update (p : List Word32) (rmode bias : Nat) (r : Rec) : Upd :=
  let g (i : Nat) : Nat := (p.getD i 0).toNat
  let ada := (g 11).testBit 8
  -- Step 2.
  let x := fmul (g 7) (bfToF r.x)
  let y := fmul (g 8) (bfToF r.y)
  let a := if ada then fmul (g 5) (bfToF r.a) else 0
  -- Step 8 for the fields it rounds.
  let finish (v i a x y refr k : Nat) (nan : Bool) : Upd :=
    let fl := r.flags - r.flags % 4 + (if k = 0 then 0 else 1)
    ⟨⟨v, fmul (g 4) i, if ada then fToBf a else r.a, fToBf x, fToBf y, refr, if nan then setBit fl 2 true else fl⟩, k, nan⟩
  if 0 < r.refr then finish (g 3) r.i a x y (r.refr - 1) 0 false
  else
    let v := fadd (fadd (fadd (g 1) (fmul (g 0) (fsub r.v (g 1)))) r.i) bias
    if !State.isFinite v then finish (g 3) 0 a x y 0 0 true
    else
      let theta := if ada then fadd (g 2) a else g 2
      let th := f32.dec theta
      if th.isNan || (f32.dec v).lt th then finish v r.i a x y 0 0 false
      else
        let under := !(f32.dec (g 3)).lt th
        let c := if under then 8 else crossing v (g 3) theta
        let v' := if rmode = 1 then (if under then g 3 else fsub v (fsub theta (g 3))) else g 3
        let k := if rmode = 2 then max 1 c else 1
        let kf := f32.enc (.fin false k 0)
        finish v' r.i (fadd a (fmul kf (g 6))) (fadd x (fmul kf (g 9))) (fadd y (fmul kf (g 10))) (g 11 % 256) k false

namespace State

/-! The sweep (R185, R186). -/

/-- A readout counter: buffer and index. -/
def roGet (s : State) (n buf i : Nat) : Nat := getAt 0 (4096 * buf + i) (s.evt n).ro
def roSet (s : State) (n buf i v : Nat) : State := s.modEvt n fun e => { e with ro := setAt 0 (4096 * buf + i) v e.ro }
def roBuf (s : State) (n g : Nat) : Nat := if (s.evt n).roAct.testBit g then 1 else 0

/-- A firing is counted for readout (R203); RDIDX 0xFFFF is not read out (R180). -/
def readout (s : State) (n rdidx w k : Nat) : State :=
  if rdidx = 0xFFFF then s
  else
    let g := rdidx / 4096
    let o := rdidx % 4096
    let wf := s.get (Reg.NEURON.RO_GRP_W2.W_FIRST n g)
    let neu := s.get (Reg.NEURON.RO_GRP_W1.NEU n g)
    let i := s.get (Reg.NEURON.RO_GRP_W1.BASE n g) + (w - wf) * neu + o
    if s.flag (Reg.NEURON.RO_GRP_W0.EN n g) ∧ o < neu ∧ wf ≤ w ∧ w < wf + s.get (Reg.NEURON.RO_GRP_W2.W_COUNT n g) ∧ i < 4096 then
      s.roSet n (s.roBuf n g) i (min 65535 (s.roGet n (s.roBuf n g) i + k))
    else s.bump (Reg.NEURON.RO_MISS_CNT.CNT n)

/-- A fire entry (R185): `cnt` entries are in the list. -/
def fireEntry (s : State) (n base cap cnt dlp w k : Nat) : Nat × State :=
  if cap ≤ cnt then (cnt, (s.bump (Reg.NEURON.FIRE_OVF_CNT.CNT n)).cause (pgNEURON n) 4)
  else (cnt + 1, s.engineWrite uEVENT n (base + 8 * cnt) (toBytes 8 (dlp + w * 2 ^ 32 + (k - 1) * 2 ^ 46)))

/-- One record of the sweep with its static record (R180 to R182). -/
def sweepRecord (base cap n neuron w : Nat) (st : List Byte) (acc : Nat × State) : Nat × State :=
  let (cnt, s) := acc
  let q := ofBytes st
  if !q.testBit 58 then acc
  else
    let pset := bits q 39 32
    let rmode := bits q 57 56
    match lookup pset (s.evt n).psets with
    | none => (cnt, (s.bump (Reg.NEURON.NEU_SKIP_CNT.CNT n)).cause (pgNEURON n) 6)
    | some p =>
      if rmode = 3 then (cnt, (s.bump (Reg.NEURON.NEU_SKIP_CNT.CNT n)).cause (pgNEURON n) 6)
      else
        match s.recordOfs n neuron w with
        | none => acc
        | some ofs =>
          let r := s.engineRead uEVENT n ofs 16
          match r.1 with
          | none => (cnt, r.2)
          | some bs =>
            let u := update p rmode (bits q 95 64) (Rec.ofBytes bs)
            let s := r.2.engineWrite uEVENT n ofs u.out.bytes
            let s := if u.nan then (s.bump (Reg.NEURON.NEU_NAN_CNT.CNT n)).cause (pgNEURON n) 5 else s
            if u.k = 0 then (cnt, s)
            else
              let f := s.fireEntry n base cap cnt (bits q 31 0) w u.k
              (f.1, f.2.readout n (bits q 55 40) w u.k)

/-- The sweep: blocks of 256 neurons; in a block the worlds ascending, and in a world the neurons ascending; the static records of a block are read once (R186). -/
def sweepAll (s : State) (n base cap : Nat) : Nat × State :=
  let nn := s.neurons n
  (List.range ((nn + 255) / 256)).foldl (fun acc b =>
    let ns := (List.range 256).filterMap fun i => if 256 * b + i < nn then some (256 * b + i) else none
    let rd := ns.foldl (fun (a : List (Nat × List Byte) × State) k =>
      let r := a.2.engineRead uEVENT n (a.2.get (Reg.NEURON.STATIC_BASE.OFS n) + 16 * k) 16
      (match r.1 with | some bs => a.1 ++ [(k, bs)] | none => a.1, r.2)) ([], acc.2)
    (List.range (s.get (Reg.NEURON.WORLD.W_COUNT n))).foldl (fun acc w =>
      rd.1.foldl (fun acc c => sweepRecord base cap n c.1 (s.get (Reg.NEURON.WORLD.W_FIRST n) + w) c.2 acc) acc) (acc.1, rd.2)) (0, s)

/-! Readout windows (R204). -/

/-- The counters of group g that a window copies: from BASE, NEU for each world. -/
def roRange (s : State) (n g : Nat) : List Nat :=
  let base := s.get (Reg.NEURON.RO_GRP_W1.BASE n g)
  (List.range (min (4096 - base) (s.get (Reg.NEURON.RO_GRP_W1.NEU n g) * s.get (Reg.NEURON.RO_GRP_W2.W_COUNT n g)))).map (base + ·)

/-- Group g counts a REPORT; at WIN its window closes: the buffers swap and the copy of the closed counters is under way. -/
def roReport (s : State) (n g : Nat) : State :=
  if !s.flag (Reg.NEURON.RO_GRP_W0.EN n g) || (s.evt n).roSkip.testBit g then s
  else
    let c := getAt 0 g (s.evt n).roCount + 1
    if c < s.get (Reg.NEURON.RO_GRP_W0.WIN n g) then s.modEvt n fun e => { e with roCount := setAt 0 g c e.roCount }
    else
      let s := if (s.get (Reg.NEURON.RO_READY.READY n)).testBit g then (s.bump (Reg.NEURON.RO_OVR_CNT.CNT n)).cause (pgNEURON n) 8 else s
      let old := s.roBuf n g
      let data := (s.roRange n g).flatMap fun i => toBytes 2 (s.roGet n old i)
      let s := s.modEvt n fun e => { e with roCount := setAt 0 g 0 e.roCount, roAct := setBit e.roAct g (old == 0),
                                            copies := e.copies ++ [(g, s.get (Reg.NEURON.RO_GRP_W3.DEST n g), data)] }
      (s.roRange n g).foldl (fun s i => s.roSet n (1 - old) i 0) s

end State

/-- PSET_LOAD (R181): the 64 sets are copied in ascending order; LOAD reads 1 while the load lasts, and a write of it then has no effect (log entry 17). -/
def actPsetLoad (src : Source) (n : TileId) (s : State) : Res :=
  let _ := src
  if !s.pageUp (pageAt (State.pgNEURON n.val)) || s.flag (Reg.NEURON.PSET_CTRL.LOAD n.val) then .next s
  else .next ((List.range 64).foldl (fun s p => s.loadPset n.val p) (s.put (Reg.NEURON.PSET_CTRL.LOAD n.val) 1))

/-- PSET_LOAD_END (R181): LOAD reads 0 again. -/
def execPsetLoadEnd (n : TileId) (s : State) : Res := .next (s.put (Reg.NEURON.PSET_CTRL.LOAD n.val) 0)

end Sys2Proof.Machine
end

