-- ==== Sys2Proof/Machine/Net.lean ====
section
/-! DEFINITION. B-net as the module's units use it: endpoints, decoding, injection with the fence accounts, completions (R236 to R248, R255). -/
namespace Sys2Proof.Machine

/-- Endpoint of a tile, a slice, a memory controller, a mover, a check channel (R237). -/
def epTile (n : Nat) : Nat := if n < 128 then n else n + 64
def epSlice (s : Nat) : Nat := if s < 32 then 128 + s else s + 288
def epMem (c : Nat) : Nat := if c < 16 then 160 + c else 336 + c
def epMover (m : Nat) : Nat := [186, 187, 376, 377].getD (m / 8) 0
def epFl (p : Nat) : Nat := if p < 4 then 178 + p else 364 + p
def epISSUE : Nat := 184
def epRBRIDGE : Nat := 185
def epPcieIn : Nat := 176
def epPcieOut : Nat := 177
def epSCALE : Nat := 379

/-- What stands at an endpoint (R237). -/
inductive EpKind where
  | tile (n : Nat) | slice (s : Nat) | mem (c : Nat) | fl (p : Nat) | other | none
deriving DecidableEq, Repr

def epKind (e : Nat) : EpKind :=
  if e < 128 then .tile e
  else if e < 160 then .slice (e - 128)
  else if e < 176 then .mem (e - 160)
  else if e < 178 then .other
  else if e < 182 then .fl (e - 178)
  else if e < 188 then .other
  else if e < 192 then .none
  else if e < 320 then .tile (e - 64)
  else if e < 352 then .slice (e - 288)
  else if e < 368 then .mem (e - 336)
  else if e < 372 then .fl (e - 368 + 4)
  else if e < 380 then .other
  else .none

/-- The half of an endpoint (R236, R237). -/
def epHalf (e : Nat) : Nat := e / 192

/-- The power domain behind an endpoint. -/
def epDomain (e : Nat) : Nat :=
  match epKind e with
  | .tile n => n
  | .slice s => 256 + s
  | .mem _ => 322
  | .fl _ => 324
  | .other => if e = 176 ∨ e = 177 ∨ e = 182 ∨ e = 183 ∨ e = 372 ∨ e = 373 then 324 else 320 + epHalf e
  | .none => 324

/-- The endpoint an address decodes to on this module (R238); none where the requester's leaf answers UNMAPPED. -/
def epOf (a : Nat) : Option Nat :=
  match region a with
  | .tile n _ => some (epTile n)
  | .hole n => some (epTile n)
  | .slice s _ => some (epSlice s)
  | .regs _ => some epRBRIDGE
  | .lpddr o => some (epMem (lpddrChan o))
  | .unmapped => none

/-- The endpoint of this module that a request goes to: that of its address, or EP 177 for host memory (R380). -/
def epOfPkt (p : Pkt) : Option Nat := if p.host.isSome then some epPcieOut else epOf p.addr.toNat

/-- The bytes from a populated address to the end of its target's populated range (R242); a controller holds single granules of 4 KiB (R342). -/
def roomAt (a : Nat) : Nat :=
  match region a with
  | .tile _ o => 0x300000 - o
  | .slice _ o => 0x400000 - o
  | .regs o => 0x4000000 - o
  | .lpddr o => 4096 - o % 4096
  | _ => 0

namespace State

/-- The module's own ID. -/
def modId (s : State) : Nat := s.get (Reg.FL.MOD_ID.ID 0)

def modNet (s : State) (f : NetS → NetS) : State := { s with net := f s.net }
def laneKey (src dst : Nat) : Nat := 8192 * src + dst
def lane (s : State) (src dst : Nat) : Lane := getAt Lane.reset (laneKey src dst) s.net.lanes
def setLane (s : State) (src dst : Nat) (l : Lane) : State :=
  s.modNet fun n => { n with lanes := setAt Lane.reset (laneKey src dst) l n.lanes }

/-- The destination NI counts a packet of an epoch (R255). -/
def countGot (s : State) (src dst : Nat) (ep : Bool) : State :=
  let k := 2 * laneKey src dst + (if ep then 1 else 0)
  s.modNet fun n => { n with got := setAt 0 k (getAt 0 k n.got + 1) n.got }

/-- A tag that no outstanding request of an endpoint uses, nor one that has timed out and can still be answered (R247). -/
def freeTag (s : State) (src : Nat) : Nat :=
  let used (t : Nat) : Bool :=
    s.net.out.any (fun p => p.src.val == src && p.tag.toNat == t) || s.posts.any (fun p => epTile p.tile == src && p.tag == t)
      || s.net.stale.contains (src, t) || s.net.reds.any (fun r => epTile r.1 == src && r.2.1 == t)
      || s.net.gates.any (fun g => epFl g.port == src && g.key == t)
  ((List.range 4096).find? fun t => !used t).getD 0

def pktKey (p : Pkt) : Nat × Nat := (p.src.val, p.tag.toNat)

/-- The packet of a request has reached its target, or is lost: of a request on its way; of one that has been given up, for which no answer comes any more unless `answered`. -/
def packetOver (s : State) (q : Pkt) (late answered : Bool) : State :=
  let s := s.modNet fun n => { n with hops := n.hops.filter fun h => h.1 != pktKey q }
  s.modNet fun n =>
    if late then { n with late := n.late.erase q, stale := if answered then n.stale else n.stale.filter (· != pktKey q) }
    else { n with past := n.past ++ [pktKey q] }

/-- Send a fence now (R255): it carries the count and the old epoch; the epoch toggles and the count clears. -/
def sendFence (s : State) (src dst : Nat) (tag : Option Nat) (ev : Option Word64) (addr : Nat) (hop : Option (Nat × Nat)) : State :=
  let l := s.lane src dst
  let f : FenceRec := ⟨src, dst, l.next, l.count, l.epoch, tag, ev, addr, hop⟩
  let s := s.setLane src dst { l with count := 0, epoch := !l.epoch, openF := some (l.next, tag), next := l.next + 1 }
  s.modNet fun n => match ev with
    | some e => { n with evts := n.evts ++ [⟨src, dst, e, l.epoch, some l.next⟩], fences := n.fences ++ [f] }
    | none => { n with fences := n.fences ++ [f] }

/-- A hidden fence (R255). -/
def hiddenFence (s : State) (src dst : Nat) : State := s.sendFence src dst none none 0 none

/-- Put a packet on its way with the account's epoch; when the count reaches 32,767 and no fence is outstanding, a hidden fence follows at once (R255). -/
def launch (s : State) (src dst : Nat) (w : Waiting) : State :=
  let l := s.lane src dst
  let s := s.setLane src dst { l with count := l.count + 1 }
  let s := s.modNet fun n => match w with
    | .req p => { n with out := n.out ++ [{ p with epoch := l.epoch }] }
    | .rsp r => { n with rsps := n.rsps ++ [{ r with epoch := l.epoch }] }
    | .evt e _ => { n with evts := n.evts ++ [⟨src, dst, e, l.epoch, none⟩] }
    | .brought p => { n with brought := n.brought ++ [(src, { p with epoch := l.epoch })] }
    | .fnc .. => n
  if l.count = 32766 ∧ l.openF.isNone then s.hiddenFence src dst else s

/-- Inject a packet at its source NI (R255): a second fence waits for the first to be confirmed; at a count of 32,767 packets wait for the hidden fence, which waits while another fence is outstanding. -/
def inject (s : State) (src dst : Nat) (w : Waiting) : State :=
  let l := s.lane src dst
  let hold := s.setLane src dst { l with wait := l.wait ++ [w] }
  match w with
  | .fnc tag addr hop => if l.openF.isSome then hold else s.sendFence src dst (some tag) none addr hop
  | .evt e true => if l.openF.isSome then hold else s.sendFence src dst none (some e) 0 none
  | _ => if l.count < 32767 then s.launch src dst w else hold

/-- A fence is confirmed or given up: a hidden fence that is due goes, and what waited is injected, in order. -/
def fenceOver (s : State) (src dst : Nat) : State :=
  let l := s.lane src dst
  let s := s.setLane src dst { l with openF := none, wait := [] }
  let s := if l.count = 32767 then s.hiddenFence src dst else s
  l.wait.foldl (fun s w => s.inject src dst w) s

/-- The destination that a source NI keeps its account for: an endpoint, or 384 + m for module m (R255, R320). -/
def destOf (s : State) (p : Pkt) : Option Nat := if p.dmod.toNat = s.modId then epOfPkt p else some (384 + p.dmod.toNat)

/-- A requester on the module sends a request to an address of the module or of another one: the request is outstanding until it completes (R247). -/
def request (s : State) (p : Pkt) : State :=
  match s.destOf p with
  | some d => s.inject p.src.val d (.req p)
  | none => s.modNet fun n => { n with out := n.out ++ [p] }

/-- Events sent to their tiles in class EVT (R175, R255). -/
def sendEvent (s : State) (src : Nat) (ev : Word64) : State :=
  s.inject src (epTile (bits ev.toNat 51 44)) (.evt ev (ev.toNat.testBit 3))

/-- A cause of the fabric's page 0, with ERR where R276 says so. -/
def fabCause (s : State) (b : Nat) : State :=
  if b = 4 ∨ b = 8 ∨ b = 9 ∨ b = 10 ∨ b = 11 then s.causeErr (fabPg 0) b else s.cause (fabPg 0) b

/-- A C-net flit with a parity error is discarded and counted (R266). -/
def parityLost (s : State) : State := (s.bump Reg.FAB0.CNET_PAR_CNT.CNT).fabCause 11

/-- An endpoint whose domain is not ON has been answered for (R248, R190). -/
def epDown (s : State) (e : Nat) : State := ((s.bump Reg.FAB0.EP_DOWN_CNT.CNT).put Reg.FAB0.EP_DOWN_LAST.EP e).fabCause 6

/-- A request to an unmapped address (R43, R276). -/
def unmapped (s : State) (src a : Nat) : State :=
  (((s.bump Reg.FAB0.UNMAPPED_CNT.CNT).put Reg.FAB0.UNMAPPED_LAST.SRC_EP src).put Reg.FAB0.UNMAPPED_LAST.ADDR a).fabCause 5

/-- A failure of a flit's CRC is counted and recorded (R245). -/
def crcDrop (s : State) (dst : Nat) (c : BadFlit) : State :=
  let s := (((s.bump Reg.FAB0.CRC_DROP_CNT.CNT).put Reg.FAB0.CRC_LAST.SWITCH c.sw.val).put Reg.FAB0.CRC_LAST.PORT (if c.sw.val = 36 then 0 else c.port.val)).put
    Reg.FAB0.CRC_LAST.EP (if c.sw.val = 36 then dst else 0)
  s.fabCause 4

/-- The failures that a packet of n flits from src to dst meets, each counted (R245); the packet is lost when there is one. -/
def bothOn (s : State) : Bool := s.effective 0 != 2 && s.effective 1 != 2
def fails (s : State) (src dst n : Nat) (luck : Luck) : List BadFlit := flitsFail (onPath s.bothOn src dst) n luck.crc
def crcDrops (s : State) (dst : Nat) (l : List BadFlit) : State := l.foldl (fun s c => s.crcDrop dst c) s

/-- The copies of a multicast packet (R245, R257): each failure is counted once; a copy whose path it lies on is lost, at a destination NI the first. The copies that arrive. -/
def copies (s : State) (here : Nat → Nat → Nat → Bool) (n : Nat) (eps : List Nat) (luck : Luck) : List Nat × State :=
  let bad (e : Nat) : List BadFlit := flitsFail (here e) n luck.crc
  let met := luck.crc.filter fun b => eps.any fun e => (bad e).contains b
  (eps.filter fun e => !((bad e).any fun b => b.sw.val != 36 || eps.head? == some e), s.crcDrops (eps.headD 0) met)

/-- A packet is discarded at the first switch (R241). -/
def badPacket (s : State) : State := (s.bump Reg.FAB0.BAD_PKT_CNT.CNT).fabCause 10

end State
end Sys2Proof.Machine
end

