-- ==== Sys2Proof/Machine/Cuff.lean ====
section
/-! DEFINITION. The cuff, where B-net crosses the seam (R29, R238, R271 to R273). -/
namespace Sys2Proof.Machine
namespace State

/-- A half's network runs: its effective clock setting is not GATED. -/
def netOn (s : State) (half : Nat) : Bool := s.effective half != 2

/-- CUFF_STAT as the held packets give it. -/
def cuffStat (s : State) : State :=
  let m (h : Nat) : Nat := ((s.net.cuff.filter fun c => c.1 == h).map (·.2.1)).eraseDups.foldl (fun n v => n + 2 ^ v) 0
  (s.put Reg.CUFF.CUFF_STAT.HELD_E2W (m 0)).put Reg.CUFF.CUFF_STAT.HELD_W2E (m 1)

/-- The WAKE vote of a half's fabric. -/
def cuffVote (s : State) (half : Nat) (v : Bool) : State :=
  let f := voteField (320 + half)
  (s.put f (setBit (s.get f) 4 v)).settle [320 + half]

/-- A packet for a half that does not run waits in the cuff (R273). -/
def cuffHold (s : State) (half vc : Nat) (i : CuffItem) : State :=
  if s.net.cuff.contains (half, vc, i) then s
  else
    let s := s.bump Reg.CUFF.CUFF_HOLD_CNT.CNT
    let s := if s.net.cuff.isEmpty then s.cause (fabPg 1) 4 else s
    let first := !s.net.cuff.any fun c => c.1 == half
    let s := (s.modNet fun n => { n with cuff := n.cuff ++ [(half, vc, i)] }).cuffStat
    if first then s.cuffVote half true else s

/-- A packet leaves the cuff. The length of its hold is time, which the model does not count: what CUFF_HOLD_MAX learns from it is free within CUFF_TMO (log entry 24). -/
def cuffLeave (s : State) (i : CuffItem) : State :=
  if s.net.cuff.any fun c => c.2.2 == i then
    let s := (s.modNet fun n => { n with cuff := n.cuff.filter fun c => !(c.2.2 == i) }).cuffStat
    let d := s.draw 32
    let tmo := s.get Reg.CUFF.CUFF_TMO.US
    let us := if tmo = 0 then d.1.toNat else min tmo d.1.toNat
    d.2.put Reg.CUFF.CUFF_HOLD_MAX.US (max us (s.get Reg.CUFF.CUFF_HOLD_MAX.US))
  else s

/-- Whether a packet moves from one half to another: it passes, it is held at the cuff, or its own half stands still. -/
def cross (s : State) (src dst vc : Nat) (i : CuffItem) (pass : State → State) : State :=
  if !s.netOn src then s
  else if src ≠ dst ∧ !s.netOn dst then s.cuffHold dst vc i
  else pass (s.cuffLeave i)

/-! Accesses of engines (R29, R41, R273). -/

/-- The lines of some ranges, and those of them that lie in a half which does not run, other than the engine's own. -/
def lines (ranges : List (Nat × Nat)) : List Nat := (ranges.flatMap fun r => (pieces 64 r.1 r.2).map fun c => c.1 / 64 * 64).eraseDups
def farLines (s : State) (ep : Nat) (ranges : List (Nat × Nat)) : List Nat :=
  if s.netOn 0 && s.netOn 1 then []
  else (lines ranges).filter fun a =>
    match epOf a with
    | some e => epHalf e != epHalf ep && !s.netOn (epHalf e)
    | none => false

/-- An access that the cuff has timed out is answered DOMAIN_OFF (R273). -/
def cutOff (s : State) (ep a : Nat) : Bool := s.net.cut.contains (ep, a / 64 * 64)

/-- The accesses of an engine at endpoint ep to some ranges: while the half of one does not run, that access waits in the cuff and the engine with it; once each has crossed or has been timed out, the engine goes on. -/
def guard (s : State) (ep vc : Nat) (ranges : List (Nat × Nat)) (go : State → State) : State :=
  match (s.farLines ep ranges).filter fun a => !s.cutOff ep a with
  | [] =>
    let crossed := s.net.cuff.filterMap fun c => match c.2.2 with | .acc e l => if e = ep ∧ s.netOn c.1 then some l else none | _ => none
    let s := go (crossed.foldl (fun s l => s.cuffLeave (.acc ep l)) s)
    if s.net.cut.isEmpty then s else s.modNet fun n => { n with cut := n.cut.filter fun c => !(c.1 == ep && (lines ranges).contains c.2) }
  | l => if s.netOn (epHalf ep) then l.foldl (fun s a => s.cuffHold (((epOf a).map epHalf).getD 0) vc (.acc ep a)) s else s

end State
end Sys2Proof.Machine
end

