-- ==== Sys2Proof/Machine/LinkBase.lean ====
section
/-! DEFINITION. The sending side of the Freash ports: routing (R312, R315), the output queues, their order and their credits (R303 to R306, R313, R320), events to other modules (R326). -/
namespace Sys2Proof.Machine
namespace State

def port (s : State) (p : Nat) : PortS := getAt PortS.reset p s.links
def modPort (s : State) (p : Nat) (f : PortS → PortS) : State := { s with links := setAt PortS.reset p (f (s.port p)) s.links }

/-- A port's state: 0 DOWN, 1 TRAINING, 2 UP, 3 FAILED. -/
def portUp (s : State) (p : Nat) : Bool := s.get (Reg.FL.PORT_STAT.STATE p) == 2

/-- The routing entry of a module in the active bank: valid, dateline, port (R312). -/
def routeEntry (s : State) (m : Nat) : Bool × Bool × Nat :=
  let a := routePg (m / 512) (s.get (Reg.FL.RT_SEL.BANK 0)) + 0x800 + 4 * (m % 512)
  (s.flag (fld a 31 1 0), s.flag (fld a 30 1 0), s.get (fld a 0 3 0))

/-- The peer of a port is a module. -/
def peerIs (s : State) (p m : Nat) : Bool := s.flag (Reg.FL.PEER.VALID p) && s.get (Reg.FL.PEER.ID p) == m

/-- A packet dropped by the routing rule (R315): 1 NOROUTE, 2 PORTDOWN, 3 UTURN, 4 TURN, 5 DL2, 6 RESET; arrival port, 8 for LOCAL. -/
def rtDrop (s : State) (why inp m : Nat) : State :=
  let f := [Reg.FLC.RT_NOROUTE_CNT.CNT 0, Reg.FLC.RT_PORTDOWN_CNT.CNT 0, Reg.FLC.RT_UTURN_CNT.CNT 0, Reg.FLC.RT_TURN_CNT.CNT 0,
            Reg.FLC.RT_DL2_CNT.CNT 0, Reg.FLC.RT_RESET_CNT.CNT 0].getD (why - 1) (Reg.FLC.RT_NOROUTE_CNT.CNT 0)
  ((((s.bump f).put (Reg.FLC.RT_DROP_LAST.WHY 0) why).put (Reg.FLC.RT_DROP_LAST.IN 0) inp).put (Reg.FLC.RT_DROP_LAST.DST_MOD 0) m).cause (flcPg 0) 7

/-- R315 as far as the choice of an output: the port and the dateline state, or the reason of the drop. -/
def forward (s : State) (inp m d : Nat) : Sum (Nat × Nat) Nat :=
  let (v, dl, p) := s.routeEntry m
  if !v then .inr 1
  else if !s.portUp p then .inr 2
  else if inp ≠ 8 ∧ p = inp then .inr 3
  else if inp ≠ 8 ∧ s.get (Reg.FL.PORT_CFG.ROLE inp) = 1 ∧ s.get (Reg.FL.PORT_CFG.ROLE p) = 1 then .inr 4
  else
    let d := if inp = 8 then 0 else d
    if dl then (if d = 1 then .inr 5 else .inl (p, 1)) else .inl (p, d)

/-- The link VC of a packet over a hop (R304, R313): a response travels in RSP, a request in REQ to its destination and in FWD elsewhere. -/
def hopVc (s : State) (p m d : Nat) (rsp : Bool) : Nat := 2 * (if rsp then 1 else if s.peerIs p m then 3 else 4) + d

/-- An entry of the reply table is free again (R314). -/
def releaseReply (s : State) (m ep tag : Nat) : State := s.modNet fun n => { n with replies := n.replies.erase (m, ep, tag) }

/-! Transmission (R303 to R306). -/

/-- Whether what an item must follow has been sent: a fence follows every packet that was queued before it for its module, so those of its source among them (R320; log entry 18), a step token every EVT packet (R329). -/
def itemFree (before : List LinkItem) (i : LinkItem) : Bool :=
  match i.kind with
  | .fence => before.all fun q => q.kind == .mgmt || q.kind == .token || q.kind == .bcast || q.hdr.opc == opREDRES || q.hdr.dmod != i.hdr.dmod
  | .token => before.all fun q => q.vc != 0 && q.vc != 1
  | _ => true

/-- The item whose unit is ready on a VC: the oldest on it, if it may go and the VC has a credit; management units pass a token that waits. -/
def readyFrom (credit vc : Nat) : List LinkItem → List LinkItem → Option LinkItem
  | _, [] => none
  | before, i :: t =>
    if i.vc ≠ vc then readyFrom credit vc (before ++ [i]) t
    else if itemFree before i && (decide (0 < credit) || i.isCredit) then some i
    else if vc = 14 then readyFrom credit vc (before ++ [i]) t
    else none

/-- The VCs of a port in the order in which a unit slot serves them (R305). -/
def slotVcs (q : PortS) : List Nat :=
  let cls (c : Nat) : List Nat := if q.alt.testBit c then [2 * c + 1, 2 * c] else [2 * c, 2 * c + 1]
  14 :: (cls 0 ++ (List.range 4).flatMap fun k => cls ((q.turn + k) % 4 + 1))

/-- One unit of an item is sent: it takes a credit, and its class has been served; the last unit takes the item out of the queue. -/
def sendUnit (s : State) (p : Nat) (i : LinkItem) : State :=
  let c := i.vc / 2
  let s := (s.emit (.link p (i.unit i.sent))).add (Reg.FLC.TX_UNITS.CNT p) 1
  let s := s.modPort p fun q =>
    { q with credits := if i.isCredit then q.credits else setAt 0 i.vc (getAt 0 i.vc q.credits - 1) q.credits
             alt := if i.vc < 10 then setBit q.alt c (i.vc % 2 == 0) else q.alt
             turn := if 1 ≤ c ∧ c ≤ 4 then c % 4 else q.turn
             queue := if i.sent + 1 < i.units then q.queue.replace i { i with sent := i.sent + 1 } else q.queue.erase i }
  if i.sent + 1 < i.units then s
  else
    match i.kind with
    | .token => s.put (Reg.FL.TOK_TX.STEP p) (ofBytes ((i.data.drop 4).take 4))
    | .reply => s.releaseReply i.hdr.dmod i.hdr.ep i.hdr.tag
    | _ => s

/-- A unit slot: the first VC in order that has a unit ready. -/
def linkSlot (s : State) (p : Nat) : Option State :=
  let q := s.port p
  ((slotVcs q).findSome? fun v => readyFrom (getAt 0 v q.credits) v [] q.queue).map fun i => s.sendUnit p i

/-- Send what can be sent, at most n units. -/
def linkRun (p : Nat) : Nat → State → State
  | 0, s => s
  | n + 1, s => match s.linkSlot p with | none => s | some t => linkRun p n t

def linkKick (s : State) (p : Nat) : State := linkRun p ((s.port p).queue.foldl (fun n i => n + i.units) 0) s

/-- Queue an item at a port and send what can be sent. A packet that finds its port no longer UP is discarded with what the port had queued (R321). -/
def linkSend (s : State) (p : Nat) (i : LinkItem) : State :=
  if s.portUp p then (s.modPort p fun q => { q with queue := q.queue ++ [i] }).linkKick p
  else if i.kind = .mgmt ∨ i.kind = .token then s
  else
    let s := if i.kind = .reply then s.releaseReply i.hdr.dmod i.hdr.ep i.hdr.tag else s
    s.rtDrop 2 8 i.hdr.dmod

/-- A management unit is queued (R306); it goes ahead of every other unit. -/
def sendMgmt (s : State) (p : Nat) (body : List Byte) : State := s.linkSend p ⟨14, .mgmt, Hdr.zero, body, false, 0⟩

/-- A step token is queued (R329). -/
def sendToken (s : State) (p tok : Nat) : State := s.linkSend p ⟨14, .token, Hdr.zero, mgmtToken (low 32 tok) s.modId, false, 0⟩

/-- An XEVT counter of a port, with its cause (R339). -/
def xevtDrop (s : State) (f : Field) (p : Nat) : State := (s.bump f).cause (flcPg p) 6

/-- An EVT packet for another module (R240, R326): its events inline, and the step stamp of their DELIVER. -/
def evtItem (d m stamp smod ep : Nat) (evs : List Word64) (poison : Bool) : LinkItem :=
  ⟨d, .packet, { Hdr.zero with addr := low 32 stamp, sizeM1 := 8 * evs.length - 1, opc := opEVT, dmod := m, smod := smod, ep := ep }, evs.flatMap fun e => toBytes 8 e.toNat, poison, 0⟩

/-- An event of tile endpoint src for another module (R326, R315, R316): it crosses one link to the peer of the output port, with the step stamp of its DELIVER. -/
def sendXevt (s : State) (src : Nat) (ev : Word64) : State :=
  let m := bits ev.toNat 63 52
  match s.forward 8 m 0 with
  | .inr why => s.rtDrop why 8 m
  | .inl (p, d) =>
    if !s.peerIs p m then s.xevtDrop (Reg.FLC.XEVT_NONNBR_CNT.CNT p) p
    else if s.flag (Reg.FL.XSYNC_CFG.EN 0) && decide (bits ev.toNat 13 8 < s.get (Reg.FL.XSYNC_CFG.LOOKAHEAD 0)) then
      s.xevtDrop (Reg.FLC.XEVT_XDELAY_CNT.CNT p) p
    else
      let i := evtItem d m (s.get Reg.STEP.STEP_CNT.CNT) s.modId src [ev] false
      s.cross (epHalf src) (epHalf (epFl p)) 0 (.link p i) fun s => s.linkSend p i

/-- Send the step token on every port that is UP (R329). -/
def sendTokens (s : State) (v : Nat) : State :=
  ((List.range 8).filter (fun p => s.portUp p)).foldl (fun s p => s.sendToken p v) s

/-- Landing events due in step c leave for their tiles (R327). -/
def landingOut (s : State) (c : Nat) : State :=
  (List.range 8).foldl (fun s p =>
    let due := ((s.port p).landing.filter fun e => e.1 == low 32 c).map (·.2)
    let s := s.modPort p fun q => { q with landing := q.landing.filter fun e => e.1 != low 32 c }
    due.foldl (fun s e => s.sendEvent (epFl p) e) s) s

end State
end Sys2Proof.Machine
end

