-- ==== Sys2Proof/Machine/Access.lean ====
section
/-! DEFINITION. Reads and writes of module memory by the engines that stand outside the tiles (the loader, the injector, stream ports, movers, the queue engines):
each range is cut into lines, and each line is read or written at its target (R43, R103, R248, R343). -/
namespace Sys2Proof.Machine
namespace State

/-! Responses, and read combining at a slice (R258, R259, R313). -/

/-- The module and endpoint of a requester get a completion from an endpoint of this module, or from the leaf port in its place: an endpoint of this module on B-net; another module through the brim port that the
lookup names (R313), where the response enters its link. A response without a route is discarded (R316). -/
def reply (s : State) (target smod ep tag : Nat) (ack free : Bool) (status : Nat) (data : List Byte) (line : Option (Nat × Nat)) : State :=
  let put (s : State) (dst acc : Nat) (line : Option (Nat × Nat)) (via : Option (Nat × Nat × Nat)) : State :=
    let r : Rsp := ⟨dst, tag, target, false, status, data, line, ack, free, via⟩
    if free then s.modNet fun n => { n with rsps := n.rsps ++ [r] } else s.inject target acc (.rsp r)
  if smod = s.modId then put s ep ep line none
  else
    match s.forward 8 smod 0 with
    | .inr why => (s.rtDrop why 8 smod).releaseReply smod ep tag
    | .inl (p, d) => put s (epFl p) (384 + smod) none (some (smod, ep, d))

/-- A window closes: one RDRSP for every requester in it; a multicast is counted by no fence account (R257, R258). -/
def closeComb (s : State) (c : Comb) : State :=
  let s := s.modNet fun n => { n with comb := n.comb.erase c }
  let own := ((c.who.filter fun w => w.1 == s.modId).map (·.2.1)).eraseDups
  let tagOf (e : Nat) : Nat := ((c.who.find? fun w => w.1 == s.modId && w.2.1 == e).map (·.2.2)).getD 0
  let s := (c.who.filter fun w => w.1 != s.modId).foldl (fun s w => s.reply (epSlice c.slice) w.1 w.2.1 w.2.2 false false stOK c.data none) s
  own.foldl (fun s e => s.reply (epSlice c.slice) s.modId e (tagOf e) false (1 < own.length) stOK c.data (some (c.line, c.cls))) s

/-- A write or an atomic closes the windows of the lines it touches (R259). -/
def closeFor (s : State) (a size : Nat) : State :=
  (s.net.comb.filter fun c => c.line < a + size && a < c.line + 64).foldl closeComb s

/-! Lines. -/

/-- A range cut into lines of 64 bytes that lie in one target each. -/
def linesOf (a len : Nat) : List (Nat × Nat) := pieces 64 a len

/-- Read part of one line for endpoint ep: status and data (none unless OK). An access that the cuff has timed out gives DOMAIN_OFF (R273). -/
def readLine (s : State) (ep a len : Nat) : Nat × List Byte × State :=
  if s.cutOff ep a then (stDOMAIN_OFF, [], s)
  else
  match region a with
  | .unmapped => (stUNMAPPED, [], s.unmapped ep a)
  | .regs _ => (stUNMAPPED, [], s)
  | .hole n => if s.domOn n then (stUNMAPPED, [], s.unmapped ep a) else (stDOMAIN_OFF, [], s.epDown (epTile n))
  | .tile n _ =>
    if !s.domOn n then (stDOMAIN_OFF, [], s.epDown (epTile n))
    else s.lineRead uPORTB a len
  | .slice k _ =>
    if !s.domOn (256 + k) then (stDOMAIN_OFF, [], s.epDown (epSlice k))
    else s.lineRead uPORTB a len
  | .lpddr o =>
    if !s.domOn 322 then (stDOMAIN_OFF, [], s.epDown (epMem (lpddrChan o)))
    else s.chanRead ep a len

/-- Write part of one line for endpoint ep; the combine windows of a slice's line close first (R259). -/
def writeLine (s : State) (ep a : Nat) (bs : List Byte) : Nat × State :=
  if s.cutOff ep a then (stDOMAIN_OFF, s)
  else
  match region a with
  | .unmapped => (stUNMAPPED, s.unmapped ep a)
  | .regs _ => (stUNMAPPED, s)
  | .hole n => if s.domOn n then (stUNMAPPED, s.unmapped ep a) else (stDOMAIN_OFF, s.epDown (epTile n))
  | .tile n _ =>
    if !s.domOn n then (stDOMAIN_OFF, s.epDown (epTile n))
    else s.lineWrite uPORTB a bs
  | .slice k _ =>
    if !s.domOn (256 + k) then (stDOMAIN_OFF, s.epDown (epSlice k))
    else (s.closeFor a bs.length).lineWrite uPORTB a bs
  | .lpddr o =>
    if !s.domOn 322 then (stDOMAIN_OFF, s.epDown (epMem (lpddrChan o)))
    else s.chanWrite ep a bs

/-- Read a range: the first status that is not OK, and the data read, with zero bytes where a line gave none. -/
def readAny (s : State) (ep a len : Nat) : Nat × List Byte × State :=
  (linesOf a len).foldl (fun acc p =>
    let r := acc.2.2.readLine ep p.1 p.2
    (if acc.1 = stOK then r.1 else acc.1, acc.2.1 ++ (if r.1 = stOK then r.2.1 else List.replicate p.2 0), r.2.2)) (stOK, [], s)

/-- Write a range: the first status that is not OK; lines that can be written are written. -/
def writeAny (s : State) (ep a : Nat) (bs : List Byte) : Nat × State :=
  (linesOf a bs.length).foldl (fun acc p =>
    let r := acc.2.writeLine ep p.1 ((bs.drop (p.1 - a)).take p.2)
    (if acc.1 = stOK then r.1 else acc.1, r.2)) (stOK, s)

end State
end Sys2Proof.Machine
end

