-- ==== Sys2Proof/Machine/Synapse.lean ====
section
/-! DEFINITION. Synapse rows and the row lock (R210 to R216, R227 to R231). -/
namespace Sys2Proof.Machine

/-- A row as its header states it (R211 to R214). -/
structure Row where
  hofs : Nat
  len : Nat
  width : Nat
  sparse : Bool
  signed : Bool
  scale : Num
  tbase : Nat
  rule : Nat
  le : Bool
  dle : Bool
deriving DecidableEq, Repr

/-- Bits of an entry; where the entries start (R212). -/
def Row.bitsPer (r : Row) : Nat := r.width + (if r.sparse then 16 else 0)
def Row.block (r : Row) : Bool := r.le || r.dle
def Row.first (r : Row) : Nat := r.hofs + (if r.block then 0x40 else 8)
def Row.bytes (r : Row) : Nat := (r.len * r.bitsPer + 7) / 8

/-- Target and code of entry i of the packed entries (R212, R135). -/
def Row.entry (r : Row) (all i : Nat) : Nat × Nat :=
  let e := all / 2 ^ (r.bitsPer * i) % 2 ^ r.bitsPer
  if r.sparse then (r.tbase + e % 65536, e / 65536) else (r.tbase + i, e)

/-- The value of a code, and its range (R211). -/
def Row.code (r : Row) (c : Nat) : Int := if r.signed then Machine.signed r.width c else c
def Row.wmin (r : Row) : Int := if r.signed then -(2 ^ (r.width - 1)) else 0
def Row.wmax (r : Row) : Int := if r.signed then 2 ^ (r.width - 1) - 1 else 2 ^ r.width - 1

/-- What a row number leads to: a row, a bad row with its cause (1 INVALID, 2 SFMT, 3 RESERVED, 4 BOUNDS, 5 NAN_SCALE), a row at or beyond ROW_COUNT, a row that cannot be
read (R115, R119). -/
inductive RowAt where
  | row (r : Row)
  | bad (why : Nat)
  | beyond
  | unreadable
deriving DecidableEq, Repr

/-- The header of a row; the causes in the order of R214. -/
def parseRow (hofs h : Nat) : RowAt :=
  let sf := bits h 22 21
  let r : Row := ⟨hofs, bits h 15 0, bits h 18 16 + 1, h.testBit 19, h.testBit 20, scaleValue sf (bits h 39 32), bits h 63 48, bits h 27 26,
                  h.testBit 24, h.testBit 25⟩
  if sf = 3 then .bad 2
  else if r.scale.isNan then .bad 5
  else if bits h 47 40 ≠ 0 ∨ bits h 31 28 ≠ 0 then .bad 3
  else if 0x300000 < r.first + r.bytes then .bad 4
  else .row r

namespace State

/-- The header offset that the row table gives a row, as stored (no read is counted). -/
def hdrOfs (s : State) (n row : Nat) : Option Nat :=
  let a := s.get (Reg.SYNAPSE.ROW_BASE.OFS n) + 4 * row
  if s.get (Reg.SYNAPSE.ROW_COUNT.COUNT n) ≤ row ∨ 0x300000 < a + 4 then none
  else
    let e := ofBytes (s.bytes (own n a) 4)
    if e.testBit 31 then some (bits e 21 0 / 8 * 8) else none

/-- Read the table entry and the header of a row (R210, R211, R214). -/
def rowAt (s : State) (unit n row : Nat) : RowAt × State :=
  if s.get (Reg.SYNAPSE.ROW_COUNT.COUNT n) ≤ row then (.beyond, s)
  else
    let t := s.engineRead unit n (s.get (Reg.SYNAPSE.ROW_BASE.OFS n) + 4 * row) 4
    match t.1 with
    | none => (.unreadable, t.2)
    | some bs =>
      let e := ofBytes bs
      if !e.testBit 31 then (.bad 1, t.2)
      else
        let hofs := bits e 21 0 / 8 * 8
        if 0x300000 < hofs + 8 then (.bad 4, t.2)
        else
          let h := t.2.engineRead unit n hofs 8
          match h.1 with
          | none => (.unreadable, h.2)
          | some hb => (parseRow hofs (ofBytes hb), h.2)

/-- The host lock holds the row whose header stands at an offset (R227). -/
def hostLocked (s : State) (n : Nat) (h : Option Nat) : Bool := h.isSome && (s.evt n).hlock == h

/-- The learning-rule engine's slot holds the row; the event engine is reading it (R227, R228). -/
def engineLocked (s : State) (n : Nat) (h : Option Nat) : Bool := h.isSome && (s.evt n).elock == h
def beingRead (s : State) (n : Nat) (h : Option Nat) : Bool := h.isSome && (s.evt n).fetch == h

/-- The LOCK bit of a header mirrors the lock (R227); a store to a bank that is not ON is discarded and counted (R119). -/
def mirrorLock (s : State) (n : Nat) (h : Option Nat) (v : Bool) : State :=
  match h with
  | none => s
  | some o =>
    let old := (s.byte (own n (o + 2))).toNat
    if 0x300000 < o + 8 then s else s.portAWrite uLEARN n (o + 2) [BitVec.ofNat 8 (setBit old 7 v)]

/-- The learning-rule engine takes a row, or releases it (R227). -/
def takeRow (s : State) (n h : Nat) : State := (s.modEvt n fun e => { e with elock := some h }).mirrorLock n (some h) true
def freeRow (s : State) (n h : Nat) : State := (s.mirrorLock n (some h) false).modEvt n fun e => { e with elock := none }

/-! Trace updates (R216). -/

/-- 2^x within 2 units in the last place (R216, R217). -/
def pow2 (x : Nat) : Nat :=
  match f32.dec x with
  | .nan => f32.nan
  | .inf neg => if neg then 0 else f32.inf false
  | .fin neg m e => if m = 0 then 0x3F800000 else withinUlp 2 0x30 [x] (truncExp2 neg m e)

/-- A trace as FP32 after the decay of Δ steps. -/
def decayed (delta l2 x : Nat) : Nat :=
  if delta = 0 then bfToF x else fmul (bfToF x) (pow2 (fmul (f32.enc (.fin false delta 0)) l2))

/-- The enabled world group of a world (LEARN.WGRP). -/
def worldGroup (s : State) (n w : Nat) : Option Nat :=
  (List.range 8).find? fun g => s.flag (Reg.LEARN.WGRP.EN n g) && decide (s.get (Reg.LEARN.WGRP.W_FIRST n g) ≤ w)
    && decide (w < s.get (Reg.LEARN.WGRP.W_FIRST n g) + s.get (Reg.LEARN.WGRP.W_COUNT n g))

/-- The gathered events (world, k) of one group update the learning block once (R216). -/
def traceUpdate (s : State) (n : Nat) (r : Row) (evs : List (Nat × Nat)) : State :=
  let hits := evs.filterMap fun e => (s.worldGroup n e.1).map fun g => (g, e.2)
  if !s.isEnabled (pgLEARN n) || !r.block || hits.isEmpty then s
  else
    let rd := s.engineRead uEVENT n (r.hofs + 8) 56
    match rd.1 with
    | none => rd.2
    | some bs =>
      let s := rd.2
      let half (i : Nat) : Nat := ofBytes ((bs.drop (2 * i)).take 2)
      let now := low 16 (s.get Reg.STEP.STEP_CNT.CNT)
      let delta := (now + 65536 - ofBytes ((bs.drop 0x28).take 2)) % 65536
      let xr := (List.range 8).map fun g => decayed delta (s.get (Reg.LEARN.TRC_L2R.VALUE n)) (half g)
      let xs := (List.range 8).map fun g => decayed delta (s.get (Reg.LEARN.TRC_L2S.VALUE n)) (half (8 + g))
      let pc := (List.range 8).map fun g => if delta = 0 then ofBytes ((bs.drop (0x20 + g)).take 1) else 0
      let kf (k : Nat) : Nat := f32.enc (.fin false k 0)
      let r' := hits.foldl (fun (a : List Nat × List Nat × List Nat) h =>
        (a.1.set h.1 (fadd (a.1.getD h.1 0) (fmul (kf h.2) (s.get (Reg.LEARN.INC_R.VALUE n)))),
         a.2.1.set h.1 (fadd (a.2.1.getD h.1 0) (fmul (kf h.2) (s.get (Reg.LEARN.INC_S.VALUE n)))),
         a.2.2.set h.1 (min 255 (a.2.2.getD h.1 0 + h.2)))) (xr, xs, pc)
      let out := r'.1.flatMap (fun x => toBytes 2 (fToBf x)) ++ r'.2.1.flatMap (fun x => toBytes 2 (fToBf x)) ++ r'.2.2.flatMap (toBytes 1)
        ++ toBytes 2 now
      s.engineWrite uEVENT n (r.hofs + 8) out

end State

/-! The host lock. -/

/-- HLOCK_REQ (R231): a write of HLOCK_CTRL with REQ; BUSY while the lock is held or pending. -/
def actHlockReq (src : Source) (n : TileId) (row : BitVec 16) (s : State) : Res :=
  let _ := src
  let pg := State.pgSYNAPSE n.val
  if !s.pageUp (pageAt pg) then .next s
  else if s.flag (Reg.SYNAPSE.HLOCK_STAT.PEND n.val) || s.flag (Reg.SYNAPSE.HLOCK_STAT.GRANT n.val) then .next (s.refuse pg rcBusy 0x4C)
  else .next (((s.put (Reg.SYNAPSE.HLOCK_CTRL.ROW n.val) row.toNat).put (Reg.SYNAPSE.HLOCK_STAT.ROW n.val) row.toNat).put (Reg.SYNAPSE.HLOCK_STAT.PEND n.val) 1)

/-- HLOCK_GRANT (R227, R228, R230): once no group is reading the row and no update holds it. -/
def execHlockGrant (n : TileId) (s : State) : Res :=
  if !s.flag (Reg.SYNAPSE.HLOCK_STAT.PEND n.val) then .next s
  else
    let h := s.hdrOfs n.val (s.get (Reg.SYNAPSE.HLOCK_STAT.ROW n.val))
    if s.beingRead n.val h || s.engineLocked n.val h then .next s else
    let s := (s.put (Reg.SYNAPSE.HLOCK_STAT.PEND n.val) 0).put (Reg.SYNAPSE.HLOCK_STAT.GRANT n.val) 1
    let s := s.modEvt n.val fun e => { e with hlock := h }
    .next ((s.mirrorLock n.val h true).cause (State.pgSYNAPSE n.val) 7)

namespace State

/-- The host lock is released. -/
def hlockFree (s : State) (n : Nat) : State :=
  if !s.flag (Reg.SYNAPSE.HLOCK_STAT.GRANT n) then s
  else
    let h := (s.evt n).hlock
    let s := s.modEvt n fun e => { e with hlock := none }
    (s.mirrorLock n h false).put (Reg.SYNAPSE.HLOCK_STAT.GRANT n) 0

end State

/-- HLOCK_REL (R231): with nothing held it has no effect. -/
def actHlockRel (src : Source) (n : TileId) (s : State) : Res :=
  let _ := src
  if !s.pageUp (pageAt (State.pgSYNAPSE n.val)) then .next s else .next (s.hlockFree n.val)

end Sys2Proof.Machine
end

