-- ==== Sys2Proof/Machine/Events.lean ====
section
/-! DEFINITION. The event engine of a tile (R170, R171, R187 to R191, R196, R228, R229) and its ingress FIFO. -/
namespace Sys2Proof.Machine

/-- Fields of an event (R170). -/
def evRow (e : Word64) : Nat := bits e.toNat 43 28
def evWorld (e : Word64) : Nat := bits e.toNat 27 14
def evK (e : Word64) : Nat := bits e.toNat 7 5 + 1
def evLate (e : Word64) : Bool := e.toNat.testBit 4

/-- An event of this format (R170). -/
def mkEvent (m tile row world delay k : Nat) (late fence : Bool) : Word64 :=
  BitVec.ofNat 64 (low 12 m * 2 ^ 52 + low 8 tile * 2 ^ 44 + low 16 row * 2 ^ 28 + low 14 world * 2 ^ 14 + low 6 delay * 2 ^ 8 + (k - 1) * 32
    + (if late then 16 else 0) + (if fence then 8 else 0))

/-- The event with LATE set. -/
def markLate (e : Word64) : Word64 := e ||| 16#64

namespace State

/-- STATE of the engine: 0 STOPPED, 1 RUNNING, 2 DRAINING. -/
def evState (s : State) (n : Nat) : Nat := s.get (Reg.EVENT.EVT_STAT.STATE n)

/-- A dropped event is recorded (R189, R190, R196): 1 FULL, 2 LATE, 3 DEAD_OFF, 4 DEAD_ROW, 5 DEAD_WORLD. -/
def dropEvt (s : State) (n why : Nat) (ev : Word64) : State :=
  let f := if why = 1 then Reg.EVENT.DROP_FULL_CNT.CNT n else if why = 2 then Reg.EVENT.DROP_LATE_CNT.CNT n else Reg.EVENT.DROP_DEAD_CNT.CNT n
  let s := ((s.bump f).put (Reg.EVENT.DROP_EVT.EVT n) ev.toNat).put (Reg.EVENT.DROP_WHY.WHY n) why
  if why = 2 then s else s.causeErr (pgEVENT n) (if why = 1 then 4 else 5)

/-- An event arrives at its tile (R189, R190, R196): the dead destinations are tested first, then the FIFO's space (log entry 19). -/
def arriveEvent (s : State) (n : Nat) (ev : Word64) : State :=
  if !s.isEnabled (pgEVENT n) then s.dropEvt n 3 ev
  else if s.get (Reg.SYNAPSE.ROW_COUNT.COUNT n) ≤ evRow ev then s.dropEvt n 4 ev
  else if !s.hasWorld n (evWorld ev) then s.dropEvt n 5 ev
  else if 4096 ≤ (s.evt n).fifo.length then s.dropEvt n 1 ev
  else
    let ev := if (s.evt n).closed then markLate ev else ev
    let s := if evLate ev then s.cause (pgEVENT n) 6 else s
    let s := s.modEvt n fun e => { e with fifo := e.fifo ++ [ev] }
    s.put (Reg.EVENT.FIFO_HWM.HWM n) (max (s.get (Reg.EVENT.FIFO_HWM.HWM n)) (s.evt n).fifo.length)

/-- EN is cleared (R205): the events in the FIFO are dropped as dead destinations. -/
def flushFifo (s : State) (n : Nat) : State :=
  let l := (s.evt n).fifo
  l.foldl (fun s e => s.dropEvt n 3 e) (s.modEvt n fun e => { e with fifo := [], waiting := false })

/-- DELIVER closes (R196): every event in the FIFO is late, and so is every arrival until the next INGEST. -/
def closeDelivery (s : State) (n : Nat) : State :=
  let s := if (s.evt n).fifo.any (fun e => !evLate e) then s.cause (pgEVENT n) 6 else s
  s.modEvt n fun e => { e with closed := true, fifo := e.fifo.map markLate }

/-- A tile takes part in the step in progress. -/
def masked (s : State) (n : Nat) : Bool := s.stepActive && s.step.mask.testBit n

/-- The phase of the step that counts for a tile: the one that it has entered, or, for a tile outside TILE_MASK, which enters none, the controller's (log entry 19). -/
def tilePhase (s : State) (n : Nat) : Nat := if s.masked n then (s.evt n).phase else s.get Reg.STEP.STEP_STAT.PHASE

/-- The engine may accumulate (R191, R196): while STEP is enabled, only in INGEST and DELIVER. -/
def accumulates (s : State) (n : Nat) : Bool :=
  !s.isEnabled pgSTEP || ((s.tilePhase n == 1 || s.tilePhase n == 2) && !(s.masked n && (s.evt n).closed))

/-- Split the FIFO into the group at its head and the rest (R188). -/
def gatherGroup (s : State) (n : Nat) : List Word64 × List Word64 :=
  match (s.evt n).fifo with
  | [] => ([], [])
  | h :: _ =>
    let l := (s.evt n).fifo
    let win := min 64 (max 1 (s.get (Reg.EVENT.EVT_CFG.COAL_WIN n)))
    let same (e : Word64) : Bool := evRow e == evRow h && evLate e == evLate h
    ((l.take win).filter same, (l.take win).filter (fun e => !same e) ++ l.drop win)

/-- The addend of one entry into the I field of its target (R187, R213), and LATE_IN (R196). -/
def accumulate (s : State) (n ofs addend : Nat) (late : Bool) : State :=
  let r := s.lineAtomic uEVENT 2 (own n (ofs + 4)) addend
  let s := if r.1 = stDOMAIN_OFF then r.2.2.bankSkip n else r.2.2
  if r.1 = stOK ∧ late then
    let b := s.byte (own n (ofs + 15))
    s.engineWrite uEVENT n (ofs + 15) [b ||| 2#8]
  else s

/-- Apply the entries `es` of a row to one event (R187, R213). -/
def applyEvent (s : State) (n : Nat) (r : Row) (all : Nat) (es : List Nat) (ev : Word64) : State :=
  let k := f32.enc (.fin false (evK ev) 0)
  es.foldl (fun s i =>
    let (t, c) := r.entry all i
    if s.neurons n ≤ t then s.bump (Reg.SYNAPSE.TGT_SKIP_CNT.CNT n) |>.cause (pgSYNAPSE n) 5
    else
      match s.recordOfs n t (evWorld ev) with
      | none => s
      | some o => (s.accumulate n o (fmul k (f32.enc ((Num.ofInt (r.code c)).mul r.scale))) (evLate ev)).add (Reg.EVENT.ACC_CNT.CNT n) 1) s

/-- The entries of a row that its c-th chunk of 64 lines completes, and the bytes of entries in that chunk (R215). -/
def chunkEntries (r : Row) (c : Nat) : List Nat :=
  (List.range r.len).filter fun i => ((r.first + (r.bitsPer * (i + 1) - 1) / 8) / 64 - r.hofs / 64) / 64 = c
def chunkBytes (r : Row) (c : Nat) : Nat × Nat :=
  let lo := max r.first (64 * (r.hofs / 64 + 64 * c))
  let hi := min (r.first + r.bytes) (64 * (r.hofs / 64 + 64 * (c + 1)))
  (lo, hi - lo)
def chunks (r : Row) : Nat := ((r.first + r.bytes - 1) / 64 - r.hofs / 64) / 64 + 1

/-- A row is fetched chunk by chunk, and each chunk applied to every gathered event, in FIFO order, before the next one is fetched (R188, R215). A chunk that cannot be read ends the group. -/
def applyRow (s : State) (n : Nat) (r : Row) (grp : List Word64) : Bool × State :=
  let x := (List.range (chunks r)).foldl (fun (acc : Option (List Byte) × State) c =>
    match acc.1 with
    | none => acc
    | some bs =>
      let p := chunkBytes r c
      let d := acc.2.engineRead uEVENT n p.1 p.2
      match d.1 with
      | none => (none, d.2)
      | some new =>
        let s := if c = 0 then (d.2.bump (Reg.EVENT.ROW_FETCH.CNT n)).add (Reg.EVENT.EVT_APPLIED.CNT n) grp.length else d.2
        let all := ofBytes (bs ++ new)
        (some (bs ++ new), grp.foldl (fun s e => s.applyEvent n r all (chunkEntries r c) e) s)) (some [], s)
  (x.1.isSome, x.2)

/-- The group is applied to each event's world (R188, R215, R216), under the fetch tag of its row (R227). -/
def applyGroup (s : State) (n row : Nat) (grp : List Word64) : State :=
  let s := s.modEvt n fun e => { e with fetch := s.hdrOfs n row }
  let r := s.rowAt uEVENT n row
  let s := match r.1 with
    | .beyond => grp.foldl (fun (s : State) e => s.dropEvt n 4 e) r.2
    | .unreadable => r.2
    | .bad why =>
      (((r.2.add (Reg.SYNAPSE.ROW_BAD_CNT.CNT n) grp.length).put (Reg.SYNAPSE.ROW_BAD_LAST.WHY n) why).put (Reg.SYNAPSE.ROW_BAD_LAST.ROW n) row).causeErr
        (pgSYNAPSE n) 4
    | .row r' =>
      let d := r.2.applyRow n r' grp
      if d.1 then d.2.traceUpdate n r' (grp.map fun e => (evWorld e, evK e)) else d.2
  s.modEvt n fun e => { e with fetch := none }

/-- A group that waits is counted once (R229). -/
def lockWait (s : State) (n : Nat) : State :=
  if (s.evt n).waiting then s else (s.bump (Reg.SYNAPSE.LOCK_WAIT_CNT.CNT n)).modEvt n fun e => { e with waiting := true }

/-- The longest wait (R229). -/
def lockWaited (s : State) (n cyc : Nat) : State :=
  s.put (Reg.SYNAPSE.LOCK_WAIT_MAX.CYC n) (min (2 ^ 32 - 1) (max cyc (s.get (Reg.SYNAPSE.LOCK_WAIT_MAX.CYC n))))

/-- EVCTL and EVT_CTRL (R191): 1 START, 2 DRAIN, 3 STOP. -/
def evctl (s : State) (n op : Nat) : State :=
  let f := Reg.EVENT.EVT_STAT.STATE n
  match op with
  | 1 => if s.evState n = 1 then s else s.put f 1
  | 2 => if s.evState n = 1 then s.put f 2 else s
  | _ => s.put f 0

end State

/-- EVCTL_START (R191). -/
def execEvctlStart (n : TileId) (s : State) : Res := s.slot n (·.evctl n.val 1)
/-- EVCTL_DRAIN (R191). -/
def execEvctlDrain (n : TileId) (s : State) : Res := s.slot n (·.evctl n.val 2)
/-- EVCTL_STOP (R191). -/
def execEvctlStop (n : TileId) (s : State) : Res := s.slot n (·.evctl n.val 3)

/-- DRAIN_COMPLETE (R191, R206): a DRAINING engine with an empty FIFO becomes STOPPED. -/
def execDrainComplete (n : TileId) (s : State) : Res :=
  if s.evState n.val = 2 ∧ (s.evt n.val).fifo = [] then .next ((s.put (Reg.EVENT.EVT_STAT.STATE n.val) 0).cause (State.pgEVENT n.val) 7) else .next s

/-- EVENT_GROUP (R188, R196, R228, R229): the engine takes the event at the head of its FIFO. A late event under DROP is discarded as it leaves; a group whose row the host lock holds
waits; else the group is gathered, its row fetched once and applied. `waited` is how long it has waited for the lock. -/
def execEventGroup (n : TileId) (waited : Nat) (s : State) : Res :=
  let n := n.val
  match (s.evt n).fifo with
  | [] => .next s
  | h :: t =>
    if s.evState n = 0 || !s.isEnabled (State.pgEVENT n) || !s.domOn n then .next s
    else if evLate h && s.flag (Reg.EVENT.EVT_CFG.DROP_POL n) then .next ((s.modEvt n fun e => { e with fifo := t, waiting := false }).dropEvt n 2 h)
    else if !s.accumulates n then .next s
    else if s.hostLocked n (s.hdrOfs n (evRow h)) || s.engineLocked n (s.hdrOfs n (evRow h)) then .next (s.lockWait n)
    else
      let g := s.gatherGroup n
      let s := if (s.evt n).waiting then s.lockWaited n waited else s
      let s := s.modEvt n fun e => { e with fifo := g.2, waiting := false }
      let s := if evLate h then s.add (Reg.EVENT.LATE_CNT.CNT n) g.1.length else s
      .next (s.applyGroup n (evRow h) g.1)

/-- LOCK_TIMEOUT (R229): the group at the head has waited LOCK_TMO cycles on the host lock; its events are discarded, the lock stays held. After a release nothing expires. -/
def execLockTimeout (n : TileId) (s : State) : Res :=
  let n := n.val
  let locked := match (s.evt n).fifo with | h :: _ => s.hostLocked n (s.hdrOfs n (evRow h)) | [] => false
  if !(s.evt n).waiting || !locked || s.get (Reg.SYNAPSE.LOCK_TMO.CYC n) = 0 then .next s
  else
    let g := s.gatherGroup n
    let s := s.lockWaited n (s.get (Reg.SYNAPSE.LOCK_TMO.CYC n))
    let s := s.modEvt n fun e => { e with fifo := g.2, waiting := false }
    .next ((s.add (Reg.SYNAPSE.LOCK_DROP_CNT.CNT n) g.1.length).causeErr (State.pgSYNAPSE n) 6)

end Sys2Proof.Machine
end

