-- ==== Sys2Proof/Machine/Learn.lean ====
section
/-! DEFINITION. The learning-rule engine (R216 to R226, R230 to R233): applies, rule programs, delay moves. -/
namespace Sys2Proof.Machine

/-- num / den × 2^e as a number whose rounding to 30 bits or fewer is right: extra quotient bits and a sticky bit. -/
def quot (neg : Bool) (num den : Nat) (e : Int) : Num :=
  if den = 0 then .nan
  else
    let k := bitLen den + 60
    .fin neg (num * 2 ^ k / den * 2 + (if num * 2 ^ k % den = 0 then 0 else 1)) (e - k - 1)

/-- The quotient of two numbers, for one rounding. -/
def Num.div : Num → Num → Num
  | .nan, _ => .nan
  | _, .nan => .nan
  | .inf _, .inf _ => .nan
  | .inf a, .fin b _ _ => .inf (a != b)
  | .fin a _ _, .inf b => .fin (a != b) 0 0
  | .fin a m e, .fin b m' e' =>
    if m' = 0 then (if m = 0 then .nan else .inf (a != b)) else quot (a != b) m m' (e - e')

def fdiv (a b : Nat) : Nat := f32.enc ((f32.dec a).div (f32.dec b))
def fneg (a : Nat) : Nat := f32.enc (f32.dec a).neg
def fofNat (n : Nat) : Nat := f32.enc (.fin false n 0)
def fofInt (i : Int) : Nat := f32.enc (Num.ofInt i)

/-- Vectors of the engine: eight FP32 elements, one for each world group. -/
abbrev Vec8 := List Nat

/-- What a program reads: row traces, PRE, post values, modulators, the code, constants. -/
structure LearnEnv where
  xr : Vec8
  xs : Vec8
  pre : Vec8
  yp : Vec8
  fp : Vec8
  md : Vec8
  w : Nat
  consts : List Nat
deriving DecidableEq, Repr

def splat (x : Nat) : Vec8 := List.replicate 8 x

/-- A source (R216 table): 25 to 31 are illegal. -/
def LearnEnv.src (v : LearnEnv) (regs : List Vec8) (i : Nat) : Option Vec8 :=
  if i < 8 then some (regs.getD i (splat 0))
  else match i with
    | 8 => some v.xr | 9 => some v.xs | 10 => some v.pre | 11 => some v.yp | 12 => some v.fp | 13 => some v.md
    | 14 => some (splat v.w) | 15 => some (splat 0x3F800000) | 24 => some (splat 0)
    | _ => if i < 24 then some (splat (v.consts.getD (i - 16) 0)) else none

/-- One element of an operation; none for an illegal code (R217). -/
def uopElem (op a b c : Nat) : Option Nat :=
  match op with
  | 1 => some (fadd a b) | 2 => some (fsub a b) | 3 => some (fmul a b) | 4 => some (ffma a b c)
  | 5 => some (fmaxmin f32 false a b).1 | 6 => some (fmaxmin f32 true a b).1
  | 7 => some (if Num.lt (.fin false 0 0) (f32.dec a) then b else c)
  | 8 => some (if (f32.dec a).isNan then f32.nan else a % 2 ^ 31)
  | 9 => some (State.pow2 a)
  | _ => none

def map3 (f : Nat → Nat → Nat → Option Nat) : Vec8 → Vec8 → Vec8 → Option Vec8
  | a :: as, b :: bs, c :: cs => match f a b c, map3 f as bs cs with
    | some x, some xs => some (x :: xs)
    | _, _ => none
  | _, _, _ => some []

/-- A micro-operation is legal (R217, the enable check). -/
def uopLegal (u : Nat) : Bool :=
  decide (u / 2 ^ 28 ≤ 9) && decide (bits u 24 20 ≤ 24) && decide (bits u 19 15 ≤ 24) && decide (bits u 14 10 ≤ 24) && bits u 9 0 == 0

/-- Run a program from its micro-operations: the registers, and whether an illegal one stopped it (R217). -/
def runProg (v : LearnEnv) : List Nat → List Vec8 → List Vec8 × Bool
  | [], regs => (regs, false)
  | u :: t, regs =>
    if u / 2 ^ 28 = 0 && uopLegal u then (regs, false)
    else if !uopLegal u then (regs, true)
    else
      match v.src regs (bits u 24 20), v.src regs (bits u 19 15), v.src regs (bits u 14 10) with
      | some a, some b, some c =>
        match map3 (uopElem (u / 2 ^ 28)) a b c with
        | some d => runProg v t (regs.set (bits u 27 25) d)
        | none => (regs, true)
      | _, _, _ => (regs, true)

/-- Floor of an FP32 value, as an integer; none for NaN and infinities. -/
def ffloor (x : Nat) : Option Int :=
  match f32.dec x with
  | .fin neg m e =>
    let v : Int := if neg then -(m : Int) else m
    some (if 0 ≤ e then v * 2 ^ e.toNat else v / 2 ^ (-e).toNat)
  | _ => none

/-- The new code of an entry and whether it clamped (R218): `u` is the entry's 16 random bits; none for a NaN. -/
def newCode (w wmin wmax : Int) (mask : Nat) (r6 r7 : Vec8) (u : Nat) : Option (Int × Bool) :=
  let gs := members mask 8
  let p := gs.foldl (fun a g => fadd a (r6.getD g 0)) 0
  let q := gs.foldl (fun a g => fadd a (r7.getD g 0)) 0
  let neg (x : Nat) : Bool := (f32.dec x).lt (.fin false 0 0)
  let (p, q) := if neg p then (0, fsub q p) else (p, q)
  let (p, q) := if neg q then (fsub p q, 0) else (p, q)
  let span := fofInt (wmax - wmin)
  let v := fsub (fadd (fofInt w) (fdiv (fmul p (fofInt (wmax - w))) span)) (fdiv (fmul q (fofInt (w - wmin))) span)
  match f32.dec v with
  | .nan => none
  | .inf neg => some (if neg then (wmin, true) else (wmax, true))
  | .fin .. =>
    let lo := (ffloor v).getD 0
    let f := (ffloor (fmul (fsub v (fofInt lo)) 0x47800000)).getD 0
    let code := if (u : Int) < f then lo + 1 else lo
    some (if wmax < code then (wmax, true) else if code < wmin then (wmin, true) else (code, false))

namespace State

/-- A change of a tile's apply. -/
def setApply (s : State) (n : Nat) (j : Option ApplyJob) : State := s.modEvt n fun e => { e with apply := j }

/-- CCLK count of a tile's half. -/
def halfCycles (s : State) (n : Nat) : Nat := if n < 128 then s.cclkW else s.cclkE

/-- A LEARN command (R219 to R221): dropped while an apply is in progress or the page is disabled; else the argument, the modulators, the range and the world groups are latched and the
gather begins. The tile's arrival in a LEARN phase comes with the finish, or at once when the command is dropped (log entry 20). -/
def learnCmd (s : State) (n args : Nat) (inStep : Bool) : State :=
  if !s.isEnabled (pgLEARN n) || (s.evt n).apply.isSome then
    let s := (s.bump (Reg.LEARN.CMD_DROP_CNT.CNT n)).causeErr (pgLEARN n) 8
    if inStep then s.arrive n s.step.bgrp else s
  else
    let rd := s.engineRead uLEARN n (s.get (Reg.LEARN.MOD_BASE.OFS n) + 32 * bits args 15 12) 32
    let (mods, s) : List Word32 × State := match rd.1 with
      | some bs => ((List.range 8).map (fun i => BitVec.ofNat 32 (wordAt bs i)), rd.2)
      | none => let d := rd.2.draw 256; ((List.range 8).map (fun i => BitVec.ofNat 32 (bits d.1.toNat (32 * i + 31) (32 * i))), d.2)
    let gs := (members (bits args 23 16) 8).filterMap fun g =>
      if s.flag (Reg.LEARN.WGRP.EN n g) then some (g, s.get (Reg.LEARN.WGRP.W_FIRST n g), s.get (Reg.LEARN.WGRP.W_COUNT n g)) else none
    let sel := bits args 11 10
    let j : ApplyJob := ⟨args, mods, gs, (List.range 8).map fun g => s.get (Reg.LEARN.WGRP.W_COUNT n g), s.get (Reg.LEARN.RANGE.FIRST n sel), s.get (Reg.LEARN.RANGE.LAST n sel), 0, inStep, s.halfCycles n⟩
    (s.setApply n (some j)).put (Reg.LEARN.STAT.BUSY n) 1

/-- The gather (R221): the mean of Y and the share of FIRED over each group's worlds, for every neuron, to the post table. -/
def gatherPost (s : State) (n : Nat) (j : ApplyJob) : State :=
  (List.range (s.neurons n)).foldl (fun s k =>
    j.groups.foldl (fun s g =>
      let r := (List.range g.2.2).foldl (fun (a : Nat × Nat × State) i =>
        match a.2.2.recordOfs n k (g.2.1 + i) with
        | none => a
        | some o =>
          let d := a.2.2.engineRead uLEARN n o 16
          match d.1 with
          | none => (a.1, a.2.1, d.2)
          | some bs =>
            let rc := Rec.ofBytes bs
            (fadd a.1 (bfToF rc.y), a.2.1 + rc.flags % 2, d.2)) (0, 0, s)
      let cnt : Num := .fin false g.2.2 0
      let y := bf16.enc ((f32.dec r.1).div cnt)
      let f := bf16.enc ((Num.fin false r.2.1 0).div cnt)
      r.2.2.engineWrite uLEARN n (s.get (Reg.LEARN.POST_BASE.OFS n) + 32 * k + 4 * g.1) (toBytes 4 (y + f * 65536))) s) s

/-- The row traces, arrival shares and post values that a program sees (R216, R217). -/
def rowEnv (s : State) (n : Nat) (j : ApplyJob) (r : Row) (blk : List Byte) : LearnEnv :=
  let half (i : Nat) : Nat := ofBytes ((blk.drop (2 * i)).take 2)
  let now := low 16 (s.get Reg.STEP.STEP_CNT.CNT)
  let stamp := ofBytes ((blk.drop 0x28).take 2)
  let delta := (now + 65536 - stamp) % 65536
  let pre := (List.range 8).map fun g =>
    if stamp = now then fdiv (fofNat (ofBytes ((blk.drop (0x20 + g)).take 1))) (fofNat (j.counts.getD g 0)) else 0
  ⟨(List.range 8).map (fun g => decayed delta (s.get (Reg.LEARN.TRC_L2R.VALUE n)) (half g)),
   (List.range 8).map (fun g => decayed delta (s.get (Reg.LEARN.TRC_L2S.VALUE n)) (half (8 + g))),
   pre, splat 0, splat 0, j.mods.map (·.toNat), 0,
   (List.range 8).map (fun i => s.get (Reg.LEARN.CONST.VALUE n r.rule i))⟩

/-- What one pass over a row's entries gathers: packed entries rewritten, evidence E and L, a program fault, codes changed for sure. -/
structure RowPass where
  all : Nat
  e : Nat
  l : Nat
  fault : Bool
  st : State

/-- One entry of a row under update (R217, R218, R224): the new code sums over GMASK, the delay evidence over the groups that are enabled as well. An entry without a neuron, or whose post values cannot be read, keeps its code (log entry 20). -/
def rowEntry (n : Nat) (j : ApplyJob) (r : Row) (env : LearnEnv) (wgt : Bool) (p : RowPass) (i : Nat) : RowPass :=
  let s := p.st
  let mask := j.groups.foldl (fun m g => m + 2 ^ g.1) 0
  let (t, c) := r.entry p.all i
  let u := if wgt then s.rng n else (0, s)
  let s := u.2
  if s.neurons n ≤ t then { p with st := s }
  else
    let rd := s.engineRead uLEARN n (s.get (Reg.LEARN.POST_BASE.OFS n) + 32 * t) 32
    match rd.1 with
    | none => { p with st := rd.2 }
    | some post =>
    let s := rd.2
    let yp := (List.range 8).map fun g => bfToF (ofBytes ((post.drop (4 * g)).take 2))
    let fp := (List.range 8).map fun g => bfToF (ofBytes ((post.drop (4 * g + 2)).take 2))
    let p := (members mask 8).foldl (fun (q : RowPass) g =>
      { q with e := fadd q.e (fmul (fp.getD g 0) (env.xr.getD g 0)), l := fadd q.l (fmul (env.pre.getD g 0) (yp.getD g 0)) }) { p with st := s }
    if !wgt then p
    else
      let w := r.code c
      let prog := (List.range 16).map fun k => s.get (Reg.LEARN.PROG.UOP n r.rule k)
      let out := runProg { env with yp := yp, fp := fp, w := fofInt w } prog (List.replicate 8 (splat 0))
      let p := { p with fault := p.fault || out.2 }
      match newCode w r.wmin r.wmax (bits j.args 23 16) (out.1.getD 6 []) (out.1.getD 7 []) u.1 with
      | none => { p with st := s.bump (Reg.LEARN.SKIP_CNT.CNT n) }
      | some (code, clamp) =>
        let s := if clamp then (s.bump (Reg.LEARN.CLAMP_CNT.CNT n)).cause (pgLEARN n) 6 else s
        let pos := r.bitsPer * i + (if r.sparse then 16 else 0)
        { p with all := p.all - c * 2 ^ pos + unsigned r.width code * 2 ^ pos, st := s }

/-- A delay move is sent (R225): a DELAY_STEP atomic at the source's destination-list entry. -/
def sendMove (s : State) (n hofs back : Nat) (up : Bool) : State :=
  let tag := s.freeTag (epTile n)
  let a := bits back 51 44 * 0x400000 + bits back 43 22
  let s := (s.modEvt n fun e => { e with moves := e.moves ++ [⟨hofs, up, tag, none⟩] }).put (Reg.LEARN.STAT.DLY_PEND n) 1
  s.request { op := 7, src := Fin.ofNat 384 (epTile n), smod := BitVec.ofNat 12 s.modId, tag := BitVec.ofNat 12 tag, cls := 3, epoch := false,
              dmod := BitVec.ofNat 12 (back / 2 ^ 52), addr := BitVec.ofNat 48 a, size := 8, data := toBytes 8 (if up then 0 else 1), mcast := none }

/-- The first m entries of a row pass through the engine, and with WGT their codes are written (R222). -/
def rowPass (s : State) (n : Nat) (j : ApplyJob) (r : Row) (wgt : Bool) (blk bs : List Byte) (m : Nat) : RowPass :=
  let env := s.rowEnv n j r blk
  let p := (List.range (min m r.len)).foldl (rowEntry n j r env wgt) ⟨ofBytes bs, 0, 0, false, s⟩
  if wgt then { p with st := p.st.engineWrite uLEARN n r.first (toBytes r.bytes p.all) } else p

/-- The row that a sweep step processes, with its learning block and its entries (R221, R230); a row that is passed over or skipped gives none. -/
def sweepTarget (s : State) (n : Nat) (j : ApplyJob) (row : Nat) : Option (Row × List Byte × List Byte) × State :=
  let s := s.put (Reg.LEARN.STAT.ROW n) row
  let skip (s : State) : State := s.bump (Reg.LEARN.SKIP_CNT.CNT n)
  match s.hdrOfs n row with
  | none => (none, s)
  | some h =>
    if s.hostLocked n (some h) then (none, skip s)
    else if s.beingRead n (some h) then (none, s)
    else
      let rd := s.rowAt uLEARN n row
      match rd.1 with
      | .unreadable => (none, skip rd.2)
      | .bad why => (none, if why = 1 then rd.2 else skip rd.2)
      | .beyond => (none, rd.2)
      | .row r =>
        let s := rd.2
        if !(j.args.testBit 8 && r.le) && !(j.args.testBit 9 && r.dle) then (none, s)
        else
          let b := s.engineRead uLEARN n (r.hofs + 8) 56
          let d := b.2.engineRead uLEARN n r.first r.bytes
          match b.1, d.1 with
          | some blk, some bs => (some (r, blk, bs), d.2)
          | _, _ => (none, skip d.2)

/-- One row of the sweep (R221, R222, R224, R230), and whether the row was taken under its lock. -/
def sweepRow (s : State) (n : Nat) (j : ApplyJob) (row : Nat) : Bool × State :=
  let x := s.sweepTarget n j row
  match x.1 with
  | none => (false, x.2)
  | some (r, blk, bs) =>
    let p := (x.2.takeRow n r.hofs).rowPass n j r (j.args.testBit 8 && r.le) blk bs r.len
    let s := p.st.freeRow n r.hofs
    let s := if p.fault then (s.put (Reg.LEARN.STAT.PROG_FAULT n) 1).causeErr (pgLEARN n) 9 else s
    let s := s.bump (Reg.LEARN.ROWS_DONE.CNT n)
    let back := ofBytes ((blk.drop 0x30).take 8)
    let dcur := ofBytes ((blk.drop 0x2A).take 1) % 64
    let t := f32.dec (s.get (Reg.LEARN.DTHR.VALUE n))
    (true,
      if j.args.testBit 9 && r.dle && back.testBit 0 then
        if t.lt (f32.dec (fsub p.e p.l)) && decide (dcur < bits back 21 16) then s.sendMove n r.hofs back true
        else if t.lt (f32.dec (fsub p.l p.e)) && decide (bits back 15 10 < dcur) then s.sendMove n r.hofs back false
        else s
      else s)

/-- A block reset of LEARN while the sweep is at a row (R231): the row is left partly updated, its first chunks of 32 entries rewritten. How many, the spec leaves open (log entry 20). -/
def sweepCut (s : State) (n : Nat) : State :=
  match (s.evt n).apply with
  | none => s
  | some j =>
    if j.stage ≠ 1 then s
    else
      let d := s.draw 16
      let x := d.2.sweepTarget n j j.next
      match x.1 with
      | none => d.2
      | some (r, blk, bs) =>
        let k := d.1.toNat % ((r.len + 31) / 32 + 1)
        if k = 0 then d.2 else ((x.2.takeRow n r.hofs).rowPass n j r (j.args.testBit 8 && r.le) blk bs (32 * k)).st.freeRow n r.hofs

/-- EN is cleared (R233): the apply ends after the current row, without DONE; in a LEARN phase the tile then arrives (log entry 20). -/
def learnOff (s : State) (n : Nat) : State :=
  match (s.evt n).apply with
  | none => s
  | some j =>
    let s := ((s.setApply n none).put (Reg.LEARN.STAT.BUSY n) 0).put (Reg.LEARN.STAT.HOLD n) 0
    if j.inStep then s.arrive n s.step.bgrp else s

end State

/-- LEARN (R219, R220): EVCTL operation 4; bits [7:0] that are not zero are illegal. -/
def execLearn (n : TileId) (args : BitVec 24) (s : State) : Res :=
  s.slot n fun s => if args.toNat % 256 ≠ 0 then s.illegalOp n.val else s.learnCmd n.val args.toNat false

/-- LEARN_CMD_GO (R219): the write of LEARN.CMD.GO issues a command with the ARGS written. -/
def actLearnCmdGo (src : Source) (n : TileId) (args : BitVec 24) (s : State) : Res :=
  let _ := src
  if !s.pageUp (pageAt (State.pgLEARN n.val)) then .next s
  else .next ((s.put (Reg.LEARN.CMD.ARGS n.val) args.toNat).learnCmd n.val args.toNat false)

/-- GATHER_END (R221, R232): the post table is written; the sweep begins, or in host mode the apply is held. -/
def execGatherEnd (n : TileId) (s : State) : Res :=
  match (s.evt n.val).apply with
  | none => .next s
  | some j =>
    if j.stage ≠ 0 then .next s
    else
      let s := s.gatherPost n.val j
      if s.hostMode (State.pgLEARN n.val) then
        .next (((s.setApply n.val (some { j with stage := 2 })).put (Reg.LEARN.STAT.HOLD n.val) 1).cause (State.pgLEARN n.val) 5)
      else .next (s.setApply n.val (some { j with stage := if j.next ≤ j.last then 1 else 3 }))

/-- ROW_UPDATE (R222): the next row of the sweep is taken under its lock, updated and released. A group for that row can reach the head of the FIFO meanwhile and wait; `waited` is its
wait in cycles, none for no wait (R229). A row that is not processed is not locked, and an engine that does not run has no group at its head. -/
def execRowUpdate (n : TileId) (waited : Option Nat) (s : State) : Res :=
  match (s.evt n.val).apply with
  | none => .next s
  | some j =>
    if j.stage ≠ 1 then .next s
    else
      let t := s.sweepRow n.val j j.next
      let s := t.2
      let s := match waited, (s.evt n.val).fifo with
        | some c, h :: _ => if t.1 ∧ evRow h = j.next ∧ s.evState n.val ≠ 0 ∧ s.isEnabled (State.pgEVENT n.val) ∧ s.accumulates n.val then (s.bump (Reg.SYNAPSE.LOCK_WAIT_CNT.CNT n.val)).lockWaited n.val c else s
        | _, _ => s
      .next (s.setApply n.val (some { j with next := j.next + 1, stage := if j.next + 1 ≤ j.last then 1 else 3 }))

/-- DELAY_MOVE_COMPLETE (R225): a delay atomic has completed; DCUR and the counters follow. -/
def execDelayMoveComplete (n : TileId) (s : State) : Res :=
  let n := n.val
  match (s.evt n).moves.find? (fun m => m.res.isSome) with
  | none => .next s
  | some m =>
    let s := s.modEvt n fun e => { e with moves := e.moves.erase m }
    let s := if (s.evt n).moves.isEmpty then s.put (Reg.LEARN.STAT.DLY_PEND n) 0 else s
    match m.res with
    | none => .next s
    | some (status, word) =>
      if status ≠ stOK then .next ((s.bump (Reg.LEARN.DLY_FAIL_CNT.CNT n)).cause (State.pgLEARN n) 7)
      else
        let d := bits word 27 22
        let d' := if m.up then min 63 (d + 1) else d - 1
        let old := (s.byte (State.own n (m.hofs + 0x32))).toNat
        let s := s.engineWrite uLEARN n (m.hofs + 0x32) (toBytes 1 (old / 64 * 64 + d'))
        if d = d' then .next s
        else .next (s.bump (if m.up then Reg.LEARN.DLY_UP_CNT.CNT n else Reg.LEARN.DLY_DN_CNT.CNT n))

/-- APPLY_FINISH (R221): the sweep and its delay updates are over: DONE, APPLY_CYC, and in a LEARN phase the arrival. -/
def execApplyFinish (n : TileId) (s : State) : Res :=
  match (s.evt n.val).apply with
  | none => .next s
  | some j =>
    if j.stage ≠ 3 || !(s.evt n.val).moves.isEmpty then .next s
    else
      let s := ((s.setApply n.val none).put (Reg.LEARN.STAT.BUSY n.val) 0).put (Reg.LEARN.STAT.DONE n.val) 1
      let s := s.put (Reg.LEARN.APPLY_CYC.CYC n.val) (min (2 ^ 32 - 1) (s.halfCycles n.val - j.start))
      let s := s.cause (State.pgLEARN n.val) 4
      .next (if j.inStep then s.arrive n.val s.step.bgrp else s)

/-- LEARN_CTRL_DONE (R232): the write of CTRL.DONE ends a held apply. -/
def actLearnCtrlDone (src : Source) (n : TileId) (s : State) : Res :=
  let _ := src
  match (s.evt n.val).apply with
  | none => .next s
  | some j =>
    if !s.pageUp (pageAt (State.pgLEARN n.val)) || j.stage ≠ 2 then .next s
    else .next ((s.setApply n.val (some { j with stage := 3 })).put (Reg.LEARN.STAT.HOLD n.val) 0)

end Sys2Proof.Machine
end

