-- ==== Sys2Proof/Machine/Egress.lean ====
section
/-! DEFINITION. The egress router of a tile: destination lists, the walker, the delay ring, work left at the close of DELIVER (R172 to R176, R197, R198). -/
namespace Sys2Proof.Machine
namespace State

/-- Work that holds a place in the delay ring. -/
def isRing : Work → Bool
  | .ring .. => true
  | _ => false

/-- Events in the ring (RING_OCC): those of every slot, and those taken from it and not yet sent. -/
def ringOcc (s : State) (n : Nat) : Nat :=
  let e := s.evt n
  e.ring.length + (e.work ++ e.remnant ++ e.held).countP isRing

/-- The step slot of a step. -/
def slotOf (s : State) (d : Nat) : Nat := (s.get Reg.STEP.STEP_CNT.CNT + d) % 64

/-- The work of a step's DELIVER: the ring's slot first, then the fire list, whose base is latched here (R174, R175, R205). -/
def stepWork (s : State) (n : Nat) : List Work :=
  let e := s.evt n
  let slot := s.slotOf 0
  let ring := (e.ring.filter fun x => x.1 == slot).map fun x => Work.ring x.2 false false
  let fires := match e.fire with
    | none => []
    | some (odd, c) =>
      let b := s.get (if odd = 1 then Reg.NEURON.FIRE_BASE1.OFS n else Reg.NEURON.FIRE_BASE0.OFS n)
      (List.range c).map fun i => Work.fire (b + 8 * i) false false
  ring ++ fires

def takeSlot (s : State) (n : Nat) : State :=
  let slot := s.slotOf 0
  s.modEvt n fun e => { e with ring := e.ring.filter fun x => x.1 != slot }

def egrHold (s : State) (n : Nat) : Bool := s.flag (Reg.EGRESS.EGR_STAT.HOLD n)

/-- A tile enters DELIVER (R175, R197, R198): deferred work first. -/
def deliverTile (s : State) (n : Nat) : State :=
  if s.egrHold n then s.modEvt n fun e => { e with heldDeliver := true }
  else
    let w := s.stepWork n
    (s.takeSlot n).modEvt n fun e => { e with work := e.remnant ++ w, remnant := [], heldDeliver := false }

/-- Work sent again later carries LATE, and is discarded at the next close (R197). -/
def deferWork : Work → Work
  | .ring e _ _ => .ring (markLate e) true true
  | .fire o _ _ => .fire o true true
  | .list sp b i w k _ _ => .list sp b i w k true true

def again : Work → Bool
  | .ring _ _ a => a
  | .fire _ _ a => a
  | .list _ _ _ _ _ _ a => a

/-- Work discarded (R197, R208). -/
def discardWork (s : State) (n : Nat) (l : List Work) : State :=
  l.foldl (fun s w => (s.bump (if isRing w then Reg.EGRESS.LATE_DROP_CNT.CNT n else Reg.EGRESS.FIRE_DROP_CNT.CNT n)).cause (pgEGRESS n) 6) s

/-- DELIVER closes (R197, R198). -/
def closeEgress (s : State) (n : Nat) : State :=
  let late := (s.evt n).heldDeliver
  let extra := if late then s.stepWork n else []
  let s := if late then s.takeSlot n else s
  let left := (s.evt n).work ++ extra
  let s := s.modEvt n fun e => { e with work := [], heldDeliver := false }
  let s := s.discardWork n (left.filter again)
  let fresh := left.filter fun w => !again w
  if fresh.isEmpty then s
  else if s.hostMode (pgEGRESS n) then
    ((s.modEvt n fun e => { e with held := e.held ++ fresh }).put (Reg.EGRESS.EGR_STAT.HOLD n) 1).cause (pgEGRESS n) 7
  else if s.flag (Reg.EGRESS.EGR_CFG.LATE_POL n) then s.discardWork n fresh
  else s.modEvt n fun e => { e with remnant := e.remnant ++ fresh.map deferWork }

/-- A bad entry (R174, R208): 1 WMAP, 2 XDELAY0, 3 DLP_BAD, 4 NO_LAST. -/
def badEntry (s : State) (n why space ofs : Nat) : State :=
  ((((s.bump (Reg.EGRESS.BAD_ENT_CNT.CNT n)).put (Reg.EGRESS.BAD_LAST.WHY n) why).put (Reg.EGRESS.BAD_LAST.SPACE n) space).put (Reg.EGRESS.BAD_LAST.OFS n) ofs).cause
    (pgEGRESS n) 5

/-- The walker emits an event (R175, R176). -/
def emitEvent (s : State) (n : Nat) (ev : Word64) : State :=
  let s := s.bump (Reg.EGRESS.EMIT_CNT.CNT n)
  let d := bits ev.toNat 13 8
  if bits ev.toNat 63 52 ≠ s.modId then s.sendXevt (epTile n) ev
  else if d = 0 then s.sendEvent (epTile n) ev
  else if 8192 ≤ s.ringOcc n then (s.bump (Reg.EGRESS.DROP_RING_CNT.CNT n)).cause (pgEGRESS n) 4
  else
    let s := s.modEvt n fun e => { e with ring := e.ring ++ [(s.slotOf d, ev)] }
    s.put (Reg.EGRESS.RING_HWM.HWM n) (max (s.get (Reg.EGRESS.RING_HWM.HWM n)) (s.ringOcc n))

/-- The world of an event from the world that fired (R173). -/
def wmap (s : State) (n mode w : Nat) : Nat :=
  if mode = 1 then (w + s.get (Reg.EGRESS.EGR_WMAP.OFS n)) % 16384
  else if mode = 2 then w &&& s.get (Reg.EGRESS.EGR_WMAP.MASK n) else w

def setWork (s : State) (n : Nat) (l : List Work) : State := s.modEvt n fun e => { e with work := l }

/-- One entry of a list (R172 to R174), read from the tile's own store or over B-net from a shared slice. An entry that cannot be read ends its list (log entry 19). -/
def walkList (s : State) (n sp base i w k : Nat) (late ag : Bool) (rest : List Work) : State :=
  let ofs := base + 8 * i
  let room := if sp = 0 then 0x300000 else 0x10000000
  if room < ofs + 8 then (s.setWork n rest).badEntry n 3 sp base
  else
    s.guard (epTile n) 6 (if sp = 0 then [] else [(0x40000000 + ofs, 8)]) fun s =>
    let r := if sp = 0 then s.lineRead uPORTB (own n ofs) 8 else s.readLine (epTile n) (0x40000000 + ofs) 8
    let s := r.2.2
    if r.1 ≠ stOK then s.setWork n rest
    else
      let e := ofBytes r.2.1
      let m := bits e 63 52
      let d := bits e 27 22
      let mode := bits e 21 20
      let s :=
        if !e.testBit 19 then s
        else if mode = 3 then s.badEntry n 1 sp ofs
        else if m ≠ s.modId ∧ d = 0 then s.badEntry n 2 sp ofs
        else s.emitEvent n (mkEvent m (bits e 51 44) (bits e 43 28) (s.wmap n mode w) d k late false)
      if e.testBit 18 then s.setWork n rest
      else if 65536 ≤ i + 1 then (s.setWork n rest).badEntry n 4 sp ofs
      else s.setWork n (.list sp base (i + 1) w k late ag :: rest)

/-- The item at the head of the router's work. -/
def walk (s : State) (n : Nat) : State :=
  match (s.evt n).work with
  | [] => s
  | .ring ev _ _ :: t => (s.setWork n t).sendEvent (epTile n) ev
  | .list sp b i w k late ag :: t => s.walkList n sp b i w k late ag t
  | .fire ofs late ag :: t =>
    if 0x300000 < ofs + 8 then s.setWork n t
    else
      let r := s.lineRead uPORTB (own n ofs) 8
      let s := r.2.2
      if r.1 ≠ stOK then s.setWork n t
      else
        let f := ofBytes r.2.1
        let sp := bits f 31 30
        let base := if sp = 0 then bits f 21 0 else bits f 27 0
        if sp = 2 then s.setWork n t
        else if sp = 3 ∨ base % 8 ≠ 0 ∨ (sp = 0 ∧ 0x300000 ≤ base) then (s.setWork n t).badEntry n 3 (sp % 2) base
        else s.walkList n sp base 0 (bits f 45 32) (bits f 48 46 + 1) late ag t

/-- Host software decides on the held work (R198); a DELIVER that arrived meanwhile starts now. -/
def endHold (s : State) (n : Nat) (deferIt : Bool) : State :=
  if !s.egrHold n then s
  else
    let l := (s.evt n).held
    let s := (s.modEvt n fun e => { e with held := [] }).put (Reg.EGRESS.EGR_STAT.HOLD n) 0
    let s := if deferIt then s.modEvt n fun e => { e with remnant := e.remnant ++ l.map deferWork } else s.discardWork n l
    if (s.evt n).heldDeliver then s.deliverTile n else s

/-- The router has no work left in the phase (R192, R198): a hold keeps a DELIVER from draining. -/
def egrIdle (s : State) (n : Nat) : Bool := (s.evt n).work.isEmpty && !(s.egrHold n && (s.evt n).phase == 2)

end State

/-- WALK_ENTRY (R174, R175): in DELIVER, the router takes the next item of its work: a deferred or ring event, or one entry of the list it walks. -/
def execWalkEntry (n : TileId) (s : State) : Res :=
  if (s.evt n.val).phase = 2 ∧ !(s.evt n.val).closed ∧ !s.egrHold n.val ∧ s.domOn n.val then .next (s.walk n.val) else .next s

/-- DEFER (R198): the write of EGR_CTRL.DEFER. -/
def actDefer (src : Source) (n : TileId) (s : State) : Res :=
  let _ := src
  .next (if s.pageUp (pageAt (State.pgEGRESS n.val)) then s.endHold n.val true else s)

/-- DROP (R198): the write of EGR_CTRL.DROP. -/
def actDrop (src : Source) (n : TileId) (s : State) : Res :=
  let _ := src
  .next (if s.pageUp (pageAt (State.pgEGRESS n.val)) then s.endHold n.val false else s)

end Sys2Proof.Machine
end

