-- ==== Sys2Proof/Machine/StepCtl.lean ====
section
/-! DEFINITION. The step controller and the injector (R192 to R204, R329, R330, R391, R392). -/
namespace Sys2Proof.Machine
namespace State

def modStep (s : State) (f : StepS → StepS) : State := { s with step := f s.step }

/-- PHASE (R192). -/
def phase (s : State) : Nat := s.get Reg.STEP.STEP_STAT.PHASE
def setPhase (s : State) (p : Nat) : State := s.put Reg.STEP.STEP_STAT.PHASE p

/-- STEP_CNT: the number of the step in progress, or of the next one. -/
def stepCnt (s : State) : Nat := s.get Reg.STEP.STEP_CNT.CNT

/-- STEP.TILE_MASK as one number. -/
def tileMask (s : State) : Nat := (List.range 8).foldl (fun m w => m + s.get (Reg.STEP.TILE_MASK.TILES w) * 2 ^ (32 * w)) 0

/-- The tiles of the step in progress. -/
def stepTiles (s : State) : List Nat := members s.step.mask 256

/-! Stream contexts as the injector sees them (R391, R392). -/

def ctxOf (s : State) (c : Nat) : CtxS := getAt CtxS.reset c s.ctx
def modCtx (s : State) (c : Nat) (f : CtxS → CtxS) : State := { s with ctx := setAt CtxS.reset c (f (s.ctxOf c)) s.ctx }

/-- Context c behaves as enabled (R399). -/
def ctxOn (s : State) (c : Nat) : Bool :=
  s.isEnabled (sctxPg (c / 32)) && s.flag (Reg.SCTX.CTX_W0.EN (c / 32) (c % 32))

/-- A counter of a context, with its bit in CTX_EVT and the page's cause (R392, R399). -/
def ctxCount (s : State) (f : Field) (c n : Nat) : State :=
  let s := s.add f n
  let e := Reg.SCTX.CTX_EVT.EVT (c / 32)
  if (s.get e).testBit (c % 32) then s
  else (s.put e (setBit (s.get e) (c % 32) true)).cause (sctxPg (c / 32)) 4

/-- The slots of a landing ring. -/
def ringSlots (s : State) (c : Nat) : Nat := 2 ^ s.get (Reg.SCTX.CTX_W12.BUF_LOG2 (c / 32) (c % 32))

/-- The head slot is freed (R390). -/
def freeSlot (s : State) (c : Nat) : State :=
  let s := s.modCtx c fun x => { x with slots := x.slots.drop 1 }
  let f := Reg.SCTX.CTX_W21.HEAD (c / 32) (c % 32)
  s.put f ((s.get f + 1) % s.ringSlots c)

/-- a lies before b, modulo 2^32 with a difference below 2^31. -/
def before32 (a b : Nat) : Bool :=
  let d := low 32 (2 ^ 32 + low 32 b - low 32 a)
  d != 0 && decide (d < 2 ^ 31)

/-- A slot is stale (R391): its STEP is earlier than the step's, or equal to it after INGEST has closed. -/
def staleSlot (s : State) (e : LandSlot) : Bool :=
  e.step != 0xFFFFFFFF && (before32 e.step s.stepCnt || (e.step == low 32 s.stepCnt && decide (2 ≤ s.phase)))

/-- Free the stale slots at the heads of a context's ring. -/
def freeStaleOf (s : State) (c : Nat) : State :=
  (s.ctxOf c).slots.foldl (fun (acc : Bool × State) e =>
    if acc.1 && acc.2.staleSlot e then (true, (acc.2.freeSlot c).ctxCount (Reg.SCTX.CTX_W18.STALE_CNT (c / 32) (c % 32)) c 1) else (false, acc.2)) (true, s) |>.2

def freeStale (s : State) : State := s.ctx.foldl (fun s x => s.freeStaleOf x.1) s

/-- The head slot of a context can be consumed in the INGEST in progress. -/
def slotReady (s : State) (c : Nat) : Bool :=
  match (s.ctxOf c).slots with
  | e :: _ => e.step == 0xFFFFFFFF || e.step == low 32 s.stepCnt
  | [] => false

/-- An enabled ingest context with GATE = 1 (R392). -/
def gates (s : State) (c : Nat) : Bool :=
  s.ctxOn c && !s.flag (Reg.SCTX.CTX_W0.DIR (c / 32) (c % 32)) && s.flag (Reg.SCTX.CTX_W0.GATE (c / 32) (c % 32))

/-- A context that had GATE = 1 when INGEST started keeps it open (R392, R396); one that has been disabled since publishes no frame, and holds nothing (log entry 23). -/
def gateShut (s : State) (c : Nat) : Bool := s.ctxOn c && (s.ctxOf c).gated && !(s.ctxOf c).ended && !(s.ctxOf c).opened

/-! Phases. -/

/-- A phase is sent to every masked tile (R192). -/
def sendPhase (s : State) (p : Nat) : State := (s.setPhase p).modStep fun t => { t with wait := members t.mask 256 }

/-- A new INGEST: gates are to be met again, stale slots are freed (R391, R392). -/
def openIngest (s : State) : State :=
  ((List.range 128).foldl (fun (s : State) c => s.modCtx c fun v => { v with ended := false, opened := false, gated := s.gates c }) s).freeStale

/-- Every neighbour's token permits the step (R330): one that has sent none holds it. -/
def tokensOk (s : State) : Bool :=
  !s.flag (Reg.FL.XSYNC_CFG.EN 0)
    || s.tokens.all fun t => match t.2 with
      | none => false
      | some k => !before32 k (2 ^ 32 + low 32 s.stepCnt - s.get (Reg.FL.XSYNC_CFG.LOOKAHEAD 0))

/-- Every masked tile's EVENT, NEURON and EGRESS pages report READY with EN = 1 (R199). -/
def stepReady (s : State) : Bool :=
  (members s.tileMask 256).all fun n =>
    s.domOn n && [pgEVENT n, pgNEURON n, pgEGRESS n].all fun pg => s.isReady pg && s.isEnabled pg

/-- A step starts (R192, R194). -/
def startStep (s : State) (learn : Bool) : State :=
  let late := s.flag Reg.STEP.STEP_CFG.PACED && (s.step.late || s.step.tokenWait)
  let s := if late then (s.bump Reg.STEP.OVERRUN_CNT.CNT).cause pgSTEP 7 else s
  let paced := s.flag Reg.STEP.STEP_CFG.PACED
  let s := s.modStep fun t =>
    { t with mask := s.tileMask, paced := paced, bgrp := s.get Reg.STEP.STEP_CFG.BGRP, learn := learn,
             bound := if paced then some false else none, late := false, start := s.cclkW, ended := false, tokenWait := false }
  let s := s.modStep fun t => if t.pend.isSome then { t with pend := none } else { t with ran := t.ran + 1 }
  (s.openIngest).sendPhase 1

/-- The next step's LEARN: a pending command's, or continuous running's (R193). -/
def stepDue (s : State) : Option Bool :=
  match s.step.pend with
  | some l => some l
  | none =>
    if s.flag Reg.STEP.STEP_STAT.RUN then
      let e := s.get Reg.STEP.STEP_CFG.LEARN_EVERY
      some (e != 0 && (s.step.ran + 1) % e == 0)
    else none

/-- Start a commanded step when nothing holds it: no step in progress, the boundary, the tiles, the tokens (R194, R199, R330). -/
def tryStart (s : State) : State :=
  if !s.isEnabled pgSTEP || s.stepActive then s
  else
    match s.stepDue with
    | none => s
    | some l =>
      if s.flag Reg.STEP.STEP_CFG.PACED && s.step.bound == some false then s
      else if !s.stepReady then
        (((s.put Reg.STEP.STEP_STAT.RUN 0).modStep fun t => { t with pend := none, tokenWait := false }).reason pgSTEP rcDep 0x050).causeErr pgSTEP 9
      else if !s.tokensOk then s.modStep fun t => { t with tokenWait := true }
      else s.startStep l

/-- The handover step has closed (R498); in host mode the role is left to software (R494). -/
def handoverDone (s : State) (sender : Bool) : State :=
  let s := if s.hostMode pgTWIN then s else s.setRole (if sender then 3 else 2)
  ((s.modTwin fun t => { t with handover := none }).put Reg.TWIN.TWIN_STAT.HANDOVER_PEND 0).cause pgTWIN 8

/-- The step in progress closes (R192, R329, R498). -/
def closeStep (s : State) : State :=
  let c := s.stepCnt
  let s := s.stepTiles.foldl (fun s n => s.modEvt n fun e => { e with phase := 0 }) s
  let s := ((s.put Reg.STEP.STEP_CNT.CNT (c + 1)).put Reg.STEP.LAST_CYC.CYC (min (2 ^ 32 - 1) (s.cclkW - s.step.start))).setPhase 0
  let s := (s.modStep fun t => { t with late := t.paced && t.bound == some true }).modTwin fun t => { t with expired := false }
  let s := (s.cause pgSTEP 4).sendTokens c
  let s := if s.flag Reg.SCALE.CFG.ON_STEP then s.retune else s
  let s := match s.twin.handover with
    | some (sender, true) =>
      if c = s.get Reg.TWIN.HANDOVER_STEP.STEP then
        s.handoverDone sender
      else s
    | _ => s
  s.tryStart

/-- INTEGRATE, LEARN and REPORT close at their barrier; the step does not close while a debugger halts the stream (R98, R192, R268). -/
def stepAdvance (s : State) : State :=
  if s.phase < 3 || !s.step.wait.isEmpty || !s.barDone s.step.bgrp then s
  else
    let done := s.setBarDone s.step.bgrp false
    match s.phase with
    | 3 => done.sendPhase (if s.step.learn then 4 else 5)
    | 4 => done.sendPhase 5
    | _ => if s.stream = stHalted then s else done.closeStep

/-- DELIVER closes and INTEGRATE is sent (R196, R197). -/
def closeDeliver (s : State) : State :=
  let s := (s.put Reg.STEP.STEP_STAT.STRETCH 0).put Reg.STEP.STEP_STAT.HOLD 0
  let s := s.stepTiles.foldl (fun s n => (s.closeDelivery n).closeEgress n) s
  s.sendPhase 3

/-- The injector's ring (R200): entries, the consumer's and the producer's index. -/
def injSize (s : State) : Nat := 2 ^ s.get Reg.STEP.INJ_SIZE.LOG2
def injTail (s : State) : Nat := s.get Reg.STEP.INJ_TAIL.IDX % s.injSize
def injEmpty (s : State) : Bool := s.get Reg.STEP.INJ_HEAD.IDX % s.injSize == s.injTail

/-- The injector has nothing left for the INGEST in progress (R192, R391, R392). -/
def injDone (s : State) : Bool := s.injEmpty && (List.range 128).all fun c => !s.slotReady c && !s.gateShut c

/-- Every masked engine and router is idle and the EVT class is empty (R192). -/
def drained (s : State) : Bool :=
  s.step.wait.isEmpty && s.net.evts.isEmpty && s.net.held.all (fun f => f.ev.isNone)
    && s.net.lanes.all (fun l => l.2.wait.all fun w => match w with | .evt .. => false | _ => true)
    && s.stepTiles.all fun n => (s.evt n).fifo.isEmpty && s.egrIdle n

/-- A tile has entered the phase that was sent to it. -/
def enterTile (s : State) (n : Nat) : State :=
  let p := s.phase
  let s := s.modEvt n fun e => { e with phase := p }
  match p with
  | 1 => s.modEvt n fun e => { e with closed := false, roSkip := 0 }
  | 2 => s.deliverTile n
  | 3 =>
    let odd := s.stepCnt % 2 = 1
    s.modEvt n fun e => { e with sweep := some (s.get (if odd then Reg.NEURON.FIRE_BASE1.OFS n else Reg.NEURON.FIRE_BASE0.OFS n), s.get (Reg.NEURON.FIRE_CAP.VALUE n)) }
  | 4 => s.learnCmd n (s.get (Reg.LEARN.STEP_CMD.ARGS n)) true
  | _ =>
    let s := (List.range 16).foldl (fun s g => s.roReport n g) s
    if (s.evt n).copies.isEmpty then s.arrive n s.step.bgrp else s

/-! Step commands (R193). -/

/-- ONE and ONE_LEARN. -/
def stepOne (s : State) (learn : Bool) : State :=
  if !s.isEnabled pgSTEP then s
  else if s.step.pend.isSome then (s.bump Reg.STEP.CMD_OVR_CNT.CNT).cause pgSTEP 8
  else (s.modStep fun t => { t with pend := some learn }).tryStart

/-- RUN. -/
def stepRun (s : State) : State :=
  if !s.isEnabled pgSTEP then s
  else if s.flag Reg.STEP.STEP_STAT.RUN then s
  else ((s.put Reg.STEP.STEP_STAT.RUN 1).modStep fun t => { t with ran := 0 }).tryStart

/-- A write of STEP_PERIOD (R205): the boundary lies at the current step's start plus the new period; whether that has passed, STEP_BOUNDARY says. -/
def periodWrite (s : State) : State := s.modStep fun t => { t with bound := t.bound.map fun _ => false }

/-- HALT. -/
def stepHalt (s : State) : State := s.put Reg.STEP.STEP_STAT.RUN 0

/-- EN of the STEP page is cleared: what was commanded is dropped and a step in progress is abandoned (log entry 21). -/
def stepOff (s : State) : State :=
  let s := if s.stepActive then s.stepAbandon else s
  (s.put Reg.STEP.STEP_STAT.RUN 0).modStep fun t => { t with pend := none, bound := none, late := false, tokenWait := false }

/-- WAIT STEP_TIMER holds (R193). -/
def stepTimer (s : State) : Bool := !s.stepActive && !(s.flag Reg.STEP.STEP_CFG.PACED && s.step.bound == some false)

end State

/-- k-byte element i of a payload. -/
def elem (k i : Nat) (bs : List Byte) : Nat := ofBytes ((bs.drop (k * i)).take k)

/-- ONE (R193). -/
def actOne (s : State) : Res := .next (s.stepOne false)
/-- ONE_LEARN (R193). -/
def actOneLearn (s : State) : Res := .next (s.stepOne true)
/-- RUN (R193). -/
def actRun (s : State) : Res := .next s.stepRun
/-- HALT (R193). -/
def actHalt (s : State) : Res := .next s.stepHalt

/-- STEP_BOUNDARY (R194): the boundary of the next step is reached; the period timer stops while a debugger halts the stream (R98). -/
def execStepBoundary (s : State) : Res :=
  if s.step.bound = some false ∧ s.stream ≠ State.stHalted then .next (s.modStep fun t => { t with bound := some true }).tryStart else .next s

/-- PHASE_ENTER (R192, R204): a masked tile enters the phase sent to it. A DELIVER whose limit has passed already closes once every tile has entered it. -/
def execPhaseEnter (n : TileId) (s : State) : Res :=
  if !s.step.wait.contains n.val || !s.stepActive then .next s
  else
    let s := (s.modStep fun t => { t with wait := t.wait.erase n.val }).enterTile n.val
    if s.phase = 2 ∧ s.step.ended ∧ s.step.wait = [] then .next s.closeDeliver else .next s.stepAdvance

/-- READOUT_COPY_END (R204): the copy of a closed window is written to its destination and RO_READY set; the last one lets the tile arrive. -/
def execReadoutCopyEnd (n : TileId) (s : State) : Res :=
  match (s.evt n.val).copies with
  | [] => .next s
  | (g, dest, data) :: t =>
    let s := (s.engineWrite uEVENT n.val dest data).modEvt n.val fun e => { e with copies := t, roStep := setAt 0 g s.stepCnt e.roStep }
    let f := Reg.NEURON.RO_READY.READY n.val
    let s := (s.put f (setBit (s.get f) g true)).cause (State.pgNEURON n.val) 7
    .next (if t.isEmpty && (s.evt n.val).phase == 5 then s.arrive n.val s.step.bgrp else s)

/-- DRAIN_CLOSE (R192, R195, R392): the controller recognises a drain of INGEST or DELIVER and sends the next phase; DELIVER starts with the landing slots of the step (R327). -/
def execDrainClose (s : State) : Res :=
  if !s.drained then .next s
  else if s.phase = 1 then
    if !s.injDone then .next s
    else .next ((s.sendPhase 2).freeStale.landingOut s.stepCnt)
  else if s.phase = 2 then .next s.closeDeliver
  else .next s

/-- NEURON_SWEEP_END (R182, R185, R186): the tile has swept its records; FIRE_CNT is the length of the list just written, and the tile arrives. -/
def execNeuronSweepEnd (n : TileId) (s : State) : Res :=
  match (s.evt n.val).sweep with
  | none => .next s
  | some (base, cap) =>
    if (s.evt n.val).phase ≠ 3 then .next s
    else
      let r := s.sweepAll n.val base cap
      let s := (r.2.put (Reg.NEURON.FIRE_CNT.VALUE n.val) r.1).modEvt n.val fun e => { e with sweep := none, fire := some (s.stepCnt % 2, r.1) }
      .next (s.arrive n.val s.step.bgrp)

/-- BARRIER_COMPLETE (R268, R333): BAR_DONE is set, a new round starts, enabled barrier channels send BARTOK; the step controller consumes its own group's bit. -/
def execBarrierComplete (g : Fin 64) (s : State) : Res :=
  if !s.barFull g.val then .next s
  else
    let s := { s with bar := remove g.val s.bar }.setBarDone g.val true
    let s := (List.range 8).foldl (fun s p => (List.range 4).foldl (fun s k =>
      if s.portUp p && s.flag (Reg.FL.BARX.EN p k) && s.get (Reg.FL.BARX.GROUP p k) == g.val then s.sendMgmt p (mgmtBarrier k) else s) s) s
    .next (if s.step.bgrp = g.val then s.stepAdvance else s)

/-- STRETCH (R195): the due point passes before DELIVER has drained. -/
def execStretch (s : State) : Res :=
  if (s.phase = 1 ∨ s.phase = 2) ∧ s.get Reg.STEP.DUE.NS ≠ 0 ∧ !s.flag Reg.STEP.STEP_STAT.STRETCH then
    .next (((s.put Reg.STEP.STEP_STAT.STRETCH 1).bump Reg.STEP.STRETCH_CNT.CNT).cause pgSTEP 5)
  else .next s

/-- LATE_STEP (R195 to R198): the stretch limit passes. In hardware mode DELIVER closes, at once or as soon as it has been entered; in host mode the controller holds. -/
def execLateStep (s : State) : Res :=
  if !s.flag Reg.STEP.STEP_STAT.STRETCH || s.flag Reg.STEP.STEP_STAT.HOLD || s.step.ended || (s.phase ≠ 1 ∧ s.phase ≠ 2) then .next s
  else if s.hostMode pgSTEP then .next ((s.put Reg.STEP.STEP_STAT.HOLD 1).cause pgSTEP 6)
  else
    let s := s.bump Reg.STEP.LATE_STEP_CNT.CNT
    if s.phase = 2 ∧ s.step.wait = [] then .next s.closeDeliver else .next (s.modStep fun t => { t with ended := true })

/-- CLOSE (R198): host software closes a held DELIVER. -/
def actClose (src : Source) (s : State) : Res :=
  let _ := src
  if !s.pageUp (pageAt pgSTEP) || !s.flag Reg.STEP.STEP_STAT.HOLD then .next s
  else
    let s := s.bump Reg.STEP.LATE_STEP_CNT.CNT
    if s.phase = 2 ∧ s.step.wait = [] then .next s.closeDeliver
    else .next ((s.put Reg.STEP.STEP_STAT.HOLD 0).modStep fun t => { t with ended := true })

/-- EXTEND (R198): host software grants a further STRETCH_MAX. -/
def actExtend (src : Source) (s : State) : Res :=
  let _ := src
  if !s.pageUp (pageAt pgSTEP) || !s.flag Reg.STEP.STEP_STAT.HOLD then .next s else .next (s.put Reg.STEP.STEP_STAT.HOLD 0)

end Sys2Proof.Machine
end

