-- ==== Sys2Proof/Machine/Fabric.lean ====
section
/-! DEFINITION. B-net at its targets: requests and port collisions, read combining, events, fences, reductions (R109 to R111, R241 to R264), and the REMOTE
operations of a tile (R265). -/
namespace Sys2Proof.Machine
namespace State

/-! Requests at memory (R103, R109 to R113, R242, R248). -/

/-- The words of a store that an access of port A touches. -/
def portWords (a : PortA) : List Nat := (List.range a.words).map (a.lo.toNat / 8 + ·)

/-- A loaded value whose words [w, ...] a collision has made undefined (R109, R110). -/
def undefRes (s : State) (ws : List Nat) (t : Tracked) : Tracked × State :=
  match t.src with
  | none => (t, s)
  | some (ad, len, form) =>
      match t.res with
      | [.sreg r _] =>
        let d := s.draw (8 * len)
        let v := if form = 1 then unsigned 64 (signed 32 d.1.toNat) else d.1.toNat
        ({ t with res := [.sreg r (BitVec.ofNat 64 v)] }, d.2)
      | [.vreg r ls] =>
        let new := ls.foldl (fun (acc : List (Nat × Word32) × State) c =>
          if ws.contains ((ad + 4 * (c.1 % 16)) / 8) then let d := acc.2.draw 32; (acc.1 ++ [(c.1, d.1)], d.2) else (acc.1 ++ [c], acc.2)) ([], s)
        ({ t with res := [.vreg r new.1] }, new.2)
      | _ => (t, s)

/-- The port-A read of a collision returns undefined data in the shared words (R109, R110): it is the load in flight that covers exactly those words, else a read of the array or an engine that this cycle makes. -/
def undefRead (s : State) (a : PortA) (ws : List Nat) : State :=
  let n := a.tile.val
  let mine (t : Tracked) : Bool := match t.src with | some (ad, len, _) => wordsOf ad len == portWords a | none => false
  match (s.tile n).tracked.findIdx? mine with
  | none => s.modTile n fun t => { t with taint := t.taint ++ ws }
  | some i =>
    match (s.tile n).tracked[i]? with
    | none => s
    | some t => let r := s.undefRes ws t; r.2.modTile n fun x => { x with tracked := x.tracked.set i r.1 }

/-- The port-A access that a port-B access to words of a store meets: 0 RD, 1 WR, 2 ATOM (R109). -/
def meets (kind : Nat) (ws : List Nat) (a : PortA) : Bool :=
  (portWords a).any ws.contains && !(kind == 0 && a.kind.val == 0)

/-- A collision is recorded (R111). -/
def collide (s : State) (n kind : Nat) (ws : List Nat) (a : PortA) : State :=
  let shared := (portWords a).filter ws.contains
  let k := if kind = 2 ∨ a.kind.val = 2 then 3 else if a.kind.val = 0 then 0 else if kind = 0 then 1 else 2
  let s := ((s.bump (Reg.STORE.CONF_CNT.CNT n)).put (Reg.STORE.CONF_ADDR.KIND n) k).put (Reg.STORE.CONF_ADDR.OFS n) (8 * shared.foldl min (shared.getD 0 0))
  let s := s.cause (tilePg n 1) 4
  if a.kind.val = 0 then s.undefRead a shared else s

/-- One line of a packet at a tile store: it is performed, or it collides (R111). -/
def lineAt (s : State) (n kind : Nat) (coll : List PortA) (a len : Nat) (f : State → Nat × List Byte × State) : Nat × List Byte × State :=
  let ws := (wordsOf (a % 0x400000) len)
  match coll.find? fun c => c.tile.val == n && meets kind ws c with
  | some c => (stBUSY, [], s.collide n kind ws c)
  | none => f s

/-- The status of two lines of a packet: BUSY when any line collided (R111), else that of the first line that failed. -/
def first (a b : Nat) : Nat := if a = stBUSY ∨ b = stBUSY then stBUSY else if a = stOK then b else a

/-- Perform a request at memory: 0 RD, 1 WR, 2 to 9 ATOM; status, data (R241 to R243). -/
def serveMem (s : State) (op src a size : Nat) (data : List Byte) (coll : List PortA) : Nat × List Byte × State :=
  match region a with
  | .unmapped => (stUNMAPPED, [], s.unmapped src a)
  | .regs _ => (stUNMAPPED, [], s)
  | .hole n => if s.domOn n then (stUNMAPPED, [], s.unmapped src a) else (stDOMAIN_OFF, [], s.epDown (epTile n))
  | .tile n _ =>
    if !s.domOn n then (stDOMAIN_OFF, [], s.epDown (epTile n))
    else if roomAt a < size then (stUNMAPPED, [], s.unmapped src a)
    else if op = 0 then
      (linesOf a size).foldl (fun acc p =>
        let r := acc.2.2.lineAt n 0 coll p.1 p.2 fun s => s.lineRead uPORTB p.1 p.2
        (first acc.1 r.1, acc.2.1 ++ (if r.1 = stOK then r.2.1 else List.replicate p.2 0), r.2.2)) (stOK, [], s)
    else if op = 1 then
      (linesOf a size).foldl (fun acc p =>
        let r := acc.2.2.lineAt n 1 coll p.1 p.2 fun s => let w := s.lineWrite uPORTB p.1 ((data.drop (p.1 - a)).take p.2); (w.1, [], w.2)
        (first acc.1 r.1, [], r.2.2)) (stOK, [], s)
    else s.lineAt n 2 coll a (atomSize (op - 2)) fun s => let r := s.lineAtomic uPORTB (op - 2) a (ofBytes data); (r.1, toBytes (atomSize (op - 2)) r.2.1, r.2.2)
  | .slice k _ =>
    if !s.domOn (256 + k) then (stDOMAIN_OFF, [], s.epDown (epSlice k))
    else if roomAt a < size then (stUNMAPPED, [], s.unmapped src a)
    else if op = 0 then s.readAny src a size
    else if op = 1 then let r := s.writeAny src a (data.take size); (r.1, [], r.2)
    else let r := s.lineAtomic uPORTB (op - 2) a (ofBytes data); (r.1, toBytes (atomSize (op - 2)) r.2.1, r.2.2)
  | .lpddr o =>
    if !s.domOn 322 then (stDOMAIN_OFF, [], s.epDown (epMem (lpddrChan o)))
    else if roomAt a < size then (stUNMAPPED, [], s.unmapped src a)
    else if op = 0 then s.chanRead src a size
    else if op = 1 then let r := s.chanWrite src a (data.take size); (r.1, [], r.2)
    else let r := s.chanAtomic src (op - 2) a (ofBytes data); (r.1, toBytes (atomSize (op - 2)) r.2.1, r.2.2)

/-! Read combining at a slice (R258, R259). -/

/-- A line read at a slice that can combine: it joins a window, opens one, or is served alone (none: its completion comes with the window). -/
def combRead (s : State) (smod ep tag cls a : Nat) : Option (Nat × List Byte) × State :=
  match region a with
  | .slice k _ =>
    match s.net.comb.find? fun c => c.slice == k && c.line == a && c.cls == cls with
    | some c =>
      (none, (s.modNet fun n => { n with comb := n.comb.map fun x => if x = c then { c with who := c.who ++ [(smod, ep, tag)] } else x }).bump (Reg.SLICE.COMB_HIT_CNT.CNT k))
    | none =>
      let r := s.serveMem 0 ep a 64 [] []
      if (s.net.comb.filter fun c => c.slice == k).length ≥ 16 then
        (some (r.1, r.2.1), r.2.2.bump (Reg.SLICE.COMB_FULL_CNT.CNT k))
      else if r.1 ≠ stOK then (some (r.1, r.2.1), r.2.2)
      else (none, r.2.2.modNet fun n => { n with comb := n.comb ++ [⟨k, a, cls, [(smod, ep, tag)], r.2.1⟩] })
  | _ => (none, s)

/-- Whether a read can combine (R258). -/
def canComb (s : State) (op a size : Nat) : Bool :=
  match region a with
  | .slice k _ => op == 0 && size == 64 && a % 64 == 0 && s.flag (Reg.SLICE.COMB_CFG.EN k) && s.domOn (256 + k)
  | _ => false

/-- A request that has reached memory on this module is performed and answered. -/
def performMem (s : State) (op smod ep tag cls a size : Nat) (data : List Byte) (coll : List PortA) : Option (Nat × List Byte) × State :=
  if s.canComb op a size then s.combRead smod ep tag cls a
  else
    let s := if 2 ≤ op then s.closeFor a size else s
    let r := s.serveMem op ep a size data coll
    (some (r.1, if op = 1 ∨ r.1 ≠ stOK then [] else r.2.1), r.2.2)

/-! Fences (R255, R256). -/

def gotKey (src dst : Nat) (ep : Bool) : Nat := 2 * laneKey src dst + (if ep then 1 else 0)
def gotCount (s : State) (src dst : Nat) (ep : Bool) : Nat := getAt 0 (gotKey src dst ep) s.net.got
def clearGot (s : State) (src dst : Nat) (ep : Bool) : State := s.modNet fun n => { n with got := setAt 0 (gotKey src dst ep) 0 n.got }

/-- A late confirmation or completion (R247, R255). -/
def lateRsp (s : State) : State := (s.bump Reg.FAB0.LATE_RSP_CNT.CNT).fabCause 7

/-- A fence that has reached its destination waits there for its count. -/
def fenceArrives (s : State) (f : FenceRec) : State :=
  s.modNet fun n => { n with fences := n.fences.erase f, held := n.held ++ [f] }

/-! Reductions (R260 to R263). -/

/-- A reduction error: 1 SLOT, 2 DUP, 3 NONMEMBER, 4 LATE, 5 TIMEOUT. -/
def collErr (s : State) (why g o : Nat) : State :=
  ((((s.bump Reg.FAB0.COLL_ERR_CNT.CNT).put Reg.FAB0.COLL_ERR_LAST.WHY why).put Reg.FAB0.COLL_ERR_LAST.GROUP g).put Reg.FAB0.COLL_ERR_LAST.LINE o).fabCause 9

/-- The members of reduce group g. -/
def redMask (s : State) (g : Nat) : Nat := (List.range 8).foldl (fun m w => m + s.get (Reg.REDUCE.RG_MASK.TILES g w) * 2 ^ (32 * w)) 0
def leafOf (n : Nat) : Nat := epTile n / 16
def redLeaves (s : State) (g : Nat) : List Nat := ((members (s.redMask g) 256).map leafOf).eraseDups
def redValid (s : State) (g : Nat) : Bool := s.flag (Reg.REDUCE.RG_CFG.VALID g) && s.isEnabled (fabPg 4)

/-- The halves of the switches: leaves 0 to 23, spines 24 to 35 (R236). -/
def swHalf (sw : Nat) : Nat := if sw < 24 then sw / 12 else (sw - 24) / 6

end State

/-- The larger of two FP32 values where a NaN yields NaN (R261); of two zeros see log entry 13. -/
def fmaxNan (a b : Nat) : Nat :=
  let x := f32.dec a
  let y := f32.dec b
  if x.isNan || y.isNan then f32.nan
  else if x.lt y then b else if y.lt x then a
  else if a = b then a else (Config.vmaxOpen false a b).toNat

/-- One lane of an operator (R261): a, b are w-bit lanes. -/
def redLane (op i a b : Nat) : Nat :=
  match op with
  | 0 => fadd a b
  | 2 => low 32 (a + b)
  | 3 => fmaxNan a b
  | 4 => unsigned 32 (max (signed 32 a) (signed 32 b))
  | _ => if i % 4 = 0 then fmaxNan a b else if i % 4 = 3 then 0 else low 32 (a + b)

/-- The first line of an entry: word 3 of SCALE's groups of four is delivered as 0 (R261). -/
def redFirst (op : Nat) (line : List Byte) : List Byte :=
  if op = 5 then (List.range 16).flatMap fun i => toBytes 4 (if i % 4 = 3 then 0 else elem 4 i line) else line

/-- Two lines combined (R261). -/
def redLine (op : Nat) (a b : List Byte) : List Byte :=
  if op = 1 then (List.range 32).flatMap fun i => toBytes 2 (bfadd (elem 2 i a) (elem 2 i b))
  else (List.range 16).flatMap fun i => toBytes 4 (redLane op i (elem 4 i a) (elem 4 i b))

namespace State

/-- A contribution reaches a switch (R262, R263); the sum leaves it with its last contribution: none while contributions are awaited. An entry keeps the slot, the count and the operator of its allocation (R275). -/
def redAt (s : State) (sw g o port expect op : Nat) (line : List Byte) : Option (List Byte) × State :=
  let slot := o % (s.get (Reg.REDUCE.RG_CFG.DEPTH_M1 g) + 1)
  let put (old : Option RedEntry) (new : Option RedEntry) : State :=
    s.modNet fun n => { n with red := (match old with | some e => n.red.erase e | none => n.red) ++ new.toList }
  let add (old : Option RedEntry) (e : RedEntry) : Option (List Byte) × State :=
    let sum := match e.acc with | none => redFirst e.op line | some a => redLine e.op a line
    if e.left ≤ 1 then (some sum, put old none)
    else (none, put old (some { e with left := e.left - 1, ports := port :: e.ports, acc := some sum }))
  let fresh : RedEntry := ⟨sw, g, o, slot, expect, op, [], none, false⟩
  let mine (e : RedEntry) : Bool := e.sw == sw && e.group == g
  match s.net.red.find? fun e => mine e && e.line == o with
  | some e =>
    if e.dead then (none, s.collErr 4 g o)
    else if e.ports.contains port then (none, s.collErr 2 g o)
    else add (some e) e
  | none =>
    match s.net.red.find? fun e => mine e && e.slot == slot with
    | some e => if e.dead then add (some e) fresh else (none, s.collErr 1 g o)
    | none => add none fresh

/-- VALID of a group is cleared: its held entries are discarded with cause TIMEOUT (R275). -/
def dropGroup (s : State) (g : Nat) : State :=
  let l := s.net.red.filter fun e => e.group == g && !e.dead
  l.foldl (fun s e => s.collErr 5 g e.line) (s.modNet fun n => { n with red := n.red.filter fun e => e.group != g })

/-- The SCALE page programs reduce group 63 (R264): its members, root, operator, mode, DEPTH and DEST; the entry is VALID from then on (log entry 24). -/
def scaleGroup (s : State) : State :=
  let s := (List.range 8).foldl (fun s w => s.put (Reg.REDUCE.RG_MASK.TILES 63 w) (s.get (Reg.SCALE.TILE_MASK.TILES w))) s
  let s := (((s.put (Reg.REDUCE.RG_CFG.VALID 63) 1).put (Reg.REDUCE.RG_CFG.MODE 63) 0).put (Reg.REDUCE.RG_CFG.OP 63) 5).put (Reg.REDUCE.RG_CFG.DEPTH_M1 63) 15
  (s.put (Reg.REDUCE.RG_CFG.ROOT_EP 63) epSCALE).put (Reg.REDUCE.RG_DEST.OFS 63) 0

/-- SCALE gives reduce group 63 back: it is free again, and entries it still holds are discarded (R275; log entry 24). -/
def scaleGroupFree (s : State) : State := (s.put (Reg.REDUCE.RG_CFG.VALID 63) 0).dropGroup 63

/-- The LPDDR6 offset that controller c holds at a channel address: the inverse of R342. -/
def lpddrOfs (c a : Nat) : Nat :=
  let up := a / 4096
  let h := c ^^^ bits up 4 0 ^^^ bits up 9 5 ^^^ bits up 14 10 ^^^ bits up 19 15
  (up * 32 + h) * 4096 + a % 4096

/-- A result line is sent over a brim port in class COLL, with one credit of its group (R334). -/
def collOut (s : State) (p g o : Nat) (line : List Byte) : State :=
  match lookup g (s.port p).grants with
  | none => s.xevtDrop (Reg.FLC.XCOL_NOGRANT_CNT.CNT p) p
  | some 0 => s.modPort p fun q => { q with lines := q.lines ++ [(g, o, line)] }
  | some (c + 1) =>
    (s.modPort p fun q => { q with grants := insert g c q.grants }).linkSend p
      ⟨4, .packet, { Hdr.zero with addr := o, sizeM1 := 63, opc := opREDRES, dmod := s.get (Reg.FL.PEER.ID p), smod := s.modId, ep := epFl p, aux := g }, line, false, 0⟩

/-- The endpoints to which the result of a group goes: the root, or every member (R260). -/
def redTargets (s : State) (g : Nat) : List Nat :=
  if s.flag (Reg.REDUCE.RG_CFG.MODE g) then (members (s.redMask g) 256).map epTile else [s.get (Reg.REDUCE.RG_CFG.ROOT_EP g)]

/-- A member's RED of a TO_ALL group is over: the operation that waits for it completes with a status (R260, R263). -/
def redOver (s : State) (r : Nat × Nat × Nat × Nat) (st : Nat) : State :=
  (s.modNet fun n => { n with reds := n.reds.erase r }).modTile r.1 fun t => { t with tracked := t.tracked.map fun x =>
    if x.tag = r.2.1 ∧ x.ready = none then { x with ready := some s.issue.period, status := st } else x }

/-- The result of line o reaches an endpoint: it is written at DEST + 64 × o there (R260); an endpoint that has no memory takes nothing (log entry 24). One that is not ON discards it (R248). -/
def redResult (s : State) (g o : Nat) (line : List Byte) (e : Nat) : State :=
  let ofs := s.get (Reg.REDUCE.RG_DEST.OFS g) + 64 * o
  if !s.domOn (epDomain e) then s.epDown e
  else
    match epKind e with
    | .tile n =>
      let s := if ofs + 64 ≤ 0x300000 then (s.writeLine 0 (own n ofs) line).2 else s.unmapped e ofs
      match s.net.reds.find? fun r => r.1 == n && r.2.2.1 == g && r.2.2.2 == o with
      | some r => s.redOver r stOK
      | none => s
    | .slice k => if ofs + 64 ≤ 0x400000 then (s.writeLine 0 (0x40000000 + k * 0x400000 + ofs) line).2 else s.unmapped e ofs
    | .mem c => (s.writeLine 0 (0x1000000000 + lpddrOfs c ofs) line).2
    | .fl p => s.collOut p g o line
    | _ => s

/-- A post is answered (R360): the status word is returned to RD as data. -/
def postReply (s : State) (tile : Nat) (key : Option Nat) (word : Nat) : State :=
  match key with
  | none => s
  | some k => s.modTile tile fun t => { t with tracked := t.tracked.map fun x =>
      if x.tag = 8192 + k ∧ x.ready = none then { x with ready := some s.issue.period, res := [.sreg (x.reg.getD 0) (BitVec.ofNat 64 word)] } else x }

end State

/-! Commands. -/

/-- COMBINE_WINDOW_CLOSE (R258): the window of a line closes. -/
def execCombineWindowClose (addr : Addr) (cls : Fin 8) (s : State) : Res :=
  match s.net.comb.find? fun c => c.line == addr.toNat && c.cls == cls.val with
  | none => .next s
  | some c => .next (s.closeComb c)

/-- EVT (R241, R245, R248, R273): a packet of events from src arrives at a tile; fences among them wait for their count. -/
def execEvt (src dst : Ep) (evs : List Word64) (luck : Luck) (s : State) : Res :=
  let found := evs.foldl (fun (acc : List EvtFlight × List EvtFlight) ev =>
    match acc.2.find? fun f => f.src == src.val && f.dst == dst.val && f.ev == ev with
    | some f => (acc.1 ++ [f], acc.2.erase f)
    | none => acc) ([], s.net.evts)
  let fs : List EvtFlight := found.1
  if fs.isEmpty then .next s
  else
    let held := (s.net.cuff.map (·.2.2)).find? fun i => match i with | .evt a b es => a == src.val && b == dst.val && es.any evs.contains | _ => false
    .next (s.cross (epHalf src.val) (epHalf dst.val) 0 (held.getD (.evt src.val dst.val (fs.map (·.ev)))) fun s =>
      let s := s.modNet fun n => { n with evts := fs.foldl List.erase n.evts }
      let lost := s.modNet fun n => { n with fences := n.fences.filter fun x => !fs.any fun f => x.src == f.src && x.dst == f.dst && f.fence == some x.id }
      let bad := s.fails src.val dst.val 1 luck
      if badHead luck then lost.badPacket
      else if !bad.isEmpty then lost.crcDrops dst.val bad
      else if !s.domOn (epDomain dst.val) then lost.epDown dst.val
      else
        fs.foldl (fun s f =>
          match f.fence with
          | some i =>
            match s.net.fences.find? fun x => x.src == f.src && x.dst == f.dst && x.id == i with
            | some x => s.fenceArrives x
            | none => s
          | none =>
            let s := s.countGot f.src f.dst f.epoch
            match epKind dst.val with
            | .tile n => s.arriveEvent n f.ev
            | _ => s) s)

namespace State

/-- A fence marker on its way is lost. -/
def fenceLost (s : State) (f : FenceRec) : State := s.modNet fun n => { n with fences := n.fences.erase f }

/-- A fence marker reaches its destination (R255): it is held there for its count; an endpoint that is not ON answers it with DOMAIN_OFF (R248). A hidden one so answered is no longer outstanding either (log entry 24). -/
def fncArrives (s : State) (f : FenceRec) (luck : Luck) : State :=
  let e := if f.dst < 384 then f.dst else match f.hop with | some h => epFl h.1 | none => f.src
  s.cross (epHalf f.src) (epHalf e) 6 (.fnc f.src f.dst) fun s =>
    let bad := s.fails f.src e 1 luck
    if badHead luck then (s.fenceLost f).badPacket
    else if !bad.isEmpty then (s.fenceLost f).crcDrops e bad
    else if f.dst < 384 ∧ !s.domOn (epDomain f.dst) then
      let s := (s.fenceLost f).epDown f.dst
      match f.tag with
      | some t => s.reply f.dst s.modId f.src t true true stDOMAIN_OFF [] none
      | none => s.modNet fun n => { n with acks := n.acks ++ [⟨f.src, f.dst, f.id, f.dst⟩] }
    else s.fenceArrives f

/-- A multicast fence marker (R257): it is counted and ordered by no account, and has no effect at a target but R248's at one that is not ON. -/
def fncCopies (s : State) (src : Nat) (eps : List Nat) (luck : Luck) : State :=
  if !s.netOn (epHalf src) then s
  else if badHead luck then s.badPacket
  else
    let c := s.copies (onPath s.bothOn src) 1 (eps.eraseDups.filter fun e => s.netOn (epHalf e)) luck
    c.1.foldl (fun s e => if s.domOn (epDomain e) then s else s.epDown e) c.2

/-- The link item of a fence (R320): it travels as a request does. -/
def fenceItem (s : State) (p d m : Nat) (smod ep tag addr count : Nat) : LinkItem :=
  ⟨s.hopVc p m d false, .fence, { Hdr.zero with addr := addr, tag := tag, opc := opFNC, dmod := m, smod := smod, ep := ep, aux := count }, [], false, 0⟩

end State

/-- FNC (R255, R257): a fence packet, hidden or not, arrives at its destination and is held there; or a multicast one. -/
def execFnc (src : Ep) (dst : FncTo) (luck : Luck) (s : State) : Res :=
  match dst with
  | .many eps => .next (s.fncCopies src.val (eps.map (·.val)) luck)
  | .one d =>
    match s.net.fences.find? fun f => f.src == src.val && f.dst == d.val && f.ev.isNone with
    | none => .next s
    | some f => .next (s.fncArrives f luck)

/-- FENCE_DELIVER (R255, R320): the count of a held fence's epoch is met: it is delivered, the count is cleared, and its confirmation is on its way; a fence for another module leaves on the link of its lookup, and its
confirmation comes from there. -/
def execFenceDeliver (src : Ep) (dst : Dst) (s : State) : Res :=
  match s.net.held.find? fun f => f.src == src.val && f.dst == dst.val && s.gotCount f.src f.dst f.epoch == f.count with
  | none => .next s
  | some f =>
    let s := (s.modNet fun n => { n with held := n.held.erase f }).clearGot f.src f.dst f.epoch
    let acked (e : Nat) (s : State) : State := s.modNet fun n => { n with acks := n.acks ++ [⟨f.src, f.dst, f.id, e⟩] }
    if f.dst < 384 then
      match f.ev, epKind f.dst with
      | some ev, .tile n => .next (acked f.dst (s.arriveEvent n ev))
      | _, _ => .next (acked f.dst s)
    else
      match f.tag, f.hop with
      | some t, some (p, d) => .next (s.linkSend p (s.fenceItem p d (f.dst - 384) s.modId f.src t f.addr f.count))
      | _, _ => .next (acked f.src s)

/-- FENCE_TIMEOUT (R256): a held fence is discarded and its source's epoch count cleared. -/
def execFenceTimeout (src : Ep) (dst : Dst) (s : State) : Res :=
  match s.net.held.find? fun f => f.src == src.val && f.dst == dst.val && s.gotCount f.src f.dst f.epoch != f.count with
  | none => .next s
  | some f =>
    if s.get Reg.FAB0.FENCE_TMO.CYC = 0 then .next s
    else .next ((((s.modNet fun n => { n with held := n.held.erase f }).clearGot f.src f.dst f.epoch).bump Reg.FAB0.FENCE_TMO_CNT.CNT).fabCause 8)

namespace State

/-- A contribution of a member tile reaches its leaf (R260 to R263). In TO_ALL the member's operation waits for the result. -/
def redLeaf (s : State) (n g o : Nat) (line : List Byte) (luck : Luck) : State :=
  let leaf := leafOf n
  if !s.netOn (swHalf leaf) || !s.domOn n then s
  else
    let s := if s.flag (Reg.REDUCE.RG_CFG.MODE g) then
        let tag := s.freeTag (epTile n)
        (s.track n { vector := false, reg := none, since := s.issue.period, index := s.laneIndex n, ready := none, tag := tag, status := 0, res := [], src := none }).modNet fun x => { x with reds := x.reds ++ [(n, tag, g, o)] }
      else s
    let bad := flitsFail (fun sw port => sw == leaf && port == epTile n % 16) 2 luck.crc
    if badHead luck then s.badPacket
    else if !bad.isEmpty then s.crcDrops 0 bad
    else if g = 63 ∧ s.isEnabled pgSCALE then s.scaleArrive n
    else if !s.redValid g || !(s.redMask g).testBit n then s.collErr 3 g o
    else
      let expect := ((members (s.redMask g) 256).filter fun m => leafOf m == leaf).length
      let r := s.redAt leaf g o (epTile n % 16) expect (s.get (Reg.REDUCE.RG_CFG.OP g)) line
      match r.1 with
      | none => r.2
      | some sum => r.2.modNet fun x => { x with partials := x.partials ++ [(leaf, g, o, sum)] }

/-- A leaf's partial sum reaches the group's spine (R260 to R263). -/
def redSpine (s : State) (p : Nat × Nat × Nat × List Byte) (luck : Luck) : State :=
  let (l, g, o, sum) := p
  let spine := s.get (Reg.REDUCE.RG_CFG.SPINE g)
  s.cross (swHalf l) (swHalf (24 + spine)) 4 (.part l g o) fun s =>
    let s := s.modNet fun x => { x with partials := x.partials.erase p }
    let bad := flitsFail (fun sw port => sw == 24 + spine && (match (spineLinks spine)[port]? with | some k => k.1 == l && upAllowed s.bothOn k.2 | none => false)) 2 luck.crc
    if badHead luck then s.badPacket
    else if !bad.isEmpty then s.crcDrops 0 bad
    else if !s.redValid g || !(s.redLeaves g).contains l then s.collErr 3 g o
    else
      let r := s.redAt (24 + spine) g o l (s.redLeaves g).length (s.get (Reg.REDUCE.RG_CFG.OP g)) sum
      match r.1 with
      | none => r.2
      | some sum => r.2.modNet fun x => { x with results := x.results ++ [⟨g, o, sum, s.redTargets g⟩] }

/-- A result line leaves the spine for the endpoints it has still to reach (R257, R260): those of a half that does not run wait in the cuff. -/
def redOut (s : State) (r : RedResult) (luck : Luck) : State :=
  let spine := s.get (Reg.REDUCE.RG_CFG.SPINE r.group)
  let sh := swHalf (24 + spine)
  if !s.netOn sh then s
  else
    let now := r.dests.filter fun e => s.netOn (epHalf e)
    let later := r.dests.filter fun e => !s.netOn (epHalf e)
    let s := s.modNet fun x => { x with results := if later.isEmpty then x.results.erase r else x.results.replace r { r with dests := later } }
    let s := if later.isEmpty then s.cuffLeave (.res r.group r.line) else s.cuffHold (1 - sh) 4 (.res r.group r.line)
    if badHead luck then s.badPacket
    else
      let c := s.copies (fromSpine s.bothOn spine) 2 now luck
      c.1.foldl (fun s e => s.redResult r.group r.line r.sum e) c.2

end State

/-- RED (R260 to R263, R264): a contribution reaches its leaf, or a partial sum the spine. While SCALE is enabled, G63 carries its records (R152). -/
def execRed (from_ : RedFrom) (g : Fin 64) (o : Carried (BitVec 16) Luck) (s : State) : Res :=
  match from_ with
  | .tile n line => .next (s.redLeaf n.val g.val o.what.toNat line o.fate)
  | .leaf l =>
    match s.net.partials.find? fun p => p.1 == l.val && p.2.1 == g.val && p.2.2.1 == o.what.toNat with
    | none => .next s
    | some p => .next (s.redSpine p o.fate)

/-- REDRES (R260): a result line arrives and is written. -/
def execRedres (g : Fin 64) (o : Carried (BitVec 16) Luck) (s : State) : Res :=
  match s.net.results.find? fun r => r.group == g.val && r.line == o.what.toNat with
  | none => .next s
  | some r => .next (s.redOut r o.fate)

/-- REDUCTION_TIMEOUT (R263): an entry is discarded with its partial sum; its slot keeps the expired line. -/
def execReductionTimeout (sw : Fin 36) (g : Fin 64) (o : BitVec 16) (s : State) : Res :=
  match s.net.red.find? fun e => e.sw == sw.val && e.group == g.val && e.line == o.toNat && !e.dead with
  | none => .next s
  | some e =>
    if s.get Reg.FAB0.RED_TMO.CYC = 0 then .next s
    else .next ((s.modNet fun n => { n with red := n.red.map fun x => if x = e then { e with dead := true, acc := none } else x }).collErr 5 g.val o.toNat)

/-- PROBE (R241): test traffic from PROBE0 to PROBE1; it changes nothing but the counters of a bad class or a failed CRC. -/
def execProbe (cls : Fin 8) (luck : Luck) (s : State) : Res :=
  if !s.netOn 1 then .next s
  else if 6 ≤ cls.val || badHead luck then .next s.badPacket
  else .next (s.crcDrops 375 (s.fails 374 375 1 luck))

/-- CUFF_VOTE_WITHDRAW (R273): the cuff withdraws the wake vote of a half for which it holds nothing. -/
def execCuffVoteWithdraw (half : Fin 2) (s : State) : Res :=
  if s.net.cuff.any (fun c => c.1 == half.val) then .next s else .next (s.cuffVote half.val false)

namespace State

/-! REMOTE (R265). -/

/-- The module and address that RA names. -/
def remoteMod (s : State) (ra : Nat) : Nat := if ra.testBit 60 then bits ra 59 48 else s.modId

/-- A tracked request of tile n on its way; the register it writes, if any. -/
def remote (s : State) (n op : Nat) (reg : Option Nat) (ra size : Nat) (data : List Byte) : State :=
  let tag := s.freeTag (epTile n)
  let s := s.track n { vector := false, reg := reg.filter (· ≠ 0), since := s.issue.period, index := s.laneIndex n, ready := none, tag := tag, status := 0, res := [], src := none }
  s.request { op := Fin.ofNat 10 op, src := Fin.ofNat 384 (epTile n), smod := BitVec.ofNat 12 s.modId, tag := BitVec.ofNat 12 tag, cls := 3, epoch := false,
              dmod := BitVec.ofNat 12 (s.remoteMod ra), addr := BitVec.ofNat 48 ra, size := size, data := data, mcast := none }

end State

/-- LOAD8 (R265): a tracked 8-byte load to RD. -/
def execLoad8 (n : TileId) (rd ra : Reg) (s : State) : Res :=
  s.slot n fun s => let a := s.readS n.val ra.val; a.2.remote n.val 0 (some rd.val) a.1 8 []

/-- STORE8 (R265): a tracked 8-byte store of RS. -/
def execStore8 (n : TileId) (ra rs : Reg) (s : State) : Res :=
  s.slot n fun s =>
    let a := s.readS n.val ra.val
    let v := a.2.readS n.val rs.val
    v.2.remote n.val 1 none a.1 8 (toBytes 8 v.1)

/-- ATOMIC (R265, R112): the previous value goes to RD. -/
def execAtomic (n : TileId) (aop : Fin 8) (rd ra rs : Reg) (s : State) : Res :=
  s.slot n fun s =>
    let a := s.readS n.val ra.val
    let v := a.2.readS n.val rs.val
    v.2.remote n.val (aop.val + 2) (some rd.val) a.1 (atomSize aop.val) (toBytes (atomSize aop.val) v.1)

/-- FENCE (R265, R255): an FNC to the endpoint that RA decodes to, tracked until it is confirmed; an address that decodes to none is answered with UNMAPPED. -/
def execFence (n : TileId) (ra : Reg) (s : State) : Res :=
  s.slot n fun s =>
    let a := s.readS n.val ra.val
    let s := a.2
    let tag := s.freeTag (epTile n.val)
    let p : Pkt := { op := 0, src := Fin.ofNat 384 (epTile n.val), smod := BitVec.ofNat 12 s.modId, tag := BitVec.ofNat 12 tag, cls := 3, epoch := false,
                     dmod := BitVec.ofNat 12 (s.remoteMod a.1), addr := BitVec.ofNat 48 a.1, size := 1, data := [], mcast := none }
    let s := s.track n.val { vector := false, reg := none, since := s.issue.period, index := s.laneIndex n.val, ready := none, tag := tag, status := 0, res := [], src := none }
    let s := s.modNet fun x => { x with out := x.out ++ [p], past := x.past ++ [(epTile n.val, tag)] }
    let unmapped (s : State) : State := (s.unmapped (epTile n.val) p.addr.toNat).reply (epTile n.val) s.modId (epTile n.val) tag true true stUNMAPPED [] none
    match s.destOf p with
    | none => unmapped s
    | some d =>
      if d < 384 then s.inject (epTile n.val) d (.fnc tag p.addr.toNat none)
      else
        match s.forward 8 (d - 384) 0 with
        | .inl hop => s.inject (epTile n.val) d (.fnc tag p.addr.toNat (some hop))
        | .inr why => if why = 1 then unmapped s else s.rtDrop why 8 (d - 384)

end Sys2Proof.Machine
end

