-- ==== Sys2Proof/Machine/Links.lean ====
section
/-! DEFINITION. The Freash ports (R303 to R337): training, loss and failover, management units, packets that arrive, and the checked writes of the ports' registers. -/
namespace Sys2Proof.Machine
namespace State

def portState (s : State) (p : Nat) : Nat := s.get (Reg.FL.PORT_STAT.STATE p)
def setPortState (s : State) (p v : Nat) : State := s.put (Reg.FL.PORT_STAT.STATE p) v

/-- A port's version: 3.0 and above have broadcasts and collective channels (R309). -/
def portV3 (s : State) (p : Nat) : Bool := decide (0x30 ≤ s.get (Reg.FL.PORT_STAT.VER p))

/-- Buffer space of the receiver is free again, and its credit returns (R306). -/
def creditBack (s : State) (p vc n : Nat) : State := s.sendMgmt p (mgmtCredit vc n)

/-- A management unit is received (R306): it is taken at once; a CREDIT unit took no credit (log entry 18). -/
def rxMgmt (s : State) (p : Nat) (isCredit : Bool) : State :=
  let s := s.add (Reg.FLC.RX_UNITS.CNT p) 1
  if isCredit then s else s.creditBack p 14 1

/-! Training (R308 to R310). -/

/-- A failed attempt: reason, TRAIN_FAIL; `final` awaits a new EN. -/
def trainFail (s : State) (p code : Nat) (final : Bool) : State :=
  let s := (s.setPortState p (if final then 3 else 0)).reason (flPg p) code 0x00C
  (s.modPort p fun q => { q with failed := final }).causeErr (flPg p) 7

/-- Grants of a port's enabled receiving channels are sent (R334). -/
def sendGrants (s : State) (p : Nat) : State :=
  (List.range 4).foldl (fun s k =>
    if s.flag (Reg.FL.XCOL_W0.EN p k) && s.portUp p && s.portV3 p then s.sendMgmt p (mgmtGrant (s.get (Reg.FL.XCOL_W0.GROUP p k)) (s.get (Reg.FL.XCOL_W0.DEPTH_M1 p k) + 1)) else s) s

/-- The neighbour at a port that comes up is in the lookahead test from then on, unless it has been removed and has sent no token since (R330). -/
def neighbourUp (s : State) (id : Nat) : State :=
  if (lookup id s.tokens).isSome || s.gone.contains id then s else { s with tokens := insert id none s.tokens }

/-- The port comes up: it holds the credits of R306. -/
def linkUp (s : State) (p : Nat) (c : PeerCaps) (ver width : Nat) : State :=
  let s := (((s.put (Reg.FL.PORT_STAT.VER p) ver).put (Reg.FL.PORT_STAT.WIDTH p) width).put (Reg.FL.PEER.VALID p) 1).put (Reg.FL.PEER.PORT p) c.port.val
  let s := (s.put (Reg.FL.PEER.VER p) c.hi.toNat).put (Reg.FL.PEER.ID p) c.id.toNat
  let s := (s.modPort p fun q => { q with credits := ((List.range 10) ++ [14]).map fun v => (v, vcBuffer v) }).neighbourUp c.id.toNat
  ((((s.setPortState p 2).cause (flPg p) 4).setReady (flPg p) true).sendGrants p).linkKick p

/-- Waiting result lines of a group go while it holds credits (R334). -/
def collKick (s : State) (p g : Nat) : State :=
  let ls := (s.port p).lines
  ls.foldl (fun s l => if l.1 = g then s.collOut p l.1 l.2.1 l.2.2 else s.modPort p fun q => { q with lines := q.lines ++ [l] })
    (s.modPort p fun q => { q with lines := [] })

/-- Credits of a group are added (R334). -/
def addGrant (s : State) (p g n : Nat) : State :=
  (s.modPort p fun q => { q with grants := insert g (getAt 0 g q.grants + n) q.grants }).collKick p g

/-! Loss of link (R321, R330, R337). -/

/-- A port leaves UP: what it had queued is discarded, responses with their entries of the reply table; a neighbour to which no other port leads leaves the lookahead test. -/
def linkLost (s : State) (p : Nat) : State :=
  let id := s.get (Reg.FL.PEER.ID p)
  let s := (s.setPortState p 0).setReady (flPg p) false
  let s := ((s.port p).queue.filter fun i => i.kind == .reply).foldl (fun s i => s.releaseReply i.hdr.dmod i.hdr.ep i.hdr.tag) s
  let s := s.modPort p fun q => { q with queue := [], credits := [], grants := [], lines := [] }
  if (List.range 8).any fun q => s.portUp q && s.get (Reg.FL.PEER.ID q) == id then s
  else { s with tokens := remove id s.tokens, gone := if s.gone.contains id then s.gone else s.gone ++ [id] }.cause (flPg p) 8

/-- EN of a port page is cleared (R337). -/
def portOff (s : State) (p : Nat) : State :=
  let s := if s.portUp p then s.linkLost p else s.setPortState p 0
  (s.modPort p fun q => { q with failed := false, lost := false }).tryStart

/-- EN of a port page is set: training begins (R308). -/
def portOn (s : State) (p : Nat) : State := (s.setPortState p 1).modPort p fun q => { q with failed := false }

/-! Traffic. -/

/-- An event that arrives from a neighbour (R327, R328). -/
def landEvent (s : State) (p stamp : Nat) (ev : Word64) : State :=
  let due := low 32 (stamp + bits ev.toNat 13 8)
  let c := low 32 s.stepCnt
  let ahead := low 32 (2 ^ 32 + due - c)
  if 127 < ahead ∧ ahead < 2 ^ 31 then s.xevtDrop (Reg.FLC.XEVT_FAR_CNT.CNT p) p
  else if 2 ^ 31 ≤ ahead ∨ (ahead = 0 ∧ 3 ≤ s.phase) then (s.xevtDrop (Reg.FLC.XEVT_LATE_CNT.CNT p) p).sendEvent (epFl p) (markLate ev)
  else if ahead = 0 ∧ s.phase = 2 then s.sendEvent (epFl p) ev
  else if 32768 ≤ (s.port p).landing.length then s.xevtDrop (Reg.FLC.XEVT_FULL_CNT.CNT p) p
  else s.modPort p fun q => { q with landing := q.landing ++ [(due, ev)] }

/-- A write that a port makes on the die for its peer, and its tag. -/
def portWrite (s : State) (p cls a : Nat) (data : List Byte) : Nat × State :=
  let tag := s.freeTag (epFl p)
  (tag, s.request { op := 1, src := Fin.ofNat 384 (epFl p), smod := BitVec.ofNat 12 s.modId, tag := BitVec.ofNat 12 tag, cls := Fin.ofNat 8 cls, epoch := false,
                    dmod := BitVec.ofNat 12 s.modId, addr := BitVec.ofNat 48 a, size := data.length, data := data, mcast := none })

/-- A result line from the peer (R334): its write goes to the channel's DEST; the credit returns when the write completes. -/
def collLand (s : State) (p g o : Nat) (line : List Byte) : State :=
  match (List.range 4).find? fun k => s.flag (Reg.FL.XCOL_W0.EN p k) && s.get (Reg.FL.XCOL_W0.GROUP p k) == g with
  | none => s.xevtDrop (Reg.FLC.XCOL_NOGRANT_CNT.CNT p) p
  | some k =>
    let w := s.portWrite p 3 (s.get (Reg.FL.XCOL_W2.DEST_HI p k) * 2 ^ 32 + s.get (Reg.FL.XCOL_W1.DEST_LO p k) + 64 * o) line
    w.2.modPort p fun q => { q with writes := q.writes ++ [(w.1, g)] }

/-- A write of a port has completed: of a result line, its credit returns (R334). -/
def portWritten (s : State) (p tag : Nat) : State :=
  match (s.port p).writes.find? fun w => w.1 == tag with
  | none => s
  | some w => (s.modPort p fun q => { q with writes := q.writes.erase w }).sendMgmt p (mgmtReturn w.2 1)

/-- A broadcast as it leaves (R335): a WR with the BCAST bit; its DST_MOD is ignored. -/
def bcastItem (s : State) (d ep tag a : Nat) (data : List Byte) : LinkItem :=
  ⟨8 + d, .bcast, { Hdr.zero with addr := a, tag := tag, sizeM1 := data.length - 1, opc := opWR, smod := s.modId, ep := ep }, data, false, 0⟩

/-- A broadcast goes out on the ports of its mask (R309, R335); `i` is the arrival port, or 8 for local origin, ep the endpoint it comes from. -/
def bcastOut (s : State) (i d ep tag a : Nat) (data : List Byte) : State :=
  (members (s.get (Reg.FL.BCAST_FWD.PORTS 0 i)) 8).foldl (fun s p =>
    if !s.portUp p then s
    else if !s.portV3 p then s.bump (Reg.FLC.BCAST_DROP_CNT.CNT p)
    else
      let k := s.bcastItem d ep tag a data
      s.cross (epHalf ep) (epHalf (epFl p)) (8 + d) (.link p k) fun s => s.linkSend p k) s

/-- A broadcast is written at the same address of this module; only slices and LPDDR6 take one (R335). The write on the die is the port's own (log entry 18). -/
def bcastHere (s : State) (p a : Nat) (data : List Byte) : State :=
  match region a with
  | .slice .. => (s.portWrite p 5 a data).2
  | .lpddr _ => (s.portWrite p 5 a data).2
  | _ => s

/-! Packets that arrive (R306, R307, R313 to R315, R320, R336). -/

/-- The destination module of an arriving packet; a result line, a broadcast and a stray unit have none. -/
def linkDest : LinkPkt → Option Nat
  | .req _ p => some p.dmod.toNat
  | .fnc _ m .. => some m.toNat
  | .rsp _ m .. => some m.toNat
  | .fncack _ m .. => some m.toNat
  | .evt _ m .. => some m.toNat
  | _ => none

/-- The dateline state with which it arrives. -/
def linkD : LinkPkt → Nat
  | .req d _ => bnat d
  | .fnc d .. => bnat d
  | .rsp d .. => bnat d
  | .fncack d .. => bnat d
  | .evt d .. => bnat d
  | .coll .. => 0
  | .bcast d .. => bnat d
  | .stray .. => 0

/-- The VC on which it arrives (R304, R313). -/
def linkVc (s : State) (k : LinkPkt) : Nat :=
  let here (m : BitVec 12) : Nat := if m.toNat = s.modId then 6 else 8
  match k with
  | .req _ p => here p.dmod + linkD k
  | .fnc _ m .. => here m + linkD k
  | .rsp .. => 2 + linkD k
  | .fncack .. => 2 + linkD k
  | .evt .. => linkD k
  | .coll .. => 4
  | .bcast .. => 8 + linkD k
  | .stray vc _ => 10 + vc.val

/-- The units it takes (R242, R303). -/
def linkUnits : LinkPkt → Nat
  | .req _ p => unitsOf p.data.length
  | .rsp _ _ _ _ _ _ _ data => unitsOf data.length
  | .coll .. => 2
  | .bcast _ _ data => unitsOf data.length
  | _ => 1

/-- The item that carries a packet over its next hop (R313, R315). A response names its requester in SRC_EP (log entry 18). -/
def transitItem (s : State) (k : LinkPkt) (p d : Nat) (poison : Bool) : Option LinkItem :=
  match k with
  | .req _ q => some ⟨s.hopVc p q.dmod.toNat d false, .packet, pktHdr q, q.data, poison, 0⟩
  | .fnc _ m sm src tag addr => some (s.fenceItem p d m.toNat sm.toNat src.val tag.toNat addr.toNat 0)
  | .rsp _ m sm ep tag ack st data =>
    some ⟨s.hopVc p m.toNat d true, .packet, ⟨0, tag.toNat, data.length - 1, if ack then opWRACK else opRDRSP, st.val, m.toNat, sm.toNat, ep.val, 0⟩, data, poison, 0⟩
  | .fncack _ m sm ep tag => some ⟨s.hopVc p m.toNat d true, .packet, ⟨0, tag.toNat, 0, opFNCACK, 0, m.toNat, sm.toNat, ep.val, 0⟩, [], poison, 0⟩
  | .evt _ m sm src stamp evs => some (evtItem d m.toNat stamp.toNat sm.toNat src.val evs poison)
  | _ => none

/-- A port's output buffer has space for an item on its VC (R314), counted with what the cuff holds for it. The spec gives the buffer no size: it takes the units that the receiver's has (log entry 18). -/
def outRoom (s : State) (p : Nat) (i : LinkItem) : Bool :=
  let queued : Nat := ((s.port p).queue.filter fun q => q.vc == i.vc).foldl (fun n q => n + q.units - q.sent) 0
  let crossing : Nat := (s.net.cuff.filterMap fun c => match c.2.2 with | .link q k => if q = p ∧ k.vc = i.vc then some k.units else none | _ => none).foldl (· + ·) 0
  decide (queued + crossing = 0) || decide (queued + crossing + i.units ≤ vcBuffer i.vc)

/-- A request of another module is passed onto the die (R314, R320): it takes an entry of the reply table; the port injects it as its own, in the account that orders fences. -/
def bring (s : State) (p : Nat) (q : Pkt) : State :=
  let s := s.modNet fun n => { n with replies := n.replies ++ [(q.smod.toNat, q.src.val, q.tag.toNat)] }
  match epOf q.addr.toNat with
  | some t => s.inject (epFl p) t (.brought { q with cls := if q.cls = 5 then 5 else 3 })
  | none => (s.unmapped (epFl p) q.addr.toNat).reply (epFl p) q.smod.toNat q.src.val q.tag.toNat (q.op == 1) true stUNMAPPED [] none

/-- A fence of another module is passed onto the die (R320): the port applies R255 towards the endpoint of its address. -/
def bringFence (s : State) (p sm ep tag addr : Nat) : State :=
  let s := s.modNet fun n => { n with replies := n.replies ++ [(sm, ep, tag)] }
  match epOf addr with
  | some t =>
    let key := s.freeTag (epFl p)
    (s.modNet fun n => { n with gates := n.gates ++ [⟨p, key, sm, ep, tag⟩] }).inject (epFl p) t (.fnc key addr none)
  | none => (s.unmapped (epFl p) addr).reply (epFl p) sm ep tag true true stUNMAPPED [] none

/-- A fence of another module is delivered, or has failed (R320): its confirmation returns in class RSP; one that has timed out is not answered. -/
def gateOver (s : State) (g : Gate) (st : Nat) : State :=
  let s := s.modNet fun n => { n with gates := n.gates.erase g }
  if st = stTIMEOUT then s.releaseReply g.smod g.ep g.tag
  else if st ≠ stOK then s.reply (epFl g.port) g.smod g.ep g.tag true true st [] none
  else
    match s.forward 8 g.smod 0 with
    | .inr why => (s.rtDrop why 8 g.smod).releaseReply g.smod g.ep g.tag
    | .inl (p, d) =>
      let i : LinkItem := ⟨s.hopVc p g.smod d true, .reply, ⟨0, g.tag, 0, opFNCACK, 0, g.smod, s.modId, g.ep, 0⟩, [], false, 0⟩
      s.cross (epHalf (epFl g.port)) (epHalf (epFl p)) 2 (.link p i) fun s => s.linkSend p i

/-- A packet that arrives during a compute reset (R336, R465). -/
def linkInReset (s : State) (p : Nat) (k : LinkPkt) : State :=
  match k with
  | .coll .. => s.bump Reg.RESET.RST_OTHER_DROP_CNT.CNT
  | .bcast .. => s.bump Reg.RESET.RST_OTHER_DROP_CNT.CNT
  | _ =>
    let m := (linkDest k).getD 0
    if m ≠ s.modId then s.rtDrop 6 p m
    else
      match k with
      | .evt _ _ _ _ _ evs => s.add Reg.RESET.RST_EVT_DROP_CNT.CNT evs.length
      | .req _ q => (s.bump Reg.RESET.RST_REQ_CNT.CNT).reply (epFl p) q.smod.toNat q.src.val q.tag.toNat (q.op.val == 1) true stTARGET_RESET [] none
      | .fnc _ _ sm src tag _ => (s.bump Reg.RESET.RST_REQ_CNT.CNT).reply (epFl p) sm.toNat src.val tag.toNat true true stTARGET_RESET [] none
      | _ => s.bump Reg.RESET.RST_OTHER_DROP_CNT.CNT

/-- The packet at the head of a VC's receive buffer leaves it, if it can (R314, R320): a request for this module while the reply table has an entry free; a packet in transit with space in the output buffer, over the die in class FWD; a
fence after every packet for its module that arrived before it. -/
def rxLeave (s : State) (p : Nat) (e : RxItem) (before : List RxItem) : Option State :=
  let behind := before.any fun b => linkDest b.pkt == linkDest e.pkt
  if s.flag Reg.RESET.RST_STAT.COMP_ACTIVE then some (s.linkInReset p e.pkt)
  else
    match e.hop with
    | some (q, d) =>
      match s.transitItem e.pkt q d e.poison with
      | none => some s
      | some i =>
        if (i.kind == .fence && behind) || !s.outRoom q i || !s.netOn (epHalf (epFl p)) then none
        else some (s.cross (epHalf (epFl p)) (epHalf (epFl q)) (8 + d) (.link q i) fun s => s.linkSend q i)
    | none =>
      if 1024 ≤ s.net.replies.length then none
      else
        match e.pkt with
        | .req _ q => some (if e.poison then s else s.bring p q)
        | .fnc _ _ sm src tag addr => if behind then none else some (s.bringFence p sm.toNat src.val tag.toNat addr.toNat)
        | _ => some s

/-- What can leave a port's receive buffer does, in order on each VC, and its credits return. -/
def rxPort (p : Nat) : List RxItem → List RxItem → State → State
  | [], _, s => s
  | e :: t, kept, s =>
    if kept.any fun k => k.vc == e.vc then rxPort p t (kept ++ [e]) s
    else
      match s.rxLeave p e kept with
      | none => rxPort p t (kept ++ [e]) s
      | some s => rxPort p t kept ((s.modPort p fun q => { q with rx := q.rx.erase e }).creditBack p e.vc e.units)

/-- Packets that crossed to an output port while its half stood still reach it once it runs (R273). -/
def cuffPass (s : State) : State :=
  s.net.cuff.foldl (fun s c => match c.2.2 with
    | .link p i => if s.netOn c.1 && s.netOn (1 - c.1) then (s.cuffLeave (.link p i)).linkSend p i else s
    | _ => s) s

/-- Packets that wait in the module for a link, a buffer or a reply entry go on where they can. -/
def linkPass (s : State) : State := (List.range 8).foldl (fun s p => rxPort p (s.port p).rx [] s) s.cuffPass

/-- A packet for this module other than a request is delivered (R46, R320, R327, R334, R335): a completion and a confirmation go to their requester over B-net. -/
def linkHere (s : State) (p : Nat) (k : LinkPkt) : State :=
  match k with
  | .rsp _ _ _ ep tag ack st data => s.inject (epFl p) ep.val (.rsp ⟨ep.val, tag.toNat, epFl p, false, st.val, data, none, ack, false, none⟩)
  | .fncack _ _ _ ep tag =>
    match s.net.lanes.find? fun l => l.1 / 8192 == ep.val && decide (384 ≤ l.1 % 8192) && (match l.2.openF with | some (_, some t) => t == tag.toNat | _ => false) with
    | some l => s.modNet fun n => { n with acks := n.acks ++ [⟨ep.val, l.1 % 8192, (l.2.openF.map (·.1)).getD 0, epFl p⟩] }
    | none => if s.domOn (epDomain ep.val) then (s.bump Reg.FAB0.LATE_RSP_CNT.CNT).fabCause 7 else s.epDown ep.val
  | .evt _ _ _ _ stamp evs => evs.foldl (fun s e => s.landEvent p stamp.toNat e) s
  | .coll g o line => s.collLand p g.val o.toNat line
  | .bcast d a data => (s.bcastHere p a.toNat data).bcastOut p (bnat d) (epFl p) 0 a.toNat data
  | _ => s

/-- A packet that has arrived whole (R313 to R316, R326): looked up once; one that need not wait is delivered and its credit returns, others stand in the receive buffer. -/
def linkTake (s : State) (p : Nat) (k : LinkPkt) (poison : Bool) : State :=
  let vc := s.linkVc k
  let n := linkUnits k
  let hold (s : State) (hop : Option (Nat × Nat)) : State := s.modPort p fun q => { q with rx := q.rx ++ [⟨k, poison, vc, n, hop⟩] }
  if s.flag Reg.RESET.RST_STAT.COMP_ACTIVE then (s.linkInReset p k).creditBack p vc n
  else
    match linkDest k with
    | none => (if poison then s else s.linkHere p k).creditBack p vc n
    | some m =>
      if m = s.modId then
        match k with
        | .req .. => hold s none
        | .fnc .. => hold s none
        | _ => (if poison then s else s.linkHere p k).creditBack p vc n
      else
        match s.forward p m (linkD k) with
        | .inr why => (s.rtDrop why p m).creditBack p vc n
        | .inl hop =>
          match k with
          | .evt _ _ _ _ _ evs =>
            if s.peerIs hop.1 m then hold s (some hop)
            else (evs.foldl (fun s _ => s.xevtDrop (Reg.FLC.XEVT_NONNBR_CNT.CNT hop.1) hop.1) s).creditBack p vc n
          | _ => hold s (some hop)

/-- Units that a link loses (R307): each is counted, and its credit returns. -/
def unitsLost (s : State) (p : Nat) (luck : RxLuck) : State :=
  let s := if luck.fec = 0 then s else (s.add (Reg.FLC.FEC_UNC_CNT.CNT p) luck.fec).cause (flcPg p) 4
  if luck.crc = 0 then s else (s.add (Reg.FLC.CRC_DROP_CNT.CNT p) luck.crc).cause (flcPg p) 5

/-- The units that the receive buffer of a VC holds. -/
def rxHeld (s : State) (p vc : Nat) : Nat := ((s.port p).rx.filter fun e => e.vc == vc).foldl (fun n e => n + e.units) 0

end State

/-- TRAINING_END (R308 to R310): the attempt ends UP on the narrower of the two sides' widths, or FAILED on a duplicate ID or a version, or without the width that each side must have. -/
def execTrainingEnd (p : Fin 8) (peer : PeerCaps) (s : State) : Res :=
  let p := p.val
  if s.portState p ≠ 1 then .next s
  else
    let ver := min 0x31 peer.hi.toNat
    let width := max peer.width.val peer.plock.val
    let least := if ver < 0x31 then 0 else min (s.get (Reg.FL.PORT_CFG.MIN_W p)) peer.minW.val
    if peer.id.toNat = s.modId then .next (s.trainFail p 0x10 true)
    else if ver < max 0x20 peer.lo.toNat then .next (s.trainFail p rcVersion true)
    else if least < width then .next (s.trainFail p 0x11 false)
    else .next (s.linkUp p peer ver width)

/-- TRAIN_TIMEOUT (R308): an attempt has not reached UP within 500 ms. -/
def execTrainTimeout (p : Fin 8) (s : State) : Res := if s.portState p.val = 1 then .next (s.trainFail p.val 0x12 false) else .next s

/-- TRAIN_RETRY (R308): an enabled port that is DOWN and has not failed for good trains again. -/
def execTrainRetry (p : Fin 8) (s : State) : Res :=
  if s.isEnabled (flPg p.val) && s.portState p.val == 0 && !(s.port p.val).failed then .next (s.setPortState p.val 1) else .next s

/-- LINK_PACKET (R304, R306, R307, R313 to R315, R336, R338, R465): a packet arrives on a port that is UP, or a unit that belongs to none. With a unit lost the whole packet is discarded; its credits return in either case. A peer sends no unit for
which it holds no credit, so a packet for which the buffer has no room does not arrive. -/
def execLinkPacket (p : Fin 8) (pkt : LinkPkt) (luck : RxLuck) (s : State) : Res :=
  let p := p.val
  let vc := s.linkVc pkt
  let n := State.linkUnits pkt
  let held := s.rxHeld p vc
  if !s.portUp p ∨ (held ≠ 0 ∧ vcBuffer vc < held + n) then .next s
  else
    let luck := { luck with fec := min luck.fec n, crc := min luck.crc (n - luck.fec) }
    let s := s.add (Reg.FLC.FEC_CW_CNT.CNT p) luck.fixed
    let s := s.unitsLost p luck
    let lost := luck.fec + luck.crc ≠ 0
    match pkt with
    | .stray v ty =>
      if v.val = 5 then .next s
      else
        let s := s.add (Reg.FLC.RX_UNITS.CNT p) 1
        if v.val = 4 then
          let known := 1 ≤ ty.toNat ∧ ty.toNat ≤ 6
          if lost then .next (s.creditBack p 14 1)
          else if known then .next s
          else .next ((s.unitsLost p ⟨0, 1, 0, false⟩).creditBack p 14 1)
        else if lost then .next s
        else .next (s.unitsLost p ⟨0, 1, 0, false⟩)
    | _ =>
      let s := s.add (Reg.FLC.RX_UNITS.CNT p) n
      if lost then .next (s.creditBack p vc n) else .next (s.linkTake p pkt luck.poison).linkPass

/-- IDLE_UNIT (R304, R336): a unit slot of a port that is UP in which nothing else can be sent: an idle unit; while a compute reset is active the port sends its last step token again. -/
def execIdleUnit (p : Fin 8) (s : State) : Res :=
  if !s.portUp p.val then .next s
  else
    let s := s.linkPass.linkKick p.val
    if s.flag Reg.RESET.RST_STAT.COMP_ACTIVE && !(s.port p.val).queue.any (fun i => i.kind == .token) then .next (s.sendToken p.val (s.get (Reg.FL.TOK_TX.STEP p.val)))
    else .next (s.emit (.link p.val idleUnit))

/-- CREDIT (R306): buffer space comes back, and queued units go. -/
def execCredit (p : Fin 8) (pairs : List (Fin 15 × BitVec 16)) (s : State) : Res :=
  if !s.portUp p.val then .next s
  else
    let s := pairs.foldl (fun s c => s.modPort p.val fun q =>
      { q with credits := setAt 0 c.1.val (min (vcBuffer c.1.val) (getAt 0 c.1.val q.credits + c.2.toNat)) q.credits }) (s.rxMgmt p.val true)
    .next (s.linkKick p.val).linkPass

/-- STEPTOK (R329, R330): the highest token of the neighbour counts; a step that waits for it may start. -/
def execSteptok (p : Fin 8) (tok : Word32) (s : State) : Res :=
  if !s.portUp p.val then .next s
  else
    let id := s.get (Reg.FL.PEER.ID p.val)
    let s := (s.rxMgmt p.val false).put (Reg.FL.TOK_RX.STEP p.val) tok.toNat
    let new := match lookup id s.tokens with
      | some (some t) => if State.before32 t tok.toNat then tok.toNat else t
      | _ => tok.toNat
    .next ({ s with tokens := insert id (some new) s.tokens, gone := s.gone.filter (· != id) }).tryStart

/-- BARTOK (R333): the flag of the channel is set. -/
def execBartok (p : Fin 8) (k : Fin 4) (s : State) : Res :=
  if !s.portUp p.val then .next s
  else
    let s := s.rxMgmt p.val false
    .next (if s.pageUp (pageAt State.pgSNET) then s.setFlag (s.get (Reg.FL.BARX.FLAG p.val k.val)) true else s)

/-- CGRANT (R334): the peer grants credits for a group. -/
def execCgrant (p : Fin 8) (g : Fin 64) (cr : BitVec 8) (s : State) : Res :=
  if !s.portUp p.val then .next s else .next ((s.rxMgmt p.val false).addGrant p.val g.val cr.toNat)

/-- CRETURN (R334): the peer returns credits of a group that it has granted. -/
def execCreturn (p : Fin 8) (g : Fin 64) (cr : BitVec 8) (s : State) : Res :=
  if !s.portUp p.val then .next s
  else if (lookup g.val (s.port p.val).grants).isNone then .next (s.rxMgmt p.val false)
  else .next ((s.rxMgmt p.val false).addGrant p.val g.val cr.toNat)

/-- LINK_DOWN (R321, R322, R330): loss of link is declared. -/
def execLinkDown (p : Fin 8) (s : State) : Res :=
  let p := p.val
  if !s.portUp p then .next s
  else
    let n := ((s.port p).queue.filter fun i => i.kind != .mgmt && i.kind != .token).length + (s.port p).lines.length
    let s := ((s.linkLost p).bump (Reg.FLC.DOWN_CNT.CNT p)).causeErr (flPg p) 5
    let s := if n = 0 then s else (s.add (Reg.FLC.RT_PORTDOWN_CNT.CNT 0) n).cause (flcPg 0) 7
    let s := s.modPort p fun q => { q with lost := s.flag (Reg.FL.PORT_CFG.FAILOVER p) && !s.hostMode (flPg p) }
    .next s.tryStart

/-- FAILOVER (R322): after a loss on a FAILOVER port in hardware mode the routing goes to bank B, or the missing bank is counted. -/
def execFailover (p : Fin 8) (s : State) : Res :=
  if !(s.port p.val).lost then .next s
  else
    let s := s.modPort p.val fun q => { q with lost := false }
    if !s.flag (Reg.FL.PORT_CFG.FAILOVER p.val) then .next s
    else if s.get (Reg.FL.RT_SEL.BANK 0) = 0 ∧ s.isEnabled (routePg 0 1) then
      .next ((((s.put (Reg.FL.RT_SEL.BANK 0) 1).bump (Reg.FL.RT_STAT.SWITCHES 0)).put (Reg.FL.RT_STAT.AUTO 0) 1).cause (flPg p.val) 6)
    else .next (s.bump (Reg.FL.RT_STAT.MISS 0))

/-- RT_SEL (R62, R323, R324, R430): the holder, or the host while a port is in host mode, selects a bank that is enabled. -/
def actRtSel (src : Source) (bank : Bool) (s : State) : Res :=
  let pg := flPg 0
  let host := src == .host && (List.range 8).any fun p => s.hostMode (flPg p)
  if !s.authorised src && !host then .next (s.refuse pg rcNotHolder 0x204)
  else if (s.get Reg.SECURITY.LOCK.BITS).testBit 3 then .next (s.refuse pg rcLocked 0x204)
  else if !s.isEnabled (routePg 0 (if bank then 1 else 0)) then .next (s.refuse pg rcDep 0x204)
  else .next ((s.accept pg).put (Reg.FL.RT_SEL.BANK 0) (if bank then 1 else 0))

/-- XSYNC_CFG (R329 to R331): enabling is checked at once; when it passes each port that is UP sends the token STEP_CNT − 1. -/
def actXsyncCfg (src : Source) (v : Word32) (s : State) : Res :=
  let _ := src
  let pg := flPg 0
  let on := v.toNat.testBit 31
  let la := bits v.toNat 3 0
  let write (s : State) : State := ((s.put (Reg.FL.XSYNC_CFG.EN 0) (if on then 1 else 0)).put (Reg.FL.XSYNC_CFG.XDELAY_MIN 0) (bits v.toNat 21 16)).put (Reg.FL.XSYNC_CFG.LOOKAHEAD 0) la
  if on && !s.flag (Reg.FL.XSYNC_CFG.EN 0) then
    if la = 0 ∨ 8 < la then .next (s.refuse pg rcRange 0x20C)
    else if bits v.toNat 21 16 < la then .next (s.refuse pg rcLook 0x20C)
    else if !s.pageUp (pageAt pgSTEP) || !s.isReady pgSTEP then .next (s.refuse pg rcDep 0x20C)
    else .next ((write s).sendTokens (2 ^ 32 + low 32 s.stepCnt - 1))
  else .next (write s).tryStart

/-- XCOL_ENABLE (R334, R337): a write of a collective channel's first word; setting EN sends the grant, clearing it withdraws it. -/
def actXcolEnable (src : Source) (p : Fin 8) (k : Fin 4) (v : Word32) (s : State) : Res :=
  let _ := src
  let on := v.toNat.testBit 31
  let was := s.flag (Reg.FL.XCOL_W0.EN p.val k.val)
  let s := ((s.put (Reg.FL.XCOL_W0.EN p.val k.val) (if on then 1 else 0)).put (Reg.FL.XCOL_W0.GROUP p.val k.val) (bits v.toNat 21 16)).put (Reg.FL.XCOL_W0.DEPTH_M1 p.val k.val) (bits v.toNat 5 0)
  if on && !was && s.portUp p.val && s.portV3 p.val then .next (s.sendMgmt p.val (mgmtGrant (bits v.toNat 21 16) (bits v.toNat 5 0 + 1))) else .next s

/-- EVT_LIFE (R332): the k-th event of a port's landing store, or item of its output queue, has waited EVT_LIFE µs and is dropped. -/
def execEvtLife (p : Fin 8) (landing : Bool) (k : Nat) (s : State) : Res :=
  let p := p.val
  let drop (s : State) : State := s.xevtDrop (Reg.FLC.XEVT_LIFE_CNT.CNT p) p
  if landing then
    if k < (s.port p).landing.length then .next (drop (s.modPort p fun q => { q with landing := q.landing.eraseIdx k })) else .next s
  else
    match (s.port p).queue[k]? with
    | none => .next s
    | some i => if i.kind = .packet ∧ i.hdr.opc = opEVT then .next ((drop (s.modPort p fun q => { q with queue := q.queue.eraseIdx k })).linkKick p) else .next s

namespace State

/-- The cuff discards a packet for a half (R246, R273): a request, a fence marker among them, is answered DOMAIN_OFF; for a packet of another class nothing is returned. An engine's access fails when the engine makes it again. -/
def cuffDiscard (s : State) (half : Nat) (i : CuffItem) : State :=
  let side := 192 * (1 - half)
  let answer (s : State) (p : Pkt) : State := s.reply side p.smod.toNat p.src.val p.tag.toNat (p.op == 1) true stDOMAIN_OFF [] none
  match i with
  | .req p =>
    if p.smod.toNat ≠ s.modId then answer (s.modNet fun n => { n with brought := n.brought.filter fun b => b.2 != p }) p
    else answer (s.packetOver p (!s.net.out.contains p) true) p
  | .post m tile tag =>
    match s.posts.find? fun x => x.mover == m && x.tile == tile && x.tag == tag with
    | some x => ({ s with posts := s.posts.erase x }).postReply tile x.key (2 ^ 31 + stDOMAIN_OFF)
    | none => s
  | .evt src dst evs =>
    let mine (f : EvtFlight) : Bool := f.src == src && f.dst == dst && evs.contains f.ev
    s.modNet fun n => { n with evts := n.evts.filter fun f => !mine f, fences := n.fences.filter fun x => !n.evts.any fun f => mine f && x.src == src && x.dst == dst && f.fence == some x.id }
  | .rsp dst tag =>
    match s.net.rsps.find? fun r => r.dst == dst && r.tag == tag with
    | none => s
    | some r =>
      let s := s.modNet fun n => { n with rsps := n.rsps.erase r, stale := n.stale.filter (· != (dst, tag)) }
      match r.via with | some (m, e, _) => s.releaseReply m e tag | none => s
  | .part l g o => s.modNet fun n => { n with partials := n.partials.filter fun x => !(x.1 == l && x.2.1 == g && x.2.2.1 == o) }
  | .res g o => s.modNet fun n => { n with results := n.results.filter fun x => !(x.group == g && x.line == o) }
  | .fnc src dst =>
    match s.net.fences.find? fun f => f.src == src && f.dst == dst && f.ev.isNone with
    | none => s
    | some f =>
      let s := s.fenceLost f
      match f.tag with
      | some t => s.reply side s.modId src t true true stDOMAIN_OFF [] none
      | none => s.modNet fun n => { n with acks := n.acks ++ [⟨src, dst, f.id, src⟩] }
  | .ack src dst id => s.modNet fun n => { n with acks := n.acks.filter fun a => !(a.src == src && a.dst == dst && a.id == id) }
  | .link _ k => if k.kind = .reply then s.releaseReply k.hdr.dmod k.hdr.ep k.hdr.tag else s
  | .acc ep line => s.modNet fun n => { n with cut := n.cut ++ [(ep, line)] }

end State

/-- CUFF_TIMEOUT (R273): the k-th held packet has waited CUFF_TMO µs: it is discarded, and a request is answered DOMAIN_OFF. A half that runs again has let it through. -/
def execCuffTimeout (k : Nat) (s : State) : Res :=
  match s.net.cuff[k]? with
  | none => .next s
  | some c =>
    let tmo := s.get Reg.CUFF.CUFF_TMO.US
    if tmo = 0 ∨ s.netOn c.1 then .next s
    else
      let s := (s.modNet fun n => { n with cuff := n.cuff.eraseIdx k }).cuffStat
      let s := s.put Reg.CUFF.CUFF_HOLD_MAX.US (max tmo (s.get Reg.CUFF.CUFF_HOLD_MAX.US))
      let s := (s.bump Reg.CUFF.CUFF_DROP_CNT.CNT).causeErr (fabPg 1) 5
      .next (s.cuffDiscard c.1 c.2.2)

end Sys2Proof.Machine
end

