-- ==== Sys2Proof/Machine/Queues.lean ====
section
/-! DEFINITION. Message queues (chapter 09) and the host's send windows (R376, R377). -/
namespace Sys2Proof.Machine

/-! Queue status codes (R285). -/
def qOK : Nat := 0
def qFULL : Nat := 1
def qTIMEOUT : Nat := 2
def qDEAD : Nat := 3
def qSTALL : Nat := 4
def qBAD : Nat := 5
def qNOSLOT : Nat := 6
def qLOST : Nat := 7
def qEMPTY : Nat := 8
def qUNCORR : Nat := 9

namespace State

def queue (s : State) (n : Nat) : QueueS := (s.tile n).queue
def modQueue (s : State) (n : Nat) (f : QueueS → QueueS) : State := s.modTile n fun t => { t with queue := f t.queue }
def modQnet (s : State) (f : QNetS → QNetS) : State := { s with qnet := f s.qnet }
def pgQUEUE (n : Nat) : Nat := tilePg n 12
def pgQUEUE2 (n : Nat) : Nat := tilePg n 13

/-- Channel IDs (R281). -/
def txCh (n k : Nat) : Nat := n * 128 + k
def rxCh (n q : Nat) : Nat := n * 128 + 64 + q

/-! Slots (R280, R284, R298). -/

/-- Slots in use, and readable messages, of a queue. -/
def qOcc (s : State) (n q : Nat) : Nat := ((s.queue n).msgs ++ (s.queue n).opens).countP fun m => m.queue == q
def qReady (s : State) (n q : Nat) : Nat := (s.queue n).msgs.countP fun m => m.queue == q

/-- The lowest free slot of a queue (log entry 26). -/
def freeQSlot (s : State) (n q : Nat) : Nat :=
  ((List.range 32).find? fun i => !((s.queue n).msgs ++ (s.queue n).opens).any fun m => m.queue == q && m.slot == i).getD 0

/-- The word address of word i of a slot in the queue SRAM. -/
def qWord (q slot i : Nat) : Nat := (q * 32 + slot) * 8 + i

/-- The readable count of a queue changed from 0: its notification flag is set (R291). -/
def notify (s : State) (n q : Nat) : State :=
  if s.flag (Reg.QUEUE.QCFG.NOTIFY n q) && s.pageUp (pageAt pgSNET) then s.setFlag (s.get (Reg.QUEUE.QCFG.FLAG n q)) true else s

/-- A message becomes readable. -/
def qPush (s : State) (n : Nat) (m : QMsg) : State :=
  let was := s.qReady n m.queue
  let s := s.modQueue n fun q => { q with msgs := q.msgs ++ [m] }
  if was = 0 then s.notify n m.queue else s

/-- Words of a slot are written with valid check bits. -/
def qClean (s : State) (n q slot k : Nat) : State :=
  s.modQueue n fun x => { x with flips := (List.range k).foldl (fun l i => remove (qWord q slot i) l) x.flips }

/-- The upset bits of word i of a slot. -/
def qFlips (s : State) (n q slot i : Nat) : Nat := (getAt [] (qWord q slot i) (s.queue n).flips).length

/-- Words of a slot are read through SEC-DED (R31, R280, R302, R517): a single-bit error is corrected, rewritten and counted, an uncorrectable word is counted; whether every word could be read. -/
def qScan (s : State) (n q slot : Nat) (words : List Nat) : Bool × State :=
  let one := words.filter fun i => s.qFlips n q slot i == 1
  let two := words.countP fun i => decide (2 ≤ s.qFlips n q slot i)
  let s := if one.isEmpty then s
    else ((s.modQueue n fun x => { x with flips := one.foldl (fun l i => remove (qWord q slot i) l) x.flips }).add (Reg.QUEUE2.QECC_CE_CNT.CNT n) one.length).cause (pgQUEUE2 n) 4
  (two == 0, if two = 0 then s else (s.add (Reg.QUEUE2.QECC_UE_CNT.CNT n) two).causeErr (pgQUEUE2 n) 5)

/-- One lane of a combining sum (R298). -/
def combLane (int : Bool) (a b : Nat) : Nat := if int then low 32 (a + b) else fadd a b

/-- A contribution's words added into an entry's; a word the entry does not hold starts at the contributed value. -/
def combWords (int : Bool) : List Word64 → List Word64 → List Word64
  | [], bs => bs
  | as, [] => as
  | a :: t, b :: u => BitVec.ofNat 64 (combLane int (bits a.toNat 63 32) (bits b.toNat 63 32) * 2 ^ 32 + combLane int (low 32 a.toNat) (low 32 b.toNat)) :: combWords int t u

/-- An open entry leaves the open ones and becomes readable. -/
def release (s : State) (n : Nat) (e : QMsg) : State := (s.modQueue n fun q => { q with opens := q.opens.filter fun x => !(x.queue == e.queue && x.key == e.key) }).qPush n e

/-- The queue is dead (R294). A half whose clock stands still makes none of its queues dead. -/
def qDeadNow (s : State) (n q : Nat) : Bool :=
  !s.domOn n || !s.isEnabled (pgQUEUE n) || s.flag (Reg.HDR.BLK_CTRL.SRST (pgQUEUE n)) || s.flag (Reg.HDR.BLK_CTRL.SRST (tilePg n 0))
    || !s.flag (Reg.QUEUE.QCFG.OPEN n q)

/-- The open entry that a message of a combining queue joins. -/
def openEntry (s : State) (n q key : Nat) : Option QMsg := (s.queue n).opens.find? fun e => e.queue == q && e.key == key

/-- A message that has arrived can be placed now: it joins an entry, or a slot is free. -/
def placeable (s : State) (n : Nat) (f : QFly) : Bool :=
  (f.comb && (s.openEntry n f.head.queue f.head.key).isSome) || decide (s.qOcc n f.head.queue < 32)

/-- A completion starts back to its sender (R285). -/
def qReply (s : State) (f : QFly) (code : Nat) : State := s.modQnet fun q => { q with done := q.done ++ [(f.id, f.ch, code)] }

/-- Place a message (R283, R297, R298, R300): of the kind that its queue had when it arrived. An entry that a message is added into is read first; a word of it that is uncorrectable stays so (log entry 26). -/
def qPlace (s : State) (n : Nat) (f : QFly) : State :=
  let h := f.head
  let s := (s.bump (Reg.QUEUE2.RX_MSG_CNT.CNT n h.queue)).qReply f qOK
  let slot := s.freeQSlot n h.queue
  if f.comb then
    let fresh : QMsg := ⟨h.queue, slot, h.words, f.ch, h.key, 1, false, s.get (Reg.QUEUE.QCFG.EXPECT n h.queue), s.flag (Reg.QUEUE.QCFG.TYPE n h.queue)⟩
    let e := match s.openEntry n h.queue h.key with
      | none => fresh
      | some e => { e with words := combWords e.int e.words h.words, ch := f.ch, count := e.count + 1 }
    let old := match s.openEntry n h.queue h.key with | none => 0 | some e => min e.words.length h.words.length
    let s := (s.qScan n h.queue e.slot (List.range old)).2
    let s := if old = 0 then s.qClean n h.queue e.slot e.words.length else s
    let s := s.modQueue n fun q => { q with opens := (q.opens.filter fun x => !(x.queue == e.queue && x.key == e.key)) ++ [e] }
    if e.count = e.expect then s.release n e else s
  else (s.qClean n h.queue slot h.words.length).qPush n ⟨h.queue, slot, h.words, f.ch, h.key, 1, false, 0, false⟩

/-- A discard at a dead queue (R294): the receiving tile counts it when it can. -/
def qDiscardDead (s : State) (n : Nat) (f : QFly) : State :=
  let s := s.qReply f qDEAD
  if s.pageUp (pageAt (pgQUEUE n)) then (s.bump (Reg.QUEUE.RX_DEAD_CNT.CNT n)).cause (pgQUEUE n) 5 else s

/-- The held message leaves the MSG input; a host-mode hold of it ends. -/
def unhold (s : State) (n : Nat) : State := (s.modQueue n fun q => { q with held := none }).put (Reg.QUEUE.STALL_CTRL.HOLD n) 0

/-- A message held for a queue that is dead now is discarded (R294). -/
def qDeadCheck (s : State) (n : Nat) : State :=
  match (s.queue n).held with
  | none => s
  | some f => if s.qDeadNow n f.head.queue then (s.unhold n).qDiscardDead n f else s

/-- A head flit arrives (R283, R294, R297). -/
def qArrive (s : State) (f : QFly) : State :=
  let h := f.head
  let n := h.tile
  let f := { f with comb := s.flag (Reg.QUEUE.QCFG.COMB n h.queue) }
  if s.qDeadNow n h.queue then s.qDiscardDead n f
  else if h.mode = 3 ∨ (h.mode = 2 ∧ h.tmo = 0) ∨ h.words = [] ∨ 8 < h.words.length ∨ (f.comb ∧ 4 < h.words.length) then
    ((s.bump (Reg.QUEUE.BAD_CNT.CNT n)).causeErr (pgQUEUE n) 6).qReply f qBAD
  else if s.placeable n f then s.qPlace n f
  else if h.mode = 1 then s.qReply f qFULL
  else s.modQueue n fun q => { q with held := some f }

/-- A message starts over C-net. -/
def qLaunch (s : State) (ch : Nat) (h : QHead) : State :=
  s.modQnet fun q => { q with fly := q.fly ++ [⟨q.seq + 1, ch, h, false⟩], seq := q.seq + 1 }

/-- The held sends of a tile's own channels at other tiles: the lowest channel (R295). -/
def heldElsewhere (s : State) (n : Nat) : Option Nat :=
  (List.range 4).find? fun k => s.tiles.any fun t => t.1 != n && match t.2.queue.held with
    | some f => f.ch == txCh n k && (s.queue n).tx.any fun x => x.1 == k && x.2.1 == f.id
    | none => false

/-- A send of a tile's channel is over: the channel is free and its status register receives the code (R285, R287). -/
def sendOver (s : State) (n k code : Nat) : State :=
  let s := if code = qSTALL ∨ code = qTIMEOUT ∨ code = qLOST then s.bump (Reg.QUEUE.TX_STALL_CNT.CNT n k)
    else if code = qDEAD then s.bump (Reg.QUEUE.TX_DEAD_CNT.CNT n) else s
  let rd := ((s.queue n).tx.find? fun x => x.1 == k).map (·.2.2)
  let s := s.modQueue n fun q => { q with tx := q.tx.filter fun x => x.1 != k }
  s.modTile n fun t => { t with tracked := t.tracked.map fun x =>
    if x.ready.isNone && x.tag == 4096 + k then { x with ready := some s.issue.period, res := [.sreg (rd.getD 0) (BitVec.ofNat 64 code)] } else x }

/-- A host window's send is over (R377). -/
def winOver (s : State) (m code : Nat) : State :=
  ((((s.modQnet fun q => { q with winTx := q.winTx.filter fun x => x.1 != m }).put (Reg.WIN.STATUS.BUSY m) 0).put (Reg.WIN.STATUS.DONE m) 1).put (Reg.WIN.STATUS.CODE m) code).cause pgGLOBAL 8

/-! Reading a queue (R289). -/

/-- The status word of a message (R289). -/
def qStatus (m : QMsg) (code : Nat) : Nat :=
  low 12 m.count * 2 ^ 44 + low 16 m.ch * 2 ^ 28 + low 16 m.key * 2 ^ 12 + (if m.part then 2 ^ 11 else 0) + (m.words.length - 1) * 2 ^ 8 + code

/-- Remove a readable message. -/
def qRemove (s : State) (n : Nat) (m : QMsg) : State := s.modQueue n fun q => { q with msgs := q.msgs.erase m }

/-- QRECV: 0 RECV, 1 PEEK, 2 DISCARD (R289). Each destination register is marked for 4 cycles. -/
def qrecv (s : State) (n op rd nm1 rs q : Nat) : State :=
  if 31 < rd + nm1 ∨ rs = 0 ∨ (rd ≤ rs ∧ rs ≤ rd + nm1) then s.illegalOp n
  else
    let put (s : State) (r v : Nat) : State := s.trackOwn n 4 false (some r) 0 [.sreg r (BitVec.ofNat 64 v)] none
    let give (s : State) (ws : List Word64) : State :=
      if op = 2 then s else (List.range (nm1 + 1)).foldl (fun s i => put s (rd + i) (ws.getD i 0).toNat) s
    match (s.queue n).msgs.find? fun m => m.queue == q with
    | none => put (give s []) rs qEMPTY
    | some m =>
      let e := s.qScan n m.queue m.slot (if op = 2 then [] else List.range (min (nm1 + 1) m.words.length))
      if e.1 then put (give (if op = 1 then e.2 else e.2.qRemove n m) m.words) rs (qStatus m qOK)
      else put (give (e.2.qRemove n m) []) rs (qStatus m qUNCORR)

end State

/-- QSEND (R285 to R287): registers are copied, the lowest free send channel takes the message, and RD is marked until its completion. A destination with a reserved bit is counted and completes with BAD, which is data: no ERR of the
sending tile. -/
def execQsend (n : TileId) (mode : Fin 4) (rs : Reg) (nm1 : Fin 8) (ra rd : Reg) (tmo : BitVec 8) (s : State) : Res :=
  s.slot n fun s =>
    let n := n.val
    if mode.val = 3 ∨ 31 < rs.val + nm1.val ∨ (mode.val = 2 ∧ tmo = 0) ∨ (mode.val ≠ 2 ∧ tmo ≠ 0) ∨ rd.val = 0 then s.illegalOp n
    else
      let a := s.readS n ra.val
      let d := (List.range (nm1.val + 1)).foldl (fun (acc : List Word64 × State) i =>
        let r := acc.2.readS n (rs.val + i); (acc.1 ++ [BitVec.ofNat 64 r.1], r.2)) ([], a.2)
      let s := d.2
      if bits a.1 63 32 ≠ 0 ∨ bits a.1 15 14 ≠ 0 then
        (s.bump (Reg.QUEUE.BAD_CNT.CNT n)).trackOwn n 0 false (some rd.val) 0 [.sreg rd.val (BitVec.ofNat 64 qBAD)] none
      else
        match (List.range 4).find? fun k => !(s.queue n).tx.any fun x => x.1 == k with
        | none => s.trackOwn n 4 false (some rd.val) 0 [.sreg rd.val (BitVec.ofNat 64 qNOSLOT)] none
        | some k =>
          let s := (s.qLaunch (State.txCh n k) ⟨bits a.1 13 6, bits a.1 5 0, mode.val, tmo.toNat, bits a.1 31 16, d.1⟩).bump (Reg.QUEUE.TX_MSG_CNT.CNT n k)
          let s := s.modQueue n fun q => { q with tx := q.tx ++ [(k, s.qnet.seq, rd.val)] }
          s.track n { vector := false, reg := some rd.val, since := s.issue.period, index := s.laneIndex n, ready := none, tag := 4096 + k, status := 0, res := [], src := none }

/-- RECV (R289). -/
def execRecv (n : TileId) (rd : Reg) (nm1 : Fin 8) (rs : Reg) (q : Fin 64) (s : State) : Res := s.slot n (·.qrecv n.val 0 rd.val nm1.val rs.val q.val)
/-- PEEK (R289). -/
def execPeek (n : TileId) (rd : Reg) (nm1 : Fin 8) (rs : Reg) (q : Fin 64) (s : State) : Res := s.slot n (·.qrecv n.val 1 rd.val nm1.val rs.val q.val)
/-- DISCARD (R289). -/
def execDiscard (n : TileId) (rd : Reg) (nm1 : Fin 8) (rs : Reg) (q : Fin 64) (s : State) : Res := s.slot n (·.qrecv n.val 2 rd.val nm1.val rs.val q.val)

/-- MESSAGE_HEAD (R266, R283, R292): the oldest message of a channel on its way, or one that a management core sends, reaches its tile; behind a held head, or while the tile's half stands still, it waits. A parity error loses it. -/
def execMessageHead (ch : BitVec 16) (core : Option CoreMsg) (parity : Bool) (s : State) : Res :=
  let f : Option QFly := match core with
    | some m => if ch = 0x8080 ∨ ch = 0x8100 then some ⟨0, ch.toNat, ⟨m.tile.val, m.queue.val, m.mode.val, m.tmo.toNat, m.key.toNat, m.words⟩, false⟩ else none
    | none => s.qnet.fly.find? fun f => f.ch == ch.toNat
  match f with
  | none => .next s
  | some f =>
    let gone (s : State) : State := s.modQnet fun q => { q with fly := q.fly.erase f }
    if parity then .next ((gone s).parityLost)
    else if (s.queue f.head.tile).held.isSome ∨ !s.netOn (tileHalf f.head.tile) then .next s
    else .next ((gone s).qArrive f)

/-- SLOT_GRANT (R290, R296): a slot of the held message's queue is free, and the message is placed. -/
def execSlotGrant (n : TileId) (s : State) : Res :=
  match (s.queue n.val).held with
  | none => .next s
  | some f => if s.placeable n.val f then .next ((s.unhold n.val).qPlace n.val f) else .next s

/-- TIMED_EXPIRY (R293): a held TIMED message reaches its limit; a slot that is free then is granted. -/
def execTimedExpiry (n : TileId) (s : State) : Res :=
  match (s.queue n.val).held with
  | none => .next s
  | some f =>
    if f.head.mode ≠ 2 then .next s
    else if s.placeable n.val f then .next ((s.unhold n.val).qPlace n.val f)
    else .next ((s.unhold n.val).qReply f qTIMEOUT)

/-- QSTALL (R295, R296): the stall timer of a held BLOCK message reaches QSTALL_TMO. A record stands while STALL_A names a receive channel, whose ID is never 0. -/
def execQstall (n : TileId) (s : State) : Res :=
  let n := n.val
  match (s.queue n).held with
  | none => .next s
  | some f =>
    if f.head.mode ≠ 0 ∨ s.get (Reg.QUEUE.QSTALL_TMO.CYC n) = 0 ∨ s.flag (Reg.QUEUE.STALL_CTRL.HOLD n) then .next s
    else if s.placeable n f then .next ((s.unhold n).qPlace n f)
    else
      let own := s.heldElsewhere n
      let s := if s.get (Reg.QUEUE.STALL_A.RX n) ≠ 0 then s
        else
          let s := (s.put (Reg.QUEUE.STALL_A.WAITER n) f.ch).put (Reg.QUEUE.STALL_A.RX n) (State.rxCh n f.head.queue)
          (s.put (Reg.QUEUE.STALL_B.OWN_VALID n) (if own.isSome then 1 else 0)).put (Reg.QUEUE.STALL_B.OWN_TX n) ((own.map (State.txCh n)).getD 0)
      let s := (s.bump (Reg.QUEUE2.RX_STALL_CNT.CNT n f.head.queue)).causeErr (State.pgQUEUE n) 4
      if s.hostMode (State.pgQUEUE n) then .next (s.put (Reg.QUEUE.STALL_CTRL.HOLD n) 1)
      else .next ((s.unhold n).qReply f qSTALL)

/-- SEND_COMPLETE (R285, R287, R288, R377): the oldest completion of a channel returns to its sender; one that comes after the guard is counted late. A parity error on C-net loses it (R266). -/
def execSendComplete (ch : Carried (BitVec 16) Bool) (s : State) : Res :=
  match s.qnet.done.find? fun d => d.2.1 == ch.what.toNat with
  | none => .next s
  | some d =>
    let s := s.modQnet fun q => { q with done := q.done.erase d }
    let c := ch.what.toNat
    if ch.fate then .next s.parityLost
    else if c < 32768 then
      let n := c / 128
      let k := c % 64
      if (s.queue n).tx.any fun x => x.1 == k && x.2.1 == d.1 then .next (s.sendOver n k d.2.2)
      else if (s.queue n).lost.contains d.1 then
        .next ((s.modQueue n fun q => { q with lost := q.lost.erase d.1 }).bump (Reg.QUEUE.TX_LATE_CNT.CNT n))
      else .next s
    else if s.qnet.winTx.any fun x => x.1 == c % 64 && x.2 == d.1 then .next (s.winOver (c % 64) d.2.2)
    else .next s

/-- LOST (R288): a tile's send has had no completion within TX_GUARD; its channel is freed. -/
def execLost (ch : BitVec 16) (s : State) : Res :=
  let n := ch.toNat / 128
  let k := ch.toNat % 64
  if 32768 ≤ ch.toNat then .next s
  else
    match (s.queue n).tx.find? fun x => x.1 == k with
    | none => .next s
    | some x =>
      if s.get (Reg.QUEUE.TX_GUARD.CYC n) = 0 then .next s
      else .next ((s.modQueue n fun q => { q with lost := q.lost ++ [x.2.1] }).sendOver n k qLOST)

/-- COMB_FLUSH (R299): the write names a queue and a key; with GO the open entry is released with PARTIAL, and without one BAD_CNT counts. -/
def actCombFlush (src : Source) (n : TileId) (v : Word32) (s : State) : Res :=
  let _ := src
  let n := n.val
  if !s.pageUp (pageAt (State.pgQUEUE2 n)) then .next s
  else
    let s := (s.put (Reg.QUEUE2.COMB_FLUSH.KEY n) (bits v.toNat 21 6)).put (Reg.QUEUE2.COMB_FLUSH.Q n) (bits v.toNat 5 0)
    if !v.toNat.testBit 31 then .next s
    else
      match s.openEntry n (bits v.toNat 5 0) (bits v.toNat 21 6) with
      | none => .next (s.bump (Reg.QUEUE.BAD_CNT.CNT n))
      | some e => .next (s.release n { e with part := true })

/-- POP (R302): the head message of the queue in the head view is removed. -/
def actPop (src : Source) (n : TileId) (s : State) : Res :=
  let _ := src
  let n := n.val
  if !s.pageUp (pageAt (State.pgQUEUE2 n)) then .next s
  else
    match (s.queue n).msgs.find? fun m => m.queue == s.get (Reg.QUEUE2.HEAD_SEL.Q n) with
    | none => .next s
    | some m => .next (s.qRemove n m)

/-- STALL_DISCARD (R296): the held stalled message is discarded with STALL. -/
def actStallDiscard (src : Source) (n : TileId) (s : State) : Res :=
  let _ := src
  match (s.queue n.val).held with
  | none => .next s
  | some f =>
    if s.pageUp (pageAt (State.pgQUEUE n.val)) && s.flag (Reg.QUEUE.STALL_CTRL.HOLD n.val) then .next ((s.unhold n.val).qReply f qSTALL) else .next s

/-- RETAIN (R296): the message stays held and its timer starts again. -/
def actRetain (src : Source) (n : TileId) (s : State) : Res :=
  let _ := src
  if s.pageUp (pageAt (State.pgQUEUE n.val)) && s.flag (Reg.QUEUE.STALL_CTRL.HOLD n.val) then .next (s.put (Reg.QUEUE.STALL_CTRL.HOLD n.val) 0) else .next s

namespace State

/-- A 64-bit data word of a send window. -/
def winWord (s : State) (m i : Nat) : Word64 :=
  BitVec.ofNat 64 ((getAt 0 (16 * m + 2 * i + 1) s.qnet.win).toNat * 2 ^ 32 + (getAt 0 (16 * m + 2 * i) s.qnet.win).toNat)

/-- A 4-byte write to a window before its launch: data halves 0 to 15, 17 the high half of LAUNCH. -/
def winWrite (s : State) (m : Nat) (w : Fin 18 × Word32) : State :=
  if w.1.val < 16 then s.modQnet fun q => { q with win := setAt 0 (16 * m + w.1.val) w.2 q.win }
  else if w.1.val = 17 then s.modQnet fun q => { q with win := setAt 0 (64 + m) w.2 q.win }
  else s

end State

namespace State

/-- A launch is performed (R376, R377): words written to window m, then the low word of LAUNCH: the host's message starts, or completes at once with BAD; a busy window sends nothing. -/
def launchNow (s : State) (m : Fin 4) (before : List (Fin 18 × Word32)) (v : Word32) : State :=
  let s := before.foldl (fun s w => s.winWrite m.val w) s
  let m := m.val
  let v := v.toNat
  if s.flag (Reg.WIN.STATUS.BUSY m) then s.bump Reg.GLOBAL.HQ_BUSY_CNT.CNT
  else
    let mode := bits v 18 17
    let tmo := bits v 26 19
    let s := s.put (Reg.WIN.STATUS.DONE m) 0
    if mode = 3 ∨ (mode = 2 ∧ tmo = 0) ∨ (mode ≠ 2 ∧ tmo ≠ 0) then s.winOver m qBAD
    else
      let s := s.qLaunch (0x8000 + m) ⟨bits v 7 0, bits v 13 8, mode, tmo, low 16 (getAt 0 (64 + m) s.qnet.win).toNat, (List.range (bits v 16 14 + 1)).map (s.winWord m)⟩
      (s.modQnet fun q => { q with winTx := q.winTx ++ [(m, s.qnet.seq)] }).put (Reg.WIN.STATUS.BUSY m) 1

/-- A write of the host cannot be performed now: the function is in D3hot, or an earlier BAR2 write or a write that waits for one is outstanding (R369, R373). -/
def hostWaits (s : State) : Bool := s.pcie.d3 || s.pcie.tlps.any (·.wr) || !s.pcie.writes.isEmpty

/-- A write of the host to BAR0 or BAR4 (R369, R373): it waits behind every earlier BAR2 write, and in D3hot it is not performed. -/
def hostOrder (s : State) (i : HostWrite) (now : State → State) : State :=
  if s.pcie.d3 then { s with pcie := { s.pcie with aer := if s.pcie.aer.contains .unsupportedRequest then s.pcie.aer else s.pcie.aer ++ [.unsupportedRequest] } }
  else if s.pcie.tlps.any (·.wr) || !s.pcie.writes.isEmpty then { s with pcie := { s.pcie with writes := s.pcie.writes ++ [(s.pcie.seq, i)] } }
  else now s

end State

/-- LAUNCH (R373, R376, R377): the write of a window's LAUNCH word, behind the host's earlier BAR2 writes. -/
def execLaunch (m : Fin 4) (before : List (Fin 18 × Word32)) (v : Word32) (s : State) : Res :=
  .next (s.hostOrder (.launch m before v) fun s => s.launchNow m before v)

end Sys2Proof.Machine
end

