-- ==== Sys2Proof/Machine/Memory.lean ====
section
/-! DEFINITION. LPDDR6 channels: training, readiness, refresh, recalibration, scrubbing (R340, R341, R346 to R351). -/
namespace Sys2Proof.Machine
namespace State

/-- Training begins: the channel is out of service, TEMP reads 0, the bins are those of MEM_CFG now (R347, R349, R365). -/
def memTrain (s : State) (c : Nat) (again : Bool) : State :=
  let s := ((s.put (Reg.MEM.MEM_STAT.STATE c) 1).put (Reg.MEM.MEM_STAT.TEMP c) 0).setReady (memPg c) false
  let s := if again then s.put (Reg.MEM.TRAIN_CTRL.RETRAIN c) 1 else s
  { s with train := insert c (s.get (Reg.MEM.MEM_CFG.BIN_MAX c), s.get (Reg.MEM.MEM_CFG.BIN_MIN c), again) s.train }

/-- EN of a channel's page is cleared (R365): an UP channel goes to self-refresh, and the channel is not ready. -/
def memOff (s : State) (c : Nat) : State :=
  let st := s.get (Reg.MEM.MEM_STAT.STATE c)
  let s := ({ s with train := remove c s.train }.put (Reg.MEM.TRAIN_CTRL.RETRAIN c) 0).setReady (memPg c) false
  s.put (Reg.MEM.MEM_STAT.STATE c) (if st = 2 ∨ st = 4 then 4 else 0)

end State

/-- MEM_TRAIN_END (R349, R60): training succeeds at a bin between the two that it was started with, or fails at the slowest of them. -/
def execMemTrainEnd (c : Fin 32) (bin : Option (Fin 3)) (s : State) : Res :=
  match lookup c.val s.train with
  | none => .next s
  | some (lo, hi, again) =>
    if !s.domOn 322 then .next s
    else
      let s' := { s with train := remove c.val s.train }.put (Reg.MEM.TRAIN_CTRL.RETRAIN c.val) 0
      match bin with
      | some b =>
        if b.val < lo ∨ hi < b.val then .next s
        else .next (((s'.put (Reg.MEM.MEM_STAT.STATE c.val) 2).put (Reg.MEM.MEM_STAT.BIN c.val) b.val).setReady (memPg c.val) true)
      | none => .next (((s'.put (Reg.MEM.MEM_STAT.STATE c.val) 3).reason (memPg c.val) 0x10 (if again then 0x48 else 0xC)).causeErr (memPg c.val) 6)

/-- RETRAIN (R349): a channel that is UP trains again; its data are kept. -/
def actRetrain (src : Source) (c : Fin 32) (s : State) : Res :=
  let _ := src
  if s.pageUp (pageAt (memPg c.val)) && s.get (Reg.MEM.MEM_STAT.STATE c.val) == 2 then .next (s.memTrain c.val true) else .next s

/-- REFRESH (R347): accesses to the bank wait; nothing that software can see changes. -/
def execRefresh (c : Fin 32) (s : State) : Res :=
  let _ := c
  .next s

/-- DEVICE_REPORT (R347): an UP channel shows the device's report in TEMP. -/
def execDeviceReport (c : Fin 32) (temp : Fin 16) (s : State) : Res :=
  if s.domOn 322 && s.get (Reg.MEM.MEM_STAT.STATE c.val) == 2 then .next (s.put (Reg.MEM.MEM_STAT.TEMP c.val) temp.val) else .next s

/-- RECALIBRATION (R348): arriving requests wait while it lasts; it is one step, so RECAL reads 0 before and after it (log entry 27). -/
def execRecalibration (c : Fin 32) (s : State) : Res :=
  let _ := c
  .next s

/-- MEM_SCRUB_READ (R346): at a grid time a scrub read of a channel in service falls due; it yields to an access and waits, or the oldest one is made at the next line of the channel, what it finds handled as any read's. -/
def execMemScrubRead (c : Fin 32) (displaced : Bool) (s : State) : Res :=
  if !s.domOn 322 || !s.isReady (memPg c.val) then .next s
  else
    let r := s.scrubTake (8192 + c.val) 67108864 (s.get (Reg.MEM.SCRUB_CFG.INTERVAL c.val) != 0) displaced
    match r.1 with
    | none => .next r.2
    | some line => .next (r.2.checkEach (wordsOf (0x1000000000 + State.lpddrOfs c.val (64 * line)) 64) 0x1FF).2

end Sys2Proof.Machine
end

