-- ==== Sys2Proof/Machine/Movers.lean ====
section
/-! DEFINITION. Data movers, posts to them, and check-unit channels (R352 to R368). -/
namespace Sys2Proof.Machine

/-! Mover status codes beside those of R243 (R356). -/
def mvBAD_DESC : Nat := 0x10
def mvALIGN : Nat := 0x11
def mvCHK_FAIL : Nat := 0x12
def mvHOST_ERR : Nat := 0x13
def mvABORTED : Nat := 0x14
def mvRING_FULL : Nat := 0x15
def mvNOT_POSTABLE : Nat := 0x16

namespace State

def mover (s : State) (m : Nat) : MoverS := getAt MoverS.reset m s.movers
def modMover (s : State) (m : Nat) (f : MoverS → MoverS) : State := { s with movers := setAt MoverS.reset m (f (s.mover m)) s.movers }
def chkCh (s : State) (c : Nat) : ChkS := getAt ChkS.reset c s.chk
def modChk (s : State) (c : Nat) (f : ChkS → ChkS) : State := { s with chk := setAt ChkS.reset c (f (s.chkCh c)) s.chk }
def modJob (s : State) (m : Nat) (f : MvJob → MvJob) : State := s.modMover m fun v => { v with job := v.job.map f }
def modPkt (s : State) (m ofs : Nat) (f : MvPkt → MvPkt) : State :=
  s.modJob m fun j => { j with pkts := j.pkts.map fun p => if p.ofs = ofs then f p else p }
def dropPkt (s : State) (m ofs : Nat) : State := s.modJob m fun j => { j with pkts := j.pkts.filter fun p => p.ofs != ofs }
def mvPkt (s : State) (m ofs : Nat) : Option MvPkt := ((s.mover m).job.bind fun j => j.pkts.find? fun p => p.ofs == ofs)

def mvState (s : State) (m : Nat) : Nat := s.get (Reg.MOVER.MV_STAT2.STATE m)
def setMvState (s : State) (m v : Nat) : State := s.put (Reg.MOVER.MV_STAT2.STATE m) v
def mvSize (s : State) (m : Nat) : Nat := 2 ^ s.get (Reg.MOVER.RING_SIZE.LOG2 m)

/-- The address of a ring slot (R358). -/
def mvSlot (s : State) (m idx : Nat) : Nat := (s.get (Reg.MOVER.RING_BASE.ADDR m) + 32 * idx) % 2 ^ 48

/-- A mover's request in BULK (R353), in an address space: LOCAL, REMOTE with the module in address bits 59 to 48, HOST by way of EP 177 (R380). -/
def mvRequest (s : State) (m op tag sp a size : Nat) (data : List Byte) : State :=
  s.request { op := Fin.ofNat 10 op, src := Fin.ofNat 384 (epMover m), smod := BitVec.ofNat 12 s.modId, tag := BitVec.ofNat 12 tag, cls := 5, epoch := false,
              dmod := BitVec.ofNat 12 (if sp = 1 then bits a 59 48 else s.modId), addr := BitVec.ofNat 48 a, size := size, data := data, mcast := none,
              host := if sp = 2 then some (BitVec.ofNat 64 a) else none }

/-- An idle mover takes up the descriptor at TAIL (R358): it fetches it, or takes its own copy of a posted one, which is in the ring by then (R359); DESC_FETCH then starts it. -/
def mvKick (s : State) (m : Nat) : State :=
  let v := s.mover m
  let tail := s.get (Reg.MOVER.RING_TAIL.IDX m)
  if s.mvState m ≠ 0 ∨ !s.isEnabled (moverPg m) ∨ !s.pageUp (pageAt (moverPg m)) ∨ v.job.isSome ∨ v.fetch.isSome ∨ v.fetched.isSome ∨ v.fin.isSome
      ∨ v.rings.any (·.2 == tail) ∨ s.get (Reg.MOVER.RING_HEAD.IDX m) % s.mvSize m = tail then s
  else
    let s := s.setMvState m 1
    match lookup tail v.copies with
    | some c => s.modMover m fun v => { v with fetched := some (stOK, c.1) }
    | none =>
      let tag := s.freeTag (epMover m)
      (s.modMover m fun v => { v with fetch := some tag }).mvRequest m 0 tag 0 (s.mvSlot m tail) 32 []

/-- The status word of a descriptor (R357). -/
def mvWord (code retries : Nat) : Nat := 2 ^ 31 + min retries 255 * 65536 + code

/-- A descriptor has completed and its STATUS has been written, or could not be (R357): LAST_STATUS, TAIL and the counters follow, then the done flag, DESC_DONE and ERROR; a poster gets the word (R360), and the mover goes on. -/
def mvClose (s : State) (m st : Nat) : State :=
  match (s.mover m).fin with
  | none => s
  | some f =>
    let s := if st = stOK then s else s.bump (Reg.MOVER.WB_FAIL_CNT.CNT m)
    let s := if st = stBUSY then s.bump (Reg.MOVER.BUSY_CNT.CNT m) else s
    let s := (s.put (Reg.MOVER.LAST_STATUS.VALUE m) f.word).put (Reg.MOVER.RING_TAIL.IDX m) ((f.idx + 1) % s.mvSize m)
    let s := s.bump (Reg.MOVER.DESC_CNT.CNT m)
    let s := if f.doneF then s.put (Reg.MOVER.MV_STAT.DONE_FLAG m) 1 else s
    let s := if f.irq then s.cause (moverPg m) 4 else s
    let s := if f.code = 0 then s else
      let s := s.put (Reg.MOVER.ERR_DESC.VALUE m) (f.code * 65536 + f.idx)
      let s := match f.ofs with | some o => s.put (Reg.MOVER.ERR_OFS.VALUE m) o | none => s
      s.causeErr (moverPg m) 5
    let s := s.modMover m fun v => { v with fin := none }
    let s := s.setMvState m (if f.abort || (f.code != 0 && s.flag (Reg.MOVER.MV_CFG.ERR_STOP m)) then 4 else 0)
    let s := match f.post with | some (t, k) => s.postReply t (some k) f.word | none => s
    s.mvKick m

/-- A descriptor ends (R357): the write of its status word to its slot is sent. -/
def mvFinish (s : State) (m idx code retries : Nat) (ofs : Option Nat) (doneF irq abort : Bool) (post : Option (Nat × Nat)) : State :=
  let tag := s.freeTag (epMover m)
  let w := mvWord code retries
  ((s.modMover m fun v => { v with job := none, abortF := false, fin := some ⟨tag, idx, w, code, ofs, doneF, irq, abort, post⟩ }).put (Reg.MOVER.MV_STAT.OUTSTANDING m) 0).mvRequest
    m 1 tag 0 (s.mvSlot m idx + 28) 4 (toBytes 4 w)

/-! Check channels. -/

/-- A channel is free to be taken. -/
def chkFree (s : State) (c : Nat) : Bool := (s.chkCh c).holder.isNone && (s.chkCh c).scan.isNone

/-- A job starts on a channel (R362). -/
def chkBegin (s : State) (c poly : Nat) (cont : Bool) : State :=
  let s := s.put (Reg.CHECK.SCAN_STAT.HELD c) 1
  if cont then s else s.put (Reg.CHECK.CHK_RUN.VALUE c) (crcInit poly)

/-- Bytes pass through a channel. -/
def chkFeed (s : State) (c poly : Nat) (bs : List Byte) : State := s.put (Reg.CHECK.CHK_RUN.VALUE c) (crcFeed poly (s.get (Reg.CHECK.CHK_RUN.VALUE c)) bs)

/-- The result word of a job (R362). -/
def chkResult (s : State) (c poly : Nat) : State := s.put (Reg.CHECK.CHK_RESULT.VALUE c) (crcFinal poly (s.get (Reg.CHECK.CHK_RUN.VALUE c)))

/-- A compare of CHECK (R363). -/
def chkMatch (s : State) (c : Nat) (ok : Bool) : State :=
  if ok then s.put (Reg.CHECK.SCAN_STAT.MATCH c) 1
  else (((s.put (Reg.CHECK.SCAN_STAT.MATCH c) 0).put (Reg.CHECK.SCAN_STAT.MISMATCH c) 1).bump (Reg.CHECK.CHK_FAIL_CNT.CNT c)).cause (checkPg c) 5

/-- A job or a descriptor ends on a channel. -/
def chkEnd (s : State) (c : Nat) : State :=
  (((s.put (Reg.CHECK.SCAN_STAT.HELD c) 0).put (Reg.CHECK.SCAN_STAT.DONE c) 1).bump (Reg.CHECK.CHK_JOBS.CNT c)).cause (checkPg c) 4

/-! A descriptor's packets. -/

/-- The job of mover m ends with a code; its channel is released. -/
def mvEnd (s : State) (m code : Nat) (ofs : Option Nat) : State :=
  match (s.mover m).job with
  | none => s
  | some j =>
    let s := match j.chk with
      | some c => if (s.chkCh c).holder = some m then (s.modChk c fun x => { x with holder := none }).chkEnd c else s.modChk c fun x => { x with wait := x.wait.filter (· != m) }
      | none => s
    s.mvFinish m j.idx code j.retries ofs j.doneF j.irq j.abort j.post

/-- The read of a packet is sent (R353). -/
def mvRead (s : State) (m ofs : Nat) : State :=
  match (s.mover m).job, s.mvPkt m ofs with
  | some j, some p =>
    let tag := s.freeTag (epMover m)
    (s.modPkt m ofs fun p => { p with stage := 0, wr := false, tag := tag, ack := none }).mvRequest m 0 tag j.ssp (j.src + ofs) p.size []
  | _, _ => s

/-- The write of a packet is sent (R353). A broadcast goes to the ports once, and is written on this module as any packet is (R354; log entry 27). -/
def mvWrite (s : State) (m ofs : Nat) : State :=
  match (s.mover m).job, s.mvPkt m ofs with
  | some j, some p =>
    let tag := s.freeTag (epMover m)
    let s := if j.bcast && !p.cast then s.bcastOut 8 0 (epMover m) tag (low 48 (j.dst + ofs)) p.data else s
    (s.modPkt m ofs fun p => { p with stage := 0, wr := true, tag := tag, ack := none, cast := j.bcast }).mvRequest m 1 tag j.dsp (j.dst + ofs) p.size p.data
  | _, _ => s

/-- A packet's broadcast is still on its way to a port: it waits to be sent, or in the cuff (R354). -/
def mvCasting (s : State) (m tag : Nat) : Bool :=
  let mine (i : LinkItem) : Bool := i.kind == .bcast && i.hdr.smod == s.modId && i.hdr.ep == epMover m && i.hdr.tag == tag
  (List.range 8).any (fun p => (s.port p).queue.any mine) || s.net.cuff.any fun c => match c.2.2 with | .link _ i => mine i | _ => false

/-- The next packet of the descriptor (R353): at most 16 are outstanding, none crosses a 4 KiB boundary of either range, and none is sent while one is held. -/
def mvSend (s : State) (m : Nat) : State :=
  match (s.mover m).job with
  | none => s
  | some j =>
    if j.stop || decide (16 ≤ j.pkts.length) || decide (j.len ≤ j.next) || j.pkts.any (fun p => p.stage == 3) then s
    else
      let n := min (j.len - j.next) (min (4096 - (j.src + j.next) % 4096) (4096 - (j.dst + j.next) % 4096))
      (s.modJob m fun j => { j with next := j.next + n, pkts := j.pkts ++ [⟨j.next, n, 0, false, 0, [], false, false, 0, none, false⟩] }).mvRead m j.next

/-- Data are fed to the channel in ascending order (R363). -/
def mvFeed (s : State) (m : Nat) : State :=
  (List.range 17).foldl (fun s _ =>
    match (s.mover m).job with
    | none => s
    | some j =>
      match j.chk, j.pkts.find? fun p => p.ofs == j.fed && p.got && decide (p.ofs < j.len) with
      | some c, some p => ((s.chkFeed c j.poly p.data).modPkt m p.ofs fun p => { p with fed := true }).modJob m fun j => { j with fed := j.fed + p.size }
      | _, _ => s) s

/-- What follows when nothing more can be sent: a hold, the trailer, or the end (R353, R356, R363). -/
def mvSettle (s : State) (m : Nat) : State :=
  let s := s.modJob m fun j => { j with pkts := j.pkts.filter fun p => !(p.stage == 1 && (p.fed || j.chk.isNone || j.stop)) && !(j.stop && (p.stage == 2 || p.stage == 3)) }
  match (s.mover m).job with
  | none => s
  | some j =>
    let s := s.put (Reg.MOVER.MV_STAT.OUTSTANDING m) j.pkts.length
    match j.pkts with
    | [] =>
      if j.abort then s.mvEnd m mvABORTED none
      else if j.stop then s.mvEnd m (j.fail.map (·.1) |>.getD 0) (j.fail.map (·.2))
      else if j.next < j.len then s
      else
        match j.chk with
        | none => s.mvEnd m stOK none
        | some c =>
          if j.trail then s.mvEnd m stOK none
          else
            let s := s.chkResult c j.poly
            if j.op = 0 then s.mvEnd m stOK none
            else
              let t : MvPkt := ⟨j.len, 8, 0, false, 0, toBytes 8 (s.get (Reg.CHECK.CHK_RESULT.VALUE c)), false, false, 0, none, false⟩
              let s := (s.modJob m fun j => { j with trail := true, pkts := [t] }).put (Reg.MOVER.MV_STAT.OUTSTANDING m) 1
              if j.op = 1 then s.mvWrite m j.len else s.mvRead m j.len
    | ps =>
      if ps.any (·.stage == 3) && ps.all (fun p => p.stage == 3 || p.stage == 1) && s.mvState m != 3 then
        let o := ((ps.find? fun p => p.stage == 3).map (·.ofs)).getD 0
        ((s.put (Reg.MOVER.ERR_OFS.VALUE m) o).setMvState m 3).cause (moverPg m) 6
      else s

/-- Send what can be sent, then settle. -/
def mvPump (s : State) (m : Nat) : State := ((List.range 16).foldl (fun s _ => s.mvSend m) s).mvSettle m

/-- A packet fails: the first failure gives the descriptor's status, and no more packets are sent (R356). -/
def mvFail (s : State) (m ofs code : Nat) : State :=
  (s.dropPkt m ofs).modJob m fun j => { j with stop := true, fail := if j.fail.isNone then some (code, ofs) else j.fail }

/-- A BUSY response (R356). -/
def mvBusy (s : State) (m : Nat) (p : MvPkt) : State :=
  let s := s.bump (Reg.MOVER.BUSY_CNT.CNT m)
  if ((s.mover m).job.map (·.stop)).getD false then s.dropPkt m p.ofs
  else if s.hostMode (moverPg m) then s.modPkt m p.ofs fun p => { p with stage := 3, ack := none }
  else if s.get (Reg.MOVER.MV_CFG.RETRY_MAX m) ≤ p.tries then s.mvFail m p.ofs stBUSY
  else s.modPkt m p.ofs fun p => { p with stage := 2, ack := none }

/-- A packet's request is sent again. -/
def mvResend (s : State) (m ofs : Nat) : State :=
  let s := (s.modPkt m ofs fun p => { p with tries := p.tries + 1 }).modJob m fun j => { j with retries := j.retries + 1 }
  match s.mvPkt m ofs with
  | some p => if p.wr then s.mvWrite m ofs else s.mvRead m ofs
  | none => s

/-- The data of a packet's read have arrived: its write is sent, unless no more packets are to be sent; the trailer of CHECK awaits its compare. -/
def mvData (s : State) (m ofs st : Nat) (data : List Byte) : State :=
  match (s.mover m).job with
  | none => s
  | some j =>
    if st ≠ stOK then s.modPkt m ofs fun p => { p with ack := some st }
    else if ofs = j.len then s.modPkt m ofs fun p => { p with data := data, ack := some stOK }
    else if j.stop then (s.dropPkt m ofs).mvSettle m
    else (s.modPkt m ofs fun p => { p with data := data, got := true }).mvWrite m ofs

/-- A completion for the tag of a mover endpoint, where it has an owner: a fetch, a STATUS write, the ring write of a post, a packet's read or its write (R353, R357 to R359). -/
def mvResponse (s : State) (ep tag st : Nat) (data : List Byte) : Option State :=
  (List.range 32).findSome? fun m =>
    let v := s.mover m
    if epMover m != ep then none
    else if v.fetch == some tag then some (s.modMover m fun v => { v with fetch := none, fetched := some (st, data) })
    else if v.fin.any (·.tag == tag) then some (s.mvClose m st)
    else if v.rings.any (·.1 == tag) then
      some (((if st = stBUSY then s.bump (Reg.MOVER.BUSY_CNT.CNT m) else s).modMover m fun v => { v with rings := v.rings.filter (·.1 != tag) }).mvKick m)
    else
      ((v.job.map (·.pkts)).getD []).find? (fun p => p.stage == 0 && p.tag == tag && p.ack.isNone) |>.map fun p =>
        if p.wr then s.modPkt m p.ofs fun p => { p with ack := some st } else s.mvData m p.ofs st data

/-- A descriptor starts: it holds its channel, and its packets go. -/
def mvStart (s : State) (m : Nat) : State :=
  match (s.mover m).job with
  | none => s
  | some j =>
    let s := s.setMvState m 1
    match j.chk with
    | none => s.mvPump m
    | some c =>
      let poly := s.get (Reg.CHECK.CHK_CFG.POLY c)
      (((s.modChk c fun x => { x with holder := some m, wait := x.wait.filter (· != m) }).modJob m fun j => { j with poly := poly }).chkBegin c poly j.cont).mvPump m

/-- ABORT, EN cleared, or block reset (R365): no more packets are sent, and those outstanding complete; the mover then stops. -/
def mvAbort (s : State) (m : Nat) : State :=
  let v := s.mover m
  match v.job with
  | some j =>
    let s := s.modJob m fun j => { j with abort := true, stop := true }
    let waiting := match j.chk with | some c => (s.chkCh c).holder != some m | none => false
    if waiting then s.mvEnd m mvABORTED none else s.mvSettle m
  | none =>
    if v.fetch.isSome || v.fetched.isSome then s.modMover m fun v => { v with abortF := true }
    else if v.fin.isSome then s.modMover m fun v => { v with fin := v.fin.map fun f => { f with abort := true } }
    else s.setMvState m 4

/-- The status of a descriptor that fails its checks (R352); OK where it passes. -/
def mvCheck (s : State) (src dst lenW ctrl : Nat) : Nat :=
  let len := bits lenW 25 0
  let ssp := bits ctrl 1 0
  let dsp := bits ctrl 3 2
  let op := bits ctrl 12 11
  let chk := ctrl.testBit 7
  let badHigh (sp a : Nat) : Bool := (sp == 0 && bits a 63 48 != 0) || (sp == 1 && bits a 63 60 != 0)
  let c := bits ctrl 10 8
  let shared : Bool := match region dst with | .slice .. => true | .lpddr _ => true | _ => false
  if bits lenW 31 26 ≠ 0 ∨ bits ctrl 31 14 ≠ 0 ∨ ssp = 3 ∨ dsp = 3 ∨ op = 3 ∨ len = 0 ∨ (ssp = 2 ∧ dsp = 2) ∨ badHigh ssp src ∨ badHigh dsp dst then mvBAD_DESC
  else if ctrl.testBit 4 ∧ !(ssp == 0 && dsp == 0 && shared) then mvBAD_DESC
  else if chk ∧ !(s.isEnabled (checkPg c) && s.get (Reg.CHECK.CHK_CFG.BIND c) == 1) then mvBAD_DESC
  else if src % 8 ≠ 0 ∨ dst % 8 ≠ 0 ∨ len % 8 ≠ 0 then mvALIGN
  else if (ssp = 0 ∧ !populated src (len + if chk && op == 2 then 8 else 0)) ∨ (dsp = 0 ∧ !populated dst (len + if chk && op == 1 then 8 else 0)) then stUNMAPPED
  else stOK

/-- A write of RING_HEAD (R358): refused with BUSY while only posts add descriptors; stored modulo the ring size. -/
def ringHead (s : State) (m v : Nat) : State :=
  if !s.pageUp (pageAt (moverPg m)) then s
  else if s.flag (Reg.MOVER.MV_CFG.POST m) then s.refuse (moverPg m) rcBusy 0x54
  else (s.put (Reg.MOVER.RING_HEAD.IDX m) (low 16 v % s.mvSize m)).mvKick m

end State

/-! Commands. -/

/-- MOVE (R359, R81): the descriptor in s[RS] to s[RS + 3] is posted to a mover; RD is tracked until it completes. -/
def execMove (n : TileId) (m : Fin 32) (rs rd : Reg) (s : State) : Res :=
  s.slot n fun s =>
    if rs.val > 28 ∨ (rd.val ≠ 0 ∧ rs.val ≤ rd.val ∧ rd.val ≤ rs.val + 3) then s.illegalOp n.val
    else
      let r := (List.range 4).foldl (fun (acc : List Byte × State) i => let x := acc.2.readS n.val (rs.val + i); (acc.1 ++ toBytes 8 x.1, x.2)) ([], s)
      let s := r.2
      let tag := s.freeTag (epTile n.val)
      let k := ((List.range 64).find? fun k => !(s.tile n.val).tracked.any fun t => t.tag == 8192 + k).getD 0
      let s := if rd.val = 0 then s else
        s.track n.val { vector := false, reg := some rd.val, since := s.issue.period, index := s.laneIndex n.val, ready := none, tag := 8192 + k, status := 0, res := [], src := none }
      { s with posts := s.posts ++ [⟨m.val, n.val, tag, if rd.val = 0 then none else some k, r.1⟩] }

/-- POST (R358 to R360): the oldest post to a mover arrives: it is written into the ring, or refused. -/
def execPost (m : Fin 32) (s : State) : Res :=
  match s.posts.find? fun p => p.mover == m.val with
  | none => .next s
  | some p =>
    let m := m.val
    .next (s.cross (tileHalf p.tile) (m / 16) 6 (.post m p.tile p.tag) fun s =>
      let s := { s with posts := s.posts.erase p }
      let head := s.get (Reg.MOVER.RING_HEAD.IDX m) % s.mvSize m
      if !s.domOn (320 + m / 16) then (s.epDown (epMover m)).postReply p.tile p.key (2 ^ 31 + stDOMAIN_OFF)
      else if !s.isEnabled (moverPg m) || s.flag (Reg.HDR.BLK_CTRL.SRST (moverPg m)) || !s.flag (Reg.MOVER.MV_CFG.POST m) then s.postReply p.tile p.key (2 ^ 31 + mvNOT_POSTABLE)
      else if (head + 1) % s.mvSize m = s.get (Reg.MOVER.RING_TAIL.IDX m) then
        ((s.bump (Reg.MOVER.POST_DROP_CNT.CNT m)).cause (moverPg m) 7).postReply p.tile p.key (2 ^ 31 + mvRING_FULL)
      else
        let tag := s.freeTag (epMover m)
        let s := s.modMover m fun v => { v with copies := insert head (p.desc, p.key.map fun k => (p.tile, k)) v.copies, rings := v.rings ++ [(tag, head)] }
        ((s.put (Reg.MOVER.RING_HEAD.IDX m) ((head + 1) % s.mvSize m)).mvRequest m 1 tag 0 (s.mvSlot m head) 32 p.desc).mvKick m)

/-- RING_HEAD (R358). -/
def actRingHead (src : Source) (m : Fin 32) (v : Word32) (s : State) : Res :=
  let _ := src
  .next (s.ringHead m.val v.toNat)

/-- DESC_FETCH (R352, R358, R363): the descriptor at TAIL is there: a failed fetch ends it; else it is checked, and starts or waits for its channel. -/
def execDescFetch (m : Fin 32) (s : State) : Res :=
  let m := m.val
  let v := s.mover m
  match v.fetched with
  | none => .next s
  | some (st, bs) =>
    let idx := s.get (Reg.MOVER.RING_TAIL.IDX m)
    let post := (lookup idx v.copies).bind (·.2)
    let s := s.modMover m fun v => { v with fetched := none, copies := remove idx v.copies }
    let src := elem 8 0 bs
    let dst := elem 8 1 bs
    let ctrl := elem 4 5 bs
    let doneF := ctrl.testBit 5
    let irq := ctrl.testBit 6
    if v.abortF then .next (s.mvFinish m idx mvABORTED 0 none (st = stOK && doneF) (st = stOK && irq) true post)
    else if st ≠ stOK then .next ((if st = stBUSY then s.bump (Reg.MOVER.BUSY_CNT.CNT m) else s).mvFinish m idx st 0 (some 0) false false false post)
    else
      let code := s.mvCheck src dst (elem 4 4 bs) ctrl
      if code ≠ stOK then .next (s.mvFinish m idx code 0 none doneF irq false post)
      else
        let c := if ctrl.testBit 7 then some (bits ctrl 10 8) else none
        let j : MvJob := { idx := idx, ssp := bits ctrl 1 0, src := src, dsp := bits ctrl 3 2, dst := dst, len := bits (elem 4 4 bs) 25 0, bcast := ctrl.testBit 4, doneF := doneF, irq := irq,
                           chk := c, op := bits ctrl 12 11, cont := ctrl.testBit 13, poly := 0, post := post, next := 0, pkts := [], retries := 0, fail := none, stop := false, abort := false,
                           trail := false, fed := 0 }
        let s := s.modMover m fun v => { v with job := some j }
        match c with
        | none => .next (s.mvStart m)
        | some c =>
          if s.chkFree c && (s.chkCh c).wait.isEmpty then .next (s.mvStart m)
          else .next ((s.modChk c fun x => { x with wait := x.wait ++ [m] }).setMvState m 2)

/-- CHECK_CHANNEL_GRANT (R363): a free channel is taken by the descriptor that has waited longest. -/
def execCheckChannelGrant (c : Fin 8) (s : State) : Res :=
  match (s.chkCh c.val).wait with
  | [] => .next s
  | m :: _ => if s.chkFree c.val then .next (s.mvStart m) else .next s

/-- MOVER_PACKET_DONE (R353 to R357, R363): a completion of a packet takes effect: its write is done and its data are fed to the channel, or it met BUSY, or it fails; the descriptor goes on or ends. -/
def execMoverPacketDone (m : Fin 32) (ofs : BitVec 27) (s : State) : Res :=
  let m := m.val
  let o := ofs.toNat
  match (s.mover m).job, s.mvPkt m o with
  | some j, some p =>
    match p.ack with
    | none => .next s
    | some st =>
      if p.cast && s.mvCasting m p.tag then .next s
      else if st = stBUSY then .next ((s.mvBusy m p).mvPump m)
      else if st ≠ stOK then .next ((s.mvFail m o st).mvPump m)
      else if o = j.len then
        -- The trailer: written, or compared.
        match j.chk with
        | some c =>
          if j.op = 2 then
            let ok := decide (ofBytes p.data = s.get (Reg.CHECK.CHK_RESULT.VALUE c))
            let s := (s.dropPkt m o).chkMatch c ok
            if j.abort then .next (s.mvSettle m)
            else .next (s.mvEnd m (if ok then stOK else mvCHK_FAIL) none)
          else .next ((s.dropPkt m o).mvSettle m)
        | none => .next ((s.dropPkt m o).mvSettle m)
      else
        let s := (s.modPkt m o fun p => { p with stage := 1, ack := none }).add (Reg.MOVER.MV_BYTES.CNT m) p.size
        .next ((s.mvFeed m).mvSettle m |>.mvPump m)
  | _, _ => .next s

/-- MOVER_RETRY (R356): a packet that met BUSY is sent again. -/
def execMoverRetry (m : Fin 32) (ofs : BitVec 27) (s : State) : Res :=
  match s.mvPkt m.val ofs.toNat with
  | some p => if p.stage = 2 then .next (s.mvResend m.val ofs.toNat) else .next s
  | none => .next s

/-- MV_RESUME (R356): the mover leaves STOPPED; no effect in other states. -/
def actMvResume (src : Source) (m : Fin 32) (s : State) : Res :=
  let _ := src
  if s.pageUp (pageAt (moverPg m.val)) && s.mvState m.val == 4 then .next ((s.setMvState m.val 0).mvKick m.val) else .next s

/-- MV_ABORT (R365). -/
def actMvAbort (src : Source) (m : Fin 32) (s : State) : Res :=
  let _ := src
  if s.pageUp (pageAt (moverPg m.val)) then .next (s.mvAbort m.val) else .next s

namespace State

/-- The held packet that ERR_OFS names, of a mover in HOLD. -/
def mvHeld (s : State) (m : Nat) : Option MvPkt :=
  if s.mvState m = 3 then ((s.mover m).job.bind fun j => j.pkts.find? fun p => p.stage == 3) else none

end State

/-- RETRY (R356): the held packet is sent again and the descriptor continues. -/
def actRetry (src : Source) (m : Fin 32) (s : State) : Res :=
  let _ := src
  match s.mvHeld m.val with
  | some p => if s.pageUp (pageAt (moverPg m.val)) then .next (((s.setMvState m.val 1).mvResend m.val p.ofs).mvPump m.val) else .next s
  | none => .next s

/-- SKIP (R356): the held packet ends with BUSY. -/
def actSkip (src : Source) (m : Fin 32) (s : State) : Res :=
  let _ := src
  match s.mvHeld m.val with
  | some p => if s.pageUp (pageAt (moverPg m.val)) then .next (((s.setMvState m.val 1).mvFail m.val p.ofs stBUSY).mvSettle m.val) else .next s
  | none => .next s

end Sys2Proof.Machine
end

