-- ==== Sys2Proof/Machine/Scalar.lean ====
section
/-! DEFINITION. The scalar core (R121 to R123): one operation of SSLOT each, with its latency. -/
namespace Sys2Proof.Machine
namespace State

/-- A register-register operation (format R). -/
def aluR (s : State) (n lat rd rs1 rs2 : Nat) (f : Nat → Nat → Nat) : State :=
  let a := s.readS n rs1
  let b := a.2.readS n rs2
  b.2.laterS n lat rd (low 64 (f a.1 b.1))

/-- A register-immediate operation (format I). -/
def aluI (s : State) (n rd rs1 : Nat) (f : Nat → Nat) : State :=
  let a := s.readS n rs1
  a.2.laterS n 1 rd (low 64 (f a.1))

/-- Sign extension of IMM15 to 64 bits. -/
def sext15 (imm : BitVec 15) : Nat := (imm.signExtend 64).toNat

/-- The address of a scalar load or store: RS1 plus the sign-extended IMM15. -/
def scalarAddr (base : Nat) (imm : BitVec 15) : Nat := low 64 (base + sext15 imm)

/-- A scalar access is naturally aligned and inside the own store (R122). -/
def scalarOk (a len : Nat) : Bool := decide (a % len = 0) && ownOk a len

/-- How a load's bytes enter its register: 0 LD, 1 LW sign-extended, 2 LWU. -/
def loadValue (form v : Nat) : Nat := if form = 1 then unsigned 64 (signed 32 v) else v

/-- A scalar load (R122, R88): tracked, 3 cycles. -/
def opLoad (s : State) (n rd rs1 : Nat) (imm : BitVec 15) (len form : Nat) : State :=
  let a := s.readS n rs1
  let ad := scalarAddr a.1 imm
  if !scalarOk ad len then a.2.trackOwn n 3 false (some rd) stUNMAPPED [.sreg rd 0] none
  else
    let r := a.2.portARead uSCALAR n ad len
    r.2.2.trackOwn n 3 false (some rd) r.1 [.sreg rd (BitVec.ofNat 64 (loadValue form (ofBytes r.2.1)))] (some (ad, len, form))

/-- A store discarded for its address sets ERR of the tile's lane (R122; log entry 14). -/
def discardStore (s : State) (n : Nat) : State := s.setErr (lanePg n)

/-- A scalar store (R122). -/
def opStore (s : State) (n rd rs1 : Nat) (imm : BitVec 15) (len : Nat) : State :=
  let a := s.readS n rs1
  let d := a.2.readS n rd
  let ad := scalarAddr a.1 imm
  if !scalarOk ad len then d.2.discardStore n else d.2.portAWrite uSCALAR n ad (toBytes len d.1)

/-- ATOM (R112, R122): address RS1, operand RS2, the previous value to RD; tracked, 4 cycles. -/
def opAtom (s : State) (n sub rd rs1 rs2 : Nat) : State :=
  let a := s.readS n rs1
  let x := a.2.readS n rs2
  if !scalarOk a.1 (atomSize sub) then x.2.trackOwn n 4 false (some rd) stUNMAPPED [.sreg rd 0] none
  else
    let r := x.2.lineAtomic uSCALAR sub (own n a.1) x.1
    r.2.2.trackOwn n 4 false (some rd) r.1 [.sreg rd (BitVec.ofNat 64 (if r.1 = stOK then r.2.1 else 0))] none

/-- MFV (R121): a 32-bit lane or a 16-bit element of a vector register. -/
def opMfv (s : State) (n rd vs : Nat) (half : Bool) (idx : Nat) : State :=
  let v := s.readV n vs
  let x := if half then (let l := v.1.getD (idx / 2) 0; if idx % 2 = 0 then low 16 l else l / 65536) else v.1.getD idx 0
  v.2.laterS n 3 rd x

/-- RDCSR (R121, R123): 0 logical tile number, 1 launch count, 2 CCLK cycles since the domain came ON. -/
def opRdcsr (s : State) (n rd csr : Nat) : State :=
  let v := if csr = 0 then n else if csr = 1 then s.get (Reg.LANE.LANE_CNT.CNT n)
    else (if n < 128 then s.cclkW else s.cclkE) - (s.tile n).cclk0
  s.laterS n 1 rd (low 64 v)

def opAdd (s : State) (n rd a b : Nat) : State := s.aluR n 1 rd a b (· + ·)
def opSub (s : State) (n rd a b : Nat) : State := s.aluR n 1 rd a b (fun x y => x + 2 ^ 64 - y)
def opAnd (s : State) (n rd a b : Nat) : State := s.aluR n 1 rd a b (· &&& ·)
def opOr (s : State) (n rd a b : Nat) : State := s.aluR n 1 rd a b (· ||| ·)
def opXor (s : State) (n rd a b : Nat) : State := s.aluR n 1 rd a b (· ^^^ ·)
def opSll (s : State) (n rd a b : Nat) : State := s.aluR n 1 rd a b (fun x y => x <<< (y % 64))
def opSrl (s : State) (n rd a b : Nat) : State := s.aluR n 1 rd a b (fun x y => x >>> (y % 64))
def opSra (s : State) (n rd a b : Nat) : State := s.aluR n 1 rd a b (fun x y => unsigned 64 (signed 64 x / 2 ^ (y % 64)))
def opSlt (s : State) (n rd a b : Nat) : State := s.aluR n 1 rd a b (fun x y => if signed 64 x < signed 64 y then 1 else 0)
def opSltu (s : State) (n rd a b : Nat) : State := s.aluR n 1 rd a b (fun x y => if x < y then 1 else 0)
def opMul (s : State) (n rd a b : Nat) : State := s.aluR n 3 rd a b (· * ·)
def opMulh (s : State) (n rd a b : Nat) : State := s.aluR n 3 rd a b (fun x y => unsigned 64 (signed 64 x * signed 64 y / 2 ^ 64))

/-- SELNZ (R121): RD = RS1 when RS2 is not zero, else RD is unchanged. -/
def opSelnz (s : State) (n rd rs1 rs2 : Nat) : State :=
  let a := s.readS n rs1
  let b := a.2.readS n rs2
  if b.1 ≠ 0 then b.2.laterS n 1 rd a.1 else b.2

def opAddi (s : State) (n rd a : Nat) (imm : BitVec 15) : State := s.aluI n rd a (· + sext15 imm)
def opAndi (s : State) (n rd a : Nat) (imm : BitVec 15) : State := s.aluI n rd a (· &&& sext15 imm)
def opOri (s : State) (n rd a : Nat) (imm : BitVec 15) : State := s.aluI n rd a (· ||| sext15 imm)
def opXori (s : State) (n rd a : Nat) (imm : BitVec 15) : State := s.aluI n rd a (· ^^^ sext15 imm)
def opSlli (s : State) (n rd a sh : Nat) : State := s.aluI n rd a (· <<< sh)
def opSrli (s : State) (n rd a sh : Nat) : State := s.aluI n rd a (· >>> sh)
def opSrai (s : State) (n rd a sh : Nat) : State := s.aluI n rd a (fun x => unsigned 64 (signed 64 x / 2 ^ sh))
def opShori (s : State) (n rd a : Nat) (imm : BitVec 15) : State := s.aluI n rd a (fun x => (x <<< 15) ||| imm.toNat)

end State

/-! The commands. -/

/-- ADD (R121). -/
def execAdd (n : TileId) (rd rs1 rs2 : Reg) (s : State) : Res := s.slot n (·.opAdd n.val rd.val rs1.val rs2.val)
/-- SUB (R121). -/
def execSub (n : TileId) (rd rs1 rs2 : Reg) (s : State) : Res := s.slot n (·.opSub n.val rd.val rs1.val rs2.val)
/-- AND (R121). -/
def execAnd (n : TileId) (rd rs1 rs2 : Reg) (s : State) : Res := s.slot n (·.opAnd n.val rd.val rs1.val rs2.val)
/-- OR (R121). -/
def execOr (n : TileId) (rd rs1 rs2 : Reg) (s : State) : Res := s.slot n (·.opOr n.val rd.val rs1.val rs2.val)
/-- XOR (R121). -/
def execXor (n : TileId) (rd rs1 rs2 : Reg) (s : State) : Res := s.slot n (·.opXor n.val rd.val rs1.val rs2.val)
/-- SLL (R121): shifts by RS2[5:0]. -/
def execSll (n : TileId) (rd rs1 rs2 : Reg) (s : State) : Res := s.slot n (·.opSll n.val rd.val rs1.val rs2.val)
/-- SRL (R121). -/
def execSrl (n : TileId) (rd rs1 rs2 : Reg) (s : State) : Res := s.slot n (·.opSrl n.val rd.val rs1.val rs2.val)
/-- SRA (R121). -/
def execSra (n : TileId) (rd rs1 rs2 : Reg) (s : State) : Res := s.slot n (·.opSra n.val rd.val rs1.val rs2.val)
/-- SLT (R121). -/
def execSlt (n : TileId) (rd rs1 rs2 : Reg) (s : State) : Res := s.slot n (·.opSlt n.val rd.val rs1.val rs2.val)
/-- SLTU (R121). -/
def execSltu (n : TileId) (rd rs1 rs2 : Reg) (s : State) : Res := s.slot n (·.opSltu n.val rd.val rs1.val rs2.val)
/-- MUL (R121). -/
def execMul (n : TileId) (rd rs1 rs2 : Reg) (s : State) : Res := s.slot n (·.opMul n.val rd.val rs1.val rs2.val)
/-- MULH (R121). -/
def execMulh (n : TileId) (rd rs1 rs2 : Reg) (s : State) : Res := s.slot n (·.opMulh n.val rd.val rs1.val rs2.val)
/-- SELNZ (R121). -/
def execSelnz (n : TileId) (rd rs1 rs2 : Reg) (s : State) : Res := s.slot n (·.opSelnz n.val rd.val rs1.val rs2.val)
/-- ADDI (R121). -/
def execAddi (n : TileId) (rd rs1 : Reg) (imm : BitVec 15) (s : State) : Res := s.slot n (·.opAddi n.val rd.val rs1.val imm)
/-- ANDI (R121). -/
def execAndi (n : TileId) (rd rs1 : Reg) (imm : BitVec 15) (s : State) : Res := s.slot n (·.opAndi n.val rd.val rs1.val imm)
/-- ORI (R121). -/
def execOri (n : TileId) (rd rs1 : Reg) (imm : BitVec 15) (s : State) : Res := s.slot n (·.opOri n.val rd.val rs1.val imm)
/-- XORI (R121). -/
def execXori (n : TileId) (rd rs1 : Reg) (imm : BitVec 15) (s : State) : Res := s.slot n (·.opXori n.val rd.val rs1.val imm)
/-- SLLI (R121). -/
def execSlli (n : TileId) (rd rs1 : Reg) (sh : BitVec 6) (s : State) : Res := s.slot n (·.opSlli n.val rd.val rs1.val sh.toNat)
/-- SRLI (R121). -/
def execSrli (n : TileId) (rd rs1 : Reg) (sh : BitVec 6) (s : State) : Res := s.slot n (·.opSrli n.val rd.val rs1.val sh.toNat)
/-- SRAI (R121). -/
def execSrai (n : TileId) (rd rs1 : Reg) (sh : BitVec 6) (s : State) : Res := s.slot n (·.opSrai n.val rd.val rs1.val sh.toNat)
/-- SHORI (R121). -/
def execShori (n : TileId) (rd rs1 : Reg) (imm : BitVec 15) (s : State) : Res := s.slot n (·.opShori n.val rd.val rs1.val imm)
/-- LD (R122). -/
def execLd (n : TileId) (rd rs1 : Reg) (imm : BitVec 15) (s : State) : Res := s.slot n (·.opLoad n.val rd.val rs1.val imm 8 0)
/-- LW (R122). -/
def execLw (n : TileId) (rd rs1 : Reg) (imm : BitVec 15) (s : State) : Res := s.slot n (·.opLoad n.val rd.val rs1.val imm 4 1)
/-- LWU (R122). -/
def execLwu (n : TileId) (rd rs1 : Reg) (imm : BitVec 15) (s : State) : Res := s.slot n (·.opLoad n.val rd.val rs1.val imm 4 2)
/-- SD (R122). -/
def execSd (n : TileId) (rd rs1 : Reg) (imm : BitVec 15) (s : State) : Res := s.slot n (·.opStore n.val rd.val rs1.val imm 8)
/-- SW (R122). -/
def execSw (n : TileId) (rd rs1 : Reg) (imm : BitVec 15) (s : State) : Res := s.slot n (·.opStore n.val rd.val rs1.val imm 4)
/-- ATOM (R112, R122). -/
def execAtom (n : TileId) (sub : Fin 6) (rd rs1 rs2 : Reg) (s : State) : Res := s.slot n (·.opAtom n.val sub.val rd.val rs1.val rs2.val)
/-- MFV (R121): a 32-bit lane index above 127 is illegal (R81). -/
def execMfv (n : TileId) (rd vs : Reg) (half : Bool) (idx : BitVec 8) (s : State) : Res :=
  s.slot n fun s => if !half && idx.toNat > 127 then s.illegalOp n.val else s.opMfv n.val rd.val vs.val half idx.toNat
/-- RDCSR (R123). -/
def execRdcsr (n : TileId) (rd : Reg) (csr : Fin 3) (s : State) : Res := s.slot n (·.opRdcsr n.val rd.val csr.val)
/-- Compact ADD (R121). -/
def execCompactAdd (n : TileId) (rd rs1 rs2 : Fin 16) (s : State) : Res := s.slot n (·.opAdd n.val rd.val rs1.val rs2.val)
/-- Compact SUB (R121). -/
def execCompactSub (n : TileId) (rd rs1 rs2 : Fin 16) (s : State) : Res := s.slot n (·.opSub n.val rd.val rs1.val rs2.val)
/-- Compact AND (R121). -/
def execCompactAnd (n : TileId) (rd rs1 rs2 : Fin 16) (s : State) : Res := s.slot n (·.opAnd n.val rd.val rs1.val rs2.val)
/-- Compact OR (R121). -/
def execCompactOr (n : TileId) (rd rs1 rs2 : Fin 16) (s : State) : Res := s.slot n (·.opOr n.val rd.val rs1.val rs2.val)
/-- Compact XOR (R121). -/
def execCompactXor (n : TileId) (rd rs1 rs2 : Fin 16) (s : State) : Res := s.slot n (·.opXor n.val rd.val rs1.val rs2.val)
/-- Compact SLL (R121). -/
def execCompactSll (n : TileId) (rd rs1 rs2 : Fin 16) (s : State) : Res := s.slot n (·.opSll n.val rd.val rs1.val rs2.val)
/-- Compact SRL (R121). -/
def execCompactSrl (n : TileId) (rd rs1 rs2 : Fin 16) (s : State) : Res := s.slot n (·.opSrl n.val rd.val rs1.val rs2.val)
/-- Compact MOV (R121). -/
def execCompactMov (n : TileId) (rd rs1 : Fin 16) (s : State) : Res := s.slot n (·.aluI n.val rd.val rs1.val id)

end Sys2Proof.Machine
end

