-- ==== Sys2Proof/Machine/Slots.lean ====
section
/-! DEFINITION. The encodings of a tile's lane word (R80, R81) and of the issue controller's global word: each slot as the commands it stands for, none where the
encoding is illegal. -/
namespace Sys2Proof.Machine

/-- A 5-bit register field whose lowest bit is `lo`. -/
def regField (w lo : Nat) : Reg := Fin.ofNat 32 (bits w (lo + 4) lo)

/-- One compact operation (R121): none for a MOV that names RS2. -/
def decodeCompact (n : TileId) (x : Nat) : Option Instr :=
  let rd : Fin 16 := Fin.ofNat 16 (bits x 11 8)
  let a : Fin 16 := Fin.ofNat 16 (bits x 7 4)
  let b : Fin 16 := Fin.ofNat 16 (bits x 3 0)
  match bits x 14 12 with
  | 0 => some (.compactAdd n rd a b)
  | 1 => some (.compactSub n rd a b)
  | 2 => some (.compactAnd n rd a b)
  | 3 => some (.compactOr n rd a b)
  | 4 => some (.compactXor n rd a b)
  | 5 => some (.compactSll n rd a b)
  | 6 => some (.compactSrl n rd a b)
  | _ => if b = 0 then some (.compactMov n rd a) else none

/-- SSLOT in format R (R121): SUB is zero but in ATOM, whose values 6 and 7 are illegal (R112). -/
def decodeR (n : TileId) (op : Nat) (rd a b : Reg) (sub : Nat) : Option Instr :=
  if op = 0x28 then (if h : sub < 6 then some (.atom n ⟨sub, h⟩ rd a b) else none)
  else if sub ≠ 0 then none
  else
    match op with
    | 0x01 => some (.add n rd a b)
    | 0x02 => some (.sub n rd a b)
    | 0x03 => some (.andOp n rd a b)
    | 0x04 => some (.orOp n rd a b)
    | 0x05 => some (.xorOp n rd a b)
    | 0x06 => some (.sll n rd a b)
    | 0x07 => some (.srl n rd a b)
    | 0x08 => some (.sra n rd a b)
    | 0x09 => some (.slt n rd a b)
    | 0x0A => some (.sltu n rd a b)
    | 0x0B => some (.mul n rd a b)
    | 0x0C => some (.mulh n rd a b)
    | 0x0D => some (.selnz n rd a b)
    | _ => none

/-- SSLOT in format I (R121). -/
def decodeI (n : TileId) (op : Nat) (rd a : Reg) (imm : BitVec 15) : Option Instr :=
  let sh := BitVec.ofNat 6 imm.toNat
  let short := decide (imm.toNat < 64)
  match op with
  | 0x10 => some (.addi n rd a imm)
  | 0x11 => some (.andi n rd a imm)
  | 0x12 => some (.ori n rd a imm)
  | 0x13 => some (.xori n rd a imm)
  | 0x14 => if short then some (.slli n rd a sh) else none
  | 0x15 => if short then some (.srli n rd a sh) else none
  | 0x16 => if short then some (.srai n rd a sh) else none
  | 0x17 => some (.shori n rd a imm)
  | 0x20 => some (.ld n rd a imm)
  | 0x21 => some (.lw n rd a imm)
  | 0x22 => some (.lwu n rd a imm)
  | 0x23 => some (.sd n rd a imm)
  | 0x24 => some (.sw n rd a imm)
  | 0x30 =>
    let half := imm.toNat.testBit 6
    let idx := bits imm.toNat 14 7
    if imm.toNat % 64 ≠ 0 ∨ (!half && decide (127 < idx)) then none else some (.mfv n rd a half (BitVec.ofNat 8 idx))
  | 0x38 => if h : imm.toNat < 3 then some (.rdcsr n rd ⟨imm.toNat, h⟩) else none
  | _ => none

/-- SSLOT (R121). -/
def decodeScalar (n : TileId) (w : Nat) : Option (List Instr) :=
  if w = 0 then some []
  else if w.testBit 31 then
    let x := bits w 30 16
    let y := bits w 14 0
    if w.testBit 15 ∨ (bits x 11 8 = bits y 11 8 ∧ bits x 11 8 ≠ 0) then none
    else
      match decodeCompact n x, decodeCompact n y with
      | some i, some j => some [i, j]
      | _, _ => none
  else
    let op := bits w 30 25
    let rd := regField w 20
    let a := regField w 15
    if op < 0x10 ∨ op = 0x28 then
      (if w % 128 ≠ 0 then none else (decodeR n op rd a (regField w 10) (bits w 9 7)).map fun i => [i])
    else (decodeI n op rd a (BitVec.ofNat 15 w)).map fun i => [i]

/-- TYPE of VSLOT: 3 is illegal (R124). -/
def vtype (x : Nat) : Option VType :=
  match x with
  | 0 => some .fp32
  | 1 => some .bf16
  | 2 => some .int32
  | _ => none

/-- Whether an operation is valid with INT32 (R124). -/
def intOk (op vc : Nat) : Bool :=
  [0x01, 0x02, 0x05, 0x06, 0x18, 0x19, 0x1A, 0x28, 0x29, 0x2A].contains op || (op == 0x20 && decide (vc < 3))

/-- VSLOT in format V (R125, R126): VC lies in the range of its operation, and is zero where it is not used. -/
def decodeV (n : TileId) (op : Nat) (ty : VType) (vd va vb : Reg) (m : Fin 8) (vc : Nat) (neg : Bool) : Option Instr :=
  let z (i : Instr) : Option Instr := if vc = 0 then some i else none
  match op with
  | 0x01 => z (.vadd n ty vd va vb m)
  | 0x02 => z (.vsub n ty vd va vb m)
  | 0x03 => z (.vmul n ty vd va vb m)
  | 0x04 => some (.vfma n ty vd va vb m (Fin.ofNat 32 vc) neg)
  | 0x05 => z (.vmax n ty vd va vb m)
  | 0x06 => z (.vmin n ty vd va vb m)
  | 0x07 => if vc < 16 then some (.vlerp n ty vd va vb m (Fin.ofNat 16 vc)) else none
  | 0x08 => if vc < 16 then some (.vrms n ty vd va vb m (Fin.ofNat 16 vc)) else none
  | 0x09 => if vc < 15 then some (.vdive n ty vd va vb m (Fin.ofNat 16 vc)) else none
  | 0x10 => z (.vrcp n ty vd va m)
  | 0x11 => z (.vrsqrt n ty vd va m)
  | 0x12 => z (.vexp2 n ty vd va m)
  | 0x13 => z (.vlog2 n ty vd va m)
  | 0x14 => z (.vsqrt n ty vd va m)
  | 0x18 => if vd.val = 0 ∨ 7 < vd.val ∨ 3 < vc then none else some (.vcmp n ty (Fin.ofNat 8 vd.val) va vb m (Fin.ofNat 4 vc))
  | 0x19 => if m = 0 then none else z (.vsel n ty vd va vb m)
  | 0x1A =>
    match vtype (bits vc 4 3) with
    | some tt => if vc % 4 = 0 then some (.vcvt n ty tt vd va m (vc.testBit 2)) else none
    | none => none
  | 0x20 => if vc < 4 then some (.vred n ty vd va m (Fin.ofNat 4 vc)) else none
  | 0x21 => z (.vscan n ty vd va m neg)
  | 0x22 => z (.vscanl n ty vd va vb m neg)
  | 0x2C => z (.vdq n vd va vb m)
  | 0x2D => z (.vq n vd va vb m)
  | _ => none

/-- VSLOT in format M (R125). -/
def decodeM (n : TileId) (op : Nat) (ty : VType) (vd sa : Reg) (part : Fin 8) (imm : BitVec 11) : Option Instr :=
  match op with
  | 0x28 => some (.vld n ty vd sa part imm)
  | 0x29 => some (.vst n ty vd sa part imm)
  | 0x2A => if part = 0 ∧ imm = 0 then some (.vbcast n ty vd sa) else none
  | 0x2B => if vd.val < 16 then some (.vsetk n (Fin.ofNat 16 vd.val) sa) else none
  | _ => none

/-- VSLOT (R124 to R126). -/
def decodeVector (n : TileId) (w : Nat) : Option (List Instr) :=
  if w = 0 then some []
  else
    let op := bits w 31 26
    let vc := bits w 5 1
    match vtype (bits w 25 24) with
    | none => none
    | some ty =>
      if ty = .int32 ∧ !intOk op vc then none
      else if 0x28 ≤ op ∧ op ≤ 0x2B then
        (decodeM n op ty (regField w 19) (regField w 14) (Fin.ofNat 8 (bits w 13 11)) (BitVec.ofNat 11 w)).map fun i => [i]
      else (decodeV n op ty (regField w 19) (regField w 14) (regField w 9) (Fin.ofNat 8 (bits w 8 6)) vc (w.testBit 0)).map fun i => [i]

/-- ASLOT (R159). -/
def decodeArray (n : TileId) (w : Nat) : Option (List Instr) :=
  let d : Fin 16 := Fin.ofNat 16 (bits w 11 8)
  let k := BitVec.ofNat 8 w
  match bits w 15 12 with
  | 0 => if w = 0 then some [] else none
  | 1 => if k = 0 then some [.ldw n d] else none
  | 2 => if k = 0 ∧ d = 0 then some [.swapw n] else none
  | 3 => some [.mac n d k]
  | 4 => some [.out n d k]
  | 5 => some [.clr n d k]
  | _ => none

/-- MSLOT class 0x1, MOVE (R359). -/
def decodeMove (n : TileId) (w : Nat) : Option Instr :=
  let rs := bits w 22 18
  let rd := bits w 17 13
  if w % 0x2000 ≠ 0 ∨ 28 < rs ∨ (rd ≠ 0 ∧ rs ≤ rd ∧ rd ≤ rs + 3) then none
  else some (.move n (Fin.ofNat 32 (bits w 27 23)) (regField w 18) (regField w 13))

/-- MSLOT class 0x2, QSEND (R286). -/
def decodeQsend (n : TileId) (w : Nat) : Option Instr :=
  let mode := bits w 27 26
  let tmo := bits w 7 0
  if mode = 3 ∨ 31 < bits w 25 21 + bits w 20 18 ∨ (mode = 2 ∧ tmo = 0) ∨ (mode ≠ 2 ∧ tmo ≠ 0) ∨ bits w 12 8 = 0 then none
  else some (.qsend n (Fin.ofNat 4 mode) (regField w 21) (Fin.ofNat 8 (bits w 20 18)) (regField w 13) (regField w 8) (BitVec.ofNat 8 tmo))

/-- MSLOT class 0x3, QRECV (R289). -/
def decodeQrecv (n : TileId) (w : Nat) : Option Instr :=
  let rd := bits w 25 21
  let nm := bits w 20 18
  let rs := bits w 17 13
  let q : Fin 64 := Fin.ofNat 64 (bits w 12 7)
  if w % 128 ≠ 0 ∨ 31 < rd + nm ∨ rs = 0 ∨ (rd ≤ rs ∧ rs ≤ rd + nm) then none
  else
    match bits w 27 26 with
    | 0 => some (.recv n (regField w 21) (Fin.ofNat 8 nm) (regField w 13) q)
    | 1 => some (.peek n (regField w 21) (Fin.ofNat 8 nm) (regField w 13) q)
    | 2 => some (.discard n (regField w 21) (Fin.ofNat 8 nm) (regField w 13) q)
    | _ => none

/-- MSLOT class 0x4, EVCTL (R191, R219, R220). -/
def decodeEvctl (n : TileId) (w : Nat) : Option Instr :=
  let a := bits w 23 0
  match bits w 27 24 with
  | 1 => if a = 0 then some (.evctlStart n) else none
  | 2 => if a = 0 then some (.evctlDrain n) else none
  | 3 => if a = 0 then some (.evctlStop n) else none
  | 4 => if a % 256 = 0 then some (.learn n (BitVec.ofNat 24 a)) else none
  | _ => none

/-- MSLOT class 0x7, REMOTE (R265): AOP is zero but in an ATOMIC. -/
def decodeRemote (n : TileId) (w : Nat) : Option Instr :=
  let kind := bits w 27 25
  let aop := bits w 24 22
  if w % 128 ≠ 0 ∨ (kind ≠ 2 ∧ aop ≠ 0) then none
  else
    match kind with
    | 0 => some (.load8 n (regField w 17) (regField w 12))
    | 1 => some (.store8 n (regField w 12) (regField w 7))
    | 2 => some (.atomic n (Fin.ofNat 8 aop) (regField w 17) (regField w 12) (regField w 7))
    | 3 => some (.fence n (regField w 12))
    | _ => none

/-- MSLOT (R80). Class 0x0 with a bit of [27:0] set, which no chapter gives a meaning, is an illegal encoding (DESIGN CHOICE, log entry 38). -/
def decodeMslot (n : TileId) (w : Nat) : Option (List Instr) :=
  let one (i : Option Instr) : Option (List Instr) := i.map fun x => [x]
  match bits w 31 28 with
  | 0 => if w = 0 then some [] else none
  | 1 => one (decodeMove n w)
  | 2 => one (decodeQsend n w)
  | 3 => one (decodeQrecv n w)
  | 4 => one (decodeEvctl n w)
  | 5 => if bits w 27 6 = 0 then some [.arrive n (Fin.ofNat 64 (bits w 5 0))] else none
  | 6 => if bits w 27 9 = 0 ∧ bits w 7 4 = 0 then some [.flag n (Fin.ofNat 16 (bits w 3 0)) (w.testBit 8)] else none
  | 7 => one (decodeRemote n w)
  | _ => none

/-- The operations of a lane word, slot by slot (R80); none where any slot is illegal (R81). -/
def decodeLane (n : TileId) (w : Word128) : Option (List Instr) :=
  match decodeArray n (bits w.toNat 47 32), decodeVector n (bits w.toNat 79 48), decodeScalar n (bits w.toNat 111 80), decodeMslot n (bits w.toNat 31 0) with
  | some a, some v, some c, some m => some (a ++ v ++ c ++ m)
  | _, _, _, _ => none

/-- A loop operation of CTL (R83). -/
inductive Lop where
  | none
  | lstart (lvl count : Nat)
  | lend (lvl : Nat)
  | lone (lvl count : Nat)
deriving DecidableEq, Repr

/-- CTL of a lane word: COUNT is zero with NONE and LEND (R83; log entry 30). -/
def decodeCtl (w : Word128) : Option Lop :=
  let c := bits w.toNat 127 112
  let lvl := bits c 13 12
  let n := bits c 11 0
  match bits c 15 14 with
  | 0 => if n = 0 then some .none else none
  | 1 => some (.lstart lvl n)
  | 2 => if n = 0 then some (.lend lvl) else none
  | _ => some (.lone lvl n)

/-- A global operation (R81). -/
inductive Gop where
  | nop
  | stop
  | step (cmd : Nat)
  | exitif (cond arg : Nat)
  | dbclr (b : Nat)
  | setflag (f : Nat)
  | clrflag (f : Nat)
deriving DecidableEq, Repr

/-- A WAIT condition that the table names (R85). -/
def condOk (c : Nat) : Bool := decide (1 ≤ c) && decide (c ≤ 9)

def decodeGop (w : Nat) : Option Gop :=
  match bits w 31 24 with
  | 0 => some .nop
  | 1 => some .stop
  | 2 => if bits w 3 0 ≤ 4 then some (.step (bits w 3 0)) else none
  | 3 => if condOk (bits w 22 16) then some (.exitif (bits w 22 16) (bits w 15 0)) else none
  | 4 => some (.dbclr (bits w 4 0))
  | 5 => some (.setflag (bits w 3 0))
  | 6 => some (.clrflag (bits w 3 0))
  | _ => none

/-- A global word: its WAIT as (condition, argument), its two operations. -/
structure GWord where
  wait : Option (Nat × Nat)
  gop0 : Gop
  gop1 : Gop
deriving DecidableEq, Repr

/-- The word has the WAIT bit. -/
def waitBit (w : Word128) : Bool := w.toNat.testBit 95

/-- EXITIF of a global word, if any. -/
def GWord.exitif (g : GWord) : Option (Nat × Nat) :=
  match g.gop0, g.gop1 with
  | .exitif c a, _ => some (c, a)
  | _, .exitif c a => some (c, a)
  | _, _ => none

/-- The word ends the stream. -/
def GWord.ends (g : GWord) : Bool := g.gop0 == .stop || g.gop1 == .stop

/-- A global word (R81, R82, R85); none where it is illegal: an operation or a condition that does not exist, two ENDs, two EXITIFs. -/
def decodeGlobal (w : Word128) : Option GWord :=
  match decodeCtl w, decodeGop (bits w.toNat 63 32), decodeGop (bits w.toNat 31 0) with
  | some _, some a, some b =>
    let c := bits w.toNat 94 88
    let two := match a, b with
      | .stop, .stop => true
      | .exitif .., .exitif .. => true
      | _, _ => false
    if two || (waitBit w && !condOk c) then none
    else some ⟨if waitBit w then some (c, bits w.toNat 87 64) else none, a, b⟩
  | _, _, _ => none

/-! The encodings, written from the same tables (R80, R83, R85, R121, R124, R159): the word of an operation of tile n, none for a command that is no operation of the slot or another tile's. -/

def onTile (n m : TileId) (w : Nat) : Option Nat := if n = m then some w else none

/-- SSLOT formats R and I. -/
def fmtR (op : Nat) (rd a b : Reg) (sub : Nat) : Nat := op * 2 ^ 25 + rd.val * 2 ^ 20 + a.val * 2 ^ 15 + b.val * 2 ^ 10 + sub * 2 ^ 7
def fmtI (op : Nat) (rd a : Reg) (imm : Nat) : Nat := op * 2 ^ 25 + rd.val * 2 ^ 20 + a.val * 2 ^ 15 + imm

/-- SSLOT: one operation. -/
def encodeScalar (n : TileId) (i : Instr) : Option Nat :=
  match i with
  | .add m rd a b => onTile n m (fmtR 0x01 rd a b 0)
  | .sub m rd a b => onTile n m (fmtR 0x02 rd a b 0)
  | .andOp m rd a b => onTile n m (fmtR 0x03 rd a b 0)
  | .orOp m rd a b => onTile n m (fmtR 0x04 rd a b 0)
  | .xorOp m rd a b => onTile n m (fmtR 0x05 rd a b 0)
  | .sll m rd a b => onTile n m (fmtR 0x06 rd a b 0)
  | .srl m rd a b => onTile n m (fmtR 0x07 rd a b 0)
  | .sra m rd a b => onTile n m (fmtR 0x08 rd a b 0)
  | .slt m rd a b => onTile n m (fmtR 0x09 rd a b 0)
  | .sltu m rd a b => onTile n m (fmtR 0x0A rd a b 0)
  | .mul m rd a b => onTile n m (fmtR 0x0B rd a b 0)
  | .mulh m rd a b => onTile n m (fmtR 0x0C rd a b 0)
  | .selnz m rd a b => onTile n m (fmtR 0x0D rd a b 0)
  | .atom m sub rd a b => onTile n m (fmtR 0x28 rd a b sub.val)
  | .addi m rd a imm => onTile n m (fmtI 0x10 rd a imm.toNat)
  | .andi m rd a imm => onTile n m (fmtI 0x11 rd a imm.toNat)
  | .ori m rd a imm => onTile n m (fmtI 0x12 rd a imm.toNat)
  | .xori m rd a imm => onTile n m (fmtI 0x13 rd a imm.toNat)
  | .slli m rd a sh => onTile n m (fmtI 0x14 rd a sh.toNat)
  | .srli m rd a sh => onTile n m (fmtI 0x15 rd a sh.toNat)
  | .srai m rd a sh => onTile n m (fmtI 0x16 rd a sh.toNat)
  | .shori m rd a imm => onTile n m (fmtI 0x17 rd a imm.toNat)
  | .ld m rd a imm => onTile n m (fmtI 0x20 rd a imm.toNat)
  | .lw m rd a imm => onTile n m (fmtI 0x21 rd a imm.toNat)
  | .lwu m rd a imm => onTile n m (fmtI 0x22 rd a imm.toNat)
  | .sd m rd a imm => onTile n m (fmtI 0x23 rd a imm.toNat)
  | .sw m rd a imm => onTile n m (fmtI 0x24 rd a imm.toNat)
  | .mfv m rd vs half idx => onTile n m (fmtI 0x30 rd vs (idx.toNat * 2 ^ 7 + (if half then 64 else 0)))
  | .rdcsr m rd csr => onTile n m (fmtI 0x38 rd 0 csr.val)
  | _ => none

/-- One compact operation of SSLOT (R121). -/
def encodeCompact (n : TileId) (i : Instr) : Option Nat :=
  let f (op : Nat) (rd a b : Fin 16) : Nat := op * 2 ^ 12 + rd.val * 2 ^ 8 + a.val * 2 ^ 4 + b.val
  match i with
  | .compactAdd m rd a b => onTile n m (f 0 rd a b)
  | .compactSub m rd a b => onTile n m (f 1 rd a b)
  | .compactAnd m rd a b => onTile n m (f 2 rd a b)
  | .compactOr m rd a b => onTile n m (f 3 rd a b)
  | .compactXor m rd a b => onTile n m (f 4 rd a b)
  | .compactSll m rd a b => onTile n m (f 5 rd a b)
  | .compactSrl m rd a b => onTile n m (f 6 rd a b)
  | .compactMov m rd a => onTile n m (f 7 rd a 0)
  | _ => none

/-- SSLOT: a pair of compact operations. -/
def encodePair (n : TileId) (i j : Instr) : Option Nat :=
  match encodeCompact n i, encodeCompact n j with
  | some x, some y => some (2 ^ 31 + x * 2 ^ 16 + y)
  | _, _ => none

/-- The destination of a compact operation. -/
def compactDest (i : Instr) : Nat :=
  match i with
  | .compactAdd _ rd _ _ => rd.val
  | .compactSub _ rd _ _ => rd.val
  | .compactAnd _ rd _ _ => rd.val
  | .compactOr _ rd _ _ => rd.val
  | .compactXor _ rd _ _ => rd.val
  | .compactSll _ rd _ _ => rd.val
  | .compactSrl _ rd _ _ => rd.val
  | .compactMov _ rd _ => rd.val
  | _ => 0

/-- TYPE. -/
def typeCode : VType → Nat
  | .fp32 => 0
  | .bf16 => 1
  | .int32 => 2

/-- VSLOT formats V and M. -/
def fmtV (op : Nat) (ty : VType) (vd va vb : Nat) (m : Fin 8) (vc : Nat) (neg : Bool) : Nat :=
  op * 2 ^ 26 + typeCode ty * 2 ^ 24 + vd * 2 ^ 19 + va * 2 ^ 14 + vb * 2 ^ 9 + m.val * 2 ^ 6 + vc * 2 + (if neg then 1 else 0)
def fmtM (op : Nat) (ty : VType) (vd : Nat) (sa : Reg) (part imm : Nat) : Nat :=
  op * 2 ^ 26 + typeCode ty * 2 ^ 24 + vd * 2 ^ 19 + sa.val * 2 ^ 14 + part * 2 ^ 11 + imm

/-- VSLOT. -/
def encodeVector (n : TileId) (i : Instr) : Option Nat :=
  match i with
  | .vadd t ty vd va vb m => onTile n t (fmtV 0x01 ty vd.val va.val vb.val m 0 false)
  | .vsub t ty vd va vb m => onTile n t (fmtV 0x02 ty vd.val va.val vb.val m 0 false)
  | .vmul t ty vd va vb m => onTile n t (fmtV 0x03 ty vd.val va.val vb.val m 0 false)
  | .vfma t ty vd va vb m vc neg => onTile n t (fmtV 0x04 ty vd.val va.val vb.val m vc.val neg)
  | .vmax t ty vd va vb m => onTile n t (fmtV 0x05 ty vd.val va.val vb.val m 0 false)
  | .vmin t ty vd va vb m => onTile n t (fmtV 0x06 ty vd.val va.val vb.val m 0 false)
  | .vlerp t ty vd va vb m k => onTile n t (fmtV 0x07 ty vd.val va.val vb.val m k.val false)
  | .vrms t ty vd va vb m k => onTile n t (fmtV 0x08 ty vd.val va.val vb.val m k.val false)
  | .vdive t ty vd va vb m k => onTile n t (fmtV 0x09 ty vd.val va.val vb.val m k.val false)
  | .vrcp t ty vd va m => onTile n t (fmtV 0x10 ty vd.val va.val 0 m 0 false)
  | .vrsqrt t ty vd va m => onTile n t (fmtV 0x11 ty vd.val va.val 0 m 0 false)
  | .vexp2 t ty vd va m => onTile n t (fmtV 0x12 ty vd.val va.val 0 m 0 false)
  | .vlog2 t ty vd va m => onTile n t (fmtV 0x13 ty vd.val va.val 0 m 0 false)
  | .vsqrt t ty vd va m => onTile n t (fmtV 0x14 ty vd.val va.val 0 m 0 false)
  | .vcmp t ty md va vb m c => onTile n t (fmtV 0x18 ty md.val va.val vb.val m c.val false)
  | .vsel t ty vd va vb m => onTile n t (fmtV 0x19 ty vd.val va.val vb.val m 0 false)
  | .vcvt t ty tt vd va m st => onTile n t (fmtV 0x1A ty vd.val va.val 0 m (typeCode tt * 8 + (if st then 4 else 0)) false)
  | .vred t ty vd va m op => onTile n t (fmtV 0x20 ty vd.val va.val 0 m op.val false)
  | .vscan t ty vd va m chain => onTile n t (fmtV 0x21 ty vd.val va.val 0 m 0 chain)
  | .vscanl t ty vd va vb m chain => onTile n t (fmtV 0x22 ty vd.val va.val vb.val m 0 chain)
  | .vld t ty v sa part imm => onTile n t (fmtM 0x28 ty v.val sa part.val imm.toNat)
  | .vst t ty v sa part imm => onTile n t (fmtM 0x29 ty v.val sa part.val imm.toNat)
  | .vbcast t ty vd sa => onTile n t (fmtM 0x2A ty vd.val sa 0 0)
  | .vsetk t k sa => onTile n t (fmtM 0x2B .fp32 k.val sa 0 0)
  | .vdq t vd va vb m => onTile n t (fmtV 0x2C .fp32 vd.val va.val vb.val m 0 false)
  | .vq t vd va vb m => onTile n t (fmtV 0x2D .fp32 vd.val va.val vb.val m 0 false)
  | _ => none

/-- ASLOT. -/
def encodeArray (n : TileId) (i : Instr) : Option Nat :=
  match i with
  | .ldw m d => onTile n m (0x1000 + d.val * 2 ^ 8)
  | .swapw m => onTile n m 0x2000
  | .mac m d k => onTile n m (0x3000 + d.val * 2 ^ 8 + k.toNat)
  | .out m d k => onTile n m (0x4000 + d.val * 2 ^ 8 + k.toNat)
  | .clr m d k => onTile n m (0x5000 + d.val * 2 ^ 8 + k.toNat)
  | _ => none

/-- MSLOT. -/
def encodeMslot (n : TileId) (i : Instr) : Option Nat :=
  let recv (kind : Nat) (rd : Reg) (nm : Fin 8) (rs : Reg) (q : Fin 64) : Nat :=
    3 * 2 ^ 28 + kind * 2 ^ 26 + rd.val * 2 ^ 21 + nm.val * 2 ^ 18 + rs.val * 2 ^ 13 + q.val * 2 ^ 7
  let remote (kind aop : Nat) (rd ra rs : Reg) : Nat := 7 * 2 ^ 28 + kind * 2 ^ 25 + aop * 2 ^ 22 + rd.val * 2 ^ 17 + ra.val * 2 ^ 12 + rs.val * 2 ^ 7
  match i with
  | .move t m rs rd => onTile n t (2 ^ 28 + m.val * 2 ^ 23 + rs.val * 2 ^ 18 + rd.val * 2 ^ 13)
  | .qsend t mode rs nm ra rd tmo =>
    onTile n t (2 * 2 ^ 28 + mode.val * 2 ^ 26 + rs.val * 2 ^ 21 + nm.val * 2 ^ 18 + ra.val * 2 ^ 13 + rd.val * 2 ^ 8 + tmo.toNat)
  | .recv t rd nm rs q => onTile n t (recv 0 rd nm rs q)
  | .peek t rd nm rs q => onTile n t (recv 1 rd nm rs q)
  | .discard t rd nm rs q => onTile n t (recv 2 rd nm rs q)
  | .evctlStart t => onTile n t (4 * 2 ^ 28 + 1 * 2 ^ 24)
  | .evctlDrain t => onTile n t (4 * 2 ^ 28 + 2 * 2 ^ 24)
  | .evctlStop t => onTile n t (4 * 2 ^ 28 + 3 * 2 ^ 24)
  | .learn t args => onTile n t (4 * 2 ^ 28 + 4 * 2 ^ 24 + args.toNat)
  | .arrive t g => onTile n t (5 * 2 ^ 28 + g.val)
  | .flag t f set => onTile n t (6 * 2 ^ 28 + (if set then 2 ^ 8 else 0) + f.val)
  | .load8 t rd ra => onTile n t (remote 0 0 rd ra 0)
  | .store8 t ra rs => onTile n t (remote 1 0 0 ra rs)
  | .atomic t aop rd ra rs => onTile n t (remote 2 aop.val rd ra rs)
  | .fence t ra => onTile n t (remote 3 0 0 ra 0)
  | _ => none

/-- CTL of a loop operation (R83). -/
def encodeCtl : Lop → Nat
  | .none => 0
  | .lstart lvl count => 2 ^ 14 + lvl * 2 ^ 12 + count
  | .lend lvl => 2 * 2 ^ 14 + lvl * 2 ^ 12
  | .lone lvl count => 3 * 2 ^ 14 + lvl * 2 ^ 12 + count

/-- The lane word of a loop operation and four slot words (R80). -/
def encodeLane (l : Lop) (c v a m : Nat) : Word128 := BitVec.ofNat 128 (encodeCtl l * 2 ^ 112 + c * 2 ^ 80 + v * 2 ^ 48 + a * 2 ^ 32 + m)

/-- A global operation (R81). -/
def encodeGop : Gop → Nat
  | .nop => 0
  | .stop => 2 ^ 24
  | .step cmd => 2 * 2 ^ 24 + cmd
  | .exitif cond arg => 3 * 2 ^ 24 + cond * 2 ^ 16 + arg
  | .dbclr b => 4 * 2 ^ 24 + b
  | .setflag f => 5 * 2 ^ 24 + f
  | .clrflag f => 6 * 2 ^ 24 + f

/-- The global word of a loop operation, a WAIT and two operations (R81, R85). -/
def encodeGlobal (l : Lop) (g : GWord) : Word128 :=
  let w := match g.wait with
    | some (c, a) => 2 ^ 31 + c * 2 ^ 24 + a
    | none => 0
  BitVec.ofNat 128 (encodeCtl l * 2 ^ 112 + w * 2 ^ 64 + encodeGop g.gop0 * 2 ^ 32 + encodeGop g.gop1)

/-- The operands of a global operation lie in their fields and are ones that exist. -/
def Gop.wf : Gop → Bool
  | .step cmd => decide (cmd ≤ 4)
  | .exitif cond arg => condOk cond && decide (arg < 2 ^ 16)
  | .dbclr b => decide (b < 32)
  | .setflag f => decide (f < 16)
  | .clrflag f => decide (f < 16)
  | _ => true

/-- A loop operation's level and count lie in their fields. -/
def Lop.wf : Lop → Bool
  | .none => true
  | .lstart lvl count => decide (lvl < 4) && decide (count < 2 ^ 12)
  | .lend lvl => decide (lvl < 4)
  | .lone lvl count => decide (lvl < 4) && decide (count < 2 ^ 12)

end Sys2Proof.Machine
end

