-- ==== Sys2Proof/Machine/Issue.lean ====
section
/-! DEFINITION. The bundle stream (chapter 03): the launch channel, lane words and global words, loops, WAIT, images, launching, stopping and debugging. -/
namespace Sys2Proof.Machine

/-- The meaning of one operation of a lane word (R80). -/
def slotMeaning (i : Instr) (s : State) : Res :=
  match i with
  | .move n m rs rd => execMove n m rs rd s
  | .qsend n mode rs nm1 ra rd tmo => execQsend n mode rs nm1 ra rd tmo s
  | .recv n rd nm1 rs q => execRecv n rd nm1 rs q s
  | .peek n rd nm1 rs q => execPeek n rd nm1 rs q s
  | .discard n rd nm1 rs q => execDiscard n rd nm1 rs q s
  | .evctlStart n => execEvctlStart n s
  | .evctlDrain n => execEvctlDrain n s
  | .evctlStop n => execEvctlStop n s
  | .learn n args => execLearn n args s
  | .arrive n g => execArrive n g s
  | .flag n f set => execFlag n f set s
  | .load8 n rd ra => execLoad8 n rd ra s
  | .store8 n ra rs => execStore8 n ra rs s
  | .atomic n aop rd ra rs => execAtomic n aop rd ra rs s
  | .fence n ra => execFence n ra s
  | .add n rd rs1 rs2 => execAdd n rd rs1 rs2 s
  | .sub n rd rs1 rs2 => execSub n rd rs1 rs2 s
  | .andOp n rd rs1 rs2 => execAnd n rd rs1 rs2 s
  | .orOp n rd rs1 rs2 => execOr n rd rs1 rs2 s
  | .xorOp n rd rs1 rs2 => execXor n rd rs1 rs2 s
  | .sll n rd rs1 rs2 => execSll n rd rs1 rs2 s
  | .srl n rd rs1 rs2 => execSrl n rd rs1 rs2 s
  | .sra n rd rs1 rs2 => execSra n rd rs1 rs2 s
  | .slt n rd rs1 rs2 => execSlt n rd rs1 rs2 s
  | .sltu n rd rs1 rs2 => execSltu n rd rs1 rs2 s
  | .mul n rd rs1 rs2 => execMul n rd rs1 rs2 s
  | .mulh n rd rs1 rs2 => execMulh n rd rs1 rs2 s
  | .selnz n rd rs1 rs2 => execSelnz n rd rs1 rs2 s
  | .addi n rd rs1 imm => execAddi n rd rs1 imm s
  | .andi n rd rs1 imm => execAndi n rd rs1 imm s
  | .ori n rd rs1 imm => execOri n rd rs1 imm s
  | .xori n rd rs1 imm => execXori n rd rs1 imm s
  | .slli n rd rs1 sh => execSlli n rd rs1 sh s
  | .srli n rd rs1 sh => execSrli n rd rs1 sh s
  | .srai n rd rs1 sh => execSrai n rd rs1 sh s
  | .shori n rd rs1 imm => execShori n rd rs1 imm s
  | .ld n rd rs1 imm => execLd n rd rs1 imm s
  | .lw n rd rs1 imm => execLw n rd rs1 imm s
  | .lwu n rd rs1 imm => execLwu n rd rs1 imm s
  | .sd n rd rs1 imm => execSd n rd rs1 imm s
  | .sw n rd rs1 imm => execSw n rd rs1 imm s
  | .atom n sub rd rs1 rs2 => execAtom n sub rd rs1 rs2 s
  | .mfv n rd vs half idx => execMfv n rd vs half idx s
  | .rdcsr n rd csr => execRdcsr n rd csr s
  | .compactAdd n rd rs1 rs2 => execCompactAdd n rd rs1 rs2 s
  | .compactSub n rd rs1 rs2 => execCompactSub n rd rs1 rs2 s
  | .compactAnd n rd rs1 rs2 => execCompactAnd n rd rs1 rs2 s
  | .compactOr n rd rs1 rs2 => execCompactOr n rd rs1 rs2 s
  | .compactXor n rd rs1 rs2 => execCompactXor n rd rs1 rs2 s
  | .compactSll n rd rs1 rs2 => execCompactSll n rd rs1 rs2 s
  | .compactSrl n rd rs1 rs2 => execCompactSrl n rd rs1 rs2 s
  | .compactMov n rd rs1 => execCompactMov n rd rs1 s
  | .vadd n ty vd va vb mask => execVadd n ty vd va vb mask s
  | .vsub n ty vd va vb mask => execVsub n ty vd va vb mask s
  | .vmul n ty vd va vb mask => execVmul n ty vd va vb mask s
  | .vfma n ty vd va vb mask vc neg => execVfma n ty vd va vb mask vc neg s
  | .vmax n ty vd va vb mask => execVmax n ty vd va vb mask s
  | .vmin n ty vd va vb mask => execVmin n ty vd va vb mask s
  | .vlerp n ty vd va vb mask k => execVlerp n ty vd va vb mask k s
  | .vrms n ty vd va vb mask k => execVrms n ty vd va vb mask k s
  | .vdive n ty vd va vb mask k => execVdive n ty vd va vb mask k s
  | .vrcp n ty vd va mask => execVrcp n ty vd va mask s
  | .vrsqrt n ty vd va mask => execVrsqrt n ty vd va mask s
  | .vexp2 n ty vd va mask => execVexp2 n ty vd va mask s
  | .vlog2 n ty vd va mask => execVlog2 n ty vd va mask s
  | .vsqrt n ty vd va mask => execVsqrt n ty vd va mask s
  | .vcmp n ty md va vb mask cond => execVcmp n ty md va vb mask cond s
  | .vsel n ty vd va vb mask => execVsel n ty vd va vb mask s
  | .vcvt n ty tt vd va mask stoch => execVcvt n ty tt vd va mask stoch s
  | .vred n ty vd va mask op => execVred n ty vd va mask op s
  | .vscan n ty vd va mask chain => execVscan n ty vd va mask chain s
  | .vscanl n ty vd va vb mask chain => execVscanl n ty vd va vb mask chain s
  | .vld n ty v sa part imm => execVld n ty v sa part imm s
  | .vst n ty v sa part imm => execVst n ty v sa part imm s
  | .vbcast n ty vd sa => execVbcast n ty vd sa s
  | .vsetk n k sa => execVsetk n k sa s
  | .vdq n vd va vb mask => execVdq n vd va vb mask s
  | .vq n vd va vb mask => execVq n vd va vb mask s
  | .ldw n d => execLdw n d s
  | .swapw n => execSwapw n s
  | .mac n d k => execMac n d k s
  | .out n d k => execOut n d k s
  | .clr n d k => execClr n d k s  | _ => .next s

/-- Run one operation of a lane word. -/
def runSlot (i : Instr) (s : State) : State :=
  match slotMeaning i s with
  | .next t => t
  | _ => s

/-- A lane word of 128 bits is two SEC-DED words of 72 bits (R31): one of them holds an uncorrectable error. -/
def laneBad (flips : List Nat) : Bool :=
  decide (2 ≤ (flips.filter (· < 72)).length) || decide (2 ≤ (flips.filter (72 ≤ ·)).length)

/-! Loops (R83, R84). Entries stand with the innermost first. -/

/-- LSTART: push an entry. A start bundle that its loop has just continued to finds its entry and pushes no other (log entry 30). None: the LVL rule is broken, or the stack is full. -/
def loopEnter (st : List LoopEntry) (lvl count i : Nat) : Option (List LoopEntry) :=
  match st with
  | e :: t => if e.again then some ({ e with again := false } :: t)
    else if lvl ≠ st.length ∨ 4 ≤ st.length then none else some (⟨i, count, count == 0, false⟩ :: st)
  | [] => if lvl ≠ 0 then none else some [⟨i, count, count == 0, false⟩]

/-- LEND: whether the loop exits, the stack and the next index after bundle i; a flag loop exits as EXIT says. None: the LVL rule is broken. -/
def loopLeave (st : List LoopEntry) (lvl i : Nat) (exit : Bool) : Option (Bool × List LoopEntry × Nat) :=
  match st with
  | [] => none
  | e :: t =>
    if lvl + 1 ≠ st.length then none
    else
      let out := if e.flag then exit else e.remaining ≤ 1
      if out then some (true, t, i + 1) else some (false, { e with remaining := e.remaining - 1, again := true } :: t, e.start)

/-- The loop operation of a bundle: the stack, whether a loop-ending bundle exits its loop, and the next index. -/
def loopStep (st : List LoopEntry) (l : Lop) (i : Nat) (exit : Bool) : Option (List LoopEntry × Option Bool × Nat) :=
  match l with
  | .none => some (st, none, i + 1)
  | .lstart lvl c => (loopEnter st lvl c i).map fun t => (t, none, i + 1)
  | .lend lvl => (loopLeave st lvl i exit).map fun r => (r.2.1, some r.1, r.2.2)
  | .lone lvl c => (loopEnter st lvl c i).bind fun t => (loopLeave t lvl i exit).map fun r => (r.2.1, some r.1, r.2.2)

namespace State

/-! Tiles (R78, R79, R81, R83, R97). -/

/-- A tile's loop stack. -/
def setLoops (s : State) (n : Nat) (st : List LoopEntry) : State :=
  (s.modTile n fun t => { t with loops := st }).put (Reg.LANE.LANE_PC.DEPTH n) st.length

/-- The GO that falls due for tile n and that it has not executed. -/
def laneGo (s : State) (n : Nat) : Option Go := s.issue.gos.find? fun g => decide (g.due ≤ s.issue.period) && g.left.contains n

/-- A lane word; one that no image has written is undefined (R92), or zero after a re-initialisation (R478). -/
def laneWord (s : State) (n i : Nat) : Word128 × State :=
  match lookup i (s.tile n).lanes with
  | some w => (w, s)
  | none => if (s.tile n).lanesZero then (0, s) else s.draw 128

/-- The tile executes a decoded bundle. -/
def runBundle (s : State) (n i : Nat) (st : List LoopEntry) (ops : List Instr) : State :=
  ops.foldl (fun s o => runSlot o s) ((s.setLoops n st).put (Reg.LANE.LANE_PC.INDEX n) i)

/-- The channel that a VDQ or a VQ selects has a format the operation can use: one that has none makes the encoding illegal for the whole bundle (R81; chapter 05, QUANT page). -/
def chanLegal (s : State) (op : Instr) : Bool :=
  match op with
  | .vdq n .. => let q := s.chanCfg n.val (s.get (Reg.QUANT.VQ_SEL.CH n.val)); fmtOk q.fmt q.sfmt false && q.gsize != 3
  | .vq n .. => let q := s.chanCfg n.val (s.get (Reg.QUANT.VQ_SEL.CH n.val)); fmtOk q.fmt q.sfmt false && q.gsize != 3 && decide (q.rnd ≤ 1)
  | _ => true

/-- A tile executes the bundle of a GO: launch count, SEC-DED, CHK, loop rule, EXIT, decoding (log entry 30), then its slots. -/
def executeLane (s : State) (n : TileId) (g : Go) : State :=
  let s := s.put (Reg.LANE.LANE_CNT.CNT n) (low 64 (s.get (Reg.LANE.LANE_CNT.CNT n) + 1))
  let e := (lookup g.index (s.tile n).laneFlips).getD []
  if laneBad e then s.tileFault n 0xA g.index
  else
    let s := if e = [] then s else (s.add (Reg.LANE.LANE_ECC_CNT.CNT n) e.length).modTile n fun t => { t with laneFlips := remove g.index t.laneFlips }
    if s.get (Reg.LANE.LANE_CNT.CNT n) % 64 ≠ g.chk then s.tileFault n 7 g.index
    else
      let w := s.laneWord n g.index
      let s := w.2
      match decodeCtl w.1, decodeLane n w.1 with
      | some l, some ops =>
        if !ops.all s.chanLegal then s.tileFault n 0xB g.index
        else
          match loopStep (s.tile n).loops l g.index g.exit with
          | none => s.tileFault n 9 g.index
          | some (st, out, _) => if out.any (· != g.exit) then s.tileFault n 7 g.index else s.runBundle n g.index st ops
      | _, _ => s.tileFault n 0xB g.index

/-- Take tile n off a GO. -/
def takeGo (s : State) (n : Nat) (g : Go) : State :=
  s.modIssue fun i => { i with gos := i.gos.map fun x => if x = g then { x with left := x.left.filter (· != n) } else x }

/-- A tile executes what falls due; a tile that is not ON executes nothing. -/
def bundleExecute (s : State) (n : TileId) : State :=
  match s.laneGo n with
  | none => s
  | some g => let s := s.takeGo n g; if s.domOn n then s.executeLane n g else s

/-! WAIT conditions (R85, R87). -/

/-- The tiles of the running stream's mask, also after it has ended. -/
def streamTiles (s : State) : List Nat := members ((s.issue.run.map (·.mask)).getD 0) 256

/-- No event is on its way in either half. -/
def evtEmpty (s : State) : Bool :=
  s.net.evts.isEmpty && s.net.lanes.all (fun l => l.2.wait.all fun w => match w with | .evt .. => false | _ => true)

/-- A condition holds; `tested` is how many periods it has been tested in. -/
def condHolds (s : State) (cond arg tested : Nat) : Bool :=
  match cond with
  | 1 => s.barDone (arg % 64)
  | 2 => s.flag (Reg.MOVER.MV_STAT.DONE_FLAG (arg % 32))
  | 3 => s.evtEmpty && s.streamTiles.all fun n => (s.evt n).fifo.isEmpty
  | 4 => s.stepTimer
  | 5 => (s.get Reg.ISSUE.DBELL.BELL).testBit (arg % 32)
  | 6 => (s.get Reg.SNET.FLAGS.FLAG).testBit (arg % 16)
  | 7 => !(s.get Reg.SNET.FLAGS.FLAG).testBit (arg % 16)
  | 8 => s.streamTiles.all fun n => (s.tile n).tracked.isEmpty
  | 9 => decide (arg ≤ tested)
  | _ => false

/-- A test that holds clears what it has found (R87, R268). -/
def condTake (s : State) (cond arg : Nat) : State :=
  match cond with
  | 1 => s.setBarDone (arg % 64) false
  | 2 => s.put (Reg.MOVER.MV_STAT.DONE_FLAG (arg % 32)) 0
  | 5 => s.put Reg.ISSUE.DBELL.BELL (setBit (s.get Reg.ISSUE.DBELL.BELL) (arg % 32) false)
  | _ => s

/-- One period in state WAITING (WAIT_CYC). -/
def waitCycle (s : State) : State := s.add Reg.ISSUE.WAIT_CYC.CNT (s.cyclesPerLaunch 0)

/-- The WAIT is over: the next GO goes out in the following period. -/
def waitOver (s : State) (w : WaitRec) : State :=
  ((s.condTake w.cond w.arg).put Reg.ISSUE.RUN_STAT.WAITING 0).modIssue fun i => { i with wait := none, noGo := false, goFrom := i.period + 1 }

/-- The time-out of a test that is false in this period as well (R86). -/
def waitExpired (s : State) (w : WaitRec) : Bool :=
  let tmo := s.get Reg.ISSUE.WAIT_TMO.CYC
  tmo != 0 && decide (tmo ≤ (w.tested + 1) * s.cyclesPerLaunch 0)

/-- One test in state WAITING: satisfied, timed out, or to be tested again. -/
def waitTest (s : State) : State :=
  match s.issue.wait with
  | none => s
  | some w =>
    let s := s.waitCycle
    if s.condHolds w.cond w.arg w.tested then (s.waitOver w).setStream stRunning
    else if s.waitExpired w then s.faultHalt 6 w.index none
    else s.modIssue fun i => { i with wait := some { w with tested := w.tested + 1 } }

/-- A WAIT bundle has executed (R85, R99): its condition is tested from this period on; under single step it is tested once. -/
def armWait (s : State) (cond arg index : Nat) : State :=
  let w : WaitRec := ⟨index, cond, arg, true, 0⟩
  if s.stream ≠ stRunning then s
  else
  let s := s.modIssue fun i => { i with wait := some w, noGo := true }
  if s.issue.stepping then (if s.condHolds cond arg 0 then s.waitOver w else s)
  else if s.issue.ending.isSome then s
  else (s.setStream stWaiting).put Reg.ISSUE.RUN_STAT.WAITING 1

/-! Global words (R81, R82). -/

/-- A global operation other than END, EXITIF and the flags. -/
def runGop (s : State) (g : Gop) : State :=
  match g with
  | .step 1 => s.stepOne false
  | .step 2 => s.stepOne true
  | .step 3 => s.stepRun
  | .step 4 => s.stepHalt
  | .dbclr b => s.put Reg.ISSUE.DBELL.BELL (setBit (s.get Reg.ISSUE.DBELL.BELL) b false)
  | .setflag f => s.changeFlag 256 f true
  | .clrflag f => s.changeFlag 256 f false
  | _ => s

/-- The two operations of a word: of two that act on one flag, GOP1 decides (R82). -/
def runGops (s : State) (a b : Gop) : State :=
  match a, b with
  | .setflag f, .clrflag f' => if f = f' then s.runGop b else (s.runGop a).runGop b
  | _, _ => (s.runGop a).runGop b

/-- The stream ends with END, unless it has stopped by then (R94, R96). -/
def runEnd (s : State) (index : Nat) : State := if s.streamActive then s.endStream 1 index s.restState else s

/-- The state after a debugger halt, a breakpoint or a single step: HALTED, or the end of the stream where a STOP has arrived in the meantime (R94, R98). -/
def enterHalted (s : State) (cause index : Nat) : State :=
  if s.issue.stopReq then s.endStream 2 index s.restState else s.endStream cause index stHalted

/-- The single-stepped bundle has executed (R99): HALTED, with WAITING set while it is a WAIT that does not hold. -/
def stepHalted (s : State) (index : Nat) : State :=
  let held := s.issue.wait.isSome
  let s := s.enterHalted 5 index
  if held && s.stream == stHalted then s.put Reg.ISSUE.RUN_STAT.WAITING 1 else s

/-- The issue controller executes the global word of a GO in the period in which the tiles execute their lane words (R78). -/
def executeGlobal (s : State) (g : Go) : State :=
  match decodeGlobal g.word with
  | none => s.faultHalt 0xB g.index none
  | some w =>
    let s := s.runGops w.gop0 w.gop1
    let s := match w.wait with
      | some (c, a) => s.armWait c a g.index
      | none => s
    let s := if w.ends then s.runEnd g.index else s
    if s.issue.stepping && s.stream == stRunning then s.stepHalted g.index else s

/-- Every bundle that falls due is executed by the lanes that have not done so, and by the issue controller. -/
def executeDue (s : State) : State :=
  match s.issue.gos with
  | [] => s
  | g :: t =>
    if s.issue.period < g.due then s
    else
      let s := g.left.foldl (fun s n => s.bundleExecute (Fin.ofNat 256 n)) s
      (s.modIssue fun i => { i with gos := t }).executeGlobal g

/-! Launching (R78, R79, R84, R85, R100). -/

/-- A breakpoint stands before bundle i. -/
def breakAt (s : State) (i : Nat) : Bool :=
  (List.range 4).any (fun k => (s.get Reg.ISSUE.BRK_CFG.IDX_EN).testBit k && s.get (Reg.ISSUE.BRK_IDX.INDEX k) == i)
    || (s.flag Reg.ISSUE.BRK_CFG.CNT_EN && s.get Reg.ISSUE.BRK_CNT.CNT == low 64 (s.get Reg.ISSUE.LAUNCH_CNT.CNT + 1))

/-- A global word of the running stream's store; one that no image has written is undefined (R92). -/
def globalWord (s : State) (i : Nat) : Word128 × State :=
  match lookup (16384 * s.issue.runStore + i) s.issue.lanes with
  | some w => (w, s)
  | none => s.draw 128

/-- EXITIF (R84): the condition as it stands when the GO is sent. A flag loop's ending bundle without an EXITIF, which R84 rules out without an outcome, sends EXIT = 0 and so continues (DESIGN CHOICE, log entry 38). -/
def testExit (s : State) (e : Option (Nat × Nat)) : State :=
  match e with
  | none => s.modIssue fun i => { i with exit := false }
  | some (c, a) =>
    let ok := s.condHolds c a 0
    (if ok then s.condTake c a else s).modIssue fun i => { i with exit := ok }

/-- The GO for bundle i, whose global word is w, is sent with EXIT and CHK. After index 16,383 the next index is 0 (DESIGN CHOICE, log entry 38). -/
def goOut (s : State) (i : Nat) (w : Word128) (exit : Bool) (next : Nat) : State :=
  let cnt := low 64 (s.get Reg.ISSUE.LAUNCH_CNT.CNT + 1)
  let g : Go := { due := s.issue.period + 12, index := i, exit := exit, chk := cnt % 64, word := w, left := s.streamTiles }
  let stop := waitBit w || ((decodeGlobal w).map GWord.ends).getD false || s.issue.stepping
  let s := (s.put Reg.ISSUE.LAUNCH_CNT.CNT cnt).put Reg.ISSUE.RUN_STAT.INDEX i
  s.modIssue fun x => { x with gos := x.gos ++ [g], next := next % 16384, noGo := x.noGo || stop }

/-- Before the GO of the next bundle: breakpoints; then its global word is read, its EXITIF tested and its loop rule checked. -/
def sendGo (s : State) : State :=
  let i := s.issue.next
  if !s.issue.skipBreak && s.breakAt i then (s.cause pgISSUE 7).modIssue fun x => { x with ending := some (4, i) }
  else
    let s := s.modIssue fun x => { x with skipBreak := false }
    if laneBad ((lookup (16384 * s.issue.runStore + i) s.issue.flips).getD []) then s.faultHalt 0xA i none
    else
      let w := s.globalWord i
      let s := w.2.testExit ((decodeGlobal w.1).bind GWord.exitif)
      match loopStep s.issue.loops ((decodeCtl w.1).getD .none) i s.issue.exit with
      | none => s.faultHalt 9 i none
      | some (st, out, next) => (s.modIssue fun x => { x with loops := st }).goOut i w.1 (out.getD false) next

/-- The bundle at which a halt or a STOP finds the stream. -/
def haltIndex (s : State) : Nat := match s.issue.wait with | some w => w.index | none => s.issue.next

/-- What the issue controller decides in a period: STOP, debugger halt, WAIT test, GO (R85, R94, R98). -/
def control (s : State) : State :=
  if (s.stream ≠ stRunning ∧ s.stream ≠ stWaiting) ∨ s.issue.ending.isSome then s
  else if s.issue.stopReq then s.modIssue fun x => { x with ending := some (2, s.haltIndex) }
  else if s.issue.haltReq then s.modIssue fun x => { x with ending := some (3, s.haltIndex) }
  else if s.stream = stWaiting then s.waitTest
  else if s.issue.noGo ∨ s.issue.period < s.issue.goFrom then s
  else s.sendGo

/-- A halt or a STOP takes effect once the launched bundles have completed and their operations have written their results (R94, R98). -/
def settleEnd (s : State) : State :=
  match s.issue.ending with
  | none => s
  | some (c, i) =>
    if !s.issue.gos.isEmpty || s.streamTiles.any (fun n => !(s.tile n).due.isEmpty || !(s.tile n).tracked.isEmpty) then s
    else if c = 2 then s.endStream 2 i s.restState
    else s.enterHalted c i

/-- The next launch period begins: cycle counts, and the results that fall due in it (R75, R123). -/
def nextPeriod (s : State) : State :=
  let w := s.cyclesPerLaunch 0
  let e := s.cyclesPerLaunch 1
  let s := { s with cclkW := s.cclkW + w, cclkE := s.cclkE + e }
  let s := s.modIssue fun i => { i with period := i.period + 1, flagsSet := [] }
  let s := (s.tiles.filter fun t => !t.2.due.isEmpty || !t.2.landed.isEmpty || !t.2.taint.isEmpty).foldl (fun s t => s.commitDue t.1) s
  (s.tiles.filter fun t => !t.2.taint.isEmpty).foldl (fun s t => s.modTile t.1 fun t => { t with taint := [] }) s

/-- One launch period of the issue controller. -/
def launchPeriod (s : State) : State :=
  (((s.executeDue.control.settleEnd).stepAdvance).nextPeriod).settle []

end State

/-- LAUNCH_WORD (R75, R78, R79): one launch period: what falls due is executed, a STOP, a halt, a WAIT test or a GO takes place, and the period ends. No period passes while the issue controller is down or its half stands still. -/
def execLaunchWord (s : State) : Res := if s.pageUp (pageAt pgISSUE) then .next s.launchPeriod else .next s

/-- BUNDLE_EXECUTE (R78): tile n executes the lane word of the bundle that falls due in this period. -/
def execBundleExecute (n : TileId) (s : State) : Res := .next (s.bundleExecute n)

namespace State

/-- The bundle index and the EXIT bit that a loop operation of tile n belongs to: those of the GO that falls due, or of the last bundle executed. -/
def loopAt (s : State) (n : Nat) : Nat × Bool :=
  match s.laneGo n with
  | some g => (g.index, g.exit)
  | none => (s.laneIndex n, false)

/-- A loop operation of the issue controller, at the bundle to be launched next, or of a tile (R83). -/
def loopOp (s : State) (who : Option TileId) (l : Lop) : State :=
  match who with
  | none =>
    match loopStep s.issue.loops l s.issue.next s.issue.exit with
    | none => s.faultHalt 9 s.issue.next none
    | some (st, out, next) => s.modIssue fun x => { x with loops := st, next := if out.isSome then next % 16384 else x.next }
  | some n =>
    if !s.domOn n then s
    else
      let a := s.loopAt n
      match loopStep (s.tile n).loops l a.1 a.2 with
      | none => s.tileFault n 9 a.1
      | some (st, out, _) => if out.any (· != a.2) && (s.laneGo n).isSome then s.tileFault n 7 a.1 else s.setLoops n st

/-- A WAIT bundle of the running stream executes. -/
def waitBundle (s : State) (cond arg : Nat) : State := if s.stream = stRunning then s.armWait cond arg s.lastIndex else s

end State

/-- LSTART (R83). -/
def execLstart (who : Option TileId) (lvl : Fin 4) (count : BitVec 12) (s : State) : Res := .next (s.loopOp who (.lstart lvl.val count.toNat))
/-- LEND (R83). -/
def execLend (who : Option TileId) (lvl : Fin 4) (s : State) : Res := .next (s.loopOp who (.lend lvl.val))
/-- LONE (R83). -/
def execLone (who : Option TileId) (lvl : Fin 4) (count : BitVec 12) (s : State) : Res := .next (s.loopOp who (.lone lvl.val count.toNat))
/-- END (R81): the running stream stops normally after the last bundle launched. -/
def execEnd (s : State) : Res := .next (s.runEnd s.lastIndex)
/-- EXITIF (R84): tests its condition as it stands and sets EXIT of the bundle being launched; a condition that does not exist halts the stream with ILLEGAL_OP (R85). -/
def execExitif (cond : BitVec 7) (arg : BitVec 16) (s : State) : Res :=
  .next (if condOk cond.toNat then s.testExit (some (cond.toNat, arg.toNat)) else s.faultHalt 0xB s.lastIndex none)
/-- DBCLR (R81). -/
def execDbclr (bit : Fin 32) (s : State) : Res := .next (s.runGop (.dbclr bit.val))
/-- SETFLAG (R81, R270). -/
def execSetflag (f : Fin 16) (s : State) : Res := .next (s.runGop (.setflag f.val))
/-- CLRFLAG (R81, R270). -/
def execClrflag (f : Fin 16) (s : State) : Res := .next (s.runGop (.clrflag f.val))

/-- WAIT BARRIER (R85, R268). -/
def execWaitBarrier (g : Fin 64) (s : State) : Res := .next (s.waitBundle 1 g.val)
/-- WAIT MOVER (R85). -/
def execWaitMover (m : Fin 32) (s : State) : Res := .next (s.waitBundle 2 m.val)
/-- WAIT EVT_DRAIN (R85). -/
def execWaitEvtDrain (s : State) : Res := .next (s.waitBundle 3 0)
/-- WAIT STEP_TIMER (R85, R193). -/
def execWaitStepTimer (s : State) : Res := .next (s.waitBundle 4 0)
/-- WAIT DOORBELL (R85). -/
def execWaitDoorbell (bit : Fin 32) (s : State) : Res := .next (s.waitBundle 5 bit.val)
/-- WAIT FLAG_SET (R85). -/
def execWaitFlagSet (f : Fin 16) (s : State) : Res := .next (s.waitBundle 6 f.val)
/-- WAIT FLAG_CLR (R85). -/
def execWaitFlagClr (f : Fin 16) (s : State) : Res := .next (s.waitBundle 7 f.val)
/-- WAIT TRACKED (R85). -/
def execWaitTracked (s : State) : Res := .next (s.waitBundle 8 0)
/-- WAIT CYCLES (R85). -/
def execWaitCycles (cyc : BitVec 24) (s : State) : Res := .next (s.waitBundle 9 cyc.toNat)

/-- WAIT_SATISFIED (R85, R87): the test of this period holds: what it found is cleared, the stream is RUNNING, the next GO goes out in the following period. -/
def execWaitSatisfied (s : State) : Res :=
  match s.issue.wait with
  | none => .next s
  | some w =>
    if s.stream = State.stWaiting ∧ s.issue.ending = none ∧ !s.issue.stopReq ∧ !s.issue.haltReq ∧ s.condHolds w.cond w.arg w.tested then
      .next ((s.waitCycle.waitOver w).setStream State.stRunning)
    else .next s

/-- WAIT_TIMEOUT (R86): the test has been false for WAIT_TMO cycles, this period included: the stream fault-halts at the WAIT. A condition that holds in this period counts as satisfied. -/
def execWaitTimeout (s : State) : Res :=
  match s.issue.wait with
  | none => .next s
  | some w =>
    if s.stream = State.stWaiting ∧ s.issue.ending = none ∧ !s.issue.stopReq ∧ !s.issue.haltReq ∧ !s.condHolds w.cond w.arg w.tested ∧ s.waitExpired w then
      .next (s.waitCycle.faultHalt 6 w.index none)
    else .next s

/-! Launching, stopping, debugging (R93, R94, R98, R99). -/

namespace State

/-- The reason that refuses a START (R93); a FAULTED stream without a loaded image is refused as not ready (log entry 30). -/
def startCheck (s : State) : Option Nat :=
  if s.stream ≠ stReady ∧ s.stream ≠ stFaulted then some rcBusy
  else if !s.isEnabled pgISSUE then some rcDep
  else
    match s.issue.loaded with
    | none => some rcDep
    | some r =>
      let ts := members r.mask 256
      if r.planW ≠ s.get Reg.CLOCK.HALF_CFG.WEST ∨ r.planE ≠ s.get Reg.CLOCK.HALF_CFG.EAST then some rcClock
      else if ts.any (fun n => !s.domOn n) then some rcDomOff
      else if ts.any (fun n => !s.isReady (tilePg n 0)) || !s.isReady pgSTEP then some rcDep
      else none

/-- An accepted START: the launch counts, every loop stack and every scoreboard are cleared, and the GO for ENTRY goes out in the next launch period (R93). -/
def startStream (s : State) (r : ImageRec) : State :=
  let s := s.tiles.foldl (fun s t => (s.modTile t.1 fun x => { x with tracked := x.tracked.map fun o => { o with reg := none } }).setLoops t.1 []) s
  let s := (members r.mask 256).foldl (fun s n => s.put (Reg.LANE.LANE_CNT.CNT n) 0) s
  let s := (s.put Reg.ISSUE.LAUNCH_CNT.CNT 0).setHalt 0 0 none
  let s := s.modIssue fun i =>
    { i with next := r.entry, goFrom := i.period + 1, gos := [], loops := [], wait := none, noGo := false, stopReq := false, haltReq := false,
             stepping := false, ending := none, skipBreak := false, run := some r, runStore := i.loadStore }
  (s.setStream stRunning).settle []

/-- A HALTED stream ends at once (R94). -/
def stopNow (s : State) : State := ((s.endStream 2 s.haltIndex s.restState).stepAdvance).settle []

end State

/-- START (R93). -/
def actStart (s : State) : Res :=
  if !s.pageUp (pageAt pgISSUE) then .next s
  else
    match s.startCheck, s.issue.loaded with
    | none, some r => .next (s.startStream r)
    | some c, _ => .next (s.refuse pgISSUE c 0x050)
    | none, none => .next (s.refuse pgISSUE rcDep 0x050)

/-- STOP (R94). -/
def actStop (s : State) : Res :=
  if !s.pageUp (pageAt pgISSUE) then .next s
  else if s.stream = State.stHalted then .next s.stopNow
  else if s.stream = State.stRunning ∨ s.stream = State.stWaiting then .next (s.modIssue fun i => { i with stopReq := true })
  else .next s

/-- DBG_HALT (R98). -/
def actDbgHalt (s : State) : Res :=
  if s.pageUp (pageAt pgISSUE) ∧ (s.stream = State.stRunning ∨ s.stream = State.stWaiting) then .next (s.modIssue fun i => { i with haltReq := true }) else .next s

/-- RESUME (R98 to R100): launching resumes in the next period; a WAIT is tested again and its time-out starts from zero; the bundle at which the stream halted is not checked against breakpoints again. -/
def actResume (s : State) : Res :=
  if !s.pageUp (pageAt pgISSUE) || s.stream ≠ State.stHalted then .next s
  else
    match s.issue.wait with
    | some w =>
      let s := s.modIssue fun i => { i with wait := some { w with tested := 0 }, noGo := true }
      .next (((s.setStream State.stWaiting).put Reg.ISSUE.RUN_STAT.WAITING 1).stepAdvance)
    | none =>
      let s := s.modIssue fun i => { i with noGo := false, goFrom := i.period + 1, skipBreak := s.get Reg.ISSUE.HALT_CAUSE.INDEX == i.next }
      .next (s.setStream State.stRunning).stepAdvance

/-- DBG_STEP (R99): exactly one bundle is launched in the next period; on a WAIT that is held, its condition is tested once. -/
def actDbgStep (s : State) : Res :=
  if !s.pageUp (pageAt pgISSUE) || s.stream ≠ State.stHalted then .next s
  else
    match s.issue.wait with
    | some w => if s.condHolds w.cond w.arg w.tested then .next ((s.waitOver w).setHalt 5 w.index none)
        else .next (((s.modIssue fun i => { i with wait := some { w with tested := w.tested + 1 } }).put Reg.ISSUE.RUN_STAT.WAITING 1).setHalt 5 w.index none)
    | none =>
      let s := s.modIssue fun i => { i with noGo := false, goFrom := i.period + 1, skipBreak := true, stepping := true }
      .next (s.setStream State.stRunning).stepAdvance

/-- STEP_DONE (R99): the single-stepped bundle falls due: it executes and the stream returns to HALTED. -/
def execStepDone (s : State) : Res := if s.issue.stepping then .next s.executeDue else .next s

end Sys2Proof.Machine
end

