-- ==== Sys2Proof/Machine/Host.lean ====
section
/-! DEFINITION. The PCIe function: BAR2 traffic, outbound accesses, MSI-X, configuration, its resets (R369 to R381), and the MCTP control messages of the crown (R383). -/
namespace Sys2Proof.Machine
namespace State

def modPcie (s : State) (f : PcieS → PcieS) : State := { s with pcie := f s.pcie }

/-- An error reported through AER (R379). -/
def aer (s : State) (e : AerError) : State := s.modPcie fun p => { p with aer := if p.aer.contains e then p.aer else p.aer ++ [e] }

/-- A failed inbound packet (R374). -/
def hostErr (s : State) (st a : Nat) : State :=
  (((s.bump Reg.GLOBAL.HOST_ERR_CNT.CNT).put Reg.GLOBAL.HOST_ERR_LAST.STATUS st).put Reg.GLOBAL.HOST_ERR_LAST.ADDR a).cause pgGLOBAL 7

/-- What EP 176 answers for itself: register space, an address of 2^48 or above (R371), or a compute reset (R374, R465). A request to an unmapped range is sent, and answered and counted under R43. -/
def inboundStop (s : State) (a : Nat) : Option Nat :=
  if 2 ^ 48 ≤ a then some stUNMAPPED
  else
    match region a with
    | .regs _ => some stUNMAPPED
    | .unmapped => none
    | _ => if s.flag Reg.RESET.RST_STAT.COMP_ACTIVE then some stTARGET_RESET else none

/-- The status of a completion to the host (R374). -/
def cplStatus (st : Nat) : Nat := if st = stOK then 0 else if st = stUNMAPPED then 1 else 4

/-- TLPs whose packets have all completed are over; a read gets its completion (R374). -/
def tlpsDone (s : State) : State :=
  let spent := s.pcie.tlps.filter fun t => t.parts.all fun p => p.status.isSome
  spent.foldl (fun s t =>
    let bad := t.parts.find? fun p => p.status != some stOK
    let s := s.modPcie fun p => { p with tlps := p.tlps.erase t }
    let st := match bad with | some p => p.status.getD 0 | none => stOK
    let s := if st = stOK then s else s.aer (if st = stUNMAPPED then .unsupportedRequest else .completerAbort)
    if t.wr then s else s.emit (.pcie (cplStatus st) (if st = stOK then t.parts.flatMap (·.got) else []))) s

/-- A packet of a TLP completes. -/
def tlpPart (s : State) (id i st : Nat) (data : List Byte) : State :=
  let a := ((s.pcie.tlps.find? fun t => t.id == id).bind fun t => t.parts[i]?).map (·.addr)
  let s := s.modPcie fun p => { p with tlps := p.tlps.map fun t =>
    if t.id = id then { t with parts := t.parts.mapIdx fun k x => if k = i then { x with status := some st, got := data } else x } else t }
  match a with
  | some a => if st = stOK then s else s.hostErr st a
  | none => s

/-- A TLP may be sent (R373): a write behind every earlier write that overlaps it, a read behind every earlier write. -/
def tlpFree (s : State) (t : Tlp) : Bool :=
  !s.pcie.tlps.any fun e => e.wr && decide (e.id < t.id) && (!t.wr || (decide (e.lo < t.hi) && decide (t.lo < e.hi)))

/-- EP 176 sends what may be sent (R372, R373). -/
def pciePump (s : State) : State :=
  let s := s.pcie.tlps.foldl (fun s t =>
    if !s.tlpFree t then s
    else
      (List.range t.parts.length).foldl (fun s i =>
        match t.parts[i]? with
        | none => s
        | some p =>
          if p.tag.isSome || p.status.isSome then s
          else
            match s.inboundStop p.addr with
            | some st => s.tlpPart t.id i st []
            | none =>
              let tag := s.freeTag epPcieIn
              let s := s.modPcie fun c => { c with tlps := c.tlps.map fun x =>
                if x.id = t.id then { x with parts := x.parts.mapIdx fun k y => if k = i then { y with tag := some tag } else y } else x }
              s.request { op := if t.wr then 1 else 0, src := Fin.ofNat 384 epPcieIn, smod := BitVec.ofNat 12 s.modId, tag := BitVec.ofNat 12 tag, cls := 5, epoch := false,
                          dmod := BitVec.ofNat 12 s.modId, addr := BitVec.ofNat 48 p.addr, size := p.size, data := p.data, mcast := none }) s) s
  s.tlpsDone

/-- A completion for EP 176, where it has an owner; one for a request that a function reset left behind is discarded (R370). -/
def pcieResponse (s : State) (tag st : Nat) (data : List Byte) : Option State :=
  if s.pcie.stale.contains tag then some (s.modPcie fun p => { p with stale := p.stale.filter (· != tag) })
  else
    s.pcie.tlps.findSome? fun t =>
      ((List.range t.parts.length).find? fun i => match t.parts[i]? with | some p => p.tag == some tag && p.status.isNone | none => false).map fun i =>
        ((s.tlpPart t.id i st data).tlpsDone).pciePump

/-- The packets of a range (R372): no packet crosses a 4 KiB boundary, and the unaligned bytes at its ends travel in their own. -/
def tlpParts (a len : Nat) : List (Nat × Nat) :=
  let h := min len ((8 - a % 8) % 8)
  let t := (len - h) % 8
  (if h = 0 then [] else [(a, h)]) ++ pieces 4096 (a + h) (len - h - t) ++ (if t = 0 then [] else [(a + len - t, t)])

/-- The runs of enabled bytes of a write (R372): offset and bytes. -/
def runsFrom (o : Nat) : List (Byte × Bool) → List (Nat × List Byte) → List (Nat × List Byte)
  | [], acc => acc
  | (b, e) :: t, acc =>
    if !e then runsFrom (o + 1) t acc
    else
      match acc.getLast? with
      | some l => if l.1 + l.2.length = o then runsFrom (o + 1) t (acc.dropLast ++ [(l.1, l.2 ++ [b])]) else runsFrom (o + 1) t (acc ++ [(o, [b])])
      | none => runsFrom (o + 1) t [(o, [b])]

/-- An inbound TLP is translated and queued (R371, R372, R381). -/
def tlpIn (s : State) (wr : Bool) (ofs len : Nat) (parts : List (Nat × List Byte × Nat)) : State :=
  let base := s.get Reg.GLOBAL.BAR2_BASE.BASE * 2 ^ 30
  let ps := parts.flatMap fun r => (tlpParts (base + r.1) r.2.2).map fun c => TlpPart.mk c.1 c.2 ((r.2.1.drop (c.1 - base - r.1)).take c.2) none none []
  let t : Tlp := ⟨s.pcie.seq, wr, base + ofs, base + ofs + len, ps⟩
  (s.modPcie fun p => { p with seq := p.seq + 1, tlps := p.tlps ++ [t] }).pciePump

/-- A compute reset begins: inbound packets on their way complete with TARGET_RESET (R374, R465). -/
def pcieCompute (s : State) : State :=
  let l := s.pcie.tlps.flatMap fun t => (List.range t.parts.length).filterMap fun i =>
    match t.parts[i]? with | some p => if p.status.isNone then some (t.id, i) else none | none => none
  (l.foldl (fun s x => s.tlpPart x.1 x.2 stTARGET_RESET []) (s.modPcie fun p => { p with stale := [], outb := [] })).tlpsDone

/-- The PCIe function state is cleared (R370): configuration, MSI-X, the send windows, host requests in flight, whose completions will be discarded. -/
def pcieReset (s : State) (training : Bool) : State :=
  let left := s.pcie.tlps.flatMap fun t => t.parts.filterMap fun p => if p.status.isNone then p.tag else none
  let s := s.clearRegs fun off => decide (0x8010000 ≤ off)
  { s with pcie := { PcieS.reset with training := training, seq := s.pcie.seq, outb := s.pcie.outb, stale := s.pcie.stale ++ left },
           msixPending := [], qnet := { s.qnet with win := [], winTx := [] } }

/-- PCIE_STAT while no link is up. -/
def pcieDown (s : State) : State :=
  (((s.put Reg.GLOBAL.PCIE_STAT.DL_UP 0).put Reg.GLOBAL.PCIE_STAT.FLIT 0).put Reg.GLOBAL.PCIE_STAT.WIDTH 0).put Reg.GLOBAL.PCIE_STAT.SPEED 0

/-! Accesses to host memory, which EP 177 carries (R380). -/

/-- Outbound reads get tags while fewer than 512 are outstanding (R369). -/
def outTags (s : State) : State :=
  (List.range s.pcie.outb.length).foldl (fun s i =>
    match s.pcie.outb[i]? with
    | none => s
    | some o =>
      if o.tag.isSome || o.got.isSome then s
      else
        match (List.range 512).find? fun t => !s.pcie.outb.any fun x => x.tag == some t with
        | none => s
        | some t =>
          (s.modPcie fun p => { p with outb := p.outb.set i { o with tag := some t } }).emit (.hostRead o.addr o.len t)) s

/-- A B-net request at EP 177 (R380): a write is posted in pieces of the Max Payload Size, a read goes in pieces of the Max Read Request Size and completes with the last of them (none); without Bus Master Enable either ends with HOST_ERR. -/
def hostServe (s : State) (op ep key a size : Nat) (data : List Byte) : Option (Nat × List Byte) × State :=
  if !s.pcie.bme then (some (mvHOST_ERR, []), s)
  else if op = 1 then (some (stOK, []), (pieces s.pcie.mps a size).foldl (fun s c => s.emit (.hostWrite c.1 ((data.drop (c.1 - a)).take c.2))) s)
  else (none, (s.modPcie fun p => { p with outb := p.outb ++ (pieces s.pcie.mrrs a size).map fun c => ⟨ep, key, c.1, c.2, none, none⟩ }).outTags)

/-- The outbound reads of a B-net request are over, and it completes (R355, R380). -/
def outDone (s : State) (o : OutRead) (st : Nat) (data : List Byte) : State :=
  ((s.modPcie fun p => { p with outb := p.outb.filter fun x => !(x.ep == o.ep && x.key == o.key) }).reply epPcieOut s.modId o.ep o.key false false st data none).outTags

/-- An outbound read fails: its B-net packet ends with HOST_ERR (R355, R380). -/
def outFail (s : State) (o : OutRead) : State := s.outDone o mvHOST_ERR []

end State

/-! Commands. -/

/-- PERST_DEASSERT (R370): link training begins; the function state is clear. -/
def execPerstDeassert (s : State) : Res := if s.power.input then .next ((s.pcieReset true).pcieDown) else .next s

/-- HOT_RESET (R370). -/
def execHotReset (s : State) : Res := .next (s.pcieReset s.pcie.training)

/-- FUNCTION_LEVEL_RESET (R370). -/
def execFunctionLevelReset (s : State) : Res := .next (s.pcieReset s.pcie.training)

/-- PCIE_LINK_DOWN (R370): the link is down and trains again. -/
def execPcieLinkDown (s : State) : Res := .next ((s.pcieReset true).pcieDown)

/-- PCIE_LINK_TRAINED (R369): training ends at a speed and width that the module supports. -/
def execPcieLinkTrained (speed : Fin 8) (width : Fin 32) (flit : Bool) (s : State) : Res :=
  if !s.pcie.training ∨ speed.val = 0 ∨ 6 < speed.val ∨ !([1, 2, 4, 8, 16].contains width.val) then .next s
  else
    .next ((((s.modPcie fun p => { p with training := false }).put Reg.GLOBAL.PCIE_STAT.DL_UP 1).put Reg.GLOBAL.PCIE_STAT.FLIT (if flit then 1 else 0)).put
      Reg.GLOBAL.PCIE_STAT.WIDTH width.val |>.put Reg.GLOBAL.PCIE_STAT.SPEED speed.val)

/-- BAR2_TLP (R371 to R374, R379): an inbound TLP: outside the BAR or in D3hot it is an Unsupported Request; a poisoned write is not performed; else its packets are queued behind the writes they must follow. -/
def execBar2Tlp (tlp : Bar2Tlp) (s : State) : Res :=
  match tlp with
  | .rd ofs len =>
    if s.pcie.d3 || decide (2 ^ s.pcie.bar2 < ofs + len) then .next ((s.aer .unsupportedRequest).emit (.pcie 1 []))
    else .next (s.tlpIn false ofs len [(ofs, [], len)])
  | .wr ofs data poisoned =>
    if s.pcie.d3 || decide (2 ^ s.pcie.bar2 < ofs + data.length) then .next (s.aer .unsupportedRequest)
    else if poisoned then .next ((s.bump Reg.GLOBAL.POISON_CNT.CNT).aer .poisonedTlp)
    else .next (s.tlpIn true ofs data.length ((State.runsFrom ofs data []).map fun r => (r.1, r.2, r.2.length)))

/-- MSIX_SEND (R378): a pending vector is sent and its pending bit cleared while nothing masks it. -/
def execMsixSend (vec : Fin 2048) (s : State) : Res :=
  let masked := (getAt 1 (4 * vec.val + 3) s.pcie.table).getLsbD 0
  if s.msixPending.contains vec.val && s.pcie.bme && s.pcie.msixEn && !s.pcie.fmask && !masked then
    .next ({ s with msixPending := s.msixPending.filter (· != vec.val) }.emit (.msix vec.val))
  else .next s

/-- HOST_COMPLETION (R355, R379, R380): a completion for an outbound read: the packet whose data are all there goes on; an error or poisoned data end it. -/
def execHostCompletion (tag : BitVec 10) (c : HostCpl) (s : State) : Res :=
  match s.pcie.outb.find? fun o => o.tag == some tag.toNat && o.got.isNone with
  | none => .next (s.aer .unexpectedCompletion)
  | some o =>
    if !c.ok || c.poisoned then .next (s.outFail o)
    else
      let data := c.data.take o.len ++ List.replicate (o.len - c.data.length) 0
      let s := s.modPcie fun p => { p with outb := p.outb.map fun x => if x = o then { o with got := some data, tag := none } else x }
      let mine := s.pcie.outb.filter fun x => x.ep == o.ep && x.key == o.key
      .next (if mine.all fun x => x.got.isSome then s.outDone o stOK (mine.flatMap fun x => x.got.getD []) else s.outTags)

/-- COMPLETION_TIMEOUT (R379, R380). -/
def execCompletionTimeout (tag : BitVec 10) (s : State) : Res :=
  match s.pcie.outb.find? fun o => o.tag == some tag.toNat && o.got.isNone with
  | none => .next s
  | some o => .next ((s.aer .completionTimeout).outFail o)

/-- CONFIGURATION_REQUEST (R369, R371, R378, R380): the host sets a field of the function's state; a value that the function does not support changes nothing. -/
def execConfigurationRequest (req : CfgReq) (s : State) : Res :=
  match req with
  | .busMaster on =>
    let s := s.modPcie fun p => { p with bme := on }
    .next (if on then s else (s.pcie.outb.filter fun o => o.tag.isNone && o.got.isNone).foldl State.outFail s)
  | .msixEnable on => .next (s.modPcie fun p => { p with msixEn := on })
  | .functionMask on => .next (s.modPcie fun p => { p with fmask := on })
  | .powerState d3 => .next (s.modPcie fun p => { p with d3 := d3 })
  | .bar2Size n => .next (if 30 ≤ n ∧ n ≤ 38 then s.modPcie fun p => { p with bar2 := n } else s)
  | .maxPayload n => .next (if [128, 256, 512].contains n then s.modPcie fun p => { p with mps := n } else s)
  | .maxReadRequest n => .next (if [128, 256, 512, 1024, 2048, 4096].contains n then s.modPcie fun p => { p with mrrs := n } else s)
  | .clearError e => .next (s.modPcie fun p => { p with aer := p.aer.filter (· != e) })
  | .msixEntry vec w v => .next (if s.pcie.d3 then s else s.modPcie fun p => { p with table := setAt (if w.val = 3 then 1 else 0) (4 * vec.val + w.val) v p.table })
  | .bar4Other wr =>
    if s.pcie.d3 then .next (s.aer .unsupportedRequest)
    else if wr then .next (s.bump Reg.GLOBAL.REG_UNMAPPED_CNT.CNT) else .next (s.emit (.pcie 0 (List.replicate 4 0)))
  | .identity =>
    let sub := [0, 0x0300, 0x0450, 0x0600].getD (s.get Reg.GLOBAL.MOD_ID.GRADE) 0
    .next (s.emit (.pcie 0 (toBytes 2 Config.vendorId.toNat ++ toBytes 2 0x9200 ++ toBytes 1 0xB0 ++ toBytes 3 0x120000 ++ toBytes 2 sub)))

/-! The crown's MCTP control messages (R383): answered once the crown reports READY; their contents are the MCTP standard's (log entry 28). -/

/-- SET_ENDPOINT_ID (R383): the crown takes the endpoint ID; the null and the broadcast ID are invalid data. -/
def execSetEndpointId (eid : BitVec 8) (s : State) : Res :=
  if !s.isReady pgCROWN then .next s
  else if eid = 0 ∨ eid = 255 then .next (s.emit (.mctp [2, 0, BitVec.ofNat 8 s.crown.mctpEid, 0]))
  else .next ({ s with crown := { s.crown with mctpEid := eid.toNat } }.emit (.mctp [0, 0, eid, 0]))

/-- GET_ENDPOINT_ID (R383). -/
def execGetEndpointId (s : State) : Res :=
  if s.isReady pgCROWN then .next (s.emit (.mctp [0, BitVec.ofNat 8 s.crown.mctpEid, 0, 0])) else .next s

/-- GET_MCTP_VERSION_SUPPORT (R383). -/
def execGetMctpVersionSupport (s : State) : Res :=
  if s.isReady pgCROWN then .next (s.emit (.mctp Config.mctpVersions)) else .next s

/-- GET_MESSAGE_TYPE_SUPPORT (R383). -/
def execGetMessageTypeSupport (s : State) : Res :=
  if s.isReady pgCROWN then .next (s.emit (.mctp Config.mctpTypes)) else .next s

end Sys2Proof.Machine
end

