-- ==== Sys2Proof/Machine/Streams.lean ====
section
/-! DEFINITION. Stream ports and stream contexts (R385 to R399, R491). -/
namespace Sys2Proof.Machine
namespace State

/-! Ports. -/

/-- A field of a standard's header in network byte order, its high byte first (R12). -/
def netBytes (k v : Nat) : List Byte := (toBytes k v).reverse

/-- An increment of an RX counter that is a drop (R397). -/
def rxDrop (s : State) (f : Field) (p : Nat) : State := (s.bump f).cause (spPg p) 6

/-- The port's IPv6 address. -/
def spV6 (s : State) (p : Nat) : Nat := (List.range 4).foldl (fun n w => n + s.get (Reg.SP.IPV6.ADDR p w) * 2 ^ (32 * w)) 0

/-- An address of the port's own; 0 turns the protocol off. -/
def spAddr (s : State) (p : Nat) (v6 : Bool) (a : Nat) : Bool := a != 0 && a == (if v6 then s.spV6 p else s.get (Reg.SP.IPV4.ADDR p))

/-- The port receives: its link is UP. -/
def spUp (s : State) (p : Nat) : Bool := s.get (Reg.SP.SP_STAT.LINK p) == 2

/-- The port carries stream frames: its link is UP, it is enabled, and no compute reset is in progress (R387, R396). -/
def spOn (s : State) (p : Nat) : Bool := s.spUp p && s.isEnabled (spPg p) && !s.flag Reg.RESET.RST_STAT.COMP_ACTIVE

/-! Contexts. Context c is entry c % 32 of page c / 32. -/

/-- The peer's address of a context: IPv4 in the first word. -/
def ctxPeer (s : State) (c : Nat) : Nat :=
  let k := c / 32
  let i := c % 32
  if s.flag (Reg.SCTX.CTX_W0.IPV6 k i) then
    s.get (Reg.SCTX.CTX_W2.PEER_IP k i) + s.get (Reg.SCTX.CTX_W3.PEER_IP k i) * 2 ^ 32 + s.get (Reg.SCTX.CTX_W4.PEER_IP k i) * 2 ^ 64 + s.get (Reg.SCTX.CTX_W5.PEER_IP k i) * 2 ^ 96
  else s.get (Reg.SCTX.CTX_W2.PEER_IP k i)

/-- A datagram belongs to context c (R386, R396, R398). -/
def ctxMatch (s : State) (f : InFrame) (c : Nat) : Bool :=
  let k := c / 32
  let i := c % 32
  s.ctxOn c && !s.flag (Reg.SCTX.CTX_W0.DIR k i) && s.get (Reg.SCTX.CTX_W0.PORT k i) == f.port.val && s.flag (Reg.SCTX.CTX_W0.IPV6 k i) == f.v6
    && s.get (Reg.SCTX.CTX_W0.UDP_DPORT k i) == f.dport.toNat
    && (!s.flag (Reg.SCTX.CTX_W0.MATCH_SRC k i) || (s.get (Reg.SCTX.CTX_W1.UDP_SPORT k i) == f.sport.toNat && s.ctxPeer c == f.sip.toNat))

/-- The landing ring's base. -/
def ctxBase (s : State) (c : Nat) : Nat := s.get (Reg.SCTX.CTX_W10.BUF_BASE (c / 32) (c % 32)) + s.get (Reg.SCTX.CTX_W11.BUF_BASE (c / 32) (c % 32)) * 2 ^ 32

/-- The endpoint of a stream port (R237). -/
def epSp (p : Nat) : Nat := if p = 0 then 182 else 372

end State

/-- The fields of a stream frame's header (R387). -/
def frByte (f : InFrame) (i : Nat) : Nat := (f.payload.getD i 0).toNat
def frHalf (f : InFrame) (i : Nat) : Nat := ofBytes ((f.payload.drop i).take 2)
def frWord (f : InFrame) (i : Nat) : Nat := ofBytes ((f.payload.drop i).take 4)

namespace State

/-- The payload length that R389 asks of a frame for a context's group, and its world range. -/
def ctxFits (s : State) (f : InFrame) (c : Nat) : Bool :=
  let k := c / 32
  let i := c % 32
  let g := s.get (Reg.SCTX.CTX_W8.GROUP k i)
  let enc := s.get (Reg.STEP.IGRP_W0.ENC g)
  let n := f.payload.length - 24
  let count := frHalf f 14
  let first := frHalf f 12
  let nchan := s.get (Reg.STEP.IGRP_W0.NCHAN g)
  let lo := s.get (Reg.SCTX.CTX_W8.W_FIRST k i)
  let inRange := decide (lo ≤ first) && decide (first + count ≤ lo + s.get (Reg.SCTX.CTX_W9.W_COUNT k i))
  if enc = 0 then n == 8 * count else if enc = 1 then n == 2 * nchan * count && inRange else if enc = 2 then n == 4 * nchan * count && inRange else false

/-- Slots whose payload has been written are published, in order of arrival (R390). -/
def publish (c : Nat) : List (LandSlot × List (Nat × Nat)) → State → State
  | (e, []) :: t, s => publish c t (s.modCtx c fun x => { x with slots := x.slots ++ [e], writing := t })
  | _, s => s.freeStaleOf c

/-- A write of a stream port has completed. -/
def landWritten (s : State) (ep tag : Nat) : State :=
  (List.range 128).foldl (fun s c =>
    if (s.ctxOf c).writing.any fun w => w.2.contains (ep, tag) then
      let l := (s.ctxOf c).writing.map fun w => (w.1, w.2.filter (· != (ep, tag)))
      publish c l (s.modCtx c fun x => { x with writing := l })
    else s) s

/-- A port writes a payload into its slot and publishes the slot (R390). The write takes no time of its own here; where it must cross to a half that does not run, it goes as packets, which the cuff holds, and later slots follow it (R273;
log entry 29). -/
def landSlot (s : State) (c ep a : Nat) (e : LandSlot) (data : List Byte) : State :=
  if (s.ctxOf c).writing.isEmpty && (s.farLines ep [(a, data.length)]).isEmpty then
    (s.writeAny ep a data).2.modCtx c fun x => { x with slots := x.slots ++ [e] }
  else
    let s := s.modCtx c fun x => { x with writing := x.writing ++ [(e, [])] }
    (pieces 4096 a data.length).foldl (fun s p =>
      let tag := s.freeTag ep
      let s := s.modCtx c fun x => { x with writing := x.writing.dropLast ++ (x.writing.getLast?.map fun w => (w.1, w.2 ++ [(ep, tag)])).toList }
      s.request { op := 1, src := Fin.ofNat 384 ep, smod := BitVec.ofNat 12 s.modId, tag := BitVec.ofNat 12 tag, cls := 5, epoch := false, dmod := BitVec.ofNat 12 s.modId,
                  addr := BitVec.ofNat 48 p.1, size := p.2, data := (data.drop (p.1 - a)).take p.2, mcast := none }) s

/-- A frame that has passed the port's checks reaches its context (R390, R393). -/
def ctxAccept (s : State) (f : InFrame) (c : Nat) : State :=
  let k := c / 32
  let i := c % 32
  let e := s.get (Reg.SCTX.CTX_W14.SEQ_NEXT k i)
  let seq := frWord f 4
  if seq ≠ e ∧ !before32 e seq then s.ctxCount (Reg.SCTX.CTX_W17.SEQ_OLD_CNT k i) c 1
  else
    let s := if seq = e then s else s.ctxCount (Reg.SCTX.CTX_W16.SEQ_GAP_CNT k i) c (low 32 (2 ^ 32 + seq - e))
    let s := s.put (Reg.SCTX.CTX_W14.SEQ_NEXT k i) (low 32 (seq + 1))
    let tail := s.get (Reg.SCTX.CTX_W21.TAIL k i)
    if s.ringSlots c ≤ (s.ctxOf c).slots.length + (s.ctxOf c).writing.length then s.ctxCount (Reg.SCTX.CTX_W19.RING_FULL_CNT k i) c 1
    else
      let n := f.payload.length - 24
      let slot : LandSlot := ⟨tail, frWord f 8, (frByte f 3).testBit 0, s.get (Reg.SCTX.CTX_W8.GROUP k i), frHalf f 14, frHalf f 12, n⟩
      let s := (s.landSlot c (epSp f.port.val) (low 48 (s.ctxBase c + 9216 * tail)) slot ((f.payload.drop 20).take n)).put (Reg.SCTX.CTX_W21.TAIL k i) ((tail + 1) % s.ringSlots c)
      ((s.bump (Reg.SCTX.CTX_W15.FRAMES k i)).add (Reg.SP.RX_FRAMES.CNT f.port.val) 1).freeStaleOf c

end State

/-- INGEST_FRAME (R385 to R393, R395, R396): a UDP datagram arrives. It must be for the port, find a context, and pass the checks of version, length, CRC and sequence; its payload then lands in the ring. -/
def execIngestFrame (f : InFrame) (s : State) : Res :=
  let p := f.port.val
  if !s.spUp p then .next s
  else if f.mac = 1 then .next (s.rxDrop (Reg.SP.RX_FCS_CNT.CNT p) p)
  else if f.mac = 2 then .next (s.rxDrop (Reg.SP.RX_OVF_CNT.CNT p) p)
  else if f.dmac.toNat ≠ s.get (Reg.SP.MAC.ADDR p) ∨ !s.spAddr p f.v6 f.dip.toNat then .next (s.bump (Reg.SP.RX_FILTER_CNT.CNT p))
  else if s.flag Reg.RESET.RST_STAT.COMP_ACTIVE then .next (s.rxDrop (Reg.SP.RX_RESET_CNT.CNT p) p)
  else if !s.isEnabled (spPg p) then .next s
  else
    match (List.range 128).find? (s.ctxMatch f) with
    | none => .next (s.rxDrop (Reg.SP.RX_NOCTX_CNT.CNT p) p)
    | some c =>
      let len := f.payload.length
      if len < 24 then .next (s.rxDrop (Reg.SP.RX_LEN_CNT.CNT p) p)
      else if frByte f 1 ≠ 1 ∨ frByte f 2 ≠ 1 then .next (s.rxDrop (Reg.SP.RX_VER_CNT.CNT p) p)
      else if crc32c (f.payload.take (len - 4)) ≠ frWord f (len - 4) then .next (s.rxDrop (Reg.SP.RX_CRC_CNT.CNT p) p)
      else if 2 ≤ frByte f 3 ∨ frHalf f 16 ≠ 0 ∨ frHalf f 18 ≠ 0 ∨ !s.ctxFits f c then .next (s.rxDrop (Reg.SP.RX_LEN_CNT.CNT p) p)
      else .next (s.ctxAccept f c)

namespace State

/-- The responder answers for the port's own address (R385): a record of the answer, its kind 1 for ARP and 2 for a Neighbor Advertisement. -/
def addrReply (s : State) (p : Nat) (v6 : Bool) (q : AddrQuery) : State :=
  if !s.spUp p then s
  else if s.spAddr p v6 q.target.toNat then
    s.emit (.frame p (if v6 then 2 else 1) (netBytes 6 q.smac.toNat ++ netBytes 6 (s.get (Reg.SP.MAC.ADDR p)) ++ netBytes (if v6 then 16 else 4) q.sip.toNat ++ netBytes (if v6 then 16 else 4) q.target.toNat))
  else s.bump (Reg.SP.RX_FILTER_CNT.CNT p)

end State

/-- ARP_REQUEST (R385, R386). -/
def execArpRequest (p : Fin 2) (q : AddrQuery) (s : State) : Res := .next (s.addrReply p.val false q)

/-- NEIGHBOR_SOLICITATION (R385, R386). -/
def execNeighborSolicitation (p : Fin 2) (q : AddrQuery) (s : State) : Res := .next (s.addrReply p.val true q)

/-- PAUSE_FRAME (R385): discarded and counted. -/
def execPauseFrame (p : Fin 2) (s : State) : Res := if s.spUp p.val then .next (s.bump (Reg.SP.RX_PAUSE_CNT.CNT p.val)) else .next s

/-- OTHER_FRAME (R385, R386): discarded and counted. -/
def execOtherFrame (p : Fin 2) (s : State) : Res := if s.spUp p.val then .next (s.bump (Reg.SP.RX_FILTER_CNT.CNT p.val)) else .next s

namespace State

/-! Egress (R394, R491, R498). -/

/-- A COUNT frame is suppressed: the module is the standby twin, or an agreed handover leaves its step to the other (R491, R498). -/
def suppressed (s : State) (step : Nat) : Bool :=
  match s.twin.handover with
  | some (sender, true) =>
    let late := before32 (s.get Reg.TWIN.HANDOVER_STEP.STEP) step
    if sender then late else !late
  | _ => s.role == 3

/-- One COUNT frame: n counters from the first one of a tile's window. -/
def sendCount (s : State) (c n step first : Nat) (fin : Bool) (data : List Byte) : State :=
  let k := c / 32
  let i := c % 32
  let p := s.get (Reg.SCTX.CTX_W0.PORT k i)
  let seq := s.get (Reg.SCTX.CTX_W14.SEQ_NEXT k i)
  let body := toBytes 1 0 ++ toBytes 1 1 ++ toBytes 1 2 ++ toBytes 1 (if fin then 1 else 0) ++ toBytes 4 seq ++ toBytes 4 step ++ toBytes 2 first ++ toBytes 2 (data.length / 2)
    ++ toBytes 2 n ++ toBytes 2 0 ++ data
  let v6 := s.flag (Reg.SCTX.CTX_W0.IPV6 k i)
  let head := netBytes 6 (s.get (Reg.SCTX.CTX_W6.PEER_MAC k i) + s.get (Reg.SCTX.CTX_W7.PEER_MAC k i) * 2 ^ 32) ++ netBytes 6 (s.get (Reg.SP.MAC.ADDR p))
    ++ netBytes (if v6 then 16 else 4) (s.ctxPeer c) ++ netBytes (if v6 then 16 else 4) (if v6 then s.spV6 p else s.get (Reg.SP.IPV4.ADDR p)) ++ netBytes 2 (s.get (Reg.SCTX.CTX_W1.UDP_SPORT k i))
    ++ netBytes 2 (s.get (Reg.SCTX.CTX_W0.UDP_DPORT k i))
  let s := (s.put (Reg.SCTX.CTX_W14.SEQ_NEXT k i) (low 32 (seq + 1))).bump (Reg.SCTX.CTX_W15.FRAMES k i)
  if s.suppressed step then s.bump Reg.TWIN.SUPPR_CNT.CNT
  else (s.add (Reg.SP.TX_FRAMES.CNT p) 1).emit (.frame p 3 (head ++ body ++ toBytes 4 (crc32c body)))

end State

/-- The tile of an egress context whose window is sent next (R394): in ascending order from the last one sent, the first with its RO_READY bit set. -/
def State.egressNext (s : State) (c first last g : Nat) : Option Nat :=
  ((List.range (last + 1 - first)).map fun j => first + ((s.ctxOf c).cursor + j) % (last + 1 - first)).find? fun n =>
    s.domOn n && (s.get (Reg.NEURON.RO_READY.READY n)).testBit g

/-- The windows of a tile are read and sent as frames, and the tile's RO_READY bit is cleared; a read that fails sends nothing and leaves the bit set (R394). -/
def State.sendWindow (s : State) (c n last g : Nat) : State :=
  let k := c / 32
  let i := c % 32
  let total := s.get (Reg.NEURON.RO_GRP_W1.NEU n g) * s.get (Reg.NEURON.RO_GRP_W2.W_COUNT n g)
  let r := s.readAny (State.epSp (s.get (Reg.SCTX.CTX_W0.PORT k i))) (n * 0x400000 + s.get (Reg.NEURON.RO_GRP_W3.DEST n g)) (2 * total)
  let first := s.get (Reg.SCTX.CTX_W8.T_FIRST k i)
  let s := r.2.2.modCtx c fun x => { x with cursor := if n < last then n + 1 - first else 0 }
  if r.1 ≠ stOK then s.ctxCount (Reg.SCTX.CTX_W19.RING_FULL_CNT k i) c 1
  else
    let step := low 32 (getAt 0 g (s.tile n).evt.roStep)
    let per := max 1 (s.get (Reg.SCTX.CTX_W9.MAX_PAYLOAD k i) / 2)
    let s := (List.range ((total + per - 1) / per)).foldl (fun s f =>
      s.sendCount c n step (f * per) (n == last && decide (total ≤ (f + 1) * per)) ((r.2.1.drop (2 * f * per)).take (2 * per))) s
    let ready := Reg.NEURON.RO_READY.READY n
    s.put ready (setBit (s.get ready) g false)

/-- COUNT_FRAME (R394, R491): the counters of the context's next closed window are read and sent; while they lie in a half that does not run, the read waits in the cuff (R273). -/
def execCountFrame (c : Fin 128) (s : State) : Res :=
  let c := c.val
  let k := c / 32
  let i := c % 32
  let p := s.get (Reg.SCTX.CTX_W0.PORT k i)
  if !s.ctxOn c || !s.flag (Reg.SCTX.CTX_W0.DIR k i) || !s.spOn p then .next s
  else
    let first := s.get (Reg.SCTX.CTX_W8.T_FIRST k i)
    let last := s.get (Reg.SCTX.CTX_W8.W_FIRST k i) % 256
    let g := s.get (Reg.SCTX.CTX_W8.GROUP k i) % 16
    match s.egressNext c first last g with
    | none => .next s
    | some n =>
      let total := s.get (Reg.NEURON.RO_GRP_W1.NEU n g) * s.get (Reg.NEURON.RO_GRP_W2.W_COUNT n g)
      .next (s.guard (State.epSp p) 10 [(n * 0x400000 + s.get (Reg.NEURON.RO_GRP_W3.DEST n g), 2 * total)] fun s => s.sendWindow c n last g)

/-- GATE_TMO (R392): a gated INGEST opens without the context's END frame. -/
def execGateTmo (c : Fin 128) (s : State) : Res :=
  let c := c.val
  if s.phase ≠ 1 ∨ !s.gateShut c ∨ s.get (Reg.SCTX.CTX_W12.GATE_TMO (c / 32) (c % 32)) = 0 then .next s
  else .next ((s.modCtx c fun x => { x with opened := true }).ctxCount (Reg.SCTX.CTX_W20.GATE_TMO_CNT (c / 32) (c % 32)) c 1)

namespace State

/-- What R398 finds wrong with a context whose first word would be v: a reason code, if any. -/
def ctxFault (s : State) (c v : Nat) : Option Nat :=
  let k := c / 32
  let i := c % 32
  let eg := v.testBit 30
  let w := s.get (Reg.SCTX.CTX_W8.W_FIRST k i)
  let pay := s.get (Reg.SCTX.CTX_W9.MAX_PAYLOAD k i)
  let log := s.get (Reg.SCTX.CTX_W12.BUF_LOG2 k i)
  let base := s.ctxBase c
  let same := (List.range 128).any fun d => d != c && s.flag (Reg.SCTX.CTX_W0.EN (d / 32) (d % 32)) && s.get (Reg.SCTX.CTX_W0.PORT (d / 32) (d % 32)) == bits v 28 28
    && s.flag (Reg.SCTX.CTX_W0.DIR (d / 32) (d % 32)) == eg && s.get (Reg.SCTX.CTX_W0.UDP_DPORT (d / 32) (d % 32)) == low 16 v
  if eg then
    if w % 256 < s.get (Reg.SCTX.CTX_W8.T_FIRST k i) ∨ pay < 64 ∨ 9126 < pay ∨ pay % 2 = 1 then some rcRange
    else if same then some rcOverlap else none
  else if 16384 < w + s.get (Reg.SCTX.CTX_W9.W_COUNT k i) ∨ log < 2 ∨ 12 < log then some rcRange
  else if base % 64 ≠ 0 then some rcAlign
  else if !populated base (9216 * 2 ^ log) ∨ s.get (Reg.STEP.IGRP_W0.ENC (s.get (Reg.SCTX.CTX_W8.GROUP k i))) = 3 then some rcRange
  else if same then some rcOverlap else none

/-- The first word of a context takes a value; a rising EN loads the sequence number (R393, R394, R396). -/
def ctxWord (s : State) (c v : Nat) : State :=
  let k := c / 32
  let i := c % 32
  let rise := v.testBit 31 && !s.flag (Reg.SCTX.CTX_W0.EN k i)
  let s := ((((s.put (Reg.SCTX.CTX_W0.EN k i) (bits v 31 31)).put (Reg.SCTX.CTX_W0.DIR k i) (bits v 30 30)).put (Reg.SCTX.CTX_W0.GATE k i) (bits v 29 29)).put
    (Reg.SCTX.CTX_W0.PORT k i) (bits v 28 28)).put (Reg.SCTX.CTX_W0.IPV6 k i) (bits v 27 27)
  let s := (s.put (Reg.SCTX.CTX_W0.MATCH_SRC k i) (bits v 26 26)).put (Reg.SCTX.CTX_W0.UDP_DPORT k i) (low 16 v)
  if rise then (s.put (Reg.SCTX.CTX_W14.SEQ_NEXT k i) (s.get (Reg.SCTX.CTX_W13.SEQ_INIT k i))).modCtx c fun x => { x with cursor := 0 } else s

end State

/-- CONTEXT_ENABLE (R398): a write of a context's first word; one that sets EN is checked at once. -/
def actContextEnable (src : Source) (c : Fin 128) (v : Word32) (s : State) : Res :=
  let _ := src
  let k := c.val / 32
  let i := c.val % 32
  if !s.pageUp (pageAt (sctxPg k)) then .next s
  else if v.toNat.testBit 31 && !s.flag (Reg.SCTX.CTX_W0.EN k i) then
    match s.ctxFault c.val v.toNat with
    | some code => .next (s.refuse (sctxPg k) code (0x200 + i * 0x60))
    | none => .next (s.ctxWord c.val v.toNat)
  else .next (s.ctxWord c.val v.toNat)

/-- STREAM_LINK_UP (R385, R397): the link comes up over CR4 or SR4; an unsupported module stays down. -/
def execStreamLinkUp (p : Fin 2) (media : Fin 4) (s : State) : Res :=
  let s := s.put (Reg.SP.SP_STAT.MEDIA p.val) media.val
  if (media = 1 ∨ media = 2) ∧ !s.spUp p.val then .next ((s.put (Reg.SP.SP_STAT.LINK p.val) 2).cause (spPg p.val) 4) else .next s

/-- STREAM_LINK_DOWN (R397): the link is lost and trains again. -/
def execStreamLinkDown (p : Fin 2) (s : State) : Res :=
  if s.spUp p.val then .next ((s.put (Reg.SP.SP_STAT.LINK p.val) 1).causeErr (spPg p.val) 5) else .next s

end Sys2Proof.Machine
end

