-- ==== Sys2Proof/Machine/Twin.lean ====
section
/-! DEFINITION. The twin controller (R489 to R500, R511). -/
namespace Sys2Proof.Machine
namespace State

/-- Ports that lead to the twin and are UP: FL7, and ALT_PORT while ALT_EN is set (R492). -/
def twinPorts (s : State) : List Nat :=
  ([7] ++ (if s.flag Reg.TWIN.TWIN_CFG.ALT_EN && s.get Reg.TWIN.TWIN_CFG.ALT_PORT != 7 then [s.get Reg.TWIN.TWIN_CFG.ALT_PORT] else [])).filter s.portUp

/-- The bytes of a TWIN management unit (R492): TYPE, SUB, SEQ, ROLE, FLAGS, ID, STEP, HSTEP; the rest of the unit is zero. -/
def twinUnit (s : State) (sub seq flags h : Nat) : List Byte :=
  [0x06, BitVec.ofNat 8 sub] ++ toBytes 2 seq ++ toBytes 1 s.role ++ toBytes 1 flags ++ toBytes 2 s.modId ++ toBytes 8 s.stepCnt ++ toBytes 8 h

/-- A TWIN management unit leaves on a port (R492). -/
def sendTwin (s : State) (p sub flags h : Nat) : State :=
  let q := low 16 (s.twin.seq + 1)
  (s.modTwin fun t => { t with seq := q }).sendMgmt p (s.twinUnit sub (low 16 s.twin.seq) flags h)

/-- FLAGS of a unit sent now. -/
def twinFlags (s : State) (refuse : Bool) : Nat := (if s.healthy then 1 else 0) + (if refuse then 2 else 0)

/-- A twin unit arrives on a port (R492): on FL7 or ALT_PORT, and from the twin; another ID is counted. -/
def twinIn (s : State) (p : Nat) (u : TwinUnit) (f : State → State) : State :=
  if !s.portUp p then s
  else
    let s := s.rxMgmt p false
    if !s.twinPorts.contains p then s
    else if u.id.toNat ≠ s.get (Reg.FL.PEER.ID 7) then s.bump Reg.TWIN.HB_BAD_CNT.CNT else f s

/-- A pending handover fails (R498, R511). -/
def handoverFail (s : State) : State :=
  if s.twin.handover.isNone then s
  else ((s.modTwin fun t => { t with handover := none }).put Reg.TWIN.TWIN_STAT.HANDOVER_PEND 0).causeErr pgTWIN 9

/-- An agreed handover whose step has closed already is over (R498). -/
def handoverCheck (s : State) (sender : Bool) : State := if s.get Reg.TWIN.HANDOVER_STEP.STEP < s.stepCnt then s.handoverDone sender else s

/-- The role becomes SOLO (R499, R500). -/
def goSolo (s : State) : State := ((s.handoverFail).setRole 0).modTwin fun t => { t with takeover := false, conflict := none, good := none }

end State

/-- TWIN_ROLE (R62, R430, R489, R511): authority, lock, value, then the state of FL7. -/
def actTwinRole (src : Source) (v : Fin 8) (s : State) : Res :=
  if !s.authorised src then .next (s.refuse pgTWIN rcNotHolder 0x40)
  else if (s.get Reg.SECURITY.LOCK.BITS).testBit 4 then .next (s.refuse pgTWIN rcLocked 0x40)
  else if 4 ≤ v.val then .next (s.refuse pgTWIN rcRange 0x40)
  else if v.val ≠ 0 ∧ !(s.portUp 7 && s.flag (Reg.FL.PEER.VALID 7)) then .next (s.refuse pgTWIN rcDep 0x40)
  else .next ((((s.accept pgTWIN).handoverFail).setRole v.val).modTwin fun t => { t with takeover := false, conflict := none })

/-- TWIN_HB_SEND (R492): while the role is not SOLO a heartbeat goes out on every path. -/
def execTwinHbSend (s : State) : Res :=
  if s.role = 0 then .next s else .next (s.twinPorts.foldl (fun s p => s.sendTwin p 1 (s.twinFlags false) 0) s)

/-- TWIN_HB (R492, R493): a heartbeat from the twin with HEALTHY makes the present window good. -/
def execTwinHb (p : Fin 8) (u : TwinUnit) (s : State) : Res :=
  if s.role = 0 then .next s
  else .next (s.twinIn p.val u fun s => if u.healthy then s.modTwin fun t => { t with good := some (u.role.val, 1) } else s)

namespace State

/-- After a good window the roles are compared (R497); in host mode only the causes are set (R494). -/
def compareRoles (s : State) (peer : Nat) : State :=
  let own := s.role
  let act (s : State) : State := if s.hostMode pgTWIN then s else s.bump Reg.TWIN.CONFLICT_CNT.CNT
  let mismatch := (act s).cause pgTWIN 7
  let lower := decide (s.modId < s.get (Reg.FL.PEER.ID 7))
  if own = 1 then (if peer = 1 then s else mismatch)
  else if peer ≤ 1 ∨ 4 ≤ peer then mismatch
  else if own = 2 ∧ peer = 2 then s.modTwin fun t => { t with conflict := some (if lower then 2 else 3) }
  else if own = 3 ∧ peer = 3 ∧ s.healthy then s.modTwin fun t => { t with conflict := some (if lower then 2 else 3) }
  else s

end State

/-- TWIN_WINDOW (R493, R494, R497): a window ends: after a good one the twin's role is recorded and the roles are compared; after another MISS counts, and at 2 the twin is lost. -/
def execTwinWindow (s : State) : Res :=
  if s.role = 0 then .next s
  else
    match s.twin.good with
    | some (peer, _) =>
      let s := ((s.modTwin fun t => { t with good := none }).put Reg.TWIN.TWIN_STAT.MISS 0).put Reg.TWIN.TWIN_STAT.PEER_ROLE peer
      let s := (s.put Reg.TWIN.TWIN_STAT.PEER_ID (s.get (Reg.FL.PEER.ID 7))).put Reg.TWIN.TWIN_STAT.PAIRED 1
      .next (s.compareRoles peer)
    | none =>
      let m := min 15 (s.get Reg.TWIN.TWIN_STAT.MISS + 1)
      let lost := m == 2 && s.get Reg.TWIN.TWIN_STAT.MISS == 1
      let s := s.put Reg.TWIN.TWIN_STAT.MISS m
      if !lost then .next s
      else
        let s := (s.put Reg.TWIN.TWIN_STAT.PAIRED 0).causeErr pgTWIN 4
        .next (if s.role = 3 ∧ s.healthy then s.modTwin fun t => { t with takeover := true } else s)

/-- TAKEOVER (R494): the standby takes over from a lost twin; in host mode only the cause is set. -/
def execTakeover (s : State) : Res :=
  if !s.twin.takeover then .next s
  else
    let s := s.modTwin fun t => { t with takeover := false }
    if s.role ≠ 3 ∨ !s.healthy then .next s
    else if s.hostMode pgTWIN then .next (s.cause pgTWIN 5)
    else .next (((s.setRole 2).bump Reg.TWIN.TAKEOVER_CNT.CNT).cause pgTWIN 5)

/-- ROLE_CONFLICT (R497): a conflict of mirror roles is resolved by module ID; in host mode only the cause is set. -/
def execRoleConflict (s : State) : Res :=
  match s.twin.conflict with
  | none => .next s
  | some r =>
    let s := s.modTwin fun t => { t with conflict := none }
    if s.hostMode pgTWIN then .next (s.cause pgTWIN 6)
    else .next (((s.setRole r).bump Reg.TWIN.CONFLICT_CNT.CNT).cause pgTWIN 6)

/-- SICK (R492, R496, R511): HEALTHY follows, and an active twin that falls ill becomes the standby. -/
def actSick (src : Source) (on : Bool) (s : State) : Res :=
  let _ := src
  .next (s.put Reg.TWIN.TWIN_CTRL.SICK (if on then 1 else 0)).selfDemote

/-- STEP_WATCHDOG (R492, R496): no step has closed within STEP_WD µs. -/
def execStepWatchdog (s : State) : Res :=
  if s.get Reg.TWIN.TWIN_CFG.STEP_WD = 0 then .next s else .next (s.modTwin fun t => { t with expired := true }).selfDemote

/-- HANDOVER (R498): an active paired twin asks for a handover at STEP_CNT + 2; in any other state the write is refused. -/
def actHandover (src : Source) (s : State) : Res :=
  let _ := src
  if s.role ≠ 2 ∨ !s.flag Reg.TWIN.TWIN_STAT.PAIRED then .next (s.refuse pgTWIN rcDep 0x48)
  else
    let h := s.stepCnt + 2
    let s := (s.modTwin fun t => { t with handover := some (true, false), hstep := h }).put Reg.TWIN.TWIN_STAT.HANDOVER_PEND 1
    match s.twinPorts with
    | p :: _ => .next (s.sendTwin p 2 (s.twinFlags false) h)
    | [] => .next s

/-- HANDOVER_REQUEST (R498): the twin's HANDOVER is answered; without REFUSE the handover is agreed. -/
def execHandoverRequest (p : Fin 8) (u : TwinUnit) (s : State) : Res :=
  .next (s.twinIn p.val u fun s =>
    let h := u.hstep.toNat
    let refuse := decide (h ≤ s.stepCnt) || s.role != 3
    let s := s.sendTwin p.val 3 (s.twinFlags refuse) h
    if refuse then s
    else ((s.modTwin fun t => { t with handover := some (false, true), hstep := h }).put Reg.TWIN.HANDOVER_STEP.STEP h).put Reg.TWIN.TWIN_STAT.HANDOVER_PEND 1)

/-- HANDOVER_ACK (R498): the answer agrees the handover, or refuses it. -/
def execHandoverAck (p : Fin 8) (u : TwinUnit) (s : State) : Res :=
  .next (s.twinIn p.val u fun s =>
    if s.twin.handover ≠ some (true, false) ∨ u.hstep.toNat ≠ s.twin.hstep then s
    else if u.refuse then s.handoverFail
    else ((s.modTwin fun t => { t with handover := some (true, true) }).put Reg.TWIN.HANDOVER_STEP.STEP s.twin.hstep).handoverCheck true)

/-- HANDOVER_TIMEOUT (R498): no answer within 100 µs. -/
def execHandoverTimeout (s : State) : Res := if s.twin.handover = some (true, false) then .next s.handoverFail else .next s

/-- DETACH (R500): a unit goes out on every path, and the role becomes SOLO. -/
def actDetach (src : Source) (s : State) : Res :=
  let _ := src
  if s.role = 0 then .next s else .next (s.twinPorts.foldl (fun s p => s.sendTwin p 4 (s.twinFlags false) 0) s).goSolo

/-- DETACH_UNIT (R499): the twin has detached. -/
def execDetachUnit (p : Fin 8) (u : TwinUnit) (s : State) : Res :=
  .next (s.twinIn p.val u fun s => s.goSolo.cause pgTWIN 10)

end Sys2Proof.Machine
end

