-- ==== Sys2Proof/Machine/Panel.lean ====
section
/-! DEFINITION. General timers, capture inputs, the service panel, GPIO and the LEDs (R491, R501 to R511, R513, R514). -/
namespace Sys2Proof.Machine
namespace State

/-! Timers (R506 to R508). -/

def timer (s : State) (n : Nat) : TimerS := getAt TimerS.reset n s.timers
def modTimer (s : State) (n : Nat) (f : TimerS → TimerS) : State := { s with timers := setAt TimerS.reset n (f (s.timer n)) s.timers }
def gtCnt (s : State) (n : Nat) : Nat := s.get (Reg.TIMERS.GT_CNT.VALUE n)

/-- The crown domain is ON: TIMERS and PANEL run. -/
def sclkOn (s : State) : Bool := s.pageUp (pageAt pgTIMERS)

/-- A cause of the TIMERS page, gated by the timer's bit in TIRQ_EN (R514). -/
def timerCause (s : State) (n b : Nat) : State :=
  if (s.get Reg.TIMERS.TIRQ_EN.EN).testBit n then (if b = 7 then s.causeErr pgTIMERS 7 else s.cause pgTIMERS b) else s

/-- The timers of n's pair: both when the odd one is cascaded (R506). -/
def pairOf (s : State) (n : Nat) : List Nat := if s.flag (Reg.TIMERS.GT_CFG.CASC (n / 2 * 2 + 1)) then [n / 2 * 2, n / 2 * 2 + 1] else [n]

/-- A debugger's halt freezes the timer (R98, R507). -/
def frozen (s : State) (n : Nat) : Bool :=
  s.stream == stHalted && s.flag (Reg.TIMERS.GT_CFG.DBG_FRZ ((s.pairOf n).headD n))

/-- The count steps to v; it may match the active compare value. -/
def timerStep (s : State) (n v : Nat) : State :=
  let s := s.put (Reg.TIMERS.GT_CNT.VALUE n) v
  if v = (s.timer n).cmp.toNat then
    let mode := s.get (Reg.TIMERS.GT_CFG.OUTMODE n)
    let s := s.modTimer n fun t => { t with out := if mode = 1 then !t.out else if mode = 2 then false else t.out }
    (s.put (Reg.TIMERS.GT_STAT.MATCH n) 1).timerCause n 4
  else s

/-- One tick of a timer that is not held, without its cascade: the next count, or the wrap (R506). -/
def tickOne (s : State) (n : Nat) : Bool × State :=
  if s.gtCnt n ≠ (s.timer n).top.toNat then (false, s.timerStep n ((s.gtCnt n + 1) % 2 ^ 32))
  else
    let s := s.modTimer n fun t =>
      { t with top := BitVec.ofNat 32 (s.get (Reg.TIMERS.GT_TOP.VALUE n)), cmp := BitVec.ofNat 32 (s.get (Reg.TIMERS.GT_CMP.VALUE n)),
               out := if s.get (Reg.TIMERS.GT_CFG.OUTMODE n) = 2 then true else t.out }
    let s := (s.put (Reg.TIMERS.GT_STAT.WRAP n) 1).timerCause n 5
    let s := if s.flag (Reg.TIMERS.GT_CFG.ONESHOT n) then (s.put (Reg.TIMERS.GT_CTRL.RUN n) 0).modTimer n fun t => { t with shown := 0 } else s
    (true, s.timerStep n 0)

/-- One tick with the tick it gives to a cascaded partner. -/
def tickAll (s : State) (n : Nat) : State :=
  let r := s.tickOne n
  let o := n + 1
  if r.1 && n % 2 == 0 && r.2.flag (Reg.TIMERS.GT_CFG.CASC o) && r.2.flag (Reg.TIMERS.GT_CTRL.RUN o) then (r.2.tickOne o).2 else r.2

/-- A timer takes ticks of its own: it runs, is not frozen and does not count its partner's wraps. -/
def ticks (s : State) (n : Nat) : Bool :=
  s.sclkOn && s.flag (Reg.TIMERS.GT_CTRL.RUN n) && !s.frozen n && !(n % 2 == 1 && s.flag (Reg.TIMERS.GT_CFG.CASC n))

def held (s : State) (n : Nat) : Bool := s.flag (Reg.TIMERS.GT_STAT.HELD n)

/-- A tick of a timer (R506, R508). -/
def gtTick (s : State) (n : Nat) : State :=
  if !s.ticks n then s
  else if s.held n then
    let c := s.get (Reg.TIMERS.GT_STAT.CATCHUP n)
    if c < 255 then s.put (Reg.TIMERS.GT_STAT.CATCHUP n) (c + 1) else s.put (Reg.TIMERS.GT_STAT.CATCHUP_OVF n) 1
  else s.tickAll n

/-- HOLD is set: the timer, or both of its pair, freeze (R508). -/
def gtHold (s : State) (n : Nat) : State :=
  (s.pairOf n).foldl (fun s i => ((s.put (Reg.TIMERS.GT_STAT.HELD i) 1).modTimer i fun t => { t with shown := BitVec.ofNat 32 (s.gtCnt i) })) (s.put (Reg.TIMERS.GT_CTRL.HOLD n) 1)

/-- HOLD is cleared: the ticks caught are added with every wrap and match they pass (R508). -/
def gtRelease (s : State) (n : Nat) : State :=
  let s := s.put (Reg.TIMERS.GT_CTRL.HOLD n) 0
  (s.pairOf n).foldl (fun s i =>
    let c := s.get (Reg.TIMERS.GT_STAT.CATCHUP i)
    let s := (s.put (Reg.TIMERS.GT_STAT.CATCHUP i) 0).put (Reg.TIMERS.GT_STAT.HELD i) 0
    (List.range c).foldl (fun s _ => if s.flag (Reg.TIMERS.GT_CTRL.RUN i) then s.tickAll i else s) s) s

/-- RUN is written (R508): a stop shows the count. -/
def gtRun (s : State) (n : Nat) (run : Bool) : State :=
  let s := if s.flag (Reg.TIMERS.GT_CTRL.RUN n) && !run then s.modTimer n fun t => { t with shown := BitVec.ofNat 32 (s.gtCnt n) } else s
  s.put (Reg.TIMERS.GT_CTRL.RUN n) (if run then 1 else 0)

/-- What a read of GT_CNT returns (R508). -/
def gtRead (s : State) (n : Nat) : Nat × State :=
  if s.flag (Reg.TIMERS.GT_CTRL.RUN n) && !s.flag (Reg.TIMERS.GT_CTRL.HOLD n) then ((s.timer n).shown.toNat, s.put (Reg.TIMERS.GT_STAT.RD_WHILE_RUN n) 1)
  else (s.gtCnt n, s)

/-! Captures (R509, R510). -/

def capField (i : Nat) (falling : Bool) : Field := if falling then Reg.TIMERS.CAP_FALL.VALUE i else Reg.TIMERS.CAP_RISE.VALUE i
def capNew (i : Nat) (falling : Bool) : Field := if falling then Reg.TIMERS.CAP_STAT.NEW_F i else Reg.TIMERS.CAP_STAT.NEW_R i
def capPend (i : Nat) (falling : Bool) : Field := if falling then Reg.TIMERS.CAP_STAT.PEND_F i else Reg.TIMERS.CAP_STAT.PEND_R i
def capOvr (i : Nat) (falling : Bool) : Field := if falling then Reg.TIMERS.CAP_STAT.OVR_F i else Reg.TIMERS.CAP_STAT.OVR_R i
def capKey (i : Nat) (falling : Bool) : Nat := 2 * i + (if falling then 1 else 0)

/-- A value enters a capture register. -/
def capEnter (s : State) (i : Nat) (falling : Bool) (v : Nat) : State :=
  ((s.put (capField i falling) v).put (capNew i falling) 1).timerCause (s.get (Reg.TIMERS.CAP_CFG.TMR i)) 6

/-- An edge on capture input i; `read` tells that the register is read in the same SCLK cycle. -/
def captureEdge (s : State) (i : Nat) (falling read : Bool) : State :=
  let t := s.get (Reg.TIMERS.CAP_CFG.TMR i)
  if !s.sclkOn || !s.flag (Reg.TIMERS.CAP_CFG.EN i) then s
  else
    let v := (s.gtCnt t + s.get (Reg.TIMERS.GT_STAT.CATCHUP t)) % 2 ^ 32
    if s.flag (capPend i falling) then (s.put (capOvr i falling) 1).timerCause t 7
    else if read then { (s.put (capPend i falling) 1) with caps := insert (capKey i falling) (BitVec.ofNat 32 v) s.caps }
    else s.capEnter i falling v

/-- The data of a register read, as its source gets them. -/
def setRdata (s : State) (src : Source) (v : Nat) : State :=
  { s with rdata := s.rdata.filter (fun r => r.1 != src) ++ [(src, BitVec.ofNat 32 v)] }

/-! The panel (R501 to R504). -/

def panelOn (s : State) : Bool := s.sclkOn && s.isEnabled pgPANEL

/-- DETACH_REQ (R502). -/
def detachReq (s : State) : State := if s.flag Reg.PANEL.PANEL_CTRL.DETACHING then s.bump Reg.PANEL.DETACH_DUP_CNT.CNT else s.cause pgPANEL 5

/-- A touch that has lasted TOUCH_MS is classified, once (R502, R511). -/
def touchCheck (s : State) : State :=
  if !s.flag Reg.PANEL.PANEL_STAT.TOUCHED || s.panel.touchSeen || decide (s.panel.touch < s.get Reg.PANEL.PANEL_CFG2.TOUCH_MS) then s
  else { s with panel := { s.panel with touchSeen := true } }.detachReq

/-- A pad sample (R501, R502): touched or not, 10 ms after the last one. -/
def padSample (s : State) (touched : Bool) : State :=
  let was := s.flag Reg.PANEL.PANEL_STAT.TOUCHED
  let s := s.put Reg.PANEL.PANEL_STAT.TOUCHED (if touched then 1 else 0)
  if s.hostMode pgPANEL then (if was == touched then s else s.cause pgPANEL 7)
  else
    { s with panel := { s.panel with touch := if touched then s.panel.touch + 10 else 0, touchSeen := touched && s.panel.touchSeen } }.touchCheck

/-- EN of the panel is set (R501): it takes captures 14 and 15 and timers GT14 and GT15. -/
def panelStart (s : State) : State :=
  let t (s : State) (n pre : Nat) : State :=
    (((s.put (Reg.TIMERS.GT_CFG.PRESCALE n) pre).put (Reg.TIMERS.GT_CFG.DBG_FRZ n) 0).put (Reg.TIMERS.GT_CFG.CASC n) 0).put (Reg.TIMERS.GT_CFG.ONESHOT n) 0
      |>.put (Reg.TIMERS.GT_TOP.VALUE n) 0xFFFFFFFF |>.put (Reg.TIMERS.GT_CTRL.RUN n) 1 |>.modTimer n fun x => { x with top := 0xFFFFFFFF }
  let c (s : State) (i src tmr : Nat) : State := ((s.put (Reg.TIMERS.CAP_CFG.SRC i) src).put (Reg.TIMERS.CAP_CFG.EN i) 1).put (Reg.TIMERS.CAP_CFG.TMR i) tmr
  c (c (t (t s 15 127) 14 0) 14 16 15) 15 17 14

/-! What the pins and LEDs show. -/

/-- The level a GPIO pin drives; none while it is an input or floats (R491, R505). -/
def gpioDrive (s : State) (i : Nat) : Option Bool :=
  let b := bits (s.get (Reg.PANEL.GPIO_SRC.PIN (i / 4))) (8 * (i % 4) + 7) (8 * (i % 4))
  if !(s.get Reg.PANEL.GPIO_DIR.PINS).testBit i then none
  else if b.testBit 7 && s.role == 3 then none
  else if bits b 6 5 = 1 then some (s.timer (bits b 3 0)).out
  else some ((s.get Reg.PANEL.GPIO_OUT.PINS).testBit i)

/-- GPIO_IN (R505): a driven pin shows its own level, another the level it was last sampled at. -/
def gpioIn (s : State) : Nat :=
  (List.range 16).foldl (fun n i =>
    n + if (match s.gpioDrive i with | some v => v | none => (s.get Reg.PANEL.GPIO_IN.PINS).testBit i) then 2 ^ i else 0) 0

/-- LED patterns (R503): 0 off, 1 on, 2 blink, 3 fast, 4 slow, 5 amber; LEDs 0 power, 1 fault, 2 attention, 3 twin. The last second's conflicts are time that the model does not count (log entry 29). -/
def ledPattern (s : State) (led : Nat) : Nat :=
  let ovr := s.get ([Reg.PANEL.LED_OVR.POWER, Reg.PANEL.LED_OVR.FAULT, Reg.PANEL.LED_OVR.ATTN, Reg.PANEL.LED_OVR.TWIN].getD led Reg.PANEL.LED_OVR.POWER)
  if ovr.testBit 3 && !(led == 1 && s.holder == 2) then ovr % 8
  else
    match led with
    | 0 => if s.flag Reg.PANEL.PANEL_CTRL.SAFE then 3 else if s.flag Reg.POWER.WATCH_STAT.IN_WATCH then 4 else 1
    | 1 => if s.holder == 2 || (List.range 84).any (fun i => decide (2 ≤ s.get (Reg.CROWN.SENS_VAL.STATE i)))
              || s.bist.results.any (fun r => r.2.2.1 == 2) then 1 else 0
    | 2 => if s.flag Reg.PANEL.PANEL_CTRL.DETACHING then 3 else if s.flag Reg.PANEL.PANEL_CTRL.IDENT then 2 else 0
    | _ => if s.role = 0 then 0 else if !s.flag Reg.TWIN.TWIN_STAT.PAIRED then 5 else if s.role = 3 then 2 else 1

end State

/-! Panel commands. -/

/-- BUTTON_PRESS (R501, R502): the press is captured; in host mode it is handed to software. -/
def execButtonPress (s : State) : Res :=
  if !s.panelOn || s.flag Reg.PANEL.PANEL_STAT.BUTTON then .next s
  else
    let s := { (s.put Reg.PANEL.PANEL_STAT.BUTTON 1) with panel := { s.panel with long := false } }.captureEdge 14 true false
    .next (if s.hostMode pgPANEL then s.cause pgPANEL 6 else s)

/-- BUTTON_RELEASE (R502): `ms` after its press: a bounce, a short press, or the end of a long one. -/
def execButtonRelease (ms : Nat) (s : State) : Res :=
  if !s.panelOn || !s.flag Reg.PANEL.PANEL_STAT.BUTTON then .next s
  else
    let long := s.panel.long
    let s := { (s.put Reg.PANEL.PANEL_STAT.BUTTON 0) with panel := { s.panel with long := false } }.captureEdge 14 false false
    if s.hostMode pgPANEL then .next (s.cause pgPANEL 6)
    else if long then .next s
    else if ms < 20 then .next (s.bump Reg.PANEL.BOUNCE_CNT.CNT)
    else if ms < s.get Reg.PANEL.PANEL_CFG.LONG_MS then
      .next ((s.put Reg.PANEL.PANEL_CTRL.IDENT (1 - s.get Reg.PANEL.PANEL_CTRL.IDENT)).cause pgPANEL 4)
    else .next s

/-- LONG_PRESS (R502): the button is still pressed LONG_MS after its press. -/
def execLongPress (s : State) : Res :=
  if !s.panelOn || s.hostMode pgPANEL || !s.flag Reg.PANEL.PANEL_STAT.BUTTON || s.panel.long then .next s
  else .next { s with panel := { s.panel with long := true } }.detachReq

/-- PAD_CHARGE_CYCLE (R501, R502): a sample of the pad with its charge time in ns. -/
def execPadChargeCycle (ns : BitVec 16) (s : State) : Res :=
  if !s.panelOn then .next s
  else .next ((s.put Reg.PANEL.PANEL_STAT.PAD_NS ns.toNat).padSample (decide (s.get Reg.PANEL.PANEL_CFG2.TOUCH_THR ≤ ns.toNat)))

/-- PAD_FAULT (R501): the comparator has not tripped after 10 µs. -/
def execPadFault (s : State) : Res :=
  if !s.panelOn then .next s
  else .next (((s.bump Reg.PANEL.PAD_FAULT_CNT.CNT).cause pgPANEL 10).padSample false)

/-- LATCH (R502, R504): the filtered latch opens; an active twin may be declared sick, and firmware logs an opening that is not safe. -/
def execLatch (s : State) : Res :=
  if !s.panelOn || s.flag Reg.PANEL.PANEL_STAT.LATCH_OPEN then .next s
  else
    let s := s.put Reg.PANEL.PANEL_STAT.LATCH_OPEN 1
    let s := if s.flag Reg.PANEL.PANEL_CTRL.SAFE then s else s.coreLog s.holder (State.pageSource pgPANEL) 0x000A (Config.logSev 0x000A).val []
    if s.hostMode pgPANEL then .next s
    else
      let s := s.cause pgPANEL 8
      if s.flag Reg.PANEL.PANEL_CFG.LATCH_SICK ∧ s.role = 2 then .next (s.put Reg.TWIN.TWIN_CTRL.SICK 1).selfDemote else .next s

/-- LATCH_CLOSES (R502). -/
def execLatchCloses (s : State) : Res := if s.panelOn then .next (s.put Reg.PANEL.PANEL_STAT.LATCH_OPEN 0) else .next s

/-- CABLE (R502): the filtered presence bits have changed. -/
def execCable (pres : BitVec 10) (s : State) : Res :=
  if !s.panelOn || s.get Reg.PANEL.CAGE_PRES.PRES == pres.toNat then .next s
  else
    let s := s.put Reg.PANEL.CAGE_PRES.PRES pres.toNat
    .next (if s.hostMode pgPANEL then s else s.cause pgPANEL 9)

/-! Timer commands. -/

/-- TICK (R506 to R508): a tick of a timer, with the wrap and the match it brings. -/
def execTick (t : Fin 16) (s : State) : Res := .next (s.gtTick t.val)

/-- WRAP (R506): the tick at which a timer that is not held steps from its active TOP to 0. -/
def execWrap (t : Fin 16) (s : State) : Res :=
  if !s.held t.val && s.gtCnt t.val == (s.timer t.val).top.toNat then .next (s.gtTick t.val) else .next s

/-- MATCH (R506): the tick that brings the count of a timer that is not held to its active compare value. -/
def execMatch (t : Fin 16) (s : State) : Res :=
  let tm := s.timer t.val
  let nxt := if s.gtCnt t.val = tm.top.toNat then 0 else (s.gtCnt t.val + 1) % 2 ^ 32
  let cmp := if s.gtCnt t.val = tm.top.toNat then s.get (Reg.TIMERS.GT_CMP.VALUE t.val) else tm.cmp.toNat
  if !s.held t.val && nxt == cmp then .next (s.gtTick t.val) else .next s

/-- The panel owns a timer (R501). -/
def State.panelOwns (s : State) (t : Nat) : Bool := decide (14 ≤ t) && s.isEnabled pgPANEL

/-- HOLD (R508). A timer that is held stays as it is; one that the panel owns refuses the write (R501). -/
def actHold (src : Source) (t : Fin 16) (s : State) : Res :=
  let _ := src
  if s.sclkOn && s.panelOwns t.val then .next (s.refuse pgTIMERS rcBusy (0x104 + 0x20 * t.val))
  else if s.sclkOn && !s.flag (Reg.TIMERS.GT_CTRL.HOLD t.val) then .next (s.gtHold t.val) else .next s

/-- HOLD_RELEASE (R501, R508). -/
def actHoldRelease (src : Source) (t : Fin 16) (s : State) : Res :=
  let _ := src
  if s.sclkOn && s.panelOwns t.val then .next (s.refuse pgTIMERS rcBusy (0x104 + 0x20 * t.val))
  else if s.sclkOn && s.flag (Reg.TIMERS.GT_CTRL.HOLD t.val) then .next (s.gtRelease t.val) else .next s

/-- GT_CNT_READ (R508). -/
def actGtCntRead (src : Source) (t : Fin 16) (s : State) : Res :=
  if s.sclkOn then let r := s.gtRead t.val; .next (r.2.setRdata src r.1) else .next s

/-- CAPTURE (R505, R509, R510): an edge on a capture input; a GPIO source that is an input shows its new level. -/
def execCapture (i : Fin 16) (falling : Bool) (read : Option Source) (s : State) : Res :=
  if !s.sclkOn then .next s
  else
    let old := s.get (State.capField i.val falling)
    let src := s.get (Reg.TIMERS.CAP_CFG.SRC i.val)
    let s := if src < 16 then s.put Reg.PANEL.GPIO_IN.PINS (setBit (s.get Reg.PANEL.GPIO_IN.PINS) src (!falling)) else s
    let s := s.captureEdge i.val falling read.isSome
    .next (match read with | some r => s.setRdata r old | none => s)

/-- PENDING_CAPTURE (R510): a waiting value enters its register. -/
def execPendingCapture (i : Fin 16) (falling : Bool) (s : State) : Res :=
  match lookup (State.capKey i.val falling) s.caps with
  | none => .next s
  | some v =>
    if !s.sclkOn then .next s
    else .next ({ (s.put (State.capPend i.val falling) 0) with caps := remove (State.capKey i.val falling) s.caps }.capEnter i.val falling v.toNat)

end Sys2Proof.Machine
end

