-- ==== Sys2Proof/Machine/RegRead.lean ====
section
/-! DEFINITION. Reads of registers (chapter 02): which page answers, live values, 64-bit shadows, and the enable check (R59). -/
namespace Sys2Proof.Machine

namespace State

/-! Live values: registers whose value is computed when they are read. -/

/-- One bit for each of a tile's 15 pages. -/
def tileBits (n : Nat) (f : Nat → Bool) : Nat := (List.range 15).foldl (fun m i => m + bnat (f (tilePg n i)) * 2 ^ i) 0

/-- ARR_STAT. -/
def arrStat (s : State) (n : Nat) : Nat :=
  let a := (s.tile n).arr
  let p := s.issue.period
  bnat (decide (p < a.loaderFree)) + 2 * bnat (decide (p < a.streamerFree)) + 4 * bnat (decide (p < a.drainerFree)) + 8 * bnat (a.swapPend && decide (p < a.streamerFree))

/-- EVT_STAT. -/
def evtStat (s : State) (n : Nat) : Nat :=
  (s.evt n).fifo.length * 65536 + 4 * bnat (s.evt n).fifo.isEmpty + s.get (Reg.EVENT.EVT_STAT.STATE n)

/-- EGR_STAT. -/
def egrStat (s : State) (n : Nat) : Nat :=
  s.ringOcc n * 65536 + 8 * bnat (s.egrHold n) + 4 * bnat (!(s.evt n).remnant.isEmpty) + 2 * bnat (!(s.evt n).work.isEmpty) + bnat (s.egrIdle n)

/-- QSTAT of a queue. -/
def qStat (s : State) (n q : Nat) : Nat :=
  bnat (match (s.queue n).held with | some f => f.head.queue == q | none => false) * 65536 + s.qReady n q * 256 + s.qOcc n q

/-- The head view of the second QUEUE page (R302). -/
def headMsg (s : State) (n : Nat) : Option QMsg := (s.queue n).msgs.find? fun m => m.queue == s.get (Reg.QUEUE2.HEAD_SEL.Q n)

/-- Half i of the words of the head message (R302): zero beyond its length, and of a word that cannot be corrected (R285). -/
def headData (s : State) (n i : Nat) : Nat :=
  match s.headMsg n with
  | some m => if 2 ≤ s.qFlips n m.queue m.slot (i / 2) then 0 else bits (m.words.getD (i / 2) 0).toNat (32 * (i % 2) + 31) (32 * (i % 2))
  | none => 0

/-- The status word of the head message: UNCORR while one of its words cannot be corrected (log entry 26). -/
def headInfo (s : State) (n : Nat) : Nat :=
  match s.headMsg n with
  | some m => qStatus m (if (List.range m.words.length).any fun i => decide (2 ≤ s.qFlips n m.queue m.slot i) then qUNCORR else qOK)
  | none => qEMPTY

/-- A read of the head view reads the slot's word through SEC-DED (R31, R280). -/
def headScan (s : State) (n i : Nat) : State :=
  match s.headMsg n with
  | some m => if i / 2 < m.words.length then (s.qScan n m.queue m.slot [i / 2]).2 else s
  | none => s

/-- DOM_STAT of the selected domain. -/
def domStat (s : State) : Nat :=
  let d := s.get Reg.POWER.DOM_SEL.INDEX
  let st := match s.domState d with | .off => 0 | .retention => 1 | .on => 2 | .waking => 3 | .dropping => 4
  (if d < 324 then s.votes d else 0) * 2 ^ 24 + bnat (s.ownEnable d) * 65536 + bnat (decide (d < 324) && s.lowOff d) * 32768 + st

/-- The last result of the target in RES_SEL. -/
def bistRes (s : State) : Option (Nat × Nat × Nat × Word64) :=
  s.bist.results.find? fun r => r.1 == s.get Reg.BIST.RES_SEL.TARGET && r.2.1 == s.get Reg.BIST.RES_SEL.INST

/-- RES_INFO: verdict, the coverage that R473 states, and a test time, which the model does not count (log entry 32). -/
def bistInfo (s : State) : Nat :=
  match s.bistRes with
  | none => 0
  | some r => r.2.2.1 * 2 ^ 29 + [960, 950, 970, 980, 940, 950].getD r.1 0 * 2 ^ 20 + (Config.freeBits 20 (r.1 * 512 + r.2.1)).toNat

/-- Block work in progress, as BLK_STAT.BUSY shows it beside a check and a reset (R53): what each block calls its work (log entry 37). -/
def working (s : State) (p : Page) : Bool :=
  let n := p.inst % 256
  match p.kind with
  | .issue => s.streamActive || s.flag Reg.ISSUE.LOAD_CTRL.LOAD
  | .step => s.stepActive
  | .scale => s.flag Reg.SCALE.STAT.ACTIVE
  | .bist => s.flag Reg.BIST.BIST_STAT.ACTIVE
  | .check => !s.chkFree p.inst
  | .mover => (s.mover p.inst).job.isSome || (s.mover p.inst).fetch.isSome || (s.mover p.inst).fin.isSome
  | .mem => (lookup p.inst s.train).isSome
  | .reset => s.tfw.isSome || s.flag Reg.RESET.RST_STAT.COMP_ACTIVE
  | .crown => s.flag Reg.CROWN.MB_STAT.BUSY
  | .power => s.power.dom.any fun c => c.2 == .waking || c.2 == .dropping
  | .slice => (List.range 16).any fun b => (lookup (16 * (256 + p.inst) + b) s.bankTo).isSome || (s.get (fld (p.base + 0x48) 0 16 0)).testBit b
  | .tile i =>
    match i with
    | 1 => (List.range 16).any fun b => (lookup (16 * n + b) s.bankTo).isSome || (s.get (fld (p.base + 0x48) 0 16 0)).testBit b
    | 2 => !(s.tile n).tracked.isEmpty
    | 5 => s.arrStat n != 0
    | 7 => !(s.evt n).fifo.isEmpty
    | 8 => (s.evt n).sweep.isSome || !(s.evt n).copies.isEmpty
    | 10 => (s.evt n).apply.isSome
    | 11 => !(s.evt n).work.isEmpty
    | 12 => !(s.queue n).tx.isEmpty || (s.queue n).held.isSome
    | _ => false
  | _ => false

/-- The value of a register that is computed when it is read, by page and page offset of its low word. -/
def liveReg (s : State) (p : Page) (o : Nat) : Option Nat :=
  let n := p.inst % 256
  if o = 0 then some (p.typeCode * 65536 + p.inst)
  else if o = 4 then some 0x100
  else if o = 8 then some p.cap
  else if p.headerOnly && (o == 0x18 || o == 0x1C || o == 0x20) then some 0
  else if o = 0x10 then
    some (8 * s.get (Reg.HDR.BLK_STAT.REFUSED p.base) + 4 * s.get (Reg.HDR.BLK_STAT.ERR p.base)
      + 2 * bnat (s.flag (Reg.HDR.BLK_STAT.BUSY p.base) || s.working p) + s.get (Reg.HDR.BLK_STAT.READY p.base))
  else
    match p.kind with
    | .tile i =>
      match i with
      | 0 => if o = 0x40 then some (tileHalf n * 256 + n) else if o = 0x44 then some (tileBits n s.isReady)
        else if o = 0x48 then some (tileBits n fun pg => s.flag (Reg.HDR.BLK_STAT.ERR pg)) else none
      | 3 => if o = 0x48 then some (s.sreg n (s.get (Reg.SCALAR.SREG_SEL.REG n))) else none
      | 4 => if o = 0x44 then some (s.vlane n (s.get (Reg.VECTOR.VREG_SEL.REG n)) (s.get (Reg.VECTOR.VREG_SEL.LANE n)))
        else if 0x48 ≤ o ∧ o < 0x58 then
          let r := s.get (Reg.VECTOR.VREG_SEL.REG n)
          some (if 1 ≤ r ∧ r ≤ 7 then bits (s.vmask n r) (32 * ((o - 0x48) / 4) + 31) (32 * ((o - 0x48) / 4)) else 0)
        else none
      | 5 => if o = 0x40 then some (s.arrStat n) else none
      | 6 => if 0x100 ≤ o ∧ o < 0x300 ∧ o % 0x20 = 0x14 then some (min 65535 (s.chShare n ((o - 0x100) / 0x20))) else none
      | 7 => if o = 0x48 then some (s.evtStat n) else none
      | 11 => if o = 0x4C then some (s.egrStat n) else none
      | 12 => if o = 0x54 then some ((s.queue n).tx.foldl (fun m x => setBit m x.1 true) 0) else if 0x200 ≤ o ∧ o < 0x300 then some (s.qStat n ((o - 0x200) / 4)) else none
      | 13 => if o = 0x48 then some (s.headInfo n)
        else if 0x80 ≤ o ∧ o < 0xC0 then some (s.headData n ((o - 0x80) / 4)) else none
      | _ => none
    | .issue =>
      if o = 0x54 then
        some (s.get Reg.ISSUE.RUN_STAT.INDEX * 65536 + (s.issue.wait.map (·.cond)).getD 0 * 512 + s.get Reg.ISSUE.RUN_STAT.WAITING * 256 + s.stream)
      else none
    | .step =>
      if o = 0x54 then
        some (s.get Reg.STEP.STEP_STAT.RUN * 64 + bnat s.step.pend.isSome * 32 + s.get Reg.STEP.STEP_STAT.HOLD * 16 + s.get Reg.STEP.STEP_STAT.STRETCH * 8 + s.phase)
      else none
    | .power =>
      let d := s.get Reg.POWER.DOM_SEL.INDEX
      if o = 0x104 then some s.domStat
      else if 0x108 ≤ o ∧ o < 0x128 then some (getAt 0 (4 * d + (o - 0x108) / 8) s.power.residency).toNat else none
    | .twin =>
      if o = 0x4C then
        some (s.get Reg.TWIN.TWIN_STAT.PEER_ID * 2 ^ 20 + s.get Reg.TWIN.TWIN_STAT.PEER_ROLE * 65536 + s.get Reg.TWIN.TWIN_STAT.PAIRED * 32768
          + s.get Reg.TWIN.TWIN_STAT.HANDOVER_PEND * 16384 + bnat s.healthy * 8192 + s.get Reg.TWIN.TWIN_STAT.MISS)
      else none
    | .panel => if o = 0x88 then some s.gpioIn else none
    | .bist => if o = 0xA8 then some ((s.bistRes.map fun r => r.2.2.2.toNat).getD 0) else if o = 0xB0 then some s.bistInfo else none
    | _ => none

/-- The value of a register as its fields give it; a WO field reads zero (R21). -/
def fieldsValue (s : State) (r : RegRef) : Nat :=
  r.row.fields.foldl (fun v f => if f.acc = .wo then v else v + s.get (f.at' r.low) * 2 ^ f.lo) 0

/-- The value of a register. -/
def regValue (s : State) (r : RegRef) : Nat := (s.liveReg r.page (r.low - r.page.base)).getD (s.fieldsValue r)

/-! Who answers for a page (R51, R52, R54, R476). -/

/-- The page of an offset is a target of a self-test (R476). -/
def pageReserved (s : State) (p : Page) : Bool :=
  match p.kind with
  | .tile _ => s.bistReserved 0 (p.inst % 256)
  | .slice => s.bistReserved 1 p.inst
  | .mover => s.bistReserved 2 p.inst
  | .check => s.bistReserved 3 p.inst
  | .issue => s.bistReserved 4 0
  | .step => s.bistReserved 4 0
  | _ => false

/-- The page is in block reset: SRST reads 1 in it, or in the TILE page of its tile (R54, R466). -/
def inReset (s : State) (p : Page) : Bool :=
  s.flag (Reg.HDR.BLK_CTRL.SRST p.base) || (match p.kind with | .tile _ => s.flag (Reg.HDR.BLK_CTRL.SRST (tilePg (p.inst % 256) 0)) | _ => false)

/-- An access to an unused page (R51, R73). -/
def unusedAccess (s : State) (off : Nat) : State :=
  (((s.bump Reg.GLOBAL.REG_UNMAPPED_CNT.CNT).put Reg.GLOBAL.REG_UNMAPPED_OFS.OFS off).cause pgGLOBAL 5)

/-- A write that a page's C-net node drops (R52, R73). -/
def downWrite (s : State) : State := (s.bump Reg.GLOBAL.REG_DOWN_CNT.CNT).cause pgGLOBAL 6

/-- A write to BLK_VOTE (R52, R53): where the page has no vote register it is ignored. -/
def voteWrite (off : Nat) : Bool := (pageAt off).kind != .unused && off - (pageAt off).base == 0x24

/-- What the node in front of a page that is down gives to a read: the data, and whether the access is answered with OK (R52). -/
def downRead (s : State) (off : Nat) : Nat × Bool :=
  let p := pageAt off
  let o := off - p.base
  if o = 0 then (p.typeCode * 65536 + p.inst, true)
  else if o = 4 then (0x100, true)
  else if o = 0x24 then (if p.hasVote then s.get (Reg.HDR.BLK_VOTE.VOTE p.base) else 0, true)
  else (0, false)

/-! Shadows (R64). -/

def shadowOf (s : State) (pg : Nat) (src : Source) : Shadow := (s.shadows.find? fun h => h.page == pg && h.src == src).getD ⟨pg, src, none, none⟩

def setShadow (s : State) (h : Shadow) : State :=
  let l := s.shadows.filter fun x => !(x.page == h.page && x.src == h.src)
  { s with shadows := if h.read.isNone && h.write.isNone then l else l ++ [h] }

/-! Reads. -/

/-- A read of a register of a page that answers for itself (R50, R54, R64, R508): its data. -/
def pageRead (s : State) (src : Source) (off : Nat) : Nat × State :=
  let p := pageAt off
  if 0x40 ≤ off - p.base && (s.inReset p || s.pageReserved p) then (0, s)
  else
    match regAt off with
    | none => (0, s)
    | some r =>
      if p.kind == .timers && decide (0x100 ≤ off - p.base) && decide (off - p.base < 0x300) && (off - p.base) % 0x20 == 8 then s.gtRead ((off - p.base - 0x100) / 0x20)
      else
        let v := s.regValue r
        let h := s.shadowOf p.base src
        if !r.row.wide then
          (low 32 v, if p.kind == .tile 13 && decide (0x80 ≤ off - p.base) && decide (off - p.base < 0xC0) then s.headScan (p.inst % 256) ((off - p.base - 0x80) / 4) else s)
        else if r.high then
          match h.read with
          | some (tag, w) => if tag = r.low then (w.toNat, s) else (v / 2 ^ 32, s)
          | none => (v / 2 ^ 32, s)
        else (low 32 v, s.setShadow { h with read := some (r.low, BitVec.ofNat 32 (v / 2 ^ 32)) })

/-! The enable check (R59). -/

/-- The first failing register of a list of (test fails, code, offset). -/
def firstBad (l : List (Bool × Nat × Nat)) : Option (Nat × Nat) := (l.find? (·.1)).map (·.2)

/-- The state region of a tile's neurons: first offset and end of the lines that its records take in its first bank, and whether they fit (R178). -/
def regionLines (s : State) (n : Nat) : Nat :=
  let recs := s.get (Reg.NEURON.WORLD.W_COUNT n) * (s.get (Reg.NEURON.N_CFG.N_M1 n) + 1)
  let nb := max 1 (s.get (Reg.NEURON.N_CFG.NB n))
  ((recs + 3) / 4 + nb - 1) / nb

/-- A fire list meets the state region. -/
def fireMeets (s : State) (n base : Nat) : Bool :=
  let b0 := s.get (Reg.NEURON.N_CFG.BANK0 n)
  let l0 := s.get (Reg.NEURON.STATE_LINE.LINE n)
  let len := 8 * s.get (Reg.NEURON.FIRE_CAP.VALUE n)
  (List.range (s.get (Reg.NEURON.N_CFG.NB n))).any fun i =>
    let lo := (b0 + i) * 0x30000 + l0 * 64
    decide (base < lo + s.regionLines n * 64) && decide (lo < base + len)

def neuronCheck (s : State) (n : Nat) : Option (Nat × Nat) :=
  let nb := s.get (Reg.NEURON.N_CFG.NB n)
  let wc := s.get (Reg.NEURON.WORLD.W_COUNT n)
  firstBad ([
    (nb == 0 || decide (16 < s.get (Reg.NEURON.N_CFG.BANK0 n) + nb), rcRange, 0x40),
    (decide (3072 < s.get (Reg.NEURON.STATE_LINE.LINE n) + s.regionLines n), rcCapacity, 0x44),
    (s.get (Reg.NEURON.STATIC_BASE.OFS n) % 16 != 0, rcAlign, 0x48),
    (wc == 0 || decide (16384 < s.get (Reg.NEURON.WORLD.W_FIRST n) + wc), rcRange, 0x4C),
    (s.get (Reg.NEURON.PSET_BASE.OFS n) % 64 != 0, rcAlign, 0x50),
    (s.get (Reg.NEURON.FIRE_BASE0.OFS n) % 8 != 0, rcAlign, 0x60),
    (s.fireMeets n (s.get (Reg.NEURON.FIRE_BASE0.OFS n)), rcOverlap, 0x60),
    (s.get (Reg.NEURON.FIRE_BASE1.OFS n) % 8 != 0, rcAlign, 0x64),
    (s.fireMeets n (s.get (Reg.NEURON.FIRE_BASE1.OFS n)), rcOverlap, 0x64)]
    ++ (List.range 16).flatMap fun g =>
      [(decide (4096 < s.get (Reg.NEURON.RO_GRP_W1.BASE n g) + s.get (Reg.NEURON.RO_GRP_W1.NEU n g) * s.get (Reg.NEURON.RO_GRP_W2.W_COUNT n g)), rcCapacity, 0x204 + 0x10 * g),
       (s.get (Reg.NEURON.RO_GRP_W3.DEST n g) % 64 != 0, rcAlign, 0x20C + 0x10 * g)])

def stepCheck (s : State) : Option (Nat × Nat) :=
  firstBad ([
    (!s.isReady pgSNET, rcDep, 0xC),
    (decide (s.get Reg.STEP.STEP_PERIOD.NS < 1000), rcRange, 0x44),
    (s.flag Reg.STEP.STEP_CFG.PACED && decide (s.get Reg.STEP.STEP_PERIOD.NS < s.get Reg.STEP.DUE.NS), rcRange, 0x48)]
    ++ (List.range 64).flatMap fun g =>
      let t := s.get (Reg.STEP.IGRP_W3.THR g)
      [(s.get (Reg.STEP.IGRP_W0.ENC g) == 3, rcRange, 0x400 + 0x10 * g),
       (s.get (Reg.STEP.IGRP_W0.ENC g) == 2 && !(isFinite t && (Num.fin false 0 0).lt (f32.dec t)), rcRange, 0x40C + 0x10 * g)])

def learnCheck (s : State) (n : Nat) : Option (Nat × Nat) :=
  let wf := s.get (Reg.NEURON.WORLD.W_FIRST n)
  let wc := s.get (Reg.NEURON.WORLD.W_COUNT n)
  let gf (g : Nat) : Nat := s.get (Reg.LEARN.WGRP.W_FIRST n g)
  let gc (g : Nat) : Nat := s.get (Reg.LEARN.WGRP.W_COUNT n g)
  let on (g : Nat) : Bool := s.flag (Reg.LEARN.WGRP.EN n g)
  firstBad ([
    (!s.isReady (pgSYNAPSE n) || !s.isReady (pgNEURON n), rcDep, 0xC),
    (s.get (Reg.LEARN.MOD_BASE.OFS n) % 32 != 0, rcAlign, 0x50),
    (s.get (Reg.LEARN.POST_BASE.OFS n) % 64 != 0, rcAlign, 0x54)]
    ++ ((List.range 4).map fun k => (decide (s.get (Reg.LEARN.RANGE.LAST n k) < s.get (Reg.LEARN.RANGE.FIRST n k)), rcRange, 0x70 + 4 * k))
    ++ ((List.range 8).flatMap fun g =>
      [(on g && (decide (gf g < wf) || decide (wf + wc < gf g + gc g)), rcRange, 0x80 + 4 * g),
       (on g && (List.range g).any (fun h => on h && decide (gf h < gf g + gc g) && decide (gf g < gf h + gc h)), rcOverlap, 0x80 + 4 * g)])
    ++ (List.range 64).map fun k => (!uopLegal (s.get (Reg.LEARN.PROG.UOP n (k / 16) (k % 16))), rcRange, 0x200 + 0x40 * (k / 16) + 4 * (k % 16)))

/-- The DEPTH entries that the VALID groups take at a leaf or spine switch: more than 256 anywhere. -/
def depthOver (s : State) : Bool :=
  let gs := (List.range 64).filter fun g => s.flag (Reg.REDUCE.RG_CFG.VALID g)
  let depth (g : Nat) : Nat := s.get (Reg.REDUCE.RG_CFG.DEPTH_M1 g) + 1
  (List.range 24).any (fun l => decide (256 < (gs.filter fun g => (s.redLeaves g).contains l).foldl (fun n g => n + depth g) 0))
    || (List.range 12).any (fun k => decide (256 < (gs.filter fun g => s.get (Reg.REDUCE.RG_CFG.SPINE g) == k).foldl (fun n g => n + depth g) 0))

def reduceCheck (s : State) : Option (Nat × Nat) :=
  firstBad (((List.range 64).flatMap fun g =>
    let v := s.flag (Reg.REDUCE.RG_CFG.VALID g)
    let op := s.get (Reg.REDUCE.RG_CFG.OP g)
    [(v && s.redMask g == 0, rcRange, 0x100 + 0x30 * g),
     (v && (decide (5 < op) || (op == 5 && g != 63) || decide (11 < s.get (Reg.REDUCE.RG_CFG.SPINE g)) || epKind (s.get (Reg.REDUCE.RG_CFG.ROOT_EP g)) == .none), rcRange, 0x120 + 0x30 * g)])
    ++ [(s.depthOver, rcCapacity, 0x120)])

/-- The entry of a bank for module m: VALID, DATELINE, PORT (R312). -/
def bankEntry (s : State) (bank m : Nat) : Bool × Bool × Nat :=
  let a := routePg (m / 512) bank + 0x800 + 4 * (m % 512)
  (s.flag (fld a 31 1 0), s.flag (fld a 30 1 0), s.get (fld a 0 3 0))

/-- The local check of a bank (R318): rule, ID, offset of the entry. -/
def bankCheck (s : State) (bank : Nat) : Option (Nat × Nat × Nat) :=
  let role (p : Nat) : Nat := s.get (Reg.FL.PORT_CFG.ROLE p)
  let valid := (List.range 4096).filter fun m => (s.bankEntry bank m).1
  let port (m : Nat) : Nat := (s.bankEntry bank m).2.2
  let at' (rule : Nat) (m : Option Nat) : Option (Nat × Nat × Nat) := m.map fun m => (rule, m, 0x800 + 4 * (m % 512))
  let r1 := at' 1 (valid.find? fun m => role (port m) == 0)
  let r2 := at' 2 (valid.find? fun m => m == s.modId)
  let r3 := at' 3 (valid.find? fun m => (s.bankEntry bank m).2.1 && role (port m) != 3)
  let ring := (List.range 8).any fun p => role p == 3
  let updn := (List.range 8).any fun p => role p == 1 || role p == 2
  let r4 := if ring && updn then some (4, 0, 0xC) else none
  let r5 := if bank = 1 then at' 5 (valid.find? fun m => s.flag (Reg.FL.PORT_CFG.FAILOVER (port m))) else none
  let mask (k : Nat) : Nat := s.get (Reg.FL.BCAST_FWD.PORTS 0 k)
  let r6 := ((List.range 9).find? fun k => (decide (k < 8) && (mask k).testBit k) || (List.range 8).any fun p => (mask k).testBit p && role p == 0).map fun k => (6, k, 0x220 + 4 * k)
  r1 <|> r2 <|> r3 <|> r4 <|> r5 <|> r6

/-- R387. -/
def spCheck (s : State) (p : Nat) : Option (Nat × Nat) :=
  let rx := s.get (Reg.SP.SP_CFG.RX_CHK p)
  let tx := s.get (Reg.SP.SP_CFG.TX_CHK p)
  let down (c : Nat) : Bool := !s.domOn (pageAt (checkPg c)).domain
  let off (c : Nat) : Bool := !s.isReady (checkPg c) || !s.isEnabled (checkPg c)
  let bind (c : Nat) : Bool := s.get (Reg.CHECK.CHK_CFG.BIND c) != 2 || s.get (Reg.CHECK.CHK_CFG.POLY c) != 0
  firstBad [(down rx || down tx, rcDomOff, 0xC), (off rx || off tx, rcDep, 0xC), (rx == tx, rcOverlap, 0x40), (bind rx || bind tx, 0x10, 0x40)]

/-- What the enable check of a page finds: code and offset (R59 and the owning chapters). A QUANT channel at its reset configuration, INT4 with SFMT NONE, is illegal by the table of R136 (log entry 15). -/
def enFault (s : State) (p : Page) : Option (Nat × Nat) :=
  let n := p.inst % 256
  match p.kind with
  | .issue => firstBad [(!s.isReady pgSNET, rcDep, 0xC)]
  | .step => s.stepCheck
  | .scale => firstBad ((s.flag (Reg.REDUCE.RG_CFG.VALID 63), rcCapacity, 0xC) :: (List.range 64).map fun t =>
      (s.flag (Reg.SCALE.T_CFG.EN t) && decide (signed 8 (s.get (Reg.SCALE.T_LIM.DMAX t)) < signed 8 (s.get (Reg.SCALE.T_LIM.DMIN t))), rcRange, 0x204 + 0x20 * t))
  | .check => firstBad [(s.get (Reg.CHECK.CHK_CFG.POLY p.inst) == 3 || s.get (Reg.CHECK.CHK_CFG.BIND p.inst) == 3, rcRange, 0x40)]
  | .mover =>
    let l := s.get (Reg.MOVER.RING_SIZE.LOG2 p.inst)
    let legal := decide (4 ≤ l) && decide (l ≤ 16)
    firstBad [(s.get (Reg.MOVER.RING_BASE.ADDR p.inst) % 32 != 0, rcAlign, 0x48),
      (legal && !populated (s.get (Reg.MOVER.RING_BASE.ADDR p.inst)) (32 * 2 ^ l), rcRange, 0x48), (!legal, rcRange, 0x50)]
  | .mem =>
    let a := s.get (Reg.MEM.MEM_CFG.BIN_MAX p.inst)
    let b := s.get (Reg.MEM.MEM_CFG.BIN_MIN p.inst)
    firstBad [(a == 3 || b == 3 || decide (b < a), rcRange, 0x40)]
  | .fl => firstBad [(!s.flag (Reg.FL.MOD_ID.VALID 0), rcDep, 0xC), (s.get (Reg.FL.PORT_CFG.ROLE p.inst) == 0 || s.get (Reg.FL.PORT_CFG.MIN_W p.inst) == 3, rcRange, 0x40),
      (decide (s.get (Reg.FL.DOWN_DET.US p.inst) < 2), rcRange, 0x44)]
  | .flr => (s.bankCheck (p.inst / 0x100)).map fun r => (rcLoop, r.2.2)
  | .sp => s.spCheck p.inst
  | .panel => firstBad [(decide (s.get Reg.PANEL.PANEL_CFG.LONG_MS < 100), rcRange, 0x40), (decide (s.get Reg.PANEL.PANEL_CFG2.TOUCH_MS < 100), rcRange, 0x44)]
  | .fabric => if p.inst = 4 then s.reduceCheck else none
  | .tile i =>
    match i with
    | 6 => firstBad ((List.range 16).map fun c =>
        (!fmtOk (s.get (Reg.QUANT.CH_CFG.FMT n c)) (s.get (Reg.QUANT.CH_CFG.SFMT n c)) true || decide (1 < s.get (Reg.QUANT.CH_CFG.RND n c))
          || decide (2 < s.get (Reg.QUANT.CH_CFG.GSIZE n c)), rcRange, 0x100 + 0x20 * c))
    | 7 =>
      let w := s.get (Reg.EVENT.EVT_CFG.COAL_WIN n)
      firstBad [(!s.isReady (pgNEURON n), rcDep, 0xC), (w == 0 || decide (64 < w), rcRange, 0x40)]
    | 8 => s.neuronCheck n
    | 9 =>
      let c := s.get (Reg.SYNAPSE.ROW_COUNT.COUNT n)
      firstBad [(s.get (Reg.SYNAPSE.ROW_BASE.OFS n) % 4 != 0, rcAlign, 0x40), (decide (65536 < c), rcRange, 0x44),
        (decide (0x300000 < s.get (Reg.SYNAPSE.ROW_BASE.OFS n) + 4 * c), rcCapacity, 0x44)]
    | 10 => s.learnCheck n
    | 12 => firstBad (((List.range 64).map fun q => (s.flag (Reg.QUEUE.QCFG.COMB n q) && s.get (Reg.QUEUE.QCFG.EXPECT n q) == 0, rcRange, 0x100 + 4 * q))
        ++ [(decide (8 < (List.range 64).countP fun q => s.flag (Reg.QUEUE.QCFG.COMB n q)), rcCapacity, 0x100)])
    | _ => none
  | _ => none

/-- A tile, a slice, a mover or ISSUE has come into service, READY and enabled: no STARTUP pass starts from now on (R474; log entry 31). -/
def inService (s : State) (p : Page) : State :=
  match p.kind with
  | .tile _ | .slice | .mover | .issue => { s with bist := { s.bist with everReady := true } }
  | _ => s

/-- The check of a page ends (R60): EN is set and what enabling starts begins, or the refusal is recorded. The check of a page whose clock is stopped has not ended; one whose domain leaves ON has failed (R59, Power). -/
def checkEnd (s : State) (pg : Nat) : State :=
  match s.checking.find? fun c => c.1 == pg with
  | none => s
  | some _ =>
    let p := pageAt pg
    if !s.pageUp p then s
    else
      let s := { s with checking := s.checking.filter fun c => c.1 != pg }.put (Reg.HDR.BLK_STAT.BUSY pg) 0
      match s.enFault p with
      | some (code, ofs) =>
        let s := match p.kind with
          | .flr => match s.bankCheck (p.inst / 0x100) with
            | some r => (s.put (fld (pg + 0x40) 29 3 0) r.1).put (fld (pg + 0x40) 0 12 0) r.2.1
            | none => s
          | _ => s
        s.refuse pg code ofs
      | none =>
        let s := (((s.put (Reg.HDR.BLK_CTRL.EN pg) 1).accept pg).put (Reg.HDR.BLK_STAT.REFUSED pg) 0).inService p
        match p.kind with
        | .fl => s.portOn p.inst
        | .mem => s.memTrain p.inst false
        | .panel => s.panelStart
        | .mover => s.mvKick p.inst
        | .scale => s.scaleGroup
        | .step => s.settle [320]
        | _ => s

/-- EN is written 1 while it reads 0: the check starts (R59). -/
def checkStart (s : State) (src : Source) (p : Page) : State :=
  if s.isEnabled p.base || s.checking.any (fun c => c.1 == p.base) then s
  else { s with checking := s.checking ++ [(p.base, src)] }.put (Reg.HDR.BLK_STAT.BUSY p.base) 1

/-- A core that has halted makes no access (R517). -/
def silent (s : State) (src : Source) : Bool :=
  match src with
  | .wcore => s.crown.halted.contains 0
  | .ecore => s.crown.halted.contains 1
  | _ => false

/-- Registers that belong to a slower domain (R66, R67): the always-on domain with the brim and CROWN's always-on registers, and the LPDDR6 controllers. -/
def slowReg (off : Nat) : Bool :=
  let p := pageAt off
  match p.kind with
  | .mem => true
  | .crown => aonReg p (off - p.base)
  | .unused => false
  | _ => p.domain == 324

/-- A write to a slower domain's register awaits its completion on C-net (R67). -/
def slowed (s : State) (src : Source) (off : Nat) : State :=
  if slowReg off && !s.slow.contains (src, off) then { s with slow := s.slow ++ [(src, off)] } else s

/-- A read reaches its page: its data (R51, R52, R59). -/
def readNow (s : State) (src : Source) (off : Nat) : Nat × State :=
  let p := pageAt off
  if p.kind == .unused then (0, s.unusedAccess off)
  else if !s.offUp off then ((s.downRead off).1, s)
  else
    match voteDomain off with
    | some d => (s.votes d, s)
    | none => (s.checkEnd p.base).pageRead src off

/-! The register bridge (R45): its reads. -/

/-- One read of the bridge: its status and data (R45, R51, R52). -/
def bridgeGet (s : State) (off : Nat) : Nat × Nat × State :=
  if (pageAt off).kind == .unused then (stUNMAPPED, 0, s.unusedAccess off)
  else
    let r := s.readNow .bridge off
    if !s.offUp off && !(s.downRead off).2 then (stDOMAIN_OFF, 0, r.2) else (stOK, r.1, r.2)

/-- The accesses of a request in their order: offset and byte position. Each aligned unit of 8 bytes is one pair, high word first for a write. -/
def bridgeOrder (a len : Nat) (wr : Bool) : List (Nat × Nat) :=
  (List.range (len / 4)).flatMap fun i =>
    let o := a + 4 * i
    let pairLow := o % 8 == 0 && decide (i + 1 < len / 4)
    let pairHigh := o % 8 == 4 && decide (0 < i)
    if wr && pairLow then [(o + 4, 4 * i + 4), (o, 4 * i)]
    else if wr && pairHigh then []
    else [(o, 4 * i)]

/-- The bridge carries out a request of length len at register offset a, each access by f; the first one that fails ends it (R45). A request that runs past register space is unmapped as a whole (R43, R242). -/
def bridgeEach (s : State) (ep a len : Nat) (wr : Bool) (f : State → Nat → Nat → Nat × Nat × State) : Nat × List Byte × State :=
  if 0x4000000 < a + len then (stUNMAPPED, [], s.unmapped ep (0x60000000 + a))
  else if a % 4 ≠ 0 ∨ len % 4 ≠ 0 ∨ len = 0 then (stUNMAPPED, [], s)
  else
    let r := (bridgeOrder a len wr).foldl (fun (acc : Nat × List (Nat × Nat) × State) x =>
      if acc.1 ≠ stOK then acc
      else
        let t := f acc.2.2 x.1 x.2
        (t.1, acc.2.1 ++ [(x.2, t.2.1)], t.2.2)) (stOK, [], s)
    (r.1, if r.1 = stOK && !wr then r.2.1.flatMap fun x => toBytes 4 x.2 else [], r.2.2)

/-- Read a range for an engine, in register space by way of the bridge (R45). -/
def readVia (s : State) (ep a len : Nat) : Nat × List Byte × State :=
  match region a with
  | .regs o => s.bridgeEach ep o len false fun s off _ => s.bridgeGet off
  | _ => s.readAny ep a len

end State
end Sys2Proof.Machine
end

