-- ==== Sys2Proof/Machine/Check.lean ====
section
/-! DEFINITION. The scan engines of the check-unit channels (R362 to R364): what they read, how a job starts and is aborted. -/
namespace Sys2Proof.Machine

/-- The endpoint that a channel shares with its movers (R237). -/
def epCheck (c : Nat) : Nat := epMover (4 * c)

namespace State

/-- A scan job is over: GO reads 0. -/
def scanOver (s : State) (c : Nat) : State := ((s.modChk c fun x => { x with scan := none }).put (Reg.CHECK.SCAN_CTRL.GO c) 0).chkEnd c

/-- One read of a scan engine: memory, with port-A accesses that meet it, or register space by way of the bridge (R45); an access that the cuff has timed out gives DOMAIN_OFF (R273). -/
def scanRead (s : State) (c a len : Nat) (coll : List PortA) : Nat × List Byte × State :=
  if (pieces 64 a len).any fun p => s.cutOff (epCheck c) p.1 then (stDOMAIN_OFF, [], s)
  else
    match region a with
    | .regs _ => s.readVia (epCheck c) a len
    | _ => s.serveMem 0 (epCheck c) a len [] coll

/-- The channel reads part of its range and computes over it: the first status that is not OK ends it. -/
def scanFeed (s : State) (c poly a len : Nat) (coll : List PortA) : Nat × State :=
  (pieces 4096 a len).foldl (fun acc p =>
    if acc.1 ≠ stOK then acc
    else
      let r := acc.2.scanRead c p.1 p.2 coll
      if r.1 = stOK then (stOK, r.2.2.chkFeed c poly r.2.1) else (r.1, r.2.2)) (stOK, s)

/-- A failed read or write of a scan (R363). -/
def scanFail (s : State) (c st : Nat) : State := ((s.put (Reg.CHECK.SCAN_STAT.CODE c) st).causeErr (checkPg c) 6).scanOver c

/-- The leading bytes of a range that its scan engine can have read: up to the first line that waits in the cuff (R273). -/
def scanReach (s : State) (c a len : Nat) : Nat :=
  match (s.farLines (epCheck c) [(a, len)]).filter fun l => !s.cutOff (epCheck c) l with
  | [] => len
  | l :: _ => l - a

end State

/-- SCAN_GO (R63, R364): the checks in their order; an accepted job is latched and starts. -/
def actScanGo (src : Source) (c : Fin 8) (op : Fin 4) (cont : Bool) (s : State) : Res :=
  let _ := src
  let c := c.val
  let a := s.get (Reg.CHECK.SCAN_ADDR.ADDR c)
  let len := s.get (Reg.CHECK.SCAN_LEN.LEN c)
  let no (code : Nat) : Res := .next (s.refuse (checkPg c) code 0x54)
  if !s.pageUp (pageAt (checkPg c)) then .next s
  else if op.val = 3 then no rcRange
  else if !s.isEnabled (checkPg c) then no rcDep
  else if s.get (Reg.CHECK.CHK_CFG.BIND c) ≠ 0 then no rcMode
  else if !s.chkFree c then no rcBusy
  else if a % 8 ≠ 0 ∨ len % 8 ≠ 0 then no rcAlign
  else if len < 8 ∨ !populated a (len + if op.val = 0 then 0 else 8) then no rcRange
  else
    let poly := s.get (Reg.CHECK.CHK_CFG.POLY c)
    let s := ((s.put (Reg.CHECK.SCAN_CTRL.OP c) op.val).put (Reg.CHECK.SCAN_CTRL.CONT c) (if cont then 1 else 0)).put (Reg.CHECK.SCAN_CTRL.GO c) 1
    .next ((s.modChk c fun x => { x with scan := some (a, len, op.val, poly) }).chkBegin c poly cont)

/-- SCAN_ABORT (R364): the active scan job ends; CHK_RUN keeps the value over the bytes processed, whole units of 8 (log entry 27). Reads that the cuff holds are given up with it. -/
def actScanAbort (src : Source) (c : Fin 8) (processed : BitVec 30) (s : State) : Res :=
  let _ := src
  match (s.chkCh c.val).scan with
  | none => .next s
  | some (a, len, _, poly) =>
    if !s.pageUp (pageAt (checkPg c.val)) then .next s
    else
      let r := (s.scanFeed c.val poly a (min (s.scanReach c.val a len) (processed.toNat / 8 * 8)) []).2
      .next (((State.lines [(a, len + 8)]).foldl (fun s l => s.cuffLeave (.acc (epCheck c.val) l)) r).scanOver c.val)

end Sys2Proof.Machine
end

