-- ==== Sys2Proof/Machine/Loader.lean ====
section
/-! DEFINITION. Images and the loader (R89 to R92). -/
namespace Sys2Proof.Machine

/-! Images (R89 to R92). -/

/-- A field of k bytes at an offset of an image's header or tables. -/
def imgField (bs : List Byte) (ofs k : Nat) : Nat := ofBytes ((bs.drop ofs).take k)

/-- The target lanes of a segment entry as a mask (bit 256: the global lane); none where TARGET, LEN or the reserved bytes break their ranges. -/
def segTarget (tbl : List Byte) (masks : Nat) (e : Nat) : Option Nat :=
  let t := imgField tbl e 2
  let len := imgField tbl (e + 4) 2
  if len = 0 ∨ 16384 < len ∨ imgField tbl (e + 6) 2 ≠ 0 then none
  else if t.testBit 15 then (if bits t 14 4 = 0 ∧ t % 16 < masks then some (imgField tbl (32 * (t % 16)) 32) else none)
  else if bits t 14 9 = 0 ∧ t % 512 ≤ 0x100 then some (2 ^ (t % 512)) else none

/-- A segment as a load keeps it: target mask, START, LEN, DATA_OFS, CRC. -/
def segAt (tbl : List Byte) (masks i : Nat) : Option (Nat × Nat × Nat × Nat × Nat) :=
  let e := 32 * masks + 16 * i
  (segTarget tbl masks e).map fun m => (m, imgField tbl (e + 2) 2, imgField tbl (e + 4) 2, imgField tbl (e + 8) 4, imgField tbl (e + 12) 4)

/-- Two segments write a word of one lane (check 9). -/
def segOverlap (a b : Nat × Nat × Nat × Nat × Nat) : Bool :=
  (a.1 &&& b.1 != 0) && decide (a.2.1 < b.2.1 + b.2.2.1) && decide (b.2.1 < a.2.1 + a.2.2.1)

def anyOverlap : List (Nat × Nat × Nat × Nat × Nat) → Bool
  | [] => false
  | a :: t => t.any (segOverlap a) || anyOverlap t

/-- Words 0 to len − 1 of lane n that disjoint segments write (check 10). -/
def laneCover (segs : List (Nat × Nat × Nat × Nat × Nat)) (n len : Nat) : Nat :=
  (segs.filter fun x => x.1.testBit n).foldl (fun k x => k + (min (x.2.1 + x.2.2.1) len - min x.2.1 len)) 0

/-- The lanes that segments target. -/
def segLanes (segs : List (Nat × Nat × Nat × Nat × Nat)) : Nat := segs.foldl (fun m x => m ||| x.1) 0

/-- Checks 4 to 10 of R90 on a header and its tables: the record and the segments, or the reason. -/
def imageCheck (h tbl : List Byte) : Except Nat (ImageRec × List (Nat × Nat × Nat × Nat × Nat)) :=
  let plan := imgField h 8 1
  let masks := imgField h 9 1
  let nseg := imgField h 0xA 2
  let len := imgField h 0xC 2
  let entry := imgField h 0xE 2
  let mask := imgField h 0x10 32
  let total := imgField h 0x30 4
  let r : ImageRec := { mask := mask, entry := entry, len := len, planW := plan % 4, planE := bits plan 3 2, bounds := (imgField h 6 2).testBit 0,
                        fmt := imgField h 5 1 % 16 * 16 + imgField h 4 1 % 16 }
  let all := (List.range nseg).map (segAt tbl masks)
  let segs := all.filterMap id
  let tabMasks := (List.range masks).map fun i => imgField tbl (32 * i) 32
  if imgField h 5 1 ≠ 1 then .error rcVersion
  else if imgField h 6 2 / 2 ≠ 0 ∨ plan / 16 ≠ 0 ∨ imgField h 0x34 4 ≠ 0 ∨ masks = 0 ∨ 16 < masks ∨ nseg = 0 ∨ 4096 < nseg ∨ len = 0 ∨ 16384 < len ∨ len ≤ entry
      ∨ r.planW = 3 ∨ r.planE = 3 ∨ r.planW = 2 ∨ all.any (fun x => x.isNone) then .error rcRange
  else if r.bounds ∧ (r.planW ≠ 0 ∨ r.planE ≠ 0) then .error rcMode
  else if r.planE = 2 ∧ (mask :: tabMasks).any (fun m => m / 2 ^ 128 != 0) then .error 0x16
  else if segs.any (fun x => decide (16384 < x.2.1 + x.2.2.1) || decide (total < x.2.2.2.1 + 16 * x.2.2.1)) then .error 0x14
  else if segs.any (fun x => x.2.2.2.1 % 16 != 0) then .error rcAlign
  else if anyOverlap segs then .error rcOverlap
  else if (256 :: members mask 256).any (fun n => laneCover segs n len != len) then .error 0x15
  else .ok (r, segs)

namespace State

/-- The store that a load writes (R92). -/
def loadTo (s : State) : Nat := 1 - s.issue.runStore

/-- A load has ended (R91, R92, R96, R101): with no stream the state is READY or IDLE, unless a fault holds it at FAULTED. -/
def loadDone (s : State) (ok : Bool) : State :=
  let s := ((s.put Reg.ISSUE.LOAD_CTRL.LOAD 0).put Reg.ISSUE.LOAD_STAT.LOADED (if ok then 1 else 0)).put Reg.ISSUE.LOAD_STAT.FAILED (if ok then 0 else 1)
  let s := s.modIssue fun i => { i with job := none }
  let s := if s.streamActive || s.stream == stFaulted then s else s.setStream s.restState
  (s.cause pgISSUE 4).settle []

/-- A load fails: the content of every lane it targeted is undefined, and no image is loaded (R91, R92). -/
def loadFail (s : State) (code : Nat) : State :=
  let lanes := (s.issue.job.map (·.lanes)).getD 0
  let s := (members lanes 256).foldl (fun s n => s.modTile n fun t => { t with lanes := [], lanesZero := false, laneFlips := [] }) s
  let s := if !lanes.testBit 256 then s else
    let mine (k : Nat) : Bool := k / 16384 == s.loadTo
    s.modIssue fun i => { i with lanes := i.lanes.filter (fun c => !mine c.1), flips := i.flips.filter (fun c => !mine c.1) }
  ((s.reason pgISSUE code 0x048).modIssue fun i => { i with loaded := none }).loadDone false

/-- A segment's words enter its lanes; a lane word written is whole again. -/
def writeLane (s : State) (n start : Nat) (ws : List Word128) : State :=
  let l := (List.range ws.length).zip ws
  if n = 256 then
    let b := 16384 * s.loadTo + start
    s.modIssue fun i => { i with lanes := l.foldl (fun m x => insert (b + x.1) x.2 m) i.lanes, flips := l.foldl (fun m x => remove (b + x.1) m) i.flips }
  else if !s.domOn n then s
  else s.modTile n fun t =>
    { t with lanes := l.foldl (fun m x => insert (start + x.1) x.2 m) t.lanes, laneFlips := l.foldl (fun m x => remove (start + x.1) m) t.laneFlips }

/-- One segment is read once, checked and sent (R91): none while every one so far is good, else the reason. -/
def loadSegment (acc : Option Nat × State) (base : Nat) (x : Nat × Nat × Nat × Nat × Nat) : Option Nat × State :=
  match acc.1 with
  | some _ => acc
  | none =>
    let r := acc.2.readVia epISSUE (base + x.2.2.2.1) (16 * x.2.2.1)
    if r.1 ≠ stOK then (some 0x18, r.2.2)
    else
      let ws := (List.range x.2.2.1).map fun i => BitVec.ofNat 128 (elem 16 i r.2.1)
      let s := ((members x.1 257).foldl (fun s n => s.writeLane n x.2.1 ws) r.2.2).bump Reg.ISSUE.LOAD_STAT.SEG_DONE
      (if crc32c r.2.1 = x.2.2.2.2 then none else some 0x13, s)

/-- The checks of R90 in their order, up to check 11: the header record and the segments, or the reason. -/
def loadChecks (s : State) (a : Nat) : Except Nat (ImageRec × List (Nat × Nat × Nat × Nat × Nat)) × State :=
  if a % 64 ≠ 0 then (.error rcAlign, s)
  else
    let h := s.readVia epISSUE a 64
    if h.1 ≠ stOK then (.error 0x18, h.2.2)
    else if imgField h.2.1 0 4 ≠ 0x534B4E59 then (.error 0x11, h.2.2)
    else if crc32c (h.2.1.take 0x3C) ≠ imgField h.2.1 0x3C 4 then (.error 0x12, h.2.2)
    else
      let t := h.2.2.readVia epISSUE (a + 0x40) (32 * imgField h.2.1 9 1 + 16 * imgField h.2.1 0xA 2)
      let s := t.2.2
      if t.1 ≠ stOK then (.error 0x18, s)
      else if crc32c t.2.1 ≠ imgField h.2.1 0x38 4 then (.error 0x12, s)
      else
        match imageCheck h.2.1 t.2.1 with
        | .error c => (.error c, s)
        | .ok (r, segs) =>
          let ts := members (segLanes segs) 256
          if ts.any (fun n => !s.domOn n || !s.isReady (tilePg n 0)) then (.error rcDomOff, s)
          else if ts.any s.inRun then (.error rcBusy, s)
          else (.ok (r, segs), s)

/-- What the checks of an image read: its header, and the tables that a good header names. -/
def loadRanges (s : State) (a : Nat) : List (Nat × Nat) :=
  let h := (s.readVia epISSUE a 64).2.1
  (a, 64) :: (if (s.farLines epISSUE [(a, 64)]).isEmpty && imgField h 0 4 == 0x534B4E59 && crc32c (h.take 0x3C) == imgField h 0x3C 4
    then [(a + 0x40, 32 * imgField h 9 1 + 16 * imgField h 0xA 2)] else [])

/-- The loader reads and checks the image at an address; while it lies in a half that does not run, LOAD_END finds the load here (R273). -/
def loadBegin (s : State) (a : Nat) : State :=
  let s := s.modIssue fun i => { i with loadAddr := some a }
  s.guard epISSUE 10 (if a % 64 = 0 then s.loadRanges a else []) fun s =>
    let r := (s.modIssue fun i => { i with loadAddr := none }).loadChecks a
    match r.1 with
    | .error c => r.2.loadFail c
    | .ok (h, segs) => (r.2.modIssue fun i => { i with job := some ⟨a, h, segs, segLanes segs⟩ }).settle []

end State

/-- LOAD (R90, R92): refused with BUSY while a load runs; else LOADED becomes 0, and the checks of R90 run in order before anything is written. -/
def actLoad (s : State) : Res :=
  if !s.pageUp (pageAt pgISSUE) then .next s
  else if s.flag Reg.ISSUE.LOAD_CTRL.LOAD then .next (s.refuse pgISSUE rcBusy 0x048)
  else
    let s := ((s.put Reg.ISSUE.LOAD_CTRL.LOAD 1).put Reg.ISSUE.LOAD_STAT.LOADED 0).put Reg.ISSUE.LOAD_STAT.FAILED 0
    let s := (s.put Reg.ISSUE.LOAD_STAT.SEG_DONE 0).modIssue fun i => { i with loaded := none, job := none, loadAddr := none }
    let s := if s.streamActive || s.stream == State.stFaulted then s else s.setStream State.stLoading
    .next (s.loadBegin (s.get Reg.ISSUE.IMG_ADDR.ADDR))

namespace State

/-- Every segment is read once and sent; when every CRC matches the image is loaded, else the load fails. -/
def loadSegments (s : State) (j : LoadJob) : State :=
  let r := j.segs.foldl (fun acc x => loadSegment acc j.addr x) (none, s)
  match r.1 with
  | some c => r.2.loadFail c
  | none =>
    let s := r.2.modIssue fun i => { i with loaded := some j.hdr, loadStore := r.2.loadTo }
    let s := (List.range 8).foldl (fun s w => s.put (Reg.ISSUE.RUN_MASK.TILES w) (bits j.hdr.mask (32 * w + 31) (32 * w))) s
    let s := ((s.put Reg.ISSUE.IMG_INFO.PLAN_E j.hdr.planE).put Reg.ISSUE.IMG_INFO.PLAN_W j.hdr.planW).put Reg.ISSUE.IMG_INFO.BOUNDS (if j.hdr.bounds then 1 else 0)
    ((s.put Reg.ISSUE.IMG_INFO.FMT j.hdr.fmt).put Reg.ISSUE.IMG_INFO.LEN_M1 (j.hdr.len - 1)).loadDone true

end State

/-- LOAD_END (R90 check 12, R91, R92): every segment is read once and sent; when every CRC matches and every written lane has acknowledged its fence, the image is loaded; a CRC that differs fails the load. Reads of a half that does
not run wait in the cuff (R273), and the loader with them: a load whose header or tables were held is checked now. -/
def execLoadEnd (s : State) : Res :=
  match s.issue.job with
  | none => match s.issue.loadAddr with | some a => .next (s.loadBegin a) | none => .next s
  | some j =>
    if (members j.lanes 256).any (fun n => !s.domOn n) then .next s
    else .next (s.guard epISSUE 10 (j.segs.map fun x => (j.addr + x.2.2.2.1, 16 * x.2.2.1)) fun s => s.loadSegments j)

/-- LOAD_TIMEOUT (R91): an acknowledgement is missing after 2^20 CCLK cycles. -/
def execLoadTimeout (s : State) : Res :=
  match s.issue.job with
  | none => .next s
  | some _ => .next (s.loadFail 0x17)

end Sys2Proof.Machine
end

