-- ==== Sys2Proof/Machine/Resets.lean ====
section
/-! DEFINITION. Bring-up, the three reset levels, yield remap, tile firmware and the logic self-test (chapter 15). -/
namespace Sys2Proof.Machine

namespace State

/-! Cold and compute reset. -/

/-- The good physical tiles of a half, ascending (R467). -/
def goodTiles (f : FusesS) (half : Nat) : List Nat := ((List.range 136).map (136 * half + ·)).filter fun p => !f.bad.contains p

/-- Every register field that a cold reset loads from fuses, with its value (R23: the fields whose Reset entry is "fuse"; R5, R7, R425, R430, R467, R469, R524). -/
def fuseFields (f : FusesS) : List (Field × Nat) :=
  [(Reg.GLOBAL.MOD_ID.GRADE, f.grade), (Reg.CLOCK.RCLK_CFG.MULT, gradeMult f.grade), (Reg.POWER.CAP_CFG.CAP, gradeCap f.grade),
   (Reg.CROWN.FW_STAT.ROLLBACK, f.rollback), (Reg.SECURITY.OTP_STAT.ROLLBACK, f.rollback), (Reg.SECURITY.OTP_STAT.PROV, if f.prov then 1 else 0),
   (Reg.SECURITY.OTP_STAT.VKEY_REVOKE, f.revoke), (Reg.SECURITY.LOCK.BITS, f.permLock), (Reg.SECURITY.PERM_LOCK.BITS, f.permLock)]
  ++ (List.range 2).map (fun p => (Reg.SP.MAC.ADDR p, f.macs.getD p 0))
  ++ (List.range 84).flatMap (fun i => [(Reg.CROWN.SENS_THR_HI.WARN_HI i, Reg.thrOf f.grade 0 i), (Reg.CROWN.SENS_THR_HI.CRIT_HI i, Reg.thrOf f.grade 1 i),
       (Reg.CROWN.SENS_THR_LO.CRIT_LO i, Reg.thrOf f.grade 2 i), (Reg.CROWN.SENS_THR_LO.HYST i, Reg.thrOf f.grade 3 i)])
  ++ (List.range 9).map (fun w => (Reg.RESET.FUSE_BAD.BAD w, (List.range 32).foldl (fun v b => if f.bad.contains (32 * w + b) && decide (32 * w + b < 272) then v + 2 ^ b else v) 0))
  ++ (List.range 256).map (fun n => (Reg.RESET.TILE_MAP.PHYS n, (goodTiles f (n / 128)).getD (n % 128) 0))
  ++ (List.range 64).map (fun k => (Reg.RESET.ROWFIX_CNT.ROWS k, (f.rows.filter (fun r => decide (r.1 = k))).length))

/-- The module after a cold reset (R461, R3): everything but the boot flash, the fuses and what waits outside it; the fuse-loaded fields take the fuses' values, and the fuse map's rows are repaired (R469). -/
def cold (s : State) (cause : Nat) : State :=
  let r := { State.reset with flash := s.flash, fuses := s.fuses, rowfix := s.fuses.rows, out := s.out, fresh := s.fresh, pending := s.pending }
  let r := r.lose 0 0x40000000
  let r := r.lose 0x40000000 0x50000000
  let r := r.lose 0x1000000000 0x3000000000
  let r := r.put Reg.RESET.RST_STAT.COLD_CAUSE cause
  let r := (fuseFields s.fuses).foldl (fun r f => r.put f.1 f.2) r
  let r := ([pgGLOBAL, pgCLOCK, pgPOWER, pgRESET, pgTWIN, pgSECURITY] ++ (List.range 2).map spPg ++ (List.range 4).map sctxPg
    ++ (List.range 8).flatMap (fun p => [routePg p 0, routePg p 1, flcPg p])).foldl (fun r pg => r.put (Reg.HDR.BLK_STAT.READY pg) 1) r
  r.aonLog 0x0001 (if cause = 2 then 3 else (Config.logSev 0x0001).val) [BitVec.ofNat 8 cause]

/-- The hidden state of the blocks that a compute reset clears (R463, R464). -/
def computeUnits (s : State) : State :=
  let r := State.reset
  { s with issue := r.issue, tiles := r.tiles, tfw := r.tfw, bist := r.bist, bankTo := r.bankTo, scrub := r.scrub, bridge := r.bridge, scale := r.scale, bar := r.bar
           net := r.net, step := r.step, ctx := r.ctx, movers := r.movers, posts := r.posts, chk := r.chk, train := r.train
           qnet := { s.qnet with fly := [], done := [] } }

/-- The host's sends in flight complete with DEAD_QUEUE (R465). -/
def windowsDead (s : State) : State := s.qnet.winTx.foldl (fun s x => s.winOver x.1 qDEAD) s

/-- Whether a page's block is usable once its reset ends: links and memory channels wait for training, firmware pages for firmware, a reserved target for its test. -/
def usable (s : State) (p : Page) : Bool :=
  match p.kind with
  | .mem | .fl => false
  | .tile i => (!State.fwPage i || (s.tile (p.inst % 256)).fwOk) && !s.bistReserved 0 (p.inst % 256)
  | .slice => !s.bistReserved 1 p.inst
  | .mover => !s.bistReserved 2 p.inst
  | .check => !s.bistReserved 3 p.inst
  | .issue | .step => !s.bistReserved 4 0
  | .crown => s.isReady pgCROWN || !s.crown.booting
  | _ => true

/-- Pages that a compute reset clears though their blocks go on: outside the halves, but none of FREASH and the stream ports (R22, R526). -/
def keptPages : List Nat := [pgGLOBAL, pgCROWN, pgCLOCK, pgPOWER, pgRESET, pgTIMERS, pgPANEL, pgTWIN, pgSECURITY] ++ (List.range 4).map sctxPg

/-- A compute reset begins (R22, R463, R464, R496): every block outside the always-on domain, the brim and the crown is reset; LPDDR6 contents stay; tile and slice domains go OFF; UP channels enter self-refresh. Block-level registers of the other pages clear too, while READY follows their blocks, which stay usable. -/
def computeBegin (s : State) : State :=
  let ready := keptPages.filter fun pg => s.isReady pg || (s.flag (Reg.HDR.BLK_CTRL.SRST pg) && s.usable (pageAt pg))
  let s := s.clearRegs fun off => (pageAt off).computeCleared && levelOf off != some .cold && levelOf off != none
  let s := ready.foldl (fun s pg => s.put (Reg.HDR.BLK_STAT.READY pg) 1) s
  let s := s.computeUnits
  let s := { s with power := { s.power with dom := s.power.dom.filter (fun c => decide (320 ≤ c.1)), held := [] } }
  let s := { s with shadows := s.shadows.filter (fun h => !(pageAt h.page).inCompute), checking := [] }
  let s := s.lose 0 0x40000000
  let s := s.lose 0x40000000 0x50000000
  ((s.put Reg.RESET.RST_STAT.COMP_ACTIVE 1).selfDemote).pcieCompute.windowsDead

end State

/-- POWER_ON (R459 to R461, R467): input power returns and the module comes up from cold reset. -/
def execPowerOn (s : State) : Res := .next (s.cold 0)

/-- INPUT_POWER_LOSS (R3): all volatile state is lost; a record being programmed is torn. -/
def execInputPowerLoss (torn : Bool) (s : State) : Res :=
  let log := match torn, s.crown.logQueue with
    | true, r :: _ => s.flash.log ++ [{ r with seq := s.get Reg.CROWN.LOG_NEXT.SEQ, good := false }]
    | _, _ => s.flash.log
  let r := s.cold 0
  .next { r with flash := { s.flash with log := log }, power := { r.power with dom := [], input := false } }

/-- SUPPLY_FAULT (R461): a monitor below its fused limit makes a cold reset with cause SUPPLY. -/
def execSupplyFault (vm : Fin 16) (s : State) : Res :=
  let _ := vm
  if s.power.input then .next (s.cold 2) else .next s

/-- The writers of RST_CTRL (R462): the host, or the holder. -/
def resetWriter (s : State) (src : Source) : Bool := src == .host || s.authorised src

/-- COLD (R462): from the host or the holder with the key; it takes precedence over a compute reset. -/
def actCold (src : Source) (key : BitVec 16) (s : State) : Res :=
  if !resetWriter s src then .next (s.refuse pgRESET rcNotHolder 0x40)
  else if key ≠ 0x5A5A then .next (s.refuse pgRESET rcRange 0x40)
  else .next (s.cold 1)

/-- COMPUTE (R462, R463): from the host or the holder with the key; no effect during a compute reset. -/
def actCompute (src : Source) (key : BitVec 16) (s : State) : Res :=
  if !resetWriter s src then .next (s.refuse pgRESET rcNotHolder 0x40)
  else if key ≠ 0x5A5A then .next (s.refuse pgRESET rcRange 0x40)
  else if s.flag Reg.RESET.RST_STAT.COMP_ACTIVE then .next s
  else .next s.computeBegin

/-- COMPUTE_RESET_END (R463, R487): COMP_ACTIVE clears, COMP_CNT counts, COMP_DONE is set; the fabric halves and the LPDDR6 domain are ON again on the votes they hold. -/
def execComputeResetEnd (s : State) : Res :=
  if !s.flag Reg.RESET.RST_STAT.COMP_ACTIVE then .next s
  else
    let s := s.put Reg.RESET.RST_STAT.COMP_ACTIVE 0
    let s := (s.bump Reg.RESET.COMP_CNT.CNT).cause pgRESET 4
    let s := [320, 321].foldl (fun s d => if s.domOn d then s.domUp d else s) s
    .next (s.settle [322, 323])

/-! Block reset. -/

namespace State

/-- What follows when a page's EN becomes 0, by a write or by a block reset (R205, R209, R219, R294, R308, R365, and the tables of writes that reach work in flight). -/
def enOff (s : State) (p : Page) : State :=
  match p.kind with
  | .issue => s.faultHalt 0xE s.lastIndex none
  | .step => s.stepOff.settle [320]
  | .scale => s.scaleGroupFree
  | .fl => s.portOff p.inst
  | .mem => s.memOff p.inst
  | .mover => s.mvAbort p.inst
  | .tile 7 => s.flushFifo (p.inst % 256)
  | .tile 10 => s.learnOff (p.inst % 256)
  | .tile 12 => s.qDeadCheck (p.inst % 256)
  | _ => s

/-- EN reads 0 from now on. -/
def clearEn (s : State) (p : Page) : State :=
  if s.isEnabled p.base then (s.put (Reg.HDR.BLK_CTRL.EN p.base) 0).enOff p else s

/-- A mover's block is reset (R365): its descriptor ends at once with ABORTED, one that is being fetched too, and so does each posted one that its ring loses (log entry 27). -/
def mvReset (s : State) (m : Nat) : State :=
  let v := s.mover m
  let idx := s.get (Reg.MOVER.RING_TAIL.IDX m)
  let s := if v.fetch.isSome || v.fetched.isSome then
      (s.modMover m fun v => { v with copies := remove idx v.copies }).mvFinish m idx mvABORTED 0 none false false true ((lookup idx v.copies).bind (·.2))
    else s.mvEnd m mvABORTED none
  let s := s.mvClose m stOK
  let s := (s.mover m).copies.foldl (fun s c => match c.2.2 with | some (t, k) => s.postReply t (some k) (mvWord mvABORTED 0) | none => s) s
  { s with movers := remove m s.movers }

/-- The hidden state of a block that its block reset clears (R54, R131, R231, R294, R466). -/
def blockHidden (s : State) (p : Page) : State :=
  let n := p.inst % 256
  match p.kind with
  | .issue => { s with issue := State.reset.issue }.settle [320]
  | .step => { s with step := StepS.reset }
  | .scale => { s with scale := State.reset.scale }
  | .bist => { s with bist := { s.bist with waiting := [], running := [], ended := [], recordDue := false } }
  | .mover => { s with movers := remove p.inst s.movers }
  | .check => { s with chk := remove p.inst s.chk }
  | .mem => { s with train := remove p.inst s.train }
  | .fl => { s with links := remove p.inst s.links }
  | .sctx => { s with ctx := s.ctx.filter fun c => decide (c.1 / 32 ≠ p.inst) }
  | .timers => { s with timers := [], caps := [] }
  | .panel => { s with panel := State.reset.panel }
  | .fabric => if p.inst = 2 then { s with bar := [] } else if p.inst = 4 then { s with net := { s.net with red := [] } } else s
  | .slice => { s with net := { s.net with comb := s.net.comb.filter fun c => c.slice != p.inst } }
  | .tile i =>
    match i with
    | 2 => s.modTile n fun t => { t with loops := [], due := [], tracked := [] }
    | 3 => s.modTile n fun t => { t with sregs := [] }
    | 4 => s.modTile n fun t => { t with vregs := [], masks := [] }
    | 5 => s.modTile n fun t => { t with acc := [], arr := Tile.reset.arr }
    | 6 => s.modTile n fun t => { t with clipSeen := [] }
    | 7 => s.modEvt n fun e => { e with fifo := [], closed := false, waiting := false }
    | 8 => s.modEvt n fun e => { e with psets := [], fire := none, sweep := none, ro := [], roAct := 0, roCount := [], roSkip := 0, roStep := [], copies := [] }
    | 9 => s.modEvt n fun e => { e with hlock := none, waiting := false }
    | 10 => s.modEvt n fun e => { e with apply := none, moves := [] }
    | 11 => s.modEvt n fun e => { e with ring := [], work := [], remnant := [], held := [], heldDeliver := false }
    | 12 => s.modQueue n fun _ => QueueS.reset
    | _ => s
  | _ => s

/-- A self-test pass is ended by the reset of its engine: its targets are released untested. -/
def bistStop (s : State) : State :=
  let ts := s.bist.waiting ++ s.bist.running ++ s.bist.ended.map (fun e => (e.1, e.2.1))
  { s with bist := { s.bist with reserved := s.bist.reserved.filter fun t => !ts.contains t } }

/-- Work in flight of a block whose reset begins (R466): its EN falls, a mover's descriptor ends with ABORTED, a held message completes with DEAD_QUEUE, the host lock of rows is released (R231). -/
def blockStop (s : State) (p : Page) : State :=
  let s := if p.kind = .tile 10 then s.sweepCut (p.inst % 256) else s
  let s := s.clearEn p
  match p.kind with
  | .mover => s.mvReset p.inst
  | .tile 12 => match (s.queue (p.inst % 256)).held with
    | some f => (s.unhold (p.inst % 256)).qDiscardDead (p.inst % 256) f
    | none => s
  | .tile 9 => s.hlockFree (p.inst % 256)
  | .bist => s.bistStop
  | _ => s

end State

/-- BLOCK_RESET (R54, R466, R97, R199): SRST reads 1, block-level registers and the page's shadows clear, READY falls. SRST of a TILE page resets the 15 used pages of its tile; a tile in the running mask halts the stream, a masked tile abandons the step.
A page that is not up, or already resetting, drops the write. -/
def actBlockReset (src : Source) (pg : Ofs) (s : State) : Res :=
  let _ := src
  let p := pageAt pg.toNat
  if p.kind == .unused || !s.pageUp p || s.flag (Reg.HDR.BLK_CTRL.SRST p.base) then .next s
  else
    let isTile := p.kind == .tile 0
    let n := p.inst % 256
    let pages := if isTile then (List.range 15).map (tilePg n) else [p.base]
    let s := if isTile then s.laneLost n else s
    -- R199: the tile is no longer READY for its step.
    let s := if pages.any (fun b => b == tilePg n 7 || b == tilePg n 8 || b == tilePg n 11) then s.stepLost n else s
    let s := pages.foldl (fun s b =>
      let s := ((s.blockStop (pageAt b)).clearBlock (pageAt b)).blockHidden (pageAt b)
      { s with shadows := s.shadows.filter (fun h => h.page != b), checking := s.checking.filter (fun c => c.1 != b) }) s
    .next ((s.put (Reg.HDR.BLK_CTRL.SRST p.base) 1).put (Reg.HDR.BLK_STAT.BUSY p.base) 1)

/-- BLOCK_RESET_END (R54, R466): SRST reads 0 and the block raises READY again when it is usable. -/
def execBlockResetEnd (pg : Ofs) (s : State) : Res :=
  let p := pageAt pg.toNat
  if !s.flag (Reg.HDR.BLK_CTRL.SRST p.base) then .next s
  else
    let pages := if p.kind == .tile 0 then (List.range 15).map (tilePg (p.inst % 256)) else [p.base]
    let s := (s.put (Reg.HDR.BLK_CTRL.SRST p.base) 0).put (Reg.HDR.BLK_STAT.BUSY p.base) 0
    .next (pages.foldl (fun s b => if s.pageUp (pageAt b) && s.usable (pageAt b) then s.setReady b true else s) s)

/-! Remap. -/

/-- TILE_MAP (R468): authority, lock REMAP, then BUSY unless the tile's domain is OFF, FIELD_RANGE for the other half, a fuse-marked tile or a value above 271, OVERLAP when another logical tile maps there. -/
def actTileMap (src : Source) (n : TileId) (phys : BitVec 9) (s : State) : Res :=
  let p := phys.toNat
  let ofs := 0x400 + 4 * n.val
  if !s.authorised src then .next (s.refuse pgRESET rcNotHolder ofs)
  else if (s.get Reg.SECURITY.LOCK.BITS).testBit 2 then .next (s.refuse pgRESET rcLocked ofs)
  else if s.domState n.val != .off then .next (s.refuse pgRESET rcBusy ofs)
  else if p > 271 ∨ p / 136 ≠ n.val / 128 ∨ (s.get (Reg.RESET.FUSE_BAD.BAD (p / 32))).testBit (p % 32) then
    .next (s.refuse pgRESET rcRange ofs)
  else if (List.range 256).any (fun m => m ≠ n.val && s.get (Reg.RESET.TILE_MAP.PHYS m) == p) then .next (s.refuse pgRESET rcOverlap ofs)
  else
    -- A remap replaces a failed target (R480).
    let s := { s with bist := { s.bist with reserved := s.bist.reserved.filter (· != (0, n.val)) } }
    .next ((s.accept pgRESET).put (Reg.RESET.TILE_MAP.PHYS n.val) p)

/-- ROWFIX_SOFT (R469, R430): adds one soft row repair: refused with LOCKED under lock REMAP, BUSY unless the slice's domain is OFF, CAPACITY when the bank's 4 spare rows are used. -/
def actRowfixSoft (src : Source) (slice : Fin 64) (bank : Fin 16) (row : BitVec 8) (s : State) : Res :=
  let _ := src
  let s0 := ((s.put Reg.RESET.ROWFIX_SOFT.SLICE slice.val).put Reg.RESET.ROWFIX_SOFT.BANK bank.val).put Reg.RESET.ROWFIX_SOFT.ROW row.toNat
  let used := (s.rowfix.filter (fun r => r.1 = slice.val ∧ r.2.1 = bank.val)).length
  if (s.get Reg.SECURITY.LOCK.BITS).testBit 2 then .next (s.refuse pgRESET rcLocked 0x800)
  else if s.domState (256 + slice.val) != .off then .next (s.refuse pgRESET rcBusy 0x800)
  else if used ≥ 4 then .next (s.refuse pgRESET rcCapacity 0x800)
  else .next ({ s0 with rowfix := (slice.val, bank.val, row.toNat) :: s0.rowfix }.bump (Reg.RESET.ROWFIX_CNT.ROWS slice.val))

/-! Tile firmware. -/

/-- The tiles of TFW_MASK. -/
def tfwTiles (s : State) : List Nat :=
  (List.range 256).filter fun n => (s.get (Reg.RESET.TFW_MASK.TILES (n / 32))).testBit (n % 32)

/-- TFW_GO (R471, R472): the checks in the order of R472, then the load is latched and runs. -/
def actTfwGo (src : Source) (s : State) : Res :=
  let _ := src
  let a := s.get Reg.RESET.TFW_ADDR.ADDR
  let len := s.get Reg.RESET.TFW_LEN.VALUE
  let ts := tfwTiles s
  if s.bistReserved 4 0 || !s.isReady pgISSUE then .next (s.refuse pgRESET rcDep 0xD0)
  else if ts.any (fun n => !s.domOn n) then .next (s.refuse pgRESET rcDomOff 0xD0)
  else if ts.any (fun n => s.inRun n || (s.isEnabled pgSTEP && s.inStep n)) || s.tfw.isSome || s.flag Reg.ISSUE.LOAD_CTRL.LOAD then
    .next (s.refuse pgRESET rcBusy 0xD0)
  else if a % 64 ≠ 0 ∨ len % 64 ≠ 0 then .next (s.refuse pgRESET rcAlign 0xD0)
  else if len < 64 ∨ len > 65536 ∨ !populated a len then .next (s.refuse pgRESET rcRange 0xD0)
  else .next ({ s with tfw := some ⟨a, len, s.get Reg.RESET.TFW_CRC.VALUE, ts⟩ }.put Reg.RESET.TFW_CTRL.GO 1)

/-- The tiles of a firmware load have their verdicts: a tile that differs or has not answered (`failed`) clears its bit and stays not ready. -/
def State.tfwEnd (s : State) (j : TfwJob) (good : Bool) (failed : List TileId) : State :=
  let bad := j.mask.filter fun n => !good || failed.any (fun t => t.val = n) || !s.domOn n
  let s := j.mask.foldl (fun s n =>
    let ok := !bad.contains n
    let s := s.modTile n fun t => { t with fwOk := ok }
    let f := Reg.RESET.TFW_OK.TILES (n / 32)
    let s := s.put f (setBit (s.get f) (n % 32) ok)
    [7, 8, 9, 10, 11, 12, 13].foldl (fun s i =>
      s.setReady (tilePg n i) (ok && !s.bistReserved 0 n && !s.flag (Reg.HDR.BLK_CTRL.SRST (tilePg n i)) && !s.flag (Reg.HDR.BLK_CTRL.SRST (tilePg n 0)))) s) s
  let s := { (s.put Reg.RESET.TFW_CTRL.GO 0) with tfw := none, bist := { s.bist with everReady := s.bist.everReady || bad.length < j.mask.length } }
  let s := (s.put Reg.RESET.TFW_STAT.DONE 1).cause pgRESET 5
  if bad.isEmpty then s else (s.put Reg.RESET.TFW_STAT.FAIL 1).causeErr pgRESET 6

/-! Logic self-test. -/

/-- The targets that the masks name: (kind, instance) in the order in which they start (R474, R477); SWITCHES is the 36 leaves and spines, each with its own entry in a record (R473, R483; log entry 31). -/
def bistTargets (s : State) : List (Nat × Nat) :=
  (if s.flag Reg.BIST.XMASK.SWITCHES then (List.range 36).map (fun i => (5, i)) else [])
  ++ ((List.range 256).filter (fun n => (s.get (Reg.BIST.TMASK.BITS (n / 32))).testBit (n % 32))).map (fun n => (0, n))
  ++ ((List.range 64).filter (fun n => (s.get (Reg.BIST.SMASK.BITS (n / 32))).testBit (n % 32))).map (fun n => (1, n))
  ++ ((List.range 32).filter (fun n => (s.get Reg.BIST.MVMASK.BITS).testBit n)).map (fun n => (2, n))
  ++ ((List.range 8).filter (fun n => (s.get Reg.BIST.XMASK.CHECK).testBit n)).map (fun n => (3, n))
  ++ (if s.flag Reg.BIST.XMASK.ISSUE then [(4, 0)] else [])

/-- The page of a target, its domains, and the mask register that names it. -/
def bistPages (t : Nat × Nat) : List Nat :=
  match t.1 with
  | 0 => (List.range 15).map (tilePg t.2) | 1 => [slicePg t.2] | 2 => [moverPg t.2] | 3 => [checkPg t.2] | 4 => [pgISSUE, pgSTEP]
  | _ => []
def bistDomains (t : Nat × Nat) : List Nat :=
  match t.1 with
  | 0 => [t.2, 320 + t.2 / 128] | 1 => [256 + t.2, 320 + t.2 / 32] | 2 => [320 + t.2 / 16] | 3 => [320 + t.2 / 4] | 4 => [320]
  | _ => [320, 321]
def bistOfs (t : Nat × Nat) : Nat :=
  match t.1 with
  | 0 => 0x60 + 4 * (t.2 / 32) | 1 => 0x80 + 4 * (t.2 / 32) | 2 => 0x88 | _ => 0x8C

/-- A target is idle (R475). -/
def bistIdle (s : State) (t : Nat × Nat) : Bool :=
  match t.1 with
  | 0 => !s.inRun t.2 && !(s.isEnabled pgSTEP && s.inStep t.2) && (s.evt t.2).fifo.isEmpty && (s.queue t.2).tx.isEmpty
  | 2 => (s.get (Reg.MOVER.MV_STAT2.STATE t.2) == 0 || s.get (Reg.MOVER.MV_STAT2.STATE t.2) == 4)
      && s.get (Reg.MOVER.RING_HEAD.IDX t.2) == s.get (Reg.MOVER.RING_TAIL.IDX t.2)
  | 3 => s.chkFree t.2
  | 4 => (s.stream == 0 || s.stream == 2 || s.stream == 6) && !s.isEnabled pgSTEP && !s.flag Reg.ISSUE.LOAD_CTRL.LOAD
  | _ => true

/-- BIST_GO (R474 to R476): checked in the order of R474; an accepted GO reserves every target in that cycle. -/
def actBistGo (src : Source) (s : State) : Res :=
  let _ := src
  let ts := bistTargets s
  let kind := s.get Reg.BIST.BIST_CTRL.KIND
  let base := s.get Reg.BIST.SAVE_BASE.ADDR
  let needSave := ts.any fun t => t.1 = 1 ∨ t.1 = 4
  if s.flag Reg.BIST.BIST_STAT.ACTIVE then .next (s.refuse pgBIST rcBusy 0x54)
  else
    match ts.find? (fun t => (bistDomains t).any (fun d => !s.domOn d || (decide (320 ≤ d) && s.effective (d - 320) == 2))) with
    | some t => .next (s.refuse pgBIST rcDomOff (bistOfs t))
    | none =>
    match ts.find? (fun t => !s.hostMode pgBIST && s.get (Reg.BIST.GOLD.SIG t.1) == 0) with
    | some t => .next (s.refuse pgBIST 0x11 (0x100 + 8 * t.1))
    | none =>
    if (ts.any (·.1 = 5) ∧ kind ≠ 1) ∨ (kind = 1 ∧ s.bist.everReady) then .next (s.refuse pgBIST rcMode 0x54)
    else
      match ts.find? (fun t => !bistIdle s t) with
      | some t => .next (s.refuse pgBIST rcBusy (bistOfs t))
      | none =>
      let inPassSlice := match region base with | .slice k _ => ts.contains (1, k) | _ => false
      if needSave && (base % 64 != 0 || !populated base (17 * 0x10000) || inPassSlice) then .next (s.refuse pgBIST 0x10 0x48)
      else
        let s := ts.foldl (fun s t => (bistPages t).foldl (fun s pg => (s.setReady pg false).put (Reg.HDR.BLK_STAT.BUSY pg) 1) s) s
        let s := { s with bist := { s.bist with kind := kind, targets := ts, waiting := ts, running := [], ended := [], reserved := ts ++ s.bist.reserved,
                                                golden := (List.range 6).map (fun k => (k, BitVec.ofNat 64 (s.get (Reg.BIST.GOLD.SIG k)))),
                                                saveBase := base, recordDue := false } }
        .next ((s.put Reg.BIST.BIST_STAT.ACTIVE 1).put Reg.BIST.BIST_STAT.RECORD_OK 0).bistEnd

namespace State

/-- The tested region of a slice: 64 KiB of bank BOOT_CNT mod 16 (R479). -/
def bistRegion (s : State) (sl : Nat) : Nat := bankBase (256 + sl) (s.get Reg.CROWN.BOOT_CNT.CNT % 16)

/-- The save slot of a target: slot k mod 16 of slice k, slot 16 of ISSUE (R479). -/
def bistSlot (s : State) (t : Nat × Nat) : Nat := s.bist.saveBase + (if t.1 = 4 then 16 else t.2 % 16) * 0x10000

/-- The bytes that a target's tested region holds (R479). The spec does not say how the registers, the loader's state and the global lane store of ISSUE lie in their 64 KiB: free bytes, and so are those of a line that cannot be read (log entry 31). -/
def bistImage (s : State) (t : Nat × Nat) : List Byte × State :=
  if t.1 = 1 then
    (pieces 64 (s.bistRegion t.2) 0x10000).foldl (fun acc p =>
      let r := acc.2.readLine 0 p.1 p.2
      if r.1 = stOK then (acc.1 ++ r.2.1, r.2.2)
      else (acc.1 ++ (List.range p.2).map (fun i => Config.freeBits 8 (r.2.2.fresh + i)), { r.2.2 with fresh := r.2.2.fresh + p.2 })) ([], s)
  else ((List.range 0x10000).map (fun i => Config.freeBits 8 (s.fresh + i)), { s with fresh := s.fresh + 0x10000 })

/-- Re-initialise a mittened target: registers to their compute-reset values, stores to zero, firmware and votes kept (R478); a message held for a tile's queues is discarded (R294). -/
def remit (s : State) (t : Nat × Nat) : State :=
  let s := if t.1 = 0 then s.deadHeld t.2 else s
  let s := s.clearRegs fun off => (bistPages t).contains (pageAt off).base && levelOf off != some .cold && off % 0x1000 != 0x24
  if t.1 = 0 then
    let fw := (s.tile t.2).fwOk
    ((s.setTile t.2 { Tile.reset with fwOk := fw, lanesZero := true }).zero (bankBase t.2 0) (bankBase t.2 16))
  else s

/-- Restore or re-initialise a target and give its verdict: PASS and ABORTED release it, FAIL keeps it reserved (R478 to R482). -/
def bistFinish (s : State) (t : Nat × Nat) (sig : Word64) (verdict : Nat) : State :=
  let s := { s with bist := { s.bist with results := (t.1, t.2, verdict, sig) :: s.bist.results.filter (fun r => !(r.1 == t.1 && r.2.1 == t.2)) } }
  -- A slice's region and ISSUE's are read back from their slot; what ISSUE then holds shows only once it is released, so only after a good restore.
  let copied := t.1 = 1 ∨ t.1 = 4
  let r := if copied then s.readAny 0 (s.bistSlot t) 0x10000 else (stOK, [], s)
  let ok := decide (!copied) || (r.1 == stOK && crc32c r.2.1 == crc32c (getAt [] (512 * t.1 + t.2) s.bist.saved))
  let s := if t.1 = 1 then r.2.2.putMem (s.bistRegion t.2) r.2.1 else if t.1 = 4 then r.2.2 else s.remit t
  let s := if ok then s else (s.bump Reg.BIST.SAVE_FAIL_CNT.CNT).causeErr pgBIST 7
  let s := if verdict = 2 then (s.bump Reg.BIST.FAIL_CNT.CNT).causeErr pgBIST 6 else s
  let s := if ok && verdict != 2 then
      let s := { s with bist := { s.bist with reserved := s.bist.reserved.filter (· != t) } }
      (bistPages t).foldl (fun s pg => (s.put (Reg.HDR.BLK_STAT.BUSY pg) 0).setReady pg (s.usable (pageAt pg))) s
    else s
  (s.bistCount).bistEnd

end State

/-- BIST_TARGET_START (R477, R479): the named target starts when it is next of its sort, SWITCHES have ended, a place under MAX_CONC and, for a slice, its save slot are free; the tested region of a slice or of ISSUE is copied to its slot. -/
def execBistTargetStart (kind : Fin 6) (inst : Fin 512) (s : State) : Res :=
  let t := (kind.val, inst.val)
  let b := s.bist
  let conc := kind.val < 2
  let firstOfSort := (b.waiting.filter (fun x => x.1 < 2)).head? == some t
  let slotFree := kind.val ≠ 1 || !((b.running ++ b.ended.map (fun e => (e.1, e.2.1))).any fun x => x.1 == 1 && x.2 % 16 == inst.val % 16)
  let switches := (b.waiting ++ b.running).any (·.1 = 5)
  if !b.waiting.contains t || (switches && kind.val ≠ 5)
      || (conc && (!firstOfSort || !slotFree || s.bistConc ≥ s.get Reg.BIST.BIST_CFG.MAX_CONC)) then .next s
  else
    let s := { s with bist := { b with waiting := b.waiting.filter (· != t), running := b.running ++ [t] } }
    let s := if kind.val = 1 || kind.val = 4 then
        let d := s.bistImage t
        let s := (d.2.writeAny 0 (d.2.bistSlot t) d.1).2
        { s with bist := { s.bist with saved := insert (512 * kind.val + inst.val) d.1 s.bist.saved } }
      else s
    .next s.bistCount

/-- BIST_TARGET_END (R480, R481): a running target ends with its signature. In hardware mode it passes when it equals its kind's golden value; in host mode it waits for a verdict. -/
def execBistTargetEnd (kind : Fin 6) (inst : Fin 512) (sig : Word64) (s : State) : Res :=
  let t := (kind.val, inst.val)
  if !s.bist.running.contains t then .next s
  else
    let s := { s with bist := { s.bist with running := s.bist.running.filter (· != t) } }
    if s.hostMode pgBIST then
      let first := s.bist.ended.isEmpty
      let s := { s with bist := { s.bist with ended := s.bist.ended ++ [(kind.val, inst.val, sig)],
                                              results := (kind.val, inst.val, 0, sig) :: s.bist.results } }
      .next (if first then s.bistHold else s)
    else .next (s.bistFinish t sig (if getAt 0 kind.val s.bist.golden = sig then 1 else 2))

/-- A verdict for the held target (R481); the next one that ended is then held. -/
def bistVerdict (v : Nat) (s : State) : State :=
  match s.bist.ended with
  | (k, i, sig) :: rest =>
    if !s.flag Reg.BIST.BIST_STAT.HOLD then s
    else ({ s with bist := { s.bist with ended := rest } }.bistFinish (k, i) sig v).bistHold
  | [] => s

/-- VERDICT_PASS (R481). -/
def actVerdictPass (s : State) : Res := .next (bistVerdict 1 s)

/-- VERDICT_FAIL (R481). -/
def actVerdictFail (s : State) : Res := .next (bistVerdict 2 s)

/-- BIST_ABORT (R482): targets under test or held are restored or re-initialised and released as ABORTED; those not started are released UNTESTED. -/
def actBistAbort (s : State) : Res :=
  if !s.flag Reg.BIST.BIST_STAT.ACTIVE then .next s
  else
    let waiting := s.bist.waiting
    let run := s.bist.running ++ s.bist.ended.map (fun e => (e.1, e.2.1))
    let s := { s with bist := { s.bist with waiting := [], running := [], ended := [],
                                            reserved := s.bist.reserved.filter (fun t => !waiting.contains t),
                                            results := (waiting.map fun (t : Nat × Nat) => (t.1, t.2, 4, (0 : Word64))) ++ s.bist.results } }
    let s := waiting.foldl (fun s t => (bistPages t).foldl (fun s pg => (s.put (Reg.HDR.BLK_STAT.BUSY pg) 0).setReady pg (s.usable (pageAt pg))) s) s
    let s := run.foldl (fun s t => s.bistFinish t 0 3) s
    .next ((s.put Reg.BIST.BIST_STAT.HOLD 0).bistCount.bistEnd)

/-- BIST_RECORD (R483, R485): the result record of a STARTUP or SHUTDOWN pass, an entry for each target of the pass, is programmed by the holder's firmware into the lowest unused slot, after an erase when all eight are used, and read back; RECORD_OK rises. -/
def execBistRecord (s : State) : Res :=
  if !s.bist.recordDue || !s.domOn 323 || s.holder == 2 || s.crown.halted.contains s.holder then .next s
  else
    let time := s.draw 64
    let s := time.2
    let r : BistRec := { kind := s.bist.kind, boot := s.get Reg.CROWN.BOOT_CNT.CNT, time := time.1, tag := (Config.shake256 (Config.fuseMap s.fuses.bad s.fuses.rows)).take 8,
                         entries := s.bist.targets.filterMap (fun t => s.bist.results.find? fun r => r.1 == t.1 && r.2.1 == t.2), good := true }
    let old := if s.flash.bist.length ≥ 8 then [] else s.flash.bist
    let s := { s with flash := { s.flash with bist := old ++ [r] }, bist := { s.bist with recordDue := false } }
    .next (s.put Reg.BIST.BIST_STAT.RECORD_OK 1)

end Sys2Proof.Machine
end

