-- ==== Sys2Proof/Machine/Registers.lean ====
section
/-! DEFINITION. Register writes (chapter 02): checked writes, 64-bit shadows, what a write starts, and the register bridge (R45). -/
namespace Sys2Proof.Machine
namespace State

/-! Writes. -/

/-- A register whose writes are checked at the moment of the write (R63 and the owning chapters): what is wrong with value v of the register at page offset o. -/
def writeFault (s : State) (src : Source) (p : Page) (o v : Nat) : Option Nat :=
  let bad (c : Bool) (code : Nat) : Option Nat := if c then some code else none
  match p.kind with
  | .mem => if o = 0x40 then bad (bits v 1 0 == 3 || bits v 5 4 == 3) rcRange else none
  | .check => if o = 0x40 then bad (bits v 1 0 == 3 || bits v 5 4 == 3) rcRange else if o = 0x54 then bad (bits v 2 1 == 3) rcRange else none
  | .fl => if o = 0x40 then bad (bits v 15 14 == 3 || decide (3 < bits v 2 0)) rcRange
    else if o = 0x200 then bad ((List.range 8).any fun q => s.isEnabled (flPg q)) rcBusy else none
  | .crown =>
    if o = 0x48 then (if !s.authorised src then some rcNotHolder else bad (decide (low 16 v < 10)) rcRange)
    else if 0xC00 ≤ o ∧ o < 0xEA0 then bad (!s.authorised src) rcNotHolder
    else if 0x500 ≤ o ∧ o < 0x600 then bad (!s.authorised src) rcNotHolder else none
  | .power =>
    if o = 0x100 then bad (decide (324 < low 9 v)) rcRange
    else if o = 0x140 then bad (low 16 v == 0) rcRange
    else if o = 0x180 then (if decide (12 < bits v 27 24) then some rcRange else bad (decide (gradeCap (s.get Reg.GLOBAL.MOD_ID.GRADE) < low 10 v)) 0x10)
    else if o = 0x184 then bad (decide (12 < low 4 v)) rcRange else none
  | .bist => if o = 0x40 then bad (low 5 v == 0 || decide (16 < low 5 v)) rcRange else if o = 0x54 then bad (bits v 5 4 == 3) rcRange
    else if o = 0xA0 then bad (decide (5 < bits v 18 16)) rcRange else none
  | .twin =>
    if o = 0x44 then
      let a := bits v 26 24
      bad (v.testBit 31 && (a == 7 || !s.portUp a || s.get (Reg.FL.PEER.ID a) != s.get (Reg.FL.PEER.ID 7))) rcRange
    else none
  | .panel =>
    if o = 0x54 then bad ((List.range 4).any fun i => decide (5 < bits v (4 * i + 2) (4 * i))) rcRange
    else if 0x90 ≤ o ∧ o < 0xA0 then bad ((List.range 4).any fun i => decide (1 < bits v (8 * i + 6) (8 * i + 5))) rcRange else none
  | .timers =>
    let own := s.isEnabled pgPANEL && (decide (0x2C0 ≤ o ∧ o < 0x300) || decide (0x4E0 ≤ o ∧ o < 0x500))
    if own then some rcBusy
    else if 0x100 ≤ o ∧ o < 0x300 ∧ o % 0x20 = 0 then bad (bits v 7 6 == 3) rcRange
    else if 0x400 ≤ o ∧ o < 0x500 ∧ o % 0x10 = 0 then bad (decide (18 < bits v 12 8)) rcRange else none
  | .tile 14 => if 0x40 ≤ o then (if src == .host || src == .bridge then some rcNotHolder else bad ((s.get Reg.SECURITY.LOCK.BITS).testBit 7) rcLocked) else none
  | .fabric => if p.inst = 4 ∧ 0xCD0 ≤ o ∧ o < 0xD00 then bad (s.isEnabled pgSCALE) rcBusy else none
  | _ => none

/-- Writes that a register ignores in its present state. -/
def writeIgnored (s : State) (p : Page) (o : Nat) : Bool :=
  match p.kind with
  | .issue => (o == 0x58) && (s.stream == stRunning || s.stream == stWaiting)
  | .step => (o == 0x58) && (s.stepActive || s.step.pend.isSome)
  | .crown => decide (0x400 ≤ o) && decide (o < 0x500) && s.flag Reg.CROWN.MB_STAT.BUSY
  | .timers => decide (0x100 ≤ o) && decide (o < 0x300) && o % 0x20 == 8 && s.flag (Reg.TIMERS.GT_CTRL.RUN ((o - 0x100) / 0x20))
  | _ => false

/-- Reserved bits inside registers whose rows give one field to the whole word (R14): they read zero and keep no write. LOW's word 10 has bits for domains 320 to 323 alone, GPIO_SRC one nibble pair for each input without its bit 4, GT_CFG has CASC in odd timers alone. -/
def reservedMask (p : Page) (o : Nat) : Nat :=
  match p.kind with
  | .power => if o = 0xA8 then 0xFFFFFFF0 else 0
  | .panel => if 0x90 ≤ o ∧ o < 0xA0 then 0x10101010 else 0
  | .timers => if 0x100 ≤ o ∧ o < 0x300 ∧ o % 0x40 = 0 then 0x10 else 0
  | _ => 0

/-- Commit bits of a register by the access codes of its fields (R21): v is the new value, m tells which bits are written. -/
def commit (s : State) (r : RegRef) (v m : Nat) : State :=
  r.row.fields.foldl (fun s f =>
    let g := f.at' r.low
    let mask := bits m (f.lo + f.width - 1) f.lo
    let new := bits v (f.lo + f.width - 1) f.lo
    let old := s.get g
    match f.acc with
    | .rw => s.put g (old - (old &&& mask) + (new &&& mask))
    | .rws => s.put g (old - (old &&& mask) + (new &&& mask))
    | .w1c => s.put g (old - (old &&& new &&& mask))
    | .w1s => s.put g (old ||| (new &&& mask))
    | _ => s) s

/-- What the registers of the tile's units show through their data registers: a write goes to the unit (R131, R453). -/
def unitWrite (s : State) (p : Page) (o v m : Nat) : Option State :=
  let n := p.inst % 256
  let mix (old : Nat) : Nat := old - (old &&& m) + (v &&& m)
  match p.kind with
  | .tile 3 =>
    if o = 0x48 then let r := s.get (Reg.SCALAR.SREG_SEL.REG n); some (s.setSreg n r (mix (s.sreg n r))) else none
  | .tile 4 =>
    let r := s.get (Reg.VECTOR.VREG_SEL.REG n)
    if o = 0x44 then some (s.setVlane n r (s.get (Reg.VECTOR.VREG_SEL.LANE n)) v)
    else if 0x48 ≤ o ∧ o < 0x58 then
      let w := (o - 0x48) / 4
      some (if 1 ≤ r ∧ r ≤ 7 then s.setVmask n r (s.vmask n r - bits (s.vmask n r) (32 * w + 31) (32 * w) * 2 ^ (32 * w) + v * 2 ^ (32 * w)) else s)
    else none
  | .power =>
    if 0x108 ≤ o ∧ o < 0x128 then
      let k := 4 * s.get Reg.POWER.DOM_SEL.INDEX + (o - 0x108) / 8
      some { s with power := { s.power with residency := setAt 0 k (BitVec.ofNat 64 (mix (getAt 0 k s.power.residency).toNat)) s.power.residency } }
    else none
  | .tile 6 => if o = 0x40 then
      let seed := s.get (Reg.QUANT.RNG_SEED.SEED n)
      some ((match actRngSeed .host (Fin.ofNat 256 n) (BitVec.ofNat 64 (mix seed)) s with | .next t => t | _ => s)) else none
  | _ => none

/-- What follows the commit of a register (the tables of writes that reach work in flight): v is the old value. -/
def afterWrite (s : State) (p : Page) (o old new : Nat) : State :=
  let n := p.inst % 256
  let rise := !old.testBit 31 && new.testBit 31
  let fall := old.testBit 31 && !new.testBit 31
  match p.kind with
  | .scale =>
    if 0x200 ≤ o ∧ o % 0x20 = 0 then
      let s := if rise then s.clearHist ((o - 0x200) / 0x20) else s
      ((List.range 256).filter fun n => s.domOn n).foldl (fun s n => s.clipCauses n) s
    else if 0x60 ≤ o ∧ o < 0x80 ∧ s.isEnabled pgSCALE then s.scaleGroup
    else s
  | .tile 6 => if 0x100 ≤ o then s.clipCauses n else s
  | .step => if o = 0x44 then s.periodWrite else s
  | .power => if o = 0x140 then s.settle [] else s
  | .twin => if o = 0x44 then s.selfDemote else s
  | .panel => if o = 0x44 ∧ s.panelOn ∧ !s.hostMode pgPANEL then s.touchCheck else s
  | .fabric => if p.inst = 4 ∧ 0x120 ≤ o ∧ (o - 0x120) % 0x30 = 0 ∧ fall then s.dropGroup ((o - 0x120) / 0x30) else s
  | .tile 8 =>
    if 0x200 ≤ o ∧ o < 0x300 ∧ o % 0x10 = 0 ∧ rise then
      let g := (o - 0x200) / 0x10
      s.modEvt n fun e => { e with roCount := remove g e.roCount, roSkip := if s.stepActive then setBit e.roSkip g true else e.roSkip }
    else s
  | .tile 12 => if 0x100 ≤ o ∧ o < 0x200 ∧ fall then s.qDeadCheck n else s
  | _ => s

/-- The result of a command that a write starts. -/
def outcome (s : State) (r : Res) : State :=
  match r with
  | .next t => t
  | _ => s

/-- Run f for each set bit of v among the given (bit, command) pairs, in their order. -/
def onBits (s : State) (v : Nat) (l : List (Nat × (State → Res))) : State := l.foldl (fun s x => if v.testBit x.1 then s.outcome (x.2 s) else s) s

/-- Registers whose write is a command of its own: the command runs (none: an ordinary register). `v` is the written word. -/
def commandWrite (s : State) (src : Source) (p : Page) (o : Nat) (w : Word32) : Option State :=
  let v := w.toNat
  let n : TileId := Fin.ofNat 256 (p.inst % 256)
  let run (r : Res) : Option State := some (s.outcome r)
  match p.kind with
  | .issue =>
    if o = 0x48 then some (s.onBits v [(0, actLoad)])
    else if o = 0x50 then some (s.onBits v [(0, actStart), (1, actStop)])
    else if o = 0x70 then some (s.onBits v [(0, actDbgHalt), (1, actResume), (2, actDbgStep)]) else none
  | .step =>
    if o = 0x50 then some (s.onBits v [(0, actOne), (1, actOneLearn), (2, actRun), (3, actHalt), (4, actClose src), (5, actExtend src)]) else none
  | .scale => if o = 0x44 then some (s.onBits v [(0, actRetune), (1, actApply src)]) else none
  | .check =>
    if o = 0x54 then
      let c : Fin 8 := Fin.ofNat 8 p.inst
      let s := (s.put (Reg.CHECK.SCAN_CTRL.CONT p.inst) (bits v 3 3)).put (Reg.CHECK.SCAN_CTRL.OP p.inst) (bits v 2 1)
      let s := if v.testBit 0 then s.outcome (actScanGo src c (Fin.ofNat 4 (bits v 2 1)) (v.testBit 3) s) else s
      if v.testBit 4 then let d := s.draw 30; some (d.2.outcome (actScanAbort src c d.1 d.2)) else some s
    else none
  | .mover =>
    let m : Fin 32 := Fin.ofNat 32 p.inst
    if o = 0x54 then run (actRingHead src m w s)
    else if o = 0x64 then some (s.onBits v [(0, actRetry src m), (1, actSkip src m), (2, actMvAbort src m), (3, actMvResume src m)]) else none
  | .mem => if o = 0x48 then some (s.onBits v [(0, actRetrain src (Fin.ofNat 32 p.inst))]) else none
  | .fl =>
    if 0x80 ≤ o ∧ o < 0xC0 ∧ o % 0x10 = 0 then run (actXcolEnable src (Fin.ofNat 8 p.inst) (Fin.ofNat 4 ((o - 0x80) / 0x10)) w s)
    else if p.inst = 0 ∧ o = 0x204 then run (actRtSel src (v.testBit 0) s)
    else if p.inst = 0 ∧ o = 0x20C then run (actXsyncCfg src w s) else none
  | .sctx => if 0x200 ≤ o ∧ (o - 0x200) % 0x60 = 0 then run (actContextEnable src (Fin.ofNat 128 (32 * p.inst + (o - 0x200) / 0x60)) w s) else none
  | .fabric =>
    if p.inst = 2 ∧ o = 0x40 then run (actFlags src (BitVec.ofNat 16 v) s)
    else if p.inst = 3 ∧ 0x100 ≤ o then run (actBarMask src (Fin.ofNat 64 ((o - 0x100) / 0x20)) (Fin.ofNat 8 ((o - 0x100) % 0x20 / 4)) w s) else none
  | .slice =>
    let u : Fin 320 := Fin.ofNat 320 (256 + p.inst)
    if o = 0x40 then run (actBankPwr src u w s) else if o = 0x48 then run (actBankInit src u w s) else none
  | .crown =>
    if o = 0x40 then run (actTokenHolder src (Fin.ofNat 4 (bits v 1 0)) s)
    else if o = 0x44 then run (actHb src (Fin.ofNat 4 (bits v 1 0)) s)
    else if o = 0x60 then some (s.onBits v [(0, actMbGo src)])
    else if o = 0x68 then some (s.onBits v [(0, actMbComplete src)]) else none
  | .security => if o = 0x40 then run (actLock src (BitVec.ofNat 8 v) s) else none
  | .clock =>
    if o = 0x40 then run (actMult src (BitVec.ofNat 8 v) s)
    else if o = 0x44 then run (actHalfCfg src (Fin.ofNat 4 (bits v 1 0)) (Fin.ofNat 4 (bits v 3 2)) s) else none
  | .power => if 0x40 ≤ o ∧ o < 0x6C then run (actDomEn src (Fin.ofNat 11 ((o - 0x40) / 4)) w s) else none
  | .reset =>
    if o = 0x40 then
      some (if v.testBit 1 then s.outcome (actCold src (BitVec.ofNat 16 (v / 65536)) s) else if v.testBit 0 then s.outcome (actCompute src (BitVec.ofNat 16 (v / 65536)) s) else s)
    else if o = 0xD0 then some (s.onBits v [(0, actTfwGo src)])
    else if 0x400 ≤ o ∧ o < 0x800 then run (actTileMap src (Fin.ofNat 256 ((o - 0x400) / 4)) (BitVec.ofNat 9 v) s)
    else if o = 0x800 ∧ v.testBit 31 then run (actRowfixSoft src (Fin.ofNat 64 (bits v 5 0)) (Fin.ofNat 16 (bits v 9 6)) (BitVec.ofNat 8 (bits v 17 10)) s) else none
  | .bist =>
    if o = 0x54 then
      some ((s.put Reg.BIST.BIST_CTRL.KIND (bits v 5 4)).onBits v [(0, actBistGo src), (1, actBistAbort), (8, actVerdictPass), (9, actVerdictFail)])
    else none
  | .twin =>
    if o = 0x40 then run (actTwinRole src (Fin.ofNat 8 (bits v 2 0)) s)
    else if o = 0x48 then some ((s.outcome (actSick src (v.testBit 0) s)).onBits v [(1, actHandover src), (2, actDetach src)]) else none
  | .timers =>
    if 0x100 ≤ o ∧ o < 0x300 ∧ o % 0x20 = 4 then
      let t : Fin 16 := Fin.ofNat 16 ((o - 0x100) / 0x20)
      let s := s.gtRun t.val (v.testBit 0)
      some (s.outcome (if v.testBit 1 then actHold src t s else actHoldRelease src t s))
    else none
  | .tile i =>
    let u : Fin 320 := Fin.ofNat 320 (p.inst % 256)
    match i with
    | 1 => if o = 0x40 then run (actBankPwr src u w s) else if o = 0x48 then run (actBankInit src u w s) else none
    | 7 => if o = 0x44 then some (s.onBits v [(0, fun s => .next (s.evctl n.val 1)), (1, fun s => .next (s.evctl n.val 2)), (2, fun s => .next (s.evctl n.val 3))]) else none
    | 8 => if o = 0x54 then some (s.onBits v [(0, actPsetLoad src n)]) else none
    | 9 => if o = 0x4C then
        some ((s.put (Reg.SYNAPSE.HLOCK_CTRL.ROW n.val) (low 16 v)).onBits v [(16, actHlockReq src n (BitVec.ofNat 16 v)), (17, actHlockRel src n)]) else none
    | 10 =>
      if o = 0x40 then some ((s.put (Reg.LEARN.CMD.ARGS n.val) (low 24 v)).onBits v [(31, actLearnCmdGo src n (BitVec.ofNat 24 v))])
      else if o = 0x4C then some (s.onBits v [(0, actLearnCtrlDone src n)]) else none
    | 11 => if o = 0x48 then some (s.onBits v [(0, actDefer src n), (1, actDrop src n)]) else none
    | 12 => if o = 0x50 then some (s.onBits v [(0, actStallDiscard src n), (1, actRetain src n)]) else none
    | 13 => if o = 0x54 then run (actCombFlush src n w s) else if o = 0x50 then some (s.onBits v [(0, actPop src n)]) else none
    | _ => none
  | _ => none

/-! The common header. -/

/-- BLK_CTRL (R54, R59, R69, R466). -/
def writeCtrl (s : State) (src : Source) (p : Page) (v : Nat) : State :=
  if v.testBit 31 then s.outcome (actBlockReset src (BitVec.ofNat 26 p.base) s)
  else if v.testBit 1 && !p.hasHostMode then s.refuse p.base rcMode 0xC
  else
    let was := s.hostMode p.base
    let s := if p.hasHostMode then s.put (Reg.HDR.BLK_CTRL.MODE p.base) (bits v 1 1) else s
    -- A held stall is discarded with STALL when MODE returns to 0 (R296).
    let s := if p.kind == .tile 12 && was && !v.testBit 1 && s.flag (Reg.QUEUE.STALL_CTRL.HOLD (p.inst % 256)) then
        match (s.queue (p.inst % 256)).held with
        | some f => (s.unhold (p.inst % 256)).qReply f qSTALL
        | none => s
      else s
    if !p.hasEnable then s else if v.testBit 0 then s.checkStart src p else s.clearEn p

/-- BLK_STAT: ERR and REFUSED are cleared by a 1; with ERR a LANE, ARRAY or QUEUE page clears its record of the first fault (R102, R165, R295). -/
def writeStat (s : State) (p : Page) (v : Nat) : State :=
  let n := p.inst % 256
  let s := if v.testBit 3 then s.put (Reg.HDR.BLK_STAT.REFUSED p.base) 0 else s
  if !v.testBit 2 then s
  else
    let s := s.put (Reg.HDR.BLK_STAT.ERR p.base) 0
    match p.kind with
    | .tile 2 => ((s.put (Reg.LANE.LANE_FAULT.CAUSE n) 0).put (Reg.LANE.LANE_FAULT.STATUS n) 0).put (Reg.LANE.LANE_FAULT.INDEX n) 0
    | .tile 5 => (((s.put (Reg.ARRAY.ARR_FAULT.CODE n) 0).put (Reg.ARRAY.ARR_FAULT.DESC n) 0).put (Reg.ARRAY.ARR_FAULT.AOP n) 0).put (Reg.ARRAY.ARR_FAULT.INDEX n) 0
    | .tile 12 => (((s.put (Reg.QUEUE.STALL_A.WAITER n) 0).put (Reg.QUEUE.STALL_A.RX n) 0).put (Reg.QUEUE.STALL_B.OWN_VALID n) 0).put (Reg.QUEUE.STALL_B.OWN_TX n) 0
    | _ => s

/-- A write to the common header (R53, R71). -/
def writeHeader (s : State) (src : Source) (p : Page) (o v : Nat) : State :=
  let pg := p.base
  if p.headerOnly && (o == 0x18 || o == 0x1C || o == 0x20) then s
  else if o = 0xC then s.writeCtrl src p v
  else if o = 0x10 then s.writeStat p v
  else if o = 0x18 then
    ((((s.put (Reg.HDR.BLK_IRQ_STAT.REFUSED pg) (bits (s.irqStat pg - (s.irqStat pg &&& v)) 0 0)).put (Reg.HDR.BLK_IRQ_STAT.ERR pg) (bits (s.irqStat pg - (s.irqStat pg &&& v)) 1 1)).put
      (Reg.HDR.BLK_IRQ_STAT.READY_UP pg) (bits (s.irqStat pg - (s.irqStat pg &&& v)) 2 2)).put (Reg.HDR.BLK_IRQ_STAT.BLK_SPEC pg) (bits (s.irqStat pg - (s.irqStat pg &&& v)) 31 4))
  else if o = 0x1C then (s.put (Reg.HDR.BLK_IRQ_EN.EN pg) v).irqEdge pg (s.irqAnd pg)
  else if o = 0x20 then (s.put (Reg.HDR.BLK_IRQ_VEC.DEST pg) (bits v 17 16)).put (Reg.HDR.BLK_IRQ_VEC.VEC pg) (bits v 10 0)
  else s

/-! One register write. -/

/-- The committed value of a register: v under the mask m. -/
def writeWhole (s : State) (src : Source) (r : RegRef) (v m : Nat) : State :=
  let p := r.page
  let o := r.low - p.base
  let old := s.regValue r
  let m := m - (m &&& reservedMask p o)
  let new := old - (old &&& m) + (v &&& m)
  match s.writeFault src p o new with
  | some code => s.refuse p.base code o
  | none =>
    if s.writeIgnored p o then s
    else
      match s.unitWrite p o v m with
      | some t => t
      | none => ((s.commit r v m).afterWrite p o old new)

/-- A write to a register of a page that answers for itself (R50, R54, R55, R64). -/
def pageWrite (s : State) (src : Source) (off : Nat) (w : Word32) : State :=
  let p := pageAt off
  let o := off - p.base
  if s.inReset p then s
  else if o < 0x40 then s.writeHeader src p o w.toNat
  else if s.pageReserved p then s
  else
    match regAt off with
    | none => s
    | some r =>
      if !r.row.wide then
        match s.writeFault src p o w.toNat with
        | some code => s.refuse p.base code o
        | none =>
          if s.writeIgnored p o then s
          else
            match s.commandWrite src p o w with
            | some t => t
            | none => s.writeWhole src r w.toNat (2 ^ 32 - 1)
      else
        let h := s.shadowOf p.base src
        if r.high then s.setShadow { h with write := some (r.low, w) }
        else
          match h.write with
          | some (tag, hi) =>
            if tag = r.low then (s.setShadow { h with write := none }).writeWhole src r (hi.toNat * 2 ^ 32 + w.toNat) (2 ^ 64 - 1)
            else s.writeWhole src r w.toNat (2 ^ 32 - 1)
          | none => s.writeWhole src r w.toNat (2 ^ 32 - 1)

/-- A write reaches its page (R51, R52, R55, R59, R67): an access to a page whose enable check runs waits for its end. -/
def writeNow (s : State) (src : Source) (off : Nat) (w : Word32) : State :=
  let p := pageAt off
  if s.silent src then s
  else if p.kind == .unused then s.unusedAccess off
  else if (voteDomain off).isSome then s.outcome (actVote src (BitVec.ofNat 26 off) w s)
  else if voteWrite off then s
  else if !s.offUp off then s.downWrite
  else ((s.checkEnd p.base).slowed src off).pageWrite src off w

/-! The register bridge (R45). -/

/-- Registers whose write starts an operation that can fail after the write has been accepted (R60). -/
def startsWork (off : Nat) : Bool :=
  let p := pageAt off
  let o := off - p.base
  o == 0xC || (match p.kind with
    | .issue => o == 0x48 || o == 0x50 || o == 0x70
    | .step => o == 0x50
    | .scale => o == 0x44
    | .mem => o == 0x48
    | .check => o == 0x54
    | .bist => o == 0x54
    | .reset => o == 0xD0
    | .twin => o == 0x48
    | .crown => o == 0x60
    | .tile 9 => o == 0x4C
    | _ => false)

/-- A register whose write the bridge finds refused under R62 or R63: its checks refuse the value (R63), or the write itself, made after the check that it waits for, records a refusal that is none of started work (R60). -/
def bridgeRefused (s : State) (off : Nat) (w : Word32) : Bool :=
  let p := pageAt off
  let t := ((s.checkEnd p.base).put (Reg.HDR.BLK_STAT.REFUSED p.base) 0).writeNow .bridge off w
  let code := t.get (Reg.HDR.BLK_REASON.CODE p.base)
  t.flag (Reg.HDR.BLK_STAT.REFUSED p.base)
    && (!startsWork off || code == rcNotHolder || code == rcLocked || ((s.checkEnd p.base).writeFault .bridge p (off - p.base) w.toNat).isSome)

/-- One write of the bridge: its status (R45, R51, R52, R62, R63). -/
def bridgePut (s : State) (off : Nat) (w : Word32) : Nat × Nat × State :=
  let p := pageAt off
  let t := s.writeNow .bridge off w
  if p.kind == .unused then (stUNMAPPED, 0, t)
  else if !s.offUp off && !voteWrite off then (stDOMAIN_OFF, 0, t)
  else (if s.bridgeRefused off w then stREFUSED else stOK, 0, t)

/-- A write to register space is carried out (R45). -/
def bridgeWrite (s : State) (ep a : Nat) (data : List Byte) : Nat × List Byte × State :=
  s.bridgeEach ep a data.length true fun s off i => s.bridgePut off (BitVec.ofNat 32 (ofBytes ((data.drop i).take 4)))

/-- Write a range for an engine, in register space by way of the bridge (R45). -/
def writeVia (s : State) (ep a : Nat) (data : List Byte) : Nat × State :=
  match region a with
  | .regs o => let r := s.bridgeWrite ep o data; (r.1, r.2.2)
  | _ => s.writeAny ep a data

/-- A request of the B-net to register space: 0 RD, 1 WR, others ATOM (R45). -/
def bridgeServe (s : State) (ep op a size : Nat) (data : List Byte) : Nat × List Byte × State :=
  if op = 0 then s.bridgeEach ep (a - 0x60000000) size false fun s off _ => s.bridgeGet off
  else if op = 1 then s.bridgeWrite ep (a - 0x60000000) (data.take size)
  else (stUNMAPPED, [], s)

/-- A write of the host that waits behind BAR2 writes, performed (R373). -/
def hostWriteNow (s : State) (i : HostWrite) : State :=
  match i with
  | .register off v => s.writeNow .host off.toNat v
  | .read off => let r := s.readNow .host off.toNat; r.2.setRdata .host r.1
  | .launch m before v => s.launchNow m before v
  | .dbIssue v => s.writeNow .host (pgISSUE + 0x90) v
  | .dbInj v => s.writeNow .host (pgSTEP + 0x8C) (BitVec.ofNat 32 (low 15 v.toNat))
  | .dbMover m v => s.writeNow .host (moverPg m.val + 0x54) (BitVec.ofNat 32 (low 16 v.toNat))

/-- The writes of the host that waited behind BAR2 writes which are no longer outstanding are performed, in order (R373). -/
def flushWrites (s : State) : State :=
  (List.range s.pcie.writes.length).foldl (fun s _ =>
    match s.pcie.writes with
    | [] => s
    | (q, w) :: t => if s.pcie.tlps.any (fun x => x.wr && decide (x.id < q)) then s else ({ s with pcie := { s.pcie with writes := t } }).hostWriteNow w) s

/-- A write of the host to BAR0 or BAR4, in its order (R373). -/
def hostWrite (s : State) (w : HostWrite) : State := s.flushWrites.hostOrder w fun s => s.hostWriteNow w

/-- A read of the host: it completes after every earlier posted write (R56). -/
def hostRead (s : State) (off : Ofs) : State :=
  let s := s.flushWrites
  if s.pcie.d3 || !s.pcie.writes.isEmpty then s.hostOrder (.read off) id else s.hostWriteNow (.read off)

end State

/-! Commands. -/

/-- REGISTER_WRITE (R55, R57, R62, R63, R266): a 32-bit write to a register; the host's waits behind its earlier BAR2 writes (R373). A parity error loses its request on C-net, or (true) its completion. -/
def execRegisterWrite (src : Source) (off : Ofs) (v : Carried Word32 (Option Bool)) (s : State) : Res :=
  let write (s : State) : State := (if src = .host then s.hostWrite (.register off v.what) else s.writeNow src off.toNat v.what).flushWrites
  match v.fate with
  | none => .next (write s)
  | some false => .next s.parityLost
  | some true => .next (write s).parityLost

/-- ENABLE (R59): EN = 1 is written to the page at an offset; MODE keeps its value. -/
def actEnable (src : Source) (pg : Ofs) (s : State) : Res :=
  let p := pageAt pg.toNat
  .next (s.writeNow src (p.base + 0xC) (BitVec.ofNat 32 (1 + 2 * s.get (Reg.HDR.BLK_CTRL.MODE p.base))))

/-- CONSISTENCY_CHECK_END (R59, R60): the enable check of a page ends. -/
def execConsistencyCheckEnd (pg : Ofs) (s : State) : Res := .next (s.checkEnd (pageAt pg.toNat).base)

/-- UNUSED_PAGE_ACCESS (R51): a read (none) or a write of an unused page. -/
def actUnusedPageAccess (src : Source) (off : Ofs) (w : Option Word32) (s : State) : Res :=
  if (pageAt off.toNat).kind != .unused || s.silent src then .next s
  else
    let s := s.unusedAccess off.toNat
    .next (if w.isNone then s.setRdata src 0 else s)

/-- DOWN_PAGE_ACCESS (R52): a read (none) or a write of a page whose domain is not ON, which its C-net node answers. -/
def actDownPageAccess (src : Source) (off : Ofs) (w : Option Word32) (s : State) : Res :=
  let p := pageAt off.toNat
  if p.kind == .unused || s.pageUp p || s.silent src then .next s
  else
    match w with
    | none => let r := s.readNow src off.toNat; .next (r.2.setRdata src r.1)
    | some v => .next (s.writeNow src off.toNat v)

/-- SHADOW_READ (R56, R64): a read of a register; the low word of a 64-bit value latches the high word for its source. -/
def execShadowRead (src : Source) (off : Ofs) (s : State) : Res :=
  if src = .host then .next (s.hostRead off)
  else if s.silent src then .next s else let r := s.readNow src off.toNat; .next (r.2.setRdata src r.1)

/-- SHADOW_WRITE (R64): a write of a word of a 64-bit value: the high word fills the source's write shadow, the low word commits. -/
def execShadowWrite (src : Source) (off : Ofs) (v : Word32) (s : State) : Res :=
  .next (if src = .host then s.hostWrite (.register off v) else s.writeNow src off.toNat v).flushWrites

/-- SLOW_WRITE_COMPLETE (R67): the C-net completion of a write to a slower domain. -/
def execSlowWriteComplete (src : Source) (off : Ofs) (s : State) : Res :=
  .next { s with slow := s.slow.filter fun x => !(x.1 == src && x.2 == off.toNat) }

/-- REGISTER_BRIDGE_REQUEST (R45): the bridge carries out a request; its completion is recorded. -/
def execRegisterBridgeRequest (req : BridgeReq) (s : State) : Res :=
  match req with
  | .rd a len => let r := s.bridgeServe epRBRIDGE 0 a.toNat len []; .next { r.2.2 with bridge := some (r.1, r.2.1) }
  | .wr a data => let r := s.bridgeServe epRBRIDGE 1 a.toNat data.length data; .next ({ r.2.2 with bridge := some (r.1, []) }.flushWrites)
  | .atom _ => .next { s with bridge := some (stUNMAPPED, []) }
  | .fnc => .next { s with bridge := some (stOK, []) }

end Sys2Proof.Machine
end

