-- ==== Sys2Proof/Machine/Attest.lean ====
section
/-! DEFINITION. The mailbox commands with which the crown reads and writes module memory (R423, R426 to R428). -/
namespace Sys2Proof.Machine
namespace State

/-- The endpoint of the management core that holds the token (R237). -/
def epCrown (s : State) : Nat := if s.holder = 1 then 378 else epRBRIDGE

/-- A command whose payload names a range of memory: while that range lies in a half that does not run, the crown's accesses wait in the cuff, and the command with them (R273). -/
def crownAccess (s : State) (path : MbPath) (len : Nat) (range : List Byte → Nat × Nat) (run : State → Res) : Res :=
  let req := match path with | .mailbox => s.mbReq | .mctp m => m
  let r := range ((req.drop 16).take len)
  let known := ofBytes ((req.drop 8).take 2) = len ∧ r.1 < 2 ^ 48 ∧ r.2 ≤ 0x1000000 ∧ populated r.1 r.2
  .next (s.guard s.epCrown 10 (if known then [r] else []) fun s => s.outcome (run s))

/-- The crown writes what a command answers with and returns its length; BUSY where the write fails (log entry 12). -/
def crownWrite (s : State) (a : Nat) (bs : List Byte) : State × Nat × List Byte :=
  let w := s.writeVia s.epCrown a bs
  if w.1 = stOK then (w.2, 0, toBytes 4 bs.length) else (w.2, 0x04, [])

end State

/-- FW_STAGE (R423, R430, R525): the image is copied into the slot that is not ACTIVE, read back and passed through the gauntlet; a refused one, or one that cannot be read whole, leaves the slot erased (log entry 12), as does a slot that does not take programming (FLASH_ERR). -/
def execFwStage (path : MbPath) (s : State) : Res :=
  s.crownAccess path 12 (fun p => (ofBytes (p.take 8), ofBytes ((p.drop 8).take 4))) <| mailbox path 0x0030 12 true false fun s p =>
    let a := ofBytes (p.take 8)
    let n := ofBytes ((p.drop 8).take 4)
    let d := dirRec s.flash
    let k := 1 - d.active
    let inMem := match region a with | .slice _ _ => true | .lpddr _ => true | _ => false
    if (s.get Reg.SECURITY.LOCK.BITS).testBit 5 then (s, 0x05, [])
    else if a ≥ 2 ^ 48 ∨ n = 0 ∨ n > 16777216 ∨ !inMem ∨ !populated a n then (s, 0x0B, [])
    else if d.pending = some k then (s, 0x0C, [])
    else
      let r := s.readVia s.epCrown a n
      let s := r.2.2
      let img : Slot := ⟨r.2.1⟩
      let g := gauntlet s img
      if s.flash.badSlots.contains k then ({ s with flash := s.flash.setSlot k ⟨[]⟩ }, 0x09, [])
      else if r.1 = stOK ∧ g = 0 then ({ s with flash := s.flash.setSlot k img }, 0, [])
      else ({ s with flash := s.flash.setSlot k ⟨[]⟩ }, if g = 2 then 0x08 else 0x07, [])

/-- The traversal cache serves: one that failed its CRC at boot does once it has been rebuilt, which has happened by now or not (R426; log entry 12). -/
def State.cacheReady (s : State) : Bool × State :=
  if s.flash.cacheOk then (true, s)
  else
    let r := s.draw 1
    if r.1 = 1#1 then (true, { r.2 with flash := { r.2.flash with cacheOk := true } }) else (false, r.2)

/-- ATTEST (R427 to R429): the signed report is written at the address with the next index; BUSY while the traversal cache is rebuilt, EXHAUSTED when no index remains. -/
def execAttest (path : MbPath) (s : State) : Res :=
  s.crownAccess path 40 (fun p => (ofBytes (p.drop 32), 3028)) <| mailbox path 0x0040 40 false false fun s p =>
    let a := ofBytes (p.drop 32)
    if a ≥ 2 ^ 48 ∨ !populated a 3028 then (s, 0x0B, [])
    else if !s.cacheReady.1 then (s.cacheReady.2, 0x04, [])
    else
      let s := s.cacheReady.2
      match sigIndex s with
      | none => (s.put Reg.SECURITY.SIG_LEFT.VALUE 0, 0x0A, [])
      | some (i, s) =>
        let s := (s.put Reg.SECURITY.SIG_NEXT.VALUE (i + 1)).put Reg.SECURITY.SIG_LEFT.VALUE (2 ^ 20 - (i + 1))
        let body := toBytes 4 0x54525441 ++ toBytes 2 1 ++ toBytes 2 208
          ++ ((List.range 4).flatMap fun w => toBytes 4 (s.get (Reg.SECURITY.DEV_ID.ID w))) ++ p.take 32
          ++ ((List.range 4).flatMap fun k => (List.range 8).flatMap fun w => toBytes 4 (s.get (Reg.SECURITY.MEAS.DATA k w)))
          ++ toBytes 4 (s.get Reg.CROWN.FW_STAT.SVN) ++ toBytes 4 s.fuses.rollback
          ++ toBytes 4 (s.get Reg.SECURITY.LOCK.BITS ||| s.get Reg.SECURITY.PERM_LOCK.BITS) ++ toBytes 4 (s.get Reg.CROWN.BOOT_CNT.CNT)
          ++ toBytes 8 (s.get Reg.CROWN.LOG_NEXT.SEQ)
        s.crownWrite a (body ++ toBytes 2820 (Config.xmssSign s.fuses.seed i body).toNat)

/-- GET_CERT (R426): the device certificate is written at the address. -/
def execGetCert (path : MbPath) (s : State) : Res :=
  s.crownAccess path 8 (fun p => (ofBytes p, s.flash.cert.length)) <| mailbox path 0x0041 8 false false fun s p =>
    let a := ofBytes p
    if a ≥ 2 ^ 48 ∨ !populated a s.flash.cert.length then (s, 0x0B, [])
    else s.crownWrite a s.flash.cert

end Sys2Proof.Machine
end

