-- ==== Sys2Proof/Machine/Inject.lean ====
section
/-! DEFINITION. The injector (R200, R201, R391). -/
namespace Sys2Proof.Machine

/-- A block of input: group, worlds or events, first world, FENCE, address of its payload (R200). -/
structure Block' where
  group : Nat
  count : Nat
  first : Nat
  fence : Bool
  addr : Nat
deriving DecidableEq, Repr

/-- A channel map entry that an input goes through: tile and row, or nothing to send, or bad (R201). -/
inductive MapEnt where
  | ok (tile row : Nat)
  | off
  | bad
deriving DecidableEq, Repr

namespace State

/-- The bytes that a block's payload has (R201). -/
def blockBytes (s : State) (b : Block') : Nat :=
  let n := s.get (Reg.STEP.IGRP_W0.NCHAN b.group)
  match s.get (Reg.STEP.IGRP_W0.ENC b.group) with
  | 0 => 8 * b.count
  | 1 => 2 * n * b.count
  | _ => 4 * n * b.count

def mapAddr (s : State) (g : Nat) : Nat := s.get (Reg.STEP.IGRP_W2.MAP_HI g) * 2 ^ 32 + s.get (Reg.STEP.IGRP_W1.MAP_LO g)

def injBad (s : State) (n : Nat) : State := s.add Reg.STEP.INJ_BAD_CNT.CNT n

/-- A channel map's entries; bad ones are counted (R201). -/
def mapEntries (s : State) (g : Nat) : List MapEnt × State :=
  let n := s.get (Reg.STEP.IGRP_W0.NCHAN g)
  let r := s.readVia epISSUE (s.mapAddr g) (8 * n)
  let es := (List.range n).map fun c =>
    let e := elem 8 c r.2.1
    if r.1 ≠ stOK then .bad
    else if !e.testBit 19 then .off
    else if bits e 63 52 ≠ s.modId ∨ bits e 27 22 ≠ 0 ∨ bits e 21 20 ≠ 0 then .bad
    else .ok (bits e 51 44) (bits e 43 28)
  (es, r.2.2.injBad (es.countP fun e => e == .bad))

/-- Send a block's events in order; the last one carries FENCE where the descriptor asks for it (R200). -/
def sendBlock (s : State) (fence : Bool) : List Word64 → State
  | [] => s
  | [e] => s.sendEvent epISSUE (if fence then e ||| 8#64 else e)
  | e :: t => (s.sendEvent epISSUE e).sendBlock fence t

/-- Encoding EVENT (R201). -/
def injectEvents (s : State) (b : Block') (bs : List Byte) : State :=
  let evs := (List.range b.count).map fun i => BitVec.ofNat 64 (elem 8 i bs)
  let good := evs.filter fun e => decide (bits e.toNat 63 52 = s.modId) && decide (bits e.toNat 13 8 = 0)
  (s.injBad (evs.length - good.length)).sendBlock b.fence good

/-- An event of the injector. -/
def inputEvent (s : State) (tile row w k : Nat) : Word64 := mkEvent s.modId tile row w 0 k false false

/-- Encoding COUNT: a count q sends ⌊q/8⌋ events of 8 and one of the rest (R201). -/
def injectCounts (s : State) (b : Block') (bs : List Byte) : State :=
  let m := s.mapEntries b.group
  let n := m.1.length
  let evs := (List.range b.count).flatMap fun i => (List.range n).flatMap fun c =>
    match m.1.getD c .off with
    | .ok t r =>
      let q := elem 2 (i * n + c) bs
      List.replicate (q / 8) (s.inputEvent t r (b.first + i) 8) ++ (if q % 8 = 0 then [] else [s.inputEvent t r (b.first + i) (q % 8)])
    | _ => []
  m.2.sendBlock b.fence evs

/-- Encoding DELTA for one channel and world: the event, and the new last-sent value (R201). A difference that is NaN, or infinite beside an infinite THR, has no quotient: nothing is sent
(log entry 22). -/
def deltaOf (s : State) (thr x l t r w : Nat) : Option (Word64 × Nat) :=
  let d := fsub x l
  if (f32.dec d).isNan || (f32.dec d).isZero || ((f32.dec d).isInf && (f32.dec thr).isInf) then none
  else
    let neg := (f32.dec d).lt (.fin false 0 0)
    let k := if (f32.dec thr).isZero then 8 else countOf (f32.dec d) (f32.dec thr)
    if k = 0 then none
    else
      let step := (Num.fin neg k 0).mul (f32.dec thr)
      some (s.inputEvent t (if neg then r + 1 else r) w k, f32.enc ((f32.dec l).add step))

/-- Encoding DELTA (R201): last-sent values are read and written a world at a time. -/
def injectDeltas (s : State) (b : Block') (bs : List Byte) : State :=
  let m := s.mapEntries b.group
  let n := m.1.length
  let thr := s.get (Reg.STEP.IGRP_W3.THR b.group)
  let r := (List.range b.count).foldl (fun (acc : List Word64 × State) i =>
    let w := b.first + i
    let la := s.mapAddr b.group + 8 * n + 4 * (w * n)
    let rd := acc.2.readVia epISSUE la (4 * n)
    if rd.1 ≠ stOK then (acc.1, rd.2.2)
    else
      (List.range n).foldl (fun (acc : List Word64 × State) c =>
        match m.1.getD c .off with
        | .ok t row =>
          match s.deltaOf thr (elem 4 (i * n + c) bs) (elem 4 c rd.2.1) t row w with
          | some (ev, l) => (acc.1 ++ [ev], (acc.2.writeVia epISSUE (la + 4 * c) (toBytes 4 l)).2)
          | none => acc
        | _ => acc) (acc.1, rd.2.2)) ([], m.2)
  r.2.sendBlock b.fence r.1

/-- Inject a block by its group's encoding. A payload that cannot be read is not injected (log entry 22). -/
def injectBlock (s : State) (b : Block') : State :=
  let r := s.readVia epISSUE b.addr (s.blockBytes b)
  if r.1 ≠ stOK then r.2.2.injBad 1
  else
    match s.get (Reg.STEP.IGRP_W0.ENC b.group) with
    | 0 => r.2.2.injectEvents b r.2.1
    | 1 => r.2.2.injectCounts b r.2.1
    | _ => r.2.2.injectDeltas b r.2.1

/-- The descriptor at the consumer's index; none where a field breaks its rule or it cannot be read (R200; log entry 22). -/
def injDesc (s : State) : Option Block' × State :=
  let r := s.readVia epISSUE (s.get Reg.STEP.INJ_RING.ADDR + 16 * s.injTail) 16
  let d := ofBytes r.2.1
  let b : Block' := ⟨bits d 69 64, bits d 94 80, bits d 109 96, d.testBit 112, bits d 47 0⟩
  let enc := s.get (Reg.STEP.IGRP_W0.ENC b.group)
  let ok := r.1 == stOK && bits d 63 48 == 0 && b.addr % 64 == 0 && bits d 79 70 == 0 && !d.testBit 95 && bits d 111 110 == 0 && bits d 127 113 == 0
    && b.count != 0 && enc != 3 && (enc == 0 || (decide (b.count ≤ 16384) && decide (b.first + b.count ≤ 16384)))
  (if ok then some b else none, r.2.2)

/-- What a block's injection reads: its payload, its group's map, and the last-sent values of its worlds. -/
def blockRanges (s : State) (b : Block') : List (Nat × Nat) :=
  let n := s.get (Reg.STEP.IGRP_W0.NCHAN b.group)
  let enc := s.get (Reg.STEP.IGRP_W0.ENC b.group)
  let m := s.mapAddr b.group
  (b.addr, s.blockBytes b) :: (if enc = 0 then [] else (m, 8 * n) :: (if enc = 1 then [] else [(m + 8 * n + 4 * (b.first * n), 4 * n * b.count)]))

/-- The injector takes the descriptor at the ring's tail; one of another encoding waits for its own command (R200). -/
def injectRing (s : State) (enc : Nat) : State :=
  let at' := s.get Reg.STEP.INJ_RING.ADDR + 16 * s.injTail
  s.guard epISSUE 10 [(at', 16)] fun s =>
    let next (s : State) : State := s.put Reg.STEP.INJ_TAIL.IDX ((s.injTail + 1) % s.injSize)
    match s.injDesc.1 with
    | none => next (s.injDesc.2.injBad 1)
    | some b =>
      if s.get (Reg.STEP.IGRP_W0.ENC b.group) = enc then s.guard epISSUE 10 (s.blockRanges b) fun s => next (s.injDesc.2.injectBlock b) else s

/-- The injector takes the head slot of a context (R391). -/
def injectSlot (s : State) (enc c : Nat) : State :=
  match (s.ctxOf c).slots with
  | [] => s
  | e :: _ =>
    let pk := c / 32
    let base := s.get (Reg.SCTX.CTX_W11.BUF_BASE pk (c % 32)) * 2 ^ 32 + s.get (Reg.SCTX.CTX_W10.BUF_BASE pk (c % 32))
    let g := s.get (Reg.STEP.IGRP_W0.ENC e.group)
    let b : Block' := ⟨e.group, e.count, e.first, false, base + 9216 * e.idx⟩
    if !s.slotReady c || (g ≠ enc ∧ g ≠ 3) then s
    else
      s.guard epISSUE 10 (if g = 3 then [] else s.blockRanges b) fun s =>
        let s := if g = 3 then s.injBad 1 else s.injectBlock b
        let s := s.freeSlot c
        let s := if e.fin then s.modCtx c fun x => { x with ended := true } else s
        s.freeStaleOf c

/-- The injector takes its next block of an encoding in INGEST, from the ring or from the head slot of a context (R200, R202, R391); while what it reads lies in a half that does not run, it waits for the cuff (R273). -/
def injectNext (s : State) (enc : Nat) (src : Option (Fin 128)) : State :=
  if s.phase ≠ 1 || !s.pageUp (pageAt pgSTEP) then s
  else
    match src with
    | none => if s.injEmpty then s else s.injectRing enc
    | some c => s.injectSlot enc c.val

end State

/-- INJECT_EVENT (R201). -/
def execInjectEvent (from_ : Option (Fin 128)) (s : State) : Res := .next (s.injectNext 0 from_)
/-- INJECT_COUNT (R201). -/
def execInjectCount (from_ : Option (Fin 128)) (s : State) : Res := .next (s.injectNext 1 from_)
/-- INJECT_DELTA (R201). -/
def execInjectDelta (from_ : Option (Fin 128)) (s : State) : Res := .next (s.injectNext 2 from_)

end Sys2Proof.Machine
end

