-- ==== Sys2Proof/Machine/Requests.lean ====
section
/-! DEFINITION. Requests and completions of B-net (R241 to R248, R257), the source side of fences (R255), the doorbells of BAR4 (R375), and upsets of stored
bits (R31, R68). -/
namespace Sys2Proof.Machine
namespace State

/-- The same packet, whatever its fence epoch. -/
def samePkt (p q : Pkt) : Bool := { q with epoch := p.epoch } == p

/-- The endpoint at which a packet's performance is decided is under test (R476). -/
def epReserved (s : State) (e : Nat) : Bool :=
  match epKind e with
  | .tile n => s.bistReserved 0 n
  | .slice k => s.bistReserved 1 k
  | _ => false

/-- A request that has reached its target's leaf port (R43, R242, R248, R465, R476): its completion (none: a combine window will give it), and whether a leaf answers in the target's place. -/
def serve (s : State) (p : Pkt) (coll : List PortA) : Option (Nat × List Byte) × Bool × State :=
  let a := p.addr.toNat
  match epOfPkt p with
  | none => (some (stUNMAPPED, []), true, s.unmapped p.src.val a)
  | some t =>
    if s.flag Reg.RESET.RST_STAT.COMP_ACTIVE then (some (stTARGET_RESET, []), true, s)
    else if !s.domOn (epDomain t) then (some (stDOMAIN_OFF, []), true, s.epDown t)
    else if s.epReserved t then (some (stTARGET_RESET, []), false, s)
    else if let some h := p.host then
      let r := s.hostServe p.op.val p.src.val p.tag.toNat h.toNat p.size p.data
      (r.1, false, r.2)
    else
      match region a with
      | .regs _ => let r := s.bridgeServe p.src.val p.op.val a p.size p.data; (some (r.1, r.2.1), false, r.2.2)
      | _ =>
        let r := s.performMem p.op.val p.smod.toNat p.src.val p.tag.toNat p.cls.val a p.size p.data coll
        (r.1, false, r.2)

/-- Where the copy of a multicast write for an endpoint goes: the same offset in that endpoint's memory (R257; log entry 24). -/
def copyAddr (e a : Nat) : Nat :=
  match epKind e with
  | .tile n => own n (a % 0x400000)
  | .slice k => 0x40000000 + k * 0x400000 + a % 0x400000
  | _ => a

/-- The copies of a multicast write, each performed at its endpoint (R257): the first status that is not OK. -/
def serveAll (s : State) (p : Pkt) (eps : List Nat) (coll : List PortA) : Nat × State :=
  eps.foldl (fun acc e =>
    let a := copyAddr e p.addr.toNat
    if epOf a ≠ some e then (first acc.1 stUNMAPPED, acc.2.unmapped p.src.val p.addr.toNat)
    else
      let r := acc.2.serve { p with addr := BitVec.ofNat 48 a } coll
      (first acc.1 ((r.1.map (·.1)).getD stOK), r.2.2)) (stOK, s)

/-- A line-sized response of a shared slice carries its line and class, by which a requester matches it (R258). -/
def rspLine (q : Pkt) (st : Nat) : Option (Nat × Nat) :=
  match region q.addr.toNat with
  | .slice .. => if q.host = none ∧ q.op = 0 ∧ q.size = 64 ∧ q.addr.toNat % 64 = 0 ∧ st = stOK then some (q.addr.toNat, q.cls.val) else none
  | _ => none

/-- A request performed at its target endpoint, or answered by the target's leaf, and its completion. -/
def performAt (s : State) (from_ t : Nat) (q : Pkt) (coll : List PortA) : State :=
  let r := s.serve q coll
  let s := if r.2.1 then r.2.2 else r.2.2.countGot from_ t q.epoch
  match r.1 with
  | some x => s.reply t q.smod.toNat q.src.val q.tag.toNat (q.op.val == 1) r.2.1 x.1 x.2 (rspLine q x.1)
  | none => s

/-- The hop of a request for another module (R313): the lookup is made once. -/
def hopOf (s : State) (q : Pkt) : Sum (Nat × Nat) Nat :=
  match s.net.hops.find? fun h => h.1 == pktKey q with
  | some h => .inl h.2
  | none => s.forward 8 q.dmod.toNat 0

/-- A request leaves the module by the port of its lookup (R238, R313, R316). With a data flit lost on the way it goes on poisoned (R245). -/
def travelOut (s : State) (q : Pkt) (late : Bool) (luck : Luck) : State :=
  let src := q.src.val
  match s.hopOf q with
  | .inr why =>
    if why = 1 then ((s.packetOver q late true).unmapped src q.addr.toNat).reply src s.modId src q.tag.toNat (q.op.val == 1) true stUNMAPPED [] none
    else (s.packetOver q late false).rtDrop why 8 q.dmod.toNat
  | .inl (p, d) =>
    let s := s.modNet fun n => { n with hops := (n.hops.filter fun h => h.1 != pktKey q) ++ [(pktKey q, p, d)] }
    s.cross (epHalf src) (epHalf (epFl p)) (2 * q.cls.val) (.req q) fun s =>
      let bad := s.fails src (epFl p) (pktFlitCount q) luck
      let lost := bad.any fun b => b.flit == 0
      let s := (s.packetOver q late (!lost)).crcDrops (epFl p) bad
      if lost then s
      else (s.countGot src (384 + q.dmod.toNat) q.epoch).linkSend p ⟨s.hopVc p q.dmod.toNat d false, .packet, pktHdr q, q.data, !bad.isEmpty, 0⟩

/-- A multicast write reaches those of its endpoints whose half runs (R257); the rest of it waits in the cuff. It completes when all are reached, with the first status that is not OK. -/
def travelMany (s : State) (q : Pkt) (eps : List Ep) (late : Bool) (luck : Luck) : State :=
  let src := q.src.val
  let key := pktKey q
  let now := ((eps.map (·.val)).filter fun e => s.netOn (epHalf e)).eraseDups
  let rest := eps.filter fun e => !s.netOn (epHalf e.val)
  let c := (s.cuffLeave (.req q)).copies (onPath s.bothOn src) (pktFlitCount q) now luck
  let r := c.2.serveAll q c.1 luck.coll
  let s := r.2
  let st := first (((s.net.mparts.find? fun m => (m.1, m.2.1) == key).map (·.2.2)).getD stOK) r.1
  let s := s.modNet fun n => { n with mparts := n.mparts.filter fun m => (m.1, m.2.1) != key }
  if rest.isEmpty then
    if now.length = c.1.length then (s.packetOver q late true).reply src s.modId src q.tag.toNat true true st [] none
    else s.packetOver q late false
  else
    let q' : Pkt := { q with mcast := some rest }
    let s := s.modNet fun n =>
      { n with out := if late then n.out else n.out.replace q q', late := if late then n.late.replace q q' else n.late, mparts := n.mparts ++ [(key.1, key.2, st)] }
    s.cuffHold (1 - epHalf src) (2 * q.cls.val) (.req q')

/-- A request on its way reaches its target, or the brim port that takes it to another module (R241, R245, R248, R313, R316). -/
def travel (s : State) (q : Pkt) (late : Bool) (luck : Luck) : State :=
  let src := q.src.val
  if !s.netOn (epHalf src) then s
  else if !opcOk (opcOf q.op.val) q.cls.val false || badHead luck then (s.packetOver q late false).badPacket
  else if q.dmod.toNat ≠ s.modId then s.travelOut q late luck
  else
    match q.mcast with
    | some eps => s.travelMany q eps late luck
    | none =>
      match epOfPkt q with
      | none => ((s.packetOver q late true).unmapped src q.addr.toNat).reply src s.modId src q.tag.toNat (q.op.val == 1) true stUNMAPPED [] none
      | some t =>
        s.cross (epHalf src) (epHalf t) (2 * q.cls.val) (.req q) fun s =>
          let bad := s.fails src t (pktFlitCount q) luck
          if bad.isEmpty then (s.packetOver q late true).performAt src t q luck.coll else (s.packetOver q late false).crcDrops t bad

/-- A request of another module, which a port has passed onto the die, is performed and answered (R313, R314); while the half it addresses does not run it waits in the cuff (R273). Lost, it gives back its entry of the reply table (log entry 18). -/
def foreign (s : State) (e : Nat) (q : Pkt) (luck : Luck) : State :=
  match epOf q.addr.toNat with
  | none => s
  | some t =>
    s.cross (epHalf e) (epHalf t) (2 * q.cls.val) (.req q) fun s =>
      let s := s.modNet fun n => { n with brought := n.brought.erase (e, q) }
      let lost (s : State) : State := s.releaseReply q.smod.toNat q.src.val q.tag.toNat
      let bad := s.fails e t (pktFlitCount q) luck
      if badHead luck then (lost s).badPacket
      else if bad.isEmpty then s.performAt e t q luck.coll
      else (lost s).crcDrops t bad

/-- A request packet with operation op (0 RD, 1 WR, 2 to 9 ATOM) arrives: one that is on its way, one that its requester has given up, one that a port has brought, or a new one, which is injected first (log entry 24). An unconnected endpoint
sends none (R33), and a tag that can still be answered is not used again (R247). -/
def requestRow (s : State) (op : Fin 10) (p : Pkt) (luck : Luck) : State :=
  let p := { p with op := op }
  let mine (q : Pkt) : Bool := q.src == p.src && q.tag == p.tag
  if p.smod.toNat ≠ s.modId then
    match s.net.brought.find? fun b => samePkt p { b.2 with cls := p.cls } with
    | some b => s.foreign b.1 b.2 luck
    | none => s
  else if epKind p.src.val = .none then s
  else if (match s.destOf p with | some d => (s.lane p.src.val d).wait.any (fun w => match w with | .req q => samePkt p q | _ => false) | none => false) then s
  else if s.net.past.count (pktKey p) < s.net.out.countP mine then
    match s.net.out.reverse.find? (samePkt p) with
    | some q => s.travel q false luck
    | none => s
  else
    match s.net.late.find? (samePkt p) with
    | some q => s.travel q true luck
    | none =>
      if s.net.stale.contains (pktKey p) then s
      else
        let t := if p.mcast.isSome then s.modNet fun n => { n with out := n.out ++ [p] } else s.request p
        if t.net.out.countP mine = s.net.out.countP mine then t
        else
          match t.net.out.reverse.find? (samePkt p) with
          | some q => t.travel q false luck
          | none => t

/-! Completions. -/

/-- The owner of a completed request gets its status and data (R88, R225, R353, R374). -/
def owner (s : State) (ep tag st : Nat) (data : List Byte) : State :=
  match epKind ep with
  | .tile n =>
    match (s.tile n).tracked.find? fun t => t.tag == tag && t.ready.isNone with
    | some t =>
      let v := if st = stOK then BitVec.ofNat 64 (ofBytes data) else 0
      let t' := { t with ready := some s.issue.period, status := st, res := match t.reg with | some r => [.sreg r v] | none => [] }
      s.modTile n fun x => { x with tracked := x.tracked.map fun y => if y = t then t' else y }
    | none => s.modEvt n fun e => { e with moves := e.moves.map fun m => if m.tag = tag ∧ m.res = none then { m with res := some (st, ofBytes data) } else m }
  | _ =>
    match epKind ep with
    | .fl p => s.portWritten p tag
    | _ =>
      if ep = epSp 0 ∨ ep = epSp 1 then s.landWritten ep tag
      else if ep = epPcieIn then
        match s.pcieResponse tag st data with
        | some t => t.flushWrites
        | none => s
      else (s.mvResponse ep tag st data).getD s

/-- A request is no longer outstanding; its packet, if it is still on its way, goes on. While its response may still come its tag is not free (R247). -/
def retire (s : State) (q : Pkt) (timedOut : Bool) : State :=
  let k := pktKey q
  let s := s.modNet fun n => if timedOut then { n with stale := n.stale ++ [k] } else n
  s.modNet fun n =>
    if n.past.contains k then { n with out := n.out.erase q, past := n.past.erase k } else { n with out := n.out.erase q, late := n.late ++ [q] }

/-- The request of an endpoint with a tag is a fence that its NI holds or times (R255). -/
def isFence (s : State) (ep tag : Nat) : Bool :=
  s.net.lanes.any fun l => l.1 / 8192 == ep && ((match l.2.openF with | some (_, some t) => t == tag | _ => false)
    || l.2.wait.any fun w => match w with | .fnc t _ _ => t == tag | _ => false)

/-- A fence with a tag is no longer outstanding (R255). -/
def fenceFreed (s : State) (ep tag : Nat) : State :=
  match s.net.lanes.find? fun l => l.1 / 8192 == ep && (match l.2.openF with | some (_, some t) => t == tag | _ => false) with
  | some l => s.fenceOver ep (l.1 % 8192)
  | none => s

/-- A request completes: its response buffer is free, and its owner goes on; a response that nothing waits for is late (R247). -/
def complete (s : State) (ep tag st : Nat) (data : List Byte) : State :=
  match s.net.gates.find? fun g => epFl g.port == ep && g.key == tag with
  | some g => (s.fenceFreed ep tag).gateOver g st
  | none =>
    match s.net.out.find? fun q => pktKey q == (ep, tag) with
    | none => (s.modNet fun n => { n with stale := n.stale.filter (· != (ep, tag)) }).lateRsp
    | some q => ((s.retire q (st == stTIMEOUT && !s.isFence ep tag)).fenceFreed ep tag).owner ep tag st data

/-- Reads of one requester that a line-sized response from a slice completes (R258). -/
def lineReads (s : State) (ep line cls : Nat) : List Pkt :=
  s.net.out.filter fun q => q.src.val == ep && q.host.isNone && q.op == 0 && q.size == 64 && q.addr.toNat == line && q.cls.val == cls && q.dmod.toNat == s.modId

/-- The response r completes what it belongs to. -/
def deliverRsp (s : State) (r : Rsp) : State :=
  match r.line with
  | none => s.complete r.dst r.tag r.status r.data
  | some (line, cls) =>
    match s.lineReads r.dst line cls with
    | [] => s.lateRsp
    | l => l.foldl (fun s q => s.complete r.dst q.tag.toNat r.status r.data) s

/-- A completion reaches its requester, or the brim port by which it leaves the module (R241, R245, R247, R248, R255, R313). -/
def responseRow (s : State) (ack : Bool) (ep tag : Nat) (luck : Luck) : State :=
  let fits (r : Rsp) : Bool :=
    r.dst == ep && r.ack == ack && (match r.line with
      | some (line, cls) => r.tag == tag || (s.lineReads ep line cls).any fun q => q.tag.toNat == tag
      | none => r.tag == tag)
  match s.net.rsps.find? fits with
  | none => s
  | some r =>
    let bulk := s.net.out.any fun q => pktKey q == (ep, tag) && q.cls == 5
    s.cross (epHalf r.src) (epHalf ep) (if bulk then 11 else 2) (.rsp ep r.tag) fun s =>
      let s := s.modNet fun n => { n with rsps := n.rsps.erase r }
      let bad := s.fails r.src ep (unitsOf r.data.length) luck
      let lost := bad.any (fun b => b.flit == 0) || (r.via.isNone && !bad.isEmpty) || badHead luck
      let s := if badHead luck then s.badPacket else s.crcDrops ep bad
      match r.via, epKind ep with
      | some (m, e, d), .fl p =>
        if lost then s.releaseReply m e r.tag
        else
          (if r.free then s else s.countGot r.src (384 + m) r.epoch).linkSend p
            ⟨s.hopVc p m d true, .reply, ⟨0, r.tag, r.data.length - 1, if ack then opWRACK else opRDRSP, r.status, m, s.modId, e, 0⟩, r.data, !bad.isEmpty, 0⟩
      | _, _ =>
        if lost then s.modNet fun n => { n with stale := n.stale.filter (· != (ep, r.tag)) }
        else if !s.domOn (epDomain ep) then s.epDown ep
        else (if r.free then s else s.countGot r.src ep r.epoch).deliverRsp r

/-! The source side of fences. -/

/-- A fence of lane (src, dst) is confirmed, or given up with a status. -/
def fenceEnds (s : State) (src dst : Nat) (tag : Option Nat) (st : Nat) : State :=
  match tag with | some t => s.complete src t st [] | none => s.fenceOver src dst

/-! Upsets. -/

/-- Flip a bit in a store's list of upset bits; a second upset of the same bit restores it. -/
def toggle (k b : Nat) (l : List (Nat × List Nat)) : List (Nat × List Nat) :=
  let old := (lookup k l).getD []
  let new := if old.contains b then old.filter (· != b) else b :: old
  if new.isEmpty then remove k l else insert k new l

/-- An upset of copies of a voted field (R68): of one copy, it is rewritten and counted; of two or three, the majority takes the upset value. -/
def voteUpset (s : State) (key copies b : Nat) : State :=
  match regAt (key / 64) with
  | none => s
  | some r =>
    match r.row.fields.find? fun f => f.lo == key % 64 && f.acc == .rwt with
    | none => s
    | some f =>
      if f.width ≤ b ∨ copies = 0 ∨ r.low ≠ key / 64 then s
      else if copies = 1 then ((s.bump Reg.GLOBAL.TMR_FIX_CNT.CNT).put Reg.GLOBAL.TMR_FIX_LOC.OFS (key / 64)).cause pgGLOBAL 4
      else
        let old := s.regValue r
        let fl := f.at' r.low
        let t := s.put fl (setBit (s.get fl) b (!(s.get fl).testBit b))
        (t.afterWrite r.page (r.low - r.page.base) old (t.regValue r)).settle (if r.page.kind == .power then List.range 323 else [])

end State

/-! Requests. -/

/-- RD (R241 to R248): a read reaches its target and is performed. -/
def execRd (p : Pkt) (luck : Luck) (s : State) : Res := .next (s.requestRow 0 p luck)

/-- WR (R241 to R248, R257): a write, unicast or multicast. -/
def execWr (p : Pkt) (luck : Luck) (s : State) : Res := .next (s.requestRow 1 p luck)

/-- ADD_I32 (R112). -/
def execAddI32 (p : Pkt) (luck : Luck) (s : State) : Res := .next (s.requestRow 2 p luck)

/-- ADD_I64 (R112). -/
def execAddI64 (p : Pkt) (luck : Luck) (s : State) : Res := .next (s.requestRow 3 p luck)

/-- ADD_F32 (R112). -/
def execAddF32 (p : Pkt) (luck : Luck) (s : State) : Res := .next (s.requestRow 4 p luck)

/-- ADD_2BF16 (R112). -/
def execAdd2bf16 (p : Pkt) (luck : Luck) (s : State) : Res := .next (s.requestRow 5 p luck)

/-- SWAP_64 (R112). -/
def execSwap64 (p : Pkt) (luck : Luck) (s : State) : Res := .next (s.requestRow 6 p luck)

/-- DELAY_STEP (R112, R225). The row also takes the atomics of the two values that no operation has, which are not performed. -/
def execDelayStep (p : Pkt) (luck : Luck) (s : State) : Res := .next (s.requestRow (if 8 ≤ p.op.val then p.op else 7) p luck)

/-- RDRSP (R241, R247): read data, or an atomic's previous value, reach the requester. -/
def execRdrsp (ep : Ep) (tag : BitVec 12) (luck : Luck) (s : State) : Res := .next (s.responseRow false ep.val tag.toNat luck)

/-- WRACK (R241, R247): a write's completion reaches the requester. -/
def execWrack (ep : Ep) (tag : BitVec 12) (luck : Luck) (s : State) : Res := .next (s.responseRow true ep.val tag.toNat luck)

/-- FNCACK (R255): the confirmation of a fence reaches its source; after an expiry it is late. -/
def execFncack (src : Ep) (dst : Carried Dst Luck) (s : State) : Res :=
  match s.net.acks.find? fun a => a.src == src.val && a.dst == dst.what.val with
  | none => .next s
  | some a =>
    .next (s.cross (epHalf a.at') (epHalf a.src) 2 (.ack a.src a.dst a.id) fun s =>
      let s := s.modNet fun n => { n with acks := n.acks.erase a }
      let bad := s.fails a.at' a.src 1 dst.fate
      if badHead dst.fate then s.badPacket
      else if !bad.isEmpty then s.crcDrops a.src bad
      else if !s.domOn (epDomain a.src) then s.epDown a.src
      else
        match (s.lane a.src a.dst).openF with
        | some (i, tag) => if i = a.id then s.fenceEnds a.src a.dst tag stOK else s.lateRsp
        | none => s.lateRsp)

/-- FENCE_SOURCE_TIMEOUT (R255): NI_TMO has run out for the fence outstanding; it completes with TIMEOUT where an operation waits for it, and the next one can go. -/
def execFenceSourceTimeout (src : Ep) (dst : Dst) (s : State) : Res :=
  match (s.lane src.val dst.val).openF with
  | none => .next s
  | some (_, tag) => if s.get Reg.FAB0.NI_TMO.CYC = 0 then .next s else .next (s.fenceEnds src.val dst.val tag stTIMEOUT)

/-- REQUEST_TIMEOUT (R247, R263, R360): NI_TMO has run out for a request, for a post on its way, or for a TO_ALL contribution whose result has not come: it completes with TIMEOUT. -/
def execRequestTimeout (ep : Ep) (tag : BitVec 12) (s : State) : Res :=
  let e := ep.val
  let t := tag.toNat
  if s.get Reg.FAB0.NI_TMO.CYC = 0 ∨ s.isFence e t then .next s
  else if s.net.out.any fun q => State.pktKey q == (e, t) then .next (s.complete e t stTIMEOUT [])
  else
    match s.posts.find? fun x => epTile x.tile == e && x.tag == t with
    | some x => .next (({ s with posts := s.posts.erase x }).postReply x.tile x.key (2 ^ 31 + stTIMEOUT))
    | none =>
      match s.net.reds.find? fun r => epTile r.1 == e && r.2.1 == t with
      | some r => .next (s.redOver r stTIMEOUT)
      | none => .next s

/-! Doorbells (R373, R375). -/

/-- DB_ISSUE (R375): the value is written to ISSUE.DBELL. -/
def execDbIssue (v : Word32) (s : State) : Res := .next (s.hostWrite (.dbIssue v))

/-- DB_INJ (R375): bits [14:0] are written to STEP.INJ_HEAD. -/
def execDbInj (v : Word32) (s : State) : Res := .next (s.hostWrite (.dbInj v))

/-- DB_MOVER (R375): bits [15:0] are written to RING_HEAD of mover m. -/
def execDbMover (m : Fin 32) (v : Word32) (s : State) : Res := .next (s.hostWrite (.dbMover m v))

/-! Upsets. -/

/-- UPSET (R31, R68): a stored bit flips. -/
def execUpset (t : UpsetTarget) (s : State) : Res :=
  match t with
  | .memWord a b =>
    match region a.toNat with
    | .tile .. => .next (s.flipBit (a.toNat / 8) b.val)
    | .slice .. => .next (s.flipBit (a.toNat / 8) b.val)
    | .lpddr _ => .next (s.flipBit (a.toNat / 8) b.val)
    | _ => .next s
  | .laneWord n i b => .next (s.modTile n.val fun t => { t with laneFlips := State.toggle i.val b.val t.laneFlips })
  | .globalWord st i b => .next { s with issue := { s.issue with flips := State.toggle (16384 * st.val + i.val) b.val s.issue.flips } }
  | .queueWord n a b => .next (s.modQueue n.val fun q => { q with flips := State.toggle a.val b.val q.flips })
  | .crownWord c a b =>
    let l := s.crown.sramFlips
    let old := ((l.find? fun f => f.1 == c.val && f.2.1 == a).map (·.2.2)).getD []
    let new := if old.contains b.val then old.filter (· != b.val) else b.val :: old
    let rest := l.filter fun f => !(f.1 == c.val && f.2.1 == a)
    .next { s with crown := { s.crown with sramFlips := if new.isEmpty then rest else rest ++ [(c.val, a, new)] } }
  | .voted key copies b => .next (s.voteUpset key copies.eraseDups.length b.val)

end Sys2Proof.Machine
end

