-- ==== Sys2Proof/Machine/Rows.lean ====
section
/-! DEFINITION. The commands that are a write of one register: exec<Command> reaches its page as any write does and there has its effect, act<Command> of the family files (chapter 02). -/
namespace Sys2Proof.Machine

/-- A command that is the write w of the register at an offset (R51, R52, R54, R59, R67, R373, R476): the host's waits behind its BAR2 writes, a halted core writes nothing, an unused page and a page that is down drop it and count, it waits for a running enable check, a page in reset or under test drops it, and a slower domain's write awaits its completion. A command without a source of its own comes from any source that can write. -/
def State.rowWrite (s : State) (src : Source) (off w : Nat) (f : State → Res) : Res :=
  let p := pageAt off
  if src == .host && s.hostWaits then .next (s.hostWrite (.register (BitVec.ofNat 26 off) (BitVec.ofNat 32 w)))
  else if s.silent src then .next s
  else if p.kind == .unused then .next (s.unusedAccess off)
  else if !s.offUp off then .next s.downWrite
  else
    let s := (s.checkEnd p.base).slowed src off
    if s.inReset p || (s.pageReserved p && decide (0x40 ≤ off - p.base)) then .next s else .next (s.outcome (f s))

/-- What a reset has completed frees the writes of the host that waited behind it (R373, R374). -/
def State.flushed (f : State → Res) (s : State) : Res := .next (s.outcome (f s)).flushWrites

/-- LOAD_CTRL.LOAD, R90: the write. -/
def execLoad (s : State) : Res := s.rowWrite .bridge (pgISSUE + 0x48) 1 (actLoad)
/-- RUN_CTRL.START, R93: the write. -/
def execStart (s : State) : Res := s.rowWrite .bridge (pgISSUE + 0x50) 1 (actStart)
/-- RUN_CTRL.STOP, R94: the write. -/
def execStop (s : State) : Res := s.rowWrite .bridge (pgISSUE + 0x50) 2 (actStop)
/-- DBG_CTRL.HALT, R98: the write. -/
def execDbgHalt (s : State) : Res := s.rowWrite .bridge (pgISSUE + 0x70) 1 (actDbgHalt)
/-- DBG_CTRL.RESUME, R99: the write. -/
def execResume (s : State) : Res := s.rowWrite .bridge (pgISSUE + 0x70) 2 (actResume)
/-- DBG_CTRL.STEP, R99: the write. -/
def execDbgStep (s : State) : Res := s.rowWrite .bridge (pgISSUE + 0x70) 4 (actDbgStep)
/-- STEP_CTRL.ONE, R193: the write. -/
def execOne (s : State) : Res := s.rowWrite .bridge (pgSTEP + 0x50) 1 (actOne)
/-- STEP_CTRL.ONE_LEARN, R193: the write. -/
def execOneLearn (s : State) : Res := s.rowWrite .bridge (pgSTEP + 0x50) 2 (actOneLearn)
/-- STEP_CTRL.RUN, R193: the write. -/
def execRun (s : State) : Res := s.rowWrite .bridge (pgSTEP + 0x50) 4 (actRun)
/-- STEP_CTRL.HALT, R193: the write. -/
def execHalt (s : State) : Res := s.rowWrite .bridge (pgSTEP + 0x50) 8 (actHalt)
/-- STEP_CTRL.CLOSE, R198: the write. -/
def execClose (src : Source) (s : State) : Res := s.rowWrite src (pgSTEP + 0x50) 16 (actClose src)
/-- STEP_CTRL.EXTEND, R198: the write. -/
def execExtend (src : Source) (s : State) : Res := s.rowWrite src (pgSTEP + 0x50) 32 (actExtend src)
/-- CTRL.RETUNE, R152: the write. -/
def execRetune (s : State) : Res := s.rowWrite .bridge (pgSCALE + 0x44) 1 (actRetune)
/-- CTRL.APPLY, R156: the write. -/
def execApply (src : Source) (s : State) : Res := s.rowWrite src (pgSCALE + 0x44) 2 (actApply src)
/-- SCAN_CTRL.GO, R364: the write. -/
def execScanGo (src : Source) (c : Fin 8) (op : Fin 4) (cont : Bool) (s : State) : Res := s.rowWrite src (checkPg c.val + 0x54) (1 + 2 * op.val + if cont then 8 else 0) (actScanGo src c op cont)
/-- SCAN_CTRL.ABORT, R364: the write. -/
def execScanAbort (src : Source) (c : Fin 8) (processed : BitVec 30) (s : State) : Res := s.rowWrite src (checkPg c.val + 0x54) (16 + 2 * s.get (Reg.CHECK.SCAN_CTRL.OP c.val) + 8 * s.get (Reg.CHECK.SCAN_CTRL.CONT c.val)) (actScanAbort src c processed)
/-- RING_HEAD, R358: the write. -/
def execRingHead (src : Source) (m : Fin 32) (v : Word32) (s : State) : Res := s.rowWrite src (moverPg m.val + 0x54) v.toNat (actRingHead src m v)
/-- MV_CTRL.RETRY, R356: the write. -/
def execRetry (src : Source) (m : Fin 32) (s : State) : Res := s.rowWrite src (moverPg m.val + 0x64) 1 (actRetry src m)
/-- MV_CTRL.SKIP, R356: the write. -/
def execSkip (src : Source) (m : Fin 32) (s : State) : Res := s.rowWrite src (moverPg m.val + 0x64) 2 (actSkip src m)
/-- MV_CTRL.ABORT, R365: the write. -/
def execMvAbort (src : Source) (m : Fin 32) (s : State) : Res := s.rowWrite src (moverPg m.val + 0x64) 4 (actMvAbort src m)
/-- MV_CTRL.RESUME, R356: the write. -/
def execMvResume (src : Source) (m : Fin 32) (s : State) : Res := s.rowWrite src (moverPg m.val + 0x64) 8 (actMvResume src m)
/-- TRAIN_CTRL, R349: the write. -/
def execRetrain (src : Source) (c : Fin 32) (s : State) : Res := s.rowWrite src (memPg c.val + 0x48) 1 (actRetrain src c)
/-- XCOL.ENABLE, R334: the write. -/
def execXcolEnable (src : Source) (p : Fin 8) (k : Fin 4) (v : Word32) (s : State) : Res := s.rowWrite src (flPg p.val + 0x80 + 0x10 * k.val) v.toNat (actXcolEnable src p k v)
/-- RT_SEL, R324: the write. -/
def execRtSel (src : Source) (bank : Bool) (s : State) : Res := s.rowWrite src (flPg 0 + 0x204) (if bank then 1 else 0) (actRtSel src bank)
/-- XSYNC_CFG, R331: the write. -/
def execXsyncCfg (src : Source) (v : Word32) (s : State) : Res := s.rowWrite src (flPg 0 + 0x20C) v.toNat (actXsyncCfg src v)
/-- CTX_W0, R398: the write. -/
def execContextEnable (src : Source) (c : Fin 128) (v : Word32) (s : State) : Res := s.rowWrite src (sctxPg (c.val / 32) + 0x200 + 0x60 * (c.val % 32)) v.toNat (actContextEnable src c v)
/-- FLAGS, R270: the write. -/
def execFlags (src : Source) (v : BitVec 16) (s : State) : Res := s.rowWrite src (fabPg 2 + 0x40) v.toNat (actFlags src v)
/-- BAR_MASK, R268: the write. -/
def execBarMask (src : Source) (g : Fin 64) (w : Fin 8) (v : Word32) (s : State) : Res := s.rowWrite src (fabPg 3 + 0x100 + 0x20 * g.val + 4 * w.val) v.toNat (actBarMask src g w v)
/-- BANK_PWR, R118: the write. -/
def execBankPwr (src : Source) (u : Fin 320) (v : Word32) (s : State) : Res := s.rowWrite src (bankPg u.val + 0x40) v.toNat (actBankPwr src u v)
/-- BANK_INIT, R120: the write. -/
def execBankInit (src : Source) (u : Fin 320) (v : Word32) (s : State) : Res := s.rowWrite src (bankPg u.val + 0x48) v.toNat (actBankInit src u v)
/-- TOKEN.HOLDER, R404: the write. -/
def execTokenHolder (src : Source) (v : Fin 4) (s : State) : Res := s.rowWrite src (pgCROWN + 0x40) v.val (actTokenHolder src v)
/-- HB, R402: the write. -/
def execHb (src : Source) (v : Fin 4) (s : State) : Res := s.rowWrite src (pgCROWN + 0x44) v.val (actHb src v)
/-- MB_CTRL.GO, R407: the write. -/
def execMbGo (src : Source) (s : State) : Res := s.rowWrite src (pgCROWN + 0x60) 1 (actMbGo src)
/-- MB_DONE, R407: the write. -/
def execMbComplete (src : Source) (s : State) : Res := s.rowWrite src (pgCROWN + 0x68) 1 (actMbComplete src)
/-- LOCK, R430: the write. -/
def execLock (src : Source) (v : BitVec 8) (s : State) : Res := s.rowWrite src (pgSECURITY + 0x40) v.toNat (actLock src v)
/-- RCLK_CFG.MULT, R435: the write. -/
def execMult (src : Source) (v : BitVec 8) (s : State) : Res := s.rowWrite src (pgCLOCK + 0x40) v.toNat (actMult src v)
/-- HALF_CFG, R438: the write. -/
def execHalfCfg (src : Source) (west east : Fin 4) (s : State) : Res := s.rowWrite src (pgCLOCK + 0x44) (west.val + 4 * east.val) (actHalfCfg src west east)
/-- DOM_EN, R446: the write. -/
def execDomEn (src : Source) (w : Fin 11) (v : Word32) (s : State) : Res := s.rowWrite src (pgPOWER + 0x40 + 4 * w.val) v.toNat (actDomEn src w v)
/-- RST_CTRL, R462: the write. -/
def execCold (src : Source) (key : BitVec 16) (s : State) : Res := s.rowWrite src (pgRESET + 0x40) (2 + 65536 * key.toNat) (actCold src key)
/-- RST_CTRL, R462: the write. -/
def execCompute (src : Source) (key : BitVec 16) (s : State) : Res := s.rowWrite src (pgRESET + 0x40) (1 + 65536 * key.toNat) (State.flushed (actCompute src key))
/-- TFW_CTRL.GO, R471: the write. -/
def execTfwGo (src : Source) (s : State) : Res := s.rowWrite src (pgRESET + 0xD0) 1 (actTfwGo src)
/-- TILE_MAP, R468: the write. -/
def execTileMap (src : Source) (n : TileId) (phys : BitVec 9) (s : State) : Res := s.rowWrite src (pgRESET + 0x400 + 4 * n.val) phys.toNat (actTileMap src n phys)
/-- ROWFIX_SOFT, R469: the write. -/
def execRowfixSoft (src : Source) (slice : Fin 64) (bank : Fin 16) (row : BitVec 8) (s : State) : Res := s.rowWrite src (pgRESET + 0x800) (2 ^ 31 + slice.val + 64 * bank.val + 1024 * row.toNat) (actRowfixSoft src slice bank row)
/-- BIST_CTRL.GO, R474: the write. -/
def execBistGo (src : Source) (s : State) : Res := s.rowWrite src (pgBIST + 0x54) (1 + 16 * s.get Reg.BIST.BIST_CTRL.KIND) (actBistGo src)
/-- BIST_CTRL.ABORT, R482: the write. -/
def execBistAbort (s : State) : Res := s.rowWrite .bridge (pgBIST + 0x54) 2 (actBistAbort)
/-- BIST_CTRL.VERDICT_PASS, R481: the write. -/
def execVerdictPass (s : State) : Res := s.rowWrite .bridge (pgBIST + 0x54) 256 (actVerdictPass)
/-- BIST_CTRL.VERDICT_FAIL, R481: the write. -/
def execVerdictFail (s : State) : Res := s.rowWrite .bridge (pgBIST + 0x54) 512 (actVerdictFail)
/-- TWIN_ROLE, R489: the write. -/
def execTwinRole (src : Source) (v : Fin 8) (s : State) : Res := s.rowWrite src (pgTWIN + 0x40) v.val (actTwinRole src v)
/-- TWIN_CTRL.SICK, R496: the write. -/
def execSick (src : Source) (on : Bool) (s : State) : Res := s.rowWrite src (pgTWIN + 0x48) (if on then 1 else 0) (actSick src on)
/-- TWIN_CTRL.HANDOVER, R498: the write. -/
def execHandover (src : Source) (s : State) : Res := s.rowWrite src (pgTWIN + 0x48) (2 + s.get Reg.TWIN.TWIN_CTRL.SICK) (actHandover src)
/-- TWIN_CTRL.DETACH, R500: the write. -/
def execDetach (src : Source) (s : State) : Res := s.rowWrite src (pgTWIN + 0x48) (4 + s.get Reg.TWIN.TWIN_CTRL.SICK) (actDetach src)
/-- GT_CTRL.HOLD, R508: the write. -/
def execHold (src : Source) (t : Fin 16) (s : State) : Res := s.rowWrite src (pgTIMERS + 0x104 + 0x20 * t.val) (2 + s.get (Reg.TIMERS.GT_CTRL.RUN t.val)) (actHold src t)
/-- GT_CTRL.HOLD, R508: the write. -/
def execHoldRelease (src : Source) (t : Fin 16) (s : State) : Res := s.rowWrite src (pgTIMERS + 0x104 + 0x20 * t.val) (s.get (Reg.TIMERS.GT_CTRL.RUN t.val)) (actHoldRelease src t)
/-- PSET_LOAD, R181: the write. -/
def execPsetLoad (src : Source) (n : TileId) (s : State) : Res := s.rowWrite src (tilePg n.val 8 + 0x54) 1 (actPsetLoad src n)
/-- HLOCK_CTRL.REQ, R231: the write. -/
def execHlockReq (src : Source) (n : TileId) (row : BitVec 16) (s : State) : Res := s.rowWrite src (tilePg n.val 9 + 0x4C) (65536 + row.toNat) (actHlockReq src n row)
/-- HLOCK_CTRL.REL, R231: the write. -/
def execHlockRel (src : Source) (n : TileId) (s : State) : Res := s.rowWrite src (tilePg n.val 9 + 0x4C) (131072 + s.get (Reg.SYNAPSE.HLOCK_CTRL.ROW n.val)) (actHlockRel src n)
/-- CMD.GO, R219: the write. -/
def execLearnCmdGo (src : Source) (n : TileId) (args : BitVec 24) (s : State) : Res := s.rowWrite src (tilePg n.val 10 + 0x40) (2 ^ 31 + args.toNat) (actLearnCmdGo src n args)
/-- LEARN_CTRL.DONE, R232: the write. -/
def execLearnCtrlDone (src : Source) (n : TileId) (s : State) : Res := s.rowWrite src (tilePg n.val 10 + 0x4C) 1 (actLearnCtrlDone src n)
/-- EGR_CTRL.DEFER, R198: the write. -/
def execDefer (src : Source) (n : TileId) (s : State) : Res := s.rowWrite src (tilePg n.val 11 + 0x48) 1 (actDefer src n)
/-- EGR_CTRL.DROP, R198: the write. -/
def execDrop (src : Source) (n : TileId) (s : State) : Res := s.rowWrite src (tilePg n.val 11 + 0x48) 2 (actDrop src n)
/-- STALL_CTRL.DISCARD, R296: the write. -/
def execStallDiscard (src : Source) (n : TileId) (s : State) : Res := s.rowWrite src (tilePg n.val 12 + 0x50) 1 (actStallDiscard src n)
/-- STALL_CTRL.RETAIN, R296: the write. -/
def execRetain (src : Source) (n : TileId) (s : State) : Res := s.rowWrite src (tilePg n.val 12 + 0x50) 2 (actRetain src n)
/-- COMB_FLUSH, R299: the write. -/
def execCombFlush (src : Source) (n : TileId) (v : Word32) (s : State) : Res := s.rowWrite src (tilePg n.val 13 + 0x54) v.toNat (actCombFlush src n v)
/-- HEAD_CTRL.POP, R302: the write. -/
def execPop (src : Source) (n : TileId) (s : State) : Res := s.rowWrite src (tilePg n.val 13 + 0x50) 1 (actPop src n)
/-- RNG_SEED, R147: the write, of the high word first where it waits. -/
def execRngSeed (src : Source) (n : TileId) (v : Word64) (s : State) : Res :=
  let off := tilePg n.val 6 + 0x40
  let s := if src == .host && s.hostWaits then s.hostWrite (.register (BitVec.ofNat 26 (off + 4)) (BitVec.ofNat 32 (v.toNat / 2 ^ 32))) else s
  s.rowWrite src off (low 32 v.toNat) (actRngSeed src n v)
/-- BLK_CTRL.SRST, R466: the write. -/
def execBlockReset (src : Source) (pg : Ofs) (s : State) : Res := s.rowWrite src ((pageAt pg.toNat).base + 0xC) (2 ^ 31) (actBlockReset src pg)

/-! A domain that is back. -/

/-- The movers of a half that is ON again take up the descriptors that wait in their rings (R358, R450). -/
def State.kickHalf (s : State) (d : Nat) : State :=
  if (d = 320 ∨ d = 321) ∧ s.domOn d then (List.range 16).foldl (fun s m => s.mvKick (16 * (d - 320) + m)) s else s

/-- DOMAIN_ON, R449: a domain comes ON, and what waits in it goes on. -/
def execDomainOn (d : Fin 325) (s : State) : Res := .next ((s.outcome (actDomainOn d s)).kickHalf d.val)

/-! Accesses whose commands name an offset of their own. -/

/-- An access of the host that waits behind its BAR2 writes (none: a read), or one that a halted core does not make; another is made now (R56, R373, R517). -/
def State.rowAccess (s : State) (src : Source) (off : Ofs) (w : Option Word32) (f : State → Res) : Res :=
  if src == .host && s.hostWaits then
    match w with
    | some v => .next (s.hostWrite (.register off v))
    | none => .next (s.hostRead off)
  else if s.silent src then .next s
  else .next (s.outcome (f s))

/-- BLK_CTRL.EN, R59: the write. -/
def execEnable (src : Source) (pg : Ofs) (s : State) : Res :=
  let p := pageAt pg.toNat
  s.rowAccess src (BitVec.ofNat 26 (p.base + 0xC)) (some (BitVec.ofNat 32 (1 + 2 * s.get (Reg.HDR.BLK_CTRL.MODE p.base)))) (actEnable src pg)
/-- An unused page, R51: the access. -/
def execUnusedPageAccess (src : Source) (off : Ofs) (w : Option Word32) (s : State) : Res := s.rowAccess src off w (actUnusedPageAccess src off w)
/-- A page that is down, R52: the access. -/
def execDownPageAccess (src : Source) (off : Ofs) (w : Option Word32) (s : State) : Res := s.rowAccess src off w (actDownPageAccess src off w)
/-- A vote register, R447: the write. -/
def execVote (src : Source) (off : Ofs) (v : Word32) (s : State) : Res := s.rowAccess src off (some v) (actVote src off v)
/-- GT_CNT, R508: the read. -/
def execGtCntRead (src : Source) (t : Fin 16) (s : State) : Res := s.rowAccess src (BitVec.ofNat 26 (pgTIMERS + 0x108 + 0x20 * t.val)) none (actGtCntRead src t)

end Sys2Proof.Machine
end

