-- ==== Sys2Proof/Machine/Scan.lean ====
section
/-! DEFINITION. How a scan job of a check-unit channel ends (R362, R363), and a load of tile firmware (R470, R471). -/
namespace Sys2Proof.Machine
namespace State

/-- The trailer of APPEND is written: a write closes the combine windows of its line (R259); in register space the bridge carries it out (R45). -/
def scanWrite (s : State) (c a : Nat) (data : List Byte) (coll : List PortA) : Nat × State :=
  if s.cutOff (epCheck c) a then (stDOMAIN_OFF, s)
  else
    match region a with
    | .regs _ => s.writeVia (epCheck c) a data
    | _ => let r := s.serveMem 1 (epCheck c) a data.length data coll; (r.1, r.2.2)

/-- The job's bytes have passed through the channel: the result is stored, written or compared, or a failed access ends it. -/
def scanEnd (s : State) (c : Nat) (coll : List PortA) : State :=
  match (s.chkCh c).scan with
  | none => s
  | some (a, len, op, poly) =>
    let r := s.scanFeed c poly a len coll
    if r.1 ≠ stOK then r.2.scanFail c r.1
    else
      let s := r.2.chkResult c poly
      let word := s.get (Reg.CHECK.CHK_RESULT.VALUE c)
      if op = 1 then
        let w := s.scanWrite c (a + len) (toBytes 8 word) coll
        if w.1 = stOK then w.2.scanOver c else w.2.scanFail c w.1
      else if op = 2 then
        let w := s.scanRead c (a + len) 8 coll
        if w.1 = stOK then (w.2.2.chkMatch c (ofBytes w.2.1 = word)).scanOver c else w.2.2.scanFail c w.1
      else s.scanOver c

end State

/-- SCAN_DONE (R362, R363): the job's bytes have been read; while some of them lie in a half that does not run, its reads wait in the cuff (R273). -/
def execScanDone (c : Fin 8) (coll : List PortA) (s : State) : Res :=
  match (s.chkCh c.val).scan with
  | none => .next s
  | some (a, len, op, _) =>
    if !s.pageUp (pageAt (checkPg c.val)) then .next s
    else .next (s.guard (epCheck c.val) 10 [(a, len + if op = 0 then 0 else 8)] fun s => s.scanEnd c.val coll)

/-- TFW_LOAD_END (R91, R470, R471, R487): the loader reads the image once, and each masked tile compares the CRC-32C of what it received; a match sets TFW_OK and raises its firmware pages. An image that cannot be read matches nowhere; one
in a half that does not run waits in the cuff (R273). -/
def execTfwLoadEnd (failed : List TileId) (s : State) : Res :=
  match s.tfw with
  | none => .next s
  | some j =>
    -- The loader is gone with its half: no tile has its image.
    if !s.domOn 320 then .next (s.tfwEnd j false failed) else
    .next (s.guard epISSUE 10 [(j.addr, j.len)] fun s =>
      let r := s.readVia epISSUE j.addr j.len
      r.2.2.tfwEnd j (r.1 == stOK && crc32c r.2.1 == j.crc) failed)

end Sys2Proof.Machine
end

