-- ==== Sys2Proof/Machine/Dispatch.lean ====
section
/-! DEFINITION. One arm per command: each calls its own meaning. -/
namespace Sys2Proof.Machine

def exec (i : Instr) (s : State) : Host.Outcome State Fault Refusal :=
  match i with
  | .registerWrite src off v => Sys2Proof.Machine.execRegisterWrite src off v s
  | .enable src pg => Sys2Proof.Machine.execEnable src pg s
  | .consistencyCheckEnd pg => Sys2Proof.Machine.execConsistencyCheckEnd pg s
  | .blockReset src pg => Sys2Proof.Machine.execBlockReset src pg s
  | .blockResetEnd pg => Sys2Proof.Machine.execBlockResetEnd pg s
  | .unusedPageAccess src off w => Sys2Proof.Machine.execUnusedPageAccess src off w s
  | .downPageAccess src off w => Sys2Proof.Machine.execDownPageAccess src off w s
  | .vote src off v => Sys2Proof.Machine.execVote src off v s
  | .shadowRead src off => Sys2Proof.Machine.execShadowRead src off s
  | .shadowWrite src off v => Sys2Proof.Machine.execShadowWrite src off v s
  | .slowWriteComplete src off => Sys2Proof.Machine.execSlowWriteComplete src off s
  | .registerBridgeRequest req => Sys2Proof.Machine.execRegisterBridgeRequest req s
  | .load => Sys2Proof.Machine.execLoad s
  | .loadEnd => Sys2Proof.Machine.execLoadEnd s
  | .loadTimeout => Sys2Proof.Machine.execLoadTimeout s
  | .start => Sys2Proof.Machine.execStart s
  | .stop => Sys2Proof.Machine.execStop s
  | .launchWord => Sys2Proof.Machine.execLaunchWord s
  | .bundleExecute n => Sys2Proof.Machine.execBundleExecute n s
  | .trackedOpComplete n k => Sys2Proof.Machine.execTrackedOpComplete n k s
  | .lstart who lvl count => Sys2Proof.Machine.execLstart who lvl count s
  | .lend who lvl => Sys2Proof.Machine.execLend who lvl s
  | .lone who lvl count => Sys2Proof.Machine.execLone who lvl count s
  | .endOp => Sys2Proof.Machine.execEnd s
  | .exitif cond arg => Sys2Proof.Machine.execExitif cond arg s
  | .dbclr bit => Sys2Proof.Machine.execDbclr bit s
  | .setflag f => Sys2Proof.Machine.execSetflag f s
  | .clrflag f => Sys2Proof.Machine.execClrflag f s
  | .one => Sys2Proof.Machine.execOne s
  | .oneLearn => Sys2Proof.Machine.execOneLearn s
  | .run => Sys2Proof.Machine.execRun s
  | .halt => Sys2Proof.Machine.execHalt s
  | .waitBarrier g => Sys2Proof.Machine.execWaitBarrier g s
  | .waitMover m => Sys2Proof.Machine.execWaitMover m s
  | .waitEvtDrain => Sys2Proof.Machine.execWaitEvtDrain s
  | .waitStepTimer => Sys2Proof.Machine.execWaitStepTimer s
  | .waitDoorbell bit => Sys2Proof.Machine.execWaitDoorbell bit s
  | .waitFlagSet f => Sys2Proof.Machine.execWaitFlagSet f s
  | .waitFlagClr f => Sys2Proof.Machine.execWaitFlagClr f s
  | .waitTracked => Sys2Proof.Machine.execWaitTracked s
  | .waitCycles cyc => Sys2Proof.Machine.execWaitCycles cyc s
  | .waitSatisfied => Sys2Proof.Machine.execWaitSatisfied s
  | .waitTimeout => Sys2Proof.Machine.execWaitTimeout s
  | .dbgHalt => Sys2Proof.Machine.execDbgHalt s
  | .resume => Sys2Proof.Machine.execResume s
  | .dbgStep => Sys2Proof.Machine.execDbgStep s
  | .stepDone => Sys2Proof.Machine.execStepDone s
  | .move n m rs rd => Sys2Proof.Machine.execMove n m rs rd s
  | .qsend n mode rs nm1 ra rd tmo => Sys2Proof.Machine.execQsend n mode rs nm1 ra rd tmo s
  | .recv n rd nm1 rs q => Sys2Proof.Machine.execRecv n rd nm1 rs q s
  | .peek n rd nm1 rs q => Sys2Proof.Machine.execPeek n rd nm1 rs q s
  | .discard n rd nm1 rs q => Sys2Proof.Machine.execDiscard n rd nm1 rs q s
  | .evctlStart n => Sys2Proof.Machine.execEvctlStart n s
  | .evctlDrain n => Sys2Proof.Machine.execEvctlDrain n s
  | .evctlStop n => Sys2Proof.Machine.execEvctlStop n s
  | .drainComplete n => Sys2Proof.Machine.execDrainComplete n s
  | .learn n args => Sys2Proof.Machine.execLearn n args s
  | .arrive n g => Sys2Proof.Machine.execArrive n g s
  | .flag n f set => Sys2Proof.Machine.execFlag n f set s
  | .load8 n rd ra => Sys2Proof.Machine.execLoad8 n rd ra s
  | .store8 n ra rs => Sys2Proof.Machine.execStore8 n ra rs s
  | .atomic n aop rd ra rs => Sys2Proof.Machine.execAtomic n aop rd ra rs s
  | .fence n ra => Sys2Proof.Machine.execFence n ra s
  | .add n rd rs1 rs2 => Sys2Proof.Machine.execAdd n rd rs1 rs2 s
  | .sub n rd rs1 rs2 => Sys2Proof.Machine.execSub n rd rs1 rs2 s
  | .andOp n rd rs1 rs2 => Sys2Proof.Machine.execAnd n rd rs1 rs2 s
  | .orOp n rd rs1 rs2 => Sys2Proof.Machine.execOr n rd rs1 rs2 s
  | .xorOp n rd rs1 rs2 => Sys2Proof.Machine.execXor n rd rs1 rs2 s
  | .sll n rd rs1 rs2 => Sys2Proof.Machine.execSll n rd rs1 rs2 s
  | .srl n rd rs1 rs2 => Sys2Proof.Machine.execSrl n rd rs1 rs2 s
  | .sra n rd rs1 rs2 => Sys2Proof.Machine.execSra n rd rs1 rs2 s
  | .slt n rd rs1 rs2 => Sys2Proof.Machine.execSlt n rd rs1 rs2 s
  | .sltu n rd rs1 rs2 => Sys2Proof.Machine.execSltu n rd rs1 rs2 s
  | .mul n rd rs1 rs2 => Sys2Proof.Machine.execMul n rd rs1 rs2 s
  | .mulh n rd rs1 rs2 => Sys2Proof.Machine.execMulh n rd rs1 rs2 s
  | .selnz n rd rs1 rs2 => Sys2Proof.Machine.execSelnz n rd rs1 rs2 s
  | .addi n rd rs1 imm => Sys2Proof.Machine.execAddi n rd rs1 imm s
  | .andi n rd rs1 imm => Sys2Proof.Machine.execAndi n rd rs1 imm s
  | .ori n rd rs1 imm => Sys2Proof.Machine.execOri n rd rs1 imm s
  | .xori n rd rs1 imm => Sys2Proof.Machine.execXori n rd rs1 imm s
  | .slli n rd rs1 sh => Sys2Proof.Machine.execSlli n rd rs1 sh s
  | .srli n rd rs1 sh => Sys2Proof.Machine.execSrli n rd rs1 sh s
  | .srai n rd rs1 sh => Sys2Proof.Machine.execSrai n rd rs1 sh s
  | .shori n rd rs1 imm => Sys2Proof.Machine.execShori n rd rs1 imm s
  | .ld n rd rs1 imm => Sys2Proof.Machine.execLd n rd rs1 imm s
  | .lw n rd rs1 imm => Sys2Proof.Machine.execLw n rd rs1 imm s
  | .lwu n rd rs1 imm => Sys2Proof.Machine.execLwu n rd rs1 imm s
  | .sd n rd rs1 imm => Sys2Proof.Machine.execSd n rd rs1 imm s
  | .sw n rd rs1 imm => Sys2Proof.Machine.execSw n rd rs1 imm s
  | .atom n sub rd rs1 rs2 => Sys2Proof.Machine.execAtom n sub rd rs1 rs2 s
  | .mfv n rd vs half idx => Sys2Proof.Machine.execMfv n rd vs half idx s
  | .rdcsr n rd csr => Sys2Proof.Machine.execRdcsr n rd csr s
  | .compactAdd n rd rs1 rs2 => Sys2Proof.Machine.execCompactAdd n rd rs1 rs2 s
  | .compactSub n rd rs1 rs2 => Sys2Proof.Machine.execCompactSub n rd rs1 rs2 s
  | .compactAnd n rd rs1 rs2 => Sys2Proof.Machine.execCompactAnd n rd rs1 rs2 s
  | .compactOr n rd rs1 rs2 => Sys2Proof.Machine.execCompactOr n rd rs1 rs2 s
  | .compactXor n rd rs1 rs2 => Sys2Proof.Machine.execCompactXor n rd rs1 rs2 s
  | .compactSll n rd rs1 rs2 => Sys2Proof.Machine.execCompactSll n rd rs1 rs2 s
  | .compactSrl n rd rs1 rs2 => Sys2Proof.Machine.execCompactSrl n rd rs1 rs2 s
  | .compactMov n rd rs1 => Sys2Proof.Machine.execCompactMov n rd rs1 s
  | .vadd n ty vd va vb mask => Sys2Proof.Machine.execVadd n ty vd va vb mask s
  | .vsub n ty vd va vb mask => Sys2Proof.Machine.execVsub n ty vd va vb mask s
  | .vmul n ty vd va vb mask => Sys2Proof.Machine.execVmul n ty vd va vb mask s
  | .vfma n ty vd va vb mask vc neg => Sys2Proof.Machine.execVfma n ty vd va vb mask vc neg s
  | .vmax n ty vd va vb mask => Sys2Proof.Machine.execVmax n ty vd va vb mask s
  | .vmin n ty vd va vb mask => Sys2Proof.Machine.execVmin n ty vd va vb mask s
  | .vlerp n ty vd va vb mask k => Sys2Proof.Machine.execVlerp n ty vd va vb mask k s
  | .vrms n ty vd va vb mask k => Sys2Proof.Machine.execVrms n ty vd va vb mask k s
  | .vdive n ty vd va vb mask k => Sys2Proof.Machine.execVdive n ty vd va vb mask k s
  | .vrcp n ty vd va mask => Sys2Proof.Machine.execVrcp n ty vd va mask s
  | .vrsqrt n ty vd va mask => Sys2Proof.Machine.execVrsqrt n ty vd va mask s
  | .vexp2 n ty vd va mask => Sys2Proof.Machine.execVexp2 n ty vd va mask s
  | .vlog2 n ty vd va mask => Sys2Proof.Machine.execVlog2 n ty vd va mask s
  | .vsqrt n ty vd va mask => Sys2Proof.Machine.execVsqrt n ty vd va mask s
  | .vcmp n ty md va vb mask cond => Sys2Proof.Machine.execVcmp n ty md va vb mask cond s
  | .vsel n ty vd va vb mask => Sys2Proof.Machine.execVsel n ty vd va vb mask s
  | .vcvt n ty tt vd va mask stoch => Sys2Proof.Machine.execVcvt n ty tt vd va mask stoch s
  | .vred n ty vd va mask op => Sys2Proof.Machine.execVred n ty vd va mask op s
  | .vscan n ty vd va mask chain => Sys2Proof.Machine.execVscan n ty vd va mask chain s
  | .vscanl n ty vd va vb mask chain => Sys2Proof.Machine.execVscanl n ty vd va vb mask chain s
  | .vld n ty v sa part imm => Sys2Proof.Machine.execVld n ty v sa part imm s
  | .vst n ty v sa part imm => Sys2Proof.Machine.execVst n ty v sa part imm s
  | .vbcast n ty vd sa => Sys2Proof.Machine.execVbcast n ty vd sa s
  | .vsetk n k sa => Sys2Proof.Machine.execVsetk n k sa s
  | .vdq n vd va vb mask => Sys2Proof.Machine.execVdq n vd va vb mask s
  | .vq n vd va vb mask => Sys2Proof.Machine.execVq n vd va vb mask s
  | .ldw n d => Sys2Proof.Machine.execLdw n d s
  | .swapw n => Sys2Proof.Machine.execSwapw n s
  | .swapwDeferred n => Sys2Proof.Machine.execSwapwDeferred n s
  | .mac n d k => Sys2Proof.Machine.execMac n d k s
  | .out n d k => Sys2Proof.Machine.execOut n d k s
  | .clr n d k => Sys2Proof.Machine.execClr n d k s
  | .eccWriteback addr => Sys2Proof.Machine.execEccWriteback addr s
  | .scrubRead u bank displaced => Sys2Proof.Machine.execScrubRead u bank displaced s
  | .bankPwr src u v => Sys2Proof.Machine.execBankPwr src u v s
  | .bankTransitionEnd u bank => Sys2Proof.Machine.execBankTransitionEnd u bank s
  | .bankInit src u v => Sys2Proof.Machine.execBankInit src u v s
  | .initDone u bank => Sys2Proof.Machine.execInitDone u bank s
  | .rngSeed src n v => Sys2Proof.Machine.execRngSeed src n v s
  | .retune => Sys2Proof.Machine.execRetune s
  | .retuneUpdate => Sys2Proof.Machine.execRetuneUpdate s
  | .retuneTimeout => Sys2Proof.Machine.execRetuneTimeout s
  | .apply src => Sys2Proof.Machine.execApply src s
  | .walkEntry n => Sys2Proof.Machine.execWalkEntry n s
  | .eventGroup n waited => Sys2Proof.Machine.execEventGroup n waited s
  | .lockTimeout n => Sys2Proof.Machine.execLockTimeout n s
  | .psetLoad src n => Sys2Proof.Machine.execPsetLoad src n s
  | .psetLoadEnd n => Sys2Proof.Machine.execPsetLoadEnd n s
  | .stepBoundary => Sys2Proof.Machine.execStepBoundary s
  | .phaseEnter n => Sys2Proof.Machine.execPhaseEnter n s
  | .readoutCopyEnd n => Sys2Proof.Machine.execReadoutCopyEnd n s
  | .drainClose => Sys2Proof.Machine.execDrainClose s
  | .neuronSweepEnd n => Sys2Proof.Machine.execNeuronSweepEnd n s
  | .barrierComplete g => Sys2Proof.Machine.execBarrierComplete g s
  | .stretch => Sys2Proof.Machine.execStretch s
  | .lateStep => Sys2Proof.Machine.execLateStep s
  | .close src => Sys2Proof.Machine.execClose src s
  | .extend src => Sys2Proof.Machine.execExtend src s
  | .defer src n => Sys2Proof.Machine.execDefer src n s
  | .drop src n => Sys2Proof.Machine.execDrop src n s
  | .injectEvent from_ => Sys2Proof.Machine.execInjectEvent from_ s
  | .injectCount from_ => Sys2Proof.Machine.execInjectCount from_ s
  | .injectDelta from_ => Sys2Proof.Machine.execInjectDelta from_ s
  | .learnCmdGo src n args => Sys2Proof.Machine.execLearnCmdGo src n args s
  | .gatherEnd n => Sys2Proof.Machine.execGatherEnd n s
  | .rowUpdate n waited => Sys2Proof.Machine.execRowUpdate n waited s
  | .delayMoveComplete n => Sys2Proof.Machine.execDelayMoveComplete n s
  | .applyFinish n => Sys2Proof.Machine.execApplyFinish n s
  | .learnCtrlDone src n => Sys2Proof.Machine.execLearnCtrlDone src n s
  | .hlockReq src n row => Sys2Proof.Machine.execHlockReq src n row s
  | .hlockGrant n => Sys2Proof.Machine.execHlockGrant n s
  | .hlockRel src n => Sys2Proof.Machine.execHlockRel src n s
  | .rd p luck => Sys2Proof.Machine.execRd p luck s
  | .wr p luck => Sys2Proof.Machine.execWr p luck s
  | .addI32 p luck => Sys2Proof.Machine.execAddI32 p luck s
  | .addI64 p luck => Sys2Proof.Machine.execAddI64 p luck s
  | .addF32 p luck => Sys2Proof.Machine.execAddF32 p luck s
  | .add2bf16 p luck => Sys2Proof.Machine.execAdd2bf16 p luck s
  | .swap64 p luck => Sys2Proof.Machine.execSwap64 p luck s
  | .delayStep p luck => Sys2Proof.Machine.execDelayStep p luck s
  | .rdrsp ep tag luck => Sys2Proof.Machine.execRdrsp ep tag luck s
  | .wrack ep tag luck => Sys2Proof.Machine.execWrack ep tag luck s
  | .evt src dst evs luck => Sys2Proof.Machine.execEvt src dst evs luck s
  | .red from_ g o => Sys2Proof.Machine.execRed from_ g o s
  | .redres g o => Sys2Proof.Machine.execRedres g o s
  | .fnc src dst luck => Sys2Proof.Machine.execFnc src dst luck s
  | .fncack src dst => Sys2Proof.Machine.execFncack src dst s
  | .probe cls luck => Sys2Proof.Machine.execProbe cls luck s
  | .fenceDeliver src dst => Sys2Proof.Machine.execFenceDeliver src dst s
  | .fenceTimeout src dst => Sys2Proof.Machine.execFenceTimeout src dst s
  | .fenceSourceTimeout src dst => Sys2Proof.Machine.execFenceSourceTimeout src dst s
  | .requestTimeout ep tag => Sys2Proof.Machine.execRequestTimeout ep tag s
  | .combineWindowClose addr cls => Sys2Proof.Machine.execCombineWindowClose addr cls s
  | .reductionTimeout sw g o => Sys2Proof.Machine.execReductionTimeout sw g o s
  | .barTmo g => Sys2Proof.Machine.execBarTmo g s
  | .barMask src g w v => Sys2Proof.Machine.execBarMask src g w v s
  | .flags src v => Sys2Proof.Machine.execFlags src v s
  | .cuffTimeout k => Sys2Proof.Machine.execCuffTimeout k s
  | .cuffVoteWithdraw half => Sys2Proof.Machine.execCuffVoteWithdraw half s
  | .messageHead ch core parity => Sys2Proof.Machine.execMessageHead ch core parity s
  | .slotGrant n => Sys2Proof.Machine.execSlotGrant n s
  | .timedExpiry n => Sys2Proof.Machine.execTimedExpiry n s
  | .qstall n => Sys2Proof.Machine.execQstall n s
  | .sendComplete ch => Sys2Proof.Machine.execSendComplete ch s
  | .lost ch => Sys2Proof.Machine.execLost ch s
  | .combFlush src n v => Sys2Proof.Machine.execCombFlush src n v s
  | .pop src n => Sys2Proof.Machine.execPop src n s
  | .stallDiscard src n => Sys2Proof.Machine.execStallDiscard src n s
  | .retain src n => Sys2Proof.Machine.execRetain src n s
  | .trainingEnd p peer => Sys2Proof.Machine.execTrainingEnd p peer s
  | .trainTimeout p => Sys2Proof.Machine.execTrainTimeout p s
  | .trainRetry p => Sys2Proof.Machine.execTrainRetry p s
  | .linkPacket p pkt luck => Sys2Proof.Machine.execLinkPacket p pkt luck s
  | .idleUnit p => Sys2Proof.Machine.execIdleUnit p s
  | .credit p pairs => Sys2Proof.Machine.execCredit p pairs s
  | .steptok p tok => Sys2Proof.Machine.execSteptok p tok s
  | .bartok p k => Sys2Proof.Machine.execBartok p k s
  | .cgrant p g cr => Sys2Proof.Machine.execCgrant p g cr s
  | .creturn p g cr => Sys2Proof.Machine.execCreturn p g cr s
  | .linkDown p => Sys2Proof.Machine.execLinkDown p s
  | .failover p => Sys2Proof.Machine.execFailover p s
  | .rtSel src bank => Sys2Proof.Machine.execRtSel src bank s
  | .xsyncCfg src v => Sys2Proof.Machine.execXsyncCfg src v s
  | .xcolEnable src p k v => Sys2Proof.Machine.execXcolEnable src p k v s
  | .evtLife p landing k => Sys2Proof.Machine.execEvtLife p landing k s
  | .memTrainEnd c bin => Sys2Proof.Machine.execMemTrainEnd c bin s
  | .retrain src c => Sys2Proof.Machine.execRetrain src c s
  | .refresh c => Sys2Proof.Machine.execRefresh c s
  | .deviceReport c temp => Sys2Proof.Machine.execDeviceReport c temp s
  | .recalibration c => Sys2Proof.Machine.execRecalibration c s
  | .memScrubRead c displaced => Sys2Proof.Machine.execMemScrubRead c displaced s
  | .ringHead src m v => Sys2Proof.Machine.execRingHead src m v s
  | .post m => Sys2Proof.Machine.execPost m s
  | .descFetch m => Sys2Proof.Machine.execDescFetch m s
  | .checkChannelGrant c => Sys2Proof.Machine.execCheckChannelGrant c s
  | .moverPacketDone m ofs => Sys2Proof.Machine.execMoverPacketDone m ofs s
  | .moverRetry m ofs => Sys2Proof.Machine.execMoverRetry m ofs s
  | .mvResume src m => Sys2Proof.Machine.execMvResume src m s
  | .mvAbort src m => Sys2Proof.Machine.execMvAbort src m s
  | .retry src m => Sys2Proof.Machine.execRetry src m s
  | .skip src m => Sys2Proof.Machine.execSkip src m s
  | .scanGo src c op cont => Sys2Proof.Machine.execScanGo src c op cont s
  | .scanAbort src c processed => Sys2Proof.Machine.execScanAbort src c processed s
  | .scanDone c coll => Sys2Proof.Machine.execScanDone c coll s
  | .perstDeassert => Sys2Proof.Machine.execPerstDeassert s
  | .hotReset => Sys2Proof.Machine.execHotReset s
  | .functionLevelReset => Sys2Proof.Machine.execFunctionLevelReset s
  | .pcieLinkDown => Sys2Proof.Machine.execPcieLinkDown s
  | .bar2Tlp tlp => Sys2Proof.Machine.execBar2Tlp tlp s
  | .dbIssue v => Sys2Proof.Machine.execDbIssue v s
  | .dbInj v => Sys2Proof.Machine.execDbInj v s
  | .dbMover m v => Sys2Proof.Machine.execDbMover m v s
  | .launch m before v => Sys2Proof.Machine.execLaunch m before v s
  | .msixSend vec => Sys2Proof.Machine.execMsixSend vec s
  | .hostCompletion tag c => Sys2Proof.Machine.execHostCompletion tag c s
  | .setEndpointId eid => Sys2Proof.Machine.execSetEndpointId eid s
  | .getEndpointId => Sys2Proof.Machine.execGetEndpointId s
  | .getMctpVersionSupport => Sys2Proof.Machine.execGetMctpVersionSupport s
  | .getMessageTypeSupport => Sys2Proof.Machine.execGetMessageTypeSupport s
  | .ingestFrame f => Sys2Proof.Machine.execIngestFrame f s
  | .arpRequest p q => Sys2Proof.Machine.execArpRequest p q s
  | .neighborSolicitation p q => Sys2Proof.Machine.execNeighborSolicitation p q s
  | .pauseFrame p => Sys2Proof.Machine.execPauseFrame p s
  | .otherFrame p => Sys2Proof.Machine.execOtherFrame p s
  | .countFrame c => Sys2Proof.Machine.execCountFrame c s
  | .gateTmo c => Sys2Proof.Machine.execGateTmo c s
  | .contextEnable src c v => Sys2Proof.Machine.execContextEnable src c v s
  | .streamLinkUp p media => Sys2Proof.Machine.execStreamLinkUp p media s
  | .streamLinkDown p => Sys2Proof.Machine.execStreamLinkDown p s
  | .hb src v => Sys2Proof.Machine.execHb src v s
  | .hbBoundary => Sys2Proof.Machine.execHbBoundary s
  | .tokenHolder src v => Sys2Proof.Machine.execTokenHolder src v s
  | .mbGo src => Sys2Proof.Machine.execMbGo src s
  | .mbComplete src => Sys2Proof.Machine.execMbComplete src s
  | .getInfo path => Sys2Proof.Machine.execGetInfo path s
  | .setModuleId path => Sys2Proof.Machine.execSetModuleId path s
  | .sensorRead path => Sys2Proof.Machine.execSensorRead path s
  | .threshSet path => Sys2Proof.Machine.execThreshSet path s
  | .logRead path => Sys2Proof.Machine.execLogRead path s
  | .fwStage path => Sys2Proof.Machine.execFwStage path s
  | .fwActivate path => Sys2Proof.Machine.execFwActivate path s
  | .fwCommit path => Sys2Proof.Machine.execFwCommit path s
  | .attest path => Sys2Proof.Machine.execAttest path s
  | .getCert path => Sys2Proof.Machine.execGetCert path s
  | .lockSet path => Sys2Proof.Machine.execLockSet path s
  | .tokenAssign path => Sys2Proof.Machine.execTokenAssign path s
  | .lock src v => Sys2Proof.Machine.execLock src v s
  | .sensorSample k v ok => Sys2Proof.Machine.execSensorSample k v ok s
  | .tripSample k v => Sys2Proof.Machine.execTripSample k v s
  | .logWrite => Sys2Proof.Machine.execLogWrite s
  | .boot => Sys2Proof.Machine.execBoot s
  | .mult src v => Sys2Proof.Machine.execMult src v s
  | .relockDone => Sys2Proof.Machine.execRelockDone s
  | .lockLost => Sys2Proof.Machine.execLockLost s
  | .pllRelock => Sys2Proof.Machine.execPllRelock s
  | .halfCfg src west east => Sys2Proof.Machine.execHalfCfg src west east s
  | .throttleWindow => Sys2Proof.Machine.execThrottleWindow s
  | .capTrip => Sys2Proof.Machine.execCapTrip s
  | .capTripRelease => Sys2Proof.Machine.execCapTripRelease s
  | .domEn src w v => Sys2Proof.Machine.execDomEn src w v s
  | .domainOn d => Sys2Proof.Machine.execDomainOn d s
  | .domainLow d => Sys2Proof.Machine.execDomainLow d s
  | .watchWake temps panel cables => Sys2Proof.Machine.execWatchWake temps panel cables s
  | .powerOn => Sys2Proof.Machine.execPowerOn s
  | .supplyFault vm => Sys2Proof.Machine.execSupplyFault vm s
  | .cold src key => Sys2Proof.Machine.execCold src key s
  | .compute src key => Sys2Proof.Machine.execCompute src key s
  | .computeResetEnd => Sys2Proof.Machine.execComputeResetEnd s
  | .tileMap src n phys => Sys2Proof.Machine.execTileMap src n phys s
  | .rowfixSoft src slice bank row => Sys2Proof.Machine.execRowfixSoft src slice bank row s
  | .tfwGo src => Sys2Proof.Machine.execTfwGo src s
  | .tfwLoadEnd failed => Sys2Proof.Machine.execTfwLoadEnd failed s
  | .bistGo src => Sys2Proof.Machine.execBistGo src s
  | .bistTargetStart kind inst => Sys2Proof.Machine.execBistTargetStart kind inst s
  | .bistTargetEnd kind inst sig => Sys2Proof.Machine.execBistTargetEnd kind inst sig s
  | .bistAbort => Sys2Proof.Machine.execBistAbort s
  | .verdictPass => Sys2Proof.Machine.execVerdictPass s
  | .verdictFail => Sys2Proof.Machine.execVerdictFail s
  | .bistRecord => Sys2Proof.Machine.execBistRecord s
  | .twinRole src v => Sys2Proof.Machine.execTwinRole src v s
  | .twinHbSend => Sys2Proof.Machine.execTwinHbSend s
  | .twinHb p u => Sys2Proof.Machine.execTwinHb p u s
  | .twinWindow => Sys2Proof.Machine.execTwinWindow s
  | .takeover => Sys2Proof.Machine.execTakeover s
  | .roleConflict => Sys2Proof.Machine.execRoleConflict s
  | .sick src on => Sys2Proof.Machine.execSick src on s
  | .stepWatchdog => Sys2Proof.Machine.execStepWatchdog s
  | .handover src => Sys2Proof.Machine.execHandover src s
  | .handoverRequest p u => Sys2Proof.Machine.execHandoverRequest p u s
  | .handoverAck p u => Sys2Proof.Machine.execHandoverAck p u s
  | .handoverTimeout => Sys2Proof.Machine.execHandoverTimeout s
  | .detach src => Sys2Proof.Machine.execDetach src s
  | .detachUnit p u => Sys2Proof.Machine.execDetachUnit p u s
  | .buttonPress => Sys2Proof.Machine.execButtonPress s
  | .buttonRelease ms => Sys2Proof.Machine.execButtonRelease ms s
  | .longPress => Sys2Proof.Machine.execLongPress s
  | .padChargeCycle ns => Sys2Proof.Machine.execPadChargeCycle ns s
  | .padFault => Sys2Proof.Machine.execPadFault s
  | .latch => Sys2Proof.Machine.execLatch s
  | .cable pres => Sys2Proof.Machine.execCable pres s
  | .wrap t => Sys2Proof.Machine.execWrap t s
  | .matchOp t => Sys2Proof.Machine.execMatch t s
  | .hold src t => Sys2Proof.Machine.execHold src t s
  | .holdRelease src t => Sys2Proof.Machine.execHoldRelease src t s
  | .gtCntRead src t => Sys2Proof.Machine.execGtCntRead src t s
  | .capture k falling read => Sys2Proof.Machine.execCapture k falling read s
  | .pendingCapture k falling => Sys2Proof.Machine.execPendingCapture k falling s
  | .inputPowerLoss torn => Sys2Proof.Machine.execInputPowerLoss torn s
  | .rootPllLock => Sys2Proof.Machine.execRootPllLock s
  | .pcieLinkTrained speed width flit => Sys2Proof.Machine.execPcieLinkTrained speed width flit s
  | .configurationRequest req => Sys2Proof.Machine.execConfigurationRequest req s
  | .completionTimeout tag => Sys2Proof.Machine.execCompletionTimeout tag s
  | .tick t => Sys2Proof.Machine.execTick t s
  | .latchCloses => Sys2Proof.Machine.execLatchCloses s
  | .upset t => Sys2Proof.Machine.execUpset t s
  | .coreHalt core addr => Sys2Proof.Machine.execCoreHalt core addr s

end Sys2Proof.Machine
end

