-- ==== Sys2Proof/Safety.lean ====
section
/-! DEFINITION. What a safe state is, and the words in which claims say what a command leaves unchanged: the canonical form of the sparse
stores, and frames. -/
namespace Sys2Proof.Machine

/-- A tile's sparse stores have rising keys: scalar registers, vector lanes, mask registers. -/
def Tile.canonical (t : Tile) : Bool := risingFrom 0 t.sregs && risingFrom 0 t.vregs && risingFrom 0 t.masks

/-- The canonical form of a state's sparse stores: memory with rising addresses and no listed 0; register fields, tiles, domains, ports, movers, check channels, stream contexts and timers with rising keys; every tile canonical. -/
def State.canonical (s : State) : Bool :=
  Memory.wf s.mem && risingFrom 0 s.regs && risingFrom 0 s.tiles && s.tiles.all (fun c => c.2.canonical)
    && risingFrom 0 s.power.dom && risingFrom 0 s.links && risingFrom 0 s.movers && risingFrom 0 s.chk && risingFrom 0 s.ctx && risingFrom 0 s.timers

/-- The register at an offset is there for an access of a source (R51, R52, R54, R59, R476, R517): the source is not a halted core, the register's domain is ON and its clock runs, and its page is used, not in reset, under no enable check and, but for its header, not under test. -/
def State.answers (s : State) (src : Source) (off : Nat) : Bool :=
  !s.silent src && (pageAt off).kind != .unused && s.offUp off && !s.inReset (pageAt off) && !(s.pageReserved (pageAt off) && decide (0x40 ≤ off - (pageAt off).base))
    && s.checking.all (fun c => c.1 != (pageAt off).base)

/-- Both halves' clocks run and no packet is held at the cuff or has been timed out there (R41, R273). -/
def State.cuffClear (s : State) : Bool := s.netOn 0 && s.netOn 1 && s.net.cuff.isEmpty && s.net.cut.isEmpty

/-- Every line of a range lies in a tile's or a slice's bank that is ON, no stored bit is upset or lost, no window waits for a line, and both halves' clocks run: an access to the range meets nothing but its bytes. -/
def State.reaches (s : State) (a n : Nat) : Bool :=
  s.flips.isEmpty && s.undef.isEmpty && s.cuffClear && s.net.comb.isEmpty
    && (pieces 64 a n).all fun p => match bankAt p.1 with | some (u, b, _) => s.bankOn u b | none => false

/-- No fabric domain that is ON is about to drop: each has its enable and a vote other than DEP, and nothing has tripped (R446, R448, R449). -/
def State.fabricsHeld (s : State) : Bool :=
  !s.power.tripped && [320, 321].all fun d => !s.domOn d || (s.ownEnable d && setBit (s.get (State.voteField d)) 5 false != 0)

/-- What a counter field reads after n events: it saturates at all ones (R58). -/
def State.counted (s : State) (f : Field) (n : Nat) : Nat := min (s.get f + n) (2 ^ f.width - 1)

/-- The fields of a page's header that causes, errors and refusals write (R60, R71). -/
def irqFields (pg : Nat) : List Field :=
  [Reg.HDR.BLK_IRQ_STAT.REFUSED pg, Reg.HDR.BLK_IRQ_STAT.ERR pg, Reg.HDR.BLK_IRQ_STAT.READY_UP pg, Reg.HDR.BLK_IRQ_STAT.BLK_SPEC pg]
def reasonFields (pg : Nat) : List Field := [Reg.HDR.BLK_REASON.CODE pg, Reg.HDR.BLK_REASON.OFFSET pg]

/-- From s to t no register field changes but those in fs, and nothing else of the state changes. -/
def State.OnlyFields (s : State) (fs : List Field) (t : State) : Prop :=
  (∀ f : Field, f.key ∉ fs.map (·.key) → t.get f = s.get f) ∧ { t with regs := s.regs } = s

/-- The same of a change that can send an interrupt: besides the fields, only the outputs, the pending MSI-X vectors and firmware's account of causes can change. -/
def State.OnlyNotices (s : State) (fs : List Field) (t : State) : Prop :=
  (∀ f : Field, f.key ∉ fs.map (·.key) → t.get f = s.get f) ∧ { t with regs := s.regs, out := s.out, msixPending := s.msixPending, causes := s.causes } = s

/-- From s to t every register field keeps its value but those in fs. -/
def State.SameFields (s : State) (fs : List Field) (t : State) : Prop := ∀ f : Field, f.key ∉ fs.map (·.key) → t.get f = s.get f

/-- From s to t every tile but n keeps its hidden state. -/
def State.SameTiles (s : State) (n : Nat) (t : State) : Prop := ∀ m, m ≠ n → t.tile m = s.tile m

/-- From s to t every byte of memory outside [a, a + n) reads as before. -/
def State.OnlyBytes (s : State) (a n : Nat) (t : State) : Prop := ∀ x, x < a ∨ a + n ≤ x → t.byte x = s.byte x

/-- From s to t only tile n's hidden state changes. -/
def State.OnlyTile (s : State) (n : Nat) (t : State) : Prop :=
  (∀ m, m ≠ n → t.tile m = s.tile m) ∧ { t with tiles := s.tiles } = s

end Sys2Proof.Machine
end

