-- ==== Sys2Proof/WellFormed.lean ====
section
/-! DEFINITION. Which commands are well formed: the rules of the spec about operands that their types do not say. -/
namespace Sys2Proof

/-- Operand bytes of an atomic by its operation value (R112): 4 for ADD_I32, ADD_F32 and ADD_2BF16, else 8. -/
def atomBytes (aop : Nat) : Nat := if aop = 0 ∨ aop = 2 ∨ aop = 3 then 4 else 8

/-- A request packet (R240 to R242, R257): 1 to 4,096 bytes, at most 64 in REQ; the data of its operation; with data flits, ADDR and SIZE are multiples of 8; only a write is multicast, and to someone; an access to host memory is a read or a write to one endpoint. -/
def Pkt.wf (p : Pkt) : Bool :=
  decide (1 ≤ p.size) && decide (p.size ≤ 4096) && (p.cls != 3 || decide (p.size ≤ 64))
    && (if p.op.val = 0 then p.data.length == 0 else if p.op.val = 1 then p.data.length == p.size
        else p.data.length == atomBytes (p.op.val - 2) && p.size == atomBytes (p.op.val - 2))
    && (!(p.op.val == 1 && (decide (48 < p.size) || p.mcast.isSome)) || (p.addr.toNat % 8 == 0 && p.size % 8 == 0))
    && (match p.mcast with | none => true | some l => p.op.val == 1 && !l.isEmpty)
    && (p.host.isNone || (decide (p.op.val ≤ 1) && p.mcast.isNone))

/-- A packet of a Freash port (R240 to R242, R326, R334, R335). -/
def LinkPkt.wf : LinkPkt → Bool
  | .req _ p => p.wf && p.mcast.isNone && p.host.isNone
  | .fnc .. => true
  | .rsp _ _ _ _ _ _ _ data => decide (data.length ≤ 4096)
  | .fncack .. => true
  | .evt _ _ _ _ _ evs => decide (1 ≤ evs.length) && decide (evs.length ≤ 6)
  | .coll _ _ line => line.length == 64
  | .bcast _ a data => decide (1 ≤ data.length) && decide (data.length ≤ 4096) && a.toNat % 8 == 0 && data.length % 8 == 0
  | .stray .. => true

/-- A request to the register bridge is 1 to 4,096 bytes long (R45, R240). -/
def BridgeReq.wf : BridgeReq → Bool
  | .rd _ len => decide (1 ≤ len) && decide (len ≤ 4096)
  | .wr _ data => decide (1 ≤ data.length) && decide (data.length ≤ 4096)
  | .atom _ => true
  | .fnc => true

/-- TYPE is INT32, which R124 permits with few operations. -/
def intVec (ty : VType) : Bool := ty == .int32

/-- Well-formed commands. -/
def Instr.wf : Instr → Bool
  | .registerBridgeRequest r => r.wf
  | .rd p _ => p.wf && p.op.val == 0
  | .wr p _ => p.wf && p.op.val == 1
  | .addI32 p _ => p.wf && p.op.val == 2
  | .addI64 p _ => p.wf && p.op.val == 3
  | .addF32 p _ => p.wf && p.op.val == 4
  | .add2bf16 p _ => p.wf && p.op.val == 5
  | .swap64 p _ => p.wf && p.op.val == 6
  | .delayStep p _ => p.wf && decide (7 ≤ p.op.val)
  | .evt _ _ evs _ => decide (1 ≤ evs.length) && decide (evs.length ≤ 6)
  | .red f _ _ => match f with | .tile _ line => line.length == 64 | .leaf _ => true
  | .linkPacket _ k _ => k.wf
  | .credit _ pairs => decide (1 ≤ pairs.length) && decide (pairs.length ≤ 15)
  | .messageHead _ core _ => match core with | some m => decide (1 ≤ m.words.length) && decide (m.words.length ≤ 8) | none => true
  | .bar2Tlp t => match t with | .rd _ len => decide (1 ≤ len) | .wr _ d _ => decide (1 ≤ d.length)
  | .move _ _ r d => decide (r.val ≤ 28) && !(d.val != 0 && decide (r.val ≤ d.val) && decide (d.val ≤ r.val + 3))
  | .qsend _ mode r nm1 _ d tmo =>
    mode.val != 3 && decide (r.val + nm1.val ≤ 31) && d.val != 0 && (if mode.val = 2 then tmo != 0 else tmo == 0)
  | .recv _ d nm1 k _ => decide (d.val + nm1.val ≤ 31) && k.val != 0 && !(decide (d.val ≤ k.val) && decide (k.val ≤ d.val + nm1.val))
  | .peek _ d nm1 k _ => decide (d.val + nm1.val ≤ 31) && k.val != 0 && !(decide (d.val ≤ k.val) && decide (k.val ≤ d.val + nm1.val))
  | .discard _ d nm1 k _ => decide (d.val + nm1.val ≤ 31) && k.val != 0 && !(decide (d.val ≤ k.val) && decide (k.val ≤ d.val + nm1.val))
  | .learn _ args => args.toNat % 256 == 0
  | .mfv _ _ _ half idx => half || decide (idx.toNat ≤ 127)
  | .vdive _ ty _ _ _ _ k => !intVec ty && decide (k.val < 15)
  | .vcmp _ _ md _ _ _ _ => md.val != 0
  | .vsel _ _ _ _ _ mask => mask.val != 0
  | .vmul _ ty .. => !intVec ty
  | .vfma _ ty .. => !intVec ty
  | .vlerp _ ty .. => !intVec ty
  | .vrms _ ty .. => !intVec ty
  | .vrcp _ ty .. => !intVec ty
  | .vrsqrt _ ty .. => !intVec ty
  | .vexp2 _ ty .. => !intVec ty
  | .vlog2 _ ty .. => !intVec ty
  | .vsqrt _ ty .. => !intVec ty
  | .vred _ ty _ _ _ op => !intVec ty || decide (op.val < 3)
  | .vscan _ ty .. => !intVec ty
  | .vscanl _ ty .. => !intVec ty
  | .upset t => match t with | .voted _ copies _ => decide copies.Nodup | .globalWord st .. => st.val == 0 || st.val == 1 | _ => true
  | _ => true

end Sys2Proof
end

