-- ==== Sys2Proof/Certificates/Slice0/Obligations.lean ====
section
/-! DEFINITION. The statements for the provers. A claim of the namespace Claims says of one command, or of one form of it, where it completes, what it then does and what it leaves unchanged; an obligation joins the
claims of one family. -/

/-! Register writes, reads, shadows, the bridge, enables and resets of blocks -/

namespace Sys2Proof.Machine.Claims

/-- REGISTER_WRITE (R21, R55) from a core or the bridge to an ordinary 32-bit register: each RW field takes its bits of the written word; RO, ROC and WO fields, every other field, memory and tiles stay. -/
def registerWriteStores : Prop :=
  ∀ (s : State) (src : Source) (off : Ofs) (v : Word32) (r : RegRef),
    s.canonical = true →
    src ≠ .host →
    s.answers src off.toNat = true →
    regAt off.toNat = some r →
    r.row.wide = false →
    r.page.base + 0x40 ≤ r.low →
    r.page.kind = .global ∨ r.page.kind = .flr ∨ r.page.kind = .flc ∨ r.page.kind = .sp ∨ r.page.kind = .tile 0 →
    ∃ t, Sys2Proof.Machine.exec (.registerWrite src off ⟨v, none⟩) s = .next t ∧
      (∀ f ∈ r.row.fields, t.get (f.at' r.low) =
          if f.acc = .rw ∨ f.acc = .rws then bits v.toNat (f.lo + f.width - 1) f.lo else s.get (f.at' r.low))
      ∧ s.SameFields (r.row.fields.map (·.at' r.low)) t ∧ t.mem = s.mem ∧ t.tiles = s.tiles ∧ t.out = s.out

/-- ENABLE (R59): EN is still 0, the page reads BUSY and its check runs for the source that wrote EN. -/
def enableStartsCheck : Prop :=
  ∀ (s : State) (src : Source) (pg : Ofs),
    s.canonical = true →
    (src == .host && s.hostWaits) = false →
    s.answers src (pageAt pg.toNat).base = true →
    (pageAt pg.toNat).hasEnable = true →
    s.get (Reg.HDR.BLK_CTRL.EN (pageAt pg.toNat).base) = 0 →
    s.get (Reg.HDR.BLK_CTRL.MODE (pageAt pg.toNat).base) = 0 →
    ∃ t, Sys2Proof.Machine.exec (.enable src pg) s = .next t ∧
      t.checking = s.checking ++ [((pageAt pg.toNat).base, src)] ∧ t.get (Reg.HDR.BLK_STAT.BUSY (pageAt pg.toNat).base) = 1
      ∧ s.SameFields [Reg.HDR.BLK_STAT.BUSY (pageAt pg.toNat).base, Reg.HDR.BLK_CTRL.MODE (pageAt pg.toNat).base] t ∧ t.tiles = s.tiles ∧ t.mem = s.mem

/-- CONSISTENCY_CHECK_END (R59, R60) of the ISSUE page while the SNET page is READY: EN reads 1 and the change is accepted. -/
def issueCheckPasses : Prop :=
  ∀ (s : State) (src : Source),
    s.canonical = true →
    s.checking = [(pgISSUE, src)] →
    s.domOn 320 = true →
    s.effective 0 ≠ 2 →
    s.get Reg.RESET.RST_STAT.COMP_ACTIVE = 0 →
    s.isReady State.pgSNET = true →
    ∃ t, Sys2Proof.Machine.exec (.consistencyCheckEnd (BitVec.ofNat 26 pgISSUE)) s = .next t ∧
      t.checking = [] ∧ t.get (Reg.HDR.BLK_CTRL.EN pgISSUE) = 1 ∧ t.get (Reg.HDR.BLK_STAT.BUSY pgISSUE) = 0 ∧ t.get (Reg.HDR.BLK_STAT.REFUSED pgISSUE) = 0
      ∧ t.get (Reg.HDR.BLK_REASON.CODE pgISSUE) = 0
      ∧ s.SameFields ([Reg.HDR.BLK_CTRL.EN pgISSUE, Reg.HDR.BLK_STAT.BUSY pgISSUE, Reg.HDR.BLK_STAT.REFUSED pgISSUE] ++ reasonFields pgISSUE) t

/-- CONSISTENCY_CHECK_END (R59, R60, R61) of the ISSUE page while the SNET page is not READY: refused with DEPENDENCY_NOT_READY, EN unchanged. -/
def issueCheckFails : Prop :=
  ∀ (s : State) (src : Source),
    s.canonical = true →
    s.checking = [(pgISSUE, src)] →
    s.domOn 320 = true →
    s.effective 0 ≠ 2 →
    s.get Reg.RESET.RST_STAT.COMP_ACTIVE = 0 →
    s.isReady State.pgSNET = false →
    ∃ t, Sys2Proof.Machine.exec (.consistencyCheckEnd (BitVec.ofNat 26 pgISSUE)) s = .next t ∧
      t.checking = [] ∧ t.get (Reg.HDR.BLK_CTRL.EN pgISSUE) = s.get (Reg.HDR.BLK_CTRL.EN pgISSUE) ∧ t.get (Reg.HDR.BLK_STAT.BUSY pgISSUE) = 0 ∧ t.get (Reg.HDR.BLK_STAT.REFUSED pgISSUE) = 1
      ∧ t.get (Reg.HDR.BLK_REASON.CODE pgISSUE) = rcDep ∧ t.get (Reg.HDR.BLK_REASON.OFFSET pgISSUE) = 0xC ∧ t.get (Reg.HDR.BLK_IRQ_STAT.REFUSED pgISSUE) = 1

/-- BLOCK_RESET (R54, R466) of any page but a TILE page: SRST and BUSY read 1, READY and EN read 0, and the page's shadows and enable check are gone. -/
def blockResetBegins : Prop :=
  ∀ (s : State) (src : Source) (pg : Ofs),
    s.canonical = true →
    (src == .host && s.hostWaits) = false →
    s.answers src ((pageAt pg.toNat).base + 0xC) = true →
    (pageAt pg.toNat).kind ≠ .unused →
    (pageAt pg.toNat).kind ≠ .tile 0 →
    s.get (Reg.HDR.BLK_CTRL.SRST (pageAt pg.toNat).base) = 0 →
    ∃ t, Sys2Proof.Machine.exec (.blockReset src pg) s = .next t ∧
      t.get (Reg.HDR.BLK_CTRL.SRST (pageAt pg.toNat).base) = 1 ∧ t.get (Reg.HDR.BLK_STAT.BUSY (pageAt pg.toNat).base) = 1
      ∧ t.isReady (pageAt pg.toNat).base = false ∧ t.get (Reg.HDR.BLK_CTRL.EN (pageAt pg.toNat).base) = 0
      ∧ t.shadows.all (fun h => h.page != (pageAt pg.toNat).base) = true ∧ t.checking.all (fun c => c.1 != (pageAt pg.toNat).base) = true

/-- BLOCK_RESET of a TILE page (R466): the 15 used pages of the tile are not READY and its units' registers are clear; no other tile changes. -/
def tileResetBegins : Prop :=
  ∀ (s : State) (src : Source) (n : TileId),
    s.canonical = true →
    (src == .host && s.hostWaits) = false →
    s.answers src ((pageAt (BitVec.ofNat 26 (tilePg n.val 0)).toNat).base + 0xC) = true →
    s.get (Reg.HDR.BLK_CTRL.SRST (tilePg n.val 0)) = 0 →
    s.streamActive = false →
    s.stepActive = false →
    ∃ t, Sys2Proof.Machine.exec (.blockReset src (BitVec.ofNat 26 (tilePg n.val 0))) s = .next t ∧
      t.get (Reg.HDR.BLK_CTRL.SRST (tilePg n.val 0)) = 1 ∧ (∀ i ∈ List.range 15, t.isReady (tilePg n.val i) = false)
      ∧ (t.tile n.val).sregs = [] ∧ (t.tile n.val).vregs = [] ∧ (t.tile n.val).acc = [] ∧ (t.tile n.val).queue = QueueS.reset ∧ s.SameTiles n.val t

/-- BLOCK_RESET_END (R54, R466) of a page whose block is usable: SRST and BUSY read 0 and READY rises with its cause. -/
def blockResetEnds : Prop :=
  ∀ (s : State) (pg : Ofs),
    s.canonical = true →
    s.get (Reg.HDR.BLK_CTRL.SRST (pageAt pg.toNat).base) = 1 →
    (pageAt pg.toNat).kind ≠ .tile 0 →
    s.pageUp (pageAt pg.toNat) = true →
    s.usable (pageAt pg.toNat) = true →
    ∃ t, Sys2Proof.Machine.exec (.blockResetEnd pg) s = .next t ∧
      t.get (Reg.HDR.BLK_CTRL.SRST (pageAt pg.toNat).base) = 0 ∧ t.get (Reg.HDR.BLK_STAT.BUSY (pageAt pg.toNat).base) = 0 ∧ t.isReady (pageAt pg.toNat).base = true
      ∧ s.OnlyNotices ([Reg.HDR.BLK_CTRL.SRST (pageAt pg.toNat).base, Reg.HDR.BLK_STAT.BUSY (pageAt pg.toNat).base, Reg.HDR.BLK_STAT.READY (pageAt pg.toNat).base]
          ++ irqFields (pageAt pg.toNat).base) t

/-- UNUSED_PAGE_ACCESS (R51): counted, its offset recorded; a read returns 0 and a write is dropped. -/
def unusedPageCounts : Prop :=
  ∀ (s : State) (src : Source) (off : Ofs) (w : Option Word32),
    s.canonical = true →
    (src == .host && s.hostWaits) = false →
    s.silent src = false →
    (pageAt off.toNat).kind = .unused →
    ∃ t, Sys2Proof.Machine.exec (.unusedPageAccess src off w) s = .next t ∧
      t.get Reg.GLOBAL.REG_UNMAPPED_CNT.CNT = s.counted Reg.GLOBAL.REG_UNMAPPED_CNT.CNT 1 ∧ t.get Reg.GLOBAL.REG_UNMAPPED_OFS.OFS = off.toNat
      ∧ (w = none → (src, (0 : Word32)) ∈ t.rdata) ∧ s.SameFields ([Reg.GLOBAL.REG_UNMAPPED_CNT.CNT, Reg.GLOBAL.REG_UNMAPPED_OFS.OFS] ++ irqFields pgGLOBAL) t

/-- DOWN_PAGE_ACCESS, a write (R52) to a register other than BLK_VOTE: dropped and counted. -/
def downPageWriteDrops : Prop :=
  ∀ (s : State) (src : Source) (off : Ofs) (v : Word32),
    s.canonical = true →
    (src == .host && s.hostWaits) = false →
    s.silent src = false →
    (pageAt off.toNat).kind ≠ .unused →
    s.offUp off.toNat = false →
    voteDomain off.toNat = none →
    State.voteWrite off.toNat = false →
    ∃ t, Sys2Proof.Machine.exec (.downPageAccess src off (some v)) s = .next t ∧
      t.get Reg.GLOBAL.REG_DOWN_CNT.CNT = s.counted Reg.GLOBAL.REG_DOWN_CNT.CNT 1 ∧ s.OnlyNotices ([Reg.GLOBAL.REG_DOWN_CNT.CNT] ++ irqFields pgGLOBAL) t

/-- DOWN_PAGE_ACCESS, a write to the BLK_VOTE offset of a page that has no vote register: ignored and not counted (R53; the model's reading, log entry 32). -/
def downPageVoteIgnored : Prop :=
  ∀ (s : State) (src : Source) (off : Ofs) (v : Word32),
    s.canonical = true →
    (src == .host && s.hostWaits) = false →
    s.silent src = false →
    (pageAt off.toNat).kind ≠ .unused →
    s.offUp off.toNat = false →
    voteDomain off.toNat = none →
    State.voteWrite off.toNat = true →
    ∃ t, Sys2Proof.Machine.exec (.downPageAccess src off (some v)) s = .next t ∧
      t = s

/-- DOWN_PAGE_ACCESS, a read (R52): BLK_ID, BLK_VER and BLK_VOTE are answered, every other register reads 0; nothing else changes. -/
def downPageReads : Prop :=
  ∀ (s : State) (src : Source) (off : Ofs),
    s.canonical = true →
    (src == .host && s.hostWaits) = false →
    s.silent src = false →
    (pageAt off.toNat).kind ≠ .unused →
    s.offUp off.toNat = false →
    ∃ t, Sys2Proof.Machine.exec (.downPageAccess src off none) s = .next t ∧
      (src, BitVec.ofNat 32 (if off.toNat = (pageAt off.toNat).base then (pageAt off.toNat).typeCode * 65536 + (pageAt off.toNat).inst
          else if off.toNat = (pageAt off.toNat).base + 4 then 0x100
          else if off.toNat = (pageAt off.toNat).base + 0x24 ∧ (pageAt off.toNat).hasVote = true then s.get (Reg.HDR.BLK_VOTE.VOTE (pageAt off.toNat).base) else 0)) ∈ t.rdata
      ∧ { t with rdata := s.rdata } = s

/-- VOTE (R447, R449): the writer's own bit is set, no other bit of the vote register changes, and a tile or slice domain that is OFF, enabled and behind an ON fabric begins to wake. -/
def voteWakesDomain : Prop :=
  ∀ (s : State) (src : Source) (off : Ofs) (v : Word32) (d : Nat),
    s.canonical = true →
    (src == .host && s.hostWaits) = false →
    s.silent src = false →
    voteDomain off.toNat = some d →
    d < 320 →
    v.toNat.testBit (voteBit src) = true →
    s.domState d = .off →
    s.ownEnable d = true →
    s.power.tripped = false →
    (State.parents d).all (fun p => s.domOn p && s.ownEnable p) = true →
    s.get (State.voteField d) < 256 →
    ∃ t, Sys2Proof.Machine.exec (.vote src off v) s = .next t ∧
      t.domState d = .waking ∧ (t.get (State.voteField d)).testBit (voteBit src) = true
      ∧ (∀ b ∈ List.range 8, b ≠ voteBit src → (t.get (State.voteField d)).testBit b = (s.get (State.voteField d)).testBit b)

/-- SHADOW_READ of a low word (R64): the low word is returned, and the high word of the same moment is latched in the page's read shadow of that source. -/
def lowWordReadLatches : Prop :=
  ∀ (s : State) (src : Source) (off : Ofs) (r : RegRef),
    s.canonical = true →
    (src == .host && (s.pcie.d3 || !s.pcie.writes.isEmpty)) = false →
    s.answers src off.toNat = true →
    regAt off.toNat = some r →
    r.row.wide = true →
    r.high = false →
    r.page.kind ≠ .timers →
    ∃ t, Sys2Proof.Machine.exec (.shadowRead src off) s = .next t ∧
      (src, BitVec.ofNat 32 (s.regValue r)) ∈ t.rdata ∧ (t.shadowOf r.page.base src).read = some (r.low, BitVec.ofNat 32 (s.regValue r / 2 ^ 32))
      ∧ (t.shadowOf r.page.base src).write = (s.shadowOf r.page.base src).write ∧ t.regs = s.regs

/-- SHADOW_READ of a high word (R64) whose low word was the source's last low word read in that page: the latched word is returned, whatever the register holds now. -/
def highWordReadsShadow : Prop :=
  ∀ (s : State) (src : Source) (off : Ofs) (r : RegRef) (w : Word32),
    s.canonical = true →
    (src == .host && (s.pcie.d3 || !s.pcie.writes.isEmpty)) = false →
    s.answers src off.toNat = true →
    regAt off.toNat = some r →
    r.row.wide = true →
    r.high = true →
    r.page.kind ≠ .timers →
    (s.shadowOf r.page.base src).read = some (r.low, w) →
    ∃ t, Sys2Proof.Machine.exec (.shadowRead src off) s = .next t ∧
      (src, w) ∈ t.rdata ∧ { t with rdata := s.rdata } = s

/-- SHADOW_READ of the host while a register write of its own waits behind a BAR2 write (R56, R373): the read waits behind them. -/
def hostReadWaits : Prop :=
  ∀ (s : State) (off : Ofs) (q : Nat) (w : HostWrite) (l : List (Nat × HostWrite)) (x : Tlp),
    s.canonical = true →
    s.pcie.d3 = false →
    s.pcie.writes = (q, w) :: l →
    x ∈ s.pcie.tlps →
    x.wr = true →
    x.id < q →
    ∃ t, Sys2Proof.Machine.exec (.shadowRead .host off) s = .next t ∧
      t = { s with pcie := { s.pcie with writes := s.pcie.writes ++ [(s.pcie.seq, .read off)] } }

/-- RING_HEAD of the host while a BAR2 write of its own is outstanding (R373): the write waits behind it. -/
def hostWriteWaits : Prop :=
  ∀ (s : State) (m : Fin 32) (v : Word32) (x : Tlp),
    s.canonical = true →
    s.pcie.d3 = false →
    s.pcie.writes = [] →
    x ∈ s.pcie.tlps →
    x.wr = true →
    ∃ t, Sys2Proof.Machine.exec (.ringHead .host m v) s = .next t ∧
      t = { s with pcie := { s.pcie with writes := [(s.pcie.seq, .register (BitVec.ofNat 26 (moverPg m.val + 0x54)) v)] } }

/-- BLOCK_RESET of the host in D3hot (R369): the function answers configuration requests only; the write is an Unsupported Request and changes nothing else. -/
def hostWriteInD3 : Prop :=
  ∀ (s : State) (pg : Ofs),
    s.canonical = true →
    s.pcie.d3 = true →
    s.pcie.writes = [] →
    ∃ t, Sys2Proof.Machine.exec (.blockReset .host pg) s = .next t ∧
      AerError.unsupportedRequest ∈ t.pcie.aer ∧ { t with pcie := { t.pcie with aer := s.pcie.aer } } = s

/-- SHADOW_WRITE of a high word (R64): it waits in the write shadow; no register changes. -/
def highWordWriteShadows : Prop :=
  ∀ (s : State) (src : Source) (off : Ofs) (v : Word32) (r : RegRef),
    s.canonical = true →
    src ≠ .host →
    s.answers src off.toNat = true →
    voteDomain off.toNat = none →
    regAt off.toNat = some r →
    r.row.wide = true →
    r.high = true →
    ∃ t, Sys2Proof.Machine.exec (.shadowWrite src off v) s = .next t ∧
      (t.shadowOf r.page.base src).write = some (r.low, v) ∧ (t.shadowOf r.page.base src).read = (s.shadowOf r.page.base src).read ∧ t.regs = s.regs ∧ t.mem = s.mem ∧ t.tiles = s.tiles

/-- SHADOW_WRITE of IMG_ADDR's low word (R64) with its high word in the write shadow: both commit together and the shadow is empty. -/
def lowWordWriteCommits : Prop :=
  ∀ (s : State) (src : Source) (v hi : Word32),
    s.canonical = true →
    src ≠ .host →
    s.answers src 0x6040 = true →
    (s.shadowOf pgISSUE src).write = some (0x6040, hi) →
    ∃ t, Sys2Proof.Machine.exec (.shadowWrite src 0x6040 v) s = .next t ∧
      t.get Reg.ISSUE.IMG_ADDR.ADDR = (hi.toNat * 2 ^ 32 + v.toNat) % 2 ^ 48 ∧ (t.shadowOf pgISSUE src).write = none ∧ s.SameFields [Reg.ISSUE.IMG_ADDR.ADDR] t

/-- SLOW_WRITE_COMPLETE (R67): the write to a slower domain is no longer waiting for its completion; nothing else changes. -/
def slowWriteEnds : Prop :=
  ∀ (s : State) (src : Source) (off : Ofs),
    s.canonical = true →
    ∃ t, Sys2Proof.Machine.exec (.slowWriteComplete src off) s = .next t ∧
      (src, off.toNat) ∉ t.slow ∧ (∀ x ∈ s.slow, x ≠ (src, off.toNat) → x ∈ t.slow) ∧ { t with slow := s.slow } = s

/-- REGISTER_BRIDGE_REQUEST, a 4-byte read (R45): completes OK with the register's value; nothing else changes. -/
def bridgeReads : Prop :=
  ∀ (s : State) (a : Addr) (r : RegRef),
    s.canonical = true →
    0x60000000 ≤ a.toNat →
    a.toNat < 0x64000000 →
    a.toNat % 4 = 0 →
    s.answers .bridge (a.toNat - 0x60000000) = true →
    voteDomain (a.toNat - 0x60000000) = none →
    regAt (a.toNat - 0x60000000) = some r →
    r.row.wide = false →
    r.page.kind ≠ .timers →
    ∃ t, Sys2Proof.Machine.exec (.registerBridgeRequest (.rd a 4)) s = .next t ∧
      t.bridge = some (0, toBytes 4 (s.regValue r)) ∧ { t with bridge := s.bridge } = s

/-- REGISTER_BRIDGE_REQUEST, an atomic (R45): completes UNMAPPED with no effect. -/
def bridgeRefusesOthers : Prop :=
  ∀ (s : State) (a : Addr),
    s.canonical = true →
    ∃ t, Sys2Proof.Machine.exec (.registerBridgeRequest (.atom a)) s = .next t ∧
      t.bridge = some (2, []) ∧ { t with bridge := s.bridge } = s

end Sys2Proof.Machine.Claims

/-- Register writes, reads, shadows, the bridge, enables and resets of blocks -/
def Obligations.RegisterAccessesComplete : Prop :=
  Sys2Proof.Machine.Claims.registerWriteStores ∧ Sys2Proof.Machine.Claims.enableStartsCheck ∧ Sys2Proof.Machine.Claims.issueCheckPasses ∧
    Sys2Proof.Machine.Claims.issueCheckFails ∧ Sys2Proof.Machine.Claims.blockResetBegins ∧ Sys2Proof.Machine.Claims.tileResetBegins ∧
    Sys2Proof.Machine.Claims.blockResetEnds ∧ Sys2Proof.Machine.Claims.unusedPageCounts ∧ Sys2Proof.Machine.Claims.downPageWriteDrops ∧
    Sys2Proof.Machine.Claims.downPageVoteIgnored ∧ Sys2Proof.Machine.Claims.downPageReads ∧ Sys2Proof.Machine.Claims.voteWakesDomain ∧
    Sys2Proof.Machine.Claims.lowWordReadLatches ∧ Sys2Proof.Machine.Claims.highWordReadsShadow ∧ Sys2Proof.Machine.Claims.hostReadWaits ∧
    Sys2Proof.Machine.Claims.hostWriteWaits ∧ Sys2Proof.Machine.Claims.hostWriteInD3 ∧ Sys2Proof.Machine.Claims.highWordWriteShadows ∧
    Sys2Proof.Machine.Claims.lowWordWriteCommits ∧ Sys2Proof.Machine.Claims.slowWriteEnds ∧ Sys2Proof.Machine.Claims.bridgeReads ∧
    Sys2Proof.Machine.Claims.bridgeRefusesOthers

/-! Loading, launching, stopping and debugging a bundle stream -/

namespace Sys2Proof.Machine.Claims

/-- The state in which the checks of a LOAD run (R90): the load is in progress and no image is loaded. -/
def loadBegun (s : State) : State :=
  let s := (((s.put Reg.ISSUE.LOAD_CTRL.LOAD 1).put Reg.ISSUE.LOAD_STAT.LOADED 0).put Reg.ISSUE.LOAD_STAT.FAILED 0).put Reg.ISSUE.LOAD_STAT.SEG_DONE 0
  let s := s.modIssue fun i => { i with loaded := none, job := none, loadAddr := none }
  if s.streamActive || s.stream == State.stFaulted then s else s.setStream State.stLoading

/-- LOAD (R90): when the checks up to check 11 pass, the load is in progress with the header record and the segments, and no image is loaded. -/
def loadBegins : Prop :=
  ∀ (s : State) (h : ImageRec) (segs : List (Nat × Nat × Nat × Nat × Nat)),
    s.canonical = true →
    s.answers .bridge (pgISSUE + 0x48) = true →
    s.get Reg.ISSUE.LOAD_CTRL.LOAD = 0 →
    s.fabricsHeld = true →
    s.cuffClear = true →
    ((loadBegun s).loadChecks (s.get Reg.ISSUE.IMG_ADDR.ADDR)).1.toOption.map (·.1) = some h →
    ((loadBegun s).loadChecks (s.get Reg.ISSUE.IMG_ADDR.ADDR)).1.toOption.map (·.2) = some segs →
    ∃ t, Sys2Proof.Machine.exec (.load) s = .next t ∧
      t.issue.job = some ⟨s.get Reg.ISSUE.IMG_ADDR.ADDR, h, segs, segLanes segs⟩ ∧ t.issue.loaded = none ∧ t.get Reg.ISSUE.LOAD_CTRL.LOAD = 1
      ∧ t.get Reg.ISSUE.LOAD_STAT.LOADED = 0 ∧ t.get Reg.ISSUE.LOAD_STAT.FAILED = 0

/-- LOAD of a misaligned image (R90, R92): it fails with ALIGNMENT at once, no image is loaded, and memory is unchanged. -/
def loadRefusedAlignment : Prop :=
  ∀ (s : State),
    s.canonical = true →
    s.answers .bridge (pgISSUE + 0x48) = true →
    s.get Reg.ISSUE.LOAD_CTRL.LOAD = 0 →
    s.cuffClear = true →
    s.get Reg.ISSUE.IMG_ADDR.ADDR % 64 ≠ 0 →
    ∃ t, Sys2Proof.Machine.exec (.load) s = .next t ∧
      t.issue.job = none ∧ t.issue.loaded = none ∧ t.get Reg.ISSUE.LOAD_CTRL.LOAD = 0 ∧ t.get Reg.ISSUE.LOAD_STAT.LOADED = 0 ∧ t.get Reg.ISSUE.LOAD_STAT.FAILED = 1
      ∧ t.get (Reg.HDR.BLK_REASON.CODE pgISSUE) = rcAlign ∧ t.get (Reg.HDR.BLK_REASON.OFFSET pgISSUE) = 0x048 ∧ t.mem = s.mem

/-- LOAD_END (R91, R92): when every segment is read with its CRC, the image is loaded. -/
def loadEnds : Prop :=
  ∀ (s : State) (j : LoadJob),
    s.canonical = true →
    s.issue.job = some j →
    s.cuffClear = true →
    (members j.lanes 256).all (fun n => s.domOn n) = true →
    (j.segs.foldl (fun acc x => State.loadSegment acc j.addr x) (none, s)).1 = none →
    1 ≤ j.hdr.len →
    j.hdr.len ≤ 16384 →
    ∃ t, Sys2Proof.Machine.exec (.loadEnd) s = .next t ∧
      t.issue.job = none ∧ t.issue.loaded = some j.hdr ∧ t.get Reg.ISSUE.LOAD_CTRL.LOAD = 0 ∧ t.get Reg.ISSUE.LOAD_STAT.LOADED = 1
      ∧ t.get Reg.ISSUE.LOAD_STAT.FAILED = 0 ∧ t.get Reg.ISSUE.IMG_INFO.LEN_M1 = j.hdr.len - 1

/-- LOAD_TIMEOUT (R91): the load fails and no image is loaded. -/
def loadTimesOut : Prop :=
  ∀ (s : State) (j : LoadJob),
    s.canonical = true →
    s.issue.job = some j →
    ∃ t, Sys2Proof.Machine.exec (.loadTimeout) s = .next t ∧
      t.issue.job = none ∧ t.issue.loaded = none ∧ t.get Reg.ISSUE.LOAD_CTRL.LOAD = 0 ∧ t.get Reg.ISSUE.LOAD_STAT.LOADED = 0 ∧ t.get Reg.ISSUE.LOAD_STAT.FAILED = 1
      ∧ t.get (Reg.HDR.BLK_REASON.CODE pgISSUE) = 0x17 ∧ t.mem = s.mem

/-- START (R93): when its checks pass, the stream runs from ENTRY with its counts and loop stacks cleared. -/
def startLaunches : Prop :=
  ∀ (s : State) (r : ImageRec),
    s.canonical = true →
    s.answers .bridge (pgISSUE + 0x50) = true →
    s.startCheck = none →
    s.issue.loaded = some r →
    s.fabricsHeld = true →
    ∃ t, Sys2Proof.Machine.exec (.start) s = .next t ∧
      t.stream = State.stRunning ∧ t.get Reg.ISSUE.LAUNCH_CNT.CNT = 0 ∧ t.get Reg.ISSUE.HALT_CAUSE.CAUSE = 0 ∧ t.issue.next = r.entry ∧ t.issue.goFrom = s.issue.period + 1
      ∧ t.issue.run = some r ∧ t.issue.gos = [] ∧ t.issue.loops = [] ∧ t.mem = s.mem

/-- START (R93): when a check fails, the reason is recorded and nothing else changes. -/
def startRefused : Prop :=
  ∀ (s : State) (c : Nat),
    s.canonical = true →
    s.answers .bridge (pgISSUE + 0x50) = true →
    s.startCheck = some c →
    c < 256 →
    ∃ t, Sys2Proof.Machine.exec (.start) s = .next t ∧
      t.get (Reg.HDR.BLK_REASON.CODE pgISSUE) = c ∧ t.get (Reg.HDR.BLK_REASON.OFFSET pgISSUE) = 0x050 ∧ t.get (Reg.HDR.BLK_STAT.REFUSED pgISSUE) = 1
      ∧ s.OnlyNotices ([Reg.HDR.BLK_STAT.REFUSED pgISSUE] ++ reasonFields pgISSUE ++ irqFields pgISSUE) t

/-- STOP (R94) of a running or waiting stream: it will end at its next bundle boundary; nothing else changes yet. -/
def stopRequested : Prop :=
  ∀ (s : State),
    s.canonical = true →
    s.answers .bridge (pgISSUE + 0x50) = true →
    s.stream = State.stRunning ∨ s.stream = State.stWaiting →
    ∃ t, Sys2Proof.Machine.exec (.stop) s = .next t ∧
      t.issue = { s.issue with stopReq := true } ∧ { t with issue := s.issue } = s

/-- STOP (R92, R94) of a HALTED stream while no step is in progress: it ends at once with cause STOP, in READY when an image is loaded and in IDLE otherwise. -/
def stopEndsHalted : Prop :=
  ∀ (s : State),
    s.canonical = true →
    s.answers .bridge (pgISSUE + 0x50) = true →
    s.stream = State.stHalted →
    s.fabricsHeld = true →
    s.phase = 0 →
    ∃ t, Sys2Proof.Machine.exec (.stop) s = .next t ∧
      t.stream = (if s.get Reg.ISSUE.LOAD_STAT.LOADED ≠ 0 then State.stReady else State.stIdle)
      ∧ t.get Reg.ISSUE.HALT_CAUSE.CAUSE = 2

/-- END (R81, R92, R94): the stream ends with cause END at the last bundle launched, in READY when an image is loaded and in IDLE otherwise. -/
def endStops : Prop :=
  ∀ (s : State),
    s.canonical = true →
    s.streamActive = true →
    ∃ t, Sys2Proof.Machine.exec (.endOp) s = .next t ∧
      t.stream = (if s.get Reg.ISSUE.LOAD_STAT.LOADED ≠ 0 then State.stReady else State.stIdle)
      ∧ t.get Reg.ISSUE.HALT_CAUSE.CAUSE = 1 ∧ t.get Reg.ISSUE.HALT_CAUSE.INDEX = s.lastIndex % 2 ^ 14 ∧ t.get Reg.ISSUE.HALT_CAUSE.TILE_VALID = 0

/-- EXITIF of FLAG_SET (R84, R85): EXIT takes the flag's value at the launch; nothing else changes. -/
def exitifTests : Prop :=
  ∀ (s : State) (f : Fin 16),
    s.canonical = true →
    ∃ t, Sys2Proof.Machine.exec (.exitif 6 (BitVec.ofNat 16 f.val)) s = .next t ∧
      t.issue = { s.issue with exit := (s.get Reg.SNET.FLAGS.FLAG).testBit f.val } ∧ { t with issue := s.issue } = s

/-- DBG_HALT (R98): a halt is requested; nothing else changes yet. -/
def dbgHaltRequests : Prop :=
  ∀ (s : State),
    s.canonical = true →
    s.answers .bridge (pgISSUE + 0x70) = true →
    s.stream = State.stRunning ∨ s.stream = State.stWaiting →
    ∃ t, Sys2Proof.Machine.exec (.dbgHalt) s = .next t ∧
      t.issue = { s.issue with haltReq := true } ∧ { t with issue := s.issue } = s

/-- RESUME (R98, R100) while no step is in progress: the stream is RUNNING and launching resumes in the next period; only the bundle at which the stream halted escapes its breakpoint. -/
def resumeRuns : Prop :=
  ∀ (s : State),
    s.canonical = true →
    s.answers .bridge (pgISSUE + 0x70) = true →
    s.stream = State.stHalted →
    s.issue.wait = none →
    s.phase = 0 →
    ∃ t, Sys2Proof.Machine.exec (.resume) s = .next t ∧
      t.stream = State.stRunning ∧ t.issue = { s.issue with noGo := false, goFrom := s.issue.period + 1, skipBreak := s.get Reg.ISSUE.HALT_CAUSE.INDEX == s.issue.next } ∧ s.SameFields [Reg.ISSUE.RUN_STAT.STATE] t

/-- RESUME at a WAIT (R99): it is tested again and its time-out starts from zero. -/
def resumeWaits : Prop :=
  ∀ (s : State) (w : WaitRec),
    s.canonical = true →
    s.answers .bridge (pgISSUE + 0x70) = true →
    s.stream = State.stHalted →
    s.issue.wait = some w →
    s.phase = 0 →
    ∃ t, Sys2Proof.Machine.exec (.resume) s = .next t ∧
      t.stream = State.stWaiting ∧ t.issue.wait = some { w with tested := 0 } ∧ t.get Reg.ISSUE.RUN_STAT.WAITING = 1

/-- DBG_STEP (R99): one bundle will be launched in the next period. -/
def dbgStepRuns : Prop :=
  ∀ (s : State),
    s.canonical = true →
    s.answers .bridge (pgISSUE + 0x70) = true →
    s.stream = State.stHalted →
    s.issue.wait = none →
    s.phase = 0 →
    ∃ t, Sys2Proof.Machine.exec (.dbgStep) s = .next t ∧
      t.stream = State.stRunning ∧ t.issue = { s.issue with noGo := false, goFrom := s.issue.period + 1, skipBreak := true, stepping := true }

/-- STEP_DONE (R99): the single-stepped bundle executes and the stream is HALTED with cause STEP. -/
def stepDoneHalts : Prop :=
  ∀ (s : State) (g : Go),
    s.canonical = true →
    s.issue.stepping = true →
    s.issue.gos = [g] →
    g.due ≤ s.issue.period →
    g.left = [] →
    decodeGlobal g.word = some ⟨none, .nop, .nop⟩ →
    s.stream = State.stRunning →
    s.issue.stopReq = false →
    s.issue.wait = none →
    ∃ t, Sys2Proof.Machine.exec (.stepDone) s = .next t ∧
      t.stream = State.stHalted ∧ t.get Reg.ISSUE.HALT_CAUSE.CAUSE = 5 ∧ t.get Reg.ISSUE.HALT_CAUSE.INDEX = g.index % 2 ^ 14 ∧ t.issue.gos = []

/-- LAUNCH_WORD (R75, R78, R79): a running stream with nothing in its way sends the GO of the next bundle, due 12 periods later, with its CHK, and the period ends. -/
def launchSendsGo : Prop :=
  ∀ (s : State) (r : ImageRec) (w : Word128),
    s.canonical = true →
    s.pageUp (pageAt pgISSUE) = true →
    s.stream = State.stRunning →
    s.issue.gos = [] →
    s.issue.ending = none →
    s.issue.stopReq = false →
    s.issue.haltReq = false →
    s.issue.noGo = false →
    s.issue.stepping = false →
    s.issue.goFrom ≤ s.issue.period →
    s.get Reg.ISSUE.BRK_CFG.IDX_EN = 0 →
    s.get Reg.ISSUE.BRK_CFG.CNT_EN = 0 →
    s.issue.run = some r →
    lookup (16384 * s.issue.runStore + s.issue.next) s.issue.lanes = some w →
    lookup (16384 * s.issue.runStore + s.issue.next) s.issue.flips = none →
    decodeGlobal w = some ⟨none, .nop, .nop⟩ →
    decodeCtl w = some .none →
    s.phase = 0 →
    s.fabricsHeld = true →
    ∃ t, Sys2Proof.Machine.exec (.launchWord) s = .next t ∧
      t.get Reg.ISSUE.LAUNCH_CNT.CNT = (s.get Reg.ISSUE.LAUNCH_CNT.CNT + 1) % 2 ^ 64 ∧ t.get Reg.ISSUE.RUN_STAT.INDEX = s.issue.next % 2 ^ 14
      ∧ t.issue.gos = [⟨s.issue.period + 12, s.issue.next, false, (s.get Reg.ISSUE.LAUNCH_CNT.CNT + 1) % 2 ^ 64 % 64, w, members r.mask 256⟩]
      ∧ t.issue.next = (s.issue.next + 1) % 16384 ∧ t.issue.period = s.issue.period + 1 ∧ t.cclkW = s.cclkW + s.cyclesPerLaunch 0 ∧ t.cclkE = s.cclkE + s.cyclesPerLaunch 1 ∧ t.stream = State.stRunning

/-- BUNDLE_EXECUTE (R78, R79): tile n executes an empty lane word of the bundle that falls due: its launch count and its index move on. -/
def bundleExecutes : Prop :=
  ∀ (s : State) (n : TileId) (g : Go) (w : Word128),
    s.canonical = true →
    s.issue.gos = [g] →
    g.due ≤ s.issue.period →
    g.left.contains n.val = true →
    s.domOn n.val = true →
    lookup g.index (s.tile n.val).lanes = some w →
    lookup g.index (s.tile n.val).laneFlips = none →
    decodeCtl w = some .none →
    decodeLane n w = some [] →
    (s.get (Reg.LANE.LANE_CNT.CNT n.val) + 1) % 2 ^ 64 % 64 = g.chk →
    ∃ t, Sys2Proof.Machine.exec (.bundleExecute n) s = .next t ∧
      t.get (Reg.LANE.LANE_CNT.CNT n.val) = (s.get (Reg.LANE.LANE_CNT.CNT n.val) + 1) % 2 ^ 64 ∧ t.get (Reg.LANE.LANE_PC.INDEX n.val) = g.index % 2 ^ 14
      ∧ t.issue.gos = [{ g with left := g.left.filter (· != n.val) }] ∧ (t.tile n.val).loops = (s.tile n.val).loops ∧ s.SameTiles n.val t

/-- TRACKED_OP_COMPLETE (R88, R123) of a good operation with one scalar result, while no later-issued result has reached the tile in this period: the result is written, the operation is no longer outstanding, no other scalar register and no other tile changes. -/
def trackedResultArrives : Prop :=
  ∀ (s : State) (n : TileId) (k : Nat) (op : Tracked) (p r : Nat) (v : Word64),
    s.canonical = true →
    (s.tile n.val).tracked[k]? = some op →
    op.ready = some p →
    p ≤ s.issue.period →
    op.status = 0 →
    op.res = [.sreg r v] →
    r ≠ 0 →
    r < 32 →
    (s.tile n.val).landed.all (fun c => decide (c.2 ≤ op.since)) = true →
    ∃ t, Sys2Proof.Machine.exec (.trackedOpComplete n k) s = .next t ∧
      t.sreg n.val r = v.toNat ∧ (t.tile n.val).tracked = (s.tile n.val).tracked.eraseIdx k ∧ (∀ q ∈ List.range 32, q ≠ r → t.sreg n.val q = s.sreg n.val q) ∧ s.OnlyTile n.val t

/-- TRACKED_OP_COMPLETE (R123) in the period in which the result of a later-issued operation has reached the same scalar register: the later one's stays. -/
def trackedResultYields : Prop :=
  ∀ (s : State) (n : TileId) (k : Nat) (op : Tracked) (p r d : Nat) (v : Word64),
    s.canonical = true →
    (s.tile n.val).tracked[k]? = some op →
    op.ready = some p →
    p ≤ s.issue.period →
    op.status = 0 →
    op.res = [.sreg r v] →
    (s.tile n.val).landed = [(r, d)] →
    op.since < d →
    ∃ t, Sys2Proof.Machine.exec (.trackedOpComplete n k) s = .next t ∧
      (∀ q ∈ List.range 32, t.sreg n.val q = s.sreg n.val q) ∧ (t.tile n.val).tracked = (s.tile n.val).tracked.eraseIdx k ∧ s.OnlyTile n.val t

/-- TRACKED_OP_COMPLETE (R88, R102) with an error status: the status and ERR are recorded and the stream goes on. -/
def trackedErrorIsRecorded : Prop :=
  ∀ (s : State) (n : TileId) (k : Nat) (op : Tracked) (p : Nat),
    s.canonical = true →
    (s.tile n.val).tracked[k]? = some op →
    op.ready = some p →
    p ≤ s.issue.period →
    op.status ≠ 0 →
    op.status < 16 →
    op.res = [] →
    s.get (Reg.LANE.LANE_FAULT.CAUSE n.val) = 0 →
    s.get (Reg.LANE.LANE_FAULT.STATUS n.val) = 0 →
    ∃ t, Sys2Proof.Machine.exec (.trackedOpComplete n k) s = .next t ∧
      t.get (Reg.LANE.LANE_FAULT.STATUS n.val) = op.status ∧ t.get (Reg.HDR.BLK_STAT.ERR (lanePg n.val)) = 1 ∧ (t.tile n.val).tracked = (s.tile n.val).tracked.eraseIdx k ∧ t.stream = s.stream

end Sys2Proof.Machine.Claims

/-- Loading, launching, stopping and debugging a bundle stream -/
def Obligations.StreamControlCompletes : Prop :=
  Sys2Proof.Machine.Claims.loadBegins ∧ Sys2Proof.Machine.Claims.loadRefusedAlignment ∧ Sys2Proof.Machine.Claims.loadEnds ∧
    Sys2Proof.Machine.Claims.loadTimesOut ∧ Sys2Proof.Machine.Claims.startLaunches ∧ Sys2Proof.Machine.Claims.startRefused ∧
    Sys2Proof.Machine.Claims.stopRequested ∧ Sys2Proof.Machine.Claims.stopEndsHalted ∧ Sys2Proof.Machine.Claims.endStops ∧
    Sys2Proof.Machine.Claims.exitifTests ∧ Sys2Proof.Machine.Claims.dbgHaltRequests ∧ Sys2Proof.Machine.Claims.resumeRuns ∧
    Sys2Proof.Machine.Claims.resumeWaits ∧ Sys2Proof.Machine.Claims.dbgStepRuns ∧ Sys2Proof.Machine.Claims.stepDoneHalts ∧
    Sys2Proof.Machine.Claims.launchSendsGo ∧ Sys2Proof.Machine.Claims.bundleExecutes ∧ Sys2Proof.Machine.Claims.trackedResultArrives ∧
    Sys2Proof.Machine.Claims.trackedResultYields ∧ Sys2Proof.Machine.Claims.trackedErrorIsRecorded

/-! Loops and waits of the stream -/

namespace Sys2Proof.Machine.Claims

/-- LSTART in the issue controller (R83): a new entry with the start bundle and the count; COUNT = 0 makes a flag loop. -/
def lstartPushes : Prop :=
  ∀ (s : State) (lvl : Fin 4) (count : BitVec 12),
    s.canonical = true →
    s.issue.loops.length = lvl.val →
    s.issue.loops.all (fun e => !e.again) = true →
    ∃ t, Sys2Proof.Machine.exec (.lstart none lvl count) s = .next t ∧
      t.issue = { s.issue with loops := ⟨s.issue.next, count.toNat, count.toNat == 0, false⟩ :: s.issue.loops } ∧ { t with issue := s.issue } = s

/-- LSTART in a tile (R83). -/
def lstartPushesTile : Prop :=
  ∀ (s : State) (n : TileId) (lvl : Fin 4) (count : BitVec 12),
    s.canonical = true →
    s.domOn n.val = true →
    s.issue.gos = [] →
    (s.tile n.val).loops.length = lvl.val →
    (s.tile n.val).loops.all (fun e => !e.again) = true →
    ∃ t, Sys2Proof.Machine.exec (.lstart (some n) lvl count) s = .next t ∧
      (t.tile n.val).loops = ⟨s.laneIndex n.val, count.toNat, count.toNat == 0, false⟩ :: (s.tile n.val).loops ∧ t.get (Reg.LANE.LANE_PC.DEPTH n.val) = lvl.val + 1 ∧ s.SameFields [Reg.LANE.LANE_PC.DEPTH n.val] t ∧ s.SameTiles n.val t

/-- LEND after the last iteration (R83): the entry is gone and launching goes on behind the loop. -/
def lendLeaves : Prop :=
  ∀ (s : State) (lvl : Fin 4) (e : LoopEntry) (tl : List LoopEntry),
    s.canonical = true →
    s.issue.loops = e :: tl →
    lvl.val + 1 = s.issue.loops.length →
    e.flag = false →
    e.remaining ≤ 1 →
    ∃ t, Sys2Proof.Machine.exec (.lend none lvl) s = .next t ∧
      t.issue = { s.issue with loops := tl, next := (s.issue.next + 1) % 16384 } ∧ { t with issue := s.issue } = s

/-- LEND before the last iteration (R83): one iteration fewer is left and launching goes back to the start bundle. -/
def lendRepeats : Prop :=
  ∀ (s : State) (lvl : Fin 4) (e : LoopEntry) (tl : List LoopEntry),
    s.canonical = true →
    s.issue.loops = e :: tl →
    lvl.val + 1 = s.issue.loops.length →
    e.flag = false →
    1 < e.remaining →
    ∃ t, Sys2Proof.Machine.exec (.lend none lvl) s = .next t ∧
      t.issue = { s.issue with loops := { e with remaining := e.remaining - 1, again := true } :: tl, next := e.start % 16384 } ∧ { t with issue := s.issue } = s

/-- LONE (R83): a loop of one bundle begins and the bundle is launched again. -/
def loneRepeats : Prop :=
  ∀ (s : State) (lvl : Fin 4) (count : BitVec 12),
    s.canonical = true →
    s.issue.loops.length = lvl.val →
    s.issue.loops.all (fun e => !e.again) = true →
    1 < count.toNat →
    ∃ t, Sys2Proof.Machine.exec (.lone none lvl count) s = .next t ∧
      t.issue = { s.issue with loops := ⟨s.issue.next, count.toNat - 1, false, true⟩ :: s.issue.loops, next := s.issue.next % 16384 } ∧ { t with issue := s.issue } = s

/-- LONE with COUNT = 1 (R83): the bundle is launched once and no entry stays. -/
def loneOnce : Prop :=
  ∀ (s : State) (lvl : Fin 4),
    s.canonical = true →
    s.issue.loops.length = lvl.val →
    s.issue.loops.all (fun e => !e.again) = true →
    ∃ t, Sys2Proof.Machine.exec (.lone none lvl 1) s = .next t ∧
      t.issue = { s.issue with next := (s.issue.next + 1) % 16384 } ∧ { t with issue := s.issue } = s

/-- WAIT condition 1 (R85): the running stream waits, and launches nothing until the condition holds. -/
def waitBarrierWaits : Prop :=
  ∀ (s : State) (g : Fin 64),
    s.canonical = true →
    s.stream = State.stRunning →
    s.issue.stepping = false →
    s.issue.ending = none →
    ∃ t, Sys2Proof.Machine.exec (.waitBarrier g) s = .next t ∧
      t.stream = State.stWaiting ∧ t.issue = { s.issue with wait := some ⟨s.lastIndex, 1, g.val, true, 0⟩, noGo := true } ∧ t.get Reg.ISSUE.RUN_STAT.WAITING = 1
      ∧ s.SameFields [Reg.ISSUE.RUN_STAT.STATE, Reg.ISSUE.RUN_STAT.WAITING] t

/-- WAIT condition 2 (R85): the running stream waits, and launches nothing until the condition holds. -/
def waitMoverWaits : Prop :=
  ∀ (s : State) (m : Fin 32),
    s.canonical = true →
    s.stream = State.stRunning →
    s.issue.stepping = false →
    s.issue.ending = none →
    ∃ t, Sys2Proof.Machine.exec (.waitMover m) s = .next t ∧
      t.stream = State.stWaiting ∧ t.issue = { s.issue with wait := some ⟨s.lastIndex, 2, m.val, true, 0⟩, noGo := true } ∧ t.get Reg.ISSUE.RUN_STAT.WAITING = 1
      ∧ s.SameFields [Reg.ISSUE.RUN_STAT.STATE, Reg.ISSUE.RUN_STAT.WAITING] t

/-- WAIT condition 3 (R85): the running stream waits, and launches nothing until the condition holds. -/
def waitEvtDrainWaits : Prop :=
  ∀ (s : State),
    s.canonical = true →
    s.stream = State.stRunning →
    s.issue.stepping = false →
    s.issue.ending = none →
    ∃ t, Sys2Proof.Machine.exec (.waitEvtDrain) s = .next t ∧
      t.stream = State.stWaiting ∧ t.issue = { s.issue with wait := some ⟨s.lastIndex, 3, 0, true, 0⟩, noGo := true } ∧ t.get Reg.ISSUE.RUN_STAT.WAITING = 1
      ∧ s.SameFields [Reg.ISSUE.RUN_STAT.STATE, Reg.ISSUE.RUN_STAT.WAITING] t

/-- WAIT condition 4 (R85): the running stream waits, and launches nothing until the condition holds. -/
def waitStepTimerWaits : Prop :=
  ∀ (s : State),
    s.canonical = true →
    s.stream = State.stRunning →
    s.issue.stepping = false →
    s.issue.ending = none →
    ∃ t, Sys2Proof.Machine.exec (.waitStepTimer) s = .next t ∧
      t.stream = State.stWaiting ∧ t.issue = { s.issue with wait := some ⟨s.lastIndex, 4, 0, true, 0⟩, noGo := true } ∧ t.get Reg.ISSUE.RUN_STAT.WAITING = 1
      ∧ s.SameFields [Reg.ISSUE.RUN_STAT.STATE, Reg.ISSUE.RUN_STAT.WAITING] t

/-- WAIT condition 5 (R85): the running stream waits, and launches nothing until the condition holds. -/
def waitDoorbellWaits : Prop :=
  ∀ (s : State) (bit : Fin 32),
    s.canonical = true →
    s.stream = State.stRunning →
    s.issue.stepping = false →
    s.issue.ending = none →
    ∃ t, Sys2Proof.Machine.exec (.waitDoorbell bit) s = .next t ∧
      t.stream = State.stWaiting ∧ t.issue = { s.issue with wait := some ⟨s.lastIndex, 5, bit.val, true, 0⟩, noGo := true } ∧ t.get Reg.ISSUE.RUN_STAT.WAITING = 1
      ∧ s.SameFields [Reg.ISSUE.RUN_STAT.STATE, Reg.ISSUE.RUN_STAT.WAITING] t

/-- WAIT condition 6 (R85): the running stream waits, and launches nothing until the condition holds. -/
def waitFlagSetWaits : Prop :=
  ∀ (s : State) (f : Fin 16),
    s.canonical = true →
    s.stream = State.stRunning →
    s.issue.stepping = false →
    s.issue.ending = none →
    ∃ t, Sys2Proof.Machine.exec (.waitFlagSet f) s = .next t ∧
      t.stream = State.stWaiting ∧ t.issue = { s.issue with wait := some ⟨s.lastIndex, 6, f.val, true, 0⟩, noGo := true } ∧ t.get Reg.ISSUE.RUN_STAT.WAITING = 1
      ∧ s.SameFields [Reg.ISSUE.RUN_STAT.STATE, Reg.ISSUE.RUN_STAT.WAITING] t

/-- WAIT condition 7 (R85): the running stream waits, and launches nothing until the condition holds. -/
def waitFlagClrWaits : Prop :=
  ∀ (s : State) (f : Fin 16),
    s.canonical = true →
    s.stream = State.stRunning →
    s.issue.stepping = false →
    s.issue.ending = none →
    ∃ t, Sys2Proof.Machine.exec (.waitFlagClr f) s = .next t ∧
      t.stream = State.stWaiting ∧ t.issue = { s.issue with wait := some ⟨s.lastIndex, 7, f.val, true, 0⟩, noGo := true } ∧ t.get Reg.ISSUE.RUN_STAT.WAITING = 1
      ∧ s.SameFields [Reg.ISSUE.RUN_STAT.STATE, Reg.ISSUE.RUN_STAT.WAITING] t

/-- WAIT condition 8 (R85): the running stream waits, and launches nothing until the condition holds. -/
def waitTrackedWaits : Prop :=
  ∀ (s : State),
    s.canonical = true →
    s.stream = State.stRunning →
    s.issue.stepping = false →
    s.issue.ending = none →
    ∃ t, Sys2Proof.Machine.exec (.waitTracked) s = .next t ∧
      t.stream = State.stWaiting ∧ t.issue = { s.issue with wait := some ⟨s.lastIndex, 8, 0, true, 0⟩, noGo := true } ∧ t.get Reg.ISSUE.RUN_STAT.WAITING = 1
      ∧ s.SameFields [Reg.ISSUE.RUN_STAT.STATE, Reg.ISSUE.RUN_STAT.WAITING] t

/-- WAIT condition 9 (R85): the running stream waits, and launches nothing until the condition holds. -/
def waitCyclesWaits : Prop :=
  ∀ (s : State) (cyc : BitVec 24),
    s.canonical = true →
    s.stream = State.stRunning →
    s.issue.stepping = false →
    s.issue.ending = none →
    ∃ t, Sys2Proof.Machine.exec (.waitCycles cyc) s = .next t ∧
      t.stream = State.stWaiting ∧ t.issue = { s.issue with wait := some ⟨s.lastIndex, 9, cyc.toNat, true, 0⟩, noGo := true } ∧ t.get Reg.ISSUE.RUN_STAT.WAITING = 1
      ∧ s.SameFields [Reg.ISSUE.RUN_STAT.STATE, Reg.ISSUE.RUN_STAT.WAITING] t

/-- WAIT_SATISFIED (R85) of FLAG_SET: the stream runs again, the flag is not cleared, and the period counts as a waiting one. -/
def waitSatisfiedRuns : Prop :=
  ∀ (s : State) (w : WaitRec),
    s.canonical = true →
    s.stream = State.stWaiting →
    s.issue.wait = some w →
    s.issue.ending = none →
    s.issue.stopReq = false →
    s.issue.haltReq = false →
    w.cond = 6 →
    (s.get Reg.SNET.FLAGS.FLAG).testBit (w.arg % 16) = true →
    ∃ t, Sys2Proof.Machine.exec (.waitSatisfied) s = .next t ∧
      t.stream = State.stRunning ∧ t.issue = { s.issue with wait := none, noGo := false, goFrom := s.issue.period + 1 } ∧ t.get Reg.ISSUE.RUN_STAT.WAITING = 0 ∧ t.get Reg.SNET.FLAGS.FLAG = s.get Reg.SNET.FLAGS.FLAG
      ∧ t.get Reg.ISSUE.WAIT_CYC.CNT = s.counted Reg.ISSUE.WAIT_CYC.CNT (s.cyclesPerLaunch 0)

/-- WAIT_SATISFIED (R87) of DOORBELL: the bit that satisfied the wait is cleared, and no other. -/
def waitDoorbellIsTaken : Prop :=
  ∀ (s : State) (w : WaitRec),
    s.canonical = true →
    s.stream = State.stWaiting →
    s.issue.wait = some w →
    s.issue.ending = none →
    s.issue.stopReq = false →
    s.issue.haltReq = false →
    w.cond = 5 →
    (s.get Reg.ISSUE.DBELL.BELL).testBit (w.arg % 32) = true →
    ∃ t, Sys2Proof.Machine.exec (.waitSatisfied) s = .next t ∧
      t.stream = State.stRunning ∧ (∀ b ∈ List.range 32, (t.get Reg.ISSUE.DBELL.BELL).testBit b = (b ≠ w.arg % 32 && (s.get Reg.ISSUE.DBELL.BELL).testBit b))

/-- WAIT_TIMEOUT (R86): the stream fault-halts at the WAIT with WAIT_TIMEOUT. -/
def waitTimesOut : Prop :=
  ∀ (s : State) (w : WaitRec),
    s.canonical = true →
    s.stream = State.stWaiting →
    s.issue.wait = some w →
    s.issue.ending = none →
    s.issue.stopReq = false →
    s.issue.haltReq = false →
    w.cond = 6 →
    (s.get Reg.SNET.FLAGS.FLAG).testBit (w.arg % 16) = false →
    s.get Reg.ISSUE.WAIT_TMO.CYC ≠ 0 →
    s.get Reg.ISSUE.WAIT_TMO.CYC ≤ (w.tested + 1) * s.cyclesPerLaunch 0 →
    ∃ t, Sys2Proof.Machine.exec (.waitTimeout) s = .next t ∧
      t.stream = State.stFaulted ∧ t.get Reg.ISSUE.HALT_CAUSE.CAUSE = 6 ∧ t.get Reg.ISSUE.HALT_CAUSE.INDEX = w.index % 2 ^ 14 ∧ t.issue.wait = none

end Sys2Proof.Machine.Claims

/-- Loops and waits of the stream -/
def Obligations.LoopsAndWaitsComplete : Prop :=
  Sys2Proof.Machine.Claims.lstartPushes ∧ Sys2Proof.Machine.Claims.lstartPushesTile ∧ Sys2Proof.Machine.Claims.lendLeaves ∧
    Sys2Proof.Machine.Claims.lendRepeats ∧ Sys2Proof.Machine.Claims.loneRepeats ∧ Sys2Proof.Machine.Claims.loneOnce ∧
    Sys2Proof.Machine.Claims.waitBarrierWaits ∧ Sys2Proof.Machine.Claims.waitMoverWaits ∧ Sys2Proof.Machine.Claims.waitEvtDrainWaits ∧
    Sys2Proof.Machine.Claims.waitStepTimerWaits ∧ Sys2Proof.Machine.Claims.waitDoorbellWaits ∧ Sys2Proof.Machine.Claims.waitFlagSetWaits ∧
    Sys2Proof.Machine.Claims.waitFlagClrWaits ∧ Sys2Proof.Machine.Claims.waitTrackedWaits ∧ Sys2Proof.Machine.Claims.waitCyclesWaits ∧
    Sys2Proof.Machine.Claims.waitSatisfiedRuns ∧ Sys2Proof.Machine.Claims.waitDoorbellIsTaken ∧ Sys2Proof.Machine.Claims.waitTimesOut

/-! Doorbells, flags and barriers of the stream -/

namespace Sys2Proof.Machine.Claims

/-- DBCLR (R81): the doorbell bit is cleared, and nothing else changes. -/
def dbclrClears : Prop :=
  ∀ (s : State) (bit : Fin 32),
    s.canonical = true →
    ∃ t, Sys2Proof.Machine.exec (.dbclr bit) s = .next t ∧
      (∀ b ∈ List.range 32, (t.get Reg.ISSUE.DBELL.BELL).testBit b = (b ≠ bit.val && (s.get Reg.ISSUE.DBELL.BELL).testBit b)) ∧ s.OnlyFields [Reg.ISSUE.DBELL.BELL] t

/-- SETFLAG (R81, R270): the flag is set, and no other. -/
def setflagSets : Prop :=
  ∀ (s : State) (f : Fin 16),
    s.canonical = true →
    ∃ t, Sys2Proof.Machine.exec (.setflag f) s = .next t ∧
      (∀ b ∈ List.range 16, (t.get Reg.SNET.FLAGS.FLAG).testBit b = (b = f.val || (s.get Reg.SNET.FLAGS.FLAG).testBit b)) ∧ t.issue = { s.issue with flagsSet := (f.val, 256) :: s.issue.flagsSet } ∧ s.SameFields [Reg.SNET.FLAGS.FLAG] t ∧ { t with regs := s.regs, issue := s.issue } = s

/-- CLRFLAG (R81, R270): a flag that no tile has set in the same launch period is cleared, and no other. -/
def clrflagClears : Prop :=
  ∀ (s : State) (f : Fin 16),
    s.canonical = true →
    s.issue.flagsSet.all (fun x => x.1 != f.val || x.2 == 256) = true →
    ∃ t, Sys2Proof.Machine.exec (.clrflag f) s = .next t ∧
      (∀ b ∈ List.range 16, (t.get Reg.SNET.FLAGS.FLAG).testBit b = (b ≠ f.val && (s.get Reg.SNET.FLAGS.FLAG).testBit b)) ∧ s.OnlyFields [Reg.SNET.FLAGS.FLAG] t

/-- CLRFLAG of a flag that a tile has set in the same launch period (R270): the set takes effect. -/
def setWinsOverClear : Prop :=
  ∀ (s : State) (f : Fin 16),
    s.issue.flagsSet.any (fun x => x.1 == f.val && x.2 != 256) = true →
    ∃ t, Sys2Proof.Machine.exec (.clrflag f) s = .next t ∧
      t = s

/-- FLAGS (R270): a register write sets all sixteen flags. -/
def flagsWritten : Prop :=
  ∀ (s : State) (src : Source) (v : BitVec 16),
    s.canonical = true →
    (src == .host && s.hostWaits) = false →
    s.answers src (fabPg 2 + 0x40) = true →
    ∃ t, Sys2Proof.Machine.exec (.flags src v) s = .next t ∧
      t.get Reg.SNET.FLAGS.FLAG = v.toNat ∧ s.OnlyFields [Reg.SNET.FLAGS.FLAG] t

/-- BAR_MASK (R268, R275): one word of a group's mask; arrivals already recorded stay. -/
def barMaskWritten : Prop :=
  ∀ (s : State) (src : Source) (g : Fin 64) (w : Fin 8) (v : Word32),
    s.canonical = true →
    (src == .host && s.hostWaits) = false →
    s.answers src (fabPg 3 + 0x100 + 0x20 * g.val + 4 * w.val) = true →
    ∃ t, Sys2Proof.Machine.exec (.barMask src g w v) s = .next t ∧
      t.get (Reg.SNETM.BAR_MASK.TILES g.val w.val) = v.toNat ∧ s.OnlyFields [Reg.SNETM.BAR_MASK.TILES g.val w.val] t

/-- BAR_TMO (R269): the round is abandoned, the group's bit in BAR_TMO_STAT is set and the time-out is counted. -/
def barTmoAbandons : Prop :=
  ∀ (s : State) (g : Fin 64),
    s.canonical = true →
    s.get Reg.SNET.BAR_TMO.CYC ≠ 0 →
    s.arrived g.val ≠ 0 →
    s.barFull g.val = false →
    s.barTmo g.val = false →
    risingFrom 0 s.bar = true →
    ∃ t, Sys2Proof.Machine.exec (.barTmo g) s = .next t ∧
      t.arrived g.val = 0 ∧ t.barTmo g.val = true ∧ t.get Reg.SNET.BAR_TMO_CNT.CNT = s.counted Reg.SNET.BAR_TMO_CNT.CNT 1 ∧ t.get (Reg.HDR.BLK_STAT.ERR State.pgSNET) = 1 ∧ (∀ h ∈ List.range 64, h ≠ g.val → t.arrived h = s.arrived h)

end Sys2Proof.Machine.Claims

/-- Doorbells, flags and barriers of the stream -/
def Obligations.FlagsAndBarriersComplete : Prop :=
  Sys2Proof.Machine.Claims.dbclrClears ∧ Sys2Proof.Machine.Claims.setflagSets ∧ Sys2Proof.Machine.Claims.clrflagClears ∧
    Sys2Proof.Machine.Claims.setWinsOverClear ∧ Sys2Proof.Machine.Claims.flagsWritten ∧ Sys2Proof.Machine.Claims.barMaskWritten ∧
    Sys2Proof.Machine.Claims.barTmoAbandons

/-! Steps start: ONE, RUN, HALT and the grid -/

namespace Sys2Proof.Machine.Claims

/-- The payload of a block as the injector reads it (R200). -/
def injPayload (s : State) (b : Block') : Nat × List Byte × State := s.injDesc.2.readAny epISSUE b.addr (s.blockBytes b)

/-- An event as the injector's NI sends it in class EVT when its account of the destination has room (R255). -/
def injected (s : State) (ev : Word64) : EvtFlight :=
  ⟨epISSUE, epTile (bits ev.toNat 51 44), ev, (s.lane epISSUE (epTile (bits ev.toNat 51 44))).epoch, none⟩

/-- one (R192, R193): with nothing in its way the step starts in INGEST; its phase is sent to every masked tile. -/
def oneStartsAStep : Prop :=
  ∀ (s : State),
    s.canonical = true →
    s.answers .bridge (pgSTEP + 0x50) = true →
    s.isEnabled pgSTEP = true →
    s.stepActive = false →
    s.step.pend = none →
    s.get Reg.STEP.STEP_CFG.PACED = 0 →
    s.stepReady = true →
    s.tokensOk = true →
    ∃ t, Sys2Proof.Machine.exec (.one) s = .next t ∧
      t.phase = 1 ∧ t.step.mask = s.tileMask ∧ t.step.wait = members s.tileMask 256 ∧ t.step.learn = false ∧ t.step.pend = none ∧ t.stepCnt = s.stepCnt ∧ t.mem = s.mem ∧ t.tiles = s.tiles

/-- oneLearn (R192, R193): with nothing in its way the step starts in INGEST; its phase is sent to every masked tile. -/
def oneLearnStartsAStep : Prop :=
  ∀ (s : State),
    s.canonical = true →
    s.answers .bridge (pgSTEP + 0x50) = true →
    s.isEnabled pgSTEP = true →
    s.stepActive = false →
    s.step.pend = none →
    s.get Reg.STEP.STEP_CFG.PACED = 0 →
    s.stepReady = true →
    s.tokensOk = true →
    ∃ t, Sys2Proof.Machine.exec (.oneLearn) s = .next t ∧
      t.phase = 1 ∧ t.step.mask = s.tileMask ∧ t.step.wait = members s.tileMask 256 ∧ t.step.learn = true ∧ t.step.pend = none ∧ t.stepCnt = s.stepCnt ∧ t.mem = s.mem ∧ t.tiles = s.tiles

/-- ONE before the boundary of a paced step (R193, R194): the command waits, and nothing else changes. -/
def oneWaitsAtTheGrid : Prop :=
  ∀ (s : State),
    s.canonical = true →
    s.answers .bridge (pgSTEP + 0x50) = true →
    s.isEnabled pgSTEP = true →
    s.stepActive = false →
    s.step.pend = none →
    s.get Reg.STEP.STEP_CFG.PACED ≠ 0 →
    s.step.bound = some false →
    ∃ t, Sys2Proof.Machine.exec (.one) s = .next t ∧
      t.step = { s.step with pend := some false } ∧ { t with step := s.step } = s

/-- ONE while a command is pending (R193): it is counted and has no other effect. -/
def secondCommandCounted : Prop :=
  ∀ (s : State),
    s.canonical = true →
    s.answers .bridge (pgSTEP + 0x50) = true →
    s.isEnabled pgSTEP = true →
    s.step.pend.isSome = true →
    ∃ t, Sys2Proof.Machine.exec (.one) s = .next t ∧
      t.get Reg.STEP.CMD_OVR_CNT.CNT = s.counted Reg.STEP.CMD_OVR_CNT.CNT 1 ∧ s.OnlyNotices ([Reg.STEP.CMD_OVR_CNT.CNT] ++ irqFields pgSTEP) t

/-- ONE while a masked tile is not READY with EN = 1 (R199): no step starts; DEPENDENCY_NOT_READY and ERR are recorded. -/
def refusedWithoutTiles : Prop :=
  ∀ (s : State),
    s.canonical = true →
    s.answers .bridge (pgSTEP + 0x50) = true →
    s.isEnabled pgSTEP = true →
    s.stepActive = false →
    s.step.pend = none →
    s.get Reg.STEP.STEP_CFG.PACED = 0 →
    s.stepReady = false →
    ∃ t, Sys2Proof.Machine.exec (.one) s = .next t ∧
      t.phase = 0 ∧ t.step.pend = none ∧ t.get Reg.STEP.STEP_STAT.RUN = 0 ∧ t.get (Reg.HDR.BLK_REASON.CODE pgSTEP) = rcDep ∧ t.get (Reg.HDR.BLK_STAT.ERR pgSTEP) = 1 ∧ t.stepCnt = s.stepCnt

/-- RUN (R193): continuous running begins and the first step starts. -/
def runStarts : Prop :=
  ∀ (s : State),
    s.canonical = true →
    s.answers .bridge (pgSTEP + 0x50) = true →
    s.isEnabled pgSTEP = true →
    s.stepActive = false →
    s.step.pend = none →
    s.get Reg.STEP.STEP_STAT.RUN = 0 →
    s.get Reg.STEP.STEP_CFG.PACED = 0 →
    s.get Reg.STEP.STEP_CFG.LEARN_EVERY = 0 →
    s.stepReady = true →
    s.tokensOk = true →
    ∃ t, Sys2Proof.Machine.exec (.run) s = .next t ∧
      t.get Reg.STEP.STEP_STAT.RUN = 1 ∧ t.phase = 1 ∧ t.step.ran = 1 ∧ t.step.learn = false ∧ t.step.wait = members s.tileMask 256

/-- HALT (R193): continuous running ends; a step in progress goes on. -/
def haltEndsRunning : Prop :=
  ∀ (s : State),
    s.canonical = true →
    s.answers .bridge (pgSTEP + 0x50) = true →
    ∃ t, Sys2Proof.Machine.exec (.halt) s = .next t ∧
      t.get Reg.STEP.STEP_STAT.RUN = 0 ∧ s.OnlyFields [Reg.STEP.STEP_STAT.RUN] t

/-- STEP_BOUNDARY during a step (R194): the boundary is reached, and the step goes on. -/
def boundaryReached : Prop :=
  ∀ (s : State),
    s.canonical = true →
    s.step.bound = some false →
    s.stream ≠ State.stHalted →
    s.stepActive = true →
    ∃ t, Sys2Proof.Machine.exec (.stepBoundary) s = .next t ∧
      t.step = { s.step with bound := some true } ∧ { t with step := s.step } = s

/-- STEP_BOUNDARY (R194): the pending step starts at its boundary. -/
def boundaryStartsStep : Prop :=
  ∀ (s : State),
    s.canonical = true →
    s.step.bound = some false →
    s.stream ≠ State.stHalted →
    s.isEnabled pgSTEP = true →
    s.stepActive = false →
    s.step.pend = some true →
    s.step.late = false →
    s.step.tokenWait = false →
    s.stepReady = true →
    s.tokensOk = true →
    ∃ t, Sys2Proof.Machine.exec (.stepBoundary) s = .next t ∧
      t.phase = 1 ∧ t.step.learn = true ∧ t.step.bound = (if s.get Reg.STEP.STEP_CFG.PACED ≠ 0 then some false else none) ∧ t.get Reg.STEP.OVERRUN_CNT.CNT = s.get Reg.STEP.OVERRUN_CNT.CNT

end Sys2Proof.Machine.Claims

/-- Steps start: ONE, RUN, HALT and the grid -/
def Obligations.StepsStart : Prop :=
  Sys2Proof.Machine.Claims.oneStartsAStep ∧ Sys2Proof.Machine.Claims.oneLearnStartsAStep ∧ Sys2Proof.Machine.Claims.oneWaitsAtTheGrid ∧
    Sys2Proof.Machine.Claims.secondCommandCounted ∧ Sys2Proof.Machine.Claims.refusedWithoutTiles ∧ Sys2Proof.Machine.Claims.runStarts ∧
    Sys2Proof.Machine.Claims.haltEndsRunning ∧ Sys2Proof.Machine.Claims.boundaryReached ∧ Sys2Proof.Machine.Claims.boundaryStartsStep

/-! The phases of a step and their end -/

namespace Sys2Proof.Machine.Claims

/-- PHASE_ENTER of INGEST (R192, R196): the tile is in the phase, its delivery is open, and it is no longer waited for. -/
def phaseEntered : Prop :=
  ∀ (s : State) (n : TileId),
    s.canonical = true →
    s.step.wait.contains n.val = true →
    s.phase = 1 →
    ∃ t, Sys2Proof.Machine.exec (.phaseEnter n) s = .next t ∧
      (s.tile n.val).evt.apply = (t.tile n.val).evt.apply ∧ (t.evt n.val).phase = 1 ∧ (t.evt n.val).closed = false ∧ (t.evt n.val).roSkip = 0 ∧ t.step = { s.step with wait := s.step.wait.erase n.val } ∧ s.SameTiles n.val t ∧ t.regs = s.regs ∧ t.mem = s.mem

/-- PHASE_ENTER of INTEGRATE (R185): the sweep begins, with the fire list of an odd or an even step. -/
def integrateEntered : Prop :=
  ∀ (s : State) (n : TileId),
    s.canonical = true →
    s.step.wait.contains n.val = true →
    s.phase = 3 →
    s.barDone s.step.bgrp = false →
    ∃ t, Sys2Proof.Machine.exec (.phaseEnter n) s = .next t ∧
      (t.evt n.val).sweep = some (if s.stepCnt % 2 = 1 then s.get (Reg.NEURON.FIRE_BASE1.OFS n.val) else s.get (Reg.NEURON.FIRE_BASE0.OFS n.val), s.get (Reg.NEURON.FIRE_CAP.VALUE n.val)) ∧ (t.evt n.val).phase = 3
      ∧ t.step = { s.step with wait := s.step.wait.erase n.val } ∧ s.SameTiles n.val t ∧ t.mem = s.mem

/-- READOUT_COPY_END (R204): the group's copy lands in the store, its RO_READY bit is set with the step that closed the window, and nothing else of memory changes. -/
def readoutCopyLands : Prop :=
  ∀ (s : State) (n : TileId) (g : Fin 16) (dest : Nat) (data : List Byte) (tl : List (Nat × Nat × List Byte)),
    s.canonical = true →
    (s.evt n.val).copies = (g.val, dest, data) :: tl →
    tl ≠ [] ∨ (s.evt n.val).phase ≠ 5 →
    ∃ t, Sys2Proof.Machine.exec (.readoutCopyEnd n) s = .next t ∧
      (t.get (Reg.NEURON.RO_READY.READY n.val)).testBit g.val = true ∧ (t.evt n.val).copies = tl ∧ getAt 0 g.val (t.evt n.val).roStep = s.stepCnt ∧ s.SameTiles n.val t ∧ s.OnlyBytes (State.own n.val dest) data.length t

/-- DRAIN_CLOSE of INGEST (R192): everything is drained and DELIVER is sent. -/
def ingestDrains : Prop :=
  ∀ (s : State),
    s.canonical = true →
    s.drained = true →
    s.phase = 1 →
    s.injDone = true →
    ∃ t, Sys2Proof.Machine.exec (.drainClose) s = .next t ∧
      t.phase = 2 ∧ t.step = { s.step with wait := members s.step.mask 256 } ∧ t.tiles = s.tiles ∧ t.mem = s.mem

/-- DRAIN_CLOSE of DELIVER (R192, R196): delivery is closed at every tile of the step and INTEGRATE is sent. -/
def deliverDrains : Prop :=
  ∀ (s : State),
    s.canonical = true →
    s.drained = true →
    s.phase = 2 →
    ∃ t, Sys2Proof.Machine.exec (.drainClose) s = .next t ∧
      t.phase = 3 ∧ t.step = { s.step with wait := members s.step.mask 256 } ∧ t.get Reg.STEP.STEP_STAT.STRETCH = 0 ∧ t.get Reg.STEP.STEP_STAT.HOLD = 0 ∧ (∀ n ∈ s.stepTiles, (t.evt n).closed = true) ∧ t.mem = s.mem

/-- NEURON_SWEEP_END (R186, R192): the sweep of the records ends with the fire list it wrote, and the tile arrives at the step's barrier group. -/
def sweepEnds : Prop :=
  ∀ (s : State) (n : TileId) (base cap : Nat),
    s.canonical = true →
    (s.evt n.val).sweep = some (base, cap) →
    (s.evt n.val).phase = 3 →
    s.step.bgrp < 64 →
    s.barTmo s.step.bgrp = false →
    (s.barMask s.step.bgrp).testBit n.val = true →
    (s.arrived s.step.bgrp).testBit n.val = false →
    ∃ t, Sys2Proof.Machine.exec (.neuronSweepEnd n) s = .next t ∧
      (t.evt n.val).sweep = none ∧ (t.evt n.val).fire = some (s.stepCnt % 2, (s.sweepAll n.val base cap).1) ∧ t.get (Reg.NEURON.FIRE_CNT.VALUE n.val) = low (Reg.NEURON.FIRE_CNT.VALUE n.val).width (s.sweepAll n.val base cap).1
      ∧ (t.arrived s.step.bgrp).testBit n.val = true ∧ s.SameTiles n.val t

/-- BARRIER_COMPLETE (R268): every member has arrived: BAR_DONE is set and a new round begins; no other group changes. -/
def barrierCompletes : Prop :=
  ∀ (s : State) (g : Fin 64),
    s.canonical = true →
    s.barFull g.val = true →
    s.step.bgrp ≠ g.val →
    risingFrom 0 s.bar = true →
    ∃ t, Sys2Proof.Machine.exec (.barrierComplete g) s = .next t ∧
      t.barDone g.val = true ∧ t.arrived g.val = 0 ∧ (∀ h ∈ List.range 64, h ≠ g.val → t.arrived h = s.arrived h ∧ t.barDone h = s.barDone h) ∧ t.mem = s.mem ∧ t.tiles = s.tiles ∧ t.step = s.step

/-- BARRIER_COMPLETE of the step's group in REPORT (R192): the controller consumes the bit, the step closes and STEP_CNT counts it. -/
def stepCloses : Prop :=
  ∀ (s : State) (g : Fin 64),
    s.canonical = true →
    s.barFull g.val = true →
    s.step.bgrp = g.val →
    s.phase = 5 →
    s.step.wait = [] →
    s.stream ≠ State.stHalted →
    s.step.pend = none →
    s.get Reg.STEP.STEP_STAT.RUN = 0 →
    s.get Reg.SCALE.CFG.ON_STEP = 0 →
    ∃ t, Sys2Proof.Machine.exec (.barrierComplete g) s = .next t ∧
      t.phase = 0 ∧ t.stepCnt = (s.stepCnt + 1) % 2 ^ 64 ∧ t.barDone g.val = false ∧ (∀ n ∈ s.stepTiles, (t.evt n).phase = 0) ∧ (t.get (Reg.HDR.BLK_IRQ_STAT.BLK_SPEC pgSTEP)).testBit 0 = true ∧ t.mem = s.mem

end Sys2Proof.Machine.Claims

/-- The phases of a step and their end -/
def Obligations.StepPhasesComplete : Prop :=
  Sys2Proof.Machine.Claims.phaseEntered ∧ Sys2Proof.Machine.Claims.integrateEntered ∧ Sys2Proof.Machine.Claims.readoutCopyLands ∧
    Sys2Proof.Machine.Claims.ingestDrains ∧ Sys2Proof.Machine.Claims.deliverDrains ∧ Sys2Proof.Machine.Claims.sweepEnds ∧
    Sys2Proof.Machine.Claims.barrierCompletes ∧ Sys2Proof.Machine.Claims.stepCloses

/-! A late step's policy, the stretch, and the injector -/

namespace Sys2Proof.Machine.Claims

/-- STRETCH (R195): the due point passes before DELIVER has drained. -/
def stretchBegins : Prop :=
  ∀ (s : State),
    s.canonical = true →
    s.phase = 1 ∨ s.phase = 2 →
    s.get Reg.STEP.DUE.NS ≠ 0 →
    s.get Reg.STEP.STEP_STAT.STRETCH = 0 →
    ∃ t, Sys2Proof.Machine.exec (.stretch) s = .next t ∧
      t.get Reg.STEP.STEP_STAT.STRETCH = 1 ∧ t.get Reg.STEP.STRETCH_CNT.CNT = s.counted Reg.STEP.STRETCH_CNT.CNT 1 ∧ (t.get (Reg.HDR.BLK_IRQ_STAT.BLK_SPEC pgSTEP)).testBit 1 = true
      ∧ s.OnlyNotices ([Reg.STEP.STEP_STAT.STRETCH, Reg.STEP.STRETCH_CNT.CNT] ++ irqFields pgSTEP) t

/-- LATE_STEP in hardware mode (R195, R197): DELIVER closes and the late step is counted. -/
def lateStepCloses : Prop :=
  ∀ (s : State),
    s.canonical = true →
    s.get Reg.STEP.STEP_STAT.STRETCH ≠ 0 →
    s.get Reg.STEP.STEP_STAT.HOLD = 0 →
    s.step.ended = false →
    s.phase = 2 →
    s.step.wait = [] →
    s.hostMode pgSTEP = false →
    ∃ t, Sys2Proof.Machine.exec (.lateStep) s = .next t ∧
      t.phase = 3 ∧ t.get Reg.STEP.LATE_STEP_CNT.CNT = s.counted Reg.STEP.LATE_STEP_CNT.CNT 1 ∧ t.get Reg.STEP.STEP_STAT.STRETCH = 0 ∧ (∀ n ∈ s.stepTiles, (t.evt n).closed = true) ∧ t.mem = s.mem

/-- LATE_STEP in host mode (R198): the controller holds and asks host software. -/
def lateStepHolds : Prop :=
  ∀ (s : State),
    s.canonical = true →
    s.get Reg.STEP.STEP_STAT.STRETCH ≠ 0 →
    s.get Reg.STEP.STEP_STAT.HOLD = 0 →
    s.step.ended = false →
    s.phase = 1 ∨ s.phase = 2 →
    s.hostMode pgSTEP = true →
    ∃ t, Sys2Proof.Machine.exec (.lateStep) s = .next t ∧
      t.get Reg.STEP.STEP_STAT.HOLD = 1 ∧ (t.get (Reg.HDR.BLK_IRQ_STAT.BLK_SPEC pgSTEP)).testBit 2 = true ∧ s.OnlyNotices ([Reg.STEP.STEP_STAT.HOLD] ++ irqFields pgSTEP) t

/-- CLOSE (R198): the held DELIVER closes and the late step is counted. -/
def closeEndsHold : Prop :=
  ∀ (s : State) (src : Source),
    s.canonical = true →
    (src == .host && s.hostWaits) = false →
    s.answers src (pgSTEP + 0x50) = true →
    s.get Reg.STEP.STEP_STAT.HOLD ≠ 0 →
    s.phase = 2 →
    s.step.wait = [] →
    ∃ t, Sys2Proof.Machine.exec (.close src) s = .next t ∧
      t.phase = 3 ∧ t.get Reg.STEP.STEP_STAT.HOLD = 0 ∧ t.get Reg.STEP.LATE_STEP_CNT.CNT = s.counted Reg.STEP.LATE_STEP_CNT.CNT 1 ∧ t.mem = s.mem

/-- EXTEND (R198): the hold ends and DELIVER goes on. -/
def extendEndsHold : Prop :=
  ∀ (s : State) (src : Source),
    s.canonical = true →
    (src == .host && s.hostWaits) = false →
    s.answers src (pgSTEP + 0x50) = true →
    s.get Reg.STEP.STEP_STAT.HOLD ≠ 0 →
    ∃ t, Sys2Proof.Machine.exec (.extend src) s = .next t ∧
      t.get Reg.STEP.STEP_STAT.HOLD = 0 ∧ s.OnlyFields [Reg.STEP.STEP_STAT.HOLD] t

/-- INJECT_EVENT from the ring (R200, R201): one event for this module is sent in class EVT and the ring's index moves on. -/
def injectsEvent : Prop :=
  ∀ (s : State) (b : Block') (e : Word64),
    s.canonical = true →
    s.phase = 1 →
    s.pageUp (pageAt pgSTEP) = true →
    s.injEmpty = false →
    s.injDesc.1 = some b →
    s.get (Reg.STEP.IGRP_W0.ENC b.group) = 0 →
    b.count = 1 →
    b.fence = false →
    (injPayload s b).1 = stOK →
    e = BitVec.ofNat 64 (ofBytes (injPayload s b).2.1) →
    bits e.toNat 63 52 = s.modId →
    bits e.toNat 13 8 = 0 →
    e.toNat.testBit 3 = false →
    (s.lane epISSUE (epTile (bits e.toNat 51 44))).count < 32767 →
    ∃ t, Sys2Proof.Machine.exec (.injectEvent none) s = .next t ∧
      t.net.evts = s.net.evts ++ [injected s e] ∧ t.get Reg.STEP.INJ_TAIL.IDX = (s.injTail + 1) % s.injSize ∧ t.get Reg.STEP.INJ_BAD_CNT.CNT = s.get Reg.STEP.INJ_BAD_CNT.CNT ∧ t.mem = s.mem ∧ t.tiles = s.tiles

/-- INJECT_COUNT from the ring (R201), one channel and world: a count q sends ⌈q/8⌉ events to the channel's tile and row. -/
def injectsCount : Prop :=
  ∀ (s : State) (b : Block') (tl row : Nat),
    s.canonical = true →
    s.phase = 1 →
    s.pageUp (pageAt pgSTEP) = true →
    s.injEmpty = false →
    s.injDesc.1 = some b →
    s.get (Reg.STEP.IGRP_W0.ENC b.group) = 1 →
    s.get (Reg.STEP.IGRP_W0.NCHAN b.group) = 1 →
    b.count = 1 →
    b.fence = false →
    (injPayload s b).1 = stOK →
    ((injPayload s b).2.2.mapEntries b.group).1 = [.ok tl row] →
    tl < 256 →
    (s.lane epISSUE (epTile tl)).count ≤ 24000 →
    ∃ t, Sys2Proof.Machine.exec (.injectCount none) s = .next t ∧
      t.net.evts.length = s.net.evts.length + (ofBytes (injPayload s b).2.1 + 7) / 8 ∧ t.get Reg.STEP.INJ_TAIL.IDX = (s.injTail + 1) % s.injSize ∧ t.mem = s.mem ∧ t.tiles = s.tiles
      ∧ (t.net.evts.drop s.net.evts.length).all (fun f => f.dst == epTile tl && evRow f.ev == low 16 row) = true

/-- INJECT_DELTA from the ring (R201), one channel and world: the change since the last-sent value goes out as one event, and only that value is written. -/
def injectsDelta : Prop :=
  ∀ (s : State) (b : Block') (tl row l' : Nat) (ev : Word64),
    s.canonical = true →
    s.phase = 1 →
    s.pageUp (pageAt pgSTEP) = true →
    s.injEmpty = false →
    s.injDesc.1 = some b →
    s.get (Reg.STEP.IGRP_W0.ENC b.group) = 2 →
    s.get (Reg.STEP.IGRP_W0.NCHAN b.group) = 1 →
    b.count = 1 →
    b.first = 0 →
    b.fence = false →
    (injPayload s b).1 = stOK →
    ((injPayload s b).2.2.mapEntries b.group).1 = [.ok tl row] →
    tl < 256 →
    (((injPayload s b).2.2.mapEntries b.group).2.readAny epISSUE (s.mapAddr b.group + 8) 4).1 = stOK →
    s.deltaOf (s.get (Reg.STEP.IGRP_W3.THR b.group)) (ofBytes (injPayload s b).2.1) (ofBytes (((injPayload s b).2.2.mapEntries b.group).2.readAny epISSUE (s.mapAddr b.group + 8) 4).2.1) tl row 0 = some (ev, l') →
    (s.lane epISSUE (epTile tl)).count < 32767 →
    ∃ t, Sys2Proof.Machine.exec (.injectDelta none) s = .next t ∧
      t.net.evts = s.net.evts ++ [injected s ev] ∧ t.get Reg.STEP.INJ_TAIL.IDX = (s.injTail + 1) % s.injSize ∧ s.OnlyBytes (s.mapAddr b.group + 8) 4 t ∧ t.tiles = s.tiles

end Sys2Proof.Machine.Claims

/-- A late step's policy, the stretch, and the injector -/
def Obligations.LateStepsAndInjection : Prop :=
  Sys2Proof.Machine.Claims.stretchBegins ∧ Sys2Proof.Machine.Claims.lateStepCloses ∧ Sys2Proof.Machine.Claims.lateStepHolds ∧
    Sys2Proof.Machine.Claims.closeEndsHold ∧ Sys2Proof.Machine.Claims.extendEndsHold ∧ Sys2Proof.Machine.Claims.injectsEvent ∧
    Sys2Proof.Machine.Claims.injectsCount ∧ Sys2Proof.Machine.Claims.injectsDelta

/-! The event engine, its row lock waits, parameter sets and the egress router -/

namespace Sys2Proof.Machine.Claims

/-- An event as tile n's router sends it in class EVT when its NI's account of the destination has room (R175, R255). -/
def emitted (s : State) (n : Nat) (ev : Word64) : EvtFlight :=
  ⟨epTile n, epTile (bits ev.toNat 51 44), ev, (s.lane (epTile n) (epTile (bits ev.toNat 51 44))).epoch, none⟩

/-- EVCTL_START (R191): the engine is RUNNING. -/
def evctlStarts : Prop :=
  ∀ (s : State) (n : TileId),
    s.canonical = true →
    s.domOn n.val = true →
    ∃ t, Sys2Proof.Machine.exec (.evctlStart n) s = .next t ∧
      t.get (Reg.EVENT.EVT_STAT.STATE n.val) = 1 ∧ s.OnlyFields [Reg.EVENT.EVT_STAT.STATE n.val] t

/-- EVCTL_DRAIN (R191): a RUNNING engine is DRAINING. -/
def evctlDrains : Prop :=
  ∀ (s : State) (n : TileId),
    s.canonical = true →
    s.domOn n.val = true →
    s.get (Reg.EVENT.EVT_STAT.STATE n.val) = 1 →
    ∃ t, Sys2Proof.Machine.exec (.evctlDrain n) s = .next t ∧
      t.get (Reg.EVENT.EVT_STAT.STATE n.val) = 2 ∧ s.OnlyFields [Reg.EVENT.EVT_STAT.STATE n.val] t

/-- EVCTL_STOP (R191): the engine is STOPPED. -/
def evctlStops : Prop :=
  ∀ (s : State) (n : TileId),
    s.canonical = true →
    s.domOn n.val = true →
    ∃ t, Sys2Proof.Machine.exec (.evctlStop n) s = .next t ∧
      t.get (Reg.EVENT.EVT_STAT.STATE n.val) = 0 ∧ s.OnlyFields [Reg.EVENT.EVT_STAT.STATE n.val] t

/-- DRAIN_COMPLETE (R191): a DRAINING engine with an empty FIFO becomes STOPPED, with its cause. -/
def drainEnds : Prop :=
  ∀ (s : State) (n : TileId),
    s.canonical = true →
    s.get (Reg.EVENT.EVT_STAT.STATE n.val) = 2 →
    (s.evt n.val).fifo = [] →
    ∃ t, Sys2Proof.Machine.exec (.drainComplete n) s = .next t ∧
      t.get (Reg.EVENT.EVT_STAT.STATE n.val) = 0 ∧ (t.get (Reg.HDR.BLK_IRQ_STAT.BLK_SPEC (State.pgEVENT n.val))).testBit 3 = true ∧ s.OnlyNotices ([Reg.EVENT.EVT_STAT.STATE n.val] ++ irqFields (State.pgEVENT n.val)) t

/-- EVENT_GROUP of a late event under DROP (R196): the event is discarded and recorded; nothing is accumulated. -/
def lateEventDropped : Prop :=
  ∀ (s : State) (n : TileId) (waited : Nat) (h : Word64) (tl : List Word64),
    s.canonical = true →
    (s.evt n.val).fifo = h :: tl →
    s.domOn n.val = true →
    s.get (Reg.EVENT.EVT_STAT.STATE n.val) ≠ 0 →
    s.isEnabled (State.pgEVENT n.val) = true →
    evLate h = true →
    s.get (Reg.EVENT.EVT_CFG.DROP_POL n.val) ≠ 0 →
    ∃ t, Sys2Proof.Machine.exec (.eventGroup n waited) s = .next t ∧
      (t.evt n.val).fifo = tl ∧ t.get (Reg.EVENT.DROP_LATE_CNT.CNT n.val) = s.counted (Reg.EVENT.DROP_LATE_CNT.CNT n.val) 1 ∧ t.get (Reg.EVENT.DROP_EVT.EVT n.val) = h.toNat ∧ t.get (Reg.EVENT.DROP_WHY.WHY n.val) = 2
      ∧ s.SameFields [Reg.EVENT.DROP_LATE_CNT.CNT n.val, Reg.EVENT.DROP_EVT.EVT n.val, Reg.EVENT.DROP_WHY.WHY n.val] t ∧ s.SameTiles n.val t ∧ t.mem = s.mem

/-- EVENT_GROUP whose row the host lock holds (R228, R229): the group waits at the head of the FIFO. -/
def lockedGroupWaits : Prop :=
  ∀ (s : State) (n : TileId) (waited : Nat) (h : Word64) (tl : List Word64),
    s.canonical = true →
    (s.evt n.val).fifo = h :: tl →
    s.domOn n.val = true →
    s.get (Reg.EVENT.EVT_STAT.STATE n.val) ≠ 0 →
    s.isEnabled (State.pgEVENT n.val) = true →
    evLate h = false →
    s.accumulates n.val = true →
    (s.hdrOfs n.val (evRow h)).isSome = true →
    s.hdrOfs n.val (evRow h) = (s.evt n.val).hlock →
    (s.evt n.val).waiting = false →
    ∃ t, Sys2Proof.Machine.exec (.eventGroup n waited) s = .next t ∧
      (t.evt n.val).fifo = (s.evt n.val).fifo ∧ (t.evt n.val).waiting = true ∧ t.get (Reg.SYNAPSE.LOCK_WAIT_CNT.CNT n.val) = s.counted (Reg.SYNAPSE.LOCK_WAIT_CNT.CNT n.val) 1 ∧ s.SameFields [Reg.SYNAPSE.LOCK_WAIT_CNT.CNT n.val] t ∧ s.SameTiles n.val t ∧ t.mem = s.mem

/-- EVENT_GROUP (R187, R188, R213): an event of a dense row with one 8-bit weight adds k × weight × scale to the input current of its target neuron, in FP32, and to no other byte of memory. -/
def eventAccumulates : Prop :=
  ∀ (s : State) (n : TileId) (waited o : Nat) (h : Word64) (r : Row) (c : Byte),
    s.canonical = true →
    (s.evt n.val).fifo = [h] →
    s.domOn n.val = true →
    s.get (Reg.EVENT.EVT_STAT.STATE n.val) ≠ 0 →
    s.isEnabled (State.pgEVENT n.val) = true →
    evLate h = false →
    s.accumulates n.val = true →
    (s.hdrOfs n.val (evRow h)) ≠ (s.evt n.val).hlock →
    (s.rowAt uEVENT n.val (evRow h)).1 = .row r →
    r.len = 1 →
    r.width = 8 →
    r.sparse = false →
    r.block = false →
    (s.evt n.val).waiting = false →
    r.tbase < s.neurons n.val →
    s.recordOfs n.val r.tbase (evWorld h) = some o →
    s.flips = [] →
    s.undef = [] →
    s.bankOn n.val ((64 * (r.first / 64)) / 0x30000) = true →
    s.bankOn n.val (o / 0x30000) = true →
    r.first < 0x300000 →
    c = s.byte (State.own n.val r.first) →
    ∃ t, Sys2Proof.Machine.exec (.eventGroup n waited) s = .next t ∧
      ofBytes (t.bytes (State.own n.val (o + 4)) 4) = fadd (ofBytes (s.bytes (State.own n.val (o + 4)) 4)) (fmul (f32.enc (.fin false (evK h) 0)) (f32.enc ((Num.ofInt (r.code c.toNat)).mul r.scale)))
      ∧ (t.evt n.val).fifo = [] ∧ s.OnlyBytes (State.own n.val (o + 4)) 4 t ∧ t.get (Reg.EVENT.EVT_APPLIED.CNT n.val) = s.counted (Reg.EVENT.EVT_APPLIED.CNT n.val) 1
      ∧ t.get (Reg.EVENT.ROW_FETCH.CNT n.val) = s.counted (Reg.EVENT.ROW_FETCH.CNT n.val) 1 ∧ s.SameTiles n.val t

/-- LOCK_TIMEOUT (R229): the waiting group is discarded and counted; the lock stays held. -/
def lockTimesOut : Prop :=
  ∀ (s : State) (n : TileId) (h : Word64) (q : List Word64),
    s.canonical = true →
    (s.evt n.val).fifo = h :: q →
    s.hostLocked n.val (s.hdrOfs n.val (evRow h)) = true →
    (s.evt n.val).waiting = true →
    s.get (Reg.SYNAPSE.LOCK_TMO.CYC n.val) ≠ 0 →
    ∃ t, Sys2Proof.Machine.exec (.lockTimeout n) s = .next t ∧
      (t.evt n.val).fifo = (s.gatherGroup n.val).2 ∧ (t.evt n.val).waiting = false ∧ (t.evt n.val).hlock = (s.evt n.val).hlock ∧ t.get (Reg.SYNAPSE.LOCK_DROP_CNT.CNT n.val) = s.counted (Reg.SYNAPSE.LOCK_DROP_CNT.CNT n.val) (s.gatherGroup n.val).1.length
      ∧ t.get (Reg.HDR.BLK_STAT.ERR (State.pgSYNAPSE n.val)) = 1 ∧ s.SameTiles n.val t ∧ t.mem = s.mem

/-- PSET_LOAD (R181): the load runs, and a parameter set is in the unit exactly if its bit in PSET_BAD reads 0. -/
def psetsLoad : Prop :=
  ∀ (s : State) (n : TileId),
    s.canonical = true →
    s.hostWaits = false →
    s.answers .host (tilePg n.val 8 + 0x54) = true →
    s.get (Reg.NEURON.PSET_CTRL.LOAD n.val) = 0 →
    risingFrom 0 (s.evt n.val).psets = true →
    ∃ t, Sys2Proof.Machine.exec (.psetLoad .host n) s = .next t ∧
      t.get (Reg.NEURON.PSET_CTRL.LOAD n.val) = 1 ∧ (∀ p ∈ List.range 64, (lookup p (t.evt n.val).psets).isSome = !(t.get (Reg.NEURON.PSET_BAD.BAD n.val)).testBit p) ∧ t.mem = s.mem ∧ s.SameTiles n.val t

/-- PSET_LOAD_END (R181): LOAD reads 0 again. -/
def psetLoadEnds : Prop :=
  ∀ (s : State) (n : TileId),
    s.canonical = true →
    ∃ t, Sys2Proof.Machine.exec (.psetLoadEnd n) s = .next t ∧
      t.get (Reg.NEURON.PSET_CTRL.LOAD n.val) = 0 ∧ s.OnlyFields [Reg.NEURON.PSET_CTRL.LOAD n.val] t

/-- WALK_ENTRY of a delayed event (R175, R176): it leaves for its tile. -/
def ringEventSent : Prop :=
  ∀ (s : State) (n : TileId) (ev : Word64) (late again : Bool) (tl : List Work),
    s.canonical = true →
    (s.evt n.val).phase = 2 →
    (s.evt n.val).closed = false →
    s.egrHold n.val = false →
    s.domOn n.val = true →
    (s.evt n.val).work = .ring ev late again :: tl →
    ev.toNat.testBit 3 = false →
    (s.lane (epTile n.val) (epTile (bits ev.toNat 51 44))).count < 32767 →
    ∃ t, Sys2Proof.Machine.exec (.walkEntry n) s = .next t ∧
      (t.evt n.val).work = tl ∧ t.net.evts = s.net.evts ++ [emitted s n.val ev] ∧ s.SameTiles n.val t ∧ t.regs = s.regs ∧ t.mem = s.mem

/-- WALK_ENTRY of the last entry of a list in the tile's store (R172 to R175): the event of the entry goes to its tile and the list ends. -/
def listEntrySent : Prop :=
  ∀ (s : State) (n : TileId) (base i w k e m : Nat) (late again : Bool) (tl : List Work),
    s.canonical = true →
    (s.evt n.val).phase = 2 →
    (s.evt n.val).closed = false →
    s.egrHold n.val = false →
    s.domOn n.val = true →
    (s.evt n.val).work = .list 0 base i w k late again :: tl →
    base + 8 * i + 8 ≤ 0x300000 →
    (base + 8 * i) % 8 = 0 →
    s.bankOn n.val ((base + 8 * i) / 0x30000) = true →
    s.flips = [] →
    s.undef = [] →
    e = ofBytes (s.bytes (State.own n.val (base + 8 * i)) 8) →
    e.testBit 19 = true →
    e.testBit 18 = true →
    bits e 21 20 = 0 →
    bits e 63 52 = s.modId →
    bits e 27 22 = 0 →
    1 ≤ k ∧ k ≤ 8 →
    (s.lane (epTile n.val) (epTile (bits e 51 44))).count < 32767 →
    m = s.modId →
    ∃ t, Sys2Proof.Machine.exec (.walkEntry n) s = .next t ∧
      (t.evt n.val).work = tl ∧ t.net.evts = s.net.evts ++ [emitted s n.val (mkEvent m (bits e 51 44) (bits e 43 28) w 0 k late false)]
      ∧ t.get (Reg.EGRESS.EMIT_CNT.CNT n.val) = s.counted (Reg.EGRESS.EMIT_CNT.CNT n.val) 1 ∧ s.SameFields [Reg.EGRESS.EMIT_CNT.CNT n.val] t ∧ s.SameTiles n.val t ∧ t.mem = s.mem

/-- DEFER (R198): the held work is sent in the next DELIVER, late. -/
def heldWorkDeferred : Prop :=
  ∀ (s : State) (src : Source) (n : TileId),
    s.canonical = true →
    (src == .host && s.hostWaits) = false →
    s.answers src (tilePg n.val 11 + 0x48) = true →
    s.get (Reg.EGRESS.EGR_STAT.HOLD n.val) ≠ 0 →
    (s.evt n.val).heldDeliver = false →
    ∃ t, Sys2Proof.Machine.exec (.defer src n) s = .next t ∧
      (t.evt n.val).held = [] ∧ (t.evt n.val).remnant = (s.evt n.val).remnant ++ (s.evt n.val).held.map State.deferWork ∧ t.get (Reg.EGRESS.EGR_STAT.HOLD n.val) = 0
      ∧ s.SameFields [Reg.EGRESS.EGR_STAT.HOLD n.val] t ∧ s.SameTiles n.val t ∧ t.mem = s.mem

/-- DROP (R198): the held work is discarded and counted by kind. -/
def heldWorkDropped : Prop :=
  ∀ (s : State) (src : Source) (n : TileId),
    s.canonical = true →
    (src == .host && s.hostWaits) = false →
    s.answers src (tilePg n.val 11 + 0x48) = true →
    s.get (Reg.EGRESS.EGR_STAT.HOLD n.val) ≠ 0 →
    (s.evt n.val).heldDeliver = false →
    ∃ t, Sys2Proof.Machine.exec (.drop src n) s = .next t ∧
      (t.evt n.val).held = [] ∧ (t.evt n.val).remnant = (s.evt n.val).remnant ∧ t.get (Reg.EGRESS.EGR_STAT.HOLD n.val) = 0 ∧ t.get (Reg.EGRESS.LATE_DROP_CNT.CNT n.val) = s.counted (Reg.EGRESS.LATE_DROP_CNT.CNT n.val) ((s.evt n.val).held.countP State.isRing)
      ∧ t.get (Reg.EGRESS.FIRE_DROP_CNT.CNT n.val) = s.counted (Reg.EGRESS.FIRE_DROP_CNT.CNT n.val) ((s.evt n.val).held.countP fun w => !State.isRing w) ∧ s.SameTiles n.val t ∧ t.mem = s.mem

end Sys2Proof.Machine.Claims

/-- The event engine, its row lock waits, parameter sets and the egress router -/
def Obligations.EventsAndNeuronsComplete : Prop :=
  Sys2Proof.Machine.Claims.evctlStarts ∧ Sys2Proof.Machine.Claims.evctlDrains ∧ Sys2Proof.Machine.Claims.evctlStops ∧
    Sys2Proof.Machine.Claims.drainEnds ∧ Sys2Proof.Machine.Claims.lateEventDropped ∧ Sys2Proof.Machine.Claims.lockedGroupWaits ∧
    Sys2Proof.Machine.Claims.eventAccumulates ∧ Sys2Proof.Machine.Claims.lockTimesOut ∧ Sys2Proof.Machine.Claims.psetsLoad ∧
    Sys2Proof.Machine.Claims.psetLoadEnds ∧ Sys2Proof.Machine.Claims.ringEventSent ∧ Sys2Proof.Machine.Claims.listEntrySent ∧
    Sys2Proof.Machine.Claims.heldWorkDeferred ∧ Sys2Proof.Machine.Claims.heldWorkDropped

/-! Upsets, ECC write-back, scrubbing, bank power states and LPDDR6 channels -/

namespace Sys2Proof.Machine.Claims

/-- UPSET of a sound word (R31): the word now has a single-bit error; nothing else changes. -/
def upsetOfMemory : Prop :=
  ∀ (s : State) (a : Addr) (b : Fin 72),
    s.canonical = true →
    (bankAt a.toNat).isSome = true ∨ (0x1000000000 ≤ a.toNat ∧ a.toNat < 0x1000000000 + 0x1000) →
    s.undef = [] →
    lookup (a.toNat / 8) s.flips = none →
    risingFrom 0 s.flips = true →
    ∃ t, Sys2Proof.Machine.exec (.upset (.memWord a b)) s = .next t ∧
      t.wordErr (a.toNat / 8) = 1 ∧ (∀ f ∈ s.flips, t.wordErr f.1 = s.wordErr f.1) ∧ { t with flips := s.flips } = s

/-- A second UPSET of another bit of a word (R31): the word is uncorrectable. -/
def secondUpsetIsUncorrectable : Prop :=
  ∀ (s : State) (a : Addr) (b c : Fin 72),
    s.canonical = true →
    (bankAt a.toNat).isSome = true →
    lookup (a.toNat / 8) s.flips = some [c.val] →
    b ≠ c →
    ∃ t, Sys2Proof.Machine.exec (.upset (.memWord a b)) s = .next t ∧
      t.wordErr (a.toNat / 8) = 2 ∧ { t with flips := s.flips } = s

/-- UPSET of a tile's lane word (R31, R77). -/
def upsetOfLaneWord : Prop :=
  ∀ (s : State) (n : TileId) (i : Fin 16384) (b : Fin 144),
    s.canonical = true →
    lookup i.val (s.tile n.val).laneFlips = none →
    ∃ t, Sys2Proof.Machine.exec (.upset (.laneWord n i b)) s = .next t ∧
      lookup i.val (t.tile n.val).laneFlips = some [b.val] ∧ (t.tile n.val).lanes = (s.tile n.val).lanes ∧ s.OnlyTile n.val t

/-- ECC_WRITEBACK (R114): the word is rewritten whole; its data and every other word stay. -/
def correctedWordWrittenBack : Prop :=
  ∀ (s : State) (a : Addr),
    s.canonical = true →
    s.writebacks.contains (a.toNat / 8) = true →
    (bankAt (a.toNat / 8 * 8)).any (fun x => s.bankOn x.1 x.2.1) = true →
    s.undef = [] →
    risingFrom 0 s.flips = true →
    ∃ t, Sys2Proof.Machine.exec (.eccWriteback a) s = .next t ∧
      t.wordErr (a.toNat / 8) = 0 ∧ t.writebacks.contains (a.toNat / 8) = false ∧ (∀ f ∈ s.flips, f.1 ≠ a.toNat / 8 → t.wordErr f.1 = s.wordErr f.1) ∧ t.mem = s.mem ∧ t.regs = s.regs

/-- SCRUB_READ (R116) of a line without errors: the bank's scrubber moves on to the next line in ascending order, after its last line to its first; nothing else changes. -/
def cleanScrubStepsOn : Prop :=
  ∀ (s : State) (u : Fin 320) (b : Fin 16),
    s.get (fld (bankPg u.val + 0x60) 0 16 0) ≠ 0 →
    s.domOn u.val = true →
    s.bankOn u.val b.val = true →
    risingFrom 0 s.scrub = true →
    s.flips = [] →
    s.undef = [] →
    ∃ t, Sys2Proof.Machine.exec (.scrubRead u b false) s = .next t ∧
      t.scrubAt (16 * u.val + b.val) = (((s.scrubAt (16 * u.val + b.val)).1 + 1) % (bankSize u.val / 64), (s.scrubAt (16 * u.val + b.val)).2 - 1) ∧ { t with scrub := s.scrub } = s

/-- SCRUB_READ displaced by port B (R116): it waits at its line and none is skipped; nothing else changes. -/
def displacedScrubWaits : Prop :=
  ∀ (s : State) (u : Fin 320) (b : Fin 16),
    s.get (fld (bankPg u.val + 0x60) 0 16 0) ≠ 0 →
    s.domOn u.val = true →
    s.bankOn u.val b.val = true →
    risingFrom 0 s.scrub = true →
    ∃ t, Sys2Proof.Machine.exec (.scrubRead u b true) s = .next t ∧
      t.scrubAt (16 * u.val + b.val) = ((s.scrubAt (16 * u.val + b.val)).1, (s.scrubAt (16 * u.val + b.val)).2 + 1) ∧ { t with scrub := s.scrub } = s

/-- SCRUB_READ of a bank that is not ON (R116, R119): the read is skipped, BANK_OFF_CNT counts it, cause BANK_OFF and ERR are set, and no scrubber moves. -/
def scrubSkipsBank : Prop :=
  ∀ (s : State) (u : Fin 320) (b : Fin 16),
    s.canonical = true →
    s.get (fld (bankPg u.val + 0x60) 0 16 0) ≠ 0 →
    s.domOn u.val = true →
    s.bankOn u.val b.val = false →
    ∃ t, Sys2Proof.Machine.exec (.scrubRead u b false) s = .next t ∧
      t.get (fld (bankPg u.val + 0x64) 0 32 0) = s.counted (fld (bankPg u.val + 0x64) 0 32 0) 1 ∧ t.get (Reg.HDR.BLK_STAT.ERR (bankPg u.val)) = 1 ∧ (t.get (Reg.HDR.BLK_IRQ_STAT.BLK_SPEC (bankPg u.val))).testBit 3 = true
      ∧ s.OnlyNotices ([fld (bankPg u.val + 0x64) 0 32 0, Reg.HDR.BLK_STAT.ERR (bankPg u.val)] ++ irqFields (bankPg u.val)) t

/-- SCRUB_READ of a line with one single-bit error (R114, R116): ECC_CE_CNT counts it, the stored word is not yet changed and its write-back is pending. -/
def scrubFindsSingleError : Prop :=
  ∀ (s : State) (u : Fin 320) (b : Fin 16) (i : Nat) (k : Fin 72),
    s.canonical = true →
    s.get (fld (bankPg u.val + 0x60) 0 16 0) ≠ 0 →
    s.domOn u.val = true →
    s.bankOn u.val b.val = true →
    risingFrom 0 s.scrub = true →
    (s.scrubAt (16 * u.val + b.val)).1 * 64 < bankSize u.val →
    i < 8 →
    s.flips = [((bankBase u.val b.val + (s.scrubAt (16 * u.val + b.val)).1 * 64) / 8 + i, [k.val])] →
    s.undef = [] →
    s.writebacks = [] →
    ∃ t, Sys2Proof.Machine.exec (.scrubRead u b false) s = .next t ∧
      t.get (fld (bankPg u.val + 0x54) 0 32 0) = s.counted (fld (bankPg u.val + 0x54) 0 32 0) 1 ∧ t.writebacks = [(bankBase u.val b.val + (s.scrubAt (16 * u.val + b.val)).1 * 64) / 8 + i] ∧ t.mem = s.mem ∧ t.flips = s.flips
      ∧ s.SameFields ([fld (bankPg u.val + 0x54) 0 32 0] ++ irqFields (bankPg u.val)) t

/-- BANK_PWR (R117, R118): each bank whose field names another state begins its transition; the others stay as they are. -/
def bankPowerWritten : Prop :=
  ∀ (s : State) (u : Fin 320) (v : Word32),
    s.canonical = true →
    s.hostWaits = false →
    s.answers .host (bankPg u.val + 0x40) = true →
    (List.range 16).all (fun b => bits v.toNat (2 * b + 1) (2 * b) != 3) = true →
    s.bankTo = [] →
    s.get (fld (bankPg u.val + 0x48) 0 16 0) = 0 →
    ∃ t, Sys2Proof.Machine.exec (.bankPwr .host u v) s = .next t ∧
      t.get (fld (bankPg u.val + 0x40) 0 32 0) = v.toNat ∧ (∀ b ∈ List.range 16, t.bankStat u.val b = if bits v.toNat (2 * b + 1) (2 * b) = s.bankStat u.val b then s.bankStat u.val b else 3)
      ∧ s.SameFields [fld (bankPg u.val + 0x40) 0 32 0, fld (bankPg u.val + 0x44) 0 32 0] t ∧ t.mem = s.mem

/-- BANK_PWR with the value 3 in a field (R118): refused with FIELD_RANGE. -/
def bankPowerValueRefused : Prop :=
  ∀ (s : State) (u : Fin 320) (v : Word32) (b : Fin 16),
    s.canonical = true →
    s.hostWaits = false →
    s.answers .host (bankPg u.val + 0x40) = true →
    bits v.toNat (2 * b.val + 1) (2 * b.val) = 3 →
    ∃ t, Sys2Proof.Machine.exec (.bankPwr .host u v) s = .next t ∧
      t.get (Reg.HDR.BLK_REASON.CODE (bankPg u.val)) = rcRange ∧ t.get (Reg.HDR.BLK_STAT.REFUSED (bankPg u.val)) = 1 ∧ t.get (fld (bankPg u.val + 0x40) 0 32 0) = s.get (fld (bankPg u.val + 0x40) 0 32 0) ∧ t.mem = s.mem ∧ t.bankTo = s.bankTo

/-- BANK_TRANSITION_END (R118): the bank is in the state it was heading for; only a bank that reaches OFF loses its contents. -/
def bankTransitionEnds : Prop :=
  ∀ (s : State) (u : Fin 320) (b : Fin 16) (g : Fin 3),
    s.canonical = true →
    lookup (16 * u.val + b.val) s.bankTo = some g.val →
    risingFrom 0 s.bankTo = true →
    s.domOn u.val = true →
    s.bankPwr u.val b.val = g.val →
    ∃ t, Sys2Proof.Machine.exec (.bankTransitionEnd u b) s = .next t ∧
      t.bankStat u.val b.val = g.val ∧ lookup (16 * u.val + b.val) t.bankTo = none ∧ s.OnlyBytes (bankBase u.val b.val) (if g.val = 2 then bankSize u.val else 0) t ∧ s.SameFields [fld (bankPg u.val + 0x44) 0 32 0] t

/-- BANK_INIT (R120): the initialisation of each written ON bank begins; a bank that is not ON ignores it. -/
def bankInitBegins : Prop :=
  ∀ (s : State) (u : Fin 320) (v : Word32),
    s.canonical = true →
    s.hostWaits = false →
    s.answers .host (bankPg u.val + 0x48) = true →
    ∃ t, Sys2Proof.Machine.exec (.bankInit .host u v) s = .next t ∧
      (∀ b ∈ List.range 16, t.bankStat u.val b = if v.toNat.testBit b && s.bankOn u.val b then 3 else s.bankStat u.val b)
      ∧ (∀ b ∈ List.range 16, t.initBit u.val b = ((v.toNat.testBit b && s.bankOn u.val b) || s.initBit u.val b)) ∧ t.mem = s.mem

/-- INIT_DONE (R120): every byte of the bank is 0, the bank is ON, and no byte outside it changes. -/
def bankInitialised : Prop :=
  ∀ (s : State) (u : Fin 320) (b : Fin 16) (x : Nat),
    s.canonical = true →
    s.initBit u.val b.val = true →
    s.domOn u.val = true →
    bankBase u.val b.val ≤ x →
    x < bankBase u.val b.val + bankSize u.val →
    ∃ t, Sys2Proof.Machine.exec (.initDone u b) s = .next t ∧
      t.byte x = 0 ∧ s.OnlyBytes (bankBase u.val b.val) (bankSize u.val) t ∧ t.bankStat u.val b.val = 0 ∧ t.initBit u.val b.val = false ∧ (t.get (Reg.HDR.BLK_IRQ_STAT.BLK_SPEC (bankPg u.val))).testBit 4 = true

/-- MEM_TRAIN_END (R349): the channel is UP and READY at the bin. -/
def trainingSucceeds : Prop :=
  ∀ (s : State) (c : Fin 32) (bin : Fin 3) (lo hi : Nat) (again : Bool),
    s.canonical = true →
    lookup c.val s.train = some (lo, hi, again) →
    risingFrom 0 s.train = true →
    s.domOn 322 = true →
    lo ≤ bin.val →
    bin.val ≤ hi →
    ∃ t, Sys2Proof.Machine.exec (.memTrainEnd c (some bin)) s = .next t ∧
      t.get (Reg.MEM.MEM_STAT.STATE c.val) = 2 ∧ t.get (Reg.MEM.MEM_STAT.BIN c.val) = bin.val ∧ t.isReady (memPg c.val) = true ∧ lookup c.val t.train = none ∧ s.SameFields ([Reg.MEM.MEM_STAT.STATE c.val, Reg.MEM.MEM_STAT.BIN c.val, Reg.MEM.TRAIN_CTRL.RETRAIN c.val, Reg.HDR.BLK_STAT.READY (memPg c.val)] ++ irqFields (memPg c.val)) t ∧ t.mem = s.mem

/-- MEM_TRAIN_END of a failed training (R349): FAILED, with ERR. -/
def trainingFails : Prop :=
  ∀ (s : State) (c : Fin 32) (lo hi : Nat) (again : Bool),
    s.canonical = true →
    lookup c.val s.train = some (lo, hi, again) →
    s.domOn 322 = true →
    ∃ t, Sys2Proof.Machine.exec (.memTrainEnd c none) s = .next t ∧
      t.get (Reg.MEM.MEM_STAT.STATE c.val) = 3 ∧ t.get (Reg.HDR.BLK_STAT.ERR (memPg c.val)) = 1 ∧ t.get (Reg.HDR.BLK_REASON.CODE (memPg c.val)) = 0x10 ∧ t.mem = s.mem

/-- RETRAIN (R349): an UP channel trains again; its data are kept. -/
def retrainBegins : Prop :=
  ∀ (s : State) (src : Source) (c : Fin 32),
    s.canonical = true →
    (src == .host && s.hostWaits) = false →
    s.answers src (memPg c.val + 0x48) = true →
    s.get (Reg.MEM.MEM_STAT.STATE c.val) = 2 →
    ∃ t, Sys2Proof.Machine.exec (.retrain src c) s = .next t ∧
      t.get (Reg.MEM.MEM_STAT.STATE c.val) = 1 ∧ t.get (Reg.MEM.TRAIN_CTRL.RETRAIN c.val) = 1 ∧ t.isReady (memPg c.val) = false ∧ t.mem = s.mem
      ∧ s.SameFields [Reg.MEM.MEM_STAT.STATE c.val, Reg.MEM.MEM_STAT.TEMP c.val, Reg.MEM.TRAIN_CTRL.RETRAIN c.val, Reg.HDR.BLK_STAT.READY (memPg c.val)] t

/-- REFRESH (R347): nothing that software can see changes. -/
def refreshWaits : Prop :=
  ∀ (s : State) (c : Fin 32),
    ∃ t, Sys2Proof.Machine.exec (.refresh c) s = .next t ∧
      t = s

/-- DEVICE_REPORT (R347): TEMP shows the device's report. -/
def deviceReports : Prop :=
  ∀ (s : State) (c : Fin 32) (temp : Fin 16),
    s.canonical = true →
    s.domOn 322 = true →
    s.get (Reg.MEM.MEM_STAT.STATE c.val) = 2 →
    ∃ t, Sys2Proof.Machine.exec (.deviceReport c temp) s = .next t ∧
      t.get (Reg.MEM.MEM_STAT.TEMP c.val) = temp.val ∧ s.OnlyFields [Reg.MEM.MEM_STAT.TEMP c.val] t

/-- RECALIBRATION (R348): requests wait meanwhile; nothing that software can see changes (log entry 27). -/
def recalibrationWaits : Prop :=
  ∀ (s : State) (c : Fin 32),
    ∃ t, Sys2Proof.Machine.exec (.recalibration c) s = .next t ∧
      t = s

/-- MEM_SCRUB_READ (R346) of a line without errors: the channel's scrubber moves on to the next line in ascending order, after its last line to its first; nothing else changes. -/
def cleanMemScrub : Prop :=
  ∀ (s : State) (c : Fin 32),
    s.domOn 322 = true →
    s.isReady (memPg c.val) = true →
    s.get (Reg.MEM.SCRUB_CFG.INTERVAL c.val) ≠ 0 →
    risingFrom 0 s.scrub = true →
    s.flips = [] →
    s.undef = [] →
    ∃ t, Sys2Proof.Machine.exec (.memScrubRead c false) s = .next t ∧
      t.scrubAt (8192 + c.val) = (((s.scrubAt (8192 + c.val)).1 + 1) % 67108864, (s.scrubAt (8192 + c.val)).2 - 1) ∧ { t with scrub := s.scrub } = s

/-- MEM_SCRUB_READ of a line with one single-bit error (R345, R346): ECC_CE_CNT counts it; the data stay. -/
def memScrubFindsSingleError : Prop :=
  ∀ (s : State) (c : Fin 32) (i : Nat) (k : Fin 72),
    s.canonical = true →
    s.domOn 322 = true →
    s.isReady (memPg c.val) = true →
    s.get (Reg.MEM.SCRUB_CFG.INTERVAL c.val) ≠ 0 →
    (s.scrubAt (8192 + c.val)).1 < 67108864 →
    i < 8 →
    s.flips = [((0x1000000000 + State.lpddrOfs c.val (64 * (s.scrubAt (8192 + c.val)).1)) / 8 + i, [k.val])] →
    s.undef = [] →
    ∃ t, Sys2Proof.Machine.exec (.memScrubRead c false) s = .next t ∧
      t.get (Reg.MEM.ECC_CE_CNT.CNT c.val) = s.counted (Reg.MEM.ECC_CE_CNT.CNT c.val) 1 ∧ t.mem = s.mem ∧ t.tiles = s.tiles

end Sys2Proof.Machine.Claims

/-- Upsets, ECC write-back, scrubbing, bank power states and LPDDR6 channels -/
def Obligations.BanksAndMemoryChannels : Prop :=
  Sys2Proof.Machine.Claims.upsetOfMemory ∧ Sys2Proof.Machine.Claims.secondUpsetIsUncorrectable ∧ Sys2Proof.Machine.Claims.upsetOfLaneWord ∧
    Sys2Proof.Machine.Claims.correctedWordWrittenBack ∧ Sys2Proof.Machine.Claims.cleanScrubStepsOn ∧ Sys2Proof.Machine.Claims.displacedScrubWaits ∧
    Sys2Proof.Machine.Claims.scrubSkipsBank ∧ Sys2Proof.Machine.Claims.scrubFindsSingleError ∧ Sys2Proof.Machine.Claims.bankPowerWritten ∧
    Sys2Proof.Machine.Claims.bankPowerValueRefused ∧ Sys2Proof.Machine.Claims.bankTransitionEnds ∧ Sys2Proof.Machine.Claims.bankInitBegins ∧
    Sys2Proof.Machine.Claims.bankInitialised ∧ Sys2Proof.Machine.Claims.trainingSucceeds ∧ Sys2Proof.Machine.Claims.trainingFails ∧
    Sys2Proof.Machine.Claims.retrainBegins ∧ Sys2Proof.Machine.Claims.refreshWaits ∧ Sys2Proof.Machine.Claims.deviceReports ∧
    Sys2Proof.Machine.Claims.recalibrationWaits ∧ Sys2Proof.Machine.Claims.cleanMemScrub ∧ Sys2Proof.Machine.Claims.memScrubFindsSingleError

/-! Scalar arithmetic, logic, shifts and moves -/

namespace Sys2Proof.Machine.Claims

/-- A scalar register as a 64-bit word (R121). -/
def sval (s : State) (n : TileId) (r : Nat) : Word64 := BitVec.ofNat 64 (s.sreg n.val r)

/-- The state with one more result on its way in tile n, `lat` cycles from now (R123); times count in halves of a launch period, which is one CCLK cycle or two. -/
def withDue (s : State) (n : TileId) (lat : Nat) (r : Result) : State :=
  s.modTile n.val fun x => { x with due := x.due ++ [⟨2 * s.issue.period + lat * s.halves n.val, s.issue.period, r⟩] }

/-- The same for a scalar result: s0 is never written (R121). -/
def withScalar (s : State) (n : TileId) (lat rd : Nat) (v : Word64) : State := if rd = 0 then s else withDue s n lat (.sreg rd v)

/-- The address of a scalar load or store (R122). -/
def loadAddr (s : State) (n : TileId) (rs1 : Nat) (imm : BitVec 15) : Nat := (sval s n rs1 + imm.signExtend 64).toNat

/-- The state with one more tracked operation in tile n whose data comes in `lat` cycles (R88). -/
def withTracked (s : State) (n : TileId) (lat : Nat) (vector : Bool) (reg : Option Nat) (status : Nat) (res : List Result) (src : Option (Nat × Nat × Nat)) : State :=
  s.modTile n.val fun x =>
    { x with tracked := x.tracked ++ [⟨vector, reg, s.issue.period, s.laneIndex n.val, some (s.issue.period + s.periods n.val lat), 0, status, res, src⟩] }

/-- The register a tracked scalar operation marks: none for s0 (R121). -/
def markOf (rd : Nat) : Option Nat := if rd = 0 then none else some rd

/-- Nothing stored in the module has an upset bit or a lost content. -/
def soundStore (s : State) : Bool := s.flips.isEmpty && s.undef.isEmpty

/-- ADD (R121): latency 1; no other part of the state changes. -/
def addResult : Prop :=
  ∀ (s : State) (n : TileId) (rd rs1 rs2 : Reg),
    s.domOn n.val = true →
    s.marked n.val false rs1.val = false →
    s.marked n.val false rs2.val = false →
    ∃ t, Sys2Proof.Machine.exec (.add n rd rs1 rs2) s = .next t ∧
      t = withScalar s n 1 rd.val (sval s n rs1.val + sval s n rs2.val)

/-- The compact ADD (R121) on s0 to s15. -/
def compactAddResult : Prop :=
  ∀ (s : State) (n : TileId) (rd rs1 rs2 : Fin 16),
    s.domOn n.val = true →
    s.marked n.val false rs1.val = false →
    s.marked n.val false rs2.val = false →
    ∃ t, Sys2Proof.Machine.exec (.compactAdd n rd rs1 rs2) s = .next t ∧
      t = withScalar s n 1 rd.val (sval s n rs1.val + sval s n rs2.val)

/-- SUB (R121): latency 1; no other part of the state changes. -/
def subResult : Prop :=
  ∀ (s : State) (n : TileId) (rd rs1 rs2 : Reg),
    s.domOn n.val = true →
    s.marked n.val false rs1.val = false →
    s.marked n.val false rs2.val = false →
    ∃ t, Sys2Proof.Machine.exec (.sub n rd rs1 rs2) s = .next t ∧
      t = withScalar s n 1 rd.val (sval s n rs1.val - sval s n rs2.val)

/-- The compact SUB (R121) on s0 to s15. -/
def compactSubResult : Prop :=
  ∀ (s : State) (n : TileId) (rd rs1 rs2 : Fin 16),
    s.domOn n.val = true →
    s.marked n.val false rs1.val = false →
    s.marked n.val false rs2.val = false →
    ∃ t, Sys2Proof.Machine.exec (.compactSub n rd rs1 rs2) s = .next t ∧
      t = withScalar s n 1 rd.val (sval s n rs1.val - sval s n rs2.val)

/-- AND (R121): latency 1; no other part of the state changes. -/
def andOpResult : Prop :=
  ∀ (s : State) (n : TileId) (rd rs1 rs2 : Reg),
    s.domOn n.val = true →
    s.marked n.val false rs1.val = false →
    s.marked n.val false rs2.val = false →
    ∃ t, Sys2Proof.Machine.exec (.andOp n rd rs1 rs2) s = .next t ∧
      t = withScalar s n 1 rd.val (sval s n rs1.val &&& sval s n rs2.val)

/-- The compact AND (R121) on s0 to s15. -/
def compactAndResult : Prop :=
  ∀ (s : State) (n : TileId) (rd rs1 rs2 : Fin 16),
    s.domOn n.val = true →
    s.marked n.val false rs1.val = false →
    s.marked n.val false rs2.val = false →
    ∃ t, Sys2Proof.Machine.exec (.compactAnd n rd rs1 rs2) s = .next t ∧
      t = withScalar s n 1 rd.val (sval s n rs1.val &&& sval s n rs2.val)

/-- OR (R121): latency 1; no other part of the state changes. -/
def orOpResult : Prop :=
  ∀ (s : State) (n : TileId) (rd rs1 rs2 : Reg),
    s.domOn n.val = true →
    s.marked n.val false rs1.val = false →
    s.marked n.val false rs2.val = false →
    ∃ t, Sys2Proof.Machine.exec (.orOp n rd rs1 rs2) s = .next t ∧
      t = withScalar s n 1 rd.val (sval s n rs1.val ||| sval s n rs2.val)

/-- The compact OR (R121) on s0 to s15. -/
def compactOrResult : Prop :=
  ∀ (s : State) (n : TileId) (rd rs1 rs2 : Fin 16),
    s.domOn n.val = true →
    s.marked n.val false rs1.val = false →
    s.marked n.val false rs2.val = false →
    ∃ t, Sys2Proof.Machine.exec (.compactOr n rd rs1 rs2) s = .next t ∧
      t = withScalar s n 1 rd.val (sval s n rs1.val ||| sval s n rs2.val)

/-- XOR (R121): latency 1; no other part of the state changes. -/
def xorOpResult : Prop :=
  ∀ (s : State) (n : TileId) (rd rs1 rs2 : Reg),
    s.domOn n.val = true →
    s.marked n.val false rs1.val = false →
    s.marked n.val false rs2.val = false →
    ∃ t, Sys2Proof.Machine.exec (.xorOp n rd rs1 rs2) s = .next t ∧
      t = withScalar s n 1 rd.val (sval s n rs1.val ^^^ sval s n rs2.val)

/-- The compact XOR (R121) on s0 to s15. -/
def compactXorResult : Prop :=
  ∀ (s : State) (n : TileId) (rd rs1 rs2 : Fin 16),
    s.domOn n.val = true →
    s.marked n.val false rs1.val = false →
    s.marked n.val false rs2.val = false →
    ∃ t, Sys2Proof.Machine.exec (.compactXor n rd rs1 rs2) s = .next t ∧
      t = withScalar s n 1 rd.val (sval s n rs1.val ^^^ sval s n rs2.val)

/-- SLL (R121): latency 1; no other part of the state changes. -/
def sllResult : Prop :=
  ∀ (s : State) (n : TileId) (rd rs1 rs2 : Reg),
    s.domOn n.val = true →
    s.marked n.val false rs1.val = false →
    s.marked n.val false rs2.val = false →
    ∃ t, Sys2Proof.Machine.exec (.sll n rd rs1 rs2) s = .next t ∧
      t = withScalar s n 1 rd.val (sval s n rs1.val <<< ((sval s n rs2.val).toNat % 64))

/-- The compact SLL (R121) on s0 to s15. -/
def compactSllResult : Prop :=
  ∀ (s : State) (n : TileId) (rd rs1 rs2 : Fin 16),
    s.domOn n.val = true →
    s.marked n.val false rs1.val = false →
    s.marked n.val false rs2.val = false →
    ∃ t, Sys2Proof.Machine.exec (.compactSll n rd rs1 rs2) s = .next t ∧
      t = withScalar s n 1 rd.val (sval s n rs1.val <<< ((sval s n rs2.val).toNat % 64))

/-- SRL (R121): latency 1; no other part of the state changes. -/
def srlResult : Prop :=
  ∀ (s : State) (n : TileId) (rd rs1 rs2 : Reg),
    s.domOn n.val = true →
    s.marked n.val false rs1.val = false →
    s.marked n.val false rs2.val = false →
    ∃ t, Sys2Proof.Machine.exec (.srl n rd rs1 rs2) s = .next t ∧
      t = withScalar s n 1 rd.val (sval s n rs1.val >>> ((sval s n rs2.val).toNat % 64))

/-- The compact SRL (R121) on s0 to s15. -/
def compactSrlResult : Prop :=
  ∀ (s : State) (n : TileId) (rd rs1 rs2 : Fin 16),
    s.domOn n.val = true →
    s.marked n.val false rs1.val = false →
    s.marked n.val false rs2.val = false →
    ∃ t, Sys2Proof.Machine.exec (.compactSrl n rd rs1 rs2) s = .next t ∧
      t = withScalar s n 1 rd.val (sval s n rs1.val >>> ((sval s n rs2.val).toNat % 64))

/-- SRA (R121): latency 1; no other part of the state changes. -/
def sraResult : Prop :=
  ∀ (s : State) (n : TileId) (rd rs1 rs2 : Reg),
    s.domOn n.val = true →
    s.marked n.val false rs1.val = false →
    s.marked n.val false rs2.val = false →
    ∃ t, Sys2Proof.Machine.exec (.sra n rd rs1 rs2) s = .next t ∧
      t = withScalar s n 1 rd.val ((sval s n rs1.val).sshiftRight ((sval s n rs2.val).toNat % 64))

/-- SLT (R121): latency 1; no other part of the state changes. -/
def sltResult : Prop :=
  ∀ (s : State) (n : TileId) (rd rs1 rs2 : Reg),
    s.domOn n.val = true →
    s.marked n.val false rs1.val = false →
    s.marked n.val false rs2.val = false →
    ∃ t, Sys2Proof.Machine.exec (.slt n rd rs1 rs2) s = .next t ∧
      t = withScalar s n 1 rd.val (if (sval s n rs1.val).slt (sval s n rs2.val) then 1 else 0)

/-- SLTU (R121): latency 1; no other part of the state changes. -/
def sltuResult : Prop :=
  ∀ (s : State) (n : TileId) (rd rs1 rs2 : Reg),
    s.domOn n.val = true →
    s.marked n.val false rs1.val = false →
    s.marked n.val false rs2.val = false →
    ∃ t, Sys2Proof.Machine.exec (.sltu n rd rs1 rs2) s = .next t ∧
      t = withScalar s n 1 rd.val (if (sval s n rs1.val).ult (sval s n rs2.val) then 1 else 0)

/-- MUL (R121): latency 3; no other part of the state changes. -/
def mulResult : Prop :=
  ∀ (s : State) (n : TileId) (rd rs1 rs2 : Reg),
    s.domOn n.val = true →
    s.marked n.val false rs1.val = false →
    s.marked n.val false rs2.val = false →
    ∃ t, Sys2Proof.Machine.exec (.mul n rd rs1 rs2) s = .next t ∧
      t = withScalar s n 3 rd.val (sval s n rs1.val * sval s n rs2.val)

/-- MULH (R121): latency 3; no other part of the state changes. -/
def mulhResult : Prop :=
  ∀ (s : State) (n : TileId) (rd rs1 rs2 : Reg),
    s.domOn n.val = true →
    s.marked n.val false rs1.val = false →
    s.marked n.val false rs2.val = false →
    ∃ t, Sys2Proof.Machine.exec (.mulh n rd rs1 rs2) s = .next t ∧
      t = withScalar s n 3 rd.val (BitVec.ofInt 64 ((sval s n rs1.val).toInt * (sval s n rs2.val).toInt / 2 ^ 64))

/-- The compact MOV (R121). -/
def compactMovResult : Prop :=
  ∀ (s : State) (n : TileId) (rd rs1 : Fin 16),
    s.domOn n.val = true →
    s.marked n.val false rs1.val = false →
    ∃ t, Sys2Proof.Machine.exec (.compactMov n rd rs1) s = .next t ∧
      t = withScalar s n 1 rd.val (sval s n rs1.val)

/-- SELNZ (R121): RD takes RS1 when RS2 is not zero; else nothing changes. -/
def selnzResult : Prop :=
  ∀ (s : State) (n : TileId) (rd rs1 rs2 : Reg),
    s.domOn n.val = true →
    s.marked n.val false rs1.val = false →
    s.marked n.val false rs2.val = false →
    ∃ t, Sys2Proof.Machine.exec (.selnz n rd rs1 rs2) s = .next t ∧
      t = if sval s n rs2.val ≠ 0 then withScalar s n 1 rd.val (sval s n rs1.val) else s

/-- ADDI (R121): IMM15 is sign-extended. -/
def addiResult : Prop :=
  ∀ (s : State) (n : TileId) (rd rs1 : Reg) (imm : BitVec 15),
    s.domOn n.val = true →
    s.marked n.val false rs1.val = false →
    ∃ t, Sys2Proof.Machine.exec (.addi n rd rs1 imm) s = .next t ∧
      t = withScalar s n 1 rd.val (sval s n rs1.val + imm.signExtend 64)

/-- ANDI (R121): IMM15 is sign-extended. -/
def andiResult : Prop :=
  ∀ (s : State) (n : TileId) (rd rs1 : Reg) (imm : BitVec 15),
    s.domOn n.val = true →
    s.marked n.val false rs1.val = false →
    ∃ t, Sys2Proof.Machine.exec (.andi n rd rs1 imm) s = .next t ∧
      t = withScalar s n 1 rd.val (sval s n rs1.val &&& imm.signExtend 64)

/-- ORI (R121): IMM15 is sign-extended. -/
def oriResult : Prop :=
  ∀ (s : State) (n : TileId) (rd rs1 : Reg) (imm : BitVec 15),
    s.domOn n.val = true →
    s.marked n.val false rs1.val = false →
    ∃ t, Sys2Proof.Machine.exec (.ori n rd rs1 imm) s = .next t ∧
      t = withScalar s n 1 rd.val (sval s n rs1.val ||| imm.signExtend 64)

/-- XORI (R121): IMM15 is sign-extended. -/
def xoriResult : Prop :=
  ∀ (s : State) (n : TileId) (rd rs1 : Reg) (imm : BitVec 15),
    s.domOn n.val = true →
    s.marked n.val false rs1.val = false →
    ∃ t, Sys2Proof.Machine.exec (.xori n rd rs1 imm) s = .next t ∧
      t = withScalar s n 1 rd.val (sval s n rs1.val ^^^ imm.signExtend 64)

/-- SHORI (R121): IMM15 is zero-extended. -/
def shoriResult : Prop :=
  ∀ (s : State) (n : TileId) (rd rs1 : Reg) (imm : BitVec 15),
    s.domOn n.val = true →
    s.marked n.val false rs1.val = false →
    ∃ t, Sys2Proof.Machine.exec (.shori n rd rs1 imm) s = .next t ∧
      t = withScalar s n 1 rd.val ((sval s n rs1.val <<< 15) ||| imm.setWidth 64)

/-- SLLI (R121). -/
def slliResult : Prop :=
  ∀ (s : State) (n : TileId) (rd rs1 : Reg) (sh : BitVec 6),
    s.domOn n.val = true →
    s.marked n.val false rs1.val = false →
    ∃ t, Sys2Proof.Machine.exec (.slli n rd rs1 sh) s = .next t ∧
      t = withScalar s n 1 rd.val (sval s n rs1.val <<< sh.toNat)

/-- SRLI (R121). -/
def srliResult : Prop :=
  ∀ (s : State) (n : TileId) (rd rs1 : Reg) (sh : BitVec 6),
    s.domOn n.val = true →
    s.marked n.val false rs1.val = false →
    ∃ t, Sys2Proof.Machine.exec (.srli n rd rs1 sh) s = .next t ∧
      t = withScalar s n 1 rd.val (sval s n rs1.val >>> sh.toNat)

/-- SRAI (R121). -/
def sraiResult : Prop :=
  ∀ (s : State) (n : TileId) (rd rs1 : Reg) (sh : BitVec 6),
    s.domOn n.val = true →
    s.marked n.val false rs1.val = false →
    ∃ t, Sys2Proof.Machine.exec (.srai n rd rs1 sh) s = .next t ∧
      t = withScalar s n 1 rd.val ((sval s n rs1.val).sshiftRight sh.toNat)

end Sys2Proof.Machine.Claims

/-- Scalar arithmetic, logic, shifts and moves -/
def Obligations.ScalarArithmeticResults : Prop :=
  Sys2Proof.Machine.Claims.addResult ∧ Sys2Proof.Machine.Claims.compactAddResult ∧ Sys2Proof.Machine.Claims.subResult ∧
    Sys2Proof.Machine.Claims.compactSubResult ∧ Sys2Proof.Machine.Claims.andOpResult ∧ Sys2Proof.Machine.Claims.compactAndResult ∧
    Sys2Proof.Machine.Claims.orOpResult ∧ Sys2Proof.Machine.Claims.compactOrResult ∧ Sys2Proof.Machine.Claims.xorOpResult ∧
    Sys2Proof.Machine.Claims.compactXorResult ∧ Sys2Proof.Machine.Claims.sllResult ∧ Sys2Proof.Machine.Claims.compactSllResult ∧
    Sys2Proof.Machine.Claims.srlResult ∧ Sys2Proof.Machine.Claims.compactSrlResult ∧ Sys2Proof.Machine.Claims.sraResult ∧
    Sys2Proof.Machine.Claims.sltResult ∧ Sys2Proof.Machine.Claims.sltuResult ∧ Sys2Proof.Machine.Claims.mulResult ∧
    Sys2Proof.Machine.Claims.mulhResult ∧ Sys2Proof.Machine.Claims.compactMovResult ∧ Sys2Proof.Machine.Claims.selnzResult ∧
    Sys2Proof.Machine.Claims.addiResult ∧ Sys2Proof.Machine.Claims.andiResult ∧ Sys2Proof.Machine.Claims.oriResult ∧
    Sys2Proof.Machine.Claims.xoriResult ∧ Sys2Proof.Machine.Claims.shoriResult ∧ Sys2Proof.Machine.Claims.slliResult ∧
    Sys2Proof.Machine.Claims.srliResult ∧ Sys2Proof.Machine.Claims.sraiResult

/-! Scalar loads, stores and atomics -/

namespace Sys2Proof.Machine.Claims

/-- LD (R122, R88): the naturally aligned value is on its way; the rest of the state is unchanged. -/
def ldLoads : Prop :=
  ∀ (s : State) (n : TileId) (rd rs1 : Reg) (imm : BitVec 15),
    s.domOn n.val = true →
    s.marked n.val false rs1.val = false →
    loadAddr s n rs1.val imm % 8 = 0 →
    loadAddr s n rs1.val imm + 8 ≤ 0x300000 →
    soundStore s = true →
    s.bankOn n.val (loadAddr s n rs1.val imm / 0x30000) = true →
    ∃ t, Sys2Proof.Machine.exec (.ld n rd rs1 imm) s = .next t ∧
      t = withTracked s n 3 false (markOf rd.val) 0 [.sreg rd.val (BitVec.ofNat 64 (ofBytes (s.bytes (State.own n.val (loadAddr s n rs1.val imm)) 8)))] (some (loadAddr s n rs1.val imm, 8, 0))

/-- LW (R122, R88): the naturally aligned value is on its way; the rest of the state is unchanged. -/
def lwLoads : Prop :=
  ∀ (s : State) (n : TileId) (rd rs1 : Reg) (imm : BitVec 15),
    s.domOn n.val = true →
    s.marked n.val false rs1.val = false →
    loadAddr s n rs1.val imm % 4 = 0 →
    loadAddr s n rs1.val imm + 4 ≤ 0x300000 →
    soundStore s = true →
    s.bankOn n.val (loadAddr s n rs1.val imm / 0x30000) = true →
    ∃ t, Sys2Proof.Machine.exec (.lw n rd rs1 imm) s = .next t ∧
      t = withTracked s n 3 false (markOf rd.val) 0 [.sreg rd.val ((BitVec.ofNat 32 (ofBytes (s.bytes (State.own n.val (loadAddr s n rs1.val imm)) 4))).signExtend 64)] (some (loadAddr s n rs1.val imm, 4, 1))

/-- LWU (R122, R88): the naturally aligned value is on its way; the rest of the state is unchanged. -/
def lwuLoads : Prop :=
  ∀ (s : State) (n : TileId) (rd rs1 : Reg) (imm : BitVec 15),
    s.domOn n.val = true →
    s.marked n.val false rs1.val = false →
    loadAddr s n rs1.val imm % 4 = 0 →
    loadAddr s n rs1.val imm + 4 ≤ 0x300000 →
    soundStore s = true →
    s.bankOn n.val (loadAddr s n rs1.val imm / 0x30000) = true →
    ∃ t, Sys2Proof.Machine.exec (.lwu n rd rs1 imm) s = .next t ∧
      t = withTracked s n 3 false (markOf rd.val) 0 [.sreg rd.val (BitVec.ofNat 64 (ofBytes (s.bytes (State.own n.val (loadAddr s n rs1.val imm)) 4)))] (some (loadAddr s n rs1.val imm, 4, 2))

/-- SD (R122): exactly the bytes of the naturally aligned value are stored. -/
def sdStores : Prop :=
  ∀ (s : State) (n : TileId) (rd rs1 : Reg) (imm : BitVec 15),
    s.marked n.val false rd.val = false →
    s.domOn n.val = true →
    s.marked n.val false rs1.val = false →
    loadAddr s n rs1.val imm % 8 = 0 →
    loadAddr s n rs1.val imm + 8 ≤ 0x300000 →
    soundStore s = true →
    s.bankOn n.val (loadAddr s n rs1.val imm / 0x30000) = true →
    ∃ t, Sys2Proof.Machine.exec (.sd n rd rs1 imm) s = .next t ∧
      t.bytes (State.own n.val (loadAddr s n rs1.val imm)) 8 = toBytes 8 (s.sreg n.val rd.val)
      ∧ s.OnlyBytes (State.own n.val (loadAddr s n rs1.val imm)) 8 t ∧ t.regs = s.regs ∧ t.tiles = s.tiles ∧ t.out = s.out ∧ t.flips = s.flips

/-- SW (R122): exactly the bytes of the naturally aligned value are stored. -/
def swStores : Prop :=
  ∀ (s : State) (n : TileId) (rd rs1 : Reg) (imm : BitVec 15),
    s.marked n.val false rd.val = false →
    s.domOn n.val = true →
    s.marked n.val false rs1.val = false →
    loadAddr s n rs1.val imm % 4 = 0 →
    loadAddr s n rs1.val imm + 4 ≤ 0x300000 →
    soundStore s = true →
    s.bankOn n.val (loadAddr s n rs1.val imm / 0x30000) = true →
    ∃ t, Sys2Proof.Machine.exec (.sw n rd rs1 imm) s = .next t ∧
      t.bytes (State.own n.val (loadAddr s n rs1.val imm)) 4 = toBytes 4 (s.sreg n.val rd.val)
      ∧ s.OnlyBytes (State.own n.val (loadAddr s n rs1.val imm)) 4 t ∧ t.regs = s.regs ∧ t.tiles = s.tiles ∧ t.out = s.out ∧ t.flips = s.flips

/-- A misaligned SD stores nothing and sets ERR of the tile's lane (the model's choice, log entry 14). -/
def misalignedStoreDiscarded : Prop :=
  ∀ (s : State) (n : TileId) (rd rs1 : Reg) (imm : BitVec 15),
    s.canonical = true →
    s.domOn n.val = true →
    s.marked n.val false rd.val = false →
    s.marked n.val false rs1.val = false →
    loadAddr s n rs1.val imm % 8 ≠ 0 →
    ∃ t, Sys2Proof.Machine.exec (.sd n rd rs1 imm) s = .next t ∧
      t.get (Reg.HDR.BLK_STAT.ERR (lanePg n.val)) = 1 ∧ s.OnlyNotices ([Reg.HDR.BLK_STAT.ERR (lanePg n.val)] ++ irqFields (lanePg n.val)) t

/-- ATOM AddI32 (R112, R113): the stored word takes the operation's result and the previous value is on its way to RD. -/
def atomAddI32 : Prop :=
  ∀ (s : State) (n : TileId) (rd rs1 rs2 : Reg),
    s.domOn n.val = true →
    s.marked n.val false rs1.val = false →
    s.marked n.val false rs2.val = false →
    s.sreg n.val rs1.val % 4 = 0 →
    s.sreg n.val rs1.val + 4 ≤ 0x300000 →
    soundStore s = true →
    s.bankOn n.val (s.sreg n.val rs1.val / 0x30000) = true →
    ∃ t, Sys2Proof.Machine.exec (.atom n 0 rd rs1 rs2) s = .next t ∧
      t.bytes (State.own n.val (s.sreg n.val rs1.val)) 4 = toBytes 4 (atomResult 0 (ofBytes (s.bytes (State.own n.val (s.sreg n.val rs1.val)) 4)) (s.sreg n.val rs2.val)) ∧ s.OnlyBytes (State.own n.val (s.sreg n.val rs1.val)) 4 t ∧ t.regs = s.regs
      ∧ t.tile n.val = (withTracked s n 4 false (markOf rd.val) 0 [.sreg rd.val (BitVec.ofNat 64 (ofBytes (s.bytes (State.own n.val (s.sreg n.val rs1.val)) 4)))] none).tile n.val ∧ s.SameTiles n.val t

/-- ATOM AddI64 (R112, R113): the stored word takes the operation's result and the previous value is on its way to RD. -/
def atomAddI64 : Prop :=
  ∀ (s : State) (n : TileId) (rd rs1 rs2 : Reg),
    s.domOn n.val = true →
    s.marked n.val false rs1.val = false →
    s.marked n.val false rs2.val = false →
    s.sreg n.val rs1.val % 8 = 0 →
    s.sreg n.val rs1.val + 8 ≤ 0x300000 →
    soundStore s = true →
    s.bankOn n.val (s.sreg n.val rs1.val / 0x30000) = true →
    ∃ t, Sys2Proof.Machine.exec (.atom n 1 rd rs1 rs2) s = .next t ∧
      t.bytes (State.own n.val (s.sreg n.val rs1.val)) 8 = toBytes 8 (atomResult 1 (ofBytes (s.bytes (State.own n.val (s.sreg n.val rs1.val)) 8)) (s.sreg n.val rs2.val)) ∧ s.OnlyBytes (State.own n.val (s.sreg n.val rs1.val)) 8 t ∧ t.regs = s.regs
      ∧ t.tile n.val = (withTracked s n 4 false (markOf rd.val) 0 [.sreg rd.val (BitVec.ofNat 64 (ofBytes (s.bytes (State.own n.val (s.sreg n.val rs1.val)) 8)))] none).tile n.val ∧ s.SameTiles n.val t

/-- ATOM AddF32 (R112, R113): the stored word takes the operation's result and the previous value is on its way to RD. -/
def atomAddF32 : Prop :=
  ∀ (s : State) (n : TileId) (rd rs1 rs2 : Reg),
    s.domOn n.val = true →
    s.marked n.val false rs1.val = false →
    s.marked n.val false rs2.val = false →
    s.sreg n.val rs1.val % 4 = 0 →
    s.sreg n.val rs1.val + 4 ≤ 0x300000 →
    soundStore s = true →
    s.bankOn n.val (s.sreg n.val rs1.val / 0x30000) = true →
    ∃ t, Sys2Proof.Machine.exec (.atom n 2 rd rs1 rs2) s = .next t ∧
      t.bytes (State.own n.val (s.sreg n.val rs1.val)) 4 = toBytes 4 (atomResult 2 (ofBytes (s.bytes (State.own n.val (s.sreg n.val rs1.val)) 4)) (s.sreg n.val rs2.val)) ∧ s.OnlyBytes (State.own n.val (s.sreg n.val rs1.val)) 4 t ∧ t.regs = s.regs
      ∧ t.tile n.val = (withTracked s n 4 false (markOf rd.val) 0 [.sreg rd.val (BitVec.ofNat 64 (ofBytes (s.bytes (State.own n.val (s.sreg n.val rs1.val)) 4)))] none).tile n.val ∧ s.SameTiles n.val t

/-- ATOM Add2Bf16 (R112, R113): the stored word takes the operation's result and the previous value is on its way to RD. -/
def atomAdd2Bf16 : Prop :=
  ∀ (s : State) (n : TileId) (rd rs1 rs2 : Reg),
    s.domOn n.val = true →
    s.marked n.val false rs1.val = false →
    s.marked n.val false rs2.val = false →
    s.sreg n.val rs1.val % 4 = 0 →
    s.sreg n.val rs1.val + 4 ≤ 0x300000 →
    soundStore s = true →
    s.bankOn n.val (s.sreg n.val rs1.val / 0x30000) = true →
    ∃ t, Sys2Proof.Machine.exec (.atom n 3 rd rs1 rs2) s = .next t ∧
      t.bytes (State.own n.val (s.sreg n.val rs1.val)) 4 = toBytes 4 (atomResult 3 (ofBytes (s.bytes (State.own n.val (s.sreg n.val rs1.val)) 4)) (s.sreg n.val rs2.val)) ∧ s.OnlyBytes (State.own n.val (s.sreg n.val rs1.val)) 4 t ∧ t.regs = s.regs
      ∧ t.tile n.val = (withTracked s n 4 false (markOf rd.val) 0 [.sreg rd.val (BitVec.ofNat 64 (ofBytes (s.bytes (State.own n.val (s.sreg n.val rs1.val)) 4)))] none).tile n.val ∧ s.SameTiles n.val t

/-- ATOM Swap64 (R112, R113): the stored word takes the operation's result and the previous value is on its way to RD. -/
def atomSwap64 : Prop :=
  ∀ (s : State) (n : TileId) (rd rs1 rs2 : Reg),
    s.domOn n.val = true →
    s.marked n.val false rs1.val = false →
    s.marked n.val false rs2.val = false →
    s.sreg n.val rs1.val % 8 = 0 →
    s.sreg n.val rs1.val + 8 ≤ 0x300000 →
    soundStore s = true →
    s.bankOn n.val (s.sreg n.val rs1.val / 0x30000) = true →
    ∃ t, Sys2Proof.Machine.exec (.atom n 4 rd rs1 rs2) s = .next t ∧
      t.bytes (State.own n.val (s.sreg n.val rs1.val)) 8 = toBytes 8 (atomResult 4 (ofBytes (s.bytes (State.own n.val (s.sreg n.val rs1.val)) 8)) (s.sreg n.val rs2.val)) ∧ s.OnlyBytes (State.own n.val (s.sreg n.val rs1.val)) 8 t ∧ t.regs = s.regs
      ∧ t.tile n.val = (withTracked s n 4 false (markOf rd.val) 0 [.sreg rd.val (BitVec.ofNat 64 (ofBytes (s.bytes (State.own n.val (s.sreg n.val rs1.val)) 8)))] none).tile n.val ∧ s.SameTiles n.val t

/-- ATOM DelayStep (R112, R113): the stored word takes the operation's result and the previous value is on its way to RD. -/
def atomDelayStep : Prop :=
  ∀ (s : State) (n : TileId) (rd rs1 rs2 : Reg),
    s.domOn n.val = true →
    s.marked n.val false rs1.val = false →
    s.marked n.val false rs2.val = false →
    s.sreg n.val rs1.val % 8 = 0 →
    s.sreg n.val rs1.val + 8 ≤ 0x300000 →
    soundStore s = true →
    s.bankOn n.val (s.sreg n.val rs1.val / 0x30000) = true →
    ∃ t, Sys2Proof.Machine.exec (.atom n 5 rd rs1 rs2) s = .next t ∧
      t.bytes (State.own n.val (s.sreg n.val rs1.val)) 8 = toBytes 8 (atomResult 5 (ofBytes (s.bytes (State.own n.val (s.sreg n.val rs1.val)) 8)) (s.sreg n.val rs2.val)) ∧ s.OnlyBytes (State.own n.val (s.sreg n.val rs1.val)) 8 t ∧ t.regs = s.regs
      ∧ t.tile n.val = (withTracked s n 4 false (markOf rd.val) 0 [.sreg rd.val (BitVec.ofNat 64 (ofBytes (s.bytes (State.own n.val (s.sreg n.val rs1.val)) 8)))] none).tile n.val ∧ s.SameTiles n.val t

end Sys2Proof.Machine.Claims

/-- Scalar loads, stores and atomics -/
def Obligations.ScalarMemoryResults : Prop :=
  Sys2Proof.Machine.Claims.ldLoads ∧ Sys2Proof.Machine.Claims.lwLoads ∧ Sys2Proof.Machine.Claims.lwuLoads ∧ Sys2Proof.Machine.Claims.sdStores ∧
    Sys2Proof.Machine.Claims.swStores ∧ Sys2Proof.Machine.Claims.misalignedStoreDiscarded ∧ Sys2Proof.Machine.Claims.atomAddI32 ∧
    Sys2Proof.Machine.Claims.atomAddI64 ∧ Sys2Proof.Machine.Claims.atomAddF32 ∧ Sys2Proof.Machine.Claims.atomAdd2Bf16 ∧
    Sys2Proof.Machine.Claims.atomSwap64 ∧ Sys2Proof.Machine.Claims.atomDelayStep

/-! Scalar moves from vectors and control registers, marked sources, results that fall due -/

namespace Sys2Proof.Machine.Claims

/-- MFV of a 32-bit lane (R121). -/
def mfvLane : Prop :=
  ∀ (s : State) (n : TileId) (rd vs : Reg) (idx : BitVec 8),
    s.domOn n.val = true →
    s.marked n.val true vs.val = false →
    idx.toNat < 128 →
    ∃ t, Sys2Proof.Machine.exec (.mfv n rd vs false idx) s = .next t ∧
      t = withScalar s n 3 rd.val (BitVec.ofNat 64 (s.vlane n.val vs.val idx.toNat))

/-- MFV of a 16-bit element (R121). -/
def mfvHalf : Prop :=
  ∀ (s : State) (n : TileId) (rd vs : Reg) (idx : BitVec 8),
    s.domOn n.val = true →
    s.marked n.val true vs.val = false →
    ∃ t, Sys2Proof.Machine.exec (.mfv n rd vs true idx) s = .next t ∧
      t = withScalar s n 3 rd.val (BitVec.ofNat 64 (s.vlane n.val vs.val (idx.toNat / 2) / 65536 ^ (idx.toNat % 2) % 65536))

/-- MFV of a lane above 127 is illegal (R81): ILLEGAL_OP. -/
def mfvIllegal : Prop :=
  ∀ (s : State) (n : TileId) (rd vs : Reg) (idx : BitVec 8),
    s.canonical = true →
    s.domOn n.val = true →
    128 ≤ idx.toNat →
    s.laneHeld n.val = false →
    ∃ t, Sys2Proof.Machine.exec (.mfv n rd vs false idx) s = .next t ∧
      t.get (Reg.LANE.LANE_FAULT.CAUSE n.val) = 0xB ∧ t.get (Reg.HDR.BLK_STAT.ERR (lanePg n.val)) = 1 ∧ t.tiles = s.tiles ∧ t.mem = s.mem

/-- RDCSR (R121, R123): the tile's number, its launch count, or the CCLK cycles since its domain came ON. -/
def rdcsrResult : Prop :=
  ∀ (s : State) (n : TileId) (rd : Reg) (csr : Fin 3),
    s.domOn n.val = true →
    (s.tile n.val).cclk0 ≤ (if n.val < 128 then s.cclkW else s.cclkE) →
    ∃ t, Sys2Proof.Machine.exec (.rdcsr n rd csr) s = .next t ∧
      t = withScalar s n 1 rd.val (BitVec.ofNat 64 (if csr.val = 0 then n.val else if csr.val = 1 then s.get (Reg.LANE.LANE_CNT.CNT n.val) else (if n.val < 128 then s.cclkW else s.cclkE) - (s.tile n.val).cclk0))

/-- A slot that reads a marked register (R88): LANE_HAZARD, and an active stream fault-halts. -/
def markedSourceHalts : Prop :=
  ∀ (s : State) (n : TileId) (rd rs1 rs2 : Reg),
    s.canonical = true →
    s.domOn n.val = true →
    s.marked n.val false rs1.val = true →
    s.laneHeld n.val = false →
    ∃ t, Sys2Proof.Machine.exec (.add n rd rs1 rs2) s = .next t ∧
      t.get (Reg.LANE.LANE_FAULT.CAUSE n.val) = 8 ∧ t.get (Reg.LANE.LANE_FAULT.INDEX n.val) = low 14 (s.laneIndex n.val) ∧ t.get (Reg.HDR.BLK_STAT.ERR (lanePg n.val)) = 1 ∧ (s.streamActive = true → t.stream = State.stFaulted) ∧ t.mem = s.mem

/-- LAUNCH_WORD (R75, R123): a scalar result lands in the launch period in which it falls due; no other register of the tile changes. -/
def dueResultLands : Prop :=
  ∀ (s : State) (n : TileId) (r since : Nat) (v : Word64),
    s.canonical = true →
    s.pageUp (pageAt pgISSUE) = true →
    s.stream ≠ State.stRunning →
    s.stream ≠ State.stWaiting →
    s.issue.gos = [] →
    s.issue.ending = none →
    s.phase = 0 →
    s.fabricsHeld = true →
    (s.tile n.val).due = [⟨2 * (s.issue.period + 1), since, .sreg r v⟩] →
    r ≠ 0 →
    ∃ t, Sys2Proof.Machine.exec (.launchWord) s = .next t ∧
      t.sreg n.val r = v.toNat ∧ (t.tile n.val).due = [] ∧ t.issue.period = s.issue.period + 1 ∧ (∀ q ∈ List.range 32, q ≠ r → t.sreg n.val q = s.sreg n.val q) ∧ t.mem = s.mem

end Sys2Proof.Machine.Claims

/-- Scalar moves from vectors and control registers, marked sources, results that fall due -/
def Obligations.ScalarMovesAndMarks : Prop :=
  Sys2Proof.Machine.Claims.mfvLane ∧ Sys2Proof.Machine.Claims.mfvHalf ∧ Sys2Proof.Machine.Claims.mfvIllegal ∧ Sys2Proof.Machine.Claims.rdcsrResult ∧
    Sys2Proof.Machine.Claims.markedSourceHalts ∧ Sys2Proof.Machine.Claims.dueResultLands

/-! Vector arithmetic and elementary functions -/

namespace Sys2Proof.Machine.Claims

/-- The pairs a vector result writes: each selected lane with its value (R125). -/
def lanePairs (sel : Nat) (f : Nat → Nat) : List (Nat × Word32) := (lanes.filter fun i => sel.testBit i).map fun i => (i, BitVec.ofNat 32 (f i))

/-- A lane of an element-wise operation: one FP32 or INT32 element, or two BF16 elements (R124). -/
def lane1 (ty : VType) (f : Nat → Nat) (x : Nat) : Nat := if ty = .bf16 then f (x % 65536) + 65536 * f (x / 65536) else f x
def lane2 (ty : VType) (f : Nat → Nat → Nat) (x y : Nat) : Nat :=
  if ty = .bf16 then f (x % 65536) (y % 65536) + 65536 * f (x / 65536) (y / 65536) else f x y
def lane3 (ty : VType) (f : Nat → Nat → Nat → Nat) (x y z : Nat) : Nat :=
  if ty = .bf16 then f (x % 65536) (y % 65536) (z % 65536) + 65536 * f (x / 65536) (y / 65536) (z / 65536) else f x y z

/-- The sticky flags of the vector unit (R127). -/
def vecFlagFields (n : TileId) : List Field := [Reg.VECTOR.VEC_FLAGS.INVALID n.val, Reg.VECTOR.VEC_FLAGS.OVERFLOW n.val, Reg.VECTOR.VEC_FLAGS.DIVZERO n.val]

/-- From s to t only VEC_FLAGS of tile n change and these results are on their way, `lat` cycles from now. -/
def vectorDone (s t : State) (n : TileId) (lat : Nat) (rs : List Result) : Prop :=
  t.tiles = (s.modTile n.val fun x => { x with due := x.due ++ rs.map fun r => ⟨2 * s.issue.period + lat * s.halves n.val, s.issue.period, r⟩ }).tiles
    ∧ s.OnlyFields (vecFlagFields n) { t with tiles := s.tiles }

/-- A mask of 128 bits, bit by bit. -/
def maskOf (f : Nat → Bool) : Word128 := BitVec.ofNat 128 (lanes.foldl (fun v i => if f i then v + 2 ^ i else v) 0)

/-- VADD (R125). -/
def vaddResult : Prop :=
  ∀ (s : State) (n : TileId) (ty : VType) (vd va vb : Reg) (mask : Fin 8),
    s.domOn n.val = true →
    s.marked n.val true va.val = false →
    s.marked n.val true vb.val = false →
    ∃ t, Sys2Proof.Machine.exec (.vadd n ty vd va vb mask) s = .next t ∧
      vectorDone s t n 4 [.vreg vd.val (lanePairs (s.maskBits n.val mask.val) fun i => lane2 ty (fun a b => (eAdd ty a b).1) (s.vlane n.val va.val i) (s.vlane n.val vb.val i))]

/-- VSUB (R125). -/
def vsubResult : Prop :=
  ∀ (s : State) (n : TileId) (ty : VType) (vd va vb : Reg) (mask : Fin 8),
    s.domOn n.val = true →
    s.marked n.val true va.val = false →
    s.marked n.val true vb.val = false →
    ∃ t, Sys2Proof.Machine.exec (.vsub n ty vd va vb mask) s = .next t ∧
      vectorDone s t n 4 [.vreg vd.val (lanePairs (s.maskBits n.val mask.val) fun i => lane2 ty (fun a b => (eSub ty a b).1) (s.vlane n.val va.val i) (s.vlane n.val vb.val i))]

/-- VMUL (R125). -/
def vmulResult : Prop :=
  ∀ (s : State) (n : TileId) (ty : VType) (vd va vb : Reg) (mask : Fin 8),
    s.domOn n.val = true →
    s.marked n.val true va.val = false →
    s.marked n.val true vb.val = false →
    ty ≠ .int32 →
    ∃ t, Sys2Proof.Machine.exec (.vmul n ty vd va vb mask) s = .next t ∧
      vectorDone s t n 4 [.vreg vd.val (lanePairs (s.maskBits n.val mask.val) fun i => lane2 ty (fun a b => (eMul ty a b).1) (s.vlane n.val va.val i) (s.vlane n.val vb.val i))]

/-- VMAX (R125). -/
def vmaxResult : Prop :=
  ∀ (s : State) (n : TileId) (ty : VType) (vd va vb : Reg) (mask : Fin 8),
    s.domOn n.val = true →
    s.marked n.val true va.val = false →
    s.marked n.val true vb.val = false →
    ∃ t, Sys2Proof.Machine.exec (.vmax n ty vd va vb mask) s = .next t ∧
      vectorDone s t n 4 [.vreg vd.val (lanePairs (s.maskBits n.val mask.val) fun i => lane2 ty (fun a b => (eMaxMin false ty a b).1) (s.vlane n.val va.val i) (s.vlane n.val vb.val i))]

/-- VMIN (R125). -/
def vminResult : Prop :=
  ∀ (s : State) (n : TileId) (ty : VType) (vd va vb : Reg) (mask : Fin 8),
    s.domOn n.val = true →
    s.marked n.val true va.val = false →
    s.marked n.val true vb.val = false →
    ∃ t, Sys2Proof.Machine.exec (.vmin n ty vd va vb mask) s = .next t ∧
      vectorDone s t n 4 [.vreg vd.val (lanePairs (s.maskBits n.val mask.val) fun i => lane2 ty (fun a b => (eMaxMin true ty a b).1) (s.vlane n.val va.val i) (s.vlane n.val vb.val i))]

/-- VFMA (R125). -/
def vfmaResult : Prop :=
  ∀ (s : State) (n : TileId) (ty : VType) (vd va vb vc : Reg) (mask : Fin 8) (neg : Bool),
    s.domOn n.val = true →
    s.marked n.val true va.val = false →
    s.marked n.val true vb.val = false →
    s.marked n.val true vc.val = false →
    ty ≠ .int32 →
    ∃ t, Sys2Proof.Machine.exec (.vfma n ty vd va vb mask vc neg) s = .next t ∧
      vectorDone s t n 4 [.vreg vd.val (lanePairs (s.maskBits n.val mask.val) fun i => lane3 ty (fun a b c => (eFma neg ty a b c).1) (s.vlane n.val va.val i) (s.vlane n.val vb.val i) (s.vlane n.val vc.val i))]

/-- VLERP (R125, R127). -/
def vlerpResult : Prop :=
  ∀ (s : State) (n : TileId) (ty : VType) (vd va vb : Reg) (mask : Fin 8) (k : Fin 16),
    s.domOn n.val = true →
    s.marked n.val true va.val = false →
    s.marked n.val true vb.val = false →
    ty ≠ .int32 →
    ∃ t, Sys2Proof.Machine.exec (.vlerp n ty vd va vb mask k) s = .next t ∧
      vectorDone s t n 4 [.vreg vd.val (lanePairs (s.maskBits n.val mask.val) fun i => lane2 ty (fun a b => (flerp (fmtOf ty) (s.get (Reg.VECTOR.KREG.VALUE n.val k.val)) a b).1) (s.vlane n.val va.val i) (s.vlane n.val vb.val i))]

/-- VRMS (R125, R127). -/
def vrmsResult : Prop :=
  ∀ (s : State) (n : TileId) (ty : VType) (vd va vb : Reg) (mask : Fin 8) (k : Fin 16),
    s.domOn n.val = true →
    s.marked n.val true va.val = false →
    s.marked n.val true vb.val = false →
    ty ≠ .int32 →
    ∃ t, Sys2Proof.Machine.exec (.vrms n ty vd va vb mask k) s = .next t ∧
      vectorDone s t n 8 [.vreg vd.val (lanePairs (s.maskBits n.val mask.val) fun i => lane2 ty (fun a b => (fromF ty (vrms (s.get (Reg.VECTOR.KREG.VALUE n.val k.val)) (toF ty a) (toF ty b))).1) (s.vlane n.val va.val i) (s.vlane n.val vb.val i))]

/-- VDIVE (R125, R127). -/
def vdiveResult : Prop :=
  ∀ (s : State) (n : TileId) (ty : VType) (vd va vb : Reg) (mask : Fin 8) (k : Fin 16),
    s.domOn n.val = true →
    s.marked n.val true va.val = false →
    s.marked n.val true vb.val = false →
    ty ≠ .int32 →
    k.val ≤ 14 →
    ∃ t, Sys2Proof.Machine.exec (.vdive n ty vd va vb mask k) s = .next t ∧
      vectorDone s t n 10 [.vreg vd.val (lanePairs (s.maskBits n.val mask.val) fun i => lane2 ty (fun a b => (fromF ty (vdive (s.get (Reg.VECTOR.KREG.VALUE n.val k.val)) (s.get (Reg.VECTOR.KREG.VALUE n.val (k.val + 1))) (toF ty a) (toF ty b))).1) (s.vlane n.val va.val i) (s.vlane n.val vb.val i))]

/-- VRCP (R125, R127). -/
def vrcpResult : Prop :=
  ∀ (s : State) (n : TileId) (ty : VType) (vd va : Reg) (mask : Fin 8),
    s.domOn n.val = true →
    s.marked n.val true va.val = false →
    ty ≠ .int32 →
    ∃ t, Sys2Proof.Machine.exec (.vrcp n ty vd va mask) s = .next t ∧
      vectorDone s t n 8 [.vreg vd.val (lanePairs (s.maskBits n.val mask.val) fun i => lane1 ty (fun a => (fromF ty (Sys2Proof.Machine.vrcp (toF ty a))).1) (s.vlane n.val va.val i))]

/-- VRSQRT (R125, R127). -/
def vrsqrtResult : Prop :=
  ∀ (s : State) (n : TileId) (ty : VType) (vd va : Reg) (mask : Fin 8),
    s.domOn n.val = true →
    s.marked n.val true va.val = false →
    ty ≠ .int32 →
    ∃ t, Sys2Proof.Machine.exec (.vrsqrt n ty vd va mask) s = .next t ∧
      vectorDone s t n 8 [.vreg vd.val (lanePairs (s.maskBits n.val mask.val) fun i => lane1 ty (fun a => (fromF ty (Sys2Proof.Machine.vrsqrt (toF ty a))).1) (s.vlane n.val va.val i))]

/-- VEXP2 (R125, R127). -/
def vexp2Result : Prop :=
  ∀ (s : State) (n : TileId) (ty : VType) (vd va : Reg) (mask : Fin 8),
    s.domOn n.val = true →
    s.marked n.val true va.val = false →
    ty ≠ .int32 →
    ∃ t, Sys2Proof.Machine.exec (.vexp2 n ty vd va mask) s = .next t ∧
      vectorDone s t n 8 [.vreg vd.val (lanePairs (s.maskBits n.val mask.val) fun i => lane1 ty (fun a => (fromF ty (Sys2Proof.Machine.vexp2 (toF ty a))).1) (s.vlane n.val va.val i))]

/-- VLOG2 (R125, R127). -/
def vlog2Result : Prop :=
  ∀ (s : State) (n : TileId) (ty : VType) (vd va : Reg) (mask : Fin 8),
    s.domOn n.val = true →
    s.marked n.val true va.val = false →
    ty ≠ .int32 →
    ∃ t, Sys2Proof.Machine.exec (.vlog2 n ty vd va mask) s = .next t ∧
      vectorDone s t n 8 [.vreg vd.val (lanePairs (s.maskBits n.val mask.val) fun i => lane1 ty (fun a => (fromF ty (Sys2Proof.Machine.vlog2 (toF ty a))).1) (s.vlane n.val va.val i))]

/-- VSQRT (R125, R127). -/
def vsqrtResult : Prop :=
  ∀ (s : State) (n : TileId) (ty : VType) (vd va : Reg) (mask : Fin 8),
    s.domOn n.val = true →
    s.marked n.val true va.val = false →
    ty ≠ .int32 →
    ∃ t, Sys2Proof.Machine.exec (.vsqrt n ty vd va mask) s = .next t ∧
      vectorDone s t n 8 [.vreg vd.val (lanePairs (s.maskBits n.val mask.val) fun i => lane1 ty (fun a => (fromF ty (Sys2Proof.Machine.vsqrt (toF ty a))).1) (s.vlane n.val va.val i))]

end Sys2Proof.Machine.Claims

/-- Vector arithmetic and elementary functions -/
def Obligations.VectorArithmeticResults : Prop :=
  Sys2Proof.Machine.Claims.vaddResult ∧ Sys2Proof.Machine.Claims.vsubResult ∧ Sys2Proof.Machine.Claims.vmulResult ∧
    Sys2Proof.Machine.Claims.vmaxResult ∧ Sys2Proof.Machine.Claims.vminResult ∧ Sys2Proof.Machine.Claims.vfmaResult ∧
    Sys2Proof.Machine.Claims.vlerpResult ∧ Sys2Proof.Machine.Claims.vrmsResult ∧ Sys2Proof.Machine.Claims.vdiveResult ∧
    Sys2Proof.Machine.Claims.vrcpResult ∧ Sys2Proof.Machine.Claims.vrsqrtResult ∧ Sys2Proof.Machine.Claims.vexp2Result ∧
    Sys2Proof.Machine.Claims.vlog2Result ∧ Sys2Proof.Machine.Claims.vsqrtResult

/-! Vector compares, selects, conversions, reductions and scans -/

namespace Sys2Proof.Machine.Claims

/-- VCMP of FP32 or INT32 (R125). -/
def vcmpResult : Prop :=
  ∀ (s : State) (n : TileId) (ty : VType) (md : Fin 8) (va vb : Reg) (mask : Fin 8) (cond : Fin 4),
    s.domOn n.val = true →
    s.marked n.val true va.val = false →
    s.marked n.val true vb.val = false →
    ty ≠ .bf16 →
    md.val ≠ 0 →
    ∃ t, Sys2Proof.Machine.exec (.vcmp n ty md va vb mask cond) s = .next t ∧
      vectorDone s t n 2 [.mask md.val (BitVec.ofNat 128 (s.maskBits n.val mask.val)) (maskOf fun i => eCmp cond.val ty (s.vlane n.val va.val i) (s.vlane n.val vb.val i))]

/-- VCMP of BF16 (R125) where the two elements of every lane agree; where they disagree the bit is a free value (log entry 13). -/
def vcmpBf16Result : Prop :=
  ∀ (s : State) (n : TileId) (md : Fin 8) (va vb : Reg) (mask : Fin 8) (cond : Fin 4),
    s.domOn n.val = true →
    s.marked n.val true va.val = false →
    s.marked n.val true vb.val = false →
    md.val ≠ 0 →
    ∀ i ∈ lanes, eCmp cond.val .bf16 ((s.vlane n.val va.val i) % 65536) ((s.vlane n.val vb.val i) % 65536) = eCmp cond.val .bf16 ((s.vlane n.val va.val i) / 65536) ((s.vlane n.val vb.val i) / 65536) →
    ∃ t, Sys2Proof.Machine.exec (.vcmp n .bf16 md va vb mask cond) s = .next t ∧
      vectorDone s t n 2 [.mask md.val (BitVec.ofNat 128 (s.maskBits n.val mask.val)) (maskOf fun i => eCmp cond.val .bf16 ((s.vlane n.val va.val i) % 65536) ((s.vlane n.val vb.val i) % 65536))]

/-- VSEL (R125): every lane of VD is written. -/
def vselResult : Prop :=
  ∀ (s : State) (n : TileId) (ty : VType) (vd va vb : Reg) (mask : Fin 8),
    s.domOn n.val = true →
    s.marked n.val true va.val = false →
    s.marked n.val true vb.val = false →
    mask.val ≠ 0 →
    ∃ t, Sys2Proof.Machine.exec (.vsel n ty vd va vb mask) s = .next t ∧
      vectorDone s t n 2 [.vreg vd.val (lanePairs (2 ^ 128 - 1) fun i => if (s.vmask n.val mask.val).testBit i then (s.vlane n.val va.val i) else (s.vlane n.val vb.val i))]

/-- VCVT with rounding to nearest between types of as many elements (R125, R127). -/
def vcvtResult : Prop :=
  ∀ (s : State) (n : TileId) (ty tt : VType) (vd va : Reg) (mask : Fin 8),
    s.domOn n.val = true →
    s.marked n.val true va.val = false →
    (ty == .bf16) = (tt == .bf16) →
    ∃ t, Sys2Proof.Machine.exec (.vcvt n ty tt vd va mask false) s = .next t ∧
      vectorDone s t n 3 [.vreg vd.val (lanePairs (s.maskBits n.val mask.val) fun i => lane1 ty (fun a => (State.cvt1 ty tt rne a).1) (s.vlane n.val va.val i))]

/-- VCVT of every form (R125, R147), stochastic rounding and a change of the element count among them: one result is on its way, 3 cycles from now. Which element a lane takes then is a free value (log entry 13). -/
def vcvtEveryForm : Prop :=
  ∀ (s : State) (n : TileId) (ty tt : VType) (vd va : Reg) (mask : Fin 8) (stoch : Bool),
    s.canonical = true →
    s.domOn n.val = true →
    s.marked n.val true va.val = false →
    ∃ t, Sys2Proof.Machine.exec (.vcvt n ty tt vd va mask stoch) s = .next t ∧
      ((t.tile n.val).due.take (s.tile n.val).due.length = (s.tile n.val).due) ∧ ((t.tile n.val).due.drop (s.tile n.val).due.length).map Due.at' = [2 * s.issue.period + 3 * s.halves n.val] ∧ (t.tile n.val).sregs = (s.tile n.val).sregs
      ∧ (t.tile n.val).vregs = (s.tile n.val).vregs ∧ s.SameFields (vecFlagFields n) t ∧ s.SameTiles n.val t ∧ t.mem = s.mem

/-- VRED (R125, R128): every selected lane takes the one combined value. -/
def vredResult : Prop :=
  ∀ (s : State) (n : TileId) (ty : VType) (vd va : Reg) (mask : Fin 8) (op : Fin 4),
    s.domOn n.val = true →
    s.marked n.val true va.val = false →
    ty ≠ .int32 ∨ op.val ≠ 3 →
    ∃ t, Sys2Proof.Machine.exec (.vred n ty vd va mask op) s = .next t ∧
      vectorDone s t n 9 [.vreg vd.val (lanePairs (s.maskBits n.val mask.val) fun _ => (if ty = .bf16 then State.vredValue ty op.val (elemsOf ty (lanes.map (s.vlane n.val va.val))) * 65537 else State.vredValue ty op.val (elemsOf ty (lanes.map (s.vlane n.val va.val)))))]

/-- VSCAN (R125, R128, R129): the scan, and its last element to VCARRY. -/
def vscanResult : Prop :=
  ∀ (s : State) (n : TileId) (ty : VType) (vd va : Reg) (mask : Fin 8) (chain : Bool),
    s.domOn n.val = true →
    s.marked n.val true va.val = false →
    ty ≠ .int32 →
    ∃ t, Sys2Proof.Machine.exec (.vscan n ty vd va mask chain) s = .next t ∧
      vectorDone s t n 11 [.vreg vd.val (lanePairs (s.maskBits n.val mask.val) fun i => (lanesOf ty ((scanF ((elemsOf ty (lanes.map (s.vlane n.val va.val))).map (toF ty)) (s.carryIn n.val ty chain)).map fun x => (fromF ty (x, 0)).1)).getD i 0),
        .vcarry (BitVec.ofNat 32 (((scanF ((elemsOf ty (lanes.map (s.vlane n.val va.val))).map (toF ty)) (s.carryIn n.val ty chain)).map fun x => (fromF ty (x, 0)).1).getLastD 0))]

/-- VSCANL (R125, R128, R129): the scan, and its last element to VCARRY. -/
def vscanlResult : Prop :=
  ∀ (s : State) (n : TileId) (ty : VType) (vd va vb : Reg) (mask : Fin 8) (chain : Bool),
    s.domOn n.val = true →
    s.marked n.val true va.val = false →
    s.marked n.val true vb.val = false →
    ty ≠ .int32 →
    ∃ t, Sys2Proof.Machine.exec (.vscanl n ty vd va vb mask chain) s = .next t ∧
      vectorDone s t n 11 [.vreg vd.val (lanePairs (s.maskBits n.val mask.val) fun i => (lanesOf ty ((scanLF ((elemsOf ty (lanes.map (s.vlane n.val va.val))).map (toF ty)) ((elemsOf ty (lanes.map (s.vlane n.val vb.val))).map (toF ty)) (s.carryIn n.val ty chain)).map fun x => (fromF ty (x, 0)).1)).getD i 0),
        .vcarry (BitVec.ofNat 32 (((scanLF ((elemsOf ty (lanes.map (s.vlane n.val va.val))).map (toF ty)) ((elemsOf ty (lanes.map (s.vlane n.val vb.val))).map (toF ty)) (s.carryIn n.val ty chain)).map fun x => (fromF ty (x, 0)).1).getLastD 0))]

end Sys2Proof.Machine.Claims

/-- Vector compares, selects, conversions, reductions and scans -/
def Obligations.VectorComparesAndReductions : Prop :=
  Sys2Proof.Machine.Claims.vcmpResult ∧ Sys2Proof.Machine.Claims.vcmpBf16Result ∧ Sys2Proof.Machine.Claims.vselResult ∧
    Sys2Proof.Machine.Claims.vcvtResult ∧ Sys2Proof.Machine.Claims.vcvtEveryForm ∧ Sys2Proof.Machine.Claims.vredResult ∧
    Sys2Proof.Machine.Claims.vscanResult ∧ Sys2Proof.Machine.Claims.vscanlResult

/-! Vector loads, stores, broadcasts, masks and the quantiser -/

namespace Sys2Proof.Machine.Claims

/-- VLD (R125, R88): 16 lanes of the line are on their way; the rest of the state is unchanged. -/
def vldLoads : Prop :=
  ∀ (s : State) (n : TileId) (ty : VType) (v sa : Reg) (part : Fin 8) (imm : BitVec 11),
    s.domOn n.val = true →
    s.marked n.val false sa.val = false →
    ((sval s n sa.val + 64 * imm.signExtend 64).toNat) % 64 = 0 →
    ((sval s n sa.val + 64 * imm.signExtend 64).toNat) + 64 ≤ 0x300000 →
    soundStore s = true →
    s.bankOn n.val (((sval s n sa.val + 64 * imm.signExtend 64).toNat) / 0x30000) = true →
    ∃ t, Sys2Proof.Machine.exec (.vld n ty v sa part imm) s = .next t ∧
      t = withTracked s n 3 true (some v.val) 0 [.vreg v.val ((List.range 16).map fun i => (16 * part.val + i, BitVec.ofNat 32 (ofBytes (s.bytes (State.own n.val (((sval s n sa.val + 64 * imm.signExtend 64).toNat) + 4 * i)) 4))))] (some (((sval s n sa.val + 64 * imm.signExtend 64).toNat), 64, 3))

/-- VST (R125): exactly the line's bytes are stored. -/
def vstStores : Prop :=
  ∀ (s : State) (n : TileId) (ty : VType) (v sa : Reg) (part : Fin 8) (imm : BitVec 11),
    s.domOn n.val = true →
    s.marked n.val false sa.val = false →
    ((sval s n sa.val + 64 * imm.signExtend 64).toNat) % 64 = 0 →
    ((sval s n sa.val + 64 * imm.signExtend 64).toNat) + 64 ≤ 0x300000 →
    soundStore s = true →
    s.bankOn n.val (((sval s n sa.val + 64 * imm.signExtend 64).toNat) / 0x30000) = true →
    s.marked n.val true v.val = false →
    ∃ t, Sys2Proof.Machine.exec (.vst n ty v sa part imm) s = .next t ∧
      (∀ i ∈ List.range 16, t.bytes (State.own n.val (((sval s n sa.val + 64 * imm.signExtend 64).toNat) + 4 * i)) 4 = toBytes 4 (s.vlane n.val v.val (16 * part.val + i))) ∧ s.OnlyBytes (State.own n.val ((sval s n sa.val + 64 * imm.signExtend 64).toNat)) 64 t ∧ t.regs = s.regs ∧ t.tiles = s.tiles

/-- VBCAST (R125). -/
def vbcastResult : Prop :=
  ∀ (s : State) (n : TileId) (ty : VType) (vd sa : Reg),
    s.domOn n.val = true →
    s.marked n.val false sa.val = false →
    ∃ t, Sys2Proof.Machine.exec (.vbcast n ty vd sa) s = .next t ∧
      vectorDone s t n 2 [.vreg vd.val (lanePairs (2 ^ 128 - 1) fun _ => if ty = .bf16 then s.sreg n.val sa.val % 65536 * 65537 else s.sreg n.val sa.val % 2 ^ 32)]

/-- VSETK (R125). -/
def vsetkResult : Prop :=
  ∀ (s : State) (n : TileId) (k : Fin 16) (sa : Reg),
    s.domOn n.val = true →
    s.marked n.val false sa.val = false →
    ∃ t, Sys2Proof.Machine.exec (.vsetk n k sa) s = .next t ∧
      vectorDone s t n 1 [.kreg k.val (BitVec.ofNat 32 (s.sreg n.val sa.val))]

/-- VDQ (R126, R138 to R140): each code with its group's scale becomes a BF16 element. -/
def vdqResult : Prop :=
  ∀ (s : State) (n : TileId) (vd va vb : Reg) (mask : Fin 8),
    s.canonical = true →
    s.domOn n.val = true →
    s.marked n.val true va.val = false →
    s.marked n.val true vb.val = false →
    fmtOk (s.chanCfg n.val (s.get (Reg.QUANT.VQ_SEL.CH n.val))).fmt (s.chanCfg n.val (s.get (Reg.QUANT.VQ_SEL.CH n.val))).sfmt false = true →
    (s.chanCfg n.val (s.get (Reg.QUANT.VQ_SEL.CH n.val))).gsize ≠ 3 →
    ∃ t, Sys2Proof.Machine.exec (.vdq n vd va vb mask) s = .next t ∧
      t.tiles = (withDue s n 5 (.vreg vd.val (lanePairs (s.maskBits n.val mask.val) fun i => (fun j => (dequant (s.chanCfg n.val (s.get (Reg.QUANT.VQ_SEL.CH n.val))).fmt (s.chanCfg n.val (s.get (Reg.QUANT.VQ_SEL.CH n.val))).sfmt (codeAt (codeWidth (s.chanCfg n.val (s.get (Reg.QUANT.VQ_SEL.CH n.val))).fmt) j (ofBytes ((lanes.map (s.vlane n.val va.val)).flatMap (toBytes 4)))) (((lanes.map (s.vlane n.val vb.val)).flatMap (toBytes 4)).getD (j / groupSize (s.chanCfg n.val (s.get (Reg.QUANT.VQ_SEL.CH n.val))).gsize) 0).toNat).1) (2 * i) + 65536 * (fun j => (dequant (s.chanCfg n.val (s.get (Reg.QUANT.VQ_SEL.CH n.val))).fmt (s.chanCfg n.val (s.get (Reg.QUANT.VQ_SEL.CH n.val))).sfmt (codeAt (codeWidth (s.chanCfg n.val (s.get (Reg.QUANT.VQ_SEL.CH n.val))).fmt) j (ofBytes ((lanes.map (s.vlane n.val va.val)).flatMap (toBytes 4)))) (((lanes.map (s.vlane n.val vb.val)).flatMap (toBytes 4)).getD (j / groupSize (s.chanCfg n.val (s.get (Reg.QUANT.VQ_SEL.CH n.val))).gsize) 0).toNat).1) (2 * i + 1)))).tiles
      ∧ s.OnlyNotices ([Reg.QUANT.DQ_RANGE_CNT.CNT n.val, Reg.QUANT.DQ_NAN_CNT.CNT n.val] ++ irqFields (tilePg n.val 6)) { t with tiles := s.tiles }

/-- VQ (R126, R143): the codes, and the scales where the channel has a scale format, are on their way. -/
def vqCompletes : Prop :=
  ∀ (s : State) (n : TileId) (vd va vb : Reg) (mask : Fin 8),
    s.canonical = true →
    s.domOn n.val = true →
    s.marked n.val true va.val = false →
    fmtOk (s.chanCfg n.val (s.get (Reg.QUANT.VQ_SEL.CH n.val))).fmt (s.chanCfg n.val (s.get (Reg.QUANT.VQ_SEL.CH n.val))).sfmt false = true →
    (s.chanCfg n.val (s.get (Reg.QUANT.VQ_SEL.CH n.val))).gsize ≠ 3 →
    (s.chanCfg n.val (s.get (Reg.QUANT.VQ_SEL.CH n.val))).rnd ≤ 1 →
    ∃ t, Sys2Proof.Machine.exec (.vq n vd va vb mask) s = .next t ∧
      ((t.tile n.val).due.drop (s.tile n.val).due.length).map Due.at' = List.replicate (if (s.chanCfg n.val (s.get (Reg.QUANT.VQ_SEL.CH n.val))).sfmt = 0 then 1 else 2) (2 * s.issue.period + 6 * s.halves n.val) ∧ (t.tile n.val).vregs = (s.tile n.val).vregs ∧ (t.tile n.val).sregs = (s.tile n.val).sregs ∧ s.SameTiles n.val t ∧ t.mem = s.mem

end Sys2Proof.Machine.Claims

/-- Vector loads, stores, broadcasts, masks and the quantiser -/
def Obligations.VectorMemoryAndQuantiser : Prop :=
  Sys2Proof.Machine.Claims.vldLoads ∧ Sys2Proof.Machine.Claims.vstStores ∧ Sys2Proof.Machine.Claims.vbcastResult ∧
    Sys2Proof.Machine.Claims.vsetkResult ∧ Sys2Proof.Machine.Claims.vdqResult ∧ Sys2Proof.Machine.Claims.vqCompletes

/-! Vector forms that are illegal -/

namespace Sys2Proof.Machine.Claims

/-- An illegal vector slot (R81, R124, R125): ILLEGAL_OP is recorded and nothing is computed. -/
def vmulOnInt32Illegal : Prop :=
  ∀ (s : State) (n : TileId) (vd va vb : Reg) (mask : Fin 8),
    s.canonical = true →
    s.domOn n.val = true →
    s.laneHeld n.val = false →
    ∃ t, Sys2Proof.Machine.exec (.vmul n .int32 vd va vb mask) s = .next t ∧
      t.get (Reg.LANE.LANE_FAULT.CAUSE n.val) = 0xB ∧ t.get (Reg.HDR.BLK_STAT.ERR (lanePg n.val)) = 1 ∧ t.tiles = s.tiles ∧ t.mem = s.mem

/-- An illegal vector slot (R81, R124, R125): ILLEGAL_OP is recorded and nothing is computed. -/
def vfmaOnInt32Illegal : Prop :=
  ∀ (s : State) (n : TileId) (vd va vb vc : Reg) (mask : Fin 8),
    s.canonical = true →
    s.domOn n.val = true →
    s.laneHeld n.val = false →
    ∃ t, Sys2Proof.Machine.exec (.vfma n .int32 vd va vb mask vc false) s = .next t ∧
      t.get (Reg.LANE.LANE_FAULT.CAUSE n.val) = 0xB ∧ t.get (Reg.HDR.BLK_STAT.ERR (lanePg n.val)) = 1 ∧ t.tiles = s.tiles ∧ t.mem = s.mem

/-- An illegal vector slot (R81, R124, R125): ILLEGAL_OP is recorded and nothing is computed. -/
def vrcpOnInt32Illegal : Prop :=
  ∀ (s : State) (n : TileId) (vd va : Reg) (mask : Fin 8),
    s.canonical = true →
    s.domOn n.val = true →
    s.laneHeld n.val = false →
    ∃ t, Sys2Proof.Machine.exec (.vrcp n .int32 vd va mask) s = .next t ∧
      t.get (Reg.LANE.LANE_FAULT.CAUSE n.val) = 0xB ∧ t.get (Reg.HDR.BLK_STAT.ERR (lanePg n.val)) = 1 ∧ t.tiles = s.tiles ∧ t.mem = s.mem

/-- An illegal vector slot (R81, R124, R125): ILLEGAL_OP is recorded and nothing is computed. -/
def vscanOnInt32Illegal : Prop :=
  ∀ (s : State) (n : TileId) (vd va : Reg) (mask : Fin 8),
    s.canonical = true →
    s.domOn n.val = true →
    s.laneHeld n.val = false →
    ∃ t, Sys2Proof.Machine.exec (.vscan n .int32 vd va mask false) s = .next t ∧
      t.get (Reg.LANE.LANE_FAULT.CAUSE n.val) = 0xB ∧ t.get (Reg.HDR.BLK_STAT.ERR (lanePg n.val)) = 1 ∧ t.tiles = s.tiles ∧ t.mem = s.mem

/-- An illegal vector slot (R81, R124, R125): ILLEGAL_OP is recorded and nothing is computed. -/
def vcmpToNoMaskIllegal : Prop :=
  ∀ (s : State) (n : TileId) (ty : VType) (va vb : Reg) (mask : Fin 8) (cond : Fin 4),
    s.canonical = true →
    s.domOn n.val = true →
    s.laneHeld n.val = false →
    ∃ t, Sys2Proof.Machine.exec (.vcmp n ty 0 va vb mask cond) s = .next t ∧
      t.get (Reg.LANE.LANE_FAULT.CAUSE n.val) = 0xB ∧ t.get (Reg.HDR.BLK_STAT.ERR (lanePg n.val)) = 1 ∧ t.tiles = s.tiles ∧ t.mem = s.mem

/-- An illegal vector slot (R81, R124, R125): ILLEGAL_OP is recorded and nothing is computed. -/
def vselWithoutMaskIllegal : Prop :=
  ∀ (s : State) (n : TileId) (ty : VType) (vd va vb : Reg),
    s.canonical = true →
    s.domOn n.val = true →
    s.laneHeld n.val = false →
    ∃ t, Sys2Proof.Machine.exec (.vsel n ty vd va vb 0) s = .next t ∧
      t.get (Reg.LANE.LANE_FAULT.CAUSE n.val) = 0xB ∧ t.get (Reg.HDR.BLK_STAT.ERR (lanePg n.val)) = 1 ∧ t.tiles = s.tiles ∧ t.mem = s.mem

/-- An illegal vector slot (R81, R124, R125): ILLEGAL_OP is recorded and nothing is computed. -/
def vdiveTopConstantIllegal : Prop :=
  ∀ (s : State) (n : TileId) (ty : VType) (vd va vb : Reg) (mask : Fin 8),
    s.canonical = true →
    s.domOn n.val = true →
    s.laneHeld n.val = false →
    ∃ t, Sys2Proof.Machine.exec (.vdive n ty vd va vb mask 15) s = .next t ∧
      t.get (Reg.LANE.LANE_FAULT.CAUSE n.val) = 0xB ∧ t.get (Reg.HDR.BLK_STAT.ERR (lanePg n.val)) = 1 ∧ t.tiles = s.tiles ∧ t.mem = s.mem

end Sys2Proof.Machine.Claims

/-- Vector forms that are illegal -/
def Obligations.VectorIllegalForms : Prop :=
  Sys2Proof.Machine.Claims.vmulOnInt32Illegal ∧ Sys2Proof.Machine.Claims.vfmaOnInt32Illegal ∧ Sys2Proof.Machine.Claims.vrcpOnInt32Illegal ∧
    Sys2Proof.Machine.Claims.vscanOnInt32Illegal ∧ Sys2Proof.Machine.Claims.vcmpToNoMaskIllegal ∧ Sys2Proof.Machine.Claims.vselWithoutMaskIllegal ∧
    Sys2Proof.Machine.Claims.vdiveTopConstantIllegal

/-! The matrix array, the random generator and the scale controller -/

namespace Sys2Proof.Machine.Claims

/-- What a due result is, as far as its time, its accumulator row and its block go. -/
def dueShape (d : Due) : Nat × Option (Nat × Bool) × Option (Nat × Option Nat) :=
  (d.at', (match d.res with | .accRow r _ o => some (r, o) | .macRow _ _ _ _ _ r o => some (r, o) | _ => none), (match d.res with | .block i b => some (i, b.gsize) | _ => none))

/-- The results that tile n has put on their way from s to t. -/
def newDues (s t : State) (n : TileId) : List Due := (t.tile n.val).due.drop (s.tile n.val).due.length

/-- A time `cyc` CCLK cycles of tile n from now, in halves of a launch period (R75, R123). -/
def cyclesOn (s : State) (n : TileId) (cyc : Nat) : Nat := 2 * s.issue.period + cyc * s.halves n.val

/-- The cycle after its issue in which a MAC reads its row r (R162): r, and one more for each line of scales read by then from a bank that its rows lie in. -/
def macRowAt (s : State) (n : TileId) (d : Fin 16) (k r : Nat) : Nat :=
  let row (r : Nat) : Nat := s.get (Reg.ARRAY.DESC_W1.A_ADDR n.val d.val) + 64 * s.get (Reg.ARRAY.DESC_W2.A_STRIDE n.val d.val) * r
  let lines := (List.range k).flatMap fun r => row r :: (if s.get (Reg.ARRAY.DESC_W0.A_FMT n.val d.val) = 7 then [row r + 0x30000] else [])
  r + State.sclDelay lines (s.get (Reg.ARRAY.DESC_W0.A_SFMT n.val d.val)) (s.get (Reg.ARRAY.DESC_W3.A_SCL n.val d.val)) (if s.get (Reg.ARRAY.DESC_W0.GSIZE n.val d.val) = 0 then 2 else 1) r

/-- LDW (R159 to R162): the inactive block will hold the 64 × 32 weights; the loader is busy for its lines. -/
def ldwLoadsBlock : Prop :=
  ∀ (s : State) (n : TileId) (d : Fin 16),
    s.canonical = true →
    s.domOn n.val = true →
    s.isEnabled (tilePg n.val 5) = true →
    (s.tile n.val).arr.swapPend = false →
    (s.tile n.val).arr.loaderFree ≤ s.issue.period →
    fmtOk (s.get (Reg.ARRAY.DESC_W0.B_FMT n.val d.val)) (s.get (Reg.ARRAY.DESC_W0.B_SFMT n.val d.val)) false = true →
    (s.get (Reg.ARRAY.DESC_W0.GSIZE n.val d.val)) ≠ 3 →
    (s.get (Reg.ARRAY.DESC_W4.B_ADDR n.val d.val)) % 64 = 0 →
    (s.get (Reg.ARRAY.DESC_W5.B_SCL n.val d.val)) % 64 = 0 →
    (s.get (Reg.ARRAY.DESC_W4.B_ADDR n.val d.val)) + 32 * 64 + 0x30000 ≤ 0x300000 →
    (s.get (Reg.ARRAY.DESC_W5.B_SCL n.val d.val)) + 64 ≤ 0x300000 →
    ∃ t, Sys2Proof.Machine.exec (.ldw n d) s = .next t ∧
      (newDues s t n).map dueShape = [(cyclesOn s n (32 * (if (s.get (Reg.ARRAY.DESC_W0.B_FMT n.val d.val)) = 7 then 2 else 1) + (if (s.get (Reg.ARRAY.DESC_W0.B_SFMT n.val d.val)) = 0 then 0 else 1) + 3), none, some (1 - (s.tile n.val).arr.active, some (s.get (Reg.ARRAY.DESC_W0.GSIZE n.val d.val))))]
      ∧ (t.tile n.val).arr.loaderFree = s.issue.period + s.periods n.val (32 * (if (s.get (Reg.ARRAY.DESC_W0.B_FMT n.val d.val)) = 7 then 2 else 1) + (if (s.get (Reg.ARRAY.DESC_W0.B_SFMT n.val d.val)) = 0 then 0 else 1)) ∧ (t.tile n.val).arr.active = (s.tile n.val).arr.active ∧ (t.tile n.val).acc = (s.tile n.val).acc ∧ s.SameTiles n.val t ∧ t.mem = s.mem

/-- SWAPW with an idle streamer (R163): the blocks change roles; nothing else changes. -/
def swapwSwaps : Prop :=
  ∀ (s : State) (n : TileId),
    s.domOn n.val = true →
    s.isEnabled (tilePg n.val 5) = true →
    (s.tile n.val).arr.swapPend = false →
    (s.tile n.val).arr.loaderFree ≤ s.issue.period →
    (s.tile n.val).arr.streamerFree ≤ s.issue.period →
    ∃ t, Sys2Proof.Machine.exec (.swapw n) s = .next t ∧
      t = s.modTile n.val fun x => { x with arr := { x.arr with active := 1 - x.arr.active } }

/-- SWAPW while the streamer is busy (R163): it is deferred. -/
def swapwDefers : Prop :=
  ∀ (s : State) (n : TileId),
    s.domOn n.val = true →
    s.isEnabled (tilePg n.val 5) = true →
    (s.tile n.val).arr.swapPend = false →
    (s.tile n.val).arr.loaderFree ≤ s.issue.period →
    s.issue.period < (s.tile n.val).arr.streamerFree →
    ∃ t, Sys2Proof.Machine.exec (.swapw n) s = .next t ∧
      t = s.modTile n.val fun x => { x with arr := { x.arr with swapPend := true } }

/-- SWAPW_DEFERRED (R163): the deferred swap takes effect. -/
def deferredSwapTakesEffect : Prop :=
  ∀ (s : State) (n : TileId),
    s.domOn n.val = true →
    (s.tile n.val).arr.swapPend = true →
    (s.tile n.val).arr.streamerFree ≤ s.issue.period →
    ∃ t, Sys2Proof.Machine.exec (.swapwDeferred n) s = .next t ∧
      t = s.modTile n.val fun x => { x with arr := { x.arr with active := 1 - x.arr.active, swapPend := false } }

/-- MAC (R159 to R162): row r is read r cycles after issue, later by the cycles that lines of scales in a bank of its rows take; the first row is read at once where nothing delays it, and its sums will be in the accumulator 8 cycles later; the streamer is busy meanwhile. -/
def macStreamsRows : Prop :=
  ∀ (s : State) (n : TileId) (d : Fin 16) (k : BitVec 8),
    s.canonical = true →
    s.domOn n.val = true →
    s.isEnabled (tilePg n.val 5) = true →
    (s.tile n.val).arr.swapPend = false →
    (s.tile n.val).arr.streamerFree ≤ s.issue.period →
    fmtOk (s.get (Reg.ARRAY.DESC_W0.A_FMT n.val d.val)) (s.get (Reg.ARRAY.DESC_W0.A_SFMT n.val d.val)) false = true →
    (s.get (Reg.ARRAY.DESC_W0.GSIZE n.val d.val)) ≠ 3 →
    (s.get (Reg.ARRAY.DESC_W1.A_ADDR n.val d.val)) % 64 = 0 →
    (s.get (Reg.ARRAY.DESC_W1.A_ADDR n.val d.val)) + 64 * (s.get (Reg.ARRAY.DESC_W2.A_STRIDE n.val d.val)) * k.toNat + 64 + 0x30000 ≤ 0x300000 →
    (s.get (Reg.ARRAY.DESC_W3.A_SCL n.val d.val)) + 2 * (k.toNat + 1) ≤ 0x300000 →
    (s.get (Reg.ARRAY.DESC_W6.ACC_BASE n.val d.val)) + k.toNat + 1 ≤ 512 →
    (s.activeBlock n.val).gsize = some (s.get (Reg.ARRAY.DESC_W0.GSIZE n.val d.val)) →
    ∃ t, Sys2Proof.Machine.exec (.mac n d k) s = .next t ∧
      (newDues s t n).map (fun x => (dueShape x).1) = (List.range (k.toNat + 1)).map (fun r => cyclesOn s n (if macRowAt s n d (k.toNat + 1) r = 0 then 8 else macRowAt s n d (k.toNat + 1) r)) ∧ (newDues s t n).map (fun x => (dueShape x).2.1) = (List.range (k.toNat + 1)).map (fun r => some ((s.get (Reg.ARRAY.DESC_W6.ACC_BASE n.val d.val)) + r, (s.get (Reg.ARRAY.DESC_W0.OVW n.val d.val)) != 0))
      ∧ (t.tile n.val).arr.streamerFree = s.issue.period + s.periods n.val (macRowAt s n d (k.toNat + 1) k.toNat + 1) ∧ t.get (Reg.ARRAY.MAC_ROWS.CNT n.val) = s.counted (Reg.ARRAY.MAC_ROWS.CNT n.val) (if macRowAt s n d (k.toNat + 1) 0 = 0 then 1 else 0) ∧ (t.tile n.val).acc = (s.tile n.val).acc ∧ s.SameTiles n.val t ∧ t.mem = s.mem

/-- CLR (R159, R162): the rows of the accumulator will be zero; nothing else changes. -/
def clrClearsRows : Prop :=
  ∀ (s : State) (n : TileId) (d : Fin 16) (k : BitVec 8),
    s.domOn n.val = true →
    s.isEnabled (tilePg n.val 5) = true →
    (s.tile n.val).arr.swapPend = false →
    (s.tile n.val).arr.streamerFree ≤ s.issue.period →
    (s.get (Reg.ARRAY.DESC_W6.ACC_BASE n.val d.val)) + k.toNat + 1 ≤ 512 →
    ∃ t, Sys2Proof.Machine.exec (.clr n d k) s = .next t ∧
      t = s.modTile n.val fun x => { x with arr := { x.arr with streamerFree := s.issue.period + s.periods n.val (k.toNat + 1) }, due := x.due ++ (List.range (k.toNat + 1)).map fun i => ⟨cyclesOn s n (i + 2), s.issue.period, .accRow ((s.get (Reg.ARRAY.DESC_W6.ACC_BASE n.val d.val)) + i) (List.replicate 32 0) true⟩ }

/-- OUT of one group as BF16 or FP32 (R161): its codes will be stored after 7 cycles; the drainer is busy for the row. -/
def outDrainsGroups : Prop :=
  ∀ (s : State) (n : TileId) (d : Fin 16),
    s.canonical = true →
    s.domOn n.val = true →
    s.isEnabled (tilePg n.val 5) = true →
    (s.tile n.val).arr.drainerFree ≤ s.issue.period →
    fmtOk (s.chanCfg n.val (s.get (Reg.ARRAY.DESC_W0.QCH n.val d.val))).fmt (s.chanCfg n.val (s.get (Reg.ARRAY.DESC_W0.QCH n.val d.val))).sfmt true = true →
    7 ≤ (s.chanCfg n.val (s.get (Reg.ARRAY.DESC_W0.QCH n.val d.val))).fmt →
    (s.chanCfg n.val (s.get (Reg.ARRAY.DESC_W0.QCH n.val d.val))).rnd ≤ 1 →
    (s.get (Reg.ARRAY.DESC_W7.OUT_ADDR n.val d.val)) % 64 = 0 →
    (s.get (Reg.ARRAY.DESC_W7.OUT_ADDR n.val d.val)) + 0x30040 ≤ 0x300000 →
    (s.tile n.val).arr.outBuf = [] →
    ∃ t, Sys2Proof.Machine.exec (.out n d 0) s = .next t ∧
      (newDues s t n).map Due.at' = List.replicate (if (s.chanCfg n.val (s.get (Reg.ARRAY.DESC_W0.QCH n.val d.val))).fmt = 8 then 2 else 1) (cyclesOn s n 7) ∧ (t.tile n.val).arr.drainerFree = s.issue.period + s.periods n.val 1 ∧ (t.tile n.val).acc = (s.tile n.val).acc ∧ s.SameTiles n.val t ∧ t.mem = s.mem

/-- LDW in a disabled array (R164): the fault is recorded and nothing is loaded. -/
def disabledArrayFaults : Prop :=
  ∀ (s : State) (n : TileId) (d : Fin 16),
    s.canonical = true →
    s.domOn n.val = true →
    s.isEnabled (tilePg n.val 5) = false →
    (s.tile n.val).arr.swapPend = false →
    s.get (Reg.ARRAY.ARR_FAULT.CODE n.val) = 0 →
    ∃ t, Sys2Proof.Machine.exec (.ldw n d) s = .next t ∧
      t.get (Reg.ARRAY.ARR_FAULT.CODE n.val) = 5 ∧ t.get (Reg.ARRAY.ARR_FAULT.AOP n.val) = 1 ∧ t.get (Reg.ARRAY.ARR_FAULT.DESC n.val) = d.val ∧ t.get (Reg.HDR.BLK_STAT.ERR (tilePg n.val 5)) = 1 ∧ t.tiles = s.tiles ∧ t.mem = s.mem

/-- RNG_SEED (R147): the generator's state is the seed, or 1 for the seed 0; memory and other tiles stay. -/
def seedReloads : Prop :=
  ∀ (s : State) (src : Source) (n : TileId) (v : Word64),
    s.canonical = true →
    (src == .host && s.hostWaits) = false →
    s.answers src (tilePg n.val 6 + 0x40) = true →
    ∃ t, Sys2Proof.Machine.exec (.rngSeed src n v) s = .next t ∧
      t.get (Reg.QUANT.RNG_SEED.SEED n.val) = v.toNat ∧ (t.tile n.val).lfsr = (if v = 0 then 1 else v) ∧ s.SameFields [Reg.QUANT.RNG_SEED.SEED n.val] t ∧ s.SameTiles n.val t ∧ t.mem = s.mem

/-- RETUNE (R152): every masked tile that is ON sends its record and clears its live counters. -/
def retuneStarts : Prop :=
  ∀ (s : State),
    s.canonical = true →
    s.answers .bridge (pgSCALE + 0x44) = true →
    s.isEnabled pgSCALE = true →
    s.get Reg.SCALE.STAT.ACTIVE = 0 →
    ∃ t, Sys2Proof.Machine.exec (.retune) s = .next t ∧
      t.get Reg.SCALE.STAT.ACTIVE = 1 ∧ t.get Reg.SCALE.CTRL.RETUNE = 1 ∧ t.scale.sent = s.scale.sent ++ (s.scaleTiles.filter fun n => s.domOn n).map (fun n => (n, s.tileRecord n)) ∧ t.scale.arrived = [] ∧ t.mem = s.mem

/-- RETUNE during a retune (R154): counted, with no other effect. -/
def retuneOverruns : Prop :=
  ∀ (s : State),
    s.canonical = true →
    s.answers .bridge (pgSCALE + 0x44) = true →
    s.isEnabled pgSCALE = true →
    s.get Reg.SCALE.STAT.ACTIVE ≠ 0 →
    ∃ t, Sys2Proof.Machine.exec (.retune) s = .next t ∧
      t.get Reg.SCALE.OVERRUN_CNT.CNT = s.counted Reg.SCALE.OVERRUN_CNT.CNT 1 ∧ s.OnlyNotices ([Reg.SCALE.OVERRUN_CNT.CNT] ++ irqFields pgSCALE) t

/-- RETUNE_UPDATE (R153): the gathered values of every tensor are stored and DONE is set. -/
def retuneUpdates : Prop :=
  ∀ (s : State) (k : Fin 64),
    s.canonical = true →
    s.get Reg.SCALE.STAT.ACTIVE ≠ 0 →
    (s.scaleTiles.any fun n => !s.scale.arrived.any fun r => r.1 == n) = false →
    s.get Reg.SCALE.CFG.FLAG_EN = 0 →
    ∃ t, Sys2Proof.Machine.exec (.retuneUpdate) s = .next t ∧
      t.get Reg.SCALE.STAT.ACTIVE = 0 ∧ t.get Reg.SCALE.STAT.DONE = 1 ∧ t.get (Reg.SCALE.T_AMAX.VALUE k.val) = low 32 (s.gather k.val).1 ∧ t.get (Reg.SCALE.T_CLIP.VALUE k.val) = (s.gather k.val).2.1 ∧ t.get (Reg.SCALE.T_VAL.VALUE k.val) = (s.gather k.val).2.2 ∧ t.mem = s.mem ∧ t.tiles = s.tiles

/-- RETUNE_TIMEOUT (R154): the retune ends with nothing applied. -/
def retuneTimesOut : Prop :=
  ∀ (s : State),
    s.canonical = true →
    s.get Reg.SCALE.STAT.ACTIVE ≠ 0 →
    (s.scaleTiles.all fun n => s.scale.arrived.any fun r => r.1 == n) = false →
    ∃ t, Sys2Proof.Machine.exec (.retuneTimeout) s = .next t ∧
      t.get Reg.SCALE.STAT.ACTIVE = 0 ∧ t.get Reg.SCALE.STAT.TIMEOUT = 1 ∧ t.get Reg.SCALE.CTRL.RETUNE = 0 ∧ t.scale.arrived = [] ∧ s.SameFields ([Reg.SCALE.STAT.ACTIVE, Reg.SCALE.STAT.TIMEOUT, Reg.SCALE.CTRL.RETUNE] ++ irqFields pgSCALE) t ∧ t.tiles = s.tiles

/-- APPLY in host-assisted mode (R156): every enabled tensor's BASE and D reach the channels bound to it. -/
def applySends : Prop :=
  ∀ (s : State) (src : Source),
    s.canonical = true →
    (src == .host && s.hostWaits) = false →
    s.answers src (pgSCALE + 0x44) = true →
    s.get Reg.SCALE.STAT.ACTIVE = 0 →
    s.isEnabled pgSCALE = true →
    s.hostMode pgSCALE = true →
    s.get Reg.SCALE.CFG.FLAG_EN = 0 →
    ∃ t, Sys2Proof.Machine.exec (.apply src) s = .next t ∧
      t.get Reg.SCALE.STAT.DONE = 1 ∧ (∀ n ∈ List.range 256, ∀ c ∈ List.range 16, s.domOn n = true → s.hostMode (tilePg n 6) = false → s.get (Reg.QUANT.CH_CFG.BOUND n c) ≠ 0 → s.get (Reg.SCALE.T_CFG.EN (s.get (Reg.QUANT.CH_CFG.TENSOR n c))) ≠ 0 →
        signed 8 (t.get (Reg.QUANT.CH_EXP.BASE n c)) = s.tBase (s.get (Reg.QUANT.CH_CFG.TENSOR n c)) ∧ signed 8 (t.get (Reg.QUANT.CH_EXP.D n c)) = s.tD (s.get (Reg.QUANT.CH_CFG.TENSOR n c))) ∧ t.mem = s.mem

/-- APPLY during a retune (R156): refused with BUSY. -/
def applyBusy : Prop :=
  ∀ (s : State) (src : Source),
    s.canonical = true →
    (src == .host && s.hostWaits) = false →
    s.answers src (pgSCALE + 0x44) = true →
    s.get Reg.SCALE.STAT.ACTIVE ≠ 0 →
    ∃ t, Sys2Proof.Machine.exec (.apply src) s = .next t ∧
      t.get (Reg.HDR.BLK_REASON.CODE pgSCALE) = rcBusy ∧ t.get (Reg.HDR.BLK_STAT.REFUSED pgSCALE) = 1 ∧ s.OnlyNotices ([Reg.HDR.BLK_STAT.REFUSED pgSCALE] ++ reasonFields pgSCALE ++ irqFields pgSCALE) t

end Sys2Proof.Machine.Claims

/-- The matrix array, the random generator and the scale controller -/
def Obligations.MatrixArrayAndScale : Prop :=
  Sys2Proof.Machine.Claims.ldwLoadsBlock ∧ Sys2Proof.Machine.Claims.swapwSwaps ∧ Sys2Proof.Machine.Claims.swapwDefers ∧
    Sys2Proof.Machine.Claims.deferredSwapTakesEffect ∧ Sys2Proof.Machine.Claims.macStreamsRows ∧ Sys2Proof.Machine.Claims.clrClearsRows ∧
    Sys2Proof.Machine.Claims.outDrainsGroups ∧ Sys2Proof.Machine.Claims.disabledArrayFaults ∧ Sys2Proof.Machine.Claims.seedReloads ∧
    Sys2Proof.Machine.Claims.retuneStarts ∧ Sys2Proof.Machine.Claims.retuneOverruns ∧ Sys2Proof.Machine.Claims.retuneUpdates ∧
    Sys2Proof.Machine.Claims.retuneTimesOut ∧ Sys2Proof.Machine.Claims.applySends ∧ Sys2Proof.Machine.Claims.applyBusy

/-! Message queues: sends, reads and placements -/

namespace Sys2Proof.Machine.Claims

/-- The words of registers rs to rs + k − 1 of tile n (R286). -/
def regWords (s : State) (n : TileId) (rs k : Nat) : List Word64 := (List.range k).map fun i => sval s n (rs + i)

/-- What tracked operation a queue read leaves for register r (R289): the value comes 4 cycles later. -/
def queueRead (s : State) (n : TileId) (r : Nat) (v : Word64) : Tracked :=
  ⟨false, markOf r, s.issue.period, s.laneIndex n.val, some (s.issue.period + s.periods n.val 4), 0, 0, [.sreg r v], none⟩

/-- QSEND (R286, R287): the message of the named registers starts on the lowest free send channel, and RD is marked until its completion. -/
def qsendSends : Prop :=
  ∀ (s : State) (n : TileId) (mode : Fin 4) (rs : Reg) (nm1 : Fin 8) (ra rd : Reg) (tmo : BitVec 8) (k : Nat),
    s.canonical = true →
    s.domOn n.val = true →
    mode.val ≠ 3 →
    rs.val + nm1.val ≤ 31 →
    (mode.val == 2) ≠ (tmo == 0) →
    rd.val ≠ 0 →
    s.marked n.val false ra.val = false →
    ((List.range (nm1.val + 1)).any fun i => s.marked n.val false (rs.val + i)) = false →
    bits (s.sreg n.val ra.val) 63 32 = 0 →
    bits (s.sreg n.val ra.val) 15 14 = 0 →
    ((List.range 4).find? fun k => !(s.queue n.val).tx.any fun x => x.1 == k) = some k →
    ∃ t, Sys2Proof.Machine.exec (.qsend n mode rs nm1 ra rd tmo) s = .next t ∧
      t.qnet = { s.qnet with seq := s.qnet.seq + 1, fly := s.qnet.fly ++ [⟨s.qnet.seq + 1, n.val * 128 + k, ⟨bits (s.sreg n.val ra.val) 13 6, bits (s.sreg n.val ra.val) 5 0, mode.val, tmo.toNat, bits (s.sreg n.val ra.val) 31 16, regWords s n rs.val (nm1.val + 1)⟩, false⟩] }
      ∧ t.queue n.val = { s.queue n.val with tx := (s.queue n.val).tx ++ [(k, s.qnet.seq + 1, rd.val)] } ∧ (t.tile n.val).tracked = (s.tile n.val).tracked ++ [⟨false, some rd.val, s.issue.period, s.laneIndex n.val, none, 4096 + k, 0, [], none⟩]
      ∧ t.get (Reg.QUEUE.TX_MSG_CNT.CNT n.val k) = s.counted (Reg.QUEUE.TX_MSG_CNT.CNT n.val k) 1 ∧ s.SameFields [Reg.QUEUE.TX_MSG_CNT.CNT n.val k] t ∧ s.SameTiles n.val t ∧ t.mem = s.mem

/-- QSEND with no free send channel (R287): NOSLOT, and nothing is sent. -/
def qsendWithoutChannel : Prop :=
  ∀ (s : State) (n : TileId) (rs ra rd : Reg),
    s.domOn n.val = true →
    rd.val ≠ 0 →
    s.marked n.val false ra.val = false →
    s.marked n.val false rs.val = false →
    bits (s.sreg n.val ra.val) 63 32 = 0 →
    bits (s.sreg n.val ra.val) 15 14 = 0 →
    ((List.range 4).all fun k => (s.queue n.val).tx.any fun x => x.1 == k) = true →
    ∃ t, Sys2Proof.Machine.exec (.qsend n 0 rs 0 ra rd 0) s = .next t ∧
      t = withTracked s n 4 false (some rd.val) 0 [.sreg rd.val 6] none

/-- RECV (R289): the head message's words and status are on their way and it is removed. -/
def recvReads : Prop :=
  ∀ (s : State) (n : TileId) (rd : Reg) (nm1 : Fin 8) (rs : Reg) (q : Fin 64) (m : QMsg),
    s.domOn n.val = true →
    rd.val + nm1.val ≤ 31 →
    rs.val ≠ 0 →
    rs.val < rd.val ∨ rd.val + nm1.val < rs.val →
    ((s.queue n.val).msgs.find? fun m => m.queue == q.val) = some m →
    (s.queue n.val).flips = [] →
    ∃ t, Sys2Proof.Machine.exec (.recv n rd nm1 rs q) s = .next t ∧
      (t.tile n.val).tracked = (s.tile n.val).tracked ++ (List.range (nm1.val + 1)).map (fun i => queueRead s n (rd.val + i) (m.words.getD i 0)) ++ [queueRead s n rs.val (BitVec.ofNat 64 (State.qStatus m 0))] ∧ (t.queue n.val).msgs = (s.queue n.val).msgs.erase m ∧ s.OnlyTile n.val t

/-- PEEK (R289): the head message's words and status are on their way and it stays. -/
def peekReads : Prop :=
  ∀ (s : State) (n : TileId) (rd : Reg) (nm1 : Fin 8) (rs : Reg) (q : Fin 64) (m : QMsg),
    s.domOn n.val = true →
    rd.val + nm1.val ≤ 31 →
    rs.val ≠ 0 →
    rs.val < rd.val ∨ rd.val + nm1.val < rs.val →
    ((s.queue n.val).msgs.find? fun m => m.queue == q.val) = some m →
    (s.queue n.val).flips = [] →
    ∃ t, Sys2Proof.Machine.exec (.peek n rd nm1 rs q) s = .next t ∧
      (t.tile n.val).tracked = (s.tile n.val).tracked ++ (List.range (nm1.val + 1)).map (fun i => queueRead s n (rd.val + i) (m.words.getD i 0)) ++ [queueRead s n rs.val (BitVec.ofNat 64 (State.qStatus m 0))] ∧ (t.queue n.val).msgs = (s.queue n.val).msgs ∧ s.OnlyTile n.val t

/-- DISCARD (R289): the head message is removed and only its status is on its way. -/
def discardReads : Prop :=
  ∀ (s : State) (n : TileId) (rd : Reg) (nm1 : Fin 8) (rs : Reg) (q : Fin 64) (m : QMsg),
    s.domOn n.val = true →
    rd.val + nm1.val ≤ 31 →
    rs.val ≠ 0 →
    rs.val < rd.val ∨ rd.val + nm1.val < rs.val →
    ((s.queue n.val).msgs.find? fun m => m.queue == q.val) = some m →
    (s.queue n.val).flips = [] →
    ∃ t, Sys2Proof.Machine.exec (.discard n rd nm1 rs q) s = .next t ∧
      (t.tile n.val).tracked = (s.tile n.val).tracked ++ [queueRead s n rs.val (BitVec.ofNat 64 (State.qStatus m 0))] ∧ (t.queue n.val).msgs = (s.queue n.val).msgs.erase m ∧ s.OnlyTile n.val t

/-- RECV of an empty queue (R289): EMPTY, with words of zero. -/
def recvOfEmptyQueue : Prop :=
  ∀ (s : State) (n : TileId) (rd : Reg) (nm1 : Fin 8) (rs : Reg) (q : Fin 64),
    s.domOn n.val = true →
    rd.val + nm1.val ≤ 31 →
    rs.val ≠ 0 →
    rs.val < rd.val ∨ rd.val + nm1.val < rs.val →
    ((s.queue n.val).msgs.find? fun m => m.queue == q.val) = none →
    ∃ t, Sys2Proof.Machine.exec (.recv n rd nm1 rs q) s = .next t ∧
      (t.tile n.val).tracked = (s.tile n.val).tracked ++ (List.range (nm1.val + 1)).map (fun i => queueRead s n (rd.val + i) 0) ++ [queueRead s n rs.val 8] ∧ (t.queue n.val) = (s.queue n.val) ∧ s.OnlyTile n.val t

/-- MESSAGE_HEAD (R283, R285): the message is in a free slot of its queue and the completion OK is on its way. -/
def messagePlaced : Prop :=
  ∀ (s : State) (ch : BitVec 16) (f : QFly),
    s.canonical = true →
    s.qnet.fly.find? (fun f => f.ch == ch.toNat) = some f →
    s.netOn (tileHalf f.head.tile) = true →
    (s.queue f.head.tile).held = none →
    s.qDeadNow f.head.tile f.head.queue = false →
    f.head.mode ≠ 3 →
    f.head.mode ≠ 2 ∨ f.head.tmo ≠ 0 →
    f.head.words ≠ [] →
    f.head.words.length ≤ 8 →
    s.get (Reg.QUEUE.QCFG.COMB f.head.tile f.head.queue) = 0 →
    s.get (Reg.QUEUE.QCFG.NOTIFY f.head.tile f.head.queue) = 0 →
    s.qOcc f.head.tile f.head.queue < 32 →
    ∃ t, Sys2Proof.Machine.exec (.messageHead ch none false) s = .next t ∧
      t.qnet = { s.qnet with fly := s.qnet.fly.erase f, done := s.qnet.done ++ [(f.id, f.ch, 0)] }
      ∧ (t.queue f.head.tile).msgs = (s.queue f.head.tile).msgs ++ [⟨f.head.queue, s.freeQSlot f.head.tile f.head.queue, f.head.words, f.ch, f.head.key, 1, false, 0, false⟩] ∧ (t.queue f.head.tile).held = none
      ∧ t.get (Reg.QUEUE2.RX_MSG_CNT.CNT f.head.tile f.head.queue) = s.counted (Reg.QUEUE2.RX_MSG_CNT.CNT f.head.tile f.head.queue) 1 ∧ s.SameTiles f.head.tile t ∧ t.mem = s.mem

/-- MESSAGE_HEAD for a full queue (R283, R292): a BLOCK or TIMED message is held at the tile. -/
def messageHeld : Prop :=
  ∀ (s : State) (ch : BitVec 16) (f : QFly),
    s.canonical = true →
    s.qnet.fly.find? (fun f => f.ch == ch.toNat) = some f →
    s.netOn (tileHalf f.head.tile) = true →
    (s.queue f.head.tile).held = none →
    s.qDeadNow f.head.tile f.head.queue = false →
    f.head.mode = 0 ∨ (f.head.mode = 2 ∧ f.head.tmo ≠ 0) →
    f.head.words ≠ [] →
    f.head.words.length ≤ 8 →
    s.get (Reg.QUEUE.QCFG.COMB f.head.tile f.head.queue) = 0 →
    32 ≤ s.qOcc f.head.tile f.head.queue →
    ∃ t, Sys2Proof.Machine.exec (.messageHead ch none false) s = .next t ∧
      t.qnet = { s.qnet with fly := s.qnet.fly.erase f } ∧ t.queue f.head.tile = { s.queue f.head.tile with held := some { f with comb := false } } ∧ s.SameTiles f.head.tile t ∧ t.regs = s.regs ∧ t.mem = s.mem

/-- MESSAGE_HEAD for a dead queue (R294): discarded with DEAD. -/
def messageForDeadQueue : Prop :=
  ∀ (s : State) (ch : BitVec 16) (f : QFly),
    s.canonical = true →
    s.qnet.fly.find? (fun f => f.ch == ch.toNat) = some f →
    s.netOn (tileHalf f.head.tile) = true →
    (s.queue f.head.tile).held = none →
    s.qDeadNow f.head.tile f.head.queue = true →
    s.pageUp (pageAt (State.pgQUEUE f.head.tile)) = true →
    ∃ t, Sys2Proof.Machine.exec (.messageHead ch none false) s = .next t ∧
      t.qnet = { s.qnet with fly := s.qnet.fly.erase f, done := s.qnet.done ++ [(f.id, f.ch, 3)] } ∧ t.get (Reg.QUEUE.RX_DEAD_CNT.CNT f.head.tile) = s.counted (Reg.QUEUE.RX_DEAD_CNT.CNT f.head.tile) 1 ∧ t.tiles = s.tiles ∧ t.mem = s.mem

/-- SLOT_GRANT (R290): the held message takes the free slot. -/
def slotGranted : Prop :=
  ∀ (s : State) (n : TileId) (f : QFly),
    s.canonical = true →
    (s.queue n.val).held = some f →
    f.comb = false →
    s.get (Reg.QUEUE.QCFG.NOTIFY n.val f.head.queue) = 0 →
    s.qOcc n.val f.head.queue < 32 →
    ∃ t, Sys2Proof.Machine.exec (.slotGrant n) s = .next t ∧
      (t.queue n.val).msgs = (s.queue n.val).msgs ++ [⟨f.head.queue, s.freeQSlot n.val f.head.queue, f.head.words, f.ch, f.head.key, 1, false, 0, false⟩] ∧ (t.queue n.val).held = none ∧ t.qnet = { s.qnet with done := s.qnet.done ++ [(f.id, f.ch, 0)] } ∧ s.SameTiles n.val t ∧ t.mem = s.mem

/-- TIMED_EXPIRY (R293): the held message is discarded with TIMEOUT. -/
def timedMessageExpires : Prop :=
  ∀ (s : State) (n : TileId) (f : QFly),
    s.canonical = true →
    (s.queue n.val).held = some f →
    f.comb = false →
    s.get (Reg.QUEUE.QCFG.NOTIFY n.val f.head.queue) = 0 →
    f.head.mode = 2 →
    32 ≤ s.qOcc n.val f.head.queue →
    ∃ t, Sys2Proof.Machine.exec (.timedExpiry n) s = .next t ∧
      t.queue n.val = { s.queue n.val with held := none } ∧ t.qnet = { s.qnet with done := s.qnet.done ++ [(f.id, f.ch, 2)] } ∧ s.SameTiles n.val t ∧ t.mem = s.mem

/-- TIMED_EXPIRY while a slot is free (R293): the message is placed. -/
def timedMessageStillPlaced : Prop :=
  ∀ (s : State) (n : TileId) (f : QFly),
    s.canonical = true →
    (s.queue n.val).held = some f →
    f.comb = false →
    s.get (Reg.QUEUE.QCFG.NOTIFY n.val f.head.queue) = 0 →
    f.head.mode = 2 →
    s.qOcc n.val f.head.queue < 32 →
    ∃ t, Sys2Proof.Machine.exec (.timedExpiry n) s = .next t ∧
      (t.queue n.val).msgs = (s.queue n.val).msgs ++ [⟨f.head.queue, s.freeQSlot n.val f.head.queue, f.head.words, f.ch, f.head.key, 1, false, 0, false⟩] ∧ (t.queue n.val).held = none ∧ t.qnet = { s.qnet with done := s.qnet.done ++ [(f.id, f.ch, 0)] } ∧ s.SameTiles n.val t ∧ t.mem = s.mem

end Sys2Proof.Machine.Claims

/-- Message queues: sends, reads and placements -/
def Obligations.MessagesMove : Prop :=
  Sys2Proof.Machine.Claims.qsendSends ∧ Sys2Proof.Machine.Claims.qsendWithoutChannel ∧ Sys2Proof.Machine.Claims.recvReads ∧
    Sys2Proof.Machine.Claims.peekReads ∧ Sys2Proof.Machine.Claims.discardReads ∧ Sys2Proof.Machine.Claims.recvOfEmptyQueue ∧
    Sys2Proof.Machine.Claims.messagePlaced ∧ Sys2Proof.Machine.Claims.messageHeld ∧ Sys2Proof.Machine.Claims.messageForDeadQueue ∧
    Sys2Proof.Machine.Claims.slotGranted ∧ Sys2Proof.Machine.Claims.timedMessageExpires ∧ Sys2Proof.Machine.Claims.timedMessageStillPlaced

/-! Message queues: stalls, combining windows and host windows -/

namespace Sys2Proof.Machine.Claims

/-- QSTALL in hardware mode (R295): the stall is recorded and the held message discarded with STALL. -/
def blockedMessageStalls : Prop :=
  ∀ (s : State) (n : TileId) (f : QFly),
    s.canonical = true →
    (s.queue n.val).held = some f →
    f.comb = false →
    s.get (Reg.QUEUE.QCFG.NOTIFY n.val f.head.queue) = 0 →
    f.head.mode = 0 →
    32 ≤ s.qOcc n.val f.head.queue →
    s.get (Reg.QUEUE.QSTALL_TMO.CYC n.val) ≠ 0 →
    s.get (Reg.QUEUE.STALL_CTRL.HOLD n.val) = 0 →
    s.hostMode (State.pgQUEUE n.val) = false →
    s.get (Reg.QUEUE.STALL_A.RX n.val) = 0 →
    f.ch < 65536 →
    f.head.queue < 64 →
    ∃ t, Sys2Proof.Machine.exec (.qstall n) s = .next t ∧
      (t.queue n.val).held = none ∧ t.get (Reg.QUEUE.STALL_A.RX n.val) = State.rxCh n.val f.head.queue ∧ t.qnet = { s.qnet with done := s.qnet.done ++ [(f.id, f.ch, 4)] } ∧ t.get (Reg.QUEUE.STALL_A.WAITER n.val) = f.ch ∧ t.get (Reg.QUEUE2.RX_STALL_CNT.CNT n.val f.head.queue) = s.counted (Reg.QUEUE2.RX_STALL_CNT.CNT n.val f.head.queue) 1
      ∧ t.get (Reg.HDR.BLK_STAT.ERR (State.pgQUEUE n.val)) = 1 ∧ s.SameTiles n.val t ∧ t.mem = s.mem

/-- QSTALL in host mode (R296): the message stays held for host software. -/
def stallHeldForHost : Prop :=
  ∀ (s : State) (n : TileId) (f : QFly),
    s.canonical = true →
    (s.queue n.val).held = some f →
    f.comb = false →
    s.get (Reg.QUEUE.QCFG.NOTIFY n.val f.head.queue) = 0 →
    f.head.mode = 0 →
    32 ≤ s.qOcc n.val f.head.queue →
    s.get (Reg.QUEUE.QSTALL_TMO.CYC n.val) ≠ 0 →
    s.get (Reg.QUEUE.STALL_CTRL.HOLD n.val) = 0 →
    s.hostMode (State.pgQUEUE n.val) = true →
    ∃ t, Sys2Proof.Machine.exec (.qstall n) s = .next t ∧
      (t.queue n.val).held = some f ∧ t.get (Reg.QUEUE.STALL_CTRL.HOLD n.val) = 1 ∧ t.qnet = s.qnet ∧ t.get (Reg.HDR.BLK_STAT.ERR (State.pgQUEUE n.val)) = 1 ∧ s.SameTiles n.val t ∧ t.mem = s.mem

/-- SEND_COMPLETE with OK (R285, R287): the channel is free and RD receives the code. -/
def sendCompletes : Prop :=
  ∀ (s : State) (n : TileId) (k : Fin 4) (ch : BitVec 16) (id rd code : Nat) (tr : Tracked),
    s.canonical = true →
    ch.toNat = n.val * 128 + k.val →
    s.qnet.done = [(id, ch.toNat, code)] →
    (s.queue n.val).tx = [(k.val, id, rd)] →
    (s.tile n.val).tracked = [tr] →
    tr.tag = 4096 + k.val →
    tr.ready = none →
    code = 0 →
    ∃ t, Sys2Proof.Machine.exec (.sendComplete ⟨ch, false⟩) s = .next t ∧
      t.qnet = { s.qnet with done := [] } ∧ (t.queue n.val).tx = [] ∧ (t.tile n.val).tracked = [{ tr with ready := some s.issue.period, res := [.sreg rd 0] }] ∧ s.SameTiles n.val t ∧ t.regs = s.regs ∧ t.mem = s.mem

/-- LOST (R288): a send without a completion is over with LOST, and its channel is free. -/
def sendLost : Prop :=
  ∀ (s : State) (n : TileId) (k : Fin 4) (ch : BitVec 16) (id rd : Nat) (tr : Tracked),
    s.canonical = true →
    ch.toNat = n.val * 128 + k.val →
    s.get (Reg.QUEUE.TX_GUARD.CYC n.val) ≠ 0 →
    (s.queue n.val).tx = [(k.val, id, rd)] →
    (s.tile n.val).tracked = [tr] →
    tr.tag = 4096 + k.val →
    tr.ready = none →
    ∃ t, Sys2Proof.Machine.exec (.lost ch) s = .next t ∧
      (t.queue n.val).tx = [] ∧ (t.queue n.val).lost = (s.queue n.val).lost ++ [id] ∧ (t.tile n.val).tracked = [{ tr with ready := some s.issue.period, res := [.sreg rd 7] }] ∧ t.get (Reg.QUEUE.TX_STALL_CNT.CNT n.val k.val) = s.counted (Reg.QUEUE.TX_STALL_CNT.CNT n.val k.val) 1 ∧ s.SameTiles n.val t ∧ t.mem = s.mem

/-- COMB_FLUSH (R299): the open entry is readable with PARTIAL. -/
def openEntryFlushed : Prop :=
  ∀ (s : State) (src : Source) (n : TileId) (v : Word32) (e : QMsg),
    s.canonical = true →
    (src == .host && s.hostWaits) = false →
    s.answers src (tilePg n.val 13 + 0x54) = true →
    v.toNat.testBit 31 = true →
    s.openEntry n.val (bits v.toNat 5 0) (bits v.toNat 21 6) = some e →
    s.get (Reg.QUEUE.QCFG.NOTIFY n.val e.queue) = 0 →
    ∃ t, Sys2Proof.Machine.exec (.combFlush src n v) s = .next t ∧
      (t.queue n.val).msgs = (s.queue n.val).msgs ++ [{ e with part := true }] ∧ (t.queue n.val).opens = (s.queue n.val).opens.filter (fun x => !(x.queue == e.queue && x.key == e.key)) ∧ s.SameTiles n.val t ∧ t.mem = s.mem ∧ t.qnet = s.qnet

/-- POP (R302): the head message of the selected queue is removed; nothing else changes. -/
def headPopped : Prop :=
  ∀ (s : State) (src : Source) (n : TileId) (m : QMsg),
    s.canonical = true →
    (src == .host && s.hostWaits) = false →
    s.answers src (tilePg n.val 13 + 0x50) = true →
    ((s.queue n.val).msgs.find? fun m => m.queue == s.get (Reg.QUEUE2.HEAD_SEL.Q n.val)) = some m →
    ∃ t, Sys2Proof.Machine.exec (.pop src n) s = .next t ∧
      t.queue n.val = { s.queue n.val with msgs := (s.queue n.val).msgs.erase m } ∧ s.OnlyTile n.val t

/-- STALL_DISCARD (R296): the held message is discarded with STALL. -/
def stalledMessageDiscarded : Prop :=
  ∀ (s : State) (src : Source) (n : TileId) (f : QFly),
    s.canonical = true →
    (src == .host && s.hostWaits) = false →
    s.answers src (tilePg n.val 12 + 0x50) = true →
    (s.queue n.val).held = some f →
    s.get (Reg.QUEUE.STALL_CTRL.HOLD n.val) ≠ 0 →
    ∃ t, Sys2Proof.Machine.exec (.stallDiscard src n) s = .next t ∧
      t.queue n.val = { s.queue n.val with held := none } ∧ t.get (Reg.QUEUE.STALL_CTRL.HOLD n.val) = 0 ∧ t.qnet = { s.qnet with done := s.qnet.done ++ [(f.id, f.ch, 4)] } ∧ s.SameFields [Reg.QUEUE.STALL_CTRL.HOLD n.val] t ∧ s.SameTiles n.val t ∧ t.mem = s.mem

/-- RETAIN (R296): the message stays held and its timer starts again. -/
def stalledMessageRetained : Prop :=
  ∀ (s : State) (src : Source) (n : TileId) (f : QFly),
    s.canonical = true →
    (src == .host && s.hostWaits) = false →
    s.answers src (tilePg n.val 12 + 0x50) = true →
    (s.queue n.val).held = some f →
    s.get (Reg.QUEUE.STALL_CTRL.HOLD n.val) ≠ 0 →
    ∃ t, Sys2Proof.Machine.exec (.retain src n) s = .next t ∧
      t.get (Reg.QUEUE.STALL_CTRL.HOLD n.val) = 0 ∧ s.OnlyFields [Reg.QUEUE.STALL_CTRL.HOLD n.val] t

/-- LAUNCH (R376, R377): the host's message starts from the window's words. -/
def windowLaunches : Prop :=
  ∀ (s : State) (m : Fin 4) (v : Word32),
    s.canonical = true →
    s.pcie.d3 = false →
    s.pcie.tlps = [] →
    s.pcie.writes = [] →
    s.get (Reg.WIN.STATUS.BUSY m.val) = 0 →
    bits v.toNat 18 17 ≠ 3 →
    (bits v.toNat 18 17 == 2) ≠ (bits v.toNat 26 19 == 0) →
    ∃ t, Sys2Proof.Machine.exec (.launch m [] v) s = .next t ∧
      t.qnet = { s.qnet with seq := s.qnet.seq + 1, fly := s.qnet.fly ++ [⟨s.qnet.seq + 1, 0x8000 + m.val, ⟨bits v.toNat 7 0, bits v.toNat 13 8, bits v.toNat 18 17, bits v.toNat 26 19, (getAt 0 (64 + m.val) s.qnet.win).toNat % 65536, (List.range (bits v.toNat 16 14 + 1)).map (s.winWord m.val)⟩, false⟩], winTx := s.qnet.winTx ++ [(m.val, s.qnet.seq + 1)] }
      ∧ t.get (Reg.WIN.STATUS.BUSY m.val) = 1 ∧ t.get (Reg.WIN.STATUS.DONE m.val) = 0 ∧ s.SameFields [Reg.WIN.STATUS.BUSY m.val, Reg.WIN.STATUS.DONE m.val] t ∧ t.tiles = s.tiles ∧ t.mem = s.mem

/-- LAUNCH of a busy window (R377): nothing is sent; it is counted. -/
def busyWindowCounts : Prop :=
  ∀ (s : State) (m : Fin 4) (v : Word32),
    s.canonical = true →
    s.pcie.d3 = false →
    s.pcie.tlps = [] →
    s.pcie.writes = [] →
    s.get (Reg.WIN.STATUS.BUSY m.val) ≠ 0 →
    ∃ t, Sys2Proof.Machine.exec (.launch m [] v) s = .next t ∧
      t.get Reg.GLOBAL.HQ_BUSY_CNT.CNT = s.counted Reg.GLOBAL.HQ_BUSY_CNT.CNT 1 ∧ s.OnlyFields [Reg.GLOBAL.HQ_BUSY_CNT.CNT] t

end Sys2Proof.Machine.Claims

/-- Message queues: stalls, combining windows and host windows -/
def Obligations.StallsAndWindowsComplete : Prop :=
  Sys2Proof.Machine.Claims.blockedMessageStalls ∧ Sys2Proof.Machine.Claims.stallHeldForHost ∧ Sys2Proof.Machine.Claims.sendCompletes ∧
    Sys2Proof.Machine.Claims.sendLost ∧ Sys2Proof.Machine.Claims.openEntryFlushed ∧ Sys2Proof.Machine.Claims.headPopped ∧
    Sys2Proof.Machine.Claims.stalledMessageDiscarded ∧ Sys2Proof.Machine.Claims.stalledMessageRetained ∧ Sys2Proof.Machine.Claims.windowLaunches ∧
    Sys2Proof.Machine.Claims.busyWindowCounts

/-! Fabric requests: reads, writes and atomics are served -/

namespace Sys2Proof.Machine.Claims

/-- An outstanding request of this module whose packet is on its way to a tile store with nothing in its way (R241, R248): the target tile n, the offset in its store. -/
def onItsWay (s : State) (p : Pkt) (n : TileId) : Bool :=
  p.smod.toNat == s.modId && p.dmod.toNat == s.modId && p.mcast.isNone && (p.cls == 3 || p.cls == 5) && s.net.out == [p] && s.net.past.isEmpty && s.net.cuff.isEmpty && s.net.comb.isEmpty && p.host.isNone && epKind p.src.val != .none && (s.lane p.src.val (epTile n.val)).wait.isEmpty
    && p.addr.toNat / 0x400000 == n.val && decide (p.addr.toNat % 0x400000 + p.size ≤ 0x300000) && decide (1 ≤ p.size) && p.addr.toNat / 64 == (p.addr.toNat + p.size - 1) / 64
    && s.netOn 0 && s.netOn 1 && s.domOn n.val && !s.bistReserved 0 n.val && s.get Reg.RESET.RST_STAT.COMP_ACTIVE == 0 && soundStore s
    && s.bankOn n.val (p.addr.toNat % 0x400000 / 0x30000) && decide ((s.lane (epTile n.val) p.src.val).count < 32766)

/-- The completion that the target of a request puts on its way (R243, R255). -/
def answerOf (s : State) (p : Pkt) (n : TileId) (ack : Bool) (data : List Byte) : Rsp :=
  ⟨p.src.val, p.tag.toNat, epTile n.val, (s.lane (epTile n.val) p.src.val).epoch, 0, data, none, ack, false, none⟩

/-- No packet is lost and none meets a port-A access. -/
def noLuck : Luck := ⟨[], none, []⟩

/-- RD (R241 to R243): the bytes of the tile store are on their way back; nothing stored changes. -/
def readServed : Prop :=
  ∀ (s : State) (p : Pkt) (n : TileId),
    p.op = 0 →
    onItsWay s p n = true →
    ∃ t, Sys2Proof.Machine.exec (.rd p noLuck) s = .next t ∧
      t.net.rsps = s.net.rsps ++ [answerOf s p n false (s.bytes p.addr.toNat p.size)] ∧ t.net.out = s.net.out ∧ t.net.past = [(p.src.val, p.tag.toNat)] ∧ t.mem = s.mem ∧ t.regs = s.regs ∧ t.tiles = s.tiles

/-- WR (R241 to R243): exactly the request's bytes are stored and the WRACK is on its way. -/
def writeServed : Prop :=
  ∀ (s : State) (p : Pkt) (n : TileId),
    p.op = 1 →
    p.data.length = p.size →
    onItsWay s p n = true →
    ∃ t, Sys2Proof.Machine.exec (.wr p noLuck) s = .next t ∧
      t.net.rsps = s.net.rsps ++ [answerOf s p n true []] ∧ t.bytes p.addr.toNat p.size = p.data ∧ s.OnlyBytes p.addr.toNat p.size t ∧ t.regs = s.regs ∧ t.tiles = s.tiles

/-- addI32 (R112, R113): the stored word takes the operation's result and the previous value is on its way back. -/
def addI32Served : Prop :=
  ∀ (s : State) (p : Pkt) (n : TileId),
    p.op = 2 →
    p.size = 4 →
    p.addr.toNat % 4 = 0 →
    onItsWay s p n = true →
    ∃ t, Sys2Proof.Machine.exec (.addI32 p noLuck) s = .next t ∧
      t.net.rsps = s.net.rsps ++ [answerOf s p n false (s.bytes p.addr.toNat 4)] ∧ t.bytes p.addr.toNat 4 = toBytes 4 (atomResult 0 (ofBytes (s.bytes p.addr.toNat 4)) (ofBytes p.data)) ∧ s.OnlyBytes p.addr.toNat 4 t ∧ t.regs = s.regs ∧ t.tiles = s.tiles

/-- addI64 (R112, R113): the stored word takes the operation's result and the previous value is on its way back. -/
def addI64Served : Prop :=
  ∀ (s : State) (p : Pkt) (n : TileId),
    p.op = 3 →
    p.size = 8 →
    p.addr.toNat % 8 = 0 →
    onItsWay s p n = true →
    ∃ t, Sys2Proof.Machine.exec (.addI64 p noLuck) s = .next t ∧
      t.net.rsps = s.net.rsps ++ [answerOf s p n false (s.bytes p.addr.toNat 8)] ∧ t.bytes p.addr.toNat 8 = toBytes 8 (atomResult 1 (ofBytes (s.bytes p.addr.toNat 8)) (ofBytes p.data)) ∧ s.OnlyBytes p.addr.toNat 8 t ∧ t.regs = s.regs ∧ t.tiles = s.tiles

/-- addF32 (R112, R113): the stored word takes the operation's result and the previous value is on its way back. -/
def addF32Served : Prop :=
  ∀ (s : State) (p : Pkt) (n : TileId),
    p.op = 4 →
    p.size = 4 →
    p.addr.toNat % 4 = 0 →
    onItsWay s p n = true →
    ∃ t, Sys2Proof.Machine.exec (.addF32 p noLuck) s = .next t ∧
      t.net.rsps = s.net.rsps ++ [answerOf s p n false (s.bytes p.addr.toNat 4)] ∧ t.bytes p.addr.toNat 4 = toBytes 4 (atomResult 2 (ofBytes (s.bytes p.addr.toNat 4)) (ofBytes p.data)) ∧ s.OnlyBytes p.addr.toNat 4 t ∧ t.regs = s.regs ∧ t.tiles = s.tiles

/-- add2bf16 (R112, R113): the stored word takes the operation's result and the previous value is on its way back. -/
def add2bf16Served : Prop :=
  ∀ (s : State) (p : Pkt) (n : TileId),
    p.op = 5 →
    p.size = 4 →
    p.addr.toNat % 4 = 0 →
    onItsWay s p n = true →
    ∃ t, Sys2Proof.Machine.exec (.add2bf16 p noLuck) s = .next t ∧
      t.net.rsps = s.net.rsps ++ [answerOf s p n false (s.bytes p.addr.toNat 4)] ∧ t.bytes p.addr.toNat 4 = toBytes 4 (atomResult 3 (ofBytes (s.bytes p.addr.toNat 4)) (ofBytes p.data)) ∧ s.OnlyBytes p.addr.toNat 4 t ∧ t.regs = s.regs ∧ t.tiles = s.tiles

/-- swap64 (R112, R113): the stored word takes the operation's result and the previous value is on its way back. -/
def swap64Served : Prop :=
  ∀ (s : State) (p : Pkt) (n : TileId),
    p.op = 6 →
    p.size = 8 →
    p.addr.toNat % 8 = 0 →
    onItsWay s p n = true →
    ∃ t, Sys2Proof.Machine.exec (.swap64 p noLuck) s = .next t ∧
      t.net.rsps = s.net.rsps ++ [answerOf s p n false (s.bytes p.addr.toNat 8)] ∧ t.bytes p.addr.toNat 8 = toBytes 8 (atomResult 4 (ofBytes (s.bytes p.addr.toNat 8)) (ofBytes p.data)) ∧ s.OnlyBytes p.addr.toNat 8 t ∧ t.regs = s.regs ∧ t.tiles = s.tiles

/-- delayStep (R112, R113): the stored word takes the operation's result and the previous value is on its way back. -/
def delayStepServed : Prop :=
  ∀ (s : State) (p : Pkt) (n : TileId),
    p.op = 7 →
    p.size = 8 →
    p.addr.toNat % 8 = 0 →
    onItsWay s p n = true →
    ∃ t, Sys2Proof.Machine.exec (.delayStep p noLuck) s = .next t ∧
      t.net.rsps = s.net.rsps ++ [answerOf s p n false (s.bytes p.addr.toNat 8)] ∧ t.bytes p.addr.toNat 8 = toBytes 8 (atomResult 5 (ofBytes (s.bytes p.addr.toNat 8)) (ofBytes p.data)) ∧ s.OnlyBytes p.addr.toNat 8 t ∧ t.regs = s.regs ∧ t.tiles = s.tiles

end Sys2Proof.Machine.Claims

/-- Fabric requests: reads, writes and atomics are served -/
def Obligations.FabricAccessesServed : Prop :=
  Sys2Proof.Machine.Claims.readServed ∧ Sys2Proof.Machine.Claims.writeServed ∧ Sys2Proof.Machine.Claims.addI32Served ∧
    Sys2Proof.Machine.Claims.addI64Served ∧ Sys2Proof.Machine.Claims.addF32Served ∧ Sys2Proof.Machine.Claims.add2bf16Served ∧
    Sys2Proof.Machine.Claims.swap64Served ∧ Sys2Proof.Machine.Claims.delayStepServed

/-! Fabric responses, events, fences, timeouts and probes -/

namespace Sys2Proof.Machine.Claims

/-- RDRSP (R88, R247): the request is no longer outstanding and its tracked operation has its data. -/
def readDataArrives : Prop :=
  ∀ (s : State) (p : Pkt) (r : Rsp) (n : TileId) (tr : Tracked) (g : Nat),
    s.net.out = [p] →
    s.net.past = [(p.src.val, p.tag.toNat)] →
    s.net.lanes = [] →
    s.net.rsps = [r] →
    r.dst = p.src.val →
    r.tag = p.tag.toNat →
    r.line = none →
    r.via = none →
    s.net.gates = [] →
    s.net.cuff = [] →
    s.netOn 0 = true →
    s.netOn 1 = true →
    epKind p.src.val = .tile n.val →
    s.domOn n.val = true →
    (s.tile n.val).tracked = [tr] →
    tr.tag = p.tag.toNat →
    tr.ready = none →
    r.ack = false →
    r.status = 0 →
    tr.reg = some g →
    ∃ t, Sys2Proof.Machine.exec (.rdrsp p.src p.tag noLuck) s = .next t ∧
      t.net.out = [] ∧ t.net.rsps = [] ∧ (t.tile n.val).tracked = [{ tr with ready := some s.issue.period, status := 0, res := [.sreg g (BitVec.ofNat 64 (ofBytes r.data))] }] ∧ s.SameTiles n.val t ∧ t.regs = s.regs ∧ t.mem = s.mem

/-- WRACK (R88, R247): the request is no longer outstanding and its tracked operation has its status. -/
def writeAckArrives : Prop :=
  ∀ (s : State) (p : Pkt) (r : Rsp) (n : TileId) (tr : Tracked),
    s.net.out = [p] →
    s.net.past = [(p.src.val, p.tag.toNat)] →
    s.net.lanes = [] →
    s.net.rsps = [r] →
    r.dst = p.src.val →
    r.tag = p.tag.toNat →
    r.line = none →
    r.via = none →
    s.net.gates = [] →
    s.net.cuff = [] →
    s.netOn 0 = true →
    s.netOn 1 = true →
    epKind p.src.val = .tile n.val →
    s.domOn n.val = true →
    (s.tile n.val).tracked = [tr] →
    tr.tag = p.tag.toNat →
    tr.ready = none →
    r.ack = true →
    r.status < 16 →
    ∃ t, Sys2Proof.Machine.exec (.wrack p.src p.tag noLuck) s = .next t ∧
      t.net.out = [] ∧ t.net.rsps = [] ∧ (t.tile n.val).tracked.map (fun x => (x.ready, x.status)) = [(some s.issue.period, r.status)] ∧ s.SameTiles n.val t ∧ t.regs = s.regs ∧ t.mem = s.mem

/-- EVT (R189, R241): the event joins the tile's FIFO. -/
def eventArrives : Prop :=
  ∀ (s : State) (src : Ep) (n : TileId) (dst : Ep) (ev : Word64) (f : EvtFlight),
    s.canonical = true →
    dst.val = epTile n.val →
    s.net.evts = [f] →
    f.src = src.val →
    f.dst = dst.val →
    f.ev = ev →
    f.fence = none →
    s.net.cuff = [] →
    s.netOn 0 = true →
    s.netOn 1 = true →
    s.domOn n.val = true →
    s.isEnabled (State.pgEVENT n.val) = true →
    evRow ev < s.get (Reg.SYNAPSE.ROW_COUNT.COUNT n.val) →
    s.hasWorld n.val (evWorld ev) = true →
    (s.evt n.val).fifo.length < 4096 →
    (s.evt n.val).closed = false →
    evLate ev = false →
    ∃ t, Sys2Proof.Machine.exec (.evt src dst [ev] noLuck) s = .next t ∧
      t.net.evts = [] ∧ (t.evt n.val).fifo = (s.evt n.val).fifo ++ [ev] ∧ s.SameTiles n.val t ∧ s.SameFields [Reg.EVENT.FIFO_HWM.HWM n.val] t ∧ t.mem = s.mem

/-- EVT for a tile whose EVENT page is disabled (R190): dropped and counted. -/
def eventForDisabledTile : Prop :=
  ∀ (s : State) (src : Ep) (n : TileId) (dst : Ep) (ev : Word64) (f : EvtFlight),
    s.canonical = true →
    dst.val = epTile n.val →
    s.net.evts = [f] →
    f.src = src.val →
    f.dst = dst.val →
    f.ev = ev →
    f.fence = none →
    s.net.cuff = [] →
    s.netOn 0 = true →
    s.netOn 1 = true →
    s.domOn n.val = true →
    s.isEnabled (State.pgEVENT n.val) = false →
    ∃ t, Sys2Proof.Machine.exec (.evt src dst [ev] noLuck) s = .next t ∧
      t.net.evts = [] ∧ t.tiles = s.tiles ∧ t.get (Reg.EVENT.DROP_DEAD_CNT.CNT n.val) = s.counted (Reg.EVENT.DROP_DEAD_CNT.CNT n.val) 1 ∧ t.get (Reg.EVENT.DROP_WHY.WHY n.val) = 3 ∧ t.get (Reg.HDR.BLK_STAT.ERR (State.pgEVENT n.val)) = 1

/-- FNC (R255): the fence is held at its destination. -/
def fenceReachesTarget : Prop :=
  ∀ (s : State) (src : Ep) (dst : Dst) (f : FenceRec),
    s.net.fences = [f] →
    f.src = src.val →
    f.dst = dst.val →
    f.ev = none →
    s.net.cuff = [] →
    s.netOn 0 = true →
    s.netOn 1 = true →
    dst.val < 384 →
    s.domOn (epDomain dst.val) = true →
    ∃ t, Sys2Proof.Machine.exec (.fnc src (.one dst) noLuck) s = .next t ∧
      t.net = { s.net with fences := [], held := s.net.held ++ [f] } ∧ { t with net := s.net } = s

/-- FENCE_DELIVER (R255): the count is met: the fence is delivered, the epoch's count is cleared and the confirmation is on its way. -/
def fenceDelivered : Prop :=
  ∀ (s : State) (src : Ep) (dst : Dst) (f : FenceRec),
    s.net.held = [f] →
    f.src = src.val →
    f.dst = dst.val →
    f.ev = none →
    dst.val < 384 →
    s.gotCount f.src f.dst f.epoch = f.count →
    risingFrom 0 s.net.got = true →
    ∃ t, Sys2Proof.Machine.exec (.fenceDeliver src dst) s = .next t ∧
      t.net.held = [] ∧ t.net.acks = s.net.acks ++ [⟨f.src, f.dst, f.id, f.dst⟩] ∧ t.gotCount f.src f.dst f.epoch = 0 ∧ { t with net := s.net } = s

/-- FENCE_TIMEOUT (R256): the held fence is discarded and counted. -/
def heldFenceExpires : Prop :=
  ∀ (s : State) (src : Ep) (dst : Dst) (f : FenceRec),
    s.canonical = true →
    s.net.held = [f] →
    f.src = src.val →
    f.dst = dst.val →
    s.gotCount f.src f.dst f.epoch ≠ f.count →
    s.get Reg.FAB0.FENCE_TMO.CYC ≠ 0 →
    risingFrom 0 s.net.got = true →
    ∃ t, Sys2Proof.Machine.exec (.fenceTimeout src dst) s = .next t ∧
      t.net.held = [] ∧ t.net.acks = s.net.acks ∧ t.gotCount f.src f.dst f.epoch = 0 ∧ t.get Reg.FAB0.FENCE_TMO_CNT.CNT = s.counted Reg.FAB0.FENCE_TMO_CNT.CNT 1 ∧ t.get (Reg.HDR.BLK_STAT.ERR (fabPg 0)) = 1 ∧ t.tiles = s.tiles ∧ t.mem = s.mem

/-- FNCACK (R255) of a hidden fence: the fence is no longer outstanding. -/
def fenceConfirmed : Prop :=
  ∀ (s : State) (src : Ep) (dst : Dst) (i e : Nat),
    s.net.acks = [⟨src.val, dst.val, i, e⟩] →
    s.net.cuff = [] →
    s.netOn 0 = true →
    s.netOn 1 = true →
    s.domOn (epDomain src.val) = true →
    (s.lane src.val dst.val).openF = some (i, none) →
    (s.lane src.val dst.val).count ≠ 32767 →
    (s.lane src.val dst.val).wait = [] →
    risingFrom 0 s.net.lanes = true →
    ∃ t, Sys2Proof.Machine.exec (.fncack src ⟨dst, noLuck⟩) s = .next t ∧
      t.net.acks = [] ∧ t.lane src.val dst.val = { s.lane src.val dst.val with openF := none } ∧ { t with net := s.net } = s

/-- FENCE_SOURCE_TIMEOUT (R255) of a hidden fence: the source gives it up. -/
def fenceGivenUp : Prop :=
  ∀ (s : State) (src : Ep) (dst : Dst) (i : Nat),
    s.get Reg.FAB0.NI_TMO.CYC ≠ 0 →
    (s.lane src.val dst.val).openF = some (i, none) →
    (s.lane src.val dst.val).count ≠ 32767 →
    (s.lane src.val dst.val).wait = [] →
    risingFrom 0 s.net.lanes = true →
    ∃ t, Sys2Proof.Machine.exec (.fenceSourceTimeout src dst) s = .next t ∧
      t.lane src.val dst.val = { s.lane src.val dst.val with openF := none } ∧ { t with net := s.net } = s

/-- REQUEST_TIMEOUT (R247): the request completes with TIMEOUT; its packet can still arrive, and its tag stays taken until then. -/
def requestTimesOut : Prop :=
  ∀ (s : State) (p : Pkt) (n : TileId) (tr : Tracked),
    s.net.out = [p] →
    s.net.past = [] →
    s.get Reg.FAB0.NI_TMO.CYC ≠ 0 →
    s.net.lanes = [] →
    s.net.gates = [] →
    epKind p.src.val = .tile n.val →
    (s.tile n.val).tracked = [tr] →
    tr.tag = p.tag.toNat →
    tr.ready = none →
    ∃ t, Sys2Proof.Machine.exec (.requestTimeout p.src p.tag) s = .next t ∧
      t.net.out = [] ∧ t.net.late = s.net.late ++ [p] ∧ t.net.stale = s.net.stale ++ [(p.src.val, p.tag.toNat)] ∧ (t.tile n.val).tracked.map (fun x => (x.ready, x.status)) = [(some s.issue.period, 7)] ∧ s.SameTiles n.val t ∧ t.regs = s.regs ∧ t.mem = s.mem

/-- PROBE of a class that exists (R241): nothing changes. -/
def probePasses : Prop :=
  ∀ (s : State) (cls : Fin 8),
    cls.val < 6 →
    s.netOn 1 = true →
    ∃ t, Sys2Proof.Machine.exec (.probe cls noLuck) s = .next t ∧
      t = s

/-- PROBE of class 6 or 7 (R241): a bad packet is counted. -/
def probeOfBadClass : Prop :=
  ∀ (s : State) (cls : Fin 8),
    s.canonical = true →
    6 ≤ cls.val →
    s.netOn 1 = true →
    ∃ t, Sys2Proof.Machine.exec (.probe cls noLuck) s = .next t ∧
      t.get Reg.FAB0.BAD_PKT_CNT.CNT = s.counted Reg.FAB0.BAD_PKT_CNT.CNT 1 ∧ s.OnlyNotices ([Reg.FAB0.BAD_PKT_CNT.CNT, Reg.HDR.BLK_STAT.ERR (fabPg 0)] ++ irqFields (fabPg 0)) t

end Sys2Proof.Machine.Claims

/-- Fabric responses, events, fences, timeouts and probes -/
def Obligations.ResponsesAndFencesComplete : Prop :=
  Sys2Proof.Machine.Claims.readDataArrives ∧ Sys2Proof.Machine.Claims.writeAckArrives ∧ Sys2Proof.Machine.Claims.eventArrives ∧
    Sys2Proof.Machine.Claims.eventForDisabledTile ∧ Sys2Proof.Machine.Claims.fenceReachesTarget ∧ Sys2Proof.Machine.Claims.fenceDelivered ∧
    Sys2Proof.Machine.Claims.heldFenceExpires ∧ Sys2Proof.Machine.Claims.fenceConfirmed ∧ Sys2Proof.Machine.Claims.fenceGivenUp ∧
    Sys2Proof.Machine.Claims.requestTimesOut ∧ Sys2Proof.Machine.Claims.probePasses ∧ Sys2Proof.Machine.Claims.probeOfBadClass

/-! Combining windows, reductions and the cuff -/

namespace Sys2Proof.Machine.Claims

/-- COMBINE_WINDOW_CLOSE with one requester (R258): one line response for every request of the window is on its way. -/
def combineWindowCloses : Prop :=
  ∀ (s : State) (a : Addr) (cls : Fin 8) (c : Comb) (e tag : Nat),
    s.net.comb = [c] →
    c.line = a.toNat →
    c.cls = cls.val →
    c.who = [(s.modId, e, tag)] →
    c.slice < 64 →
    (s.lane (epSlice c.slice) e).count < 32766 →
    ∃ t, Sys2Proof.Machine.exec (.combineWindowClose a cls) s = .next t ∧
      t.net.comb = [] ∧ t.net.rsps = s.net.rsps ++ [⟨e, tag, epSlice c.slice, (s.lane (epSlice c.slice) e).epoch, 0, c.data, some (c.line, c.cls), false, false, none⟩] ∧ { t with net := s.net } = s

/-- RED, the first contribution of a tile (R260 to R262): the leaf holds it until its other members have contributed. -/
def firstContribution : Prop :=
  ∀ (s : State) (n : TileId) (line : List Byte) (g : Fin 64) (o : BitVec 16),
    g.val ≠ 63 →
    s.netOn 0 = true →
    s.netOn 1 = true →
    s.domOn n.val = true →
    s.redValid g.val = true →
    (s.redMask g.val).testBit n.val = true →
    s.net.red = [] →
    2 ≤ ((members (s.redMask g.val) 256).filter fun m => State.leafOf m == State.leafOf n.val).length →
    s.get (Reg.REDUCE.RG_CFG.OP g.val) ≠ 5 →
    s.get (Reg.REDUCE.RG_CFG.MODE g.val) = 0 →
    ∃ t, Sys2Proof.Machine.exec (.red (.tile n line) g ⟨o, noLuck⟩) s = .next t ∧
      t.net.red = [⟨State.leafOf n.val, g.val, o.toNat, o.toNat % (s.get (Reg.REDUCE.RG_CFG.DEPTH_M1 g.val) + 1), ((members (s.redMask g.val) 256).filter fun m => State.leafOf m == State.leafOf n.val).length - 1, s.get (Reg.REDUCE.RG_CFG.OP g.val), [epTile n.val % 16], some line, false⟩] ∧ t.net.partials = s.net.partials ∧ { t with net := s.net } = s

/-- RED, the last contribution at a leaf (R260, R261): the partial sum is on its way to the spine. -/
def lastContribution : Prop :=
  ∀ (s : State) (n : TileId) (line acc : List Byte) (g : Fin 64) (o : BitVec 16) (e : RedEntry),
    g.val ≠ 63 →
    s.netOn 0 = true →
    s.netOn 1 = true →
    s.domOn n.val = true →
    s.redValid g.val = true →
    (s.redMask g.val).testBit n.val = true →
    s.net.red = [e] →
    e.sw = State.leafOf n.val →
    e.group = g.val →
    e.line = o.toNat →
    e.left = 1 →
    e.dead = false →
    e.acc = some acc →
    e.ports.contains (epTile n.val % 16) = false →
    s.get (Reg.REDUCE.RG_CFG.MODE g.val) = 0 →
    ∃ t, Sys2Proof.Machine.exec (.red (.tile n line) g ⟨o, noLuck⟩) s = .next t ∧
      t.net.red = [] ∧ t.net.partials = s.net.partials ++ [(State.leafOf n.val, g.val, o.toNat, redLine e.op acc line)] ∧ { t with net := s.net } = s

/-- REDRES (R260): a result line on its way to a tile, the root of a TO_ROOT group, is written at DEST + 64 × o of its store, and no other byte changes. -/
def resultWritten : Prop :=
  ∀ (s : State) (n : TileId) (g : Fin 64) (o : BitVec 16) (line : List Byte),
    s.net.results = [⟨g.val, o.toNat, line, [epTile n.val]⟩] →
    line.length = 64 →
    s.net.cuff = [] →
    s.netOn 0 = true →
    s.netOn 1 = true →
    s.net.reds = [] →
    s.domOn n.val = true →
    s.get (Reg.REDUCE.RG_DEST.OFS g.val) % 64 = 0 →
    s.get (Reg.REDUCE.RG_DEST.OFS g.val) + 64 * o.toNat + 64 ≤ 0x300000 →
    s.bankOn n.val ((s.get (Reg.REDUCE.RG_DEST.OFS g.val) + 64 * o.toNat) / 0x30000) = true →
    ∃ t, Sys2Proof.Machine.exec (.redres g ⟨o, noLuck⟩) s = .next t ∧
      t.net.results = [] ∧ t.bytes (State.own n.val (s.get (Reg.REDUCE.RG_DEST.OFS g.val) + 64 * o.toNat)) 64 = line ∧ s.OnlyBytes (State.own n.val (s.get (Reg.REDUCE.RG_DEST.OFS g.val) + 64 * o.toNat)) 64 t ∧ t.tiles = s.tiles

/-- REDUCTION_TIMEOUT (R263): the entry's partial sum is discarded and recorded. -/
def reductionExpires : Prop :=
  ∀ (s : State) (sw : Fin 36) (g : Fin 64) (o : BitVec 16) (e : RedEntry),
    s.canonical = true →
    s.net.red = [e] →
    e.sw = sw.val →
    e.group = g.val →
    e.line = o.toNat →
    e.dead = false →
    s.get Reg.FAB0.RED_TMO.CYC ≠ 0 →
    ∃ t, Sys2Proof.Machine.exec (.reductionTimeout sw g o) s = .next t ∧
      t.net.red = [{ e with dead := true, acc := none }] ∧ t.get Reg.FAB0.COLL_ERR_CNT.CNT = s.counted Reg.FAB0.COLL_ERR_CNT.CNT 1 ∧ t.get Reg.FAB0.COLL_ERR_LAST.WHY = 5 ∧ t.get Reg.FAB0.COLL_ERR_LAST.GROUP = g.val ∧ t.get Reg.FAB0.COLL_ERR_LAST.LINE = o.toNat ∧ t.tiles = s.tiles ∧ t.mem = s.mem

/-- CUFF_TIMEOUT (R273): the held request is discarded and answered DOMAIN_OFF. -/
def cuffExpires : Prop :=
  ∀ (s : State) (h vc : Nat) (p : Pkt),
    s.canonical = true →
    s.net.cuff = [(h, vc, .req p)] →
    p.smod.toNat = s.modId →
    s.get Reg.CUFF.CUFF_TMO.US ≠ 0 →
    s.netOn h = false →
    ∃ t, Sys2Proof.Machine.exec (.cuffTimeout 0) s = .next t ∧
      t.net.cuff = [] ∧ t.net.rsps = s.net.rsps ++ [⟨p.src.val, p.tag.toNat, 0, false, 3, [], none, p.op == 1, true, none⟩] ∧ t.get Reg.CUFF.CUFF_DROP_CNT.CNT = s.counted Reg.CUFF.CUFF_DROP_CNT.CNT 1 ∧ t.get (Reg.HDR.BLK_STAT.ERR (fabPg 1)) = 1 ∧ t.get Reg.CUFF.CUFF_STAT.HELD_E2W = 0 ∧ t.get Reg.CUFF.CUFF_STAT.HELD_W2E = 0 ∧ t.mem = s.mem ∧ t.tiles = s.tiles

/-- CUFF_VOTE_WITHDRAW (R273): with nothing held for the half the cuff's wake vote goes; no other vote changes. -/
def cuffVoteWithdrawn : Prop :=
  ∀ (s : State) (half : Fin 2),
    s.canonical = true →
    s.net.cuff = [] →
    s.fabricsHeld = true →
    (s.get (State.voteField (320 + half.val))) % 16 ≠ 0 →
    s.power.dom = [(320, .on), (321, .on)] →
    ∃ t, Sys2Proof.Machine.exec (.cuffVoteWithdraw half) s = .next t ∧
      (t.get (State.voteField (320 + half.val))).testBit 4 = false ∧ (∀ b ∈ List.range 8, b ≠ 4 → (t.get (State.voteField (320 + half.val))).testBit b = (s.get (State.voteField (320 + half.val))).testBit b) ∧ t.mem = s.mem ∧ t.tiles = s.tiles

end Sys2Proof.Machine.Claims

/-- Combining windows, reductions and the cuff -/
def Obligations.ReductionsAndCuffComplete : Prop :=
  Sys2Proof.Machine.Claims.combineWindowCloses ∧ Sys2Proof.Machine.Claims.firstContribution ∧ Sys2Proof.Machine.Claims.lastContribution ∧
    Sys2Proof.Machine.Claims.resultWritten ∧ Sys2Proof.Machine.Claims.reductionExpires ∧ Sys2Proof.Machine.Claims.cuffExpires ∧
    Sys2Proof.Machine.Claims.cuffVoteWithdrawn

/-! Posts to movers, LEARN, barrier arrivals, flags and the REMOTE slot of a tile -/

namespace Sys2Proof.Machine.Claims

/-- The 32 bytes of four scalar registers. -/
def descOf (s : State) (n : TileId) (r : Nat) : List Byte :=
  toBytes 8 (s.sreg n.val r) ++ toBytes 8 (s.sreg n.val (r + 1)) ++ toBytes 8 (s.sreg n.val (r + 2)) ++ toBytes 8 (s.sreg n.val (r + 3))

/-- None of four scalar registers is marked. -/
def fourUnmarked (s : State) (n : TileId) (r : Nat) : Bool := (List.range 4).all fun i => !s.marked n.val false (r + i)

/-- A tile's tracked request that waits for its completion (R88, R265). -/
def awaiting (s : State) (n : TileId) (reg : Option Nat) (tag : Nat) : Tracked := ⟨false, reg, s.issue.period, s.laneIndex n.val, none, tag, 0, [], none⟩

/-- The request of a tile's REMOTE slot to this module (R265), in the epoch of its NI's account of endpoint d. -/
def remotePkt (s : State) (n : TileId) (op : Fin 10) (a d size : Nat) (data : List Byte) : Pkt :=
  { op := op, src := Fin.ofNat 384 (epTile n.val), smod := BitVec.ofNat 12 s.modId, tag := BitVec.ofNat 12 (s.freeTag (epTile n.val)), cls := 3,
    epoch := (s.lane (epTile n.val) d).epoch, dmod := BitVec.ofNat 12 s.modId, addr := BitVec.ofNat 48 a, size := size, data := data, mcast := none }

/-- MOVE without a result register (R359): the descriptor in four registers is on its way to the mover; nothing else changes. -/
def movePosts : Prop :=
  ∀ (s : State) (n : TileId) (m : Fin 32) (rs : Reg),
    s.domOn n.val = true →
    rs.val ≤ 28 →
    fourUnmarked s n rs.val = true →
    ∃ t, Sys2Proof.Machine.exec (.move n m rs 0) s = .next t ∧
      t = { s with posts := s.posts ++ [⟨m.val, n.val, s.freeTag (epTile n.val), none, descOf s n rs.val⟩] }

/-- MOVE with a result register (R359): RD is marked until the mover's status word returns. -/
def movePostsTracked : Prop :=
  ∀ (s : State) (n : TileId) (m : Fin 32) (rs rd : Reg),
    s.domOn n.val = true →
    rs.val ≤ 28 →
    rd.val ≠ 0 →
    rd.val < rs.val ∨ rs.val + 3 < rd.val →
    fourUnmarked s n rs.val = true →
    (s.tile n.val).tracked = [] →
    ∃ t, Sys2Proof.Machine.exec (.move n m rs rd) s = .next t ∧
      t.posts = s.posts ++ [⟨m.val, n.val, s.freeTag (epTile n.val), some 0, descOf s n rs.val⟩] ∧ (t.tile n.val).tracked = [awaiting s n (some rd.val) 8192] ∧ { t with posts := s.posts, tiles := s.tiles } = s ∧ s.SameTiles n.val t

/-- MOVE whose registers leave the file, or whose RD is one of them (R359, R81): ILLEGAL_OP. -/
def moveIllegal : Prop :=
  ∀ (s : State) (n : TileId) (m : Fin 32) (rs rd : Reg),
    s.canonical = true →
    s.domOn n.val = true →
    28 < rs.val ∨ (rd.val ≠ 0 ∧ rs.val ≤ rd.val ∧ rd.val ≤ rs.val + 3) →
    s.laneHeld n.val = false →
    ∃ t, Sys2Proof.Machine.exec (.move n m rs rd) s = .next t ∧
      t.get (Reg.LANE.LANE_FAULT.CAUSE n.val) = 0xB ∧ t.get (Reg.HDR.BLK_STAT.ERR (lanePg n.val)) = 1 ∧ t.tiles = s.tiles ∧ t.mem = s.mem ∧ t.posts = s.posts

/-- LEARN (R219, R220): an idle engine latches the command, the modulators and the range, and its gather begins. -/
def learnBegins : Prop :=
  ∀ (s : State) (n : TileId) (args : BitVec 24),
    s.canonical = true →
    s.domOn n.val = true →
    args.toNat % 256 = 0 →
    s.isEnabled (State.pgLEARN n.val) = true →
    (s.evt n.val).apply = none →
    s.get (Reg.LEARN.MOD_BASE.OFS n.val) + 32 * (args.toNat / 4096 % 16) + 32 ≤ 0x300000 →
    s.get (Reg.LEARN.MOD_BASE.OFS n.val) % 32 = 0 →
    soundStore s = true →
    s.bankOn n.val ((s.get (Reg.LEARN.MOD_BASE.OFS n.val) + 32 * (args.toNat / 4096 % 16)) / 0x30000) = true →
    ∃ t, Sys2Proof.Machine.exec (.learn n args) s = .next t ∧
      (t.evt n.val).apply.map (fun j => (j.args, j.next, j.last, j.stage, j.inStep)) = some (args.toNat, s.get (Reg.LEARN.RANGE.FIRST n.val (args.toNat / 1024 % 4)), s.get (Reg.LEARN.RANGE.LAST n.val (args.toNat / 1024 % 4)), 0, false)
      ∧ (t.evt n.val).apply.map (fun j => ofBytes (j.mods.flatMap fun w => toBytes 4 w.toNat)) = some (ofBytes (s.bytes (State.own n.val (s.get (Reg.LEARN.MOD_BASE.OFS n.val) + 32 * (args.toNat / 4096 % 16))) 32))
      ∧ t.get (Reg.LEARN.STAT.BUSY n.val) = 1 ∧ s.SameFields [Reg.LEARN.STAT.BUSY n.val] t ∧ s.SameTiles n.val t ∧ t.mem = s.mem

/-- LEARN_CMD_GO (R219): the register write begins an apply in the same way. -/
def learnCommandBegins : Prop :=
  ∀ (s : State) (n : TileId) (args : BitVec 24),
    s.canonical = true →
    s.hostWaits = false →
    s.answers .host (tilePg n.val 10 + 0x40) = true →
    s.isEnabled (State.pgLEARN n.val) = true →
    (s.evt n.val).apply = none →
    s.get (Reg.LEARN.MOD_BASE.OFS n.val) + 32 * (args.toNat / 4096 % 16) + 32 ≤ 0x300000 →
    s.get (Reg.LEARN.MOD_BASE.OFS n.val) % 32 = 0 →
    soundStore s = true →
    s.bankOn n.val ((s.get (Reg.LEARN.MOD_BASE.OFS n.val) + 32 * (args.toNat / 4096 % 16)) / 0x30000) = true →
    ∃ t, Sys2Proof.Machine.exec (.learnCmdGo .host n args) s = .next t ∧
      (t.evt n.val).apply.map (fun j => (j.args, j.next, j.last, j.stage, j.inStep)) = some (args.toNat, s.get (Reg.LEARN.RANGE.FIRST n.val (args.toNat / 1024 % 4)), s.get (Reg.LEARN.RANGE.LAST n.val (args.toNat / 1024 % 4)), 0, false)
      ∧ (t.evt n.val).apply.map (fun j => ofBytes (j.mods.flatMap fun w => toBytes 4 w.toNat)) = some (ofBytes (s.bytes (State.own n.val (s.get (Reg.LEARN.MOD_BASE.OFS n.val) + 32 * (args.toNat / 4096 % 16))) 32))
      ∧ t.get (Reg.LEARN.STAT.BUSY n.val) = 1 ∧ s.SameFields [Reg.LEARN.STAT.BUSY n.val, Reg.LEARN.CMD.ARGS n.val] t ∧ s.SameTiles n.val t ∧ t.mem = s.mem ∧ t.get (Reg.LEARN.CMD.ARGS n.val) = args.toNat

/-- LEARN at a disabled or busy engine (R219): dropped and counted. -/
def learnDropped : Prop :=
  ∀ (s : State) (n : TileId) (args : BitVec 24),
    s.canonical = true →
    s.domOn n.val = true →
    args.toNat % 256 = 0 →
    s.isEnabled (State.pgLEARN n.val) = false ∨ (s.evt n.val).apply.isSome = true →
    ∃ t, Sys2Proof.Machine.exec (.learn n args) s = .next t ∧
      t.get (Reg.LEARN.CMD_DROP_CNT.CNT n.val) = s.counted (Reg.LEARN.CMD_DROP_CNT.CNT n.val) 1 ∧ t.get (Reg.HDR.BLK_STAT.ERR (State.pgLEARN n.val)) = 1 ∧ s.OnlyNotices ([Reg.LEARN.CMD_DROP_CNT.CNT n.val, Reg.HDR.BLK_STAT.ERR (State.pgLEARN n.val)] ++ irqFields (State.pgLEARN n.val)) t

/-- LEARN with bits [7:0] that are not zero (R219): ILLEGAL_OP. -/
def learnIllegal : Prop :=
  ∀ (s : State) (n : TileId) (args : BitVec 24),
    s.canonical = true →
    s.domOn n.val = true →
    args.toNat % 256 ≠ 0 →
    s.laneHeld n.val = false →
    ∃ t, Sys2Proof.Machine.exec (.learn n args) s = .next t ∧
      t.get (Reg.LANE.LANE_FAULT.CAUSE n.val) = 0xB ∧ t.get (Reg.HDR.BLK_STAT.ERR (lanePg n.val)) = 1 ∧ t.tiles = s.tiles ∧ t.mem = s.mem

/-- ARRIVE of a member (R268): the arrival is recorded; nothing else changes. -/
def arrivalCounts : Prop :=
  ∀ (s : State) (n : TileId) (g : Fin 64),
    s.domOn n.val = true →
    s.barTmo g.val = false →
    (s.barMask g.val).testBit n.val = true →
    (s.arrived g.val).testBit n.val = false →
    ∃ t, Sys2Proof.Machine.exec (.arrive n g) s = .next t ∧
      t.arrived g.val = s.arrived g.val ||| 2 ^ n.val ∧ { t with bar := s.bar } = s

/-- ARRIVE of a tile that is no member, has arrived, or of a group that timed out (R268, R269): counted, not recorded. -/
def arrivalIsError : Prop :=
  ∀ (s : State) (n : TileId) (g : Fin 64),
    s.canonical = true →
    s.domOn n.val = true →
    s.barTmo g.val = true ∨ (s.barMask g.val).testBit n.val = false ∨ (s.arrived g.val).testBit n.val = true →
    ∃ t, Sys2Proof.Machine.exec (.arrive n g) s = .next t ∧
      t.bar = s.bar ∧ t.get Reg.SNET.BAR_ERR_CNT.CNT = s.counted Reg.SNET.BAR_ERR_CNT.CNT 1 ∧ s.OnlyNotices ([Reg.SNET.BAR_ERR_CNT.CNT] ++ irqFields State.pgSNET) t

/-- FLAG that sets (R270). -/
def flagSet : Prop :=
  ∀ (s : State) (n : TileId) (f : Fin 16),
    s.canonical = true →
    s.domOn n.val = true →
    ∃ t, Sys2Proof.Machine.exec (.flag n f true) s = .next t ∧
      t.get Reg.SNET.FLAGS.FLAG = s.get Reg.SNET.FLAGS.FLAG ||| 2 ^ f.val ∧ t.issue = { s.issue with flagsSet := (f.val, n.val) :: s.issue.flagsSet } ∧ s.SameFields [Reg.SNET.FLAGS.FLAG] t ∧ t.tiles = s.tiles ∧ t.mem = s.mem

/-- FLAG that clears (R270), where no other tile and not the issue controller has set the flag in the same period. -/
def flagCleared : Prop :=
  ∀ (s : State) (n : TileId) (f : Fin 16),
    s.canonical = true →
    s.domOn n.val = true →
    s.issue.flagsSet.all (fun x => x.1 != f.val || x.2 == n.val) = true →
    ∃ t, Sys2Proof.Machine.exec (.flag n f false) s = .next t ∧
      t.get Reg.SNET.FLAGS.FLAG = setBit (s.get Reg.SNET.FLAGS.FLAG) f.val false ∧ s.OnlyFields [Reg.SNET.FLAGS.FLAG] t

/-- FLAG that clears a flag which another tile or the issue controller has set in the same period (R270): the set takes effect. -/
def flagSetWins : Prop :=
  ∀ (s : State) (n : TileId) (f : Fin 16),
    s.domOn n.val = true →
    s.issue.flagsSet.any (fun x => x.1 == f.val && x.2 != n.val) = true →
    ∃ t, Sys2Proof.Machine.exec (.flag n f false) s = .next t ∧
      t = s

/-- LOAD8 of an address of this module (R265): the tracked request is on its way. -/
def load8Sent : Prop :=
  ∀ (s : State) (n : TileId) (rd ra : Reg) (d : Nat),
    s.domOn n.val = true →
    s.marked n.val false ra.val = false →
    (s.sreg n.val ra.val).testBit 60 = false →
    epOf (s.sreg n.val ra.val % 2 ^ 48) = some d →
    (s.lane (epTile n.val) d).count < 32766 →
    ∃ t, Sys2Proof.Machine.exec (.load8 n rd ra) s = .next t ∧
      t.net.out = s.net.out ++ [remotePkt s n 0 (s.sreg n.val ra.val) d 8 []] ∧ (t.tile n.val).tracked = (s.tile n.val).tracked ++ [awaiting s n (markOf rd.val) (s.freeTag (epTile n.val))] ∧ t.regs = s.regs ∧ t.mem = s.mem ∧ s.SameTiles n.val t

/-- STORE8 (R265): the tracked request is on its way with RS. -/
def store8Sent : Prop :=
  ∀ (s : State) (n : TileId) (ra rs : Reg) (d : Nat),
    s.domOn n.val = true →
    s.marked n.val false ra.val = false →
    (s.sreg n.val ra.val).testBit 60 = false →
    epOf (s.sreg n.val ra.val % 2 ^ 48) = some d →
    (s.lane (epTile n.val) d).count < 32766 →
    s.marked n.val false rs.val = false →
    ∃ t, Sys2Proof.Machine.exec (.store8 n ra rs) s = .next t ∧
      t.net.out = s.net.out ++ [remotePkt s n 1 (s.sreg n.val ra.val) d 8 (toBytes 8 (s.sreg n.val rs.val))] ∧ (t.tile n.val).tracked = (s.tile n.val).tracked ++ [awaiting s n none (s.freeTag (epTile n.val))] ∧ t.regs = s.regs ∧ t.mem = s.mem ∧ s.SameTiles n.val t

/-- ATOMIC (R265, R112): the tracked request is on its way with its operand. -/
def atomicSent : Prop :=
  ∀ (s : State) (n : TileId) (aop : Fin 8) (rd ra rs : Reg) (d : Nat),
    s.domOn n.val = true →
    s.marked n.val false ra.val = false →
    (s.sreg n.val ra.val).testBit 60 = false →
    epOf (s.sreg n.val ra.val % 2 ^ 48) = some d →
    (s.lane (epTile n.val) d).count < 32766 →
    s.marked n.val false rs.val = false →
    ∃ t, Sys2Proof.Machine.exec (.atomic n aop rd ra rs) s = .next t ∧
      t.net.out = s.net.out ++ [remotePkt s n (Fin.ofNat 10 (aop.val + 2)) (s.sreg n.val ra.val) d (atomSize aop.val) (toBytes (atomSize aop.val) (s.sreg n.val rs.val))] ∧ (t.tile n.val).tracked = (s.tile n.val).tracked ++ [awaiting s n (markOf rd.val) (s.freeTag (epTile n.val))] ∧ t.regs = s.regs ∧ t.mem = s.mem ∧ s.SameTiles n.val t

/-- FENCE (R265, R255): the fence is on its way with the count of its epoch, and a new epoch begins. -/
def fenceSent : Prop :=
  ∀ (s : State) (n : TileId) (ra : Reg) (d : Nat),
    s.domOn n.val = true →
    s.marked n.val false ra.val = false →
    (s.sreg n.val ra.val).testBit 60 = false →
    epOf (s.sreg n.val ra.val % 2 ^ 48) = some d →
    (s.lane (epTile n.val) d).count < 32766 →
    (s.lane (epTile n.val) d).openF = none →
    risingFrom 0 s.net.lanes = true →
    ∃ t, Sys2Proof.Machine.exec (.fence n ra) s = .next t ∧
      t.net.fences = s.net.fences ++ [⟨epTile n.val, d, (s.lane (epTile n.val) d).next, (s.lane (epTile n.val) d).count, (s.lane (epTile n.val) d).epoch, some (s.freeTag (epTile n.val)), none, s.sreg n.val ra.val % 2 ^ 60, none⟩]
      ∧ (t.lane (epTile n.val) d).count = 0 ∧ (t.lane (epTile n.val) d).epoch = !(s.lane (epTile n.val) d).epoch ∧ (t.tile n.val).tracked = (s.tile n.val).tracked ++ [awaiting s n none (s.freeTag (epTile n.val))] ∧ t.regs = s.regs ∧ t.mem = s.mem ∧ s.SameTiles n.val t

/-- FENCE of an address that decodes to no endpoint (R265, R43): answered with UNMAPPED. -/
def fenceUnmapped : Prop :=
  ∀ (s : State) (n : TileId) (ra : Reg),
    s.canonical = true →
    s.domOn n.val = true →
    s.marked n.val false ra.val = false →
    (s.sreg n.val ra.val).testBit 60 = false →
    epOf (s.sreg n.val ra.val % 2 ^ 48) = none →
    ∃ t, Sys2Proof.Machine.exec (.fence n ra) s = .next t ∧
      t.net.rsps = s.net.rsps ++ [⟨epTile n.val, s.freeTag (epTile n.val), epTile n.val, false, stUNMAPPED, [], none, true, true, none⟩] ∧ t.get Reg.FAB0.UNMAPPED_CNT.CNT = s.counted Reg.FAB0.UNMAPPED_CNT.CNT 1 ∧ t.get Reg.FAB0.UNMAPPED_LAST.SRC_EP = epTile n.val ∧ t.mem = s.mem ∧ s.SameTiles n.val t

end Sys2Proof.Machine.Claims

/-- Posts to movers, LEARN, barrier arrivals, flags and the REMOTE slot of a tile -/
def Obligations.TileRequestsComplete : Prop :=
  Sys2Proof.Machine.Claims.movePosts ∧ Sys2Proof.Machine.Claims.movePostsTracked ∧ Sys2Proof.Machine.Claims.moveIllegal ∧
    Sys2Proof.Machine.Claims.learnBegins ∧ Sys2Proof.Machine.Claims.learnCommandBegins ∧ Sys2Proof.Machine.Claims.learnDropped ∧
    Sys2Proof.Machine.Claims.learnIllegal ∧ Sys2Proof.Machine.Claims.arrivalCounts ∧ Sys2Proof.Machine.Claims.arrivalIsError ∧
    Sys2Proof.Machine.Claims.flagSet ∧ Sys2Proof.Machine.Claims.flagCleared ∧ Sys2Proof.Machine.Claims.flagSetWins ∧
    Sys2Proof.Machine.Claims.load8Sent ∧ Sys2Proof.Machine.Claims.store8Sent ∧ Sys2Proof.Machine.Claims.atomicSent ∧
    Sys2Proof.Machine.Claims.fenceSent ∧ Sys2Proof.Machine.Claims.fenceUnmapped

/-! Applies of the learning-rule engine, delay moves and the host lock -/

namespace Sys2Proof.Machine.Claims

/-- An apply in progress at a stage, over rows [next, last]. -/
def applying (s : State) (n : TileId) (j : ApplyJob) (stage : Nat) : Bool := (s.evt n.val).apply == some j && j.stage == stage

/-- The engine is in the hardware's mode and its tile has no world group to gather for. -/
def emptyGather (j : ApplyJob) : Bool := j.groups.isEmpty

/-- GATHER_END (R221): with no world group to gather for, the sweep begins, or an empty range is over. -/
def gatherEnds : Prop :=
  ∀ (s : State) (n : TileId) (j : ApplyJob),
    applying s n j 0 = true →
    emptyGather j = true →
    s.hostMode (State.pgLEARN n.val) = false →
    ∃ t, Sys2Proof.Machine.exec (.gatherEnd n) s = .next t ∧
      (t.evt n.val).apply = some { j with stage := if j.next ≤ j.last then 1 else 3 } ∧ s.OnlyTile n.val t

/-- GATHER_END in host mode (R232): the apply is held. -/
def gatherHeld : Prop :=
  ∀ (s : State) (n : TileId) (j : ApplyJob),
    s.canonical = true →
    applying s n j 0 = true →
    emptyGather j = true →
    s.hostMode (State.pgLEARN n.val) = true →
    ∃ t, Sys2Proof.Machine.exec (.gatherEnd n) s = .next t ∧
      (t.evt n.val).apply = some { j with stage := 2 } ∧ t.get (Reg.LEARN.STAT.HOLD n.val) = 1 ∧ (t.get (Reg.HDR.BLK_IRQ_STAT.BLK_SPEC (State.pgLEARN n.val))).testBit 1 = true ∧ s.SameFields ([Reg.LEARN.STAT.HOLD n.val] ++ irqFields (State.pgLEARN n.val)) t ∧ s.SameTiles n.val t ∧ t.mem = s.mem

/-- ROW_UPDATE of a row that the host lock holds (R230): the row is skipped and counted. -/
def heldRowSkipped : Prop :=
  ∀ (s : State) (n : TileId) (j : ApplyJob) (h : Nat),
    s.canonical = true →
    applying s n j 1 = true →
    s.hdrOfs n.val j.next = some h →
    (s.evt n.val).hlock = some h →
    ∃ t, Sys2Proof.Machine.exec (.rowUpdate n none) s = .next t ∧
      (t.evt n.val).apply = some { j with next := j.next + 1, stage := if j.next + 1 ≤ j.last then 1 else 3 } ∧ t.get (Reg.LEARN.SKIP_CNT.CNT n.val) = s.counted (Reg.LEARN.SKIP_CNT.CNT n.val) 1 ∧ t.get (Reg.LEARN.STAT.ROW n.val) = low 16 j.next
      ∧ s.SameFields [Reg.LEARN.SKIP_CNT.CNT n.val, Reg.LEARN.STAT.ROW n.val] t ∧ s.SameTiles n.val t ∧ t.mem = s.mem

/-- ROW_UPDATE of a row at or beyond ROW_COUNT (R221): the sweep goes on; after the last row it is over. -/
def absentRowPassed : Prop :=
  ∀ (s : State) (n : TileId) (j : ApplyJob),
    s.canonical = true →
    applying s n j 1 = true →
    s.hdrOfs n.val j.next = none →
    s.get (Reg.SYNAPSE.ROW_COUNT.COUNT n.val) ≤ j.next →
    ∃ t, Sys2Proof.Machine.exec (.rowUpdate n none) s = .next t ∧
      (t.evt n.val).apply = some { j with next := j.next + 1, stage := if j.next + 1 ≤ j.last then 1 else 3 } ∧ s.OnlyFields [Reg.LEARN.STAT.ROW n.val] { t with tiles := s.tiles } ∧ s.SameTiles n.val t

/-- ROW_UPDATE under a program that ends at once (R217, R218, R222): no change is accumulated, so the code keeps its value; one random number is drawn for the entry and the row is counted. -/
def rowUpdated : Prop :=
  ∀ (s : State) (n : TileId) (j : ApplyJob) (r : Row) (w : Byte),
    s.canonical = true →
    applying s n j 1 = true →
    j.args.testBit 8 = true →
    j.args.testBit 9 = false →
    (s.evt n.val).hlock = none →
    (s.rowAt uLEARN n.val j.next).1 = .row r →
    s.hdrOfs n.val j.next = some r.hofs →
    r.len = 1 →
    r.width = 8 →
    r.sparse = false →
    r.signed = false →
    r.le = true →
    soundStore s = true →
    r.tbase < s.neurons n.val →
    r.hofs % 64 = 0 →
    r.first < 0x300000 →
    s.bankOn n.val (r.hofs / 0x30000) = true →
    s.bankOn n.val (r.first / 0x30000) = true →
    s.get (Reg.LEARN.POST_BASE.OFS n.val) % 32 = 0 →
    s.get (Reg.LEARN.POST_BASE.OFS n.val) + 32 * r.tbase + 32 ≤ 0x300000 →
    s.bankOn n.val ((s.get (Reg.LEARN.POST_BASE.OFS n.val) + 32 * r.tbase) / 0x30000) = true →
    s.get (Reg.LEARN.PROG.UOP n.val r.rule 0) = 0 →
    (s.byte (State.own n.val (r.hofs + 2))).toNat < 128 →
    w = s.byte (State.own n.val r.first) →
    ∃ t, Sys2Proof.Machine.exec (.rowUpdate n none) s = .next t ∧
      t.byte (State.own n.val r.first) = w ∧ (t.evt n.val).apply = some { j with next := j.next + 1, stage := if j.next + 1 ≤ j.last then 1 else 3 } ∧ t.get (Reg.LEARN.ROWS_DONE.CNT n.val) = s.counted (Reg.LEARN.ROWS_DONE.CNT n.val) 1 ∧ (t.tile n.val).lfsr = State.lfsrSteps 16 (s.tile n.val).lfsr ∧ s.SameTiles n.val t

/-- DELAY_MOVE_COMPLETE of a failed atomic (R225): counted; nothing stored changes. -/
def delayMoveFails : Prop :=
  ∀ (s : State) (n : TileId) (m : Move) (st w : Nat),
    s.canonical = true →
    (s.evt n.val).moves = [m] →
    m.res = some (st, w) →
    st ≠ 0 →
    ∃ t, Sys2Proof.Machine.exec (.delayMoveComplete n) s = .next t ∧
      (t.evt n.val).moves = [] ∧ t.get (Reg.LEARN.STAT.DLY_PEND n.val) = 0 ∧ t.get (Reg.LEARN.DLY_FAIL_CNT.CNT n.val) = s.counted (Reg.LEARN.DLY_FAIL_CNT.CNT n.val) 1 ∧ s.SameTiles n.val t ∧ t.mem = s.mem

/-- DELAY_MOVE_COMPLETE of a move to a longer delay (R225): DCUR takes the delay that the atomic stored; only its byte changes. -/
def delayMoved : Prop :=
  ∀ (s : State) (n : TileId) (m : Move) (w : Nat),
    s.canonical = true →
    (s.evt n.val).moves = [m] →
    m.res = some (0, w) →
    m.up = true →
    w / 2 ^ 22 % 64 < 63 →
    soundStore s = true →
    m.hofs + 0x33 ≤ 0x300000 →
    s.bankOn n.val ((m.hofs + 0x32) / 0x30000) = true →
    ∃ t, Sys2Proof.Machine.exec (.delayMoveComplete n) s = .next t ∧
      (t.byte (State.own n.val (m.hofs + 0x32))).toNat = (s.byte (State.own n.val (m.hofs + 0x32))).toNat / 64 * 64 + (w / 2 ^ 22 % 64 + 1) ∧ s.OnlyBytes (State.own n.val (m.hofs + 0x32)) 1 t ∧ (t.evt n.val).moves = []
      ∧ t.get (Reg.LEARN.DLY_UP_CNT.CNT n.val) = s.counted (Reg.LEARN.DLY_UP_CNT.CNT n.val) 1 ∧ s.SameFields [Reg.LEARN.STAT.DLY_PEND n.val, Reg.LEARN.DLY_UP_CNT.CNT n.val] t ∧ s.SameTiles n.val t

/-- APPLY_FINISH (R221): DONE, the apply's length in cycles and the interrupt. -/
def applyFinishes : Prop :=
  ∀ (s : State) (n : TileId) (j : ApplyJob),
    s.canonical = true →
    applying s n j 3 = true →
    (s.evt n.val).moves = [] →
    j.inStep = false →
    ∃ t, Sys2Proof.Machine.exec (.applyFinish n) s = .next t ∧
      (t.evt n.val).apply = none ∧ t.get (Reg.LEARN.STAT.BUSY n.val) = 0 ∧ t.get (Reg.LEARN.STAT.DONE n.val) = 1 ∧ t.get (Reg.LEARN.APPLY_CYC.CYC n.val) = min (2 ^ 32 - 1) (s.halfCycles n.val - j.start) ∧ (t.get (Reg.HDR.BLK_IRQ_STAT.BLK_SPEC (State.pgLEARN n.val))).testBit 0 = true
      ∧ s.SameTiles n.val t ∧ t.mem = s.mem ∧ s.SameFields ([Reg.LEARN.STAT.BUSY n.val, Reg.LEARN.STAT.DONE n.val, Reg.LEARN.APPLY_CYC.CYC n.val] ++ irqFields (State.pgLEARN n.val)) t

/-- APPLY_FINISH of a LEARN phase (R221, R268): the tile arrives at the step's group. -/
def applyFinishesPhase : Prop :=
  ∀ (s : State) (n : TileId) (j : ApplyJob),
    s.canonical = true →
    applying s n j 3 = true →
    (s.evt n.val).moves = [] →
    j.inStep = true →
    s.barTmo s.step.bgrp = false →
    (s.barMask s.step.bgrp).testBit n.val = true →
    (s.arrived s.step.bgrp).testBit n.val = false →
    ∃ t, Sys2Proof.Machine.exec (.applyFinish n) s = .next t ∧
      (t.evt n.val).apply = none ∧ t.get (Reg.LEARN.STAT.BUSY n.val) = 0 ∧ t.get (Reg.LEARN.STAT.DONE n.val) = 1 ∧ t.get (Reg.LEARN.APPLY_CYC.CYC n.val) = min (2 ^ 32 - 1) (s.halfCycles n.val - j.start) ∧ (t.get (Reg.HDR.BLK_IRQ_STAT.BLK_SPEC (State.pgLEARN n.val))).testBit 0 = true
      ∧ s.SameTiles n.val t ∧ t.mem = s.mem ∧ (t.arrived s.step.bgrp).testBit n.val = true

/-- LEARN_CTRL_DONE (R232): the held apply goes to its finish. -/
def heldApplyEnds : Prop :=
  ∀ (s : State) (n : TileId) (j : ApplyJob),
    s.canonical = true →
    s.hostWaits = false →
    s.answers .host (tilePg n.val 10 + 0x4C) = true →
    applying s n j 2 = true →
    ∃ t, Sys2Proof.Machine.exec (.learnCtrlDone .host n) s = .next t ∧
      (t.evt n.val).apply = some { j with stage := 3 } ∧ t.get (Reg.LEARN.STAT.HOLD n.val) = 0 ∧ s.SameFields [Reg.LEARN.STAT.HOLD n.val] t ∧ s.SameTiles n.val t ∧ t.mem = s.mem

/-- HLOCK_REQ (R231): the request for the row is pending. -/
def hostLockRequested : Prop :=
  ∀ (s : State) (n : TileId) (row : BitVec 16),
    s.canonical = true →
    s.hostWaits = false →
    s.answers .host (tilePg n.val 9 + 0x4C) = true →
    s.get (Reg.SYNAPSE.HLOCK_STAT.PEND n.val) = 0 →
    s.get (Reg.SYNAPSE.HLOCK_STAT.GRANT n.val) = 0 →
    ∃ t, Sys2Proof.Machine.exec (.hlockReq .host n row) s = .next t ∧
      t.get (Reg.SYNAPSE.HLOCK_STAT.PEND n.val) = 1 ∧ t.get (Reg.SYNAPSE.HLOCK_STAT.ROW n.val) = row.toNat ∧ s.OnlyFields [Reg.SYNAPSE.HLOCK_STAT.PEND n.val, Reg.SYNAPSE.HLOCK_STAT.ROW n.val, Reg.SYNAPSE.HLOCK_CTRL.ROW n.val] t

/-- HLOCK_REQ while the lock is held or pending (R231): refused with BUSY. -/
def hostLockBusy : Prop :=
  ∀ (s : State) (n : TileId) (row : BitVec 16),
    s.canonical = true →
    s.hostWaits = false →
    s.answers .host (tilePg n.val 9 + 0x4C) = true →
    s.get (Reg.SYNAPSE.HLOCK_STAT.PEND n.val) = 1 ∨ s.get (Reg.SYNAPSE.HLOCK_STAT.GRANT n.val) = 1 →
    ∃ t, Sys2Proof.Machine.exec (.hlockReq .host n row) s = .next t ∧
      t.get (Reg.HDR.BLK_REASON.CODE (State.pgSYNAPSE n.val)) = rcBusy ∧ t.get (Reg.HDR.BLK_STAT.REFUSED (State.pgSYNAPSE n.val)) = 1 ∧ s.OnlyNotices (reasonFields (State.pgSYNAPSE n.val) ++ [Reg.HDR.BLK_STAT.REFUSED (State.pgSYNAPSE n.val)] ++ irqFields (State.pgSYNAPSE n.val)) t

/-- HLOCK_GRANT (R227, R228): the row's lock is the host's, and the header's LOCK bit mirrors it. -/
def hostLockGranted : Prop :=
  ∀ (s : State) (n : TileId) (h : Nat),
    s.canonical = true →
    s.get (Reg.SYNAPSE.HLOCK_STAT.PEND n.val) = 1 →
    s.hdrOfs n.val (s.get (Reg.SYNAPSE.HLOCK_STAT.ROW n.val)) = some h →
    h + 8 ≤ 0x300000 →
    h % 8 = 0 →
    s.bankOn n.val (h / 0x30000) = true →
    soundStore s = true →
    (s.evt n.val).elock ≠ some h →
    (s.evt n.val).fetch ≠ some h →
    ∃ t, Sys2Proof.Machine.exec (.hlockGrant n) s = .next t ∧
      (t.evt n.val).hlock = some h ∧ t.get (Reg.SYNAPSE.HLOCK_STAT.GRANT n.val) = 1 ∧ t.get (Reg.SYNAPSE.HLOCK_STAT.PEND n.val) = 0 ∧ (t.byte (State.own n.val (h + 2))).toNat = setBit (s.byte (State.own n.val (h + 2))).toNat 7 true ∧ s.OnlyBytes (State.own n.val (h + 2)) 1 t
      ∧ (t.get (Reg.HDR.BLK_IRQ_STAT.BLK_SPEC (State.pgSYNAPSE n.val))).testBit 3 = true ∧ s.SameTiles n.val t

/-- HLOCK_REL (R231): the lock and its mirror are free again. -/
def hostLockReleased : Prop :=
  ∀ (s : State) (n : TileId) (h : Nat),
    s.canonical = true →
    s.hostWaits = false →
    s.answers .host (tilePg n.val 9 + 0x4C) = true →
    s.get (Reg.SYNAPSE.HLOCK_STAT.GRANT n.val) = 1 →
    (s.evt n.val).hlock = some h →
    h + 8 ≤ 0x300000 →
    h % 8 = 0 →
    s.bankOn n.val (h / 0x30000) = true →
    soundStore s = true →
    ∃ t, Sys2Proof.Machine.exec (.hlockRel .host n) s = .next t ∧
      (t.evt n.val).hlock = none ∧ t.get (Reg.SYNAPSE.HLOCK_STAT.GRANT n.val) = 0 ∧ (t.byte (State.own n.val (h + 2))).toNat = setBit (s.byte (State.own n.val (h + 2))).toNat 7 false ∧ s.OnlyBytes (State.own n.val (h + 2)) 1 t ∧ s.SameFields [Reg.SYNAPSE.HLOCK_STAT.GRANT n.val] t ∧ s.SameTiles n.val t

/-- HLOCK_REL with nothing held (R231): no effect. -/
def hostLockNotHeld : Prop :=
  ∀ (s : State) (n : TileId),
    s.hostWaits = false →
    s.answers .host (tilePg n.val 9 + 0x4C) = true →
    s.get (Reg.SYNAPSE.HLOCK_STAT.GRANT n.val) = 0 →
    ∃ t, Sys2Proof.Machine.exec (.hlockRel .host n) s = .next t ∧
      t = s

end Sys2Proof.Machine.Claims

/-- Applies of the learning-rule engine, delay moves and the host lock -/
def Obligations.LearningComplete : Prop :=
  Sys2Proof.Machine.Claims.gatherEnds ∧ Sys2Proof.Machine.Claims.gatherHeld ∧ Sys2Proof.Machine.Claims.heldRowSkipped ∧
    Sys2Proof.Machine.Claims.absentRowPassed ∧ Sys2Proof.Machine.Claims.rowUpdated ∧ Sys2Proof.Machine.Claims.delayMoveFails ∧
    Sys2Proof.Machine.Claims.delayMoved ∧ Sys2Proof.Machine.Claims.applyFinishes ∧ Sys2Proof.Machine.Claims.applyFinishesPhase ∧
    Sys2Proof.Machine.Claims.heldApplyEnds ∧ Sys2Proof.Machine.Claims.hostLockRequested ∧ Sys2Proof.Machine.Claims.hostLockBusy ∧
    Sys2Proof.Machine.Claims.hostLockGranted ∧ Sys2Proof.Machine.Claims.hostLockReleased ∧ Sys2Proof.Machine.Claims.hostLockNotHeld

/-! The Freash ports: training -/

namespace Sys2Proof.Machine.Claims

/-- Nothing waits for a token: no step can start (R199, R330). -/
def noStepWaits (s : State) : Bool := !s.isEnabled pgSTEP || s.stepActive

/-- From s to t of the ports only p changes. -/
def OnlyPort (s : State) (p : Nat) (t : State) : Prop := { t with links := s.links, regs := s.regs, out := s.out, msixPending := s.msixPending, causes := s.causes } = s ∧ (∀ q ∈ List.range 8, q ≠ p → t.port q = s.port q)

/-- A management unit as a port sends it (R306). -/
def mgmtUnit (p : Nat) (body : List Byte) : Out := .link p (linkUnit 14 true true false false false body)

/-- Port p has nothing queued, and nothing waits in a receive buffer or at the cuff (R305, R314, R273). -/
def linksIdle (s : State) (p : Nat) : Bool := (s.port p).queue.isEmpty && s.net.cuff.isEmpty && (List.range 8).all fun q => (s.port q).rx.isEmpty

/-- TRAINING_END of two ports that agree (R308 to R310): the port is UP with the highest common version, the narrower of the two sides' widths, the peer's capabilities and the credits of R306, and the neighbour is in the lookahead test unless it has been removed from it. -/
def trainingReachesUp : Prop :=
  ∀ (s : State) (p : Fin 8) (peer : PeerCaps),
    s.canonical = true →
    s.get (Reg.FL.PORT_STAT.STATE p.val) = 1 →
    peer.id.toNat ≠ s.modId →
    peer.lo.toNat ≤ min 0x31 peer.hi.toNat →
    0x20 ≤ peer.hi.toNat →
    max peer.width.val peer.plock.val ≤ (if peer.hi.toNat < 0x31 then 0 else min (s.get (Reg.FL.PORT_CFG.MIN_W p.val)) peer.minW.val) →
    s.tokens = [] →
    (s.port p.val).queue = [] →
    s.get (Reg.FL.XCOL_W0.EN p.val 0) = 0 →
    s.get (Reg.FL.XCOL_W0.EN p.val 1) = 0 →
    s.get (Reg.FL.XCOL_W0.EN p.val 2) = 0 →
    s.get (Reg.FL.XCOL_W0.EN p.val 3) = 0 →
    ∃ t, Sys2Proof.Machine.exec (.trainingEnd p peer) s = .next t ∧
      t.get (Reg.FL.PORT_STAT.STATE p.val) = 2 ∧ t.get (Reg.FL.PORT_STAT.VER p.val) = min 0x31 peer.hi.toNat ∧ t.get (Reg.FL.PORT_STAT.WIDTH p.val) = max peer.width.val peer.plock.val ∧ t.get (Reg.FL.PEER.VALID p.val) = 1 ∧ t.get (Reg.FL.PEER.ID p.val) = peer.id.toNat ∧ t.get (Reg.FL.PEER.PORT p.val) = peer.port.val ∧ t.get (Reg.FL.PEER.VER p.val) = peer.hi.toNat
      ∧ t.get (Reg.HDR.BLK_STAT.READY (flPg p.val)) = 1 ∧ (t.port p.val).credits = [(0, 64), (1, 64), (2, 128), (3, 128), (4, 32), (5, 32), (6, 64), (7, 64), (8, 128), (9, 128), (14, 16)] ∧ t.tokens = (if s.gone.contains peer.id.toNat then [] else [(peer.id.toNat, none)]) ∧ OnlyPort s p.val { t with tokens := s.tokens }

/-- TRAINING_END with a peer of the same module ID (R310): the port FAILED. -/
def trainingDuplicateId : Prop :=
  ∀ (s : State) (p : Fin 8) (peer : PeerCaps),
    s.canonical = true →
    s.get (Reg.FL.PORT_STAT.STATE p.val) = 1 →
    peer.id.toNat = s.modId →
    ∃ t, Sys2Proof.Machine.exec (.trainingEnd p peer) s = .next t ∧
      t.get (Reg.FL.PORT_STAT.STATE p.val) = 3 ∧ t.get (Reg.HDR.BLK_REASON.CODE (flPg p.val)) = 0x10 ∧ t.get (Reg.HDR.BLK_STAT.ERR (flPg p.val)) = 1 ∧ (t.port p.val).failed = true ∧ OnlyPort s p.val t

/-- TRAINING_END without a common version (R309): the port FAILED with VERSION. -/
def trainingVersion : Prop :=
  ∀ (s : State) (p : Fin 8) (peer : PeerCaps),
    s.canonical = true →
    s.get (Reg.FL.PORT_STAT.STATE p.val) = 1 →
    peer.id.toNat ≠ s.modId →
    min 0x31 peer.hi.toNat < max 0x20 peer.lo.toNat →
    ∃ t, Sys2Proof.Machine.exec (.trainingEnd p peer) s = .next t ∧
      t.get (Reg.FL.PORT_STAT.STATE p.val) = 3 ∧ t.get (Reg.HDR.BLK_REASON.CODE (flPg p.val)) = rcVersion ∧ t.get (Reg.HDR.BLK_STAT.ERR (flPg p.val)) = 1 ∧ (t.port p.val).failed = true ∧ OnlyPort s p.val t

/-- TRAIN_TIMEOUT (R308): the attempt failed; the port is DOWN. -/
def trainingTimesOut : Prop :=
  ∀ (s : State) (p : Fin 8),
    s.canonical = true →
    s.get (Reg.FL.PORT_STAT.STATE p.val) = 1 →
    ∃ t, Sys2Proof.Machine.exec (.trainTimeout p) s = .next t ∧
      t.get (Reg.FL.PORT_STAT.STATE p.val) = 0 ∧ t.get (Reg.HDR.BLK_REASON.CODE (flPg p.val)) = 0x12 ∧ t.get (Reg.HDR.BLK_STAT.ERR (flPg p.val)) = 1 ∧ (t.port p.val).failed = false ∧ OnlyPort s p.val t

/-- TRAIN_RETRY (R308): an enabled port that is DOWN trains again. -/
def trainingTriedAgain : Prop :=
  ∀ (s : State) (p : Fin 8),
    s.canonical = true →
    s.isEnabled (flPg p.val) = true →
    s.get (Reg.FL.PORT_STAT.STATE p.val) = 0 →
    (s.port p.val).failed = false →
    ∃ t, Sys2Proof.Machine.exec (.trainRetry p) s = .next t ∧
      t.get (Reg.FL.PORT_STAT.STATE p.val) = 1 ∧ s.OnlyFields [Reg.FL.PORT_STAT.STATE p.val] t

end Sys2Proof.Machine.Claims

/-- The Freash ports: training -/
def Obligations.LinkTrainingCompletes : Prop :=
  Sys2Proof.Machine.Claims.trainingReachesUp ∧ Sys2Proof.Machine.Claims.trainingDuplicateId ∧ Sys2Proof.Machine.Claims.trainingVersion ∧
    Sys2Proof.Machine.Claims.trainingTimesOut ∧ Sys2Proof.Machine.Claims.trainingTriedAgain

/-! The Freash ports: packets and management units -/

namespace Sys2Proof.Machine.Claims

/-- LINK_PACKET with units that failed their FEC codeword or their CRC (R307, R338), at a port with nothing queued: the packet is dropped whole, each such unit and each corrected codeword is counted, and its credits return; nothing else but counters and interrupts changes. -/
def corruptUnitDropped : Prop :=
  ∀ (s : State) (p : Fin 8) (pkt : LinkPkt) (fec crc fixed : Nat) (poison : Bool),
    s.canonical = true →
    s.get (Reg.FL.PORT_STAT.STATE p.val) = 2 →
    linksIdle s p.val = true →
    s.linkVc pkt < 10 →
    0 < fec + crc →
    ∃ t, Sys2Proof.Machine.exec (.linkPacket p pkt ⟨fec, crc, fixed, poison⟩) s = .next t ∧
      t.get (Reg.FLC.FEC_UNC_CNT.CNT p.val) = s.counted (Reg.FLC.FEC_UNC_CNT.CNT p.val) (min fec (State.linkUnits pkt)) ∧ t.get (Reg.FLC.CRC_DROP_CNT.CNT p.val) = s.counted (Reg.FLC.CRC_DROP_CNT.CNT p.val) (min crc (State.linkUnits pkt - fec)) ∧ t.get (Reg.FLC.FEC_CW_CNT.CNT p.val) = s.counted (Reg.FLC.FEC_CW_CNT.CNT p.val) fixed ∧ t.get (Reg.FLC.RX_UNITS.CNT p.val) = s.counted (Reg.FLC.RX_UNITS.CNT p.val) (State.linkUnits pkt)
      ∧ mgmtUnit p.val (mgmtCredit (s.linkVc pkt) (State.linkUnits pkt)) ∈ t.out ∧ s.OnlyNotices ([Reg.FLC.FEC_UNC_CNT.CNT p.val, Reg.FLC.CRC_DROP_CNT.CNT p.val, Reg.FLC.FEC_CW_CNT.CNT p.val, Reg.FLC.RX_UNITS.CNT p.val, Reg.FLC.TX_UNITS.CNT p.val] ++ irqFields (flcPg p.val)) t

/-- LINK_PACKET of an event for a later step (R327), at a port with nothing queued: it waits in the landing store until its step, and its credit returns. -/
def eventsLand : Prop :=
  ∀ (s : State) (p : Fin 8) (d : Bool) (sm : BitVec 12) (src : Ep) (stamp : Word32) (ev : Word64),
    s.canonical = true →
    s.get (Reg.FL.PORT_STAT.STATE p.val) = 2 →
    linksIdle s p.val = true →
    s.get Reg.RESET.RST_STAT.COMP_ACTIVE = 0 →
    stamp.toNat = s.get Reg.STEP.STEP_CNT.CNT % 2 ^ 32 →
    ev.toNat / 2 ^ 8 % 64 ≠ 0 →
    (s.port p.val).landing.length < 32768 →
    ∃ t, Sys2Proof.Machine.exec (.linkPacket p (.evt d (BitVec.ofNat 12 s.modId) sm src stamp [ev]) ⟨0, 0, 0, false⟩) s = .next t ∧
      (t.port p.val).landing = (s.port p.val).landing ++ [((stamp.toNat + ev.toNat / 2 ^ 8 % 64) % 2 ^ 32, ev)] ∧ OnlyPort s p.val t ∧ s.SameFields [Reg.FLC.RX_UNITS.CNT p.val, Reg.FLC.TX_UNITS.CNT p.val] t ∧ t.out = s.out ++ [mgmtUnit p.val (mgmtCredit (if d then 1 else 0) 1)]

/-- LINK_PACKET in transit without a valid routing entry (R315): dropped and recorded. -/
def packetHasNoRoute : Prop :=
  ∀ (s : State) (p : Fin 8) (d : Bool) (m sm : BitVec 12) (ep : Ep) (tag : BitVec 12),
    s.canonical = true →
    s.get (Reg.FL.PORT_STAT.STATE p.val) = 2 →
    linksIdle s p.val = true →
    s.get Reg.RESET.RST_STAT.COMP_ACTIVE = 0 →
    m.toNat ≠ s.modId →
    (s.routeEntry m.toNat).1 = false →
    ∃ t, Sys2Proof.Machine.exec (.linkPacket p (.fncack d m sm ep tag) ⟨0, 0, 0, false⟩) s = .next t ∧
      t.get (Reg.FLC.RT_NOROUTE_CNT.CNT 0) = s.counted (Reg.FLC.RT_NOROUTE_CNT.CNT 0) 1 ∧ t.get (Reg.FLC.RT_DROP_LAST.WHY 0) = 1 ∧ t.get (Reg.FLC.RT_DROP_LAST.IN 0) = p.val ∧ t.get (Reg.FLC.RT_DROP_LAST.DST_MOD 0) = m.toNat ∧ t.links = s.links ∧ t.net = s.net ∧ t.mem = s.mem

/-- IDLE_UNIT (R304): a port that is UP and has nothing to send sends an idle unit; nothing else changes. -/
def idleSent : Prop :=
  ∀ (s : State) (p : Fin 8),
    s.get (Reg.FL.PORT_STAT.STATE p.val) = 2 →
    linksIdle s p.val = true →
    s.get Reg.RESET.RST_STAT.COMP_ACTIVE = 0 →
    ∃ t, Sys2Proof.Machine.exec (.idleUnit p) s = .next t ∧
      t = { s with out := s.out ++ [.link p.val idleUnit] }

/-- CREDIT (R306): the returned units are added, at most to the VC's buffer. -/
def creditsReturn : Prop :=
  ∀ (s : State) (p : Fin 8) (vc : Fin 15) (n : BitVec 16),
    s.canonical = true →
    s.get (Reg.FL.PORT_STAT.STATE p.val) = 2 →
    linksIdle s p.val = true →
    risingFrom 0 (s.port p.val).credits = true →
    ∃ t, Sys2Proof.Machine.exec (.credit p [(vc, n)]) s = .next t ∧
      getAt 0 vc.val (t.port p.val).credits = min (vcBuffer vc.val) (getAt 0 vc.val (s.port p.val).credits + n.toNat) ∧ (∀ v ∈ List.range 15, v ≠ vc.val → getAt 0 v (t.port p.val).credits = getAt 0 v (s.port p.val).credits) ∧ OnlyPort s p.val t ∧ s.SameFields [Reg.FLC.RX_UNITS.CNT p.val] t

/-- CREDIT that suffices for the one queued packet (R303, R305, R306): its units are sent in order, each for a credit. -/
def creditSendsQueued : Prop :=
  ∀ (s : State) (p : Fin 8) (n : BitVec 16) (i : LinkItem),
    s.canonical = true →
    s.get (Reg.FL.PORT_STAT.STATE p.val) = 2 →
    (s.port p.val).queue = [i] →
    s.net.cuff = [] →
    (List.range 8).all (fun q => (s.port q).rx.isEmpty) = true →
    i.kind = .packet →
    i.sent = 0 →
    i.vc < 10 →
    risingFrom 0 (s.port p.val).credits = true →
    i.units ≤ min (vcBuffer i.vc) (getAt 0 i.vc (s.port p.val).credits + n.toNat) →
    ∃ t, Sys2Proof.Machine.exec (.credit p [(Fin.ofNat 15 i.vc, n)]) s = .next t ∧
      (t.port p.val).queue = [] ∧ t.out = s.out ++ (List.range i.units).map (fun k => .link p.val (i.unit k)) ∧ t.get (Reg.FLC.TX_UNITS.CNT p.val) = s.counted (Reg.FLC.TX_UNITS.CNT p.val) i.units ∧ getAt 0 i.vc (t.port p.val).credits = min (vcBuffer i.vc) (getAt 0 i.vc (s.port p.val).credits + n.toNat) - i.units

/-- STEPTOK (R306, R329): the neighbour's highest token counts, and the unit's credit returns; nothing else changes. -/
def stepTokenCounts : Prop :=
  ∀ (s : State) (p : Fin 8) (tok : Word32) (k : Nat),
    s.canonical = true →
    s.get (Reg.FL.PORT_STAT.STATE p.val) = 2 →
    linksIdle s p.val = true →
    noStepWaits s = true →
    s.tokens = [(s.get (Reg.FL.PEER.ID p.val), some k)] →
    ∃ t, Sys2Proof.Machine.exec (.steptok p tok) s = .next t ∧
      t.tokens = [(s.get (Reg.FL.PEER.ID p.val), some (if State.before32 k tok.toNat then tok.toNat else k))] ∧ t.gone = s.gone.filter (· != s.get (Reg.FL.PEER.ID p.val)) ∧ t.get (Reg.FL.TOK_RX.STEP p.val) = tok.toNat ∧ t.out = s.out ++ [mgmtUnit p.val (mgmtCredit 14 1)]
      ∧ s.OnlyFields [Reg.FLC.RX_UNITS.CNT p.val, Reg.FLC.TX_UNITS.CNT p.val, Reg.FL.TOK_RX.STEP p.val] { t with tokens := s.tokens, gone := s.gone, out := s.out }

/-- STEPTOK from a neighbour that is not in the lookahead test (R329, R330): it is from then on, with this token. -/
def firstStepTokenCounts : Prop :=
  ∀ (s : State) (p : Fin 8) (tok : Word32),
    s.canonical = true →
    s.get (Reg.FL.PORT_STAT.STATE p.val) = 2 →
    linksIdle s p.val = true →
    noStepWaits s = true →
    s.tokens = [] →
    ∃ t, Sys2Proof.Machine.exec (.steptok p tok) s = .next t ∧
      t.tokens = [(s.get (Reg.FL.PEER.ID p.val), some tok.toNat)] ∧ t.get (Reg.FL.TOK_RX.STEP p.val) = tok.toNat

/-- BARTOK (R333): the channel's flag is set. -/
def barrierTokenSetsFlag : Prop :=
  ∀ (s : State) (p : Fin 8) (k : Fin 4),
    s.canonical = true →
    s.get (Reg.FL.PORT_STAT.STATE p.val) = 2 →
    linksIdle s p.val = true →
    s.pageUp (pageAt State.pgSNET) = true →
    ∃ t, Sys2Proof.Machine.exec (.bartok p k) s = .next t ∧
      t.get Reg.SNET.FLAGS.FLAG = s.get Reg.SNET.FLAGS.FLAG ||| 2 ^ s.get (Reg.FL.BARX.FLAG p.val k.val) ∧ s.SameFields [Reg.FLC.RX_UNITS.CNT p.val, Reg.FLC.TX_UNITS.CNT p.val, Reg.SNET.FLAGS.FLAG] t ∧ t.mem = s.mem ∧ t.tiles = s.tiles

/-- CGRANT (R334): the peer's grant adds credits of the group. -/
def grantAdds : Prop :=
  ∀ (s : State) (p : Fin 8) (g : Fin 64) (cr : BitVec 8),
    s.canonical = true →
    s.get (Reg.FL.PORT_STAT.STATE p.val) = 2 →
    linksIdle s p.val = true →
    (s.port p.val).lines = [] →
    risingFrom 0 (s.port p.val).grants = true →
    ∃ t, Sys2Proof.Machine.exec (.cgrant p g cr) s = .next t ∧
      lookup g.val (t.port p.val).grants = some (getAt 0 g.val (s.port p.val).grants + cr.toNat) ∧ OnlyPort s p.val t ∧ s.SameFields [Reg.FLC.RX_UNITS.CNT p.val, Reg.FLC.TX_UNITS.CNT p.val] t

/-- CRETURN (R334): credits of a granted group come back. -/
def creditReturnAdds : Prop :=
  ∀ (s : State) (p : Fin 8) (g : Fin 64) (cr : BitVec 8),
    s.canonical = true →
    s.get (Reg.FL.PORT_STAT.STATE p.val) = 2 →
    linksIdle s p.val = true →
    (s.port p.val).lines = [] →
    risingFrom 0 (s.port p.val).grants = true →
    (lookup g.val (s.port p.val).grants).isSome = true →
    ∃ t, Sys2Proof.Machine.exec (.creturn p g cr) s = .next t ∧
      lookup g.val (t.port p.val).grants = some (getAt 0 g.val (s.port p.val).grants + cr.toNat) ∧ OnlyPort s p.val t ∧ s.SameFields [Reg.FLC.RX_UNITS.CNT p.val, Reg.FLC.TX_UNITS.CNT p.val] t

end Sys2Proof.Machine.Claims

/-- The Freash ports: packets and management units -/
def Obligations.LinkUnitsComplete : Prop :=
  Sys2Proof.Machine.Claims.corruptUnitDropped ∧ Sys2Proof.Machine.Claims.eventsLand ∧ Sys2Proof.Machine.Claims.packetHasNoRoute ∧
    Sys2Proof.Machine.Claims.idleSent ∧ Sys2Proof.Machine.Claims.creditsReturn ∧ Sys2Proof.Machine.Claims.creditSendsQueued ∧
    Sys2Proof.Machine.Claims.stepTokenCounts ∧ Sys2Proof.Machine.Claims.firstStepTokenCounts ∧ Sys2Proof.Machine.Claims.barrierTokenSetsFlag ∧
    Sys2Proof.Machine.Claims.grantAdds ∧ Sys2Proof.Machine.Claims.creditReturnAdds

/-! The Freash ports: loss of link, routing banks, lookahead and collective channels -/

namespace Sys2Proof.Machine.Claims

/-- LINK_DOWN (R321, R322): the port is DOWN, what it had queued is discarded, its packets counted, and a FAILOVER port in hardware mode awaits its switch. -/
def linkGoesDown : Prop :=
  ∀ (s : State) (p : Fin 8),
    s.canonical = true →
    s.get (Reg.FL.PORT_STAT.STATE p.val) = 2 →
    noStepWaits s = true →
    s.tokens = [] →
    (s.port p.val).queue.all (fun i => i.kind != .reply) = true →
    ∃ t, Sys2Proof.Machine.exec (.linkDown p) s = .next t ∧
      t.get (Reg.FL.PORT_STAT.STATE p.val) = 0 ∧ t.get (Reg.HDR.BLK_STAT.READY (flPg p.val)) = 0 ∧ (t.port p.val).queue = [] ∧ (t.port p.val).credits = [] ∧ (t.port p.val).lines = [] ∧ t.get (Reg.FLC.DOWN_CNT.CNT p.val) = s.counted (Reg.FLC.DOWN_CNT.CNT p.val) 1 ∧ t.get (Reg.HDR.BLK_STAT.ERR (flPg p.val)) = 1
      ∧ (t.port p.val).lost = (s.flag (Reg.FL.PORT_CFG.FAILOVER p.val) && !s.hostMode (flPg p.val)) ∧ t.get (Reg.FLC.RT_PORTDOWN_CNT.CNT 0) = s.counted (Reg.FLC.RT_PORTDOWN_CNT.CNT 0) (((s.port p.val).queue.filter fun i => i.kind != .mgmt && i.kind != .token).length + (s.port p.val).lines.length) ∧ OnlyPort s p.val { t with gone := s.gone }

/-- FAILOVER (R322): routing goes to bank B. -/
def failoverSwitches : Prop :=
  ∀ (s : State) (p : Fin 8),
    s.canonical = true →
    (s.port p.val).lost = true →
    s.get (Reg.FL.PORT_CFG.FAILOVER p.val) = 1 →
    s.get (Reg.FL.RT_SEL.BANK 0) = 0 →
    s.isEnabled (routePg 0 1) = true →
    ∃ t, Sys2Proof.Machine.exec (.failover p) s = .next t ∧
      t.get (Reg.FL.RT_SEL.BANK 0) = 1 ∧ t.get (Reg.FL.RT_STAT.AUTO 0) = 1 ∧ t.get (Reg.FL.RT_STAT.SWITCHES 0) = s.counted (Reg.FL.RT_STAT.SWITCHES 0) 1 ∧ (t.port p.val).lost = false ∧ OnlyPort s p.val t ∧ s.SameFields ([Reg.FL.RT_SEL.BANK 0, Reg.FL.RT_STAT.AUTO 0, Reg.FL.RT_STAT.SWITCHES 0] ++ irqFields (flPg p.val)) t

/-- FAILOVER without an enabled bank B to go to (R322): the miss is counted. -/
def failoverMisses : Prop :=
  ∀ (s : State) (p : Fin 8),
    s.canonical = true →
    (s.port p.val).lost = true →
    s.get (Reg.FL.PORT_CFG.FAILOVER p.val) = 1 →
    s.get (Reg.FL.RT_SEL.BANK 0) = 1 ∨ s.isEnabled (routePg 0 1) = false →
    ∃ t, Sys2Proof.Machine.exec (.failover p) s = .next t ∧
      t.get (Reg.FL.RT_SEL.BANK 0) = s.get (Reg.FL.RT_SEL.BANK 0) ∧ t.get (Reg.FL.RT_STAT.MISS 0) = s.counted (Reg.FL.RT_STAT.MISS 0) 1 ∧ s.SameFields [Reg.FL.RT_STAT.MISS 0] t

/-- RT_SEL (R323): an authorised write selects an enabled bank. -/
def routingBankSelected : Prop :=
  ∀ (s : State) (src : Source) (bank : Bool),
    s.canonical = true →
    (src == .host && s.hostWaits) = false →
    s.answers src (flPg 0 + 0x204) = true →
    s.authorised src = true →
    (s.get Reg.SECURITY.LOCK.BITS).testBit 3 = false →
    s.isEnabled (routePg 0 (if bank then 1 else 0)) = true →
    ∃ t, Sys2Proof.Machine.exec (.rtSel src bank) s = .next t ∧
      t.get (Reg.FL.RT_SEL.BANK 0) = (if bank then 1 else 0) ∧ t.get (Reg.HDR.BLK_REASON.CODE (flPg 0)) = 0 ∧ (s.slowed src (flPg 0 + 0x204)).OnlyFields ([Reg.FL.RT_SEL.BANK 0] ++ reasonFields (flPg 0)) t

/-- RT_SEL from a source that does not hold the token (R62): refused with NOT_HOLDER. -/
def routingBankNotHolder : Prop :=
  ∀ (s : State) (src : Source) (bank : Bool),
    s.canonical = true →
    (src == .host && s.hostWaits) = false →
    s.answers src (flPg 0 + 0x204) = true →
    s.authorised src = false →
    src ≠ .host ∨ (∀ p ∈ List.range 8, s.hostMode (flPg p) = false) →
    ∃ t, Sys2Proof.Machine.exec (.rtSel src bank) s = .next t ∧
      t.get (Reg.FL.RT_SEL.BANK 0) = s.get (Reg.FL.RT_SEL.BANK 0) ∧ t.get (Reg.HDR.BLK_REASON.CODE (flPg 0)) = rcNotHolder ∧ t.get (Reg.HDR.BLK_REASON.OFFSET (flPg 0)) = 0x204 ∧ t.get (Reg.HDR.BLK_STAT.REFUSED (flPg 0)) = 1 ∧ (s.slowed src (flPg 0 + 0x204)).OnlyNotices (reasonFields (flPg 0) ++ [Reg.HDR.BLK_STAT.REFUSED (flPg 0)] ++ irqFields (flPg 0)) t

/-- RT_SEL of a bank that is not enabled (R324): refused. -/
def routingBankDisabled : Prop :=
  ∀ (s : State) (src : Source) (bank : Bool),
    s.canonical = true →
    (src == .host && s.hostWaits) = false →
    s.answers src (flPg 0 + 0x204) = true →
    s.authorised src = true →
    (s.get Reg.SECURITY.LOCK.BITS).testBit 3 = false →
    s.isEnabled (routePg 0 (if bank then 1 else 0)) = false →
    ∃ t, Sys2Proof.Machine.exec (.rtSel src bank) s = .next t ∧
      t.get (Reg.FL.RT_SEL.BANK 0) = s.get (Reg.FL.RT_SEL.BANK 0) ∧ t.get (Reg.HDR.BLK_REASON.CODE (flPg 0)) = rcDep ∧ t.get (Reg.HDR.BLK_REASON.OFFSET (flPg 0)) = 0x204 ∧ t.get (Reg.HDR.BLK_STAT.REFUSED (flPg 0)) = 1 ∧ (s.slowed src (flPg 0 + 0x204)).OnlyNotices (reasonFields (flPg 0) ++ [Reg.HDR.BLK_STAT.REFUSED (flPg 0)] ++ irqFields (flPg 0)) t

/-- XSYNC_CFG that enables the lookahead (R331) with no port UP: the fields take the written values. -/
def lookaheadEnabled : Prop :=
  ∀ (s : State) (src : Source) (v : Word32),
    s.canonical = true →
    (src == .host && s.hostWaits) = false →
    s.answers src (flPg 0 + 0x20C) = true →
    s.get (Reg.FL.XSYNC_CFG.EN 0) = 0 →
    v.toNat / 2 ^ 31 = 1 →
    1 ≤ v.toNat % 16 ∧ v.toNat % 16 ≤ 8 →
    v.toNat % 16 ≤ v.toNat / 2 ^ 16 % 64 →
    s.pageUp (pageAt pgSTEP) = true →
    s.isReady pgSTEP = true →
    (List.range 8).all (fun p => !s.portUp p) = true →
    ∃ t, Sys2Proof.Machine.exec (.xsyncCfg src v) s = .next t ∧
      t.get (Reg.FL.XSYNC_CFG.EN 0) = 1 ∧ t.get (Reg.FL.XSYNC_CFG.LOOKAHEAD 0) = v.toNat % 16 ∧ t.get (Reg.FL.XSYNC_CFG.XDELAY_MIN 0) = v.toNat / 2 ^ 16 % 64 ∧ (s.slowed src (flPg 0 + 0x20C)).OnlyFields [Reg.FL.XSYNC_CFG.EN 0, Reg.FL.XSYNC_CFG.LOOKAHEAD 0, Reg.FL.XSYNC_CFG.XDELAY_MIN 0] t

/-- XSYNC_CFG whose LOOKAHEAD is not 1 to 8 (R331): refused with RANGE. -/
def lookaheadRefused : Prop :=
  ∀ (s : State) (src : Source) (v : Word32),
    s.canonical = true →
    (src == .host && s.hostWaits) = false →
    s.answers src (flPg 0 + 0x20C) = true →
    s.get (Reg.FL.XSYNC_CFG.EN 0) = 0 →
    v.toNat / 2 ^ 31 = 1 →
    v.toNat % 16 = 0 ∨ 8 < v.toNat % 16 →
    ∃ t, Sys2Proof.Machine.exec (.xsyncCfg src v) s = .next t ∧
      t.get (Reg.FL.XSYNC_CFG.EN 0) = 0 ∧ t.get (Reg.HDR.BLK_REASON.CODE (flPg 0)) = rcRange ∧ t.get (Reg.HDR.BLK_STAT.REFUSED (flPg 0)) = 1 ∧ (s.slowed src (flPg 0 + 0x20C)).OnlyNotices (reasonFields (flPg 0) ++ [Reg.HDR.BLK_STAT.REFUSED (flPg 0)] ++ irqFields (flPg 0)) t

/-- XCOL_ENABLE (R334, R337): the channel's first word is written; setting EN on a port of version 3.0 or above that is UP, with a credit of its management VC, sends the grant. -/
def collectiveChannelWritten : Prop :=
  ∀ (s : State) (src : Source) (p : Fin 8) (k : Fin 4) (v : Word32),
    s.canonical = true →
    (src == .host && s.hostWaits) = false →
    s.answers src (flPg p.val + 0x80 + 0x10 * k.val) = true →
    (s.port p.val).queue = [] →
    1 ≤ getAt 0 14 (s.port p.val).credits →
    ∃ t, Sys2Proof.Machine.exec (.xcolEnable src p k v) s = .next t ∧
      t.get (Reg.FL.XCOL_W0.EN p.val k.val) = v.toNat / 2 ^ 31 ∧ t.get (Reg.FL.XCOL_W0.GROUP p.val k.val) = v.toNat / 2 ^ 16 % 64 ∧ t.get (Reg.FL.XCOL_W0.DEPTH_M1 p.val k.val) = v.toNat % 64 ∧ s.SameFields [Reg.FL.XCOL_W0.EN p.val k.val, Reg.FL.XCOL_W0.GROUP p.val k.val, Reg.FL.XCOL_W0.DEPTH_M1 p.val k.val, Reg.FLC.TX_UNITS.CNT p.val] t
      ∧ t.out = s.out ++ (if v.toNat / 2 ^ 31 = 1 ∧ s.get (Reg.FL.XCOL_W0.EN p.val k.val) = 0 ∧ s.get (Reg.FL.PORT_STAT.STATE p.val) = 2 ∧ 0x30 ≤ s.get (Reg.FL.PORT_STAT.VER p.val) then [mgmtUnit p.val (mgmtGrant (v.toNat / 2 ^ 16 % 64) (v.toNat % 64 + 1))] else [])

/-- EVT_LIFE of an event in the landing store (R332): dropped and counted. -/
def landingEventExpires : Prop :=
  ∀ (s : State) (p : Fin 8) (k : Nat),
    s.canonical = true →
    k < (s.port p.val).landing.length →
    ∃ t, Sys2Proof.Machine.exec (.evtLife p true k) s = .next t ∧
      (t.port p.val).landing = (s.port p.val).landing.eraseIdx k ∧ t.get (Reg.FLC.XEVT_LIFE_CNT.CNT p.val) = s.counted (Reg.FLC.XEVT_LIFE_CNT.CNT p.val) 1 ∧ OnlyPort s p.val t ∧ s.SameFields ([Reg.FLC.XEVT_LIFE_CNT.CNT p.val] ++ irqFields (flcPg p.val)) t

end Sys2Proof.Machine.Claims

/-- The Freash ports: loss of link, routing banks, lookahead and collective channels -/
def Obligations.LinkStateAndRouting : Prop :=
  Sys2Proof.Machine.Claims.linkGoesDown ∧ Sys2Proof.Machine.Claims.failoverSwitches ∧ Sys2Proof.Machine.Claims.failoverMisses ∧
    Sys2Proof.Machine.Claims.routingBankSelected ∧ Sys2Proof.Machine.Claims.routingBankNotHolder ∧ Sys2Proof.Machine.Claims.routingBankDisabled ∧
    Sys2Proof.Machine.Claims.lookaheadEnabled ∧ Sys2Proof.Machine.Claims.lookaheadRefused ∧ Sys2Proof.Machine.Claims.collectiveChannelWritten ∧
    Sys2Proof.Machine.Claims.landingEventExpires

/-! Movers: rings, descriptors, packets, retries and aborts -/

namespace Sys2Proof.Machine.Claims

/-- A mover that takes up no descriptor by itself: it is not idle, or its page is disabled, or its ring is empty (R358). -/
def mvRests (s : State) (m : Nat) : Bool := s.mvState m != 0 || !s.isEnabled (moverPg m) || s.get (Reg.MOVER.RING_HEAD.IDX m) % s.mvSize m == s.get (Reg.MOVER.RING_TAIL.IDX m)

/-- The four bytes of a slot's status word can be written: they are in a tile's bank that is ON. -/
def slotWritable (s : State) (a : Nat) : Bool :=
  decide (a % 4 = 0) && decide (a / 0x400000 < 256) && decide (a % 0x400000 + 4 ≤ 0x300000) && s.bankOn (a / 0x400000) (a % 0x400000 / 0x30000) && soundStore s

/-- The request of a mover to this module in class BULK (R353), in the epoch of its NI's account of endpoint d. -/
def bulkPkt (s : State) (m : Nat) (op : Fin 10) (tag a d size : Nat) (data : List Byte) : Pkt :=
  { op := op, src := Fin.ofNat 384 (epMover m), smod := BitVec.ofNat 12 s.modId, tag := BitVec.ofNat 12 tag, cls := 5,
    epoch := (s.lane (epMover m) d).epoch, dmod := BitVec.ofNat 12 s.modId, addr := BitVec.ofNat 48 a, size := size, data := data, mcast := none }

/-- The write of a status word into a ring slot whose address decodes to endpoint d (R357), as a request on its way. -/
def statusPkt (s : State) (m idx w d : Nat) : Pkt := bulkPkt s m 1 (s.freeTag (epMover m)) (s.mvSlot m idx + 28) d 4 (toBytes 4 w)

/-- From s to t the hidden state of no other mover changes. -/
def OnlyMover (s : State) (m : Nat) (t : State) : Prop := ∀ k ∈ List.range 32, k ≠ m → t.mover k = s.mover k

/-- The status word of a descriptor's slot (R357): valid, retries, code. -/
def statusWord (retries code : Nat) : Nat := 2 ^ 31 + min retries 255 * 65536 + code

/-- RING_HEAD (R358): stored modulo the ring size; a mover that is busy or disabled takes up nothing. -/
def ringHeadStored : Prop :=
  ∀ (s : State) (src : Source) (m : Fin 32) (v : Word32),
    s.canonical = true →
    (src == .host && s.hostWaits) = false →
    s.answers src (moverPg m.val + 0x54) = true →
    s.get (Reg.MOVER.MV_CFG.POST m.val) = 0 →
    s.mvState m.val ≠ 0 ∨ s.isEnabled (moverPg m.val) = false →
    ∃ t, Sys2Proof.Machine.exec (.ringHead src m v) s = .next t ∧
      t.get (Reg.MOVER.RING_HEAD.IDX m.val) = v.toNat % 2 ^ 16 % s.mvSize m.val ∧ s.OnlyFields [Reg.MOVER.RING_HEAD.IDX m.val] t

/-- RING_HEAD while only posts add descriptors (R358): refused with BUSY. -/
def ringHeadBusy : Prop :=
  ∀ (s : State) (src : Source) (m : Fin 32) (v : Word32),
    s.canonical = true →
    (src == .host && s.hostWaits) = false →
    s.answers src (moverPg m.val + 0x54) = true →
    s.get (Reg.MOVER.MV_CFG.POST m.val) = 1 →
    ∃ t, Sys2Proof.Machine.exec (.ringHead src m v) s = .next t ∧
      t.get (Reg.HDR.BLK_REASON.CODE (moverPg m.val)) = rcBusy ∧ t.get (Reg.HDR.BLK_STAT.REFUSED (moverPg m.val)) = 1 ∧ s.OnlyNotices (reasonFields (moverPg m.val) ++ [Reg.HDR.BLK_STAT.REFUSED (moverPg m.val)] ++ irqFields (moverPg m.val)) t

/-- RING_HEAD at an idle mover (R358): it fetches the descriptor at TAIL. -/
def descriptorFetchSent : Prop :=
  ∀ (s : State) (src : Source) (m : Fin 32) (v : Word32) (d : Nat),
    s.canonical = true →
    (src == .host && s.hostWaits) = false →
    s.answers src (moverPg m.val + 0x54) = true →
    s.get (Reg.MOVER.MV_CFG.POST m.val) = 0 →
    s.mvState m.val = 0 →
    s.isEnabled (moverPg m.val) = true →
    s.mover m.val = MoverS.reset →
    v.toNat % 2 ^ 16 % s.mvSize m.val ≠ s.get (Reg.MOVER.RING_TAIL.IDX m.val) →
    epOf (s.mvSlot m.val (s.get (Reg.MOVER.RING_TAIL.IDX m.val))) = some d →
    (s.lane (epMover m.val) d).count < 32766 →
    ∃ t, Sys2Proof.Machine.exec (.ringHead src m v) s = .next t ∧
      t.get (Reg.MOVER.RING_HEAD.IDX m.val) = v.toNat % 2 ^ 16 % s.mvSize m.val ∧ t.get (Reg.MOVER.MV_STAT2.STATE m.val) = 1 ∧ (t.mover m.val).fetch = some (s.freeTag (epMover m.val)) ∧ t.net.out = s.net.out ++ [bulkPkt s m.val 0 (s.freeTag (epMover m.val)) (s.mvSlot m.val (s.get (Reg.MOVER.RING_TAIL.IDX m.val))) d 32 []]
      ∧ OnlyMover s m.val t ∧ s.SameFields [Reg.MOVER.RING_HEAD.IDX m.val, Reg.MOVER.MV_STAT2.STATE m.val] t ∧ t.mem = s.mem ∧ t.tiles = s.tiles

/-- POST to a busy mover with a free slot (R358, R359): the mover keeps its own copy of the descriptor, HEAD moves on, and the write of the descriptor into the ring's slot is on its way. -/
def postStored : Prop :=
  ∀ (s : State) (m : Fin 32) (p : Post) (d : Nat),
    s.canonical = true →
    s.posts = [p] →
    p.mover = m.val →
    p.tile < 256 →
    s.cuffClear = true →
    s.domOn (320 + m.val / 16) = true →
    s.isEnabled (moverPg m.val) = true →
    s.get (Reg.HDR.BLK_CTRL.SRST (moverPg m.val)) = 0 →
    s.get (Reg.MOVER.MV_CFG.POST m.val) = 1 →
    s.mvState m.val ≠ 0 →
    (s.get (Reg.MOVER.RING_HEAD.IDX m.val) % s.mvSize m.val + 1) % s.mvSize m.val ≠ s.get (Reg.MOVER.RING_TAIL.IDX m.val) →
    epOf (s.mvSlot m.val (s.get (Reg.MOVER.RING_HEAD.IDX m.val) % s.mvSize m.val)) = some d →
    (s.lane (epMover m.val) d).count < 32766 →
    p.desc.length = 32 →
    ∃ t, Sys2Proof.Machine.exec (.post m) s = .next t ∧
      t.posts = [] ∧ t.net.out = s.net.out ++ [bulkPkt s m.val 1 ({ s with posts := [] }.freeTag (epMover m.val)) (s.mvSlot m.val (s.get (Reg.MOVER.RING_HEAD.IDX m.val) % s.mvSize m.val)) d 32 p.desc] ∧ t.get (Reg.MOVER.RING_HEAD.IDX m.val) = (s.get (Reg.MOVER.RING_HEAD.IDX m.val) % s.mvSize m.val + 1) % s.mvSize m.val
      ∧ lookup (s.get (Reg.MOVER.RING_HEAD.IDX m.val) % s.mvSize m.val) (t.mover m.val).copies = some (p.desc, p.key.map fun k => (p.tile, k)) ∧ (t.mover m.val).rings = (s.mover m.val).rings ++ [({ s with posts := [] }.freeTag (epMover m.val), s.get (Reg.MOVER.RING_HEAD.IDX m.val) % s.mvSize m.val)] ∧ OnlyMover s m.val t ∧ s.SameFields [Reg.MOVER.RING_HEAD.IDX m.val] t ∧ t.mem = s.mem ∧ t.tiles = s.tiles

/-- POST to a disabled mover (R360): the tile gets NOT_POSTABLE. -/
def postNotPostable : Prop :=
  ∀ (s : State) (m : Fin 32) (p : Post) (tr : Tracked) (g : Nat),
    s.posts = [p] →
    p.mover = m.val →
    p.tile < 256 →
    s.cuffClear = true →
    s.domOn (320 + m.val / 16) = true →
    p.key = some 0 →
    (s.tile p.tile).tracked = [tr] →
    tr.tag = 8192 →
    tr.ready = none →
    tr.reg = some g →
    s.isEnabled (moverPg m.val) = false →
    ∃ t, Sys2Proof.Machine.exec (.post m) s = .next t ∧
      t.posts = [] ∧ (t.tile p.tile).tracked = [{ tr with ready := some s.issue.period, res := [.sreg g (BitVec.ofNat 64 (2 ^ 31 + 0x16))] }] ∧ t.mem = s.mem ∧ t.movers = s.movers ∧ s.SameTiles p.tile t ∧ t.regs = s.regs

/-- POST to a full ring (R360): dropped, counted, and the tile gets RING_FULL. -/
def postRingFull : Prop :=
  ∀ (s : State) (m : Fin 32) (p : Post) (tr : Tracked) (g : Nat),
    s.canonical = true →
    s.posts = [p] →
    p.mover = m.val →
    p.tile < 256 →
    s.cuffClear = true →
    s.domOn (320 + m.val / 16) = true →
    p.key = some 0 →
    (s.tile p.tile).tracked = [tr] →
    tr.tag = 8192 →
    tr.ready = none →
    tr.reg = some g →
    s.isEnabled (moverPg m.val) = true →
    s.get (Reg.HDR.BLK_CTRL.SRST (moverPg m.val)) = 0 →
    s.get (Reg.MOVER.MV_CFG.POST m.val) = 1 →
    (s.get (Reg.MOVER.RING_HEAD.IDX m.val) % s.mvSize m.val + 1) % s.mvSize m.val = s.get (Reg.MOVER.RING_TAIL.IDX m.val) →
    ∃ t, Sys2Proof.Machine.exec (.post m) s = .next t ∧
      t.posts = [] ∧ (t.tile p.tile).tracked = [{ tr with ready := some s.issue.period, res := [.sreg g (BitVec.ofNat 64 (2 ^ 31 + 0x15))] }] ∧ t.mem = s.mem ∧ t.movers = s.movers ∧ s.SameTiles p.tile t ∧ t.get (Reg.MOVER.POST_DROP_CNT.CNT m.val) = s.counted (Reg.MOVER.POST_DROP_CNT.CNT m.val) 1 ∧ s.SameFields ([Reg.MOVER.POST_DROP_CNT.CNT m.val] ++ irqFields (moverPg m.val)) t

/-- DESC_FETCH of a failed fetch (R357): the descriptor ends with that status, whose write to its slot is on its way. -/
def failedFetchEnds : Prop :=
  ∀ (s : State) (m : Fin 32) (st : Nat) (bs : List Byte) (d : Nat),
    s.canonical = true →
    (s.mover m.val).fetched = some (st, bs) →
    (s.mover m.val).copies = [] →
    (s.mover m.val).abortF = false →
    (s.mover m.val).job = none →
    st ≠ 0 →
    st ≠ stBUSY →
    st < 16 →
    epOf (s.mvSlot m.val (s.get (Reg.MOVER.RING_TAIL.IDX m.val)) + 28) = some d →
    (s.lane (epMover m.val) d).count < 32766 →
    ∃ t, Sys2Proof.Machine.exec (.descFetch m) s = .next t ∧
      (t.mover m.val).fin = some ⟨s.freeTag (epMover m.val), s.get (Reg.MOVER.RING_TAIL.IDX m.val), statusWord 0 st, st, some 0, false, false, false, none⟩ ∧ (t.mover m.val).job = none ∧ t.net.out = s.net.out ++ [statusPkt s m.val (s.get (Reg.MOVER.RING_TAIL.IDX m.val)) (statusWord 0 st) d] ∧ t.get (Reg.MOVER.MV_STAT.OUTSTANDING m.val) = 0 ∧ (t.mover m.val).fetched = none ∧ OnlyMover s m.val t ∧ s.SameFields [Reg.MOVER.MV_STAT.OUTSTANDING m.val] t ∧ t.mem = s.mem ∧ t.tiles = s.tiles

/-- DESC_FETCH of a descriptor within one 4 KiB block (R352, R353): it passes its checks and its read is on its way. -/
def descriptorStarts : Prop :=
  ∀ (s : State) (m : Fin 32) (bs : List Byte) (d : Nat),
    s.canonical = true →
    (s.mover m.val).fetched = some (0, bs) →
    (s.mover m.val).copies = [] →
    (s.mover m.val).abortF = false →
    s.mvCheck (elem 8 0 bs) (elem 8 1 bs) (elem 4 4 bs) (elem 4 5 bs) = 0 →
    elem 4 5 bs = 0 →
    0 < elem 4 4 bs →
    elem 4 4 bs < 2 ^ 26 →
    elem 8 0 bs % 4096 + elem 4 4 bs ≤ 4096 →
    elem 8 1 bs % 4096 + elem 4 4 bs ≤ 4096 →
    epOf (elem 8 0 bs) = some d →
    (s.lane (epMover m.val) d).count < 32766 →
    ∃ t, Sys2Proof.Machine.exec (.descFetch m) s = .next t ∧
      t.net.out = s.net.out ++ [bulkPkt s m.val 0 (s.freeTag (epMover m.val)) (elem 8 0 bs) d (elem 4 4 bs) []] ∧ t.get (Reg.MOVER.MV_STAT2.STATE m.val) = 1 ∧ t.get (Reg.MOVER.MV_STAT.OUTSTANDING m.val) = 1 ∧ (t.mover m.val).job.map (fun j => (j.src, j.dst, j.len, j.pkts.length)) = some (elem 8 0 bs, elem 8 1 bs, elem 4 4 bs, 1) ∧ OnlyMover s m.val t ∧ t.mem = s.mem ∧ t.tiles = s.tiles

/-- CHECK_CHANNEL_GRANT (R363): the descriptor that waited takes the channel, and its CRC starts. -/
def channelTaken : Prop :=
  ∀ (s : State) (c : Fin 8) (m : Nat) (j : MvJob),
    s.canonical = true →
    (s.chkCh c.val).wait = [m] →
    s.chkFree c.val = true →
    (s.mover m).job = some j →
    j.chk = some c.val →
    j.stop = false →
    j.abort = false →
    j.pkts = [] →
    j.next < j.len →
    j.cont = false →
    j.ssp = 0 →
    m < 32 →
    ∃ t, Sys2Proof.Machine.exec (.checkChannelGrant c) s = .next t ∧
      (t.chkCh c.val).holder = some m ∧ (t.chkCh c.val).wait = [] ∧ t.get (Reg.CHECK.SCAN_STAT.HELD c.val) = 1 ∧ t.get (Reg.CHECK.CHK_RUN.VALUE c.val) = crcInit (s.get (Reg.CHECK.CHK_CFG.POLY c.val)) ∧ t.get (Reg.MOVER.MV_STAT2.STATE m) = 1 ∧ OnlyMover s m t ∧ t.mem = s.mem ∧ t.tiles = s.tiles

/-- MOVER_PACKET_DONE of the last packet, without a check channel (R353, R357): its bytes are counted, the descriptor ends with OK, and the write of its status word to its slot is on its way. -/
def lastPacketEndsDescriptor : Prop :=
  ∀ (s : State) (m : Fin 32) (ofs : BitVec 27) (j : MvJob) (p : MvPkt) (d : Nat),
    s.canonical = true →
    (s.mover m.val).job = some j →
    j.pkts = [p] →
    j.chk = none →
    j.stop = false →
    j.abort = false →
    j.post = none →
    p.ofs = ofs.toNat →
    p.ack = some 0 →
    p.cast = false →
    p.ofs ≠ j.len →
    j.len ≤ j.next →
    epOf (s.mvSlot m.val j.idx + 28) = some d →
    (s.lane (epMover m.val) d).count < 32766 →
    ∃ t, Sys2Proof.Machine.exec (.moverPacketDone m ofs) s = .next t ∧
      (t.mover m.val).fin = some ⟨s.freeTag (epMover m.val), j.idx, statusWord j.retries 0, 0, none, j.doneF, j.irq, false, none⟩ ∧ (t.mover m.val).job = none ∧ t.net.out = s.net.out ++ [statusPkt s m.val (j.idx) (statusWord j.retries 0) d] ∧ t.get (Reg.MOVER.MV_STAT.OUTSTANDING m.val) = 0 ∧ t.get (Reg.MOVER.MV_BYTES.CNT m.val) = s.counted (Reg.MOVER.MV_BYTES.CNT m.val) p.size ∧ OnlyMover s m.val t ∧ s.SameFields [Reg.MOVER.MV_STAT.OUTSTANDING m.val, Reg.MOVER.MV_BYTES.CNT m.val] t ∧ t.mem = s.mem ∧ t.tiles = s.tiles

/-- WRACK of a status word's write (R356, R357): LAST_STATUS takes the word, TAIL moves on, the descriptor is counted and done or, with a code, an error; the mover is idle or STOPPED (here it has nothing more to take up). -/
def statusWritten : Prop :=
  ∀ (s : State) (m : Fin 32) (p : Pkt) (r : Rsp) (f : MvFin),
    s.canonical = true →
    s.net.out = [p] →
    s.net.past = [(p.src.val, p.tag.toNat)] →
    s.net.lanes = [] →
    s.net.rsps = [r] →
    r.dst = p.src.val →
    r.tag = p.tag.toNat →
    r.ack = true →
    r.line = none →
    r.via = none →
    r.status = 0 →
    s.net.gates = [] →
    s.cuffClear = true →
    p.src.val = epMover m.val →
    s.domOn (320 + m.val / 16) = true →
    s.movers = [(m.val, { MoverS.reset with fin := some f })] →
    f.tag = p.tag.toNat →
    f.post = none →
    f.word < 2 ^ 32 →
    f.code < 32 →
    f.idx < 2 ^ 15 →
    s.get (Reg.MOVER.RING_SIZE.LOG2 m.val) ≤ 15 →
    f.abort = true ∨ s.isEnabled (moverPg m.val) = false ∨ (f.idx + 1) % s.mvSize m.val = s.get (Reg.MOVER.RING_HEAD.IDX m.val) % s.mvSize m.val →
    ∃ t, Sys2Proof.Machine.exec (.wrack p.src p.tag noLuck) s = .next t ∧
      t.get (Reg.MOVER.LAST_STATUS.VALUE m.val) = f.word ∧ t.get (Reg.MOVER.RING_TAIL.IDX m.val) = (f.idx + 1) % s.mvSize m.val ∧ t.get (Reg.MOVER.DESC_CNT.CNT m.val) = s.counted (Reg.MOVER.DESC_CNT.CNT m.val) 1 ∧ (f.doneF = true → t.get (Reg.MOVER.MV_STAT.DONE_FLAG m.val) = 1)
      ∧ (f.code ≠ 0 → t.get (Reg.MOVER.ERR_DESC.VALUE m.val) = f.code * 65536 + f.idx) ∧ (f.code ≠ 0 → t.get (Reg.HDR.BLK_STAT.ERR (moverPg m.val)) = 1) ∧ t.get (Reg.MOVER.MV_STAT2.STATE m.val) = (if f.abort = true ∨ (f.code ≠ 0 ∧ s.get (Reg.MOVER.MV_CFG.ERR_STOP m.val) = 1) then 4 else 0)
      ∧ t.mover m.val = MoverS.reset ∧ t.net.out = [] ∧ t.mem = s.mem ∧ t.tiles = s.tiles

/-- MOVER_PACKET_DONE of a packet that met BUSY (R356): counted, and it waits to be sent again. -/
def busyPacketWaits : Prop :=
  ∀ (s : State) (m : Fin 32) (ofs : BitVec 27) (j : MvJob) (p : MvPkt),
    s.canonical = true →
    (s.mover m.val).job = some j →
    j.pkts = [p] →
    j.chk = none →
    j.stop = false →
    j.abort = false →
    j.post = none →
    p.ofs = ofs.toNat →
    p.ack = some stBUSY →
    p.cast = false →
    s.hostMode (moverPg m.val) = false →
    p.tries < s.get (Reg.MOVER.MV_CFG.RETRY_MAX m.val) →
    j.len ≤ j.next →
    ∃ t, Sys2Proof.Machine.exec (.moverPacketDone m ofs) s = .next t ∧
      (t.mover m.val).job = some { j with pkts := [{ p with stage := 2, ack := none }] } ∧ t.get (Reg.MOVER.BUSY_CNT.CNT m.val) = s.counted (Reg.MOVER.BUSY_CNT.CNT m.val) 1 ∧ OnlyMover s m.val t ∧ s.SameFields [Reg.MOVER.BUSY_CNT.CNT m.val, Reg.MOVER.MV_STAT.OUTSTANDING m.val] t ∧ t.mem = s.mem ∧ t.tiles = s.tiles

/-- MOVER_RETRY (R356): the packet's read is on its way again. -/
def packetSentAgain : Prop :=
  ∀ (s : State) (m : Fin 32) (ofs : BitVec 27) (j : MvJob) (p : MvPkt) (d : Nat),
    (s.mover m.val).job = some j →
    j.pkts = [p] →
    j.chk = none →
    j.stop = false →
    j.abort = false →
    j.post = none →
    p.ofs = ofs.toNat →
    p.stage = 2 →
    p.wr = false →
    j.ssp = 0 →
    j.src + p.ofs < 2 ^ 48 →
    epOf (j.src + p.ofs) = some d →
    (s.lane (epMover m.val) d).count < 32766 →
    ∃ t, Sys2Proof.Machine.exec (.moverRetry m ofs) s = .next t ∧
      (t.mover m.val).job = some { j with pkts := [{ p with stage := 0, wr := false, tag := s.freeTag (epMover m.val), tries := p.tries + 1, ack := none }], retries := j.retries + 1 } ∧ t.net.out = s.net.out ++ [bulkPkt s m.val 0 (s.freeTag (epMover m.val)) (j.src + p.ofs) d p.size []] ∧ OnlyMover s m.val t ∧ t.mem = s.mem ∧ t.tiles = s.tiles ∧ t.regs = s.regs

/-- RETRY (R356): the held packet is sent again and the mover runs. -/
def heldPacketRetried : Prop :=
  ∀ (s : State) (src : Source) (m : Fin 32) (j : MvJob) (p : MvPkt) (d : Nat),
    s.canonical = true →
    (src == .host && s.hostWaits) = false →
    s.answers src (moverPg m.val + 0x64) = true →
    (s.mover m.val).job = some j →
    j.pkts = [p] →
    j.chk = none →
    j.stop = false →
    j.abort = false →
    j.post = none →
    p.stage = 3 →
    s.mvState m.val = 3 →
    j.len ≤ j.next →
    p.wr = false →
    j.ssp = 0 →
    j.src + p.ofs < 2 ^ 48 →
    epOf (j.src + p.ofs) = some d →
    (s.lane (epMover m.val) d).count < 32766 →
    ∃ t, Sys2Proof.Machine.exec (.retry src m) s = .next t ∧
      (t.mover m.val).job = some { j with pkts := [{ p with stage := 0, wr := false, tag := s.freeTag (epMover m.val), tries := p.tries + 1, ack := none }], retries := j.retries + 1 } ∧ t.net.out = s.net.out ++ [bulkPkt s m.val 0 (s.freeTag (epMover m.val)) (j.src + p.ofs) d p.size []] ∧ OnlyMover s m.val t ∧ t.mem = s.mem ∧ t.tiles = s.tiles ∧ t.get (Reg.MOVER.MV_STAT2.STATE m.val) = 1

/-- SKIP (R356): the held packet, and so the descriptor, ends with BUSY; the write of its status word is on its way. -/
def heldPacketSkipped : Prop :=
  ∀ (s : State) (src : Source) (m : Fin 32) (j : MvJob) (p : MvPkt) (d : Nat),
    s.canonical = true →
    (src == .host && s.hostWaits) = false →
    s.answers src (moverPg m.val + 0x64) = true →
    (s.mover m.val).job = some j →
    j.pkts = [p] →
    j.chk = none →
    j.stop = false →
    j.abort = false →
    j.post = none →
    p.stage = 3 →
    j.fail = none →
    s.mvState m.val = 3 →
    epOf (s.mvSlot m.val j.idx + 28) = some d →
    (s.lane (epMover m.val) d).count < 32766 →
    ∃ t, Sys2Proof.Machine.exec (.skip src m) s = .next t ∧
      (t.mover m.val).fin = some ⟨s.freeTag (epMover m.val), j.idx, statusWord j.retries stBUSY, stBUSY, some p.ofs, j.doneF, j.irq, j.abort, none⟩ ∧ (t.mover m.val).job = none ∧ t.net.out = s.net.out ++ [statusPkt s m.val (j.idx) (statusWord j.retries stBUSY) d] ∧ t.get (Reg.MOVER.MV_STAT.OUTSTANDING m.val) = 0 ∧ t.get (Reg.MOVER.MV_STAT2.STATE m.val) = 1 ∧ OnlyMover s m.val t ∧ s.SameFields [Reg.MOVER.MV_STAT.OUTSTANDING m.val, Reg.MOVER.MV_STAT2.STATE m.val] t ∧ t.mem = s.mem ∧ t.tiles = s.tiles

/-- MV_RESUME (R356): a STOPPED mover is idle again; here it has nothing to take up. -/
def moverResumes : Prop :=
  ∀ (s : State) (src : Source) (m : Fin 32),
    s.canonical = true →
    (src == .host && s.hostWaits) = false →
    s.answers src (moverPg m.val + 0x64) = true →
    s.mvState m.val = 4 →
    s.isEnabled (moverPg m.val) = false ∨ s.get (Reg.MOVER.RING_HEAD.IDX m.val) % s.mvSize m.val = s.get (Reg.MOVER.RING_TAIL.IDX m.val) →
    ∃ t, Sys2Proof.Machine.exec (.mvResume src m) s = .next t ∧
      t.get (Reg.MOVER.MV_STAT2.STATE m.val) = 0 ∧ s.OnlyFields [Reg.MOVER.MV_STAT2.STATE m.val] t

/-- MV_ABORT of an idle mover (R365): it is STOPPED. -/
def idleMoverAborts : Prop :=
  ∀ (s : State) (src : Source) (m : Fin 32),
    s.canonical = true →
    (src == .host && s.hostWaits) = false →
    s.answers src (moverPg m.val + 0x64) = true →
    s.mover m.val = MoverS.reset →
    ∃ t, Sys2Proof.Machine.exec (.mvAbort src m) s = .next t ∧
      t.get (Reg.MOVER.MV_STAT2.STATE m.val) = 4 ∧ s.OnlyFields [Reg.MOVER.MV_STAT2.STATE m.val] t

/-- MV_ABORT with a packet outstanding (R365): no more packets are sent; the descriptor ends when the packet completes. -/
def abortWaitsForPackets : Prop :=
  ∀ (s : State) (src : Source) (m : Fin 32) (j : MvJob) (p : MvPkt),
    s.canonical = true →
    (src == .host && s.hostWaits) = false →
    s.answers src (moverPg m.val + 0x64) = true →
    (s.mover m.val).job = some j →
    j.pkts = [p] →
    j.chk = none →
    j.stop = false →
    j.abort = false →
    j.post = none →
    p.stage = 0 →
    ∃ t, Sys2Proof.Machine.exec (.mvAbort src m) s = .next t ∧
      (t.mover m.val).job = some { j with abort := true, stop := true } ∧ OnlyMover s m.val t ∧ s.SameFields [Reg.MOVER.MV_STAT.OUTSTANDING m.val] t ∧ t.mem = s.mem ∧ t.tiles = s.tiles

end Sys2Proof.Machine.Claims

/-- Movers: rings, descriptors, packets, retries and aborts -/
def Obligations.MoversComplete : Prop :=
  Sys2Proof.Machine.Claims.ringHeadStored ∧ Sys2Proof.Machine.Claims.ringHeadBusy ∧ Sys2Proof.Machine.Claims.descriptorFetchSent ∧
    Sys2Proof.Machine.Claims.postStored ∧ Sys2Proof.Machine.Claims.postNotPostable ∧ Sys2Proof.Machine.Claims.postRingFull ∧
    Sys2Proof.Machine.Claims.failedFetchEnds ∧ Sys2Proof.Machine.Claims.descriptorStarts ∧ Sys2Proof.Machine.Claims.channelTaken ∧
    Sys2Proof.Machine.Claims.lastPacketEndsDescriptor ∧ Sys2Proof.Machine.Claims.statusWritten ∧ Sys2Proof.Machine.Claims.busyPacketWaits ∧
    Sys2Proof.Machine.Claims.packetSentAgain ∧ Sys2Proof.Machine.Claims.heldPacketRetried ∧ Sys2Proof.Machine.Claims.heldPacketSkipped ∧
    Sys2Proof.Machine.Claims.moverResumes ∧ Sys2Proof.Machine.Claims.idleMoverAborts ∧ Sys2Proof.Machine.Claims.abortWaitsForPackets

/-! Check units: scans -/

namespace Sys2Proof.Machine.Claims

/-- SCAN_GO that passes its checks (R364): the job is latched and starts. -/
def scanAccepted : Prop :=
  ∀ (s : State) (src : Source) (c : Fin 8) (op : Fin 4) (cont : Bool),
    s.canonical = true →
    (src == .host && s.hostWaits) = false →
    s.answers src (checkPg c.val + 0x54) = true →
    op.val ≠ 3 →
    s.isEnabled (checkPg c.val) = true →
    s.get (Reg.CHECK.CHK_CFG.BIND c.val) = 0 →
    s.chkFree c.val = true →
    s.get (Reg.CHECK.SCAN_ADDR.ADDR c.val) % 8 = 0 →
    s.get (Reg.CHECK.SCAN_LEN.LEN c.val) % 8 = 0 →
    8 ≤ s.get (Reg.CHECK.SCAN_LEN.LEN c.val) →
    populated (s.get (Reg.CHECK.SCAN_ADDR.ADDR c.val)) (s.get (Reg.CHECK.SCAN_LEN.LEN c.val) + if op.val = 0 then 0 else 8) = true →
    ∃ t, Sys2Proof.Machine.exec (.scanGo src c op cont) s = .next t ∧
      (t.chkCh c.val).scan = some (s.get (Reg.CHECK.SCAN_ADDR.ADDR c.val), s.get (Reg.CHECK.SCAN_LEN.LEN c.val), op.val, s.get (Reg.CHECK.CHK_CFG.POLY c.val)) ∧ t.get (Reg.CHECK.SCAN_CTRL.GO c.val) = 1 ∧ t.get (Reg.CHECK.SCAN_CTRL.OP c.val) = op.val ∧ t.get (Reg.CHECK.SCAN_STAT.HELD c.val) = 1 ∧ (cont = false → t.get (Reg.CHECK.CHK_RUN.VALUE c.val) = crcInit (s.get (Reg.CHECK.CHK_CFG.POLY c.val)))
      ∧ s.SameFields [Reg.CHECK.SCAN_CTRL.GO c.val, Reg.CHECK.SCAN_CTRL.OP c.val, Reg.CHECK.SCAN_CTRL.CONT c.val, Reg.CHECK.SCAN_STAT.HELD c.val, Reg.CHECK.CHK_RUN.VALUE c.val] t ∧ t.mem = s.mem ∧ t.movers = s.movers

/-- SCAN_GO with OP 3 (R364): refused with RANGE. -/
def scanRefusedRange : Prop :=
  ∀ (s : State) (src : Source) (c : Fin 8) (cont : Bool),
    s.canonical = true →
    (src == .host && s.hostWaits) = false →
    s.answers src (checkPg c.val + 0x54) = true →
    ∃ t, Sys2Proof.Machine.exec (.scanGo src c 3 cont) s = .next t ∧
      t.get (Reg.HDR.BLK_REASON.CODE (checkPg c.val)) = rcRange ∧ t.get (Reg.HDR.BLK_STAT.REFUSED (checkPg c.val)) = 1 ∧ s.OnlyNotices (reasonFields (checkPg c.val) ++ [Reg.HDR.BLK_STAT.REFUSED (checkPg c.val)] ++ irqFields (checkPg c.val)) t

/-- SCAN_DONE of a plain job over one line (R362): CHK_RESULT takes the CRC of the bytes; nothing stored changes. -/
def scanStoresResult : Prop :=
  ∀ (s : State) (c : Fin 8) (a len poly : Nat),
    s.canonical = true →
    (s.chkCh c.val).scan = some (a, len, 0, poly) →
    s.pageUp (pageAt (checkPg c.val)) = true →
    a / 0x400000 < 256 →
    s.domOn (a / 0x400000) = true →
    a % 64 + len ≤ 64 →
    0 < len →
    a % 0x400000 + len ≤ 0x300000 →
    s.bankOn (a / 0x400000) (a % 0x400000 / 0x30000) = true →
    soundStore s = true →
    s.cuffClear = true →
    ∃ t, Sys2Proof.Machine.exec (.scanDone c []) s = .next t ∧
      t.get (Reg.CHECK.CHK_RESULT.VALUE c.val) = crcFinal poly (crcFeed poly (s.get (Reg.CHECK.CHK_RUN.VALUE c.val)) (s.bytes a len)) % 2 ^ 64 ∧ (t.chkCh c.val).scan = none ∧ t.get (Reg.CHECK.SCAN_CTRL.GO c.val) = 0 ∧ t.get (Reg.CHECK.SCAN_STAT.HELD c.val) = 0 ∧ t.get (Reg.CHECK.SCAN_STAT.DONE c.val) = 1 ∧ t.get (Reg.CHECK.CHK_JOBS.CNT c.val) = s.counted (Reg.CHECK.CHK_JOBS.CNT c.val) 1 ∧ t.mem = s.mem ∧ t.movers = s.movers

/-- SCAN_DONE of a checking job (R363): MATCH says whether the word after the range is the CRC. -/
def scanComparesResult : Prop :=
  ∀ (s : State) (c : Fin 8) (a len poly : Nat),
    s.canonical = true →
    (s.chkCh c.val).scan = some (a, len, 2, poly) →
    s.pageUp (pageAt (checkPg c.val)) = true →
    a / 0x400000 < 256 →
    s.domOn (a / 0x400000) = true →
    a % 64 + len + 8 ≤ 64 →
    0 < len →
    a % 0x400000 + len + 8 ≤ 0x300000 →
    s.bankOn (a / 0x400000) (a % 0x400000 / 0x30000) = true →
    soundStore s = true →
    s.cuffClear = true →
    ∃ t, Sys2Proof.Machine.exec (.scanDone c []) s = .next t ∧
      t.get (Reg.CHECK.SCAN_STAT.MATCH c.val) = (if ofBytes (s.bytes (a + len) 8) = crcFinal poly (crcFeed poly (s.get (Reg.CHECK.CHK_RUN.VALUE c.val)) (s.bytes a len)) % 2 ^ 64 then 1 else 0) ∧ (t.chkCh c.val).scan = none ∧ t.get (Reg.CHECK.SCAN_CTRL.GO c.val) = 0 ∧ t.get (Reg.CHECK.SCAN_STAT.HELD c.val) = 0 ∧ t.get (Reg.CHECK.SCAN_STAT.DONE c.val) = 1 ∧ t.get (Reg.CHECK.CHK_JOBS.CNT c.val) = s.counted (Reg.CHECK.CHK_JOBS.CNT c.val) 1 ∧ t.mem = s.mem

/-- SCAN_ABORT (R364): the job ends; CHK_RUN holds the CRC over the bytes that were processed. -/
def scanAborted : Prop :=
  ∀ (s : State) (src : Source) (c : Fin 8) (n : BitVec 30) (a len op poly : Nat),
    s.canonical = true →
    (src == .host && s.hostWaits) = false →
    s.answers src (checkPg c.val + 0x54) = true →
    (s.chkCh c.val).scan = some (a, len, op, poly) →
    a / 0x400000 < 256 →
    s.domOn (a / 0x400000) = true →
    a % 64 + len ≤ 64 →
    0 < len →
    a % 0x400000 + len ≤ 0x300000 →
    s.bankOn (a / 0x400000) (a % 0x400000 / 0x30000) = true →
    soundStore s = true →
    s.cuffClear = true →
    ∃ t, Sys2Proof.Machine.exec (.scanAbort src c n) s = .next t ∧
      (t.chkCh c.val).scan = none ∧ t.get (Reg.CHECK.SCAN_CTRL.GO c.val) = 0 ∧ t.get (Reg.CHECK.SCAN_STAT.HELD c.val) = 0 ∧ t.get (Reg.CHECK.SCAN_STAT.DONE c.val) = 1 ∧ t.get (Reg.CHECK.CHK_JOBS.CNT c.val) = s.counted (Reg.CHECK.CHK_JOBS.CNT c.val) 1 ∧ t.get (Reg.CHECK.CHK_RUN.VALUE c.val) = crcFeed poly (s.get (Reg.CHECK.CHK_RUN.VALUE c.val)) (s.bytes a (min len (n.toNat / 8 * 8))) % 2 ^ 64 ∧ t.get (Reg.CHECK.CHK_RESULT.VALUE c.val) = s.get (Reg.CHECK.CHK_RESULT.VALUE c.val) ∧ t.mem = s.mem

end Sys2Proof.Machine.Claims

/-- Check units: scans -/
def Obligations.ScansComplete : Prop :=
  Sys2Proof.Machine.Claims.scanAccepted ∧ Sys2Proof.Machine.Claims.scanRefusedRange ∧ Sys2Proof.Machine.Claims.scanStoresResult ∧
    Sys2Proof.Machine.Claims.scanComparesResult ∧ Sys2Proof.Machine.Claims.scanAborted

/-! The host interface: resets, BAR2, doorbells, vectors and completions -/

namespace Sys2Proof.Machine.Claims

/-- The function's state after a reset of it (R370): requests of the host that are on their way complete for no one. -/
def resetPcie (s : State) (training : Bool) : PcieS :=
  { PcieS.reset with training := training, seq := s.pcie.seq, outb := s.pcie.outb, stale := s.pcie.stale ++ (s.pcie.tlps.flatMap fun t => t.parts.filterMap fun p => if p.status.isNone then p.tag else none) }

/-- Nothing of the host's waits: a write to BAR0 takes effect at once (R373). -/
def hostClear (s : State) : Bool := !s.pcie.d3 && s.pcie.writes.isEmpty && s.pcie.tlps.isEmpty

/-- The request of EP 176 in class BULK (R372). -/
def inboundPkt (s : State) (op : Fin 10) (a d size : Nat) (data : List Byte) : Pkt :=
  { op := op, src := Fin.ofNat 384 epPcieIn, smod := BitVec.ofNat 12 s.modId, tag := BitVec.ofNat 12 (s.freeTag epPcieIn), cls := 5,
    epoch := (s.lane epPcieIn d).epoch, dmod := BitVec.ofNat 12 s.modId, addr := BitVec.ofNat 48 a, size := size, data := data, mcast := none }

/-- The module address of a BAR2 offset (R371). -/
def bar2Addr (s : State) (ofs : Nat) : Nat := s.get Reg.GLOBAL.BAR2_BASE.BASE * 2 ^ 30 + ofs

/-- One aligned piece of a TLP that EP 176 sends at once: within 4 KiB, a multiple of 8 bytes, to memory of the module whose NI account has room. -/
def onePiece (s : State) (ofs len d : Nat) : Bool :=
  !s.pcie.d3 && decide (ofs + len ≤ 2 ^ s.pcie.bar2) && decide (ofs % 8 = 0) && decide (len % 8 = 0) && decide (0 < len) && decide (ofs % 4096 + len ≤ 4096) && s.pcie.tlps.isEmpty
    && decide (bar2Addr s ofs < 2 ^ 48) && s.get Reg.RESET.RST_STAT.COMP_ACTIVE == 0 && epOf (bar2Addr s ofs) == some d && d != epRBRIDGE && decide ((s.lane epPcieIn d).count < 32766)

/-- The completion of an outbound read's B-net request, as EP 177 sends it to the requester (R355, R380). -/
def hostAnswer (s : State) (o : OutRead) (status : Nat) (data : List Byte) : Rsp := ⟨o.ep, o.key, epPcieOut, (s.lane epPcieOut o.ep).epoch, status, data, none, false, false, none⟩

/-- PERST_DEASSERT (R370): the function's state is clear and the link trains. -/
def perstDeasserted : Prop :=
  ∀ (s : State),
    s.canonical = true →
    s.power.input = true →
    ∃ t, Sys2Proof.Machine.exec (.perstDeassert) s = .next t ∧
      t.pcie = resetPcie s true ∧ t.msixPending = [] ∧ t.mem = s.mem ∧ t.tiles = s.tiles ∧ t.net = s.net ∧ t.get Reg.GLOBAL.PCIE_STAT.DL_UP = 0

/-- HOT_RESET (R370): the function's state is clear. -/
def hotResetClears : Prop :=
  ∀ (s : State),
    s.canonical = true →
    ∃ t, Sys2Proof.Machine.exec (.hotReset) s = .next t ∧
      t.pcie = resetPcie s s.pcie.training ∧ t.msixPending = [] ∧ t.mem = s.mem ∧ t.tiles = s.tiles ∧ t.net = s.net

/-- FUNCTION_LEVEL_RESET (R370): the function's state is clear. -/
def functionLevelResetClears : Prop :=
  ∀ (s : State),
    s.canonical = true →
    ∃ t, Sys2Proof.Machine.exec (.functionLevelReset) s = .next t ∧
      t.pcie = resetPcie s s.pcie.training ∧ t.msixPending = [] ∧ t.mem = s.mem ∧ t.tiles = s.tiles ∧ t.net = s.net

/-- PCIE_LINK_DOWN (R370): the function's state is clear, PCIE_STAT reads 0 and the link trains. -/
def linkDownClears : Prop :=
  ∀ (s : State),
    s.canonical = true →
    ∃ t, Sys2Proof.Machine.exec (.pcieLinkDown) s = .next t ∧
      t.pcie = resetPcie s true ∧ t.msixPending = [] ∧ t.mem = s.mem ∧ t.tiles = s.tiles ∧ t.net = s.net ∧ t.get Reg.GLOBAL.PCIE_STAT.DL_UP = 0 ∧ t.get Reg.GLOBAL.PCIE_STAT.WIDTH = 0 ∧ t.get Reg.GLOBAL.PCIE_STAT.SPEED = 0

/-- PCIE_LINK_TRAINED (R369): the link is up at its speed and width. -/
def linkTrained : Prop :=
  ∀ (s : State) (speed : Fin 8) (width : Fin 32) (flit : Bool),
    s.canonical = true →
    s.pcie.training = true →
    1 ≤ speed.val ∧ speed.val ≤ 6 →
    width.val = 1 ∨ width.val = 2 ∨ width.val = 4 ∨ width.val = 8 ∨ width.val = 16 →
    ∃ t, Sys2Proof.Machine.exec (.pcieLinkTrained speed width flit) s = .next t ∧
      t.pcie = { s.pcie with training := false } ∧ t.get Reg.GLOBAL.PCIE_STAT.DL_UP = 1 ∧ t.get Reg.GLOBAL.PCIE_STAT.FLIT = (if flit then 1 else 0) ∧ t.get Reg.GLOBAL.PCIE_STAT.WIDTH = width.val ∧ t.get Reg.GLOBAL.PCIE_STAT.SPEED = speed.val ∧ s.OnlyFields [Reg.GLOBAL.PCIE_STAT.DL_UP, Reg.GLOBAL.PCIE_STAT.FLIT, Reg.GLOBAL.PCIE_STAT.WIDTH, Reg.GLOBAL.PCIE_STAT.SPEED] { t with pcie := s.pcie }

/-- BAR2_TLP, an aligned read (R371, R372): its packet is on its way. -/
def bar2ReadSent : Prop :=
  ∀ (s : State) (ofs len d : Nat),
    onePiece s ofs len d = true →
    ∃ t, Sys2Proof.Machine.exec (.bar2Tlp (.rd ofs len)) s = .next t ∧
      t.net.out = s.net.out ++ [inboundPkt s 0 (bar2Addr s ofs) d len []] ∧ t.pcie = { s.pcie with seq := s.pcie.seq + 1, tlps := [⟨s.pcie.seq, false, bar2Addr s ofs, bar2Addr s ofs + len, [⟨bar2Addr s ofs, len, [], some (s.freeTag epPcieIn), none, []⟩]⟩] } ∧ t.regs = s.regs ∧ t.mem = s.mem ∧ t.tiles = s.tiles

/-- BAR2_TLP beyond the BAR (R374): Unsupported Request. -/
def bar2OutsideBar : Prop :=
  ∀ (s : State) (ofs len : Nat),
    2 ^ s.pcie.bar2 < ofs + len →
    ∃ t, Sys2Proof.Machine.exec (.bar2Tlp (.rd ofs len)) s = .next t ∧
      t.out = s.out ++ [.pcie 1 []] ∧ t.pcie.aer.contains .unsupportedRequest = true ∧ { t with out := s.out, pcie := s.pcie } = s

/-- BAR2_TLP, a poisoned write (R379): not performed, counted. -/
def bar2PoisonedWrite : Prop :=
  ∀ (s : State) (ofs : Nat) (data : List (Byte × Bool)),
    s.canonical = true →
    s.pcie.d3 = false →
    ofs + data.length ≤ 2 ^ s.pcie.bar2 →
    ∃ t, Sys2Proof.Machine.exec (.bar2Tlp (.wr ofs data true)) s = .next t ∧
      t.get Reg.GLOBAL.POISON_CNT.CNT = s.counted Reg.GLOBAL.POISON_CNT.CNT 1 ∧ t.pcie.aer.contains .poisonedTlp = true ∧ s.OnlyFields [Reg.GLOBAL.POISON_CNT.CNT] { t with pcie := s.pcie }

/-- DB_ISSUE (R375): the bits of the value are set in ISSUE.DBELL. -/
def issueDoorbell : Prop :=
  ∀ (s : State) (v : Word32),
    s.canonical = true →
    hostClear s = true →
    s.answers .host (pgISSUE + 0x90) = true →
    ∃ t, Sys2Proof.Machine.exec (.dbIssue v) s = .next t ∧
      t.get Reg.ISSUE.DBELL.BELL = s.get Reg.ISSUE.DBELL.BELL ||| v.toNat ∧ s.OnlyFields [Reg.ISSUE.DBELL.BELL] t

/-- DB_INJ (R375): bits [14:0] are written to STEP.INJ_HEAD. -/
def injectorDoorbell : Prop :=
  ∀ (s : State) (v : Word32),
    s.canonical = true →
    hostClear s = true →
    s.answers .host (pgSTEP + 0x8C) = true →
    ∃ t, Sys2Proof.Machine.exec (.dbInj v) s = .next t ∧
      t.get Reg.STEP.INJ_HEAD.IDX = v.toNat % 2 ^ 15 ∧ s.OnlyFields [Reg.STEP.INJ_HEAD.IDX] t

/-- DB_MOVER (R375, R358): bits [15:0] are written to the mover's RING_HEAD. -/
def moverDoorbell : Prop :=
  ∀ (s : State) (m : Fin 32) (v : Word32),
    s.canonical = true →
    hostClear s = true →
    s.answers .host (moverPg m.val + 0x54) = true →
    s.get (Reg.MOVER.MV_CFG.POST m.val) = 0 →
    s.mvState m.val ≠ 0 ∨ s.isEnabled (moverPg m.val) = false →
    ∃ t, Sys2Proof.Machine.exec (.dbMover m v) s = .next t ∧
      t.get (Reg.MOVER.RING_HEAD.IDX m.val) = v.toNat % 2 ^ 16 % s.mvSize m.val ∧ s.OnlyFields [Reg.MOVER.RING_HEAD.IDX m.val] t

/-- MSIX_SEND (R378): an unmasked pending vector is sent and is no longer pending. -/
def vectorSent : Prop :=
  ∀ (s : State) (vec : Fin 2048),
    s.msixPending.contains vec.val = true →
    s.pcie.bme = true →
    s.pcie.msixEn = true →
    s.pcie.fmask = false →
    (getAt 1 (4 * vec.val + 3) s.pcie.table).getLsbD 0 = false →
    ∃ t, Sys2Proof.Machine.exec (.msixSend vec) s = .next t ∧
      t = { s with msixPending := s.msixPending.filter (· != vec.val), out := s.out ++ [.msix vec.val] }

/-- MSIX_SEND of a masked vector (R378): it stays pending. -/
def vectorMasked : Prop :=
  ∀ (s : State) (vec : Fin 2048),
    (getAt 1 (4 * vec.val + 3) s.pcie.table).getLsbD 0 = true →
    ∃ t, Sys2Proof.Machine.exec (.msixSend vec) s = .next t ∧
      t = s

/-- HOST_COMPLETION of the one outstanding read (R380): its data are on their way to the requester. -/
def hostReadDataArrive : Prop :=
  ∀ (s : State) (tag : BitVec 10) (o : OutRead) (data : List Byte),
    s.pcie.outb = [o] →
    o.tag = some tag.toNat →
    o.got = none →
    (s.lane epPcieOut o.ep).count < 32766 →
    data.length = o.len →
    ∃ t, Sys2Proof.Machine.exec (.hostCompletion tag ⟨true, false, data⟩) s = .next t ∧
      t.net.rsps = s.net.rsps ++ [hostAnswer s o 0 data] ∧ t.pcie.aer = s.pcie.aer ∧ t.pcie.outb = [] ∧ t.movers = s.movers ∧ t.tiles = s.tiles ∧ t.mem = s.mem ∧ t.regs = s.regs

/-- HOST_COMPLETION with an error or poisoned data (R355, R380): HOST_ERR is on its way to the requester. -/
def hostReadFails : Prop :=
  ∀ (s : State) (tag : BitVec 10) (o : OutRead) (c : HostCpl),
    s.pcie.outb = [o] →
    o.tag = some tag.toNat →
    o.got = none →
    (s.lane epPcieOut o.ep).count < 32766 →
    c.ok = false ∨ c.poisoned = true →
    ∃ t, Sys2Proof.Machine.exec (.hostCompletion tag c) s = .next t ∧
      t.net.rsps = s.net.rsps ++ [hostAnswer s o 0x13 []] ∧ t.pcie.aer = s.pcie.aer ∧ t.pcie.outb = [] ∧ t.movers = s.movers ∧ t.tiles = s.tiles ∧ t.mem = s.mem ∧ t.regs = s.regs

/-- COMPLETION_TIMEOUT (R379, R380): reported through AER, and HOST_ERR is on its way to the requester. -/
def hostReadTimesOut : Prop :=
  ∀ (s : State) (tag : BitVec 10) (o : OutRead),
    s.pcie.outb = [o] →
    o.tag = some tag.toNat →
    o.got = none →
    (s.lane epPcieOut o.ep).count < 32766 →
    ∃ t, Sys2Proof.Machine.exec (.completionTimeout tag) s = .next t ∧
      t.net.rsps = s.net.rsps ++ [hostAnswer s o 0x13 []] ∧ t.pcie.aer.contains .completionTimeout = true ∧ t.pcie.outb = [] ∧ t.movers = s.movers ∧ t.tiles = s.tiles ∧ t.mem = s.mem ∧ t.regs = s.regs

/-- HOST_COMPLETION of no request (R379): reported. -/
def unexpectedCompletion : Prop :=
  ∀ (s : State) (tag : BitVec 10) (c : HostCpl),
    s.pcie.outb = [] →
    ∃ t, Sys2Proof.Machine.exec (.hostCompletion tag c) s = .next t ∧
      t.pcie.aer.contains .unexpectedCompletion = true ∧ { t with pcie := s.pcie } = s

end Sys2Proof.Machine.Claims

/-- The host interface: resets, BAR2, doorbells, vectors and completions -/
def Obligations.HostTransactionsComplete : Prop :=
  Sys2Proof.Machine.Claims.perstDeasserted ∧ Sys2Proof.Machine.Claims.hotResetClears ∧ Sys2Proof.Machine.Claims.functionLevelResetClears ∧
    Sys2Proof.Machine.Claims.linkDownClears ∧ Sys2Proof.Machine.Claims.linkTrained ∧ Sys2Proof.Machine.Claims.bar2ReadSent ∧
    Sys2Proof.Machine.Claims.bar2OutsideBar ∧ Sys2Proof.Machine.Claims.bar2PoisonedWrite ∧ Sys2Proof.Machine.Claims.issueDoorbell ∧
    Sys2Proof.Machine.Claims.injectorDoorbell ∧ Sys2Proof.Machine.Claims.moverDoorbell ∧ Sys2Proof.Machine.Claims.vectorSent ∧
    Sys2Proof.Machine.Claims.vectorMasked ∧ Sys2Proof.Machine.Claims.hostReadDataArrive ∧ Sys2Proof.Machine.Claims.hostReadFails ∧
    Sys2Proof.Machine.Claims.hostReadTimesOut ∧ Sys2Proof.Machine.Claims.unexpectedCompletion

/-! The host interface: configuration space and MCTP control -/

namespace Sys2Proof.Machine.Claims

/-- CONFIGURATION_REQUEST (R369, R371, R378): Bus Master Enable takes its value. -/
def busMasterSet : Prop :=
  ∀ (s : State) (on : Bool),
    s.pcie.outb = [] →
    ∃ t, Sys2Proof.Machine.exec (.configurationRequest (.busMaster on)) s = .next t ∧
      t = { s with pcie := { s.pcie with bme := on } }

/-- CONFIGURATION_REQUEST (R369, R371, R378): MSI-X Enable takes its value. -/
def msixEnableSet : Prop :=
  ∀ (s : State) (on : Bool),
    ∃ t, Sys2Proof.Machine.exec (.configurationRequest (.msixEnable on)) s = .next t ∧
      t = { s with pcie := { s.pcie with msixEn := on } }

/-- CONFIGURATION_REQUEST (R369, R371, R378): the function mask takes its value. -/
def functionMaskSet : Prop :=
  ∀ (s : State) (on : Bool),
    ∃ t, Sys2Proof.Machine.exec (.configurationRequest (.functionMask on)) s = .next t ∧
      t = { s with pcie := { s.pcie with fmask := on } }

/-- CONFIGURATION_REQUEST (R369, R371, R378): the power state takes its value. -/
def powerStateSet : Prop :=
  ∀ (s : State) (on : Bool),
    ∃ t, Sys2Proof.Machine.exec (.configurationRequest (.powerState on)) s = .next t ∧
      t = { s with pcie := { s.pcie with d3 := on } }

/-- CONFIGURATION_REQUEST (R369, R371, R378): the BAR2 size takes its value. -/
def bar2SizeSet : Prop :=
  ∀ (s : State) (n : Nat),
    ∃ t, Sys2Proof.Machine.exec (.configurationRequest (.bar2Size n)) s = .next t ∧
      t = { s with pcie := (if 30 ≤ n ∧ n ≤ 38 then { s.pcie with bar2 := n } else s.pcie) }

/-- CONFIGURATION_REQUEST (R369, R371, R378): Max Payload Size takes its value. -/
def maxPayloadSet : Prop :=
  ∀ (s : State) (n : Nat),
    n = 128 ∨ n = 256 ∨ n = 512 →
    ∃ t, Sys2Proof.Machine.exec (.configurationRequest (.maxPayload n)) s = .next t ∧
      t = { s with pcie := { s.pcie with mps := n } }

/-- CONFIGURATION_REQUEST (R369, R371, R378): Max Read Request Size takes its value. -/
def maxReadRequestSet : Prop :=
  ∀ (s : State) (n : Nat),
    n = 128 ∨ n = 256 ∨ n = 512 ∨ n = 1024 ∨ n = 2048 ∨ n = 4096 →
    ∃ t, Sys2Proof.Machine.exec (.configurationRequest (.maxReadRequest n)) s = .next t ∧
      t = { s with pcie := { s.pcie with mrrs := n } }

/-- CONFIGURATION_REQUEST (R378): a word of the MSI-X table takes its value. -/
def msixEntryWritten : Prop :=
  ∀ (s : State) (vec : Fin 2048) (w : Fin 4) (v : Word32),
    s.pcie.d3 = false →
    risingFrom 0 s.pcie.table = true →
    ∃ t, Sys2Proof.Machine.exec (.configurationRequest (.msixEntry vec w v)) s = .next t ∧
      getAt (if w.val = 3 then 1 else 0) (4 * vec.val + w.val) t.pcie.table = v ∧ { t with pcie := s.pcie } = s

/-- SET_ENDPOINT_ID (R383): the crown takes the endpoint ID. -/
def endpointIdSet : Prop :=
  ∀ (s : State) (eid : BitVec 8),
    s.isReady pgCROWN = true →
    eid ≠ 0 →
    eid ≠ 255 →
    ∃ t, Sys2Proof.Machine.exec (.setEndpointId eid) s = .next t ∧
      t = { s with crown := { s.crown with mctpEid := eid.toNat }, out := s.out ++ [.mctp [0, 0, eid, 0]] }

/-- GET_ENDPOINT_ID (R383): the crown answers with its endpoint ID. -/
def endpointIdRead : Prop :=
  ∀ (s : State),
    s.isReady pgCROWN = true →
    ∃ t, Sys2Proof.Machine.exec (.getEndpointId) s = .next t ∧
      t = { s with out := s.out ++ [.mctp [0, BitVec.ofNat 8 s.crown.mctpEid, 0, 0]] }

/-- GET_MCTP_VERSION_SUPPORT (R383): answered; the contents are the MCTP standard's (log entry 28). -/
def mctpVersionsAnswered : Prop :=
  ∀ (s : State),
    s.isReady pgCROWN = true →
    ∃ t, Sys2Proof.Machine.exec (.getMctpVersionSupport) s = .next t ∧
      t = { s with out := s.out ++ [.mctp Config.mctpVersions] }

/-- GET_MESSAGE_TYPE_SUPPORT (R383): answered; the contents are the MCTP standard's (log entry 28). -/
def mctpTypesAnswered : Prop :=
  ∀ (s : State),
    s.isReady pgCROWN = true →
    ∃ t, Sys2Proof.Machine.exec (.getMessageTypeSupport) s = .next t ∧
      t = { s with out := s.out ++ [.mctp Config.mctpTypes] }

end Sys2Proof.Machine.Claims

/-- The host interface: configuration space and MCTP control -/
def Obligations.HostConfigurationCompletes : Prop :=
  Sys2Proof.Machine.Claims.busMasterSet ∧ Sys2Proof.Machine.Claims.msixEnableSet ∧ Sys2Proof.Machine.Claims.functionMaskSet ∧
    Sys2Proof.Machine.Claims.powerStateSet ∧ Sys2Proof.Machine.Claims.bar2SizeSet ∧ Sys2Proof.Machine.Claims.maxPayloadSet ∧
    Sys2Proof.Machine.Claims.maxReadRequestSet ∧ Sys2Proof.Machine.Claims.msixEntryWritten ∧ Sys2Proof.Machine.Claims.endpointIdSet ∧
    Sys2Proof.Machine.Claims.endpointIdRead ∧ Sys2Proof.Machine.Claims.mctpVersionsAnswered ∧ Sys2Proof.Machine.Claims.mctpTypesAnswered

/-! Stream ports: frames that land, frames that are dropped, address answers, COUNT frames, gates and contexts -/

namespace Sys2Proof.Machine.Claims

/-- A frame for the port from outside: the MAC found nothing wrong, and its addresses are the port's (R385, R386). -/
def forPort (s : State) (f : InFrame) : Bool :=
  s.spUp f.port.val && f.mac == 0 && f.dmac.toNat == s.get (Reg.SP.MAC.ADDR f.port.val) && s.spAddr f.port.val f.v6 f.dip.toNat && s.get Reg.RESET.RST_STAT.COMP_ACTIVE == 0 && s.isEnabled (spPg f.port.val)

/-- A frame whose version, length, CRC and reserved fields pass and whose payload fits context c (R387 to R389). -/
def goodFrame (s : State) (f : InFrame) (c : Nat) : Bool :=
  decide (24 ≤ f.payload.length) && frByte f 1 == 1 && frByte f 2 == 1 && crc32c (f.payload.take (f.payload.length - 4)) == frWord f (f.payload.length - 4) && decide (frByte f 3 < 2) && frHalf f 16 == 0 && frHalf f 18 == 0 && s.ctxFits f c

/-- The context's fields that a write of its first word writes. -/
def ctxW0 (k i : Nat) : List Field :=
  [Reg.SCTX.CTX_W0.EN k i, Reg.SCTX.CTX_W0.DIR k i, Reg.SCTX.CTX_W0.GATE k i, Reg.SCTX.CTX_W0.PORT k i, Reg.SCTX.CTX_W0.IPV6 k i, Reg.SCTX.CTX_W0.MATCH_SRC k i, Reg.SCTX.CTX_W0.UDP_DPORT k i]

/-- INGEST_FRAME, the next frame in sequence of a context with an empty ring (R390, R393): its payload lands in the slot at TAIL and is published. -/
def frameLands : Prop :=
  ∀ (s : State) (f : InFrame) (c : Fin 128),
    s.canonical = true →
    forPort s f = true →
    (List.range 128).find? (s.ctxMatch f) = some c.val →
    goodFrame s f c.val = true →
    frWord f 4 = s.get (Reg.SCTX.CTX_W14.SEQ_NEXT (c.val / 32) (c.val % 32)) →
    frWord f 8 = 0xFFFFFFFF →
    (s.ctxOf c.val).slots = [] →
    f.payload.length ≤ 64 →
    (s.ctxBase c.val + 9216 * s.get (Reg.SCTX.CTX_W21.TAIL (c.val / 32) (c.val % 32))) % 64 = 0 →
    s.ctxBase c.val + 9216 * s.get (Reg.SCTX.CTX_W21.TAIL (c.val / 32) (c.val % 32)) < 0x40000000 →
    (s.ctxBase c.val + 9216 * s.get (Reg.SCTX.CTX_W21.TAIL (c.val / 32) (c.val % 32))) % 0x400000 < 0x300000 →
    s.bankOn ((s.ctxBase c.val + 9216 * s.get (Reg.SCTX.CTX_W21.TAIL (c.val / 32) (c.val % 32))) / 0x400000) ((s.ctxBase c.val + 9216 * s.get (Reg.SCTX.CTX_W21.TAIL (c.val / 32) (c.val % 32))) % 0x400000 / 0x30000) = true →
    soundStore s = true →
    s.cuffClear = true →
    (s.ctxOf c.val).writing = [] →
    ∃ t, Sys2Proof.Machine.exec (.ingestFrame f) s = .next t ∧
      t.bytes (s.ctxBase c.val + 9216 * s.get (Reg.SCTX.CTX_W21.TAIL (c.val / 32) (c.val % 32))) (f.payload.length - 24) = (f.payload.drop 20).take (f.payload.length - 24) ∧ s.OnlyBytes (s.ctxBase c.val + 9216 * s.get (Reg.SCTX.CTX_W21.TAIL (c.val / 32) (c.val % 32))) (f.payload.length - 24) t
      ∧ (t.ctxOf c.val).slots = [⟨s.get (Reg.SCTX.CTX_W21.TAIL (c.val / 32) (c.val % 32)), 0xFFFFFFFF, (frByte f 3).testBit 0, s.get (Reg.SCTX.CTX_W8.GROUP (c.val / 32) (c.val % 32)), frHalf f 14, frHalf f 12, f.payload.length - 24⟩]
      ∧ t.get (Reg.SCTX.CTX_W14.SEQ_NEXT (c.val / 32) (c.val % 32)) = (frWord f 4 + 1) % 2 ^ 32 ∧ t.get (Reg.SCTX.CTX_W21.TAIL (c.val / 32) (c.val % 32)) = (s.get (Reg.SCTX.CTX_W21.TAIL (c.val / 32) (c.val % 32)) + 1) % s.ringSlots c.val ∧ t.get (Reg.SP.RX_FRAMES.CNT f.port.val) = s.counted (Reg.SP.RX_FRAMES.CNT f.port.val) 1
      ∧ s.SameFields [Reg.SCTX.CTX_W14.SEQ_NEXT (c.val / 32) (c.val % 32), Reg.SCTX.CTX_W21.TAIL (c.val / 32) (c.val % 32), Reg.SCTX.CTX_W15.FRAMES (c.val / 32) (c.val % 32), Reg.SP.RX_FRAMES.CNT f.port.val] t ∧ t.tiles = s.tiles

/-- INGEST_FRAME with an old sequence number (R393): dropped and counted. -/
def oldFrameDropped : Prop :=
  ∀ (s : State) (f : InFrame) (c : Fin 128),
    s.canonical = true →
    forPort s f = true →
    (List.range 128).find? (s.ctxMatch f) = some c.val →
    goodFrame s f c.val = true →
    frWord f 4 ≠ s.get (Reg.SCTX.CTX_W14.SEQ_NEXT (c.val / 32) (c.val % 32)) →
    State.before32 (s.get (Reg.SCTX.CTX_W14.SEQ_NEXT (c.val / 32) (c.val % 32))) (frWord f 4) = false →
    ∃ t, Sys2Proof.Machine.exec (.ingestFrame f) s = .next t ∧
      t.get (Reg.SCTX.CTX_W17.SEQ_OLD_CNT (c.val / 32) (c.val % 32)) = s.counted (Reg.SCTX.CTX_W17.SEQ_OLD_CNT (c.val / 32) (c.val % 32)) 1 ∧ (t.get (Reg.SCTX.CTX_EVT.EVT (c.val / 32))).testBit (c.val % 32) = true ∧ t.ctx = s.ctx ∧ t.mem = s.mem ∧ s.SameFields ([Reg.SCTX.CTX_W17.SEQ_OLD_CNT (c.val / 32) (c.val % 32), Reg.SCTX.CTX_EVT.EVT (c.val / 32)] ++ irqFields (sctxPg (c.val / 32))) t

/-- INGEST_FRAME that the MAC found bad (R395): counted, nothing lands. -/
def frameFailedFcs : Prop :=
  ∀ (s : State) (f : InFrame),
    s.canonical = true →
    s.spUp f.port.val = true →
    f.mac = 1 →
    ∃ t, Sys2Proof.Machine.exec (.ingestFrame f) s = .next t ∧
      t.get (Reg.SP.RX_FCS_CNT.CNT f.port.val) = s.counted (Reg.SP.RX_FCS_CNT.CNT f.port.val) 1 ∧ s.OnlyNotices ([Reg.SP.RX_FCS_CNT.CNT f.port.val] ++ irqFields (spPg f.port.val)) t

/-- INGEST_FRAME for another MAC address (R386): counted, nothing lands. -/
def frameForOthers : Prop :=
  ∀ (s : State) (f : InFrame),
    s.canonical = true →
    s.spUp f.port.val = true →
    f.mac = 0 →
    f.dmac.toNat ≠ s.get (Reg.SP.MAC.ADDR f.port.val) →
    ∃ t, Sys2Proof.Machine.exec (.ingestFrame f) s = .next t ∧
      t.get (Reg.SP.RX_FILTER_CNT.CNT f.port.val) = s.counted (Reg.SP.RX_FILTER_CNT.CNT f.port.val) 1 ∧ s.OnlyNotices ([Reg.SP.RX_FILTER_CNT.CNT f.port.val] ++ irqFields (spPg f.port.val)) t

/-- INGEST_FRAME that no context matches (R386): counted, nothing lands. -/
def frameWithoutContext : Prop :=
  ∀ (s : State) (f : InFrame),
    s.canonical = true →
    forPort s f = true →
    (List.range 128).find? (s.ctxMatch f) = none →
    ∃ t, Sys2Proof.Machine.exec (.ingestFrame f) s = .next t ∧
      t.get (Reg.SP.RX_NOCTX_CNT.CNT f.port.val) = s.counted (Reg.SP.RX_NOCTX_CNT.CNT f.port.val) 1 ∧ s.OnlyNotices ([Reg.SP.RX_NOCTX_CNT.CNT f.port.val] ++ irqFields (spPg f.port.val)) t

/-- INGEST_FRAME whose CRC32C is wrong (R388): counted, nothing lands. -/
def frameFailedCrc : Prop :=
  ∀ (s : State) (f : InFrame),
    s.canonical = true →
    forPort s f = true →
    ((List.range 128).find? (s.ctxMatch f)).isSome = true →
    24 ≤ f.payload.length →
    frByte f 1 = 1 →
    frByte f 2 = 1 →
    crc32c (f.payload.take (f.payload.length - 4)) ≠ frWord f (f.payload.length - 4) →
    ∃ t, Sys2Proof.Machine.exec (.ingestFrame f) s = .next t ∧
      t.get (Reg.SP.RX_CRC_CNT.CNT f.port.val) = s.counted (Reg.SP.RX_CRC_CNT.CNT f.port.val) 1 ∧ s.OnlyNotices ([Reg.SP.RX_CRC_CNT.CNT f.port.val] ++ irqFields (spPg f.port.val)) t

/-- ARP_REQUEST for the port's own address (R385): answered. -/
def arpAnswered : Prop :=
  ∀ (s : State) (p : Fin 2) (q : AddrQuery),
    s.spUp p.val = true →
    q.target ≠ 0 →
    q.target.toNat = s.get (Reg.SP.IPV4.ADDR p.val) →
    q.sip.toNat < 2 ^ 32 →
    ∃ t, Sys2Proof.Machine.exec (.arpRequest p q) s = .next t ∧
      t = { s with out := s.out ++ [.frame p.val 1 ((toBytes 6 q.smac.toNat).reverse ++ (toBytes 6 (s.get (Reg.SP.MAC.ADDR p.val))).reverse ++ (toBytes 4 q.sip.toNat).reverse ++ (toBytes 4 q.target.toNat).reverse)] }

/-- NEIGHBOR_SOLICITATION for the port's own address (R385): answered. -/
def solicitationAnswered : Prop :=
  ∀ (s : State) (p : Fin 2) (q : AddrQuery),
    s.spUp p.val = true →
    q.target ≠ 0 →
    q.target.toNat = s.spV6 p.val →
    ∃ t, Sys2Proof.Machine.exec (.neighborSolicitation p q) s = .next t ∧
      t = { s with out := s.out ++ [.frame p.val 2 ((toBytes 6 q.smac.toNat).reverse ++ (toBytes 6 (s.get (Reg.SP.MAC.ADDR p.val))).reverse ++ (toBytes 16 q.sip.toNat).reverse ++ (toBytes 16 q.target.toNat).reverse)] }

/-- ARP_REQUEST for another address (R386): counted. -/
def arpForOthers : Prop :=
  ∀ (s : State) (p : Fin 2) (q : AddrQuery),
    s.canonical = true →
    s.spUp p.val = true →
    q.target.toNat ≠ s.get (Reg.SP.IPV4.ADDR p.val) →
    ∃ t, Sys2Proof.Machine.exec (.arpRequest p q) s = .next t ∧
      t.get (Reg.SP.RX_FILTER_CNT.CNT p.val) = s.counted (Reg.SP.RX_FILTER_CNT.CNT p.val) 1 ∧ s.OnlyFields [Reg.SP.RX_FILTER_CNT.CNT p.val] t

/-- PAUSE_FRAME (R385): discarded and counted. -/
def pauseCounted : Prop :=
  ∀ (s : State) (p : Fin 2),
    s.canonical = true →
    s.spUp p.val = true →
    ∃ t, Sys2Proof.Machine.exec (.pauseFrame p) s = .next t ∧
      t.get (Reg.SP.RX_PAUSE_CNT.CNT p.val) = s.counted (Reg.SP.RX_PAUSE_CNT.CNT p.val) 1 ∧ s.OnlyFields [Reg.SP.RX_PAUSE_CNT.CNT p.val] t

/-- OTHER_FRAME (R385): discarded and counted. -/
def otherCounted : Prop :=
  ∀ (s : State) (p : Fin 2),
    s.canonical = true →
    s.spUp p.val = true →
    ∃ t, Sys2Proof.Machine.exec (.otherFrame p) s = .next t ∧
      t.get (Reg.SP.RX_FILTER_CNT.CNT p.val) = s.counted (Reg.SP.RX_FILTER_CNT.CNT p.val) 1 ∧ s.OnlyFields [Reg.SP.RX_FILTER_CNT.CNT p.val] t

/-- COUNT_FRAME of a closed window that fits one frame (R394): the frame is sent and the tile's RO_READY bit is cleared. -/
def countFrameSent : Prop :=
  ∀ (s : State) (c : Fin 128),
    s.canonical = true →
    s.ctxOn c.val = true →
    s.get (Reg.SCTX.CTX_W0.DIR (c.val / 32) (c.val % 32)) = 1 →
    s.spOn (s.get (Reg.SCTX.CTX_W0.PORT (c.val / 32) (c.val % 32))) = true →
    (s.ctxOf c.val).cursor = 0 →
    s.get (Reg.SCTX.CTX_W8.W_FIRST (c.val / 32) (c.val % 32)) = (s.get (Reg.SCTX.CTX_W8.T_FIRST (c.val / 32) (c.val % 32))) →
    (s.get (Reg.SCTX.CTX_W8.GROUP (c.val / 32) (c.val % 32))) < 16 →
    s.domOn (s.get (Reg.SCTX.CTX_W8.T_FIRST (c.val / 32) (c.val % 32))) = true →
    (s.get (Reg.NEURON.RO_READY.READY (s.get (Reg.SCTX.CTX_W8.T_FIRST (c.val / 32) (c.val % 32))))).testBit (s.get (Reg.SCTX.CTX_W8.GROUP (c.val / 32) (c.val % 32))) = true →
    0 < (s.get (Reg.NEURON.RO_GRP_W1.NEU (s.get (Reg.SCTX.CTX_W8.T_FIRST (c.val / 32) (c.val % 32))) (s.get (Reg.SCTX.CTX_W8.GROUP (c.val / 32) (c.val % 32)))) * s.get (Reg.NEURON.RO_GRP_W2.W_COUNT (s.get (Reg.SCTX.CTX_W8.T_FIRST (c.val / 32) (c.val % 32))) (s.get (Reg.SCTX.CTX_W8.GROUP (c.val / 32) (c.val % 32))))) →
    2 * (s.get (Reg.NEURON.RO_GRP_W1.NEU (s.get (Reg.SCTX.CTX_W8.T_FIRST (c.val / 32) (c.val % 32))) (s.get (Reg.SCTX.CTX_W8.GROUP (c.val / 32) (c.val % 32)))) * s.get (Reg.NEURON.RO_GRP_W2.W_COUNT (s.get (Reg.SCTX.CTX_W8.T_FIRST (c.val / 32) (c.val % 32))) (s.get (Reg.SCTX.CTX_W8.GROUP (c.val / 32) (c.val % 32))))) ≤ 64 →
    64 ≤ s.get (Reg.SCTX.CTX_W9.MAX_PAYLOAD (c.val / 32) (c.val % 32)) →
    s.get (Reg.NEURON.RO_GRP_W3.DEST (s.get (Reg.SCTX.CTX_W8.T_FIRST (c.val / 32) (c.val % 32))) (s.get (Reg.SCTX.CTX_W8.GROUP (c.val / 32) (c.val % 32)))) % 64 + 2 * (s.get (Reg.NEURON.RO_GRP_W1.NEU (s.get (Reg.SCTX.CTX_W8.T_FIRST (c.val / 32) (c.val % 32))) (s.get (Reg.SCTX.CTX_W8.GROUP (c.val / 32) (c.val % 32)))) * s.get (Reg.NEURON.RO_GRP_W2.W_COUNT (s.get (Reg.SCTX.CTX_W8.T_FIRST (c.val / 32) (c.val % 32))) (s.get (Reg.SCTX.CTX_W8.GROUP (c.val / 32) (c.val % 32))))) ≤ 64 →
    s.get (Reg.NEURON.RO_GRP_W3.DEST (s.get (Reg.SCTX.CTX_W8.T_FIRST (c.val / 32) (c.val % 32))) (s.get (Reg.SCTX.CTX_W8.GROUP (c.val / 32) (c.val % 32)))) + 2 * (s.get (Reg.NEURON.RO_GRP_W1.NEU (s.get (Reg.SCTX.CTX_W8.T_FIRST (c.val / 32) (c.val % 32))) (s.get (Reg.SCTX.CTX_W8.GROUP (c.val / 32) (c.val % 32)))) * s.get (Reg.NEURON.RO_GRP_W2.W_COUNT (s.get (Reg.SCTX.CTX_W8.T_FIRST (c.val / 32) (c.val % 32))) (s.get (Reg.SCTX.CTX_W8.GROUP (c.val / 32) (c.val % 32))))) ≤ 0x300000 →
    s.bankOn (s.get (Reg.SCTX.CTX_W8.T_FIRST (c.val / 32) (c.val % 32))) (s.get (Reg.NEURON.RO_GRP_W3.DEST (s.get (Reg.SCTX.CTX_W8.T_FIRST (c.val / 32) (c.val % 32))) (s.get (Reg.SCTX.CTX_W8.GROUP (c.val / 32) (c.val % 32)))) / 0x30000) = true →
    soundStore s = true →
    s.twin.handover = none →
    s.role ≠ 3 →
    ∃ t, Sys2Proof.Machine.exec (.countFrame c) s = .next t ∧
      (t.get (Reg.NEURON.RO_READY.READY (s.get (Reg.SCTX.CTX_W8.T_FIRST (c.val / 32) (c.val % 32))))).testBit (s.get (Reg.SCTX.CTX_W8.GROUP (c.val / 32) (c.val % 32))) = false ∧ t.get (Reg.SCTX.CTX_W14.SEQ_NEXT (c.val / 32) (c.val % 32)) = (s.get (Reg.SCTX.CTX_W14.SEQ_NEXT (c.val / 32) (c.val % 32)) + 1) % 2 ^ 32 ∧ t.get (Reg.SP.TX_FRAMES.CNT (s.get (Reg.SCTX.CTX_W0.PORT (c.val / 32) (c.val % 32)))) = s.counted (Reg.SP.TX_FRAMES.CNT (s.get (Reg.SCTX.CTX_W0.PORT (c.val / 32) (c.val % 32)))) 1 ∧ t.out.length = s.out.length + 1
      ∧ s.SameFields [Reg.NEURON.RO_READY.READY (s.get (Reg.SCTX.CTX_W8.T_FIRST (c.val / 32) (c.val % 32))), Reg.SCTX.CTX_W14.SEQ_NEXT (c.val / 32) (c.val % 32), Reg.SCTX.CTX_W15.FRAMES (c.val / 32) (c.val % 32), Reg.SP.TX_FRAMES.CNT (s.get (Reg.SCTX.CTX_W0.PORT (c.val / 32) (c.val % 32)))] t ∧ t.mem = s.mem ∧ t.tiles = s.tiles

/-- GATE_TMO (R392): the gated INGEST opens without the END frame. -/
def gateOpens : Prop :=
  ∀ (s : State) (c : Fin 128),
    s.canonical = true →
    s.phase = 1 →
    s.gateShut c.val = true →
    s.get (Reg.SCTX.CTX_W12.GATE_TMO (c.val / 32) (c.val % 32)) ≠ 0 →
    ∃ t, Sys2Proof.Machine.exec (.gateTmo c) s = .next t ∧
      t.gateShut c.val = false ∧ (t.ctxOf c.val).opened = true ∧ t.get (Reg.SCTX.CTX_W20.GATE_TMO_CNT (c.val / 32) (c.val % 32)) = s.counted (Reg.SCTX.CTX_W20.GATE_TMO_CNT (c.val / 32) (c.val % 32)) 1 ∧ s.SameFields ([Reg.SCTX.CTX_W20.GATE_TMO_CNT (c.val / 32) (c.val % 32), Reg.SCTX.CTX_EVT.EVT (c.val / 32)] ++ irqFields (sctxPg (c.val / 32))) t ∧ t.mem = s.mem

/-- CONTEXT_ENABLE that passes its checks (R398): the context is enabled and its sequence number starts at SEQ_INIT. -/
def contextEnabled : Prop :=
  ∀ (s : State) (src : Source) (c : Fin 128) (v : Word32),
    s.canonical = true →
    (src == .host && s.hostWaits) = false →
    s.answers src (sctxPg (c.val / 32) + 0x200 + 0x60 * (c.val % 32)) = true →
    s.get (Reg.SCTX.CTX_W0.EN (c.val / 32) (c.val % 32)) = 0 →
    v.toNat / 2 ^ 31 = 1 →
    s.ctxFault c.val v.toNat = none →
    ∃ t, Sys2Proof.Machine.exec (.contextEnable src c v) s = .next t ∧
      t.get (Reg.SCTX.CTX_W0.EN (c.val / 32) (c.val % 32)) = 1 ∧ t.get (Reg.SCTX.CTX_W0.DIR (c.val / 32) (c.val % 32)) = v.toNat / 2 ^ 30 % 2 ∧ t.get (Reg.SCTX.CTX_W0.PORT (c.val / 32) (c.val % 32)) = v.toNat / 2 ^ 28 % 2 ∧ t.get (Reg.SCTX.CTX_W0.UDP_DPORT (c.val / 32) (c.val % 32)) = v.toNat % 2 ^ 16 ∧ t.get (Reg.SCTX.CTX_W14.SEQ_NEXT (c.val / 32) (c.val % 32)) = s.get (Reg.SCTX.CTX_W13.SEQ_INIT (c.val / 32) (c.val % 32)) ∧ s.SameFields ([Reg.SCTX.CTX_W14.SEQ_NEXT (c.val / 32) (c.val % 32)] ++ ctxW0 (c.val / 32) (c.val % 32)) t ∧ t.mem = s.mem

/-- CONTEXT_ENABLE that fails a check (R398): refused with the check's code. -/
def contextRefused : Prop :=
  ∀ (s : State) (src : Source) (c : Fin 128) (v : Word32) (code : Nat),
    s.canonical = true →
    (src == .host && s.hostWaits) = false →
    s.answers src (sctxPg (c.val / 32) + 0x200 + 0x60 * (c.val % 32)) = true →
    s.get (Reg.SCTX.CTX_W0.EN (c.val / 32) (c.val % 32)) = 0 →
    v.toNat / 2 ^ 31 = 1 →
    s.ctxFault c.val v.toNat = some code →
    code < 256 →
    ∃ t, Sys2Proof.Machine.exec (.contextEnable src c v) s = .next t ∧
      t.get (Reg.SCTX.CTX_W0.EN (c.val / 32) (c.val % 32)) = 0 ∧ t.get (Reg.HDR.BLK_REASON.CODE (sctxPg (c.val / 32))) = code ∧ t.get (Reg.HDR.BLK_STAT.REFUSED (sctxPg (c.val / 32))) = 1 ∧ (s.slowed src (sctxPg (c.val / 32) + 0x200 + 0x60 * (c.val % 32))).OnlyNotices (reasonFields (sctxPg (c.val / 32)) ++ [Reg.HDR.BLK_STAT.REFUSED (sctxPg (c.val / 32))] ++ irqFields (sctxPg (c.val / 32))) t

/-- STREAM_LINK_UP over CR4 or SR4 (R385, R397). -/
def streamLinkComesUp : Prop :=
  ∀ (s : State) (p : Fin 2) (media : Fin 4),
    s.canonical = true →
    media = 1 ∨ media = 2 →
    s.spUp p.val = false →
    ∃ t, Sys2Proof.Machine.exec (.streamLinkUp p media) s = .next t ∧
      t.get (Reg.SP.SP_STAT.LINK p.val) = 2 ∧ t.get (Reg.SP.SP_STAT.MEDIA p.val) = media.val ∧ (t.get (Reg.HDR.BLK_IRQ_STAT.BLK_SPEC (spPg p.val))).testBit 0 = true ∧ s.OnlyNotices ([Reg.SP.SP_STAT.LINK p.val, Reg.SP.SP_STAT.MEDIA p.val] ++ irqFields (spPg p.val)) t

/-- STREAM_LINK_DOWN (R397): the link trains again, with its error. -/
def streamLinkLost : Prop :=
  ∀ (s : State) (p : Fin 2),
    s.canonical = true →
    s.spUp p.val = true →
    ∃ t, Sys2Proof.Machine.exec (.streamLinkDown p) s = .next t ∧
      t.get (Reg.SP.SP_STAT.LINK p.val) = 1 ∧ t.get (Reg.HDR.BLK_STAT.ERR (spPg p.val)) = 1 ∧ (t.get (Reg.HDR.BLK_IRQ_STAT.BLK_SPEC (spPg p.val))).testBit 1 = true ∧ s.OnlyNotices ([Reg.SP.SP_STAT.LINK p.val, Reg.HDR.BLK_STAT.ERR (spPg p.val)] ++ irqFields (spPg p.val)) t

end Sys2Proof.Machine.Claims

/-- Stream ports: frames that land, frames that are dropped, address answers, COUNT frames, gates and contexts -/
def Obligations.StreamPortsComplete : Prop :=
  Sys2Proof.Machine.Claims.frameLands ∧ Sys2Proof.Machine.Claims.oldFrameDropped ∧ Sys2Proof.Machine.Claims.frameFailedFcs ∧
    Sys2Proof.Machine.Claims.frameForOthers ∧ Sys2Proof.Machine.Claims.frameWithoutContext ∧ Sys2Proof.Machine.Claims.frameFailedCrc ∧
    Sys2Proof.Machine.Claims.arpAnswered ∧ Sys2Proof.Machine.Claims.solicitationAnswered ∧ Sys2Proof.Machine.Claims.arpForOthers ∧
    Sys2Proof.Machine.Claims.pauseCounted ∧ Sys2Proof.Machine.Claims.otherCounted ∧ Sys2Proof.Machine.Claims.countFrameSent ∧
    Sys2Proof.Machine.Claims.gateOpens ∧ Sys2Proof.Machine.Claims.contextEnabled ∧ Sys2Proof.Machine.Claims.contextRefused ∧
    Sys2Proof.Machine.Claims.streamLinkComesUp ∧ Sys2Proof.Machine.Claims.streamLinkLost

/-! The crown: its token, heartbeats, locks, sensors, trips, event log, boot chain and a halted core -/

namespace Sys2Proof.Machine.Claims

/-- A refused write of a page's register at an offset leaves only the refusal's record (R60). -/
def OnlyRefusal (s : State) (pg code ofs : Nat) (t : State) : Prop :=
  t.get (Reg.HDR.BLK_REASON.CODE pg) = code ∧ t.get (Reg.HDR.BLK_REASON.OFFSET pg) = ofs ∧ t.get (Reg.HDR.BLK_STAT.REFUSED pg) = 1
    ∧ s.OnlyNotices (reasonFields pg ++ [Reg.HDR.BLK_STAT.REFUSED pg] ++ irqFields pg) t

/-- The miss count of a core. -/
def missField (core : Nat) : Field := if core = 0 then Reg.CROWN.HB_STAT.MISS_W else Reg.CROWN.HB_STAT.MISS_E

/-- The miss count of a core after a heartbeat boundary (R402): 0 with its bit set, else one more, at most 15. -/
def missNext (s : State) (core : Nat) : Nat :=
  if s.flag (if core = 0 then Reg.CROWN.HB.WEST else Reg.CROWN.HB.EAST) then 0 else min 15 (s.get (missField core) + 1)

/-- A heartbeat boundary's registers. -/
def hbFields : List Field := [Reg.CROWN.HB_STAT.MISS_W, Reg.CROWN.HB_STAT.MISS_E, Reg.CROWN.HB.WEST, Reg.CROWN.HB.EAST]

/-- TOKEN_HOLDER by the holder, or by the host while the token is NONE (R404): the token moves to the named core. -/
def tokenMoves : Prop :=
  ∀ (s : State) (src : Source) (v : Fin 4),
    s.canonical = true →
    (src == .host && s.hostWaits) = false →
    s.answers src (pgCROWN + 0x40) = true →
    s.authorised src = true →
    v.val < 2 →
    v.val ≠ s.holder →
    s.get (missField v.val) = 0 →
    s.crown.tokenNoneLog = false →
    s.crown.booting = false →
    ∃ t, Sys2Proof.Machine.exec (.tokenHolder src v) s = .next t ∧
      t.get Reg.CROWN.TOKEN.HOLDER = v.val ∧ t.get Reg.CROWN.TOKEN.MOVES = s.counted Reg.CROWN.TOKEN.MOVES 1 ∧ t.get (Reg.HDR.BLK_REASON.CODE pgCROWN) = 0 ∧ (t.get (Reg.HDR.BLK_IRQ_STAT.BLK_SPEC pgCROWN)).testBit 0 = true ∧ (s.slowed src (pgCROWN + 0x40)).OnlyNotices ([Reg.CROWN.TOKEN.HOLDER, Reg.CROWN.TOKEN.MOVES] ++ reasonFields pgCROWN ++ irqFields pgCROWN) t

/-- TOKEN_HOLDER by any other source (R404): refused with NOT_HOLDER. -/
def tokenNotHolder : Prop :=
  ∀ (s : State) (src : Source) (v : Fin 4),
    s.canonical = true →
    (src == .host && s.hostWaits) = false →
    s.answers src (pgCROWN + 0x40) = true →
    s.authorised src = false →
    ∃ t, Sys2Proof.Machine.exec (.tokenHolder src v) s = .next t ∧
      OnlyRefusal (s.slowed src (pgCROWN + 0x40)) pgCROWN rcNotHolder 0x40 t

/-- TOKEN_HOLDER naming a core with a miss count (R404): refused. -/
def tokenMissedCore : Prop :=
  ∀ (s : State) (src : Source) (v : Fin 4),
    s.canonical = true →
    (src == .host && s.hostWaits) = false →
    s.answers src (pgCROWN + 0x40) = true →
    s.authorised src = true →
    v.val < 2 →
    v.val ≠ s.holder →
    s.get (missField v.val) ≠ 0 →
    ∃ t, Sys2Proof.Machine.exec (.tokenHolder src v) s = .next t ∧
      OnlyRefusal (s.slowed src (pgCROWN + 0x40)) pgCROWN rcDep 0x40 t

/-- HB (R402): a core sets its own heartbeat bit only. -/
def heartbeatSets : Prop :=
  ∀ (s : State) (west : Bool),
    s.canonical = true →
    s.answers (if west then .wcore else .ecore) (pgCROWN + 0x44) = true →
    s.crown.halted = [] →
    ∃ t, Sys2Proof.Machine.exec (.hb (if west then .wcore else .ecore) 3) s = .next t ∧
      t.get (if west then Reg.CROWN.HB.WEST else Reg.CROWN.HB.EAST) = 1 ∧ (s.slowed (if west then .wcore else .ecore) (pgCROWN + 0x44)).OnlyFields [if west then Reg.CROWN.HB.WEST else Reg.CROWN.HB.EAST] t

/-- HB_BOUNDARY (R402): the miss counts follow the heartbeat bits, which are cleared; the holder has not missed three. -/
def heartbeatBoundary : Prop :=
  ∀ (s : State),
    s.canonical = true →
    s.domOn 323 = true →
    s.holder = 2 ∨ missNext s s.holder < 3 →
    ∃ t, Sys2Proof.Machine.exec (.hbBoundary) s = .next t ∧
      t.get Reg.CROWN.HB_STAT.MISS_W = missNext s 0 ∧ t.get Reg.CROWN.HB_STAT.MISS_E = missNext s 1 ∧ t.get Reg.CROWN.HB.WEST = 0 ∧ t.get Reg.CROWN.HB.EAST = 0 ∧ s.OnlyFields hbFields t

/-- HB_BOUNDARY at the holder's third miss (R403): the token moves to the other core, whose count is 0. -/
def holderLosesToken : Prop :=
  ∀ (s : State),
    s.canonical = true →
    s.domOn 323 = true →
    s.holder < 2 →
    3 ≤ missNext s s.holder →
    missNext s (1 - s.holder) = 0 →
    s.crown.tokenNoneLog = false →
    s.crown.booting = false →
    ∃ t, Sys2Proof.Machine.exec (.hbBoundary) s = .next t ∧
      t.get Reg.CROWN.TOKEN.HOLDER = 1 - s.holder ∧ t.get Reg.CROWN.TOKEN.MOVES = s.counted Reg.CROWN.TOKEN.MOVES 1 ∧ s.OnlyNotices ([Reg.CROWN.TOKEN.HOLDER, Reg.CROWN.TOKEN.MOVES] ++ hbFields ++ irqFields pgCROWN) t

/-- HB_BOUNDARY at the holder's third miss while the other core misses too (R403): the token is NONE, with its error. -/
def tokenGoesToNone : Prop :=
  ∀ (s : State),
    s.canonical = true →
    s.domOn 323 = true →
    s.holder < 2 →
    3 ≤ missNext s s.holder →
    missNext s (1 - s.holder) ≠ 0 →
    s.crown.booting = false →
    ∃ t, Sys2Proof.Machine.exec (.hbBoundary) s = .next t ∧
      t.get Reg.CROWN.TOKEN.HOLDER = 2 ∧ t.get (Reg.HDR.BLK_STAT.ERR pgCROWN) = 1 ∧ (t.get (Reg.HDR.BLK_IRQ_STAT.BLK_SPEC pgCROWN)).testBit 1 = true ∧ t.crown.tokenNoneLog = true ∧ t.mem = s.mem ∧ t.tiles = s.tiles

/-- LOCK by a permitted writer (R430): bits are set and never cleared. -/
def lockBitsSet : Prop :=
  ∀ (s : State) (src : Source) (v : BitVec 8),
    s.canonical = true →
    (src == .host && s.hostWaits) = false →
    s.answers src (pgSECURITY + 0x40) = true →
    s.authorised src = true →
    ∃ t, Sys2Proof.Machine.exec (.lock src v) s = .next t ∧
      t.get Reg.SECURITY.LOCK.BITS = s.get Reg.SECURITY.LOCK.BITS ||| v.toNat ∧ t.get (Reg.HDR.BLK_REASON.CODE pgSECURITY) = 0 ∧ (s.slowed src (pgSECURITY + 0x40)).OnlyFields ([Reg.SECURITY.LOCK.BITS] ++ reasonFields pgSECURITY) t

/-- LOCK by another source (R401, R430): refused with NOT_HOLDER; no bit is set. -/
def lockNotHolder : Prop :=
  ∀ (s : State) (src : Source) (v : BitVec 8),
    s.canonical = true →
    (src == .host && s.hostWaits) = false →
    s.answers src (pgSECURITY + 0x40) = true →
    s.authorised src = false →
    ∃ t, Sys2Proof.Machine.exec (.lock src v) s = .next t ∧
      OnlyRefusal (s.slowed src (pgSECURITY + 0x40)) pgSECURITY rcNotHolder 0x40 t

/-- SENSOR_SAMPLE that changes no state (R410): the value is stored with VALID. -/
def sampleStored : Prop :=
  ∀ (s : State) (i : Fin 84) (v : BitVec 16),
    s.canonical = true →
    s.domOn 323 = true →
    i.val < 80 →
    i.val < 64 → v.toInt < 0x0730 →
    s.get (Reg.CROWN.SENS_VAL.STATE i.val) = sensorNext i.val (s.get (Reg.CROWN.SENS_VAL.STATE i.val)) v.toNat (s.get (Reg.CROWN.SENS_THR_HI.CRIT_HI i.val)) (s.get (Reg.CROWN.SENS_THR_LO.CRIT_LO i.val)) (s.get (Reg.CROWN.SENS_THR_HI.WARN_HI i.val)) (s.get (Reg.CROWN.SENS_THR_LO.HYST i.val)) →
    s.get (Reg.CROWN.SENS_VAL.STATE i.val) ≠ 2 →
    s.crown.critReq = [] →
    ∃ t, Sys2Proof.Machine.exec (.sensorSample i v true) s = .next t ∧
      t.get (Reg.CROWN.SENS_VAL.VALUE i.val) = v.toNat ∧ t.get (Reg.CROWN.SENS_VAL.VALID i.val) = 1 ∧ t.get (Reg.CROWN.SENS_VAL.STATE i.val) = s.get (Reg.CROWN.SENS_VAL.STATE i.val) ∧ s.OnlyFields [Reg.CROWN.SENS_VAL.VALUE i.val, Reg.CROWN.SENS_VAL.VALID i.val, Reg.CROWN.SENS_VAL.STATE i.val, Reg.POWER.CAP_STAT.CRIT] t

/-- SENSOR_SAMPLE that changes the sensor's state (R411): the new state, its log record and its throttle request. -/
def sampleChangesState : Prop :=
  ∀ (s : State) (i : Fin 84) (v : BitVec 16),
    s.canonical = true →
    s.domOn 323 = true →
    i.val < 80 →
    i.val < 64 → v.toInt < 0x0730 →
    s.get (Reg.CROWN.SENS_VAL.STATE i.val) ≠ sensorNext i.val (s.get (Reg.CROWN.SENS_VAL.STATE i.val)) v.toNat (s.get (Reg.CROWN.SENS_THR_HI.CRIT_HI i.val)) (s.get (Reg.CROWN.SENS_THR_LO.CRIT_LO i.val)) (s.get (Reg.CROWN.SENS_THR_HI.WARN_HI i.val)) (s.get (Reg.CROWN.SENS_THR_LO.HYST i.val)) →
    s.crown.logQueue = [] →
    ∃ t, Sys2Proof.Machine.exec (.sensorSample i v true) s = .next t ∧
      t.get (Reg.CROWN.SENS_VAL.VALUE i.val) = v.toNat ∧ t.get (Reg.CROWN.SENS_VAL.VALID i.val) = 1 ∧ t.get (Reg.CROWN.SENS_VAL.STATE i.val) = sensorNext i.val (s.get (Reg.CROWN.SENS_VAL.STATE i.val)) v.toNat (s.get (Reg.CROWN.SENS_THR_HI.CRIT_HI i.val)) (s.get (Reg.CROWN.SENS_THR_LO.CRIT_LO i.val)) (s.get (Reg.CROWN.SENS_THR_HI.WARN_HI i.val)) (s.get (Reg.CROWN.SENS_THR_LO.HYST i.val)) ∧ t.crown.logQueue.map (fun r => (r.code, r.data)) = [(8, [BitVec.ofNat 8 i.val, BitVec.ofNat 8 (s.get (Reg.CROWN.SENS_VAL.STATE i.val)), BitVec.ofNat 8 (sensorNext i.val (s.get (Reg.CROWN.SENS_VAL.STATE i.val)) v.toNat (s.get (Reg.CROWN.SENS_THR_HI.CRIT_HI i.val)) (s.get (Reg.CROWN.SENS_THR_LO.CRIT_LO i.val)) (s.get (Reg.CROWN.SENS_THR_HI.WARN_HI i.val)) (s.get (Reg.CROWN.SENS_THR_LO.HYST i.val)))])] ∧ t.crown.critReq.contains i.val = (sensorNext i.val (s.get (Reg.CROWN.SENS_VAL.STATE i.val)) v.toNat (s.get (Reg.CROWN.SENS_THR_HI.CRIT_HI i.val)) (s.get (Reg.CROWN.SENS_THR_LO.CRIT_LO i.val)) (s.get (Reg.CROWN.SENS_THR_HI.WARN_HI i.val)) (s.get (Reg.CROWN.SENS_THR_LO.HYST i.val)) == 2)
      ∧ t.mem = s.mem ∧ t.tiles = s.tiles ∧ t.power.tripped = s.power.tripped

/-- SENSOR_SAMPLE that failed (R410): the value is kept with VALID 0. -/
def failedSample : Prop :=
  ∀ (s : State) (i : Fin 84) (v : BitVec 16),
    s.canonical = true →
    s.domOn 323 = true →
    ∃ t, Sys2Proof.Machine.exec (.sensorSample i v false) s = .next t ∧
      t.get (Reg.CROWN.SENS_VAL.VALID i.val) = 0 ∧ s.OnlyFields [Reg.CROWN.SENS_VAL.VALID i.val] t

/-- TRIP_SAMPLE at or above the trip temperature (R412): every domain but the always-on one is gated, and the record waits in the sequencer's buffer. -/
def tripGatesAll : Prop :=
  ∀ (s : State) (i : Fin 64) (v : BitVec 16),
    s.canonical = true →
    0x0730 ≤ v.toInt →
    s.power.tripped = false →
    s.crown.aonQueue = [] →
    s.streamActive = false →
    ∃ t, Sys2Proof.Machine.exec (.tripSample i v) s = .next t ∧
      t.power.tripped = true ∧ t.get (Reg.CROWN.SENS_VAL.STATE i.val) = 3 ∧ t.crown.aonQueue.map (fun r => (r.code, r.sev, r.data)) = [(3, 3, [BitVec.ofNat 8 i.val] ++ toBytes 2 v.toNat)] ∧ (∀ d ∈ List.range 324, t.domOn d = false)

/-- TRIP_SAMPLE below the trip temperature (R412): nothing happens. -/
def noTripBelow : Prop :=
  ∀ (s : State) (i : Fin 64) (v : BitVec 16),
    v.toInt < 0x0730 →
    ∃ t, Sys2Proof.Machine.exec (.tripSample i v) s = .next t ∧
      t = s

/-- LOG_WRITE (R414, R415): the oldest waiting record is programmed with the next sequence number. -/
def recordWritten : Prop :=
  ∀ (s : State) (r : LogRec) (q : List LogRec),
    s.canonical = true →
    s.domOn 323 = true →
    s.crown.logQueue = r :: q →
    s.flash.log.length < 262144 →
    s.crown.logDropped = 0 →
    s.crown.aonDropped = 0 →
    ∃ t, Sys2Proof.Machine.exec (.logWrite) s = .next t ∧
      t.flash.log = s.flash.log ++ [{ r with seq := s.get Reg.CROWN.LOG_NEXT.SEQ, good := true }] ∧ t.crown.logQueue = q ∧ t.get Reg.CROWN.LOG_NEXT.SEQ = (s.get Reg.CROWN.LOG_NEXT.SEQ + 1) % 2 ^ 32 ∧ s.SameFields [Reg.CROWN.LOG_NEXT.SEQ] t ∧ t.mem = s.mem ∧ t.tiles = s.tiles

/-- LOG_WRITE with no record waiting (R520 to R522): crown firmware's record of a cause whose interrupt goes to a management core. -/
def causeLogged : Prop :=
  ∀ (s : State) (pg : Ofs) (b : Fin 32) (n : Nat),
    s.canonical = true →
    s.domOn 323 = true →
    s.crown.logQueue = [] →
    s.crown.aonQueue = [] →
    s.causes = [(pg.toNat * 32 + b.val, n)] →
    s.holder < 2 →
    s.crown.halted.contains s.holder = false →
    s.flash.log.length < 262144 →
    s.crown.logDropped = 0 →
    s.crown.aonDropped = 0 →
    ∃ t, Sys2Proof.Machine.exec (.logWrite) s = .next t ∧
      t.flash.log.length = s.flash.log.length + 1 ∧ (t.flash.log.getLast?.map fun r => (r.seq, r.boot, r.source, r.code, r.sev, r.core)) = some (s.get Reg.CROWN.LOG_NEXT.SEQ, s.get Reg.CROWN.BOOT_CNT.CNT, State.pageSource pg.toNat, (pageAt pg.toNat).typeCode % 256 * 256 + b.val, State.causeSev pg.toNat b.val, s.holder)
      ∧ (t.flash.log.getLast?.map fun r => r.data.take 16) = some (toBytes 4 (s.irqStat pg.toNat) ++ toBytes 4 (s.word (pg.toNat + 0x10)) ++ toBytes 4 (s.word (pg.toNat + 0x14)) ++ toBytes 4 n) ∧ t.causes = [] ∧ t.get Reg.CROWN.LOG_NEXT.SEQ = (s.get Reg.CROWN.LOG_NEXT.SEQ + 1) % 2 ^ 32 ∧ s.SameFields [Reg.CROWN.LOG_NEXT.SEQ] t ∧ t.mem = s.mem ∧ t.tiles = s.tiles

/-- LOG_WRITE with nothing to write (R415): nothing changes. -/
def nothingToLog : Prop :=
  ∀ (s : State),
    s.crown.logQueue = [] →
    s.crown.aonQueue = [] →
    s.causes = [] →
    ∃ t, Sys2Proof.Machine.exec (.logWrite) s = .next t ∧
      t = s

/-- BOOT with no PENDING slot (R421): the ACTIVE slot boots where the gauntlet accepts it, else the other, else the crown is in RECOVERY; the boot is counted and READY is set. -/
def bootChoosesSlot : Prop :=
  ∀ (s : State),
    s.canonical = true →
    s.crown.booting = true →
    s.domOn 323 = true →
    s.holder < 2 →
    s.crown.halted.contains s.holder = false →
    (dirRec s.flash).pending = none →
    (dirRec s.flash).committed = false →
    (dirRec s.flash).active < 2 →
    s.get Reg.GLOBAL.MOD_ID.GRADE ≠ 0 →
    ∃ t, Sys2Proof.Machine.exec (.boot) s = .next t ∧
      t.crown.booting = false ∧ t.get (Reg.HDR.BLK_STAT.READY pgCROWN) = 1 ∧ t.get Reg.CROWN.BOOT_CNT.CNT = ((dirRec s.flash).bootCnt + 1) % 2 ^ 32 ∧ (dirRec t.flash).bootCnt = (dirRec s.flash).bootCnt + 1 ∧ t.get Reg.CROWN.FW_STAT.STATE = (if gauntlet s (s.flash.slot (dirRec s.flash).active) = 0 ∨ gauntlet s (s.flash.slot (1 - (dirRec s.flash).active)) = 0 then 1 else 3)
      ∧ (gauntlet s (s.flash.slot (dirRec s.flash).active) = 0 → t.get Reg.CROWN.FW_STAT.BOOTED = (dirRec s.flash).active) ∧ t.flash.slotA = s.flash.slotA ∧ t.flash.slotB = s.flash.slotB ∧ t.fuses = s.fuses ∧ t.mem = s.mem ∧ t.tiles = s.tiles

/-- BOOT of a module whose GRADE reads 0 (R7): a fuse fault; it stops at crown bring-up. -/
def bootFuseFault : Prop :=
  ∀ (s : State),
    s.get Reg.GLOBAL.MOD_ID.GRADE = 0 →
    ∃ t, Sys2Proof.Machine.exec (.boot) s = .next t ∧
      t = s

/-- CORE_HALT (R517): the core halts and the other core's record reports it. -/
def coreHalts : Prop :=
  ∀ (s : State) (core : Fin 2) (addr : Nat) (bits : List Nat),
    s.crown.sramFlips = [(core.val, addr, bits)] →
    2 ≤ bits.length →
    s.crown.halted = [] →
    s.crown.logQueue = [] →
    ∃ t, Sys2Proof.Machine.exec (.coreHalt core addr) s = .next t ∧
      t.crown.halted = [core.val] ∧ t.crown.logQueue.map (fun r => (r.core, r.code, r.data)) = [(1 - core.val, 11, [BitVec.ofNat 8 core.val] ++ toBytes 4 addr)] ∧ { t with crown := s.crown } = s

end Sys2Proof.Machine.Claims

/-- The crown: its token, heartbeats, locks, sensors, trips, event log, boot chain and a halted core -/
def Obligations.CrownCompletes : Prop :=
  Sys2Proof.Machine.Claims.tokenMoves ∧ Sys2Proof.Machine.Claims.tokenNotHolder ∧ Sys2Proof.Machine.Claims.tokenMissedCore ∧
    Sys2Proof.Machine.Claims.heartbeatSets ∧ Sys2Proof.Machine.Claims.heartbeatBoundary ∧ Sys2Proof.Machine.Claims.holderLosesToken ∧
    Sys2Proof.Machine.Claims.tokenGoesToNone ∧ Sys2Proof.Machine.Claims.lockBitsSet ∧ Sys2Proof.Machine.Claims.lockNotHolder ∧
    Sys2Proof.Machine.Claims.sampleStored ∧ Sys2Proof.Machine.Claims.sampleChangesState ∧ Sys2Proof.Machine.Claims.failedSample ∧
    Sys2Proof.Machine.Claims.tripGatesAll ∧ Sys2Proof.Machine.Claims.noTripBelow ∧ Sys2Proof.Machine.Claims.recordWritten ∧
    Sys2Proof.Machine.Claims.causeLogged ∧ Sys2Proof.Machine.Claims.nothingToLog ∧ Sys2Proof.Machine.Claims.bootChoosesSlot ∧
    Sys2Proof.Machine.Claims.bootFuseFault ∧ Sys2Proof.Machine.Claims.coreHalts

/-! The crown's mailbox and its commands -/

namespace Sys2Proof.Machine.Claims

/-- The request of a path (R407). -/
def requestOf (s : State) (path : MbPath) : List Byte := match path with | .mailbox => s.mbReq | .mctp m => m
def seqOf (s : State) (path : MbPath) : Nat := ofBytes (((requestOf s path).drop 4).take 4)
def payloadOf (s : State) (path : MbPath) (len : Nat) : List Byte := ((requestOf s path).drop 16).take len
def pathKey (path : MbPath) : Nat := match path with | .mailbox => 0 | .mctp _ => 1

/-- A request for a command that waits on its path of a running holder, with the version, the command's length, reserved bytes of 0, and a SEQ that is not the last one's (R407, R408). -/
def asks (s : State) (path : MbPath) (cmd len : Nat) : Bool :=
  (match path with | .mailbox => s.flag Reg.CROWN.MB_STAT.BUSY | .mctp _ => s.isReady pgCROWN) && !s.crown.halted.contains s.holder && ofBytes (((requestOf s path).drop 2).take 2) == cmd && ofBytes (((requestOf s path).drop 1).take 1) == 1
    && ofBytes (((requestOf s path).drop 8).take 2) == len && ofBytes (((requestOf s path).drop 11).take 5) == 0 && (lookup (pathKey path) s.crown.lastSeq).all (fun q => q.1 != seqOf s path)

/-- A core holds the token and the crown serves every command. -/
def served (s : State) : Bool := s.holder != 2 && s.isReady pgCROWN && s.get Reg.CROWN.FW_STAT.STATE != 3

/-- The answer of a path: in MB_RSP for the holder to complete, or sent and kept as the path's last (R407). -/
def Answered (s : State) (path : MbPath) (m : List Byte) (t : State) : Prop :=
  match path with
  | .mailbox => t.mbRsp = (m ++ List.replicate 256 0).take 256 ∧ t.out = s.out
  | .mctp _ => t.out = s.out ++ [.mctp m] ∧ lookup 1 t.crown.lastSeq = some (seqOf s path, m)

/-- Every field of MB_RSP. -/
def rspFields : List Field := (List.range 64).map fun i => Reg.CROWN.MB_RSP.DATA i

/-- The command's answer with a status and a payload. -/
def Says (s : State) (path : MbPath) (cmd status : Nat) (payload : List Byte) (t : State) : Prop := Answered s path (mbMessage cmd (seqOf s path) status payload) t

/-- GET_INFO (R408, R525). -/
def infoAnswered : Prop :=
  ∀ (s : State) (path : MbPath),
    s.canonical = true →
    asks s path 1 0 = true →
    served s = true →
    ∃ t, Sys2Proof.Machine.exec (.getInfo path) s = .next t ∧
      Says s path 1 0 (toBytes 4 (s.word 0x40) ++ toBytes 4 (s.word 0x60200) ++ toBytes 4 (s.word 0x1040) ++ toBytes 4 (s.word 0x1090) ++ [0, 1, 0, 0] ++ (List.range 4).flatMap fun w => toBytes 4 (s.get (Reg.SECURITY.DEV_ID.ID w))) t ∧ s.SameFields (rspFields) t ∧ t.flash = s.flash ∧ t.fuses = s.fuses ∧ t.mem = s.mem ∧ t.tiles = s.tiles

/-- SET_MODULE_ID (R408, R311). -/
def moduleIdSet : Prop :=
  ∀ (s : State) (path : MbPath),
    s.canonical = true →
    asks s path 2 2 = true →
    served s = true →
    ofBytes (payloadOf s path 2) < 4096 →
    s.anyPortEnabled = false →
    ∃ t, Sys2Proof.Machine.exec (.setModuleId path) s = .next t ∧
      Says s path 2 0 [] t ∧ t.get (Reg.FL.MOD_ID.ID 0) = ofBytes (payloadOf s path 2) ∧ t.get (Reg.FL.MOD_ID.VALID 0) = 1 ∧ s.SameFields (rspFields ++ [Reg.FL.MOD_ID.ID 0, Reg.FL.MOD_ID.VALID 0]) t ∧ t.flash = s.flash ∧ t.fuses = s.fuses ∧ t.mem = s.mem ∧ t.tiles = s.tiles

/-- SET_MODULE_ID while a port is enabled (R311): BUSY, and the ID is kept. -/
def moduleIdBusy : Prop :=
  ∀ (s : State) (path : MbPath),
    s.canonical = true →
    asks s path 2 2 = true →
    served s = true →
    ofBytes (payloadOf s path 2) < 4096 →
    s.anyPortEnabled = true →
    ∃ t, Sys2Proof.Machine.exec (.setModuleId path) s = .next t ∧
      Says s path 2 4 [] t ∧ s.SameFields (rspFields) t ∧ t.flash = s.flash ∧ t.fuses = s.fuses ∧ t.mem = s.mem ∧ t.tiles = s.tiles

/-- SENSOR_READ (R408, R525). -/
def sensorsRead : Prop :=
  ∀ (s : State) (path : MbPath),
    s.canonical = true →
    asks s path 16 2 = true →
    served s = true →
    1 ≤ (ofBytes (((payloadOf s path 2).drop 1).take 1)) ∧ (ofBytes (((payloadOf s path 2).drop 1).take 1)) ≤ 60 →
    (ofBytes ((payloadOf s path 2).take 1)) + (ofBytes (((payloadOf s path 2).drop 1).take 1)) ≤ 84 →
    ∃ t, Sys2Proof.Machine.exec (.sensorRead path) s = .next t ∧
      Says s path 16 0 ((List.range (ofBytes (((payloadOf s path 2).drop 1).take 1))).flatMap fun i => toBytes 4 (s.word (0x1800 + 4 * ((ofBytes ((payloadOf s path 2).take 1)) + i)))) t ∧ s.SameFields (rspFields) t ∧ t.flash = s.flash ∧ t.fuses = s.fuses ∧ t.mem = s.mem ∧ t.tiles = s.tiles

/-- THRESH_SET (R408, R413). -/
def thresholdsSet : Prop :=
  ∀ (s : State) (path : MbPath),
    s.canonical = true →
    asks s path 17 12 = true →
    served s = true →
    (ofBytes ((payloadOf s path 12).take 1)) ≤ 83 →
    ofBytes (((payloadOf s path 12).drop 1).take 3) = 0 →
    ∃ t, Sys2Proof.Machine.exec (.threshSet path) s = .next t ∧
      Says s path 17 0 [] t ∧ t.get (Reg.CROWN.SENS_THR_HI.CRIT_HI (ofBytes ((payloadOf s path 12).take 1))) = (ofBytes (((payloadOf s path 12).drop 4).take 4)) / 65536 ∧ t.get (Reg.CROWN.SENS_THR_HI.WARN_HI (ofBytes ((payloadOf s path 12).take 1))) = (ofBytes (((payloadOf s path 12).drop 4).take 4)) % 65536 ∧ t.get (Reg.CROWN.SENS_THR_LO.HYST (ofBytes ((payloadOf s path 12).take 1))) = (ofBytes (((payloadOf s path 12).drop 8).take 4)) / 65536 ∧ t.get (Reg.CROWN.SENS_THR_LO.CRIT_LO (ofBytes ((payloadOf s path 12).take 1))) = (ofBytes (((payloadOf s path 12).drop 8).take 4)) % 65536 ∧ s.SameFields (rspFields ++ [Reg.CROWN.SENS_THR_HI.CRIT_HI (ofBytes ((payloadOf s path 12).take 1)), Reg.CROWN.SENS_THR_HI.WARN_HI (ofBytes ((payloadOf s path 12).take 1)), Reg.CROWN.SENS_THR_LO.HYST (ofBytes ((payloadOf s path 12).take 1)), Reg.CROWN.SENS_THR_LO.CRIT_LO (ofBytes ((payloadOf s path 12).take 1))]) t ∧ t.flash = s.flash ∧ t.fuses = s.fuses ∧ t.mem = s.mem ∧ t.tiles = s.tiles

/-- LOG_READ of an empty log (R416): no record. -/
def logRead : Prop :=
  ∀ (s : State) (path : MbPath),
    s.canonical = true →
    asks s path 32 8 = true →
    served s = true →
    1 ≤ ofBytes (((payloadOf s path 8).drop 4).take 1) ∧ ofBytes (((payloadOf s path 8).drop 4).take 1) ≤ 3 →
    ofBytes (((payloadOf s path 8).drop 5).take 3) = 0 →
    s.flash.log = [] →
    ∃ t, Sys2Proof.Machine.exec (.logRead path) s = .next t ∧
      Says s path 32 0 (toBytes 4 (s.get Reg.CROWN.LOG_NEXT.SEQ) ++ [0, 0, 0, 0]) t ∧ s.SameFields (rspFields) t ∧ t.flash = s.flash ∧ t.fuses = s.fuses ∧ t.mem = s.mem ∧ t.tiles = s.tiles

/-- FW_STAGE (R423): an accepted image stands in the slot that is not ACTIVE; a refused one leaves it erased. -/
def imageStaged : Prop :=
  ∀ (s : State) (path : MbPath),
    s.canonical = true →
    asks s path 48 12 = true →
    served s = true →
    (s.get Reg.SECURITY.LOCK.BITS).testBit 5 = false →
    1 ≤ (ofBytes (((payloadOf s path 12).drop 8).take 4)) ∧ (ofBytes (((payloadOf s path 12).drop 8).take 4)) ≤ 16777216 →
    (ofBytes ((payloadOf s path 12).take 8)) < 2 ^ 48 →
    0x40000000 ≤ (ofBytes ((payloadOf s path 12).take 8)) ∧ (ofBytes ((payloadOf s path 12).take 8)) < 0x50000000 →
    populated (ofBytes ((payloadOf s path 12).take 8)) (ofBytes (((payloadOf s path 12).drop 8).take 4)) = true →
    s.reaches (ofBytes ((payloadOf s path 12).take 8)) (ofBytes (((payloadOf s path 12).drop 8).take 4)) = true →
    s.flash.badSlots = [] →
    (dirRec s.flash).pending = none →
    (dirRec s.flash).active < 2 →
    ∃ t, Sys2Proof.Machine.exec (.fwStage path) s = .next t ∧
      Says s path 48 (if gauntlet s ⟨s.bytes (ofBytes ((payloadOf s path 12).take 8)) (ofBytes (((payloadOf s path 12).drop 8).take 4))⟩ = 0 then 0 else if gauntlet s ⟨s.bytes (ofBytes ((payloadOf s path 12).take 8)) (ofBytes (((payloadOf s path 12).drop 8).take 4))⟩ = 2 then 8 else 7) [] t ∧ t.flash.slot (1 - (dirRec s.flash).active) = (if gauntlet s ⟨s.bytes (ofBytes ((payloadOf s path 12).take 8)) (ofBytes (((payloadOf s path 12).drop 8).take 4))⟩ = 0 then ⟨s.bytes (ofBytes ((payloadOf s path 12).take 8)) (ofBytes (((payloadOf s path 12).drop 8).take 4))⟩ else ⟨[]⟩) ∧ t.flash.slot (dirRec s.flash).active = s.flash.slot (dirRec s.flash).active ∧ t.flash.dir = s.flash.dir ∧ s.SameFields (rspFields) t ∧ t.fuses = s.fuses ∧ t.mem = s.mem ∧ t.tiles = s.tiles

/-- FW_ACTIVATE with no verified image staged (R424; the status is the model's choice, log entry 12): STATE; nothing changes. -/
def nothingToActivate : Prop :=
  ∀ (s : State) (path : MbPath),
    s.canonical = true →
    asks s path 49 0 = true →
    served s = true →
    (s.get Reg.SECURITY.LOCK.BITS).testBit 5 = false →
    gauntlet s (s.flash.slot (1 - (dirRec s.flash).active)) ≠ 0 →
    ∃ t, Sys2Proof.Machine.exec (.fwActivate path) s = .next t ∧
      Says s path 49 12 [] t ∧ s.SameFields (rspFields) t ∧ t.flash = s.flash ∧ t.fuses = s.fuses ∧ t.mem = s.mem ∧ t.tiles = s.tiles

/-- FW_ACTIVATE under its lock (R430): LOCKED; nothing changes. -/
def activationLocked : Prop :=
  ∀ (s : State) (path : MbPath),
    s.canonical = true →
    asks s path 49 0 = true →
    served s = true →
    (s.get Reg.SECURITY.LOCK.BITS).testBit 5 = true →
    ∃ t, Sys2Proof.Machine.exec (.fwActivate path) s = .next t ∧
      Says s path 49 5 [] t ∧ s.SameFields (rspFields) t ∧ t.flash = s.flash ∧ t.fuses = s.fuses ∧ t.mem = s.mem ∧ t.tiles = s.tiles

/-- FW_COMMIT of firmware booted from PENDING (R424, R425): its slot is ACTIVE and COMMITTED. -/
def commitWorks : Prop :=
  ∀ (s : State) (path : MbPath),
    s.canonical = true →
    asks s path 50 0 = true →
    served s = true →
    (s.get Reg.SECURITY.LOCK.BITS).testBit 5 = false →
    s.crown.bootedPending = true →
    (s.flash.slot (s.get Reg.CROWN.FW_STAT.BOOTED)).svn ≤ s.fuses.rollback →
    ∃ t, Sys2Proof.Machine.exec (.fwCommit path) s = .next t ∧
      Says s path 50 0 [BitVec.ofNat 8 s.fuses.rollback] t ∧ (dirRec t.flash).active = s.get Reg.CROWN.FW_STAT.BOOTED ∧ (dirRec t.flash).committed = true ∧ (dirRec t.flash).pending = none ∧ t.get Reg.CROWN.FW_STAT.STATE = 1 ∧ t.crown.bootedPending = false ∧ s.SameFields (rspFields ++ [Reg.CROWN.FW_STAT.STATE, Reg.CROWN.FW_STAT.TRIES, Reg.CROWN.FW_STAT.ACTIVE, Reg.CROWN.FW_STAT.PEND_VALID, Reg.CROWN.FW_STAT.PEND]) t ∧ t.fuses = s.fuses ∧ t.mem = s.mem ∧ t.tiles = s.tiles

/-- FW_COMMIT of other firmware (R424): STATE; nothing changes. -/
def commitInWrongState : Prop :=
  ∀ (s : State) (path : MbPath),
    s.canonical = true →
    asks s path 50 0 = true →
    served s = true →
    (s.get Reg.SECURITY.LOCK.BITS).testBit 5 = false →
    s.crown.bootedPending = false →
    ∃ t, Sys2Proof.Machine.exec (.fwCommit path) s = .next t ∧
      Says s path 50 12 [] t ∧ s.SameFields (rspFields) t ∧ t.flash = s.flash ∧ t.fuses = s.fuses ∧ t.mem = s.mem ∧ t.tiles = s.tiles

/-- ATTEST with the first index of a new block (R427, R428): the block is reserved before the index is used, and the report stands at the address. -/
def reportSigned : Prop :=
  ∀ (s : State) (path : MbPath),
    s.canonical = true →
    asks s path 64 40 = true →
    served s = true →
    (ofBytes ((payloadOf s path 40).drop 32)) < 2 ^ 48 →
    populated (ofBytes ((payloadOf s path 40).drop 32)) 3028 = true →
    s.reaches (ofBytes ((payloadOf s path 40).drop 32)) 3028 = true →
    s.flash.badJournal = [] →
    s.flash.cacheOk = true →
    s.crown.sigBlock = none →
    s.flash.journal.length < 4096 →
    ∃ t, Sys2Proof.Machine.exec (.attest path) s = .next t ∧
      Says s path 64 0 (toBytes 4 3028) t ∧ t.get Reg.SECURITY.SIG_NEXT.VALUE = (256 * s.flash.journal.length + 1) % 2 ^ 21 ∧ t.get Reg.SECURITY.SIG_LEFT.VALUE = (2 ^ 20 - (256 * s.flash.journal.length + 1)) % 2 ^ 21 ∧ t.flash.journal = s.flash.journal ++ [true] ∧ t.crown.sigBlock = some s.flash.journal.length
      ∧ t.bytes (ofBytes ((payloadOf s path 40).drop 32)) 8 = toBytes 4 0x54525441 ++ toBytes 2 1 ++ toBytes 2 208 ∧ s.SameFields (rspFields ++ [Reg.SECURITY.SIG_NEXT.VALUE, Reg.SECURITY.SIG_LEFT.VALUE]) t ∧ t.fuses = s.fuses ∧ t.tiles = s.tiles

/-- GET_CERT (R426): the certificate stands at the address. -/
def certificateWritten : Prop :=
  ∀ (s : State) (path : MbPath),
    s.canonical = true →
    asks s path 65 8 = true →
    served s = true →
    (ofBytes (payloadOf s path 8)) < 2 ^ 48 →
    populated (ofBytes (payloadOf s path 8)) s.flash.cert.length = true →
    s.reaches (ofBytes (payloadOf s path 8)) s.flash.cert.length = true →
    ∃ t, Sys2Proof.Machine.exec (.getCert path) s = .next t ∧
      Says s path 65 0 (toBytes 4 s.flash.cert.length) t ∧ t.bytes (ofBytes (payloadOf s path 8)) s.flash.cert.length = s.flash.cert ∧ s.OnlyBytes (ofBytes (payloadOf s path 8)) s.flash.cert.length t ∧ s.SameFields (rspFields) t ∧ t.flash = s.flash ∧ t.fuses = s.fuses ∧ t.tiles = s.tiles

/-- LOCK_SET (R408, R430): the bits are set and LOCK is returned. -/
def locksSet : Prop :=
  ∀ (s : State) (path : MbPath),
    s.canonical = true →
    asks s path 80 1 = true →
    served s = true →
    ∃ t, Sys2Proof.Machine.exec (.lockSet path) s = .next t ∧
      Says s path 80 0 [BitVec.ofNat 8 ((s.get Reg.SECURITY.LOCK.BITS ||| ofBytes (payloadOf s path 1)) % 256)] t ∧ t.get Reg.SECURITY.LOCK.BITS = (s.get Reg.SECURITY.LOCK.BITS ||| ofBytes (payloadOf s path 1)) % 256 ∧ s.SameFields (rspFields ++ [Reg.SECURITY.LOCK.BITS]) t ∧ t.flash = s.flash ∧ t.fuses = s.fuses ∧ t.mem = s.mem ∧ t.tiles = s.tiles

/-- TOKEN_ASSIGN while the token is NONE (R409): the token goes to the named core. -/
def tokenAssigned : Prop :=
  ∀ (s : State) (msg : List Byte),
    s.canonical = true →
    asks s (.mctp msg) 96 1 = true →
    s.holder = 2 →
    ofBytes (payloadOf s (.mctp msg) 1) < 2 →
    s.get (if ofBytes (payloadOf s (.mctp msg) 1) = 0 then Reg.CROWN.HB_STAT.MISS_W else Reg.CROWN.HB_STAT.MISS_E) = 0 →
    s.crown.tokenNoneLog = false →
    s.crown.booting = false →
    ∃ t, Sys2Proof.Machine.exec (.tokenAssign (.mctp msg)) s = .next t ∧
      t.out.getLast? = some (.mctp (mbMessage 96 (seqOf s (.mctp msg)) 0 [])) ∧ t.get Reg.CROWN.TOKEN.HOLDER = ofBytes (payloadOf s (.mctp msg) 1) ∧ t.get Reg.CROWN.TOKEN.MOVES = s.counted Reg.CROWN.TOKEN.MOVES 1 ∧ t.flash = s.flash ∧ t.mem = s.mem ∧ t.tiles = s.tiles

/-- TOKEN_ASSIGN while a core holds the token (R409): STATE; the token stays. -/
def tokenHeld : Prop :=
  ∀ (s : State) (path : MbPath),
    s.canonical = true →
    asks s path 96 1 = true →
    served s = true →
    ∃ t, Sys2Proof.Machine.exec (.tokenAssign path) s = .next t ∧
      Says s path 96 12 [] t ∧ s.SameFields (rspFields) t ∧ t.flash = s.flash ∧ t.fuses = s.fuses ∧ t.mem = s.mem ∧ t.tiles = s.tiles

/-- A request with the SEQ of the last one (R407): answered from the stored response. -/
def repeatedSeq : Prop :=
  ∀ (s : State) (m msg : List Byte),
    s.canonical = true →
    s.isReady pgCROWN = true →
    s.crown.halted.contains s.holder = false →
    ofBytes ((msg.drop 2).take 2) = 1 →
    lookup 1 s.crown.lastSeq = some (ofBytes ((msg.drop 4).take 4), m) →
    risingFrom 0 s.crown.lastSeq = true →
    ∃ t, Sys2Proof.Machine.exec (.getInfo (.mctp msg)) s = .next t ∧
      t.out = s.out ++ [.mctp m] ∧ { t with out := s.out, crown := s.crown } = s

/-- MB_GO (R407): the request waits for the holder. -/
def requestGoes : Prop :=
  ∀ (s : State) (src : Source),
    s.canonical = true →
    (src == .host && s.hostWaits) = false →
    s.answers src (pgCROWN + 0x60) = true →
    s.get Reg.CROWN.MB_STAT.BUSY = 0 →
    s.holder < 2 →
    ∃ t, Sys2Proof.Machine.exec (.mbGo src) s = .next t ∧
      t.get Reg.CROWN.MB_STAT.BUSY = 1 ∧ s.OnlyFields [Reg.CROWN.MB_STAT.BUSY] t

/-- MB_GO while a request is in progress (R407): refused with BUSY. -/
def requestBusy : Prop :=
  ∀ (s : State) (src : Source),
    s.canonical = true →
    (src == .host && s.hostWaits) = false →
    s.answers src (pgCROWN + 0x60) = true →
    s.get Reg.CROWN.MB_STAT.BUSY = 1 →
    ∃ t, Sys2Proof.Machine.exec (.mbGo src) s = .next t ∧
      t.get (Reg.HDR.BLK_REASON.CODE pgCROWN) = rcBusy ∧ t.get (Reg.HDR.BLK_STAT.REFUSED pgCROWN) = 1 ∧ s.OnlyNotices (reasonFields pgCROWN ++ [Reg.HDR.BLK_STAT.REFUSED pgCROWN] ++ irqFields pgCROWN) t

/-- MB_COMPLETE by the holder (R407): BUSY clears, DONE is set, and the response is kept with its SEQ. -/
def requestCompletes : Prop :=
  ∀ (s : State) (src : Source),
    s.canonical = true →
    (src == .host && s.hostWaits) = false →
    s.answers src (pgCROWN + 0x68) = true →
    s.authorised src = true →
    s.holder < 2 →
    s.get Reg.CROWN.MB_STAT.BUSY = 1 →
    ofBytes ((s.mbReq.drop 1).take 1) = 1 →
    mbKnown (ofBytes ((s.mbReq.drop 2).take 2)) = true →
    ∃ t, Sys2Proof.Machine.exec (.mbComplete src) s = .next t ∧
      t.get Reg.CROWN.MB_STAT.BUSY = 0 ∧ t.get Reg.CROWN.MB_STAT.DONE = 1 ∧ lookup 0 t.crown.lastSeq = some (ofBytes ((s.mbReq.drop 4).take 4), s.mbRsp) ∧ (t.get (Reg.HDR.BLK_IRQ_STAT.BLK_SPEC pgCROWN)).testBit 2 = true ∧ s.SameFields ([Reg.CROWN.MB_STAT.BUSY, Reg.CROWN.MB_STAT.DONE] ++ irqFields pgCROWN) t ∧ t.mem = s.mem ∧ t.flash = s.flash

end Sys2Proof.Machine.Claims

/-- The crown's mailbox and its commands -/
def Obligations.MailboxCompletes : Prop :=
  Sys2Proof.Machine.Claims.infoAnswered ∧ Sys2Proof.Machine.Claims.moduleIdSet ∧ Sys2Proof.Machine.Claims.moduleIdBusy ∧
    Sys2Proof.Machine.Claims.sensorsRead ∧ Sys2Proof.Machine.Claims.thresholdsSet ∧ Sys2Proof.Machine.Claims.logRead ∧
    Sys2Proof.Machine.Claims.imageStaged ∧ Sys2Proof.Machine.Claims.nothingToActivate ∧ Sys2Proof.Machine.Claims.activationLocked ∧
    Sys2Proof.Machine.Claims.commitWorks ∧ Sys2Proof.Machine.Claims.commitInWrongState ∧ Sys2Proof.Machine.Claims.reportSigned ∧
    Sys2Proof.Machine.Claims.certificateWritten ∧ Sys2Proof.Machine.Claims.locksSet ∧ Sys2Proof.Machine.Claims.tokenAssigned ∧
    Sys2Proof.Machine.Claims.tokenHeld ∧ Sys2Proof.Machine.Claims.repeatedSeq ∧ Sys2Proof.Machine.Claims.requestGoes ∧
    Sys2Proof.Machine.Claims.requestBusy ∧ Sys2Proof.Machine.Claims.requestCompletes

/-! The root PLL, the halves' clock settings and the throttle inputs -/

namespace Sys2Proof.Machine.Claims

/-- MULT (R434, R435): an authorised write that changes MULT, while both halves read GATED, takes the new value and starts the PLL's relock through the bypass. -/
def multRelocks : Prop :=
  ∀ (s : State) (src : Source) (v : BitVec 8),
    s.canonical = true →
    (src == .host && s.hostWaits) = false →
    s.answers src (pgCLOCK + 0x40) = true →
    s.authorised src = true →
    (s.get Reg.SECURITY.LOCK.BITS).testBit 0 = false →
    v.toNat = 60 ∨ v.toNat = 80 ∨ v.toNat = 100 →
    v.toNat ≤ gradeMult (s.get Reg.GLOBAL.MOD_ID.GRADE) →
    v.toNat ≠ s.get Reg.CLOCK.RCLK_CFG.MULT →
    s.effective 0 = 2 →
    s.effective 1 = 2 →
    ∃ t, Sys2Proof.Machine.exec (.mult src v) s = .next t ∧
      t.get Reg.CLOCK.RCLK_CFG.MULT = v.toNat ∧ t.get Reg.CLOCK.CLK_STAT.BYPASS = 1 ∧ t.get Reg.CLOCK.CLK_STAT.RELOCK = 1
      ∧ t.get Reg.CLOCK.CLK_STAT.LOCK = 0 ∧ t.get (Reg.HDR.BLK_REASON.CODE pgCLOCK) = 0
      ∧ (s.slowed src (pgCLOCK + 0x40)).OnlyFields ([Reg.CLOCK.RCLK_CFG.MULT, Reg.CLOCK.CLK_STAT.BYPASS, Reg.CLOCK.CLK_STAT.RELOCK, Reg.CLOCK.CLK_STAT.LOCK] ++ reasonFields pgCLOCK) t

/-- RELOCK_DONE (R435): the relock ends: RELOCK clears, MCLK and SCLK leave the bypass, LOCK reads 1 and cause 4 is set. -/
def relockEnds : Prop :=
  ∀ (s : State),
    s.canonical = true →
    s.get Reg.CLOCK.CLK_STAT.RELOCK = 1 →
    s.power.stopped = false →
    ∃ t, Sys2Proof.Machine.exec (.relockDone) s = .next t ∧
      t.get Reg.CLOCK.CLK_STAT.RELOCK = 0 ∧ t.get Reg.CLOCK.CLK_STAT.BYPASS = 0 ∧ t.get Reg.CLOCK.CLK_STAT.LOCK = 1
      ∧ (t.get (Reg.HDR.BLK_IRQ_STAT.BLK_SPEC pgCLOCK)).testBit 0 = true
      ∧ s.OnlyNotices ([Reg.CLOCK.CLK_STAT.BYPASS, Reg.CLOCK.CLK_STAT.RELOCK, Reg.CLOCK.CLK_STAT.LOCK] ++ irqFields pgCLOCK) t

/-- LOCK_LOST (R437): with no stream running, both halves stop (their effective setting is GATED), the PLL is bypassed, the loss is counted and ERR is set. -/
def lockLostStops : Prop :=
  ∀ (s : State),
    s.canonical = true →
    s.get Reg.CLOCK.CLK_STAT.LOCK = 1 →
    s.streamActive = false →
    ∃ t, Sys2Proof.Machine.exec (.lockLost) s = .next t ∧
      t.power.stopped = true ∧ t.effective 0 = 2 ∧ t.effective 1 = 2 ∧ t.get Reg.CLOCK.CLK_STAT.LOCK = 0 ∧ t.get Reg.CLOCK.CLK_STAT.BYPASS = 1
      ∧ t.get Reg.CLOCK.CLK_STAT.WEST_EFF = 2 ∧ t.get Reg.CLOCK.CLK_STAT.EAST_EFF = 2
      ∧ t.get Reg.CLOCK.LOCK_LOST_CNT.CNT = s.counted Reg.CLOCK.LOCK_LOST_CNT.CNT 1 ∧ t.get (Reg.HDR.BLK_STAT.ERR pgCLOCK) = 1
      ∧ t.mem = s.mem ∧ t.tiles = s.tiles ∧ t.issue = s.issue

/-- LOCK_LOST (R437, R97): a running, waiting or halted stream fault-halts with CLOCK_CHANGE. -/
def lockLostHaltsStream : Prop :=
  ∀ (s : State),
    s.canonical = true →
    s.get Reg.CLOCK.CLK_STAT.LOCK = 1 →
    s.streamActive = true →
    ∃ t, Sys2Proof.Machine.exec (.lockLost) s = .next t ∧
      t.stream = State.stFaulted ∧ t.get Reg.ISSUE.HALT_CAUSE.CAUSE = 0xC ∧ t.get Reg.ISSUE.HALT_CAUSE.TILE_VALID = 0 ∧ t.power.stopped = true

/-- PLL_RELOCK (R437): the PLL has relocked; each half restarts at its programmed setting. -/
def pllRestarts : Prop :=
  ∀ (s : State),
    s.canonical = true →
    s.power.stopped = true →
    s.domOn 320 = true →
    s.domOn 321 = true →
    ∃ t, Sys2Proof.Machine.exec (.pllRelock) s = .next t ∧
      t.power.stopped = false ∧ t.effective 0 = s.get Reg.CLOCK.HALF_CFG.WEST ∧ t.effective 1 = s.get Reg.CLOCK.HALF_CFG.EAST
      ∧ t.get Reg.CLOCK.CLK_STAT.LOCK = 1 ∧ t.get Reg.CLOCK.CLK_STAT.BYPASS = 0 ∧ t.get Reg.CLOCK.CLK_STAT.RELOCK = 0

/-- ROOT_PLL_LOCK (R459): after a cold reset the PLL locks by itself. -/
def rootPllLocks : Prop :=
  ∀ (s : State),
    s.canonical = true →
    s.get Reg.CLOCK.CLK_STAT.LOCK = 0 →
    s.get Reg.CLOCK.CLK_STAT.RELOCK = 0 →
    ∃ t, Sys2Proof.Machine.exec (.rootPllLock) s = .next t ∧
      t.get Reg.CLOCK.CLK_STAT.LOCK = 1 ∧ t.get Reg.CLOCK.CLK_STAT.BYPASS = 0
      ∧ s.OnlyFields [Reg.CLOCK.CLK_STAT.LOCK, Reg.CLOCK.CLK_STAT.BYPASS, Reg.CLOCK.CLK_STAT.WEST_EFF, Reg.CLOCK.CLK_STAT.EAST_EFF] t

/-- HALF_CFG (R438): an authorised write sets both halves' clock settings. -/
def halfCfgTakesEffect : Prop :=
  ∀ (s : State) (src : Source) (west east : Fin 4),
    s.canonical = true →
    (src == .host && s.hostWaits) = false →
    s.answers src (pgCLOCK + 0x44) = true →
    s.authorised src = true →
    (s.get Reg.SECURITY.LOCK.BITS).testBit 0 = false →
    west.val ≠ 3 →
    east.val ≠ 3 →
    s.streamActive = false →
    ∃ t, Sys2Proof.Machine.exec (.halfCfg src west east) s = .next t ∧
      t.get Reg.CLOCK.HALF_CFG.WEST = west.val ∧ t.get Reg.CLOCK.HALF_CFG.EAST = east.val
      ∧ (s.slowed src (pgCLOCK + 0x44)).OnlyNotices ([Reg.CLOCK.HALF_CFG.WEST, Reg.CLOCK.HALF_CFG.EAST, Reg.CLOCK.HALF_CHG_CNT.CNT, Reg.CLOCK.CLK_STAT.WEST_EFF, Reg.CLOCK.CLK_STAT.EAST_EFF]
          ++ reasonFields pgCLOCK ++ irqFields pgCLOCK) t

/-- THROTTLE_WINDOW (R441, R442): the window takes the greatest of the requests as its level, and its held periods are counted. -/
def throttleWindowHolds : Prop :=
  ∀ (s : State),
    s.canonical = true →
    s.windows = true →
    ∃ t, Sys2Proof.Machine.exec (.throttleWindow) s = .next t ∧
      t.get Reg.POWER.CAP_STAT.LEVEL = low 4 s.throttleLevel
      ∧ t.get Reg.POWER.THROT_PER.CNT = s.counted Reg.POWER.THROT_PER.CNT ((List.range 16).filter (periodHeld s.throttleLevel)).length
      ∧ s.OnlyNotices ([Reg.POWER.CAP_STAT.LEVEL, Reg.POWER.THROT_PER.CNT] ++ irqFields pgPOWER) t

/-- CAP_TRIP (R442, R443, R458): the level becomes 12 at once; the trip is counted and is an error. -/
def capTripAsserts : Prop :=
  ∀ (s : State),
    s.canonical = true →
    s.power.capTrip = false →
    ∃ t, Sys2Proof.Machine.exec (.capTrip) s = .next t ∧
      t.power.capTrip = true ∧ t.power.loopLevel = 12 ∧ t.throttleLevel = max 12 (max s.loopInForce 0) ∧ t.get Reg.POWER.CAP_STAT.TRIP = 1 ∧ t.get Reg.POWER.CAP_STAT.LEVEL = 12
      ∧ t.get Reg.POWER.CAP_TRIP_CNT.CNT = s.counted Reg.POWER.CAP_TRIP_CNT.CNT 1 ∧ t.get (Reg.HDR.BLK_STAT.ERR pgPOWER) = 1

/-- CAP_TRIP_RELEASE (R442): the trip goes away; the level in force stays until the next window. -/
def capTripReleases : Prop :=
  ∀ (s : State),
    s.canonical = true →
    ∃ t, Sys2Proof.Machine.exec (.capTripRelease) s = .next t ∧
      t.power.capTrip = false ∧ t.get Reg.POWER.CAP_STAT.TRIP = 0 ∧ t.get Reg.POWER.CAP_STAT.LEVEL = s.get Reg.POWER.CAP_STAT.LEVEL

end Sys2Proof.Machine.Claims

/-- The root PLL, the halves' clock settings and the throttle inputs -/
def Obligations.ClocksAndThrottling : Prop :=
  Sys2Proof.Machine.Claims.multRelocks ∧ Sys2Proof.Machine.Claims.relockEnds ∧ Sys2Proof.Machine.Claims.lockLostStops ∧
    Sys2Proof.Machine.Claims.lockLostHaltsStream ∧ Sys2Proof.Machine.Claims.pllRestarts ∧ Sys2Proof.Machine.Claims.rootPllLocks ∧
    Sys2Proof.Machine.Claims.halfCfgTakesEffect ∧ Sys2Proof.Machine.Claims.throttleWindowHolds ∧ Sys2Proof.Machine.Claims.capTripAsserts ∧
    Sys2Proof.Machine.Claims.capTripReleases

/-! Power domains: a domain reaches ON or its low state, enables, and the watch state's sample -/

namespace Sys2Proof.Machine.Claims

/-- Nothing watches and nothing has tripped; both fabrics are ON and held (R446 to R449, R454). -/
def quietPower (s : State) : Bool := s.fabricsHeld && s.domOn 320 && s.domOn 321 && s.get Reg.POWER.WATCH_CFG.EN == 0 && s.get Reg.POWER.WATCH_STAT.IN_WATCH == 0

/-- Every domain of a word of DOM_EN below the fabrics is OFF without votes. -/
def wordQuiet (s : State) (w : Nat) : Bool := (List.range 32).all fun b => s.domState (32 * w + b) == .off && s.votes (32 * w + b) == 0

/-- The fields that show the halves' effective settings (R439). -/
def viewFields : List Field := [Reg.CLOCK.CLK_STAT.WEST_EFF, Reg.CLOCK.CLK_STAT.EAST_EFF]

/-- The samples of the watch state's inputs (R455). -/
def watchSample (panel cables : List Bool) : List Nat := [panel, cables].map fun l => l.foldl (fun n b => 2 * n + (if b then 1 else 0)) l.length

/-- DOMAIN_ON of a tile that holds votes (R449, R117, R123): its pages are READY but for those that wait for firmware, its banks start from OFF, its counter starts. -/
def tileComesOn : Prop :=
  ∀ (s : State) (n : TileId),
    s.canonical = true →
    s.domState n.val = .waking →
    s.domOn (320 + n.val / 128) = true →
    s.ownEnable n.val = true →
    s.votes n.val ≠ 0 →
    quietPower s = true →
    s.bistReserved 0 n.val = false →
    ∃ t, Sys2Proof.Machine.exec (.domainOn (Fin.ofNat 325 n.val)) s = .next t ∧
      t.domOn n.val = true ∧ (∀ i ∈ List.range 7, t.get (Reg.HDR.BLK_STAT.READY (tilePg n.val i)) = 1) ∧ t.get (Reg.HDR.BLK_STAT.READY (tilePg n.val 14)) = 1 ∧ t.get (fld (bankPg n.val + 0x44) 0 32 0) = 0xFFFFFFFF ∧ (t.tile n.val).cclk0 = (if n.val < 128 then s.cclkW else s.cclkE)
      ∧ s.SameTiles n.val t ∧ t.mem.length ≤ s.mem.length ∧ (∀ d ∈ List.range 325, d ≠ n.val → t.domState d = s.domState d)

/-- DOMAIN_ON of a tile whose votes are gone (R449): it drops at once. -/
def wakingTileDropsAgain : Prop :=
  ∀ (s : State) (n : TileId),
    s.canonical = true →
    s.domState n.val = .waking →
    s.domOn (320 + n.val / 128) = true →
    s.votes n.val = 0 →
    quietPower s = true →
    s.streamActive = false →
    s.stepActive = false →
    s.isEnabled pgSTEP = false →
    ∃ t, Sys2Proof.Machine.exec (.domainOn (Fin.ofNat 325 n.val)) s = .next t ∧
      t.domState n.val = .dropping ∧ (∀ i ∈ List.range 15, t.get (Reg.HDR.BLK_STAT.READY (tilePg n.val i)) = 0) ∧ s.SameTiles n.val t

/-- DOMAIN_LOW of a tile (R445, R449): OFF where its enable is cleared or LOW says so, else RETENTION; OFF loses its state. -/
def tileReachesLow : Prop :=
  ∀ (s : State) (n : TileId),
    s.canonical = true →
    s.domState n.val = .dropping →
    s.votes n.val = 0 →
    quietPower s = true →
    ∃ t, Sys2Proof.Machine.exec (.domainLow (Fin.ofNat 325 n.val)) s = .next t ∧
      t.domState n.val = (if s.ownEnable n.val = true ∧ s.lowOff n.val = false then .retention else .off) ∧ (t.domState n.val = .off → t.tile n.val = Tile.reset) ∧ (t.domState n.val = .retention → t.tile n.val = s.tile n.val) ∧ s.SameTiles n.val t ∧ (∀ d ∈ List.range 325, d ≠ n.val → t.domState d = s.domState d)

/-- DOM_EN of a word whose domains are OFF (R446): the enables take the value. -/
def enablesWritten : Prop :=
  ∀ (s : State) (src : Source) (w : Fin 11) (v : Word32),
    s.canonical = true →
    (src == .host && s.hostWaits) = false →
    s.answers src (pgPOWER + 0x40 + 4 * w.val) = true →
    s.authorised src = true →
    (s.get Reg.SECURITY.LOCK.BITS).testBit 1 = false →
    w.val < 10 →
    wordQuiet s w.val = true →
    quietPower s = true →
    s.power.held = [] →
    ∃ t, Sys2Proof.Machine.exec (.domEn src w v) s = .next t ∧
      t.get (Reg.POWER.DOM_EN.EN w.val) = v.toNat ∧ t.get (Reg.HDR.BLK_REASON.CODE pgPOWER) = 0 ∧ t.power = s.power ∧ (s.slowed src (pgPOWER + 0x40 + 4 * w.val)).OnlyFields ([Reg.POWER.DOM_EN.EN w.val] ++ reasonFields pgPOWER ++ viewFields) { t with power := s.power }

/-- DOM_EN that clears the enable of a tile that is ON with votes (R446, R450): DOM_FORCED is set and the tile begins to drop. -/
def enableClearedDrops : Prop :=
  ∀ (s : State) (src : Source) (v : Word32),
    s.canonical = true →
    (src == .host && s.hostWaits) = false →
    s.answers src (pgPOWER + 0x40 + 4 * 0) = true →
    s.authorised src = true →
    (s.get Reg.SECURITY.LOCK.BITS).testBit 1 = false →
    s.power.dom = [(3, .on), (320, .on), (321, .on)] →
    s.ownEnable 3 = true →
    s.votes 3 ≠ 0 →
    v.toNat = s.get (Reg.POWER.DOM_EN.EN 0) - 8 →
    quietPower s = true →
    s.streamActive = false →
    s.stepActive = false →
    s.isEnabled pgSTEP = false →
    (List.range 32).all (fun b => b == 3 || s.votes b == 0) = true →
    ∃ t, Sys2Proof.Machine.exec (.domEn src 0 v) s = .next t ∧
      t.domState 3 = .dropping ∧ (t.get (Reg.HDR.BLK_IRQ_STAT.BLK_SPEC pgPOWER)).testBit 3 = true ∧ t.get (Reg.POWER.DOM_EN.EN 0) = v.toNat ∧ (∀ i ∈ List.range 15, t.get (Reg.HDR.BLK_STAT.READY (tilePg 3 i)) = 0) ∧ t.mem = s.mem

/-- DOM_EN under another source (R62): refused with NOT_HOLDER; the enables stay. -/
def enablesNotHolder : Prop :=
  ∀ (s : State) (src : Source) (w : Fin 11) (v : Word32),
    s.canonical = true →
    (src == .host && s.hostWaits) = false →
    s.answers src (pgPOWER + 0x40 + 4 * w.val) = true →
    s.authorised src = false →
    ∃ t, Sys2Proof.Machine.exec (.domEn src w v) s = .next t ∧
      t.get (Reg.HDR.BLK_REASON.CODE pgPOWER) = rcNotHolder ∧ t.get (Reg.HDR.BLK_REASON.OFFSET pgPOWER) = 0x40 + 4 * w.val ∧ t.get (Reg.HDR.BLK_STAT.REFUSED pgPOWER) = 1 ∧ (s.slowed src (pgPOWER + 0x40 + 4 * w.val)).OnlyNotices (reasonFields pgPOWER ++ [Reg.HDR.BLK_STAT.REFUSED pgPOWER] ++ irqFields pgPOWER) t

/-- DOM_EN under lock PWR (R430): refused with LOCKED; the enables stay. -/
def enablesLocked : Prop :=
  ∀ (s : State) (src : Source) (w : Fin 11) (v : Word32),
    s.canonical = true →
    (src == .host && s.hostWaits) = false →
    s.answers src (pgPOWER + 0x40 + 4 * w.val) = true →
    s.authorised src = true →
    (s.get Reg.SECURITY.LOCK.BITS).testBit 1 = true →
    ∃ t, Sys2Proof.Machine.exec (.domEn src w v) s = .next t ∧
      t.get (Reg.HDR.BLK_REASON.CODE pgPOWER) = rcLocked ∧ t.get (Reg.HDR.BLK_REASON.OFFSET pgPOWER) = 0x40 + 4 * w.val ∧ t.get (Reg.HDR.BLK_STAT.REFUSED pgPOWER) = 1 ∧ (s.slowed src (pgPOWER + 0x40 + 4 * w.val)).OnlyNotices (reasonFields pgPOWER ++ [Reg.HDR.BLK_STAT.REFUSED pgPOWER] ++ irqFields pgPOWER) t

/-- WATCH_WAKE, the first sample in the watch state (R455): the reference. -/
def watchReferenceTaken : Prop :=
  ∀ (s : State) (temps : List (BitVec 16)) (panel cables : List Bool),
    s.get Reg.POWER.WATCH_STAT.IN_WATCH = 1 →
    s.power.watchRef = none →
    temps.all (fun x => decide (x.toInt < 0x0730)) = true →
    ∃ t, Sys2Proof.Machine.exec (.watchWake temps panel cables) s = .next t ∧
      t = { s with power := { s.power with watchRef := some (watchSample panel cables) } }

/-- WATCH_WAKE with a changed panel input (R455, R456): the cause, the record, and the crown wakes. -/
def watchCrossing : Prop :=
  ∀ (s : State) (temps : List (BitVec 16)) (panel cables : List Bool) (r : List Nat),
    s.canonical = true →
    s.get Reg.POWER.WATCH_STAT.IN_WATCH = 1 →
    s.power.watchRef = some r →
    temps.all (fun x => decide (x.toInt < 0x0730)) = true →
    r.length = 2 →
    r.getD 0 0 ≠ (watchSample panel cables).getD 0 0 →
    temps.all (fun x => decide (x.toInt < (BitVec.ofNat 16 (s.get Reg.POWER.WATCH_THR.TEMP_HI)).toInt)) = true →
    s.domOn 323 = false →
    s.power.dom = [] →
    s.power.tripped = false →
    s.get Reg.POWER.WATCH_CFG.EN = 1 →
    s.crown.aonQueue = [] →
    s.get Reg.POWER.VOTE_FAB_W.VOTE = 0 →
    s.get Reg.POWER.VOTE_FAB_E.VOTE = 0 →
    s.power.held = [] →
    ∃ t, Sys2Proof.Machine.exec (.watchWake temps panel cables) s = .next t ∧
      t.get Reg.POWER.WATCH_STAT.CAUSE = 2 ∧ t.get Reg.POWER.WATCH_WAKES.CNT = s.counted Reg.POWER.WATCH_WAKES.CNT 1 ∧ (t.get Reg.POWER.VOTE_CROWN.VOTE).testBit 4 = true ∧ t.domState 323 = .waking ∧ t.get Reg.POWER.WATCH_STAT.IN_WATCH = 0 ∧ t.crown.aonQueue.map (·.code) = [0x0404] ∧ t.mem = s.mem ∧ t.tiles = s.tiles

end Sys2Proof.Machine.Claims

/-- Power domains: a domain reaches ON or its low state, enables, and the watch state's sample -/
def Obligations.PowerDomainsComplete : Prop :=
  Sys2Proof.Machine.Claims.tileComesOn ∧ Sys2Proof.Machine.Claims.wakingTileDropsAgain ∧ Sys2Proof.Machine.Claims.tileReachesLow ∧
    Sys2Proof.Machine.Claims.enablesWritten ∧ Sys2Proof.Machine.Claims.enableClearedDrops ∧ Sys2Proof.Machine.Claims.enablesNotHolder ∧
    Sys2Proof.Machine.Claims.enablesLocked ∧ Sys2Proof.Machine.Claims.watchReferenceTaken ∧ Sys2Proof.Machine.Claims.watchCrossing

/-! Cold and compute resets, row repairs and tile firmware -/

namespace Sys2Proof.Machine.Claims

/-- The pages that a cold reset leaves READY: the always-on domain's and the brim's (R459, R467). -/
def coldReady : List Nat :=
  [pgGLOBAL, pgCLOCK, pgPOWER, pgRESET, pgTWIN, pgSECURITY] ++ (List.range 2).map spPg ++ (List.range 4).map sctxPg ++ (List.range 8).flatMap fun p => [routePg p 0, routePg p 1, flcPg p]

/-- The module after a cold reset with a cause (R461, R3): every register at its reset value but for the cause, the fuse-loaded fields, which take the fuses' values (R23), and READY of the always-on pages; the fuse map's rows are repaired (R469); memory lists nothing; only the boot flash and the fuses are kept. -/
def ColdFrom (s : State) (cause : Nat) (t : State) : Prop :=
  t.get Reg.RESET.RST_STAT.COLD_CAUSE = cause ∧ t.mem = [] ∧ t.tiles = [] ∧ t.fuses = s.fuses ∧ t.pending = s.pending ∧ t.net = NetS.reset ∧ t.links = [] ∧ t.movers = []
    ∧ t.rowfix = s.fuses.rows ∧ (∀ f ∈ State.fuseFields s.fuses, t.get f.1 = low f.1.width f.2) ∧ (∀ pg ∈ coldReady, t.get (Reg.HDR.BLK_STAT.READY pg) = 1)
    ∧ State.reset.SameFields ([Reg.RESET.RST_STAT.COLD_CAUSE] ++ (State.fuseFields s.fuses).map (·.1) ++ coldReady.map fun pg => Reg.HDR.BLK_STAT.READY pg) t

/-- Every byte at or above an address reads as before. -/
def KeepsFrom (s : State) (a : Nat) (t : State) : Prop := ∀ x, a ≤ x → t.byte x = s.byte x

/-- A refusal of a RESET page register. -/
def ResetRefusal (s : State) (code ofs : Nat) (t : State) : Prop :=
  t.get (Reg.HDR.BLK_REASON.CODE pgRESET) = code ∧ t.get (Reg.HDR.BLK_REASON.OFFSET pgRESET) = ofs ∧ t.get (Reg.HDR.BLK_STAT.REFUSED pgRESET) = 1
    ∧ s.OnlyNotices (reasonFields pgRESET ++ [Reg.HDR.BLK_STAT.REFUSED pgRESET] ++ irqFields pgRESET) t

/-- POWER_ON (R459, R467): the module comes up from cold reset. -/
def powerComesOn : Prop :=
  ∀ (s : State),
    s.canonical = true →
    ∃ t, Sys2Proof.Machine.exec (.powerOn) s = .next t ∧
      ColdFrom s 0 t ∧ t.flash = s.flash ∧ t.power = State.reset.power

/-- INPUT_POWER_LOSS (R3): all volatile state is lost. -/
def powerIsLost : Prop :=
  ∀ (s : State) (torn : Bool),
    s.canonical = true →
    ∃ t, Sys2Proof.Machine.exec (.inputPowerLoss torn) s = .next t ∧
      ColdFrom s 0 t ∧ t.power.input = false ∧ t.power.dom = [] ∧ t.flash.dir = s.flash.dir ∧ t.flash.slotA = s.flash.slotA ∧ t.flash.slotB = s.flash.slotB ∧ (torn = false → t.flash = s.flash)

/-- SUPPLY_FAULT (R461): a cold reset with its cause. -/
def supplyResets : Prop :=
  ∀ (s : State) (vm : Fin 16),
    s.canonical = true →
    s.power.input = true →
    ∃ t, Sys2Proof.Machine.exec (.supplyFault vm) s = .next t ∧
      ColdFrom s 2 t ∧ t.flash = s.flash

/-- COLD with the key (R462). -/
def coldResets : Prop :=
  ∀ (s : State) (src : Source),
    s.canonical = true →
    (src == .host && s.hostWaits) = false →
    s.answers src (pgRESET + 0x40) = true →
    resetWriter s src = true →
    ∃ t, Sys2Proof.Machine.exec (.cold src 0x5A5A) s = .next t ∧
      ColdFrom s 1 t ∧ t.flash = s.flash

/-- COLD by another source (R462): refused. -/
def coldNotHolder : Prop :=
  ∀ (s : State) (src : Source) (key : BitVec 16),
    s.canonical = true →
    (src == .host && s.hostWaits) = false →
    s.answers src (pgRESET + 0x40) = true →
    resetWriter s src = false →
    ∃ t, Sys2Proof.Machine.exec (.cold src key) s = .next t ∧
      ResetRefusal (s.slowed src (pgRESET + 0x40)) rcNotHolder 0x40 t

/-- COLD with another key (R462): refused. -/
def coldWrongKey : Prop :=
  ∀ (s : State) (src : Source) (key : BitVec 16),
    s.canonical = true →
    (src == .host && s.hostWaits) = false →
    s.answers src (pgRESET + 0x40) = true →
    resetWriter s src = true ∧ key ≠ 0x5A5A →
    ∃ t, Sys2Proof.Machine.exec (.cold src key) s = .next t ∧
      ResetRefusal (s.slowed src (pgRESET + 0x40)) rcRange 0x40 t

/-- COMPUTE by another source (R462): refused. -/
def computeNotHolder : Prop :=
  ∀ (s : State) (src : Source) (key : BitVec 16),
    s.canonical = true →
    (src == .host && s.hostWaits) = false →
    s.answers src (pgRESET + 0x40) = true →
    resetWriter s src = false →
    ∃ t, Sys2Proof.Machine.exec (.compute src key) s = .next t ∧
      ResetRefusal (s.slowed src (pgRESET + 0x40)) rcNotHolder 0x40 t

/-- COMPUTE with another key (R462): refused. -/
def computeWrongKey : Prop :=
  ∀ (s : State) (src : Source) (key : BitVec 16),
    s.canonical = true →
    (src == .host && s.hostWaits) = false →
    s.answers src (pgRESET + 0x40) = true →
    resetWriter s src = true ∧ key ≠ 0x5A5A →
    ∃ t, Sys2Proof.Machine.exec (.compute src key) s = .next t ∧
      ResetRefusal (s.slowed src (pgRESET + 0x40)) rcRange 0x40 t

/-- COMPUTE with the key (R462 to R464): every compute block is reset and tile and slice domains are OFF; LPDDR6 memory, the crown, the flash, the fuses and the links stay. -/
def computeResetBegins : Prop :=
  ∀ (s : State) (src : Source),
    s.canonical = true →
    (src == .host && s.hostWaits) = false →
    s.answers src (pgRESET + 0x40) = true →
    resetWriter s src = true →
    s.get Reg.RESET.RST_STAT.COMP_ACTIVE = 0 →
    s.role ≠ 2 →
    s.pcie.tlps = [] →
    s.qnet.winTx = [] →
    ∃ t, Sys2Proof.Machine.exec (.compute src 0x5A5A) s = .next t ∧
      t.get Reg.RESET.RST_STAT.COMP_ACTIVE = 1 ∧ t.tiles = [] ∧ t.net = NetS.reset ∧ t.movers = [] ∧ t.issue = State.reset.issue ∧ t.step = StepS.reset ∧ (∀ d ∈ List.range 320, t.domState d = .off) ∧ (∀ d ∈ List.range 4, t.domState (320 + d) = s.domState (320 + d)) ∧ KeepsFrom s 0x1000000000 t
      ∧ t.flash = s.flash ∧ t.fuses = s.fuses ∧ t.crown = s.crown ∧ t.links = s.links ∧ t.get Reg.CROWN.TOKEN.HOLDER = s.get Reg.CROWN.TOKEN.HOLDER ∧ t.get Reg.SECURITY.LOCK.BITS = s.get Reg.SECURITY.LOCK.BITS

/-- COMPUTE_RESET_END (R463): counted, with its cause; the fabrics' blocks are READY again. -/
def computeResetEnds : Prop :=
  ∀ (s : State),
    s.canonical = true →
    s.get Reg.RESET.RST_STAT.COMP_ACTIVE = 1 →
    s.power.dom = [(320, .on), (321, .on), (323, .on)] →
    s.votes 322 = 0 →
    s.votes 323 ≠ 0 →
    s.fabricsHeld = true →
    s.get Reg.POWER.WATCH_CFG.EN = 0 →
    s.get Reg.POWER.WATCH_STAT.IN_WATCH = 0 →
    s.get (Reg.HDR.BLK_CTRL.SRST (moverPg 5)) = 0 →
    s.bistReserved 2 5 = false →
    ∃ t, Sys2Proof.Machine.exec (.computeResetEnd) s = .next t ∧
      t.get Reg.RESET.RST_STAT.COMP_ACTIVE = 0 ∧ t.get Reg.RESET.COMP_CNT.CNT = s.counted Reg.RESET.COMP_CNT.CNT 1 ∧ (t.get (Reg.HDR.BLK_IRQ_STAT.BLK_SPEC pgRESET)).testBit 0 = true ∧ t.get (Reg.HDR.BLK_STAT.READY (moverPg 5)) = 1 ∧ t.power = s.power ∧ t.mem = s.mem ∧ t.tiles = s.tiles

/-- ROWFIX_SOFT while the slice is OFF and a spare row is left (R469). -/
def rowRepaired : Prop :=
  ∀ (s : State) (src : Source) (slice : Fin 64) (bank : Fin 16) (row : BitVec 8),
    s.canonical = true →
    (src == .host && s.hostWaits) = false →
    s.answers src (pgRESET + 0x800) = true →
    (s.get Reg.SECURITY.LOCK.BITS).testBit 2 = false →
    s.domState (256 + slice.val) = .off →
    (s.rowfix.filter (fun r => r.1 = slice.val ∧ r.2.1 = bank.val)).length < 4 →
    ∃ t, Sys2Proof.Machine.exec (.rowfixSoft src slice bank row) s = .next t ∧
      t.rowfix = (slice.val, bank.val, row.toNat) :: s.rowfix ∧ t.get (Reg.RESET.ROWFIX_CNT.ROWS slice.val) = s.counted (Reg.RESET.ROWFIX_CNT.ROWS slice.val) 1 ∧ s.SameFields [Reg.RESET.ROWFIX_CNT.ROWS slice.val, Reg.RESET.ROWFIX_SOFT.SLICE, Reg.RESET.ROWFIX_SOFT.BANK, Reg.RESET.ROWFIX_SOFT.ROW] t ∧ t.mem = s.mem

/-- ROWFIX_SOFT with the bank's spare rows used (R469): CAPACITY. -/
def rowsUsedUp : Prop :=
  ∀ (s : State) (src : Source) (slice : Fin 64) (bank : Fin 16) (row : BitVec 8),
    s.canonical = true →
    (src == .host && s.hostWaits) = false →
    s.answers src (pgRESET + 0x800) = true →
    (s.get Reg.SECURITY.LOCK.BITS).testBit 2 = false →
    s.domState (256 + slice.val) = .off →
    4 ≤ (s.rowfix.filter (fun r => r.1 = slice.val ∧ r.2.1 = bank.val)).length →
    ∃ t, Sys2Proof.Machine.exec (.rowfixSoft src slice bank row) s = .next t ∧
      ResetRefusal (s.slowed src (pgRESET + 0x800)) rcCapacity 0x800 t

/-- TFW_GO that passes its checks (R472): the load is latched and runs. -/
def firmwareLoadBegins : Prop :=
  ∀ (s : State) (src : Source) (n : Nat),
    s.canonical = true →
    (src == .host && s.hostWaits) = false →
    s.answers src (pgRESET + 0xD0) = true →
    s.bistReserved 4 0 = false →
    s.isReady pgISSUE = true →
    tfwTiles s = [n] →
    s.domOn n = true →
    s.inRun n = false →
    s.isEnabled pgSTEP = false ∨ s.inStep n = false →
    s.tfw = none →
    s.get Reg.ISSUE.LOAD_CTRL.LOAD = 0 →
    s.get Reg.RESET.TFW_ADDR.ADDR % 64 = 0 →
    s.get Reg.RESET.TFW_LEN.VALUE % 64 = 0 →
    64 ≤ s.get Reg.RESET.TFW_LEN.VALUE ∧ s.get Reg.RESET.TFW_LEN.VALUE ≤ 65536 →
    populated (s.get Reg.RESET.TFW_ADDR.ADDR) (s.get Reg.RESET.TFW_LEN.VALUE) = true →
    ∃ t, Sys2Proof.Machine.exec (.tfwGo src) s = .next t ∧
      t.tfw.map (fun j => (j.addr, j.len, j.crc, j.mask)) = some (s.get Reg.RESET.TFW_ADDR.ADDR, s.get Reg.RESET.TFW_LEN.VALUE, s.get Reg.RESET.TFW_CRC.VALUE, [n]) ∧ t.get Reg.RESET.TFW_CTRL.GO = 1 ∧ (s.slowed src (pgRESET + 0xD0)).OnlyFields [Reg.RESET.TFW_CTRL.GO] { t with tfw := s.tfw }

/-- TFW_GO naming a tile that is not ON (R472): refused. -/
def firmwareTileOff : Prop :=
  ∀ (s : State) (src : Source) (n : Nat),
    s.canonical = true →
    (src == .host && s.hostWaits) = false →
    s.answers src (pgRESET + 0xD0) = true →
    s.bistReserved 4 0 = false →
    s.isReady pgISSUE = true →
    tfwTiles s = [n] →
    s.domOn n = false →
    ∃ t, Sys2Proof.Machine.exec (.tfwGo src) s = .next t ∧
      ResetRefusal (s.slowed src (pgRESET + 0xD0)) rcDomOff 0xD0 t

/-- TFW_LOAD_END with the image's CRC (R470, R471): the tile's firmware pages are READY. -/
def firmwareAccepted : Prop :=
  ∀ (s : State) (j : TfwJob) (n : TileId),
    s.canonical = true →
    s.tfw = some j →
    j.mask = [n.val] →
    s.domOn n.val = true →
    s.reaches j.addr j.len = true →
    crc32c (s.bytes j.addr j.len) = j.crc →
    s.bistReserved 0 n.val = false →
    s.get (Reg.HDR.BLK_CTRL.SRST (tilePg n.val 0)) = 0 →
    ∀ i ∈ List.range 7, s.get (Reg.HDR.BLK_CTRL.SRST (tilePg n.val (7 + i))) = 0 →
    ∃ t, Sys2Proof.Machine.exec (.tfwLoadEnd []) s = .next t ∧
      t.tfw = none ∧ t.get Reg.RESET.TFW_CTRL.GO = 0 ∧ t.get Reg.RESET.TFW_STAT.DONE = 1 ∧ t.mem = s.mem ∧ (t.tile n.val).fwOk = true ∧ (t.get (Reg.RESET.TFW_OK.TILES (n.val / 32))).testBit (n.val % 32) = true ∧ (∀ i ∈ List.range 7, t.get (Reg.HDR.BLK_STAT.READY (tilePg n.val (7 + i))) = 1)

/-- TFW_LOAD_END with another CRC (R471): the tile stays not ready, with the failure. -/
def firmwareRefused : Prop :=
  ∀ (s : State) (j : TfwJob) (n : TileId),
    s.canonical = true →
    s.tfw = some j →
    j.mask = [n.val] →
    s.domOn n.val = true →
    s.reaches j.addr j.len = true →
    crc32c (s.bytes j.addr j.len) ≠ j.crc →
    ∃ t, Sys2Proof.Machine.exec (.tfwLoadEnd []) s = .next t ∧
      t.tfw = none ∧ t.get Reg.RESET.TFW_CTRL.GO = 0 ∧ t.get Reg.RESET.TFW_STAT.DONE = 1 ∧ t.mem = s.mem ∧ (t.tile n.val).fwOk = false ∧ (t.get (Reg.RESET.TFW_OK.TILES (n.val / 32))).testBit (n.val % 32) = false ∧ t.get Reg.RESET.TFW_STAT.FAIL = 1 ∧ t.get (Reg.HDR.BLK_STAT.ERR pgRESET) = 1 ∧ (∀ i ∈ List.range 7, t.get (Reg.HDR.BLK_STAT.READY (tilePg n.val (7 + i))) = 0)

end Sys2Proof.Machine.Claims

/-- Cold and compute resets, row repairs and tile firmware -/
def Obligations.ResetsAndFirmwareComplete : Prop :=
  Sys2Proof.Machine.Claims.powerComesOn ∧ Sys2Proof.Machine.Claims.powerIsLost ∧ Sys2Proof.Machine.Claims.supplyResets ∧
    Sys2Proof.Machine.Claims.coldResets ∧ Sys2Proof.Machine.Claims.coldNotHolder ∧ Sys2Proof.Machine.Claims.coldWrongKey ∧
    Sys2Proof.Machine.Claims.computeNotHolder ∧ Sys2Proof.Machine.Claims.computeWrongKey ∧ Sys2Proof.Machine.Claims.computeResetBegins ∧
    Sys2Proof.Machine.Claims.computeResetEnds ∧ Sys2Proof.Machine.Claims.rowRepaired ∧ Sys2Proof.Machine.Claims.rowsUsedUp ∧
    Sys2Proof.Machine.Claims.firmwareLoadBegins ∧ Sys2Proof.Machine.Claims.firmwareTileOff ∧ Sys2Proof.Machine.Claims.firmwareAccepted ∧
    Sys2Proof.Machine.Claims.firmwareRefused

/-! Logic self-test: the pass, its targets, verdicts, abort and record -/

namespace Sys2Proof.Machine.Claims

/-- From s to t every register field outside the pages pgs keeps its value, but those in fs. -/
def OtherPages (s : State) (pgs : List Nat) (fs : List Field) (t : State) : Prop :=
  ∀ f : Field, f.key ∉ fs.map (·.key) → pgs.all (fun pg => decide (f.key / 64 < pg) || decide (pg + 0x1000 ≤ f.key / 64)) = true → t.get f = s.get f

/-- A refusal of a BIST page register. -/
def BistRefusal (s : State) (code ofs : Nat) (t : State) : Prop :=
  t.get (Reg.HDR.BLK_REASON.CODE pgBIST) = code ∧ t.get (Reg.HDR.BLK_REASON.OFFSET pgBIST) = ofs ∧ t.get (Reg.HDR.BLK_STAT.REFUSED pgBIST) = 1
    ∧ s.OnlyNotices (reasonFields pgBIST ++ [Reg.HDR.BLK_STAT.REFUSED pgBIST] ++ irqFields pgBIST) t

/-- Every domain that a target needs is ON and no half is in the watch setting (R474). -/
def targetsOn (s : State) : Bool :=
  (bistTargets s).all fun x => (bistDomains x).all fun d => s.domOn d && !(decide (320 ≤ d) && s.effective (d - 320) == 2)

/-- In hardware mode every target's kind has a golden signature (R474). -/
def targetsGolden (s : State) : Bool := (bistTargets s).all fun x => s.hostMode pgBIST || s.get (Reg.BIST.GOLD.SIG x.1) != 0

/-- The fields that the end of a pass writes (R481). -/
def passFields : List Field :=
  [Reg.BIST.BIST_STAT.ACTIVE, Reg.BIST.BIST_STAT.DONE, Reg.BIST.BIST_STAT.RUNNING, Reg.BIST.BIST_STAT.HOLD, Reg.BIST.HOLD_ID.TARGET, Reg.BIST.HOLD_ID.INST, Reg.BIST.FAIL_CNT.CNT, Reg.HDR.BLK_STAT.ERR pgBIST] ++ irqFields pgBIST

/-- Tile n has been judged: its state is re-initialised (R478), its result recorded, and what is neither its own nor the pass's stays. -/
def TileJudged (s : State) (n verdict : Nat) (sig : Word64) (t : State) : Prop :=
  t.tile n = { Tile.reset with fwOk := (s.tile n).fwOk, lanesZero := true } ∧ (∀ a, bankBase n 0 ≤ a → a < bankBase n 16 → t.byte a = some (0 : BitVec 8)) ∧ (0, n, verdict, sig) ∈ t.bist.results
    ∧ (0, n) ∉ t.bist.running ∧ s.SameTiles n t ∧ s.OnlyBytes (bankBase n 0) (bankBase n 16 - bankBase n 0) t ∧ OtherPages s ((List.range 15).map (tilePg n)) passFields t

/-- BIST_GO that names no target: the pass ends at once (the model's reading of R474 and R483, log entry 31). -/
def emptyPassEnds : Prop :=
  ∀ (s : State) (src : Source),
    s.canonical = true →
    (src == .host && s.hostWaits) = false →
    s.answers src (pgBIST + 0x54) = true →
    s.get Reg.BIST.BIST_STAT.ACTIVE = 0 →
    bistTargets s = [] →
    s.get Reg.BIST.BIST_CTRL.KIND ≠ 1 →
    ∃ t, Sys2Proof.Machine.exec (.bistGo src) s = .next t ∧
      t.bist.targets = [] ∧ t.get Reg.BIST.BIST_STAT.ACTIVE = 0 ∧ t.get Reg.BIST.BIST_STAT.DONE = 1 ∧ t.bist.recordDue = (s.get Reg.BIST.BIST_CTRL.KIND != 0) ∧ t.tiles = s.tiles ∧ t.mem = s.mem

/-- BIST_GO of tiles, movers and check units that passes its checks (R474 to R476): every target is reserved, not READY and BUSY. -/
def passStarts : Prop :=
  ∀ (s : State) (src : Source),
    s.canonical = true →
    (src == .host && s.hostWaits) = false →
    s.answers src (pgBIST + 0x54) = true →
    s.get Reg.BIST.BIST_STAT.ACTIVE = 0 →
    targetsOn s = true →
    targetsGolden s = true →
    (bistTargets s).all (fun x => x.1 == 0 || x.1 == 2 || x.1 == 3) = true →
    s.get Reg.BIST.BIST_CTRL.KIND ≠ 1 ∨ s.bist.everReady = false →
    (bistTargets s).all (bistIdle s) = true →
    bistTargets s ≠ [] →
    ∃ t, Sys2Proof.Machine.exec (.bistGo src) s = .next t ∧
      t.bist.targets = bistTargets s ∧ t.bist.waiting = bistTargets s ∧ t.bist.running = [] ∧ t.bist.ended = [] ∧ t.bist.reserved = bistTargets s ++ s.bist.reserved ∧ t.bist.kind = s.get Reg.BIST.BIST_CTRL.KIND ∧ t.get Reg.BIST.BIST_STAT.ACTIVE = 1 ∧ t.get Reg.BIST.BIST_STAT.RECORD_OK = 0
      ∧ (bistTargets s).all (fun x => (bistPages x).all fun pg => t.get (Reg.HDR.BLK_STAT.READY pg) == 0 && t.get (Reg.HDR.BLK_STAT.BUSY pg) == 1) = true ∧ OtherPages s ((bistTargets s).flatMap bistPages) [Reg.BIST.BIST_STAT.ACTIVE, Reg.BIST.BIST_STAT.RECORD_OK] t ∧ t.tiles = s.tiles ∧ t.mem = s.mem

/-- BIST_GO while a pass is active (R474). -/
def passActive : Prop :=
  ∀ (s : State) (src : Source),
    s.canonical = true →
    (src == .host && s.hostWaits) = false →
    s.answers src (pgBIST + 0x54) = true →
    s.get Reg.BIST.BIST_STAT.ACTIVE ≠ 0 →
    ∃ t, Sys2Proof.Machine.exec (.bistGo src) s = .next t ∧
      BistRefusal s rcBusy 0x54 t

/-- BIST_GO with a target whose domain is not ON (R474). -/
def passDomainOff : Prop :=
  ∀ (s : State) (src : Source) (n : TileId),
    s.canonical = true →
    (src == .host && s.hostWaits) = false →
    s.answers src (pgBIST + 0x54) = true →
    s.get Reg.BIST.BIST_STAT.ACTIVE = 0 →
    s.get Reg.BIST.XMASK.SWITCHES = 0 →
    bistTargets s = [(0, n.val)] →
    s.domOn n.val = false →
    ∃ t, Sys2Proof.Machine.exec (.bistGo src) s = .next t ∧
      BistRefusal s rcDomOff (0x60 + 4 * (n.val / 32)) t

/-- BIST_GO in hardware mode without a golden signature (R474). -/
def passNoGolden : Prop :=
  ∀ (s : State) (src : Source) (n : TileId),
    s.canonical = true →
    (src == .host && s.hostWaits) = false →
    s.answers src (pgBIST + 0x54) = true →
    s.get Reg.BIST.BIST_STAT.ACTIVE = 0 →
    bistTargets s = [(0, n.val)] →
    targetsOn s = true →
    targetsGolden s = false →
    ∃ t, Sys2Proof.Machine.exec (.bistGo src) s = .next t ∧
      BistRefusal s 0x11 0x100 t

/-- BIST_GO of a STARTUP pass after a tile has become READY (R474). -/
def passLateStartup : Prop :=
  ∀ (s : State) (src : Source),
    s.canonical = true →
    (src == .host && s.hostWaits) = false →
    s.answers src (pgBIST + 0x54) = true →
    s.get Reg.BIST.BIST_STAT.ACTIVE = 0 →
    targetsOn s = true →
    targetsGolden s = true →
    s.get Reg.BIST.BIST_CTRL.KIND = 1 →
    s.bist.everReady = true →
    ∃ t, Sys2Proof.Machine.exec (.bistGo src) s = .next t ∧
      BistRefusal s rcMode 0x54 t

/-- BIST_GO with a target that is not idle (R474, R475). -/
def passTargetBusy : Prop :=
  ∀ (s : State) (src : Source) (n : TileId),
    s.canonical = true →
    (src == .host && s.hostWaits) = false →
    s.answers src (pgBIST + 0x54) = true →
    s.get Reg.BIST.BIST_STAT.ACTIVE = 0 →
    targetsOn s = true →
    targetsGolden s = true →
    (bistTargets s).all (fun x => x.1 == 0 || x.1 == 2 || x.1 == 3) = true →
    s.get Reg.BIST.BIST_CTRL.KIND ≠ 1 ∨ s.bist.everReady = false →
    bistTargets s = [(0, n.val)] →
    bistIdle s (0, n.val) = false →
    ∃ t, Sys2Proof.Machine.exec (.bistGo src) s = .next t ∧
      BistRefusal s rcBusy (0x60 + 4 * (n.val / 32)) t

/-- BIST_TARGET_START of a tile (R477): it runs. -/
def tileTestStarts : Prop :=
  ∀ (s : State) (n : TileId) (rest : List (Nat × Nat)),
    s.canonical = true →
    s.bist.waiting = (0, n.val) :: rest →
    rest.contains (0, n.val) = false →
    (s.bist.waiting ++ s.bist.running).any (fun x => x.1 = 5) = false →
    s.bistConc < s.get Reg.BIST.BIST_CFG.MAX_CONC →
    ∃ t, Sys2Proof.Machine.exec (.bistTargetStart 0 (Fin.ofNat 512 n.val)) s = .next t ∧
      t.bist = { s.bist with waiting := rest, running := s.bist.running ++ [(0, n.val)] } ∧ t.get Reg.BIST.BIST_STAT.RUNNING = min (s.bistConc + 1) 127 ∧ s.OnlyFields [Reg.BIST.BIST_STAT.RUNNING] { t with bist := s.bist }

/-- BIST_TARGET_START of a tile that does not wait, or with no place under MAX_CONC (R477): nothing starts. -/
def targetMustWait : Prop :=
  ∀ (s : State) (n : TileId),
    s.bist.waiting.contains (0, n.val) = false ∨ s.get Reg.BIST.BIST_CFG.MAX_CONC ≤ s.bistConc →
    ∃ t, Sys2Proof.Machine.exec (.bistTargetStart 0 (Fin.ofNat 512 n.val)) s = .next t ∧
      t = s

/-- BIST_TARGET_START of a slice (R479): its tested region is copied to its save slot. -/
def sliceTestStarts : Prop :=
  ∀ (s : State) (k : Fin 64) (rest : List (Nat × Nat)),
    s.canonical = true →
    s.bist.waiting = (1, k.val) :: rest →
    rest.contains (1, k.val) = false →
    s.bist.running = [] →
    s.bist.ended = [] →
    rest.any (fun x => x.1 = 5) = false →
    0 < s.get Reg.BIST.BIST_CFG.MAX_CONC →
    s.reaches (s.bistRegion k.val) 0x10000 = true →
    s.reaches (s.bistSlot (1, k.val)) 0x10000 = true →
    s.bistSlot (1, k.val) + 0x10000 ≤ s.bistRegion k.val ∨ s.bistRegion k.val + 0x10000 ≤ s.bistSlot (1, k.val) →
    ∃ t, Sys2Proof.Machine.exec (.bistTargetStart 1 (Fin.ofNat 512 k.val)) s = .next t ∧
      t.bist = { s.bist with waiting := rest, running := [(1, k.val)], saved := insert (512 + k.val) (s.bytes (s.bistRegion k.val) 0x10000) s.bist.saved } ∧ t.bytes (s.bistSlot (1, k.val)) 0x10000 = s.bytes (s.bistRegion k.val) 0x10000 ∧ s.OnlyBytes (s.bistSlot (1, k.val)) 0x10000 t ∧ s.SameFields [Reg.BIST.BIST_STAT.RUNNING] t ∧ t.tiles = s.tiles

/-- BIST_TARGET_END of a tile with its golden signature (R478, R480): PASS; it is re-initialised and released. -/
def tilePasses : Prop :=
  ∀ (s : State) (n : TileId) (sig : Word64),
    s.canonical = true →
    s.bist.running = [(0, n.val)] →
    s.bist.waiting ≠ [] →
    s.hostMode pgBIST = false →
    getAt 0 0 s.bist.golden = sig →
    ∃ t, Sys2Proof.Machine.exec (.bistTargetEnd 0 (Fin.ofNat 512 n.val) sig) s = .next t ∧
      TileJudged s n.val 1 sig t ∧ (0, n.val) ∉ t.bist.reserved ∧ (∀ i ∈ List.range 15, t.get (Reg.HDR.BLK_STAT.BUSY (tilePg n.val i)) = 0) ∧ t.get Reg.BIST.FAIL_CNT.CNT = s.get Reg.BIST.FAIL_CNT.CNT

/-- BIST_TARGET_END of a tile with another signature (R480): FAIL; it stays reserved. -/
def tileFails : Prop :=
  ∀ (s : State) (n : TileId) (sig : Word64),
    s.canonical = true →
    s.bist.running = [(0, n.val)] →
    s.bist.waiting ≠ [] →
    s.hostMode pgBIST = false →
    getAt 0 0 s.bist.golden ≠ sig →
    s.bist.reserved.contains (0, n.val) = true →
    ∃ t, Sys2Proof.Machine.exec (.bistTargetEnd 0 (Fin.ofNat 512 n.val) sig) s = .next t ∧
      TileJudged s n.val 2 sig t ∧ (0, n.val) ∈ t.bist.reserved ∧ t.get Reg.BIST.FAIL_CNT.CNT = s.counted Reg.BIST.FAIL_CNT.CNT 1 ∧ (t.get (Reg.HDR.BLK_IRQ_STAT.BLK_SPEC pgBIST)).testBit 2 = true ∧ t.get (Reg.HDR.BLK_STAT.ERR pgBIST) = 1 ∧ (∀ i ∈ List.range 15, t.get (Reg.HDR.BLK_STAT.READY (tilePg n.val i)) = 0)

/-- BIST_TARGET_END in host mode (R481): the target is held for a verdict. -/
def tileHeld : Prop :=
  ∀ (s : State) (n : TileId) (sig : Word64),
    s.canonical = true →
    s.bist.running = [(0, n.val)] →
    s.hostMode pgBIST = true →
    s.bist.ended = [] →
    ∃ t, Sys2Proof.Machine.exec (.bistTargetEnd 0 (Fin.ofNat 512 n.val) sig) s = .next t ∧
      t.bist.ended = [(0, n.val, sig)] ∧ t.bist.running = [] ∧ t.get Reg.BIST.BIST_STAT.HOLD = 1 ∧ t.get Reg.BIST.HOLD_ID.TARGET = 0 ∧ t.get Reg.BIST.HOLD_ID.INST = n.val ∧ (t.get (Reg.HDR.BLK_IRQ_STAT.BLK_SPEC pgBIST)).testBit 1 = true ∧ t.tiles = s.tiles ∧ t.mem = s.mem ∧ s.SameFields ([Reg.BIST.BIST_STAT.HOLD, Reg.BIST.HOLD_ID.TARGET, Reg.BIST.HOLD_ID.INST] ++ irqFields pgBIST) t

/-- VERDICT_PASS (R481): the held tile passes and is released. -/
def verdictIsPass : Prop :=
  ∀ (s : State) (n : TileId) (sig : Word64),
    s.canonical = true →
    s.answers .bridge (pgBIST + 0x54) = true →
    s.bist.ended = [(0, n.val, sig)] →
    s.flag Reg.BIST.BIST_STAT.HOLD = true →
    s.bist.waiting ≠ [] →
    s.bist.running = [] →
    ∃ t, Sys2Proof.Machine.exec (.verdictPass) s = .next t ∧
      TileJudged s n.val 1 sig t ∧ t.bist.ended = [] ∧ (0, n.val) ∉ t.bist.reserved ∧ t.get Reg.BIST.BIST_STAT.HOLD = 0

/-- VERDICT_FAIL (R481): the held tile fails and stays reserved. -/
def verdictIsFail : Prop :=
  ∀ (s : State) (n : TileId) (sig : Word64),
    s.canonical = true →
    s.answers .bridge (pgBIST + 0x54) = true →
    s.bist.ended = [(0, n.val, sig)] →
    s.flag Reg.BIST.BIST_STAT.HOLD = true →
    s.bist.waiting ≠ [] →
    s.bist.running = [] →
    s.bist.reserved.contains (0, n.val) = true →
    ∃ t, Sys2Proof.Machine.exec (.verdictFail) s = .next t ∧
      TileJudged s n.val 2 sig t ∧ t.bist.ended = [] ∧ (0, n.val) ∈ t.bist.reserved ∧ t.get Reg.BIST.BIST_STAT.HOLD = 0 ∧ t.get Reg.BIST.FAIL_CNT.CNT = s.counted Reg.BIST.FAIL_CNT.CNT 1

/-- VERDICT_PASS with nothing held (R481): nothing. -/
def noVerdictAsked : Prop :=
  ∀ (s : State),
    s.answers .bridge (pgBIST + 0x54) = true →
    s.bist.ended = [] →
    ∃ t, Sys2Proof.Machine.exec (.verdictPass) s = .next t ∧
      t = s

/-- BIST_ABORT (R482): the running tile is re-initialised and released as ABORTED, the waiting target released UNTESTED, and the pass ends. -/
def passAborted : Prop :=
  ∀ (s : State) (n : TileId) (r : Nat × Nat),
    s.canonical = true →
    s.answers .bridge (pgBIST + 0x54) = true →
    s.get Reg.BIST.BIST_STAT.ACTIVE = 1 →
    s.bist.running = [(0, n.val)] →
    s.bist.ended = [] →
    s.bist.waiting = [r] →
    r ≠ (0, n.val) →
    ∃ t, Sys2Proof.Machine.exec (.bistAbort) s = .next t ∧
      TileJudged s n.val 3 0 { t with regs := s.regs } ∧ (r.1, r.2, 4, 0) ∈ t.bist.results ∧ (0, n.val) ∉ t.bist.reserved ∧ r ∉ t.bist.reserved ∧ t.bist.waiting = [] ∧ t.get Reg.BIST.BIST_STAT.ACTIVE = 0 ∧ t.get Reg.BIST.BIST_STAT.DONE = 1 ∧ t.get Reg.BIST.BIST_STAT.HOLD = 0 ∧ (t.get (Reg.HDR.BLK_IRQ_STAT.BLK_SPEC pgBIST)).testBit 0 = true

/-- BIST_ABORT without a pass: nothing. -/
def noPassToAbort : Prop :=
  ∀ (s : State),
    s.answers .bridge (pgBIST + 0x54) = true →
    s.get Reg.BIST.BIST_STAT.ACTIVE = 0 →
    ∃ t, Sys2Proof.Machine.exec (.bistAbort) s = .next t ∧
      t = s

/-- BIST_RECORD (R483, R485): the record is programmed, after an erase when all eight slots are used, and RECORD_OK rises. -/
def recordProgrammed : Prop :=
  ∀ (s : State),
    s.canonical = true →
    s.bist.recordDue = true →
    s.domOn 323 = true →
    s.holder ≠ 2 →
    s.crown.halted.contains s.holder = false →
    s.bist.targets.map (fun x => (x.1, x.2)) = s.bist.results.map (fun r => (r.1, r.2.1)) →
    (s.bist.results.map fun r => (r.1, r.2.1)).Nodup →
    ∃ t, Sys2Proof.Machine.exec (.bistRecord) s = .next t ∧
      t.flash.bist = (if s.flash.bist.length < 8 then s.flash.bist else []) ++ [{ kind := s.bist.kind, boot := s.get Reg.CROWN.BOOT_CNT.CNT, time := Config.freeBits 64 s.fresh, tag := (Config.shake256 (Config.fuseMap s.fuses.bad s.fuses.rows)).take 8, entries := s.bist.results, good := true }] ∧ t.bist = { s.bist with recordDue := false } ∧ t.get Reg.BIST.BIST_STAT.RECORD_OK = 1 ∧ s.OnlyFields [Reg.BIST.BIST_STAT.RECORD_OK] { t with flash := s.flash, bist := s.bist, fresh := s.fresh }

/-- BIST_RECORD when no record is due: nothing. -/
def noRecordDue : Prop :=
  ∀ (s : State),
    s.bist.recordDue = false →
    ∃ t, Sys2Proof.Machine.exec (.bistRecord) s = .next t ∧
      t = s

end Sys2Proof.Machine.Claims

/-- Logic self-test: the pass, its targets, verdicts, abort and record -/
def Obligations.SelfTestCompletes : Prop :=
  Sys2Proof.Machine.Claims.emptyPassEnds ∧ Sys2Proof.Machine.Claims.passStarts ∧ Sys2Proof.Machine.Claims.passActive ∧
    Sys2Proof.Machine.Claims.passDomainOff ∧ Sys2Proof.Machine.Claims.passNoGolden ∧ Sys2Proof.Machine.Claims.passLateStartup ∧
    Sys2Proof.Machine.Claims.passTargetBusy ∧ Sys2Proof.Machine.Claims.tileTestStarts ∧ Sys2Proof.Machine.Claims.targetMustWait ∧
    Sys2Proof.Machine.Claims.sliceTestStarts ∧ Sys2Proof.Machine.Claims.tilePasses ∧ Sys2Proof.Machine.Claims.tileFails ∧
    Sys2Proof.Machine.Claims.tileHeld ∧ Sys2Proof.Machine.Claims.verdictIsPass ∧ Sys2Proof.Machine.Claims.verdictIsFail ∧
    Sys2Proof.Machine.Claims.noVerdictAsked ∧ Sys2Proof.Machine.Claims.passAborted ∧ Sys2Proof.Machine.Claims.noPassToAbort ∧
    Sys2Proof.Machine.Claims.recordProgrammed ∧ Sys2Proof.Machine.Claims.noRecordDue

/-! The twin controller: roles, heartbeats, loss, takeover and sickness -/

namespace Sys2Proof.Machine.Claims

/-- A TWIN unit as a port sends it (R492). -/
def twinUnit (s : State) (p seq sub flags h : Nat) : Out :=
  mgmtUnit p (toBytes 1 6 ++ toBytes 1 sub ++ toBytes 2 seq ++ toBytes 1 s.role ++ toBytes 1 flags ++ toBytes 2 s.modId ++ toBytes 8 s.stepCnt ++ toBytes 8 h)

/-- A unit from the twin reaches the twin controller on a port (R492). -/
def fromTwin (s : State) (p : Nat) (u : TwinUnit) : Bool := s.twinPorts.contains p && u.id.toNat == s.get (Reg.FL.PEER.ID 7)

/-- Port p can send a management unit at once: nothing is queued or waits, and VC 14 has a credit (R305, R306). -/
def linkOpen (s : State) (p : Nat) : Bool := linksIdle s p && decide (0 < getAt 0 14 (s.port p).credits)

/-- The ports after port p has sent one management unit (R306). -/
def spentOne (s : State) (p : Nat) : List (Nat × PortS) :=
  setAt PortS.reset p { s.port p with credits := setAt 0 14 (getAt 0 14 (s.port p).credits - 1) (s.port p).credits } s.links

/-- The CREDIT unit that answers a management unit (R306). -/
def unitBack (p : Nat) : Out := mgmtUnit p (mgmtCredit 14 1)

/-- The registers of FREASH that a twin unit's arrival and an answer count. -/
def unitFields (p : Nat) : List Field := [Reg.FLC.RX_UNITS.CNT p, Reg.FLC.TX_UNITS.CNT p]

/-- A cause of the TWIN page is set. -/
def TwinCause (t : State) (b : Nat) : Prop := (t.get (Reg.HDR.BLK_IRQ_STAT.BLK_SPEC pgTWIN)).testBit (b - 4) = true

/-- A refusal of a TWIN page register. -/
def TwinRefusal (s : State) (code ofs : Nat) (t : State) : Prop :=
  t.get (Reg.HDR.BLK_REASON.CODE pgTWIN) = code ∧ t.get (Reg.HDR.BLK_REASON.OFFSET pgTWIN) = ofs ∧ t.get (Reg.HDR.BLK_STAT.REFUSED pgTWIN) = 1
    ∧ s.OnlyNotices (reasonFields pgTWIN ++ [Reg.HDR.BLK_STAT.REFUSED pgTWIN] ++ irqFields pgTWIN) t

/-- From s to t the twin controller's hidden state may change, the fields of fs and the notices; nothing else. -/
def TwinOnly (s : State) (fs : List Field) (t : State) : Prop := s.OnlyNotices (fs ++ irqFields pgTWIN) { t with twin := s.twin }

/-- TWIN_ROLE (R489, R62): the role is taken. -/
def roleTaken : Prop :=
  ∀ (s : State) (src : Source) (v : Fin 8),
    s.canonical = true →
    (src == .host && s.hostWaits) = false →
    s.answers src (pgTWIN + 0x40) = true →
    s.authorised src = true →
    (s.get Reg.SECURITY.LOCK.BITS).testBit 4 = false →
    v.val < 4 →
    v.val = 0 ∨ (s.portUp 7 = true ∧ s.flag (Reg.FL.PEER.VALID 7) = true) →
    s.twin.handover = none →
    ∃ t, Sys2Proof.Machine.exec (.twinRole src v) s = .next t ∧
      t.get Reg.TWIN.TWIN_ROLE.ROLE = v.val ∧ t.get (Reg.HDR.BLK_REASON.CODE pgTWIN) = 0 ∧ t.twin = { s.twin with takeover := false, conflict := none } ∧ TwinOnly (s.slowed src (pgTWIN + 0x40)) ([Reg.TWIN.TWIN_ROLE.ROLE] ++ reasonFields pgTWIN) t

/-- TWIN_ROLE with another source (R62, R430, R511): refused. -/
def roleNotHolder : Prop :=
  ∀ (s : State) (src : Source) (v : Fin 8),
    s.canonical = true →
    (src == .host && s.hostWaits) = false →
    s.answers src (pgTWIN + 0x40) = true →
    s.authorised src = false →
    ∃ t, Sys2Proof.Machine.exec (.twinRole src v) s = .next t ∧
      TwinRefusal (s.slowed src (pgTWIN + 0x40)) rcNotHolder 0x40 t ∧ t.role = s.role

/-- TWIN_ROLE with lock TWIN (R62, R430, R511): refused. -/
def roleLocked : Prop :=
  ∀ (s : State) (src : Source) (v : Fin 8),
    s.canonical = true →
    (src == .host && s.hostWaits) = false →
    s.answers src (pgTWIN + 0x40) = true →
    s.authorised src = true →
    (s.get Reg.SECURITY.LOCK.BITS).testBit 4 = true →
    ∃ t, Sys2Proof.Machine.exec (.twinRole src v) s = .next t ∧
      TwinRefusal (s.slowed src (pgTWIN + 0x40)) rcLocked 0x40 t ∧ t.role = s.role

/-- TWIN_ROLE with a reserved value (R62, R430, R511): refused. -/
def roleReserved : Prop :=
  ∀ (s : State) (src : Source) (v : Fin 8),
    s.canonical = true →
    (src == .host && s.hostWaits) = false →
    s.answers src (pgTWIN + 0x40) = true →
    s.authorised src = true →
    (s.get Reg.SECURITY.LOCK.BITS).testBit 4 = false →
    4 ≤ v.val →
    ∃ t, Sys2Proof.Machine.exec (.twinRole src v) s = .next t ∧
      TwinRefusal (s.slowed src (pgTWIN + 0x40)) rcRange 0x40 t ∧ t.role = s.role

/-- TWIN_ROLE with FL7 not UP (R62, R430, R511): refused. -/
def roleNoPort : Prop :=
  ∀ (s : State) (src : Source) (v : Fin 8),
    s.canonical = true →
    (src == .host && s.hostWaits) = false →
    s.answers src (pgTWIN + 0x40) = true →
    s.authorised src = true →
    (s.get Reg.SECURITY.LOCK.BITS).testBit 4 = false →
    v.val < 4 →
    v.val ≠ 0 →
    s.portUp 7 = false ∨ s.flag (Reg.FL.PEER.VALID 7) = false →
    ∃ t, Sys2Proof.Machine.exec (.twinRole src v) s = .next t ∧
      TwinRefusal (s.slowed src (pgTWIN + 0x40)) rcDep 0x40 t ∧ t.role = s.role

/-- TWIN_HB_SEND (R492): a heartbeat with SEQ, the role, HEALTHY and STEP_CNT. -/
def heartbeatSent : Prop :=
  ∀ (s : State),
    s.canonical = true →
    s.role ≠ 0 →
    s.twinPorts = [7] →
    linkOpen s 7 = true →
    risingFrom 0 (s.port 7).credits = true →
    ∃ t, Sys2Proof.Machine.exec (.twinHbSend) s = .next t ∧
      t.out = s.out ++ [twinUnit s 7 s.twin.seq 1 (if s.healthy then 1 else 0) 0] ∧ t.twin = { s.twin with seq := (s.twin.seq + 1) % 65536 } ∧ t.links = spentOne s 7 ∧ s.OnlyFields [Reg.FLC.TX_UNITS.CNT 7] { t with out := s.out, twin := s.twin, links := s.links }

/-- TWIN_HB_SEND of a SOLO module (R489): nothing. -/
def soloSilent : Prop :=
  ∀ (s : State),
    s.role = 0 →
    ∃ t, Sys2Proof.Machine.exec (.twinHbSend) s = .next t ∧
      t = s

/-- TWIN_HB from the twin with HEALTHY (R493): the window is good. -/
def heartbeatCounts : Prop :=
  ∀ (s : State) (p : Fin 8) (u : TwinUnit),
    s.canonical = true →
    s.role ≠ 0 →
    fromTwin s p.val u = true →
    linksIdle s p.val = true →
    u.healthy = true →
    ∃ t, Sys2Proof.Machine.exec (.twinHb p u) s = .next t ∧
      t.twin = { s.twin with good := some (u.role.val, 1) } ∧ t.out = s.out ++ [unitBack p.val] ∧ s.OnlyFields (unitFields p.val) { t with twin := s.twin, out := s.out }

/-- TWIN_HB with another module's ID (R492): counted. -/
def strangerCounted : Prop :=
  ∀ (s : State) (p : Fin 8) (u : TwinUnit),
    s.canonical = true →
    s.role ≠ 0 →
    s.twinPorts.contains p.val = true →
    linksIdle s p.val = true →
    u.id.toNat ≠ s.get (Reg.FL.PEER.ID 7) →
    ∃ t, Sys2Proof.Machine.exec (.twinHb p u) s = .next t ∧
      t.get Reg.TWIN.HB_BAD_CNT.CNT = s.counted Reg.TWIN.HB_BAD_CNT.CNT 1 ∧ t.out = s.out ++ [unitBack p.val] ∧ s.OnlyFields (unitFields p.val ++ [Reg.TWIN.HB_BAD_CNT.CNT]) { t with out := s.out }

/-- TWIN_WINDOW after a good window (R493): the twin is paired. -/
def windowPaired : Prop :=
  ∀ (s : State) (peer x : Nat),
    s.canonical = true →
    s.role = 2 →
    s.twin.good = some (peer, x) →
    peer = 3 →
    ∃ t, Sys2Proof.Machine.exec (.twinWindow) s = .next t ∧
      t.get Reg.TWIN.TWIN_STAT.PAIRED = 1 ∧ t.get Reg.TWIN.TWIN_STAT.MISS = 0 ∧ t.get Reg.TWIN.TWIN_STAT.PEER_ROLE = 3 ∧ t.get Reg.TWIN.TWIN_STAT.PEER_ID = s.get (Reg.FL.PEER.ID 7) ∧ t.twin = { s.twin with good := none } ∧ s.OnlyFields [Reg.TWIN.TWIN_STAT.PAIRED, Reg.TWIN.TWIN_STAT.MISS, Reg.TWIN.TWIN_STAT.PEER_ROLE, Reg.TWIN.TWIN_STAT.PEER_ID] { t with twin := s.twin }

/-- TWIN_WINDOW with roles of different kinds (R497): the mismatch is reported. -/
def windowMismatch : Prop :=
  ∀ (s : State) (peer x : Nat),
    s.canonical = true →
    (s.role = 1 ∧ peer ≠ 1) ∨ (2 ≤ s.role ∧ s.role < 4 ∧ (peer ≤ 1 ∨ 4 ≤ peer)) →
    peer < 8 →
    s.twin.good = some (peer, x) →
    s.hostMode pgTWIN = false →
    ∃ t, Sys2Proof.Machine.exec (.twinWindow) s = .next t ∧
      TwinCause t 7 ∧ t.get Reg.TWIN.CONFLICT_CNT.CNT = s.counted Reg.TWIN.CONFLICT_CNT.CNT 1 ∧ t.role = s.role ∧ t.get Reg.TWIN.TWIN_STAT.PAIRED = 1

/-- TWIN_WINDOW with both twins active (R497): the lower module ID is to stay active. -/
def windowConflict : Prop :=
  ∀ (s : State) (x : Nat),
    s.canonical = true →
    s.role = 2 →
    s.twin.good = some (2, x) →
    ∃ t, Sys2Proof.Machine.exec (.twinWindow) s = .next t ∧
      t.twin.conflict = some (if s.modId < s.get (Reg.FL.PEER.ID 7) then 2 else 3) ∧ t.role = 2

/-- TWIN_WINDOW without a heartbeat (R493): MISS counts. -/
def windowMissed : Prop :=
  ∀ (s : State),
    s.canonical = true →
    s.role ≠ 0 →
    s.twin.good = none →
    s.get Reg.TWIN.TWIN_STAT.MISS ≠ 1 →
    ∃ t, Sys2Proof.Machine.exec (.twinWindow) s = .next t ∧
      t.get Reg.TWIN.TWIN_STAT.MISS = min 15 (s.get Reg.TWIN.TWIN_STAT.MISS + 1) ∧ s.OnlyFields [Reg.TWIN.TWIN_STAT.MISS] t

/-- TWIN_WINDOW, the second without a heartbeat (R493, R494): the twin is lost, and a healthy standby is to take over. -/
def twinLost : Prop :=
  ∀ (s : State),
    s.canonical = true →
    s.role ≠ 0 →
    s.twin.good = none →
    s.get Reg.TWIN.TWIN_STAT.MISS = 1 →
    ∃ t, Sys2Proof.Machine.exec (.twinWindow) s = .next t ∧
      t.get Reg.TWIN.TWIN_STAT.MISS = 2 ∧ t.get Reg.TWIN.TWIN_STAT.PAIRED = 0 ∧ TwinCause t 4 ∧ t.get (Reg.HDR.BLK_STAT.ERR pgTWIN) = 1 ∧ t.twin.takeover = (s.twin.takeover || (s.role == 3 && s.healthy)) ∧ t.role = s.role ∧ TwinOnly s [Reg.TWIN.TWIN_STAT.MISS, Reg.TWIN.TWIN_STAT.PAIRED, Reg.HDR.BLK_STAT.ERR pgTWIN] t

/-- TAKEOVER (R494): the standby becomes active. -/
def takenOver : Prop :=
  ∀ (s : State),
    s.canonical = true →
    s.twin.takeover = true →
    s.role = 3 →
    s.healthy = true →
    s.hostMode pgTWIN = false →
    ∃ t, Sys2Proof.Machine.exec (.takeover) s = .next t ∧
      t.role = 2 ∧ t.get Reg.TWIN.TAKEOVER_CNT.CNT = s.counted Reg.TWIN.TAKEOVER_CNT.CNT 1 ∧ TwinCause t 5 ∧ t.twin = { s.twin with takeover := false } ∧ TwinOnly s [Reg.TWIN.TWIN_ROLE.ROLE, Reg.TWIN.TAKEOVER_CNT.CNT] t

/-- TAKEOVER in host mode (R494): only the cause. -/
def takeoverLeftToHost : Prop :=
  ∀ (s : State),
    s.canonical = true →
    s.twin.takeover = true →
    s.role = 3 →
    s.healthy = true →
    s.hostMode pgTWIN = true →
    ∃ t, Sys2Proof.Machine.exec (.takeover) s = .next t ∧
      t.role = 3 ∧ TwinCause t 5 ∧ TwinOnly s [] t

/-- ROLE_CONFLICT (R497): the role that the module IDs decide. -/
def conflictResolved : Prop :=
  ∀ (s : State) (r : Nat),
    s.canonical = true →
    s.twin.conflict = some r →
    r < 4 →
    s.hostMode pgTWIN = false →
    ∃ t, Sys2Proof.Machine.exec (.roleConflict) s = .next t ∧
      t.role = r ∧ t.get Reg.TWIN.CONFLICT_CNT.CNT = s.counted Reg.TWIN.CONFLICT_CNT.CNT 1 ∧ TwinCause t 6 ∧ t.twin = { s.twin with conflict := none } ∧ TwinOnly s [Reg.TWIN.TWIN_ROLE.ROLE, Reg.TWIN.CONFLICT_CNT.CNT] t

/-- SICK (R496): an active twin becomes the standby. -/
def fallsIll : Prop :=
  ∀ (s : State) (src : Source),
    s.canonical = true →
    (src == .host && s.hostWaits) = false →
    s.answers src (pgTWIN + 0x48) = true →
    ∃ t, Sys2Proof.Machine.exec (.sick src true) s = .next t ∧
      t.get Reg.TWIN.TWIN_CTRL.SICK = 1 ∧ t.role = (if s.role = 2 then 3 else s.role) ∧ (s.slowed src (pgTWIN + 0x48)).OnlyFields [Reg.TWIN.TWIN_CTRL.SICK, Reg.TWIN.TWIN_ROLE.ROLE] t

/-- SICK cleared (R511): the role stays. -/
def recovers : Prop :=
  ∀ (s : State) (src : Source),
    s.canonical = true →
    (src == .host && s.hostWaits) = false →
    s.answers src (pgTWIN + 0x48) = true →
    s.role ≠ 2 →
    ∃ t, Sys2Proof.Machine.exec (.sick src false) s = .next t ∧
      t.get Reg.TWIN.TWIN_CTRL.SICK = 0 ∧ (s.slowed src (pgTWIN + 0x48)).OnlyFields [Reg.TWIN.TWIN_CTRL.SICK] t

/-- STEP_WATCHDOG (R492, R496): HEALTHY is 0, and an active twin becomes the standby. -/
def stepOverdue : Prop :=
  ∀ (s : State),
    s.canonical = true →
    s.get Reg.TWIN.TWIN_CFG.STEP_WD ≠ 0 →
    ∃ t, Sys2Proof.Machine.exec (.stepWatchdog) s = .next t ∧
      t.twin = { s.twin with expired := true } ∧ t.role = (if s.role = 2 then 3 else s.role) ∧ t.healthy = false ∧ s.OnlyFields [Reg.TWIN.TWIN_ROLE.ROLE] { t with twin := s.twin }

/-- STEP_WATCHDOG with STEP_WD 0 (R492): there is none. -/
def stepWatchdogOff : Prop :=
  ∀ (s : State),
    s.get Reg.TWIN.TWIN_CFG.STEP_WD = 0 →
    ∃ t, Sys2Proof.Machine.exec (.stepWatchdog) s = .next t ∧
      t = s

end Sys2Proof.Machine.Claims

/-- The twin controller: roles, heartbeats, loss, takeover and sickness -/
def Obligations.TwinRolesComplete : Prop :=
  Sys2Proof.Machine.Claims.roleTaken ∧ Sys2Proof.Machine.Claims.roleNotHolder ∧ Sys2Proof.Machine.Claims.roleLocked ∧
    Sys2Proof.Machine.Claims.roleReserved ∧ Sys2Proof.Machine.Claims.roleNoPort ∧ Sys2Proof.Machine.Claims.heartbeatSent ∧
    Sys2Proof.Machine.Claims.soloSilent ∧ Sys2Proof.Machine.Claims.heartbeatCounts ∧ Sys2Proof.Machine.Claims.strangerCounted ∧
    Sys2Proof.Machine.Claims.windowPaired ∧ Sys2Proof.Machine.Claims.windowMismatch ∧ Sys2Proof.Machine.Claims.windowConflict ∧
    Sys2Proof.Machine.Claims.windowMissed ∧ Sys2Proof.Machine.Claims.twinLost ∧ Sys2Proof.Machine.Claims.takenOver ∧
    Sys2Proof.Machine.Claims.takeoverLeftToHost ∧ Sys2Proof.Machine.Claims.conflictResolved ∧ Sys2Proof.Machine.Claims.fallsIll ∧
    Sys2Proof.Machine.Claims.recovers ∧ Sys2Proof.Machine.Claims.stepOverdue ∧ Sys2Proof.Machine.Claims.stepWatchdogOff

/-! The twin controller: handover and detach -/

namespace Sys2Proof.Machine.Claims

/-- HANDOVER of an active paired twin (R498): the request goes out for STEP_CNT + 2. -/
def handoverAsked : Prop :=
  ∀ (s : State) (src : Source),
    s.canonical = true →
    (src == .host && s.hostWaits) = false →
    s.answers src (pgTWIN + 0x48) = true →
    s.role = 2 →
    s.flag Reg.TWIN.TWIN_STAT.PAIRED = true →
    s.twinPorts = [7] →
    linkOpen s 7 = true →
    risingFrom 0 (s.port 7).credits = true →
    ∃ t, Sys2Proof.Machine.exec (.handover src) s = .next t ∧
      t.twin = { s.twin with handover := some (true, false), hstep := s.stepCnt + 2, seq := (s.twin.seq + 1) % 65536 } ∧ t.get Reg.TWIN.TWIN_STAT.HANDOVER_PEND = 1 ∧ t.out = s.out ++ [twinUnit s 7 s.twin.seq 2 (if s.healthy then 1 else 0) (s.stepCnt + 2)] ∧ t.links = spentOne s 7 ∧ (s.slowed src (pgTWIN + 0x48)).OnlyFields [Reg.TWIN.TWIN_STAT.HANDOVER_PEND, Reg.FLC.TX_UNITS.CNT 7] { t with twin := s.twin, out := s.out, links := s.links }

/-- HANDOVER in another state (R498): refused. -/
def handoverNotNow : Prop :=
  ∀ (s : State) (src : Source),
    s.canonical = true →
    (src == .host && s.hostWaits) = false →
    s.answers src (pgTWIN + 0x48) = true →
    s.role ≠ 2 ∨ s.flag Reg.TWIN.TWIN_STAT.PAIRED = false →
    ∃ t, Sys2Proof.Machine.exec (.handover src) s = .next t ∧
      TwinRefusal (s.slowed src (pgTWIN + 0x48)) rcDep 0x48 t

/-- HANDOVER_REQUEST to a standby (R498): acknowledged; the handover is pending. -/
def handoverGranted : Prop :=
  ∀ (s : State) (p : Fin 8) (u : TwinUnit),
    s.canonical = true →
    fromTwin s p.val u = true →
    linkOpen s p.val = true →
    risingFrom 0 (s.port p.val).credits = true →
    s.role = 3 →
    s.stepCnt < u.hstep.toNat →
    ∃ t, Sys2Proof.Machine.exec (.handoverRequest p u) s = .next t ∧
      t.twin = { s.twin with handover := some (false, true), hstep := u.hstep.toNat, seq := (s.twin.seq + 1) % 65536 } ∧ t.get Reg.TWIN.TWIN_STAT.HANDOVER_PEND = 1 ∧ t.get Reg.TWIN.HANDOVER_STEP.STEP = u.hstep.toNat ∧ t.out = s.out ++ [unitBack p.val, twinUnit s p.val s.twin.seq 3 (if s.healthy then 1 else 0) u.hstep.toNat]
      ∧ t.links = spentOne s p.val ∧ s.OnlyFields ([Reg.TWIN.TWIN_STAT.HANDOVER_PEND, Reg.TWIN.HANDOVER_STEP.STEP] ++ unitFields p.val) { t with twin := s.twin, out := s.out, links := s.links }

/-- HANDOVER_REQUEST that comes too late or to another role (R498): answered with REFUSE. -/
def handoverTurnedAway : Prop :=
  ∀ (s : State) (p : Fin 8) (u : TwinUnit),
    s.canonical = true →
    fromTwin s p.val u = true →
    linkOpen s p.val = true →
    risingFrom 0 (s.port p.val).credits = true →
    s.role ≠ 3 ∨ u.hstep.toNat ≤ s.stepCnt →
    ∃ t, Sys2Proof.Machine.exec (.handoverRequest p u) s = .next t ∧
      t.twin = { s.twin with seq := (s.twin.seq + 1) % 65536 } ∧ t.out = s.out ++ [unitBack p.val, twinUnit s p.val s.twin.seq 3 (if s.healthy then 3 else 2) u.hstep.toNat] ∧ t.links = spentOne s p.val ∧ s.OnlyFields (unitFields p.val) { t with twin := s.twin, out := s.out, links := s.links }

/-- HANDOVER_ACK (R498): the handover is agreed for its step. -/
def handoverAgreed : Prop :=
  ∀ (s : State) (p : Fin 8) (u : TwinUnit),
    s.canonical = true →
    fromTwin s p.val u = true →
    linksIdle s p.val = true →
    s.twin.handover = some (true, false) →
    u.hstep.toNat = s.twin.hstep →
    u.refuse = false →
    s.stepCnt ≤ s.twin.hstep →
    ∃ t, Sys2Proof.Machine.exec (.handoverAck p u) s = .next t ∧
      t.twin = { s.twin with handover := some (true, true) } ∧ t.get Reg.TWIN.HANDOVER_STEP.STEP = s.twin.hstep ∧ t.role = s.role ∧ t.out = s.out ++ [unitBack p.val] ∧ s.OnlyFields ([Reg.TWIN.HANDOVER_STEP.STEP] ++ unitFields p.val) { t with twin := s.twin, out := s.out }

/-- HANDOVER_ACK with REFUSE (R498): the handover failed. -/
def handoverRefused : Prop :=
  ∀ (s : State) (p : Fin 8) (u : TwinUnit),
    s.canonical = true →
    fromTwin s p.val u = true →
    linksIdle s p.val = true →
    s.twin.handover = some (true, false) →
    u.hstep.toNat = s.twin.hstep →
    u.refuse = true →
    ∃ t, Sys2Proof.Machine.exec (.handoverAck p u) s = .next t ∧
      t.get Reg.TWIN.TWIN_STAT.HANDOVER_PEND = 0 ∧ TwinCause t 9 ∧ t.get (Reg.HDR.BLK_STAT.ERR pgTWIN) = 1 ∧ t.twin = { s.twin with handover := none } ∧ t.role = s.role ∧ TwinOnly s ([Reg.TWIN.TWIN_STAT.HANDOVER_PEND, Reg.HDR.BLK_STAT.ERR pgTWIN] ++ unitFields p.val) t

/-- HANDOVER_TIMEOUT (R498): the handover failed. -/
def handoverUnanswered : Prop :=
  ∀ (s : State),
    s.canonical = true →
    s.twin.handover = some (true, false) →
    ∃ t, Sys2Proof.Machine.exec (.handoverTimeout) s = .next t ∧
      t.get Reg.TWIN.TWIN_STAT.HANDOVER_PEND = 0 ∧ TwinCause t 9 ∧ t.get (Reg.HDR.BLK_STAT.ERR pgTWIN) = 1 ∧ t.twin = { s.twin with handover := none } ∧ t.role = s.role ∧ TwinOnly s ([Reg.TWIN.TWIN_STAT.HANDOVER_PEND, Reg.HDR.BLK_STAT.ERR pgTWIN]) t

/-- HANDOVER_TIMEOUT with nothing unanswered: nothing. -/
def handoverAnswered : Prop :=
  ∀ (s : State),
    s.twin.handover ≠ some (true, false) →
    ∃ t, Sys2Proof.Machine.exec (.handoverTimeout) s = .next t ∧
      t = s

/-- DETACH (R500): the unit goes out and the module is SOLO. -/
def detached : Prop :=
  ∀ (s : State) (src : Source),
    s.canonical = true →
    (src == .host && s.hostWaits) = false →
    s.answers src (pgTWIN + 0x48) = true →
    s.role ≠ 0 →
    s.twinPorts = [7] →
    linkOpen s 7 = true →
    risingFrom 0 (s.port 7).credits = true →
    s.twin.handover = none →
    ∃ t, Sys2Proof.Machine.exec (.detach src) s = .next t ∧
      t.role = 0 ∧ t.twin = { s.twin with handover := none, takeover := false, conflict := none, good := none, seq := (s.twin.seq + 1) % 65536 } ∧ t.out = s.out ++ [twinUnit s 7 s.twin.seq 4 (if s.healthy then 1 else 0) 0] ∧ t.links = spentOne s 7 ∧ (s.slowed src (pgTWIN + 0x48)).OnlyFields [Reg.TWIN.TWIN_ROLE.ROLE, Reg.FLC.TX_UNITS.CNT 7] { t with twin := s.twin, out := s.out, links := s.links }

/-- DETACH of a SOLO module (R500): nothing. -/
def soloDetach : Prop :=
  ∀ (s : State) (src : Source),
    (src == .host && s.hostWaits) = false →
    s.answers src (pgTWIN + 0x48) = true →
    s.role = 0 →
    ∃ t, Sys2Proof.Machine.exec (.detach src) s = .next t ∧
      t = s.slowed src (pgTWIN + 0x48)

/-- DETACH_UNIT (R499): the module is SOLO, with its cause. -/
def twinDetached : Prop :=
  ∀ (s : State) (p : Fin 8) (u : TwinUnit),
    s.canonical = true →
    fromTwin s p.val u = true →
    linksIdle s p.val = true →
    s.twin.handover = none →
    ∃ t, Sys2Proof.Machine.exec (.detachUnit p u) s = .next t ∧
      t.role = 0 ∧ t.twin = { s.twin with handover := none, takeover := false, conflict := none, good := none } ∧ TwinCause t 10 ∧ TwinOnly s ([Reg.TWIN.TWIN_ROLE.ROLE] ++ unitFields p.val) t

end Sys2Proof.Machine.Claims

/-- The twin controller: handover and detach -/
def Obligations.TwinHandoverCompletes : Prop :=
  Sys2Proof.Machine.Claims.handoverAsked ∧ Sys2Proof.Machine.Claims.handoverNotNow ∧ Sys2Proof.Machine.Claims.handoverGranted ∧
    Sys2Proof.Machine.Claims.handoverTurnedAway ∧ Sys2Proof.Machine.Claims.handoverAgreed ∧ Sys2Proof.Machine.Claims.handoverRefused ∧
    Sys2Proof.Machine.Claims.handoverUnanswered ∧ Sys2Proof.Machine.Claims.handoverAnswered ∧ Sys2Proof.Machine.Claims.detached ∧
    Sys2Proof.Machine.Claims.soloDetach ∧ Sys2Proof.Machine.Claims.twinDetached

/-! The service panel: button, pad, latch and cables -/

namespace Sys2Proof.Machine.Claims

/-- A cause of a page is set. -/
def PageCause (t : State) (pg b : Nat) : Prop := (t.get (Reg.HDR.BLK_IRQ_STAT.BLK_SPEC pg)).testBit (b - 4) = true

/-- From s to t, besides the hidden state of the panel, the captures' waiting values and the timers, only the fields of fs and the notices of a page can change. -/
def PanelOnly (s : State) (pg : Nat) (fs : List Field) (t : State) : Prop := s.OnlyNotices (fs ++ irqFields pg) { t with panel := s.panel, caps := s.caps, timers := s.timers }

/-- The registers of a capture input (R509, R510). -/
def captureFields (i : Nat) : List Field :=
  [Reg.TIMERS.CAP_FALL.VALUE i, Reg.TIMERS.CAP_RISE.VALUE i, Reg.TIMERS.CAP_STAT.NEW_F i, Reg.TIMERS.CAP_STAT.NEW_R i, Reg.TIMERS.CAP_STAT.PEND_F i, Reg.TIMERS.CAP_STAT.PEND_R i, Reg.TIMERS.CAP_STAT.OVR_F i, Reg.TIMERS.CAP_STAT.OVR_R i]

/-- A timer runs alone: it is not frozen, held or cascaded (R506 to R508). -/
def runsAlone (s : State) (n : Nat) : Bool :=
  s.sclkOn && s.get (Reg.TIMERS.GT_CTRL.RUN n) == 1 && !s.frozen n && !s.held n && s.get (Reg.TIMERS.GT_CFG.CASC n) == 0 && s.get (Reg.TIMERS.GT_CFG.CASC (n + 1)) == 0

/-- BUTTON_PRESS (R501, R502). -/
def buttonPressed : Prop :=
  ∀ (s : State),
    s.canonical = true →
    s.panelOn = true →
    s.get Reg.PANEL.PANEL_STAT.BUTTON = 0 →
    s.hostMode pgPANEL = false →
    s.flag (Reg.TIMERS.CAP_CFG.EN 14) = false →
    ∃ t, Sys2Proof.Machine.exec (.buttonPress) s = .next t ∧
      t = { s.put Reg.PANEL.PANEL_STAT.BUTTON 1 with panel := { s.panel with long := false } }

/-- BUTTON_PRESS in host mode (R502): with its cause. -/
def buttonToHost : Prop :=
  ∀ (s : State),
    s.canonical = true →
    s.panelOn = true →
    s.get Reg.PANEL.PANEL_STAT.BUTTON = 0 →
    s.hostMode pgPANEL = true →
    s.flag (Reg.TIMERS.CAP_CFG.EN 14) = false →
    ∃ t, Sys2Proof.Machine.exec (.buttonPress) s = .next t ∧
      t.get Reg.PANEL.PANEL_STAT.BUTTON = 1 ∧ PageCause t pgPANEL 6 ∧ t.panel = { s.panel with long := false } ∧ PanelOnly s pgPANEL [Reg.PANEL.PANEL_STAT.BUTTON] t

/-- BUTTON_PRESS with its capture enabled (R501, R509): the count of GT15 at the falling edge. -/
def pressCaptured : Prop :=
  ∀ (s : State),
    s.canonical = true →
    s.panelOn = true →
    s.get Reg.PANEL.PANEL_STAT.BUTTON = 0 →
    s.hostMode pgPANEL = false →
    s.flag (Reg.TIMERS.CAP_CFG.EN 14) = true →
    s.get (Reg.TIMERS.CAP_STAT.PEND_F 14) = 0 →
    s.get (Reg.TIMERS.CAP_CFG.TMR 14) = 15 →
    ∃ t, Sys2Proof.Machine.exec (.buttonPress) s = .next t ∧
      t.get Reg.PANEL.PANEL_STAT.BUTTON = 1 ∧ t.get (Reg.TIMERS.CAP_FALL.VALUE 14) = (s.gtCnt 15 + s.get (Reg.TIMERS.GT_STAT.CATCHUP 15)) % 2 ^ 32 ∧ t.get (Reg.TIMERS.CAP_STAT.NEW_F 14) = 1 ∧ PanelOnly s pgTIMERS ([Reg.PANEL.PANEL_STAT.BUTTON] ++ captureFields 14) t

/-- BUTTON_RELEASE within 20 ms (R502): a bounce. -/
def bounceCounted : Prop :=
  ∀ (s : State) (ms : Nat),
    s.canonical = true →
    s.panelOn = true →
    s.get Reg.PANEL.PANEL_STAT.BUTTON = 1 →
    s.hostMode pgPANEL = false →
    s.flag (Reg.TIMERS.CAP_CFG.EN 14) = false →
    s.panel.long = false →
    ms < 20 →
    ∃ t, Sys2Proof.Machine.exec (.buttonRelease ms) s = .next t ∧
      t.get Reg.PANEL.PANEL_STAT.BUTTON = 0 ∧ t.get Reg.PANEL.BOUNCE_CNT.CNT = s.counted Reg.PANEL.BOUNCE_CNT.CNT 1 ∧ PanelOnly s pgPANEL [Reg.PANEL.PANEL_STAT.BUTTON, Reg.PANEL.BOUNCE_CNT.CNT] t

/-- BUTTON_RELEASE of a short press (R502): IDENT toggles. -/
def shortPress : Prop :=
  ∀ (s : State) (ms : Nat),
    s.canonical = true →
    s.panelOn = true →
    s.get Reg.PANEL.PANEL_STAT.BUTTON = 1 →
    s.hostMode pgPANEL = false →
    s.flag (Reg.TIMERS.CAP_CFG.EN 14) = false →
    s.panel.long = false →
    20 ≤ ms →
    ms < s.get Reg.PANEL.PANEL_CFG.LONG_MS →
    ∃ t, Sys2Proof.Machine.exec (.buttonRelease ms) s = .next t ∧
      t.get Reg.PANEL.PANEL_STAT.BUTTON = 0 ∧ t.get Reg.PANEL.PANEL_CTRL.IDENT = 1 - s.get Reg.PANEL.PANEL_CTRL.IDENT ∧ PageCause t pgPANEL 4 ∧ PanelOnly s pgPANEL [Reg.PANEL.PANEL_STAT.BUTTON, Reg.PANEL.PANEL_CTRL.IDENT] t

/-- BUTTON_RELEASE of a long press (R502): nothing more. -/
def longPressEnds : Prop :=
  ∀ (s : State) (ms : Nat),
    s.canonical = true →
    s.panelOn = true →
    s.get Reg.PANEL.PANEL_STAT.BUTTON = 1 →
    s.hostMode pgPANEL = false →
    s.flag (Reg.TIMERS.CAP_CFG.EN 14) = false →
    s.panel.long = true →
    ∃ t, Sys2Proof.Machine.exec (.buttonRelease ms) s = .next t ∧
      t.get Reg.PANEL.PANEL_STAT.BUTTON = 0 ∧ t.panel = { s.panel with long := false } ∧ PanelOnly s pgPANEL [Reg.PANEL.PANEL_STAT.BUTTON] t

/-- LONG_PRESS (R502): DETACH_REQ. -/
def detachRequested : Prop :=
  ∀ (s : State),
    s.canonical = true →
    s.panelOn = true →
    s.hostMode pgPANEL = false →
    s.get Reg.PANEL.PANEL_STAT.BUTTON = 1 →
    s.panel.long = false →
    s.get Reg.PANEL.PANEL_CTRL.DETACHING = 0 →
    ∃ t, Sys2Proof.Machine.exec (.longPress) s = .next t ∧
      t.panel = { s.panel with long := true } ∧ PageCause t pgPANEL 5 ∧ PanelOnly s pgPANEL [] t

/-- LONG_PRESS while a detach runs (R502): counted. -/
def detachRepeated : Prop :=
  ∀ (s : State),
    s.canonical = true →
    s.panelOn = true →
    s.hostMode pgPANEL = false →
    s.get Reg.PANEL.PANEL_STAT.BUTTON = 1 →
    s.panel.long = false →
    s.get Reg.PANEL.PANEL_CTRL.DETACHING = 1 →
    ∃ t, Sys2Proof.Machine.exec (.longPress) s = .next t ∧
      t.get Reg.PANEL.DETACH_DUP_CNT.CNT = s.counted Reg.PANEL.DETACH_DUP_CNT.CNT 1 ∧ PanelOnly s pgPANEL [Reg.PANEL.DETACH_DUP_CNT.CNT] t

/-- PAD_CHARGE_CYCLE below the threshold (R501, R502): not touched. -/
def padUntouched : Prop :=
  ∀ (s : State) (ns : BitVec 16),
    s.canonical = true →
    s.panelOn = true →
    s.hostMode pgPANEL = false →
    ns.toNat < s.get Reg.PANEL.PANEL_CFG2.TOUCH_THR →
    ∃ t, Sys2Proof.Machine.exec (.padChargeCycle ns) s = .next t ∧
      t.get Reg.PANEL.PANEL_STAT.PAD_NS = ns.toNat ∧ t.get Reg.PANEL.PANEL_STAT.TOUCHED = 0 ∧ t.panel = { s.panel with touch := 0, touchSeen := false } ∧ PanelOnly s pgPANEL [Reg.PANEL.PANEL_STAT.PAD_NS, Reg.PANEL.PANEL_STAT.TOUCHED] t

/-- PAD_CHARGE_CYCLE at or above the threshold (R502): touched. -/
def padTouched : Prop :=
  ∀ (s : State) (ns : BitVec 16),
    s.canonical = true →
    s.panelOn = true →
    s.hostMode pgPANEL = false →
    s.get Reg.PANEL.PANEL_CFG2.TOUCH_THR ≤ ns.toNat →
    s.panel.touch + 10 < s.get Reg.PANEL.PANEL_CFG2.TOUCH_MS ∨ s.panel.touchSeen = true →
    ∃ t, Sys2Proof.Machine.exec (.padChargeCycle ns) s = .next t ∧
      t.get Reg.PANEL.PANEL_STAT.PAD_NS = ns.toNat ∧ t.get Reg.PANEL.PANEL_STAT.TOUCHED = 1 ∧ t.panel = { s.panel with touch := s.panel.touch + 10 } ∧ PanelOnly s pgPANEL [Reg.PANEL.PANEL_STAT.PAD_NS, Reg.PANEL.PANEL_STAT.TOUCHED] t

/-- PAD_CHARGE_CYCLE that completes TOUCH_MS (R502): DETACH_REQ. -/
def touchDetaches : Prop :=
  ∀ (s : State) (ns : BitVec 16),
    s.canonical = true →
    s.panelOn = true →
    s.hostMode pgPANEL = false →
    s.get Reg.PANEL.PANEL_CFG2.TOUCH_THR ≤ ns.toNat →
    s.panel.touchSeen = false →
    s.get Reg.PANEL.PANEL_CFG2.TOUCH_MS ≤ s.panel.touch + 10 →
    s.get Reg.PANEL.PANEL_CTRL.DETACHING = 0 →
    ∃ t, Sys2Proof.Machine.exec (.padChargeCycle ns) s = .next t ∧
      PageCause t pgPANEL 5 ∧ t.get Reg.PANEL.PANEL_STAT.TOUCHED = 1 ∧ t.panel = { s.panel with touch := s.panel.touch + 10, touchSeen := true } ∧ PanelOnly s pgPANEL [Reg.PANEL.PANEL_STAT.PAD_NS, Reg.PANEL.PANEL_STAT.TOUCHED] t

/-- PAD_CHARGE_CYCLE in host mode (R502): a change is a cause. -/
def padToHost : Prop :=
  ∀ (s : State) (ns : BitVec 16),
    s.canonical = true →
    s.panelOn = true →
    s.hostMode pgPANEL = true →
    s.get Reg.PANEL.PANEL_STAT.TOUCHED = 0 →
    s.get Reg.PANEL.PANEL_CFG2.TOUCH_THR ≤ ns.toNat →
    ∃ t, Sys2Proof.Machine.exec (.padChargeCycle ns) s = .next t ∧
      t.get Reg.PANEL.PANEL_STAT.TOUCHED = 1 ∧ PageCause t pgPANEL 7 ∧ t.panel = s.panel ∧ PanelOnly s pgPANEL [Reg.PANEL.PANEL_STAT.PAD_NS, Reg.PANEL.PANEL_STAT.TOUCHED] t

/-- PAD_FAULT (R501): counted, with its cause; the pad counts as not touched. -/
def padFails : Prop :=
  ∀ (s : State),
    s.canonical = true →
    s.panelOn = true →
    s.hostMode pgPANEL = false →
    ∃ t, Sys2Proof.Machine.exec (.padFault) s = .next t ∧
      t.get Reg.PANEL.PAD_FAULT_CNT.CNT = s.counted Reg.PANEL.PAD_FAULT_CNT.CNT 1 ∧ PageCause t pgPANEL 10 ∧ t.get Reg.PANEL.PANEL_STAT.TOUCHED = 0 ∧ t.panel = { s.panel with touch := 0, touchSeen := false } ∧ PanelOnly s pgPANEL [Reg.PANEL.PAD_FAULT_CNT.CNT, Reg.PANEL.PANEL_STAT.TOUCHED] t

/-- LATCH while SAFE (R502): the latch is open, with its cause. -/
def latchOpens : Prop :=
  ∀ (s : State),
    s.canonical = true →
    s.panelOn = true →
    s.hostMode pgPANEL = false →
    s.flag Reg.PANEL.PANEL_CTRL.SAFE = true →
    s.get Reg.PANEL.PANEL_STAT.LATCH_OPEN = 0 →
    s.flag Reg.PANEL.PANEL_CFG.LATCH_SICK = false ∨ s.role ≠ 2 →
    ∃ t, Sys2Proof.Machine.exec (.latch) s = .next t ∧
      t.get Reg.PANEL.PANEL_STAT.LATCH_OPEN = 1 ∧ PageCause t pgPANEL 8 ∧ PanelOnly s pgPANEL [Reg.PANEL.PANEL_STAT.LATCH_OPEN] t

/-- LATCH with LATCH_SICK on an active twin (R502): it is sick and becomes the standby. -/
def latchMakesSick : Prop :=
  ∀ (s : State),
    s.canonical = true →
    s.panelOn = true →
    s.hostMode pgPANEL = false →
    s.flag Reg.PANEL.PANEL_CTRL.SAFE = true →
    s.get Reg.PANEL.PANEL_STAT.LATCH_OPEN = 0 →
    s.flag Reg.PANEL.PANEL_CFG.LATCH_SICK = true →
    s.role = 2 →
    ∃ t, Sys2Proof.Machine.exec (.latch) s = .next t ∧
      t.get Reg.PANEL.PANEL_STAT.LATCH_OPEN = 1 ∧ t.get Reg.TWIN.TWIN_CTRL.SICK = 1 ∧ t.role = 3 ∧ PageCause t pgPANEL 8 ∧ PanelOnly s pgPANEL [Reg.PANEL.PANEL_STAT.LATCH_OPEN, Reg.TWIN.TWIN_CTRL.SICK, Reg.TWIN.TWIN_ROLE.ROLE] t

/-- LATCH while it is open: nothing. -/
def latchAlreadyOpen : Prop :=
  ∀ (s : State),
    s.get Reg.PANEL.PANEL_STAT.LATCH_OPEN = 1 →
    ∃ t, Sys2Proof.Machine.exec (.latch) s = .next t ∧
      t = s

/-- LATCH_CLOSES (R502). -/
def latchShut : Prop :=
  ∀ (s : State),
    s.canonical = true →
    s.panelOn = true →
    ∃ t, Sys2Proof.Machine.exec (.latchCloses) s = .next t ∧
      t.get Reg.PANEL.PANEL_STAT.LATCH_OPEN = 0 ∧ s.OnlyFields [Reg.PANEL.PANEL_STAT.LATCH_OPEN] t

/-- CABLE (R502): the presence bits and their cause. -/
def cableChanged : Prop :=
  ∀ (s : State) (pres : BitVec 10),
    s.canonical = true →
    s.panelOn = true →
    s.hostMode pgPANEL = false →
    s.get Reg.PANEL.CAGE_PRES.PRES ≠ pres.toNat →
    ∃ t, Sys2Proof.Machine.exec (.cable pres) s = .next t ∧
      t.get Reg.PANEL.CAGE_PRES.PRES = pres.toNat ∧ PageCause t pgPANEL 9 ∧ PanelOnly s pgPANEL [Reg.PANEL.CAGE_PRES.PRES] t

/-- CABLE in host mode (R502): the presence bits. -/
def cableToHost : Prop :=
  ∀ (s : State) (pres : BitVec 10),
    s.canonical = true →
    s.panelOn = true →
    s.hostMode pgPANEL = true →
    s.get Reg.PANEL.CAGE_PRES.PRES ≠ pres.toNat →
    ∃ t, Sys2Proof.Machine.exec (.cable pres) s = .next t ∧
      t.get Reg.PANEL.CAGE_PRES.PRES = pres.toNat ∧ s.OnlyFields [Reg.PANEL.CAGE_PRES.PRES] t

/-- CABLE while the panel does not run: nothing. -/
def panelDark : Prop :=
  ∀ (s : State) (pres : BitVec 10),
    s.panelOn = false →
    ∃ t, Sys2Proof.Machine.exec (.cable pres) s = .next t ∧
      t = s

end Sys2Proof.Machine.Claims

/-- The service panel: button, pad, latch and cables -/
def Obligations.PanelCompletes : Prop :=
  Sys2Proof.Machine.Claims.buttonPressed ∧ Sys2Proof.Machine.Claims.buttonToHost ∧ Sys2Proof.Machine.Claims.pressCaptured ∧
    Sys2Proof.Machine.Claims.bounceCounted ∧ Sys2Proof.Machine.Claims.shortPress ∧ Sys2Proof.Machine.Claims.longPressEnds ∧
    Sys2Proof.Machine.Claims.detachRequested ∧ Sys2Proof.Machine.Claims.detachRepeated ∧ Sys2Proof.Machine.Claims.padUntouched ∧
    Sys2Proof.Machine.Claims.padTouched ∧ Sys2Proof.Machine.Claims.touchDetaches ∧ Sys2Proof.Machine.Claims.padToHost ∧
    Sys2Proof.Machine.Claims.padFails ∧ Sys2Proof.Machine.Claims.latchOpens ∧ Sys2Proof.Machine.Claims.latchMakesSick ∧
    Sys2Proof.Machine.Claims.latchAlreadyOpen ∧ Sys2Proof.Machine.Claims.latchShut ∧ Sys2Proof.Machine.Claims.cableChanged ∧
    Sys2Proof.Machine.Claims.cableToHost ∧ Sys2Proof.Machine.Claims.panelDark

/-! The general timers and the capture inputs -/

namespace Sys2Proof.Machine.Claims

/-- TICK (R506): the count steps. -/
def timerCounts : Prop :=
  ∀ (s : State) (n : Fin 16),
    s.canonical = true →
    runsAlone s n.val = true →
    s.gtCnt n.val ≠ (s.timer n.val).top.toNat →
    (s.gtCnt n.val + 1) % 2 ^ 32 ≠ (s.timer n.val).cmp.toNat →
    ∃ t, Sys2Proof.Machine.exec (.tick n) s = .next t ∧
      t.gtCnt n.val = (s.gtCnt n.val + 1) % 2 ^ 32 ∧ t.timers = s.timers ∧ s.OnlyFields [Reg.TIMERS.GT_CNT.VALUE n.val] t

/-- TICK that reaches the active compare value (R506): MATCH, its cause and the output. -/
def tickMatches : Prop :=
  ∀ (s : State) (n : Fin 16),
    s.canonical = true →
    runsAlone s n.val = true →
    s.gtCnt n.val ≠ (s.timer n.val).top.toNat →
    (s.gtCnt n.val + 1) % 2 ^ 32 = (s.timer n.val).cmp.toNat →
    ∃ t, Sys2Proof.Machine.exec (.tick n) s = .next t ∧
      t.gtCnt n.val = (s.gtCnt n.val + 1) % 2 ^ 32 ∧ t.get (Reg.TIMERS.GT_STAT.MATCH n.val) = 1 ∧ (t.timer n.val).out = (if s.get (Reg.TIMERS.GT_CFG.OUTMODE n.val) = 1 then !(s.timer n.val).out else if s.get (Reg.TIMERS.GT_CFG.OUTMODE n.val) = 2 then false else (s.timer n.val).out) ∧ (PageCause t pgTIMERS 4 ∨ (s.get Reg.TIMERS.TIRQ_EN.EN).testBit n.val = false) ∧ PanelOnly s pgTIMERS [Reg.TIMERS.GT_CNT.VALUE n.val, Reg.TIMERS.GT_STAT.MATCH n.val] t

/-- MATCH that reaches the active compare value (R506): MATCH, its cause and the output. -/
def matchReached : Prop :=
  ∀ (s : State) (n : Fin 16),
    s.canonical = true →
    runsAlone s n.val = true →
    s.gtCnt n.val ≠ (s.timer n.val).top.toNat →
    (s.gtCnt n.val + 1) % 2 ^ 32 = (s.timer n.val).cmp.toNat →
    ∃ t, Sys2Proof.Machine.exec (.matchOp n) s = .next t ∧
      t.gtCnt n.val = (s.gtCnt n.val + 1) % 2 ^ 32 ∧ t.get (Reg.TIMERS.GT_STAT.MATCH n.val) = 1 ∧ (t.timer n.val).out = (if s.get (Reg.TIMERS.GT_CFG.OUTMODE n.val) = 1 then !(s.timer n.val).out else if s.get (Reg.TIMERS.GT_CFG.OUTMODE n.val) = 2 then false else (s.timer n.val).out) ∧ (PageCause t pgTIMERS 4 ∨ (s.get Reg.TIMERS.TIRQ_EN.EN).testBit n.val = false) ∧ PanelOnly s pgTIMERS [Reg.TIMERS.GT_CNT.VALUE n.val, Reg.TIMERS.GT_STAT.MATCH n.val] t

/-- MATCH when the next count does not match: nothing. -/
def matchNotYet : Prop :=
  ∀ (s : State) (n : Fin 16),
    s.gtCnt n.val ≠ (s.timer n.val).top.toNat →
    (s.gtCnt n.val + 1) % 2 ^ 32 ≠ (s.timer n.val).cmp.toNat →
    ∃ t, Sys2Proof.Machine.exec (.matchOp n) s = .next t ∧
      t = s

/-- TICK at TOP (R506): the count is 0, WRAP is set, TOP and CMP become active, and a one-shot timer stops. -/
def tickWraps : Prop :=
  ∀ (s : State) (n : Fin 16),
    s.canonical = true →
    runsAlone s n.val = true →
    s.gtCnt n.val = (s.timer n.val).top.toNat →
    n.val % 2 = 1 ∨ s.flag (Reg.TIMERS.GT_CFG.CASC (n.val + 1)) = false →
    ∃ t, Sys2Proof.Machine.exec (.tick n) s = .next t ∧
      t.gtCnt n.val = 0 ∧ t.get (Reg.TIMERS.GT_STAT.WRAP n.val) = 1 ∧ (PageCause t pgTIMERS 5 ∨ (s.get Reg.TIMERS.TIRQ_EN.EN).testBit n.val = false) ∧ (t.timer n.val).top.toNat = s.get (Reg.TIMERS.GT_TOP.VALUE n.val) ∧ (t.timer n.val).cmp.toNat = s.get (Reg.TIMERS.GT_CMP.VALUE n.val) ∧ t.get (Reg.TIMERS.GT_CTRL.RUN n.val) = 1 - s.get (Reg.TIMERS.GT_CFG.ONESHOT n.val) ∧ (s.get (Reg.TIMERS.GT_CMP.VALUE n.val) = 0 → t.get (Reg.TIMERS.GT_STAT.MATCH n.val) = 1) ∧ PanelOnly s pgTIMERS [Reg.TIMERS.GT_CNT.VALUE n.val, Reg.TIMERS.GT_STAT.MATCH n.val, Reg.TIMERS.GT_STAT.WRAP n.val, Reg.TIMERS.GT_CTRL.RUN n.val] t

/-- WRAP at TOP (R506): the count is 0, WRAP is set, TOP and CMP become active, and a one-shot timer stops. -/
def wrapReached : Prop :=
  ∀ (s : State) (n : Fin 16),
    s.canonical = true →
    runsAlone s n.val = true →
    s.gtCnt n.val = (s.timer n.val).top.toNat →
    n.val % 2 = 1 ∨ s.flag (Reg.TIMERS.GT_CFG.CASC (n.val + 1)) = false →
    ∃ t, Sys2Proof.Machine.exec (.wrap n) s = .next t ∧
      t.gtCnt n.val = 0 ∧ t.get (Reg.TIMERS.GT_STAT.WRAP n.val) = 1 ∧ (PageCause t pgTIMERS 5 ∨ (s.get Reg.TIMERS.TIRQ_EN.EN).testBit n.val = false) ∧ (t.timer n.val).top.toNat = s.get (Reg.TIMERS.GT_TOP.VALUE n.val) ∧ (t.timer n.val).cmp.toNat = s.get (Reg.TIMERS.GT_CMP.VALUE n.val) ∧ t.get (Reg.TIMERS.GT_CTRL.RUN n.val) = 1 - s.get (Reg.TIMERS.GT_CFG.ONESHOT n.val) ∧ (s.get (Reg.TIMERS.GT_CMP.VALUE n.val) = 0 → t.get (Reg.TIMERS.GT_STAT.MATCH n.val) = 1) ∧ PanelOnly s pgTIMERS [Reg.TIMERS.GT_CNT.VALUE n.val, Reg.TIMERS.GT_STAT.MATCH n.val, Reg.TIMERS.GT_STAT.WRAP n.val, Reg.TIMERS.GT_CTRL.RUN n.val] t

/-- WRAP when the count is not at TOP: nothing. -/
def wrapNotYet : Prop :=
  ∀ (s : State) (n : Fin 16),
    s.gtCnt n.val ≠ (s.timer n.val).top.toNat →
    ∃ t, Sys2Proof.Machine.exec (.wrap n) s = .next t ∧
      t = s

/-- TICK of a held timer (R508): it is caught. -/
def heldTickCaught : Prop :=
  ∀ (s : State) (n : Fin 16),
    s.canonical = true →
    s.ticks n.val = true →
    s.get (Reg.TIMERS.GT_STAT.HELD n.val) = 1 →
    ∃ t, Sys2Proof.Machine.exec (.tick n) s = .next t ∧
      t.gtCnt n.val = s.gtCnt n.val ∧ (if s.get (Reg.TIMERS.GT_STAT.CATCHUP n.val) < 255 then t.get (Reg.TIMERS.GT_STAT.CATCHUP n.val) = s.get (Reg.TIMERS.GT_STAT.CATCHUP n.val) + 1 else t.get (Reg.TIMERS.GT_STAT.CATCHUP_OVF n.val) = 1) ∧ s.OnlyFields [Reg.TIMERS.GT_STAT.CATCHUP n.val, Reg.TIMERS.GT_STAT.CATCHUP_OVF n.val] t

/-- TICK of a timer that does not run (R506): nothing. -/
def stoppedTimerStays : Prop :=
  ∀ (s : State) (n : Fin 16),
    s.get (Reg.TIMERS.GT_CTRL.RUN n.val) = 0 →
    ∃ t, Sys2Proof.Machine.exec (.tick n) s = .next t ∧
      t = s

/-- HOLD (R508): the count freezes. -/
def timerHeld : Prop :=
  ∀ (s : State) (src : Source) (n : Fin 16),
    s.canonical = true →
    (src == .host && s.hostWaits) = false →
    s.answers src (pgTIMERS + 0x104 + 0x20 * n.val) = true →
    s.sclkOn = true →
    s.pairOf n.val = [n.val] →
    s.get (Reg.TIMERS.GT_CTRL.HOLD n.val) = 0 →
    ∃ t, Sys2Proof.Machine.exec (.hold src n) s = .next t ∧
      t.get (Reg.TIMERS.GT_CTRL.HOLD n.val) = 1 ∧ t.get (Reg.TIMERS.GT_STAT.HELD n.val) = 1 ∧ (t.timer n.val).shown.toNat = s.gtCnt n.val ∧ (s.slowed src (pgTIMERS + 0x104 + 0x20 * n.val)).OnlyFields [Reg.TIMERS.GT_CTRL.HOLD n.val, Reg.TIMERS.GT_STAT.HELD n.val] { t with timers := s.timers }

/-- HOLD_RELEASE with no tick caught (R508): the timer goes on. -/
def holdReleased : Prop :=
  ∀ (s : State) (src : Source) (n : Fin 16),
    s.canonical = true →
    (src == .host && s.hostWaits) = false →
    s.answers src (pgTIMERS + 0x104 + 0x20 * n.val) = true →
    s.sclkOn = true →
    s.pairOf n.val = [n.val] →
    s.get (Reg.TIMERS.GT_CTRL.HOLD n.val) = 1 →
    s.get (Reg.TIMERS.GT_STAT.CATCHUP n.val) = 0 →
    ∃ t, Sys2Proof.Machine.exec (.holdRelease src n) s = .next t ∧
      t.get (Reg.TIMERS.GT_CTRL.HOLD n.val) = 0 ∧ t.get (Reg.TIMERS.GT_STAT.HELD n.val) = 0 ∧ t.gtCnt n.val = s.gtCnt n.val ∧ (s.slowed src (pgTIMERS + 0x104 + 0x20 * n.val)).OnlyFields [Reg.TIMERS.GT_CTRL.HOLD n.val, Reg.TIMERS.GT_STAT.HELD n.val] t

/-- HOLD_RELEASE with one tick caught (R508): it is added. -/
def caughtTickAdded : Prop :=
  ∀ (s : State) (src : Source) (n : Fin 16),
    s.canonical = true →
    (src == .host && s.hostWaits) = false →
    s.answers src (pgTIMERS + 0x104 + 0x20 * n.val) = true →
    s.sclkOn = true →
    s.pairOf n.val = [n.val] →
    s.get (Reg.TIMERS.GT_CTRL.HOLD n.val) = 1 →
    s.get (Reg.TIMERS.GT_STAT.CATCHUP n.val) = 1 →
    s.get (Reg.TIMERS.GT_CTRL.RUN n.val) = 1 →
    s.gtCnt n.val ≠ (s.timer n.val).top.toNat →
    (s.gtCnt n.val + 1) % 2 ^ 32 ≠ (s.timer n.val).cmp.toNat →
    ∃ t, Sys2Proof.Machine.exec (.holdRelease src n) s = .next t ∧
      t.get (Reg.TIMERS.GT_CTRL.HOLD n.val) = 0 ∧ t.get (Reg.TIMERS.GT_STAT.HELD n.val) = 0 ∧ t.get (Reg.TIMERS.GT_STAT.CATCHUP n.val) = 0 ∧ t.gtCnt n.val = (s.gtCnt n.val + 1) % 2 ^ 32 ∧ (s.slowed src (pgTIMERS + 0x104 + 0x20 * n.val)).OnlyFields [Reg.TIMERS.GT_CTRL.HOLD n.val, Reg.TIMERS.GT_STAT.HELD n.val, Reg.TIMERS.GT_STAT.CATCHUP n.val, Reg.TIMERS.GT_CNT.VALUE n.val] t

/-- GT_CNT_READ while the timer runs unheld (R508): the last value shown, and RD_WHILE_RUN. -/
def runningCountRead : Prop :=
  ∀ (s : State) (src : Source) (n : Fin 16),
    s.canonical = true →
    (src == .host && s.hostWaits) = false →
    s.silent src = false →
    s.sclkOn = true →
    s.get (Reg.TIMERS.GT_CTRL.RUN n.val) = 1 →
    s.get (Reg.TIMERS.GT_CTRL.HOLD n.val) = 0 →
    ∃ t, Sys2Proof.Machine.exec (.gtCntRead src n) s = .next t ∧
      t.rdata.getLast? = some (src, BitVec.ofNat 32 (s.timer n.val).shown.toNat) ∧ t.get (Reg.TIMERS.GT_STAT.RD_WHILE_RUN n.val) = 1 ∧ s.OnlyFields [Reg.TIMERS.GT_STAT.RD_WHILE_RUN n.val] { t with rdata := s.rdata }

/-- GT_CNT_READ of a held or stopped timer (R508): the count. -/
def heldCountRead : Prop :=
  ∀ (s : State) (src : Source) (n : Fin 16),
    s.canonical = true →
    (src == .host && s.hostWaits) = false →
    s.silent src = false →
    s.sclkOn = true →
    s.get (Reg.TIMERS.GT_CTRL.RUN n.val) = 0 ∨ s.get (Reg.TIMERS.GT_CTRL.HOLD n.val) = 1 →
    ∃ t, Sys2Proof.Machine.exec (.gtCntRead src n) s = .next t ∧
      t.rdata.getLast? = some (src, BitVec.ofNat 32 (s.gtCnt n.val)) ∧ s.OnlyFields [] { t with rdata := s.rdata }

/-- CAPTURE (R509): the register takes the timer's count with its caught ticks. -/
def captureTaken : Prop :=
  ∀ (s : State) (i : Fin 16) (falling : Bool),
    s.canonical = true →
    s.sclkOn = true →
    s.get (Reg.TIMERS.CAP_CFG.EN i.val) = 1 →
    16 ≤ s.get (Reg.TIMERS.CAP_CFG.SRC i.val) →
    s.get (State.capPend i.val falling) = 0 →
    ∃ t, Sys2Proof.Machine.exec (.capture i falling none) s = .next t ∧
      t.get (State.capField i.val falling) = (s.gtCnt (s.get (Reg.TIMERS.CAP_CFG.TMR i.val)) + s.get (Reg.TIMERS.GT_STAT.CATCHUP (s.get (Reg.TIMERS.CAP_CFG.TMR i.val)))) % 2 ^ 32 ∧ t.get (State.capNew i.val falling) = 1 ∧ PanelOnly s pgTIMERS [State.capField i.val falling, State.capNew i.val falling] t

/-- CAPTURE in the cycle of a read of its register (R510): the read gets the old value, the new one waits. -/
def captureWaits : Prop :=
  ∀ (s : State) (i : Fin 16) (falling : Bool) (r : Source),
    s.canonical = true →
    s.sclkOn = true →
    s.get (Reg.TIMERS.CAP_CFG.EN i.val) = 1 →
    16 ≤ s.get (Reg.TIMERS.CAP_CFG.SRC i.val) →
    s.get (State.capPend i.val falling) = 0 →
    risingFrom 0 s.caps = true →
    ∃ t, Sys2Proof.Machine.exec (.capture i falling (some r)) s = .next t ∧
      t.get (State.capPend i.val falling) = 1 ∧ lookup (State.capKey i.val falling) t.caps = some (BitVec.ofNat 32 ((s.gtCnt (s.get (Reg.TIMERS.CAP_CFG.TMR i.val)) + s.get (Reg.TIMERS.GT_STAT.CATCHUP (s.get (Reg.TIMERS.CAP_CFG.TMR i.val)))) % 2 ^ 32)) ∧ t.rdata.getLast? = some (r, BitVec.ofNat 32 (s.get (State.capField i.val falling))) ∧ PanelOnly s pgTIMERS [State.capPend i.val falling] { t with rdata := s.rdata }

/-- CAPTURE while a value waits (R510): the overrun. -/
def captureOverrun : Prop :=
  ∀ (s : State) (i : Fin 16) (falling : Bool),
    s.canonical = true →
    s.sclkOn = true →
    s.get (Reg.TIMERS.CAP_CFG.EN i.val) = 1 →
    16 ≤ s.get (Reg.TIMERS.CAP_CFG.SRC i.val) →
    s.get (State.capPend i.val falling) = 1 →
    ∃ t, Sys2Proof.Machine.exec (.capture i falling none) s = .next t ∧
      t.get (State.capOvr i.val falling) = 1 ∧ (PageCause t pgTIMERS 7 ∨ (s.get Reg.TIMERS.TIRQ_EN.EN).testBit (s.get (Reg.TIMERS.CAP_CFG.TMR i.val)) = false) ∧ PanelOnly s pgTIMERS [State.capOvr i.val falling, Reg.HDR.BLK_STAT.ERR pgTIMERS] t

/-- CAPTURE of a disabled input on a GPIO pin (R505, R509): only the pin's level. -/
def captureDisabled : Prop :=
  ∀ (s : State) (i : Fin 16) (falling : Bool),
    s.canonical = true →
    s.sclkOn = true →
    s.get (Reg.TIMERS.CAP_CFG.EN i.val) = 0 →
    s.get (Reg.TIMERS.CAP_CFG.SRC i.val) < 16 →
    ∃ t, Sys2Proof.Machine.exec (.capture i falling none) s = .next t ∧
      s.OnlyFields [Reg.PANEL.GPIO_IN.PINS] t ∧ (t.get Reg.PANEL.GPIO_IN.PINS).testBit (s.get (Reg.TIMERS.CAP_CFG.SRC i.val)) = !falling

/-- PENDING_CAPTURE (R510): the waiting value enters its register. -/
def waitingCaptureEnters : Prop :=
  ∀ (s : State) (i : Fin 16) (falling : Bool) (v : Word32),
    s.canonical = true →
    s.sclkOn = true →
    risingFrom 0 s.caps = true →
    lookup (State.capKey i.val falling) s.caps = some v →
    ∃ t, Sys2Proof.Machine.exec (.pendingCapture i falling) s = .next t ∧
      t.get (State.capField i.val falling) = v.toNat ∧ t.get (State.capNew i.val falling) = 1 ∧ t.get (State.capPend i.val falling) = 0 ∧ t.caps = remove (State.capKey i.val falling) s.caps ∧ PanelOnly s pgTIMERS [State.capField i.val falling, State.capNew i.val falling, State.capPend i.val falling] t

/-- PENDING_CAPTURE with nothing waiting: nothing. -/
def noCaptureWaits : Prop :=
  ∀ (s : State) (i : Fin 16) (falling : Bool),
    lookup (State.capKey i.val falling) s.caps = none →
    ∃ t, Sys2Proof.Machine.exec (.pendingCapture i falling) s = .next t ∧
      t = s

end Sys2Proof.Machine.Claims

/-- The general timers and the capture inputs -/
def Obligations.TimersAndCapturesComplete : Prop :=
  Sys2Proof.Machine.Claims.timerCounts ∧ Sys2Proof.Machine.Claims.tickMatches ∧ Sys2Proof.Machine.Claims.matchReached ∧
    Sys2Proof.Machine.Claims.matchNotYet ∧ Sys2Proof.Machine.Claims.tickWraps ∧ Sys2Proof.Machine.Claims.wrapReached ∧
    Sys2Proof.Machine.Claims.wrapNotYet ∧ Sys2Proof.Machine.Claims.heldTickCaught ∧ Sys2Proof.Machine.Claims.stoppedTimerStays ∧
    Sys2Proof.Machine.Claims.timerHeld ∧ Sys2Proof.Machine.Claims.holdReleased ∧ Sys2Proof.Machine.Claims.caughtTickAdded ∧
    Sys2Proof.Machine.Claims.runningCountRead ∧ Sys2Proof.Machine.Claims.heldCountRead ∧ Sys2Proof.Machine.Claims.captureTaken ∧
    Sys2Proof.Machine.Claims.captureWaits ∧ Sys2Proof.Machine.Claims.captureOverrun ∧ Sys2Proof.Machine.Claims.captureDisabled ∧
    Sys2Proof.Machine.Claims.waitingCaptureEnters ∧ Sys2Proof.Machine.Claims.noCaptureWaits

/-! Remap: a write of TILE_MAP is checked, refused or accepted, and undone by a cold reset -/

namespace Sys2Proof.Machine.Claims

/-- TILE_MAP to a good, unused physical tile of the same half while the domain is OFF (R468). -/
def tileRemapped : Prop :=
  ∀ (s : State) (src : Source) (n : TileId) (phys : BitVec 9),
    s.canonical = true →
    (src == .host && s.hostWaits) = false →
    s.answers src (pgRESET + 0x400 + 4 * n.val) = true →
    s.authorised src = true →
    (s.get Reg.SECURITY.LOCK.BITS).testBit 2 = false →
    s.domState n.val = .off →
    phys.toNat ≤ 271 ∧ phys.toNat / 136 = n.val / 128 ∧ (s.get (Reg.RESET.FUSE_BAD.BAD (phys.toNat / 32))).testBit (phys.toNat % 32) = false →
    (List.range 256).all (fun m => m == n.val || s.get (Reg.RESET.TILE_MAP.PHYS m) != phys.toNat) = true →
    ∃ t, Sys2Proof.Machine.exec (.tileMap src n phys) s = .next t ∧
      t.get (Reg.RESET.TILE_MAP.PHYS n.val) = phys.toNat ∧ t.get (Reg.HDR.BLK_REASON.CODE pgRESET) = 0 ∧ t.bist.reserved.contains (0, n.val) = false ∧ (s.slowed src (pgRESET + 0x400 + 4 * n.val)).OnlyFields ([Reg.RESET.TILE_MAP.PHYS n.val] ++ reasonFields pgRESET) { t with bist := s.bist }

/-- TILE_MAP while the tile's domain is not OFF (R468): BUSY. -/
def remapBusy : Prop :=
  ∀ (s : State) (src : Source) (n : TileId) (phys : BitVec 9),
    s.canonical = true →
    (src == .host && s.hostWaits) = false →
    s.answers src (pgRESET + 0x400 + 4 * n.val) = true →
    s.authorised src = true →
    (s.get Reg.SECURITY.LOCK.BITS).testBit 2 = false →
    s.domState n.val ≠ .off →
    ∃ t, Sys2Proof.Machine.exec (.tileMap src n phys) s = .next t ∧
      ResetRefusal (s.slowed src (pgRESET + 0x400 + 4 * n.val)) rcBusy (0x400 + 4 * n.val) t

/-- TILE_MAP to a physical tile in use (R468): OVERLAP. -/
def remapOverlap : Prop :=
  ∀ (s : State) (src : Source) (n : TileId) (phys : BitVec 9),
    s.canonical = true →
    (src == .host && s.hostWaits) = false →
    s.answers src (pgRESET + 0x400 + 4 * n.val) = true →
    s.authorised src = true →
    (s.get Reg.SECURITY.LOCK.BITS).testBit 2 = false →
    s.domState n.val = .off →
    phys.toNat ≤ 271 ∧ phys.toNat / 136 = n.val / 128 ∧ (s.get (Reg.RESET.FUSE_BAD.BAD (phys.toNat / 32))).testBit (phys.toNat % 32) = false →
    (List.range 256).any (fun m => m != n.val && s.get (Reg.RESET.TILE_MAP.PHYS m) == phys.toNat) = true →
    ∃ t, Sys2Proof.Machine.exec (.tileMap src n phys) s = .next t ∧
      ResetRefusal (s.slowed src (pgRESET + 0x400 + 4 * n.val)) rcOverlap (0x400 + 4 * n.val) t

/-- TILE_MAP to the other half, to a fuse-marked tile or above 271 (R468): FIELD_RANGE. -/
def remapRange : Prop :=
  ∀ (s : State) (src : Source) (n : TileId) (phys : BitVec 9),
    s.canonical = true →
    (src == .host && s.hostWaits) = false →
    s.answers src (pgRESET + 0x400 + 4 * n.val) = true →
    s.authorised src = true →
    (s.get Reg.SECURITY.LOCK.BITS).testBit 2 = false →
    s.domState n.val = .off →
    271 < phys.toNat ∨ phys.toNat / 136 ≠ n.val / 128 ∨ (s.get (Reg.RESET.FUSE_BAD.BAD (phys.toNat / 32))).testBit (phys.toNat % 32) = true →
    ∃ t, Sys2Proof.Machine.exec (.tileMap src n phys) s = .next t ∧
      ResetRefusal (s.slowed src (pgRESET + 0x400 + 4 * n.val)) rcRange (0x400 + 4 * n.val) t

/-- TILE_MAP by another source (R62, R468). -/
def remapNotHolder : Prop :=
  ∀ (s : State) (src : Source) (n : TileId) (phys : BitVec 9),
    s.canonical = true →
    (src == .host && s.hostWaits) = false →
    s.answers src (pgRESET + 0x400 + 4 * n.val) = true →
    s.authorised src = false →
    ∃ t, Sys2Proof.Machine.exec (.tileMap src n phys) s = .next t ∧
      ResetRefusal (s.slowed src (pgRESET + 0x400 + 4 * n.val)) rcNotHolder (0x400 + 4 * n.val) t

/-- TILE_MAP under lock REMAP (R430, R468). -/
def remapLocked : Prop :=
  ∀ (s : State) (src : Source) (n : TileId) (phys : BitVec 9),
    s.canonical = true →
    (src == .host && s.hostWaits) = false →
    s.answers src (pgRESET + 0x400 + 4 * n.val) = true →
    s.authorised src = true →
    (s.get Reg.SECURITY.LOCK.BITS).testBit 2 = true →
    ∃ t, Sys2Proof.Machine.exec (.tileMap src n phys) s = .next t ∧
      ResetRefusal (s.slowed src (pgRESET + 0x400 + 4 * n.val)) rcLocked (0x400 + 4 * n.val) t

/-- COLD (R467, R468): the fused map is reloaded: with at most 8 fuse-marked tiles in each half, logical tile n is on a good physical tile of its half that n % 128 good tiles of the half come before. -/
def remapUndone : Prop :=
  ∀ (s : State) (src : Source),
    s.canonical = true →
    (src == .host && s.hostWaits) = false →
    s.answers src (pgRESET + 0x40) = true →
    resetWriter s src = true →
    ∀ h ∈ List.range 2, ((List.range 136).filter fun i => s.fuses.bad.contains (136 * h + i)).length ≤ 8 →
    ∃ t, Sys2Proof.Machine.exec (.cold src 0x5A5A) s = .next t ∧
      ∀ n ∈ List.range 256, t.get (Reg.RESET.TILE_MAP.PHYS n) / 136 = n / 128 ∧ s.fuses.bad.contains (t.get (Reg.RESET.TILE_MAP.PHYS n)) = false ∧ ((List.range (t.get (Reg.RESET.TILE_MAP.PHYS n) % 136)).filter fun i => !s.fuses.bad.contains (136 * (n / 128) + i)).length = n % 128

end Sys2Proof.Machine.Claims

/-- Remap: a write of TILE_MAP is checked, refused or accepted, and undone by a cold reset -/
def Obligations.RemapRule : Prop :=
  Sys2Proof.Machine.Claims.tileRemapped ∧ Sys2Proof.Machine.Claims.remapBusy ∧ Sys2Proof.Machine.Claims.remapOverlap ∧
    Sys2Proof.Machine.Claims.remapRange ∧ Sys2Proof.Machine.Claims.remapNotHolder ∧ Sys2Proof.Machine.Claims.remapLocked ∧
    Sys2Proof.Machine.Claims.remapUndone

/-! Detach: a unit on every path of the twin, role SOLO, no more heartbeats, in both modes -/

namespace Sys2Proof.Machine.Claims

/-- The ports on which a DETACH unit leaves (R500). -/
def detachPorts (s : State) : List Nat :=
  (if s.portUp 7 then [7] else []) ++ (if s.get Reg.TWIN.TWIN_CFG.ALT_EN = 1 ∧ s.get Reg.TWIN.TWIN_CFG.ALT_PORT ≠ 7 ∧ s.portUp (s.get Reg.TWIN.TWIN_CFG.ALT_PORT) = true then [s.get Reg.TWIN.TWIN_CFG.ALT_PORT] else [])

/-- An output is a unit on a link. -/
def isUnit : Out → Bool
  | .link .. => true
  | _ => false

/-- DETACH while the role is not SOLO (R500). -/
def detachLeaves : Prop :=
  ∀ (s : State) (src : Source),
    s.canonical = true →
    (src == .host && s.hostWaits) = false →
    s.answers src (pgTWIN + 0x48) = true →
    s.role ≠ 0 →
    s.twin.seq < 65536 →
    (detachPorts s).all (linkOpen s) = true →
    ∃ t, Sys2Proof.Machine.exec (.detach src) s = .next t ∧
      t.role = 0 ∧ (t.out.drop s.out.length).filter isUnit = (detachPorts s).zipIdx.map (fun p => twinUnit s p.1 (s.twin.seq + p.2) 4 (if s.healthy then 1 else 0) 0)

/-- DETACH while the role is SOLO (R500): no effect. -/
def detachOfSolo : Prop :=
  ∀ (s : State) (src : Source),
    (src == .host && s.hostWaits) = false →
    s.answers src (pgTWIN + 0x48) = true →
    s.role = 0 →
    ∃ t, Sys2Proof.Machine.exec (.detach src) s = .next t ∧
      t = s.slowed src (pgTWIN + 0x48)

/-- DETACH_UNIT from the twin (R499). -/
def detachReceived : Prop :=
  ∀ (s : State) (p : Fin 8) (u : TwinUnit),
    s.canonical = true →
    fromTwin s p.val u = true →
    linksIdle s p.val = true →
    ∃ t, Sys2Proof.Machine.exec (.detachUnit p u) s = .next t ∧
      t.role = 0 ∧ TwinCause t 10

/-- A SOLO module sends no heartbeat (R489, R499, R500). -/
def soloSendsNothing : Prop :=
  ∀ (s : State),
    s.role = 0 →
    ∃ t, Sys2Proof.Machine.exec (.twinHbSend) s = .next t ∧
      t = s

end Sys2Proof.Machine.Claims

/-- Detach: a unit on every path of the twin, role SOLO, no more heartbeats, in both modes -/
def Obligations.DetachRule : Prop :=
  Sys2Proof.Machine.Claims.detachLeaves ∧ Sys2Proof.Machine.Claims.detachOfSolo ∧ Sys2Proof.Machine.Claims.detachReceived ∧
    Sys2Proof.Machine.Claims.soloSendsNothing

/-! A global word: the second operation on a flag or doorbell decides; two ENDs or two EXITIFs are illegal -/

namespace Sys2Proof.Machine.Claims

/-- Two flag operations of one word on one flag that no tile sets in that cycle (R82). -/
def secondFlagOperationDecides : Prop :=
  ∀ (s : State) (f : Fin 16) (a b : Bool),
    s.canonical = true →
    s.issue.flagsSet.all (fun x => x.1 != f.val || x.2 == 256) = true →
    ((s.runGops (if a then .setflag f.val else .clrflag f.val) (if b then .setflag f.val else .clrflag f.val)).get Reg.SNET.FLAGS.FLAG).testBit f.val = b

/-- Two DBCLR of one doorbell bit (R82). -/
def doorbellClearedTwice : Prop :=
  ∀ (s : State) (b : Fin 32),
    s.canonical = true →
    ((s.runGops (.dbclr b.val) (.dbclr b.val)).get Reg.ISSUE.DBELL.BELL).testBit b.val = false

/-- Two ENDs (R82). -/
def twoEndsIllegal : Prop :=
  ∀ (w : Word128),
    decodeGop (bits w.toNat 63 32) = some .stop →
    decodeGop (bits w.toNat 31 0) = some .stop →
    decodeGlobal w = none

/-- Two EXITIFs (R82). -/
def twoExitifsIllegal : Prop :=
  ∀ (w : Word128) (c a c' a' : Nat),
    decodeGop (bits w.toNat 63 32) = some (.exitif c a) →
    decodeGop (bits w.toNat 31 0) = some (.exitif c' a') →
    decodeGlobal w = none

end Sys2Proof.Machine.Claims

/-- A global word: the second operation on a flag or doorbell decides; two ENDs or two EXITIFs are illegal -/
def Obligations.GlobalWordRule : Prop :=
  Sys2Proof.Machine.Claims.secondFlagOperationDecides ∧ Sys2Proof.Machine.Claims.doorbellClearedTwice ∧ Sys2Proof.Machine.Claims.twoEndsIllegal ∧
    Sys2Proof.Machine.Claims.twoExitifsIllegal

/-! A step carries out the command at the front of the queue; an empty queue idles -/

/-- A step carries out the command at the front of the queue with the queue's rest; that an empty queue idles is the model's choice (log entry 1). -/
def Obligations.StepRunsFront : Prop :=
  (∀ (c : Sys2Proof.Instr) (rest : List Sys2Proof.Instr) (s : Sys2Proof.Machine.State),
    Sys2Proof.Machine.step { s with pending := c :: rest } = Sys2Proof.Machine.exec c { s with pending := rest })
  ∧ ∀ s : Sys2Proof.Machine.State, s.pending = [] → Sys2Proof.Machine.step s = .next s

/-! Every command answers a next state, in every state -/

/-- No command stops the module: exec answers a next state for every command in every state. -/
def Obligations.EveryCommandCompletes : Prop :=
  ∀ (c : Sys2Proof.Instr) (s : Sys2Proof.Machine.State), ∃ t, Sys2Proof.Machine.exec c s = .next t

/-! No command changes the queue of waiting commands -/

/-- The queue of waiting commands is the sender's: no command changes it (log entry 1). -/
def Obligations.CommandsLeaveTheQueue : Prop :=
  ∀ (c : Sys2Proof.Instr) (s t : Sys2Proof.Machine.State), Sys2Proof.Machine.exec c s = .next t → t.pending = s.pending

/-! Every step keeps the canonical form of memory, registers, tiles and the other sparse stores -/

/-- Every step keeps the canonical form. -/
def Obligations.CanonicalFormKept : Prop :=
  ∀ s t : Sys2Proof.Machine.State, s.canonical = true → Sys2Proof.Machine.step s = .next t → t.canonical = true

/-! The state after reset: domains, clocks, token, memory, registers, queue -/

/-- The state after reset (R460, R400, R23); unlisted memory and the fuses' values are the model's choice (log entries 2 and 6). -/
def Obligations.StateAfterReset : Prop :=
  let s := Sys2Proof.Machine.State.reset
  (∀ d, d < 323 → s.domState d = .off ∧ s.votes d = 0) ∧ s.get Sys2Proof.Machine.Reg.CLOCK.CLK_STAT.WEST_EFF = 2 ∧ s.get Sys2Proof.Machine.Reg.CLOCK.CLK_STAT.EAST_EFF = 2
    ∧ s.get Sys2Proof.Machine.Reg.CROWN.TOKEN.HOLDER = 0 ∧ (∀ f : Sys2Proof.Machine.Field, s.get f = f.reset % 2 ^ f.width) ∧ s.mem = [] ∧ s.pending = [] ∧ s.canonical = true

/-! Bytes written to memory read back; every other byte reads as before -/

/-- Bytes written read back, every other byte reads as before, and the memory keeps its canonical form. -/
def Obligations.BytesReadAfterWrite : Prop :=
  ∀ (s : Sys2Proof.Machine.State) (a : Nat) (bs : List Sys2Proof.Byte), Sys2Proof.Machine.Memory.wf s.mem = true →
    (s.setBytes a bs).bytes a bs.length = bs ∧ s.OnlyBytes a bs.length (s.setBytes a bs) ∧ Sys2Proof.Machine.Memory.wf (s.setBytes a bs).mem = true

/-! A register field written reads back its low bits; every other field keeps its value -/

/-- A field written reads back; nothing else changes. -/
def Obligations.FieldsReadAfterWrite : Prop :=
  ∀ (s : Sys2Proof.Machine.State) (f : Sys2Proof.Machine.Field) (v : Nat), s.canonical = true → f.width ≤ 64 →
    (s.put f v).get f = v % 2 ^ f.width ∧ s.OnlyFields [f] (s.put f v) ∧ (s.put f v).canonical = true

/-! The scalar register s0 reads zero and discards writes; the others read back -/

/-- s0 is hard-wired to zero; the other scalar registers read back what is written. -/
def Obligations.ScalarZeroRegister : Prop :=
  ∀ (s : Sys2Proof.Machine.State) (n r v : Nat), s.canonical = true →
    s.sreg n 0 = 0 ∧ s.setSreg n 0 v = s ∧ (r ≠ 0 → (s.setSreg n r v).sreg n r = v % 2 ^ 64)
      ∧ ∀ m q, m ≠ n ∨ q ≠ r → (s.setSreg n r v).sreg m q = s.sreg m q

/-! Every scalar operation, and every pair of compact operations, decodes from its own word -/

/-- SSLOT (R121): decoding an encoded operation, or pair of compact operations, gives it back. -/
def Obligations.ScalarWordsRoundTrip : Prop :=
  (∀ (n : Sys2Proof.TileId) (i : Sys2Proof.Instr) (w : Nat), i.wf = true → Sys2Proof.Machine.encodeScalar n i = some w → w < 2 ^ 32 ∧ Sys2Proof.Machine.decodeScalar n w = some [i])
  ∧ (∀ (n : Sys2Proof.TileId) (i j : Sys2Proof.Instr) (w : Nat), Sys2Proof.Machine.compactDest i ≠ Sys2Proof.Machine.compactDest j ∨ Sys2Proof.Machine.compactDest i = 0 →
      Sys2Proof.Machine.encodePair n i j = some w → w < 2 ^ 32 ∧ Sys2Proof.Machine.decodeScalar n w = some [i, j])
  ∧ ∀ n : Sys2Proof.TileId, Sys2Proof.Machine.decodeScalar n 0 = some []

/-! Every vector operation decodes from its own word -/

/-- VSLOT (R124 to R126): decoding an encoded operation gives it back. -/
def Obligations.VectorWordsRoundTrip : Prop :=
  (∀ (n : Sys2Proof.TileId) (i : Sys2Proof.Instr) (w : Nat), i.wf = true → Sys2Proof.Machine.encodeVector n i = some w → w < 2 ^ 32 ∧ Sys2Proof.Machine.decodeVector n w = some [i])
  ∧ ∀ n : Sys2Proof.TileId, Sys2Proof.Machine.decodeVector n 0 = some []

/-! Every array operation and every move, message and remote operation decodes from its own word -/

/-- ASLOT and MSLOT (R159, R80): decoding an encoded operation gives it back. -/
def Obligations.ArrayAndMoveWordsRoundTrip : Prop :=
  (∀ (n : Sys2Proof.TileId) (i : Sys2Proof.Instr) (w : Nat), Sys2Proof.Machine.encodeArray n i = some w → w < 2 ^ 16 ∧ Sys2Proof.Machine.decodeArray n w = some [i])
  ∧ (∀ (n : Sys2Proof.TileId) (i : Sys2Proof.Instr) (w : Nat), i.wf = true → Sys2Proof.Machine.encodeMslot n i = some w → w < 2 ^ 32 ∧ Sys2Proof.Machine.decodeMslot n w = some [i])
  ∧ ∀ n : Sys2Proof.TileId, Sys2Proof.Machine.decodeArray n 0 = some [] ∧ Sys2Proof.Machine.decodeMslot n 0 = some []

/-! A lane word decodes to its four slots and its loop operation, a global word to its wait and its two operations -/

namespace Sys2Proof.Machine.Claims

/-- An operation is EXITIF. -/
def isExitif : Gop → Bool
  | .exitif .. => true
  | _ => false

/-- A wait's condition and argument lie in their fields and the condition exists (R85). -/
def waitWf (g : GWord) : Bool :=
  match g.wait with
  | some (c, a) => condOk c && decide (a < 2 ^ 24)
  | none => true

end Sys2Proof.Machine.Claims

/-- The lane word and the global word (R80 to R85): decoding what is encoded gives it back. -/
def Obligations.LaneAndGlobalWordsRoundTrip : Prop :=
  (∀ (n : Sys2Proof.TileId) (l : Sys2Proof.Machine.Lop) (c v a m : Nat) (cs vs as ms : List Sys2Proof.Instr), l.wf = true → c < 2 ^ 32 → v < 2 ^ 32 → a < 2 ^ 16 → m < 2 ^ 32 →
      Sys2Proof.Machine.decodeScalar n c = some cs → Sys2Proof.Machine.decodeVector n v = some vs → Sys2Proof.Machine.decodeArray n a = some as → Sys2Proof.Machine.decodeMslot n m = some ms →
      Sys2Proof.Machine.decodeLane n (Sys2Proof.Machine.encodeLane l c v a m) = some (as ++ vs ++ cs ++ ms)
        ∧ Sys2Proof.Machine.decodeCtl (Sys2Proof.Machine.encodeLane l c v a m) = some l)
  ∧ ∀ (l : Sys2Proof.Machine.Lop) (g : Sys2Proof.Machine.GWord), l.wf = true → g.gop0.wf = true → g.gop1.wf = true → Sys2Proof.Machine.Claims.waitWf g = true →
      (g.gop0 ≠ .stop ∨ g.gop1 ≠ .stop) → (Sys2Proof.Machine.Claims.isExitif g.gop0 = false ∨ Sys2Proof.Machine.Claims.isExitif g.gop1 = false) →
      Sys2Proof.Machine.decodeGlobal (Sys2Proof.Machine.encodeGlobal l g) = some g ∧ Sys2Proof.Machine.decodeCtl (Sys2Proof.Machine.encodeGlobal l g) = some l

/-! A few slot words written out from the spec's encodings decode to their operations -/

/-- Words written out from the tables of R80, R121, R124, R125 and R159. -/
def Obligations.SlotWordsDecode : Prop :=
  Sys2Proof.Machine.decodeScalar 3 0b00000010001100100001010000000000 = some [.add 3 3 4 5]
  ∧ Sys2Proof.Machine.decodeScalar 3 0b00100000000100010111111111111111 = some [.addi 3 1 2 0x7FFF]
  ∧ Sys2Proof.Machine.decodeScalar 3 0b10010001001000110111010001010000 = some [.compactSub 3 1 2 3, .compactMov 3 4 5]
  ∧ Sys2Proof.Machine.decodeScalar 3 0b01111100000000000000000000000000 = none
  ∧ Sys2Proof.Machine.decodeVector 3 0b00000101000010001000011001000000 = some [.vadd 3 .bf16 1 2 3 1]
  ∧ Sys2Proof.Machine.decodeVector 3 0b10100000000010001010111111111111 = some [.vld 3 .fp32 1 2 5 0x7FF]
  ∧ Sys2Proof.Machine.decodeVector 3 0b10101100011110001000000000000000 = some [.vsetk 3 15 2]
  ∧ Sys2Proof.Machine.decodeVector 3 0b00000111000010001000011000000000 = none
  ∧ Sys2Proof.Machine.decodeArray 3 0b0011010110000001 = some [.mac 3 5 0x81]
  ∧ Sys2Proof.Machine.decodeArray 3 0b0010000000000000 = some [.swapw 3]
  ∧ Sys2Proof.Machine.decodeMslot 3 0b00100100001010000100001100000000 = some [.qsend 3 1 1 2 2 3 0]
  ∧ Sys2Proof.Machine.decodeMslot 3 0b00110100001000000110000010000000 = some [.peek 3 1 0 3 1]
  ∧ Sys2Proof.Machine.decodeMslot 3 0b01010000000000000000000000111111 = some [.arrive 3 63]
  ∧ Sys2Proof.Machine.decodeMslot 3 0b01100000000000000000000100001111 = some [.flag 3 15 true]
  ∧ Sys2Proof.Machine.decodeMslot 3 0b01110101000000100010000110000000 = some [.atomic 3 4 1 2 3]
  ∧ Sys2Proof.Machine.decodeMslot 3 0b10000000000000000000000000000000 = none

/-! A B-net header and its 128 bits give each other back -/

/-- A header packed into 128 bits reads back field by field, and 128 bits read as a header pack to themselves (R240). -/
def Obligations.HeadersRoundTrip : Prop :=
  (∀ h : Sys2Proof.Machine.Hdr, h.addr < 2 ^ 48 → h.tag < 2 ^ 12 → h.sizeM1 < 2 ^ 12 → h.opc < 2 ^ 4 → h.status < 2 ^ 4 → h.dmod < 2 ^ 12 → h.smod < 2 ^ 12 → h.ep < 2 ^ 9 → h.aux < 2 ^ 15 →
    h.pack < 2 ^ 128 ∧ Sys2Proof.Machine.Hdr.unpack h.pack = h)
  ∧ ∀ n : Nat, n < 2 ^ 128 → (Sys2Proof.Machine.Hdr.unpack n).pack = n
end

