-- ==== Sys2Proof/Laws/Store.lean ====
section
/-! SUPPORT. Laws of the sparse stores: what is read after a write, and that every operation keeps the keys rising. -/
namespace Sys2Proof.Machine

variable {α : Type}

@[simp] theorem lookup_insert_same (k : Nat) (v : α) (l : List (Nat × α)) : lookup k (insert k v l) = some v := by
  induction l with
  | nil => simp [insert, lookup]
  | cons c t ih =>
    obtain ⟨k', v'⟩ := c
    simp only [insert]
    split
    · simp [lookup]
    · split
      · simp [lookup]
      · simp only [lookup]; rw [if_neg (by assumption)]; exact ih

theorem lookup_insert_ne {k j : Nat} (h : j ≠ k) (v : α) (l : List (Nat × α)) : lookup j (insert k v l) = lookup j l := by
  induction l with
  | nil => simp [insert, lookup, Ne.symm h]
  | cons c t ih =>
    obtain ⟨k', v'⟩ := c
    simp only [insert]
    split
    · simp [lookup, Ne.symm h]
    · split
      · rename_i hk; subst hk; simp [lookup, Ne.symm h]
      · simp [lookup, ih]

theorem lookup_remove_ne {k j : Nat} (h : j ≠ k) (l : List (Nat × α)) : lookup j (remove k l) = lookup j l := by
  induction l with
  | nil => rfl
  | cons c t ih =>
    obtain ⟨k', v'⟩ := c
    simp only [remove]
    split
    · rename_i hk; subst hk; simp [lookup, Ne.symm h]
    · simp [lookup, ih]

theorem risingFrom_mono {a b : Nat} (h : a ≤ b) {l : List (Nat × α)} (hl : risingFrom b l = true) : risingFrom a l = true := by
  cases l with
  | nil => rfl
  | cons c t =>
    simp only [risingFrom, Bool.and_eq_true, decide_eq_true_eq] at *
    exact ⟨by omega, hl.2⟩

theorem lookup_below {b k : Nat} (h : k < b) {l : List (Nat × α)} (hl : risingFrom b l = true) : lookup k l = none := by
  induction l generalizing b with
  | nil => rfl
  | cons c t ih =>
    simp only [risingFrom, Bool.and_eq_true, decide_eq_true_eq] at hl
    simp only [lookup]
    rw [if_neg (by omega)]
    exact ih (by omega) hl.2

theorem lookup_remove_same {b : Nat} (k : Nat) {l : List (Nat × α)} (hl : risingFrom b l = true) : lookup k (remove k l) = none := by
  induction l generalizing b with
  | nil => rfl
  | cons c t ih =>
    obtain ⟨k', v'⟩ := c
    simp only [risingFrom, Bool.and_eq_true, decide_eq_true_eq] at hl
    simp only [remove]
    split
    · rename_i hk; subst hk; exact lookup_below (by omega) hl.2
    · rename_i hk; simp only [lookup]; rw [if_neg hk]; exact ih hl.2

theorem risingFrom_insert {b k : Nat} (h : b ≤ k) (v : α) {l : List (Nat × α)} (hl : risingFrom b l = true) :
    risingFrom b (insert k v l) = true := by
  induction l generalizing b with
  | nil => simp [insert, risingFrom, h]
  | cons c t ih =>
    obtain ⟨k', v'⟩ := c
    simp only [risingFrom, Bool.and_eq_true, decide_eq_true_eq] at hl
    simp only [insert]
    split
    · simp only [risingFrom, Bool.and_eq_true, decide_eq_true_eq]; exact ⟨h, by omega, hl.2⟩
    · split
      · rename_i hk; subst hk; simp only [risingFrom, Bool.and_eq_true, decide_eq_true_eq]; exact ⟨h, hl.2⟩
      · simp only [risingFrom, Bool.and_eq_true, decide_eq_true_eq]; exact ⟨hl.1, ih (by omega) hl.2⟩

theorem risingFrom_remove {b : Nat} (k : Nat) {l : List (Nat × α)} (hl : risingFrom b l = true) : risingFrom b (remove k l) = true := by
  induction l generalizing b with
  | nil => rfl
  | cons c t ih =>
    obtain ⟨k', v'⟩ := c
    simp only [risingFrom, Bool.and_eq_true, decide_eq_true_eq] at hl
    simp only [remove]
    split
    · exact risingFrom_mono (by omega) hl.2
    · simp only [risingFrom, Bool.and_eq_true, decide_eq_true_eq]; exact ⟨hl.1, ih hl.2⟩

theorem risingFrom_filter {b : Nat} (p : Nat × α → Bool) {l : List (Nat × α)} (hl : risingFrom b l = true) : risingFrom b (l.filter p) = true := by
  induction l generalizing b with
  | nil => rfl
  | cons c t ih =>
    simp only [risingFrom, Bool.and_eq_true, decide_eq_true_eq] at hl
    simp only [List.filter]
    split
    · simp only [risingFrom, Bool.and_eq_true, decide_eq_true_eq]; exact ⟨hl.1, ih hl.2⟩
    · exact risingFrom_mono (by omega) (ih hl.2)

theorem risingFrom_setAt [DecidableEq α] (d : α) (k : Nat) (v : α) {l : List (Nat × α)} (hl : risingFrom 0 l = true) :
    risingFrom 0 (setAt d k v l) = true := by
  unfold setAt; split
  · exact risingFrom_remove k hl
  · exact risingFrom_insert (Nat.zero_le k) v hl

/-- What is read where something has been written. -/
theorem getAt_setAt_same [DecidableEq α] (d : α) (k : Nat) (v : α) {l : List (Nat × α)} (hl : risingFrom 0 l = true) :
    getAt d k (setAt d k v l) = v := by
  unfold getAt setAt; split
  · rename_i h; subst h; rw [lookup_remove_same k hl]; rfl
  · simp

/-- What is read elsewhere. -/
theorem getAt_setAt_ne [DecidableEq α] (d : α) {k j : Nat} (h : j ≠ k) (v : α) (l : List (Nat × α)) :
    getAt d j (setAt d k v l) = getAt d j l := by
  unfold getAt setAt; split
  · rw [lookup_remove_ne h]
  · rw [lookup_insert_ne h]

theorem mem_insert {k : Nat} {v : α} {l : List (Nat × α)} {c : Nat × α} (h : c ∈ insert k v l) : c = (k, v) ∨ c ∈ l := by
  induction l with
  | nil => simpa [insert] using h
  | cons d t ih =>
    obtain ⟨k', v'⟩ := d
    simp only [insert] at h
    split at h
    · simpa using h
    · split at h
      · rcases List.mem_cons.1 h with h | h
        · exact .inl h
        · exact .inr (List.mem_cons_of_mem _ h)
      · rcases List.mem_cons.1 h with h | h
        · exact .inr (h ▸ List.mem_cons_self)
        · exact (ih h).imp id (List.mem_cons_of_mem _)

theorem mem_remove {k : Nat} {l : List (Nat × α)} {c : Nat × α} (h : c ∈ remove k l) : c ∈ l := by
  induction l with
  | nil => exact h
  | cons d t ih =>
    obtain ⟨k', v'⟩ := d
    simp only [remove] at h
    split at h
    · exact List.mem_cons_of_mem _ h
    · rcases List.mem_cons.1 h with h | h
      · exact h ▸ List.mem_cons_self
      · exact List.mem_cons_of_mem _ (ih h)

theorem mem_setAt [DecidableEq α] {d v : α} {k : Nat} {l : List (Nat × α)} {c : Nat × α} (h : c ∈ setAt d k v l) :
    (c = (k, v) ∧ v ≠ d) ∨ c ∈ l := by
  unfold setAt at h; split at h
  · exact .inr (mem_remove h)
  · rename_i hv; exact (mem_insert h).imp (fun e => ⟨e, hv⟩) id

theorem lookup_mem {k : Nat} {v : α} {l : List (Nat × α)} (h : lookup k l = some v) : (k, v) ∈ l := by
  induction l with
  | nil => simp [lookup] at h
  | cons c t ih =>
    obtain ⟨k', v'⟩ := c
    simp only [lookup] at h
    split at h
    · rename_i hk; subst hk; cases h; exact List.mem_cons_self
    · exact List.mem_cons_of_mem _ (ih h)

end Sys2Proof.Machine
end

