-- ==== Sys2Proof/Laws/State.lean ====
section
/-! SUPPORT. What each named operation over the state leaves unchanged, one lemma per operation and field of State; and what a register field reads
after a write. -/
namespace Sys2Proof.Machine.State

/-! put -/
@[simp] theorem put_shadows (s : State) (f : Field) (v : Nat) : (s.put f v).shadows = s.shadows := rfl
@[simp] theorem put_checking (s : State) (f : Field) (v : Nat) : (s.put f v).checking = s.checking := rfl
@[simp] theorem put_slow (s : State) (f : Field) (v : Nat) : (s.put f v).slow = s.slow := rfl
@[simp] theorem put_rdata (s : State) (f : Field) (v : Nat) : (s.put f v).rdata = s.rdata := rfl
@[simp] theorem put_bridge (s : State) (f : Field) (v : Nat) : (s.put f v).bridge = s.bridge := rfl
@[simp] theorem put_mem (s : State) (f : Field) (v : Nat) : (s.put f v).mem = s.mem := rfl
@[simp] theorem put_undef (s : State) (f : Field) (v : Nat) : (s.put f v).undef = s.undef := rfl
@[simp] theorem put_flips (s : State) (f : Field) (v : Nat) : (s.put f v).flips = s.flips := rfl
@[simp] theorem put_writebacks (s : State) (f : Field) (v : Nat) : (s.put f v).writebacks = s.writebacks := rfl
@[simp] theorem put_bankTo (s : State) (f : Field) (v : Nat) : (s.put f v).bankTo = s.bankTo := rfl
@[simp] theorem put_scrub (s : State) (f : Field) (v : Nat) : (s.put f v).scrub = s.scrub := rfl
@[simp] theorem put_power (s : State) (f : Field) (v : Nat) : (s.put f v).power = s.power := rfl
@[simp] theorem put_issue (s : State) (f : Field) (v : Nat) : (s.put f v).issue = s.issue := rfl
@[simp] theorem put_tiles (s : State) (f : Field) (v : Nat) : (s.put f v).tiles = s.tiles := rfl
@[simp] theorem put_crown (s : State) (f : Field) (v : Nat) : (s.put f v).crown = s.crown := rfl
@[simp] theorem put_flash (s : State) (f : Field) (v : Nat) : (s.put f v).flash = s.flash := rfl
@[simp] theorem put_fuses (s : State) (f : Field) (v : Nat) : (s.put f v).fuses = s.fuses := rfl
@[simp] theorem put_bist (s : State) (f : Field) (v : Nat) : (s.put f v).bist = s.bist := rfl
@[simp] theorem put_tfw (s : State) (f : Field) (v : Nat) : (s.put f v).tfw = s.tfw := rfl
@[simp] theorem put_msixPending (s : State) (f : Field) (v : Nat) : (s.put f v).msixPending = s.msixPending := rfl
@[simp] theorem put_causes (s : State) (f : Field) (v : Nat) : (s.put f v).causes = s.causes := rfl
@[simp] theorem put_rowfix (s : State) (f : Field) (v : Nat) : (s.put f v).rowfix = s.rowfix := rfl
@[simp] theorem put_cclkW (s : State) (f : Field) (v : Nat) : (s.put f v).cclkW = s.cclkW := rfl
@[simp] theorem put_cclkE (s : State) (f : Field) (v : Nat) : (s.put f v).cclkE = s.cclkE := rfl
@[simp] theorem put_scale (s : State) (f : Field) (v : Nat) : (s.put f v).scale = s.scale := rfl
@[simp] theorem put_bar (s : State) (f : Field) (v : Nat) : (s.put f v).bar = s.bar := rfl
@[simp] theorem put_net (s : State) (f : Field) (v : Nat) : (s.put f v).net = s.net := rfl
@[simp] theorem put_links (s : State) (f : Field) (v : Nat) : (s.put f v).links = s.links := rfl
@[simp] theorem put_tokens (s : State) (f : Field) (v : Nat) : (s.put f v).tokens = s.tokens := rfl
@[simp] theorem put_gone (s : State) (f : Field) (v : Nat) : (s.put f v).gone = s.gone := rfl
@[simp] theorem put_step (s : State) (f : Field) (v : Nat) : (s.put f v).step = s.step := rfl
@[simp] theorem put_ctx (s : State) (f : Field) (v : Nat) : (s.put f v).ctx = s.ctx := rfl
@[simp] theorem put_twin (s : State) (f : Field) (v : Nat) : (s.put f v).twin = s.twin := rfl
@[simp] theorem put_qnet (s : State) (f : Field) (v : Nat) : (s.put f v).qnet = s.qnet := rfl
@[simp] theorem put_movers (s : State) (f : Field) (v : Nat) : (s.put f v).movers = s.movers := rfl
@[simp] theorem put_posts (s : State) (f : Field) (v : Nat) : (s.put f v).posts = s.posts := rfl
@[simp] theorem put_chk (s : State) (f : Field) (v : Nat) : (s.put f v).chk = s.chk := rfl
@[simp] theorem put_train (s : State) (f : Field) (v : Nat) : (s.put f v).train = s.train := rfl
@[simp] theorem put_pcie (s : State) (f : Field) (v : Nat) : (s.put f v).pcie = s.pcie := rfl
@[simp] theorem put_timers (s : State) (f : Field) (v : Nat) : (s.put f v).timers = s.timers := rfl
@[simp] theorem put_caps (s : State) (f : Field) (v : Nat) : (s.put f v).caps = s.caps := rfl
@[simp] theorem put_panel (s : State) (f : Field) (v : Nat) : (s.put f v).panel = s.panel := rfl
@[simp] theorem put_out (s : State) (f : Field) (v : Nat) : (s.put f v).out = s.out := rfl
@[simp] theorem put_fresh (s : State) (f : Field) (v : Nat) : (s.put f v).fresh = s.fresh := rfl
@[simp] theorem put_pending (s : State) (f : Field) (v : Nat) : (s.put f v).pending = s.pending := rfl

/-! add -/
@[simp] theorem add_shadows (s : State) (f : Field) (v : Nat) : (s.add f v).shadows = s.shadows := rfl
@[simp] theorem add_checking (s : State) (f : Field) (v : Nat) : (s.add f v).checking = s.checking := rfl
@[simp] theorem add_slow (s : State) (f : Field) (v : Nat) : (s.add f v).slow = s.slow := rfl
@[simp] theorem add_rdata (s : State) (f : Field) (v : Nat) : (s.add f v).rdata = s.rdata := rfl
@[simp] theorem add_bridge (s : State) (f : Field) (v : Nat) : (s.add f v).bridge = s.bridge := rfl
@[simp] theorem add_mem (s : State) (f : Field) (v : Nat) : (s.add f v).mem = s.mem := rfl
@[simp] theorem add_undef (s : State) (f : Field) (v : Nat) : (s.add f v).undef = s.undef := rfl
@[simp] theorem add_flips (s : State) (f : Field) (v : Nat) : (s.add f v).flips = s.flips := rfl
@[simp] theorem add_writebacks (s : State) (f : Field) (v : Nat) : (s.add f v).writebacks = s.writebacks := rfl
@[simp] theorem add_bankTo (s : State) (f : Field) (v : Nat) : (s.add f v).bankTo = s.bankTo := rfl
@[simp] theorem add_scrub (s : State) (f : Field) (v : Nat) : (s.add f v).scrub = s.scrub := rfl
@[simp] theorem add_power (s : State) (f : Field) (v : Nat) : (s.add f v).power = s.power := rfl
@[simp] theorem add_issue (s : State) (f : Field) (v : Nat) : (s.add f v).issue = s.issue := rfl
@[simp] theorem add_tiles (s : State) (f : Field) (v : Nat) : (s.add f v).tiles = s.tiles := rfl
@[simp] theorem add_crown (s : State) (f : Field) (v : Nat) : (s.add f v).crown = s.crown := rfl
@[simp] theorem add_flash (s : State) (f : Field) (v : Nat) : (s.add f v).flash = s.flash := rfl
@[simp] theorem add_fuses (s : State) (f : Field) (v : Nat) : (s.add f v).fuses = s.fuses := rfl
@[simp] theorem add_bist (s : State) (f : Field) (v : Nat) : (s.add f v).bist = s.bist := rfl
@[simp] theorem add_tfw (s : State) (f : Field) (v : Nat) : (s.add f v).tfw = s.tfw := rfl
@[simp] theorem add_msixPending (s : State) (f : Field) (v : Nat) : (s.add f v).msixPending = s.msixPending := rfl
@[simp] theorem add_causes (s : State) (f : Field) (v : Nat) : (s.add f v).causes = s.causes := rfl
@[simp] theorem add_rowfix (s : State) (f : Field) (v : Nat) : (s.add f v).rowfix = s.rowfix := rfl
@[simp] theorem add_cclkW (s : State) (f : Field) (v : Nat) : (s.add f v).cclkW = s.cclkW := rfl
@[simp] theorem add_cclkE (s : State) (f : Field) (v : Nat) : (s.add f v).cclkE = s.cclkE := rfl
@[simp] theorem add_scale (s : State) (f : Field) (v : Nat) : (s.add f v).scale = s.scale := rfl
@[simp] theorem add_bar (s : State) (f : Field) (v : Nat) : (s.add f v).bar = s.bar := rfl
@[simp] theorem add_net (s : State) (f : Field) (v : Nat) : (s.add f v).net = s.net := rfl
@[simp] theorem add_links (s : State) (f : Field) (v : Nat) : (s.add f v).links = s.links := rfl
@[simp] theorem add_tokens (s : State) (f : Field) (v : Nat) : (s.add f v).tokens = s.tokens := rfl
@[simp] theorem add_gone (s : State) (f : Field) (v : Nat) : (s.add f v).gone = s.gone := rfl
@[simp] theorem add_step (s : State) (f : Field) (v : Nat) : (s.add f v).step = s.step := rfl
@[simp] theorem add_ctx (s : State) (f : Field) (v : Nat) : (s.add f v).ctx = s.ctx := rfl
@[simp] theorem add_twin (s : State) (f : Field) (v : Nat) : (s.add f v).twin = s.twin := rfl
@[simp] theorem add_qnet (s : State) (f : Field) (v : Nat) : (s.add f v).qnet = s.qnet := rfl
@[simp] theorem add_movers (s : State) (f : Field) (v : Nat) : (s.add f v).movers = s.movers := rfl
@[simp] theorem add_posts (s : State) (f : Field) (v : Nat) : (s.add f v).posts = s.posts := rfl
@[simp] theorem add_chk (s : State) (f : Field) (v : Nat) : (s.add f v).chk = s.chk := rfl
@[simp] theorem add_train (s : State) (f : Field) (v : Nat) : (s.add f v).train = s.train := rfl
@[simp] theorem add_pcie (s : State) (f : Field) (v : Nat) : (s.add f v).pcie = s.pcie := rfl
@[simp] theorem add_timers (s : State) (f : Field) (v : Nat) : (s.add f v).timers = s.timers := rfl
@[simp] theorem add_caps (s : State) (f : Field) (v : Nat) : (s.add f v).caps = s.caps := rfl
@[simp] theorem add_panel (s : State) (f : Field) (v : Nat) : (s.add f v).panel = s.panel := rfl
@[simp] theorem add_out (s : State) (f : Field) (v : Nat) : (s.add f v).out = s.out := rfl
@[simp] theorem add_fresh (s : State) (f : Field) (v : Nat) : (s.add f v).fresh = s.fresh := rfl
@[simp] theorem add_pending (s : State) (f : Field) (v : Nat) : (s.add f v).pending = s.pending := rfl

/-! bump -/
@[simp] theorem bump_shadows (s : State) (f : Field) : (s.bump f).shadows = s.shadows := rfl
@[simp] theorem bump_checking (s : State) (f : Field) : (s.bump f).checking = s.checking := rfl
@[simp] theorem bump_slow (s : State) (f : Field) : (s.bump f).slow = s.slow := rfl
@[simp] theorem bump_rdata (s : State) (f : Field) : (s.bump f).rdata = s.rdata := rfl
@[simp] theorem bump_bridge (s : State) (f : Field) : (s.bump f).bridge = s.bridge := rfl
@[simp] theorem bump_mem (s : State) (f : Field) : (s.bump f).mem = s.mem := rfl
@[simp] theorem bump_undef (s : State) (f : Field) : (s.bump f).undef = s.undef := rfl
@[simp] theorem bump_flips (s : State) (f : Field) : (s.bump f).flips = s.flips := rfl
@[simp] theorem bump_writebacks (s : State) (f : Field) : (s.bump f).writebacks = s.writebacks := rfl
@[simp] theorem bump_bankTo (s : State) (f : Field) : (s.bump f).bankTo = s.bankTo := rfl
@[simp] theorem bump_scrub (s : State) (f : Field) : (s.bump f).scrub = s.scrub := rfl
@[simp] theorem bump_power (s : State) (f : Field) : (s.bump f).power = s.power := rfl
@[simp] theorem bump_issue (s : State) (f : Field) : (s.bump f).issue = s.issue := rfl
@[simp] theorem bump_tiles (s : State) (f : Field) : (s.bump f).tiles = s.tiles := rfl
@[simp] theorem bump_crown (s : State) (f : Field) : (s.bump f).crown = s.crown := rfl
@[simp] theorem bump_flash (s : State) (f : Field) : (s.bump f).flash = s.flash := rfl
@[simp] theorem bump_fuses (s : State) (f : Field) : (s.bump f).fuses = s.fuses := rfl
@[simp] theorem bump_bist (s : State) (f : Field) : (s.bump f).bist = s.bist := rfl
@[simp] theorem bump_tfw (s : State) (f : Field) : (s.bump f).tfw = s.tfw := rfl
@[simp] theorem bump_msixPending (s : State) (f : Field) : (s.bump f).msixPending = s.msixPending := rfl
@[simp] theorem bump_causes (s : State) (f : Field) : (s.bump f).causes = s.causes := rfl
@[simp] theorem bump_rowfix (s : State) (f : Field) : (s.bump f).rowfix = s.rowfix := rfl
@[simp] theorem bump_cclkW (s : State) (f : Field) : (s.bump f).cclkW = s.cclkW := rfl
@[simp] theorem bump_cclkE (s : State) (f : Field) : (s.bump f).cclkE = s.cclkE := rfl
@[simp] theorem bump_scale (s : State) (f : Field) : (s.bump f).scale = s.scale := rfl
@[simp] theorem bump_bar (s : State) (f : Field) : (s.bump f).bar = s.bar := rfl
@[simp] theorem bump_net (s : State) (f : Field) : (s.bump f).net = s.net := rfl
@[simp] theorem bump_links (s : State) (f : Field) : (s.bump f).links = s.links := rfl
@[simp] theorem bump_tokens (s : State) (f : Field) : (s.bump f).tokens = s.tokens := rfl
@[simp] theorem bump_gone (s : State) (f : Field) : (s.bump f).gone = s.gone := rfl
@[simp] theorem bump_step (s : State) (f : Field) : (s.bump f).step = s.step := rfl
@[simp] theorem bump_ctx (s : State) (f : Field) : (s.bump f).ctx = s.ctx := rfl
@[simp] theorem bump_twin (s : State) (f : Field) : (s.bump f).twin = s.twin := rfl
@[simp] theorem bump_qnet (s : State) (f : Field) : (s.bump f).qnet = s.qnet := rfl
@[simp] theorem bump_movers (s : State) (f : Field) : (s.bump f).movers = s.movers := rfl
@[simp] theorem bump_posts (s : State) (f : Field) : (s.bump f).posts = s.posts := rfl
@[simp] theorem bump_chk (s : State) (f : Field) : (s.bump f).chk = s.chk := rfl
@[simp] theorem bump_train (s : State) (f : Field) : (s.bump f).train = s.train := rfl
@[simp] theorem bump_pcie (s : State) (f : Field) : (s.bump f).pcie = s.pcie := rfl
@[simp] theorem bump_timers (s : State) (f : Field) : (s.bump f).timers = s.timers := rfl
@[simp] theorem bump_caps (s : State) (f : Field) : (s.bump f).caps = s.caps := rfl
@[simp] theorem bump_panel (s : State) (f : Field) : (s.bump f).panel = s.panel := rfl
@[simp] theorem bump_out (s : State) (f : Field) : (s.bump f).out = s.out := rfl
@[simp] theorem bump_fresh (s : State) (f : Field) : (s.bump f).fresh = s.fresh := rfl
@[simp] theorem bump_pending (s : State) (f : Field) : (s.bump f).pending = s.pending := rfl

/-! reason -/
@[simp] theorem reason_shadows (s : State) (pg c o : Nat) : (s.reason pg c o).shadows = s.shadows := rfl
@[simp] theorem reason_checking (s : State) (pg c o : Nat) : (s.reason pg c o).checking = s.checking := rfl
@[simp] theorem reason_slow (s : State) (pg c o : Nat) : (s.reason pg c o).slow = s.slow := rfl
@[simp] theorem reason_rdata (s : State) (pg c o : Nat) : (s.reason pg c o).rdata = s.rdata := rfl
@[simp] theorem reason_bridge (s : State) (pg c o : Nat) : (s.reason pg c o).bridge = s.bridge := rfl
@[simp] theorem reason_mem (s : State) (pg c o : Nat) : (s.reason pg c o).mem = s.mem := rfl
@[simp] theorem reason_undef (s : State) (pg c o : Nat) : (s.reason pg c o).undef = s.undef := rfl
@[simp] theorem reason_flips (s : State) (pg c o : Nat) : (s.reason pg c o).flips = s.flips := rfl
@[simp] theorem reason_writebacks (s : State) (pg c o : Nat) : (s.reason pg c o).writebacks = s.writebacks := rfl
@[simp] theorem reason_bankTo (s : State) (pg c o : Nat) : (s.reason pg c o).bankTo = s.bankTo := rfl
@[simp] theorem reason_scrub (s : State) (pg c o : Nat) : (s.reason pg c o).scrub = s.scrub := rfl
@[simp] theorem reason_power (s : State) (pg c o : Nat) : (s.reason pg c o).power = s.power := rfl
@[simp] theorem reason_issue (s : State) (pg c o : Nat) : (s.reason pg c o).issue = s.issue := rfl
@[simp] theorem reason_tiles (s : State) (pg c o : Nat) : (s.reason pg c o).tiles = s.tiles := rfl
@[simp] theorem reason_crown (s : State) (pg c o : Nat) : (s.reason pg c o).crown = s.crown := rfl
@[simp] theorem reason_flash (s : State) (pg c o : Nat) : (s.reason pg c o).flash = s.flash := rfl
@[simp] theorem reason_fuses (s : State) (pg c o : Nat) : (s.reason pg c o).fuses = s.fuses := rfl
@[simp] theorem reason_bist (s : State) (pg c o : Nat) : (s.reason pg c o).bist = s.bist := rfl
@[simp] theorem reason_tfw (s : State) (pg c o : Nat) : (s.reason pg c o).tfw = s.tfw := rfl
@[simp] theorem reason_msixPending (s : State) (pg c o : Nat) : (s.reason pg c o).msixPending = s.msixPending := rfl
@[simp] theorem reason_causes (s : State) (pg c o : Nat) : (s.reason pg c o).causes = s.causes := rfl
@[simp] theorem reason_rowfix (s : State) (pg c o : Nat) : (s.reason pg c o).rowfix = s.rowfix := rfl
@[simp] theorem reason_cclkW (s : State) (pg c o : Nat) : (s.reason pg c o).cclkW = s.cclkW := rfl
@[simp] theorem reason_cclkE (s : State) (pg c o : Nat) : (s.reason pg c o).cclkE = s.cclkE := rfl
@[simp] theorem reason_scale (s : State) (pg c o : Nat) : (s.reason pg c o).scale = s.scale := rfl
@[simp] theorem reason_bar (s : State) (pg c o : Nat) : (s.reason pg c o).bar = s.bar := rfl
@[simp] theorem reason_net (s : State) (pg c o : Nat) : (s.reason pg c o).net = s.net := rfl
@[simp] theorem reason_links (s : State) (pg c o : Nat) : (s.reason pg c o).links = s.links := rfl
@[simp] theorem reason_tokens (s : State) (pg c o : Nat) : (s.reason pg c o).tokens = s.tokens := rfl
@[simp] theorem reason_gone (s : State) (pg c o : Nat) : (s.reason pg c o).gone = s.gone := rfl
@[simp] theorem reason_step (s : State) (pg c o : Nat) : (s.reason pg c o).step = s.step := rfl
@[simp] theorem reason_ctx (s : State) (pg c o : Nat) : (s.reason pg c o).ctx = s.ctx := rfl
@[simp] theorem reason_twin (s : State) (pg c o : Nat) : (s.reason pg c o).twin = s.twin := rfl
@[simp] theorem reason_qnet (s : State) (pg c o : Nat) : (s.reason pg c o).qnet = s.qnet := rfl
@[simp] theorem reason_movers (s : State) (pg c o : Nat) : (s.reason pg c o).movers = s.movers := rfl
@[simp] theorem reason_posts (s : State) (pg c o : Nat) : (s.reason pg c o).posts = s.posts := rfl
@[simp] theorem reason_chk (s : State) (pg c o : Nat) : (s.reason pg c o).chk = s.chk := rfl
@[simp] theorem reason_train (s : State) (pg c o : Nat) : (s.reason pg c o).train = s.train := rfl
@[simp] theorem reason_pcie (s : State) (pg c o : Nat) : (s.reason pg c o).pcie = s.pcie := rfl
@[simp] theorem reason_timers (s : State) (pg c o : Nat) : (s.reason pg c o).timers = s.timers := rfl
@[simp] theorem reason_caps (s : State) (pg c o : Nat) : (s.reason pg c o).caps = s.caps := rfl
@[simp] theorem reason_panel (s : State) (pg c o : Nat) : (s.reason pg c o).panel = s.panel := rfl
@[simp] theorem reason_out (s : State) (pg c o : Nat) : (s.reason pg c o).out = s.out := rfl
@[simp] theorem reason_fresh (s : State) (pg c o : Nat) : (s.reason pg c o).fresh = s.fresh := rfl
@[simp] theorem reason_pending (s : State) (pg c o : Nat) : (s.reason pg c o).pending = s.pending := rfl

/-! accept -/
@[simp] theorem accept_shadows (s : State) (pg : Nat) : (s.accept pg).shadows = s.shadows := rfl
@[simp] theorem accept_checking (s : State) (pg : Nat) : (s.accept pg).checking = s.checking := rfl
@[simp] theorem accept_slow (s : State) (pg : Nat) : (s.accept pg).slow = s.slow := rfl
@[simp] theorem accept_rdata (s : State) (pg : Nat) : (s.accept pg).rdata = s.rdata := rfl
@[simp] theorem accept_bridge (s : State) (pg : Nat) : (s.accept pg).bridge = s.bridge := rfl
@[simp] theorem accept_mem (s : State) (pg : Nat) : (s.accept pg).mem = s.mem := rfl
@[simp] theorem accept_undef (s : State) (pg : Nat) : (s.accept pg).undef = s.undef := rfl
@[simp] theorem accept_flips (s : State) (pg : Nat) : (s.accept pg).flips = s.flips := rfl
@[simp] theorem accept_writebacks (s : State) (pg : Nat) : (s.accept pg).writebacks = s.writebacks := rfl
@[simp] theorem accept_bankTo (s : State) (pg : Nat) : (s.accept pg).bankTo = s.bankTo := rfl
@[simp] theorem accept_scrub (s : State) (pg : Nat) : (s.accept pg).scrub = s.scrub := rfl
@[simp] theorem accept_power (s : State) (pg : Nat) : (s.accept pg).power = s.power := rfl
@[simp] theorem accept_issue (s : State) (pg : Nat) : (s.accept pg).issue = s.issue := rfl
@[simp] theorem accept_tiles (s : State) (pg : Nat) : (s.accept pg).tiles = s.tiles := rfl
@[simp] theorem accept_crown (s : State) (pg : Nat) : (s.accept pg).crown = s.crown := rfl
@[simp] theorem accept_flash (s : State) (pg : Nat) : (s.accept pg).flash = s.flash := rfl
@[simp] theorem accept_fuses (s : State) (pg : Nat) : (s.accept pg).fuses = s.fuses := rfl
@[simp] theorem accept_bist (s : State) (pg : Nat) : (s.accept pg).bist = s.bist := rfl
@[simp] theorem accept_tfw (s : State) (pg : Nat) : (s.accept pg).tfw = s.tfw := rfl
@[simp] theorem accept_msixPending (s : State) (pg : Nat) : (s.accept pg).msixPending = s.msixPending := rfl
@[simp] theorem accept_causes (s : State) (pg : Nat) : (s.accept pg).causes = s.causes := rfl
@[simp] theorem accept_rowfix (s : State) (pg : Nat) : (s.accept pg).rowfix = s.rowfix := rfl
@[simp] theorem accept_cclkW (s : State) (pg : Nat) : (s.accept pg).cclkW = s.cclkW := rfl
@[simp] theorem accept_cclkE (s : State) (pg : Nat) : (s.accept pg).cclkE = s.cclkE := rfl
@[simp] theorem accept_scale (s : State) (pg : Nat) : (s.accept pg).scale = s.scale := rfl
@[simp] theorem accept_bar (s : State) (pg : Nat) : (s.accept pg).bar = s.bar := rfl
@[simp] theorem accept_net (s : State) (pg : Nat) : (s.accept pg).net = s.net := rfl
@[simp] theorem accept_links (s : State) (pg : Nat) : (s.accept pg).links = s.links := rfl
@[simp] theorem accept_tokens (s : State) (pg : Nat) : (s.accept pg).tokens = s.tokens := rfl
@[simp] theorem accept_gone (s : State) (pg : Nat) : (s.accept pg).gone = s.gone := rfl
@[simp] theorem accept_step (s : State) (pg : Nat) : (s.accept pg).step = s.step := rfl
@[simp] theorem accept_ctx (s : State) (pg : Nat) : (s.accept pg).ctx = s.ctx := rfl
@[simp] theorem accept_twin (s : State) (pg : Nat) : (s.accept pg).twin = s.twin := rfl
@[simp] theorem accept_qnet (s : State) (pg : Nat) : (s.accept pg).qnet = s.qnet := rfl
@[simp] theorem accept_movers (s : State) (pg : Nat) : (s.accept pg).movers = s.movers := rfl
@[simp] theorem accept_posts (s : State) (pg : Nat) : (s.accept pg).posts = s.posts := rfl
@[simp] theorem accept_chk (s : State) (pg : Nat) : (s.accept pg).chk = s.chk := rfl
@[simp] theorem accept_train (s : State) (pg : Nat) : (s.accept pg).train = s.train := rfl
@[simp] theorem accept_pcie (s : State) (pg : Nat) : (s.accept pg).pcie = s.pcie := rfl
@[simp] theorem accept_timers (s : State) (pg : Nat) : (s.accept pg).timers = s.timers := rfl
@[simp] theorem accept_caps (s : State) (pg : Nat) : (s.accept pg).caps = s.caps := rfl
@[simp] theorem accept_panel (s : State) (pg : Nat) : (s.accept pg).panel = s.panel := rfl
@[simp] theorem accept_out (s : State) (pg : Nat) : (s.accept pg).out = s.out := rfl
@[simp] theorem accept_fresh (s : State) (pg : Nat) : (s.accept pg).fresh = s.fresh := rfl
@[simp] theorem accept_pending (s : State) (pg : Nat) : (s.accept pg).pending = s.pending := rfl

/-! emit -/
@[simp] theorem emit_regs (s : State) (o : Out) : (s.emit o).regs = s.regs := rfl
@[simp] theorem emit_shadows (s : State) (o : Out) : (s.emit o).shadows = s.shadows := rfl
@[simp] theorem emit_checking (s : State) (o : Out) : (s.emit o).checking = s.checking := rfl
@[simp] theorem emit_slow (s : State) (o : Out) : (s.emit o).slow = s.slow := rfl
@[simp] theorem emit_rdata (s : State) (o : Out) : (s.emit o).rdata = s.rdata := rfl
@[simp] theorem emit_bridge (s : State) (o : Out) : (s.emit o).bridge = s.bridge := rfl
@[simp] theorem emit_mem (s : State) (o : Out) : (s.emit o).mem = s.mem := rfl
@[simp] theorem emit_undef (s : State) (o : Out) : (s.emit o).undef = s.undef := rfl
@[simp] theorem emit_flips (s : State) (o : Out) : (s.emit o).flips = s.flips := rfl
@[simp] theorem emit_writebacks (s : State) (o : Out) : (s.emit o).writebacks = s.writebacks := rfl
@[simp] theorem emit_bankTo (s : State) (o : Out) : (s.emit o).bankTo = s.bankTo := rfl
@[simp] theorem emit_scrub (s : State) (o : Out) : (s.emit o).scrub = s.scrub := rfl
@[simp] theorem emit_power (s : State) (o : Out) : (s.emit o).power = s.power := rfl
@[simp] theorem emit_issue (s : State) (o : Out) : (s.emit o).issue = s.issue := rfl
@[simp] theorem emit_tiles (s : State) (o : Out) : (s.emit o).tiles = s.tiles := rfl
@[simp] theorem emit_crown (s : State) (o : Out) : (s.emit o).crown = s.crown := rfl
@[simp] theorem emit_flash (s : State) (o : Out) : (s.emit o).flash = s.flash := rfl
@[simp] theorem emit_fuses (s : State) (o : Out) : (s.emit o).fuses = s.fuses := rfl
@[simp] theorem emit_bist (s : State) (o : Out) : (s.emit o).bist = s.bist := rfl
@[simp] theorem emit_tfw (s : State) (o : Out) : (s.emit o).tfw = s.tfw := rfl
@[simp] theorem emit_msixPending (s : State) (o : Out) : (s.emit o).msixPending = s.msixPending := rfl
@[simp] theorem emit_causes (s : State) (o : Out) : (s.emit o).causes = s.causes := rfl
@[simp] theorem emit_rowfix (s : State) (o : Out) : (s.emit o).rowfix = s.rowfix := rfl
@[simp] theorem emit_cclkW (s : State) (o : Out) : (s.emit o).cclkW = s.cclkW := rfl
@[simp] theorem emit_cclkE (s : State) (o : Out) : (s.emit o).cclkE = s.cclkE := rfl
@[simp] theorem emit_scale (s : State) (o : Out) : (s.emit o).scale = s.scale := rfl
@[simp] theorem emit_bar (s : State) (o : Out) : (s.emit o).bar = s.bar := rfl
@[simp] theorem emit_net (s : State) (o : Out) : (s.emit o).net = s.net := rfl
@[simp] theorem emit_links (s : State) (o : Out) : (s.emit o).links = s.links := rfl
@[simp] theorem emit_tokens (s : State) (o : Out) : (s.emit o).tokens = s.tokens := rfl
@[simp] theorem emit_gone (s : State) (o : Out) : (s.emit o).gone = s.gone := rfl
@[simp] theorem emit_step (s : State) (o : Out) : (s.emit o).step = s.step := rfl
@[simp] theorem emit_ctx (s : State) (o : Out) : (s.emit o).ctx = s.ctx := rfl
@[simp] theorem emit_twin (s : State) (o : Out) : (s.emit o).twin = s.twin := rfl
@[simp] theorem emit_qnet (s : State) (o : Out) : (s.emit o).qnet = s.qnet := rfl
@[simp] theorem emit_movers (s : State) (o : Out) : (s.emit o).movers = s.movers := rfl
@[simp] theorem emit_posts (s : State) (o : Out) : (s.emit o).posts = s.posts := rfl
@[simp] theorem emit_chk (s : State) (o : Out) : (s.emit o).chk = s.chk := rfl
@[simp] theorem emit_train (s : State) (o : Out) : (s.emit o).train = s.train := rfl
@[simp] theorem emit_pcie (s : State) (o : Out) : (s.emit o).pcie = s.pcie := rfl
@[simp] theorem emit_timers (s : State) (o : Out) : (s.emit o).timers = s.timers := rfl
@[simp] theorem emit_caps (s : State) (o : Out) : (s.emit o).caps = s.caps := rfl
@[simp] theorem emit_panel (s : State) (o : Out) : (s.emit o).panel = s.panel := rfl
@[simp] theorem emit_fresh (s : State) (o : Out) : (s.emit o).fresh = s.fresh := rfl
@[simp] theorem emit_pending (s : State) (o : Out) : (s.emit o).pending = s.pending := rfl

/-! pendMsix -/
@[simp] theorem pendMsix_regs (s : State) (v : Nat) : (s.pendMsix v).regs = s.regs := rfl
@[simp] theorem pendMsix_shadows (s : State) (v : Nat) : (s.pendMsix v).shadows = s.shadows := rfl
@[simp] theorem pendMsix_checking (s : State) (v : Nat) : (s.pendMsix v).checking = s.checking := rfl
@[simp] theorem pendMsix_slow (s : State) (v : Nat) : (s.pendMsix v).slow = s.slow := rfl
@[simp] theorem pendMsix_rdata (s : State) (v : Nat) : (s.pendMsix v).rdata = s.rdata := rfl
@[simp] theorem pendMsix_bridge (s : State) (v : Nat) : (s.pendMsix v).bridge = s.bridge := rfl
@[simp] theorem pendMsix_mem (s : State) (v : Nat) : (s.pendMsix v).mem = s.mem := rfl
@[simp] theorem pendMsix_undef (s : State) (v : Nat) : (s.pendMsix v).undef = s.undef := rfl
@[simp] theorem pendMsix_flips (s : State) (v : Nat) : (s.pendMsix v).flips = s.flips := rfl
@[simp] theorem pendMsix_writebacks (s : State) (v : Nat) : (s.pendMsix v).writebacks = s.writebacks := rfl
@[simp] theorem pendMsix_bankTo (s : State) (v : Nat) : (s.pendMsix v).bankTo = s.bankTo := rfl
@[simp] theorem pendMsix_scrub (s : State) (v : Nat) : (s.pendMsix v).scrub = s.scrub := rfl
@[simp] theorem pendMsix_power (s : State) (v : Nat) : (s.pendMsix v).power = s.power := rfl
@[simp] theorem pendMsix_issue (s : State) (v : Nat) : (s.pendMsix v).issue = s.issue := rfl
@[simp] theorem pendMsix_tiles (s : State) (v : Nat) : (s.pendMsix v).tiles = s.tiles := rfl
@[simp] theorem pendMsix_crown (s : State) (v : Nat) : (s.pendMsix v).crown = s.crown := rfl
@[simp] theorem pendMsix_flash (s : State) (v : Nat) : (s.pendMsix v).flash = s.flash := rfl
@[simp] theorem pendMsix_fuses (s : State) (v : Nat) : (s.pendMsix v).fuses = s.fuses := rfl
@[simp] theorem pendMsix_bist (s : State) (v : Nat) : (s.pendMsix v).bist = s.bist := rfl
@[simp] theorem pendMsix_tfw (s : State) (v : Nat) : (s.pendMsix v).tfw = s.tfw := rfl
@[simp] theorem pendMsix_rowfix (s : State) (v : Nat) : (s.pendMsix v).rowfix = s.rowfix := rfl
@[simp] theorem pendMsix_cclkW (s : State) (v : Nat) : (s.pendMsix v).cclkW = s.cclkW := rfl
@[simp] theorem pendMsix_cclkE (s : State) (v : Nat) : (s.pendMsix v).cclkE = s.cclkE := rfl
@[simp] theorem pendMsix_scale (s : State) (v : Nat) : (s.pendMsix v).scale = s.scale := rfl
@[simp] theorem pendMsix_bar (s : State) (v : Nat) : (s.pendMsix v).bar = s.bar := rfl
@[simp] theorem pendMsix_net (s : State) (v : Nat) : (s.pendMsix v).net = s.net := rfl
@[simp] theorem pendMsix_links (s : State) (v : Nat) : (s.pendMsix v).links = s.links := rfl
@[simp] theorem pendMsix_tokens (s : State) (v : Nat) : (s.pendMsix v).tokens = s.tokens := rfl
@[simp] theorem pendMsix_gone (s : State) (v : Nat) : (s.pendMsix v).gone = s.gone := rfl
@[simp] theorem pendMsix_step (s : State) (v : Nat) : (s.pendMsix v).step = s.step := rfl
@[simp] theorem pendMsix_ctx (s : State) (v : Nat) : (s.pendMsix v).ctx = s.ctx := rfl
@[simp] theorem pendMsix_twin (s : State) (v : Nat) : (s.pendMsix v).twin = s.twin := rfl
@[simp] theorem pendMsix_qnet (s : State) (v : Nat) : (s.pendMsix v).qnet = s.qnet := rfl
@[simp] theorem pendMsix_movers (s : State) (v : Nat) : (s.pendMsix v).movers = s.movers := rfl
@[simp] theorem pendMsix_posts (s : State) (v : Nat) : (s.pendMsix v).posts = s.posts := rfl
@[simp] theorem pendMsix_chk (s : State) (v : Nat) : (s.pendMsix v).chk = s.chk := rfl
@[simp] theorem pendMsix_train (s : State) (v : Nat) : (s.pendMsix v).train = s.train := rfl
@[simp] theorem pendMsix_pcie (s : State) (v : Nat) : (s.pendMsix v).pcie = s.pcie := rfl
@[simp] theorem pendMsix_timers (s : State) (v : Nat) : (s.pendMsix v).timers = s.timers := rfl
@[simp] theorem pendMsix_caps (s : State) (v : Nat) : (s.pendMsix v).caps = s.caps := rfl
@[simp] theorem pendMsix_panel (s : State) (v : Nat) : (s.pendMsix v).panel = s.panel := rfl
@[simp] theorem pendMsix_out (s : State) (v : Nat) : (s.pendMsix v).out = s.out := rfl
@[simp] theorem pendMsix_fresh (s : State) (v : Nat) : (s.pendMsix v).fresh = s.fresh := rfl
@[simp] theorem pendMsix_causes (s : State) (v : Nat) : (s.pendMsix v).causes = s.causes := rfl
@[simp] theorem pendMsix_pending (s : State) (v : Nat) : (s.pendMsix v).pending = s.pending := rfl

/-! draw -/
@[simp] theorem draw_regs (s : State) (w : Nat) : ((s.draw w).2).regs = s.regs := rfl
@[simp] theorem draw_shadows (s : State) (w : Nat) : ((s.draw w).2).shadows = s.shadows := rfl
@[simp] theorem draw_checking (s : State) (w : Nat) : ((s.draw w).2).checking = s.checking := rfl
@[simp] theorem draw_slow (s : State) (w : Nat) : ((s.draw w).2).slow = s.slow := rfl
@[simp] theorem draw_rdata (s : State) (w : Nat) : ((s.draw w).2).rdata = s.rdata := rfl
@[simp] theorem draw_bridge (s : State) (w : Nat) : ((s.draw w).2).bridge = s.bridge := rfl
@[simp] theorem draw_mem (s : State) (w : Nat) : ((s.draw w).2).mem = s.mem := rfl
@[simp] theorem draw_undef (s : State) (w : Nat) : ((s.draw w).2).undef = s.undef := rfl
@[simp] theorem draw_flips (s : State) (w : Nat) : ((s.draw w).2).flips = s.flips := rfl
@[simp] theorem draw_writebacks (s : State) (w : Nat) : ((s.draw w).2).writebacks = s.writebacks := rfl
@[simp] theorem draw_bankTo (s : State) (w : Nat) : ((s.draw w).2).bankTo = s.bankTo := rfl
@[simp] theorem draw_scrub (s : State) (w : Nat) : ((s.draw w).2).scrub = s.scrub := rfl
@[simp] theorem draw_power (s : State) (w : Nat) : ((s.draw w).2).power = s.power := rfl
@[simp] theorem draw_issue (s : State) (w : Nat) : ((s.draw w).2).issue = s.issue := rfl
@[simp] theorem draw_tiles (s : State) (w : Nat) : ((s.draw w).2).tiles = s.tiles := rfl
@[simp] theorem draw_crown (s : State) (w : Nat) : ((s.draw w).2).crown = s.crown := rfl
@[simp] theorem draw_flash (s : State) (w : Nat) : ((s.draw w).2).flash = s.flash := rfl
@[simp] theorem draw_fuses (s : State) (w : Nat) : ((s.draw w).2).fuses = s.fuses := rfl
@[simp] theorem draw_bist (s : State) (w : Nat) : ((s.draw w).2).bist = s.bist := rfl
@[simp] theorem draw_tfw (s : State) (w : Nat) : ((s.draw w).2).tfw = s.tfw := rfl
@[simp] theorem draw_msixPending (s : State) (w : Nat) : ((s.draw w).2).msixPending = s.msixPending := rfl
@[simp] theorem draw_causes (s : State) (w : Nat) : ((s.draw w).2).causes = s.causes := rfl
@[simp] theorem draw_rowfix (s : State) (w : Nat) : ((s.draw w).2).rowfix = s.rowfix := rfl
@[simp] theorem draw_cclkW (s : State) (w : Nat) : ((s.draw w).2).cclkW = s.cclkW := rfl
@[simp] theorem draw_cclkE (s : State) (w : Nat) : ((s.draw w).2).cclkE = s.cclkE := rfl
@[simp] theorem draw_scale (s : State) (w : Nat) : ((s.draw w).2).scale = s.scale := rfl
@[simp] theorem draw_bar (s : State) (w : Nat) : ((s.draw w).2).bar = s.bar := rfl
@[simp] theorem draw_net (s : State) (w : Nat) : ((s.draw w).2).net = s.net := rfl
@[simp] theorem draw_links (s : State) (w : Nat) : ((s.draw w).2).links = s.links := rfl
@[simp] theorem draw_tokens (s : State) (w : Nat) : ((s.draw w).2).tokens = s.tokens := rfl
@[simp] theorem draw_gone (s : State) (w : Nat) : ((s.draw w).2).gone = s.gone := rfl
@[simp] theorem draw_step (s : State) (w : Nat) : ((s.draw w).2).step = s.step := rfl
@[simp] theorem draw_ctx (s : State) (w : Nat) : ((s.draw w).2).ctx = s.ctx := rfl
@[simp] theorem draw_twin (s : State) (w : Nat) : ((s.draw w).2).twin = s.twin := rfl
@[simp] theorem draw_qnet (s : State) (w : Nat) : ((s.draw w).2).qnet = s.qnet := rfl
@[simp] theorem draw_movers (s : State) (w : Nat) : ((s.draw w).2).movers = s.movers := rfl
@[simp] theorem draw_posts (s : State) (w : Nat) : ((s.draw w).2).posts = s.posts := rfl
@[simp] theorem draw_chk (s : State) (w : Nat) : ((s.draw w).2).chk = s.chk := rfl
@[simp] theorem draw_train (s : State) (w : Nat) : ((s.draw w).2).train = s.train := rfl
@[simp] theorem draw_pcie (s : State) (w : Nat) : ((s.draw w).2).pcie = s.pcie := rfl
@[simp] theorem draw_timers (s : State) (w : Nat) : ((s.draw w).2).timers = s.timers := rfl
@[simp] theorem draw_caps (s : State) (w : Nat) : ((s.draw w).2).caps = s.caps := rfl
@[simp] theorem draw_panel (s : State) (w : Nat) : ((s.draw w).2).panel = s.panel := rfl
@[simp] theorem draw_out (s : State) (w : Nat) : ((s.draw w).2).out = s.out := rfl
@[simp] theorem draw_pending (s : State) (w : Nat) : ((s.draw w).2).pending = s.pending := rfl

/-! setTile -/
@[simp] theorem setTile_regs (s : State) (n : Nat) (t : Tile) : (s.setTile n t).regs = s.regs := rfl
@[simp] theorem setTile_shadows (s : State) (n : Nat) (t : Tile) : (s.setTile n t).shadows = s.shadows := rfl
@[simp] theorem setTile_checking (s : State) (n : Nat) (t : Tile) : (s.setTile n t).checking = s.checking := rfl
@[simp] theorem setTile_slow (s : State) (n : Nat) (t : Tile) : (s.setTile n t).slow = s.slow := rfl
@[simp] theorem setTile_rdata (s : State) (n : Nat) (t : Tile) : (s.setTile n t).rdata = s.rdata := rfl
@[simp] theorem setTile_bridge (s : State) (n : Nat) (t : Tile) : (s.setTile n t).bridge = s.bridge := rfl
@[simp] theorem setTile_mem (s : State) (n : Nat) (t : Tile) : (s.setTile n t).mem = s.mem := rfl
@[simp] theorem setTile_undef (s : State) (n : Nat) (t : Tile) : (s.setTile n t).undef = s.undef := rfl
@[simp] theorem setTile_flips (s : State) (n : Nat) (t : Tile) : (s.setTile n t).flips = s.flips := rfl
@[simp] theorem setTile_writebacks (s : State) (n : Nat) (t : Tile) : (s.setTile n t).writebacks = s.writebacks := rfl
@[simp] theorem setTile_bankTo (s : State) (n : Nat) (t : Tile) : (s.setTile n t).bankTo = s.bankTo := rfl
@[simp] theorem setTile_scrub (s : State) (n : Nat) (t : Tile) : (s.setTile n t).scrub = s.scrub := rfl
@[simp] theorem setTile_power (s : State) (n : Nat) (t : Tile) : (s.setTile n t).power = s.power := rfl
@[simp] theorem setTile_issue (s : State) (n : Nat) (t : Tile) : (s.setTile n t).issue = s.issue := rfl
@[simp] theorem setTile_crown (s : State) (n : Nat) (t : Tile) : (s.setTile n t).crown = s.crown := rfl
@[simp] theorem setTile_flash (s : State) (n : Nat) (t : Tile) : (s.setTile n t).flash = s.flash := rfl
@[simp] theorem setTile_fuses (s : State) (n : Nat) (t : Tile) : (s.setTile n t).fuses = s.fuses := rfl
@[simp] theorem setTile_bist (s : State) (n : Nat) (t : Tile) : (s.setTile n t).bist = s.bist := rfl
@[simp] theorem setTile_tfw (s : State) (n : Nat) (t : Tile) : (s.setTile n t).tfw = s.tfw := rfl
@[simp] theorem setTile_msixPending (s : State) (n : Nat) (t : Tile) : (s.setTile n t).msixPending = s.msixPending := rfl
@[simp] theorem setTile_causes (s : State) (n : Nat) (t : Tile) : (s.setTile n t).causes = s.causes := rfl
@[simp] theorem setTile_rowfix (s : State) (n : Nat) (t : Tile) : (s.setTile n t).rowfix = s.rowfix := rfl
@[simp] theorem setTile_cclkW (s : State) (n : Nat) (t : Tile) : (s.setTile n t).cclkW = s.cclkW := rfl
@[simp] theorem setTile_cclkE (s : State) (n : Nat) (t : Tile) : (s.setTile n t).cclkE = s.cclkE := rfl
@[simp] theorem setTile_scale (s : State) (n : Nat) (t : Tile) : (s.setTile n t).scale = s.scale := rfl
@[simp] theorem setTile_bar (s : State) (n : Nat) (t : Tile) : (s.setTile n t).bar = s.bar := rfl
@[simp] theorem setTile_net (s : State) (n : Nat) (t : Tile) : (s.setTile n t).net = s.net := rfl
@[simp] theorem setTile_links (s : State) (n : Nat) (t : Tile) : (s.setTile n t).links = s.links := rfl
@[simp] theorem setTile_tokens (s : State) (n : Nat) (t : Tile) : (s.setTile n t).tokens = s.tokens := rfl
@[simp] theorem setTile_gone (s : State) (n : Nat) (t : Tile) : (s.setTile n t).gone = s.gone := rfl
@[simp] theorem setTile_step (s : State) (n : Nat) (t : Tile) : (s.setTile n t).step = s.step := rfl
@[simp] theorem setTile_ctx (s : State) (n : Nat) (t : Tile) : (s.setTile n t).ctx = s.ctx := rfl
@[simp] theorem setTile_twin (s : State) (n : Nat) (t : Tile) : (s.setTile n t).twin = s.twin := rfl
@[simp] theorem setTile_qnet (s : State) (n : Nat) (t : Tile) : (s.setTile n t).qnet = s.qnet := rfl
@[simp] theorem setTile_movers (s : State) (n : Nat) (t : Tile) : (s.setTile n t).movers = s.movers := rfl
@[simp] theorem setTile_posts (s : State) (n : Nat) (t : Tile) : (s.setTile n t).posts = s.posts := rfl
@[simp] theorem setTile_chk (s : State) (n : Nat) (t : Tile) : (s.setTile n t).chk = s.chk := rfl
@[simp] theorem setTile_train (s : State) (n : Nat) (t : Tile) : (s.setTile n t).train = s.train := rfl
@[simp] theorem setTile_pcie (s : State) (n : Nat) (t : Tile) : (s.setTile n t).pcie = s.pcie := rfl
@[simp] theorem setTile_timers (s : State) (n : Nat) (t : Tile) : (s.setTile n t).timers = s.timers := rfl
@[simp] theorem setTile_caps (s : State) (n : Nat) (t : Tile) : (s.setTile n t).caps = s.caps := rfl
@[simp] theorem setTile_panel (s : State) (n : Nat) (t : Tile) : (s.setTile n t).panel = s.panel := rfl
@[simp] theorem setTile_out (s : State) (n : Nat) (t : Tile) : (s.setTile n t).out = s.out := rfl
@[simp] theorem setTile_fresh (s : State) (n : Nat) (t : Tile) : (s.setTile n t).fresh = s.fresh := rfl
@[simp] theorem setTile_pending (s : State) (n : Nat) (t : Tile) : (s.setTile n t).pending = s.pending := rfl

/-! modTile -/
@[simp] theorem modTile_regs (s : State) (n : Nat) (f : Tile → Tile) : (s.modTile n f).regs = s.regs := rfl
@[simp] theorem modTile_shadows (s : State) (n : Nat) (f : Tile → Tile) : (s.modTile n f).shadows = s.shadows := rfl
@[simp] theorem modTile_checking (s : State) (n : Nat) (f : Tile → Tile) : (s.modTile n f).checking = s.checking := rfl
@[simp] theorem modTile_slow (s : State) (n : Nat) (f : Tile → Tile) : (s.modTile n f).slow = s.slow := rfl
@[simp] theorem modTile_rdata (s : State) (n : Nat) (f : Tile → Tile) : (s.modTile n f).rdata = s.rdata := rfl
@[simp] theorem modTile_bridge (s : State) (n : Nat) (f : Tile → Tile) : (s.modTile n f).bridge = s.bridge := rfl
@[simp] theorem modTile_mem (s : State) (n : Nat) (f : Tile → Tile) : (s.modTile n f).mem = s.mem := rfl
@[simp] theorem modTile_undef (s : State) (n : Nat) (f : Tile → Tile) : (s.modTile n f).undef = s.undef := rfl
@[simp] theorem modTile_flips (s : State) (n : Nat) (f : Tile → Tile) : (s.modTile n f).flips = s.flips := rfl
@[simp] theorem modTile_writebacks (s : State) (n : Nat) (f : Tile → Tile) : (s.modTile n f).writebacks = s.writebacks := rfl
@[simp] theorem modTile_bankTo (s : State) (n : Nat) (f : Tile → Tile) : (s.modTile n f).bankTo = s.bankTo := rfl
@[simp] theorem modTile_scrub (s : State) (n : Nat) (f : Tile → Tile) : (s.modTile n f).scrub = s.scrub := rfl
@[simp] theorem modTile_power (s : State) (n : Nat) (f : Tile → Tile) : (s.modTile n f).power = s.power := rfl
@[simp] theorem modTile_issue (s : State) (n : Nat) (f : Tile → Tile) : (s.modTile n f).issue = s.issue := rfl
@[simp] theorem modTile_crown (s : State) (n : Nat) (f : Tile → Tile) : (s.modTile n f).crown = s.crown := rfl
@[simp] theorem modTile_flash (s : State) (n : Nat) (f : Tile → Tile) : (s.modTile n f).flash = s.flash := rfl
@[simp] theorem modTile_fuses (s : State) (n : Nat) (f : Tile → Tile) : (s.modTile n f).fuses = s.fuses := rfl
@[simp] theorem modTile_bist (s : State) (n : Nat) (f : Tile → Tile) : (s.modTile n f).bist = s.bist := rfl
@[simp] theorem modTile_tfw (s : State) (n : Nat) (f : Tile → Tile) : (s.modTile n f).tfw = s.tfw := rfl
@[simp] theorem modTile_msixPending (s : State) (n : Nat) (f : Tile → Tile) : (s.modTile n f).msixPending = s.msixPending := rfl
@[simp] theorem modTile_causes (s : State) (n : Nat) (f : Tile → Tile) : (s.modTile n f).causes = s.causes := rfl
@[simp] theorem modTile_rowfix (s : State) (n : Nat) (f : Tile → Tile) : (s.modTile n f).rowfix = s.rowfix := rfl
@[simp] theorem modTile_cclkW (s : State) (n : Nat) (f : Tile → Tile) : (s.modTile n f).cclkW = s.cclkW := rfl
@[simp] theorem modTile_cclkE (s : State) (n : Nat) (f : Tile → Tile) : (s.modTile n f).cclkE = s.cclkE := rfl
@[simp] theorem modTile_scale (s : State) (n : Nat) (f : Tile → Tile) : (s.modTile n f).scale = s.scale := rfl
@[simp] theorem modTile_bar (s : State) (n : Nat) (f : Tile → Tile) : (s.modTile n f).bar = s.bar := rfl
@[simp] theorem modTile_net (s : State) (n : Nat) (f : Tile → Tile) : (s.modTile n f).net = s.net := rfl
@[simp] theorem modTile_links (s : State) (n : Nat) (f : Tile → Tile) : (s.modTile n f).links = s.links := rfl
@[simp] theorem modTile_tokens (s : State) (n : Nat) (f : Tile → Tile) : (s.modTile n f).tokens = s.tokens := rfl
@[simp] theorem modTile_gone (s : State) (n : Nat) (f : Tile → Tile) : (s.modTile n f).gone = s.gone := rfl
@[simp] theorem modTile_step (s : State) (n : Nat) (f : Tile → Tile) : (s.modTile n f).step = s.step := rfl
@[simp] theorem modTile_ctx (s : State) (n : Nat) (f : Tile → Tile) : (s.modTile n f).ctx = s.ctx := rfl
@[simp] theorem modTile_twin (s : State) (n : Nat) (f : Tile → Tile) : (s.modTile n f).twin = s.twin := rfl
@[simp] theorem modTile_qnet (s : State) (n : Nat) (f : Tile → Tile) : (s.modTile n f).qnet = s.qnet := rfl
@[simp] theorem modTile_movers (s : State) (n : Nat) (f : Tile → Tile) : (s.modTile n f).movers = s.movers := rfl
@[simp] theorem modTile_posts (s : State) (n : Nat) (f : Tile → Tile) : (s.modTile n f).posts = s.posts := rfl
@[simp] theorem modTile_chk (s : State) (n : Nat) (f : Tile → Tile) : (s.modTile n f).chk = s.chk := rfl
@[simp] theorem modTile_train (s : State) (n : Nat) (f : Tile → Tile) : (s.modTile n f).train = s.train := rfl
@[simp] theorem modTile_pcie (s : State) (n : Nat) (f : Tile → Tile) : (s.modTile n f).pcie = s.pcie := rfl
@[simp] theorem modTile_timers (s : State) (n : Nat) (f : Tile → Tile) : (s.modTile n f).timers = s.timers := rfl
@[simp] theorem modTile_caps (s : State) (n : Nat) (f : Tile → Tile) : (s.modTile n f).caps = s.caps := rfl
@[simp] theorem modTile_panel (s : State) (n : Nat) (f : Tile → Tile) : (s.modTile n f).panel = s.panel := rfl
@[simp] theorem modTile_out (s : State) (n : Nat) (f : Tile → Tile) : (s.modTile n f).out = s.out := rfl
@[simp] theorem modTile_fresh (s : State) (n : Nat) (f : Tile → Tile) : (s.modTile n f).fresh = s.fresh := rfl
@[simp] theorem modTile_pending (s : State) (n : Nat) (f : Tile → Tile) : (s.modTile n f).pending = s.pending := rfl

/-! setByte -/
@[simp] theorem setByte_regs (s : State) (a : Nat) (v : Byte) : (s.setByte a v).regs = s.regs := rfl
@[simp] theorem setByte_shadows (s : State) (a : Nat) (v : Byte) : (s.setByte a v).shadows = s.shadows := rfl
@[simp] theorem setByte_checking (s : State) (a : Nat) (v : Byte) : (s.setByte a v).checking = s.checking := rfl
@[simp] theorem setByte_slow (s : State) (a : Nat) (v : Byte) : (s.setByte a v).slow = s.slow := rfl
@[simp] theorem setByte_rdata (s : State) (a : Nat) (v : Byte) : (s.setByte a v).rdata = s.rdata := rfl
@[simp] theorem setByte_bridge (s : State) (a : Nat) (v : Byte) : (s.setByte a v).bridge = s.bridge := rfl
@[simp] theorem setByte_flips (s : State) (a : Nat) (v : Byte) : (s.setByte a v).flips = s.flips := rfl
@[simp] theorem setByte_writebacks (s : State) (a : Nat) (v : Byte) : (s.setByte a v).writebacks = s.writebacks := rfl
@[simp] theorem setByte_bankTo (s : State) (a : Nat) (v : Byte) : (s.setByte a v).bankTo = s.bankTo := rfl
@[simp] theorem setByte_scrub (s : State) (a : Nat) (v : Byte) : (s.setByte a v).scrub = s.scrub := rfl
@[simp] theorem setByte_power (s : State) (a : Nat) (v : Byte) : (s.setByte a v).power = s.power := rfl
@[simp] theorem setByte_issue (s : State) (a : Nat) (v : Byte) : (s.setByte a v).issue = s.issue := rfl
@[simp] theorem setByte_tiles (s : State) (a : Nat) (v : Byte) : (s.setByte a v).tiles = s.tiles := rfl
@[simp] theorem setByte_crown (s : State) (a : Nat) (v : Byte) : (s.setByte a v).crown = s.crown := rfl
@[simp] theorem setByte_flash (s : State) (a : Nat) (v : Byte) : (s.setByte a v).flash = s.flash := rfl
@[simp] theorem setByte_fuses (s : State) (a : Nat) (v : Byte) : (s.setByte a v).fuses = s.fuses := rfl
@[simp] theorem setByte_bist (s : State) (a : Nat) (v : Byte) : (s.setByte a v).bist = s.bist := rfl
@[simp] theorem setByte_tfw (s : State) (a : Nat) (v : Byte) : (s.setByte a v).tfw = s.tfw := rfl
@[simp] theorem setByte_msixPending (s : State) (a : Nat) (v : Byte) : (s.setByte a v).msixPending = s.msixPending := rfl
@[simp] theorem setByte_causes (s : State) (a : Nat) (v : Byte) : (s.setByte a v).causes = s.causes := rfl
@[simp] theorem setByte_rowfix (s : State) (a : Nat) (v : Byte) : (s.setByte a v).rowfix = s.rowfix := rfl
@[simp] theorem setByte_cclkW (s : State) (a : Nat) (v : Byte) : (s.setByte a v).cclkW = s.cclkW := rfl
@[simp] theorem setByte_cclkE (s : State) (a : Nat) (v : Byte) : (s.setByte a v).cclkE = s.cclkE := rfl
@[simp] theorem setByte_scale (s : State) (a : Nat) (v : Byte) : (s.setByte a v).scale = s.scale := rfl
@[simp] theorem setByte_bar (s : State) (a : Nat) (v : Byte) : (s.setByte a v).bar = s.bar := rfl
@[simp] theorem setByte_net (s : State) (a : Nat) (v : Byte) : (s.setByte a v).net = s.net := rfl
@[simp] theorem setByte_links (s : State) (a : Nat) (v : Byte) : (s.setByte a v).links = s.links := rfl
@[simp] theorem setByte_tokens (s : State) (a : Nat) (v : Byte) : (s.setByte a v).tokens = s.tokens := rfl
@[simp] theorem setByte_gone (s : State) (a : Nat) (v : Byte) : (s.setByte a v).gone = s.gone := rfl
@[simp] theorem setByte_step (s : State) (a : Nat) (v : Byte) : (s.setByte a v).step = s.step := rfl
@[simp] theorem setByte_ctx (s : State) (a : Nat) (v : Byte) : (s.setByte a v).ctx = s.ctx := rfl
@[simp] theorem setByte_twin (s : State) (a : Nat) (v : Byte) : (s.setByte a v).twin = s.twin := rfl
@[simp] theorem setByte_qnet (s : State) (a : Nat) (v : Byte) : (s.setByte a v).qnet = s.qnet := rfl
@[simp] theorem setByte_movers (s : State) (a : Nat) (v : Byte) : (s.setByte a v).movers = s.movers := rfl
@[simp] theorem setByte_posts (s : State) (a : Nat) (v : Byte) : (s.setByte a v).posts = s.posts := rfl
@[simp] theorem setByte_chk (s : State) (a : Nat) (v : Byte) : (s.setByte a v).chk = s.chk := rfl
@[simp] theorem setByte_train (s : State) (a : Nat) (v : Byte) : (s.setByte a v).train = s.train := rfl
@[simp] theorem setByte_pcie (s : State) (a : Nat) (v : Byte) : (s.setByte a v).pcie = s.pcie := rfl
@[simp] theorem setByte_timers (s : State) (a : Nat) (v : Byte) : (s.setByte a v).timers = s.timers := rfl
@[simp] theorem setByte_caps (s : State) (a : Nat) (v : Byte) : (s.setByte a v).caps = s.caps := rfl
@[simp] theorem setByte_panel (s : State) (a : Nat) (v : Byte) : (s.setByte a v).panel = s.panel := rfl
@[simp] theorem setByte_out (s : State) (a : Nat) (v : Byte) : (s.setByte a v).out = s.out := rfl
@[simp] theorem setByte_fresh (s : State) (a : Nat) (v : Byte) : (s.setByte a v).fresh = s.fresh := rfl
@[simp] theorem setByte_pending (s : State) (a : Nat) (v : Byte) : (s.setByte a v).pending = s.pending := rfl

/-! lose -/
@[simp] theorem lose_regs (s : State) (lo hi : Nat) : (s.lose lo hi).regs = s.regs := rfl
@[simp] theorem lose_shadows (s : State) (lo hi : Nat) : (s.lose lo hi).shadows = s.shadows := rfl
@[simp] theorem lose_checking (s : State) (lo hi : Nat) : (s.lose lo hi).checking = s.checking := rfl
@[simp] theorem lose_slow (s : State) (lo hi : Nat) : (s.lose lo hi).slow = s.slow := rfl
@[simp] theorem lose_rdata (s : State) (lo hi : Nat) : (s.lose lo hi).rdata = s.rdata := rfl
@[simp] theorem lose_bridge (s : State) (lo hi : Nat) : (s.lose lo hi).bridge = s.bridge := rfl
@[simp] theorem lose_bankTo (s : State) (lo hi : Nat) : (s.lose lo hi).bankTo = s.bankTo := rfl
@[simp] theorem lose_scrub (s : State) (lo hi : Nat) : (s.lose lo hi).scrub = s.scrub := rfl
@[simp] theorem lose_power (s : State) (lo hi : Nat) : (s.lose lo hi).power = s.power := rfl
@[simp] theorem lose_issue (s : State) (lo hi : Nat) : (s.lose lo hi).issue = s.issue := rfl
@[simp] theorem lose_tiles (s : State) (lo hi : Nat) : (s.lose lo hi).tiles = s.tiles := rfl
@[simp] theorem lose_crown (s : State) (lo hi : Nat) : (s.lose lo hi).crown = s.crown := rfl
@[simp] theorem lose_flash (s : State) (lo hi : Nat) : (s.lose lo hi).flash = s.flash := rfl
@[simp] theorem lose_fuses (s : State) (lo hi : Nat) : (s.lose lo hi).fuses = s.fuses := rfl
@[simp] theorem lose_bist (s : State) (lo hi : Nat) : (s.lose lo hi).bist = s.bist := rfl
@[simp] theorem lose_tfw (s : State) (lo hi : Nat) : (s.lose lo hi).tfw = s.tfw := rfl
@[simp] theorem lose_msixPending (s : State) (lo hi : Nat) : (s.lose lo hi).msixPending = s.msixPending := rfl
@[simp] theorem lose_causes (s : State) (lo hi : Nat) : (s.lose lo hi).causes = s.causes := rfl
@[simp] theorem lose_rowfix (s : State) (lo hi : Nat) : (s.lose lo hi).rowfix = s.rowfix := rfl
@[simp] theorem lose_cclkW (s : State) (lo hi : Nat) : (s.lose lo hi).cclkW = s.cclkW := rfl
@[simp] theorem lose_cclkE (s : State) (lo hi : Nat) : (s.lose lo hi).cclkE = s.cclkE := rfl
@[simp] theorem lose_scale (s : State) (lo hi : Nat) : (s.lose lo hi).scale = s.scale := rfl
@[simp] theorem lose_bar (s : State) (lo hi : Nat) : (s.lose lo hi).bar = s.bar := rfl
@[simp] theorem lose_net (s : State) (lo hi : Nat) : (s.lose lo hi).net = s.net := rfl
@[simp] theorem lose_links (s : State) (lo hi : Nat) : (s.lose lo hi).links = s.links := rfl
@[simp] theorem lose_tokens (s : State) (lo hi : Nat) : (s.lose lo hi).tokens = s.tokens := rfl
@[simp] theorem lose_gone (s : State) (lo hi : Nat) : (s.lose lo hi).gone = s.gone := rfl
@[simp] theorem lose_step (s : State) (lo hi : Nat) : (s.lose lo hi).step = s.step := rfl
@[simp] theorem lose_ctx (s : State) (lo hi : Nat) : (s.lose lo hi).ctx = s.ctx := rfl
@[simp] theorem lose_twin (s : State) (lo hi : Nat) : (s.lose lo hi).twin = s.twin := rfl
@[simp] theorem lose_qnet (s : State) (lo hi : Nat) : (s.lose lo hi).qnet = s.qnet := rfl
@[simp] theorem lose_movers (s : State) (lo hi : Nat) : (s.lose lo hi).movers = s.movers := rfl
@[simp] theorem lose_posts (s : State) (lo hi : Nat) : (s.lose lo hi).posts = s.posts := rfl
@[simp] theorem lose_chk (s : State) (lo hi : Nat) : (s.lose lo hi).chk = s.chk := rfl
@[simp] theorem lose_train (s : State) (lo hi : Nat) : (s.lose lo hi).train = s.train := rfl
@[simp] theorem lose_pcie (s : State) (lo hi : Nat) : (s.lose lo hi).pcie = s.pcie := rfl
@[simp] theorem lose_timers (s : State) (lo hi : Nat) : (s.lose lo hi).timers = s.timers := rfl
@[simp] theorem lose_caps (s : State) (lo hi : Nat) : (s.lose lo hi).caps = s.caps := rfl
@[simp] theorem lose_panel (s : State) (lo hi : Nat) : (s.lose lo hi).panel = s.panel := rfl
@[simp] theorem lose_out (s : State) (lo hi : Nat) : (s.lose lo hi).out = s.out := rfl
@[simp] theorem lose_pending (s : State) (lo hi : Nat) : (s.lose lo hi).pending = s.pending := rfl

/-! zero -/
@[simp] theorem zero_regs (s : State) (lo hi : Nat) : (s.zero lo hi).regs = s.regs := rfl
@[simp] theorem zero_shadows (s : State) (lo hi : Nat) : (s.zero lo hi).shadows = s.shadows := rfl
@[simp] theorem zero_checking (s : State) (lo hi : Nat) : (s.zero lo hi).checking = s.checking := rfl
@[simp] theorem zero_slow (s : State) (lo hi : Nat) : (s.zero lo hi).slow = s.slow := rfl
@[simp] theorem zero_rdata (s : State) (lo hi : Nat) : (s.zero lo hi).rdata = s.rdata := rfl
@[simp] theorem zero_bridge (s : State) (lo hi : Nat) : (s.zero lo hi).bridge = s.bridge := rfl
@[simp] theorem zero_bankTo (s : State) (lo hi : Nat) : (s.zero lo hi).bankTo = s.bankTo := rfl
@[simp] theorem zero_scrub (s : State) (lo hi : Nat) : (s.zero lo hi).scrub = s.scrub := rfl
@[simp] theorem zero_power (s : State) (lo hi : Nat) : (s.zero lo hi).power = s.power := rfl
@[simp] theorem zero_issue (s : State) (lo hi : Nat) : (s.zero lo hi).issue = s.issue := rfl
@[simp] theorem zero_tiles (s : State) (lo hi : Nat) : (s.zero lo hi).tiles = s.tiles := rfl
@[simp] theorem zero_crown (s : State) (lo hi : Nat) : (s.zero lo hi).crown = s.crown := rfl
@[simp] theorem zero_flash (s : State) (lo hi : Nat) : (s.zero lo hi).flash = s.flash := rfl
@[simp] theorem zero_fuses (s : State) (lo hi : Nat) : (s.zero lo hi).fuses = s.fuses := rfl
@[simp] theorem zero_bist (s : State) (lo hi : Nat) : (s.zero lo hi).bist = s.bist := rfl
@[simp] theorem zero_tfw (s : State) (lo hi : Nat) : (s.zero lo hi).tfw = s.tfw := rfl
@[simp] theorem zero_msixPending (s : State) (lo hi : Nat) : (s.zero lo hi).msixPending = s.msixPending := rfl
@[simp] theorem zero_causes (s : State) (lo hi : Nat) : (s.zero lo hi).causes = s.causes := rfl
@[simp] theorem zero_rowfix (s : State) (lo hi : Nat) : (s.zero lo hi).rowfix = s.rowfix := rfl
@[simp] theorem zero_cclkW (s : State) (lo hi : Nat) : (s.zero lo hi).cclkW = s.cclkW := rfl
@[simp] theorem zero_cclkE (s : State) (lo hi : Nat) : (s.zero lo hi).cclkE = s.cclkE := rfl
@[simp] theorem zero_scale (s : State) (lo hi : Nat) : (s.zero lo hi).scale = s.scale := rfl
@[simp] theorem zero_bar (s : State) (lo hi : Nat) : (s.zero lo hi).bar = s.bar := rfl
@[simp] theorem zero_net (s : State) (lo hi : Nat) : (s.zero lo hi).net = s.net := rfl
@[simp] theorem zero_links (s : State) (lo hi : Nat) : (s.zero lo hi).links = s.links := rfl
@[simp] theorem zero_tokens (s : State) (lo hi : Nat) : (s.zero lo hi).tokens = s.tokens := rfl
@[simp] theorem zero_gone (s : State) (lo hi : Nat) : (s.zero lo hi).gone = s.gone := rfl
@[simp] theorem zero_step (s : State) (lo hi : Nat) : (s.zero lo hi).step = s.step := rfl
@[simp] theorem zero_ctx (s : State) (lo hi : Nat) : (s.zero lo hi).ctx = s.ctx := rfl
@[simp] theorem zero_twin (s : State) (lo hi : Nat) : (s.zero lo hi).twin = s.twin := rfl
@[simp] theorem zero_qnet (s : State) (lo hi : Nat) : (s.zero lo hi).qnet = s.qnet := rfl
@[simp] theorem zero_movers (s : State) (lo hi : Nat) : (s.zero lo hi).movers = s.movers := rfl
@[simp] theorem zero_posts (s : State) (lo hi : Nat) : (s.zero lo hi).posts = s.posts := rfl
@[simp] theorem zero_chk (s : State) (lo hi : Nat) : (s.zero lo hi).chk = s.chk := rfl
@[simp] theorem zero_train (s : State) (lo hi : Nat) : (s.zero lo hi).train = s.train := rfl
@[simp] theorem zero_pcie (s : State) (lo hi : Nat) : (s.zero lo hi).pcie = s.pcie := rfl
@[simp] theorem zero_timers (s : State) (lo hi : Nat) : (s.zero lo hi).timers = s.timers := rfl
@[simp] theorem zero_caps (s : State) (lo hi : Nat) : (s.zero lo hi).caps = s.caps := rfl
@[simp] theorem zero_panel (s : State) (lo hi : Nat) : (s.zero lo hi).panel = s.panel := rfl
@[simp] theorem zero_out (s : State) (lo hi : Nat) : (s.zero lo hi).out = s.out := rfl
@[simp] theorem zero_fresh (s : State) (lo hi : Nat) : (s.zero lo hi).fresh = s.fresh := rfl
@[simp] theorem zero_pending (s : State) (lo hi : Nat) : (s.zero lo hi).pending = s.pending := rfl

/-! cleanWords -/
@[simp] theorem cleanWords_regs (s : State) (ws : List Nat) : (s.cleanWords ws).regs = s.regs := rfl
@[simp] theorem cleanWords_shadows (s : State) (ws : List Nat) : (s.cleanWords ws).shadows = s.shadows := rfl
@[simp] theorem cleanWords_checking (s : State) (ws : List Nat) : (s.cleanWords ws).checking = s.checking := rfl
@[simp] theorem cleanWords_slow (s : State) (ws : List Nat) : (s.cleanWords ws).slow = s.slow := rfl
@[simp] theorem cleanWords_rdata (s : State) (ws : List Nat) : (s.cleanWords ws).rdata = s.rdata := rfl
@[simp] theorem cleanWords_bridge (s : State) (ws : List Nat) : (s.cleanWords ws).bridge = s.bridge := rfl
@[simp] theorem cleanWords_mem (s : State) (ws : List Nat) : (s.cleanWords ws).mem = s.mem := rfl
@[simp] theorem cleanWords_undef (s : State) (ws : List Nat) : (s.cleanWords ws).undef = s.undef := rfl
@[simp] theorem cleanWords_bankTo (s : State) (ws : List Nat) : (s.cleanWords ws).bankTo = s.bankTo := rfl
@[simp] theorem cleanWords_scrub (s : State) (ws : List Nat) : (s.cleanWords ws).scrub = s.scrub := rfl
@[simp] theorem cleanWords_power (s : State) (ws : List Nat) : (s.cleanWords ws).power = s.power := rfl
@[simp] theorem cleanWords_issue (s : State) (ws : List Nat) : (s.cleanWords ws).issue = s.issue := rfl
@[simp] theorem cleanWords_tiles (s : State) (ws : List Nat) : (s.cleanWords ws).tiles = s.tiles := rfl
@[simp] theorem cleanWords_crown (s : State) (ws : List Nat) : (s.cleanWords ws).crown = s.crown := rfl
@[simp] theorem cleanWords_flash (s : State) (ws : List Nat) : (s.cleanWords ws).flash = s.flash := rfl
@[simp] theorem cleanWords_fuses (s : State) (ws : List Nat) : (s.cleanWords ws).fuses = s.fuses := rfl
@[simp] theorem cleanWords_bist (s : State) (ws : List Nat) : (s.cleanWords ws).bist = s.bist := rfl
@[simp] theorem cleanWords_tfw (s : State) (ws : List Nat) : (s.cleanWords ws).tfw = s.tfw := rfl
@[simp] theorem cleanWords_msixPending (s : State) (ws : List Nat) : (s.cleanWords ws).msixPending = s.msixPending := rfl
@[simp] theorem cleanWords_causes (s : State) (ws : List Nat) : (s.cleanWords ws).causes = s.causes := rfl
@[simp] theorem cleanWords_rowfix (s : State) (ws : List Nat) : (s.cleanWords ws).rowfix = s.rowfix := rfl
@[simp] theorem cleanWords_cclkW (s : State) (ws : List Nat) : (s.cleanWords ws).cclkW = s.cclkW := rfl
@[simp] theorem cleanWords_cclkE (s : State) (ws : List Nat) : (s.cleanWords ws).cclkE = s.cclkE := rfl
@[simp] theorem cleanWords_scale (s : State) (ws : List Nat) : (s.cleanWords ws).scale = s.scale := rfl
@[simp] theorem cleanWords_bar (s : State) (ws : List Nat) : (s.cleanWords ws).bar = s.bar := rfl
@[simp] theorem cleanWords_net (s : State) (ws : List Nat) : (s.cleanWords ws).net = s.net := rfl
@[simp] theorem cleanWords_links (s : State) (ws : List Nat) : (s.cleanWords ws).links = s.links := rfl
@[simp] theorem cleanWords_tokens (s : State) (ws : List Nat) : (s.cleanWords ws).tokens = s.tokens := rfl
@[simp] theorem cleanWords_gone (s : State) (ws : List Nat) : (s.cleanWords ws).gone = s.gone := rfl
@[simp] theorem cleanWords_step (s : State) (ws : List Nat) : (s.cleanWords ws).step = s.step := rfl
@[simp] theorem cleanWords_ctx (s : State) (ws : List Nat) : (s.cleanWords ws).ctx = s.ctx := rfl
@[simp] theorem cleanWords_twin (s : State) (ws : List Nat) : (s.cleanWords ws).twin = s.twin := rfl
@[simp] theorem cleanWords_qnet (s : State) (ws : List Nat) : (s.cleanWords ws).qnet = s.qnet := rfl
@[simp] theorem cleanWords_movers (s : State) (ws : List Nat) : (s.cleanWords ws).movers = s.movers := rfl
@[simp] theorem cleanWords_posts (s : State) (ws : List Nat) : (s.cleanWords ws).posts = s.posts := rfl
@[simp] theorem cleanWords_chk (s : State) (ws : List Nat) : (s.cleanWords ws).chk = s.chk := rfl
@[simp] theorem cleanWords_train (s : State) (ws : List Nat) : (s.cleanWords ws).train = s.train := rfl
@[simp] theorem cleanWords_pcie (s : State) (ws : List Nat) : (s.cleanWords ws).pcie = s.pcie := rfl
@[simp] theorem cleanWords_timers (s : State) (ws : List Nat) : (s.cleanWords ws).timers = s.timers := rfl
@[simp] theorem cleanWords_caps (s : State) (ws : List Nat) : (s.cleanWords ws).caps = s.caps := rfl
@[simp] theorem cleanWords_panel (s : State) (ws : List Nat) : (s.cleanWords ws).panel = s.panel := rfl
@[simp] theorem cleanWords_out (s : State) (ws : List Nat) : (s.cleanWords ws).out = s.out := rfl
@[simp] theorem cleanWords_fresh (s : State) (ws : List Nat) : (s.cleanWords ws).fresh = s.fresh := rfl
@[simp] theorem cleanWords_pending (s : State) (ws : List Nat) : (s.cleanWords ws).pending = s.pending := rfl

/-! flipBit -/
@[simp] theorem flipBit_regs (s : State) (w b : Nat) : (s.flipBit w b).regs = s.regs := rfl
@[simp] theorem flipBit_shadows (s : State) (w b : Nat) : (s.flipBit w b).shadows = s.shadows := rfl
@[simp] theorem flipBit_checking (s : State) (w b : Nat) : (s.flipBit w b).checking = s.checking := rfl
@[simp] theorem flipBit_slow (s : State) (w b : Nat) : (s.flipBit w b).slow = s.slow := rfl
@[simp] theorem flipBit_rdata (s : State) (w b : Nat) : (s.flipBit w b).rdata = s.rdata := rfl
@[simp] theorem flipBit_bridge (s : State) (w b : Nat) : (s.flipBit w b).bridge = s.bridge := rfl
@[simp] theorem flipBit_mem (s : State) (w b : Nat) : (s.flipBit w b).mem = s.mem := rfl
@[simp] theorem flipBit_undef (s : State) (w b : Nat) : (s.flipBit w b).undef = s.undef := rfl
@[simp] theorem flipBit_writebacks (s : State) (w b : Nat) : (s.flipBit w b).writebacks = s.writebacks := rfl
@[simp] theorem flipBit_bankTo (s : State) (w b : Nat) : (s.flipBit w b).bankTo = s.bankTo := rfl
@[simp] theorem flipBit_scrub (s : State) (w b : Nat) : (s.flipBit w b).scrub = s.scrub := rfl
@[simp] theorem flipBit_power (s : State) (w b : Nat) : (s.flipBit w b).power = s.power := rfl
@[simp] theorem flipBit_issue (s : State) (w b : Nat) : (s.flipBit w b).issue = s.issue := rfl
@[simp] theorem flipBit_tiles (s : State) (w b : Nat) : (s.flipBit w b).tiles = s.tiles := rfl
@[simp] theorem flipBit_crown (s : State) (w b : Nat) : (s.flipBit w b).crown = s.crown := rfl
@[simp] theorem flipBit_flash (s : State) (w b : Nat) : (s.flipBit w b).flash = s.flash := rfl
@[simp] theorem flipBit_fuses (s : State) (w b : Nat) : (s.flipBit w b).fuses = s.fuses := rfl
@[simp] theorem flipBit_bist (s : State) (w b : Nat) : (s.flipBit w b).bist = s.bist := rfl
@[simp] theorem flipBit_tfw (s : State) (w b : Nat) : (s.flipBit w b).tfw = s.tfw := rfl
@[simp] theorem flipBit_msixPending (s : State) (w b : Nat) : (s.flipBit w b).msixPending = s.msixPending := rfl
@[simp] theorem flipBit_causes (s : State) (w b : Nat) : (s.flipBit w b).causes = s.causes := rfl
@[simp] theorem flipBit_rowfix (s : State) (w b : Nat) : (s.flipBit w b).rowfix = s.rowfix := rfl
@[simp] theorem flipBit_cclkW (s : State) (w b : Nat) : (s.flipBit w b).cclkW = s.cclkW := rfl
@[simp] theorem flipBit_cclkE (s : State) (w b : Nat) : (s.flipBit w b).cclkE = s.cclkE := rfl
@[simp] theorem flipBit_scale (s : State) (w b : Nat) : (s.flipBit w b).scale = s.scale := rfl
@[simp] theorem flipBit_bar (s : State) (w b : Nat) : (s.flipBit w b).bar = s.bar := rfl
@[simp] theorem flipBit_net (s : State) (w b : Nat) : (s.flipBit w b).net = s.net := rfl
@[simp] theorem flipBit_links (s : State) (w b : Nat) : (s.flipBit w b).links = s.links := rfl
@[simp] theorem flipBit_tokens (s : State) (w b : Nat) : (s.flipBit w b).tokens = s.tokens := rfl
@[simp] theorem flipBit_gone (s : State) (w b : Nat) : (s.flipBit w b).gone = s.gone := rfl
@[simp] theorem flipBit_step (s : State) (w b : Nat) : (s.flipBit w b).step = s.step := rfl
@[simp] theorem flipBit_ctx (s : State) (w b : Nat) : (s.flipBit w b).ctx = s.ctx := rfl
@[simp] theorem flipBit_twin (s : State) (w b : Nat) : (s.flipBit w b).twin = s.twin := rfl
@[simp] theorem flipBit_qnet (s : State) (w b : Nat) : (s.flipBit w b).qnet = s.qnet := rfl
@[simp] theorem flipBit_movers (s : State) (w b : Nat) : (s.flipBit w b).movers = s.movers := rfl
@[simp] theorem flipBit_posts (s : State) (w b : Nat) : (s.flipBit w b).posts = s.posts := rfl
@[simp] theorem flipBit_chk (s : State) (w b : Nat) : (s.flipBit w b).chk = s.chk := rfl
@[simp] theorem flipBit_train (s : State) (w b : Nat) : (s.flipBit w b).train = s.train := rfl
@[simp] theorem flipBit_pcie (s : State) (w b : Nat) : (s.flipBit w b).pcie = s.pcie := rfl
@[simp] theorem flipBit_timers (s : State) (w b : Nat) : (s.flipBit w b).timers = s.timers := rfl
@[simp] theorem flipBit_caps (s : State) (w b : Nat) : (s.flipBit w b).caps = s.caps := rfl
@[simp] theorem flipBit_panel (s : State) (w b : Nat) : (s.flipBit w b).panel = s.panel := rfl
@[simp] theorem flipBit_out (s : State) (w b : Nat) : (s.flipBit w b).out = s.out := rfl
@[simp] theorem flipBit_fresh (s : State) (w b : Nat) : (s.flipBit w b).fresh = s.fresh := rfl
@[simp] theorem flipBit_pending (s : State) (w b : Nat) : (s.flipBit w b).pending = s.pending := rfl

/-! modIssue -/
@[simp] theorem modIssue_regs (s : State) (f : IssueS → IssueS) : (s.modIssue f).regs = s.regs := rfl
@[simp] theorem modIssue_shadows (s : State) (f : IssueS → IssueS) : (s.modIssue f).shadows = s.shadows := rfl
@[simp] theorem modIssue_checking (s : State) (f : IssueS → IssueS) : (s.modIssue f).checking = s.checking := rfl
@[simp] theorem modIssue_slow (s : State) (f : IssueS → IssueS) : (s.modIssue f).slow = s.slow := rfl
@[simp] theorem modIssue_rdata (s : State) (f : IssueS → IssueS) : (s.modIssue f).rdata = s.rdata := rfl
@[simp] theorem modIssue_bridge (s : State) (f : IssueS → IssueS) : (s.modIssue f).bridge = s.bridge := rfl
@[simp] theorem modIssue_mem (s : State) (f : IssueS → IssueS) : (s.modIssue f).mem = s.mem := rfl
@[simp] theorem modIssue_undef (s : State) (f : IssueS → IssueS) : (s.modIssue f).undef = s.undef := rfl
@[simp] theorem modIssue_flips (s : State) (f : IssueS → IssueS) : (s.modIssue f).flips = s.flips := rfl
@[simp] theorem modIssue_writebacks (s : State) (f : IssueS → IssueS) : (s.modIssue f).writebacks = s.writebacks := rfl
@[simp] theorem modIssue_bankTo (s : State) (f : IssueS → IssueS) : (s.modIssue f).bankTo = s.bankTo := rfl
@[simp] theorem modIssue_scrub (s : State) (f : IssueS → IssueS) : (s.modIssue f).scrub = s.scrub := rfl
@[simp] theorem modIssue_power (s : State) (f : IssueS → IssueS) : (s.modIssue f).power = s.power := rfl
@[simp] theorem modIssue_tiles (s : State) (f : IssueS → IssueS) : (s.modIssue f).tiles = s.tiles := rfl
@[simp] theorem modIssue_crown (s : State) (f : IssueS → IssueS) : (s.modIssue f).crown = s.crown := rfl
@[simp] theorem modIssue_flash (s : State) (f : IssueS → IssueS) : (s.modIssue f).flash = s.flash := rfl
@[simp] theorem modIssue_fuses (s : State) (f : IssueS → IssueS) : (s.modIssue f).fuses = s.fuses := rfl
@[simp] theorem modIssue_bist (s : State) (f : IssueS → IssueS) : (s.modIssue f).bist = s.bist := rfl
@[simp] theorem modIssue_tfw (s : State) (f : IssueS → IssueS) : (s.modIssue f).tfw = s.tfw := rfl
@[simp] theorem modIssue_msixPending (s : State) (f : IssueS → IssueS) : (s.modIssue f).msixPending = s.msixPending := rfl
@[simp] theorem modIssue_causes (s : State) (f : IssueS → IssueS) : (s.modIssue f).causes = s.causes := rfl
@[simp] theorem modIssue_rowfix (s : State) (f : IssueS → IssueS) : (s.modIssue f).rowfix = s.rowfix := rfl
@[simp] theorem modIssue_cclkW (s : State) (f : IssueS → IssueS) : (s.modIssue f).cclkW = s.cclkW := rfl
@[simp] theorem modIssue_cclkE (s : State) (f : IssueS → IssueS) : (s.modIssue f).cclkE = s.cclkE := rfl
@[simp] theorem modIssue_scale (s : State) (f : IssueS → IssueS) : (s.modIssue f).scale = s.scale := rfl
@[simp] theorem modIssue_bar (s : State) (f : IssueS → IssueS) : (s.modIssue f).bar = s.bar := rfl
@[simp] theorem modIssue_net (s : State) (f : IssueS → IssueS) : (s.modIssue f).net = s.net := rfl
@[simp] theorem modIssue_links (s : State) (f : IssueS → IssueS) : (s.modIssue f).links = s.links := rfl
@[simp] theorem modIssue_tokens (s : State) (f : IssueS → IssueS) : (s.modIssue f).tokens = s.tokens := rfl
@[simp] theorem modIssue_gone (s : State) (f : IssueS → IssueS) : (s.modIssue f).gone = s.gone := rfl
@[simp] theorem modIssue_step (s : State) (f : IssueS → IssueS) : (s.modIssue f).step = s.step := rfl
@[simp] theorem modIssue_ctx (s : State) (f : IssueS → IssueS) : (s.modIssue f).ctx = s.ctx := rfl
@[simp] theorem modIssue_twin (s : State) (f : IssueS → IssueS) : (s.modIssue f).twin = s.twin := rfl
@[simp] theorem modIssue_qnet (s : State) (f : IssueS → IssueS) : (s.modIssue f).qnet = s.qnet := rfl
@[simp] theorem modIssue_movers (s : State) (f : IssueS → IssueS) : (s.modIssue f).movers = s.movers := rfl
@[simp] theorem modIssue_posts (s : State) (f : IssueS → IssueS) : (s.modIssue f).posts = s.posts := rfl
@[simp] theorem modIssue_chk (s : State) (f : IssueS → IssueS) : (s.modIssue f).chk = s.chk := rfl
@[simp] theorem modIssue_train (s : State) (f : IssueS → IssueS) : (s.modIssue f).train = s.train := rfl
@[simp] theorem modIssue_pcie (s : State) (f : IssueS → IssueS) : (s.modIssue f).pcie = s.pcie := rfl
@[simp] theorem modIssue_timers (s : State) (f : IssueS → IssueS) : (s.modIssue f).timers = s.timers := rfl
@[simp] theorem modIssue_caps (s : State) (f : IssueS → IssueS) : (s.modIssue f).caps = s.caps := rfl
@[simp] theorem modIssue_panel (s : State) (f : IssueS → IssueS) : (s.modIssue f).panel = s.panel := rfl
@[simp] theorem modIssue_out (s : State) (f : IssueS → IssueS) : (s.modIssue f).out = s.out := rfl
@[simp] theorem modIssue_fresh (s : State) (f : IssueS → IssueS) : (s.modIssue f).fresh = s.fresh := rfl
@[simp] theorem modIssue_pending (s : State) (f : IssueS → IssueS) : (s.modIssue f).pending = s.pending := rfl

/-! note: only the account of causes changes. -/
theorem note_all (s : State) (pg b : Nat) : { s.note pg b with causes := s.causes } = s := by unfold note; split <;> rfl
@[simp] theorem note_regs (s : State) (pg b : Nat) : (s.note pg b).regs = s.regs := by unfold note; split <;> rfl
@[simp] theorem note_shadows (s : State) (pg b : Nat) : (s.note pg b).shadows = s.shadows := by unfold note; split <;> rfl
@[simp] theorem note_checking (s : State) (pg b : Nat) : (s.note pg b).checking = s.checking := by unfold note; split <;> rfl
@[simp] theorem note_slow (s : State) (pg b : Nat) : (s.note pg b).slow = s.slow := by unfold note; split <;> rfl
@[simp] theorem note_rdata (s : State) (pg b : Nat) : (s.note pg b).rdata = s.rdata := by unfold note; split <;> rfl
@[simp] theorem note_bridge (s : State) (pg b : Nat) : (s.note pg b).bridge = s.bridge := by unfold note; split <;> rfl
@[simp] theorem note_mem (s : State) (pg b : Nat) : (s.note pg b).mem = s.mem := by unfold note; split <;> rfl
@[simp] theorem note_undef (s : State) (pg b : Nat) : (s.note pg b).undef = s.undef := by unfold note; split <;> rfl
@[simp] theorem note_flips (s : State) (pg b : Nat) : (s.note pg b).flips = s.flips := by unfold note; split <;> rfl
@[simp] theorem note_writebacks (s : State) (pg b : Nat) : (s.note pg b).writebacks = s.writebacks := by unfold note; split <;> rfl
@[simp] theorem note_bankTo (s : State) (pg b : Nat) : (s.note pg b).bankTo = s.bankTo := by unfold note; split <;> rfl
@[simp] theorem note_scrub (s : State) (pg b : Nat) : (s.note pg b).scrub = s.scrub := by unfold note; split <;> rfl
@[simp] theorem note_power (s : State) (pg b : Nat) : (s.note pg b).power = s.power := by unfold note; split <;> rfl
@[simp] theorem note_tiles (s : State) (pg b : Nat) : (s.note pg b).tiles = s.tiles := by unfold note; split <;> rfl
@[simp] theorem note_crown (s : State) (pg b : Nat) : (s.note pg b).crown = s.crown := by unfold note; split <;> rfl
@[simp] theorem note_flash (s : State) (pg b : Nat) : (s.note pg b).flash = s.flash := by unfold note; split <;> rfl
@[simp] theorem note_fuses (s : State) (pg b : Nat) : (s.note pg b).fuses = s.fuses := by unfold note; split <;> rfl
@[simp] theorem note_bist (s : State) (pg b : Nat) : (s.note pg b).bist = s.bist := by unfold note; split <;> rfl
@[simp] theorem note_tfw (s : State) (pg b : Nat) : (s.note pg b).tfw = s.tfw := by unfold note; split <;> rfl
@[simp] theorem note_msixPending (s : State) (pg b : Nat) : (s.note pg b).msixPending = s.msixPending := by unfold note; split <;> rfl
@[simp] theorem note_rowfix (s : State) (pg b : Nat) : (s.note pg b).rowfix = s.rowfix := by unfold note; split <;> rfl
@[simp] theorem note_cclkW (s : State) (pg b : Nat) : (s.note pg b).cclkW = s.cclkW := by unfold note; split <;> rfl
@[simp] theorem note_cclkE (s : State) (pg b : Nat) : (s.note pg b).cclkE = s.cclkE := by unfold note; split <;> rfl
@[simp] theorem note_scale (s : State) (pg b : Nat) : (s.note pg b).scale = s.scale := by unfold note; split <;> rfl
@[simp] theorem note_bar (s : State) (pg b : Nat) : (s.note pg b).bar = s.bar := by unfold note; split <;> rfl
@[simp] theorem note_net (s : State) (pg b : Nat) : (s.note pg b).net = s.net := by unfold note; split <;> rfl
@[simp] theorem note_links (s : State) (pg b : Nat) : (s.note pg b).links = s.links := by unfold note; split <;> rfl
@[simp] theorem note_tokens (s : State) (pg b : Nat) : (s.note pg b).tokens = s.tokens := by unfold note; split <;> rfl
@[simp] theorem note_gone (s : State) (pg b : Nat) : (s.note pg b).gone = s.gone := by unfold note; split <;> rfl
@[simp] theorem note_step (s : State) (pg b : Nat) : (s.note pg b).step = s.step := by unfold note; split <;> rfl
@[simp] theorem note_ctx (s : State) (pg b : Nat) : (s.note pg b).ctx = s.ctx := by unfold note; split <;> rfl
@[simp] theorem note_twin (s : State) (pg b : Nat) : (s.note pg b).twin = s.twin := by unfold note; split <;> rfl
@[simp] theorem note_qnet (s : State) (pg b : Nat) : (s.note pg b).qnet = s.qnet := by unfold note; split <;> rfl
@[simp] theorem note_movers (s : State) (pg b : Nat) : (s.note pg b).movers = s.movers := by unfold note; split <;> rfl
@[simp] theorem note_posts (s : State) (pg b : Nat) : (s.note pg b).posts = s.posts := by unfold note; split <;> rfl
@[simp] theorem note_chk (s : State) (pg b : Nat) : (s.note pg b).chk = s.chk := by unfold note; split <;> rfl
@[simp] theorem note_train (s : State) (pg b : Nat) : (s.note pg b).train = s.train := by unfold note; split <;> rfl
@[simp] theorem note_pcie (s : State) (pg b : Nat) : (s.note pg b).pcie = s.pcie := by unfold note; split <;> rfl
@[simp] theorem note_timers (s : State) (pg b : Nat) : (s.note pg b).timers = s.timers := by unfold note; split <;> rfl
@[simp] theorem note_caps (s : State) (pg b : Nat) : (s.note pg b).caps = s.caps := by unfold note; split <;> rfl
@[simp] theorem note_panel (s : State) (pg b : Nat) : (s.note pg b).panel = s.panel := by unfold note; split <;> rfl
@[simp] theorem note_out (s : State) (pg b : Nat) : (s.note pg b).out = s.out := by unfold note; split <;> rfl
@[simp] theorem note_fresh (s : State) (pg b : Nat) : (s.note pg b).fresh = s.fresh := by unfold note; split <;> rfl
@[simp] theorem note_pending (s : State) (pg b : Nat) : (s.note pg b).pending = s.pending := by unfold note; split <;> rfl
@[simp] theorem note_get (s : State) (pg b : Nat) (g : Field) : (s.note pg b).get g = s.get g := by unfold note; split <;> rfl
@[simp] theorem note_issue (s : State) (pg b : Nat) : (s.note pg b).issue = s.issue := by unfold note; split <;> rfl

theorem sendIrq_all (s : State) (pg : Nat) : { s.sendIrq pg with out := s.out, msixPending := s.msixPending } = s := by
  unfold sendIrq; split
  · rfl
  · rfl
  · rfl
  · split <;> rfl

theorem irqEdge_all (s : State) (pg b : Nat) : { s.irqEdge pg b with out := s.out, msixPending := s.msixPending } = s := by
  unfold irqEdge; split
  · exact sendIrq_all s pg
  · rfl


/-! sendIrq -/
@[simp] theorem sendIrq_regs (s : State) (pg : Nat) : (s.sendIrq pg).regs = s.regs := by have h := congrArg State.regs (sendIrq_all s pg); exact h
@[simp] theorem sendIrq_shadows (s : State) (pg : Nat) : (s.sendIrq pg).shadows = s.shadows := by have h := congrArg State.shadows (sendIrq_all s pg); exact h
@[simp] theorem sendIrq_checking (s : State) (pg : Nat) : (s.sendIrq pg).checking = s.checking := by have h := congrArg State.checking (sendIrq_all s pg); exact h
@[simp] theorem sendIrq_slow (s : State) (pg : Nat) : (s.sendIrq pg).slow = s.slow := by have h := congrArg State.slow (sendIrq_all s pg); exact h
@[simp] theorem sendIrq_rdata (s : State) (pg : Nat) : (s.sendIrq pg).rdata = s.rdata := by have h := congrArg State.rdata (sendIrq_all s pg); exact h
@[simp] theorem sendIrq_bridge (s : State) (pg : Nat) : (s.sendIrq pg).bridge = s.bridge := by have h := congrArg State.bridge (sendIrq_all s pg); exact h
@[simp] theorem sendIrq_mem (s : State) (pg : Nat) : (s.sendIrq pg).mem = s.mem := by have h := congrArg State.mem (sendIrq_all s pg); exact h
@[simp] theorem sendIrq_undef (s : State) (pg : Nat) : (s.sendIrq pg).undef = s.undef := by have h := congrArg State.undef (sendIrq_all s pg); exact h
@[simp] theorem sendIrq_flips (s : State) (pg : Nat) : (s.sendIrq pg).flips = s.flips := by have h := congrArg State.flips (sendIrq_all s pg); exact h
@[simp] theorem sendIrq_writebacks (s : State) (pg : Nat) : (s.sendIrq pg).writebacks = s.writebacks := by have h := congrArg State.writebacks (sendIrq_all s pg); exact h
@[simp] theorem sendIrq_bankTo (s : State) (pg : Nat) : (s.sendIrq pg).bankTo = s.bankTo := by have h := congrArg State.bankTo (sendIrq_all s pg); exact h
@[simp] theorem sendIrq_scrub (s : State) (pg : Nat) : (s.sendIrq pg).scrub = s.scrub := by have h := congrArg State.scrub (sendIrq_all s pg); exact h
@[simp] theorem sendIrq_power (s : State) (pg : Nat) : (s.sendIrq pg).power = s.power := by have h := congrArg State.power (sendIrq_all s pg); exact h
@[simp] theorem sendIrq_issue (s : State) (pg : Nat) : (s.sendIrq pg).issue = s.issue := by have h := congrArg State.issue (sendIrq_all s pg); exact h
@[simp] theorem sendIrq_tiles (s : State) (pg : Nat) : (s.sendIrq pg).tiles = s.tiles := by have h := congrArg State.tiles (sendIrq_all s pg); exact h
@[simp] theorem sendIrq_crown (s : State) (pg : Nat) : (s.sendIrq pg).crown = s.crown := by have h := congrArg State.crown (sendIrq_all s pg); exact h
@[simp] theorem sendIrq_flash (s : State) (pg : Nat) : (s.sendIrq pg).flash = s.flash := by have h := congrArg State.flash (sendIrq_all s pg); exact h
@[simp] theorem sendIrq_fuses (s : State) (pg : Nat) : (s.sendIrq pg).fuses = s.fuses := by have h := congrArg State.fuses (sendIrq_all s pg); exact h
@[simp] theorem sendIrq_bist (s : State) (pg : Nat) : (s.sendIrq pg).bist = s.bist := by have h := congrArg State.bist (sendIrq_all s pg); exact h
@[simp] theorem sendIrq_tfw (s : State) (pg : Nat) : (s.sendIrq pg).tfw = s.tfw := by have h := congrArg State.tfw (sendIrq_all s pg); exact h
@[simp] theorem sendIrq_rowfix (s : State) (pg : Nat) : (s.sendIrq pg).rowfix = s.rowfix := by have h := congrArg State.rowfix (sendIrq_all s pg); exact h
@[simp] theorem sendIrq_cclkW (s : State) (pg : Nat) : (s.sendIrq pg).cclkW = s.cclkW := by have h := congrArg State.cclkW (sendIrq_all s pg); exact h
@[simp] theorem sendIrq_cclkE (s : State) (pg : Nat) : (s.sendIrq pg).cclkE = s.cclkE := by have h := congrArg State.cclkE (sendIrq_all s pg); exact h
@[simp] theorem sendIrq_scale (s : State) (pg : Nat) : (s.sendIrq pg).scale = s.scale := by have h := congrArg State.scale (sendIrq_all s pg); exact h
@[simp] theorem sendIrq_bar (s : State) (pg : Nat) : (s.sendIrq pg).bar = s.bar := by have h := congrArg State.bar (sendIrq_all s pg); exact h
@[simp] theorem sendIrq_net (s : State) (pg : Nat) : (s.sendIrq pg).net = s.net := by have h := congrArg State.net (sendIrq_all s pg); exact h
@[simp] theorem sendIrq_links (s : State) (pg : Nat) : (s.sendIrq pg).links = s.links := by have h := congrArg State.links (sendIrq_all s pg); exact h
@[simp] theorem sendIrq_tokens (s : State) (pg : Nat) : (s.sendIrq pg).tokens = s.tokens := by have h := congrArg State.tokens (sendIrq_all s pg); exact h
@[simp] theorem sendIrq_gone (s : State) (pg : Nat) : (s.sendIrq pg).gone = s.gone := by have h := congrArg State.gone (sendIrq_all s pg); exact h
@[simp] theorem sendIrq_step (s : State) (pg : Nat) : (s.sendIrq pg).step = s.step := by have h := congrArg State.step (sendIrq_all s pg); exact h
@[simp] theorem sendIrq_ctx (s : State) (pg : Nat) : (s.sendIrq pg).ctx = s.ctx := by have h := congrArg State.ctx (sendIrq_all s pg); exact h
@[simp] theorem sendIrq_twin (s : State) (pg : Nat) : (s.sendIrq pg).twin = s.twin := by have h := congrArg State.twin (sendIrq_all s pg); exact h
@[simp] theorem sendIrq_qnet (s : State) (pg : Nat) : (s.sendIrq pg).qnet = s.qnet := by have h := congrArg State.qnet (sendIrq_all s pg); exact h
@[simp] theorem sendIrq_movers (s : State) (pg : Nat) : (s.sendIrq pg).movers = s.movers := by have h := congrArg State.movers (sendIrq_all s pg); exact h
@[simp] theorem sendIrq_posts (s : State) (pg : Nat) : (s.sendIrq pg).posts = s.posts := by have h := congrArg State.posts (sendIrq_all s pg); exact h
@[simp] theorem sendIrq_chk (s : State) (pg : Nat) : (s.sendIrq pg).chk = s.chk := by have h := congrArg State.chk (sendIrq_all s pg); exact h
@[simp] theorem sendIrq_train (s : State) (pg : Nat) : (s.sendIrq pg).train = s.train := by have h := congrArg State.train (sendIrq_all s pg); exact h
@[simp] theorem sendIrq_pcie (s : State) (pg : Nat) : (s.sendIrq pg).pcie = s.pcie := by have h := congrArg State.pcie (sendIrq_all s pg); exact h
@[simp] theorem sendIrq_timers (s : State) (pg : Nat) : (s.sendIrq pg).timers = s.timers := by have h := congrArg State.timers (sendIrq_all s pg); exact h
@[simp] theorem sendIrq_caps (s : State) (pg : Nat) : (s.sendIrq pg).caps = s.caps := by have h := congrArg State.caps (sendIrq_all s pg); exact h
@[simp] theorem sendIrq_panel (s : State) (pg : Nat) : (s.sendIrq pg).panel = s.panel := by have h := congrArg State.panel (sendIrq_all s pg); exact h
@[simp] theorem sendIrq_fresh (s : State) (pg : Nat) : (s.sendIrq pg).fresh = s.fresh := by have h := congrArg State.fresh (sendIrq_all s pg); exact h
@[simp] theorem sendIrq_causes (s : State) (pg : Nat) : (s.sendIrq pg).causes = s.causes := by have h := congrArg State.causes (sendIrq_all s pg); exact h
@[simp] theorem sendIrq_pending (s : State) (pg : Nat) : (s.sendIrq pg).pending = s.pending := by have h := congrArg State.pending (sendIrq_all s pg); exact h

/-! irqEdge -/
@[simp] theorem irqEdge_regs (s : State) (pg b : Nat) : (s.irqEdge pg b).regs = s.regs := by have h := congrArg State.regs (irqEdge_all s pg b); exact h
@[simp] theorem irqEdge_shadows (s : State) (pg b : Nat) : (s.irqEdge pg b).shadows = s.shadows := by have h := congrArg State.shadows (irqEdge_all s pg b); exact h
@[simp] theorem irqEdge_checking (s : State) (pg b : Nat) : (s.irqEdge pg b).checking = s.checking := by have h := congrArg State.checking (irqEdge_all s pg b); exact h
@[simp] theorem irqEdge_slow (s : State) (pg b : Nat) : (s.irqEdge pg b).slow = s.slow := by have h := congrArg State.slow (irqEdge_all s pg b); exact h
@[simp] theorem irqEdge_rdata (s : State) (pg b : Nat) : (s.irqEdge pg b).rdata = s.rdata := by have h := congrArg State.rdata (irqEdge_all s pg b); exact h
@[simp] theorem irqEdge_bridge (s : State) (pg b : Nat) : (s.irqEdge pg b).bridge = s.bridge := by have h := congrArg State.bridge (irqEdge_all s pg b); exact h
@[simp] theorem irqEdge_mem (s : State) (pg b : Nat) : (s.irqEdge pg b).mem = s.mem := by have h := congrArg State.mem (irqEdge_all s pg b); exact h
@[simp] theorem irqEdge_undef (s : State) (pg b : Nat) : (s.irqEdge pg b).undef = s.undef := by have h := congrArg State.undef (irqEdge_all s pg b); exact h
@[simp] theorem irqEdge_flips (s : State) (pg b : Nat) : (s.irqEdge pg b).flips = s.flips := by have h := congrArg State.flips (irqEdge_all s pg b); exact h
@[simp] theorem irqEdge_writebacks (s : State) (pg b : Nat) : (s.irqEdge pg b).writebacks = s.writebacks := by have h := congrArg State.writebacks (irqEdge_all s pg b); exact h
@[simp] theorem irqEdge_bankTo (s : State) (pg b : Nat) : (s.irqEdge pg b).bankTo = s.bankTo := by have h := congrArg State.bankTo (irqEdge_all s pg b); exact h
@[simp] theorem irqEdge_scrub (s : State) (pg b : Nat) : (s.irqEdge pg b).scrub = s.scrub := by have h := congrArg State.scrub (irqEdge_all s pg b); exact h
@[simp] theorem irqEdge_power (s : State) (pg b : Nat) : (s.irqEdge pg b).power = s.power := by have h := congrArg State.power (irqEdge_all s pg b); exact h
@[simp] theorem irqEdge_issue (s : State) (pg b : Nat) : (s.irqEdge pg b).issue = s.issue := by have h := congrArg State.issue (irqEdge_all s pg b); exact h
@[simp] theorem irqEdge_tiles (s : State) (pg b : Nat) : (s.irqEdge pg b).tiles = s.tiles := by have h := congrArg State.tiles (irqEdge_all s pg b); exact h
@[simp] theorem irqEdge_crown (s : State) (pg b : Nat) : (s.irqEdge pg b).crown = s.crown := by have h := congrArg State.crown (irqEdge_all s pg b); exact h
@[simp] theorem irqEdge_flash (s : State) (pg b : Nat) : (s.irqEdge pg b).flash = s.flash := by have h := congrArg State.flash (irqEdge_all s pg b); exact h
@[simp] theorem irqEdge_fuses (s : State) (pg b : Nat) : (s.irqEdge pg b).fuses = s.fuses := by have h := congrArg State.fuses (irqEdge_all s pg b); exact h
@[simp] theorem irqEdge_bist (s : State) (pg b : Nat) : (s.irqEdge pg b).bist = s.bist := by have h := congrArg State.bist (irqEdge_all s pg b); exact h
@[simp] theorem irqEdge_tfw (s : State) (pg b : Nat) : (s.irqEdge pg b).tfw = s.tfw := by have h := congrArg State.tfw (irqEdge_all s pg b); exact h
@[simp] theorem irqEdge_rowfix (s : State) (pg b : Nat) : (s.irqEdge pg b).rowfix = s.rowfix := by have h := congrArg State.rowfix (irqEdge_all s pg b); exact h
@[simp] theorem irqEdge_cclkW (s : State) (pg b : Nat) : (s.irqEdge pg b).cclkW = s.cclkW := by have h := congrArg State.cclkW (irqEdge_all s pg b); exact h
@[simp] theorem irqEdge_cclkE (s : State) (pg b : Nat) : (s.irqEdge pg b).cclkE = s.cclkE := by have h := congrArg State.cclkE (irqEdge_all s pg b); exact h
@[simp] theorem irqEdge_scale (s : State) (pg b : Nat) : (s.irqEdge pg b).scale = s.scale := by have h := congrArg State.scale (irqEdge_all s pg b); exact h
@[simp] theorem irqEdge_bar (s : State) (pg b : Nat) : (s.irqEdge pg b).bar = s.bar := by have h := congrArg State.bar (irqEdge_all s pg b); exact h
@[simp] theorem irqEdge_net (s : State) (pg b : Nat) : (s.irqEdge pg b).net = s.net := by have h := congrArg State.net (irqEdge_all s pg b); exact h
@[simp] theorem irqEdge_links (s : State) (pg b : Nat) : (s.irqEdge pg b).links = s.links := by have h := congrArg State.links (irqEdge_all s pg b); exact h
@[simp] theorem irqEdge_tokens (s : State) (pg b : Nat) : (s.irqEdge pg b).tokens = s.tokens := by have h := congrArg State.tokens (irqEdge_all s pg b); exact h
@[simp] theorem irqEdge_gone (s : State) (pg b : Nat) : (s.irqEdge pg b).gone = s.gone := by have h := congrArg State.gone (irqEdge_all s pg b); exact h
@[simp] theorem irqEdge_step (s : State) (pg b : Nat) : (s.irqEdge pg b).step = s.step := by have h := congrArg State.step (irqEdge_all s pg b); exact h
@[simp] theorem irqEdge_ctx (s : State) (pg b : Nat) : (s.irqEdge pg b).ctx = s.ctx := by have h := congrArg State.ctx (irqEdge_all s pg b); exact h
@[simp] theorem irqEdge_twin (s : State) (pg b : Nat) : (s.irqEdge pg b).twin = s.twin := by have h := congrArg State.twin (irqEdge_all s pg b); exact h
@[simp] theorem irqEdge_qnet (s : State) (pg b : Nat) : (s.irqEdge pg b).qnet = s.qnet := by have h := congrArg State.qnet (irqEdge_all s pg b); exact h
@[simp] theorem irqEdge_movers (s : State) (pg b : Nat) : (s.irqEdge pg b).movers = s.movers := by have h := congrArg State.movers (irqEdge_all s pg b); exact h
@[simp] theorem irqEdge_posts (s : State) (pg b : Nat) : (s.irqEdge pg b).posts = s.posts := by have h := congrArg State.posts (irqEdge_all s pg b); exact h
@[simp] theorem irqEdge_chk (s : State) (pg b : Nat) : (s.irqEdge pg b).chk = s.chk := by have h := congrArg State.chk (irqEdge_all s pg b); exact h
@[simp] theorem irqEdge_train (s : State) (pg b : Nat) : (s.irqEdge pg b).train = s.train := by have h := congrArg State.train (irqEdge_all s pg b); exact h
@[simp] theorem irqEdge_pcie (s : State) (pg b : Nat) : (s.irqEdge pg b).pcie = s.pcie := by have h := congrArg State.pcie (irqEdge_all s pg b); exact h
@[simp] theorem irqEdge_timers (s : State) (pg b : Nat) : (s.irqEdge pg b).timers = s.timers := by have h := congrArg State.timers (irqEdge_all s pg b); exact h
@[simp] theorem irqEdge_caps (s : State) (pg b : Nat) : (s.irqEdge pg b).caps = s.caps := by have h := congrArg State.caps (irqEdge_all s pg b); exact h
@[simp] theorem irqEdge_panel (s : State) (pg b : Nat) : (s.irqEdge pg b).panel = s.panel := by have h := congrArg State.panel (irqEdge_all s pg b); exact h
@[simp] theorem irqEdge_fresh (s : State) (pg b : Nat) : (s.irqEdge pg b).fresh = s.fresh := by have h := congrArg State.fresh (irqEdge_all s pg b); exact h
@[simp] theorem irqEdge_causes (s : State) (pg b : Nat) : (s.irqEdge pg b).causes = s.causes := by have h := congrArg State.causes (irqEdge_all s pg b); exact h
@[simp] theorem irqEdge_pending (s : State) (pg b : Nat) : (s.irqEdge pg b).pending = s.pending := by have h := congrArg State.pending (irqEdge_all s pg b); exact h

/-! cause -/
@[simp] theorem cause_shadows (s : State) (pg b : Nat) : (s.cause pg b).shadows = s.shadows := by simp [cause]
@[simp] theorem cause_checking (s : State) (pg b : Nat) : (s.cause pg b).checking = s.checking := by simp [cause]
@[simp] theorem cause_slow (s : State) (pg b : Nat) : (s.cause pg b).slow = s.slow := by simp [cause]
@[simp] theorem cause_rdata (s : State) (pg b : Nat) : (s.cause pg b).rdata = s.rdata := by simp [cause]
@[simp] theorem cause_bridge (s : State) (pg b : Nat) : (s.cause pg b).bridge = s.bridge := by simp [cause]
@[simp] theorem cause_mem (s : State) (pg b : Nat) : (s.cause pg b).mem = s.mem := by simp [cause]
@[simp] theorem cause_undef (s : State) (pg b : Nat) : (s.cause pg b).undef = s.undef := by simp [cause]
@[simp] theorem cause_flips (s : State) (pg b : Nat) : (s.cause pg b).flips = s.flips := by simp [cause]
@[simp] theorem cause_writebacks (s : State) (pg b : Nat) : (s.cause pg b).writebacks = s.writebacks := by simp [cause]
@[simp] theorem cause_bankTo (s : State) (pg b : Nat) : (s.cause pg b).bankTo = s.bankTo := by simp [cause]
@[simp] theorem cause_scrub (s : State) (pg b : Nat) : (s.cause pg b).scrub = s.scrub := by simp [cause]
@[simp] theorem cause_power (s : State) (pg b : Nat) : (s.cause pg b).power = s.power := by simp [cause]
@[simp] theorem cause_issue (s : State) (pg b : Nat) : (s.cause pg b).issue = s.issue := by simp [cause]
@[simp] theorem cause_tiles (s : State) (pg b : Nat) : (s.cause pg b).tiles = s.tiles := by simp [cause]
@[simp] theorem cause_crown (s : State) (pg b : Nat) : (s.cause pg b).crown = s.crown := by simp [cause]
@[simp] theorem cause_flash (s : State) (pg b : Nat) : (s.cause pg b).flash = s.flash := by simp [cause]
@[simp] theorem cause_fuses (s : State) (pg b : Nat) : (s.cause pg b).fuses = s.fuses := by simp [cause]
@[simp] theorem cause_bist (s : State) (pg b : Nat) : (s.cause pg b).bist = s.bist := by simp [cause]
@[simp] theorem cause_tfw (s : State) (pg b : Nat) : (s.cause pg b).tfw = s.tfw := by simp [cause]
@[simp] theorem cause_rowfix (s : State) (pg b : Nat) : (s.cause pg b).rowfix = s.rowfix := by simp [cause]
@[simp] theorem cause_cclkW (s : State) (pg b : Nat) : (s.cause pg b).cclkW = s.cclkW := by simp [cause]
@[simp] theorem cause_cclkE (s : State) (pg b : Nat) : (s.cause pg b).cclkE = s.cclkE := by simp [cause]
@[simp] theorem cause_scale (s : State) (pg b : Nat) : (s.cause pg b).scale = s.scale := by simp [cause]
@[simp] theorem cause_bar (s : State) (pg b : Nat) : (s.cause pg b).bar = s.bar := by simp [cause]
@[simp] theorem cause_net (s : State) (pg b : Nat) : (s.cause pg b).net = s.net := by simp [cause]
@[simp] theorem cause_links (s : State) (pg b : Nat) : (s.cause pg b).links = s.links := by simp [cause]
@[simp] theorem cause_tokens (s : State) (pg b : Nat) : (s.cause pg b).tokens = s.tokens := by simp [cause]
@[simp] theorem cause_gone (s : State) (pg b : Nat) : (s.cause pg b).gone = s.gone := by simp [cause]
@[simp] theorem cause_step (s : State) (pg b : Nat) : (s.cause pg b).step = s.step := by simp [cause]
@[simp] theorem cause_ctx (s : State) (pg b : Nat) : (s.cause pg b).ctx = s.ctx := by simp [cause]
@[simp] theorem cause_twin (s : State) (pg b : Nat) : (s.cause pg b).twin = s.twin := by simp [cause]
@[simp] theorem cause_qnet (s : State) (pg b : Nat) : (s.cause pg b).qnet = s.qnet := by simp [cause]
@[simp] theorem cause_movers (s : State) (pg b : Nat) : (s.cause pg b).movers = s.movers := by simp [cause]
@[simp] theorem cause_posts (s : State) (pg b : Nat) : (s.cause pg b).posts = s.posts := by simp [cause]
@[simp] theorem cause_chk (s : State) (pg b : Nat) : (s.cause pg b).chk = s.chk := by simp [cause]
@[simp] theorem cause_train (s : State) (pg b : Nat) : (s.cause pg b).train = s.train := by simp [cause]
@[simp] theorem cause_pcie (s : State) (pg b : Nat) : (s.cause pg b).pcie = s.pcie := by simp [cause]
@[simp] theorem cause_timers (s : State) (pg b : Nat) : (s.cause pg b).timers = s.timers := by simp [cause]
@[simp] theorem cause_caps (s : State) (pg b : Nat) : (s.cause pg b).caps = s.caps := by simp [cause]
@[simp] theorem cause_panel (s : State) (pg b : Nat) : (s.cause pg b).panel = s.panel := by simp [cause]
@[simp] theorem cause_fresh (s : State) (pg b : Nat) : (s.cause pg b).fresh = s.fresh := by simp [cause]
@[simp] theorem cause_pending (s : State) (pg b : Nat) : (s.cause pg b).pending = s.pending := by simp [cause]

/-! setErr -/
@[simp] theorem setErr_shadows (s : State) (pg : Nat) : (s.setErr pg).shadows = s.shadows := by simp [setErr]
@[simp] theorem setErr_checking (s : State) (pg : Nat) : (s.setErr pg).checking = s.checking := by simp [setErr]
@[simp] theorem setErr_slow (s : State) (pg : Nat) : (s.setErr pg).slow = s.slow := by simp [setErr]
@[simp] theorem setErr_rdata (s : State) (pg : Nat) : (s.setErr pg).rdata = s.rdata := by simp [setErr]
@[simp] theorem setErr_bridge (s : State) (pg : Nat) : (s.setErr pg).bridge = s.bridge := by simp [setErr]
@[simp] theorem setErr_mem (s : State) (pg : Nat) : (s.setErr pg).mem = s.mem := by simp [setErr]
@[simp] theorem setErr_undef (s : State) (pg : Nat) : (s.setErr pg).undef = s.undef := by simp [setErr]
@[simp] theorem setErr_flips (s : State) (pg : Nat) : (s.setErr pg).flips = s.flips := by simp [setErr]
@[simp] theorem setErr_writebacks (s : State) (pg : Nat) : (s.setErr pg).writebacks = s.writebacks := by simp [setErr]
@[simp] theorem setErr_bankTo (s : State) (pg : Nat) : (s.setErr pg).bankTo = s.bankTo := by simp [setErr]
@[simp] theorem setErr_scrub (s : State) (pg : Nat) : (s.setErr pg).scrub = s.scrub := by simp [setErr]
@[simp] theorem setErr_power (s : State) (pg : Nat) : (s.setErr pg).power = s.power := by simp [setErr]
@[simp] theorem setErr_issue (s : State) (pg : Nat) : (s.setErr pg).issue = s.issue := by simp [setErr]
@[simp] theorem setErr_tiles (s : State) (pg : Nat) : (s.setErr pg).tiles = s.tiles := by simp [setErr]
@[simp] theorem setErr_crown (s : State) (pg : Nat) : (s.setErr pg).crown = s.crown := by simp [setErr]
@[simp] theorem setErr_flash (s : State) (pg : Nat) : (s.setErr pg).flash = s.flash := by simp [setErr]
@[simp] theorem setErr_fuses (s : State) (pg : Nat) : (s.setErr pg).fuses = s.fuses := by simp [setErr]
@[simp] theorem setErr_bist (s : State) (pg : Nat) : (s.setErr pg).bist = s.bist := by simp [setErr]
@[simp] theorem setErr_tfw (s : State) (pg : Nat) : (s.setErr pg).tfw = s.tfw := by simp [setErr]
@[simp] theorem setErr_rowfix (s : State) (pg : Nat) : (s.setErr pg).rowfix = s.rowfix := by simp [setErr]
@[simp] theorem setErr_cclkW (s : State) (pg : Nat) : (s.setErr pg).cclkW = s.cclkW := by simp [setErr]
@[simp] theorem setErr_cclkE (s : State) (pg : Nat) : (s.setErr pg).cclkE = s.cclkE := by simp [setErr]
@[simp] theorem setErr_scale (s : State) (pg : Nat) : (s.setErr pg).scale = s.scale := by simp [setErr]
@[simp] theorem setErr_bar (s : State) (pg : Nat) : (s.setErr pg).bar = s.bar := by simp [setErr]
@[simp] theorem setErr_net (s : State) (pg : Nat) : (s.setErr pg).net = s.net := by simp [setErr]
@[simp] theorem setErr_links (s : State) (pg : Nat) : (s.setErr pg).links = s.links := by simp [setErr]
@[simp] theorem setErr_tokens (s : State) (pg : Nat) : (s.setErr pg).tokens = s.tokens := by simp [setErr]
@[simp] theorem setErr_gone (s : State) (pg : Nat) : (s.setErr pg).gone = s.gone := by simp [setErr]
@[simp] theorem setErr_step (s : State) (pg : Nat) : (s.setErr pg).step = s.step := by simp [setErr]
@[simp] theorem setErr_ctx (s : State) (pg : Nat) : (s.setErr pg).ctx = s.ctx := by simp [setErr]
@[simp] theorem setErr_twin (s : State) (pg : Nat) : (s.setErr pg).twin = s.twin := by simp [setErr]
@[simp] theorem setErr_qnet (s : State) (pg : Nat) : (s.setErr pg).qnet = s.qnet := by simp [setErr]
@[simp] theorem setErr_movers (s : State) (pg : Nat) : (s.setErr pg).movers = s.movers := by simp [setErr]
@[simp] theorem setErr_posts (s : State) (pg : Nat) : (s.setErr pg).posts = s.posts := by simp [setErr]
@[simp] theorem setErr_chk (s : State) (pg : Nat) : (s.setErr pg).chk = s.chk := by simp [setErr]
@[simp] theorem setErr_train (s : State) (pg : Nat) : (s.setErr pg).train = s.train := by simp [setErr]
@[simp] theorem setErr_pcie (s : State) (pg : Nat) : (s.setErr pg).pcie = s.pcie := by simp [setErr]
@[simp] theorem setErr_timers (s : State) (pg : Nat) : (s.setErr pg).timers = s.timers := by simp [setErr]
@[simp] theorem setErr_caps (s : State) (pg : Nat) : (s.setErr pg).caps = s.caps := by simp [setErr]
@[simp] theorem setErr_panel (s : State) (pg : Nat) : (s.setErr pg).panel = s.panel := by simp [setErr]
@[simp] theorem setErr_fresh (s : State) (pg : Nat) : (s.setErr pg).fresh = s.fresh := by simp [setErr]
@[simp] theorem setErr_pending (s : State) (pg : Nat) : (s.setErr pg).pending = s.pending := by simp [setErr]

/-! causeErr -/
@[simp] theorem causeErr_shadows (s : State) (pg b : Nat) : (s.causeErr pg b).shadows = s.shadows := by simp [causeErr]
@[simp] theorem causeErr_checking (s : State) (pg b : Nat) : (s.causeErr pg b).checking = s.checking := by simp [causeErr]
@[simp] theorem causeErr_slow (s : State) (pg b : Nat) : (s.causeErr pg b).slow = s.slow := by simp [causeErr]
@[simp] theorem causeErr_rdata (s : State) (pg b : Nat) : (s.causeErr pg b).rdata = s.rdata := by simp [causeErr]
@[simp] theorem causeErr_bridge (s : State) (pg b : Nat) : (s.causeErr pg b).bridge = s.bridge := by simp [causeErr]
@[simp] theorem causeErr_mem (s : State) (pg b : Nat) : (s.causeErr pg b).mem = s.mem := by simp [causeErr]
@[simp] theorem causeErr_undef (s : State) (pg b : Nat) : (s.causeErr pg b).undef = s.undef := by simp [causeErr]
@[simp] theorem causeErr_flips (s : State) (pg b : Nat) : (s.causeErr pg b).flips = s.flips := by simp [causeErr]
@[simp] theorem causeErr_writebacks (s : State) (pg b : Nat) : (s.causeErr pg b).writebacks = s.writebacks := by simp [causeErr]
@[simp] theorem causeErr_bankTo (s : State) (pg b : Nat) : (s.causeErr pg b).bankTo = s.bankTo := by simp [causeErr]
@[simp] theorem causeErr_scrub (s : State) (pg b : Nat) : (s.causeErr pg b).scrub = s.scrub := by simp [causeErr]
@[simp] theorem causeErr_power (s : State) (pg b : Nat) : (s.causeErr pg b).power = s.power := by simp [causeErr]
@[simp] theorem causeErr_issue (s : State) (pg b : Nat) : (s.causeErr pg b).issue = s.issue := by simp [causeErr]
@[simp] theorem causeErr_tiles (s : State) (pg b : Nat) : (s.causeErr pg b).tiles = s.tiles := by simp [causeErr]
@[simp] theorem causeErr_crown (s : State) (pg b : Nat) : (s.causeErr pg b).crown = s.crown := by simp [causeErr]
@[simp] theorem causeErr_flash (s : State) (pg b : Nat) : (s.causeErr pg b).flash = s.flash := by simp [causeErr]
@[simp] theorem causeErr_fuses (s : State) (pg b : Nat) : (s.causeErr pg b).fuses = s.fuses := by simp [causeErr]
@[simp] theorem causeErr_bist (s : State) (pg b : Nat) : (s.causeErr pg b).bist = s.bist := by simp [causeErr]
@[simp] theorem causeErr_tfw (s : State) (pg b : Nat) : (s.causeErr pg b).tfw = s.tfw := by simp [causeErr]
@[simp] theorem causeErr_rowfix (s : State) (pg b : Nat) : (s.causeErr pg b).rowfix = s.rowfix := by simp [causeErr]
@[simp] theorem causeErr_cclkW (s : State) (pg b : Nat) : (s.causeErr pg b).cclkW = s.cclkW := by simp [causeErr]
@[simp] theorem causeErr_cclkE (s : State) (pg b : Nat) : (s.causeErr pg b).cclkE = s.cclkE := by simp [causeErr]
@[simp] theorem causeErr_scale (s : State) (pg b : Nat) : (s.causeErr pg b).scale = s.scale := by simp [causeErr]
@[simp] theorem causeErr_bar (s : State) (pg b : Nat) : (s.causeErr pg b).bar = s.bar := by simp [causeErr]
@[simp] theorem causeErr_net (s : State) (pg b : Nat) : (s.causeErr pg b).net = s.net := by simp [causeErr]
@[simp] theorem causeErr_links (s : State) (pg b : Nat) : (s.causeErr pg b).links = s.links := by simp [causeErr]
@[simp] theorem causeErr_tokens (s : State) (pg b : Nat) : (s.causeErr pg b).tokens = s.tokens := by simp [causeErr]
@[simp] theorem causeErr_gone (s : State) (pg b : Nat) : (s.causeErr pg b).gone = s.gone := by simp [causeErr]
@[simp] theorem causeErr_step (s : State) (pg b : Nat) : (s.causeErr pg b).step = s.step := by simp [causeErr]
@[simp] theorem causeErr_ctx (s : State) (pg b : Nat) : (s.causeErr pg b).ctx = s.ctx := by simp [causeErr]
@[simp] theorem causeErr_twin (s : State) (pg b : Nat) : (s.causeErr pg b).twin = s.twin := by simp [causeErr]
@[simp] theorem causeErr_qnet (s : State) (pg b : Nat) : (s.causeErr pg b).qnet = s.qnet := by simp [causeErr]
@[simp] theorem causeErr_movers (s : State) (pg b : Nat) : (s.causeErr pg b).movers = s.movers := by simp [causeErr]
@[simp] theorem causeErr_posts (s : State) (pg b : Nat) : (s.causeErr pg b).posts = s.posts := by simp [causeErr]
@[simp] theorem causeErr_chk (s : State) (pg b : Nat) : (s.causeErr pg b).chk = s.chk := by simp [causeErr]
@[simp] theorem causeErr_train (s : State) (pg b : Nat) : (s.causeErr pg b).train = s.train := by simp [causeErr]
@[simp] theorem causeErr_pcie (s : State) (pg b : Nat) : (s.causeErr pg b).pcie = s.pcie := by simp [causeErr]
@[simp] theorem causeErr_timers (s : State) (pg b : Nat) : (s.causeErr pg b).timers = s.timers := by simp [causeErr]
@[simp] theorem causeErr_caps (s : State) (pg b : Nat) : (s.causeErr pg b).caps = s.caps := by simp [causeErr]
@[simp] theorem causeErr_panel (s : State) (pg b : Nat) : (s.causeErr pg b).panel = s.panel := by simp [causeErr]
@[simp] theorem causeErr_fresh (s : State) (pg b : Nat) : (s.causeErr pg b).fresh = s.fresh := by simp [causeErr]
@[simp] theorem causeErr_pending (s : State) (pg b : Nat) : (s.causeErr pg b).pending = s.pending := by simp [causeErr]

/-! refuse -/
@[simp] theorem refuse_shadows (s : State) (pg c o : Nat) : (s.refuse pg c o).shadows = s.shadows := by simp [refuse]
@[simp] theorem refuse_checking (s : State) (pg c o : Nat) : (s.refuse pg c o).checking = s.checking := by simp [refuse]
@[simp] theorem refuse_slow (s : State) (pg c o : Nat) : (s.refuse pg c o).slow = s.slow := by simp [refuse]
@[simp] theorem refuse_rdata (s : State) (pg c o : Nat) : (s.refuse pg c o).rdata = s.rdata := by simp [refuse]
@[simp] theorem refuse_bridge (s : State) (pg c o : Nat) : (s.refuse pg c o).bridge = s.bridge := by simp [refuse]
@[simp] theorem refuse_mem (s : State) (pg c o : Nat) : (s.refuse pg c o).mem = s.mem := by simp [refuse]
@[simp] theorem refuse_undef (s : State) (pg c o : Nat) : (s.refuse pg c o).undef = s.undef := by simp [refuse]
@[simp] theorem refuse_flips (s : State) (pg c o : Nat) : (s.refuse pg c o).flips = s.flips := by simp [refuse]
@[simp] theorem refuse_writebacks (s : State) (pg c o : Nat) : (s.refuse pg c o).writebacks = s.writebacks := by simp [refuse]
@[simp] theorem refuse_bankTo (s : State) (pg c o : Nat) : (s.refuse pg c o).bankTo = s.bankTo := by simp [refuse]
@[simp] theorem refuse_scrub (s : State) (pg c o : Nat) : (s.refuse pg c o).scrub = s.scrub := by simp [refuse]
@[simp] theorem refuse_power (s : State) (pg c o : Nat) : (s.refuse pg c o).power = s.power := by simp [refuse]
@[simp] theorem refuse_issue (s : State) (pg c o : Nat) : (s.refuse pg c o).issue = s.issue := by simp [refuse]
@[simp] theorem refuse_tiles (s : State) (pg c o : Nat) : (s.refuse pg c o).tiles = s.tiles := by simp [refuse]
@[simp] theorem refuse_crown (s : State) (pg c o : Nat) : (s.refuse pg c o).crown = s.crown := by simp [refuse]
@[simp] theorem refuse_flash (s : State) (pg c o : Nat) : (s.refuse pg c o).flash = s.flash := by simp [refuse]
@[simp] theorem refuse_fuses (s : State) (pg c o : Nat) : (s.refuse pg c o).fuses = s.fuses := by simp [refuse]
@[simp] theorem refuse_bist (s : State) (pg c o : Nat) : (s.refuse pg c o).bist = s.bist := by simp [refuse]
@[simp] theorem refuse_tfw (s : State) (pg c o : Nat) : (s.refuse pg c o).tfw = s.tfw := by simp [refuse]
@[simp] theorem refuse_rowfix (s : State) (pg c o : Nat) : (s.refuse pg c o).rowfix = s.rowfix := by simp [refuse]
@[simp] theorem refuse_cclkW (s : State) (pg c o : Nat) : (s.refuse pg c o).cclkW = s.cclkW := by simp [refuse]
@[simp] theorem refuse_cclkE (s : State) (pg c o : Nat) : (s.refuse pg c o).cclkE = s.cclkE := by simp [refuse]
@[simp] theorem refuse_scale (s : State) (pg c o : Nat) : (s.refuse pg c o).scale = s.scale := by simp [refuse]
@[simp] theorem refuse_bar (s : State) (pg c o : Nat) : (s.refuse pg c o).bar = s.bar := by simp [refuse]
@[simp] theorem refuse_net (s : State) (pg c o : Nat) : (s.refuse pg c o).net = s.net := by simp [refuse]
@[simp] theorem refuse_links (s : State) (pg c o : Nat) : (s.refuse pg c o).links = s.links := by simp [refuse]
@[simp] theorem refuse_tokens (s : State) (pg c o : Nat) : (s.refuse pg c o).tokens = s.tokens := by simp [refuse]
@[simp] theorem refuse_gone (s : State) (pg c o : Nat) : (s.refuse pg c o).gone = s.gone := by simp [refuse]
@[simp] theorem refuse_step (s : State) (pg c o : Nat) : (s.refuse pg c o).step = s.step := by simp [refuse]
@[simp] theorem refuse_ctx (s : State) (pg c o : Nat) : (s.refuse pg c o).ctx = s.ctx := by simp [refuse]
@[simp] theorem refuse_twin (s : State) (pg c o : Nat) : (s.refuse pg c o).twin = s.twin := by simp [refuse]
@[simp] theorem refuse_qnet (s : State) (pg c o : Nat) : (s.refuse pg c o).qnet = s.qnet := by simp [refuse]
@[simp] theorem refuse_movers (s : State) (pg c o : Nat) : (s.refuse pg c o).movers = s.movers := by simp [refuse]
@[simp] theorem refuse_posts (s : State) (pg c o : Nat) : (s.refuse pg c o).posts = s.posts := by simp [refuse]
@[simp] theorem refuse_chk (s : State) (pg c o : Nat) : (s.refuse pg c o).chk = s.chk := by simp [refuse]
@[simp] theorem refuse_train (s : State) (pg c o : Nat) : (s.refuse pg c o).train = s.train := by simp [refuse]
@[simp] theorem refuse_pcie (s : State) (pg c o : Nat) : (s.refuse pg c o).pcie = s.pcie := by simp [refuse]
@[simp] theorem refuse_timers (s : State) (pg c o : Nat) : (s.refuse pg c o).timers = s.timers := by simp [refuse]
@[simp] theorem refuse_caps (s : State) (pg c o : Nat) : (s.refuse pg c o).caps = s.caps := by simp [refuse]
@[simp] theorem refuse_panel (s : State) (pg c o : Nat) : (s.refuse pg c o).panel = s.panel := by simp [refuse]
@[simp] theorem refuse_fresh (s : State) (pg c o : Nat) : (s.refuse pg c o).fresh = s.fresh := by simp [refuse]
@[simp] theorem refuse_pending (s : State) (pg c o : Nat) : (s.refuse pg c o).pending = s.pending := by simp [refuse]

/-! setReady -/
@[simp] theorem setReady_shadows (s : State) (pg : Nat) (r : Bool) : (s.setReady pg r).shadows = s.shadows := by unfold setReady; split <;> (try split) <;> simp
@[simp] theorem setReady_checking (s : State) (pg : Nat) (r : Bool) : (s.setReady pg r).checking = s.checking := by unfold setReady; split <;> (try split) <;> simp
@[simp] theorem setReady_slow (s : State) (pg : Nat) (r : Bool) : (s.setReady pg r).slow = s.slow := by unfold setReady; split <;> (try split) <;> simp
@[simp] theorem setReady_rdata (s : State) (pg : Nat) (r : Bool) : (s.setReady pg r).rdata = s.rdata := by unfold setReady; split <;> (try split) <;> simp
@[simp] theorem setReady_bridge (s : State) (pg : Nat) (r : Bool) : (s.setReady pg r).bridge = s.bridge := by unfold setReady; split <;> (try split) <;> simp
@[simp] theorem setReady_mem (s : State) (pg : Nat) (r : Bool) : (s.setReady pg r).mem = s.mem := by unfold setReady; split <;> (try split) <;> simp
@[simp] theorem setReady_undef (s : State) (pg : Nat) (r : Bool) : (s.setReady pg r).undef = s.undef := by unfold setReady; split <;> (try split) <;> simp
@[simp] theorem setReady_flips (s : State) (pg : Nat) (r : Bool) : (s.setReady pg r).flips = s.flips := by unfold setReady; split <;> (try split) <;> simp
@[simp] theorem setReady_writebacks (s : State) (pg : Nat) (r : Bool) : (s.setReady pg r).writebacks = s.writebacks := by unfold setReady; split <;> (try split) <;> simp
@[simp] theorem setReady_bankTo (s : State) (pg : Nat) (r : Bool) : (s.setReady pg r).bankTo = s.bankTo := by unfold setReady; split <;> (try split) <;> simp
@[simp] theorem setReady_scrub (s : State) (pg : Nat) (r : Bool) : (s.setReady pg r).scrub = s.scrub := by unfold setReady; split <;> (try split) <;> simp
@[simp] theorem setReady_power (s : State) (pg : Nat) (r : Bool) : (s.setReady pg r).power = s.power := by unfold setReady; split <;> (try split) <;> simp
@[simp] theorem setReady_issue (s : State) (pg : Nat) (r : Bool) : (s.setReady pg r).issue = s.issue := by unfold setReady; split <;> (try split) <;> simp
@[simp] theorem setReady_tiles (s : State) (pg : Nat) (r : Bool) : (s.setReady pg r).tiles = s.tiles := by unfold setReady; split <;> (try split) <;> simp
@[simp] theorem setReady_crown (s : State) (pg : Nat) (r : Bool) : (s.setReady pg r).crown = s.crown := by unfold setReady; split <;> (try split) <;> simp
@[simp] theorem setReady_flash (s : State) (pg : Nat) (r : Bool) : (s.setReady pg r).flash = s.flash := by unfold setReady; split <;> (try split) <;> simp
@[simp] theorem setReady_fuses (s : State) (pg : Nat) (r : Bool) : (s.setReady pg r).fuses = s.fuses := by unfold setReady; split <;> (try split) <;> simp
@[simp] theorem setReady_bist (s : State) (pg : Nat) (r : Bool) : (s.setReady pg r).bist = s.bist := by unfold setReady; split <;> (try split) <;> simp
@[simp] theorem setReady_tfw (s : State) (pg : Nat) (r : Bool) : (s.setReady pg r).tfw = s.tfw := by unfold setReady; split <;> (try split) <;> simp
@[simp] theorem setReady_rowfix (s : State) (pg : Nat) (r : Bool) : (s.setReady pg r).rowfix = s.rowfix := by unfold setReady; split <;> (try split) <;> simp
@[simp] theorem setReady_cclkW (s : State) (pg : Nat) (r : Bool) : (s.setReady pg r).cclkW = s.cclkW := by unfold setReady; split <;> (try split) <;> simp
@[simp] theorem setReady_cclkE (s : State) (pg : Nat) (r : Bool) : (s.setReady pg r).cclkE = s.cclkE := by unfold setReady; split <;> (try split) <;> simp
@[simp] theorem setReady_scale (s : State) (pg : Nat) (r : Bool) : (s.setReady pg r).scale = s.scale := by unfold setReady; split <;> (try split) <;> simp
@[simp] theorem setReady_bar (s : State) (pg : Nat) (r : Bool) : (s.setReady pg r).bar = s.bar := by unfold setReady; split <;> (try split) <;> simp
@[simp] theorem setReady_net (s : State) (pg : Nat) (r : Bool) : (s.setReady pg r).net = s.net := by unfold setReady; split <;> (try split) <;> simp
@[simp] theorem setReady_links (s : State) (pg : Nat) (r : Bool) : (s.setReady pg r).links = s.links := by unfold setReady; split <;> (try split) <;> simp
@[simp] theorem setReady_tokens (s : State) (pg : Nat) (r : Bool) : (s.setReady pg r).tokens = s.tokens := by unfold setReady; split <;> (try split) <;> simp
@[simp] theorem setReady_gone (s : State) (pg : Nat) (r : Bool) : (s.setReady pg r).gone = s.gone := by unfold setReady; split <;> (try split) <;> simp
@[simp] theorem setReady_step (s : State) (pg : Nat) (r : Bool) : (s.setReady pg r).step = s.step := by unfold setReady; split <;> (try split) <;> simp
@[simp] theorem setReady_ctx (s : State) (pg : Nat) (r : Bool) : (s.setReady pg r).ctx = s.ctx := by unfold setReady; split <;> (try split) <;> simp
@[simp] theorem setReady_twin (s : State) (pg : Nat) (r : Bool) : (s.setReady pg r).twin = s.twin := by unfold setReady; split <;> (try split) <;> simp
@[simp] theorem setReady_qnet (s : State) (pg : Nat) (r : Bool) : (s.setReady pg r).qnet = s.qnet := by unfold setReady; split <;> (try split) <;> simp
@[simp] theorem setReady_movers (s : State) (pg : Nat) (r : Bool) : (s.setReady pg r).movers = s.movers := by unfold setReady; split <;> (try split) <;> simp
@[simp] theorem setReady_posts (s : State) (pg : Nat) (r : Bool) : (s.setReady pg r).posts = s.posts := by unfold setReady; split <;> (try split) <;> simp
@[simp] theorem setReady_chk (s : State) (pg : Nat) (r : Bool) : (s.setReady pg r).chk = s.chk := by unfold setReady; split <;> (try split) <;> simp
@[simp] theorem setReady_train (s : State) (pg : Nat) (r : Bool) : (s.setReady pg r).train = s.train := by unfold setReady; split <;> (try split) <;> simp
@[simp] theorem setReady_pcie (s : State) (pg : Nat) (r : Bool) : (s.setReady pg r).pcie = s.pcie := by unfold setReady; split <;> (try split) <;> simp
@[simp] theorem setReady_timers (s : State) (pg : Nat) (r : Bool) : (s.setReady pg r).timers = s.timers := by unfold setReady; split <;> (try split) <;> simp
@[simp] theorem setReady_caps (s : State) (pg : Nat) (r : Bool) : (s.setReady pg r).caps = s.caps := by unfold setReady; split <;> (try split) <;> simp
@[simp] theorem setReady_panel (s : State) (pg : Nat) (r : Bool) : (s.setReady pg r).panel = s.panel := by unfold setReady; split <;> (try split) <;> simp
@[simp] theorem setReady_fresh (s : State) (pg : Nat) (r : Bool) : (s.setReady pg r).fresh = s.fresh := by unfold setReady; split <;> (try split) <;> simp
@[simp] theorem setReady_pending (s : State) (pg : Nat) (r : Bool) : (s.setReady pg r).pending = s.pending := by unfold setReady; split <;> (try split) <;> simp

/-! What a register field reads. -/

@[simp] theorem put_regs (s : State) (f : Field) (v : Nat) :
    (s.put f v).regs = setAt (BitVec.ofNat 64 (low f.width f.reset)) f.key (BitVec.ofNat 64 (low f.width v)) s.regs := rfl

theorem get_of_regs {s t : State} (h : t.regs = s.regs) (g : Field) : t.get g = s.get g := by unfold get; rw [h]

theorem get_put_ne {s : State} {f g : Field} (h : g.key ≠ f.key) (v : Nat) : (s.put f v).get g = s.get g := by
  have e : lookup g.key (s.put f v).regs = lookup g.key s.regs := by
    simp only [put_regs, setAt]; split
    · rw [lookup_remove_ne h]
    · rw [lookup_insert_ne h]
  unfold get; rw [e]

/-- A field of at most 64 bits reads the low bits of what was written to it. -/
theorem get_put_same {s : State} (hs : risingFrom 0 s.regs = true) {f : Field} (hw : f.width ≤ 64) (v : Nat) :
    (s.put f v).get f = low f.width v := by
  have hp : (2 : Nat) ^ f.width ≤ 2 ^ 64 := Nat.pow_le_pow_right (by omega) hw
  have hlt : ∀ x, low f.width x % 2 ^ 64 = low f.width x := fun x =>
    Nat.mod_eq_of_lt (Nat.lt_of_lt_of_le (Nat.mod_lt _ (Nat.two_pow_pos _)) hp)
  unfold get; rw [put_regs]; unfold setAt
  by_cases h : BitVec.ofNat 64 (low f.width v) = BitVec.ofNat 64 (low f.width f.reset)
  · rw [if_pos h, lookup_remove_same f.key hs]
    have := congrArg BitVec.toNat h
    simp only [BitVec.toNat_ofNat, hlt] at this
    exact this.symm
  · rw [if_neg h, lookup_insert_same]; simp only [BitVec.toNat_ofNat, hlt]

theorem put_rising {s : State} (hs : risingFrom 0 s.regs = true) (f : Field) (v : Nat) : risingFrom 0 (s.put f v).regs = true := by
  simp only [put_regs]; exact risingFrom_setAt _ _ _ hs

@[simp] theorem emit_get (s : State) (o : Out) (g : Field) : (s.emit o).get g = s.get g := rfl
@[simp] theorem pendMsix_get (s : State) (v : Nat) (g : Field) : (s.pendMsix v).get g = s.get g := rfl
@[simp] theorem draw_get (s : State) (w : Nat) (g : Field) : (s.draw w).2.get g = s.get g := rfl
@[simp] theorem setTile_get (s : State) (n : Nat) (t : Tile) (g : Field) : (s.setTile n t).get g = s.get g := rfl
@[simp] theorem modTile_get (s : State) (n : Nat) (f : Tile → Tile) (g : Field) : (s.modTile n f).get g = s.get g := rfl
@[simp] theorem setByte_get (s : State) (a : Nat) (v : Byte) (g : Field) : (s.setByte a v).get g = s.get g := rfl
@[simp] theorem lose_get (s : State) (lo hi : Nat) (g : Field) : (s.lose lo hi).get g = s.get g := rfl
@[simp] theorem zero_get (s : State) (lo hi : Nat) (g : Field) : (s.zero lo hi).get g = s.get g := rfl
@[simp] theorem cleanWords_get (s : State) (ws : List Nat) (g : Field) : (s.cleanWords ws).get g = s.get g := rfl
@[simp] theorem flipBit_get (s : State) (w b : Nat) (g : Field) : (s.flipBit w b).get g = s.get g := rfl
@[simp] theorem modIssue_get (s : State) (f : IssueS → IssueS) (g : Field) : (s.modIssue f).get g = s.get g := rfl
@[simp] theorem sendIrq_get (s : State) (pg : Nat) (g : Field) : (s.sendIrq pg).get g = s.get g := get_of_regs (by simp) g
@[simp] theorem irqEdge_get (s : State) (pg b : Nat) (g : Field) : (s.irqEdge pg b).get g = s.get g := get_of_regs (by simp) g

/-- The field of BLK_IRQ_STAT that holds cause b. -/
theorem get_cause_ne {s : State} {pg b : Nat} {g : Field}
    (h : g.key ≠ (if b = 0 then Reg.HDR.BLK_IRQ_STAT.REFUSED pg else if b = 1 then Reg.HDR.BLK_IRQ_STAT.ERR pg
      else if b = 2 then Reg.HDR.BLK_IRQ_STAT.READY_UP pg else Reg.HDR.BLK_IRQ_STAT.BLK_SPEC pg).key) :
    (s.cause pg b).get g = s.get g := by
  unfold cause; simp only [irqEdge_get, note_get]; exact get_put_ne h _

/-! Tiles. -/

theorem tile_modTile_same {s : State} (hs : risingFrom 0 s.tiles = true) (n : Nat) (f : Tile → Tile) : (s.modTile n f).tile n = f (s.tile n) := by
  unfold tile modTile setTile; exact getAt_setAt_same _ _ _ hs

theorem tile_modTile_ne {s : State} {n m : Nat} (h : m ≠ n) (f : Tile → Tile) : (s.modTile n f).tile m = s.tile m := by
  unfold tile modTile setTile; exact getAt_setAt_ne _ h _ _

/-! Memory bytes. -/

theorem setByte_wf {s : State} (h : Memory.wf s.mem = true) (a : Nat) (v : Byte) : Memory.wf (s.setByte a v).mem = true := by
  simp only [Memory.wf, Bool.and_eq_true, List.all_eq_true, bne_iff_ne] at *
  refine ⟨risingFrom_setAt _ _ _ h.1, fun c hc => ?_⟩
  rcases mem_setAt hc with ⟨rfl, hv⟩ | hc
  · exact hv
  · exact h.2 c hc

theorem setBytes_wf {s : State} (h : Memory.wf s.mem = true) (a : Nat) (bs : List Byte) : Memory.wf (s.setBytes a bs).mem = true := by
  induction bs generalizing s a with
  | nil => exact h
  | cons b t ih => exact ih (setByte_wf h a b) (a + 1)

theorem filter_wf {m : List Host.Cell} (p : Host.Cell → Bool) (h : Memory.wf m = true) : Memory.wf (m.filter p) = true := by
  simp only [Memory.wf, Bool.and_eq_true, List.all_eq_true] at *
  exact ⟨risingFrom_filter p h.1, fun c hc => h.2 c ((List.mem_filter.1 hc).1)⟩

theorem lose_wf {s : State} (h : Memory.wf s.mem = true) (lo hi : Nat) : Memory.wf (s.lose lo hi).mem = true := filter_wf _ h
theorem zero_wf {s : State} (h : Memory.wf s.mem = true) (lo hi : Nat) : Memory.wf (s.zero lo hi).mem = true := filter_wf _ h

end Sys2Proof.Machine.State
end

