-- ==== Sys2Proof/Laws/Cuff.lean ====
section
/-! SUPPORT. What the cuff does where nothing stands in its way: a packet passes, an engine's access is made at once. -/
namespace Sys2Proof.Machine.State

/-- Nothing of an item is held: leaving the cuff changes nothing. -/
theorem cuffLeave_none {s : State} {i : CuffItem} (h : s.net.cuff.any (fun c => c.2.2 == i) = false) : s.cuffLeave i = s := by
  unfold cuffLeave; rw [h]; rfl

/-- A packet between halves that both run, or within one that runs, passes. -/
theorem cross_pass {s : State} {src dst vc : Nat} {i : CuffItem} {pass : State → State} (hs : s.netOn src = true) (hd : src = dst ∨ s.netOn dst = true)
    (h : s.net.cuff.any (fun c => c.2.2 == i) = false) : s.cross src dst vc i pass = pass s := by
  have hd' : ¬(src ≠ dst ∧ !s.netOn dst) := by
    rcases hd with e | e
    · exact fun c => c.1 e
    · exact fun c => by simp [e] at c
  unfold cross; rw [hs, if_neg (by simp), if_neg hd', cuffLeave_none h]

/-- A packet whose own half stands still does not move. -/
theorem cross_still {s : State} {src dst vc : Nat} {i : CuffItem} {pass : State → State} (hs : s.netOn src = false) : s.cross src dst vc i pass = s := by
  unfold cross; simp [hs]

/-- A packet for another half that stands still is held. -/
theorem cross_held {s : State} {src dst vc : Nat} {i : CuffItem} {pass : State → State} (hs : s.netOn src = true) (hn : src ≠ dst) (hd : s.netOn dst = false) :
    s.cross src dst vc i pass = s.cuffHold dst vc i := by
  unfold cross; simp [hs, hn, hd]

/-- With both halves running no access of an engine lies in a half that stands still. -/
theorem farLines_running {s : State} (h0 : s.netOn 0 = true) (h1 : s.netOn 1 = true) (ep : Nat) (ranges : List (Nat × Nat)) : s.farLines ep ranges = [] := by
  unfold farLines; simp [h0, h1]

/-- An engine none of whose accesses lies in a half that stands still, or is held or timed out, goes on. -/
theorem guard_go {s : State} {ep vc : Nat} {ranges : List (Nat × Nat)} {go : State → State} (h : s.farLines ep ranges = []) (hc : s.net.cuff = [])
    (hk : (go s).net.cut = []) : s.guard ep vc ranges go = go s := by
  unfold guard; simp [h, hc, hk]

/-- The same, from the words of the statements. -/
theorem guard_clear {s : State} {ep vc : Nat} {ranges : List (Nat × Nat)} {go : State → State} (h : s.cuffClear = true) (hk : (go s).net.cut = []) :
    s.guard ep vc ranges go = go s := by
  simp only [cuffClear, Bool.and_eq_true, List.isEmpty_iff] at h
  exact guard_go (farLines_running h.1.1.1 h.1.1.2 ep ranges) h.1.2 hk

end Sys2Proof.Machine.State
end

