-- ==== Sys2Proof/Laws/Frames.lean ====
section
/-! SUPPORT. What the shared operations keep: rising register keys, frames, the canonical form, the queue. One lemma per operation and frame: provers cite these and never unfold the operation. -/
namespace Sys2Proof.Machine.State

/-! The parts of the canonical form. -/

theorem canonical_parts {s : State} (h : s.canonical = true) :
    Memory.wf s.mem = true ∧ risingFrom 0 s.regs = true ∧ risingFrom 0 s.tiles = true ∧ s.tiles.all (fun c => c.2.canonical) = true ∧ risingFrom 0 s.power.dom = true
      ∧ risingFrom 0 s.links = true ∧ risingFrom 0 s.movers = true ∧ risingFrom 0 s.chk = true ∧ risingFrom 0 s.ctx = true ∧ risingFrom 0 s.timers = true := by
  simp only [canonical, Bool.and_eq_true] at h; exact ⟨h.1.1.1.1.1.1.1.1.1, h.1.1.1.1.1.1.1.1.2, h.1.1.1.1.1.1.1.2, h.1.1.1.1.1.1.2, h.1.1.1.1.1.2, h.1.1.1.1.2, h.1.1.1.2, h.1.1.2, h.1.2, h.2⟩

theorem canonical_of_parts {s : State} (m : Memory.wf s.mem = true) (r : risingFrom 0 s.regs = true) (t : risingFrom 0 s.tiles = true) (u : s.tiles.all (fun c => c.2.canonical) = true)
    (d : risingFrom 0 s.power.dom = true) (l : risingFrom 0 s.links = true) (v : risingFrom 0 s.movers = true) (c : risingFrom 0 s.chk = true) (x : risingFrom 0 s.ctx = true)
    (i : risingFrom 0 s.timers = true) : s.canonical = true := by
  simp only [canonical, Bool.and_eq_true]; exact ⟨⟨⟨⟨⟨⟨⟨⟨⟨m, r⟩, t⟩, u⟩, d⟩, l⟩, v⟩, c⟩, x⟩, i⟩

theorem canonical_regs {s : State} (h : s.canonical = true) : risingFrom 0 s.regs = true := (canonical_parts h).2.1
theorem canonical_tiles {s : State} (h : s.canonical = true) : risingFrom 0 s.tiles = true := (canonical_parts h).2.2.1
theorem canonical_mem {s : State} (h : s.canonical = true) : Memory.wf s.mem = true := (canonical_parts h).1

/-! Keys of the registers stay rising: what reading a field after a write needs. -/

/-- The register fields have rising keys. -/
def Rising (s : State) : Prop := risingFrom 0 s.regs = true

theorem Rising.of {s t : State} (h : s.Rising) (e : t.regs = s.regs) : t.Rising := by unfold Rising; rw [e]; exact h
theorem Rising.put {s : State} (h : s.Rising) (f : Field) (v : Nat) : (s.put f v).Rising := put_rising h f v
theorem Rising.emit {s : State} (h : s.Rising) (o : Out) : (s.emit o).Rising := h
theorem Rising.irqEdge {s : State} (h : s.Rising) (pg b : Nat) : (s.irqEdge pg b).Rising := h.of (by simp)
theorem Rising.note {s : State} (h : s.Rising) (pg b : Nat) : (s.note pg b).Rising := h.of (by simp)
theorem Rising.cause {s : State} (h : s.Rising) (pg b : Nat) : (s.cause pg b).Rising := by unfold State.cause; exact ((h.put _ _).note _ _).irqEdge _ _
theorem Rising.setErr {s : State} (h : s.Rising) (pg : Nat) : (s.setErr pg).Rising := (h.put _ _).cause _ _
theorem Rising.causeErr {s : State} (h : s.Rising) (pg b : Nat) : (s.causeErr pg b).Rising := (h.setErr _).cause _ _
theorem Rising.reason {s : State} (h : s.Rising) (pg c o : Nat) : (s.reason pg c o).Rising := (h.put _ _).put _ _
theorem Rising.refuse {s : State} (h : s.Rising) (pg c o : Nat) : (s.refuse pg c o).Rising := ((h.reason _ _ _).put _ _).cause _ _
theorem Rising.accept {s : State} (h : s.Rising) (pg : Nat) : (s.accept pg).Rising := h.reason _ _ _
theorem Rising.bump {s : State} (h : s.Rising) (f : Field) : (s.bump f).Rising := h.put _ _
theorem Rising.add {s : State} (h : s.Rising) (f : Field) (n : Nat) : (s.add f n).Rising := h.put _ _
theorem Rising.modTile {s : State} (h : s.Rising) (n : Nat) (f : Tile → Tile) : (s.modTile n f).Rising := h
theorem Rising.setReady {s : State} (h : s.Rising) (pg : Nat) (r : Bool) : (s.setReady pg r).Rising := by
  unfold State.setReady; split
  · split
    · exact h
    · exact (h.put _ _).cause _ _
  · exact h.put _ _

theorem get_put {s : State} (h : s.Rising) {f : Field} (hw : f.width ≤ 64) (v : Nat) : (s.put f v).get f = low f.width v := get_put_same h hw v

/-- The field that a cause of a page sets. -/
def causeField (pg b : Nat) : Field :=
  if b = 0 then Reg.HDR.BLK_IRQ_STAT.REFUSED pg else if b = 1 then Reg.HDR.BLK_IRQ_STAT.ERR pg else if b = 2 then Reg.HDR.BLK_IRQ_STAT.READY_UP pg else Reg.HDR.BLK_IRQ_STAT.BLK_SPEC pg

theorem get_cause_other {s : State} {pg b : Nat} {g : Field} (h : g.key ≠ (causeField pg b).key) : (s.cause pg b).get g = s.get g := get_cause_ne h

/-! Frames. -/

theorem onlyFields_refl {ks : List Field} {s : State} : s.OnlyFields ks s := ⟨fun _ _ => rfl, rfl⟩

theorem onlyFields_put {ks : List Field} {s t : State} (h : s.OnlyFields ks t) {f : Field} (v : Nat) (hf : f.key ∈ ks.map (·.key)) : s.OnlyFields ks (t.put f v) :=
  ⟨fun g hg => by rw [get_put_ne (fun e => hg (by rw [e]; exact hf)), h.1 g hg], h.2⟩

theorem onlyFields_reason {ks : List Field} {s t : State} (h : s.OnlyFields ks t) {pg : Nat} (c o : Nat) (h0 : (Reg.HDR.BLK_REASON.CODE pg).key ∈ ks.map (·.key))
    (h1 : (Reg.HDR.BLK_REASON.OFFSET pg).key ∈ ks.map (·.key)) : s.OnlyFields ks (t.reason pg c o) := onlyFields_put (onlyFields_put h _ h0) _ h1

theorem onlyNotices_refl {ks : List Field} {s : State} : s.OnlyNotices ks s := ⟨fun _ _ => rfl, rfl⟩

theorem onlyNotices_put {ks : List Field} {s t : State} (h : s.OnlyNotices ks t) {f : Field} (v : Nat) (hf : f.key ∈ ks.map (·.key)) : s.OnlyNotices ks (t.put f v) :=
  ⟨fun g hg => by rw [get_put_ne (fun e => hg (by rw [e]; exact hf)), h.1 g hg], h.2⟩

theorem onlyNotices_emit {ks : List Field} {s t : State} (h : s.OnlyNotices ks t) (o : Out) : s.OnlyNotices ks (t.emit o) := ⟨h.1, h.2⟩

theorem onlyNotices_irqEdge {ks : List Field} {s t : State} (h : s.OnlyNotices ks t) (pg b : Nat) : s.OnlyNotices ks (t.irqEdge pg b) := by
  refine ⟨fun g hg => by rw [irqEdge_get]; exact h.1 g hg, ?_⟩
  have e := h.2
  have := irqEdge_all t pg b
  simp only at *
  rw [← this] at e
  rw [← e]

theorem onlyNotices_note {ks : List Field} {s t : State} (h : s.OnlyNotices ks t) (pg b : Nat) : s.OnlyNotices ks (t.note pg b) := by
  refine ⟨fun g hg => by rw [note_get]; exact h.1 g hg, ?_⟩
  unfold State.note; split
  · exact h.2
  · exact h.2

theorem onlyNotices_cause {ks : List Field} {s t : State} (h : s.OnlyNotices ks t) {pg b : Nat} (hf : (causeField pg b).key ∈ ks.map (·.key)) : s.OnlyNotices ks (t.cause pg b) := by
  unfold State.cause; exact onlyNotices_irqEdge (onlyNotices_note (onlyNotices_put h _ hf) _ _) _ _

theorem onlyNotices_setErr {ks : List Field} {s t : State} (h : s.OnlyNotices ks t) {pg : Nat} (h0 : (Reg.HDR.BLK_STAT.ERR pg).key ∈ ks.map (·.key))
    (h1 : (causeField pg 1).key ∈ ks.map (·.key)) : s.OnlyNotices ks (t.setErr pg) := onlyNotices_cause (onlyNotices_put h _ h0) h1

theorem onlyNotices_causeErr {ks : List Field} {s t : State} (h : s.OnlyNotices ks t) {pg b : Nat} (h0 : (Reg.HDR.BLK_STAT.ERR pg).key ∈ ks.map (·.key))
    (h1 : (causeField pg 1).key ∈ ks.map (·.key)) (h2 : (causeField pg b).key ∈ ks.map (·.key)) : s.OnlyNotices ks (t.causeErr pg b) := onlyNotices_cause (onlyNotices_setErr h h0 h1) h2

theorem onlyNotices_reason {ks : List Field} {s t : State} (h : s.OnlyNotices ks t) {pg : Nat} (c o : Nat) (h0 : (Reg.HDR.BLK_REASON.CODE pg).key ∈ ks.map (·.key))
    (h1 : (Reg.HDR.BLK_REASON.OFFSET pg).key ∈ ks.map (·.key)) : s.OnlyNotices ks (t.reason pg c o) := onlyNotices_put (onlyNotices_put h _ h0) _ h1

theorem onlyNotices_refuse {ks : List Field} {s t : State} (h : s.OnlyNotices ks t) {pg : Nat} (c o : Nat) (h0 : (Reg.HDR.BLK_REASON.CODE pg).key ∈ ks.map (·.key))
    (h1 : (Reg.HDR.BLK_REASON.OFFSET pg).key ∈ ks.map (·.key)) (h2 : (Reg.HDR.BLK_STAT.REFUSED pg).key ∈ ks.map (·.key)) (h3 : (causeField pg 0).key ∈ ks.map (·.key)) :
    s.OnlyNotices ks (t.refuse pg c o) := onlyNotices_cause (onlyNotices_put (onlyNotices_reason h _ _ h0 h1) _ h2) h3

/-! What every command keeps: the canonical form and the queue. -/

/-- t keeps the canonical form and the queue of s. -/
def Keeps (s t : State) : Prop := (s.canonical = true → t.canonical = true) ∧ t.pending = s.pending

theorem Keeps.refl (s : State) : Keeps s s := ⟨id, rfl⟩
theorem Keeps.trans {s t u : State} (h : Keeps s t) (k : Keeps t u) : Keeps s u := ⟨fun c => k.1 (h.1 c), k.2.trans h.2⟩
theorem Keeps.ite {s t u : State} (c : Prop) [Decidable c] (h : Keeps s t) (k : Keeps s u) : Keeps s (if c then t else u) := by split <;> assumption
theorem Keeps.foldl {α : Type} {f : State → α → State} (hf : ∀ s x, Keeps s (f s x)) (s : State) (l : List α) : Keeps s (l.foldl f s) := by
  induction l generalizing s with
  | nil => exact .refl s
  | cons x l ih => exact (hf s x).trans (ih _)

/-- A change of nothing that the canonical form or the queue names keeps both. -/
theorem keeps_of_eq {s t : State} (m : t.mem = s.mem) (r : t.regs = s.regs) (u : t.tiles = s.tiles) (d : t.power.dom = s.power.dom) (l : t.links = s.links) (v : t.movers = s.movers)
    (c : t.chk = s.chk) (x : t.ctx = s.ctx) (i : t.timers = s.timers) (p : t.pending = s.pending) : Keeps s t :=
  ⟨fun h => by simpa only [canonical, m, r, u, d, l, v, c, x, i] using h, p⟩

theorem keeps_put (s : State) (f : Field) (v : Nat) : Keeps s (s.put f v) :=
  ⟨fun h => have q := canonical_parts h; canonical_of_parts q.1 (put_rising q.2.1 f v) q.2.2.1 q.2.2.2.1 q.2.2.2.2.1 q.2.2.2.2.2.1 q.2.2.2.2.2.2.1 q.2.2.2.2.2.2.2.1 q.2.2.2.2.2.2.2.2.1
    q.2.2.2.2.2.2.2.2.2, rfl⟩
theorem keeps_emit (s : State) (o : Out) : Keeps s (s.emit o) := ⟨id, rfl⟩
theorem keeps_draw (s : State) (w : Nat) : Keeps s (s.draw w).2 := ⟨id, rfl⟩
theorem keeps_modIssue (s : State) (f : IssueS → IssueS) : Keeps s (s.modIssue f) := ⟨id, rfl⟩
theorem keeps_cleanWords (s : State) (ws : List Nat) : Keeps s (s.cleanWords ws) := ⟨id, rfl⟩
theorem keeps_irqEdge (s : State) (pg b : Nat) : Keeps s (s.irqEdge pg b) := keeps_of_eq (by simp) (by simp) (by simp) (by simp) (by simp) (by simp) (by simp) (by simp) (by simp) (by simp)
theorem keeps_note (s : State) (pg b : Nat) : Keeps s (s.note pg b) := keeps_of_eq (by simp) (by simp) (by simp) (by simp) (by simp) (by simp) (by simp) (by simp) (by simp) (by simp)
theorem keeps_cause (s : State) (pg b : Nat) : Keeps s (s.cause pg b) := by unfold State.cause; exact ((keeps_put _ _ _).trans (keeps_note _ _ _)).trans (keeps_irqEdge _ _ _)
theorem keeps_setErr (s : State) (pg : Nat) : Keeps s (s.setErr pg) := (keeps_put _ _ _).trans (keeps_cause _ _ _)
theorem keeps_causeErr (s : State) (pg b : Nat) : Keeps s (s.causeErr pg b) := (keeps_setErr _ _).trans (keeps_cause _ _ _)
theorem keeps_reason (s : State) (pg c o : Nat) : Keeps s (s.reason pg c o) := (keeps_put _ _ _).trans (keeps_put _ _ _)
theorem keeps_refuse (s : State) (pg c o : Nat) : Keeps s (s.refuse pg c o) := ((keeps_reason _ _ _ _).trans (keeps_put _ _ _)).trans (keeps_cause _ _ _)
theorem keeps_accept (s : State) (pg : Nat) : Keeps s (s.accept pg) := keeps_reason _ _ _ _
theorem keeps_add (s : State) (f : Field) (n : Nat) : Keeps s (s.add f n) := keeps_put _ _ _
theorem keeps_bump (s : State) (f : Field) : Keeps s (s.bump f) := keeps_put _ _ _
theorem keeps_setReady (s : State) (pg : Nat) (r : Bool) : Keeps s (s.setReady pg r) := by
  unfold State.setReady; exact .ite _ (.ite _ (.refl _) ((keeps_put _ _ _).trans (keeps_cause _ _ _))) (keeps_put _ _ _)

/-- A change of memory that keeps its form. -/
theorem keeps_mem {s t : State} (w : Memory.wf s.mem = true → Memory.wf t.mem = true) (r : t.regs = s.regs) (u : t.tiles = s.tiles) (d : t.power.dom = s.power.dom) (l : t.links = s.links)
    (v : t.movers = s.movers) (c : t.chk = s.chk) (x : t.ctx = s.ctx) (i : t.timers = s.timers) (p : t.pending = s.pending) : Keeps s t :=
  ⟨fun h => by
    have q := canonical_parts h
    exact canonical_of_parts (w q.1) (by rw [r]; exact q.2.1) (by rw [u]; exact q.2.2.1) (by rw [u]; exact q.2.2.2.1) (by rw [d]; exact q.2.2.2.2.1) (by rw [l]; exact q.2.2.2.2.2.1)
      (by rw [v]; exact q.2.2.2.2.2.2.1) (by rw [c]; exact q.2.2.2.2.2.2.2.1) (by rw [x]; exact q.2.2.2.2.2.2.2.2.1) (by rw [i]; exact q.2.2.2.2.2.2.2.2.2), p⟩

theorem keeps_setByte (s : State) (a : Nat) (v : Byte) : Keeps s (s.setByte a v) := keeps_mem (fun h => setByte_wf h a v) rfl rfl rfl rfl rfl rfl rfl rfl rfl
theorem keeps_setBytes (s : State) (a : Nat) (bs : List Byte) : Keeps s (s.setBytes a bs) := by
  induction bs generalizing s a with
  | nil => exact .refl s
  | cons b t ih => exact (keeps_setByte s a b).trans (ih _ _)
theorem keeps_putMem (s : State) (a : Nat) (bs : List Byte) : Keeps s (s.putMem a bs) := (keeps_cleanWords _ _).trans (keeps_setBytes _ _ _)
theorem keeps_lose (s : State) (lo hi : Nat) : Keeps s (s.lose lo hi) := keeps_mem (fun h => lose_wf h lo hi) rfl rfl rfl rfl rfl rfl rfl rfl rfl
theorem keeps_zero (s : State) (lo hi : Nat) : Keeps s (s.zero lo hi) := keeps_mem (fun h => zero_wf h lo hi) rfl rfl rfl rfl rfl rfl rfl rfl rfl

theorem tile_canonical {s : State} (h : s.canonical = true) (n : Nat) : (s.tile n).canonical = true := by
  have q := (canonical_parts h).2.2.2.1
  unfold tile getAt
  cases e : lookup n s.tiles with
  | none => rfl
  | some t => exact (List.all_eq_true.1 q) (n, t) (lookup_mem e)

/-- A tile changed to a canonical one. -/
theorem keeps_setTile (s : State) (n : Nat) (t : Tile) (ht : s.canonical = true → t.canonical = true) : Keeps s (s.setTile n t) :=
  ⟨fun h => by
    have q := canonical_parts h
    refine canonical_of_parts q.1 q.2.1 (risingFrom_setAt _ _ _ q.2.2.1) (List.all_eq_true.2 fun c hc => ?_) q.2.2.2.2.1 q.2.2.2.2.2.1 q.2.2.2.2.2.2.1 q.2.2.2.2.2.2.2.1 q.2.2.2.2.2.2.2.2.1 q.2.2.2.2.2.2.2.2.2
    rcases mem_setAt hc with ⟨rfl, -⟩ | hc
    · exact ht h
    · exact (List.all_eq_true.1 q.2.2.2.1) c hc, rfl⟩

theorem keeps_modTile (s : State) (n : Nat) (f : Tile → Tile) (hf : ∀ t : Tile, t.canonical = true → (f t).canonical = true) : Keeps s (s.modTile n f) :=
  keeps_setTile s n _ fun h => hf _ (tile_canonical h n)

end Sys2Proof.Machine.State
end

