-- ==== Sys2Proof/Tests/Slice0.lean ====
section
/-! SUPPORT. Tests: ill-formed commands are refused, words decode, the spec's worked examples, and for every statement states and operands that meet the hypotheses of each of its clauses. -/
set_option maxRecDepth 20000
set_option linter.unusedVariables false
namespace Sys2Proof.Machine
open State Claims

/-! One ill-formed command for each check of Instr.wf. -/

/-- A well-formed request packet to vary. -/
def pkt : Pkt := ⟨0, 5, 0, 1, 0, false, 0, 0x100, 8, [], none, none⟩

theorem test_wf_packet : ({ pkt with size := 0 }.wf, { pkt with size := 4097 }.wf, { pkt with cls := 3, size := 72 }.wf, { pkt with data := [1] }.wf) = (false, false, false, false) := by decide
theorem test_wf_write : ({ pkt with op := 1 }.wf, { pkt with op := 1, addr := 0x101, size := 56, data := List.replicate 56 0 }.wf, { pkt with mcast := some [1] }.wf,
    { pkt with op := 1, data := List.replicate 8 0, mcast := some [] }.wf) = (false, false, false, false) := by decide
theorem test_wf_atomic : ({ pkt with op := 2, data := List.replicate 8 0 }.wf, { pkt with op := 3, size := 4, data := List.replicate 4 0 }.wf) = (false, false) := by decide
theorem test_wf_packet_good : (pkt.wf, { pkt with op := 3, data := List.replicate 8 0 }.wf) = (true, true) := by decide
theorem test_wf_operation : ((Instr.rd { pkt with op := 1, data := List.replicate 8 0 } ⟨[], none, []⟩).wf, (Instr.wr pkt ⟨[], none, []⟩).wf, (Instr.addI32 pkt ⟨[], none, []⟩).wf, (Instr.addI64 pkt ⟨[], none, []⟩).wf) = (false, false, false, false) := by decide
theorem test_wf_operation2 : ((Instr.addF32 pkt ⟨[], none, []⟩).wf, (Instr.add2bf16 pkt ⟨[], none, []⟩).wf, (Instr.swap64 pkt ⟨[], none, []⟩).wf, (Instr.delayStep pkt ⟨[], none, []⟩).wf) = (false, false, false, false) := by decide
theorem test_wf_bridge : ((Instr.registerBridgeRequest (.rd 0 0)).wf, (Instr.registerBridgeRequest (.rd 0 4097)).wf, (Instr.registerBridgeRequest (.wr 0 [])).wf) = (false, false, false) := by decide
theorem test_wf_events : ((Instr.evt 1 2 [] ⟨[], none, []⟩).wf, (Instr.evt 1 2 [1, 2, 3, 4, 5, 6, 7] ⟨[], none, []⟩).wf) = (false, false) := by decide
theorem test_wf_reduction : (Instr.red (.tile 3 [1]) 0 ⟨0, ⟨[], none, []⟩⟩).wf = false := by decide
/-- Nothing befalls the units of a packet. -/
def sound : RxLuck := ⟨0, 0, 0, false⟩
theorem test_wf_link : ((Instr.linkPacket 1 (.req false { pkt with mcast := some [1] }) sound).wf, (Instr.linkPacket 1 (.evt false 0 0 0 0 []) sound).wf, (Instr.linkPacket 1 (.coll 0 0 [1]) sound).wf,
    (Instr.linkPacket 1 (.bcast false 3 [1]) sound).wf) = (false, false, false, false) := by decide
theorem test_wf_link_host : ((Instr.linkPacket 1 (.req false { pkt with host := some 0 }) sound).wf, (Instr.linkPacket 1 (.req false pkt) sound).wf) = (false, true) := by decide
theorem test_wf_host : ({ pkt with op := 3, data := List.replicate 8 0, host := some 0 }.wf, { pkt with host := some 0 }.wf) = (false, true) := by decide
theorem test_wf_credit : (Instr.credit 1 []).wf = false := by decide
theorem test_wf_message : (Instr.messageHead 0 (some ⟨0, 0, 0, 0, 0, []⟩) false).wf = false := by decide
theorem test_wf_bar2 : ((Instr.bar2Tlp (.rd 0 0)).wf, (Instr.bar2Tlp (.wr 0 [] false)).wf) = (false, false) := by decide
theorem test_wf_move : ((Instr.move 3 1 29 0).wf, (Instr.move 3 1 8 10).wf) = (false, false) := by decide
theorem test_wf_qsend : ((Instr.qsend 3 3 1 0 1 1 0).wf, (Instr.qsend 3 0 31 1 1 1 0).wf, (Instr.qsend 3 0 1 0 1 0 0).wf, (Instr.qsend 3 2 1 0 1 1 0).wf, (Instr.qsend 3 0 1 0 1 1 5).wf) = (false, false, false, false, false) := by decide
theorem test_wf_recv : ((Instr.recv 3 31 1 1 0).wf, (Instr.peek 3 1 0 0 0).wf, (Instr.discard 3 4 3 6 0).wf) = (false, false, false) := by decide
theorem test_wf_learn : (Instr.learn 3 1).wf = false := by decide
theorem test_wf_mfv : (Instr.mfv 3 1 2 false 128).wf = false := by decide
theorem test_wf_vector : ((Instr.vdive 3 .fp32 1 2 3 0 15).wf, (Instr.vcmp 3 .fp32 0 2 3 0 0).wf, (Instr.vsel 3 .fp32 1 2 3 0).wf, (Instr.vmul 3 .int32 1 2 3 0).wf) = (false, false, false, false) := by decide
theorem test_wf_int32 : ((Instr.vfma 3 .int32 1 2 3 0 0 false).wf, (Instr.vlerp 3 .int32 1 2 3 0 0).wf, (Instr.vrms 3 .int32 1 2 3 0 0).wf, (Instr.vdive 3 .int32 1 2 3 0 0).wf) = (false, false, false, false) := by decide
theorem test_wf_int32_unary : ((Instr.vrcp 3 .int32 1 2 0).wf, (Instr.vrsqrt 3 .int32 1 2 0).wf, (Instr.vexp2 3 .int32 1 2 0).wf, (Instr.vlog2 3 .int32 1 2 0).wf, (Instr.vsqrt 3 .int32 1 2 0).wf) = (false, false, false, false, false) := by decide
theorem test_wf_int32_lanes : ((Instr.vred 3 .int32 1 2 0 3).wf, (Instr.vscan 3 .int32 1 2 0 false).wf, (Instr.vscanl 3 .int32 1 2 3 0 false).wf) = (false, false, false) := by decide
theorem test_wf_upset : ((Instr.upset (.voted 5 [1, 1] 0)).wf, (Instr.upset (.globalWord 1 5 0)).wf) = (false, true) := by decide

/-! Slot words written out from the tables of R80, R121, R124, R125, R159, R265, R268, R270, R286, R289 and R359. -/

theorem test_decode_ld : decodeScalar 3 0b01000000001000100000000000001000 = some [.ld 3 2 4 8] := by decide
theorem test_decode_atom : decodeScalar 3 0b01010000001000100000111010000000 = some [.atom 3 5 2 4 3] := by decide
theorem test_decode_atom_reserved : decodeScalar 3 0b01010000001000100000111100000000 = none := by decide
theorem test_decode_shift_wide : decodeScalar 3 0b00101000001000100000000001000000 = none := by decide
theorem test_decode_pair_same : decodeScalar 3 0b10000001000000000000000100000000 = none := by decide
theorem test_decode_vfma : decodeVector 3 0b00010000000010001000011000001001 = some [.vfma 3 .fp32 1 2 3 0 4 true] := by decide
theorem test_decode_vcvt : decodeVector 3 0b01101000000010001000000000101000 = some [.vcvt 3 .fp32 .int32 1 2 0 true] := by decide
theorem test_decode_vmul_int : decodeVector 3 0b00001110000010001000011000000000 = none := by decide
theorem test_decode_out : decodeArray 3 0b0100000100001111 = some [.out 3 1 15] := by decide
theorem test_decode_swapw_field : decodeArray 3 0b0010000100000000 = none := by decide
theorem test_decode_move : decodeMslot 3 0b00010001101000101000000000000000 = some [.move 3 3 8 20] := by decide
theorem test_decode_evctl : decodeMslot 3 0b01000010000000000000000000000000 = some [.evctlDrain 3] := by decide
theorem test_decode_load8 : decodeMslot 3 0b01110000000000100011000000000000 = some [.load8 3 1 3] := by decide

/-! The spec's worked examples. -/

/-- The map: T200's store, its EVENT page, S45 (chapter 1). -/
theorem test_map : region 0x32100000 = .tile 200 0x100000 ∧ region 0x61C87000 = .regs 0x1C87000 ∧ tilePg 200 7 = 0x1C87000 ∧ region 0x4B400000 = .slice 45 0 := by decide
/-- LPDDR6 interleaving (chapter 11). -/
theorem test_lpddr : lpddrChan 0x12345678 = 21 ∧ lpddrAddr 0x12345678 = 0x91A678 ∧ lpddrChan 0x12346678 = 22 ∧ lpddrChan 0x12347678 = 23 := by decide
/-- A mover's page (chapter 2). -/
theorem test_mover_page : moverPg 5 = 0x22800 := by decide
/-- An event word (chapter 6). -/
theorem test_event_word : mkEvent 5 12 300 517 0 2 false false = 0x0050C012C0814020 := by decide
/-- INT8 127 with UE4M3 0x39 is 143.0 in BF16 (chapter 5). -/
theorem test_dequant : dequant 1 2 127 0x39 = (0x430F, false, false) := by decide
/-- V = 2.6 with threshold 1.0 and reset 0.0 crosses twice (chapter 6). -/
theorem test_crossing : crossing 0x40266666 0 0x3F800000 = 2 := by decide
/-- DELTA with THR 0.25, L 1.0 and x 0.3: an event of count 2 to row 41, and L becomes 0.5 (chapter 6). -/
theorem test_delta : State.reset.deltaOf 0x3E800000 0x3E99999A 0x3F800000 0 40 0 = some (mkEvent 0 0 41 0 0 2 false false, 0x3F000000) := by decide
/-- The three-factor rule: code 5 becomes 6 for u below 4,915 and stays 5 otherwise (chapter 7). -/
theorem test_learn : newCode 5 (-8) 7 1 [0x40400000] [0x3EC00000] 4914 = some (6, false) ∧ newCode 5 (-8) 7 1 [0x40400000] [0x3EC00000] 4915 = some (5, false) := by decide
/-- The same for code 7: 7 when u is below 40,960, else 6 (chapter 7). -/
theorem test_learn_limit : newCode 7 (-8) 7 1 [0x40400000] [0x3EC00000] 40959 = some (7, false) ∧ newCode 7 (-8) 7 1 [0x40400000] [0x3EC00000] 40960 = some (6, false) := by decide
/-- Signature indices: with 37 slots programmed the first index is 9,472 (chapter 13). -/
theorem test_signature : (sigIndex { State.reset with flash := { State.reset.flash with journal := List.replicate 37 true } }).map (·.1) = some 9472 := by decide
/-- The West core hangs: at its third miss the token moves to East (chapter 13). -/
theorem test_token_moves : (match execHbBoundary { ((State.reset.put Reg.CROWN.HB_STAT.MISS_W 2).put Reg.CROWN.HB.EAST 1) with power := { State.reset.power with dom := [(323, .on)] } } with
    | .next t => t.get Reg.CROWN.TOKEN.HOLDER | _ => 9) = 1 := by decide
/-- The cap loop: 540 W over a cap of 500 W raises the level by one (chapter 14). -/
theorem test_cap : ((State.reset.put Reg.POWER.CAP_CFG.CAP 500).capLoop 5400).power.loopLevel = 1 := by decide
/-- DELAY_STEP: an even operand steps the delay up to 63, an odd one down to 0 (R112). -/
theorem test_delay_step : delayStep (5 * 2 ^ 22 + 3) 0 = 6 * 2 ^ 22 + 3 ∧ delayStep (63 * 2 ^ 22) 2 = 63 * 2 ^ 22 ∧ delayStep (5 * 2 ^ 22) 1 = 4 * 2 ^ 22 ∧ delayStep 7 1 = 7 := by decide
/-- A NaN sum is the canonical NaN (R113): infinity plus minus infinity. -/
theorem test_nan : fadd 0x7F800000 0xFF800000 = 0x7FC00000 ∧ bfadd 0x7F80 0xFF80 = 0x7FC0 := by decide
/-- A cascaded pair catches up 40 ticks (chapter 16). -/
def heldPair : State :=
  { (((State.reset.put (Reg.TIMERS.GT_CNT.VALUE 4) 0xFFFFFFF0).put (Reg.TIMERS.GT_CNT.VALUE 5) 1).put (Reg.TIMERS.GT_CFG.CASC 5) 1) with power := { State.reset.power with dom := [(323, .on)] } }
    |>.put (Reg.TIMERS.GT_CTRL.RUN 4) 1 |>.put (Reg.TIMERS.GT_CTRL.RUN 5) 1 |>.put (Reg.TIMERS.GT_CTRL.HOLD 4) 1 |>.put (Reg.TIMERS.GT_STAT.HELD 4) 1 |>.put (Reg.TIMERS.GT_STAT.HELD 5) 1 |>.put (Reg.TIMERS.GT_STAT.CATCHUP 4) 40
theorem test_timer_pair : (match actHoldRelease .host 4 heldPair with | .next t => (t.gtCnt 4, t.gtCnt 5) | _ => (0, 0)) = (0x18, 2) := by decide

/-! Single commands. -/

/-- A step with a command in front carries it out and leaves the rest. -/
theorem test_step : (match step { State.reset with pending := [.twinHbSend, .takeover] } with | .next t => t.pending | _ => []) = [.takeover] := by decide
/-- A command from no holder is refused with NOT_HOLDER (R62). -/
theorem test_not_holder : (match actTwinRole .host 1 State.reset with | .next t => t.get (Reg.HDR.BLK_REASON.CODE pgTWIN) | _ => 0) = 7 := by decide
/-- s0 reads zero after a write (R121). -/
theorem test_s0 : ((State.reset.setSreg 3 0 5).sreg 3 0, (State.reset.setSreg 3 1 5).sreg 3 1) = (0, 5) := by decide

/-- A small running module: the fabric halves, LPDDR6, the crown, tiles 0, 3, 130 and slices 0, 1 ON; both fabrics have the host's vote; the token is NONE. -/
def upState : State :=
  { ((((((State.reset.put Reg.CROWN.TOKEN.HOLDER 2).put Reg.POWER.VOTE_FAB_W.VOTE 1).put Reg.POWER.VOTE_FAB_E.VOTE 1).put (Reg.HDR.BLK_STAT.READY (tilePg 0 0)) 1).put
      (Reg.HDR.BLK_STAT.READY (tilePg 3 0)) 1).put (Reg.HDR.BLK_STAT.READY pgSTEP) 1) with
    power := { State.reset.power with dom := [(0, .on), (3, .on), (130, .on), (256, .on), (257, .on), (320, .on), (321, .on), (322, .on), (323, .on)] } }

/-! States and operands that meet the hypotheses of every clause of every statement. -/

theorem witness_RegisterAccessesComplete :
    (∃ (s : State) (src : Source) (off : Ofs) (v : Word32) (r : RegRef), (s.canonical = true) ∧ (src ≠ .host) ∧ (s.answers src off.toNat = true) ∧ (regAt off.toNat = some r) ∧ (r.row.wide = false) ∧ (r.page.base + 0x40 ≤ r.low) ∧ (r.page.kind = .global ∨ r.page.kind = .flr ∨ r.page.kind = .flc ∨ r.page.kind = .sp ∨ r.page.kind = .tile 0)) ∧
    (∃ (s : State) (src : Source) (pg : Ofs), (s.canonical = true) ∧ ((src == .host && s.hostWaits) = false) ∧ (s.answers src (pageAt pg.toNat).base = true) ∧ ((pageAt pg.toNat).hasEnable = true) ∧ (s.get (Reg.HDR.BLK_CTRL.EN (pageAt pg.toNat).base) = 0) ∧ (s.get (Reg.HDR.BLK_CTRL.MODE (pageAt pg.toNat).base) = 0)) ∧
    (∃ (s : State) (src : Source), (s.canonical = true) ∧ (s.checking = [(pgISSUE, src)]) ∧ (s.domOn 320 = true) ∧ (s.effective 0 ≠ 2) ∧ (s.get Reg.RESET.RST_STAT.COMP_ACTIVE = 0) ∧ (s.isReady State.pgSNET = true)) ∧
    (∃ (s : State) (src : Source), (s.canonical = true) ∧ (s.checking = [(pgISSUE, src)]) ∧ (s.domOn 320 = true) ∧ (s.effective 0 ≠ 2) ∧ (s.get Reg.RESET.RST_STAT.COMP_ACTIVE = 0) ∧ (s.isReady State.pgSNET = false)) ∧
    (∃ (s : State) (src : Source) (pg : Ofs), (s.canonical = true) ∧ ((src == .host && s.hostWaits) = false) ∧ (s.answers src ((pageAt pg.toNat).base + 0xC) = true) ∧ ((pageAt pg.toNat).kind ≠ .unused) ∧ ((pageAt pg.toNat).kind ≠ .tile 0) ∧ (s.get (Reg.HDR.BLK_CTRL.SRST (pageAt pg.toNat).base) = 0)) ∧
    (∃ (s : State) (src : Source) (n : TileId), (s.canonical = true) ∧ ((src == .host && s.hostWaits) = false) ∧ (s.answers src ((pageAt (BitVec.ofNat 26 (tilePg n.val 0)).toNat).base + 0xC) = true) ∧ (s.get (Reg.HDR.BLK_CTRL.SRST (tilePg n.val 0)) = 0) ∧ (s.streamActive = false) ∧ (s.stepActive = false)) ∧
    (∃ (s : State) (pg : Ofs), (s.canonical = true) ∧ (s.get (Reg.HDR.BLK_CTRL.SRST (pageAt pg.toNat).base) = 1) ∧ ((pageAt pg.toNat).kind ≠ .tile 0) ∧ (s.pageUp (pageAt pg.toNat) = true) ∧ (s.usable (pageAt pg.toNat) = true)) ∧
    (∃ (s : State) (src : Source) (off : Ofs) (w : Option Word32), (s.canonical = true) ∧ ((src == .host && s.hostWaits) = false) ∧ (s.silent src = false) ∧ ((pageAt off.toNat).kind = .unused)) ∧
    (∃ (s : State) (src : Source) (off : Ofs) (v : Word32), (s.canonical = true) ∧ ((src == .host && s.hostWaits) = false) ∧ (s.silent src = false) ∧ ((pageAt off.toNat).kind ≠ .unused) ∧ (s.offUp off.toNat = false) ∧ (voteDomain off.toNat = none) ∧ (State.voteWrite off.toNat = false)) ∧
    (∃ (s : State) (src : Source) (off : Ofs) (v : Word32), (s.canonical = true) ∧ ((src == .host && s.hostWaits) = false) ∧ (s.silent src = false) ∧ ((pageAt off.toNat).kind ≠ .unused) ∧ (s.offUp off.toNat = false) ∧ (voteDomain off.toNat = none) ∧ (State.voteWrite off.toNat = true)) ∧
    (∃ (s : State) (src : Source) (off : Ofs), (s.canonical = true) ∧ ((src == .host && s.hostWaits) = false) ∧ (s.silent src = false) ∧ ((pageAt off.toNat).kind ≠ .unused) ∧ (s.offUp off.toNat = false)) ∧
    (∃ (s : State) (src : Source) (off : Ofs) (v : Word32) (d : Nat), (s.canonical = true) ∧ ((src == .host && s.hostWaits) = false) ∧ (s.silent src = false) ∧ (voteDomain off.toNat = some d) ∧ (d < 320) ∧ (v.toNat.testBit (voteBit src) = true) ∧ (s.domState d = .off) ∧ (s.ownEnable d = true) ∧ (s.power.tripped = false) ∧ ((State.parents d).all (fun p => s.domOn p && s.ownEnable p) = true) ∧ (s.get (State.voteField d) < 256)) ∧
    (∃ (s : State) (src : Source) (off : Ofs) (r : RegRef), (s.canonical = true) ∧ ((src == .host && (s.pcie.d3 || !s.pcie.writes.isEmpty)) = false) ∧ (s.answers src off.toNat = true) ∧ (regAt off.toNat = some r) ∧ (r.row.wide = true) ∧ (r.high = false) ∧ (r.page.kind ≠ .timers)) ∧
    (∃ (s : State) (src : Source) (off : Ofs) (r : RegRef) (w : Word32), (s.canonical = true) ∧ ((src == .host && (s.pcie.d3 || !s.pcie.writes.isEmpty)) = false) ∧ (s.answers src off.toNat = true) ∧ (regAt off.toNat = some r) ∧ (r.row.wide = true) ∧ (r.high = true) ∧ (r.page.kind ≠ .timers) ∧ ((s.shadowOf r.page.base src).read = some (r.low, w))) ∧
    (∃ (s : State) (off : Ofs) (q : Nat) (w : HostWrite) (l : List (Nat × HostWrite)) (x : Tlp), (s.canonical = true) ∧ (s.pcie.d3 = false) ∧ (s.pcie.writes = (q, w) :: l) ∧ (x ∈ s.pcie.tlps) ∧ (x.wr = true) ∧ (x.id < q)) ∧
    (∃ (s : State) (m : Fin 32) (v : Word32) (x : Tlp), (s.canonical = true) ∧ (s.pcie.d3 = false) ∧ (s.pcie.writes = []) ∧ (x ∈ s.pcie.tlps) ∧ (x.wr = true)) ∧
    (∃ (s : State) (pg : Ofs), (s.canonical = true) ∧ (s.pcie.d3 = true) ∧ (s.pcie.writes = [])) ∧
    (∃ (s : State) (src : Source) (off : Ofs) (v : Word32) (r : RegRef), (s.canonical = true) ∧ (src ≠ .host) ∧ (s.answers src off.toNat = true) ∧ (voteDomain off.toNat = none) ∧ (regAt off.toNat = some r) ∧ (r.row.wide = true) ∧ (r.high = true)) ∧
    (∃ (s : State) (src : Source) (v hi : Word32), (s.canonical = true) ∧ (src ≠ .host) ∧ (s.answers src 0x6040 = true) ∧ ((s.shadowOf pgISSUE src).write = some (0x6040, hi))) ∧
    (∃ (s : State) (src : Source) (off : Ofs), (s.canonical = true)) ∧
    (∃ (s : State) (a : Addr) (r : RegRef), (s.canonical = true) ∧ (0x60000000 ≤ a.toNat) ∧ (a.toNat < 0x64000000) ∧ (a.toNat % 4 = 0) ∧ (s.answers .bridge (a.toNat - 0x60000000) = true) ∧ (voteDomain (a.toNat - 0x60000000) = none) ∧ (regAt (a.toNat - 0x60000000) = some r) ∧ (r.row.wide = false) ∧ (r.page.kind ≠ .timers)) ∧
    (∃ (s : State) (a : Addr), (s.canonical = true)) :=
  ⟨⟨upState, .wcore, 0x58, 0x12345678, ⟨⟨.global, 0, 0⟩, ⟨0x58, [], .compute, false, [⟨0, 32, .rw, 0⟩]⟩, 0x58, false⟩, by decide⟩,
    ⟨upState, .host, 0x6000, by decide⟩,
    ⟨{ (upState.put (Reg.HDR.BLK_STAT.READY State.pgSNET) 1) with checking := [(pgISSUE, .host)] }, .host, by decide⟩,
    ⟨{ upState with checking := [(pgISSUE, .host)] }, .host, by decide⟩,
    ⟨upState, .host, 0xC000, by decide⟩,
    ⟨(upState.put (Reg.HDR.BLK_STAT.READY (tilePg 3 4)) 1).modTile 3 (fun x => { x with sregs := [(1, 5)] }), .host, 3, by decide⟩,
    ⟨(upState.put (Reg.HDR.BLK_CTRL.SRST 0xC000) 1), 0xC000, by decide⟩,
    ⟨upState, .host, 0xD004, none, by decide⟩,
    ⟨State.reset, .host, 0x6040, 1, by decide⟩,
    ⟨State.reset, .host, 0x6024, 1, by decide⟩,
    ⟨State.reset, .host, 0x6000, by decide⟩,
    ⟨upState, .host, 0x1040024, 1, 4, by decide⟩,
    ⟨(upState.put Reg.ISSUE.LAUNCH_CNT.CNT 0x123456789ABCDEF0), .host, 0x6058, ⟨⟨.issue, 0x6000, 0⟩, ⟨0x58, [], .block, true, [⟨0, 64, .rws, 0⟩]⟩, 0x6058, false⟩, by decide⟩,
    ⟨{ upState with shadows := [⟨0x6000, .host, some (0x6058, 7), none⟩] }, .host, 0x605C, ⟨⟨.issue, 0x6000, 0⟩, ⟨0x58, [], .block, true, [⟨0, 64, .rws, 0⟩]⟩, 0x6058, true⟩, 7, by decide⟩,
    ⟨{ upState with pcie := { PcieS.reset with writes := [(1, .register 0x6040 3)], tlps := [⟨0, true, 0, 8, []⟩], seq := 1 } }, 0x6040, 1, .register 0x6040 3, [], ⟨0, true, 0, 8, []⟩, by decide⟩,
    ⟨{ upState with pcie := { PcieS.reset with tlps := [⟨0, true, 0, 8, []⟩], seq := 1 } }, 3, 7, ⟨0, true, 0, 8, []⟩, by decide⟩,
    ⟨{ upState with pcie := { PcieS.reset with d3 := true } }, 0x6000, by decide⟩,
    ⟨upState, .wcore, 0x6044, 9, ⟨⟨.issue, 0x6000, 0⟩, ⟨0x40, [], .block, true, [⟨0, 48, .rws, 0⟩]⟩, 0x6040, true⟩, by decide⟩,
    ⟨{ upState with shadows := [⟨0x6000, .ecore, none, some (0x6040, 0x12)⟩] }, .ecore, 5, 0x12, by decide⟩,
    ⟨{ upState with slow := [(.host, 0x3044), (.wcore, 5)] }, .host, 0x3044, by decide⟩,
    ⟨(upState.put Reg.GLOBAL.REG_DOWN_CNT.CNT 3), 0x60000058, ⟨⟨.global, 0, 0⟩, ⟨0x58, [], .compute, false, [⟨0, 32, .rw, 0⟩]⟩, 0x58, false⟩, by decide +kernel⟩,
    ⟨upState, 0x60000058, by decide⟩⟩

theorem witness_StreamControlCompletes :
    (∃ (s : State) (h : ImageRec) (segs : List (Nat × Nat × Nat × Nat × Nat)), (s.canonical = true) ∧ (s.answers .bridge (pgISSUE + 0x48) = true) ∧ (s.get Reg.ISSUE.LOAD_CTRL.LOAD = 0) ∧ (s.fabricsHeld = true) ∧ (s.cuffClear = true) ∧ (((loadBegun s).loadChecks (s.get Reg.ISSUE.IMG_ADDR.ADDR)).1.toOption.map (·.1) = some h) ∧ (((loadBegun s).loadChecks (s.get Reg.ISSUE.IMG_ADDR.ADDR)).1.toOption.map (·.2) = some segs)) ∧
    (∃ (s : State), (s.canonical = true) ∧ (s.answers .bridge (pgISSUE + 0x48) = true) ∧ (s.get Reg.ISSUE.LOAD_CTRL.LOAD = 0) ∧ (s.cuffClear = true) ∧ (s.get Reg.ISSUE.IMG_ADDR.ADDR % 64 ≠ 0)) ∧
    (∃ (s : State) (j : LoadJob), (s.canonical = true) ∧ (s.issue.job = some j) ∧ (s.cuffClear = true) ∧ ((members j.lanes 256).all (fun n => s.domOn n) = true) ∧ ((j.segs.foldl (fun acc x => State.loadSegment acc j.addr x) (none, s)).1 = none) ∧ (1 ≤ j.hdr.len) ∧ (j.hdr.len ≤ 16384)) ∧
    (∃ (s : State) (j : LoadJob), (s.canonical = true) ∧ (s.issue.job = some j)) ∧
    (∃ (s : State) (r : ImageRec), (s.canonical = true) ∧ (s.answers .bridge (pgISSUE + 0x50) = true) ∧ (s.startCheck = none) ∧ (s.issue.loaded = some r) ∧ (s.fabricsHeld = true)) ∧
    (∃ (s : State) (c : Nat), (s.canonical = true) ∧ (s.answers .bridge (pgISSUE + 0x50) = true) ∧ (s.startCheck = some c) ∧ (c < 256)) ∧
    (∃ (s : State), (s.canonical = true) ∧ (s.answers .bridge (pgISSUE + 0x50) = true) ∧ (s.stream = State.stRunning ∨ s.stream = State.stWaiting)) ∧
    (∃ (s : State), (s.canonical = true) ∧ (s.answers .bridge (pgISSUE + 0x50) = true) ∧ (s.stream = State.stHalted) ∧ (s.fabricsHeld = true) ∧ (s.phase = 0)) ∧
    (∃ (s : State), (s.canonical = true) ∧ (s.streamActive = true)) ∧
    (∃ (s : State) (f : Fin 16), (s.canonical = true)) ∧
    (∃ (s : State), (s.canonical = true) ∧ (s.answers .bridge (pgISSUE + 0x70) = true) ∧ (s.stream = State.stRunning ∨ s.stream = State.stWaiting)) ∧
    (∃ (s : State), (s.canonical = true) ∧ (s.answers .bridge (pgISSUE + 0x70) = true) ∧ (s.stream = State.stHalted) ∧ (s.issue.wait = none) ∧ (s.phase = 0)) ∧
    (∃ (s : State) (w : WaitRec), (s.canonical = true) ∧ (s.answers .bridge (pgISSUE + 0x70) = true) ∧ (s.stream = State.stHalted) ∧ (s.issue.wait = some w) ∧ (s.phase = 0)) ∧
    (∃ (s : State), (s.canonical = true) ∧ (s.answers .bridge (pgISSUE + 0x70) = true) ∧ (s.stream = State.stHalted) ∧ (s.issue.wait = none) ∧ (s.phase = 0)) ∧
    (∃ (s : State) (g : Go), (s.canonical = true) ∧ (s.issue.stepping = true) ∧ (s.issue.gos = [g]) ∧ (g.due ≤ s.issue.period) ∧ (g.left = []) ∧ (decodeGlobal g.word = some ⟨none, .nop, .nop⟩) ∧ (s.stream = State.stRunning) ∧ (s.issue.stopReq = false) ∧ (s.issue.wait = none)) ∧
    (∃ (s : State) (r : ImageRec) (w : Word128), (s.canonical = true) ∧ (s.pageUp (pageAt pgISSUE) = true) ∧ (s.stream = State.stRunning) ∧ (s.issue.gos = []) ∧ (s.issue.ending = none) ∧ (s.issue.stopReq = false) ∧ (s.issue.haltReq = false) ∧ (s.issue.noGo = false) ∧ (s.issue.stepping = false) ∧ (s.issue.goFrom ≤ s.issue.period) ∧ (s.get Reg.ISSUE.BRK_CFG.IDX_EN = 0) ∧ (s.get Reg.ISSUE.BRK_CFG.CNT_EN = 0) ∧ (s.issue.run = some r) ∧ (lookup (16384 * s.issue.runStore + s.issue.next) s.issue.lanes = some w) ∧ (lookup (16384 * s.issue.runStore + s.issue.next) s.issue.flips = none) ∧ (decodeGlobal w = some ⟨none, .nop, .nop⟩) ∧ (decodeCtl w = some .none) ∧ (s.phase = 0) ∧ (s.fabricsHeld = true)) ∧
    (∃ (s : State) (n : TileId) (g : Go) (w : Word128), (s.canonical = true) ∧ (s.issue.gos = [g]) ∧ (g.due ≤ s.issue.period) ∧ (g.left.contains n.val = true) ∧ (s.domOn n.val = true) ∧ (lookup g.index (s.tile n.val).lanes = some w) ∧ (lookup g.index (s.tile n.val).laneFlips = none) ∧ (decodeCtl w = some .none) ∧ (decodeLane n w = some []) ∧ ((s.get (Reg.LANE.LANE_CNT.CNT n.val) + 1) % 2 ^ 64 % 64 = g.chk)) ∧
    (∃ (s : State) (n : TileId) (k : Nat) (op : Tracked) (p r : Nat) (v : Word64), (s.canonical = true) ∧ ((s.tile n.val).tracked[k]? = some op) ∧ (op.ready = some p) ∧ (p ≤ s.issue.period) ∧ (op.status = 0) ∧ (op.res = [.sreg r v]) ∧ (r ≠ 0) ∧ (r < 32) ∧ ((s.tile n.val).landed.all (fun c => decide (c.2 ≤ op.since)) = true)) ∧
    (∃ (s : State) (n : TileId) (k : Nat) (op : Tracked) (p r d : Nat) (v : Word64), (s.canonical = true) ∧ ((s.tile n.val).tracked[k]? = some op) ∧ (op.ready = some p) ∧ (p ≤ s.issue.period) ∧ (op.status = 0) ∧ (op.res = [.sreg r v]) ∧ ((s.tile n.val).landed = [(r, d)]) ∧ (op.since < d)) ∧
    (∃ (s : State) (n : TileId) (k : Nat) (op : Tracked) (p : Nat), (s.canonical = true) ∧ ((s.tile n.val).tracked[k]? = some op) ∧ (op.ready = some p) ∧ (p ≤ s.issue.period) ∧ (op.status ≠ 0) ∧ (op.status < 16) ∧ (op.res = []) ∧ (s.get (Reg.LANE.LANE_FAULT.CAUSE n.val) = 0) ∧ (s.get (Reg.LANE.LANE_FAULT.STATUS n.val) = 0)) :=
  ⟨⟨{ (upState.put Reg.ISSUE.IMG_ADDR.ADDR 0x1000) with mem := [(4096, 0x59), (4097, 0x4E), (4098, 0x4B), (4099, 0x53), (4101, 0x1), (4105, 0x1), (4106, 0x2), (4108, 0x1), (4112, 0x8), (4144, 0xA0), (4152, 0x44), (4153, 0x3B), (4154, 0x95), (4155, 0xE9), (4156, 0x3B), (4157, 0xCC), (4158, 0x5), (4159, 0x36), (4160, 0x8), (4193, 0x80), (4196, 0x1), (4200, 0x80), (4204, 0xEA), (4205, 0x9A), (4206, 0x70), (4207, 0x42), (4209, 0x1), (4212, 0x1), (4216, 0x90), (4220, 0xEA), (4221, 0x9A), (4222, 0x70), (4223, 0x42)] }, ⟨8, 0, 1, 0, 0, false, 16⟩, [(8, 0, 1, 128, 1114675946), (2 ^ 256, 0, 1, 144, 1114675946)], by decide⟩,
    ⟨upState.put Reg.ISSUE.IMG_ADDR.ADDR 0x1020, by decide⟩,
    ⟨{ upState with mem := [(4096, 0x59), (4097, 0x4E), (4098, 0x4B), (4099, 0x53), (4101, 0x1), (4105, 0x1), (4106, 0x2), (4108, 0x1), (4112, 0x8), (4144, 0xA0), (4152, 0x44), (4153, 0x3B), (4154, 0x95), (4155, 0xE9), (4156, 0x3B), (4157, 0xCC), (4158, 0x5), (4159, 0x36), (4160, 0x8), (4193, 0x80), (4196, 0x1), (4200, 0x80), (4204, 0xEA), (4205, 0x9A), (4206, 0x70), (4207, 0x42), (4209, 0x1), (4212, 0x1), (4216, 0x90), (4220, 0xEA), (4221, 0x9A), (4222, 0x70), (4223, 0x42)], issue := { State.reset.issue with job := some ⟨0x1000, ⟨8, 0, 1, 0, 0, false, 16⟩, [(8, 0, 1, 128, 1114675946), (2 ^ 256, 0, 1, 144, 1114675946)], 8 + 2 ^ 256⟩ } }, ⟨0x1000, ⟨8, 0, 1, 0, 0, false, 16⟩, [(8, 0, 1, 128, 1114675946), (2 ^ 256, 0, 1, 144, 1114675946)], 8 + 2 ^ 256⟩, by decide⟩,
    ⟨{ upState with issue := { State.reset.issue with job := some ⟨0x1000, ⟨8, 0, 1, 0, 0, false, 16⟩, [], 8⟩ } }, ⟨0x1000, ⟨8, 0, 1, 0, 0, false, 16⟩, [], 8⟩, by decide⟩,
    ⟨{ ((upState.setStream 2).put (Reg.HDR.BLK_CTRL.EN pgISSUE) 1) with issue := { State.reset.issue with loaded := some ⟨8, 0, 1, 0, 0, false, 16⟩ } }, ⟨8, 0, 1, 0, 0, false, 16⟩, by decide⟩,
    ⟨(upState.setStream 2), rcDep, by decide⟩,
    ⟨upState.setStream 3, by decide⟩,
    ⟨upState.setStream 5, by decide⟩,
    ⟨upState.setStream 3, by decide⟩,
    ⟨upState.put Reg.SNET.FLAGS.FLAG 4, 2, by decide⟩,
    ⟨upState.setStream 4, by decide⟩,
    ⟨upState.setStream 5, by decide⟩,
    ⟨{ (upState.setStream 5) with issue := { State.reset.issue with wait := some ⟨3, 6, 1, true, 7⟩ } }, ⟨3, 6, 1, true, 7⟩, by decide⟩,
    ⟨upState.setStream 5, by decide⟩,
    ⟨{ (upState.setStream 3) with issue := { State.reset.issue with stepping := true, period := 12, gos := [⟨12, 3, false, 1, 0, []⟩] } }, ⟨12, 3, false, 1, 0, []⟩, by decide⟩,
    ⟨{ (upState.setStream 3) with issue := { State.reset.issue with period := 5, goFrom := 5, next := 7, run := some ⟨8, 0, 9, 0, 0, false, 16⟩, lanes := [(7, 0)] } }, ⟨8, 0, 9, 0, 0, false, 16⟩, 0, by decide⟩,
    ⟨{ upState with issue := { State.reset.issue with period := 12, gos := [⟨12, 3, false, 1, 0, [0, 3]⟩] }, tiles := [(3, { Tile.reset with lanes := [(3, 0)] })] }, 3, ⟨12, 3, false, 1, 0, [0, 3]⟩, 0, by decide⟩,
    ⟨{ upState with issue := { State.reset.issue with period := 9 }, tiles := [(3, { Tile.reset with sregs := [(4, 1), (5, 6)], tracked := [⟨false, some 5, 2, 1, some 9, 0, 0, [.sreg 5 0], none⟩] })] }, 3, 0, ⟨false, some 5, 2, 1, some 9, 0, 0, [.sreg 5 0], none⟩, 9, 5, 0, by decide⟩,
    ⟨{ upState with issue := { State.reset.issue with period := 9 }, tiles := [(3, { Tile.reset with landed := [(5, 4)], sregs := [(4, 1), (5, 6)], tracked := [⟨false, some 5, 2, 1, some 9, 0, 0, [.sreg 5 0], none⟩] })] }, 3, 0, ⟨false, some 5, 2, 1, some 9, 0, 0, [.sreg 5 0], none⟩, 9, 5, 4, 0, by decide⟩,
    ⟨{ upState with issue := { State.reset.issue with period := 9 }, tiles := [(3, { Tile.reset with tracked := [⟨false, some 5, 2, 1, some 9, 0, 2, [], none⟩] })] }, 3, 0, ⟨false, some 5, 2, 1, some 9, 0, 2, [], none⟩, 9, by decide⟩⟩

theorem witness_LoopsAndWaitsComplete :
    (∃ (s : State) (lvl : Fin 4) (count : BitVec 12), (s.canonical = true) ∧ (s.issue.loops.length = lvl.val) ∧ (s.issue.loops.all (fun e => !e.again) = true)) ∧
    (∃ (s : State) (n : TileId) (lvl : Fin 4) (count : BitVec 12), (s.canonical = true) ∧ (s.domOn n.val = true) ∧ (s.issue.gos = []) ∧ ((s.tile n.val).loops.length = lvl.val) ∧ ((s.tile n.val).loops.all (fun e => !e.again) = true)) ∧
    (∃ (s : State) (lvl : Fin 4) (e : LoopEntry) (tl : List LoopEntry), (s.canonical = true) ∧ (s.issue.loops = e :: tl) ∧ (lvl.val + 1 = s.issue.loops.length) ∧ (e.flag = false) ∧ (e.remaining ≤ 1)) ∧
    (∃ (s : State) (lvl : Fin 4) (e : LoopEntry) (tl : List LoopEntry), (s.canonical = true) ∧ (s.issue.loops = e :: tl) ∧ (lvl.val + 1 = s.issue.loops.length) ∧ (e.flag = false) ∧ (1 < e.remaining)) ∧
    (∃ (s : State) (lvl : Fin 4) (count : BitVec 12), (s.canonical = true) ∧ (s.issue.loops.length = lvl.val) ∧ (s.issue.loops.all (fun e => !e.again) = true) ∧ (1 < count.toNat)) ∧
    (∃ (s : State) (lvl : Fin 4), (s.canonical = true) ∧ (s.issue.loops.length = lvl.val) ∧ (s.issue.loops.all (fun e => !e.again) = true)) ∧
    (∃ (s : State) (g : Fin 64), (s.canonical = true) ∧ (s.stream = State.stRunning) ∧ (s.issue.stepping = false) ∧ (s.issue.ending = none)) ∧
    (∃ (s : State) (m : Fin 32), (s.canonical = true) ∧ (s.stream = State.stRunning) ∧ (s.issue.stepping = false) ∧ (s.issue.ending = none)) ∧
    (∃ (s : State), (s.canonical = true) ∧ (s.stream = State.stRunning) ∧ (s.issue.stepping = false) ∧ (s.issue.ending = none)) ∧
    (∃ (s : State), (s.canonical = true) ∧ (s.stream = State.stRunning) ∧ (s.issue.stepping = false) ∧ (s.issue.ending = none)) ∧
    (∃ (s : State) (bit : Fin 32), (s.canonical = true) ∧ (s.stream = State.stRunning) ∧ (s.issue.stepping = false) ∧ (s.issue.ending = none)) ∧
    (∃ (s : State) (f : Fin 16), (s.canonical = true) ∧ (s.stream = State.stRunning) ∧ (s.issue.stepping = false) ∧ (s.issue.ending = none)) ∧
    (∃ (s : State) (f : Fin 16), (s.canonical = true) ∧ (s.stream = State.stRunning) ∧ (s.issue.stepping = false) ∧ (s.issue.ending = none)) ∧
    (∃ (s : State), (s.canonical = true) ∧ (s.stream = State.stRunning) ∧ (s.issue.stepping = false) ∧ (s.issue.ending = none)) ∧
    (∃ (s : State) (cyc : BitVec 24), (s.canonical = true) ∧ (s.stream = State.stRunning) ∧ (s.issue.stepping = false) ∧ (s.issue.ending = none)) ∧
    (∃ (s : State) (w : WaitRec), (s.canonical = true) ∧ (s.stream = State.stWaiting) ∧ (s.issue.wait = some w) ∧ (s.issue.ending = none) ∧ (s.issue.stopReq = false) ∧ (s.issue.haltReq = false) ∧ (w.cond = 6) ∧ ((s.get Reg.SNET.FLAGS.FLAG).testBit (w.arg % 16) = true)) ∧
    (∃ (s : State) (w : WaitRec), (s.canonical = true) ∧ (s.stream = State.stWaiting) ∧ (s.issue.wait = some w) ∧ (s.issue.ending = none) ∧ (s.issue.stopReq = false) ∧ (s.issue.haltReq = false) ∧ (w.cond = 5) ∧ ((s.get Reg.ISSUE.DBELL.BELL).testBit (w.arg % 32) = true)) ∧
    (∃ (s : State) (w : WaitRec), (s.canonical = true) ∧ (s.stream = State.stWaiting) ∧ (s.issue.wait = some w) ∧ (s.issue.ending = none) ∧ (s.issue.stopReq = false) ∧ (s.issue.haltReq = false) ∧ (w.cond = 6) ∧ ((s.get Reg.SNET.FLAGS.FLAG).testBit (w.arg % 16) = false) ∧ (s.get Reg.ISSUE.WAIT_TMO.CYC ≠ 0) ∧ (s.get Reg.ISSUE.WAIT_TMO.CYC ≤ (w.tested + 1) * s.cyclesPerLaunch 0)) :=
  ⟨⟨upState, 0, 5, by decide⟩,
    ⟨upState, 3, 0, 5, by decide⟩,
    ⟨{ upState with issue := { State.reset.issue with next := 9, loops := [⟨2, 1, false, false⟩] } }, 0, ⟨2, 1, false, false⟩, [], by decide⟩,
    ⟨{ upState with issue := { State.reset.issue with next := 9, loops := [⟨2, 7, false, false⟩] } }, 0, ⟨2, 7, false, false⟩, [], by decide⟩,
    ⟨{ upState with issue := { State.reset.issue with next := 9 } }, 0, 3, by decide⟩,
    ⟨{ upState with issue := { State.reset.issue with next := 9 } }, 0, by decide⟩,
    ⟨upState.setStream 3, 5, by decide⟩,
    ⟨upState.setStream 3, 5, by decide⟩,
    ⟨upState.setStream 3, by decide⟩,
    ⟨upState.setStream 3, by decide⟩,
    ⟨upState.setStream 3, 31, by decide⟩,
    ⟨upState.setStream 3, 15, by decide⟩,
    ⟨upState.setStream 3, 0, by decide⟩,
    ⟨upState.setStream 3, by decide⟩,
    ⟨upState.setStream 3, 1000, by decide⟩,
    ⟨{ ((upState.setStream 4).put Reg.SNET.FLAGS.FLAG 2) with issue := { State.reset.issue with wait := some ⟨3, 6, 1, true, 7⟩, noGo := true } }, ⟨3, 6, 1, true, 7⟩, by decide⟩,
    ⟨{ ((upState.setStream 4).put Reg.ISSUE.DBELL.BELL 0x80000001) with issue := { State.reset.issue with wait := some ⟨3, 5, 31, true, 7⟩, noGo := true } }, ⟨3, 5, 31, true, 7⟩, by decide⟩,
    ⟨{ ((upState.setStream 4).put Reg.ISSUE.WAIT_TMO.CYC 8) with issue := { State.reset.issue with wait := some ⟨3, 6, 1, true, 7⟩, noGo := true } }, ⟨3, 6, 1, true, 7⟩, by decide⟩⟩

theorem witness_FlagsAndBarriersComplete :
    (∃ (s : State) (bit : Fin 32), (s.canonical = true)) ∧
    (∃ (s : State) (f : Fin 16), (s.canonical = true)) ∧
    (∃ (s : State) (f : Fin 16), (s.canonical = true) ∧ (s.issue.flagsSet.all (fun x => x.1 != f.val || x.2 == 256) = true)) ∧
    (∃ (s : State) (f : Fin 16), (s.issue.flagsSet.any (fun x => x.1 == f.val && x.2 != 256) = true)) ∧
    (∃ (s : State) (src : Source) (v : BitVec 16), (s.canonical = true) ∧ ((src == .host && s.hostWaits) = false) ∧ (s.answers src (fabPg 2 + 0x40) = true)) ∧
    (∃ (s : State) (src : Source) (g : Fin 64) (w : Fin 8) (v : Word32), (s.canonical = true) ∧ ((src == .host && s.hostWaits) = false) ∧ (s.answers src (fabPg 3 + 0x100 + 0x20 * g.val + 4 * w.val) = true)) ∧
    (∃ (s : State) (g : Fin 64), (s.canonical = true) ∧ (s.get Reg.SNET.BAR_TMO.CYC ≠ 0) ∧ (s.arrived g.val ≠ 0) ∧ (s.barFull g.val = false) ∧ (s.barTmo g.val = false) ∧ (risingFrom 0 s.bar = true)) :=
  ⟨⟨upState.put Reg.ISSUE.DBELL.BELL 7, 1, by decide⟩,
    ⟨upState.put Reg.SNET.FLAGS.FLAG 5, 1, by decide⟩,
    ⟨upState.put Reg.SNET.FLAGS.FLAG 7, 1, by decide⟩,
    ⟨{ upState with issue := { State.reset.issue with flagsSet := [(1, 3)] } }, 1, by decide⟩,
    ⟨upState, .host, 0x1234, by decide⟩,
    ⟨upState, .host, 63, 7, 0x12345678, by decide⟩,
    ⟨{ ((upState.put Reg.SNET.BAR_TMO.CYC 9).put (Reg.SNETM.BAR_MASK.TILES 4 0) 3) with bar := [(4, 1), (9, 2)] }, 4, by decide⟩⟩

theorem witness_StepsStart :
    (∃ (s : State), (s.canonical = true) ∧ (s.answers .bridge (pgSTEP + 0x50) = true) ∧ (s.isEnabled pgSTEP = true) ∧ (s.stepActive = false) ∧ (s.step.pend = none) ∧ (s.get Reg.STEP.STEP_CFG.PACED = 0) ∧ (s.stepReady = true) ∧ (s.tokensOk = true)) ∧
    (∃ (s : State), (s.canonical = true) ∧ (s.answers .bridge (pgSTEP + 0x50) = true) ∧ (s.isEnabled pgSTEP = true) ∧ (s.stepActive = false) ∧ (s.step.pend = none) ∧ (s.get Reg.STEP.STEP_CFG.PACED = 0) ∧ (s.stepReady = true) ∧ (s.tokensOk = true)) ∧
    (∃ (s : State), (s.canonical = true) ∧ (s.answers .bridge (pgSTEP + 0x50) = true) ∧ (s.isEnabled pgSTEP = true) ∧ (s.stepActive = false) ∧ (s.step.pend = none) ∧ (s.get Reg.STEP.STEP_CFG.PACED ≠ 0) ∧ (s.step.bound = some false)) ∧
    (∃ (s : State), (s.canonical = true) ∧ (s.answers .bridge (pgSTEP + 0x50) = true) ∧ (s.isEnabled pgSTEP = true) ∧ (s.step.pend.isSome = true)) ∧
    (∃ (s : State), (s.canonical = true) ∧ (s.answers .bridge (pgSTEP + 0x50) = true) ∧ (s.isEnabled pgSTEP = true) ∧ (s.stepActive = false) ∧ (s.step.pend = none) ∧ (s.get Reg.STEP.STEP_CFG.PACED = 0) ∧ (s.stepReady = false)) ∧
    (∃ (s : State), (s.canonical = true) ∧ (s.answers .bridge (pgSTEP + 0x50) = true) ∧ (s.isEnabled pgSTEP = true) ∧ (s.stepActive = false) ∧ (s.step.pend = none) ∧ (s.get Reg.STEP.STEP_STAT.RUN = 0) ∧ (s.get Reg.STEP.STEP_CFG.PACED = 0) ∧ (s.get Reg.STEP.STEP_CFG.LEARN_EVERY = 0) ∧ (s.stepReady = true) ∧ (s.tokensOk = true)) ∧
    (∃ (s : State), (s.canonical = true) ∧ (s.answers .bridge (pgSTEP + 0x50) = true)) ∧
    (∃ (s : State), (s.canonical = true) ∧ (s.step.bound = some false) ∧ (s.stream ≠ State.stHalted) ∧ (s.stepActive = true)) ∧
    (∃ (s : State), (s.canonical = true) ∧ (s.step.bound = some false) ∧ (s.stream ≠ State.stHalted) ∧ (s.isEnabled pgSTEP = true) ∧ (s.stepActive = false) ∧ (s.step.pend = some true) ∧ (s.step.late = false) ∧ (s.step.tokenWait = false) ∧ (s.stepReady = true) ∧ (s.tokensOk = true)) :=
  ⟨⟨((([Reg.HDR.BLK_STAT.READY (tilePg 3 7), Reg.HDR.BLK_CTRL.EN (tilePg 3 7), Reg.HDR.BLK_STAT.READY (tilePg 3 8), Reg.HDR.BLK_CTRL.EN (tilePg 3 8), Reg.HDR.BLK_STAT.READY (tilePg 3 11), Reg.HDR.BLK_CTRL.EN (tilePg 3 11), Reg.HDR.BLK_CTRL.EN pgSTEP].foldl (fun (s : State) f => s.put f 1) upState).put (Reg.STEP.TILE_MASK.TILES 0) 8)), by decide⟩,
    ⟨((([Reg.HDR.BLK_STAT.READY (tilePg 3 7), Reg.HDR.BLK_CTRL.EN (tilePg 3 7), Reg.HDR.BLK_STAT.READY (tilePg 3 8), Reg.HDR.BLK_CTRL.EN (tilePg 3 8), Reg.HDR.BLK_STAT.READY (tilePg 3 11), Reg.HDR.BLK_CTRL.EN (tilePg 3 11), Reg.HDR.BLK_CTRL.EN pgSTEP].foldl (fun (s : State) f => s.put f 1) upState).put (Reg.STEP.TILE_MASK.TILES 0) 8)), by decide⟩,
    ⟨{ (upState.put (Reg.HDR.BLK_CTRL.EN pgSTEP) 1).put Reg.STEP.STEP_CFG.PACED 1 with step := { StepS.reset with bound := some false } }, by decide⟩,
    ⟨{ upState.put (Reg.HDR.BLK_CTRL.EN pgSTEP) 1 with step := { StepS.reset with pend := some true } }, by decide⟩,
    ⟨(upState.put (Reg.HDR.BLK_CTRL.EN pgSTEP) 1).put (Reg.STEP.TILE_MASK.TILES 0) 8, by decide⟩,
    ⟨((([Reg.HDR.BLK_STAT.READY (tilePg 3 7), Reg.HDR.BLK_CTRL.EN (tilePg 3 7), Reg.HDR.BLK_STAT.READY (tilePg 3 8), Reg.HDR.BLK_CTRL.EN (tilePg 3 8), Reg.HDR.BLK_STAT.READY (tilePg 3 11), Reg.HDR.BLK_CTRL.EN (tilePg 3 11), Reg.HDR.BLK_CTRL.EN pgSTEP].foldl (fun (s : State) f => s.put f 1) upState).put (Reg.STEP.TILE_MASK.TILES 0) 8)), by decide⟩,
    ⟨upState.put Reg.STEP.STEP_STAT.RUN 1, by decide⟩,
    ⟨{ upState.put Reg.STEP.STEP_STAT.PHASE 2 with step := { StepS.reset with bound := some false } }, by decide⟩,
    ⟨{ (((([Reg.HDR.BLK_STAT.READY (tilePg 3 7), Reg.HDR.BLK_CTRL.EN (tilePg 3 7), Reg.HDR.BLK_STAT.READY (tilePg 3 8), Reg.HDR.BLK_CTRL.EN (tilePg 3 8), Reg.HDR.BLK_STAT.READY (tilePg 3 11), Reg.HDR.BLK_CTRL.EN (tilePg 3 11), Reg.HDR.BLK_CTRL.EN pgSTEP].foldl (fun (s : State) f => s.put f 1) upState).put (Reg.STEP.TILE_MASK.TILES 0) 8)).put Reg.STEP.STEP_CFG.PACED 1) with step := { StepS.reset with bound := some false, pend := some true } }, by decide⟩⟩

theorem witness_StepPhasesComplete :
    (∃ (s : State) (n : TileId), (s.canonical = true) ∧ (s.step.wait.contains n.val = true) ∧ (s.phase = 1)) ∧
    (∃ (s : State) (n : TileId), (s.canonical = true) ∧ (s.step.wait.contains n.val = true) ∧ (s.phase = 3) ∧ (s.barDone s.step.bgrp = false)) ∧
    (∃ (s : State) (n : TileId) (g : Fin 16) (dest : Nat) (data : List Byte) (tl : List (Nat × Nat × List Byte)), (s.canonical = true) ∧ ((s.evt n.val).copies = (g.val, dest, data) :: tl) ∧ (tl ≠ [] ∨ (s.evt n.val).phase ≠ 5)) ∧
    (∃ (s : State), (s.canonical = true) ∧ (s.drained = true) ∧ (s.phase = 1) ∧ (s.injDone = true)) ∧
    (∃ (s : State), (s.canonical = true) ∧ (s.drained = true) ∧ (s.phase = 2)) ∧
    (∃ (s : State) (n : TileId) (base cap : Nat), (s.canonical = true) ∧ ((s.evt n.val).sweep = some (base, cap)) ∧ ((s.evt n.val).phase = 3) ∧ (s.step.bgrp < 64) ∧ (s.barTmo s.step.bgrp = false) ∧ ((s.barMask s.step.bgrp).testBit n.val = true) ∧ ((s.arrived s.step.bgrp).testBit n.val = false)) ∧
    (∃ (s : State) (g : Fin 64), (s.canonical = true) ∧ (s.barFull g.val = true) ∧ (s.step.bgrp ≠ g.val) ∧ (risingFrom 0 s.bar = true)) ∧
    (∃ (s : State) (g : Fin 64), (s.canonical = true) ∧ (s.barFull g.val = true) ∧ (s.step.bgrp = g.val) ∧ (s.phase = 5) ∧ (s.step.wait = []) ∧ (s.stream ≠ State.stHalted) ∧ (s.step.pend = none) ∧ (s.get Reg.STEP.STEP_STAT.RUN = 0) ∧ (s.get Reg.SCALE.CFG.ON_STEP = 0)) :=
  ⟨⟨{ upState.put Reg.STEP.STEP_STAT.PHASE 1 with step := { StepS.reset with mask := 8, wait := [3, 5] } }, 3, by decide⟩,
    ⟨{ upState.put Reg.STEP.STEP_STAT.PHASE 3 with step := { StepS.reset with mask := 8, wait := [3, 5] } }, 3, by decide⟩,
    ⟨upState.modTile 3 (fun x => { x with evt := { x.evt with copies := [(2, 64, [1, 2])] } }), 3, 2, 64, [1, 2], [], by decide⟩,
    ⟨{ upState.put Reg.STEP.STEP_STAT.PHASE 1 with step := { StepS.reset with mask := 8 } }, by decide⟩,
    ⟨{ upState.put Reg.STEP.STEP_STAT.PHASE 2 with step := { StepS.reset with mask := 8 } }, by decide⟩,
    ⟨(upState.put (Reg.SNETM.BAR_MASK.TILES 0 0) 8).modTile 3 (fun x => { x with evt := { x.evt with sweep := some (64, 4), phase := 3 } }), 3, 64, 4, by decide⟩,
    ⟨{ (upState.put (Reg.SNETM.BAR_MASK.TILES 4 0) 3) with bar := [(4, 3), (9, 2)] }, 4, by decide⟩,
    ⟨{ ((upState.put (Reg.SNETM.BAR_MASK.TILES 4 0) 8).put Reg.STEP.STEP_STAT.PHASE 5) with bar := [(4, 8)], step := { StepS.reset with mask := 8, bgrp := 4 } }, 4, by decide⟩⟩

theorem witness_LateStepsAndInjection :
    (∃ (s : State), (s.canonical = true) ∧ (s.phase = 1 ∨ s.phase = 2) ∧ (s.get Reg.STEP.DUE.NS ≠ 0) ∧ (s.get Reg.STEP.STEP_STAT.STRETCH = 0)) ∧
    (∃ (s : State), (s.canonical = true) ∧ (s.get Reg.STEP.STEP_STAT.STRETCH ≠ 0) ∧ (s.get Reg.STEP.STEP_STAT.HOLD = 0) ∧ (s.step.ended = false) ∧ (s.phase = 2) ∧ (s.step.wait = []) ∧ (s.hostMode pgSTEP = false)) ∧
    (∃ (s : State), (s.canonical = true) ∧ (s.get Reg.STEP.STEP_STAT.STRETCH ≠ 0) ∧ (s.get Reg.STEP.STEP_STAT.HOLD = 0) ∧ (s.step.ended = false) ∧ (s.phase = 1 ∨ s.phase = 2) ∧ (s.hostMode pgSTEP = true)) ∧
    (∃ (s : State) (src : Source), (s.canonical = true) ∧ ((src == .host && s.hostWaits) = false) ∧ (s.answers src (pgSTEP + 0x50) = true) ∧ (s.get Reg.STEP.STEP_STAT.HOLD ≠ 0) ∧ (s.phase = 2) ∧ (s.step.wait = [])) ∧
    (∃ (s : State) (src : Source), (s.canonical = true) ∧ ((src == .host && s.hostWaits) = false) ∧ (s.answers src (pgSTEP + 0x50) = true) ∧ (s.get Reg.STEP.STEP_STAT.HOLD ≠ 0)) ∧
    (∃ (s : State) (b : Block') (e : Word64), (s.canonical = true) ∧ (s.phase = 1) ∧ (s.pageUp (pageAt pgSTEP) = true) ∧ (s.injEmpty = false) ∧ (s.injDesc.1 = some b) ∧ (s.get (Reg.STEP.IGRP_W0.ENC b.group) = 0) ∧ (b.count = 1) ∧ (b.fence = false) ∧ ((injPayload s b).1 = stOK) ∧ (e = BitVec.ofNat 64 (ofBytes (injPayload s b).2.1)) ∧ (bits e.toNat 63 52 = s.modId) ∧ (bits e.toNat 13 8 = 0) ∧ (e.toNat.testBit 3 = false) ∧ ((s.lane epISSUE (epTile (bits e.toNat 51 44))).count < 32767)) ∧
    (∃ (s : State) (b : Block') (tl row : Nat), (s.canonical = true) ∧ (s.phase = 1) ∧ (s.pageUp (pageAt pgSTEP) = true) ∧ (s.injEmpty = false) ∧ (s.injDesc.1 = some b) ∧ (s.get (Reg.STEP.IGRP_W0.ENC b.group) = 1) ∧ (s.get (Reg.STEP.IGRP_W0.NCHAN b.group) = 1) ∧ (b.count = 1) ∧ (b.fence = false) ∧ ((injPayload s b).1 = stOK) ∧ (((injPayload s b).2.2.mapEntries b.group).1 = [.ok tl row]) ∧ (tl < 256) ∧ ((s.lane epISSUE (epTile tl)).count ≤ 24000)) ∧
    (∃ (s : State) (b : Block') (tl row l' : Nat) (ev : Word64), (s.canonical = true) ∧ (s.phase = 1) ∧ (s.pageUp (pageAt pgSTEP) = true) ∧ (s.injEmpty = false) ∧ (s.injDesc.1 = some b) ∧ (s.get (Reg.STEP.IGRP_W0.ENC b.group) = 2) ∧ (s.get (Reg.STEP.IGRP_W0.NCHAN b.group) = 1) ∧ (b.count = 1) ∧ (b.first = 0) ∧ (b.fence = false) ∧ ((injPayload s b).1 = stOK) ∧ (((injPayload s b).2.2.mapEntries b.group).1 = [.ok tl row]) ∧ (tl < 256) ∧ ((((injPayload s b).2.2.mapEntries b.group).2.readAny epISSUE (s.mapAddr b.group + 8) 4).1 = stOK) ∧ (s.deltaOf (s.get (Reg.STEP.IGRP_W3.THR b.group)) (ofBytes (injPayload s b).2.1) (ofBytes (((injPayload s b).2.2.mapEntries b.group).2.readAny epISSUE (s.mapAddr b.group + 8) 4).2.1) tl row 0 = some (ev, l')) ∧ ((s.lane epISSUE (epTile tl)).count < 32767)) :=
  ⟨⟨(upState.put Reg.STEP.STEP_STAT.PHASE 2).put Reg.STEP.DUE.NS 50, by decide⟩,
    ⟨{ (upState.put Reg.STEP.STEP_STAT.PHASE 2).put Reg.STEP.STEP_STAT.STRETCH 1 with step := { StepS.reset with mask := 8 } }, by decide⟩,
    ⟨((upState.put Reg.STEP.STEP_STAT.PHASE 2).put Reg.STEP.STEP_STAT.STRETCH 1).put (Reg.HDR.BLK_CTRL.MODE pgSTEP) 1, by decide⟩,
    ⟨((upState.put Reg.STEP.STEP_STAT.PHASE 2).put Reg.STEP.STEP_STAT.STRETCH 1).put Reg.STEP.STEP_STAT.HOLD 1, .host, by decide⟩,
    ⟨((upState.put Reg.STEP.STEP_STAT.PHASE 2).put Reg.STEP.STEP_STAT.STRETCH 1).put Reg.STEP.STEP_STAT.HOLD 1, .host, by decide⟩,
    ⟨{ (((upState.put Reg.STEP.STEP_STAT.PHASE 1).put Reg.STEP.INJ_RING.ADDR 0x40000000).put Reg.STEP.INJ_HEAD.IDX 1).put Reg.STEP.INJ_SIZE.LOG2 6 with mem := [(1073741825, 16), (1073741827, 64), (1073741834, 1), (1073745920, 128), (1073745921, 128), (1073745923, 144), (1073745925, 48)] }, ⟨0, 1, 0, false, 0x40001000⟩, 0x300090008080, by decide⟩,
    ⟨{ ((((upState.put Reg.STEP.STEP_STAT.PHASE 1).put Reg.STEP.INJ_RING.ADDR 0x40000000).put Reg.STEP.INJ_HEAD.IDX 1).put (Reg.STEP.IGRP_W0.ENC 0) 1).put (Reg.STEP.IGRP_W0.NCHAN 0) 1 |>.put (Reg.STEP.IGRP_W2.MAP_HI 0) 0 |>.put (Reg.STEP.IGRP_W1.MAP_LO 0) 0x40002000 with mem := [(1073741825, 16), (1073741827, 64), (1073741834, 1), (1073741836, 5), (1073745920, 19), (1073750018, 8), (1073750019, 144), (1073750021, 48)] }, ⟨0, 1, 5, false, 0x40001000⟩, 3, 9, by decide⟩,
    ⟨{ ((((upState.put Reg.STEP.STEP_STAT.PHASE 1).put Reg.STEP.INJ_RING.ADDR 0x40000000).put Reg.STEP.INJ_HEAD.IDX 1).put (Reg.STEP.IGRP_W0.ENC 0) 2).put (Reg.STEP.IGRP_W0.NCHAN 0) 1 |>.put (Reg.STEP.IGRP_W3.THR 0) 0x3F800000 |>.put (Reg.STEP.IGRP_W1.MAP_LO 0) 0x40002000 with mem := [(1073741825, 16), (1073741827, 64), (1073741834, 1), (1073745922, 32), (1073745923, 64), (1073750018, 8), (1073750019, 144), (1073750021, 48)] }, ⟨0, 1, 0, false, 0x40001000⟩, 3, 9, 0x40000000, 0x300090000020, by decide⟩⟩

theorem witness_EventsAndNeuronsComplete :
    (∃ (s : State) (n : TileId), (s.canonical = true) ∧ (s.domOn n.val = true)) ∧
    (∃ (s : State) (n : TileId), (s.canonical = true) ∧ (s.domOn n.val = true) ∧ (s.get (Reg.EVENT.EVT_STAT.STATE n.val) = 1)) ∧
    (∃ (s : State) (n : TileId), (s.canonical = true) ∧ (s.domOn n.val = true)) ∧
    (∃ (s : State) (n : TileId), (s.canonical = true) ∧ (s.get (Reg.EVENT.EVT_STAT.STATE n.val) = 2) ∧ ((s.evt n.val).fifo = [])) ∧
    (∃ (s : State) (n : TileId) (waited : Nat) (h : Word64) (tl : List Word64), (s.canonical = true) ∧ ((s.evt n.val).fifo = h :: tl) ∧ (s.domOn n.val = true) ∧ (s.get (Reg.EVENT.EVT_STAT.STATE n.val) ≠ 0) ∧ (s.isEnabled (State.pgEVENT n.val) = true) ∧ (evLate h = true) ∧ (s.get (Reg.EVENT.EVT_CFG.DROP_POL n.val) ≠ 0)) ∧
    (∃ (s : State) (n : TileId) (waited : Nat) (h : Word64) (tl : List Word64), (s.canonical = true) ∧ ((s.evt n.val).fifo = h :: tl) ∧ (s.domOn n.val = true) ∧ (s.get (Reg.EVENT.EVT_STAT.STATE n.val) ≠ 0) ∧ (s.isEnabled (State.pgEVENT n.val) = true) ∧ (evLate h = false) ∧ (s.accumulates n.val = true) ∧ ((s.hdrOfs n.val (evRow h)).isSome = true) ∧ (s.hdrOfs n.val (evRow h) = (s.evt n.val).hlock) ∧ ((s.evt n.val).waiting = false)) ∧
    (∃ (s : State) (n : TileId) (waited o : Nat) (h : Word64) (r : Row) (c : Byte), (s.canonical = true) ∧ ((s.evt n.val).fifo = [h]) ∧ (s.domOn n.val = true) ∧ (s.get (Reg.EVENT.EVT_STAT.STATE n.val) ≠ 0) ∧ (s.isEnabled (State.pgEVENT n.val) = true) ∧ (evLate h = false) ∧ (s.accumulates n.val = true) ∧ ((s.hdrOfs n.val (evRow h)) ≠ (s.evt n.val).hlock) ∧ ((s.rowAt uEVENT n.val (evRow h)).1 = .row r) ∧ (r.len = 1) ∧ (r.width = 8) ∧ (r.sparse = false) ∧ (r.block = false) ∧ ((s.evt n.val).waiting = false) ∧ (r.tbase < s.neurons n.val) ∧ (s.recordOfs n.val r.tbase (evWorld h) = some o) ∧ (s.flips = []) ∧ (s.undef = []) ∧ (s.bankOn n.val ((64 * (r.first / 64)) / 0x30000) = true) ∧ (s.bankOn n.val (o / 0x30000) = true) ∧ (r.first < 0x300000) ∧ (c = s.byte (State.own n.val r.first))) ∧
    (∃ (s : State) (n : TileId) (h : Word64) (q : List Word64), (s.canonical = true) ∧ ((s.evt n.val).fifo = h :: q) ∧ (s.hostLocked n.val (s.hdrOfs n.val (evRow h)) = true) ∧ ((s.evt n.val).waiting = true) ∧ (s.get (Reg.SYNAPSE.LOCK_TMO.CYC n.val) ≠ 0)) ∧
    (∃ (s : State) (n : TileId), (s.canonical = true) ∧ (s.hostWaits = false) ∧ (s.answers .host (tilePg n.val 8 + 0x54) = true) ∧ (s.get (Reg.NEURON.PSET_CTRL.LOAD n.val) = 0) ∧ (risingFrom 0 (s.evt n.val).psets = true)) ∧
    (∃ (s : State) (n : TileId), (s.canonical = true)) ∧
    (∃ (s : State) (n : TileId) (ev : Word64) (late again : Bool) (tl : List Work), (s.canonical = true) ∧ ((s.evt n.val).phase = 2) ∧ ((s.evt n.val).closed = false) ∧ (s.egrHold n.val = false) ∧ (s.domOn n.val = true) ∧ ((s.evt n.val).work = .ring ev late again :: tl) ∧ (ev.toNat.testBit 3 = false) ∧ ((s.lane (epTile n.val) (epTile (bits ev.toNat 51 44))).count < 32767)) ∧
    (∃ (s : State) (n : TileId) (base i w k e m : Nat) (late again : Bool) (tl : List Work), (s.canonical = true) ∧ ((s.evt n.val).phase = 2) ∧ ((s.evt n.val).closed = false) ∧ (s.egrHold n.val = false) ∧ (s.domOn n.val = true) ∧ ((s.evt n.val).work = .list 0 base i w k late again :: tl) ∧ (base + 8 * i + 8 ≤ 0x300000) ∧ ((base + 8 * i) % 8 = 0) ∧ (s.bankOn n.val ((base + 8 * i) / 0x30000) = true) ∧ (s.flips = []) ∧ (s.undef = []) ∧ (e = ofBytes (s.bytes (State.own n.val (base + 8 * i)) 8)) ∧ (e.testBit 19 = true) ∧ (e.testBit 18 = true) ∧ (bits e 21 20 = 0) ∧ (bits e 63 52 = s.modId) ∧ (bits e 27 22 = 0) ∧ (1 ≤ k ∧ k ≤ 8) ∧ ((s.lane (epTile n.val) (epTile (bits e 51 44))).count < 32767) ∧ (m = s.modId)) ∧
    (∃ (s : State) (src : Source) (n : TileId), (s.canonical = true) ∧ ((src == .host && s.hostWaits) = false) ∧ (s.answers src (tilePg n.val 11 + 0x48) = true) ∧ (s.get (Reg.EGRESS.EGR_STAT.HOLD n.val) ≠ 0) ∧ ((s.evt n.val).heldDeliver = false)) ∧
    (∃ (s : State) (src : Source) (n : TileId), (s.canonical = true) ∧ ((src == .host && s.hostWaits) = false) ∧ (s.answers src (tilePg n.val 11 + 0x48) = true) ∧ (s.get (Reg.EGRESS.EGR_STAT.HOLD n.val) ≠ 0) ∧ ((s.evt n.val).heldDeliver = false)) :=
  ⟨⟨upState, 3, by decide⟩,
    ⟨upState.put (Reg.EVENT.EVT_STAT.STATE 3) 1, 3, by decide⟩,
    ⟨upState.put (Reg.EVENT.EVT_STAT.STATE 3) 1, 3, by decide⟩,
    ⟨upState.put (Reg.EVENT.EVT_STAT.STATE 3) 2, 3, by decide⟩,
    ⟨(((upState.put (Reg.HDR.BLK_CTRL.EN (State.pgEVENT 3)) 1).put (Reg.EVENT.EVT_STAT.STATE 3) 1).put (Reg.EVENT.EVT_CFG.DROP_POL 3) 1).modTile 3 (fun x => { x with evt := { x.evt with fifo := [16, 5] } }), 3, 0, 16, [5], by decide⟩,
    ⟨{ (((upState.put (Reg.HDR.BLK_CTRL.EN (State.pgEVENT 3)) 1).put (Reg.EVENT.EVT_STAT.STATE 3) 1).put (Reg.SYNAPSE.ROW_COUNT.COUNT 3) 4).modTile 3 (fun x => { x with evt := { x.evt with fifo := [5], hlock := some 64 } }) with mem := [(12582912, 64), (12582915, 128)] }, 3, 0, 5, [], by decide⟩,
    ⟨{ (((((upState.put (Reg.HDR.BLK_CTRL.EN (State.pgEVENT 3)) 1).put (Reg.EVENT.EVT_STAT.STATE 3) 1).put (Reg.SYNAPSE.ROW_COUNT.COUNT 3) 4).put (Reg.NEURON.N_CFG.N_M1 3) 9).put (Reg.NEURON.N_CFG.NB 3) 1 |>.put (Reg.NEURON.WORLD.W_COUNT 3) 1 |>.put (Reg.NEURON.STATE_LINE.LINE 3) 16).modTile 3 (fun x => { x with evt := { x.evt with fifo := [0x60] } }) with mem := [(12582912, 64), (12582915, 128), (12582976, 1), (12582978, 7), (12582980, 127), (12582982, 2), (12582984, 5)] }, 3, 0, 1056, 0x60, ⟨64, 1, 8, false, false, scaleValue 0 0x7F, 2, 0, false, false⟩, 5, by decide⟩,
    ⟨{ ((upState.put (Reg.SYNAPSE.LOCK_TMO.CYC 3) 40).put (Reg.SYNAPSE.ROW_COUNT.COUNT 3) 4).modTile 3 (fun x => { x with evt := { x.evt with fifo := [5, 5, 16], waiting := true, hlock := some 0x40 } }) with mem := [(12582912, 64), (12582915, 128)] }, 3, 5, [5, 16], by decide⟩,
    ⟨upState, 3, by decide⟩,
    ⟨upState.put (Reg.NEURON.PSET_CTRL.LOAD 3) 1, 3, by decide⟩,
    ⟨upState.modTile 3 (fun x => { x with evt := { x.evt with phase := 2, work := [.ring 0x8200090008060 false false] } }), 3, 0x8200090008060, false, false, [], by decide⟩,
    ⟨{ upState.modTile 3 (fun x => { x with evt := { x.evt with phase := 2, work := [.list 0 64 0 2 4 false false] } }) with mem := [(12582978, 12), (12582979, 144), (12582981, 48)] }, 3, 64, 0, 2, 4, 0x3000900C0000, 0, false, false, [], by decide⟩,
    ⟨(upState.put (Reg.EGRESS.EGR_STAT.HOLD 3) 1).modTile 3 (fun x => { x with evt := { x.evt with held := [.fire 64 false false, .ring 7 false false], heldDeliver := false } }), .host, 3, by decide⟩,
    ⟨(upState.put (Reg.EGRESS.EGR_STAT.HOLD 3) 1).modTile 3 (fun x => { x with evt := { x.evt with held := [.fire 64 false false, .ring 7 false false], heldDeliver := false } }), .host, 3, by decide⟩⟩

theorem witness_BanksAndMemoryChannels :
    (∃ (s : State) (a : Addr) (b : Fin 72), (s.canonical = true) ∧ ((bankAt a.toNat).isSome = true ∨ (0x1000000000 ≤ a.toNat ∧ a.toNat < 0x1000000000 + 0x1000)) ∧ (s.undef = []) ∧ (lookup (a.toNat / 8) s.flips = none) ∧ (risingFrom 0 s.flips = true)) ∧
    (∃ (s : State) (a : Addr) (b c : Fin 72), (s.canonical = true) ∧ ((bankAt a.toNat).isSome = true) ∧ (lookup (a.toNat / 8) s.flips = some [c.val]) ∧ (b ≠ c)) ∧
    (∃ (s : State) (n : TileId) (i : Fin 16384) (b : Fin 144), (s.canonical = true) ∧ (lookup i.val (s.tile n.val).laneFlips = none)) ∧
    (∃ (s : State) (a : Addr), (s.canonical = true) ∧ (s.writebacks.contains (a.toNat / 8) = true) ∧ ((bankAt (a.toNat / 8 * 8)).any (fun x => s.bankOn x.1 x.2.1) = true) ∧ (s.undef = []) ∧ (risingFrom 0 s.flips = true)) ∧
    (∃ (s : State) (u : Fin 320) (b : Fin 16), (s.get (fld (bankPg u.val + 0x60) 0 16 0) ≠ 0) ∧ (s.domOn u.val = true) ∧ (s.bankOn u.val b.val = true) ∧ (risingFrom 0 s.scrub = true) ∧ (s.flips = []) ∧ (s.undef = [])) ∧
    (∃ (s : State) (u : Fin 320) (b : Fin 16), (s.get (fld (bankPg u.val + 0x60) 0 16 0) ≠ 0) ∧ (s.domOn u.val = true) ∧ (s.bankOn u.val b.val = true) ∧ (risingFrom 0 s.scrub = true)) ∧
    (∃ (s : State) (u : Fin 320) (b : Fin 16), (s.canonical = true) ∧ (s.get (fld (bankPg u.val + 0x60) 0 16 0) ≠ 0) ∧ (s.domOn u.val = true) ∧ (s.bankOn u.val b.val = false)) ∧
    (∃ (s : State) (u : Fin 320) (b : Fin 16) (i : Nat) (k : Fin 72), (s.canonical = true) ∧ (s.get (fld (bankPg u.val + 0x60) 0 16 0) ≠ 0) ∧ (s.domOn u.val = true) ∧ (s.bankOn u.val b.val = true) ∧ (risingFrom 0 s.scrub = true) ∧ ((s.scrubAt (16 * u.val + b.val)).1 * 64 < bankSize u.val) ∧ (i < 8) ∧ (s.flips = [((bankBase u.val b.val + (s.scrubAt (16 * u.val + b.val)).1 * 64) / 8 + i, [k.val])]) ∧ (s.undef = []) ∧ (s.writebacks = [])) ∧
    (∃ (s : State) (u : Fin 320) (v : Word32), (s.canonical = true) ∧ (s.hostWaits = false) ∧ (s.answers .host (bankPg u.val + 0x40) = true) ∧ ((List.range 16).all (fun b => bits v.toNat (2 * b + 1) (2 * b) != 3) = true) ∧ (s.bankTo = []) ∧ (s.get (fld (bankPg u.val + 0x48) 0 16 0) = 0)) ∧
    (∃ (s : State) (u : Fin 320) (v : Word32) (b : Fin 16), (s.canonical = true) ∧ (s.hostWaits = false) ∧ (s.answers .host (bankPg u.val + 0x40) = true) ∧ (bits v.toNat (2 * b.val + 1) (2 * b.val) = 3)) ∧
    (∃ (s : State) (u : Fin 320) (b : Fin 16) (g : Fin 3), (s.canonical = true) ∧ (lookup (16 * u.val + b.val) s.bankTo = some g.val) ∧ (risingFrom 0 s.bankTo = true) ∧ (s.domOn u.val = true) ∧ (s.bankPwr u.val b.val = g.val)) ∧
    (∃ (s : State) (u : Fin 320) (v : Word32), (s.canonical = true) ∧ (s.hostWaits = false) ∧ (s.answers .host (bankPg u.val + 0x48) = true)) ∧
    (∃ (s : State) (u : Fin 320) (b : Fin 16) (x : Nat), (s.canonical = true) ∧ (s.initBit u.val b.val = true) ∧ (s.domOn u.val = true) ∧ (bankBase u.val b.val ≤ x) ∧ (x < bankBase u.val b.val + bankSize u.val)) ∧
    (∃ (s : State) (c : Fin 32) (bin : Fin 3) (lo hi : Nat) (again : Bool), (s.canonical = true) ∧ (lookup c.val s.train = some (lo, hi, again)) ∧ (risingFrom 0 s.train = true) ∧ (s.domOn 322 = true) ∧ (lo ≤ bin.val) ∧ (bin.val ≤ hi)) ∧
    (∃ (s : State) (c : Fin 32) (lo hi : Nat) (again : Bool), (s.canonical = true) ∧ (lookup c.val s.train = some (lo, hi, again)) ∧ (s.domOn 322 = true)) ∧
    (∃ (s : State) (src : Source) (c : Fin 32), (s.canonical = true) ∧ ((src == .host && s.hostWaits) = false) ∧ (s.answers src (memPg c.val + 0x48) = true) ∧ (s.get (Reg.MEM.MEM_STAT.STATE c.val) = 2)) ∧
    (∃ (s : State) (c : Fin 32) (temp : Fin 16), (s.canonical = true) ∧ (s.domOn 322 = true) ∧ (s.get (Reg.MEM.MEM_STAT.STATE c.val) = 2)) ∧
    (∃ (s : State) (c : Fin 32), (s.domOn 322 = true) ∧ (s.isReady (memPg c.val) = true) ∧ (s.get (Reg.MEM.SCRUB_CFG.INTERVAL c.val) ≠ 0) ∧ (risingFrom 0 s.scrub = true) ∧ (s.flips = []) ∧ (s.undef = [])) ∧
    (∃ (s : State) (c : Fin 32) (i : Nat) (k : Fin 72), (s.canonical = true) ∧ (s.domOn 322 = true) ∧ (s.isReady (memPg c.val) = true) ∧ (s.get (Reg.MEM.SCRUB_CFG.INTERVAL c.val) ≠ 0) ∧ ((s.scrubAt (8192 + c.val)).1 < 67108864) ∧ (i < 8) ∧ (s.flips = [((0x1000000000 + State.lpddrOfs c.val (64 * (s.scrubAt (8192 + c.val)).1)) / 8 + i, [k.val])]) ∧ (s.undef = [])) :=
  ⟨⟨upState, 0xC00010, 70, by decide⟩,
    ⟨{ upState with flips := [(0xC00010 / 8, [7])] }, 0xC00010, 70, 7, by decide⟩,
    ⟨upState, 3, 5, 143, by decide⟩,
    ⟨{ upState with flips := [(3, [1, 2]), (0xC00010 / 8, [7])], writebacks := [0xC00010 / 8, 3] }, 0xC00010, by decide⟩,
    ⟨(upState.put (fld (bankPg 3 + 0x60) 0 16 0) 5), 3, 2, by decide⟩,
    ⟨(upState.put (fld (bankPg 3 + 0x60) 0 16 0) 5), 3, 2, by decide⟩,
    ⟨((upState.put (fld (bankPg 3 + 0x60) 0 16 0) 5).put (fld (bankPg 3 + 0x44) 0 32 0) 0x20), 3, 2, by decide⟩,
    ⟨{ (upState.put (fld (bankPg 3 + 0x60) 0 16 0) 5) with scrub := [(50, (7, 0))], flips := [((bankBase 3 2 + 7 * 64) / 8 + 1, [9])] }, 3, 2, 1, 9, by decide⟩,
    ⟨upState, 3, 0x80000041, by decide⟩,
    ⟨upState, 3, 0xC0000041, 15, by decide⟩,
    ⟨{ ((upState.put (fld (bankPg 3 + 0x44) 0 32 0) 0x30).put (fld (bankPg 3 + 0x40) 0 32 0) 0x20) with bankTo := [(50, 2)], mem := [(3 * 0x400000 + 0x60000, 5), (3 * 0x400000 + 0x90000, 6)] }, 3, 2, 2, by decide⟩,
    ⟨upState, 3, 0x8001, by decide⟩,
    ⟨{ ((upState.put (fld (bankPg 3 + 0x44) 0 32 0) 0x30).put (fld (bankPg 3 + 0x48) 0 16 0) 4) with mem := [(3 * 0x400000 + 0x60000, 5), (3 * 0x400000 + 0x90000, 6)] }, 3, 2, 3 * 0x400000 + 0x60000, by decide⟩,
    ⟨{ upState.put (Reg.MEM.MEM_STAT.STATE 5) 1 with train := [(5, (0, 2, false))] }, 5, 1, 0, 2, false, by decide⟩,
    ⟨{ upState.put (Reg.MEM.MEM_STAT.STATE 5) 1 with train := [(5, (0, 2, false))] }, 5, 0, 2, false, by decide⟩,
    ⟨upState.put (Reg.MEM.MEM_STAT.STATE 5) 2, .host, 5, by decide⟩,
    ⟨upState.put (Reg.MEM.MEM_STAT.STATE 5) 2, 5, 9, by decide⟩,
    ⟨(upState.put (Reg.HDR.BLK_STAT.READY (memPg 5)) 1).put (Reg.MEM.SCRUB_CFG.INTERVAL 5) 3, 5, by decide⟩,
    ⟨{ ((upState.put (Reg.HDR.BLK_STAT.READY (memPg 5)) 1).put (Reg.MEM.SCRUB_CFG.INTERVAL 5) 3) with flips := [((0x1000000000 + State.lpddrOfs 5 0) / 8 + 2, [9])] }, 5, 2, 9, by decide⟩⟩

theorem witness_ScalarArithmeticResults :
    (∃ (s : State) (n : TileId) (rd rs1 rs2 : Reg), (s.domOn n.val = true) ∧ (s.marked n.val false rs1.val = false) ∧ (s.marked n.val false rs2.val = false)) ∧
    (∃ (s : State) (n : TileId) (rd rs1 rs2 : Fin 16), (s.domOn n.val = true) ∧ (s.marked n.val false rs1.val = false) ∧ (s.marked n.val false rs2.val = false)) ∧
    (∃ (s : State) (n : TileId) (rd rs1 rs2 : Reg), (s.domOn n.val = true) ∧ (s.marked n.val false rs1.val = false) ∧ (s.marked n.val false rs2.val = false)) ∧
    (∃ (s : State) (n : TileId) (rd rs1 rs2 : Fin 16), (s.domOn n.val = true) ∧ (s.marked n.val false rs1.val = false) ∧ (s.marked n.val false rs2.val = false)) ∧
    (∃ (s : State) (n : TileId) (rd rs1 rs2 : Reg), (s.domOn n.val = true) ∧ (s.marked n.val false rs1.val = false) ∧ (s.marked n.val false rs2.val = false)) ∧
    (∃ (s : State) (n : TileId) (rd rs1 rs2 : Fin 16), (s.domOn n.val = true) ∧ (s.marked n.val false rs1.val = false) ∧ (s.marked n.val false rs2.val = false)) ∧
    (∃ (s : State) (n : TileId) (rd rs1 rs2 : Reg), (s.domOn n.val = true) ∧ (s.marked n.val false rs1.val = false) ∧ (s.marked n.val false rs2.val = false)) ∧
    (∃ (s : State) (n : TileId) (rd rs1 rs2 : Fin 16), (s.domOn n.val = true) ∧ (s.marked n.val false rs1.val = false) ∧ (s.marked n.val false rs2.val = false)) ∧
    (∃ (s : State) (n : TileId) (rd rs1 rs2 : Reg), (s.domOn n.val = true) ∧ (s.marked n.val false rs1.val = false) ∧ (s.marked n.val false rs2.val = false)) ∧
    (∃ (s : State) (n : TileId) (rd rs1 rs2 : Fin 16), (s.domOn n.val = true) ∧ (s.marked n.val false rs1.val = false) ∧ (s.marked n.val false rs2.val = false)) ∧
    (∃ (s : State) (n : TileId) (rd rs1 rs2 : Reg), (s.domOn n.val = true) ∧ (s.marked n.val false rs1.val = false) ∧ (s.marked n.val false rs2.val = false)) ∧
    (∃ (s : State) (n : TileId) (rd rs1 rs2 : Fin 16), (s.domOn n.val = true) ∧ (s.marked n.val false rs1.val = false) ∧ (s.marked n.val false rs2.val = false)) ∧
    (∃ (s : State) (n : TileId) (rd rs1 rs2 : Reg), (s.domOn n.val = true) ∧ (s.marked n.val false rs1.val = false) ∧ (s.marked n.val false rs2.val = false)) ∧
    (∃ (s : State) (n : TileId) (rd rs1 rs2 : Fin 16), (s.domOn n.val = true) ∧ (s.marked n.val false rs1.val = false) ∧ (s.marked n.val false rs2.val = false)) ∧
    (∃ (s : State) (n : TileId) (rd rs1 rs2 : Reg), (s.domOn n.val = true) ∧ (s.marked n.val false rs1.val = false) ∧ (s.marked n.val false rs2.val = false)) ∧
    (∃ (s : State) (n : TileId) (rd rs1 rs2 : Reg), (s.domOn n.val = true) ∧ (s.marked n.val false rs1.val = false) ∧ (s.marked n.val false rs2.val = false)) ∧
    (∃ (s : State) (n : TileId) (rd rs1 rs2 : Reg), (s.domOn n.val = true) ∧ (s.marked n.val false rs1.val = false) ∧ (s.marked n.val false rs2.val = false)) ∧
    (∃ (s : State) (n : TileId) (rd rs1 rs2 : Reg), (s.domOn n.val = true) ∧ (s.marked n.val false rs1.val = false) ∧ (s.marked n.val false rs2.val = false)) ∧
    (∃ (s : State) (n : TileId) (rd rs1 rs2 : Reg), (s.domOn n.val = true) ∧ (s.marked n.val false rs1.val = false) ∧ (s.marked n.val false rs2.val = false)) ∧
    (∃ (s : State) (n : TileId) (rd rs1 : Fin 16), (s.domOn n.val = true) ∧ (s.marked n.val false rs1.val = false)) ∧
    (∃ (s : State) (n : TileId) (rd rs1 rs2 : Reg), (s.domOn n.val = true) ∧ (s.marked n.val false rs1.val = false) ∧ (s.marked n.val false rs2.val = false)) ∧
    (∃ (s : State) (n : TileId) (rd rs1 : Reg) (imm : BitVec 15), (s.domOn n.val = true) ∧ (s.marked n.val false rs1.val = false)) ∧
    (∃ (s : State) (n : TileId) (rd rs1 : Reg) (imm : BitVec 15), (s.domOn n.val = true) ∧ (s.marked n.val false rs1.val = false)) ∧
    (∃ (s : State) (n : TileId) (rd rs1 : Reg) (imm : BitVec 15), (s.domOn n.val = true) ∧ (s.marked n.val false rs1.val = false)) ∧
    (∃ (s : State) (n : TileId) (rd rs1 : Reg) (imm : BitVec 15), (s.domOn n.val = true) ∧ (s.marked n.val false rs1.val = false)) ∧
    (∃ (s : State) (n : TileId) (rd rs1 : Reg) (imm : BitVec 15), (s.domOn n.val = true) ∧ (s.marked n.val false rs1.val = false)) ∧
    (∃ (s : State) (n : TileId) (rd rs1 : Reg) (sh : BitVec 6), (s.domOn n.val = true) ∧ (s.marked n.val false rs1.val = false)) ∧
    (∃ (s : State) (n : TileId) (rd rs1 : Reg) (sh : BitVec 6), (s.domOn n.val = true) ∧ (s.marked n.val false rs1.val = false)) ∧
    (∃ (s : State) (n : TileId) (rd rs1 : Reg) (sh : BitVec 6), (s.domOn n.val = true) ∧ (s.marked n.val false rs1.val = false)) :=
  ⟨⟨upState.modTile 3 (fun x => { x with sregs := [(1, 0xFFFFFFFFFFFFFFF6), (2, 3), (4, 0x8000000000000001), (5, 0x40)] }), 3, 3, 1, 2, by decide⟩,
    ⟨upState.modTile 3 (fun x => { x with sregs := [(1, 0xFFFFFFFFFFFFFFF6), (2, 3), (4, 0x8000000000000001), (5, 0x40)] }), 3, 3, 1, 2, by decide⟩,
    ⟨upState.modTile 3 (fun x => { x with sregs := [(1, 0xFFFFFFFFFFFFFFF6), (2, 3), (4, 0x8000000000000001), (5, 0x40)] }), 3, 3, 1, 2, by decide⟩,
    ⟨upState.modTile 3 (fun x => { x with sregs := [(1, 0xFFFFFFFFFFFFFFF6), (2, 3), (4, 0x8000000000000001), (5, 0x40)] }), 3, 3, 1, 2, by decide⟩,
    ⟨upState.modTile 3 (fun x => { x with sregs := [(1, 0xFFFFFFFFFFFFFFF6), (2, 3), (4, 0x8000000000000001), (5, 0x40)] }), 3, 3, 1, 2, by decide⟩,
    ⟨upState.modTile 3 (fun x => { x with sregs := [(1, 0xFFFFFFFFFFFFFFF6), (2, 3), (4, 0x8000000000000001), (5, 0x40)] }), 3, 3, 1, 2, by decide⟩,
    ⟨upState.modTile 3 (fun x => { x with sregs := [(1, 0xFFFFFFFFFFFFFFF6), (2, 3), (4, 0x8000000000000001), (5, 0x40)] }), 3, 3, 1, 2, by decide⟩,
    ⟨upState.modTile 3 (fun x => { x with sregs := [(1, 0xFFFFFFFFFFFFFFF6), (2, 3), (4, 0x8000000000000001), (5, 0x40)] }), 3, 3, 1, 2, by decide⟩,
    ⟨upState.modTile 3 (fun x => { x with sregs := [(1, 0xFFFFFFFFFFFFFFF6), (2, 3), (4, 0x8000000000000001), (5, 0x40)] }), 3, 3, 1, 2, by decide⟩,
    ⟨upState.modTile 3 (fun x => { x with sregs := [(1, 0xFFFFFFFFFFFFFFF6), (2, 3), (4, 0x8000000000000001), (5, 0x40)] }), 3, 3, 1, 2, by decide⟩,
    ⟨upState.modTile 3 (fun x => { x with sregs := [(1, 0xFFFFFFFFFFFFFFF6), (2, 3), (4, 0x8000000000000001), (5, 0x40)] }), 3, 3, 1, 2, by decide⟩,
    ⟨upState.modTile 3 (fun x => { x with sregs := [(1, 0xFFFFFFFFFFFFFFF6), (2, 3), (4, 0x8000000000000001), (5, 0x40)] }), 3, 3, 1, 2, by decide⟩,
    ⟨upState.modTile 3 (fun x => { x with sregs := [(1, 0xFFFFFFFFFFFFFFF6), (2, 3), (4, 0x8000000000000001), (5, 0x40)] }), 3, 3, 1, 2, by decide⟩,
    ⟨upState.modTile 3 (fun x => { x with sregs := [(1, 0xFFFFFFFFFFFFFFF6), (2, 3), (4, 0x8000000000000001), (5, 0x40)] }), 3, 3, 1, 2, by decide⟩,
    ⟨upState.modTile 3 (fun x => { x with sregs := [(1, 0xFFFFFFFFFFFFFFF6), (2, 3), (4, 0x8000000000000001), (5, 0x40)] }), 3, 3, 1, 2, by decide⟩,
    ⟨upState.modTile 3 (fun x => { x with sregs := [(1, 0xFFFFFFFFFFFFFFF6), (2, 3), (4, 0x8000000000000001), (5, 0x40)] }), 3, 3, 1, 2, by decide⟩,
    ⟨upState.modTile 3 (fun x => { x with sregs := [(1, 0xFFFFFFFFFFFFFFF6), (2, 3), (4, 0x8000000000000001), (5, 0x40)] }), 3, 3, 1, 2, by decide⟩,
    ⟨upState.modTile 3 (fun x => { x with sregs := [(1, 0xFFFFFFFFFFFFFFF6), (2, 3), (4, 0x8000000000000001), (5, 0x40)] }), 3, 3, 1, 2, by decide⟩,
    ⟨upState.modTile 3 (fun x => { x with sregs := [(1, 0xFFFFFFFFFFFFFFF6), (2, 3), (4, 0x8000000000000001), (5, 0x40)] }), 3, 3, 1, 2, by decide⟩,
    ⟨upState.modTile 3 (fun x => { x with sregs := [(1, 0xFFFFFFFFFFFFFFF6), (2, 3), (4, 0x8000000000000001), (5, 0x40)] }), 3, 3, 1, by decide⟩,
    ⟨upState.modTile 3 (fun x => { x with sregs := [(1, 0xFFFFFFFFFFFFFFF6), (2, 3), (4, 0x8000000000000001), (5, 0x40)] }), 3, 3, 1, 2, by decide⟩,
    ⟨upState.modTile 3 (fun x => { x with sregs := [(1, 0xFFFFFFFFFFFFFFF6), (2, 3), (4, 0x8000000000000001), (5, 0x40)] }), 3, 3, 1, 5, by decide⟩,
    ⟨upState.modTile 3 (fun x => { x with sregs := [(1, 0xFFFFFFFFFFFFFFF6), (2, 3), (4, 0x8000000000000001), (5, 0x40)] }), 3, 3, 1, 5, by decide⟩,
    ⟨upState.modTile 3 (fun x => { x with sregs := [(1, 0xFFFFFFFFFFFFFFF6), (2, 3), (4, 0x8000000000000001), (5, 0x40)] }), 3, 3, 1, 5, by decide⟩,
    ⟨upState.modTile 3 (fun x => { x with sregs := [(1, 0xFFFFFFFFFFFFFFF6), (2, 3), (4, 0x8000000000000001), (5, 0x40)] }), 3, 3, 1, 5, by decide⟩,
    ⟨upState.modTile 3 (fun x => { x with sregs := [(1, 0xFFFFFFFFFFFFFFF6), (2, 3), (4, 0x8000000000000001), (5, 0x40)] }), 3, 3, 1, 5, by decide⟩,
    ⟨upState.modTile 3 (fun x => { x with sregs := [(1, 0xFFFFFFFFFFFFFFF6), (2, 3), (4, 0x8000000000000001), (5, 0x40)] }), 3, 3, 1, 5, by decide⟩,
    ⟨upState.modTile 3 (fun x => { x with sregs := [(1, 0xFFFFFFFFFFFFFFF6), (2, 3), (4, 0x8000000000000001), (5, 0x40)] }), 3, 3, 1, 5, by decide⟩,
    ⟨upState.modTile 3 (fun x => { x with sregs := [(1, 0xFFFFFFFFFFFFFFF6), (2, 3), (4, 0x8000000000000001), (5, 0x40)] }), 3, 3, 1, 5, by decide⟩⟩

theorem witness_ScalarMemoryResults :
    (∃ (s : State) (n : TileId) (rd rs1 : Reg) (imm : BitVec 15), (s.domOn n.val = true) ∧ (s.marked n.val false rs1.val = false) ∧ (loadAddr s n rs1.val imm % 8 = 0) ∧ (loadAddr s n rs1.val imm + 8 ≤ 0x300000) ∧ (soundStore s = true) ∧ (s.bankOn n.val (loadAddr s n rs1.val imm / 0x30000) = true)) ∧
    (∃ (s : State) (n : TileId) (rd rs1 : Reg) (imm : BitVec 15), (s.domOn n.val = true) ∧ (s.marked n.val false rs1.val = false) ∧ (loadAddr s n rs1.val imm % 4 = 0) ∧ (loadAddr s n rs1.val imm + 4 ≤ 0x300000) ∧ (soundStore s = true) ∧ (s.bankOn n.val (loadAddr s n rs1.val imm / 0x30000) = true)) ∧
    (∃ (s : State) (n : TileId) (rd rs1 : Reg) (imm : BitVec 15), (s.domOn n.val = true) ∧ (s.marked n.val false rs1.val = false) ∧ (loadAddr s n rs1.val imm % 4 = 0) ∧ (loadAddr s n rs1.val imm + 4 ≤ 0x300000) ∧ (soundStore s = true) ∧ (s.bankOn n.val (loadAddr s n rs1.val imm / 0x30000) = true)) ∧
    (∃ (s : State) (n : TileId) (rd rs1 : Reg) (imm : BitVec 15), (s.marked n.val false rd.val = false) ∧ (s.domOn n.val = true) ∧ (s.marked n.val false rs1.val = false) ∧ (loadAddr s n rs1.val imm % 8 = 0) ∧ (loadAddr s n rs1.val imm + 8 ≤ 0x300000) ∧ (soundStore s = true) ∧ (s.bankOn n.val (loadAddr s n rs1.val imm / 0x30000) = true)) ∧
    (∃ (s : State) (n : TileId) (rd rs1 : Reg) (imm : BitVec 15), (s.marked n.val false rd.val = false) ∧ (s.domOn n.val = true) ∧ (s.marked n.val false rs1.val = false) ∧ (loadAddr s n rs1.val imm % 4 = 0) ∧ (loadAddr s n rs1.val imm + 4 ≤ 0x300000) ∧ (soundStore s = true) ∧ (s.bankOn n.val (loadAddr s n rs1.val imm / 0x30000) = true)) ∧
    (∃ (s : State) (n : TileId) (rd rs1 : Reg) (imm : BitVec 15), (s.canonical = true) ∧ (s.domOn n.val = true) ∧ (s.marked n.val false rd.val = false) ∧ (s.marked n.val false rs1.val = false) ∧ (loadAddr s n rs1.val imm % 8 ≠ 0)) ∧
    (∃ (s : State) (n : TileId) (rd rs1 rs2 : Reg), (s.domOn n.val = true) ∧ (s.marked n.val false rs1.val = false) ∧ (s.marked n.val false rs2.val = false) ∧ (s.sreg n.val rs1.val % 4 = 0) ∧ (s.sreg n.val rs1.val + 4 ≤ 0x300000) ∧ (soundStore s = true) ∧ (s.bankOn n.val (s.sreg n.val rs1.val / 0x30000) = true)) ∧
    (∃ (s : State) (n : TileId) (rd rs1 rs2 : Reg), (s.domOn n.val = true) ∧ (s.marked n.val false rs1.val = false) ∧ (s.marked n.val false rs2.val = false) ∧ (s.sreg n.val rs1.val % 8 = 0) ∧ (s.sreg n.val rs1.val + 8 ≤ 0x300000) ∧ (soundStore s = true) ∧ (s.bankOn n.val (s.sreg n.val rs1.val / 0x30000) = true)) ∧
    (∃ (s : State) (n : TileId) (rd rs1 rs2 : Reg), (s.domOn n.val = true) ∧ (s.marked n.val false rs1.val = false) ∧ (s.marked n.val false rs2.val = false) ∧ (s.sreg n.val rs1.val % 4 = 0) ∧ (s.sreg n.val rs1.val + 4 ≤ 0x300000) ∧ (soundStore s = true) ∧ (s.bankOn n.val (s.sreg n.val rs1.val / 0x30000) = true)) ∧
    (∃ (s : State) (n : TileId) (rd rs1 rs2 : Reg), (s.domOn n.val = true) ∧ (s.marked n.val false rs1.val = false) ∧ (s.marked n.val false rs2.val = false) ∧ (s.sreg n.val rs1.val % 4 = 0) ∧ (s.sreg n.val rs1.val + 4 ≤ 0x300000) ∧ (soundStore s = true) ∧ (s.bankOn n.val (s.sreg n.val rs1.val / 0x30000) = true)) ∧
    (∃ (s : State) (n : TileId) (rd rs1 rs2 : Reg), (s.domOn n.val = true) ∧ (s.marked n.val false rs1.val = false) ∧ (s.marked n.val false rs2.val = false) ∧ (s.sreg n.val rs1.val % 8 = 0) ∧ (s.sreg n.val rs1.val + 8 ≤ 0x300000) ∧ (soundStore s = true) ∧ (s.bankOn n.val (s.sreg n.val rs1.val / 0x30000) = true)) ∧
    (∃ (s : State) (n : TileId) (rd rs1 rs2 : Reg), (s.domOn n.val = true) ∧ (s.marked n.val false rs1.val = false) ∧ (s.marked n.val false rs2.val = false) ∧ (s.sreg n.val rs1.val % 8 = 0) ∧ (s.sreg n.val rs1.val + 8 ≤ 0x300000) ∧ (soundStore s = true) ∧ (s.bankOn n.val (s.sreg n.val rs1.val / 0x30000) = true)) :=
  ⟨⟨{ upState.modTile 3 (fun x => { x with sregs := [(1, 0x100), (2, 0x8899AABBCCDDEEFF)] }) with mem := [(12583160, 135), (12583161, 134), (12583162, 133), (12583163, 132), (12583164, 131), (12583165, 130), (12583166, 129), (12583167, 128), (12583168, 248), (12583169, 249), (12583170, 250), (12583171, 251), (12583172, 252), (12583173, 253), (12583174, 254), (12583175, 255)] }, 3, 5, 1, 0, by decide⟩,
    ⟨{ upState.modTile 3 (fun x => { x with sregs := [(1, 0x100), (2, 0x8899AABBCCDDEEFF)] }) with mem := [(12583160, 135), (12583161, 134), (12583162, 133), (12583163, 132), (12583164, 131), (12583165, 130), (12583166, 129), (12583167, 128), (12583168, 248), (12583169, 249), (12583170, 250), (12583171, 251), (12583172, 252), (12583173, 253), (12583174, 254), (12583175, 255)] }, 3, 5, 1, 0, by decide⟩,
    ⟨{ upState.modTile 3 (fun x => { x with sregs := [(1, 0x100), (2, 0x8899AABBCCDDEEFF)] }) with mem := [(12583160, 135), (12583161, 134), (12583162, 133), (12583163, 132), (12583164, 131), (12583165, 130), (12583166, 129), (12583167, 128), (12583168, 248), (12583169, 249), (12583170, 250), (12583171, 251), (12583172, 252), (12583173, 253), (12583174, 254), (12583175, 255)] }, 3, 5, 1, 0, by decide⟩,
    ⟨{ upState.modTile 3 (fun x => { x with sregs := [(1, 0x100), (2, 0x8899AABBCCDDEEFF)] }) with mem := [(12583160, 135), (12583161, 134), (12583162, 133), (12583163, 132), (12583164, 131), (12583165, 130), (12583166, 129), (12583167, 128), (12583168, 248), (12583169, 249), (12583170, 250), (12583171, 251), (12583172, 252), (12583173, 253), (12583174, 254), (12583175, 255)] }, 3, 2, 1, 0, by decide⟩,
    ⟨{ upState.modTile 3 (fun x => { x with sregs := [(1, 0x100), (2, 0x8899AABBCCDDEEFF)] }) with mem := [(12583160, 135), (12583161, 134), (12583162, 133), (12583163, 132), (12583164, 131), (12583165, 130), (12583166, 129), (12583167, 128), (12583168, 248), (12583169, 249), (12583170, 250), (12583171, 251), (12583172, 252), (12583173, 253), (12583174, 254), (12583175, 255)] }, 3, 2, 1, 0, by decide⟩,
    ⟨{ upState.modTile 3 (fun x => { x with sregs := [(1, 0x100), (2, 0x8899AABBCCDDEEFF)] }) with mem := [(12583160, 135), (12583161, 134), (12583162, 133), (12583163, 132), (12583164, 131), (12583165, 130), (12583166, 129), (12583167, 128), (12583168, 248), (12583169, 249), (12583170, 250), (12583171, 251), (12583172, 252), (12583173, 253), (12583174, 254), (12583175, 255)] }, 3, 2, 1, 4, by decide⟩,
    ⟨{ upState.modTile 3 (fun x => { x with sregs := [(1, 0x100), (2, 0x8899AABBCCDDEEFF)] }) with mem := [(12583160, 135), (12583161, 134), (12583162, 133), (12583163, 132), (12583164, 131), (12583165, 130), (12583166, 129), (12583167, 128), (12583168, 248), (12583169, 249), (12583170, 250), (12583171, 251), (12583172, 252), (12583173, 253), (12583174, 254), (12583175, 255)] }, 3, 5, 1, 2, by decide⟩,
    ⟨{ upState.modTile 3 (fun x => { x with sregs := [(1, 0x100), (2, 0x8899AABBCCDDEEFF)] }) with mem := [(12583160, 135), (12583161, 134), (12583162, 133), (12583163, 132), (12583164, 131), (12583165, 130), (12583166, 129), (12583167, 128), (12583168, 248), (12583169, 249), (12583170, 250), (12583171, 251), (12583172, 252), (12583173, 253), (12583174, 254), (12583175, 255)] }, 3, 5, 1, 2, by decide⟩,
    ⟨{ upState.modTile 3 (fun x => { x with sregs := [(1, 0x100), (2, 0x8899AABBCCDDEEFF)] }) with mem := [(12583160, 135), (12583161, 134), (12583162, 133), (12583163, 132), (12583164, 131), (12583165, 130), (12583166, 129), (12583167, 128), (12583168, 248), (12583169, 249), (12583170, 250), (12583171, 251), (12583172, 252), (12583173, 253), (12583174, 254), (12583175, 255)] }, 3, 5, 1, 2, by decide⟩,
    ⟨{ upState.modTile 3 (fun x => { x with sregs := [(1, 0x100), (2, 0x8899AABBCCDDEEFF)] }) with mem := [(12583160, 135), (12583161, 134), (12583162, 133), (12583163, 132), (12583164, 131), (12583165, 130), (12583166, 129), (12583167, 128), (12583168, 248), (12583169, 249), (12583170, 250), (12583171, 251), (12583172, 252), (12583173, 253), (12583174, 254), (12583175, 255)] }, 3, 5, 1, 2, by decide⟩,
    ⟨{ upState.modTile 3 (fun x => { x with sregs := [(1, 0x100), (2, 0x8899AABBCCDDEEFF)] }) with mem := [(12583160, 135), (12583161, 134), (12583162, 133), (12583163, 132), (12583164, 131), (12583165, 130), (12583166, 129), (12583167, 128), (12583168, 248), (12583169, 249), (12583170, 250), (12583171, 251), (12583172, 252), (12583173, 253), (12583174, 254), (12583175, 255)] }, 3, 5, 1, 2, by decide⟩,
    ⟨{ upState.modTile 3 (fun x => { x with sregs := [(1, 0x100), (2, 0x8899AABBCCDDEEFF)] }) with mem := [(12583160, 135), (12583161, 134), (12583162, 133), (12583163, 132), (12583164, 131), (12583165, 130), (12583166, 129), (12583167, 128), (12583168, 248), (12583169, 249), (12583170, 250), (12583171, 251), (12583172, 252), (12583173, 253), (12583174, 254), (12583175, 255)] }, 3, 5, 1, 2, by decide⟩⟩

theorem witness_ScalarMovesAndMarks :
    (∃ (s : State) (n : TileId) (rd vs : Reg) (idx : BitVec 8), (s.domOn n.val = true) ∧ (s.marked n.val true vs.val = false) ∧ (idx.toNat < 128)) ∧
    (∃ (s : State) (n : TileId) (rd vs : Reg) (idx : BitVec 8), (s.domOn n.val = true) ∧ (s.marked n.val true vs.val = false)) ∧
    (∃ (s : State) (n : TileId) (rd vs : Reg) (idx : BitVec 8), (s.canonical = true) ∧ (s.domOn n.val = true) ∧ (128 ≤ idx.toNat) ∧ (s.laneHeld n.val = false)) ∧
    (∃ (s : State) (n : TileId) (rd : Reg) (csr : Fin 3), (s.domOn n.val = true) ∧ ((s.tile n.val).cclk0 ≤ (if n.val < 128 then s.cclkW else s.cclkE))) ∧
    (∃ (s : State) (n : TileId) (rd rs1 rs2 : Reg), (s.canonical = true) ∧ (s.domOn n.val = true) ∧ (s.marked n.val false rs1.val = true) ∧ (s.laneHeld n.val = false)) ∧
    (∃ (s : State) (n : TileId) (r since : Nat) (v : Word64), (s.canonical = true) ∧ (s.pageUp (pageAt pgISSUE) = true) ∧ (s.stream ≠ State.stRunning) ∧ (s.stream ≠ State.stWaiting) ∧ (s.issue.gos = []) ∧ (s.issue.ending = none) ∧ (s.phase = 0) ∧ (s.fabricsHeld = true) ∧ ((s.tile n.val).due = [⟨2 * (s.issue.period + 1), since, .sreg r v⟩]) ∧ (r ≠ 0)) :=
  ⟨⟨upState.modTile 3 (fun x => { x with vregs := [(128 * 4 + 5, 0x11223344), (128 * 4 + 127, 0xFFFF0001)], cclk0 := 7 }), 3, 5, 4, 127, by decide⟩,
    ⟨upState.modTile 3 (fun x => { x with vregs := [(128 * 4 + 5, 0x11223344), (128 * 4 + 127, 0xFFFF0001)], cclk0 := 7 }), 3, 5, 4, 255, by decide⟩,
    ⟨upState.modTile 3 (fun x => { x with vregs := [(128 * 4 + 5, 0x11223344), (128 * 4 + 127, 0xFFFF0001)], cclk0 := 7 }), 3, 5, 4, 128, by decide⟩,
    ⟨{ upState.modTile 3 (fun x => { x with vregs := [(128 * 4 + 5, 0x11223344), (128 * 4 + 127, 0xFFFF0001)], cclk0 := 7 }) with cclkW := 90 }, 3, 5, 2, by decide⟩,
    ⟨{ upState with issue := { State.reset.issue with period := 9 }, tiles := [(3, { Tile.reset with tracked := [⟨false, some 5, 2, 1, some 9, 0, 0, [], none⟩] })] }, 3, 1, 5, 2, by decide⟩,
    ⟨upState.modTile 3 (fun x => { x with sregs := [(2, 9)], due := [⟨2, 0, .sreg 5 77⟩] }), 3, 5, 0, 77, by decide⟩⟩

theorem witness_VectorArithmeticResults :
    (∃ (s : State) (n : TileId) (ty : VType) (vd va vb : Reg) (mask : Fin 8), (s.domOn n.val = true) ∧ (s.marked n.val true va.val = false) ∧ (s.marked n.val true vb.val = false)) ∧
    (∃ (s : State) (n : TileId) (ty : VType) (vd va vb : Reg) (mask : Fin 8), (s.domOn n.val = true) ∧ (s.marked n.val true va.val = false) ∧ (s.marked n.val true vb.val = false)) ∧
    (∃ (s : State) (n : TileId) (ty : VType) (vd va vb : Reg) (mask : Fin 8), (s.domOn n.val = true) ∧ (s.marked n.val true va.val = false) ∧ (s.marked n.val true vb.val = false) ∧ (ty ≠ .int32)) ∧
    (∃ (s : State) (n : TileId) (ty : VType) (vd va vb : Reg) (mask : Fin 8), (s.domOn n.val = true) ∧ (s.marked n.val true va.val = false) ∧ (s.marked n.val true vb.val = false)) ∧
    (∃ (s : State) (n : TileId) (ty : VType) (vd va vb : Reg) (mask : Fin 8), (s.domOn n.val = true) ∧ (s.marked n.val true va.val = false) ∧ (s.marked n.val true vb.val = false)) ∧
    (∃ (s : State) (n : TileId) (ty : VType) (vd va vb vc : Reg) (mask : Fin 8) (neg : Bool), (s.domOn n.val = true) ∧ (s.marked n.val true va.val = false) ∧ (s.marked n.val true vb.val = false) ∧ (s.marked n.val true vc.val = false) ∧ (ty ≠ .int32)) ∧
    (∃ (s : State) (n : TileId) (ty : VType) (vd va vb : Reg) (mask : Fin 8) (k : Fin 16), (s.domOn n.val = true) ∧ (s.marked n.val true va.val = false) ∧ (s.marked n.val true vb.val = false) ∧ (ty ≠ .int32)) ∧
    (∃ (s : State) (n : TileId) (ty : VType) (vd va vb : Reg) (mask : Fin 8) (k : Fin 16), (s.domOn n.val = true) ∧ (s.marked n.val true va.val = false) ∧ (s.marked n.val true vb.val = false) ∧ (ty ≠ .int32)) ∧
    (∃ (s : State) (n : TileId) (ty : VType) (vd va vb : Reg) (mask : Fin 8) (k : Fin 16), (s.domOn n.val = true) ∧ (s.marked n.val true va.val = false) ∧ (s.marked n.val true vb.val = false) ∧ (ty ≠ .int32) ∧ (k.val ≤ 14)) ∧
    (∃ (s : State) (n : TileId) (ty : VType) (vd va : Reg) (mask : Fin 8), (s.domOn n.val = true) ∧ (s.marked n.val true va.val = false) ∧ (ty ≠ .int32)) ∧
    (∃ (s : State) (n : TileId) (ty : VType) (vd va : Reg) (mask : Fin 8), (s.domOn n.val = true) ∧ (s.marked n.val true va.val = false) ∧ (ty ≠ .int32)) ∧
    (∃ (s : State) (n : TileId) (ty : VType) (vd va : Reg) (mask : Fin 8), (s.domOn n.val = true) ∧ (s.marked n.val true va.val = false) ∧ (ty ≠ .int32)) ∧
    (∃ (s : State) (n : TileId) (ty : VType) (vd va : Reg) (mask : Fin 8), (s.domOn n.val = true) ∧ (s.marked n.val true va.val = false) ∧ (ty ≠ .int32)) ∧
    (∃ (s : State) (n : TileId) (ty : VType) (vd va : Reg) (mask : Fin 8), (s.domOn n.val = true) ∧ (s.marked n.val true va.val = false) ∧ (ty ≠ .int32)) :=
  ⟨⟨upState.modTile 3 (fun x => { x with sregs := [(1, 0x3F803F80), (2, 0x80)], vregs := [(128 * 1, 0x3F800000), (128 * 1 + 1, 0x40400000), (128 * 1 + 2, 0xFFFFFFFF), (128 * 1 + 127, 0x7F800000), (128 * 2, 0x40000000), (128 * 2 + 1, 0xBF80C000), (128 * 2 + 2, 1), (128 * 2 + 127, 0xFF800000), (128 * 3, 0x3F80)], masks := [(2, 0x80000000000000000000000000000005)] }), 3, .fp32, 3, 1, 2, 0, by decide⟩,
    ⟨upState.modTile 3 (fun x => { x with sregs := [(1, 0x3F803F80), (2, 0x80)], vregs := [(128 * 1, 0x3F800000), (128 * 1 + 1, 0x40400000), (128 * 1 + 2, 0xFFFFFFFF), (128 * 1 + 127, 0x7F800000), (128 * 2, 0x40000000), (128 * 2 + 1, 0xBF80C000), (128 * 2 + 2, 1), (128 * 2 + 127, 0xFF800000), (128 * 3, 0x3F80)], masks := [(2, 0x80000000000000000000000000000005)] }), 3, .fp32, 3, 1, 2, 0, by decide⟩,
    ⟨upState.modTile 3 (fun x => { x with sregs := [(1, 0x3F803F80), (2, 0x80)], vregs := [(128 * 1, 0x3F800000), (128 * 1 + 1, 0x40400000), (128 * 1 + 2, 0xFFFFFFFF), (128 * 1 + 127, 0x7F800000), (128 * 2, 0x40000000), (128 * 2 + 1, 0xBF80C000), (128 * 2 + 2, 1), (128 * 2 + 127, 0xFF800000), (128 * 3, 0x3F80)], masks := [(2, 0x80000000000000000000000000000005)] }), 3, .fp32, 3, 1, 2, 0, by decide⟩,
    ⟨upState.modTile 3 (fun x => { x with sregs := [(1, 0x3F803F80), (2, 0x80)], vregs := [(128 * 1, 0x3F800000), (128 * 1 + 1, 0x40400000), (128 * 1 + 2, 0xFFFFFFFF), (128 * 1 + 127, 0x7F800000), (128 * 2, 0x40000000), (128 * 2 + 1, 0xBF80C000), (128 * 2 + 2, 1), (128 * 2 + 127, 0xFF800000), (128 * 3, 0x3F80)], masks := [(2, 0x80000000000000000000000000000005)] }), 3, .fp32, 3, 1, 2, 0, by decide⟩,
    ⟨upState.modTile 3 (fun x => { x with sregs := [(1, 0x3F803F80), (2, 0x80)], vregs := [(128 * 1, 0x3F800000), (128 * 1 + 1, 0x40400000), (128 * 1 + 2, 0xFFFFFFFF), (128 * 1 + 127, 0x7F800000), (128 * 2, 0x40000000), (128 * 2 + 1, 0xBF80C000), (128 * 2 + 2, 1), (128 * 2 + 127, 0xFF800000), (128 * 3, 0x3F80)], masks := [(2, 0x80000000000000000000000000000005)] }), 3, .fp32, 3, 1, 2, 0, by decide⟩,
    ⟨upState.modTile 3 (fun x => { x with sregs := [(1, 0x3F803F80), (2, 0x80)], vregs := [(128 * 1, 0x3F800000), (128 * 1 + 1, 0x40400000), (128 * 1 + 2, 0xFFFFFFFF), (128 * 1 + 127, 0x7F800000), (128 * 2, 0x40000000), (128 * 2 + 1, 0xBF80C000), (128 * 2 + 2, 1), (128 * 2 + 127, 0xFF800000), (128 * 3, 0x3F80)], masks := [(2, 0x80000000000000000000000000000005)] }), 3, .fp32, 3, 1, 2, 3, 0, false, by decide⟩,
    ⟨upState.modTile 3 (fun x => { x with sregs := [(1, 0x3F803F80), (2, 0x80)], vregs := [(128 * 1, 0x3F800000), (128 * 1 + 1, 0x40400000), (128 * 1 + 2, 0xFFFFFFFF), (128 * 1 + 127, 0x7F800000), (128 * 2, 0x40000000), (128 * 2 + 1, 0xBF80C000), (128 * 2 + 2, 1), (128 * 2 + 127, 0xFF800000), (128 * 3, 0x3F80)], masks := [(2, 0x80000000000000000000000000000005)] }), 3, .fp32, 3, 1, 2, 0, 3, by decide⟩,
    ⟨upState.modTile 3 (fun x => { x with sregs := [(1, 0x3F803F80), (2, 0x80)], vregs := [(128 * 1, 0x3F800000), (128 * 1 + 1, 0x40400000), (128 * 1 + 2, 0xFFFFFFFF), (128 * 1 + 127, 0x7F800000), (128 * 2, 0x40000000), (128 * 2 + 1, 0xBF80C000), (128 * 2 + 2, 1), (128 * 2 + 127, 0xFF800000), (128 * 3, 0x3F80)], masks := [(2, 0x80000000000000000000000000000005)] }), 3, .fp32, 3, 1, 2, 0, 3, by decide⟩,
    ⟨upState.modTile 3 (fun x => { x with sregs := [(1, 0x3F803F80), (2, 0x80)], vregs := [(128 * 1, 0x3F800000), (128 * 1 + 1, 0x40400000), (128 * 1 + 2, 0xFFFFFFFF), (128 * 1 + 127, 0x7F800000), (128 * 2, 0x40000000), (128 * 2 + 1, 0xBF80C000), (128 * 2 + 2, 1), (128 * 2 + 127, 0xFF800000), (128 * 3, 0x3F80)], masks := [(2, 0x80000000000000000000000000000005)] }), 3, .fp32, 3, 1, 2, 0, 3, by decide⟩,
    ⟨upState.modTile 3 (fun x => { x with sregs := [(1, 0x3F803F80), (2, 0x80)], vregs := [(128 * 1, 0x3F800000), (128 * 1 + 1, 0x40400000), (128 * 1 + 2, 0xFFFFFFFF), (128 * 1 + 127, 0x7F800000), (128 * 2, 0x40000000), (128 * 2 + 1, 0xBF80C000), (128 * 2 + 2, 1), (128 * 2 + 127, 0xFF800000), (128 * 3, 0x3F80)], masks := [(2, 0x80000000000000000000000000000005)] }), 3, .fp32, 3, 1, 0, by decide⟩,
    ⟨upState.modTile 3 (fun x => { x with sregs := [(1, 0x3F803F80), (2, 0x80)], vregs := [(128 * 1, 0x3F800000), (128 * 1 + 1, 0x40400000), (128 * 1 + 2, 0xFFFFFFFF), (128 * 1 + 127, 0x7F800000), (128 * 2, 0x40000000), (128 * 2 + 1, 0xBF80C000), (128 * 2 + 2, 1), (128 * 2 + 127, 0xFF800000), (128 * 3, 0x3F80)], masks := [(2, 0x80000000000000000000000000000005)] }), 3, .fp32, 3, 1, 0, by decide⟩,
    ⟨upState.modTile 3 (fun x => { x with sregs := [(1, 0x3F803F80), (2, 0x80)], vregs := [(128 * 1, 0x3F800000), (128 * 1 + 1, 0x40400000), (128 * 1 + 2, 0xFFFFFFFF), (128 * 1 + 127, 0x7F800000), (128 * 2, 0x40000000), (128 * 2 + 1, 0xBF80C000), (128 * 2 + 2, 1), (128 * 2 + 127, 0xFF800000), (128 * 3, 0x3F80)], masks := [(2, 0x80000000000000000000000000000005)] }), 3, .fp32, 3, 1, 0, by decide⟩,
    ⟨upState.modTile 3 (fun x => { x with sregs := [(1, 0x3F803F80), (2, 0x80)], vregs := [(128 * 1, 0x3F800000), (128 * 1 + 1, 0x40400000), (128 * 1 + 2, 0xFFFFFFFF), (128 * 1 + 127, 0x7F800000), (128 * 2, 0x40000000), (128 * 2 + 1, 0xBF80C000), (128 * 2 + 2, 1), (128 * 2 + 127, 0xFF800000), (128 * 3, 0x3F80)], masks := [(2, 0x80000000000000000000000000000005)] }), 3, .fp32, 3, 1, 0, by decide⟩,
    ⟨upState.modTile 3 (fun x => { x with sregs := [(1, 0x3F803F80), (2, 0x80)], vregs := [(128 * 1, 0x3F800000), (128 * 1 + 1, 0x40400000), (128 * 1 + 2, 0xFFFFFFFF), (128 * 1 + 127, 0x7F800000), (128 * 2, 0x40000000), (128 * 2 + 1, 0xBF80C000), (128 * 2 + 2, 1), (128 * 2 + 127, 0xFF800000), (128 * 3, 0x3F80)], masks := [(2, 0x80000000000000000000000000000005)] }), 3, .fp32, 3, 1, 0, by decide⟩⟩

theorem witness_VectorComparesAndReductions :
    (∃ (s : State) (n : TileId) (ty : VType) (md : Fin 8) (va vb : Reg) (mask : Fin 8) (cond : Fin 4), (s.domOn n.val = true) ∧ (s.marked n.val true va.val = false) ∧ (s.marked n.val true vb.val = false) ∧ (ty ≠ .bf16) ∧ (md.val ≠ 0)) ∧
    (∃ (s : State) (n : TileId) (md : Fin 8) (va vb : Reg) (mask : Fin 8) (cond : Fin 4), (s.domOn n.val = true) ∧ (s.marked n.val true va.val = false) ∧ (s.marked n.val true vb.val = false) ∧ (md.val ≠ 0) ∧ (∀ i ∈ lanes, eCmp cond.val .bf16 ((s.vlane n.val va.val i) % 65536) ((s.vlane n.val vb.val i) % 65536) = eCmp cond.val .bf16 ((s.vlane n.val va.val i) / 65536) ((s.vlane n.val vb.val i) / 65536))) ∧
    (∃ (s : State) (n : TileId) (ty : VType) (vd va vb : Reg) (mask : Fin 8), (s.domOn n.val = true) ∧ (s.marked n.val true va.val = false) ∧ (s.marked n.val true vb.val = false) ∧ (mask.val ≠ 0)) ∧
    (∃ (s : State) (n : TileId) (ty tt : VType) (vd va : Reg) (mask : Fin 8), (s.domOn n.val = true) ∧ (s.marked n.val true va.val = false) ∧ ((ty == .bf16) = (tt == .bf16))) ∧
    (∃ (s : State) (n : TileId) (ty tt : VType) (vd va : Reg) (mask : Fin 8) (stoch : Bool), (s.canonical = true) ∧ (s.domOn n.val = true) ∧ (s.marked n.val true va.val = false)) ∧
    (∃ (s : State) (n : TileId) (ty : VType) (vd va : Reg) (mask : Fin 8) (op : Fin 4), (s.domOn n.val = true) ∧ (s.marked n.val true va.val = false) ∧ (ty ≠ .int32 ∨ op.val ≠ 3)) ∧
    (∃ (s : State) (n : TileId) (ty : VType) (vd va : Reg) (mask : Fin 8) (chain : Bool), (s.domOn n.val = true) ∧ (s.marked n.val true va.val = false) ∧ (ty ≠ .int32)) ∧
    (∃ (s : State) (n : TileId) (ty : VType) (vd va vb : Reg) (mask : Fin 8) (chain : Bool), (s.domOn n.val = true) ∧ (s.marked n.val true va.val = false) ∧ (s.marked n.val true vb.val = false) ∧ (ty ≠ .int32)) :=
  ⟨⟨upState.modTile 3 (fun x => { x with sregs := [(1, 0x3F803F80), (2, 0x80)], vregs := [(128 * 1, 0x3F800000), (128 * 1 + 1, 0x40400000), (128 * 1 + 2, 0xFFFFFFFF), (128 * 1 + 127, 0x7F800000), (128 * 2, 0x40000000), (128 * 2 + 1, 0xBF80C000), (128 * 2 + 2, 1), (128 * 2 + 127, 0xFF800000), (128 * 3, 0x3F80)], masks := [(2, 0x80000000000000000000000000000005)] }), 3, .fp32, 1, 1, 2, 0, 2, by decide⟩,
    ⟨upState.modTile 3 (fun x => { x with sregs := [(1, 0x3F803F80), (2, 0x80)], vregs := [(128 * 1, 0x3F800000), (128 * 1 + 1, 0x40400000), (128 * 1 + 2, 0xFFFFFFFF), (128 * 1 + 127, 0x7F800000), (128 * 2, 0x40000000), (128 * 2 + 1, 0xBF80C000), (128 * 2 + 2, 1), (128 * 2 + 127, 0xFF800000), (128 * 3, 0x3F80)], masks := [(2, 0x80000000000000000000000000000005)] }), 3, 1, 5, 6, 0, 2, by decide⟩,
    ⟨upState.modTile 3 (fun x => { x with sregs := [(1, 0x3F803F80), (2, 0x80)], vregs := [(128 * 1, 0x3F800000), (128 * 1 + 1, 0x40400000), (128 * 1 + 2, 0xFFFFFFFF), (128 * 1 + 127, 0x7F800000), (128 * 2, 0x40000000), (128 * 2 + 1, 0xBF80C000), (128 * 2 + 2, 1), (128 * 2 + 127, 0xFF800000), (128 * 3, 0x3F80)], masks := [(2, 0x80000000000000000000000000000005)] }), 3, .fp32, 3, 1, 2, 2, by decide⟩,
    ⟨upState.modTile 3 (fun x => { x with sregs := [(1, 0x3F803F80), (2, 0x80)], vregs := [(128 * 1, 0x3F800000), (128 * 1 + 1, 0x40400000), (128 * 1 + 2, 0xFFFFFFFF), (128 * 1 + 127, 0x7F800000), (128 * 2, 0x40000000), (128 * 2 + 1, 0xBF80C000), (128 * 2 + 2, 1), (128 * 2 + 127, 0xFF800000), (128 * 3, 0x3F80)], masks := [(2, 0x80000000000000000000000000000005)] }), 3, .int32, .fp32, 3, 1, 0, by decide⟩,
    ⟨upState.modTile 3 (fun x => { x with sregs := [(1, 0x3F803F80), (2, 0x80)], vregs := [(128 * 1, 0x3F800000), (128 * 1 + 1, 0x40400000), (128 * 1 + 2, 0xFFFFFFFF), (128 * 1 + 127, 0x7F800000), (128 * 2, 0x40000000), (128 * 2 + 1, 0xBF80C000), (128 * 2 + 2, 1), (128 * 2 + 127, 0xFF800000), (128 * 3, 0x3F80)], masks := [(2, 0x80000000000000000000000000000005)] }), 3, .bf16, .fp32, 3, 1, 0, true, by decide⟩,
    ⟨upState.modTile 3 (fun x => { x with sregs := [(1, 0x3F803F80), (2, 0x80)], vregs := [(128 * 1, 0x3F800000), (128 * 1 + 1, 0x40400000), (128 * 1 + 2, 0xFFFFFFFF), (128 * 1 + 127, 0x7F800000), (128 * 2, 0x40000000), (128 * 2 + 1, 0xBF80C000), (128 * 2 + 2, 1), (128 * 2 + 127, 0xFF800000), (128 * 3, 0x3F80)], masks := [(2, 0x80000000000000000000000000000005)] }), 3, .fp32, 3, 1, 0, 0, by decide⟩,
    ⟨upState.modTile 3 (fun x => { x with sregs := [(1, 0x3F803F80), (2, 0x80)], vregs := [(128 * 1, 0x3F800000), (128 * 1 + 1, 0x40400000), (128 * 1 + 2, 0xFFFFFFFF), (128 * 1 + 127, 0x7F800000), (128 * 2, 0x40000000), (128 * 2 + 1, 0xBF80C000), (128 * 2 + 2, 1), (128 * 2 + 127, 0xFF800000), (128 * 3, 0x3F80)], masks := [(2, 0x80000000000000000000000000000005)] }), 3, .fp32, 3, 1, 0, false, by decide⟩,
    ⟨upState.modTile 3 (fun x => { x with sregs := [(1, 0x3F803F80), (2, 0x80)], vregs := [(128 * 1, 0x3F800000), (128 * 1 + 1, 0x40400000), (128 * 1 + 2, 0xFFFFFFFF), (128 * 1 + 127, 0x7F800000), (128 * 2, 0x40000000), (128 * 2 + 1, 0xBF80C000), (128 * 2 + 2, 1), (128 * 2 + 127, 0xFF800000), (128 * 3, 0x3F80)], masks := [(2, 0x80000000000000000000000000000005)] }), 3, .fp32, 3, 1, 2, 0, false, by decide⟩⟩

theorem witness_VectorMemoryAndQuantiser :
    (∃ (s : State) (n : TileId) (ty : VType) (v sa : Reg) (part : Fin 8) (imm : BitVec 11), (s.domOn n.val = true) ∧ (s.marked n.val false sa.val = false) ∧ (((sval s n sa.val + 64 * imm.signExtend 64).toNat) % 64 = 0) ∧ (((sval s n sa.val + 64 * imm.signExtend 64).toNat) + 64 ≤ 0x300000) ∧ (soundStore s = true) ∧ (s.bankOn n.val (((sval s n sa.val + 64 * imm.signExtend 64).toNat) / 0x30000) = true)) ∧
    (∃ (s : State) (n : TileId) (ty : VType) (v sa : Reg) (part : Fin 8) (imm : BitVec 11), (s.domOn n.val = true) ∧ (s.marked n.val false sa.val = false) ∧ (((sval s n sa.val + 64 * imm.signExtend 64).toNat) % 64 = 0) ∧ (((sval s n sa.val + 64 * imm.signExtend 64).toNat) + 64 ≤ 0x300000) ∧ (soundStore s = true) ∧ (s.bankOn n.val (((sval s n sa.val + 64 * imm.signExtend 64).toNat) / 0x30000) = true) ∧ (s.marked n.val true v.val = false)) ∧
    (∃ (s : State) (n : TileId) (ty : VType) (vd sa : Reg), (s.domOn n.val = true) ∧ (s.marked n.val false sa.val = false)) ∧
    (∃ (s : State) (n : TileId) (k : Fin 16) (sa : Reg), (s.domOn n.val = true) ∧ (s.marked n.val false sa.val = false)) ∧
    (∃ (s : State) (n : TileId) (vd va vb : Reg) (mask : Fin 8), (s.canonical = true) ∧ (s.domOn n.val = true) ∧ (s.marked n.val true va.val = false) ∧ (s.marked n.val true vb.val = false) ∧ (fmtOk (s.chanCfg n.val (s.get (Reg.QUANT.VQ_SEL.CH n.val))).fmt (s.chanCfg n.val (s.get (Reg.QUANT.VQ_SEL.CH n.val))).sfmt false = true) ∧ ((s.chanCfg n.val (s.get (Reg.QUANT.VQ_SEL.CH n.val))).gsize ≠ 3)) ∧
    (∃ (s : State) (n : TileId) (vd va vb : Reg) (mask : Fin 8), (s.canonical = true) ∧ (s.domOn n.val = true) ∧ (s.marked n.val true va.val = false) ∧ (fmtOk (s.chanCfg n.val (s.get (Reg.QUANT.VQ_SEL.CH n.val))).fmt (s.chanCfg n.val (s.get (Reg.QUANT.VQ_SEL.CH n.val))).sfmt false = true) ∧ ((s.chanCfg n.val (s.get (Reg.QUANT.VQ_SEL.CH n.val))).gsize ≠ 3) ∧ ((s.chanCfg n.val (s.get (Reg.QUANT.VQ_SEL.CH n.val))).rnd ≤ 1)) :=
  ⟨⟨{ upState.modTile 3 (fun x => { x with sregs := [(1, 0x3F803F80), (2, 0x80)], vregs := [(128 * 1, 0x3F800000), (128 * 1 + 1, 0x40400000), (128 * 1 + 2, 0xFFFFFFFF), (128 * 1 + 127, 0x7F800000), (128 * 2, 0x40000000), (128 * 2 + 1, 0xBF80C000), (128 * 2 + 2, 1), (128 * 2 + 127, 0xFF800000), (128 * 3, 0x3F80)], masks := [(2, 0x80000000000000000000000000000005)] }) with mem := [(12582976, 136), (12582977, 119), (12582978, 102), (12582979, 85), (12582980, 68), (12582981, 51), (12582982, 34), (12582983, 17)] }, 3, .fp32, 4, 2, 7, 0x7FF, by decide⟩,
    ⟨upState.modTile 3 (fun x => { x with sregs := [(1, 0x3F803F80), (2, 0x80)], vregs := [(128 * 1, 0x3F800000), (128 * 1 + 1, 0x40400000), (128 * 1 + 2, 0xFFFFFFFF), (128 * 1 + 127, 0x7F800000), (128 * 2, 0x40000000), (128 * 2 + 1, 0xBF80C000), (128 * 2 + 2, 1), (128 * 2 + 127, 0xFF800000), (128 * 3, 0x3F80)], masks := [(2, 0x80000000000000000000000000000005)] }), 3, .fp32, 1, 2, 7, 0x7FF, by decide⟩,
    ⟨upState.modTile 3 (fun x => { x with sregs := [(1, 0x3F803F80), (2, 0x80)], vregs := [(128 * 1, 0x3F800000), (128 * 1 + 1, 0x40400000), (128 * 1 + 2, 0xFFFFFFFF), (128 * 1 + 127, 0x7F800000), (128 * 2, 0x40000000), (128 * 2 + 1, 0xBF80C000), (128 * 2 + 2, 1), (128 * 2 + 127, 0xFF800000), (128 * 3, 0x3F80)], masks := [(2, 0x80000000000000000000000000000005)] }), 3, .fp32, 3, 1, by decide⟩,
    ⟨upState.modTile 3 (fun x => { x with sregs := [(1, 0x3F803F80), (2, 0x80)], vregs := [(128 * 1, 0x3F800000), (128 * 1 + 1, 0x40400000), (128 * 1 + 2, 0xFFFFFFFF), (128 * 1 + 127, 0x7F800000), (128 * 2, 0x40000000), (128 * 2 + 1, 0xBF80C000), (128 * 2 + 2, 1), (128 * 2 + 127, 0xFF800000), (128 * 3, 0x3F80)], masks := [(2, 0x80000000000000000000000000000005)] }), 3, 4, 1, by decide⟩,
    ⟨((upState.modTile 3 (fun x => { x with sregs := [(1, 0x3F803F80), (2, 0x80)], vregs := [(128 * 1, 0x3F800000), (128 * 1 + 1, 0x40400000), (128 * 1 + 2, 0xFFFFFFFF), (128 * 1 + 127, 0x7F800000), (128 * 2, 0x40000000), (128 * 2 + 1, 0xBF80C000), (128 * 2 + 2, 1), (128 * 2 + 127, 0xFF800000), (128 * 3, 0x3F80)], masks := [(2, 0x80000000000000000000000000000005)] })).put (Reg.QUANT.CH_CFG.FMT 3 0) 1).put (Reg.QUANT.CH_CFG.SFMT 3 0) 1 |>.put (Reg.QUANT.CH_CFG.GSIZE 3 0) 1, 3, 3, 1, 2, 0, by decide⟩,
    ⟨((upState.modTile 3 (fun x => { x with sregs := [(1, 0x3F803F80), (2, 0x80)], vregs := [(128 * 1, 0x3F800000), (128 * 1 + 1, 0x40400000), (128 * 1 + 2, 0xFFFFFFFF), (128 * 1 + 127, 0x7F800000), (128 * 2, 0x40000000), (128 * 2 + 1, 0xBF80C000), (128 * 2 + 2, 1), (128 * 2 + 127, 0xFF800000), (128 * 3, 0x3F80)], masks := [(2, 0x80000000000000000000000000000005)] })).put (Reg.QUANT.CH_CFG.FMT 3 0) 1).put (Reg.QUANT.CH_CFG.SFMT 3 0) 1 |>.put (Reg.QUANT.CH_CFG.GSIZE 3 0) 1, 3, 3, 1, 2, 0, by decide⟩⟩

theorem witness_VectorIllegalForms :
    (∃ (s : State) (n : TileId) (vd va vb : Reg) (mask : Fin 8), (s.canonical = true) ∧ (s.domOn n.val = true) ∧ (s.laneHeld n.val = false)) ∧
    (∃ (s : State) (n : TileId) (vd va vb vc : Reg) (mask : Fin 8), (s.canonical = true) ∧ (s.domOn n.val = true) ∧ (s.laneHeld n.val = false)) ∧
    (∃ (s : State) (n : TileId) (vd va : Reg) (mask : Fin 8), (s.canonical = true) ∧ (s.domOn n.val = true) ∧ (s.laneHeld n.val = false)) ∧
    (∃ (s : State) (n : TileId) (vd va : Reg) (mask : Fin 8), (s.canonical = true) ∧ (s.domOn n.val = true) ∧ (s.laneHeld n.val = false)) ∧
    (∃ (s : State) (n : TileId) (ty : VType) (va vb : Reg) (mask : Fin 8) (cond : Fin 4), (s.canonical = true) ∧ (s.domOn n.val = true) ∧ (s.laneHeld n.val = false)) ∧
    (∃ (s : State) (n : TileId) (ty : VType) (vd va vb : Reg), (s.canonical = true) ∧ (s.domOn n.val = true) ∧ (s.laneHeld n.val = false)) ∧
    (∃ (s : State) (n : TileId) (ty : VType) (vd va vb : Reg) (mask : Fin 8), (s.canonical = true) ∧ (s.domOn n.val = true) ∧ (s.laneHeld n.val = false)) :=
  ⟨⟨upState.modTile 3 (fun x => { x with sregs := [(1, 0x3F803F80), (2, 0x80)], vregs := [(128 * 1, 0x3F800000), (128 * 1 + 1, 0x40400000), (128 * 1 + 2, 0xFFFFFFFF), (128 * 1 + 127, 0x7F800000), (128 * 2, 0x40000000), (128 * 2 + 1, 0xBF80C000), (128 * 2 + 2, 1), (128 * 2 + 127, 0xFF800000), (128 * 3, 0x3F80)], masks := [(2, 0x80000000000000000000000000000005)] }), 3, 3, 1, 2, 0, by decide⟩,
    ⟨upState.modTile 3 (fun x => { x with sregs := [(1, 0x3F803F80), (2, 0x80)], vregs := [(128 * 1, 0x3F800000), (128 * 1 + 1, 0x40400000), (128 * 1 + 2, 0xFFFFFFFF), (128 * 1 + 127, 0x7F800000), (128 * 2, 0x40000000), (128 * 2 + 1, 0xBF80C000), (128 * 2 + 2, 1), (128 * 2 + 127, 0xFF800000), (128 * 3, 0x3F80)], masks := [(2, 0x80000000000000000000000000000005)] }), 3, 3, 1, 2, 4, 0, by decide⟩,
    ⟨upState.modTile 3 (fun x => { x with sregs := [(1, 0x3F803F80), (2, 0x80)], vregs := [(128 * 1, 0x3F800000), (128 * 1 + 1, 0x40400000), (128 * 1 + 2, 0xFFFFFFFF), (128 * 1 + 127, 0x7F800000), (128 * 2, 0x40000000), (128 * 2 + 1, 0xBF80C000), (128 * 2 + 2, 1), (128 * 2 + 127, 0xFF800000), (128 * 3, 0x3F80)], masks := [(2, 0x80000000000000000000000000000005)] }), 3, 3, 1, 0, by decide⟩,
    ⟨upState.modTile 3 (fun x => { x with sregs := [(1, 0x3F803F80), (2, 0x80)], vregs := [(128 * 1, 0x3F800000), (128 * 1 + 1, 0x40400000), (128 * 1 + 2, 0xFFFFFFFF), (128 * 1 + 127, 0x7F800000), (128 * 2, 0x40000000), (128 * 2 + 1, 0xBF80C000), (128 * 2 + 2, 1), (128 * 2 + 127, 0xFF800000), (128 * 3, 0x3F80)], masks := [(2, 0x80000000000000000000000000000005)] }), 3, 3, 1, 0, by decide⟩,
    ⟨upState.modTile 3 (fun x => { x with sregs := [(1, 0x3F803F80), (2, 0x80)], vregs := [(128 * 1, 0x3F800000), (128 * 1 + 1, 0x40400000), (128 * 1 + 2, 0xFFFFFFFF), (128 * 1 + 127, 0x7F800000), (128 * 2, 0x40000000), (128 * 2 + 1, 0xBF80C000), (128 * 2 + 2, 1), (128 * 2 + 127, 0xFF800000), (128 * 3, 0x3F80)], masks := [(2, 0x80000000000000000000000000000005)] }), 3, .fp32, 1, 2, 0, 0, by decide⟩,
    ⟨upState.modTile 3 (fun x => { x with sregs := [(1, 0x3F803F80), (2, 0x80)], vregs := [(128 * 1, 0x3F800000), (128 * 1 + 1, 0x40400000), (128 * 1 + 2, 0xFFFFFFFF), (128 * 1 + 127, 0x7F800000), (128 * 2, 0x40000000), (128 * 2 + 1, 0xBF80C000), (128 * 2 + 2, 1), (128 * 2 + 127, 0xFF800000), (128 * 3, 0x3F80)], masks := [(2, 0x80000000000000000000000000000005)] }), 3, .fp32, 3, 1, 2, by decide⟩,
    ⟨upState.modTile 3 (fun x => { x with sregs := [(1, 0x3F803F80), (2, 0x80)], vregs := [(128 * 1, 0x3F800000), (128 * 1 + 1, 0x40400000), (128 * 1 + 2, 0xFFFFFFFF), (128 * 1 + 127, 0x7F800000), (128 * 2, 0x40000000), (128 * 2 + 1, 0xBF80C000), (128 * 2 + 2, 1), (128 * 2 + 127, 0xFF800000), (128 * 3, 0x3F80)], masks := [(2, 0x80000000000000000000000000000005)] }), 3, .fp32, 3, 1, 2, 0, by decide⟩⟩

theorem witness_MatrixArrayAndScale :
    (∃ (s : State) (n : TileId) (d : Fin 16), (s.canonical = true) ∧ (s.domOn n.val = true) ∧ (s.isEnabled (tilePg n.val 5) = true) ∧ ((s.tile n.val).arr.swapPend = false) ∧ ((s.tile n.val).arr.loaderFree ≤ s.issue.period) ∧ (fmtOk (s.get (Reg.ARRAY.DESC_W0.B_FMT n.val d.val)) (s.get (Reg.ARRAY.DESC_W0.B_SFMT n.val d.val)) false = true) ∧ ((s.get (Reg.ARRAY.DESC_W0.GSIZE n.val d.val)) ≠ 3) ∧ ((s.get (Reg.ARRAY.DESC_W4.B_ADDR n.val d.val)) % 64 = 0) ∧ ((s.get (Reg.ARRAY.DESC_W5.B_SCL n.val d.val)) % 64 = 0) ∧ ((s.get (Reg.ARRAY.DESC_W4.B_ADDR n.val d.val)) + 32 * 64 + 0x30000 ≤ 0x300000) ∧ ((s.get (Reg.ARRAY.DESC_W5.B_SCL n.val d.val)) + 64 ≤ 0x300000)) ∧
    (∃ (s : State) (n : TileId), (s.domOn n.val = true) ∧ (s.isEnabled (tilePg n.val 5) = true) ∧ ((s.tile n.val).arr.swapPend = false) ∧ ((s.tile n.val).arr.loaderFree ≤ s.issue.period) ∧ ((s.tile n.val).arr.streamerFree ≤ s.issue.period)) ∧
    (∃ (s : State) (n : TileId), (s.domOn n.val = true) ∧ (s.isEnabled (tilePg n.val 5) = true) ∧ ((s.tile n.val).arr.swapPend = false) ∧ ((s.tile n.val).arr.loaderFree ≤ s.issue.period) ∧ (s.issue.period < (s.tile n.val).arr.streamerFree)) ∧
    (∃ (s : State) (n : TileId), (s.domOn n.val = true) ∧ ((s.tile n.val).arr.swapPend = true) ∧ ((s.tile n.val).arr.streamerFree ≤ s.issue.period)) ∧
    (∃ (s : State) (n : TileId) (d : Fin 16) (k : BitVec 8), (s.canonical = true) ∧ (s.domOn n.val = true) ∧ (s.isEnabled (tilePg n.val 5) = true) ∧ ((s.tile n.val).arr.swapPend = false) ∧ ((s.tile n.val).arr.streamerFree ≤ s.issue.period) ∧ (fmtOk (s.get (Reg.ARRAY.DESC_W0.A_FMT n.val d.val)) (s.get (Reg.ARRAY.DESC_W0.A_SFMT n.val d.val)) false = true) ∧ ((s.get (Reg.ARRAY.DESC_W0.GSIZE n.val d.val)) ≠ 3) ∧ ((s.get (Reg.ARRAY.DESC_W1.A_ADDR n.val d.val)) % 64 = 0) ∧ ((s.get (Reg.ARRAY.DESC_W1.A_ADDR n.val d.val)) + 64 * (s.get (Reg.ARRAY.DESC_W2.A_STRIDE n.val d.val)) * k.toNat + 64 + 0x30000 ≤ 0x300000) ∧ ((s.get (Reg.ARRAY.DESC_W3.A_SCL n.val d.val)) + 2 * (k.toNat + 1) ≤ 0x300000) ∧ ((s.get (Reg.ARRAY.DESC_W6.ACC_BASE n.val d.val)) + k.toNat + 1 ≤ 512) ∧ ((s.activeBlock n.val).gsize = some (s.get (Reg.ARRAY.DESC_W0.GSIZE n.val d.val)))) ∧
    (∃ (s : State) (n : TileId) (d : Fin 16) (k : BitVec 8), (s.domOn n.val = true) ∧ (s.isEnabled (tilePg n.val 5) = true) ∧ ((s.tile n.val).arr.swapPend = false) ∧ ((s.tile n.val).arr.streamerFree ≤ s.issue.period) ∧ ((s.get (Reg.ARRAY.DESC_W6.ACC_BASE n.val d.val)) + k.toNat + 1 ≤ 512)) ∧
    (∃ (s : State) (n : TileId) (d : Fin 16), (s.canonical = true) ∧ (s.domOn n.val = true) ∧ (s.isEnabled (tilePg n.val 5) = true) ∧ ((s.tile n.val).arr.drainerFree ≤ s.issue.period) ∧ (fmtOk (s.chanCfg n.val (s.get (Reg.ARRAY.DESC_W0.QCH n.val d.val))).fmt (s.chanCfg n.val (s.get (Reg.ARRAY.DESC_W0.QCH n.val d.val))).sfmt true = true) ∧ (7 ≤ (s.chanCfg n.val (s.get (Reg.ARRAY.DESC_W0.QCH n.val d.val))).fmt) ∧ ((s.chanCfg n.val (s.get (Reg.ARRAY.DESC_W0.QCH n.val d.val))).rnd ≤ 1) ∧ ((s.get (Reg.ARRAY.DESC_W7.OUT_ADDR n.val d.val)) % 64 = 0) ∧ ((s.get (Reg.ARRAY.DESC_W7.OUT_ADDR n.val d.val)) + 0x30040 ≤ 0x300000) ∧ ((s.tile n.val).arr.outBuf = [])) ∧
    (∃ (s : State) (n : TileId) (d : Fin 16), (s.canonical = true) ∧ (s.domOn n.val = true) ∧ (s.isEnabled (tilePg n.val 5) = false) ∧ ((s.tile n.val).arr.swapPend = false) ∧ (s.get (Reg.ARRAY.ARR_FAULT.CODE n.val) = 0)) ∧
    (∃ (s : State) (src : Source) (n : TileId) (v : Word64), (s.canonical = true) ∧ ((src == .host && s.hostWaits) = false) ∧ (s.answers src (tilePg n.val 6 + 0x40) = true)) ∧
    (∃ (s : State), (s.canonical = true) ∧ (s.answers .bridge (pgSCALE + 0x44) = true) ∧ (s.isEnabled pgSCALE = true) ∧ (s.get Reg.SCALE.STAT.ACTIVE = 0)) ∧
    (∃ (s : State), (s.canonical = true) ∧ (s.answers .bridge (pgSCALE + 0x44) = true) ∧ (s.isEnabled pgSCALE = true) ∧ (s.get Reg.SCALE.STAT.ACTIVE ≠ 0)) ∧
    (∃ (s : State) (k : Fin 64), (s.canonical = true) ∧ (s.get Reg.SCALE.STAT.ACTIVE ≠ 0) ∧ ((s.scaleTiles.any fun n => !s.scale.arrived.any fun r => r.1 == n) = false) ∧ (s.get Reg.SCALE.CFG.FLAG_EN = 0)) ∧
    (∃ (s : State), (s.canonical = true) ∧ (s.get Reg.SCALE.STAT.ACTIVE ≠ 0) ∧ ((s.scaleTiles.all fun n => s.scale.arrived.any fun r => r.1 == n) = false)) ∧
    (∃ (s : State) (src : Source), (s.canonical = true) ∧ ((src == .host && s.hostWaits) = false) ∧ (s.answers src (pgSCALE + 0x44) = true) ∧ (s.get Reg.SCALE.STAT.ACTIVE = 0) ∧ (s.isEnabled pgSCALE = true) ∧ (s.hostMode pgSCALE = true) ∧ (s.get Reg.SCALE.CFG.FLAG_EN = 0)) ∧
    (∃ (s : State) (src : Source), (s.canonical = true) ∧ ((src == .host && s.hostWaits) = false) ∧ (s.answers src (pgSCALE + 0x44) = true) ∧ (s.get Reg.SCALE.STAT.ACTIVE ≠ 0)) :=
  ⟨⟨((((upState.put (Reg.HDR.BLK_CTRL.EN (tilePg 3 5)) 1).put (Reg.ARRAY.DESC_W0.B_FMT 3 2) 7).put (Reg.ARRAY.DESC_W0.A_FMT 3 2) 7).put (Reg.ARRAY.DESC_W6.ACC_BASE 3 2) 5), 3, 2, by decide⟩,
    ⟨upState.put (Reg.HDR.BLK_CTRL.EN (tilePg 3 5)) 1, 3, by decide⟩,
    ⟨(upState.put (Reg.HDR.BLK_CTRL.EN (tilePg 3 5)) 1).modTile 3 (fun x => { x with arr := { x.arr with streamerFree := 5 } }), 3, by decide⟩,
    ⟨(upState.put (Reg.HDR.BLK_CTRL.EN (tilePg 3 5)) 1).modTile 3 (fun x => { x with arr := { x.arr with swapPend := true } }), 3, by decide⟩,
    ⟨(((((upState.put (Reg.HDR.BLK_CTRL.EN (tilePg 3 5)) 1).put (Reg.ARRAY.DESC_W0.B_FMT 3 2) 7).put (Reg.ARRAY.DESC_W0.A_FMT 3 2) 7).put (Reg.ARRAY.DESC_W6.ACC_BASE 3 2) 5)).modTile 3 (fun x => { x with arr := { x.arr with blk0 := ⟨[(0, 0x3F80)], some 0⟩ } }), 3, 2, 3, by decide⟩,
    ⟨((((upState.put (Reg.HDR.BLK_CTRL.EN (tilePg 3 5)) 1).put (Reg.ARRAY.DESC_W0.B_FMT 3 2) 7).put (Reg.ARRAY.DESC_W0.A_FMT 3 2) 7).put (Reg.ARRAY.DESC_W6.ACC_BASE 3 2) 5), 3, 2, 3, by decide⟩,
    ⟨(((((upState.put (Reg.HDR.BLK_CTRL.EN (tilePg 3 5)) 1).put (Reg.ARRAY.DESC_W0.B_FMT 3 2) 7).put (Reg.ARRAY.DESC_W0.A_FMT 3 2) 7).put (Reg.ARRAY.DESC_W6.ACC_BASE 3 2) 5)).put (Reg.QUANT.CH_CFG.FMT 3 0) 7, 3, 2, by decide⟩,
    ⟨upState, 3, 2, by decide⟩,
    ⟨upState.modTile 3 (fun x => { x with lfsr := 7 }), .host, 3, 0x1234, by decide⟩,
    ⟨((upState.put (Reg.HDR.BLK_CTRL.EN pgSCALE) 1).put (Reg.SCALE.TILE_MASK.TILES 0) 8), by decide⟩,
    ⟨((upState.put (Reg.HDR.BLK_CTRL.EN pgSCALE) 1).put (Reg.SCALE.TILE_MASK.TILES 0) 8).put Reg.SCALE.STAT.ACTIVE 1, by decide⟩,
    ⟨{ ((upState.put (Reg.HDR.BLK_CTRL.EN pgSCALE) 1).put (Reg.SCALE.TILE_MASK.TILES 0) 8).put Reg.SCALE.STAT.ACTIVE 1 with scale := { State.reset.scale with arrived := [(3, [(0x3F800000, 5, 100)])] } }, 0, by decide⟩,
    ⟨((upState.put (Reg.HDR.BLK_CTRL.EN pgSCALE) 1).put (Reg.SCALE.TILE_MASK.TILES 0) 8).put Reg.SCALE.STAT.ACTIVE 1, by decide⟩,
    ⟨(((upState.put (Reg.HDR.BLK_CTRL.EN pgSCALE) 1).put (Reg.SCALE.TILE_MASK.TILES 0) 8).put (Reg.HDR.BLK_CTRL.MODE pgSCALE) 1).put (Reg.QUANT.CH_CFG.BOUND 3 1) 1 |>.put (Reg.SCALE.T_CFG.EN 0) 1 |>.put (Reg.SCALE.T_EXP.EXP 0) 0xFE000300, .host, by decide⟩,
    ⟨((upState.put (Reg.HDR.BLK_CTRL.EN pgSCALE) 1).put (Reg.SCALE.TILE_MASK.TILES 0) 8).put Reg.SCALE.STAT.ACTIVE 1, .host, by decide⟩⟩

theorem witness_MessagesMove :
    (∃ (s : State) (n : TileId) (mode : Fin 4) (rs : Reg) (nm1 : Fin 8) (ra rd : Reg) (tmo : BitVec 8) (k : Nat), (s.canonical = true) ∧ (s.domOn n.val = true) ∧ (mode.val ≠ 3) ∧ (rs.val + nm1.val ≤ 31) ∧ ((mode.val == 2) ≠ (tmo == 0)) ∧ (rd.val ≠ 0) ∧ (s.marked n.val false ra.val = false) ∧ (((List.range (nm1.val + 1)).any fun i => s.marked n.val false (rs.val + i)) = false) ∧ (bits (s.sreg n.val ra.val) 63 32 = 0) ∧ (bits (s.sreg n.val ra.val) 15 14 = 0) ∧ (((List.range 4).find? fun k => !(s.queue n.val).tx.any fun x => x.1 == k) = some k)) ∧
    (∃ (s : State) (n : TileId) (rs ra rd : Reg), (s.domOn n.val = true) ∧ (rd.val ≠ 0) ∧ (s.marked n.val false ra.val = false) ∧ (s.marked n.val false rs.val = false) ∧ (bits (s.sreg n.val ra.val) 63 32 = 0) ∧ (bits (s.sreg n.val ra.val) 15 14 = 0) ∧ (((List.range 4).all fun k => (s.queue n.val).tx.any fun x => x.1 == k) = true)) ∧
    (∃ (s : State) (n : TileId) (rd : Reg) (nm1 : Fin 8) (rs : Reg) (q : Fin 64) (m : QMsg), (s.domOn n.val = true) ∧ (rd.val + nm1.val ≤ 31) ∧ (rs.val ≠ 0) ∧ (rs.val < rd.val ∨ rd.val + nm1.val < rs.val) ∧ (((s.queue n.val).msgs.find? fun m => m.queue == q.val) = some m) ∧ ((s.queue n.val).flips = [])) ∧
    (∃ (s : State) (n : TileId) (rd : Reg) (nm1 : Fin 8) (rs : Reg) (q : Fin 64) (m : QMsg), (s.domOn n.val = true) ∧ (rd.val + nm1.val ≤ 31) ∧ (rs.val ≠ 0) ∧ (rs.val < rd.val ∨ rd.val + nm1.val < rs.val) ∧ (((s.queue n.val).msgs.find? fun m => m.queue == q.val) = some m) ∧ ((s.queue n.val).flips = [])) ∧
    (∃ (s : State) (n : TileId) (rd : Reg) (nm1 : Fin 8) (rs : Reg) (q : Fin 64) (m : QMsg), (s.domOn n.val = true) ∧ (rd.val + nm1.val ≤ 31) ∧ (rs.val ≠ 0) ∧ (rs.val < rd.val ∨ rd.val + nm1.val < rs.val) ∧ (((s.queue n.val).msgs.find? fun m => m.queue == q.val) = some m) ∧ ((s.queue n.val).flips = [])) ∧
    (∃ (s : State) (n : TileId) (rd : Reg) (nm1 : Fin 8) (rs : Reg) (q : Fin 64), (s.domOn n.val = true) ∧ (rd.val + nm1.val ≤ 31) ∧ (rs.val ≠ 0) ∧ (rs.val < rd.val ∨ rd.val + nm1.val < rs.val) ∧ (((s.queue n.val).msgs.find? fun m => m.queue == q.val) = none)) ∧
    (∃ (s : State) (ch : BitVec 16) (f : QFly), (s.canonical = true) ∧ (s.qnet.fly.find? (fun f => f.ch == ch.toNat) = some f) ∧ (s.netOn (tileHalf f.head.tile) = true) ∧ ((s.queue f.head.tile).held = none) ∧ (s.qDeadNow f.head.tile f.head.queue = false) ∧ (f.head.mode ≠ 3) ∧ (f.head.mode ≠ 2 ∨ f.head.tmo ≠ 0) ∧ (f.head.words ≠ []) ∧ (f.head.words.length ≤ 8) ∧ (s.get (Reg.QUEUE.QCFG.COMB f.head.tile f.head.queue) = 0) ∧ (s.get (Reg.QUEUE.QCFG.NOTIFY f.head.tile f.head.queue) = 0) ∧ (s.qOcc f.head.tile f.head.queue < 32)) ∧
    (∃ (s : State) (ch : BitVec 16) (f : QFly), (s.canonical = true) ∧ (s.qnet.fly.find? (fun f => f.ch == ch.toNat) = some f) ∧ (s.netOn (tileHalf f.head.tile) = true) ∧ ((s.queue f.head.tile).held = none) ∧ (s.qDeadNow f.head.tile f.head.queue = false) ∧ (f.head.mode = 0 ∨ (f.head.mode = 2 ∧ f.head.tmo ≠ 0)) ∧ (f.head.words ≠ []) ∧ (f.head.words.length ≤ 8) ∧ (s.get (Reg.QUEUE.QCFG.COMB f.head.tile f.head.queue) = 0) ∧ (32 ≤ s.qOcc f.head.tile f.head.queue)) ∧
    (∃ (s : State) (ch : BitVec 16) (f : QFly), (s.canonical = true) ∧ (s.qnet.fly.find? (fun f => f.ch == ch.toNat) = some f) ∧ (s.netOn (tileHalf f.head.tile) = true) ∧ ((s.queue f.head.tile).held = none) ∧ (s.qDeadNow f.head.tile f.head.queue = true) ∧ (s.pageUp (pageAt (State.pgQUEUE f.head.tile)) = true)) ∧
    (∃ (s : State) (n : TileId) (f : QFly), (s.canonical = true) ∧ ((s.queue n.val).held = some f) ∧ (f.comb = false) ∧ (s.get (Reg.QUEUE.QCFG.NOTIFY n.val f.head.queue) = 0) ∧ (s.qOcc n.val f.head.queue < 32)) ∧
    (∃ (s : State) (n : TileId) (f : QFly), (s.canonical = true) ∧ ((s.queue n.val).held = some f) ∧ (f.comb = false) ∧ (s.get (Reg.QUEUE.QCFG.NOTIFY n.val f.head.queue) = 0) ∧ (f.head.mode = 2) ∧ (32 ≤ s.qOcc n.val f.head.queue)) ∧
    (∃ (s : State) (n : TileId) (f : QFly), (s.canonical = true) ∧ ((s.queue n.val).held = some f) ∧ (f.comb = false) ∧ (s.get (Reg.QUEUE.QCFG.NOTIFY n.val f.head.queue) = 0) ∧ (f.head.mode = 2) ∧ (s.qOcc n.val f.head.queue < 32)) :=
  ⟨⟨State.modTile { (upState.put (Reg.HDR.BLK_CTRL.EN (State.pgQUEUE 3)) 1).put (Reg.QUEUE.QCFG.OPEN 3 5) 1 with qnet := { QNetS.reset with seq := 40 } } 3 (fun x => { x with sregs := [(1, 0x00010000 + 3 * 64 + 5), (8, 0x1111), (9, 0x2222)] }), 3, 0, 8, 1, 1, 4, 0, 0, by decide⟩,
    ⟨upState.modTile 3 (fun x => { x with queue := { QueueS.reset with tx := [(0, 1, 2), (1, 2, 2), (2, 3, 2), (3, 4, 2)] } }), 3, 8, 1, 4, by decide⟩,
    ⟨upState.modTile 3 (fun x => { x with queue := { QueueS.reset with msgs := [⟨6, 0, [1], 1, 0, 1, false, 0, false⟩, ⟨5, 2, [0x77, 0x88], 0x185, 9, 1, false, 0, false⟩] } }), 3, 10, 2, 5, 5, ⟨5, 2, [0x77, 0x88], 0x185, 9, 1, false, 0, false⟩, by decide⟩,
    ⟨upState.modTile 3 (fun x => { x with queue := { QueueS.reset with msgs := [⟨6, 0, [1], 1, 0, 1, false, 0, false⟩, ⟨5, 2, [0x77, 0x88], 0x185, 9, 1, false, 0, false⟩] } }), 3, 10, 2, 5, 5, ⟨5, 2, [0x77, 0x88], 0x185, 9, 1, false, 0, false⟩, by decide⟩,
    ⟨upState.modTile 3 (fun x => { x with queue := { QueueS.reset with msgs := [⟨6, 0, [1], 1, 0, 1, false, 0, false⟩, ⟨5, 2, [0x77, 0x88], 0x185, 9, 1, false, 0, false⟩] } }), 3, 10, 2, 5, 5, ⟨5, 2, [0x77, 0x88], 0x185, 9, 1, false, 0, false⟩, by decide⟩,
    ⟨upState.modTile 3 (fun x => { x with queue := { QueueS.reset with msgs := [⟨6, 0, [1], 1, 0, 1, false, 0, false⟩, ⟨5, 2, [0x77, 0x88], 0x185, 9, 1, false, 0, false⟩] } }), 3, 10, 2, 5, 7, by decide⟩,
    ⟨{ (upState.put (Reg.HDR.BLK_CTRL.EN (State.pgQUEUE 3)) 1).put (Reg.QUEUE.QCFG.OPEN 3 5) 1 with qnet := { QNetS.reset with seq := 41, fly := [⟨41, 0x180, ⟨3, 5, 0, 0, 1, [0x77]⟩, false⟩] } }, 0x180, ⟨41, 0x180, ⟨3, 5, 0, 0, 1, [0x77]⟩, false⟩, by decide⟩,
    ⟨State.modTile { (upState.put (Reg.HDR.BLK_CTRL.EN (State.pgQUEUE 3)) 1).put (Reg.QUEUE.QCFG.OPEN 3 5) 1 with qnet := { QNetS.reset with seq := 41, fly := [⟨41, 0x180, ⟨3, 5, 0, 0, 1, [0x77]⟩, false⟩] } } 3 (fun x => { x with queue := { QueueS.reset with msgs := List.replicate 32 ⟨5, 2, [0x77, 0x88], 0x185, 9, 1, false, 0, false⟩ } }), 0x180, ⟨41, 0x180, ⟨3, 5, 0, 0, 1, [0x77]⟩, false⟩, by decide⟩,
    ⟨{ upState with qnet := { QNetS.reset with seq := 41, fly := [⟨41, 0x180, ⟨3, 5, 0, 0, 1, [0x77]⟩, false⟩] } }, 0x180, ⟨41, 0x180, ⟨3, 5, 0, 0, 1, [0x77]⟩, false⟩, by decide⟩,
    ⟨State.modTile ((upState.put (Reg.HDR.BLK_CTRL.EN (State.pgQUEUE 3)) 1).put (Reg.QUEUE.QCFG.OPEN 3 5) 1) 3 (fun x => { x with queue := { QueueS.reset with held := some ⟨41, 0x180, ⟨3, 5, 0, 0, 1, [0x77]⟩, false⟩, msgs := [] } }), 3, ⟨41, 0x180, ⟨3, 5, 0, 0, 1, [0x77]⟩, false⟩, by decide⟩,
    ⟨State.modTile ((upState.put (Reg.HDR.BLK_CTRL.EN (State.pgQUEUE 3)) 1).put (Reg.QUEUE.QCFG.OPEN 3 5) 1) 3 (fun x => { x with queue := { QueueS.reset with held := some ⟨41, 0x180, ⟨3, 5, 2, 9, 1, [0x77]⟩, false⟩, msgs := List.replicate 32 ⟨5, 2, [0x77, 0x88], 0x185, 9, 1, false, 0, false⟩ } }), 3, ⟨41, 0x180, ⟨3, 5, 2, 9, 1, [0x77]⟩, false⟩, by decide⟩,
    ⟨State.modTile ((upState.put (Reg.HDR.BLK_CTRL.EN (State.pgQUEUE 3)) 1).put (Reg.QUEUE.QCFG.OPEN 3 5) 1) 3 (fun x => { x with queue := { QueueS.reset with held := some ⟨41, 0x180, ⟨3, 5, 2, 9, 1, [0x77]⟩, false⟩, msgs := [] } }), 3, ⟨41, 0x180, ⟨3, 5, 2, 9, 1, [0x77]⟩, false⟩, by decide⟩⟩

theorem witness_StallsAndWindowsComplete :
    (∃ (s : State) (n : TileId) (f : QFly), (s.canonical = true) ∧ ((s.queue n.val).held = some f) ∧ (f.comb = false) ∧ (s.get (Reg.QUEUE.QCFG.NOTIFY n.val f.head.queue) = 0) ∧ (f.head.mode = 0) ∧ (32 ≤ s.qOcc n.val f.head.queue) ∧ (s.get (Reg.QUEUE.QSTALL_TMO.CYC n.val) ≠ 0) ∧ (s.get (Reg.QUEUE.STALL_CTRL.HOLD n.val) = 0) ∧ (s.hostMode (State.pgQUEUE n.val) = false) ∧ (s.get (Reg.QUEUE.STALL_A.RX n.val) = 0) ∧ (f.ch < 65536) ∧ (f.head.queue < 64)) ∧
    (∃ (s : State) (n : TileId) (f : QFly), (s.canonical = true) ∧ ((s.queue n.val).held = some f) ∧ (f.comb = false) ∧ (s.get (Reg.QUEUE.QCFG.NOTIFY n.val f.head.queue) = 0) ∧ (f.head.mode = 0) ∧ (32 ≤ s.qOcc n.val f.head.queue) ∧ (s.get (Reg.QUEUE.QSTALL_TMO.CYC n.val) ≠ 0) ∧ (s.get (Reg.QUEUE.STALL_CTRL.HOLD n.val) = 0) ∧ (s.hostMode (State.pgQUEUE n.val) = true)) ∧
    (∃ (s : State) (n : TileId) (k : Fin 4) (ch : BitVec 16) (id rd code : Nat) (tr : Tracked), (s.canonical = true) ∧ (ch.toNat = n.val * 128 + k.val) ∧ (s.qnet.done = [(id, ch.toNat, code)]) ∧ ((s.queue n.val).tx = [(k.val, id, rd)]) ∧ ((s.tile n.val).tracked = [tr]) ∧ (tr.tag = 4096 + k.val) ∧ (tr.ready = none) ∧ (code = 0)) ∧
    (∃ (s : State) (n : TileId) (k : Fin 4) (ch : BitVec 16) (id rd : Nat) (tr : Tracked), (s.canonical = true) ∧ (ch.toNat = n.val * 128 + k.val) ∧ (s.get (Reg.QUEUE.TX_GUARD.CYC n.val) ≠ 0) ∧ ((s.queue n.val).tx = [(k.val, id, rd)]) ∧ ((s.tile n.val).tracked = [tr]) ∧ (tr.tag = 4096 + k.val) ∧ (tr.ready = none)) ∧
    (∃ (s : State) (src : Source) (n : TileId) (v : Word32) (e : QMsg), (s.canonical = true) ∧ ((src == .host && s.hostWaits) = false) ∧ (s.answers src (tilePg n.val 13 + 0x54) = true) ∧ (v.toNat.testBit 31 = true) ∧ (s.openEntry n.val (bits v.toNat 5 0) (bits v.toNat 21 6) = some e) ∧ (s.get (Reg.QUEUE.QCFG.NOTIFY n.val e.queue) = 0)) ∧
    (∃ (s : State) (src : Source) (n : TileId) (m : QMsg), (s.canonical = true) ∧ ((src == .host && s.hostWaits) = false) ∧ (s.answers src (tilePg n.val 13 + 0x50) = true) ∧ (((s.queue n.val).msgs.find? fun m => m.queue == s.get (Reg.QUEUE2.HEAD_SEL.Q n.val)) = some m)) ∧
    (∃ (s : State) (src : Source) (n : TileId) (f : QFly), (s.canonical = true) ∧ ((src == .host && s.hostWaits) = false) ∧ (s.answers src (tilePg n.val 12 + 0x50) = true) ∧ ((s.queue n.val).held = some f) ∧ (s.get (Reg.QUEUE.STALL_CTRL.HOLD n.val) ≠ 0)) ∧
    (∃ (s : State) (src : Source) (n : TileId) (f : QFly), (s.canonical = true) ∧ ((src == .host && s.hostWaits) = false) ∧ (s.answers src (tilePg n.val 12 + 0x50) = true) ∧ ((s.queue n.val).held = some f) ∧ (s.get (Reg.QUEUE.STALL_CTRL.HOLD n.val) ≠ 0)) ∧
    (∃ (s : State) (m : Fin 4) (v : Word32), (s.canonical = true) ∧ (s.pcie.d3 = false) ∧ (s.pcie.tlps = []) ∧ (s.pcie.writes = []) ∧ (s.get (Reg.WIN.STATUS.BUSY m.val) = 0) ∧ (bits v.toNat 18 17 ≠ 3) ∧ ((bits v.toNat 18 17 == 2) ≠ (bits v.toNat 26 19 == 0))) ∧
    (∃ (s : State) (m : Fin 4) (v : Word32), (s.canonical = true) ∧ (s.pcie.d3 = false) ∧ (s.pcie.tlps = []) ∧ (s.pcie.writes = []) ∧ (s.get (Reg.WIN.STATUS.BUSY m.val) ≠ 0)) :=
  ⟨⟨(State.modTile ((upState.put (Reg.HDR.BLK_CTRL.EN (State.pgQUEUE 3)) 1).put (Reg.QUEUE.QCFG.OPEN 3 5) 1) 3 (fun x => { x with queue := { QueueS.reset with held := some ⟨41, 0x180, ⟨3, 5, 0, 0, 1, [0x77]⟩, false⟩, msgs := List.replicate 32 ⟨5, 2, [0x77, 0x88], 0x185, 9, 1, false, 0, false⟩ } })).put (Reg.QUEUE.QSTALL_TMO.CYC 3) 100, 3, ⟨41, 0x180, ⟨3, 5, 0, 0, 1, [0x77]⟩, false⟩, by decide⟩,
    ⟨((State.modTile ((upState.put (Reg.HDR.BLK_CTRL.EN (State.pgQUEUE 3)) 1).put (Reg.QUEUE.QCFG.OPEN 3 5) 1) 3 (fun x => { x with queue := { QueueS.reset with held := some ⟨41, 0x180, ⟨3, 5, 0, 0, 1, [0x77]⟩, false⟩, msgs := List.replicate 32 ⟨5, 2, [0x77, 0x88], 0x185, 9, 1, false, 0, false⟩ } })).put (Reg.QUEUE.QSTALL_TMO.CYC 3) 100).put (Reg.HDR.BLK_CTRL.MODE (State.pgQUEUE 3)) 1, 3, ⟨41, 0x180, ⟨3, 5, 0, 0, 1, [0x77]⟩, false⟩, by decide⟩,
    ⟨{ upState with qnet := { QNetS.reset with done := [(41, 0x182, 0)] } } |>.modTile 3 (fun x => { x with queue := { QueueS.reset with tx := [(2, 41, 7)] }, tracked := [⟨false, some 7, 2, 1, none, 4098, 0, [], none⟩] }), 3, 2, 0x182, 41, 7, 0, ⟨false, some 7, 2, 1, none, 4098, 0, [], none⟩, by decide⟩,
    ⟨(State.modTile upState 3 (fun x => { x with queue := { QueueS.reset with tx := [(2, 41, 7)] }, tracked := [⟨false, some 7, 2, 1, none, 4098, 0, [], none⟩] })).put (Reg.QUEUE.TX_GUARD.CYC 3) 90, 3, 2, 0x182, 41, 7, ⟨false, some 7, 2, 1, none, 4098, 0, [], none⟩, by decide⟩,
    ⟨upState.modTile 3 (fun x => { x with queue := { QueueS.reset with opens := [⟨5, 2, [0x77], 0x185, 9, 2, false, 4, true⟩] } }), .host, 3, 0x80000245, ⟨5, 2, [0x77], 0x185, 9, 2, false, 4, true⟩, by decide⟩,
    ⟨(upState.modTile 3 (fun x => { x with queue := { QueueS.reset with msgs := [⟨6, 0, [1], 1, 0, 1, false, 0, false⟩, ⟨5, 2, [0x77, 0x88], 0x185, 9, 1, false, 0, false⟩] } })).put (Reg.QUEUE2.HEAD_SEL.Q 3) 5, .host, 3, ⟨5, 2, [0x77, 0x88], 0x185, 9, 1, false, 0, false⟩, by decide⟩,
    ⟨(State.modTile ((upState.put (Reg.HDR.BLK_CTRL.EN (State.pgQUEUE 3)) 1).put (Reg.QUEUE.QCFG.OPEN 3 5) 1) 3 (fun x => { x with queue := { QueueS.reset with held := some ⟨41, 0x180, ⟨3, 5, 0, 0, 1, [0x77]⟩, false⟩, msgs := List.replicate 32 ⟨5, 2, [0x77, 0x88], 0x185, 9, 1, false, 0, false⟩ } })).put (Reg.QUEUE.STALL_CTRL.HOLD 3) 1, .host, 3, ⟨41, 0x180, ⟨3, 5, 0, 0, 1, [0x77]⟩, false⟩, by decide⟩,
    ⟨(State.modTile ((upState.put (Reg.HDR.BLK_CTRL.EN (State.pgQUEUE 3)) 1).put (Reg.QUEUE.QCFG.OPEN 3 5) 1) 3 (fun x => { x with queue := { QueueS.reset with held := some ⟨41, 0x180, ⟨3, 5, 0, 0, 1, [0x77]⟩, false⟩, msgs := List.replicate 32 ⟨5, 2, [0x77, 0x88], 0x185, 9, 1, false, 0, false⟩ } })).put (Reg.QUEUE.STALL_CTRL.HOLD 3) 1, .host, 3, ⟨41, 0x180, ⟨3, 5, 0, 0, 1, [0x77]⟩, false⟩, by decide⟩,
    ⟨upState, 2, 0x4503, by decide⟩,
    ⟨upState.put (Reg.WIN.STATUS.BUSY 2) 1, 2, 0x4503, by decide⟩⟩

theorem witness_FabricAccessesServed :
    (∃ (s : State) (p : Pkt) (n : TileId), (p.op = 0) ∧ (onItsWay s p n = true)) ∧
    (∃ (s : State) (p : Pkt) (n : TileId), (p.op = 1) ∧ (p.data.length = p.size) ∧ (onItsWay s p n = true)) ∧
    (∃ (s : State) (p : Pkt) (n : TileId), (p.op = 2) ∧ (p.size = 4) ∧ (p.addr.toNat % 4 = 0) ∧ (onItsWay s p n = true)) ∧
    (∃ (s : State) (p : Pkt) (n : TileId), (p.op = 3) ∧ (p.size = 8) ∧ (p.addr.toNat % 8 = 0) ∧ (onItsWay s p n = true)) ∧
    (∃ (s : State) (p : Pkt) (n : TileId), (p.op = 4) ∧ (p.size = 4) ∧ (p.addr.toNat % 4 = 0) ∧ (onItsWay s p n = true)) ∧
    (∃ (s : State) (p : Pkt) (n : TileId), (p.op = 5) ∧ (p.size = 4) ∧ (p.addr.toNat % 4 = 0) ∧ (onItsWay s p n = true)) ∧
    (∃ (s : State) (p : Pkt) (n : TileId), (p.op = 6) ∧ (p.size = 8) ∧ (p.addr.toNat % 8 = 0) ∧ (onItsWay s p n = true)) ∧
    (∃ (s : State) (p : Pkt) (n : TileId), (p.op = 7) ∧ (p.size = 8) ∧ (p.addr.toNat % 8 = 0) ∧ (onItsWay s p n = true)) :=
  ⟨⟨{ upState with net := { NetS.reset with out := [{ op := 0, src := 130, smod := 0, tag := 7, cls := 3, epoch := false, dmod := 0, addr := 0xC00108, size := 8, data := [], mcast := none }] }, mem := [(0xC00108, 5), (0xC0010B, 0x7F), (0xC0010F, 1)] }, { op := 0, src := 130, smod := 0, tag := 7, cls := 3, epoch := false, dmod := 0, addr := 0xC00108, size := 8, data := [], mcast := none }, 3, by decide⟩,
    ⟨{ upState with net := { NetS.reset with out := [{ op := 1, src := 130, smod := 0, tag := 7, cls := 3, epoch := false, dmod := 0, addr := 0xC00108, size := 8, data := [1, 2, 3, 4, 5, 6, 7, 0], mcast := none }] }, mem := [(0xC00108, 5), (0xC0010B, 0x7F), (0xC0010F, 1)] }, { op := 1, src := 130, smod := 0, tag := 7, cls := 3, epoch := false, dmod := 0, addr := 0xC00108, size := 8, data := [1, 2, 3, 4, 5, 6, 7, 0], mcast := none }, 3, by decide⟩,
    ⟨{ upState with net := { NetS.reset with out := [{ op := 2, src := 130, smod := 0, tag := 7, cls := 3, epoch := false, dmod := 0, addr := 0xC00108, size := 4, data := toBytes 4 0x3F8000007FFFFFF1, mcast := none }] }, mem := [(0xC00108, 5), (0xC0010B, 0x7F), (0xC0010F, 1)] }, { op := 2, src := 130, smod := 0, tag := 7, cls := 3, epoch := false, dmod := 0, addr := 0xC00108, size := 4, data := toBytes 4 0x3F8000007FFFFFF1, mcast := none }, 3, by decide⟩,
    ⟨{ upState with net := { NetS.reset with out := [{ op := 3, src := 130, smod := 0, tag := 7, cls := 3, epoch := false, dmod := 0, addr := 0xC00108, size := 8, data := toBytes 8 0x3F8000007FFFFFF1, mcast := none }] }, mem := [(0xC00108, 5), (0xC0010B, 0x7F), (0xC0010F, 1)] }, { op := 3, src := 130, smod := 0, tag := 7, cls := 3, epoch := false, dmod := 0, addr := 0xC00108, size := 8, data := toBytes 8 0x3F8000007FFFFFF1, mcast := none }, 3, by decide⟩,
    ⟨{ upState with net := { NetS.reset with out := [{ op := 4, src := 130, smod := 0, tag := 7, cls := 3, epoch := false, dmod := 0, addr := 0xC00108, size := 4, data := toBytes 4 0x3F8000007FFFFFF1, mcast := none }] }, mem := [(0xC00108, 5), (0xC0010B, 0x7F), (0xC0010F, 1)] }, { op := 4, src := 130, smod := 0, tag := 7, cls := 3, epoch := false, dmod := 0, addr := 0xC00108, size := 4, data := toBytes 4 0x3F8000007FFFFFF1, mcast := none }, 3, by decide⟩,
    ⟨{ upState with net := { NetS.reset with out := [{ op := 5, src := 130, smod := 0, tag := 7, cls := 3, epoch := false, dmod := 0, addr := 0xC00108, size := 4, data := toBytes 4 0x3F8000007FFFFFF1, mcast := none }] }, mem := [(0xC00108, 5), (0xC0010B, 0x7F), (0xC0010F, 1)] }, { op := 5, src := 130, smod := 0, tag := 7, cls := 3, epoch := false, dmod := 0, addr := 0xC00108, size := 4, data := toBytes 4 0x3F8000007FFFFFF1, mcast := none }, 3, by decide⟩,
    ⟨{ upState with net := { NetS.reset with out := [{ op := 6, src := 130, smod := 0, tag := 7, cls := 3, epoch := false, dmod := 0, addr := 0xC00108, size := 8, data := toBytes 8 0x3F8000007FFFFFF1, mcast := none }] }, mem := [(0xC00108, 5), (0xC0010B, 0x7F), (0xC0010F, 1)] }, { op := 6, src := 130, smod := 0, tag := 7, cls := 3, epoch := false, dmod := 0, addr := 0xC00108, size := 8, data := toBytes 8 0x3F8000007FFFFFF1, mcast := none }, 3, by decide⟩,
    ⟨{ upState with net := { NetS.reset with out := [{ op := 7, src := 130, smod := 0, tag := 7, cls := 3, epoch := false, dmod := 0, addr := 0xC00108, size := 8, data := toBytes 8 0x3F8000007FFFFFF1, mcast := none }] }, mem := [(0xC00108, 5), (0xC0010B, 0x7F), (0xC0010F, 1)] }, { op := 7, src := 130, smod := 0, tag := 7, cls := 3, epoch := false, dmod := 0, addr := 0xC00108, size := 8, data := toBytes 8 0x3F8000007FFFFFF1, mcast := none }, 3, by decide⟩⟩

theorem witness_ResponsesAndFencesComplete :
    (∃ (s : State) (p : Pkt) (r : Rsp) (n : TileId) (tr : Tracked) (g : Nat), (s.net.out = [p]) ∧ (s.net.past = [(p.src.val, p.tag.toNat)]) ∧ (s.net.lanes = []) ∧ (s.net.rsps = [r]) ∧ (r.dst = p.src.val) ∧ (r.tag = p.tag.toNat) ∧ (r.line = none) ∧ (r.via = none) ∧ (s.net.gates = []) ∧ (s.net.cuff = []) ∧ (s.netOn 0 = true) ∧ (s.netOn 1 = true) ∧ (epKind p.src.val = .tile n.val) ∧ (s.domOn n.val = true) ∧ ((s.tile n.val).tracked = [tr]) ∧ (tr.tag = p.tag.toNat) ∧ (tr.ready = none) ∧ (r.ack = false) ∧ (r.status = 0) ∧ (tr.reg = some g)) ∧
    (∃ (s : State) (p : Pkt) (r : Rsp) (n : TileId) (tr : Tracked), (s.net.out = [p]) ∧ (s.net.past = [(p.src.val, p.tag.toNat)]) ∧ (s.net.lanes = []) ∧ (s.net.rsps = [r]) ∧ (r.dst = p.src.val) ∧ (r.tag = p.tag.toNat) ∧ (r.line = none) ∧ (r.via = none) ∧ (s.net.gates = []) ∧ (s.net.cuff = []) ∧ (s.netOn 0 = true) ∧ (s.netOn 1 = true) ∧ (epKind p.src.val = .tile n.val) ∧ (s.domOn n.val = true) ∧ ((s.tile n.val).tracked = [tr]) ∧ (tr.tag = p.tag.toNat) ∧ (tr.ready = none) ∧ (r.ack = true) ∧ (r.status < 16)) ∧
    (∃ (s : State) (src : Ep) (n : TileId) (dst : Ep) (ev : Word64) (f : EvtFlight), (s.canonical = true) ∧ (dst.val = epTile n.val) ∧ (s.net.evts = [f]) ∧ (f.src = src.val) ∧ (f.dst = dst.val) ∧ (f.ev = ev) ∧ (f.fence = none) ∧ (s.net.cuff = []) ∧ (s.netOn 0 = true) ∧ (s.netOn 1 = true) ∧ (s.domOn n.val = true) ∧ (s.isEnabled (State.pgEVENT n.val) = true) ∧ (evRow ev < s.get (Reg.SYNAPSE.ROW_COUNT.COUNT n.val)) ∧ (s.hasWorld n.val (evWorld ev) = true) ∧ ((s.evt n.val).fifo.length < 4096) ∧ ((s.evt n.val).closed = false) ∧ (evLate ev = false)) ∧
    (∃ (s : State) (src : Ep) (n : TileId) (dst : Ep) (ev : Word64) (f : EvtFlight), (s.canonical = true) ∧ (dst.val = epTile n.val) ∧ (s.net.evts = [f]) ∧ (f.src = src.val) ∧ (f.dst = dst.val) ∧ (f.ev = ev) ∧ (f.fence = none) ∧ (s.net.cuff = []) ∧ (s.netOn 0 = true) ∧ (s.netOn 1 = true) ∧ (s.domOn n.val = true) ∧ (s.isEnabled (State.pgEVENT n.val) = false)) ∧
    (∃ (s : State) (src : Ep) (dst : Dst) (f : FenceRec), (s.net.fences = [f]) ∧ (f.src = src.val) ∧ (f.dst = dst.val) ∧ (f.ev = none) ∧ (s.net.cuff = []) ∧ (s.netOn 0 = true) ∧ (s.netOn 1 = true) ∧ (dst.val < 384) ∧ (s.domOn (epDomain dst.val) = true)) ∧
    (∃ (s : State) (src : Ep) (dst : Dst) (f : FenceRec), (s.net.held = [f]) ∧ (f.src = src.val) ∧ (f.dst = dst.val) ∧ (f.ev = none) ∧ (dst.val < 384) ∧ (s.gotCount f.src f.dst f.epoch = f.count) ∧ (risingFrom 0 s.net.got = true)) ∧
    (∃ (s : State) (src : Ep) (dst : Dst) (f : FenceRec), (s.canonical = true) ∧ (s.net.held = [f]) ∧ (f.src = src.val) ∧ (f.dst = dst.val) ∧ (s.gotCount f.src f.dst f.epoch ≠ f.count) ∧ (s.get Reg.FAB0.FENCE_TMO.CYC ≠ 0) ∧ (risingFrom 0 s.net.got = true)) ∧
    (∃ (s : State) (src : Ep) (dst : Dst) (i e : Nat), (s.net.acks = [⟨src.val, dst.val, i, e⟩]) ∧ (s.net.cuff = []) ∧ (s.netOn 0 = true) ∧ (s.netOn 1 = true) ∧ (s.domOn (epDomain src.val) = true) ∧ ((s.lane src.val dst.val).openF = some (i, none)) ∧ ((s.lane src.val dst.val).count ≠ 32767) ∧ ((s.lane src.val dst.val).wait = []) ∧ (risingFrom 0 s.net.lanes = true)) ∧
    (∃ (s : State) (src : Ep) (dst : Dst) (i : Nat), (s.get Reg.FAB0.NI_TMO.CYC ≠ 0) ∧ ((s.lane src.val dst.val).openF = some (i, none)) ∧ ((s.lane src.val dst.val).count ≠ 32767) ∧ ((s.lane src.val dst.val).wait = []) ∧ (risingFrom 0 s.net.lanes = true)) ∧
    (∃ (s : State) (p : Pkt) (n : TileId) (tr : Tracked), (s.net.out = [p]) ∧ (s.net.past = []) ∧ (s.get Reg.FAB0.NI_TMO.CYC ≠ 0) ∧ (s.net.lanes = []) ∧ (s.net.gates = []) ∧ (epKind p.src.val = .tile n.val) ∧ ((s.tile n.val).tracked = [tr]) ∧ (tr.tag = p.tag.toNat) ∧ (tr.ready = none)) ∧
    (∃ (s : State) (cls : Fin 8), (cls.val < 6) ∧ (s.netOn 1 = true)) ∧
    (∃ (s : State) (cls : Fin 8), (s.canonical = true) ∧ (6 ≤ cls.val) ∧ (s.netOn 1 = true)) :=
  ⟨⟨State.modTile { upState with net := { NetS.reset with out := [{ op := 0, src := 0, smod := 0, tag := 7, cls := 3, epoch := false, dmod := 0, addr := 0xC00108, size := 8, data := [], mcast := none }], past := [(0, 7)], rsps := [⟨0, 7, 3, false, 0, [1, 2, 3, 4, 5, 6, 7, 8], none, false, false, none⟩] } } 0 (fun x => { x with tracked := [⟨false, some 5, 2, 1, none, 7, 0, [], none⟩] }), { op := 0, src := 0, smod := 0, tag := 7, cls := 3, epoch := false, dmod := 0, addr := 0xC00108, size := 8, data := [], mcast := none }, ⟨0, 7, 3, false, 0, [1, 2, 3, 4, 5, 6, 7, 8], none, false, false, none⟩, 0, ⟨false, some 5, 2, 1, none, 7, 0, [], none⟩, 5, by decide⟩,
    ⟨State.modTile { upState with net := { NetS.reset with out := [{ op := 0, src := 0, smod := 0, tag := 7, cls := 3, epoch := false, dmod := 0, addr := 0xC00108, size := 8, data := [], mcast := none }], past := [(0, 7)], rsps := [⟨0, 7, 3, false, 0, [], none, true, false, none⟩] } } 0 (fun x => { x with tracked := [⟨false, some 5, 2, 1, none, 7, 0, [], none⟩] }), { op := 0, src := 0, smod := 0, tag := 7, cls := 3, epoch := false, dmod := 0, addr := 0xC00108, size := 8, data := [], mcast := none }, ⟨0, 7, 3, false, 0, [], none, true, false, none⟩, 0, ⟨false, some 5, 2, 1, none, 7, 0, [], none⟩, by decide⟩,
    ⟨{ (((upState.put (Reg.HDR.BLK_CTRL.EN (State.pgEVENT 3)) 1).put (Reg.SYNAPSE.ROW_COUNT.COUNT 3) 20).put (Reg.NEURON.WORLD.W_COUNT 3) 5) with net := { NetS.reset with evts := [⟨130, 3, 2415951872, false, none⟩] } }, 130, 3, 3, 2415951872, ⟨130, 3, 2415951872, false, none⟩, by decide⟩,
    ⟨{ upState with net := { NetS.reset with evts := [⟨130, 3, 2415951872, false, none⟩] } }, 130, 3, 3, 2415951872, ⟨130, 3, 2415951872, false, none⟩, by decide⟩,
    ⟨{ upState with net := { NetS.reset with fences := [⟨3, 0, 4, 0, false, none, none, 0, none⟩] } }, 3, 0, ⟨3, 0, 4, 0, false, none, none, 0, none⟩, by decide⟩,
    ⟨{ upState with net := { NetS.reset with held := [⟨3, 0, 4, 2, true, none, none, 0, none⟩], got := [(2 * (8192 * 3) + 1, 2)] } }, 3, 0, ⟨3, 0, 4, 2, true, none, none, 0, none⟩, by decide⟩,
    ⟨{ upState with net := { NetS.reset with held := [⟨3, 0, 4, 2, true, none, none, 0, none⟩] } }, 3, 0, ⟨3, 0, 4, 2, true, none, none, 0, none⟩, by decide⟩,
    ⟨{ upState with net := { NetS.reset with acks := [⟨3, 0, 4, 0⟩], lanes := [(8192 * 3, ⟨5, true, some (4, none), 5, []⟩)] } }, 3, 0, 4, 0, by decide⟩,
    ⟨{ upState with net := { NetS.reset with lanes := [(8192 * 3, ⟨5, true, some (4, none), 5, []⟩)] } }, 3, 0, 4, by decide⟩,
    ⟨State.modTile { upState with net := { NetS.reset with out := [{ op := 0, src := 0, smod := 0, tag := 7, cls := 3, epoch := false, dmod := 0, addr := 0xC00108, size := 8, data := [], mcast := none }] } } 0 (fun x => { x with tracked := [⟨false, some 5, 2, 1, none, 7, 0, [], none⟩] }), { op := 0, src := 0, smod := 0, tag := 7, cls := 3, epoch := false, dmod := 0, addr := 0xC00108, size := 8, data := [], mcast := none }, 0, ⟨false, some 5, 2, 1, none, 7, 0, [], none⟩, by decide⟩,
    ⟨upState, 3, by decide⟩,
    ⟨upState, 7, by decide⟩⟩

theorem witness_ReductionsAndCuffComplete :
    (∃ (s : State) (a : Addr) (cls : Fin 8) (c : Comb) (e tag : Nat), (s.net.comb = [c]) ∧ (c.line = a.toNat) ∧ (c.cls = cls.val) ∧ (c.who = [(s.modId, e, tag)]) ∧ (c.slice < 64) ∧ ((s.lane (epSlice c.slice) e).count < 32766)) ∧
    (∃ (s : State) (n : TileId) (line : List Byte) (g : Fin 64) (o : BitVec 16), (g.val ≠ 63) ∧ (s.netOn 0 = true) ∧ (s.netOn 1 = true) ∧ (s.domOn n.val = true) ∧ (s.redValid g.val = true) ∧ ((s.redMask g.val).testBit n.val = true) ∧ (s.net.red = []) ∧ (2 ≤ ((members (s.redMask g.val) 256).filter fun m => State.leafOf m == State.leafOf n.val).length) ∧ (s.get (Reg.REDUCE.RG_CFG.OP g.val) ≠ 5) ∧ (s.get (Reg.REDUCE.RG_CFG.MODE g.val) = 0)) ∧
    (∃ (s : State) (n : TileId) (line acc : List Byte) (g : Fin 64) (o : BitVec 16) (e : RedEntry), (g.val ≠ 63) ∧ (s.netOn 0 = true) ∧ (s.netOn 1 = true) ∧ (s.domOn n.val = true) ∧ (s.redValid g.val = true) ∧ ((s.redMask g.val).testBit n.val = true) ∧ (s.net.red = [e]) ∧ (e.sw = State.leafOf n.val) ∧ (e.group = g.val) ∧ (e.line = o.toNat) ∧ (e.left = 1) ∧ (e.dead = false) ∧ (e.acc = some acc) ∧ (e.ports.contains (epTile n.val % 16) = false) ∧ (s.get (Reg.REDUCE.RG_CFG.MODE g.val) = 0)) ∧
    (∃ (s : State) (n : TileId) (g : Fin 64) (o : BitVec 16) (line : List Byte), (s.net.results = [⟨g.val, o.toNat, line, [epTile n.val]⟩]) ∧ (line.length = 64) ∧ (s.net.cuff = []) ∧ (s.netOn 0 = true) ∧ (s.netOn 1 = true) ∧ (s.net.reds = []) ∧ (s.domOn n.val = true) ∧ (s.get (Reg.REDUCE.RG_DEST.OFS g.val) % 64 = 0) ∧ (s.get (Reg.REDUCE.RG_DEST.OFS g.val) + 64 * o.toNat + 64 ≤ 0x300000) ∧ (s.bankOn n.val ((s.get (Reg.REDUCE.RG_DEST.OFS g.val) + 64 * o.toNat) / 0x30000) = true)) ∧
    (∃ (s : State) (sw : Fin 36) (g : Fin 64) (o : BitVec 16) (e : RedEntry), (s.canonical = true) ∧ (s.net.red = [e]) ∧ (e.sw = sw.val) ∧ (e.group = g.val) ∧ (e.line = o.toNat) ∧ (e.dead = false) ∧ (s.get Reg.FAB0.RED_TMO.CYC ≠ 0)) ∧
    (∃ (s : State) (h vc : Nat) (p : Pkt), (s.canonical = true) ∧ (s.net.cuff = [(h, vc, .req p)]) ∧ (p.smod.toNat = s.modId) ∧ (s.get Reg.CUFF.CUFF_TMO.US ≠ 0) ∧ (s.netOn h = false)) ∧
    (∃ (s : State) (half : Fin 2), (s.canonical = true) ∧ (s.net.cuff = []) ∧ (s.fabricsHeld = true) ∧ ((s.get (State.voteField (320 + half.val))) % 16 ≠ 0) ∧ (s.power.dom = [(320, .on), (321, .on)])) :=
  ⟨⟨{ upState with net := { NetS.reset with comb := [⟨1, 0x40400040, 3, [(0, 130, 7)], [9, 9]⟩] } }, 0x40400040, 3, ⟨1, 0x40400040, 3, [(0, 130, 7)], [9, 9]⟩, 130, 7, by decide⟩,
    ⟨(((upState.put (Reg.REDUCE.RG_MASK.TILES 4 0) 9).put (Reg.REDUCE.RG_CFG.VALID 4) 1).put (Reg.REDUCE.RG_CFG.OP 4) 2).put (Reg.HDR.BLK_CTRL.EN (fabPg 4)) 1, 3, (List.range 64).map (fun i => BitVec.ofNat 8 (i + 1)), 4, 2, by decide⟩,
    ⟨{ (((upState.put (Reg.REDUCE.RG_MASK.TILES 4 0) 9).put (Reg.REDUCE.RG_CFG.VALID 4) 1).put (Reg.REDUCE.RG_CFG.OP 4) 2).put (Reg.HDR.BLK_CTRL.EN (fabPg 4)) 1 with net := { NetS.reset with red := [⟨0, 4, 2, 2, 1, 2, [0], some ((List.range 64).map (fun i => BitVec.ofNat 8 (i + 1))), false⟩] } }, 3, (List.range 64).map (fun i => BitVec.ofNat 8 (i + 1)), (List.range 64).map (fun i => BitVec.ofNat 8 (i + 1)), 4, 2, ⟨0, 4, 2, 2, 1, 2, [0], some ((List.range 64).map (fun i => BitVec.ofNat 8 (i + 1))), false⟩, by decide⟩,
    ⟨{ ((((upState.put (Reg.REDUCE.RG_MASK.TILES 4 0) 9).put (Reg.REDUCE.RG_CFG.VALID 4) 1).put (Reg.REDUCE.RG_CFG.OP 4) 2).put (Reg.HDR.BLK_CTRL.EN (fabPg 4)) 1).put (Reg.REDUCE.RG_CFG.ROOT_EP 4) 3 |>.put (Reg.REDUCE.RG_DEST.OFS 4) 0x1000 with net := { NetS.reset with results := [⟨4, 2, (List.range 64).map (fun i => BitVec.ofNat 8 (i + 1)), [3]⟩] } }, 3, 4, 2, (List.range 64).map (fun i => BitVec.ofNat 8 (i + 1)), by decide⟩,
    ⟨{ upState with net := { NetS.reset with red := [⟨0, 4, 2, 2, 1, 2, [0], some ((List.range 64).map (fun i => BitVec.ofNat 8 (i + 1))), false⟩] } }, 0, 4, 2, ⟨0, 4, 2, 2, 1, 2, [0], some ((List.range 64).map (fun i => BitVec.ofNat 8 (i + 1))), false⟩, by decide⟩,
    ⟨{ (upState.put Reg.CLOCK.HALF_CFG.EAST 2) with net := { NetS.reset with cuff := [(1, 6, .req { op := 0, src := 3, smod := 0, tag := 7, cls := 3, epoch := false, dmod := 0, addr := 0xC00108, size := 8, data := [], mcast := none })] } }, 1, 6, { op := 0, src := 3, smod := 0, tag := 7, cls := 3, epoch := false, dmod := 0, addr := 0xC00108, size := 8, data := [], mcast := none }, by decide⟩,
    ⟨{ upState.put Reg.POWER.VOTE_FAB_E.VOTE 0x11 with power := { upState.power with dom := [(320, .on), (321, .on)] } }, 1, by decide⟩⟩

theorem witness_TileRequestsComplete :
    (∃ (s : State) (n : TileId) (m : Fin 32) (rs : Reg), (s.domOn n.val = true) ∧ (rs.val ≤ 28) ∧ (fourUnmarked s n rs.val = true)) ∧
    (∃ (s : State) (n : TileId) (m : Fin 32) (rs rd : Reg), (s.domOn n.val = true) ∧ (rs.val ≤ 28) ∧ (rd.val ≠ 0) ∧ (rd.val < rs.val ∨ rs.val + 3 < rd.val) ∧ (fourUnmarked s n rs.val = true) ∧ ((s.tile n.val).tracked = [])) ∧
    (∃ (s : State) (n : TileId) (m : Fin 32) (rs rd : Reg), (s.canonical = true) ∧ (s.domOn n.val = true) ∧ (28 < rs.val ∨ (rd.val ≠ 0 ∧ rs.val ≤ rd.val ∧ rd.val ≤ rs.val + 3)) ∧ (s.laneHeld n.val = false)) ∧
    (∃ (s : State) (n : TileId) (args : BitVec 24), (s.canonical = true) ∧ (s.domOn n.val = true) ∧ (args.toNat % 256 = 0) ∧ (s.isEnabled (State.pgLEARN n.val) = true) ∧ ((s.evt n.val).apply = none) ∧ (s.get (Reg.LEARN.MOD_BASE.OFS n.val) + 32 * (args.toNat / 4096 % 16) + 32 ≤ 0x300000) ∧ (s.get (Reg.LEARN.MOD_BASE.OFS n.val) % 32 = 0) ∧ (soundStore s = true) ∧ (s.bankOn n.val ((s.get (Reg.LEARN.MOD_BASE.OFS n.val) + 32 * (args.toNat / 4096 % 16)) / 0x30000) = true)) ∧
    (∃ (s : State) (n : TileId) (args : BitVec 24), (s.canonical = true) ∧ (s.hostWaits = false) ∧ (s.answers .host (tilePg n.val 10 + 0x40) = true) ∧ (s.isEnabled (State.pgLEARN n.val) = true) ∧ ((s.evt n.val).apply = none) ∧ (s.get (Reg.LEARN.MOD_BASE.OFS n.val) + 32 * (args.toNat / 4096 % 16) + 32 ≤ 0x300000) ∧ (s.get (Reg.LEARN.MOD_BASE.OFS n.val) % 32 = 0) ∧ (soundStore s = true) ∧ (s.bankOn n.val ((s.get (Reg.LEARN.MOD_BASE.OFS n.val) + 32 * (args.toNat / 4096 % 16)) / 0x30000) = true)) ∧
    (∃ (s : State) (n : TileId) (args : BitVec 24), (s.canonical = true) ∧ (s.domOn n.val = true) ∧ (args.toNat % 256 = 0) ∧ (s.isEnabled (State.pgLEARN n.val) = false ∨ (s.evt n.val).apply.isSome = true)) ∧
    (∃ (s : State) (n : TileId) (args : BitVec 24), (s.canonical = true) ∧ (s.domOn n.val = true) ∧ (args.toNat % 256 ≠ 0) ∧ (s.laneHeld n.val = false)) ∧
    (∃ (s : State) (n : TileId) (g : Fin 64), (s.domOn n.val = true) ∧ (s.barTmo g.val = false) ∧ ((s.barMask g.val).testBit n.val = true) ∧ ((s.arrived g.val).testBit n.val = false)) ∧
    (∃ (s : State) (n : TileId) (g : Fin 64), (s.canonical = true) ∧ (s.domOn n.val = true) ∧ (s.barTmo g.val = true ∨ (s.barMask g.val).testBit n.val = false ∨ (s.arrived g.val).testBit n.val = true)) ∧
    (∃ (s : State) (n : TileId) (f : Fin 16), (s.canonical = true) ∧ (s.domOn n.val = true)) ∧
    (∃ (s : State) (n : TileId) (f : Fin 16), (s.canonical = true) ∧ (s.domOn n.val = true) ∧ (s.issue.flagsSet.all (fun x => x.1 != f.val || x.2 == n.val) = true)) ∧
    (∃ (s : State) (n : TileId) (f : Fin 16), (s.domOn n.val = true) ∧ (s.issue.flagsSet.any (fun x => x.1 == f.val && x.2 != n.val) = true)) ∧
    (∃ (s : State) (n : TileId) (rd ra : Reg) (d : Nat), (s.domOn n.val = true) ∧ (s.marked n.val false ra.val = false) ∧ ((s.sreg n.val ra.val).testBit 60 = false) ∧ (epOf (s.sreg n.val ra.val % 2 ^ 48) = some d) ∧ ((s.lane (epTile n.val) d).count < 32766)) ∧
    (∃ (s : State) (n : TileId) (ra rs : Reg) (d : Nat), (s.domOn n.val = true) ∧ (s.marked n.val false ra.val = false) ∧ ((s.sreg n.val ra.val).testBit 60 = false) ∧ (epOf (s.sreg n.val ra.val % 2 ^ 48) = some d) ∧ ((s.lane (epTile n.val) d).count < 32766) ∧ (s.marked n.val false rs.val = false)) ∧
    (∃ (s : State) (n : TileId) (aop : Fin 8) (rd ra rs : Reg) (d : Nat), (s.domOn n.val = true) ∧ (s.marked n.val false ra.val = false) ∧ ((s.sreg n.val ra.val).testBit 60 = false) ∧ (epOf (s.sreg n.val ra.val % 2 ^ 48) = some d) ∧ ((s.lane (epTile n.val) d).count < 32766) ∧ (s.marked n.val false rs.val = false)) ∧
    (∃ (s : State) (n : TileId) (ra : Reg) (d : Nat), (s.domOn n.val = true) ∧ (s.marked n.val false ra.val = false) ∧ ((s.sreg n.val ra.val).testBit 60 = false) ∧ (epOf (s.sreg n.val ra.val % 2 ^ 48) = some d) ∧ ((s.lane (epTile n.val) d).count < 32766) ∧ ((s.lane (epTile n.val) d).openF = none) ∧ (risingFrom 0 s.net.lanes = true)) ∧
    (∃ (s : State) (n : TileId) (ra : Reg), (s.canonical = true) ∧ (s.domOn n.val = true) ∧ (s.marked n.val false ra.val = false) ∧ ((s.sreg n.val ra.val).testBit 60 = false) ∧ (epOf (s.sreg n.val ra.val % 2 ^ 48) = none)) :=
  ⟨⟨upState.modTile 3 (fun x => { x with sregs := [(4, 0x1000), (5, 0x2000), (6, 0x40), (7, 9)] }), 3, 9, 4, by decide⟩,
    ⟨upState.modTile 3 (fun x => { x with sregs := [(4, 0x1000), (5, 0x2000), (6, 0x40), (7, 9)] }), 3, 9, 4, 8, by decide⟩,
    ⟨upState.modTile 3 (fun x => { x with sregs := [(4, 0x1000), (5, 0x2000), (6, 0x40), (7, 9)] }), 3, 9, 4, 7, by decide⟩,
    ⟨{ (upState.put (Reg.HDR.BLK_CTRL.EN (State.pgLEARN 3)) 1).put (Reg.LEARN.RANGE.LAST 3 1) 7 with mem := [(12583075, 63), (12583078, 128), (12583079, 63)] }, 3, 0x35500, by decide⟩,
    ⟨{ (upState.put (Reg.HDR.BLK_CTRL.EN (State.pgLEARN 3)) 1).put (Reg.LEARN.RANGE.LAST 3 1) 7 with mem := [(12583075, 63), (12583078, 128), (12583079, 63)] }, 3, 0x35500, by decide⟩,
    ⟨upState, 3, 0x35500, by decide⟩,
    ⟨upState, 3, 0x35501, by decide⟩,
    ⟨upState.put (Reg.SNETM.BAR_MASK.TILES 5 0) 9, 3, 5, by decide⟩,
    ⟨upState, 3, 5, by decide⟩,
    ⟨upState, 3, 5, by decide⟩,
    ⟨upState.put Reg.SNET.FLAGS.FLAG 0x30, 3, 5, by decide⟩,
    ⟨{ upState with issue := { State.reset.issue with flagsSet := [(5, 256)] } }, 3, 5, by decide⟩,
    ⟨upState.modTile 3 (fun x => { x with sregs := [(4, 0x40000108), (5, 0x8899AABBCCDDEEFF), (6, 0x1000000040)] }), 3, 7, 4, 128, by decide⟩,
    ⟨upState.modTile 3 (fun x => { x with sregs := [(4, 0x40000108), (5, 0x8899AABBCCDDEEFF), (6, 0x1000000040)] }), 3, 4, 5, 128, by decide⟩,
    ⟨upState.modTile 3 (fun x => { x with sregs := [(4, 0x40000108), (5, 0x8899AABBCCDDEEFF), (6, 0x1000000040)] }), 3, 0, 7, 4, 5, 128, by decide⟩,
    ⟨{ upState.modTile 3 (fun x => { x with sregs := [(4, 0x40000108), (5, 0x8899AABBCCDDEEFF), (6, 0x1000000040)] }) with net := { NetS.reset with lanes := [(8192 * 3 + 128, ⟨5, true, none, 6, []⟩)] } }, 3, 4, 128, by decide⟩,
    ⟨upState.modTile 3 (fun x => { x with sregs := [(4, 0xF00000000000)] }), 3, 4, by decide⟩⟩

theorem witness_LearningComplete :
    (∃ (s : State) (n : TileId) (j : ApplyJob), (applying s n j 0 = true) ∧ (emptyGather j = true) ∧ (s.hostMode (State.pgLEARN n.val) = false)) ∧
    (∃ (s : State) (n : TileId) (j : ApplyJob), (s.canonical = true) ∧ (applying s n j 0 = true) ∧ (emptyGather j = true) ∧ (s.hostMode (State.pgLEARN n.val) = true)) ∧
    (∃ (s : State) (n : TileId) (j : ApplyJob) (h : Nat), (s.canonical = true) ∧ (applying s n j 1 = true) ∧ (s.hdrOfs n.val j.next = some h) ∧ ((s.evt n.val).hlock = some h)) ∧
    (∃ (s : State) (n : TileId) (j : ApplyJob), (s.canonical = true) ∧ (applying s n j 1 = true) ∧ (s.hdrOfs n.val j.next = none) ∧ (s.get (Reg.SYNAPSE.ROW_COUNT.COUNT n.val) ≤ j.next)) ∧
    (∃ (s : State) (n : TileId) (j : ApplyJob) (r : Row) (w : Byte), (s.canonical = true) ∧ (applying s n j 1 = true) ∧ (j.args.testBit 8 = true) ∧ (j.args.testBit 9 = false) ∧ ((s.evt n.val).hlock = none) ∧ ((s.rowAt uLEARN n.val j.next).1 = .row r) ∧ (s.hdrOfs n.val j.next = some r.hofs) ∧ (r.len = 1) ∧ (r.width = 8) ∧ (r.sparse = false) ∧ (r.signed = false) ∧ (r.le = true) ∧ (soundStore s = true) ∧ (r.tbase < s.neurons n.val) ∧ (r.hofs % 64 = 0) ∧ (r.first < 0x300000) ∧ (s.bankOn n.val (r.hofs / 0x30000) = true) ∧ (s.bankOn n.val (r.first / 0x30000) = true) ∧ (s.get (Reg.LEARN.POST_BASE.OFS n.val) % 32 = 0) ∧ (s.get (Reg.LEARN.POST_BASE.OFS n.val) + 32 * r.tbase + 32 ≤ 0x300000) ∧ (s.bankOn n.val ((s.get (Reg.LEARN.POST_BASE.OFS n.val) + 32 * r.tbase) / 0x30000) = true) ∧ (s.get (Reg.LEARN.PROG.UOP n.val r.rule 0) = 0) ∧ ((s.byte (State.own n.val (r.hofs + 2))).toNat < 128) ∧ (w = s.byte (State.own n.val r.first))) ∧
    (∃ (s : State) (n : TileId) (m : Move) (st w : Nat), (s.canonical = true) ∧ ((s.evt n.val).moves = [m]) ∧ (m.res = some (st, w)) ∧ (st ≠ 0)) ∧
    (∃ (s : State) (n : TileId) (m : Move) (w : Nat), (s.canonical = true) ∧ ((s.evt n.val).moves = [m]) ∧ (m.res = some (0, w)) ∧ (m.up = true) ∧ (w / 2 ^ 22 % 64 < 63) ∧ (soundStore s = true) ∧ (m.hofs + 0x33 ≤ 0x300000) ∧ (s.bankOn n.val ((m.hofs + 0x32) / 0x30000) = true)) ∧
    (∃ (s : State) (n : TileId) (j : ApplyJob), (s.canonical = true) ∧ (applying s n j 3 = true) ∧ ((s.evt n.val).moves = []) ∧ (j.inStep = false)) ∧
    (∃ (s : State) (n : TileId) (j : ApplyJob), (s.canonical = true) ∧ (applying s n j 3 = true) ∧ ((s.evt n.val).moves = []) ∧ (j.inStep = true) ∧ (s.barTmo s.step.bgrp = false) ∧ ((s.barMask s.step.bgrp).testBit n.val = true) ∧ ((s.arrived s.step.bgrp).testBit n.val = false)) ∧
    (∃ (s : State) (n : TileId) (j : ApplyJob), (s.canonical = true) ∧ (s.hostWaits = false) ∧ (s.answers .host (tilePg n.val 10 + 0x4C) = true) ∧ (applying s n j 2 = true)) ∧
    (∃ (s : State) (n : TileId) (row : BitVec 16), (s.canonical = true) ∧ (s.hostWaits = false) ∧ (s.answers .host (tilePg n.val 9 + 0x4C) = true) ∧ (s.get (Reg.SYNAPSE.HLOCK_STAT.PEND n.val) = 0) ∧ (s.get (Reg.SYNAPSE.HLOCK_STAT.GRANT n.val) = 0)) ∧
    (∃ (s : State) (n : TileId) (row : BitVec 16), (s.canonical = true) ∧ (s.hostWaits = false) ∧ (s.answers .host (tilePg n.val 9 + 0x4C) = true) ∧ (s.get (Reg.SYNAPSE.HLOCK_STAT.PEND n.val) = 1 ∨ s.get (Reg.SYNAPSE.HLOCK_STAT.GRANT n.val) = 1)) ∧
    (∃ (s : State) (n : TileId) (h : Nat), (s.canonical = true) ∧ (s.get (Reg.SYNAPSE.HLOCK_STAT.PEND n.val) = 1) ∧ (s.hdrOfs n.val (s.get (Reg.SYNAPSE.HLOCK_STAT.ROW n.val)) = some h) ∧ (h + 8 ≤ 0x300000) ∧ (h % 8 = 0) ∧ (s.bankOn n.val (h / 0x30000) = true) ∧ (soundStore s = true) ∧ ((s.evt n.val).elock ≠ some h) ∧ ((s.evt n.val).fetch ≠ some h)) ∧
    (∃ (s : State) (n : TileId) (h : Nat), (s.canonical = true) ∧ (s.hostWaits = false) ∧ (s.answers .host (tilePg n.val 9 + 0x4C) = true) ∧ (s.get (Reg.SYNAPSE.HLOCK_STAT.GRANT n.val) = 1) ∧ ((s.evt n.val).hlock = some h) ∧ (h + 8 ≤ 0x300000) ∧ (h % 8 = 0) ∧ (s.bankOn n.val (h / 0x30000) = true) ∧ (soundStore s = true)) ∧
    (∃ (s : State) (n : TileId), (s.hostWaits = false) ∧ (s.answers .host (tilePg n.val 9 + 0x4C) = true) ∧ (s.get (Reg.SYNAPSE.HLOCK_STAT.GRANT n.val) = 0)) :=
  ⟨⟨((upState.put (Reg.HDR.BLK_CTRL.EN (State.pgLEARN 3)) 1).modTile 3 (fun x => { x with evt := { x.evt with apply := some ⟨256, [], [], [], 2, 5, 0, false, 5⟩ } })), 3, ⟨256, [], [], [], 2, 5, 0, false, 5⟩, by decide⟩,
    ⟨(((upState.put (Reg.HDR.BLK_CTRL.EN (State.pgLEARN 3)) 1).put (Reg.HDR.BLK_CTRL.MODE (State.pgLEARN 3)) 1).modTile 3 (fun x => { x with evt := { x.evt with apply := some ⟨256, [], [], [], 2, 5, 0, false, 5⟩ } })), 3, ⟨256, [], [], [], 2, 5, 0, false, 5⟩, by decide⟩,
    ⟨{ (((upState.put (Reg.HDR.BLK_CTRL.EN (State.pgLEARN 3)) 1).put (Reg.SYNAPSE.ROW_COUNT.COUNT 3) 9).modTile 3 (fun x => { x with evt := { x.evt with apply := some ⟨256, [], [(0, 0, 1)], [], 2, 5, 1, false, 5⟩, hlock := some 64 } })) with mem := [(12582920, 64), (12582923, 128)] }, 3, ⟨256, [], [(0, 0, 1)], [], 2, 5, 1, false, 5⟩, 64, by decide⟩,
    ⟨((upState.put (Reg.HDR.BLK_CTRL.EN (State.pgLEARN 3)) 1).modTile 3 (fun x => { x with evt := { x.evt with apply := some ⟨256, [], [(0, 0, 1)], [], 2, 5, 1, false, 5⟩ } })), 3, ⟨256, [], [(0, 0, 1)], [], 2, 5, 1, false, 5⟩, by decide⟩,
    ⟨{ ((((upState.put (Reg.HDR.BLK_CTRL.EN (State.pgLEARN 3)) 1).put (Reg.SYNAPSE.ROW_COUNT.COUNT 3) 9).put (Reg.NEURON.N_CFG.N_M1 3) 9).modTile 3 (fun x => { x with evt := { x.evt with apply := some ⟨256, [], [(0, 0, 1)], [], 2, 5, 1, false, 5⟩ } })) with mem := [(12582920, 64), (12582923, 128), (12582976, 1), (12582978, 7), (12582979, 1), (12582980, 127), (12582982, 2), (12583040, 5)] }, 3, ⟨256, [], [(0, 0, 1)], [], 2, 5, 1, false, 5⟩, ⟨64, 1, 8, false, false, scaleValue 0 0x7F, 2, 0, true, false⟩, 5, by decide⟩,
    ⟨{ upState.modTile 3 (fun x => { x with evt := { x.evt with moves := [⟨0x40, true, 7, some (4, 0)⟩] } }) with mem := [(12583026, 133)] }, 3, ⟨0x40, true, 7, some (4, 0)⟩, 4, 0, by decide⟩,
    ⟨{ upState.modTile 3 (fun x => { x with evt := { x.evt with moves := [⟨0x40, true, 7, some (0, 20971520)⟩] } }) with mem := [(12583026, 133)] }, 3, ⟨0x40, true, 7, some (0, 20971520)⟩, 20971520, by decide⟩,
    ⟨{ ((upState.put (Reg.HDR.BLK_CTRL.EN (State.pgLEARN 3)) 1).modTile 3 (fun x => { x with evt := { x.evt with apply := some ⟨256, [], [], [], 6, 5, 3, false, 5⟩ } })) with cclkW := 90 }, 3, ⟨256, [], [], [], 6, 5, 3, false, 5⟩, by decide⟩,
    ⟨{ (((upState.put (Reg.HDR.BLK_CTRL.EN (State.pgLEARN 3)) 1).put (Reg.SNETM.BAR_MASK.TILES 0 0) 8).modTile 3 (fun x => { x with evt := { x.evt with apply := some ⟨256, [], [], [], 6, 5, 3, true, 5⟩ } })) with cclkW := 90 }, 3, ⟨256, [], [], [], 6, 5, 3, true, 5⟩, by decide⟩,
    ⟨(((upState.put (Reg.HDR.BLK_CTRL.EN (State.pgLEARN 3)) 1).put (Reg.LEARN.STAT.HOLD 3) 1).modTile 3 (fun x => { x with evt := { x.evt with apply := some ⟨256, [], [], [], 2, 5, 2, false, 5⟩ } })), 3, ⟨256, [], [], [], 2, 5, 2, false, 5⟩, by decide⟩,
    ⟨upState, 3, 2, by decide⟩,
    ⟨upState.put (Reg.SYNAPSE.HLOCK_STAT.GRANT 3) 1, 3, 2, by decide⟩,
    ⟨{ (((upState.put (Reg.SYNAPSE.HLOCK_STAT.PEND 3) 1).put (Reg.SYNAPSE.HLOCK_STAT.ROW 3) 2).put (Reg.SYNAPSE.ROW_COUNT.COUNT 3) 9) with mem := [(12582920, 64), (12582923, 128)] }, 3, 64, by decide⟩,
    ⟨{ (upState.put (Reg.SYNAPSE.HLOCK_STAT.GRANT 3) 1).modTile 3 (fun x => { x with evt := { x.evt with hlock := some 64 } }) with mem := [(12582976, 1), (12582978, 128)] }, 3, 64, by decide⟩,
    ⟨upState, 3, by decide⟩⟩

theorem witness_LinkTrainingCompletes :
    (∃ (s : State) (p : Fin 8) (peer : PeerCaps), (s.canonical = true) ∧ (s.get (Reg.FL.PORT_STAT.STATE p.val) = 1) ∧ (peer.id.toNat ≠ s.modId) ∧ (peer.lo.toNat ≤ min 0x31 peer.hi.toNat) ∧ (0x20 ≤ peer.hi.toNat) ∧ (max peer.width.val peer.plock.val ≤ (if peer.hi.toNat < 0x31 then 0 else min (s.get (Reg.FL.PORT_CFG.MIN_W p.val)) peer.minW.val)) ∧ (s.tokens = []) ∧ ((s.port p.val).queue = []) ∧ (s.get (Reg.FL.XCOL_W0.EN p.val 0) = 0) ∧ (s.get (Reg.FL.XCOL_W0.EN p.val 1) = 0) ∧ (s.get (Reg.FL.XCOL_W0.EN p.val 2) = 0) ∧ (s.get (Reg.FL.XCOL_W0.EN p.val 3) = 0)) ∧
    (∃ (s : State) (p : Fin 8) (peer : PeerCaps), (s.canonical = true) ∧ (s.get (Reg.FL.PORT_STAT.STATE p.val) = 1) ∧ (peer.id.toNat = s.modId)) ∧
    (∃ (s : State) (p : Fin 8) (peer : PeerCaps), (s.canonical = true) ∧ (s.get (Reg.FL.PORT_STAT.STATE p.val) = 1) ∧ (peer.id.toNat ≠ s.modId) ∧ (min 0x31 peer.hi.toNat < max 0x20 peer.lo.toNat)) ∧
    (∃ (s : State) (p : Fin 8), (s.canonical = true) ∧ (s.get (Reg.FL.PORT_STAT.STATE p.val) = 1)) ∧
    (∃ (s : State) (p : Fin 8), (s.canonical = true) ∧ (s.isEnabled (flPg p.val) = true) ∧ (s.get (Reg.FL.PORT_STAT.STATE p.val) = 0) ∧ ((s.port p.val).failed = false)) :=
  ⟨⟨(upState.put (Reg.FL.PORT_STAT.STATE 2) 1).put (Reg.FL.PORT_CFG.MIN_W 2) 1, 2, ⟨7, 1, 0x31, 0x20, 1, 1, 0⟩, by decide⟩,
    ⟨upState.put (Reg.FL.PORT_STAT.STATE 2) 1, 2, ⟨0, 1, 0x31, 0x20, 1, 1, 0⟩, by decide⟩,
    ⟨upState.put (Reg.FL.PORT_STAT.STATE 2) 1, 2, ⟨7, 1, 0x10, 0x10, 0, 0, 0⟩, by decide⟩,
    ⟨upState.put (Reg.FL.PORT_STAT.STATE 2) 1, 2, by decide⟩,
    ⟨upState.put (Reg.HDR.BLK_CTRL.EN (flPg 2)) 1, 2, by decide⟩⟩

theorem witness_LinkUnitsComplete :
    (∃ (s : State) (p : Fin 8) (pkt : LinkPkt) (fec crc fixed : Nat) (poison : Bool), (s.canonical = true) ∧ (s.get (Reg.FL.PORT_STAT.STATE p.val) = 2) ∧ (linksIdle s p.val = true) ∧ (s.linkVc pkt < 10) ∧ (0 < fec + crc)) ∧
    (∃ (s : State) (p : Fin 8) (d : Bool) (sm : BitVec 12) (src : Ep) (stamp : Word32) (ev : Word64), (s.canonical = true) ∧ (s.get (Reg.FL.PORT_STAT.STATE p.val) = 2) ∧ (linksIdle s p.val = true) ∧ (s.get Reg.RESET.RST_STAT.COMP_ACTIVE = 0) ∧ (stamp.toNat = s.get Reg.STEP.STEP_CNT.CNT % 2 ^ 32) ∧ (ev.toNat / 2 ^ 8 % 64 ≠ 0) ∧ ((s.port p.val).landing.length < 32768)) ∧
    (∃ (s : State) (p : Fin 8) (d : Bool) (m sm : BitVec 12) (ep : Ep) (tag : BitVec 12), (s.canonical = true) ∧ (s.get (Reg.FL.PORT_STAT.STATE p.val) = 2) ∧ (linksIdle s p.val = true) ∧ (s.get Reg.RESET.RST_STAT.COMP_ACTIVE = 0) ∧ (m.toNat ≠ s.modId) ∧ ((s.routeEntry m.toNat).1 = false)) ∧
    (∃ (s : State) (p : Fin 8), (s.get (Reg.FL.PORT_STAT.STATE p.val) = 2) ∧ (linksIdle s p.val = true) ∧ (s.get Reg.RESET.RST_STAT.COMP_ACTIVE = 0)) ∧
    (∃ (s : State) (p : Fin 8) (vc : Fin 15) (n : BitVec 16), (s.canonical = true) ∧ (s.get (Reg.FL.PORT_STAT.STATE p.val) = 2) ∧ (linksIdle s p.val = true) ∧ (risingFrom 0 (s.port p.val).credits = true)) ∧
    (∃ (s : State) (p : Fin 8) (n : BitVec 16) (i : LinkItem), (s.canonical = true) ∧ (s.get (Reg.FL.PORT_STAT.STATE p.val) = 2) ∧ ((s.port p.val).queue = [i]) ∧ (s.net.cuff = []) ∧ ((List.range 8).all (fun q => (s.port q).rx.isEmpty) = true) ∧ (i.kind = .packet) ∧ (i.sent = 0) ∧ (i.vc < 10) ∧ (risingFrom 0 (s.port p.val).credits = true) ∧ (i.units ≤ min (vcBuffer i.vc) (getAt 0 i.vc (s.port p.val).credits + n.toNat))) ∧
    (∃ (s : State) (p : Fin 8) (tok : Word32) (k : Nat), (s.canonical = true) ∧ (s.get (Reg.FL.PORT_STAT.STATE p.val) = 2) ∧ (linksIdle s p.val = true) ∧ (noStepWaits s = true) ∧ (s.tokens = [(s.get (Reg.FL.PEER.ID p.val), some k)])) ∧
    (∃ (s : State) (p : Fin 8) (tok : Word32), (s.canonical = true) ∧ (s.get (Reg.FL.PORT_STAT.STATE p.val) = 2) ∧ (linksIdle s p.val = true) ∧ (noStepWaits s = true) ∧ (s.tokens = [])) ∧
    (∃ (s : State) (p : Fin 8) (k : Fin 4), (s.canonical = true) ∧ (s.get (Reg.FL.PORT_STAT.STATE p.val) = 2) ∧ (linksIdle s p.val = true) ∧ (s.pageUp (pageAt State.pgSNET) = true)) ∧
    (∃ (s : State) (p : Fin 8) (g : Fin 64) (cr : BitVec 8), (s.canonical = true) ∧ (s.get (Reg.FL.PORT_STAT.STATE p.val) = 2) ∧ (linksIdle s p.val = true) ∧ ((s.port p.val).lines = []) ∧ (risingFrom 0 (s.port p.val).grants = true)) ∧
    (∃ (s : State) (p : Fin 8) (g : Fin 64) (cr : BitVec 8), (s.canonical = true) ∧ (s.get (Reg.FL.PORT_STAT.STATE p.val) = 2) ∧ (linksIdle s p.val = true) ∧ ((s.port p.val).lines = []) ∧ (risingFrom 0 (s.port p.val).grants = true) ∧ ((lookup g.val (s.port p.val).grants).isSome = true)) :=
  ⟨⟨((upState.put (Reg.FL.PORT_STAT.STATE 2) 2).put (Reg.FL.PEER.VALID 2) 1).put (Reg.FL.PEER.ID 2) 7, 2, .evt false 0 7 3 9 [5], 1, 0, 4, false, by decide⟩,
    ⟨{ ((upState.put (Reg.FL.PORT_STAT.STATE 2) 2).put (Reg.FL.PEER.VALID 2) 1).put (Reg.FL.PEER.ID 2) 7 with links := [(2, { PortS.reset with lost := true })] }, 2, false, 7, 3, 0, 0x100, by decide⟩,
    ⟨((upState.put (Reg.FL.PORT_STAT.STATE 2) 2).put (Reg.FL.PEER.VALID 2) 1).put (Reg.FL.PEER.ID 2) 7, 2, false, 9, 7, 3, 4, by decide⟩,
    ⟨((upState.put (Reg.FL.PORT_STAT.STATE 2) 2).put (Reg.FL.PEER.VALID 2) 1).put (Reg.FL.PEER.ID 2) 7, 2, by decide⟩,
    ⟨{ ((upState.put (Reg.FL.PORT_STAT.STATE 2) 2).put (Reg.FL.PEER.VALID 2) 1).put (Reg.FL.PEER.ID 2) 7 with links := [(2, { PortS.reset with credits := [(0, 3), (4, 30), (14, 9)] })] }, 2, 4, 5, by decide⟩,
    ⟨{ ((upState.put (Reg.FL.PORT_STAT.STATE 2) 2).put (Reg.FL.PEER.VALID 2) 1).put (Reg.FL.PEER.ID 2) 7 with links := [(2, { PortS.reset with credits := [(4, 1)], queue := [⟨4, .packet, ⟨0x1000, 3, 63, 7, 0, 7, 0, 180, 3⟩, List.replicate 64 7, false, 0⟩] })] }, 2, 5, ⟨4, .packet, ⟨0x1000, 3, 63, 7, 0, 7, 0, 180, 3⟩, List.replicate 64 7, false, 0⟩, by decide⟩,
    ⟨{ ((upState.put (Reg.FL.PORT_STAT.STATE 2) 2).put (Reg.FL.PEER.VALID 2) 1).put (Reg.FL.PEER.ID 2) 7 with tokens := [(7, some 5)] }, 2, 9, 5, by decide⟩,
    ⟨((upState.put (Reg.FL.PORT_STAT.STATE 2) 2).put (Reg.FL.PEER.VALID 2) 1).put (Reg.FL.PEER.ID 2) 7, 2, 9, by decide⟩,
    ⟨((upState.put (Reg.FL.PORT_STAT.STATE 2) 2).put (Reg.FL.PEER.VALID 2) 1).put (Reg.FL.PEER.ID 2) 7, 2, 1, by decide⟩,
    ⟨{ ((upState.put (Reg.FL.PORT_STAT.STATE 2) 2).put (Reg.FL.PEER.VALID 2) 1).put (Reg.FL.PEER.ID 2) 7 with links := [(2, { PortS.reset with grants := [(3, 2)] })] }, 2, 3, 4, by decide⟩,
    ⟨{ ((upState.put (Reg.FL.PORT_STAT.STATE 2) 2).put (Reg.FL.PEER.VALID 2) 1).put (Reg.FL.PEER.ID 2) 7 with links := [(2, { PortS.reset with grants := [(3, 2)] })] }, 2, 3, 4, by decide⟩⟩

theorem witness_LinkStateAndRouting :
    (∃ (s : State) (p : Fin 8), (s.canonical = true) ∧ (s.get (Reg.FL.PORT_STAT.STATE p.val) = 2) ∧ (noStepWaits s = true) ∧ (s.tokens = []) ∧ ((s.port p.val).queue.all (fun i => i.kind != .reply) = true)) ∧
    (∃ (s : State) (p : Fin 8), (s.canonical = true) ∧ ((s.port p.val).lost = true) ∧ (s.get (Reg.FL.PORT_CFG.FAILOVER p.val) = 1) ∧ (s.get (Reg.FL.RT_SEL.BANK 0) = 0) ∧ (s.isEnabled (routePg 0 1) = true)) ∧
    (∃ (s : State) (p : Fin 8), (s.canonical = true) ∧ ((s.port p.val).lost = true) ∧ (s.get (Reg.FL.PORT_CFG.FAILOVER p.val) = 1) ∧ (s.get (Reg.FL.RT_SEL.BANK 0) = 1 ∨ s.isEnabled (routePg 0 1) = false)) ∧
    (∃ (s : State) (src : Source) (bank : Bool), (s.canonical = true) ∧ ((src == .host && s.hostWaits) = false) ∧ (s.answers src (flPg 0 + 0x204) = true) ∧ (s.authorised src = true) ∧ ((s.get Reg.SECURITY.LOCK.BITS).testBit 3 = false) ∧ (s.isEnabled (routePg 0 (if bank then 1 else 0)) = true)) ∧
    (∃ (s : State) (src : Source) (bank : Bool), (s.canonical = true) ∧ ((src == .host && s.hostWaits) = false) ∧ (s.answers src (flPg 0 + 0x204) = true) ∧ (s.authorised src = false) ∧ (src ≠ .host ∨ (∀ p ∈ List.range 8, s.hostMode (flPg p) = false))) ∧
    (∃ (s : State) (src : Source) (bank : Bool), (s.canonical = true) ∧ ((src == .host && s.hostWaits) = false) ∧ (s.answers src (flPg 0 + 0x204) = true) ∧ (s.authorised src = true) ∧ ((s.get Reg.SECURITY.LOCK.BITS).testBit 3 = false) ∧ (s.isEnabled (routePg 0 (if bank then 1 else 0)) = false)) ∧
    (∃ (s : State) (src : Source) (v : Word32), (s.canonical = true) ∧ ((src == .host && s.hostWaits) = false) ∧ (s.answers src (flPg 0 + 0x20C) = true) ∧ (s.get (Reg.FL.XSYNC_CFG.EN 0) = 0) ∧ (v.toNat / 2 ^ 31 = 1) ∧ (1 ≤ v.toNat % 16 ∧ v.toNat % 16 ≤ 8) ∧ (v.toNat % 16 ≤ v.toNat / 2 ^ 16 % 64) ∧ (s.pageUp (pageAt pgSTEP) = true) ∧ (s.isReady pgSTEP = true) ∧ ((List.range 8).all (fun p => !s.portUp p) = true)) ∧
    (∃ (s : State) (src : Source) (v : Word32), (s.canonical = true) ∧ ((src == .host && s.hostWaits) = false) ∧ (s.answers src (flPg 0 + 0x20C) = true) ∧ (s.get (Reg.FL.XSYNC_CFG.EN 0) = 0) ∧ (v.toNat / 2 ^ 31 = 1) ∧ (v.toNat % 16 = 0 ∨ 8 < v.toNat % 16)) ∧
    (∃ (s : State) (src : Source) (p : Fin 8) (k : Fin 4) (v : Word32), (s.canonical = true) ∧ ((src == .host && s.hostWaits) = false) ∧ (s.answers src (flPg p.val + 0x80 + 0x10 * k.val) = true) ∧ ((s.port p.val).queue = []) ∧ (1 ≤ getAt 0 14 (s.port p.val).credits)) ∧
    (∃ (s : State) (p : Fin 8) (k : Nat), (s.canonical = true) ∧ (k < (s.port p.val).landing.length)) :=
  ⟨⟨{ ((upState.put (Reg.FL.PORT_STAT.STATE 2) 2).put (Reg.FL.PEER.VALID 2) 1).put (Reg.FL.PEER.ID 2) 7 with links := [(2, { PortS.reset with credits := [(0, 3)], queue := [⟨4, .packet, ⟨0x1000, 3, 63, 7, 0, 7, 0, 180, 3⟩, List.replicate 64 7, false, 0⟩, ⟨4, .packet, ⟨0x1000, 3, 63, 7, 0, 7, 0, 180, 3⟩, List.replicate 64 7, false, 0⟩] })] }, 2, by decide⟩,
    ⟨{ ((upState.put (Reg.FL.PORT_CFG.FAILOVER 2) 1).put (Reg.HDR.BLK_CTRL.EN (routePg 0 1)) 1) with links := [(2, { PortS.reset with lost := true })] }, 2, by decide⟩,
    ⟨{ upState.put (Reg.FL.PORT_CFG.FAILOVER 2) 1 with links := [(2, { PortS.reset with lost := true })] }, 2, by decide⟩,
    ⟨(upState.put (Reg.HDR.BLK_CTRL.EN (routePg 0 1)) 1), .host, true, by decide⟩,
    ⟨(upState.put (Reg.HDR.BLK_CTRL.EN (routePg 0 1)) 1), .wcore, true, by decide⟩,
    ⟨(upState.put (Reg.HDR.BLK_CTRL.EN (routePg 0 1)) 1), .host, false, by decide⟩,
    ⟨upState, .host, 2148007940, by decide⟩,
    ⟨upState, .host, 2147483648, by decide⟩,
    ⟨{ (((upState.put (Reg.FL.PORT_STAT.STATE 2) 2).put (Reg.FL.PEER.VALID 2) 1).put (Reg.FL.PEER.ID 2) 7).put (Reg.FL.PORT_STAT.VER 2) 0x31 with links := [(2, { PortS.reset with credits := [(14, 9)] })] }, .host, 2, 1, 2148007940, by decide⟩,
    ⟨{ ((upState.put (Reg.FL.PORT_STAT.STATE 2) 2).put (Reg.FL.PEER.VALID 2) 1).put (Reg.FL.PEER.ID 2) 7 with links := [(2, { PortS.reset with landing := [(9, 5), (10, 6)], queue := [⟨0, .packet, ⟨0, 0, 7, 5, 0, 7, 0, 3, 0⟩, [1, 2, 3, 4, 5, 6, 7, 8], false, 0⟩] })] }, 2, 1, by decide⟩⟩

theorem witness_MoversComplete :
    (∃ (s : State) (src : Source) (m : Fin 32) (v : Word32), (s.canonical = true) ∧ ((src == .host && s.hostWaits) = false) ∧ (s.answers src (moverPg m.val + 0x54) = true) ∧ (s.get (Reg.MOVER.MV_CFG.POST m.val) = 0) ∧ (s.mvState m.val ≠ 0 ∨ s.isEnabled (moverPg m.val) = false)) ∧
    (∃ (s : State) (src : Source) (m : Fin 32) (v : Word32), (s.canonical = true) ∧ ((src == .host && s.hostWaits) = false) ∧ (s.answers src (moverPg m.val + 0x54) = true) ∧ (s.get (Reg.MOVER.MV_CFG.POST m.val) = 1)) ∧
    (∃ (s : State) (src : Source) (m : Fin 32) (v : Word32) (d : Nat), (s.canonical = true) ∧ ((src == .host && s.hostWaits) = false) ∧ (s.answers src (moverPg m.val + 0x54) = true) ∧ (s.get (Reg.MOVER.MV_CFG.POST m.val) = 0) ∧ (s.mvState m.val = 0) ∧ (s.isEnabled (moverPg m.val) = true) ∧ (s.mover m.val = MoverS.reset) ∧ (v.toNat % 2 ^ 16 % s.mvSize m.val ≠ s.get (Reg.MOVER.RING_TAIL.IDX m.val)) ∧ (epOf (s.mvSlot m.val (s.get (Reg.MOVER.RING_TAIL.IDX m.val))) = some d) ∧ ((s.lane (epMover m.val) d).count < 32766)) ∧
    (∃ (s : State) (m : Fin 32) (p : Post) (d : Nat), (s.canonical = true) ∧ (s.posts = [p]) ∧ (p.mover = m.val) ∧ (p.tile < 256) ∧ (s.cuffClear = true) ∧ (s.domOn (320 + m.val / 16) = true) ∧ (s.isEnabled (moverPg m.val) = true) ∧ (s.get (Reg.HDR.BLK_CTRL.SRST (moverPg m.val)) = 0) ∧ (s.get (Reg.MOVER.MV_CFG.POST m.val) = 1) ∧ (s.mvState m.val ≠ 0) ∧ ((s.get (Reg.MOVER.RING_HEAD.IDX m.val) % s.mvSize m.val + 1) % s.mvSize m.val ≠ s.get (Reg.MOVER.RING_TAIL.IDX m.val)) ∧ (epOf (s.mvSlot m.val (s.get (Reg.MOVER.RING_HEAD.IDX m.val) % s.mvSize m.val)) = some d) ∧ ((s.lane (epMover m.val) d).count < 32766) ∧ (p.desc.length = 32)) ∧
    (∃ (s : State) (m : Fin 32) (p : Post) (tr : Tracked) (g : Nat), (s.posts = [p]) ∧ (p.mover = m.val) ∧ (p.tile < 256) ∧ (s.cuffClear = true) ∧ (s.domOn (320 + m.val / 16) = true) ∧ (p.key = some 0) ∧ ((s.tile p.tile).tracked = [tr]) ∧ (tr.tag = 8192) ∧ (tr.ready = none) ∧ (tr.reg = some g) ∧ (s.isEnabled (moverPg m.val) = false)) ∧
    (∃ (s : State) (m : Fin 32) (p : Post) (tr : Tracked) (g : Nat), (s.canonical = true) ∧ (s.posts = [p]) ∧ (p.mover = m.val) ∧ (p.tile < 256) ∧ (s.cuffClear = true) ∧ (s.domOn (320 + m.val / 16) = true) ∧ (p.key = some 0) ∧ ((s.tile p.tile).tracked = [tr]) ∧ (tr.tag = 8192) ∧ (tr.ready = none) ∧ (tr.reg = some g) ∧ (s.isEnabled (moverPg m.val) = true) ∧ (s.get (Reg.HDR.BLK_CTRL.SRST (moverPg m.val)) = 0) ∧ (s.get (Reg.MOVER.MV_CFG.POST m.val) = 1) ∧ ((s.get (Reg.MOVER.RING_HEAD.IDX m.val) % s.mvSize m.val + 1) % s.mvSize m.val = s.get (Reg.MOVER.RING_TAIL.IDX m.val))) ∧
    (∃ (s : State) (m : Fin 32) (st : Nat) (bs : List Byte) (d : Nat), (s.canonical = true) ∧ ((s.mover m.val).fetched = some (st, bs)) ∧ ((s.mover m.val).copies = []) ∧ ((s.mover m.val).abortF = false) ∧ ((s.mover m.val).job = none) ∧ (st ≠ 0) ∧ (st ≠ stBUSY) ∧ (st < 16) ∧ (epOf (s.mvSlot m.val (s.get (Reg.MOVER.RING_TAIL.IDX m.val)) + 28) = some d) ∧ ((s.lane (epMover m.val) d).count < 32766)) ∧
    (∃ (s : State) (m : Fin 32) (bs : List Byte) (d : Nat), (s.canonical = true) ∧ ((s.mover m.val).fetched = some (0, bs)) ∧ ((s.mover m.val).copies = []) ∧ ((s.mover m.val).abortF = false) ∧ (s.mvCheck (elem 8 0 bs) (elem 8 1 bs) (elem 4 4 bs) (elem 4 5 bs) = 0) ∧ (elem 4 5 bs = 0) ∧ (0 < elem 4 4 bs) ∧ (elem 4 4 bs < 2 ^ 26) ∧ (elem 8 0 bs % 4096 + elem 4 4 bs ≤ 4096) ∧ (elem 8 1 bs % 4096 + elem 4 4 bs ≤ 4096) ∧ (epOf (elem 8 0 bs) = some d) ∧ ((s.lane (epMover m.val) d).count < 32766)) ∧
    (∃ (s : State) (c : Fin 8) (m : Nat) (j : MvJob), (s.canonical = true) ∧ ((s.chkCh c.val).wait = [m]) ∧ (s.chkFree c.val = true) ∧ ((s.mover m).job = some j) ∧ (j.chk = some c.val) ∧ (j.stop = false) ∧ (j.abort = false) ∧ (j.pkts = []) ∧ (j.next < j.len) ∧ (j.cont = false) ∧ (j.ssp = 0) ∧ (m < 32)) ∧
    (∃ (s : State) (m : Fin 32) (ofs : BitVec 27) (j : MvJob) (p : MvPkt) (d : Nat), (s.canonical = true) ∧ ((s.mover m.val).job = some j) ∧ (j.pkts = [p]) ∧ (j.chk = none) ∧ (j.stop = false) ∧ (j.abort = false) ∧ (j.post = none) ∧ (p.ofs = ofs.toNat) ∧ (p.ack = some 0) ∧ (p.cast = false) ∧ (p.ofs ≠ j.len) ∧ (j.len ≤ j.next) ∧ (epOf (s.mvSlot m.val j.idx + 28) = some d) ∧ ((s.lane (epMover m.val) d).count < 32766)) ∧
    (∃ (s : State) (m : Fin 32) (p : Pkt) (r : Rsp) (f : MvFin), (s.canonical = true) ∧ (s.net.out = [p]) ∧ (s.net.past = [(p.src.val, p.tag.toNat)]) ∧ (s.net.lanes = []) ∧ (s.net.rsps = [r]) ∧ (r.dst = p.src.val) ∧ (r.tag = p.tag.toNat) ∧ (r.ack = true) ∧ (r.line = none) ∧ (r.via = none) ∧ (r.status = 0) ∧ (s.net.gates = []) ∧ (s.cuffClear = true) ∧ (p.src.val = epMover m.val) ∧ (s.domOn (320 + m.val / 16) = true) ∧ (s.movers = [(m.val, { MoverS.reset with fin := some f })]) ∧ (f.tag = p.tag.toNat) ∧ (f.post = none) ∧ (f.word < 2 ^ 32) ∧ (f.code < 32) ∧ (f.idx < 2 ^ 15) ∧ (s.get (Reg.MOVER.RING_SIZE.LOG2 m.val) ≤ 15) ∧ (f.abort = true ∨ s.isEnabled (moverPg m.val) = false ∨ (f.idx + 1) % s.mvSize m.val = s.get (Reg.MOVER.RING_HEAD.IDX m.val) % s.mvSize m.val)) ∧
    (∃ (s : State) (m : Fin 32) (ofs : BitVec 27) (j : MvJob) (p : MvPkt), (s.canonical = true) ∧ ((s.mover m.val).job = some j) ∧ (j.pkts = [p]) ∧ (j.chk = none) ∧ (j.stop = false) ∧ (j.abort = false) ∧ (j.post = none) ∧ (p.ofs = ofs.toNat) ∧ (p.ack = some stBUSY) ∧ (p.cast = false) ∧ (s.hostMode (moverPg m.val) = false) ∧ (p.tries < s.get (Reg.MOVER.MV_CFG.RETRY_MAX m.val)) ∧ (j.len ≤ j.next)) ∧
    (∃ (s : State) (m : Fin 32) (ofs : BitVec 27) (j : MvJob) (p : MvPkt) (d : Nat), ((s.mover m.val).job = some j) ∧ (j.pkts = [p]) ∧ (j.chk = none) ∧ (j.stop = false) ∧ (j.abort = false) ∧ (j.post = none) ∧ (p.ofs = ofs.toNat) ∧ (p.stage = 2) ∧ (p.wr = false) ∧ (j.ssp = 0) ∧ (j.src + p.ofs < 2 ^ 48) ∧ (epOf (j.src + p.ofs) = some d) ∧ ((s.lane (epMover m.val) d).count < 32766)) ∧
    (∃ (s : State) (src : Source) (m : Fin 32) (j : MvJob) (p : MvPkt) (d : Nat), (s.canonical = true) ∧ ((src == .host && s.hostWaits) = false) ∧ (s.answers src (moverPg m.val + 0x64) = true) ∧ ((s.mover m.val).job = some j) ∧ (j.pkts = [p]) ∧ (j.chk = none) ∧ (j.stop = false) ∧ (j.abort = false) ∧ (j.post = none) ∧ (p.stage = 3) ∧ (s.mvState m.val = 3) ∧ (j.len ≤ j.next) ∧ (p.wr = false) ∧ (j.ssp = 0) ∧ (j.src + p.ofs < 2 ^ 48) ∧ (epOf (j.src + p.ofs) = some d) ∧ ((s.lane (epMover m.val) d).count < 32766)) ∧
    (∃ (s : State) (src : Source) (m : Fin 32) (j : MvJob) (p : MvPkt) (d : Nat), (s.canonical = true) ∧ ((src == .host && s.hostWaits) = false) ∧ (s.answers src (moverPg m.val + 0x64) = true) ∧ ((s.mover m.val).job = some j) ∧ (j.pkts = [p]) ∧ (j.chk = none) ∧ (j.stop = false) ∧ (j.abort = false) ∧ (j.post = none) ∧ (p.stage = 3) ∧ (j.fail = none) ∧ (s.mvState m.val = 3) ∧ (epOf (s.mvSlot m.val j.idx + 28) = some d) ∧ ((s.lane (epMover m.val) d).count < 32766)) ∧
    (∃ (s : State) (src : Source) (m : Fin 32), (s.canonical = true) ∧ ((src == .host && s.hostWaits) = false) ∧ (s.answers src (moverPg m.val + 0x64) = true) ∧ (s.mvState m.val = 4) ∧ (s.isEnabled (moverPg m.val) = false ∨ s.get (Reg.MOVER.RING_HEAD.IDX m.val) % s.mvSize m.val = s.get (Reg.MOVER.RING_TAIL.IDX m.val))) ∧
    (∃ (s : State) (src : Source) (m : Fin 32), (s.canonical = true) ∧ ((src == .host && s.hostWaits) = false) ∧ (s.answers src (moverPg m.val + 0x64) = true) ∧ (s.mover m.val = MoverS.reset)) ∧
    (∃ (s : State) (src : Source) (m : Fin 32) (j : MvJob) (p : MvPkt), (s.canonical = true) ∧ ((src == .host && s.hostWaits) = false) ∧ (s.answers src (moverPg m.val + 0x64) = true) ∧ ((s.mover m.val).job = some j) ∧ (j.pkts = [p]) ∧ (j.chk = none) ∧ (j.stop = false) ∧ (j.abort = false) ∧ (j.post = none) ∧ (p.stage = 0)) :=
  ⟨⟨(((upState.put (Reg.MOVER.RING_SIZE.LOG2 5) 4).put (Reg.MOVER.RING_BASE.ADDR 5) 0xC01000).put (Reg.MOVER.RING_HEAD.IDX 5) 3), .host, 5, 9, by decide⟩,
    ⟨(((upState.put (Reg.MOVER.RING_SIZE.LOG2 5) 4).put (Reg.MOVER.RING_BASE.ADDR 5) 0xC01000).put (Reg.MOVER.RING_HEAD.IDX 5) 3).put (Reg.MOVER.MV_CFG.POST 5) 1, .host, 5, 9, by decide⟩,
    ⟨((((upState.put (Reg.MOVER.RING_SIZE.LOG2 5) 4).put (Reg.MOVER.RING_BASE.ADDR 5) 0xC01000).put (Reg.MOVER.RING_HEAD.IDX 5) 3).put (Reg.HDR.BLK_CTRL.EN (moverPg 5)) 1).put (Reg.MOVER.RING_HEAD.IDX 5) 0, .host, 5, 9, 3, by decide⟩,
    ⟨{ (((((upState.put (Reg.MOVER.RING_SIZE.LOG2 5) 4).put (Reg.MOVER.RING_BASE.ADDR 5) 0xC01000).put (Reg.MOVER.RING_HEAD.IDX 5) 3).put (Reg.HDR.BLK_CTRL.EN (moverPg 5)) 1).put (Reg.MOVER.MV_CFG.POST 5) 1).put (Reg.MOVER.MV_STAT2.STATE 5) 1 with posts := [⟨5, 3, 7, none, toBytes 8 0xC00100 ++ toBytes 8 0x800200 ++ toBytes 4 0x40 ++ toBytes 4 0 ++ toBytes 8 0⟩] }, 5, ⟨5, 3, 7, none, toBytes 8 0xC00100 ++ toBytes 8 0x800200 ++ toBytes 4 0x40 ++ toBytes 4 0 ++ toBytes 8 0⟩, 3, by decide⟩,
    ⟨{ (((upState.put (Reg.MOVER.RING_SIZE.LOG2 5) 4).put (Reg.MOVER.RING_BASE.ADDR 5) 0xC01000).put (Reg.MOVER.RING_HEAD.IDX 5) 3).modTile 3 (fun x => { x with tracked := [⟨false, some 8, 2, 1, none, 8192, 0, [], none⟩] }) with posts := [⟨5, 3, 7, some 0, toBytes 8 0xC00100 ++ toBytes 8 0x800200 ++ toBytes 4 0x40 ++ toBytes 4 0 ++ toBytes 8 0⟩] }, 5, ⟨5, 3, 7, some 0, toBytes 8 0xC00100 ++ toBytes 8 0x800200 ++ toBytes 4 0x40 ++ toBytes 4 0 ++ toBytes 8 0⟩, ⟨false, some 8, 2, 1, none, 8192, 0, [], none⟩, 8, by decide⟩,
    ⟨{ ((((((upState.put (Reg.MOVER.RING_SIZE.LOG2 5) 4).put (Reg.MOVER.RING_BASE.ADDR 5) 0xC01000).put (Reg.MOVER.RING_HEAD.IDX 5) 3).put (Reg.HDR.BLK_CTRL.EN (moverPg 5)) 1).put (Reg.MOVER.MV_CFG.POST 5) 1).put (Reg.MOVER.RING_TAIL.IDX 5) 4).modTile 3 (fun x => { x with tracked := [⟨false, some 8, 2, 1, none, 8192, 0, [], none⟩] }) with posts := [⟨5, 3, 7, some 0, toBytes 8 0xC00100 ++ toBytes 8 0x800200 ++ toBytes 4 0x40 ++ toBytes 4 0 ++ toBytes 8 0⟩] }, 5, ⟨5, 3, 7, some 0, toBytes 8 0xC00100 ++ toBytes 8 0x800200 ++ toBytes 4 0x40 ++ toBytes 4 0 ++ toBytes 8 0⟩, ⟨false, some 8, 2, 1, none, 8192, 0, [], none⟩, 8, by decide⟩,
    ⟨{ ((((upState.put (Reg.MOVER.RING_SIZE.LOG2 5) 4).put (Reg.MOVER.RING_BASE.ADDR 5) 0xC01000).put (Reg.MOVER.RING_HEAD.IDX 5) 3).put (Reg.HDR.BLK_CTRL.EN (moverPg 5)) 1).put (Reg.MOVER.MV_STAT2.STATE 5) 1 |>.put (Reg.MOVER.RING_TAIL.IDX 5) 2 with movers := [(5, { MoverS.reset with fetched := some (3, toBytes 8 0xC00100 ++ toBytes 8 0x800200 ++ toBytes 4 0x40 ++ toBytes 4 0 ++ toBytes 8 0) })] }, 5, 3, toBytes 8 0xC00100 ++ toBytes 8 0x800200 ++ toBytes 4 0x40 ++ toBytes 4 0 ++ toBytes 8 0, 3, by decide⟩,
    ⟨{ ((((upState.put (Reg.MOVER.RING_SIZE.LOG2 5) 4).put (Reg.MOVER.RING_BASE.ADDR 5) 0xC01000).put (Reg.MOVER.RING_HEAD.IDX 5) 3).put (Reg.HDR.BLK_CTRL.EN (moverPg 5)) 1).put (Reg.MOVER.MV_STAT2.STATE 5) 1 |>.put (Reg.MOVER.RING_TAIL.IDX 5) 2 with movers := [(5, { MoverS.reset with fetched := some (0, toBytes 8 0xC00100 ++ toBytes 8 0x800200 ++ toBytes 4 0x40 ++ toBytes 4 0 ++ toBytes 8 0) })] }, 5, toBytes 8 0xC00100 ++ toBytes 8 0x800200 ++ toBytes 4 0x40 ++ toBytes 4 0 ++ toBytes 8 0, 3, by decide⟩,
    ⟨{ ((((upState.put (Reg.MOVER.RING_SIZE.LOG2 5) 4).put (Reg.MOVER.RING_BASE.ADDR 5) 0xC01000).put (Reg.MOVER.RING_HEAD.IDX 5) 3).put (Reg.HDR.BLK_CTRL.EN (moverPg 5)) 1).put (Reg.MOVER.MV_STAT2.STATE 5) 2 with movers := [(5, { MoverS.reset with job := some { idx := 2, ssp := 0, src := 0xC00100, dsp := 0, dst := 0x800200, len := 64, bcast := false, doneF := true, irq := true, chk := some 2, op := 0, cont := false, poly := 0, post := none, next := 0, pkts := [], retries := 0, fail := none, stop := false, abort := false, trail := false, fed := 0 } })], chk := [(2, { ChkS.reset with wait := [5] })] }, 2, 5, { idx := 2, ssp := 0, src := 0xC00100, dsp := 0, dst := 0x800200, len := 64, bcast := false, doneF := true, irq := true, chk := some 2, op := 0, cont := false, poly := 0, post := none, next := 0, pkts := [], retries := 0, fail := none, stop := false, abort := false, trail := false, fed := 0 }, by decide⟩,
    ⟨{ ((((upState.put (Reg.MOVER.RING_SIZE.LOG2 5) 4).put (Reg.MOVER.RING_BASE.ADDR 5) 0xC01000).put (Reg.MOVER.RING_HEAD.IDX 5) 3).put (Reg.HDR.BLK_CTRL.EN (moverPg 5)) 1).put (Reg.MOVER.MV_STAT2.STATE 5) 1 |>.put (Reg.MOVER.RING_TAIL.IDX 5) 2 with movers := [(5, { MoverS.reset with job := some { idx := 2, ssp := 0, src := 0xC00100, dsp := 0, dst := 0x800200, len := 64, bcast := false, doneF := true, irq := true, chk := none, op := 0, cont := false, poly := 0, post := none, next := 64, pkts := [⟨0, 64, 0, true, 7, [], true, false, 0, some 0, false⟩], retries := 0, fail := none, stop := false, abort := false, trail := false, fed := 0 } })] }, 5, 0, { idx := 2, ssp := 0, src := 0xC00100, dsp := 0, dst := 0x800200, len := 64, bcast := false, doneF := true, irq := true, chk := none, op := 0, cont := false, poly := 0, post := none, next := 64, pkts := [⟨0, 64, 0, true, 7, [], true, false, 0, some 0, false⟩], retries := 0, fail := none, stop := false, abort := false, trail := false, fed := 0 }, ⟨0, 64, 0, true, 7, [], true, false, 0, some 0, false⟩, 3, by decide⟩,
    ⟨{ ((((upState.put (Reg.MOVER.RING_SIZE.LOG2 5) 4).put (Reg.MOVER.RING_BASE.ADDR 5) 0xC01000).put (Reg.MOVER.RING_HEAD.IDX 5) 3).put (Reg.HDR.BLK_CTRL.EN (moverPg 5)) 1).put (Reg.MOVER.MV_STAT2.STATE 5) 1 |>.put (Reg.MOVER.RING_TAIL.IDX 5) 2 with movers := [(5, { MoverS.reset with fin := some ⟨9, 2, 2147483648, 0, none, true, false, false, none⟩ })], net := { NetS.reset with out := [{ op := 1, src := 186, smod := 0, tag := 9, cls := 5, epoch := false, dmod := 0, addr := 0xC0105C, size := 4, data := [0, 0, 0, 0], mcast := none }], past := [(186, 9)], rsps := [⟨186, 9, 3, false, 0, [], none, true, false, none⟩] } }, 5, { op := 1, src := 186, smod := 0, tag := 9, cls := 5, epoch := false, dmod := 0, addr := 0xC0105C, size := 4, data := [0, 0, 0, 0], mcast := none }, ⟨186, 9, 3, false, 0, [], none, true, false, none⟩, ⟨9, 2, 2147483648, 0, none, true, false, false, none⟩, by decide⟩,
    ⟨({ ((((upState.put (Reg.MOVER.RING_SIZE.LOG2 5) 4).put (Reg.MOVER.RING_BASE.ADDR 5) 0xC01000).put (Reg.MOVER.RING_HEAD.IDX 5) 3).put (Reg.HDR.BLK_CTRL.EN (moverPg 5)) 1).put (Reg.MOVER.MV_STAT2.STATE 5) 1 |>.put (Reg.MOVER.RING_TAIL.IDX 5) 2 with movers := [(5, { MoverS.reset with job := some { idx := 2, ssp := 0, src := 0xC00100, dsp := 0, dst := 0x800200, len := 64, bcast := false, doneF := true, irq := true, chk := none, op := 0, cont := false, poly := 0, post := none, next := 64, pkts := [⟨0, 64, 0, false, 7, [], true, false, 0, some stBUSY, false⟩], retries := 0, fail := none, stop := false, abort := false, trail := false, fed := 0 } })] }), 5, 0, { idx := 2, ssp := 0, src := 0xC00100, dsp := 0, dst := 0x800200, len := 64, bcast := false, doneF := true, irq := true, chk := none, op := 0, cont := false, poly := 0, post := none, next := 64, pkts := [⟨0, 64, 0, false, 7, [], true, false, 0, some stBUSY, false⟩], retries := 0, fail := none, stop := false, abort := false, trail := false, fed := 0 }, ⟨0, 64, 0, false, 7, [], true, false, 0, some stBUSY, false⟩, by decide⟩,
    ⟨{ ((((upState.put (Reg.MOVER.RING_SIZE.LOG2 5) 4).put (Reg.MOVER.RING_BASE.ADDR 5) 0xC01000).put (Reg.MOVER.RING_HEAD.IDX 5) 3).put (Reg.HDR.BLK_CTRL.EN (moverPg 5)) 1).put (Reg.MOVER.MV_STAT2.STATE 5) 1 |>.put (Reg.MOVER.RING_TAIL.IDX 5) 2 with movers := [(5, { MoverS.reset with job := some { idx := 2, ssp := 0, src := 0xC00100, dsp := 0, dst := 0x800200, len := 64, bcast := false, doneF := true, irq := true, chk := none, op := 0, cont := false, poly := 0, post := none, next := 64, pkts := [⟨0, 64, 2, false, 7, [], true, false, 0, none, false⟩], retries := 0, fail := none, stop := false, abort := false, trail := false, fed := 0 } })] }, 5, 0, { idx := 2, ssp := 0, src := 0xC00100, dsp := 0, dst := 0x800200, len := 64, bcast := false, doneF := true, irq := true, chk := none, op := 0, cont := false, poly := 0, post := none, next := 64, pkts := [⟨0, 64, 2, false, 7, [], true, false, 0, none, false⟩], retries := 0, fail := none, stop := false, abort := false, trail := false, fed := 0 }, ⟨0, 64, 2, false, 7, [], true, false, 0, none, false⟩, 3, by decide⟩,
    ⟨{ ((((upState.put (Reg.MOVER.RING_SIZE.LOG2 5) 4).put (Reg.MOVER.RING_BASE.ADDR 5) 0xC01000).put (Reg.MOVER.RING_HEAD.IDX 5) 3).put (Reg.HDR.BLK_CTRL.EN (moverPg 5)) 1).put (Reg.MOVER.MV_STAT2.STATE 5) 3 |>.put (Reg.MOVER.RING_TAIL.IDX 5) 2 with movers := [(5, { MoverS.reset with job := some { idx := 2, ssp := 0, src := 0xC00100, dsp := 0, dst := 0x800200, len := 64, bcast := false, doneF := true, irq := true, chk := none, op := 0, cont := false, poly := 0, post := none, next := 64, pkts := [⟨0, 64, 3, false, 7, [], true, false, 0, none, false⟩], retries := 0, fail := none, stop := false, abort := false, trail := false, fed := 0 } })] }, .host, 5, { idx := 2, ssp := 0, src := 0xC00100, dsp := 0, dst := 0x800200, len := 64, bcast := false, doneF := true, irq := true, chk := none, op := 0, cont := false, poly := 0, post := none, next := 64, pkts := [⟨0, 64, 3, false, 7, [], true, false, 0, none, false⟩], retries := 0, fail := none, stop := false, abort := false, trail := false, fed := 0 }, ⟨0, 64, 3, false, 7, [], true, false, 0, none, false⟩, 3, by decide⟩,
    ⟨{ ((((upState.put (Reg.MOVER.RING_SIZE.LOG2 5) 4).put (Reg.MOVER.RING_BASE.ADDR 5) 0xC01000).put (Reg.MOVER.RING_HEAD.IDX 5) 3).put (Reg.HDR.BLK_CTRL.EN (moverPg 5)) 1).put (Reg.MOVER.MV_STAT2.STATE 5) 3 |>.put (Reg.MOVER.RING_TAIL.IDX 5) 2 with movers := [(5, { MoverS.reset with job := some { idx := 2, ssp := 0, src := 0xC00100, dsp := 0, dst := 0x800200, len := 64, bcast := false, doneF := true, irq := true, chk := none, op := 0, cont := false, poly := 0, post := none, next := 64, pkts := [⟨0, 64, 3, false, 7, [], true, false, 0, none, false⟩], retries := 0, fail := none, stop := false, abort := false, trail := false, fed := 0 } })] }, .host, 5, { idx := 2, ssp := 0, src := 0xC00100, dsp := 0, dst := 0x800200, len := 64, bcast := false, doneF := true, irq := true, chk := none, op := 0, cont := false, poly := 0, post := none, next := 64, pkts := [⟨0, 64, 3, false, 7, [], true, false, 0, none, false⟩], retries := 0, fail := none, stop := false, abort := false, trail := false, fed := 0 }, ⟨0, 64, 3, false, 7, [], true, false, 0, none, false⟩, 3, by decide⟩,
    ⟨(((upState.put (Reg.MOVER.RING_SIZE.LOG2 5) 4).put (Reg.MOVER.RING_BASE.ADDR 5) 0xC01000).put (Reg.MOVER.RING_HEAD.IDX 5) 3).put (Reg.MOVER.MV_STAT2.STATE 5) 4, .host, 5, by decide⟩,
    ⟨(((upState.put (Reg.MOVER.RING_SIZE.LOG2 5) 4).put (Reg.MOVER.RING_BASE.ADDR 5) 0xC01000).put (Reg.MOVER.RING_HEAD.IDX 5) 3), .host, 5, by decide⟩,
    ⟨{ ((((upState.put (Reg.MOVER.RING_SIZE.LOG2 5) 4).put (Reg.MOVER.RING_BASE.ADDR 5) 0xC01000).put (Reg.MOVER.RING_HEAD.IDX 5) 3).put (Reg.HDR.BLK_CTRL.EN (moverPg 5)) 1).put (Reg.MOVER.MV_STAT2.STATE 5) 1 |>.put (Reg.MOVER.RING_TAIL.IDX 5) 2 with movers := [(5, { MoverS.reset with job := some { idx := 2, ssp := 0, src := 0xC00100, dsp := 0, dst := 0x800200, len := 64, bcast := false, doneF := true, irq := true, chk := none, op := 0, cont := false, poly := 0, post := none, next := 64, pkts := [⟨0, 64, 0, false, 7, [], true, false, 0, none, false⟩], retries := 0, fail := none, stop := false, abort := false, trail := false, fed := 0 } })] }, .host, 5, { idx := 2, ssp := 0, src := 0xC00100, dsp := 0, dst := 0x800200, len := 64, bcast := false, doneF := true, irq := true, chk := none, op := 0, cont := false, poly := 0, post := none, next := 64, pkts := [⟨0, 64, 0, false, 7, [], true, false, 0, none, false⟩], retries := 0, fail := none, stop := false, abort := false, trail := false, fed := 0 }, ⟨0, 64, 0, false, 7, [], true, false, 0, none, false⟩, by decide⟩⟩

theorem witness_ScansComplete :
    (∃ (s : State) (src : Source) (c : Fin 8) (op : Fin 4) (cont : Bool), (s.canonical = true) ∧ ((src == .host && s.hostWaits) = false) ∧ (s.answers src (checkPg c.val + 0x54) = true) ∧ (op.val ≠ 3) ∧ (s.isEnabled (checkPg c.val) = true) ∧ (s.get (Reg.CHECK.CHK_CFG.BIND c.val) = 0) ∧ (s.chkFree c.val = true) ∧ (s.get (Reg.CHECK.SCAN_ADDR.ADDR c.val) % 8 = 0) ∧ (s.get (Reg.CHECK.SCAN_LEN.LEN c.val) % 8 = 0) ∧ (8 ≤ s.get (Reg.CHECK.SCAN_LEN.LEN c.val)) ∧ (populated (s.get (Reg.CHECK.SCAN_ADDR.ADDR c.val)) (s.get (Reg.CHECK.SCAN_LEN.LEN c.val) + if op.val = 0 then 0 else 8) = true)) ∧
    (∃ (s : State) (src : Source) (c : Fin 8) (cont : Bool), (s.canonical = true) ∧ ((src == .host && s.hostWaits) = false) ∧ (s.answers src (checkPg c.val + 0x54) = true)) ∧
    (∃ (s : State) (c : Fin 8) (a len poly : Nat), (s.canonical = true) ∧ ((s.chkCh c.val).scan = some (a, len, 0, poly)) ∧ (s.pageUp (pageAt (checkPg c.val)) = true) ∧ (a / 0x400000 < 256) ∧ (s.domOn (a / 0x400000) = true) ∧ (a % 64 + len ≤ 64) ∧ (0 < len) ∧ (a % 0x400000 + len ≤ 0x300000) ∧ (s.bankOn (a / 0x400000) (a % 0x400000 / 0x30000) = true) ∧ (soundStore s = true) ∧ (s.cuffClear = true)) ∧
    (∃ (s : State) (c : Fin 8) (a len poly : Nat), (s.canonical = true) ∧ ((s.chkCh c.val).scan = some (a, len, 2, poly)) ∧ (s.pageUp (pageAt (checkPg c.val)) = true) ∧ (a / 0x400000 < 256) ∧ (s.domOn (a / 0x400000) = true) ∧ (a % 64 + len + 8 ≤ 64) ∧ (0 < len) ∧ (a % 0x400000 + len + 8 ≤ 0x300000) ∧ (s.bankOn (a / 0x400000) (a % 0x400000 / 0x30000) = true) ∧ (soundStore s = true) ∧ (s.cuffClear = true)) ∧
    (∃ (s : State) (src : Source) (c : Fin 8) (n : BitVec 30) (a len op poly : Nat), (s.canonical = true) ∧ ((src == .host && s.hostWaits) = false) ∧ (s.answers src (checkPg c.val + 0x54) = true) ∧ ((s.chkCh c.val).scan = some (a, len, op, poly)) ∧ (a / 0x400000 < 256) ∧ (s.domOn (a / 0x400000) = true) ∧ (a % 64 + len ≤ 64) ∧ (0 < len) ∧ (a % 0x400000 + len ≤ 0x300000) ∧ (s.bankOn (a / 0x400000) (a % 0x400000 / 0x30000) = true) ∧ (soundStore s = true) ∧ (s.cuffClear = true)) :=
  ⟨⟨{ (((upState.put (Reg.CHECK.SCAN_ADDR.ADDR 2) 0xC00100).put (Reg.CHECK.SCAN_LEN.LEN 2) 64).put (Reg.HDR.BLK_CTRL.EN (checkPg 2)) 1) with mem := [(12583176, 136), (12583177, 119), (12583178, 102), (12583179, 85), (12583180, 68), (12583181, 51), (12583182, 34), (12583183, 17)] }, .host, 2, 1, false, by decide⟩,
    ⟨{ (((upState.put (Reg.CHECK.SCAN_ADDR.ADDR 2) 0xC00100).put (Reg.CHECK.SCAN_LEN.LEN 2) 64).put (Reg.HDR.BLK_CTRL.EN (checkPg 2)) 1) with mem := [(12583176, 136), (12583177, 119), (12583178, 102), (12583179, 85), (12583180, 68), (12583181, 51), (12583182, 34), (12583183, 17)] }, .host, 2, false, by decide⟩,
    ⟨{ (((upState.put (Reg.CHECK.SCAN_ADDR.ADDR 2) 0xC00100).put (Reg.CHECK.SCAN_LEN.LEN 2) 64).put (Reg.HDR.BLK_CTRL.EN (checkPg 2)) 1) with mem := [(12583176, 136), (12583177, 119), (12583178, 102), (12583179, 85), (12583180, 68), (12583181, 51), (12583182, 34), (12583183, 17)], chk := [(2, { ChkS.reset with scan := some (0xC00100, 64, 0, 0) })] }, 2, 0xC00100, 64, 0, by decide⟩,
    ⟨{ (((upState.put (Reg.CHECK.SCAN_ADDR.ADDR 2) 0xC00100).put (Reg.CHECK.SCAN_LEN.LEN 2) 64).put (Reg.HDR.BLK_CTRL.EN (checkPg 2)) 1) with mem := [(12583176, 136), (12583177, 119), (12583178, 102), (12583179, 85), (12583180, 68), (12583181, 51), (12583182, 34), (12583183, 17)], chk := [(2, { ChkS.reset with scan := some (0xC00100, 56, 2, 0) })] }, 2, 0xC00100, 56, 0, by decide⟩,
    ⟨{ (((upState.put (Reg.CHECK.SCAN_ADDR.ADDR 2) 0xC00100).put (Reg.CHECK.SCAN_LEN.LEN 2) 64).put (Reg.HDR.BLK_CTRL.EN (checkPg 2)) 1) with mem := [(12583176, 136), (12583177, 119), (12583178, 102), (12583179, 85), (12583180, 68), (12583181, 51), (12583182, 34), (12583183, 17)], chk := [(2, { ChkS.reset with scan := some (0xC00100, 64, 1, 0) })] }, .host, 2, 24, 0xC00100, 64, 1, 0, by decide⟩⟩

theorem witness_HostTransactionsComplete :
    (∃ (s : State), (s.canonical = true) ∧ (s.power.input = true)) ∧
    (∃ (s : State), (s.canonical = true)) ∧
    (∃ (s : State), (s.canonical = true)) ∧
    (∃ (s : State), (s.canonical = true)) ∧
    (∃ (s : State) (speed : Fin 8) (width : Fin 32) (flit : Bool), (s.canonical = true) ∧ (s.pcie.training = true) ∧ (1 ≤ speed.val ∧ speed.val ≤ 6) ∧ (width.val = 1 ∨ width.val = 2 ∨ width.val = 4 ∨ width.val = 8 ∨ width.val = 16)) ∧
    (∃ (s : State) (ofs len d : Nat), (onePiece s ofs len d = true)) ∧
    (∃ (s : State) (ofs len : Nat), (2 ^ s.pcie.bar2 < ofs + len)) ∧
    (∃ (s : State) (ofs : Nat) (data : List (Byte × Bool)), (s.canonical = true) ∧ (s.pcie.d3 = false) ∧ (ofs + data.length ≤ 2 ^ s.pcie.bar2)) ∧
    (∃ (s : State) (v : Word32), (s.canonical = true) ∧ (hostClear s = true) ∧ (s.answers .host (pgISSUE + 0x90) = true)) ∧
    (∃ (s : State) (v : Word32), (s.canonical = true) ∧ (hostClear s = true) ∧ (s.answers .host (pgSTEP + 0x8C) = true)) ∧
    (∃ (s : State) (m : Fin 32) (v : Word32), (s.canonical = true) ∧ (hostClear s = true) ∧ (s.answers .host (moverPg m.val + 0x54) = true) ∧ (s.get (Reg.MOVER.MV_CFG.POST m.val) = 0) ∧ (s.mvState m.val ≠ 0 ∨ s.isEnabled (moverPg m.val) = false)) ∧
    (∃ (s : State) (vec : Fin 2048), (s.msixPending.contains vec.val = true) ∧ (s.pcie.bme = true) ∧ (s.pcie.msixEn = true) ∧ (s.pcie.fmask = false) ∧ ((getAt 1 (4 * vec.val + 3) s.pcie.table).getLsbD 0 = false)) ∧
    (∃ (s : State) (vec : Fin 2048), ((getAt 1 (4 * vec.val + 3) s.pcie.table).getLsbD 0 = true)) ∧
    (∃ (s : State) (tag : BitVec 10) (o : OutRead) (data : List Byte), (s.pcie.outb = [o]) ∧ (o.tag = some tag.toNat) ∧ (o.got = none) ∧ ((s.lane epPcieOut o.ep).count < 32766) ∧ (data.length = o.len)) ∧
    (∃ (s : State) (tag : BitVec 10) (o : OutRead) (c : HostCpl), (s.pcie.outb = [o]) ∧ (o.tag = some tag.toNat) ∧ (o.got = none) ∧ ((s.lane epPcieOut o.ep).count < 32766) ∧ (c.ok = false ∨ c.poisoned = true)) ∧
    (∃ (s : State) (tag : BitVec 10) (o : OutRead), (s.pcie.outb = [o]) ∧ (o.tag = some tag.toNat) ∧ (o.got = none) ∧ ((s.lane epPcieOut o.ep).count < 32766)) ∧
    (∃ (s : State) (tag : BitVec 10) (c : HostCpl), (s.pcie.outb = [])) :=
  ⟨⟨{ upState with power := { upState.power with input := true }, pcie := { PcieS.reset with bme := true, table := [(3, 0)], tlps := [⟨4, true, 0, 8, [⟨0xC00000, 8, [1], some 9, none, []⟩]⟩] }, msixPending := [3] }, by decide⟩,
    ⟨{ upState with pcie := { PcieS.reset with bme := true, table := [(3, 0)], tlps := [⟨4, true, 0, 8, [⟨0xC00000, 8, [1], some 9, none, []⟩]⟩] }, msixPending := [3] }, by decide⟩,
    ⟨{ upState with pcie := { PcieS.reset with bme := true, table := [(3, 0)], tlps := [⟨4, true, 0, 8, [⟨0xC00000, 8, [1], some 9, none, []⟩]⟩] }, msixPending := [3] }, by decide⟩,
    ⟨{ upState with pcie := { PcieS.reset with bme := true, table := [(3, 0)], tlps := [⟨4, true, 0, 8, [⟨0xC00000, 8, [1], some 9, none, []⟩]⟩] }, msixPending := [3] }, by decide⟩,
    ⟨{ upState with pcie := { PcieS.reset with training := true } }, 6, 16, true, by decide⟩,
    ⟨{ upState with pcie := { PcieS.reset with bar2 := 34 } }, 0xC00100, 64, 3, by decide⟩,
    ⟨upState, 0x40000000, 8, by decide⟩,
    ⟨upState, 0x40, [(1, true)], by decide⟩,
    ⟨upState, 0x30, by decide⟩,
    ⟨upState, 0x18030, by decide⟩,
    ⟨upState, 5, 0x10003, by decide⟩,
    ⟨{ upState with pcie := { PcieS.reset with bme := true, msixEn := true, table := [(15, 0)] }, msixPending := [3, 4] }, 3, by decide⟩,
    ⟨{ upState with pcie := { PcieS.reset with bme := true, msixEn := true, table := [(15, 0)] }, msixPending := [3, 4] }, 4, by decide⟩,
    ⟨{ upState with pcie := { PcieS.reset with bme := true, outb := [⟨186, 9, 0x1000, 64, some 7, none⟩] } }, 7, ⟨186, 9, 0x1000, 64, some 7, none⟩, ((List.range 64).map (BitVec.ofNat 8 ·)), by decide⟩,
    ⟨{ upState with pcie := { PcieS.reset with bme := true, outb := [⟨186, 9, 0x1000, 64, some 7, none⟩] } }, 7, ⟨186, 9, 0x1000, 64, some 7, none⟩, ⟨true, true, []⟩, by decide⟩,
    ⟨{ upState with pcie := { PcieS.reset with bme := true, outb := [⟨186, 9, 0x1000, 64, some 7, none⟩] } }, 7, ⟨186, 9, 0x1000, 64, some 7, none⟩, by decide⟩,
    ⟨upState, 7, ⟨true, false, []⟩, by decide⟩⟩

theorem witness_HostConfigurationCompletes :
    (∃ (s : State) (on : Bool), (s.pcie.outb = [])) ∧
    (∃ (s : State) (n : Nat), (n = 128 ∨ n = 256 ∨ n = 512)) ∧
    (∃ (s : State) (n : Nat), (n = 128 ∨ n = 256 ∨ n = 512 ∨ n = 1024 ∨ n = 2048 ∨ n = 4096)) ∧
    (∃ (s : State) (vec : Fin 2048) (w : Fin 4) (v : Word32), (s.pcie.d3 = false) ∧ (risingFrom 0 s.pcie.table = true)) ∧
    (∃ (s : State) (eid : BitVec 8), (s.isReady pgCROWN = true) ∧ (eid ≠ 0) ∧ (eid ≠ 255)) ∧
    (∃ (s : State), (s.isReady pgCROWN = true)) ∧
    (∃ (s : State), (s.isReady pgCROWN = true)) ∧
    (∃ (s : State), (s.isReady pgCROWN = true)) :=
  ⟨⟨upState, true, by decide⟩,
    ⟨upState, 256, by decide⟩,
    ⟨upState, 4096, by decide⟩,
    ⟨{ upState with pcie := { PcieS.reset with bme := true, msixEn := true, table := [(15, 0)] }, msixPending := [3, 4] }, 3, 3, 1, by decide⟩,
    ⟨(upState.put (Reg.HDR.BLK_STAT.READY pgCROWN) 1), 9, by decide⟩,
    ⟨(upState.put (Reg.HDR.BLK_STAT.READY pgCROWN) 1), by decide⟩,
    ⟨(upState.put (Reg.HDR.BLK_STAT.READY pgCROWN) 1), by decide⟩,
    ⟨(upState.put (Reg.HDR.BLK_STAT.READY pgCROWN) 1), by decide⟩⟩

theorem witness_StreamPortsComplete :
    (∃ (s : State) (f : InFrame) (c : Fin 128), (s.canonical = true) ∧ (forPort s f = true) ∧ ((List.range 128).find? (s.ctxMatch f) = some c.val) ∧ (goodFrame s f c.val = true) ∧ (frWord f 4 = s.get (Reg.SCTX.CTX_W14.SEQ_NEXT (c.val / 32) (c.val % 32))) ∧ (frWord f 8 = 0xFFFFFFFF) ∧ ((s.ctxOf c.val).slots = []) ∧ (f.payload.length ≤ 64) ∧ ((s.ctxBase c.val + 9216 * s.get (Reg.SCTX.CTX_W21.TAIL (c.val / 32) (c.val % 32))) % 64 = 0) ∧ (s.ctxBase c.val + 9216 * s.get (Reg.SCTX.CTX_W21.TAIL (c.val / 32) (c.val % 32)) < 0x40000000) ∧ ((s.ctxBase c.val + 9216 * s.get (Reg.SCTX.CTX_W21.TAIL (c.val / 32) (c.val % 32))) % 0x400000 < 0x300000) ∧ (s.bankOn ((s.ctxBase c.val + 9216 * s.get (Reg.SCTX.CTX_W21.TAIL (c.val / 32) (c.val % 32))) / 0x400000) ((s.ctxBase c.val + 9216 * s.get (Reg.SCTX.CTX_W21.TAIL (c.val / 32) (c.val % 32))) % 0x400000 / 0x30000) = true) ∧ (soundStore s = true) ∧ (s.cuffClear = true) ∧ ((s.ctxOf c.val).writing = [])) ∧
    (∃ (s : State) (f : InFrame) (c : Fin 128), (s.canonical = true) ∧ (forPort s f = true) ∧ ((List.range 128).find? (s.ctxMatch f) = some c.val) ∧ (goodFrame s f c.val = true) ∧ (frWord f 4 ≠ s.get (Reg.SCTX.CTX_W14.SEQ_NEXT (c.val / 32) (c.val % 32))) ∧ (State.before32 (s.get (Reg.SCTX.CTX_W14.SEQ_NEXT (c.val / 32) (c.val % 32))) (frWord f 4) = false)) ∧
    (∃ (s : State) (f : InFrame), (s.canonical = true) ∧ (s.spUp f.port.val = true) ∧ (f.mac = 1)) ∧
    (∃ (s : State) (f : InFrame), (s.canonical = true) ∧ (s.spUp f.port.val = true) ∧ (f.mac = 0) ∧ (f.dmac.toNat ≠ s.get (Reg.SP.MAC.ADDR f.port.val))) ∧
    (∃ (s : State) (f : InFrame), (s.canonical = true) ∧ (forPort s f = true) ∧ ((List.range 128).find? (s.ctxMatch f) = none)) ∧
    (∃ (s : State) (f : InFrame), (s.canonical = true) ∧ (forPort s f = true) ∧ (((List.range 128).find? (s.ctxMatch f)).isSome = true) ∧ (24 ≤ f.payload.length) ∧ (frByte f 1 = 1) ∧ (frByte f 2 = 1) ∧ (crc32c (f.payload.take (f.payload.length - 4)) ≠ frWord f (f.payload.length - 4))) ∧
    (∃ (s : State) (p : Fin 2) (q : AddrQuery), (s.spUp p.val = true) ∧ (q.target ≠ 0) ∧ (q.target.toNat = s.get (Reg.SP.IPV4.ADDR p.val)) ∧ (q.sip.toNat < 2 ^ 32)) ∧
    (∃ (s : State) (p : Fin 2) (q : AddrQuery), (s.spUp p.val = true) ∧ (q.target ≠ 0) ∧ (q.target.toNat = s.spV6 p.val)) ∧
    (∃ (s : State) (p : Fin 2) (q : AddrQuery), (s.canonical = true) ∧ (s.spUp p.val = true) ∧ (q.target.toNat ≠ s.get (Reg.SP.IPV4.ADDR p.val))) ∧
    (∃ (s : State) (p : Fin 2), (s.canonical = true) ∧ (s.spUp p.val = true)) ∧
    (∃ (s : State) (p : Fin 2), (s.canonical = true) ∧ (s.spUp p.val = true)) ∧
    (∃ (s : State) (c : Fin 128), (s.canonical = true) ∧ (s.ctxOn c.val = true) ∧ (s.get (Reg.SCTX.CTX_W0.DIR (c.val / 32) (c.val % 32)) = 1) ∧ (s.spOn (s.get (Reg.SCTX.CTX_W0.PORT (c.val / 32) (c.val % 32))) = true) ∧ ((s.ctxOf c.val).cursor = 0) ∧ (s.get (Reg.SCTX.CTX_W8.W_FIRST (c.val / 32) (c.val % 32)) = (s.get (Reg.SCTX.CTX_W8.T_FIRST (c.val / 32) (c.val % 32)))) ∧ ((s.get (Reg.SCTX.CTX_W8.GROUP (c.val / 32) (c.val % 32))) < 16) ∧ (s.domOn (s.get (Reg.SCTX.CTX_W8.T_FIRST (c.val / 32) (c.val % 32))) = true) ∧ ((s.get (Reg.NEURON.RO_READY.READY (s.get (Reg.SCTX.CTX_W8.T_FIRST (c.val / 32) (c.val % 32))))).testBit (s.get (Reg.SCTX.CTX_W8.GROUP (c.val / 32) (c.val % 32))) = true) ∧ (0 < (s.get (Reg.NEURON.RO_GRP_W1.NEU (s.get (Reg.SCTX.CTX_W8.T_FIRST (c.val / 32) (c.val % 32))) (s.get (Reg.SCTX.CTX_W8.GROUP (c.val / 32) (c.val % 32)))) * s.get (Reg.NEURON.RO_GRP_W2.W_COUNT (s.get (Reg.SCTX.CTX_W8.T_FIRST (c.val / 32) (c.val % 32))) (s.get (Reg.SCTX.CTX_W8.GROUP (c.val / 32) (c.val % 32)))))) ∧ (2 * (s.get (Reg.NEURON.RO_GRP_W1.NEU (s.get (Reg.SCTX.CTX_W8.T_FIRST (c.val / 32) (c.val % 32))) (s.get (Reg.SCTX.CTX_W8.GROUP (c.val / 32) (c.val % 32)))) * s.get (Reg.NEURON.RO_GRP_W2.W_COUNT (s.get (Reg.SCTX.CTX_W8.T_FIRST (c.val / 32) (c.val % 32))) (s.get (Reg.SCTX.CTX_W8.GROUP (c.val / 32) (c.val % 32))))) ≤ 64) ∧ (64 ≤ s.get (Reg.SCTX.CTX_W9.MAX_PAYLOAD (c.val / 32) (c.val % 32))) ∧ (s.get (Reg.NEURON.RO_GRP_W3.DEST (s.get (Reg.SCTX.CTX_W8.T_FIRST (c.val / 32) (c.val % 32))) (s.get (Reg.SCTX.CTX_W8.GROUP (c.val / 32) (c.val % 32)))) % 64 + 2 * (s.get (Reg.NEURON.RO_GRP_W1.NEU (s.get (Reg.SCTX.CTX_W8.T_FIRST (c.val / 32) (c.val % 32))) (s.get (Reg.SCTX.CTX_W8.GROUP (c.val / 32) (c.val % 32)))) * s.get (Reg.NEURON.RO_GRP_W2.W_COUNT (s.get (Reg.SCTX.CTX_W8.T_FIRST (c.val / 32) (c.val % 32))) (s.get (Reg.SCTX.CTX_W8.GROUP (c.val / 32) (c.val % 32))))) ≤ 64) ∧ (s.get (Reg.NEURON.RO_GRP_W3.DEST (s.get (Reg.SCTX.CTX_W8.T_FIRST (c.val / 32) (c.val % 32))) (s.get (Reg.SCTX.CTX_W8.GROUP (c.val / 32) (c.val % 32)))) + 2 * (s.get (Reg.NEURON.RO_GRP_W1.NEU (s.get (Reg.SCTX.CTX_W8.T_FIRST (c.val / 32) (c.val % 32))) (s.get (Reg.SCTX.CTX_W8.GROUP (c.val / 32) (c.val % 32)))) * s.get (Reg.NEURON.RO_GRP_W2.W_COUNT (s.get (Reg.SCTX.CTX_W8.T_FIRST (c.val / 32) (c.val % 32))) (s.get (Reg.SCTX.CTX_W8.GROUP (c.val / 32) (c.val % 32))))) ≤ 0x300000) ∧ (s.bankOn (s.get (Reg.SCTX.CTX_W8.T_FIRST (c.val / 32) (c.val % 32))) (s.get (Reg.NEURON.RO_GRP_W3.DEST (s.get (Reg.SCTX.CTX_W8.T_FIRST (c.val / 32) (c.val % 32))) (s.get (Reg.SCTX.CTX_W8.GROUP (c.val / 32) (c.val % 32)))) / 0x30000) = true) ∧ (soundStore s = true) ∧ (s.twin.handover = none) ∧ (s.role ≠ 3)) ∧
    (∃ (s : State) (c : Fin 128), (s.canonical = true) ∧ (s.phase = 1) ∧ (s.gateShut c.val = true) ∧ (s.get (Reg.SCTX.CTX_W12.GATE_TMO (c.val / 32) (c.val % 32)) ≠ 0)) ∧
    (∃ (s : State) (src : Source) (c : Fin 128) (v : Word32), (s.canonical = true) ∧ ((src == .host && s.hostWaits) = false) ∧ (s.answers src (sctxPg (c.val / 32) + 0x200 + 0x60 * (c.val % 32)) = true) ∧ (s.get (Reg.SCTX.CTX_W0.EN (c.val / 32) (c.val % 32)) = 0) ∧ (v.toNat / 2 ^ 31 = 1) ∧ (s.ctxFault c.val v.toNat = none)) ∧
    (∃ (s : State) (src : Source) (c : Fin 128) (v : Word32) (code : Nat), (s.canonical = true) ∧ ((src == .host && s.hostWaits) = false) ∧ (s.answers src (sctxPg (c.val / 32) + 0x200 + 0x60 * (c.val % 32)) = true) ∧ (s.get (Reg.SCTX.CTX_W0.EN (c.val / 32) (c.val % 32)) = 0) ∧ (v.toNat / 2 ^ 31 = 1) ∧ (s.ctxFault c.val v.toNat = some code) ∧ (code < 256)) ∧
    (∃ (s : State) (p : Fin 2) (media : Fin 4), (s.canonical = true) ∧ (media = 1 ∨ media = 2) ∧ (s.spUp p.val = false)) ∧
    (∃ (s : State) (p : Fin 2), (s.canonical = true) ∧ (s.spUp p.val = true)) :=
  ⟨⟨((((((upState.put (Reg.SP.SP_STAT.LINK 0) 2).put (Reg.HDR.BLK_CTRL.EN (spPg 0)) 1).put (Reg.SP.MAC.ADDR 0) 0xAB).put (Reg.SP.IPV4.ADDR 0) 7).put (Reg.HDR.BLK_CTRL.EN (sctxPg 0)) 1).put (Reg.SCTX.CTX_W0.EN 0 0) 1 |>.put (Reg.SCTX.CTX_W0.UDP_DPORT 0 0) 9 |>.put (Reg.SCTX.CTX_W9.W_COUNT 0 0) 16 |>.put (Reg.SCTX.CTX_W10.BUF_BASE 0 0) 0xC00000 |>.put (Reg.SCTX.CTX_W12.BUF_LOG2 0 0) 2).put (Reg.SCTX.CTX_W14.SEQ_NEXT 0 0) 4, ⟨0, 171, false, 5, 7, 3, 9, [0, 1, 1, 0, 4, 0, 0, 0, 255, 255, 255, 255, 0, 0, 1, 0, 0, 0, 0, 0, 1, 2, 3, 4, 5, 6, 7, 8, 144, 103, 34, 187], 0⟩, 0, by decide⟩,
    ⟨((((((upState.put (Reg.SP.SP_STAT.LINK 0) 2).put (Reg.HDR.BLK_CTRL.EN (spPg 0)) 1).put (Reg.SP.MAC.ADDR 0) 0xAB).put (Reg.SP.IPV4.ADDR 0) 7).put (Reg.HDR.BLK_CTRL.EN (sctxPg 0)) 1).put (Reg.SCTX.CTX_W0.EN 0 0) 1 |>.put (Reg.SCTX.CTX_W0.UDP_DPORT 0 0) 9 |>.put (Reg.SCTX.CTX_W9.W_COUNT 0 0) 16 |>.put (Reg.SCTX.CTX_W10.BUF_BASE 0 0) 0xC00000 |>.put (Reg.SCTX.CTX_W12.BUF_LOG2 0 0) 2).put (Reg.SCTX.CTX_W14.SEQ_NEXT 0 0) 9, ⟨0, 171, false, 5, 7, 3, 9, [0, 1, 1, 0, 4, 0, 0, 0, 255, 255, 255, 255, 0, 0, 1, 0, 0, 0, 0, 0, 1, 2, 3, 4, 5, 6, 7, 8, 144, 103, 34, 187], 0⟩, 0, by decide⟩,
    ⟨((((((upState.put (Reg.SP.SP_STAT.LINK 0) 2).put (Reg.HDR.BLK_CTRL.EN (spPg 0)) 1).put (Reg.SP.MAC.ADDR 0) 0xAB).put (Reg.SP.IPV4.ADDR 0) 7).put (Reg.HDR.BLK_CTRL.EN (sctxPg 0)) 1).put (Reg.SCTX.CTX_W0.EN 0 0) 1 |>.put (Reg.SCTX.CTX_W0.UDP_DPORT 0 0) 9 |>.put (Reg.SCTX.CTX_W9.W_COUNT 0 0) 16 |>.put (Reg.SCTX.CTX_W10.BUF_BASE 0 0) 0xC00000 |>.put (Reg.SCTX.CTX_W12.BUF_LOG2 0 0) 2), ⟨0, 171, false, 5, 7, 3, 9, [0, 1, 1, 0, 4, 0, 0, 0, 255, 255, 255, 255, 0, 0, 1, 0, 0, 0, 0, 0, 1, 2, 3, 4, 5, 6, 7, 8, 144, 103, 34, 187], 1⟩, by decide⟩,
    ⟨((((((upState.put (Reg.SP.SP_STAT.LINK 0) 2).put (Reg.HDR.BLK_CTRL.EN (spPg 0)) 1).put (Reg.SP.MAC.ADDR 0) 0xAB).put (Reg.SP.IPV4.ADDR 0) 7).put (Reg.HDR.BLK_CTRL.EN (sctxPg 0)) 1).put (Reg.SCTX.CTX_W0.EN 0 0) 1 |>.put (Reg.SCTX.CTX_W0.UDP_DPORT 0 0) 9 |>.put (Reg.SCTX.CTX_W9.W_COUNT 0 0) 16 |>.put (Reg.SCTX.CTX_W10.BUF_BASE 0 0) 0xC00000 |>.put (Reg.SCTX.CTX_W12.BUF_LOG2 0 0) 2), ⟨0, 3, false, 5, 7, 3, 9, [0, 1, 1, 0, 4, 0, 0, 0, 255, 255, 255, 255, 0, 0, 1, 0, 0, 0, 0, 0, 1, 2, 3, 4, 5, 6, 7, 8, 144, 103, 34, 187], 0⟩, by decide⟩,
    ⟨((((((upState.put (Reg.SP.SP_STAT.LINK 0) 2).put (Reg.HDR.BLK_CTRL.EN (spPg 0)) 1).put (Reg.SP.MAC.ADDR 0) 0xAB).put (Reg.SP.IPV4.ADDR 0) 7).put (Reg.HDR.BLK_CTRL.EN (sctxPg 0)) 1).put (Reg.SCTX.CTX_W0.EN 0 0) 1 |>.put (Reg.SCTX.CTX_W0.UDP_DPORT 0 0) 9 |>.put (Reg.SCTX.CTX_W9.W_COUNT 0 0) 16 |>.put (Reg.SCTX.CTX_W10.BUF_BASE 0 0) 0xC00000 |>.put (Reg.SCTX.CTX_W12.BUF_LOG2 0 0) 2), ⟨0, 171, false, 5, 7, 3, 8, [0, 1, 1, 0, 4, 0, 0, 0, 255, 255, 255, 255, 0, 0, 1, 0, 0, 0, 0, 0, 1, 2, 3, 4, 5, 6, 7, 8, 144, 103, 34, 187], 0⟩, by decide⟩,
    ⟨((((((upState.put (Reg.SP.SP_STAT.LINK 0) 2).put (Reg.HDR.BLK_CTRL.EN (spPg 0)) 1).put (Reg.SP.MAC.ADDR 0) 0xAB).put (Reg.SP.IPV4.ADDR 0) 7).put (Reg.HDR.BLK_CTRL.EN (sctxPg 0)) 1).put (Reg.SCTX.CTX_W0.EN 0 0) 1 |>.put (Reg.SCTX.CTX_W0.UDP_DPORT 0 0) 9 |>.put (Reg.SCTX.CTX_W9.W_COUNT 0 0) 16 |>.put (Reg.SCTX.CTX_W10.BUF_BASE 0 0) 0xC00000 |>.put (Reg.SCTX.CTX_W12.BUF_LOG2 0 0) 2), ⟨0, 171, false, 5, 7, 3, 9, [0, 1, 1, 0, 4, 0, 0, 0, 255, 255, 255, 255, 0, 0, 1, 0, 0, 0, 0, 0, 1, 2, 3, 4, 5, 6, 7, 8, 144, 103, 34, 186], 0⟩, by decide⟩,
    ⟨(((((upState.put (Reg.SP.SP_STAT.LINK 0) 2).put (Reg.HDR.BLK_CTRL.EN (spPg 0)) 1).put (Reg.SP.MAC.ADDR 0) 0xAB).put (Reg.SP.IPV4.ADDR 0) 7).put (Reg.HDR.BLK_CTRL.EN (sctxPg 0)) 1), 0, ⟨0x11, 5, 7⟩, by decide⟩,
    ⟨((((((upState.put (Reg.SP.SP_STAT.LINK 0) 2).put (Reg.HDR.BLK_CTRL.EN (spPg 0)) 1).put (Reg.SP.MAC.ADDR 0) 0xAB).put (Reg.SP.IPV4.ADDR 0) 7).put (Reg.HDR.BLK_CTRL.EN (sctxPg 0)) 1).put (Reg.SP.IPV6.ADDR 0 0) 7), 0, ⟨0x11, 5, 7⟩, by decide⟩,
    ⟨(((((upState.put (Reg.SP.SP_STAT.LINK 0) 2).put (Reg.HDR.BLK_CTRL.EN (spPg 0)) 1).put (Reg.SP.MAC.ADDR 0) 0xAB).put (Reg.SP.IPV4.ADDR 0) 7).put (Reg.HDR.BLK_CTRL.EN (sctxPg 0)) 1), 0, ⟨1, 2, 9⟩, by decide⟩,
    ⟨(((((upState.put (Reg.SP.SP_STAT.LINK 0) 2).put (Reg.HDR.BLK_CTRL.EN (spPg 0)) 1).put (Reg.SP.MAC.ADDR 0) 0xAB).put (Reg.SP.IPV4.ADDR 0) 7).put (Reg.HDR.BLK_CTRL.EN (sctxPg 0)) 1), 0, by decide⟩,
    ⟨(((((upState.put (Reg.SP.SP_STAT.LINK 0) 2).put (Reg.HDR.BLK_CTRL.EN (spPg 0)) 1).put (Reg.SP.MAC.ADDR 0) 0xAB).put (Reg.SP.IPV4.ADDR 0) 7).put (Reg.HDR.BLK_CTRL.EN (sctxPg 0)) 1), 0, by decide⟩,
    ⟨((((((upState.put (Reg.SP.SP_STAT.LINK 0) 2).put (Reg.HDR.BLK_CTRL.EN (spPg 0)) 1).put (Reg.SP.MAC.ADDR 0) 0xAB).put (Reg.SP.IPV4.ADDR 0) 7).put (Reg.HDR.BLK_CTRL.EN (sctxPg 0)) 1).put (Reg.SCTX.CTX_W0.EN 0 0) 1 |>.put (Reg.SCTX.CTX_W0.DIR 0 0) 1 |>.put (Reg.SCTX.CTX_W8.T_FIRST 0 0) 3 |>.put (Reg.SCTX.CTX_W8.W_FIRST 0 0) 3 |>.put (Reg.SCTX.CTX_W9.MAX_PAYLOAD 0 0) 64 |>.put (Reg.NEURON.RO_READY.READY 3) 1 |>.put (Reg.NEURON.RO_GRP_W1.NEU 3 0) 2 |>.put (Reg.NEURON.RO_GRP_W2.W_COUNT 3 0) 3 |>.put (Reg.NEURON.RO_GRP_W3.DEST 3 0) 0x100), 0, by decide⟩,
    ⟨{ ((((((upState.put (Reg.SP.SP_STAT.LINK 0) 2).put (Reg.HDR.BLK_CTRL.EN (spPg 0)) 1).put (Reg.SP.MAC.ADDR 0) 0xAB).put (Reg.SP.IPV4.ADDR 0) 7).put (Reg.HDR.BLK_CTRL.EN (sctxPg 0)) 1).put (Reg.SCTX.CTX_W0.EN 0 0) 1 |>.put (Reg.SCTX.CTX_W0.GATE 0 0) 1 |>.put (Reg.SCTX.CTX_W12.GATE_TMO 0 0) 5 |>.put Reg.STEP.STEP_STAT.PHASE 1) with ctx := [(0, { CtxS.reset with gated := true })] }, 0, by decide⟩,
    ⟨((((((upState.put (Reg.SP.SP_STAT.LINK 0) 2).put (Reg.HDR.BLK_CTRL.EN (spPg 0)) 1).put (Reg.SP.MAC.ADDR 0) 0xAB).put (Reg.SP.IPV4.ADDR 0) 7).put (Reg.HDR.BLK_CTRL.EN (sctxPg 0)) 1).put (Reg.SCTX.CTX_W0.EN 0 0) 0 |>.put (Reg.SCTX.CTX_W0.UDP_DPORT 0 0) 9 |>.put (Reg.SCTX.CTX_W9.W_COUNT 0 0) 16 |>.put (Reg.SCTX.CTX_W10.BUF_BASE 0 0) 0xC00000 |>.put (Reg.SCTX.CTX_W12.BUF_LOG2 0 0) 2), .host, 0, 2415919113, by decide⟩,
    ⟨(((((upState.put (Reg.SP.SP_STAT.LINK 0) 2).put (Reg.HDR.BLK_CTRL.EN (spPg 0)) 1).put (Reg.SP.MAC.ADDR 0) 0xAB).put (Reg.SP.IPV4.ADDR 0) 7).put (Reg.HDR.BLK_CTRL.EN (sctxPg 0)) 1), .host, 0, 2415919113, rcRange, by decide⟩,
    ⟨upState, 0, 2, by decide⟩,
    ⟨(((((upState.put (Reg.SP.SP_STAT.LINK 0) 2).put (Reg.HDR.BLK_CTRL.EN (spPg 0)) 1).put (Reg.SP.MAC.ADDR 0) 0xAB).put (Reg.SP.IPV4.ADDR 0) 7).put (Reg.HDR.BLK_CTRL.EN (sctxPg 0)) 1), 0, by decide⟩⟩

theorem witness_CrownCompletes :
    (∃ (s : State) (src : Source) (v : Fin 4), (s.canonical = true) ∧ ((src == .host && s.hostWaits) = false) ∧ (s.answers src (pgCROWN + 0x40) = true) ∧ (s.authorised src = true) ∧ (v.val < 2) ∧ (v.val ≠ s.holder) ∧ (s.get (missField v.val) = 0) ∧ (s.crown.tokenNoneLog = false) ∧ (s.crown.booting = false)) ∧
    (∃ (s : State) (src : Source) (v : Fin 4), (s.canonical = true) ∧ ((src == .host && s.hostWaits) = false) ∧ (s.answers src (pgCROWN + 0x40) = true) ∧ (s.authorised src = false)) ∧
    (∃ (s : State) (src : Source) (v : Fin 4), (s.canonical = true) ∧ ((src == .host && s.hostWaits) = false) ∧ (s.answers src (pgCROWN + 0x40) = true) ∧ (s.authorised src = true) ∧ (v.val < 2) ∧ (v.val ≠ s.holder) ∧ (s.get (missField v.val) ≠ 0)) ∧
    (∃ (s : State) (west : Bool), (s.canonical = true) ∧ (s.answers (if west then .wcore else .ecore) (pgCROWN + 0x44) = true) ∧ (s.crown.halted = [])) ∧
    (∃ (s : State), (s.canonical = true) ∧ (s.domOn 323 = true) ∧ (s.holder = 2 ∨ missNext s s.holder < 3)) ∧
    (∃ (s : State), (s.canonical = true) ∧ (s.domOn 323 = true) ∧ (s.holder < 2) ∧ (3 ≤ missNext s s.holder) ∧ (missNext s (1 - s.holder) = 0) ∧ (s.crown.tokenNoneLog = false) ∧ (s.crown.booting = false)) ∧
    (∃ (s : State), (s.canonical = true) ∧ (s.domOn 323 = true) ∧ (s.holder < 2) ∧ (3 ≤ missNext s s.holder) ∧ (missNext s (1 - s.holder) ≠ 0) ∧ (s.crown.booting = false)) ∧
    (∃ (s : State) (src : Source) (v : BitVec 8), (s.canonical = true) ∧ ((src == .host && s.hostWaits) = false) ∧ (s.answers src (pgSECURITY + 0x40) = true) ∧ (s.authorised src = true)) ∧
    (∃ (s : State) (src : Source) (v : BitVec 8), (s.canonical = true) ∧ ((src == .host && s.hostWaits) = false) ∧ (s.answers src (pgSECURITY + 0x40) = true) ∧ (s.authorised src = false)) ∧
    (∃ (s : State) (i : Fin 84) (v : BitVec 16), (s.canonical = true) ∧ (s.domOn 323 = true) ∧ (i.val < 80) ∧ (i.val < 64 → v.toInt < 0x0730) ∧ (s.get (Reg.CROWN.SENS_VAL.STATE i.val) = sensorNext i.val (s.get (Reg.CROWN.SENS_VAL.STATE i.val)) v.toNat (s.get (Reg.CROWN.SENS_THR_HI.CRIT_HI i.val)) (s.get (Reg.CROWN.SENS_THR_LO.CRIT_LO i.val)) (s.get (Reg.CROWN.SENS_THR_HI.WARN_HI i.val)) (s.get (Reg.CROWN.SENS_THR_LO.HYST i.val))) ∧ (s.get (Reg.CROWN.SENS_VAL.STATE i.val) ≠ 2) ∧ (s.crown.critReq = [])) ∧
    (∃ (s : State) (i : Fin 84) (v : BitVec 16), (s.canonical = true) ∧ (s.domOn 323 = true) ∧ (i.val < 80) ∧ (i.val < 64 → v.toInt < 0x0730) ∧ (s.get (Reg.CROWN.SENS_VAL.STATE i.val) ≠ sensorNext i.val (s.get (Reg.CROWN.SENS_VAL.STATE i.val)) v.toNat (s.get (Reg.CROWN.SENS_THR_HI.CRIT_HI i.val)) (s.get (Reg.CROWN.SENS_THR_LO.CRIT_LO i.val)) (s.get (Reg.CROWN.SENS_THR_HI.WARN_HI i.val)) (s.get (Reg.CROWN.SENS_THR_LO.HYST i.val))) ∧ (s.crown.logQueue = [])) ∧
    (∃ (s : State) (i : Fin 84) (v : BitVec 16), (s.canonical = true) ∧ (s.domOn 323 = true)) ∧
    (∃ (s : State) (i : Fin 64) (v : BitVec 16), (s.canonical = true) ∧ (0x0730 ≤ v.toInt) ∧ (s.power.tripped = false) ∧ (s.crown.aonQueue = []) ∧ (s.streamActive = false)) ∧
    (∃ (s : State) (i : Fin 64) (v : BitVec 16), (v.toInt < 0x0730)) ∧
    (∃ (s : State) (r : LogRec) (q : List LogRec), (s.canonical = true) ∧ (s.domOn 323 = true) ∧ (s.crown.logQueue = r :: q) ∧ (s.flash.log.length < 262144) ∧ (s.crown.logDropped = 0) ∧ (s.crown.aonDropped = 0)) ∧
    (∃ (s : State) (pg : Ofs) (b : Fin 32) (n : Nat), (s.canonical = true) ∧ (s.domOn 323 = true) ∧ (s.crown.logQueue = []) ∧ (s.crown.aonQueue = []) ∧ (s.causes = [(pg.toNat * 32 + b.val, n)]) ∧ (s.holder < 2) ∧ (s.crown.halted.contains s.holder = false) ∧ (s.flash.log.length < 262144) ∧ (s.crown.logDropped = 0) ∧ (s.crown.aonDropped = 0)) ∧
    (∃ (s : State), (s.crown.logQueue = []) ∧ (s.crown.aonQueue = []) ∧ (s.causes = [])) ∧
    (∃ (s : State), (s.canonical = true) ∧ (s.crown.booting = true) ∧ (s.domOn 323 = true) ∧ (s.holder < 2) ∧ (s.crown.halted.contains s.holder = false) ∧ ((dirRec s.flash).pending = none) ∧ ((dirRec s.flash).committed = false) ∧ ((dirRec s.flash).active < 2) ∧ (s.get Reg.GLOBAL.MOD_ID.GRADE ≠ 0)) ∧
    (∃ (s : State), (s.get Reg.GLOBAL.MOD_ID.GRADE = 0)) ∧
    (∃ (s : State) (core : Fin 2) (addr : Nat) (bits : List Nat), (s.crown.sramFlips = [(core.val, addr, bits)]) ∧ (2 ≤ bits.length) ∧ (s.crown.halted = []) ∧ (s.crown.logQueue = [])) :=
  ⟨⟨({ upState with crown := { upState.crown with booting := false } }), .host, 1, by decide⟩,
    ⟨(({ upState with crown := { upState.crown with booting := false } }).put Reg.CROWN.TOKEN.HOLDER 0), .host, 1, by decide⟩,
    ⟨upState.put Reg.CROWN.HB_STAT.MISS_E 2, .host, 1, by decide⟩,
    ⟨upState, true, by decide⟩,
    ⟨upState, by decide⟩,
    ⟨((({ upState with crown := { upState.crown with booting := false } }).put Reg.CROWN.TOKEN.HOLDER 0).put Reg.CROWN.HB_STAT.MISS_W 2).put Reg.CROWN.HB.EAST 1, by decide⟩,
    ⟨(({ upState with crown := { upState.crown with booting := false } }).put Reg.CROWN.TOKEN.HOLDER 0).put Reg.CROWN.HB_STAT.MISS_W 2, by decide⟩,
    ⟨upState, .host, 5, by decide⟩,
    ⟨upState, .wcore, 5, by decide⟩,
    ⟨upState, 5, 0x100, by decide⟩,
    ⟨upState, 5, 0x6D0, by decide⟩,
    ⟨upState, 5, 0x100, by decide⟩,
    ⟨upState, 5, 0x740, by decide⟩,
    ⟨upState, 5, 0x720, by decide⟩,
    ⟨{ upState with crown := { upState.crown with logQueue := [⟨0, 1, 2, 3, 0, 1, [7], true⟩] } }, ⟨0, 1, 2, 3, 0, 1, [7], true⟩, [], by decide⟩,
    ⟨{ upState.put Reg.CROWN.TOKEN.HOLDER 1 with causes := [(0x1000 * 32 + 4, 3)] }, 0x1000, 4, 3, by decide⟩,
    ⟨upState, by decide⟩,
    ⟨{ (({ upState with crown := { upState.crown with booting := false } }).put Reg.CROWN.TOKEN.HOLDER 0) with crown := { upState.crown with booting := true } }, by decide⟩,
    ⟨{ (({ upState with crown := { upState.crown with booting := false } }).put Reg.CROWN.TOKEN.HOLDER 0).put Reg.GLOBAL.MOD_ID.GRADE 0 with crown := { upState.crown with booting := true } }, by decide⟩,
    ⟨{ upState with crown := { upState.crown with sramFlips := [(1, 64, [3, 9])] } }, 1, 64, [3, 9], by decide⟩⟩

theorem witness_MailboxCompletes :
    (∃ (s : State) (path : MbPath), (s.canonical = true) ∧ (asks s path 1 0 = true) ∧ (served s = true)) ∧
    (∃ (s : State) (path : MbPath), (s.canonical = true) ∧ (asks s path 2 2 = true) ∧ (served s = true) ∧ (ofBytes (payloadOf s path 2) < 4096) ∧ (s.anyPortEnabled = false)) ∧
    (∃ (s : State) (path : MbPath), (s.canonical = true) ∧ (asks s path 2 2 = true) ∧ (served s = true) ∧ (ofBytes (payloadOf s path 2) < 4096) ∧ (s.anyPortEnabled = true)) ∧
    (∃ (s : State) (path : MbPath), (s.canonical = true) ∧ (asks s path 16 2 = true) ∧ (served s = true) ∧ (1 ≤ (ofBytes (((payloadOf s path 2).drop 1).take 1)) ∧ (ofBytes (((payloadOf s path 2).drop 1).take 1)) ≤ 60) ∧ ((ofBytes ((payloadOf s path 2).take 1)) + (ofBytes (((payloadOf s path 2).drop 1).take 1)) ≤ 84)) ∧
    (∃ (s : State) (path : MbPath), (s.canonical = true) ∧ (asks s path 17 12 = true) ∧ (served s = true) ∧ ((ofBytes ((payloadOf s path 12).take 1)) ≤ 83) ∧ (ofBytes (((payloadOf s path 12).drop 1).take 3) = 0)) ∧
    (∃ (s : State) (path : MbPath), (s.canonical = true) ∧ (asks s path 32 8 = true) ∧ (served s = true) ∧ (1 ≤ ofBytes (((payloadOf s path 8).drop 4).take 1) ∧ ofBytes (((payloadOf s path 8).drop 4).take 1) ≤ 3) ∧ (ofBytes (((payloadOf s path 8).drop 5).take 3) = 0) ∧ (s.flash.log = [])) ∧
    (∃ (s : State) (path : MbPath), (s.canonical = true) ∧ (asks s path 48 12 = true) ∧ (served s = true) ∧ ((s.get Reg.SECURITY.LOCK.BITS).testBit 5 = false) ∧ (1 ≤ (ofBytes (((payloadOf s path 12).drop 8).take 4)) ∧ (ofBytes (((payloadOf s path 12).drop 8).take 4)) ≤ 16777216) ∧ ((ofBytes ((payloadOf s path 12).take 8)) < 2 ^ 48) ∧ (0x40000000 ≤ (ofBytes ((payloadOf s path 12).take 8)) ∧ (ofBytes ((payloadOf s path 12).take 8)) < 0x50000000) ∧ (populated (ofBytes ((payloadOf s path 12).take 8)) (ofBytes (((payloadOf s path 12).drop 8).take 4)) = true) ∧ (s.reaches (ofBytes ((payloadOf s path 12).take 8)) (ofBytes (((payloadOf s path 12).drop 8).take 4)) = true) ∧ (s.flash.badSlots = []) ∧ ((dirRec s.flash).pending = none) ∧ ((dirRec s.flash).active < 2)) ∧
    (∃ (s : State) (path : MbPath), (s.canonical = true) ∧ (asks s path 49 0 = true) ∧ (served s = true) ∧ ((s.get Reg.SECURITY.LOCK.BITS).testBit 5 = false) ∧ (gauntlet s (s.flash.slot (1 - (dirRec s.flash).active)) ≠ 0)) ∧
    (∃ (s : State) (path : MbPath), (s.canonical = true) ∧ (asks s path 49 0 = true) ∧ (served s = true) ∧ ((s.get Reg.SECURITY.LOCK.BITS).testBit 5 = true)) ∧
    (∃ (s : State) (path : MbPath), (s.canonical = true) ∧ (asks s path 50 0 = true) ∧ (served s = true) ∧ ((s.get Reg.SECURITY.LOCK.BITS).testBit 5 = false) ∧ (s.crown.bootedPending = true) ∧ ((s.flash.slot (s.get Reg.CROWN.FW_STAT.BOOTED)).svn ≤ s.fuses.rollback)) ∧
    (∃ (s : State) (path : MbPath), (s.canonical = true) ∧ (asks s path 50 0 = true) ∧ (served s = true) ∧ ((s.get Reg.SECURITY.LOCK.BITS).testBit 5 = false) ∧ (s.crown.bootedPending = false)) ∧
    (∃ (s : State) (path : MbPath), (s.canonical = true) ∧ (asks s path 64 40 = true) ∧ (served s = true) ∧ ((ofBytes ((payloadOf s path 40).drop 32)) < 2 ^ 48) ∧ (populated (ofBytes ((payloadOf s path 40).drop 32)) 3028 = true) ∧ (s.reaches (ofBytes ((payloadOf s path 40).drop 32)) 3028 = true) ∧ (s.flash.badJournal = []) ∧ (s.flash.cacheOk = true) ∧ (s.crown.sigBlock = none) ∧ (s.flash.journal.length < 4096)) ∧
    (∃ (s : State) (path : MbPath), (s.canonical = true) ∧ (asks s path 65 8 = true) ∧ (served s = true) ∧ ((ofBytes (payloadOf s path 8)) < 2 ^ 48) ∧ (populated (ofBytes (payloadOf s path 8)) s.flash.cert.length = true) ∧ (s.reaches (ofBytes (payloadOf s path 8)) s.flash.cert.length = true)) ∧
    (∃ (s : State) (path : MbPath), (s.canonical = true) ∧ (asks s path 80 1 = true) ∧ (served s = true)) ∧
    (∃ (s : State) (msg : List Byte), (s.canonical = true) ∧ (asks s (.mctp msg) 96 1 = true) ∧ (s.holder = 2) ∧ (ofBytes (payloadOf s (.mctp msg) 1) < 2) ∧ (s.get (if ofBytes (payloadOf s (.mctp msg) 1) = 0 then Reg.CROWN.HB_STAT.MISS_W else Reg.CROWN.HB_STAT.MISS_E) = 0) ∧ (s.crown.tokenNoneLog = false) ∧ (s.crown.booting = false)) ∧
    (∃ (s : State) (path : MbPath), (s.canonical = true) ∧ (asks s path 96 1 = true) ∧ (served s = true)) ∧
    (∃ (s : State) (m msg : List Byte), (s.canonical = true) ∧ (s.isReady pgCROWN = true) ∧ (s.crown.halted.contains s.holder = false) ∧ (ofBytes ((msg.drop 2).take 2) = 1) ∧ (lookup 1 s.crown.lastSeq = some (ofBytes ((msg.drop 4).take 4), m)) ∧ (risingFrom 0 s.crown.lastSeq = true)) ∧
    (∃ (s : State) (src : Source), (s.canonical = true) ∧ ((src == .host && s.hostWaits) = false) ∧ (s.answers src (pgCROWN + 0x60) = true) ∧ (s.get Reg.CROWN.MB_STAT.BUSY = 0) ∧ (s.holder < 2)) ∧
    (∃ (s : State) (src : Source), (s.canonical = true) ∧ ((src == .host && s.hostWaits) = false) ∧ (s.answers src (pgCROWN + 0x60) = true) ∧ (s.get Reg.CROWN.MB_STAT.BUSY = 1)) ∧
    (∃ (s : State) (src : Source), (s.canonical = true) ∧ ((src == .host && s.hostWaits) = false) ∧ (s.answers src (pgCROWN + 0x68) = true) ∧ (s.authorised src = true) ∧ (s.holder < 2) ∧ (s.get Reg.CROWN.MB_STAT.BUSY = 1) ∧ (ofBytes ((s.mbReq.drop 1).take 1) = 1) ∧ (mbKnown (ofBytes ((s.mbReq.drop 2).take 2)) = true)) :=
  ⟨⟨((upState.put Reg.CROWN.TOKEN.HOLDER 0).put (Reg.HDR.BLK_STAT.READY pgCROWN) 1), .mctp [0, 1, 1, 0, 5, 0, 0, 0, 0, 0, 0, 0, 0, 0, 0, 0], by decide⟩,
    ⟨((upState.put Reg.CROWN.TOKEN.HOLDER 0).put (Reg.HDR.BLK_STAT.READY pgCROWN) 1), .mctp [0, 1, 2, 0, 5, 0, 0, 0, 2, 0, 0, 0, 0, 0, 0, 0, 9, 1], by decide⟩,
    ⟨(((upState.put Reg.CROWN.TOKEN.HOLDER 0).put (Reg.HDR.BLK_STAT.READY pgCROWN) 1).put (Reg.HDR.BLK_CTRL.EN (flPg 2)) 1), .mctp [0, 1, 2, 0, 5, 0, 0, 0, 2, 0, 0, 0, 0, 0, 0, 0, 9, 1], by decide⟩,
    ⟨((upState.put Reg.CROWN.TOKEN.HOLDER 0).put (Reg.HDR.BLK_STAT.READY pgCROWN) 1), .mctp [0, 1, 16, 0, 5, 0, 0, 0, 2, 0, 0, 0, 0, 0, 0, 0, 5, 3], by decide⟩,
    ⟨((upState.put Reg.CROWN.TOKEN.HOLDER 0).put (Reg.HDR.BLK_STAT.READY pgCROWN) 1), .mctp [0, 1, 17, 0, 5, 0, 0, 0, 12, 0, 0, 0, 0, 0, 0, 0, 5, 0, 0, 0, 1, 2, 3, 4, 5, 6, 7, 8], by decide⟩,
    ⟨((upState.put Reg.CROWN.TOKEN.HOLDER 0).put (Reg.HDR.BLK_STAT.READY pgCROWN) 1), .mctp [0, 1, 32, 0, 5, 0, 0, 0, 8, 0, 0, 0, 0, 0, 0, 0, 0, 0, 0, 0, 2, 0, 0, 0], by decide⟩,
    ⟨((upState.put Reg.CROWN.TOKEN.HOLDER 0).put (Reg.HDR.BLK_STAT.READY pgCROWN) 1), .mctp [0, 1, 48, 0, 5, 0, 0, 0, 12, 0, 0, 0, 0, 0, 0, 0, 0, 16, 0, 64, 0, 0, 0, 0, 32, 0, 0, 0], by decide⟩,
    ⟨((upState.put Reg.CROWN.TOKEN.HOLDER 0).put (Reg.HDR.BLK_STAT.READY pgCROWN) 1), .mctp [0, 1, 49, 0, 5, 0, 0, 0, 0, 0, 0, 0, 0, 0, 0, 0], by decide⟩,
    ⟨(((upState.put Reg.CROWN.TOKEN.HOLDER 0).put (Reg.HDR.BLK_STAT.READY pgCROWN) 1).put Reg.SECURITY.LOCK.BITS 0x20), .mctp [0, 1, 49, 0, 5, 0, 0, 0, 0, 0, 0, 0, 0, 0, 0, 0], by decide⟩,
    ⟨{ ((upState.put Reg.CROWN.TOKEN.HOLDER 0).put (Reg.HDR.BLK_STAT.READY pgCROWN) 1) with crown := { upState.crown with bootedPending := true } }, .mctp [0, 1, 50, 0, 5, 0, 0, 0, 0, 0, 0, 0, 0, 0, 0, 0], by decide⟩,
    ⟨((upState.put Reg.CROWN.TOKEN.HOLDER 0).put (Reg.HDR.BLK_STAT.READY pgCROWN) 1), .mctp [0, 1, 50, 0, 5, 0, 0, 0, 0, 0, 0, 0, 0, 0, 0, 0], by decide⟩,
    ⟨((upState.put Reg.CROWN.TOKEN.HOLDER 0).put (Reg.HDR.BLK_STAT.READY pgCROWN) 1), .mctp [0, 1, 64, 0, 5, 0, 0, 0, 40, 0, 0, 0, 0, 0, 0, 0, 0, 0, 0, 0, 0, 0, 0, 0, 0, 0, 0, 0, 0, 0, 0, 0, 0, 0, 0, 0, 0, 0, 0, 0, 0, 0, 0, 0, 0, 0, 0, 0, 0, 16, 0, 64, 0, 0, 0, 0], by decide⟩,
    ⟨{ ((upState.put Reg.CROWN.TOKEN.HOLDER 0).put (Reg.HDR.BLK_STAT.READY pgCROWN) 1) with flash := { upState.flash with cert := [1, 2, 3] } }, .mctp [0, 1, 65, 0, 5, 0, 0, 0, 8, 0, 0, 0, 0, 0, 0, 0, 0, 16, 0, 64, 0, 0, 0, 0], by decide⟩,
    ⟨((upState.put Reg.CROWN.TOKEN.HOLDER 0).put (Reg.HDR.BLK_STAT.READY pgCROWN) 1), .mctp [0, 1, 80, 0, 5, 0, 0, 0, 1, 0, 0, 0, 0, 0, 0, 0, 33], by decide⟩,
    ⟨(({ upState with crown := { upState.crown with booting := false } }).put (Reg.HDR.BLK_STAT.READY pgCROWN) 1), [0, 1, 96, 0, 5, 0, 0, 0, 1, 0, 0, 0, 0, 0, 0, 0, 1], by decide⟩,
    ⟨((upState.put Reg.CROWN.TOKEN.HOLDER 0).put (Reg.HDR.BLK_STAT.READY pgCROWN) 1), .mctp [0, 1, 96, 0, 5, 0, 0, 0, 1, 0, 0, 0, 0, 0, 0, 0, 1], by decide⟩,
    ⟨{ ((upState.put Reg.CROWN.TOKEN.HOLDER 0).put (Reg.HDR.BLK_STAT.READY pgCROWN) 1) with crown := { upState.crown with lastSeq := [(1, 5, [7, 7])] } }, [7, 7], [0, 1, 1, 0, 5, 0, 0, 0, 0, 0, 0, 0, 0, 0, 0, 0], by decide⟩,
    ⟨((upState.put Reg.CROWN.TOKEN.HOLDER 0).put (Reg.HDR.BLK_STAT.READY pgCROWN) 1), .host, by decide⟩,
    ⟨((upState.put Reg.CROWN.TOKEN.HOLDER 0).put (Reg.HDR.BLK_STAT.READY pgCROWN) 1).put Reg.CROWN.MB_STAT.BUSY 1, .host, by decide⟩,
    ⟨(((upState.put Reg.CROWN.TOKEN.HOLDER 0).put (Reg.HDR.BLK_STAT.READY pgCROWN) 1).put Reg.CROWN.MB_STAT.BUSY 1 |>.put (Reg.CROWN.MB_REQ.DATA 0) 65792 |>.put (Reg.CROWN.MB_REQ.DATA 1) 5), .wcore, by decide⟩⟩

theorem witness_ClocksAndThrottling :
    (∃ (s : State) (src : Source) (v : BitVec 8), (s.canonical = true) ∧ ((src == .host && s.hostWaits) = false) ∧ (s.answers src (pgCLOCK + 0x40) = true) ∧ (s.authorised src = true) ∧ ((s.get Reg.SECURITY.LOCK.BITS).testBit 0 = false) ∧ (v.toNat = 60 ∨ v.toNat = 80 ∨ v.toNat = 100) ∧ (v.toNat ≤ gradeMult (s.get Reg.GLOBAL.MOD_ID.GRADE)) ∧ (v.toNat ≠ s.get Reg.CLOCK.RCLK_CFG.MULT) ∧ (s.effective 0 = 2) ∧ (s.effective 1 = 2)) ∧
    (∃ (s : State), (s.canonical = true) ∧ (s.get Reg.CLOCK.CLK_STAT.RELOCK = 1) ∧ (s.power.stopped = false)) ∧
    (∃ (s : State), (s.canonical = true) ∧ (s.get Reg.CLOCK.CLK_STAT.LOCK = 1) ∧ (s.streamActive = false)) ∧
    (∃ (s : State), (s.canonical = true) ∧ (s.get Reg.CLOCK.CLK_STAT.LOCK = 1) ∧ (s.streamActive = true)) ∧
    (∃ (s : State), (s.canonical = true) ∧ (s.power.stopped = true) ∧ (s.domOn 320 = true) ∧ (s.domOn 321 = true)) ∧
    (∃ (s : State), (s.canonical = true) ∧ (s.get Reg.CLOCK.CLK_STAT.LOCK = 0) ∧ (s.get Reg.CLOCK.CLK_STAT.RELOCK = 0)) ∧
    (∃ (s : State) (src : Source) (west east : Fin 4), (s.canonical = true) ∧ ((src == .host && s.hostWaits) = false) ∧ (s.answers src (pgCLOCK + 0x44) = true) ∧ (s.authorised src = true) ∧ ((s.get Reg.SECURITY.LOCK.BITS).testBit 0 = false) ∧ (west.val ≠ 3) ∧ (east.val ≠ 3) ∧ (s.streamActive = false)) ∧
    (∃ (s : State), (s.canonical = true) ∧ (s.windows = true)) ∧
    (∃ (s : State), (s.canonical = true) ∧ (s.power.capTrip = false)) ∧
    (∃ (s : State), (s.canonical = true)) :=
  ⟨⟨(State.reset.put Reg.CROWN.TOKEN.HOLDER 2), .host, 60, by decide⟩,
    ⟨State.reset.put Reg.CLOCK.CLK_STAT.RELOCK 1, by decide⟩,
    ⟨State.reset.put Reg.CLOCK.CLK_STAT.LOCK 1, by decide⟩,
    ⟨(State.reset.put Reg.CLOCK.CLK_STAT.LOCK 1).setStream State.stRunning, by decide⟩,
    ⟨{ State.reset with power := { State.reset.power with stopped := true, dom := [(320, .on), (321, .on)] } }, by decide⟩,
    ⟨State.reset, by decide⟩,
    ⟨State.reset.put Reg.CROWN.TOKEN.HOLDER 0, .wcore, 1, 2, by decide⟩,
    ⟨State.reset.put Reg.CLOCK.CLK_STAT.LOCK 1, by decide⟩,
    ⟨State.reset, by decide⟩,
    ⟨State.reset, by decide⟩⟩

theorem witness_PowerDomainsComplete :
    (∃ (s : State) (n : TileId), (s.canonical = true) ∧ (s.domState n.val = .waking) ∧ (s.domOn (320 + n.val / 128) = true) ∧ (s.ownEnable n.val = true) ∧ (s.votes n.val ≠ 0) ∧ (quietPower s = true) ∧ (s.bistReserved 0 n.val = false)) ∧
    (∃ (s : State) (n : TileId), (s.canonical = true) ∧ (s.domState n.val = .waking) ∧ (s.domOn (320 + n.val / 128) = true) ∧ (s.votes n.val = 0) ∧ (quietPower s = true) ∧ (s.streamActive = false) ∧ (s.stepActive = false) ∧ (s.isEnabled pgSTEP = false)) ∧
    (∃ (s : State) (n : TileId), (s.canonical = true) ∧ (s.domState n.val = .dropping) ∧ (s.votes n.val = 0) ∧ (quietPower s = true)) ∧
    (∃ (s : State) (src : Source) (w : Fin 11) (v : Word32), (s.canonical = true) ∧ ((src == .host && s.hostWaits) = false) ∧ (s.answers src (pgPOWER + 0x40 + 4 * w.val) = true) ∧ (s.authorised src = true) ∧ ((s.get Reg.SECURITY.LOCK.BITS).testBit 1 = false) ∧ (w.val < 10) ∧ (wordQuiet s w.val = true) ∧ (quietPower s = true) ∧ (s.power.held = [])) ∧
    (∃ (s : State) (src : Source) (v : Word32), (s.canonical = true) ∧ ((src == .host && s.hostWaits) = false) ∧ (s.answers src (pgPOWER + 0x40 + 4 * 0) = true) ∧ (s.authorised src = true) ∧ ((s.get Reg.SECURITY.LOCK.BITS).testBit 1 = false) ∧ (s.power.dom = [(3, .on), (320, .on), (321, .on)]) ∧ (s.ownEnable 3 = true) ∧ (s.votes 3 ≠ 0) ∧ (v.toNat = s.get (Reg.POWER.DOM_EN.EN 0) - 8) ∧ (quietPower s = true) ∧ (s.streamActive = false) ∧ (s.stepActive = false) ∧ (s.isEnabled pgSTEP = false) ∧ ((List.range 32).all (fun b => b == 3 || s.votes b == 0) = true)) ∧
    (∃ (s : State) (src : Source) (w : Fin 11) (v : Word32), (s.canonical = true) ∧ ((src == .host && s.hostWaits) = false) ∧ (s.answers src (pgPOWER + 0x40 + 4 * w.val) = true) ∧ (s.authorised src = false)) ∧
    (∃ (s : State) (src : Source) (w : Fin 11) (v : Word32), (s.canonical = true) ∧ ((src == .host && s.hostWaits) = false) ∧ (s.answers src (pgPOWER + 0x40 + 4 * w.val) = true) ∧ (s.authorised src = true) ∧ ((s.get Reg.SECURITY.LOCK.BITS).testBit 1 = true)) ∧
    (∃ (s : State) (temps : List (BitVec 16)) (panel cables : List Bool), (s.get Reg.POWER.WATCH_STAT.IN_WATCH = 1) ∧ (s.power.watchRef = none) ∧ (temps.all (fun x => decide (x.toInt < 0x0730)) = true)) ∧
    (∃ (s : State) (temps : List (BitVec 16)) (panel cables : List Bool) (r : List Nat), (s.canonical = true) ∧ (s.get Reg.POWER.WATCH_STAT.IN_WATCH = 1) ∧ (s.power.watchRef = some r) ∧ (temps.all (fun x => decide (x.toInt < 0x0730)) = true) ∧ (r.length = 2) ∧ (r.getD 0 0 ≠ (watchSample panel cables).getD 0 0) ∧ (temps.all (fun x => decide (x.toInt < (BitVec.ofNat 16 (s.get Reg.POWER.WATCH_THR.TEMP_HI)).toInt)) = true) ∧ (s.domOn 323 = false) ∧ (s.power.dom = []) ∧ (s.power.tripped = false) ∧ (s.get Reg.POWER.WATCH_CFG.EN = 1) ∧ (s.crown.aonQueue = []) ∧ (s.get Reg.POWER.VOTE_FAB_W.VOTE = 0) ∧ (s.get Reg.POWER.VOTE_FAB_E.VOTE = 0) ∧ (s.power.held = [])) :=
  ⟨⟨{ upState.put (Reg.POWER.DOM_EN.EN 0) 0xFFFFFFFF |>.put (Reg.HDR.BLK_VOTE.VOTE (tilePg 5 0)) 1 with power := { upState.power with dom := [(0, .on), (3, .on), (5, .waking), (256, .on), (257, .on), (320, .on), (321, .on), (322, .on), (323, .on)] }, cclkW := 77 }, 5, by decide⟩,
    ⟨{ upState.put (Reg.POWER.DOM_EN.EN 0) 0xFFFFFFFF with power := { upState.power with dom := [(0, .on), (3, .on), (5, .waking), (256, .on), (257, .on), (320, .on), (321, .on), (322, .on), (323, .on)] } }, 5, by decide⟩,
    ⟨{ upState.put (Reg.POWER.DOM_EN.EN 0) 0xFFFFFFFF |>.modTile 5 (fun x => { x with sregs := [(1, 2)] }) with power := { upState.power with dom := [(0, .on), (3, .on), (5, .dropping), (256, .on), (257, .on), (320, .on), (321, .on), (322, .on), (323, .on)] } }, 5, by decide⟩,
    ⟨upState, .host, 5, 0xF0F0, by decide⟩,
    ⟨{ upState.put (Reg.POWER.DOM_EN.EN 0) 0xFFFFFFFF |>.put (Reg.HDR.BLK_VOTE.VOTE (tilePg 3 0)) 1 with power := { upState.power with dom := [(3, .on), (320, .on), (321, .on)] } }, .host, 0xFFFFFFF7, by decide⟩,
    ⟨upState, .wcore, 5, 1, by decide⟩,
    ⟨upState.put Reg.SECURITY.LOCK.BITS 2, .host, 5, 1, by decide⟩,
    ⟨{ ((upState.put Reg.POWER.WATCH_CFG.EN 1).put Reg.POWER.WATCH_STAT.IN_WATCH 1) with power := { upState.power with dom := [], watchRef := none } }, [0x100], [true], [false], by decide⟩,
    ⟨{ (((upState.put Reg.POWER.WATCH_CFG.EN 1).put Reg.POWER.WATCH_STAT.IN_WATCH 1).put Reg.POWER.VOTE_FAB_W.VOTE 0).put Reg.POWER.VOTE_FAB_E.VOTE 0 |>.put Reg.POWER.WATCH_THR.TEMP_HI 0x700 with power := { upState.power with dom := [], watchRef := some [3, 2] } }, [0x100], [false], [false], [3, 2], by decide⟩⟩

theorem witness_ResetsAndFirmwareComplete :
    (∃ (s : State), (s.canonical = true)) ∧
    (∃ (s : State) (torn : Bool), (s.canonical = true)) ∧
    (∃ (s : State) (vm : Fin 16), (s.canonical = true) ∧ (s.power.input = true)) ∧
    (∃ (s : State) (src : Source), (s.canonical = true) ∧ ((src == .host && s.hostWaits) = false) ∧ (s.answers src (pgRESET + 0x40) = true) ∧ (resetWriter s src = true)) ∧
    (∃ (s : State) (src : Source) (key : BitVec 16), (s.canonical = true) ∧ ((src == .host && s.hostWaits) = false) ∧ (s.answers src (pgRESET + 0x40) = true) ∧ (resetWriter s src = false)) ∧
    (∃ (s : State) (src : Source) (key : BitVec 16), (s.canonical = true) ∧ ((src == .host && s.hostWaits) = false) ∧ (s.answers src (pgRESET + 0x40) = true) ∧ (resetWriter s src = true ∧ key ≠ 0x5A5A)) ∧
    (∃ (s : State) (src : Source) (key : BitVec 16), (s.canonical = true) ∧ ((src == .host && s.hostWaits) = false) ∧ (s.answers src (pgRESET + 0x40) = true) ∧ (resetWriter s src = false)) ∧
    (∃ (s : State) (src : Source) (key : BitVec 16), (s.canonical = true) ∧ ((src == .host && s.hostWaits) = false) ∧ (s.answers src (pgRESET + 0x40) = true) ∧ (resetWriter s src = true ∧ key ≠ 0x5A5A)) ∧
    (∃ (s : State) (src : Source), (s.canonical = true) ∧ ((src == .host && s.hostWaits) = false) ∧ (s.answers src (pgRESET + 0x40) = true) ∧ (resetWriter s src = true) ∧ (s.get Reg.RESET.RST_STAT.COMP_ACTIVE = 0) ∧ (s.role ≠ 2) ∧ (s.pcie.tlps = []) ∧ (s.qnet.winTx = [])) ∧
    (∃ (s : State), (s.canonical = true) ∧ (s.get Reg.RESET.RST_STAT.COMP_ACTIVE = 1) ∧ (s.power.dom = [(320, .on), (321, .on), (323, .on)]) ∧ (s.votes 322 = 0) ∧ (s.votes 323 ≠ 0) ∧ (s.fabricsHeld = true) ∧ (s.get Reg.POWER.WATCH_CFG.EN = 0) ∧ (s.get Reg.POWER.WATCH_STAT.IN_WATCH = 0) ∧ (s.get (Reg.HDR.BLK_CTRL.SRST (moverPg 5)) = 0) ∧ (s.bistReserved 2 5 = false)) ∧
    (∃ (s : State) (src : Source) (slice : Fin 64) (bank : Fin 16) (row : BitVec 8), (s.canonical = true) ∧ ((src == .host && s.hostWaits) = false) ∧ (s.answers src (pgRESET + 0x800) = true) ∧ ((s.get Reg.SECURITY.LOCK.BITS).testBit 2 = false) ∧ (s.domState (256 + slice.val) = .off) ∧ ((s.rowfix.filter (fun r => r.1 = slice.val ∧ r.2.1 = bank.val)).length < 4)) ∧
    (∃ (s : State) (src : Source) (slice : Fin 64) (bank : Fin 16) (row : BitVec 8), (s.canonical = true) ∧ ((src == .host && s.hostWaits) = false) ∧ (s.answers src (pgRESET + 0x800) = true) ∧ ((s.get Reg.SECURITY.LOCK.BITS).testBit 2 = false) ∧ (s.domState (256 + slice.val) = .off) ∧ (4 ≤ (s.rowfix.filter (fun r => r.1 = slice.val ∧ r.2.1 = bank.val)).length)) ∧
    (∃ (s : State) (src : Source) (n : Nat), (s.canonical = true) ∧ ((src == .host && s.hostWaits) = false) ∧ (s.answers src (pgRESET + 0xD0) = true) ∧ (s.bistReserved 4 0 = false) ∧ (s.isReady pgISSUE = true) ∧ (tfwTiles s = [n]) ∧ (s.domOn n = true) ∧ (s.inRun n = false) ∧ (s.isEnabled pgSTEP = false ∨ s.inStep n = false) ∧ (s.tfw = none) ∧ (s.get Reg.ISSUE.LOAD_CTRL.LOAD = 0) ∧ (s.get Reg.RESET.TFW_ADDR.ADDR % 64 = 0) ∧ (s.get Reg.RESET.TFW_LEN.VALUE % 64 = 0) ∧ (64 ≤ s.get Reg.RESET.TFW_LEN.VALUE ∧ s.get Reg.RESET.TFW_LEN.VALUE ≤ 65536) ∧ (populated (s.get Reg.RESET.TFW_ADDR.ADDR) (s.get Reg.RESET.TFW_LEN.VALUE) = true)) ∧
    (∃ (s : State) (src : Source) (n : Nat), (s.canonical = true) ∧ ((src == .host && s.hostWaits) = false) ∧ (s.answers src (pgRESET + 0xD0) = true) ∧ (s.bistReserved 4 0 = false) ∧ (s.isReady pgISSUE = true) ∧ (tfwTiles s = [n]) ∧ (s.domOn n = false)) ∧
    (∃ (s : State) (j : TfwJob) (n : TileId), (s.canonical = true) ∧ (s.tfw = some j) ∧ (j.mask = [n.val]) ∧ (s.domOn n.val = true) ∧ (s.reaches j.addr j.len = true) ∧ (crc32c (s.bytes j.addr j.len) = j.crc) ∧ (s.bistReserved 0 n.val = false) ∧ (s.get (Reg.HDR.BLK_CTRL.SRST (tilePg n.val 0)) = 0) ∧ (∀ i ∈ List.range 7, s.get (Reg.HDR.BLK_CTRL.SRST (tilePg n.val (7 + i))) = 0)) ∧
    (∃ (s : State) (j : TfwJob) (n : TileId), (s.canonical = true) ∧ (s.tfw = some j) ∧ (j.mask = [n.val]) ∧ (s.domOn n.val = true) ∧ (s.reaches j.addr j.len = true) ∧ (crc32c (s.bytes j.addr j.len) ≠ j.crc)) :=
  ⟨⟨{ upState.modTile 3 (fun x => { x with sregs := [(1, 2)] }) with mem := [(0xC00000, 7), (0x1000000040, 9)], fuses := { upState.fuses with rollback := 3, grade := 1, bad := [3, 70, 140], rows := [(5, 2, 9)], permLock := 2 } }, by decide⟩,
    ⟨{ upState.modTile 3 (fun x => { x with sregs := [(1, 2)] }) with mem := [(0xC00000, 7), (0x1000000040, 9)], fuses := { upState.fuses with rollback := 3, grade := 1, bad := [3, 70, 140], rows := [(5, 2, 9)], permLock := 2 } }, false, by decide⟩,
    ⟨{ upState.modTile 3 (fun x => { x with sregs := [(1, 2)] }) with mem := [(0xC00000, 7), (0x1000000040, 9)], fuses := { upState.fuses with rollback := 3, grade := 1, bad := [3, 70, 140], rows := [(5, 2, 9)], permLock := 2 } }, 3, by decide⟩,
    ⟨{ upState.modTile 3 (fun x => { x with sregs := [(1, 2)] }) with mem := [(0xC00000, 7), (0x1000000040, 9)], fuses := { upState.fuses with rollback := 3, grade := 1, bad := [3, 70, 140], rows := [(5, 2, 9)], permLock := 2 } }, .host, by decide⟩,
    ⟨upState, .wcore, 0x5A5A, by decide⟩,
    ⟨upState, .host, 3, by decide⟩,
    ⟨upState, .wcore, 0x5A5A, by decide⟩,
    ⟨upState, .host, 3, by decide⟩,
    ⟨{ upState.modTile 3 (fun x => { x with sregs := [(1, 2)] }) with mem := [(0xC00000, 7), (0x1000000040, 9)], fuses := { upState.fuses with rollback := 3, grade := 1, bad := [3, 70, 140], rows := [(5, 2, 9)], permLock := 2 } }, .host, by decide⟩,
    ⟨{ upState.put Reg.RESET.RST_STAT.COMP_ACTIVE 1 with power := { upState.power with dom := [(320, .on), (321, .on), (323, .on)] } }, by decide⟩,
    ⟨upState, .host, 7, 3, 9, by decide⟩,
    ⟨{ upState with rowfix := [(7, 3, 1), (7, 3, 2), (7, 3, 4), (7, 3, 5)] }, .host, 7, 3, 9, by decide⟩,
    ⟨((((upState.put Reg.RESET.TFW_ADDR.ADDR 0x1000000000).put Reg.RESET.TFW_LEN.VALUE 64).put (Reg.RESET.TFW_MASK.TILES 0) 8).put (Reg.HDR.BLK_STAT.READY pgISSUE) 1), .host, 3, by decide⟩,
    ⟨((((upState.put Reg.RESET.TFW_ADDR.ADDR 0x1000000000).put Reg.RESET.TFW_LEN.VALUE 64).put (Reg.RESET.TFW_MASK.TILES 0) 8).put (Reg.HDR.BLK_STAT.READY pgISSUE) 1).put (Reg.RESET.TFW_MASK.TILES 0) 16, .host, 4, by decide⟩,
    ⟨{ ((((upState.put Reg.RESET.TFW_ADDR.ADDR 0x1000000000).put Reg.RESET.TFW_LEN.VALUE 64).put (Reg.RESET.TFW_MASK.TILES 0) 8).put (Reg.HDR.BLK_STAT.READY pgISSUE) 1) with tfw := some ⟨0x40000000, 64, 1242304664, [3]⟩, mem := [(0x40000000, 7)] }, ⟨0x40000000, 64, 1242304664, [3]⟩, 3, by decide⟩,
    ⟨{ ((((upState.put Reg.RESET.TFW_ADDR.ADDR 0x1000000000).put Reg.RESET.TFW_LEN.VALUE 64).put (Reg.RESET.TFW_MASK.TILES 0) 8).put (Reg.HDR.BLK_STAT.READY pgISSUE) 1) with tfw := some ⟨0x40000000, 64, 5, [3]⟩, mem := [(0x40000000, 7)] }, ⟨0x40000000, 64, 5, [3]⟩, 3, by decide⟩⟩

theorem witness_SelfTestCompletes :
    (∃ (s : State) (src : Source), (s.canonical = true) ∧ ((src == .host && s.hostWaits) = false) ∧ (s.answers src (pgBIST + 0x54) = true) ∧ (s.get Reg.BIST.BIST_STAT.ACTIVE = 0) ∧ (bistTargets s = []) ∧ (s.get Reg.BIST.BIST_CTRL.KIND ≠ 1)) ∧
    (∃ (s : State) (src : Source), (s.canonical = true) ∧ ((src == .host && s.hostWaits) = false) ∧ (s.answers src (pgBIST + 0x54) = true) ∧ (s.get Reg.BIST.BIST_STAT.ACTIVE = 0) ∧ (targetsOn s = true) ∧ (targetsGolden s = true) ∧ ((bistTargets s).all (fun x => x.1 == 0 || x.1 == 2 || x.1 == 3) = true) ∧ (s.get Reg.BIST.BIST_CTRL.KIND ≠ 1 ∨ s.bist.everReady = false) ∧ ((bistTargets s).all (bistIdle s) = true) ∧ (bistTargets s ≠ [])) ∧
    (∃ (s : State) (src : Source), (s.canonical = true) ∧ ((src == .host && s.hostWaits) = false) ∧ (s.answers src (pgBIST + 0x54) = true) ∧ (s.get Reg.BIST.BIST_STAT.ACTIVE ≠ 0)) ∧
    (∃ (s : State) (src : Source) (n : TileId), (s.canonical = true) ∧ ((src == .host && s.hostWaits) = false) ∧ (s.answers src (pgBIST + 0x54) = true) ∧ (s.get Reg.BIST.BIST_STAT.ACTIVE = 0) ∧ (s.get Reg.BIST.XMASK.SWITCHES = 0) ∧ (bistTargets s = [(0, n.val)]) ∧ (s.domOn n.val = false)) ∧
    (∃ (s : State) (src : Source) (n : TileId), (s.canonical = true) ∧ ((src == .host && s.hostWaits) = false) ∧ (s.answers src (pgBIST + 0x54) = true) ∧ (s.get Reg.BIST.BIST_STAT.ACTIVE = 0) ∧ (bistTargets s = [(0, n.val)]) ∧ (targetsOn s = true) ∧ (targetsGolden s = false)) ∧
    (∃ (s : State) (src : Source), (s.canonical = true) ∧ ((src == .host && s.hostWaits) = false) ∧ (s.answers src (pgBIST + 0x54) = true) ∧ (s.get Reg.BIST.BIST_STAT.ACTIVE = 0) ∧ (targetsOn s = true) ∧ (targetsGolden s = true) ∧ (s.get Reg.BIST.BIST_CTRL.KIND = 1) ∧ (s.bist.everReady = true)) ∧
    (∃ (s : State) (src : Source) (n : TileId), (s.canonical = true) ∧ ((src == .host && s.hostWaits) = false) ∧ (s.answers src (pgBIST + 0x54) = true) ∧ (s.get Reg.BIST.BIST_STAT.ACTIVE = 0) ∧ (targetsOn s = true) ∧ (targetsGolden s = true) ∧ ((bistTargets s).all (fun x => x.1 == 0 || x.1 == 2 || x.1 == 3) = true) ∧ (s.get Reg.BIST.BIST_CTRL.KIND ≠ 1 ∨ s.bist.everReady = false) ∧ (bistTargets s = [(0, n.val)]) ∧ (bistIdle s (0, n.val) = false)) ∧
    (∃ (s : State) (n : TileId) (rest : List (Nat × Nat)), (s.canonical = true) ∧ (s.bist.waiting = (0, n.val) :: rest) ∧ (rest.contains (0, n.val) = false) ∧ ((s.bist.waiting ++ s.bist.running).any (fun x => x.1 = 5) = false) ∧ (s.bistConc < s.get Reg.BIST.BIST_CFG.MAX_CONC)) ∧
    (∃ (s : State) (n : TileId), (s.bist.waiting.contains (0, n.val) = false ∨ s.get Reg.BIST.BIST_CFG.MAX_CONC ≤ s.bistConc)) ∧
    (∃ (s : State) (k : Fin 64) (rest : List (Nat × Nat)), (s.canonical = true) ∧ (s.bist.waiting = (1, k.val) :: rest) ∧ (rest.contains (1, k.val) = false) ∧ (s.bist.running = []) ∧ (s.bist.ended = []) ∧ (rest.any (fun x => x.1 = 5) = false) ∧ (0 < s.get Reg.BIST.BIST_CFG.MAX_CONC) ∧ (s.reaches (s.bistRegion k.val) 0x10000 = true) ∧ (s.reaches (s.bistSlot (1, k.val)) 0x10000 = true) ∧ (s.bistSlot (1, k.val) + 0x10000 ≤ s.bistRegion k.val ∨ s.bistRegion k.val + 0x10000 ≤ s.bistSlot (1, k.val))) ∧
    (∃ (s : State) (n : TileId) (sig : Word64), (s.canonical = true) ∧ (s.bist.running = [(0, n.val)]) ∧ (s.bist.waiting ≠ []) ∧ (s.hostMode pgBIST = false) ∧ (getAt 0 0 s.bist.golden = sig)) ∧
    (∃ (s : State) (n : TileId) (sig : Word64), (s.canonical = true) ∧ (s.bist.running = [(0, n.val)]) ∧ (s.bist.waiting ≠ []) ∧ (s.hostMode pgBIST = false) ∧ (getAt 0 0 s.bist.golden ≠ sig) ∧ (s.bist.reserved.contains (0, n.val) = true)) ∧
    (∃ (s : State) (n : TileId) (sig : Word64), (s.canonical = true) ∧ (s.bist.running = [(0, n.val)]) ∧ (s.hostMode pgBIST = true) ∧ (s.bist.ended = [])) ∧
    (∃ (s : State) (n : TileId) (sig : Word64), (s.canonical = true) ∧ (s.answers .bridge (pgBIST + 0x54) = true) ∧ (s.bist.ended = [(0, n.val, sig)]) ∧ (s.flag Reg.BIST.BIST_STAT.HOLD = true) ∧ (s.bist.waiting ≠ []) ∧ (s.bist.running = [])) ∧
    (∃ (s : State) (n : TileId) (sig : Word64), (s.canonical = true) ∧ (s.answers .bridge (pgBIST + 0x54) = true) ∧ (s.bist.ended = [(0, n.val, sig)]) ∧ (s.flag Reg.BIST.BIST_STAT.HOLD = true) ∧ (s.bist.waiting ≠ []) ∧ (s.bist.running = []) ∧ (s.bist.reserved.contains (0, n.val) = true)) ∧
    (∃ (s : State), (s.answers .bridge (pgBIST + 0x54) = true) ∧ (s.bist.ended = [])) ∧
    (∃ (s : State) (n : TileId) (r : Nat × Nat), (s.canonical = true) ∧ (s.answers .bridge (pgBIST + 0x54) = true) ∧ (s.get Reg.BIST.BIST_STAT.ACTIVE = 1) ∧ (s.bist.running = [(0, n.val)]) ∧ (s.bist.ended = []) ∧ (s.bist.waiting = [r]) ∧ (r ≠ (0, n.val))) ∧
    (∃ (s : State), (s.answers .bridge (pgBIST + 0x54) = true) ∧ (s.get Reg.BIST.BIST_STAT.ACTIVE = 0)) ∧
    (∃ (s : State), (s.canonical = true) ∧ (s.bist.recordDue = true) ∧ (s.domOn 323 = true) ∧ (s.holder ≠ 2) ∧ (s.crown.halted.contains s.holder = false) ∧ (s.bist.targets.map (fun x => (x.1, x.2)) = s.bist.results.map (fun r => (r.1, r.2.1))) ∧ ((s.bist.results.map fun r => (r.1, r.2.1)).Nodup)) ∧
    (∃ (s : State), (s.bist.recordDue = false)) :=
  ⟨⟨upState, .host, by decide⟩,
    ⟨((upState.put (Reg.BIST.TMASK.BITS 0) 8).put (Reg.BIST.GOLD.SIG 0) 5), .host, by decide⟩,
    ⟨((upState.put (Reg.BIST.TMASK.BITS 0) 8).put (Reg.BIST.GOLD.SIG 0) 5).put Reg.BIST.BIST_STAT.ACTIVE 1, .host, by decide⟩,
    ⟨((upState.put (Reg.BIST.TMASK.BITS 0) 8).put (Reg.BIST.GOLD.SIG 0) 5).put (Reg.BIST.TMASK.BITS 0) 16, .host, 4, by decide⟩,
    ⟨((upState.put (Reg.BIST.TMASK.BITS 0) 8).put (Reg.BIST.GOLD.SIG 0) 5).put (Reg.BIST.GOLD.SIG 0) 0, .host, 3, by decide⟩,
    ⟨{ ((upState.put (Reg.BIST.TMASK.BITS 0) 8).put (Reg.BIST.GOLD.SIG 0) 5).put Reg.BIST.BIST_CTRL.KIND 1 with bist := { upState.bist with everReady := true } }, .host, by decide⟩,
    ⟨{ ((upState.put (Reg.BIST.TMASK.BITS 0) 8).put (Reg.BIST.GOLD.SIG 0) 5) with tiles := [(3, { Tile.reset with evt := { EvtS.reset with fifo := [5] } })] }, .host, 3, by decide⟩,
    ⟨{ ((upState.put (Reg.BIST.TMASK.BITS 0) 8).put (Reg.BIST.GOLD.SIG 0) 5).put Reg.BIST.BIST_STAT.ACTIVE 1 with bist := { upState.bist with waiting := [(0, 3), (2, 1)], running := [], ended := [], reserved := [(0, 3), (0, 0), (1, 1), (2, 1)], golden := [(0, 5)], saveBase := 0x1000000000 } }, 3, [(2, 1)], by decide⟩,
    ⟨{ ((upState.put (Reg.BIST.TMASK.BITS 0) 8).put (Reg.BIST.GOLD.SIG 0) 5).put Reg.BIST.BIST_CFG.MAX_CONC 2 |>.put Reg.BIST.BIST_STAT.ACTIVE 1 with bist := { upState.bist with waiting := [(0, 3)], running := [(0, 1), (0, 2)], ended := [], reserved := [(0, 3), (0, 0), (1, 1), (2, 1)], golden := [(0, 5)], saveBase := 0x1000000000 } }, 3, by decide⟩,
    ⟨{ ((upState.put (Reg.BIST.TMASK.BITS 0) 8).put (Reg.BIST.GOLD.SIG 0) 5).put Reg.BIST.BIST_STAT.ACTIVE 1 with bist := { upState.bist with waiting := [(1, 1)], running := [], ended := [], reserved := [(0, 3), (0, 0), (1, 1), (2, 1)], golden := [(0, 5)], everReady := false, saveBase := 0x40000000 } }, 1, [], by decide⟩,
    ⟨{ ((upState.put (Reg.BIST.TMASK.BITS 0) 8).put (Reg.BIST.GOLD.SIG 0) 5).put Reg.BIST.BIST_STAT.ACTIVE 1 with bist := { upState.bist with waiting := [(2, 1)], running := [(0, 3)], ended := [], reserved := [(0, 3), (0, 0), (1, 1), (2, 1)], golden := [(0, 5)], saveBase := 0x1000000000 }, tiles := [(3, { Tile.reset with fwOk := true, sregs := [(1, 2)] })], mem := [(0xC00000, 7)] }, 3, 5, by decide⟩,
    ⟨{ ((upState.put (Reg.BIST.TMASK.BITS 0) 8).put (Reg.BIST.GOLD.SIG 0) 5).put Reg.BIST.BIST_STAT.ACTIVE 1 with bist := { upState.bist with waiting := [(2, 1)], running := [(0, 3)], ended := [], reserved := [(0, 3), (0, 0), (1, 1), (2, 1)], golden := [(0, 5)], saveBase := 0x1000000000 }, tiles := [(3, { Tile.reset with fwOk := true, sregs := [(1, 2)] })], mem := [(0xC00000, 7)] }, 3, 6, by decide⟩,
    ⟨{ ((upState.put (Reg.BIST.TMASK.BITS 0) 8).put (Reg.BIST.GOLD.SIG 0) 5).put (Reg.HDR.BLK_CTRL.MODE pgBIST) 1 |>.put Reg.BIST.BIST_STAT.ACTIVE 1 with bist := { upState.bist with waiting := [(2, 1)], running := [(0, 3)], ended := [], reserved := [(0, 3), (0, 0), (1, 1), (2, 1)], golden := [(0, 5)], saveBase := 0x1000000000 } }, 3, 6, by decide⟩,
    ⟨{ ((upState.put (Reg.BIST.TMASK.BITS 0) 8).put (Reg.BIST.GOLD.SIG 0) 5).put (Reg.HDR.BLK_CTRL.MODE pgBIST) 1 |>.put Reg.BIST.BIST_STAT.HOLD 1 |>.put Reg.BIST.BIST_STAT.ACTIVE 1 with bist := { upState.bist with waiting := [(2, 1)], running := [], ended := [(0, 3, 6)], reserved := [(0, 3), (0, 0), (1, 1), (2, 1)], golden := [(0, 5)], saveBase := 0x1000000000 } }, 3, 6, by decide⟩,
    ⟨{ ((upState.put (Reg.BIST.TMASK.BITS 0) 8).put (Reg.BIST.GOLD.SIG 0) 5).put (Reg.HDR.BLK_CTRL.MODE pgBIST) 1 |>.put Reg.BIST.BIST_STAT.HOLD 1 |>.put Reg.BIST.BIST_STAT.ACTIVE 1 with bist := { upState.bist with waiting := [(2, 1)], running := [], ended := [(0, 3, 6)], reserved := [(0, 3), (0, 0), (1, 1), (2, 1)], golden := [(0, 5)], saveBase := 0x1000000000 } }, 3, 6, by decide⟩,
    ⟨{ ((upState.put (Reg.BIST.TMASK.BITS 0) 8).put (Reg.BIST.GOLD.SIG 0) 5).put Reg.BIST.BIST_STAT.ACTIVE 1 with bist := { upState.bist with waiting := [], running := [], ended := [], reserved := [(0, 3), (0, 0), (1, 1), (2, 1)], golden := [(0, 5)], saveBase := 0x1000000000 } }, by decide⟩,
    ⟨{ ((upState.put (Reg.BIST.TMASK.BITS 0) 8).put (Reg.BIST.GOLD.SIG 0) 5).put Reg.BIST.BIST_STAT.ACTIVE 1 with bist := { upState.bist with waiting := [(2, 1)], running := [(0, 3)], ended := [], reserved := [(0, 3), (0, 0), (1, 1), (2, 1)], golden := [(0, 5)], saveBase := 0x1000000000 }, tiles := [(3, { Tile.reset with fwOk := true, sregs := [(1, 2)] })], mem := [(0xC00000, 7)] }, 3, (2, 1), by decide⟩,
    ⟨upState, by decide⟩,
    ⟨{ (upState.put Reg.CROWN.TOKEN.HOLDER 0) with bist := { upState.bist with recordDue := true, kind := 1, targets := [(0, 3)], results := [(0, 3, 1, 5)] }, flash := { upState.flash with bist := [] } }, by decide⟩,
    ⟨upState, by decide⟩⟩

theorem witness_TwinRolesComplete :
    (∃ (s : State) (src : Source) (v : Fin 8), (s.canonical = true) ∧ ((src == .host && s.hostWaits) = false) ∧ (s.answers src (pgTWIN + 0x40) = true) ∧ (s.authorised src = true) ∧ ((s.get Reg.SECURITY.LOCK.BITS).testBit 4 = false) ∧ (v.val < 4) ∧ (v.val = 0 ∨ (s.portUp 7 = true ∧ s.flag (Reg.FL.PEER.VALID 7) = true)) ∧ (s.twin.handover = none)) ∧
    (∃ (s : State) (src : Source) (v : Fin 8), (s.canonical = true) ∧ ((src == .host && s.hostWaits) = false) ∧ (s.answers src (pgTWIN + 0x40) = true) ∧ (s.authorised src = false)) ∧
    (∃ (s : State) (src : Source) (v : Fin 8), (s.canonical = true) ∧ ((src == .host && s.hostWaits) = false) ∧ (s.answers src (pgTWIN + 0x40) = true) ∧ (s.authorised src = true) ∧ ((s.get Reg.SECURITY.LOCK.BITS).testBit 4 = true)) ∧
    (∃ (s : State) (src : Source) (v : Fin 8), (s.canonical = true) ∧ ((src == .host && s.hostWaits) = false) ∧ (s.answers src (pgTWIN + 0x40) = true) ∧ (s.authorised src = true) ∧ ((s.get Reg.SECURITY.LOCK.BITS).testBit 4 = false) ∧ (4 ≤ v.val)) ∧
    (∃ (s : State) (src : Source) (v : Fin 8), (s.canonical = true) ∧ ((src == .host && s.hostWaits) = false) ∧ (s.answers src (pgTWIN + 0x40) = true) ∧ (s.authorised src = true) ∧ ((s.get Reg.SECURITY.LOCK.BITS).testBit 4 = false) ∧ (v.val < 4) ∧ (v.val ≠ 0) ∧ (s.portUp 7 = false ∨ s.flag (Reg.FL.PEER.VALID 7) = false)) ∧
    (∃ (s : State), (s.canonical = true) ∧ (s.role ≠ 0) ∧ (s.twinPorts = [7]) ∧ (linkOpen s 7 = true) ∧ (risingFrom 0 (s.port 7).credits = true)) ∧
    (∃ (s : State), (s.role = 0)) ∧
    (∃ (s : State) (p : Fin 8) (u : TwinUnit), (s.canonical = true) ∧ (s.role ≠ 0) ∧ (fromTwin s p.val u = true) ∧ (linksIdle s p.val = true) ∧ (u.healthy = true)) ∧
    (∃ (s : State) (p : Fin 8) (u : TwinUnit), (s.canonical = true) ∧ (s.role ≠ 0) ∧ (s.twinPorts.contains p.val = true) ∧ (linksIdle s p.val = true) ∧ (u.id.toNat ≠ s.get (Reg.FL.PEER.ID 7))) ∧
    (∃ (s : State) (peer x : Nat), (s.canonical = true) ∧ (s.role = 2) ∧ (s.twin.good = some (peer, x)) ∧ (peer = 3)) ∧
    (∃ (s : State) (peer x : Nat), (s.canonical = true) ∧ ((s.role = 1 ∧ peer ≠ 1) ∨ (2 ≤ s.role ∧ s.role < 4 ∧ (peer ≤ 1 ∨ 4 ≤ peer))) ∧ (peer < 8) ∧ (s.twin.good = some (peer, x)) ∧ (s.hostMode pgTWIN = false)) ∧
    (∃ (s : State) (x : Nat), (s.canonical = true) ∧ (s.role = 2) ∧ (s.twin.good = some (2, x))) ∧
    (∃ (s : State), (s.canonical = true) ∧ (s.role ≠ 0) ∧ (s.twin.good = none) ∧ (s.get Reg.TWIN.TWIN_STAT.MISS ≠ 1)) ∧
    (∃ (s : State), (s.canonical = true) ∧ (s.role ≠ 0) ∧ (s.twin.good = none) ∧ (s.get Reg.TWIN.TWIN_STAT.MISS = 1)) ∧
    (∃ (s : State), (s.canonical = true) ∧ (s.twin.takeover = true) ∧ (s.role = 3) ∧ (s.healthy = true) ∧ (s.hostMode pgTWIN = false)) ∧
    (∃ (s : State), (s.canonical = true) ∧ (s.twin.takeover = true) ∧ (s.role = 3) ∧ (s.healthy = true) ∧ (s.hostMode pgTWIN = true)) ∧
    (∃ (s : State) (r : Nat), (s.canonical = true) ∧ (s.twin.conflict = some r) ∧ (r < 4) ∧ (s.hostMode pgTWIN = false)) ∧
    (∃ (s : State) (src : Source), (s.canonical = true) ∧ ((src == .host && s.hostWaits) = false) ∧ (s.answers src (pgTWIN + 0x48) = true)) ∧
    (∃ (s : State) (src : Source), (s.canonical = true) ∧ ((src == .host && s.hostWaits) = false) ∧ (s.answers src (pgTWIN + 0x48) = true) ∧ (s.role ≠ 2)) ∧
    (∃ (s : State), (s.canonical = true) ∧ (s.get Reg.TWIN.TWIN_CFG.STEP_WD ≠ 0)) ∧
    (∃ (s : State), (s.get Reg.TWIN.TWIN_CFG.STEP_WD = 0)) :=
  ⟨⟨((upState.put (Reg.FL.PORT_STAT.STATE 7) 2).put (Reg.FL.PEER.VALID 7) 1).put (Reg.FL.PEER.ID 7) 7, .host, 3, by decide⟩,
    ⟨upState, .wcore, 1, by decide⟩,
    ⟨upState.put Reg.SECURITY.LOCK.BITS 16, .host, 1, by decide⟩,
    ⟨upState, .host, 5, by decide⟩,
    ⟨upState, .host, 3, by decide⟩,
    ⟨{ (((upState.put (Reg.FL.PORT_STAT.STATE 7) 2).put (Reg.FL.PEER.VALID 7) 1).put (Reg.FL.PEER.ID 7) 7 |>.put Reg.TWIN.TWIN_ROLE.ROLE (2)) with links := [(7, { PortS.reset with credits := [(14, 16)] })] }, by decide⟩,
    ⟨upState, by decide⟩,
    ⟨(((upState.put (Reg.FL.PORT_STAT.STATE 7) 2).put (Reg.FL.PEER.VALID 7) 1).put (Reg.FL.PEER.ID 7) 7 |>.put Reg.TWIN.TWIN_ROLE.ROLE (2)), 7, ⟨0, 3, true, false, 7, 0, 0⟩, by decide⟩,
    ⟨(((upState.put (Reg.FL.PORT_STAT.STATE 7) 2).put (Reg.FL.PEER.VALID 7) 1).put (Reg.FL.PEER.ID 7) 7 |>.put Reg.TWIN.TWIN_ROLE.ROLE (2)), 7, ⟨0, 3, true, false, 9, 0, 0⟩, by decide⟩,
    ⟨{ (((upState.put (Reg.FL.PORT_STAT.STATE 7) 2).put (Reg.FL.PEER.VALID 7) 1).put (Reg.FL.PEER.ID 7) 7 |>.put Reg.TWIN.TWIN_ROLE.ROLE (2)).put Reg.TWIN.TWIN_STAT.MISS 1 with twin := { TwinS.reset with good := some (3, 1) } }, 3, 1, by decide⟩,
    ⟨{ (((upState.put (Reg.FL.PORT_STAT.STATE 7) 2).put (Reg.FL.PEER.VALID 7) 1).put (Reg.FL.PEER.ID 7) 7 |>.put Reg.TWIN.TWIN_ROLE.ROLE (1)) with twin := { TwinS.reset with good := some (3, 1) } }, 3, 1, by decide⟩,
    ⟨{ (((upState.put (Reg.FL.PORT_STAT.STATE 7) 2).put (Reg.FL.PEER.VALID 7) 1).put (Reg.FL.PEER.ID 7) 7 |>.put Reg.TWIN.TWIN_ROLE.ROLE (2)) with twin := { TwinS.reset with good := some (2, 1) } }, 1, by decide⟩,
    ⟨(((upState.put (Reg.FL.PORT_STAT.STATE 7) 2).put (Reg.FL.PEER.VALID 7) 1).put (Reg.FL.PEER.ID 7) 7 |>.put Reg.TWIN.TWIN_ROLE.ROLE (2)), by decide⟩,
    ⟨(((upState.put (Reg.FL.PORT_STAT.STATE 7) 2).put (Reg.FL.PEER.VALID 7) 1).put (Reg.FL.PEER.ID 7) 7 |>.put Reg.TWIN.TWIN_ROLE.ROLE (3)).put Reg.TWIN.TWIN_STAT.MISS 1, by decide⟩,
    ⟨{ (((upState.put (Reg.FL.PORT_STAT.STATE 7) 2).put (Reg.FL.PEER.VALID 7) 1).put (Reg.FL.PEER.ID 7) 7 |>.put Reg.TWIN.TWIN_ROLE.ROLE (3)) with twin := { TwinS.reset with takeover := true } }, by decide⟩,
    ⟨{ (((upState.put (Reg.FL.PORT_STAT.STATE 7) 2).put (Reg.FL.PEER.VALID 7) 1).put (Reg.FL.PEER.ID 7) 7 |>.put Reg.TWIN.TWIN_ROLE.ROLE (3)).put (Reg.HDR.BLK_CTRL.MODE pgTWIN) 1 with twin := { TwinS.reset with takeover := true } }, by decide⟩,
    ⟨{ (((upState.put (Reg.FL.PORT_STAT.STATE 7) 2).put (Reg.FL.PEER.VALID 7) 1).put (Reg.FL.PEER.ID 7) 7 |>.put Reg.TWIN.TWIN_ROLE.ROLE (2)) with twin := { TwinS.reset with conflict := some 3 } }, 3, by decide⟩,
    ⟨(((upState.put (Reg.FL.PORT_STAT.STATE 7) 2).put (Reg.FL.PEER.VALID 7) 1).put (Reg.FL.PEER.ID 7) 7 |>.put Reg.TWIN.TWIN_ROLE.ROLE (2)), .host, by decide⟩,
    ⟨(((upState.put (Reg.FL.PORT_STAT.STATE 7) 2).put (Reg.FL.PEER.VALID 7) 1).put (Reg.FL.PEER.ID 7) 7 |>.put Reg.TWIN.TWIN_ROLE.ROLE (3)).put Reg.TWIN.TWIN_CTRL.SICK 1, .host, by decide⟩,
    ⟨(((upState.put (Reg.FL.PORT_STAT.STATE 7) 2).put (Reg.FL.PEER.VALID 7) 1).put (Reg.FL.PEER.ID 7) 7 |>.put Reg.TWIN.TWIN_ROLE.ROLE (2)).put Reg.TWIN.TWIN_CFG.STEP_WD 5, by decide⟩,
    ⟨upState, by decide⟩⟩

theorem witness_TwinHandoverCompletes :
    (∃ (s : State) (src : Source), (s.canonical = true) ∧ ((src == .host && s.hostWaits) = false) ∧ (s.answers src (pgTWIN + 0x48) = true) ∧ (s.role = 2) ∧ (s.flag Reg.TWIN.TWIN_STAT.PAIRED = true) ∧ (s.twinPorts = [7]) ∧ (linkOpen s 7 = true) ∧ (risingFrom 0 (s.port 7).credits = true)) ∧
    (∃ (s : State) (src : Source), (s.canonical = true) ∧ ((src == .host && s.hostWaits) = false) ∧ (s.answers src (pgTWIN + 0x48) = true) ∧ (s.role ≠ 2 ∨ s.flag Reg.TWIN.TWIN_STAT.PAIRED = false)) ∧
    (∃ (s : State) (p : Fin 8) (u : TwinUnit), (s.canonical = true) ∧ (fromTwin s p.val u = true) ∧ (linkOpen s p.val = true) ∧ (risingFrom 0 (s.port p.val).credits = true) ∧ (s.role = 3) ∧ (s.stepCnt < u.hstep.toNat)) ∧
    (∃ (s : State) (p : Fin 8) (u : TwinUnit), (s.canonical = true) ∧ (fromTwin s p.val u = true) ∧ (linkOpen s p.val = true) ∧ (risingFrom 0 (s.port p.val).credits = true) ∧ (s.role ≠ 3 ∨ u.hstep.toNat ≤ s.stepCnt)) ∧
    (∃ (s : State) (p : Fin 8) (u : TwinUnit), (s.canonical = true) ∧ (fromTwin s p.val u = true) ∧ (linksIdle s p.val = true) ∧ (s.twin.handover = some (true, false)) ∧ (u.hstep.toNat = s.twin.hstep) ∧ (u.refuse = false) ∧ (s.stepCnt ≤ s.twin.hstep)) ∧
    (∃ (s : State) (p : Fin 8) (u : TwinUnit), (s.canonical = true) ∧ (fromTwin s p.val u = true) ∧ (linksIdle s p.val = true) ∧ (s.twin.handover = some (true, false)) ∧ (u.hstep.toNat = s.twin.hstep) ∧ (u.refuse = true)) ∧
    (∃ (s : State), (s.canonical = true) ∧ (s.twin.handover = some (true, false))) ∧
    (∃ (s : State), (s.twin.handover ≠ some (true, false))) ∧
    (∃ (s : State) (src : Source), (s.canonical = true) ∧ ((src == .host && s.hostWaits) = false) ∧ (s.answers src (pgTWIN + 0x48) = true) ∧ (s.role ≠ 0) ∧ (s.twinPorts = [7]) ∧ (linkOpen s 7 = true) ∧ (risingFrom 0 (s.port 7).credits = true) ∧ (s.twin.handover = none)) ∧
    (∃ (s : State) (src : Source), ((src == .host && s.hostWaits) = false) ∧ (s.answers src (pgTWIN + 0x48) = true) ∧ (s.role = 0)) ∧
    (∃ (s : State) (p : Fin 8) (u : TwinUnit), (s.canonical = true) ∧ (fromTwin s p.val u = true) ∧ (linksIdle s p.val = true) ∧ (s.twin.handover = none)) :=
  ⟨⟨{ (((upState.put (Reg.FL.PORT_STAT.STATE 7) 2).put (Reg.FL.PEER.VALID 7) 1).put (Reg.FL.PEER.ID 7) 7 |>.put Reg.TWIN.TWIN_ROLE.ROLE (2)).put Reg.TWIN.TWIN_STAT.PAIRED 1 with links := [(7, { PortS.reset with credits := [(14, 16)] })] }, .host, by decide⟩,
    ⟨(((upState.put (Reg.FL.PORT_STAT.STATE 7) 2).put (Reg.FL.PEER.VALID 7) 1).put (Reg.FL.PEER.ID 7) 7 |>.put Reg.TWIN.TWIN_ROLE.ROLE (3)), .host, by decide⟩,
    ⟨{ (((upState.put (Reg.FL.PORT_STAT.STATE 7) 2).put (Reg.FL.PEER.VALID 7) 1).put (Reg.FL.PEER.ID 7) 7 |>.put Reg.TWIN.TWIN_ROLE.ROLE (3)) with links := [(7, { PortS.reset with credits := [(14, 16)] })] }, 7, ⟨0, 2, true, false, 7, 0, 9⟩, by decide⟩,
    ⟨{ (((upState.put (Reg.FL.PORT_STAT.STATE 7) 2).put (Reg.FL.PEER.VALID 7) 1).put (Reg.FL.PEER.ID 7) 7 |>.put Reg.TWIN.TWIN_ROLE.ROLE (2)) with links := [(7, { PortS.reset with credits := [(14, 16)] })] }, 7, ⟨0, 2, true, false, 7, 0, 9⟩, by decide⟩,
    ⟨{ (((upState.put (Reg.FL.PORT_STAT.STATE 7) 2).put (Reg.FL.PEER.VALID 7) 1).put (Reg.FL.PEER.ID 7) 7 |>.put Reg.TWIN.TWIN_ROLE.ROLE (2)).put Reg.TWIN.TWIN_STAT.HANDOVER_PEND 1 with twin := { TwinS.reset with handover := some (true, false), hstep := 9 } }, 7, ⟨0, 3, true, false, 7, 0, 9⟩, by decide⟩,
    ⟨{ (((upState.put (Reg.FL.PORT_STAT.STATE 7) 2).put (Reg.FL.PEER.VALID 7) 1).put (Reg.FL.PEER.ID 7) 7 |>.put Reg.TWIN.TWIN_ROLE.ROLE (2)).put Reg.TWIN.TWIN_STAT.HANDOVER_PEND 1 with twin := { TwinS.reset with handover := some (true, false), hstep := 9 } }, 7, ⟨0, 3, true, true, 7, 0, 9⟩, by decide⟩,
    ⟨{ (((upState.put (Reg.FL.PORT_STAT.STATE 7) 2).put (Reg.FL.PEER.VALID 7) 1).put (Reg.FL.PEER.ID 7) 7 |>.put Reg.TWIN.TWIN_ROLE.ROLE (2)).put Reg.TWIN.TWIN_STAT.HANDOVER_PEND 1 with twin := { TwinS.reset with handover := some (true, false), hstep := 9 } }, by decide⟩,
    ⟨upState, by decide⟩,
    ⟨{ (((upState.put (Reg.FL.PORT_STAT.STATE 7) 2).put (Reg.FL.PEER.VALID 7) 1).put (Reg.FL.PEER.ID 7) 7 |>.put Reg.TWIN.TWIN_ROLE.ROLE (3)) with links := [(7, { PortS.reset with credits := [(14, 16)] })] }, .host, by decide⟩,
    ⟨upState, .host, by decide⟩,
    ⟨(((upState.put (Reg.FL.PORT_STAT.STATE 7) 2).put (Reg.FL.PEER.VALID 7) 1).put (Reg.FL.PEER.ID 7) 7 |>.put Reg.TWIN.TWIN_ROLE.ROLE (3)), 7, ⟨0, 2, true, false, 7, 0, 0⟩, by decide⟩⟩

theorem witness_PanelCompletes :
    (∃ (s : State), (s.canonical = true) ∧ (s.panelOn = true) ∧ (s.get Reg.PANEL.PANEL_STAT.BUTTON = 0) ∧ (s.hostMode pgPANEL = false) ∧ (s.flag (Reg.TIMERS.CAP_CFG.EN 14) = false)) ∧
    (∃ (s : State), (s.canonical = true) ∧ (s.panelOn = true) ∧ (s.get Reg.PANEL.PANEL_STAT.BUTTON = 0) ∧ (s.hostMode pgPANEL = true) ∧ (s.flag (Reg.TIMERS.CAP_CFG.EN 14) = false)) ∧
    (∃ (s : State), (s.canonical = true) ∧ (s.panelOn = true) ∧ (s.get Reg.PANEL.PANEL_STAT.BUTTON = 0) ∧ (s.hostMode pgPANEL = false) ∧ (s.flag (Reg.TIMERS.CAP_CFG.EN 14) = true) ∧ (s.get (Reg.TIMERS.CAP_STAT.PEND_F 14) = 0) ∧ (s.get (Reg.TIMERS.CAP_CFG.TMR 14) = 15)) ∧
    (∃ (s : State) (ms : Nat), (s.canonical = true) ∧ (s.panelOn = true) ∧ (s.get Reg.PANEL.PANEL_STAT.BUTTON = 1) ∧ (s.hostMode pgPANEL = false) ∧ (s.flag (Reg.TIMERS.CAP_CFG.EN 14) = false) ∧ (s.panel.long = false) ∧ (ms < 20)) ∧
    (∃ (s : State) (ms : Nat), (s.canonical = true) ∧ (s.panelOn = true) ∧ (s.get Reg.PANEL.PANEL_STAT.BUTTON = 1) ∧ (s.hostMode pgPANEL = false) ∧ (s.flag (Reg.TIMERS.CAP_CFG.EN 14) = false) ∧ (s.panel.long = false) ∧ (20 ≤ ms) ∧ (ms < s.get Reg.PANEL.PANEL_CFG.LONG_MS)) ∧
    (∃ (s : State) (ms : Nat), (s.canonical = true) ∧ (s.panelOn = true) ∧ (s.get Reg.PANEL.PANEL_STAT.BUTTON = 1) ∧ (s.hostMode pgPANEL = false) ∧ (s.flag (Reg.TIMERS.CAP_CFG.EN 14) = false) ∧ (s.panel.long = true)) ∧
    (∃ (s : State), (s.canonical = true) ∧ (s.panelOn = true) ∧ (s.hostMode pgPANEL = false) ∧ (s.get Reg.PANEL.PANEL_STAT.BUTTON = 1) ∧ (s.panel.long = false) ∧ (s.get Reg.PANEL.PANEL_CTRL.DETACHING = 0)) ∧
    (∃ (s : State), (s.canonical = true) ∧ (s.panelOn = true) ∧ (s.hostMode pgPANEL = false) ∧ (s.get Reg.PANEL.PANEL_STAT.BUTTON = 1) ∧ (s.panel.long = false) ∧ (s.get Reg.PANEL.PANEL_CTRL.DETACHING = 1)) ∧
    (∃ (s : State) (ns : BitVec 16), (s.canonical = true) ∧ (s.panelOn = true) ∧ (s.hostMode pgPANEL = false) ∧ (ns.toNat < s.get Reg.PANEL.PANEL_CFG2.TOUCH_THR)) ∧
    (∃ (s : State) (ns : BitVec 16), (s.canonical = true) ∧ (s.panelOn = true) ∧ (s.hostMode pgPANEL = false) ∧ (s.get Reg.PANEL.PANEL_CFG2.TOUCH_THR ≤ ns.toNat) ∧ (s.panel.touch + 10 < s.get Reg.PANEL.PANEL_CFG2.TOUCH_MS ∨ s.panel.touchSeen = true)) ∧
    (∃ (s : State) (ns : BitVec 16), (s.canonical = true) ∧ (s.panelOn = true) ∧ (s.hostMode pgPANEL = false) ∧ (s.get Reg.PANEL.PANEL_CFG2.TOUCH_THR ≤ ns.toNat) ∧ (s.panel.touchSeen = false) ∧ (s.get Reg.PANEL.PANEL_CFG2.TOUCH_MS ≤ s.panel.touch + 10) ∧ (s.get Reg.PANEL.PANEL_CTRL.DETACHING = 0)) ∧
    (∃ (s : State) (ns : BitVec 16), (s.canonical = true) ∧ (s.panelOn = true) ∧ (s.hostMode pgPANEL = true) ∧ (s.get Reg.PANEL.PANEL_STAT.TOUCHED = 0) ∧ (s.get Reg.PANEL.PANEL_CFG2.TOUCH_THR ≤ ns.toNat)) ∧
    (∃ (s : State), (s.canonical = true) ∧ (s.panelOn = true) ∧ (s.hostMode pgPANEL = false)) ∧
    (∃ (s : State), (s.canonical = true) ∧ (s.panelOn = true) ∧ (s.hostMode pgPANEL = false) ∧ (s.flag Reg.PANEL.PANEL_CTRL.SAFE = true) ∧ (s.get Reg.PANEL.PANEL_STAT.LATCH_OPEN = 0) ∧ (s.flag Reg.PANEL.PANEL_CFG.LATCH_SICK = false ∨ s.role ≠ 2)) ∧
    (∃ (s : State), (s.canonical = true) ∧ (s.panelOn = true) ∧ (s.hostMode pgPANEL = false) ∧ (s.flag Reg.PANEL.PANEL_CTRL.SAFE = true) ∧ (s.get Reg.PANEL.PANEL_STAT.LATCH_OPEN = 0) ∧ (s.flag Reg.PANEL.PANEL_CFG.LATCH_SICK = true) ∧ (s.role = 2)) ∧
    (∃ (s : State), (s.get Reg.PANEL.PANEL_STAT.LATCH_OPEN = 1)) ∧
    (∃ (s : State), (s.canonical = true) ∧ (s.panelOn = true)) ∧
    (∃ (s : State) (pres : BitVec 10), (s.canonical = true) ∧ (s.panelOn = true) ∧ (s.hostMode pgPANEL = false) ∧ (s.get Reg.PANEL.CAGE_PRES.PRES ≠ pres.toNat)) ∧
    (∃ (s : State) (pres : BitVec 10), (s.canonical = true) ∧ (s.panelOn = true) ∧ (s.hostMode pgPANEL = true) ∧ (s.get Reg.PANEL.CAGE_PRES.PRES ≠ pres.toNat)) ∧
    (∃ (s : State) (pres : BitVec 10), (s.panelOn = false)) :=
  ⟨⟨(upState.put (Reg.HDR.BLK_CTRL.EN pgPANEL) 1), by decide⟩,
    ⟨(upState.put (Reg.HDR.BLK_CTRL.EN pgPANEL) 1 |>.put (Reg.HDR.BLK_CTRL.MODE pgPANEL) 1), by decide⟩,
    ⟨(upState.put (Reg.HDR.BLK_CTRL.EN pgPANEL) 1 |>.put (Reg.TIMERS.CAP_CFG.EN 14) 1 |>.put (Reg.TIMERS.CAP_CFG.TMR 14) 15 |>.put (Reg.TIMERS.GT_CNT.VALUE 15) 99), by decide⟩,
    ⟨(upState.put (Reg.HDR.BLK_CTRL.EN pgPANEL) 1 |>.put Reg.PANEL.PANEL_STAT.BUTTON 1), 3, by decide⟩,
    ⟨(upState.put (Reg.HDR.BLK_CTRL.EN pgPANEL) 1 |>.put Reg.PANEL.PANEL_STAT.BUTTON 1), 100, by decide⟩,
    ⟨{ (upState.put (Reg.HDR.BLK_CTRL.EN pgPANEL) 1 |>.put Reg.PANEL.PANEL_STAT.BUTTON 1) with panel := ⟨true, 0, false⟩ }, 5000, by decide⟩,
    ⟨(upState.put (Reg.HDR.BLK_CTRL.EN pgPANEL) 1 |>.put Reg.PANEL.PANEL_STAT.BUTTON 1), by decide⟩,
    ⟨(upState.put (Reg.HDR.BLK_CTRL.EN pgPANEL) 1 |>.put Reg.PANEL.PANEL_STAT.BUTTON 1 |>.put Reg.PANEL.PANEL_CTRL.DETACHING 1), by decide⟩,
    ⟨{ (upState.put (Reg.HDR.BLK_CTRL.EN pgPANEL) 1 |>.put Reg.PANEL.PANEL_STAT.TOUCHED 1) with panel := ⟨false, 40, false⟩ }, 3, by decide⟩,
    ⟨{ (upState.put (Reg.HDR.BLK_CTRL.EN pgPANEL) 1) with panel := ⟨false, 40, false⟩ }, 0xFFFF, by decide⟩,
    ⟨{ (upState.put (Reg.HDR.BLK_CTRL.EN pgPANEL) 1 |>.put Reg.PANEL.PANEL_CFG2.TOUCH_MS 50) with panel := ⟨false, 40, false⟩ }, 0xFFFF, by decide⟩,
    ⟨(upState.put (Reg.HDR.BLK_CTRL.EN pgPANEL) 1 |>.put (Reg.HDR.BLK_CTRL.MODE pgPANEL) 1), 0xFFFF, by decide⟩,
    ⟨{ (upState.put (Reg.HDR.BLK_CTRL.EN pgPANEL) 1) with panel := ⟨false, 40, false⟩ }, by decide⟩,
    ⟨(upState.put (Reg.HDR.BLK_CTRL.EN pgPANEL) 1 |>.put Reg.PANEL.PANEL_CTRL.SAFE 1), by decide⟩,
    ⟨(upState.put (Reg.HDR.BLK_CTRL.EN pgPANEL) 1 |>.put Reg.PANEL.PANEL_CTRL.SAFE 1 |>.put Reg.PANEL.PANEL_CFG.LATCH_SICK 1 |>.put Reg.TWIN.TWIN_ROLE.ROLE 2), by decide⟩,
    ⟨(upState.put (Reg.HDR.BLK_CTRL.EN pgPANEL) 1 |>.put Reg.PANEL.PANEL_STAT.LATCH_OPEN 1), by decide⟩,
    ⟨(upState.put (Reg.HDR.BLK_CTRL.EN pgPANEL) 1 |>.put Reg.PANEL.PANEL_STAT.LATCH_OPEN 1), by decide⟩,
    ⟨(upState.put (Reg.HDR.BLK_CTRL.EN pgPANEL) 1), 5, by decide⟩,
    ⟨(upState.put (Reg.HDR.BLK_CTRL.EN pgPANEL) 1 |>.put (Reg.HDR.BLK_CTRL.MODE pgPANEL) 1), 5, by decide⟩,
    ⟨upState, 5, by decide⟩⟩

theorem witness_TimersAndCapturesComplete :
    (∃ (s : State) (n : Fin 16), (s.canonical = true) ∧ (runsAlone s n.val = true) ∧ (s.gtCnt n.val ≠ (s.timer n.val).top.toNat) ∧ ((s.gtCnt n.val + 1) % 2 ^ 32 ≠ (s.timer n.val).cmp.toNat)) ∧
    (∃ (s : State) (n : Fin 16), (s.canonical = true) ∧ (runsAlone s n.val = true) ∧ (s.gtCnt n.val ≠ (s.timer n.val).top.toNat) ∧ ((s.gtCnt n.val + 1) % 2 ^ 32 = (s.timer n.val).cmp.toNat)) ∧
    (∃ (s : State) (n : Fin 16), (s.canonical = true) ∧ (runsAlone s n.val = true) ∧ (s.gtCnt n.val ≠ (s.timer n.val).top.toNat) ∧ ((s.gtCnt n.val + 1) % 2 ^ 32 = (s.timer n.val).cmp.toNat)) ∧
    (∃ (s : State) (n : Fin 16), (s.gtCnt n.val ≠ (s.timer n.val).top.toNat) ∧ ((s.gtCnt n.val + 1) % 2 ^ 32 ≠ (s.timer n.val).cmp.toNat)) ∧
    (∃ (s : State) (n : Fin 16), (s.canonical = true) ∧ (runsAlone s n.val = true) ∧ (s.gtCnt n.val = (s.timer n.val).top.toNat) ∧ (n.val % 2 = 1 ∨ s.flag (Reg.TIMERS.GT_CFG.CASC (n.val + 1)) = false)) ∧
    (∃ (s : State) (n : Fin 16), (s.canonical = true) ∧ (runsAlone s n.val = true) ∧ (s.gtCnt n.val = (s.timer n.val).top.toNat) ∧ (n.val % 2 = 1 ∨ s.flag (Reg.TIMERS.GT_CFG.CASC (n.val + 1)) = false)) ∧
    (∃ (s : State) (n : Fin 16), (s.gtCnt n.val ≠ (s.timer n.val).top.toNat)) ∧
    (∃ (s : State) (n : Fin 16), (s.canonical = true) ∧ (s.ticks n.val = true) ∧ (s.get (Reg.TIMERS.GT_STAT.HELD n.val) = 1)) ∧
    (∃ (s : State) (n : Fin 16), (s.get (Reg.TIMERS.GT_CTRL.RUN n.val) = 0)) ∧
    (∃ (s : State) (src : Source) (n : Fin 16), (s.canonical = true) ∧ ((src == .host && s.hostWaits) = false) ∧ (s.answers src (pgTIMERS + 0x104 + 0x20 * n.val) = true) ∧ (s.sclkOn = true) ∧ (s.pairOf n.val = [n.val]) ∧ (s.get (Reg.TIMERS.GT_CTRL.HOLD n.val) = 0)) ∧
    (∃ (s : State) (src : Source) (n : Fin 16), (s.canonical = true) ∧ ((src == .host && s.hostWaits) = false) ∧ (s.answers src (pgTIMERS + 0x104 + 0x20 * n.val) = true) ∧ (s.sclkOn = true) ∧ (s.pairOf n.val = [n.val]) ∧ (s.get (Reg.TIMERS.GT_CTRL.HOLD n.val) = 1) ∧ (s.get (Reg.TIMERS.GT_STAT.CATCHUP n.val) = 0)) ∧
    (∃ (s : State) (src : Source) (n : Fin 16), (s.canonical = true) ∧ ((src == .host && s.hostWaits) = false) ∧ (s.answers src (pgTIMERS + 0x104 + 0x20 * n.val) = true) ∧ (s.sclkOn = true) ∧ (s.pairOf n.val = [n.val]) ∧ (s.get (Reg.TIMERS.GT_CTRL.HOLD n.val) = 1) ∧ (s.get (Reg.TIMERS.GT_STAT.CATCHUP n.val) = 1) ∧ (s.get (Reg.TIMERS.GT_CTRL.RUN n.val) = 1) ∧ (s.gtCnt n.val ≠ (s.timer n.val).top.toNat) ∧ ((s.gtCnt n.val + 1) % 2 ^ 32 ≠ (s.timer n.val).cmp.toNat)) ∧
    (∃ (s : State) (src : Source) (n : Fin 16), (s.canonical = true) ∧ ((src == .host && s.hostWaits) = false) ∧ (s.silent src = false) ∧ (s.sclkOn = true) ∧ (s.get (Reg.TIMERS.GT_CTRL.RUN n.val) = 1) ∧ (s.get (Reg.TIMERS.GT_CTRL.HOLD n.val) = 0)) ∧
    (∃ (s : State) (src : Source) (n : Fin 16), (s.canonical = true) ∧ ((src == .host && s.hostWaits) = false) ∧ (s.silent src = false) ∧ (s.sclkOn = true) ∧ (s.get (Reg.TIMERS.GT_CTRL.RUN n.val) = 0 ∨ s.get (Reg.TIMERS.GT_CTRL.HOLD n.val) = 1)) ∧
    (∃ (s : State) (i : Fin 16) (falling : Bool), (s.canonical = true) ∧ (s.sclkOn = true) ∧ (s.get (Reg.TIMERS.CAP_CFG.EN i.val) = 1) ∧ (16 ≤ s.get (Reg.TIMERS.CAP_CFG.SRC i.val)) ∧ (s.get (State.capPend i.val falling) = 0)) ∧
    (∃ (s : State) (i : Fin 16) (falling : Bool) (r : Source), (s.canonical = true) ∧ (s.sclkOn = true) ∧ (s.get (Reg.TIMERS.CAP_CFG.EN i.val) = 1) ∧ (16 ≤ s.get (Reg.TIMERS.CAP_CFG.SRC i.val)) ∧ (s.get (State.capPend i.val falling) = 0) ∧ (risingFrom 0 s.caps = true)) ∧
    (∃ (s : State) (i : Fin 16) (falling : Bool), (s.canonical = true) ∧ (s.sclkOn = true) ∧ (s.get (Reg.TIMERS.CAP_CFG.EN i.val) = 1) ∧ (16 ≤ s.get (Reg.TIMERS.CAP_CFG.SRC i.val)) ∧ (s.get (State.capPend i.val falling) = 1)) ∧
    (∃ (s : State) (i : Fin 16) (falling : Bool), (s.canonical = true) ∧ (s.sclkOn = true) ∧ (s.get (Reg.TIMERS.CAP_CFG.EN i.val) = 0) ∧ (s.get (Reg.TIMERS.CAP_CFG.SRC i.val) < 16)) ∧
    (∃ (s : State) (i : Fin 16) (falling : Bool) (v : Word32), (s.canonical = true) ∧ (s.sclkOn = true) ∧ (risingFrom 0 s.caps = true) ∧ (lookup (State.capKey i.val falling) s.caps = some v)) ∧
    (∃ (s : State) (i : Fin 16) (falling : Bool), (lookup (State.capKey i.val falling) s.caps = none)) :=
  ⟨⟨{ (upState.put (Reg.TIMERS.GT_CTRL.RUN 4) 1 |>.put (Reg.TIMERS.GT_CNT.VALUE 4) 5) with timers := [(4, { TimerS.reset with top := 100, cmp := 50 })] }, 4, by decide⟩,
    ⟨{ (upState.put (Reg.TIMERS.GT_CTRL.RUN 4) 1 |>.put (Reg.TIMERS.GT_CNT.VALUE 4) 49 |>.put (Reg.TIMERS.GT_CFG.OUTMODE 4) 0 |>.put Reg.TIMERS.TIRQ_EN.EN 16) with timers := [(4, { TimerS.reset with top := 100, cmp := 50 })] }, 4, by decide⟩,
    ⟨{ (upState.put (Reg.TIMERS.GT_CTRL.RUN 4) 1 |>.put (Reg.TIMERS.GT_CNT.VALUE 4) 49 |>.put (Reg.TIMERS.GT_CFG.OUTMODE 4) 0 |>.put Reg.TIMERS.TIRQ_EN.EN 16) with timers := [(4, { TimerS.reset with top := 100, cmp := 50 })] }, 4, by decide⟩,
    ⟨{ (upState.put (Reg.TIMERS.GT_CTRL.RUN 4) 1 |>.put (Reg.TIMERS.GT_CNT.VALUE 4) 5) with timers := [(4, { TimerS.reset with top := 100, cmp := 50 })] }, 4, by decide⟩,
    ⟨{ (upState.put (Reg.TIMERS.GT_CTRL.RUN 4) 1 |>.put (Reg.TIMERS.GT_CNT.VALUE 4) 100 |>.put (Reg.TIMERS.GT_TOP.VALUE 4) 7 |>.put (Reg.TIMERS.GT_CMP.VALUE 4) 0 |>.put (Reg.TIMERS.GT_CFG.ONESHOT 4) 0 |>.put Reg.TIMERS.TIRQ_EN.EN 16) with timers := [(4, { TimerS.reset with top := 100, cmp := 50 })] }, 4, by decide⟩,
    ⟨{ (upState.put (Reg.TIMERS.GT_CTRL.RUN 4) 1 |>.put (Reg.TIMERS.GT_CNT.VALUE 4) 100 |>.put (Reg.TIMERS.GT_TOP.VALUE 4) 7 |>.put (Reg.TIMERS.GT_CMP.VALUE 4) 0 |>.put (Reg.TIMERS.GT_CFG.ONESHOT 4) 0 |>.put Reg.TIMERS.TIRQ_EN.EN 16) with timers := [(4, { TimerS.reset with top := 100, cmp := 50 })] }, 4, by decide⟩,
    ⟨{ (upState.put (Reg.TIMERS.GT_CTRL.RUN 4) 1 |>.put (Reg.TIMERS.GT_CNT.VALUE 4) 5) with timers := [(4, { TimerS.reset with top := 100, cmp := 50 })] }, 4, by decide⟩,
    ⟨{ (upState.put (Reg.TIMERS.GT_CTRL.RUN 4) 1 |>.put (Reg.TIMERS.GT_CNT.VALUE 4) 5 |>.put (Reg.TIMERS.GT_STAT.HELD 4) 1) with timers := [(4, { TimerS.reset with top := 100, cmp := 50 })] }, 4, by decide⟩,
    ⟨upState, 4, by decide⟩,
    ⟨{ (upState.put (Reg.TIMERS.GT_CTRL.RUN 4) 1 |>.put (Reg.TIMERS.GT_CNT.VALUE 4) 5) with timers := [(4, { TimerS.reset with top := 100, cmp := 50 })] }, .host, 4, by decide⟩,
    ⟨{ (upState.put (Reg.TIMERS.GT_CTRL.RUN 4) 1 |>.put (Reg.TIMERS.GT_CNT.VALUE 4) 5 |>.put (Reg.TIMERS.GT_STAT.HELD 4) 1 |>.put (Reg.TIMERS.GT_CTRL.HOLD 4) 1) with timers := [(4, { TimerS.reset with top := 100, cmp := 50 })] }, .host, 4, by decide⟩,
    ⟨{ (upState.put (Reg.TIMERS.GT_CTRL.RUN 4) 1 |>.put (Reg.TIMERS.GT_CNT.VALUE 4) 5 |>.put (Reg.TIMERS.GT_STAT.HELD 4) 1 |>.put (Reg.TIMERS.GT_CTRL.HOLD 4) 1 |>.put (Reg.TIMERS.GT_STAT.CATCHUP 4) 1) with timers := [(4, { TimerS.reset with top := 100, cmp := 50 })] }, .host, 4, by decide⟩,
    ⟨{ (upState.put (Reg.TIMERS.GT_CTRL.RUN 4) 1 |>.put (Reg.TIMERS.GT_CNT.VALUE 4) 5) with timers := [(4, { TimerS.reset with top := 100, cmp := 50 })] }, .host, 4, by decide⟩,
    ⟨{ (upState.put (Reg.TIMERS.GT_CTRL.RUN 4) 1 |>.put (Reg.TIMERS.GT_CNT.VALUE 4) 5 |>.put (Reg.TIMERS.GT_CTRL.HOLD 4) 1) with timers := [(4, { TimerS.reset with top := 100, cmp := 50 })] }, .host, 4, by decide⟩,
    ⟨(upState.put (Reg.TIMERS.CAP_CFG.EN 5) 1 |>.put (Reg.TIMERS.CAP_CFG.TMR 5) 4 |>.put (Reg.TIMERS.GT_CNT.VALUE 4) 77 |>.put (Reg.TIMERS.CAP_CFG.SRC 5) 20), 5, true, by decide⟩,
    ⟨(upState.put (Reg.TIMERS.CAP_CFG.EN 5) 1 |>.put (Reg.TIMERS.CAP_CFG.TMR 5) 4 |>.put (Reg.TIMERS.GT_CNT.VALUE 4) 77 |>.put (Reg.TIMERS.CAP_CFG.SRC 5) 20), 5, false, .host, by decide⟩,
    ⟨(upState.put (Reg.TIMERS.CAP_CFG.EN 5) 1 |>.put (Reg.TIMERS.CAP_CFG.TMR 5) 4 |>.put (Reg.TIMERS.GT_CNT.VALUE 4) 77 |>.put (Reg.TIMERS.CAP_CFG.SRC 5) 20 |>.put (Reg.TIMERS.CAP_STAT.PEND_F 5) 1 |>.put Reg.TIMERS.TIRQ_EN.EN 16), 5, true, by decide⟩,
    ⟨upState.put (Reg.TIMERS.CAP_CFG.SRC 5) 3, 5, false, by decide⟩,
    ⟨{ (upState.put (Reg.TIMERS.CAP_CFG.EN 5) 1 |>.put (Reg.TIMERS.CAP_CFG.TMR 5) 4 |>.put (Reg.TIMERS.GT_CNT.VALUE 4) 77 |>.put (Reg.TIMERS.CAP_CFG.SRC 5) 20 |>.put (Reg.TIMERS.CAP_STAT.PEND_F 5) 1) with caps := [(11, 42)] }, 5, true, 42, by decide⟩,
    ⟨(upState.put (Reg.TIMERS.CAP_CFG.EN 5) 1 |>.put (Reg.TIMERS.CAP_CFG.TMR 5) 4 |>.put (Reg.TIMERS.GT_CNT.VALUE 4) 77 |>.put (Reg.TIMERS.CAP_CFG.SRC 5) 20), 5, true, by decide⟩⟩

theorem witness_RemapRule :
    (∃ (s : State) (src : Source) (n : TileId) (phys : BitVec 9), (s.canonical = true) ∧ ((src == .host && s.hostWaits) = false) ∧ (s.answers src (pgRESET + 0x400 + 4 * n.val) = true) ∧ (s.authorised src = true) ∧ ((s.get Reg.SECURITY.LOCK.BITS).testBit 2 = false) ∧ (s.domState n.val = .off) ∧ (phys.toNat ≤ 271 ∧ phys.toNat / 136 = n.val / 128 ∧ (s.get (Reg.RESET.FUSE_BAD.BAD (phys.toNat / 32))).testBit (phys.toNat % 32) = false) ∧ ((List.range 256).all (fun m => m == n.val || s.get (Reg.RESET.TILE_MAP.PHYS m) != phys.toNat) = true)) ∧
    (∃ (s : State) (src : Source) (n : TileId) (phys : BitVec 9), (s.canonical = true) ∧ ((src == .host && s.hostWaits) = false) ∧ (s.answers src (pgRESET + 0x400 + 4 * n.val) = true) ∧ (s.authorised src = true) ∧ ((s.get Reg.SECURITY.LOCK.BITS).testBit 2 = false) ∧ (s.domState n.val ≠ .off)) ∧
    (∃ (s : State) (src : Source) (n : TileId) (phys : BitVec 9), (s.canonical = true) ∧ ((src == .host && s.hostWaits) = false) ∧ (s.answers src (pgRESET + 0x400 + 4 * n.val) = true) ∧ (s.authorised src = true) ∧ ((s.get Reg.SECURITY.LOCK.BITS).testBit 2 = false) ∧ (s.domState n.val = .off) ∧ (phys.toNat ≤ 271 ∧ phys.toNat / 136 = n.val / 128 ∧ (s.get (Reg.RESET.FUSE_BAD.BAD (phys.toNat / 32))).testBit (phys.toNat % 32) = false) ∧ ((List.range 256).any (fun m => m != n.val && s.get (Reg.RESET.TILE_MAP.PHYS m) == phys.toNat) = true)) ∧
    (∃ (s : State) (src : Source) (n : TileId) (phys : BitVec 9), (s.canonical = true) ∧ ((src == .host && s.hostWaits) = false) ∧ (s.answers src (pgRESET + 0x400 + 4 * n.val) = true) ∧ (s.authorised src = true) ∧ ((s.get Reg.SECURITY.LOCK.BITS).testBit 2 = false) ∧ (s.domState n.val = .off) ∧ (271 < phys.toNat ∨ phys.toNat / 136 ≠ n.val / 128 ∨ (s.get (Reg.RESET.FUSE_BAD.BAD (phys.toNat / 32))).testBit (phys.toNat % 32) = true)) ∧
    (∃ (s : State) (src : Source) (n : TileId) (phys : BitVec 9), (s.canonical = true) ∧ ((src == .host && s.hostWaits) = false) ∧ (s.answers src (pgRESET + 0x400 + 4 * n.val) = true) ∧ (s.authorised src = false)) ∧
    (∃ (s : State) (src : Source) (n : TileId) (phys : BitVec 9), (s.canonical = true) ∧ ((src == .host && s.hostWaits) = false) ∧ (s.answers src (pgRESET + 0x400 + 4 * n.val) = true) ∧ (s.authorised src = true) ∧ ((s.get Reg.SECURITY.LOCK.BITS).testBit 2 = true)) ∧
    (∃ (s : State) (src : Source), (s.canonical = true) ∧ ((src == .host && s.hostWaits) = false) ∧ (s.answers src (pgRESET + 0x40) = true) ∧ (resetWriter s src = true) ∧ (∀ h ∈ List.range 2, ((List.range 136).filter fun i => s.fuses.bad.contains (136 * h + i)).length ≤ 8)) :=
  ⟨⟨upState, .host, 5, 130, by decide⟩,
    ⟨upState, .host, 3, 130, by decide⟩,
    ⟨upState.put (Reg.RESET.TILE_MAP.PHYS 9) 130, .host, 5, 130, by decide⟩,
    ⟨upState, .host, 5, 136, by decide⟩,
    ⟨upState, .wcore, 5, 130, by decide⟩,
    ⟨upState.put Reg.SECURITY.LOCK.BITS 4, .host, 5, 130, by decide⟩,
    ⟨{ upState.put (Reg.RESET.TILE_MAP.PHYS 5) 130 with fuses := { upState.fuses with bad := [3, 70, 136] } }, .host, by decide⟩⟩

theorem witness_DetachRule :
    (∃ (s : State) (src : Source), (s.canonical = true) ∧ ((src == .host && s.hostWaits) = false) ∧ (s.answers src (pgTWIN + 0x48) = true) ∧ (s.role ≠ 0) ∧ (s.twin.seq < 65536) ∧ ((detachPorts s).all (linkOpen s) = true)) ∧
    (∃ (s : State) (src : Source), ((src == .host && s.hostWaits) = false) ∧ (s.answers src (pgTWIN + 0x48) = true) ∧ (s.role = 0)) ∧
    (∃ (s : State) (p : Fin 8) (u : TwinUnit), (s.canonical = true) ∧ (fromTwin s p.val u = true) ∧ (linksIdle s p.val = true)) ∧
    (∃ (s : State), (s.role = 0)) :=
  ⟨⟨{ (((upState.put (Reg.FL.PORT_STAT.STATE 7) 2).put (Reg.FL.PEER.VALID 7) 1).put (Reg.FL.PEER.ID 7) 7 |>.put Reg.TWIN.TWIN_ROLE.ROLE (3)) with links := [(3, { PortS.reset with credits := [(14, 2)] }), (7, { PortS.reset with credits := [(14, 16)] })] }, .host, by decide⟩,
    ⟨upState, .host, by decide⟩,
    ⟨(((upState.put (Reg.FL.PORT_STAT.STATE 7) 2).put (Reg.FL.PEER.VALID 7) 1).put (Reg.FL.PEER.ID 7) 7 |>.put Reg.TWIN.TWIN_ROLE.ROLE (3)), 7, ⟨0, 2, true, false, 7, 0, 0⟩, by decide⟩,
    ⟨upState, by decide⟩⟩

theorem witness_GlobalWordRule :
    (∃ (s : State) (f : Fin 16) (a b : Bool), (s.canonical = true) ∧ (s.issue.flagsSet.all (fun x => x.1 != f.val || x.2 == 256) = true)) ∧
    (∃ (s : State) (b : Fin 32), (s.canonical = true)) ∧
    (∃ (s : State) (w : Word128), (decodeGop (bits w.toNat 63 32) = some .stop) ∧ (decodeGop (bits w.toNat 31 0) = some .stop)) ∧
    (∃ (s : State) (w : Word128) (c a c' a' : Nat), (decodeGop (bits w.toNat 63 32) = some (.exitif c a)) ∧ (decodeGop (bits w.toNat 31 0) = some (.exitif c' a'))) :=
  ⟨⟨upState, 3, true, false, by decide⟩,
    ⟨upState, 3, by decide⟩,
    ⟨upState, 0x0100000001000000, by decide⟩,
    ⟨upState, 0x0302000403020005, 2, 4, 2, 5, by decide⟩⟩

theorem wit_scalarWords : ∃ (n : TileId) (i : Instr) (w : Nat), i.wf = true ∧ encodeScalar n i = some w := ⟨3, .mfv 3 31 7 true 255, 0x61F3FFC0, by decide⟩

theorem wit_compactWords : ∃ (n : TileId) (i j : Instr) (w : Nat), (compactDest i ≠ compactDest j ∨ compactDest i = 0) ∧ encodePair n i j = some w := ⟨3, .compactMov 3 15 4, .compactSrl 3 1 2 3, 0xFF406123, by decide⟩

theorem wit_vectorWords : ∃ (n : TileId) (i : Instr) (w : Nat), i.wf = true ∧ encodeVector n i = some w := ⟨3, .vdive 3 .bf16 31 30 29 7 14, 0x25FFBBDC, by decide⟩

theorem wit_arrayWords : ∃ (n : TileId) (i : Instr) (w : Nat), encodeArray n i = some w := ⟨3, .mac 3 15 255, 0x3FFF, by decide⟩

theorem wit_moveWords : ∃ (n : TileId) (i : Instr) (w : Nat), i.wf = true ∧ encodeMslot n i = some w := ⟨3, .qsend 3 2 24 7 5 6 255, 0x2B1CA6FF, by decide⟩

theorem wit_laneWords : ∃ (n : TileId) (l : Lop) (c v a m : Nat) (cs vs as ms : List Instr), l.wf = true ∧ c < 2 ^ 32 ∧ v < 2 ^ 32 ∧ a < 2 ^ 16 ∧ m < 2 ^ 32 ∧ decodeScalar n c = some cs ∧ decodeVector n v = some vs ∧ decodeArray n a = some as ∧ decodeMslot n m = some ms :=
  ⟨3, .lone 3 4095, 0x02321400, 0, 0x3FFF, 0x50000007, [.add 3 3 4 5], [], [.mac 3 15 255], [.arrive 3 7], by decide⟩

theorem wit_globalWords : ∃ (l : Lop) (g : GWord), l.wf = true ∧ g.gop0.wf = true ∧ g.gop1.wf = true ∧ waitWf g = true ∧ (g.gop0 ≠ .stop ∨ g.gop1 ≠ .stop) ∧ (isExitif g.gop0 = false ∨ isExitif g.gop1 = false) :=
  ⟨.lstart 3 4095, ⟨some (9, 0xFFFFFF), .exitif 2 0xFFFF, .stop⟩, by decide⟩

theorem wit_headers : ∃ h : Hdr, h.addr < 2 ^ 48 ∧ h.tag < 2 ^ 12 ∧ h.sizeM1 < 2 ^ 12 ∧ h.opc < 2 ^ 4 ∧ h.status < 2 ^ 4 ∧ h.dmod < 2 ^ 12 ∧ h.smod < 2 ^ 12 ∧ h.ep < 2 ^ 9 ∧ h.aux < 2 ^ 15 :=
  ⟨⟨2 ^ 48 - 1, 4095, 63, 2, 15, 4095, 1, 383, 7⟩, by decide⟩

end Sys2Proof.Machine
end

section
/-! Bytes and register fields read after a write (O51, O52). -/
namespace Sys2Proof.Machine.State

/-- The lost range that gives a byte its content, by the range's own number: `byte` reads no more of `undef` than this. -/
def lostBy (x : Nat) (l : List (Nat × Nat × Nat)) : Option Nat :=
  (l.find? (fun r => decide (r.1 ≤ x) && decide (x < r.2.1))).map (·.2.2)

theorem byte_eq (s : State) (x : Nat) : s.byte x = ((lostBy x s.undef).map (Config.lostByte · x)).getD (getAt 0 x s.mem) := by
  unfold byte lostBy
  cases s.undef.find? (fun r => decide (r.1 ≤ x) && decide (x < r.2.1)) <;> rfl

theorem lostBy_append (x : Nat) (l m : List (Nat × Nat × Nat)) : lostBy x (l ++ m) = (lostBy x l).or (lostBy x m) := by
  simp [lostBy, Option.map_or]

theorem lostBy_singleton (x : Nat) (r : Nat × Nat × Nat) : lostBy x [r] = if r.1 ≤ x ∧ x < r.2.1 then some r.2.2 else none := by
  by_cases h : r.1 ≤ x ∧ x < r.2.1 <;> simp [lostBy, h]

theorem cutRange_cons (lo hi : Nat) (r : Nat × Nat × Nat) (l : List (Nat × Nat × Nat)) :
    cutRange lo hi (r :: l) = cutRange lo hi [r] ++ cutRange lo hi l := by simp [cutRange]

/-- Cutting one range out of another leaves of it what lies outside. -/
theorem lostBy_cutRange_singleton (x lo hi : Nat) (r : Nat × Nat × Nat) (h : lo < hi) :
    lostBy x (cutRange lo hi [r]) = if lo ≤ x ∧ x < hi then none else lostBy x [r] := by
  obtain ⟨l, u, k⟩ := r
  have hnil : lostBy x [] = none := rfl
  simp only [cutRange, List.flatMap_cons, List.flatMap_nil, List.append_nil, lostBy_singleton]
  by_cases hout : u ≤ lo ∨ hi ≤ l
  · rw [if_pos (by simpa using hout), lostBy_singleton]
    grind
  · rw [if_neg (by simpa using hout), lostBy_append, apply_ite (lostBy x), apply_ite (lostBy x), lostBy_singleton, lostBy_singleton, hnil]
    grind

theorem lostBy_cutRange (x : Nat) {lo hi : Nat} (h : lo < hi) (l : List (Nat × Nat × Nat)) :
    lostBy x (cutRange lo hi l) = if lo ≤ x ∧ x < hi then none else lostBy x l := by
  induction l with
  | nil => simp [cutRange, lostBy]
  | cons r l ih =>
    have hcons : lostBy x (r :: l) = (lostBy x [r]).or (lostBy x l) := lostBy_append x [r] l
    rw [cutRange_cons, lostBy_append, lostBy_cutRange_singleton x lo hi r h, ih, hcons]
    split <;> rfl

theorem byte_setByte_same {s : State} (h : Memory.wf s.mem = true) (a : Nat) (v : Byte) : (s.setByte a v).byte a = v := by
  have hr : risingFrom 0 s.mem = true := (Bool.and_eq_true_iff.1 h).1
  have hl : lostBy a (s.setByte a v).undef = none := by simp [setByte, lostBy_cutRange a (Nat.lt_succ_self a)]
  rw [byte_eq, hl]
  exact getAt_setAt_same 0 a v hr

theorem byte_setByte_ne (s : State) {a x : Nat} (h : x ≠ a) (v : Byte) : (s.setByte a v).byte x = s.byte x := by
  have hl : lostBy x (s.setByte a v).undef = lostBy x s.undef := by
    rw [setByte, lostBy_cutRange x (Nat.lt_succ_self a), if_neg (by omega)]
  have hm : getAt 0 x (s.setByte a v).mem = getAt 0 x s.mem := getAt_setAt_ne 0 h v s.mem
  rw [byte_eq, byte_eq, hl, hm]

theorem onlyBytes_setBytes (s : State) (a : Nat) (bs : List Byte) : s.OnlyBytes a bs.length (s.setBytes a bs) := by
  induction bs generalizing s a with
  | nil => exact fun _ _ => rfl
  | cons b bs ih =>
    intro x hx
    rw [List.length_cons] at hx
    exact (ih _ _ x (by omega)).trans (byte_setByte_ne s (by omega) b)

theorem bytes_succ (s : State) (a n : Nat) : s.bytes a (n + 1) = s.byte a :: s.bytes (a + 1) n := by
  simp only [bytes, List.range_succ_eq_map, List.map_cons, List.map_map, Nat.add_zero]
  congr 2
  funext i
  exact congrArg s.byte (by simp; omega)

theorem bytes_setBytes {s : State} (h : Memory.wf s.mem = true) (a : Nat) (bs : List Byte) : (s.setBytes a bs).bytes a bs.length = bs := by
  induction bs generalizing s a with
  | nil => rfl
  | cons b bs ih =>
    have hb : (s.setBytes a (b :: bs)).byte a = b := (onlyBytes_setBytes _ (a + 1) bs a (by omega)).trans (byte_setByte_same h a b)
    rw [List.length_cons, bytes_succ, hb]
    exact congrArg (b :: ·) (ih (setByte_wf h a b) (a + 1))

end Sys2Proof.Machine.State

namespace Sys2Proof.Machine
open State

/-- Settles O51: a written byte is listed and cut out of every lost range, and the list of bytes is written one by one. -/
theorem bytesReadAfterWrite : Obligations.BytesReadAfterWrite :=
  fun s a bs h => ⟨bytes_setBytes h a bs, onlyBytes_setBytes s a bs, setBytes_wf h a bs⟩

/-- Settles O52, by the laws of `put`. -/
theorem fieldsReadAfterWrite : Obligations.FieldsReadAfterWrite :=
  fun s f v h hw => ⟨get_put_same (canonical_regs h) hw v, onlyFields_put onlyFields_refl v (by simp), (keeps_put s f v).1 h⟩

end Sys2Proof.Machine
end

section
/-! Every step keeps the canonical form and the queue (O49): one lemma per operation of the model that answers a state, each from the lemmas of the operations it is made of. -/
namespace Sys2Proof.Machine.State

/-! How a proof that a change keeps the canonical form and the queue is put together: from the steps of the change, its branches and its folds. -/

/-- What the canonical form and the queue are read from. -/
def kept (s : State) :=
  (s.mem, s.regs, s.tiles, s.power.dom, s.links, s.movers, s.chk, s.ctx, s.timers, s.pending)

/-- The state that stands first in a result keeps the canonical form and the queue of s. -/
def Keeps1 {β : Type} (s : State) (p : State × β) : Prop := Keeps s p.1

/-- The state that stands second in a result keeps those of s. -/
def Keeps2 {β : Type} (s : State) (p : β × State) : Prop := Keeps s p.2

/-- The state that stands third in a result keeps those of s. -/
def Keeps3 {β γ : Type} (s : State) (p : β × γ × State) : Prop := Keeps s p.2.2

/-- The state of a pass over a row's entries keeps those of s. -/
def KeepsRow (s : State) (p : RowPass) : Prop := Keeps s p.st

/-- The next state that a meaning answers keeps those of s. -/
def KeepsNext (s : State) (r : Res) : Prop := ∀ t, r = .next t → Keeps s t

/-- The state of an optional result, where there is one, keeps those of s. -/
def KeepsSome (s : State) (o : Option State) : Prop := ∀ t, o = some t → Keeps s t

/-- Every meaning of a list of meanings by bit keeps those of s. -/
def KeepsEach (s : State) (l : List (Nat × (State → Res))) : Prop := ∀ c ∈ l, ∀ u, Keeps s u → KeepsNext s (c.2 u)

section
variable {α β γ : Type} {s t u : State}

/-- A change of nothing that the canonical form or the queue is read from. -/
theorem Keeps.same (h : Keeps s t) (e : u.kept = t.kept) : Keeps s u := by
  simp only [kept, Prod.mk.injEq] at e
  obtain ⟨m, r, u, d, l, v, c, x, i, p⟩ := e
  exact h.trans (keeps_of_eq m r u d l v c x i p)

/-- A change of fields from which neither the canonical form nor the queue is read. -/
theorem Keeps.frame (h : Keeps s t) {shadows checking slow rdata bridge undef flips writebacks scrub bankTo held residency loopLevel capTrip tripped stopped watchRef input issue crown
    flash fuses bist tfw msixPending causes rowfix cclkW cclkE scale bar net tokens gone step twin qnet posts train pcie caps panel out fresh} :
    Keeps s (State.mk t.regs shadows checking slow rdata bridge t.mem undef flips writebacks scrub bankTo
      ⟨t.power.dom, held, residency, loopLevel, capTrip, tripped, stopped, watchRef, input⟩ issue t.tiles crown flash fuses bist tfw msixPending causes rowfix cclkW cclkE scale bar net
      t.links tokens gone step t.ctx twin qnet t.movers posts t.chk train pcie t.timers caps panel out fresh t.pending) := h.trans ⟨id, rfl⟩

theorem Keeps.fst {p : State × β} (h : Keeps1 s p) : Keeps s p.1 := h
theorem Keeps.snd {p : β × State} (h : Keeps2 s p) : Keeps s p.2 := h
theorem Keeps.thd {p : β × γ × State} (h : Keeps3 s p) : Keeps s p.2.2 := h
theorem Keeps.st {p : RowPass} (h : KeepsRow s p) : Keeps s p.st := h
theorem Keeps2.tail {p : β × γ × State} (h : Keeps3 s p) : Keeps2 s p.2 := h
theorem Keeps1.mk {b : β} (h : Keeps s u) : Keeps1 s (u, b) := h
theorem Keeps2.mk {b : β} (h : Keeps s u) : Keeps2 s (b, u) := h
theorem Keeps3.mk {b : β} {p : γ × State} (h : Keeps2 s p) : Keeps3 s (b, p) := h
theorem KeepsRow.mk {all e l : Nat} {fault : Bool} (h : Keeps s u) : KeepsRow s ⟨all, e, l, fault, u⟩ := h
theorem KeepsNext.next (h : Keeps s t) : KeepsNext s (.next t) := fun _ e => Host.Outcome.next.inj e ▸ h
theorem KeepsSome.some (h : Keeps s t) : KeepsSome s (some t) := fun _ e => Option.some.inj e ▸ h
theorem KeepsSome.none : KeepsSome s none := fun _ e => nomatch e

theorem Keeps.of_pair {p : β × State} {b : β} (e : p = (b, u)) (h : Keeps2 s p) : Keeps s u := by rw [e] at h; exact h
theorem Keeps.of_next {r : Res} (e : r = .next u) (h : KeepsNext s r) : Keeps s u := h u e
theorem Keeps.of_some {o : Option State} (e : o = some u) (h : KeepsSome s o) : Keeps s u := h u e

theorem Keeps1.ite (c : Prop) [Decidable c] {p q : State × β} (h : Keeps1 s p) (k : Keeps1 s q) : Keeps1 s (if c then p else q) := by split <;> assumption
theorem Keeps2.ite (c : Prop) [Decidable c] {p q : β × State} (h : Keeps2 s p) (k : Keeps2 s q) : Keeps2 s (if c then p else q) := by split <;> assumption
theorem Keeps3.ite (c : Prop) [Decidable c] {p q : β × γ × State} (h : Keeps3 s p) (k : Keeps3 s q) : Keeps3 s (if c then p else q) := by split <;> assumption
theorem KeepsRow.ite (c : Prop) [Decidable c] {p q : RowPass} (h : KeepsRow s p) (k : KeepsRow s q) : KeepsRow s (if c then p else q) := by split <;> assumption
theorem KeepsNext.ite (c : Prop) [Decidable c] {p q : Res} (h : KeepsNext s p) (k : KeepsNext s q) : KeepsNext s (if c then p else q) := by split <;> assumption
theorem KeepsSome.ite (c : Prop) [Decidable c] {p q : Option State} (h : KeepsSome s p) (k : KeepsSome s q) : KeepsSome s (if c then p else q) := by split <;> assumption

/-- What every round of a fold keeps, the fold keeps. -/
theorem foldl_keeps {P : β → Prop} {f : β → α → β} (hf : ∀ b x, P b → P (f b x)) {b : β} (h : P b) (l : List α) : P (l.foldl f b) := by
  induction l generalizing b with
  | nil => exact h
  | cons x l ih => exact ih (hf b x h)

theorem Keeps.fold {f : State → α → State} {l : List α} (hf : ∀ u x, Keeps s u → Keeps s (f u x)) (h : Keeps s t) : Keeps s (l.foldl f t) := foldl_keeps hf h l
theorem Keeps2.fold {f : β × State → α → β × State} {p : β × State} {l : List α} (hf : ∀ p x, Keeps2 s p → Keeps2 s (f p x)) (h : Keeps2 s p) : Keeps2 s (l.foldl f p) :=
  foldl_keeps hf h l
theorem Keeps3.fold {f : β × γ × State → α → β × γ × State} {p : β × γ × State} {l : List α} (hf : ∀ p x, Keeps3 s p → Keeps3 s (f p x)) (h : Keeps3 s p) :
    Keeps3 s (l.foldl f p) := foldl_keeps hf h l
theorem KeepsRow.fold {f : RowPass → α → RowPass} {p : RowPass} {l : List α} (hf : ∀ p x, KeepsRow s p → KeepsRow s (f p x)) (h : KeepsRow s p) : KeepsRow s (l.foldl f p) :=
  foldl_keeps hf h l

theorem KeepsSome.map {o : Option α} {f : α → State} (h : ∀ a, Keeps s (f a)) : KeepsSome s (o.map f) := by
  cases o with
  | none => exact .none
  | some a => exact .some (h a)

theorem KeepsSome.findSome {l : List α} {f : α → Option State} (h : ∀ a, KeepsSome s (f a)) : KeepsSome s (l.findSome? f) := fun t e =>
  have ⟨a, _, ha⟩ := List.exists_of_findSome?_eq_some e
  h a t ha

theorem Keeps.getD {o : Option State} (h : KeepsSome s o) (k : Keeps s t) : Keeps s (o.getD t) := by
  cases o with
  | none => exact k
  | some u => exact h u rfl

theorem KeepsEach.nil : KeepsEach s [] := fun _ hc => nomatch hc

theorem KeepsEach.cons {b : Nat} {f : State → Res} {l : List (Nat × (State → Res))} (hf : ∀ u, Keeps s u → KeepsNext s (f u)) (hl : KeepsEach s l) : KeepsEach s ((b, f) :: l) := by
  intro c hc
  rcases List.mem_cons.1 hc with rfl | hc
  · exact hf
  · exact hl c hc

/-! Changes of one part of the canonical form. -/

theorem Keeps.regs (h : Keeps s t) {l : List (Nat × Word64)} (hl : risingFrom 0 t.regs = true → risingFrom 0 l = true) : Keeps s { t with regs := l } :=
  h.trans ⟨fun c => have ⟨m, r, u, v, d, l, w, k, x, i⟩ := canonical_parts c; canonical_of_parts m (hl r) u v d l w k x i, rfl⟩
theorem Keeps.dom (h : Keeps s t) {p : PowerS} (hp : risingFrom 0 t.power.dom = true → risingFrom 0 p.dom = true) : Keeps s { t with power := p } :=
  h.trans ⟨fun c => have ⟨m, r, u, v, d, l, w, k, x, i⟩ := canonical_parts c; canonical_of_parts m r u v (hp d) l w k x i, rfl⟩
theorem Keeps.links (h : Keeps s t) {l : List (Nat × PortS)} (hl : risingFrom 0 t.links = true → risingFrom 0 l = true) : Keeps s { t with links := l } :=
  h.trans ⟨fun c => have ⟨m, r, u, v, d, l, w, k, x, i⟩ := canonical_parts c; canonical_of_parts m r u v d (hl l) w k x i, rfl⟩
theorem Keeps.movers (h : Keeps s t) {l : List (Nat × MoverS)} (hl : risingFrom 0 t.movers = true → risingFrom 0 l = true) : Keeps s { t with movers := l } :=
  h.trans ⟨fun c => have ⟨m, r, u, v, d, l, w, k, x, i⟩ := canonical_parts c; canonical_of_parts m r u v d l (hl w) k x i, rfl⟩
theorem Keeps.chk (h : Keeps s t) {l : List (Nat × ChkS)} (hl : risingFrom 0 t.chk = true → risingFrom 0 l = true) : Keeps s { t with chk := l } :=
  h.trans ⟨fun c => have ⟨m, r, u, v, d, l, w, k, x, i⟩ := canonical_parts c; canonical_of_parts m r u v d l w (hl k) x i, rfl⟩
theorem Keeps.ctx (h : Keeps s t) {l : List (Nat × CtxS)} (hl : risingFrom 0 t.ctx = true → risingFrom 0 l = true) : Keeps s { t with ctx := l } :=
  h.trans ⟨fun c => have ⟨m, r, u, v, d, l, w, k, x, i⟩ := canonical_parts c; canonical_of_parts m r u v d l w k (hl x) i, rfl⟩
theorem Keeps.timers (h : Keeps s t) {l : List (Nat × TimerS)} (hl : risingFrom 0 t.timers = true → risingFrom 0 l = true) : Keeps s { t with timers := l } :=
  h.trans ⟨fun c => have ⟨m, r, u, v, d, l, w, k, x, i⟩ := canonical_parts c; canonical_of_parts m r u v d l w k x (hl i), rfl⟩

end

end Sys2Proof.Machine.State

namespace Sys2Proof.Machine

theorem Tile.canonical_parts {x : Tile} (h : x.canonical = true) : risingFrom 0 x.sregs = true ∧ risingFrom 0 x.vregs = true ∧ risingFrom 0 x.masks = true := by
  simpa only [Tile.canonical, Bool.and_eq_true, and_assoc] using h

theorem Tile.canonical_of_parts {x : Tile} (a : risingFrom 0 x.sregs = true) (b : risingFrom 0 x.vregs = true) (c : risingFrom 0 x.masks = true) : x.canonical = true := by
  simp only [Tile.canonical, a, b, c, Bool.and_self]

/-- Keys removed one by one leave the keys rising. -/
theorem risingFrom_removeAll {α : Type} {l : List (Nat × α)} (h : risingFrom 0 l = true) (ks : List Nat) : risingFrom 0 (ks.foldl (fun l k => remove k l) l) = true := by
  induction ks generalizing l with
  | nil => exact h
  | cons k ks ih => exact ih (risingFrom_remove k h)

end Sys2Proof.Machine

namespace Sys2Proof.Machine.State

/-! The meanings of Machine/Ops. -/

theorem Keeps.put {s t : State} {f : Field} {v : Nat} (h : Keeps s t) : Keeps s (t.put f v) := h.trans (keeps_put t f v)

theorem Keeps.add {s t : State} {f : Field} {n : Nat} (h : Keeps s t) : Keeps s (t.add f n) := by
  unfold State.add
  exact .put h

theorem Keeps.bump {s t : State} {f : Field} (h : Keeps s t) : Keeps s (t.bump f) := by
  unfold State.bump
  exact .add h

theorem Keeps.when {s t : State} {c : Bool} {f : State → State} (h :
    Keeps s t) (hf : ∀ u, Keeps s u → Keeps s (f u)) : Keeps s (t.when c f) := by
  unfold State.when
  exact .ite _ (hf _ h) h

theorem Keeps.emit {s t : State} {o : Out} (h : Keeps s t) : Keeps s (t.emit o) := by
  unfold State.emit
  exact .frame h

theorem Keeps.pendMsix {s t : State} {vec : Nat} (h : Keeps s t) : Keeps s (t.pendMsix vec) := by
  unfold State.pendMsix
  exact .frame h

theorem Keeps.sendIrq {s t : State} {pg : Nat} (h : Keeps s t) : Keeps s (t.sendIrq pg) := by
  unfold State.sendIrq
  split
  · exact .pendMsix h
  · exact .emit h
  · exact .emit h
  · exact .ite _ (.pendMsix h) (.emit h)

theorem Keeps.irqEdge {s t : State} {pg before : Nat} (h : Keeps s t) : Keeps s (t.irqEdge pg before) := by
  unfold State.irqEdge
  exact .ite _ (.sendIrq h) h

theorem Keeps.note {s t : State} {pg b : Nat} (h : Keeps s t) : Keeps s (t.note pg b) := by
  unfold State.note
  exact .ite _ (.frame h) h

theorem Keeps.cause {s t : State} {pg b : Nat} (h : Keeps s t) : Keeps s (t.cause pg b) := by
  unfold State.cause
  exact .irqEdge (.note (.put h))

theorem Keeps.setErr {s t : State} {pg : Nat} (h : Keeps s t) : Keeps s (t.setErr pg) := by
  unfold State.setErr
  exact .cause (.put h)

theorem Keeps.causeErr {s t : State} {pg b : Nat} (h : Keeps s t) : Keeps s (t.causeErr pg b) := by
  unfold State.causeErr
  exact .cause (.setErr h)

theorem Keeps.setReady {s t : State} {pg : Nat} {r : Bool} (h : Keeps s t) : Keeps s (t.setReady pg r) := by
  unfold State.setReady
  exact .ite _ (.ite _ h (.cause (.put h))) (.put h)

theorem Keeps.reason {s t : State} {pg code ofs : Nat} (h : Keeps s t) : Keeps s (t.reason pg code ofs) := by
  unfold State.reason
  exact .put (.put h)

theorem Keeps.refuse {s t : State} {pg code ofs : Nat} (h : Keeps s t) : Keeps s (t.refuse pg code ofs) := by
  unfold State.refuse
  exact .cause (.put (.reason h))

theorem Keeps.accept {s t : State} {pg : Nat} (h : Keeps s t) : Keeps s (t.accept pg) := by
  unfold State.accept
  exact .reason h

theorem Keeps2.draw {s t : State} {w : Nat} (h : Keeps s t) : Keeps2 s (t.draw w) := by
  unfold State.draw
  exact .mk (.frame h)

theorem Keeps.setTile {s t : State} {n : Nat} {x : Tile} (h : Keeps s t) (hx : t.canonical = true → x.canonical = true) : Keeps s (t.setTile n x) :=
  h.trans (keeps_setTile t n x hx)

theorem Keeps.modTile {s t : State} {n : Nat} {f : Tile → Tile} (h : Keeps s t) (hf : ∀ x : Tile, x.canonical = true → (f x).canonical = true) : Keeps s (t.modTile n f) :=
  h.trans (keeps_modTile t n f hf)

theorem Keeps.setByte {s t : State} {a : Nat} {v : Byte} (h : Keeps s t) : Keeps s (t.setByte a v) := h.trans (keeps_setByte t a v)

theorem Keeps.setBytes {s t : State} {a : Nat} {bs : List Byte} (h :
    Keeps s t) : Keeps s (t.setBytes a bs) :=
  h.trans (keeps_setBytes t a bs)

theorem Keeps.lose {s t : State} {lo hi : Nat} (h : Keeps s t) : Keeps s (t.lose lo hi) := h.trans (keeps_lose t lo hi)

theorem Keeps.zero {s t : State} {lo hi : Nat} (h : Keeps s t) : Keeps s (t.zero lo hi) := h.trans (keeps_zero t lo hi)

/-! The meanings of Machine/PageMap. -/

theorem Keeps.clearRegs {s t : State} {p : Nat → Bool} (h : Keeps s t) : Keeps s (t.clearRegs p) := .regs h (risingFrom_filter _)

theorem Keeps.clearBlock {s t : State} {p : Page} (h : Keeps s t) : Keeps s (t.clearBlock p) := by
  unfold State.clearBlock
  exact .clearRegs h

/-! The meanings of Machine/StreamBase. -/

theorem Keeps.setStream {s t : State} {v : Nat} (h : Keeps s t) : Keeps s (t.setStream v) := by
  unfold State.setStream
  exact .put h

theorem Keeps.modIssue {s t : State} {f : IssueS → IssueS} (h : Keeps s t) : Keeps s (t.modIssue f) := by
  unfold State.modIssue
  exact .frame h

theorem Keeps.setHalt {s t : State} {cause index : Nat} {tile : Option Nat} (h : Keeps s t) : Keeps s (t.setHalt cause index tile) := by
  unfold State.setHalt
  exact .put (.put (.put (.put h)))

theorem Keeps.faultHalt {s t : State} {cause index : Nat} {tile : Option Nat} (h : Keeps s t) : Keeps s (t.faultHalt cause index tile) := by
  unfold State.faultHalt
  exact .ite _ (.cause (.modIssue (.put (.setStream (.setHalt h))))) h

theorem Keeps.endStream {s t : State} {cause index st : Nat} (h : Keeps s t) : Keeps s (t.endStream cause index st) := by
  unfold State.endStream
  exact .when (.modIssue (.put (.setStream (.setHalt h)))) (fun _ hk => .cause hk)

theorem Keeps.laneLost {s t : State} {n : Nat} (h : Keeps s t) : Keeps s (t.laneLost n) := by
  unfold State.laneLost
  exact .ite _ (.faultHalt h) h

theorem Keeps.clockChange {s t : State} (h : Keeps s t) : Keeps s (t.clockChange) := by
  unfold State.clockChange
  exact .faultHalt h

theorem Keeps.stepAbandon {s t : State} (h : Keeps s t) : Keeps s (t.stepAbandon) := by
  unfold State.stepAbandon
  exact .causeErr (.fold (fun _ _ hk => .modTile hk (fun _ c => c)) (.frame (.put (.put (.put (.put h))))))

theorem Keeps.stepLost {s t : State} {n : Nat} (h : Keeps s t) : Keeps s (t.stepLost n) := by
  unfold State.stepLost
  exact .ite _ (.stepAbandon h) h

theorem Keeps.aonLog {s t : State} {code sev : Nat} {data : List Byte} (h : Keeps s t) : Keeps s (t.aonLog code sev data) := by
  unfold State.aonLog
  exact .ite _ (.frame h) (.frame h)

theorem Keeps.coreLog {s t : State} {core source code sev : Nat} {data : List Byte} (h :
    Keeps s t) : Keeps s (t.coreLog core source code sev data) := by
  unfold State.coreLog
  exact .ite _ (.frame h) (.cause (.bump (.frame h)))

theorem Keeps.modTwin {s t : State} {f : TwinS → TwinS} (h : Keeps s t) : Keeps s (t.modTwin f) := by
  unfold State.modTwin
  exact .frame h

theorem Keeps.setRole {s t : State} {r : Nat} (h : Keeps s t) : Keeps s (t.setRole r) := by
  unfold State.setRole
  exact .put h

theorem Keeps.selfDemote {s t : State} (h : Keeps s t) : Keeps s (t.selfDemote) := by
  unfold State.selfDemote
  exact .ite _ (.setRole h) h

/-! The meanings of Machine/Store. -/

theorem Keeps.flipBit {s t : State} {w b : Nat} (h : Keeps s t) : Keeps s (t.flipBit w b) := by
  unfold State.flipBit
  exact .frame h

theorem Keeps.cleanWords {s t : State} {ws : List Nat} (h : Keeps s t) : Keeps s (t.cleanWords ws) := by
  unfold State.cleanWords
  exact .frame h

theorem Keeps.putMem {s t : State} {a : Nat} {bs : List Byte} (h : Keeps s t) : Keeps s (t.putMem a bs) := by
  unfold State.putMem
  exact .setBytes (.cleanWords h)

theorem Keeps.setBankStat {s t : State} {u' b v : Nat} (h : Keeps s t) : Keeps s (t.setBankStat u' b v) := by
  unfold State.setBankStat
  exact .put h

theorem Keeps.noteCE {s t : State} {w : Nat} (h : Keeps s t) : Keeps s (t.noteCE w) := by
  unfold State.noteCE
  split
  · exact .frame (.cause (.bump h))
  · split
    · exact .cleanWords (.cause (.bump h))
    · exact h

theorem Keeps.noteUE {s t : State} {w unit ep : Nat} (h : Keeps s t) : Keeps s (t.noteUE w unit ep) := by
  unfold State.noteUE
  split
  · exact .causeErr (.put (.put (.bump h)))
  · split
    · exact .causeErr (.put (.put (.bump h)))
    · exact h

theorem Keeps2.checkWords {s t : State} {ws : List Nat} {unit ep : Nat} (h : Keeps s t) : Keeps2 s (t.checkWords ws unit ep) := by
  unfold State.checkWords
  extract_lets +onlyGivenNames _
  split
  · exact .mk (.noteUE (.fold (fun _ _ hk => .noteCE hk) h))
  · exact .mk (.fold (fun _ _ hk => .noteCE hk) h)

theorem Keeps2.checkEach {s t : State} {ws : List Nat} {ep : Nat} (h : Keeps s t) : Keeps2 s (t.checkEach ws ep) := by
  unfold State.checkEach
  exact .mk (.fold (fun _ _ hk => .noteUE hk) (.fold (fun _ _ hk => .noteCE hk) h))

theorem Keeps.bankSkip {s t : State} {u' : Nat} (h : Keeps s t) : Keeps s (t.bankSkip u') := by
  unfold State.bankSkip
  exact .causeErr (.bump h)

theorem Keeps3.lineRead {s t : State} {unit a len : Nat} (h : Keeps s t) : Keeps3 s (t.lineRead unit a len) := by
  unfold State.lineRead
  split
  · exact .mk (.mk h)
  · exact .ite _ (.mk (.mk h)) (.ite _ (.mk (.mk (.snd (.checkWords h)))) (.mk (.mk (.snd (.checkWords h)))))

theorem Keeps2.lineWrite {s t : State} {unit a : Nat} {bs : List Byte} (h : Keeps s t) : Keeps2 s (t.lineWrite unit a bs) := by
  unfold State.lineWrite
  split
  · exact .mk h
  · exact .ite _ (.mk h) (by
      split
      · exact .mk (.noteUE h)
      · exact .mk (.putMem h))

theorem Keeps3.lineAtomic {s t : State} {unit op a x : Nat} (h : Keeps s t) : Keeps3 s (t.lineAtomic unit op a x) := by
  unfold State.lineAtomic
  split
  · exact .mk (.mk h)
  · exact .ite _ (.mk (.mk h)) <|
      .ite _ (.mk (.mk h)) (.ite _ (.mk (.mk (.snd (.checkWords h)))) (.mk (.mk (.putMem (.snd (.checkWords h))))))

theorem Keeps3.chanRead {s t : State} {ep a len : Nat} (h : Keeps s t) : Keeps3 s (t.chanRead ep a len) := by
  unfold State.chanRead
  split
  · exact .ite _ (.mk (.mk (.bump h))) <|
      .ite _ (.mk (.mk h)) (.ite _ (.mk (.mk (.add (.snd (.checkEach h))))) (.mk (.mk (.snd (.checkEach h)))))
  · exact .mk (.mk h)

theorem Keeps2.chanWrite {s t : State} {ep a : Nat} {bs : List Byte} (h : Keeps s t) : Keeps2 s (t.chanWrite ep a bs) := by
  unfold State.chanWrite
  split
  · exact .ite _ (.mk (.bump h)) (.ite _ (.mk h) (.ite _ (.mk (.add (.add (.putMem (.snd (.checkWords h)))))) (.mk (.snd (.checkWords h)))))
  · exact .mk h

theorem Keeps3.chanAtomic {s t : State} {ep op a x : Nat} (h : Keeps s t) : Keeps3 s (t.chanAtomic ep op a x) := by
  unfold State.chanAtomic
  split
  · exact .ite _ (.mk (.mk (.bump h))) <|
      .ite _ (.mk (.mk h)) (.ite _ (.mk (.mk (.snd (.checkEach h)))) (.mk (.mk (.putMem (.snd (.checkEach h))))))
  · exact .mk (.mk h)

theorem Keeps3.portARead {s t : State} {unit n ofs len : Nat} (h : Keeps s t) : Keeps3 s (t.portARead unit n ofs len) := by
  unfold State.portARead
  exact .ite _ (.mk (.mk h)) (.mk (.mk (.snd (.tail (.lineRead h)))))

theorem Keeps.portAWrite {s t : State} {unit n ofs : Nat} {bs : List Byte} (h : Keeps s t) : Keeps s (t.portAWrite unit n ofs bs) := by
  unfold State.portAWrite
  exact .ite _ (.bankSkip (.snd (.lineWrite h))) (.snd (.lineWrite h))

theorem Keeps2.tainted {s t : State} {n a : Nat} {bs : List Byte} (h : Keeps s t) : Keeps2 s (t.tainted n a bs) := by
  unfold State.tainted
  exact .ite _ (.mk h) (.mk (.modTile (.snd (.draw h)) (fun _ c => c)))

theorem Keeps2.engineRead {s t : State} {unit n ofs len : Nat} (h : Keeps s t) : Keeps2 s (t.engineRead unit n ofs len) := by
  unfold State.engineRead
  exact .ite _ (.mk h) <|
    .fold
      (fun _ _ hk => .ite _ (.mk (.bankSkip (.snd (.tail (.lineRead (.snd hk)))))) <|
        .ite _ (.mk (.snd (.tainted (.snd (.tail (.lineRead (.snd hk))))))) (.mk (.snd (.tail (.lineRead (.snd hk)))))) <|
    .mk h

theorem Keeps.engineWrite {s t : State} {unit n ofs : Nat} {bs : List Byte} (h : Keeps s t) : Keeps s (t.engineWrite unit n ofs bs) := by
  unfold State.engineWrite
  exact .ite _ h (.fold (fun _ _ hk => .portAWrite hk) h)

theorem KeepsNext.execEccWriteback {s t : State} {addr : Addr} (h : Keeps s t) : KeepsNext s (execEccWriteback addr t) := by
  unfold Machine.execEccWriteback
  exact .ite _ (by
    split
    · exact .ite _ (.next (.cleanWords h)) (.next h)
    · exact .next h) (.next h)

theorem Keeps2.scrubTake {s t : State} {k lines : Nat} {on displaced : Bool} (h :
    Keeps s t) : Keeps2 s (t.scrubTake k lines on displaced) := by
  unfold State.scrubTake
  exact .ite _ (.mk (.ite _ (.frame h) h)) (.ite _ (.mk h) (.mk (.frame h)))

theorem KeepsNext.execScrubRead {s t : State} {u' : Fin 320} {bank : Fin 16} {displaced : Bool} (h :
    Keeps s t) : KeepsNext s (execScrubRead u' bank displaced t) := by
  unfold Machine.execScrubRead
  exact .ite _ (.next h) (.ite _ (.next (.ite _ (.bankSkip h) h)) (by
    extract_lets +onlyGivenNames _
    split
    · exact .next (.snd (.scrubTake h))
    · exact .next (.snd (.checkWords (.snd (.scrubTake h))))))

theorem Keeps.bankGo {s t : State} {u' b t' : Nat} (h : Keeps s t) : Keeps s (t.bankGo u' b t') := by
  unfold State.bankGo
  exact .setBankStat (.frame h)

theorem Keeps.setInit {s t : State} {u' b : Nat} {v : Bool} (h : Keeps s t) : Keeps s (t.setInit u' b v) := by
  unfold State.setInit
  exact .put h

theorem Keeps.bankWrite {s t : State} {u' b : Nat} (h : Keeps s t) : Keeps s (t.bankWrite u' b) := by
  unfold State.bankWrite
  extract_lets +onlyGivenNames _
  split
  · exact h
  · exact .ite _ (.ite _ h (.bankGo (.lose (.setInit h)))) (.ite _ (.bankGo h) h)

theorem KeepsNext.actBankPwr {s t : State} {src : Source} {u' : Fin 320} {v : Word32} (h :
    Keeps s t) : KeepsNext s (actBankPwr src u' v t) := by
  unfold Machine.actBankPwr
  exact .ite _ (.next h) (.ite _ (.next (.refuse h)) (.next (.fold (fun _ _ hk => .bankWrite hk) (.put h))))

theorem KeepsNext.execBankTransitionEnd {s t : State} {u' : Fin 320} {bank : Fin 16} (h :
    Keeps s t) : KeepsNext s (execBankTransitionEnd u' bank t) := by
  unfold Machine.execBankTransitionEnd
  split
  · exact .next h
  · exact .ite _ (.next h) (.next (.bankWrite (.ite _ (.lose (.setBankStat (.frame h))) (.setBankStat (.frame h)))))

theorem KeepsNext.actBankInit {s t : State} {src : Source} {u' : Fin 320} {v : Word32} (h :
    Keeps s t) : KeepsNext s (actBankInit src u' v t) := by
  unfold Machine.actBankInit
  exact .ite _ (.next h) (.next (.fold (fun _ _ hk => .ite _ (.setBankStat (.setInit hk)) hk) h))

theorem KeepsNext.execInitDone {s t : State} {u' : Fin 320} {bank : Fin 16} (h : Keeps s t) : KeepsNext s (execInitDone u' bank t) := by
  unfold Machine.execInitDone
  exact .ite _ (.next h) (.next (.cause (.setBankStat (.setInit (.zero h)))))

/-! The meanings of Machine/TileOps. -/

theorem Keeps.laneRecord {s t : State} {n index : Nat} (h : Keeps s t) : Keeps s (t.laneRecord n index) := by
  unfold State.laneRecord
  exact .ite _ h (.put h)

theorem Keeps.tileFault {s t : State} {n cause index : Nat} (h : Keeps s t) : Keeps s (t.tileFault n cause index) := by
  unfold State.tileFault
  exact .faultHalt (.setErr (.ite _ (.put (.laneRecord h)) (.laneRecord h)))

theorem Keeps.illegalOp {s t : State} {n : Nat} (h : Keeps s t) : Keeps s (t.illegalOp n) := by
  unfold State.illegalOp
  exact .tileFault h

theorem Keeps.trackedError {s t : State} {n status index : Nat} (h : Keeps s t) : Keeps s (t.trackedError n status index) := by
  unfold State.trackedError
  exact .setErr (.ite _ (.put (.laneRecord h)) (.laneRecord h))

theorem Keeps.setSreg {s t : State} {n r v : Nat} (h : Keeps s t) : Keeps s (t.setSreg n r v) :=
  .ite _ h (.modTile h fun _ c => have ⟨a, b, d⟩ := Tile.canonical_parts c; Tile.canonical_of_parts (risingFrom_setAt _ _ _ a) b d)

theorem Keeps.setVlane {s t : State} {n r i v : Nat} (h : Keeps s t) : Keeps s (t.setVlane n r i v) :=
  .modTile h fun _ c => have ⟨a, b, d⟩ := Tile.canonical_parts c; Tile.canonical_of_parts a (risingFrom_setAt _ _ _ b) d

theorem Keeps.setVmask {s t : State} {n m v : Nat} (h : Keeps s t) : Keeps s (t.setVmask n m v) :=
  .modTile h fun _ c => have ⟨a, b, d⟩ := Tile.canonical_parts c; Tile.canonical_of_parts a b (risingFrom_setAt _ _ _ d)

theorem Keeps.hazard {s t : State} {n : Nat} (h : Keeps s t) : Keeps s (t.hazard n) := by
  unfold State.hazard
  exact .tileFault h

theorem Keeps2.readS {s t : State} {n r : Nat} (h : Keeps s t) : Keeps2 s (t.readS n r) := by
  unfold State.readS
  exact .ite _ (.mk (.snd (.draw (.hazard h)))) (.mk h)

theorem Keeps2.readV {s t : State} {n r : Nat} (h : Keeps s t) : Keeps2 s (t.readV n r) := by
  unfold State.readV
  exact .ite _ (.mk (.snd (.draw (.hazard h)))) (.mk h)

theorem Keeps.setVbytes {s t : State} {n r : Nat} {bs : List Byte} (h : Keeps s t) : Keeps s (t.setVbytes n r bs) := by
  unfold State.setVbytes
  exact .fold (fun _ _ hk => .setVlane hk) h

theorem Keeps.writeResult {s t : State} {n : Nat} {a : Result} (h : Keeps s t) : Keeps s (t.writeResult n a) := by
  unfold State.writeResult
  split
  · exact .setSreg h
  · exact .fold (fun _ _ hk => .setVlane hk) h
  · exact .setVbytes h
  · exact .setVmask h
  · exact .put h
  · exact .put h
  · exact .fold (fun _ _ hk => .portAWrite hk) h
  · exact .modTile h (fun _ c => c)
  · exact .modTile h (fun _ c => c)
  · exact h
  · exact h

theorem Keeps.laterAt {s t : State} {n base lat : Nat} {r : Result} (h : Keeps s t) : Keeps s (t.laterAt n base lat r) := by
  unfold State.laterAt
  exact .modTile h (fun _ c => c)

theorem Keeps.later {s t : State} {n lat : Nat} {r : Result} (h : Keeps s t) : Keeps s (t.later n lat r) := by
  unfold State.later
  exact .laterAt h

theorem Keeps.laterS {s t : State} {n lat r v : Nat} (h : Keeps s t) : Keeps s (t.laterS n lat r v) := by
  unfold State.laterS
  exact .ite _ h (.later h)

theorem Keeps.laterV {s t : State} {n lat r mask : Nat} {vs : List Nat} (h : Keeps s t) : Keeps s (t.laterV n lat r mask vs) := by
  unfold State.laterV
  exact .later h

theorem Keeps.track {s t : State} {n : Nat} {t' : Tracked} (h : Keeps s t) : Keeps s (t.track n t') := by
  unfold State.track
  exact .modTile h (fun _ c => c)

theorem Keeps.trackOwn {s t : State} {n lat : Nat} {vector : Bool} {reg : Option Nat} {status : Nat} {res : List Result} {src : Option (Nat × Nat × Nat)} (h :
    Keeps s t) : Keeps s (t.trackOwn n lat vector reg status res src) := by
  unfold State.trackOwn
  exact .track h

theorem KeepsNext.slot {s t : State} {n : TileId} {f : State → State} (h :
    Keeps s t) (hf : ∀ u, Keeps s u → Keeps s (f u)) : KeepsNext s (t.slot n f) := by
  unfold State.slot
  exact .next (.ite _ (hf _ h) h)

theorem KeepsNext.execTrackedOpComplete {s t : State} {n : TileId} {k : Nat} (h :
    Keeps s t) : KeepsNext s (execTrackedOpComplete n k t) := by
  unfold Machine.execTrackedOpComplete
  split
  · exact .next h
  · split
    · exact .next h
    · exact .ite _ (.next h) (by
        extract_lets +onlyGivenNames _ s1
        have h1 : Keeps s s1 := .fold (fun _ _ hk => .writeResult hk) (.modTile h (fun _ c => c))
        exact .next (.ite _ h1 (.trackedError h1)))

/-! The meanings of Machine/Vector. -/

theorem Keeps.vecFlags {s t : State} {n : Nat} {fl : VFlags} (h : Keeps s t) : Keeps s (t.vecFlags n fl) := by
  unfold State.vecFlags
  extract_lets +onlyGivenNames _ s1
  have h1 : Keeps s s1 := .ite _ (.put (.ite _ (.put h) h)) (.ite _ (.put h) h)
  exact .ite _ (.put h1) h1

theorem Keeps.vDone {s t : State} {n lat : Nat} {ty : VType} {vd mask : Nat} {es : List (Nat × VFlags)} (h :
    Keeps s t) : Keeps s (t.vDone n lat ty vd mask es) := by
  unfold State.vDone
  exact .laterV (.vecFlags h)

theorem Keeps.v2 {s t : State} {n lat : Nat} {ty : VType} {vd va vb mask : Nat} {f : Nat → Nat → Nat × VFlags} (h :
    Keeps s t) : Keeps s (t.v2 n lat ty vd va vb mask f) := by
  unfold State.v2
  exact .vDone (.snd (.readV (.snd (.readV h))))

theorem Keeps.v1 {s t : State} {n lat : Nat} {ty : VType} {vd va mask : Nat} {f : Nat → Nat × VFlags} (h :
    Keeps s t) : Keeps s (t.v1 n lat ty vd va mask f) := by
  unfold State.v1
  exact .vDone (.snd (.readV h))

theorem Keeps.fpOnly {s t : State} {n : Nat} {ty : VType} {f : State → State} (h :
    Keeps s t) (hf : ∀ u, Keeps s u → Keeps s (f u)) : Keeps s (t.fpOnly n ty f) := by
  unfold State.fpOnly
  exact .ite _ (.illegalOp h) (hf _ h)

theorem Keeps.opVadd {s t : State} {n : Nat} {ty : VType} {vd va vb mask : Nat} (h :
    Keeps s t) : Keeps s (t.opVadd n ty vd va vb mask) := by
  unfold State.opVadd
  exact .v2 h

theorem Keeps.opVsub {s t : State} {n : Nat} {ty : VType} {vd va vb mask : Nat} (h :
    Keeps s t) : Keeps s (t.opVsub n ty vd va vb mask) := by
  unfold State.opVsub
  exact .v2 h

theorem Keeps.opVmul {s t : State} {n : Nat} {ty : VType} {vd va vb mask : Nat} (h :
    Keeps s t) : Keeps s (t.opVmul n ty vd va vb mask) := by
  unfold State.opVmul
  exact .fpOnly h (fun _ hk => .v2 hk)

theorem Keeps.opVmax {s t : State} {n : Nat} {ty : VType} {vd va vb mask : Nat} (h :
    Keeps s t) : Keeps s (t.opVmax n ty vd va vb mask) := by
  unfold State.opVmax
  exact .v2 h

theorem Keeps.opVmin {s t : State} {n : Nat} {ty : VType} {vd va vb mask : Nat} (h :
    Keeps s t) : Keeps s (t.opVmin n ty vd va vb mask) := by
  unfold State.opVmin
  exact .v2 h

theorem Keeps.opVfma {s t : State} {n : Nat} {ty : VType} {vd va vb mask vc : Nat} {neg : Bool} (h :
    Keeps s t) : Keeps s (t.opVfma n ty vd va vb mask vc neg) := by
  unfold State.opVfma
  exact .fpOnly h (fun _ hk => .vDone (.snd (.readV (.snd (.readV (.snd (.readV hk)))))))

theorem Keeps.opVlerp {s t : State} {n : Nat} {ty : VType} {vd va vb mask k : Nat} (h :
    Keeps s t) : Keeps s (t.opVlerp n ty vd va vb mask k) := by
  unfold State.opVlerp
  exact .fpOnly h (fun _ hk => .v2 hk)

theorem Keeps.opVrms {s t : State} {n : Nat} {ty : VType} {vd va vb mask k : Nat} (h :
    Keeps s t) : Keeps s (t.opVrms n ty vd va vb mask k) := by
  unfold State.opVrms
  exact .fpOnly h (fun _ hk => .v2 hk)

theorem Keeps.opVdive {s t : State} {n : Nat} {ty : VType} {vd va vb mask k : Nat} (h :
    Keeps s t) : Keeps s (t.opVdive n ty vd va vb mask k) := by
  unfold State.opVdive
  exact .ite _ (.illegalOp h) (.fpOnly h (fun _ hk => .v2 hk))

theorem Keeps.opVun {s t : State} {n : Nat} {ty : VType} {vd va mask : Nat} {f : Nat → Nat × VFlags} (h :
    Keeps s t) : Keeps s (t.opVun n ty vd va mask f) := by
  unfold State.opVun
  exact .fpOnly h (fun _ hk => .v1 hk)

theorem Keeps.opVcmp {s t : State} {n : Nat} {ty : VType} {md va vb mask cond : Nat} (h :
    Keeps s t) : Keeps s (t.opVcmp n ty md va vb mask cond) := by
  unfold State.opVcmp
  exact .ite _ (.illegalOp h) (.later (.snd (.readV (.snd (.readV h)))))

theorem Keeps.opVsel {s t : State} {n vd va vb mask : Nat} (h : Keeps s t) : Keeps s (t.opVsel n vd va vb mask) := by
  unfold State.opVsel
  exact .ite _ (.illegalOp h) (.laterV (.snd (.readV (.snd (.readV h)))))

theorem Keeps2.rng {s t : State} {n : Nat} (h : Keeps s t) : Keeps2 s (t.rng n) := by
  unfold State.rng
  exact .mk (.modTile h (fun _ c => c))

theorem Keeps2.cvtList {s t : State} {n : Nat} {src dst : VType} {stoch : Bool} {xs : List Nat} (h :
    Keeps s t) : Keeps2 s (t.cvtList n src dst stoch xs) := by
  unfold State.cvtList
  exact .fold (fun _ _ hk => .ite _ (.mk (.snd (.rng (.snd hk)))) (.mk (.snd hk))) (.mk h)

theorem Keeps.opVcvt {s t : State} {n : Nat} {src dst : VType} {vd va mask : Nat} {stoch : Bool} (h :
    Keeps s t) : Keeps s (t.opVcvt n src dst vd va mask stoch) := by
  unfold State.opVcvt
  exact .ite _ (.vDone (.snd (.cvtList (.snd (.readV h))))) (.vDone (.snd (.cvtList (.snd (.readV h)))))

theorem Keeps.opVred {s t : State} {n : Nat} {ty : VType} {vd va mask op : Nat} (h :
    Keeps s t) : Keeps s (t.opVred n ty vd va mask op) := by
  unfold State.opVred
  exact .ite _ (.illegalOp h) (.laterV (.vecFlags (.snd (.readV h))))

theorem Keeps.scanDone {s t : State} {n : Nat} {ty : VType} {vd mask : Nat} {ins : Nat → List Num} {rs : List Nat} (h :
    Keeps s t) : Keeps s (t.scanDone n ty vd mask ins rs) := by
  unfold State.scanDone
  exact .later (.laterV (.vecFlags h))

theorem Keeps.opVscan {s t : State} {n : Nat} {ty : VType} {vd va mask : Nat} {chain : Bool} (h :
    Keeps s t) : Keeps s (t.opVscan n ty vd va mask chain) := by
  unfold State.opVscan
  exact .fpOnly h (fun _ hk => .scanDone (.snd (.readV hk)))

theorem Keeps.opVscanl {s t : State} {n : Nat} {ty : VType} {vd va vb mask : Nat} {chain : Bool} (h :
    Keeps s t) : Keeps s (t.opVscanl n ty vd va vb mask chain) := by
  unfold State.opVscanl
  exact .fpOnly h (fun _ hk => .scanDone (.snd (.readV (.snd (.readV hk)))))

theorem Keeps.opVld {s t : State} {n vd sa part : Nat} {imm : BitVec 11} (h : Keeps s t) : Keeps s (t.opVld n vd sa part imm) := by
  unfold State.opVld
  exact .ite _ (.trackOwn (.snd (.readS h))) (.trackOwn (.snd (.tail (.portARead (.snd (.readS h))))))

theorem Keeps.opVst {s t : State} {n v sa part : Nat} {imm : BitVec 11} (h : Keeps s t) : Keeps s (t.opVst n v sa part imm) := by
  unfold State.opVst
  exact .ite _ (.setErr (.snd (.readV (.snd (.readS h))))) (.portAWrite (.snd (.readV (.snd (.readS h)))))

theorem Keeps.opVbcast {s t : State} {n : Nat} {ty : VType} {vd sa : Nat} (h : Keeps s t) : Keeps s (t.opVbcast n ty vd sa) := by
  unfold State.opVbcast
  exact .laterV (.snd (.readS h))

theorem Keeps.opVsetk {s t : State} {n k sa : Nat} (h : Keeps s t) : Keeps s (t.opVsetk n k sa) := by
  unfold State.opVsetk
  exact .later (.snd (.readS h))

theorem KeepsNext.execVadd {s t : State} {n : TileId} {ty : VType} {vd va vb : Reg} {mask : Fin 8} (h :
    Keeps s t) : KeepsNext s (execVadd n ty vd va vb mask t) := by
  unfold Machine.execVadd
  exact .slot h (fun _ hk => .opVadd hk)

theorem KeepsNext.execVsub {s t : State} {n : TileId} {ty : VType} {vd va vb : Reg} {mask : Fin 8} (h :
    Keeps s t) : KeepsNext s (execVsub n ty vd va vb mask t) := by
  unfold Machine.execVsub
  exact .slot h (fun _ hk => .opVsub hk)

theorem KeepsNext.execVmul {s t : State} {n : TileId} {ty : VType} {vd va vb : Reg} {mask : Fin 8} (h :
    Keeps s t) : KeepsNext s (execVmul n ty vd va vb mask t) := by
  unfold Machine.execVmul
  exact .slot h (fun _ hk => .opVmul hk)

theorem KeepsNext.execVfma {s t : State} {n : TileId} {ty : VType} {vd va vb : Reg} {mask : Fin 8} {vc : Reg} {neg : Bool} (h :
    Keeps s t) : KeepsNext s (execVfma n ty vd va vb mask vc neg t) := by
  unfold Machine.execVfma
  exact .slot h (fun _ hk => .opVfma hk)

theorem KeepsNext.execVmax {s t : State} {n : TileId} {ty : VType} {vd va vb : Reg} {mask : Fin 8} (h :
    Keeps s t) : KeepsNext s (execVmax n ty vd va vb mask t) := by
  unfold Machine.execVmax
  exact .slot h (fun _ hk => .opVmax hk)

theorem KeepsNext.execVmin {s t : State} {n : TileId} {ty : VType} {vd va vb : Reg} {mask : Fin 8} (h :
    Keeps s t) : KeepsNext s (execVmin n ty vd va vb mask t) := by
  unfold Machine.execVmin
  exact .slot h (fun _ hk => .opVmin hk)

theorem KeepsNext.execVlerp {s t : State} {n : TileId} {ty : VType} {vd va vb : Reg} {mask : Fin 8} {k : Fin 16} (h :
    Keeps s t) : KeepsNext s (execVlerp n ty vd va vb mask k t) := by
  unfold Machine.execVlerp
  exact .slot h (fun _ hk => .opVlerp hk)

theorem KeepsNext.execVrms {s t : State} {n : TileId} {ty : VType} {vd va vb : Reg} {mask : Fin 8} {k : Fin 16} (h :
    Keeps s t) : KeepsNext s (execVrms n ty vd va vb mask k t) := by
  unfold Machine.execVrms
  exact .slot h (fun _ hk => .opVrms hk)

theorem KeepsNext.execVdive {s t : State} {n : TileId} {ty : VType} {vd va vb : Reg} {mask : Fin 8} {k : Fin 16} (h :
    Keeps s t) : KeepsNext s (execVdive n ty vd va vb mask k t) := by
  unfold Machine.execVdive
  exact .slot h (fun _ hk => .opVdive hk)

theorem KeepsNext.execVrcp {s t : State} {n : TileId} {ty : VType} {vd va : Reg} {mask : Fin 8} (h :
    Keeps s t) : KeepsNext s (execVrcp n ty vd va mask t) := by
  unfold Machine.execVrcp
  exact .slot h (fun _ hk => .opVun hk)

theorem KeepsNext.execVrsqrt {s t : State} {n : TileId} {ty : VType} {vd va : Reg} {mask : Fin 8} (h :
    Keeps s t) : KeepsNext s (execVrsqrt n ty vd va mask t) := by
  unfold Machine.execVrsqrt
  exact .slot h (fun _ hk => .opVun hk)

theorem KeepsNext.execVexp2 {s t : State} {n : TileId} {ty : VType} {vd va : Reg} {mask : Fin 8} (h :
    Keeps s t) : KeepsNext s (execVexp2 n ty vd va mask t) := by
  unfold Machine.execVexp2
  exact .slot h (fun _ hk => .opVun hk)

theorem KeepsNext.execVlog2 {s t : State} {n : TileId} {ty : VType} {vd va : Reg} {mask : Fin 8} (h :
    Keeps s t) : KeepsNext s (execVlog2 n ty vd va mask t) := by
  unfold Machine.execVlog2
  exact .slot h (fun _ hk => .opVun hk)

theorem KeepsNext.execVsqrt {s t : State} {n : TileId} {ty : VType} {vd va : Reg} {mask : Fin 8} (h :
    Keeps s t) : KeepsNext s (execVsqrt n ty vd va mask t) := by
  unfold Machine.execVsqrt
  exact .slot h (fun _ hk => .opVun hk)

theorem KeepsNext.execVcmp {s t : State} {n : TileId} {ty : VType} {md : Fin 8} {va vb : Reg} {mask : Fin 8} {cond : Fin 4} (h :
    Keeps s t) : KeepsNext s (execVcmp n ty md va vb mask cond t) := by
  unfold Machine.execVcmp
  exact .slot h (fun _ hk => .opVcmp hk)

theorem KeepsNext.execVsel {s t : State} {n : TileId} {ty : VType} {vd va vb : Reg} {mask : Fin 8} (h :
    Keeps s t) : KeepsNext s (execVsel n ty vd va vb mask t) := by
  unfold Machine.execVsel
  exact .slot h (fun _ hk => .opVsel hk)

theorem KeepsNext.execVcvt {s t : State} {n : TileId} {ty tt : VType} {vd va : Reg} {mask : Fin 8} {stoch : Bool} (h :
    Keeps s t) : KeepsNext s (execVcvt n ty tt vd va mask stoch t) := by
  unfold Machine.execVcvt
  exact .slot h (fun _ hk => .opVcvt hk)

theorem KeepsNext.execVred {s t : State} {n : TileId} {ty : VType} {vd va : Reg} {mask : Fin 8} {op : Fin 4} (h :
    Keeps s t) : KeepsNext s (execVred n ty vd va mask op t) := by
  unfold Machine.execVred
  exact .slot h (fun _ hk => .opVred hk)

theorem KeepsNext.execVscan {s t : State} {n : TileId} {ty : VType} {vd va : Reg} {mask : Fin 8} {chain : Bool} (h :
    Keeps s t) : KeepsNext s (execVscan n ty vd va mask chain t) := by
  unfold Machine.execVscan
  exact .slot h (fun _ hk => .opVscan hk)

theorem KeepsNext.execVscanl {s t : State} {n : TileId} {ty : VType} {vd va vb : Reg} {mask : Fin 8} {chain : Bool} (h :
    Keeps s t) : KeepsNext s (execVscanl n ty vd va vb mask chain t) := by
  unfold Machine.execVscanl
  exact .slot h (fun _ hk => .opVscanl hk)

theorem KeepsNext.execVld {s t : State} {n : TileId} {ty : VType} {v sa : Reg} {part : Fin 8} {imm : BitVec 11} (h :
    Keeps s t) : KeepsNext s (execVld n ty v sa part imm t) := by
  unfold Machine.execVld
  exact .slot h (fun _ hk => .opVld hk)

theorem KeepsNext.execVst {s t : State} {n : TileId} {ty : VType} {v sa : Reg} {part : Fin 8} {imm : BitVec 11} (h :
    Keeps s t) : KeepsNext s (execVst n ty v sa part imm t) := by
  unfold Machine.execVst
  exact .slot h (fun _ hk => .opVst hk)

theorem KeepsNext.execVbcast {s t : State} {n : TileId} {ty : VType} {vd sa : Reg} (h :
    Keeps s t) : KeepsNext s (execVbcast n ty vd sa t) := by
  unfold Machine.execVbcast
  exact .slot h (fun _ hk => .opVbcast hk)

theorem KeepsNext.execVsetk {s t : State} {n : TileId} {k : Fin 16} {sa : Reg} (h : Keeps s t) : KeepsNext s (execVsetk n k sa t) := by
  unfold Machine.execVsetk
  exact .slot h (fun _ hk => .opVsetk hk)

/-! The meanings of Machine/Quant. -/

theorem Keeps.clipCause {s t : State} {n c : Nat} (h : Keeps s t) : Keeps s (t.clipCause n c) := by
  unfold State.clipCause
  exact .ite _ (.cause (.modTile h (fun _ c => c))) h

theorem Keeps.monitor {s t : State} {n : Nat} {ks : List Nat} {x qx : Num} (h : Keeps s t) : Keeps s (t.monitor n ks x qx) := by
  unfold State.monitor
  exact .fold (fun _ _ hk => .put (.put hk)) h

theorem Keeps.clipCauses {s t : State} {n : Nat} (h : Keeps s t) : Keeps s (t.clipCauses n) := by
  unfold State.clipCauses
  exact .fold (fun _ _ hk => .clipCause hk) h

theorem Keeps3.quantGroup {s t : State} {n : Nat} {q : QCfg} {xs : List Nat} (h : Keeps s t) : Keeps3 s (t.quantGroup n q xs) := by
  unfold State.quantGroup
  extract_lets +onlyGivenNames _ _ _ _ r s3 s2
  have hr : Keeps s s3 := by
    refine foldl_keeps (P := fun p : List Nat × Nat × Nat × State => Keeps s p.2.2.2) (b := ([], 0, 0, t)) ?_ h xs
    intro p x hp
    extract_lets +onlyGivenNames _ u _ s3
    have hu : Keeps2 s u := .ite _ (.rng hp) (.mk hp)
    clear_value u
    exact .ite _ (.ite _ (.bump (.snd hu)) (.snd hu)) (.monitor (.snd hu))
  have h2 : Keeps s s2 := .put hr
  exact .mk (.mk (.clipCause (.add (.add h2))))

theorem Keeps2.dequantList {s t : State} {n f sf : Nat} {cs : List (Nat × Nat)} (h : Keeps s t) : Keeps2 s (t.dequantList n f sf cs) := by
  unfold State.dequantList
  exact .mk (.ite _ (.ite _ h (.cause (.add h))) (.cause (.add (.ite _ h (.cause (.add h))))))

theorem Keeps.opVdq {s t : State} {n vd va vb mask : Nat} (h : Keeps s t) : Keeps s (t.opVdq n vd va vb mask) := by
  unfold State.opVdq
  exact .ite _ (.illegalOp h) (.laterV (.snd (.dequantList (.snd (.readV (.snd (.readV h)))))))

theorem Keeps.opVq {s t : State} {n vd va vb mask : Nat} (h : Keeps s t) : Keeps s (t.opVq n vd va vb mask) := by
  unfold State.opVq
  exact .ite _ (.illegalOp h) (by
    extract_lets +onlyGivenNames _ _ _ _ _ _ s1
    have h1 : Keeps s s1 := .laterV <| .snd <| .tail <| .fold (fun _ _ hk => .mk (.mk (.snd (.tail (.quantGroup (.snd (.tail hk))))))) <|
      .mk (.mk (.snd (.readV h)))
    exact .ite _ h1 (.later h1))

theorem KeepsNext.execVdq {s t : State} {n : TileId} {vd va vb : Reg} {mask : Fin 8} (h :
    Keeps s t) : KeepsNext s (execVdq n vd va vb mask t) := by
  unfold Machine.execVdq
  exact .slot h (fun _ hk => .opVdq hk)

theorem KeepsNext.execVq {s t : State} {n : TileId} {vd va vb : Reg} {mask : Fin 8} (h :
    Keeps s t) : KeepsNext s (execVq n vd va vb mask t) := by
  unfold Machine.execVq
  exact .slot h (fun _ hk => .opVq hk)

theorem KeepsNext.actRngSeed {s t : State} {src : Source} {n : TileId} {v : Word64} (h :
    Keeps s t) : KeepsNext s (actRngSeed src n v t) := by
  unfold Machine.actRngSeed
  exact .ite _ (.next h) (.next (.modTile (.put h) (fun _ c => c)))

/-! The meanings of Machine/Array. -/

theorem Keeps.modArr {s t : State} {n : Nat} {f : ArrayS → ArrayS} (h : Keeps s t) : Keeps s (t.modArr n f) := by
  unfold State.modArr
  exact .modTile h (fun _ c => c)

/-- The definition is unfolded at its head alone: its equation makes the kernel evaluate `bankAt (own n ofs)`. -/
theorem Keeps2.arrayLine {s t : State} {n ofs len : Nat} (h : Keeps s t) : Keeps2 s (t.arrayLine n ofs len) := by
  conv => arg 2; fun; fun; fun; fun; delta State.arrayLine
  extract_lets +onlyGivenNames a
  have hr : Keeps2 s (t.checkWords (wordsOf a len) uARRAY 0) := .checkWords h
  clear_value a
  split
  · exact .mk h
  · exact .ite _ (.mk (.bankSkip h)) (.tainted (.snd hr))

theorem Keeps2.arrayRow {s t : State} {n ofs f : Nat} (h : Keeps s t) : Keeps2 s (t.arrayRow n ofs f) := by
  unfold State.arrayRow
  exact .ite _ (.mk (.snd (.arrayLine (.snd (.arrayLine h))))) (.mk (.snd (.arrayLine h)))

theorem Keeps2.widen {s t : State} {n f sf g : Nat} {cs : List Nat} {scs : List Byte} (h :
    Keeps s t) : Keeps2 s (t.widen n f sf g cs scs) := by
  unfold State.widen
  exact .dequantList h

theorem Keeps.runMacRow {s t : State} {n time addr scl f sf g row : Nat} {ovw : Bool} (h :
    Keeps s t) : Keeps s (t.runMacRow n time addr scl f sf g row ovw) := by
  unfold State.runMacRow
  exact .laterAt (.add (.snd (.widen (.snd (.ite _ (.mk (.snd (.arrayRow h))) (.arrayLine (.snd (.arrayRow h))))))))

theorem Keeps.runDrain {s t : State} {n time row : Nat} {last : Bool} {q : QCfg} {ofs scl lat : Nat} (h :
    Keeps s t) : Keeps s (t.runDrain n time row last q ofs scl lat) := by
  unfold State.runDrain
  exact .ite _ (.modArr h) (by
    extract_lets +onlyGivenNames _ _ _ _ s1
    have h1 : Keeps s s1 := .ite _ (.laterAt (.laterAt (.snd (.tail (.quantGroup (.modArr (.modArr h))))))) <|
      .laterAt (.snd (.tail (.quantGroup (.modArr (.modArr h)))))
    exact .ite _ h1 (.laterAt h1))

theorem Keeps.takeResult {s t : State} {n : Nat} {d : Due} (h : Keeps s t) : Keeps s (t.takeResult n d) := by
  unfold State.takeResult
  split
  · exact .runMacRow h
  · exact .runDrain h
  · exact .writeResult h

theorem Keeps.commitTo {s t : State} {n time : Nat} (h : Keeps s t) : Keeps s (t.commitTo n time) := by
  unfold State.commitTo
  exact .fold (fun _ _ hk => .takeResult hk) (.setTile h fun c => tile_canonical c n)

theorem Keeps.commitDue {s t : State} {n : Nat} (h : Keeps s t) : Keeps s (t.commitDue n) := by
  unfold State.commitDue
  exact .commitTo (.commitTo (.modTile h (fun _ c => c)))

theorem Keeps.settleSwap {s t : State} {n : Nat} (h : Keeps s t) : Keeps s (t.settleSwap n) := by
  unfold State.settleSwap
  exact .ite _ (.modArr h) h

theorem Keeps.arrFault {s t : State} {n code aop desc : Nat} (h : Keeps s t) : Keeps s (t.arrFault n code aop desc) := by
  unfold State.arrFault
  exact .causeErr (.ite _ h (.put (.put (.put (.put h)))))

theorem Keeps.arrHazard {s t : State} {n code aop desc : Nat} (h : Keeps s t) : Keeps s (t.arrHazard n code aop desc) := by
  unfold State.arrHazard
  exact .hazard (.arrFault h)

theorem Keeps.opLdw {s t : State} {n d : Nat} (h : Keeps s t) : Keeps s (t.opLdw n d) := by
  unfold State.opLdw
  exact .ite _ (.arrFault (.settleSwap h)) <|
    .ite _ (.arrHazard (.settleSwap h)) <|
    .ite _ (.arrFault (.settleSwap h)) <|
    .ite _ (.arrFault (.settleSwap h)) <|
    .ite _ (.arrFault (.settleSwap h)) <|
    .later <| .modArr <| .snd <| .fold (fun _ _ hk => .mk (.snd (.widen (.snd (.arrayRow (.snd hk)))))) <|
      .mk (.snd (.ite _ (.mk (.settleSwap h)) (.arrayLine (.settleSwap h))))

theorem Keeps.opSwapw {s t : State} {n : Nat} (h : Keeps s t) : Keeps s (t.opSwapw n) := by
  unfold State.opSwapw
  exact .ite _ (.arrFault (.settleSwap h)) <|
    .ite _ (.arrHazard (.settleSwap h)) (.ite _ (.modArr (.settleSwap h)) (.modArr (.settleSwap h)))

theorem Keeps.opMac {s t : State} {n d k : Nat} (h : Keeps s t) : Keeps s (t.opMac n d k) := by
  unfold State.opMac
  exact .ite _ (.arrFault (.settleSwap h)) <|
    .ite _ (.arrHazard (.settleSwap h)) <|
    .ite _ (.arrFault (.settleSwap h)) <|
    .ite _ (.arrFault (.settleSwap h)) <|
    .ite _ (.arrFault (.settleSwap h)) <|
    .ite _ (.arrFault (.settleSwap h)) (.fold (fun _ _ hk => .ite _ (.runMacRow hk) (.later hk)) (.modArr (.settleSwap h)))

theorem Keeps.opClr {s t : State} {n d k : Nat} (h : Keeps s t) : Keeps s (t.opClr n d k) := by
  unfold State.opClr
  exact .ite _ (.arrFault (.settleSwap h)) <|
    .ite _ (.arrHazard (.settleSwap h)) (.ite _ (.arrFault (.settleSwap h)) (.fold (fun _ _ hk => .later hk) (.modArr (.settleSwap h))))

theorem Keeps.opOut {s t : State} {n d k : Nat} (h : Keeps s t) : Keeps s (t.opOut n d k) := by
  unfold State.opOut
  exact .ite _ (.arrFault h) <|
    .ite _ (.arrHazard h) <|
    .ite _ (.arrFault h) (.ite _ (.arrFault h) (.ite _ (.arrFault h) (.fold (fun _ _ hk => .ite _ (.runDrain hk) (.later hk)) (.modArr h))))

theorem KeepsNext.execLdw {s t : State} {n : TileId} {d : Fin 16} (h : Keeps s t) : KeepsNext s (execLdw n d t) := by
  unfold Machine.execLdw
  exact .slot h (fun _ hk => .opLdw hk)

theorem KeepsNext.execSwapw {s t : State} {n : TileId} (h : Keeps s t) : KeepsNext s (execSwapw n t) := by
  unfold Machine.execSwapw
  exact .slot h (fun _ hk => .opSwapw hk)

theorem KeepsNext.execSwapwDeferred {s t : State} {n : TileId} (h : Keeps s t) : KeepsNext s (execSwapwDeferred n t) := by
  unfold Machine.execSwapwDeferred
  exact .slot h (fun _ hk => .settleSwap hk)

theorem KeepsNext.execMac {s t : State} {n : TileId} {d : Fin 16} {k : BitVec 8} (h : Keeps s t) : KeepsNext s (execMac n d k t) := by
  unfold Machine.execMac
  exact .slot h (fun _ hk => .opMac hk)

theorem KeepsNext.execOut {s t : State} {n : TileId} {d : Fin 16} {k : BitVec 8} (h : Keeps s t) : KeepsNext s (execOut n d k t) := by
  unfold Machine.execOut
  exact .slot h (fun _ hk => .opOut hk)

theorem KeepsNext.execClr {s t : State} {n : TileId} {d : Fin 16} {k : BitVec 8} (h : Keeps s t) : KeepsNext s (execClr n d k t) := by
  unfold Machine.execClr
  exact .slot h (fun _ hk => .opClr hk)

/-! The meanings of Machine/Power. -/

theorem Keeps.setDom {s t : State} {d : Nat} {st : DomState} (h : Keeps s t) : Keeps s (t.setDom d st) := .dom h (risingFrom_setAt _ _ _)

theorem Keeps.banksUp {s t : State} {u' : Nat} (h : Keeps s t) : Keeps s (t.banksUp u') := by
  unfold State.banksUp
  exact .lose (.frame (.put h))

theorem Keeps.domUp {s t : State} {d : Nat} (h : Keeps s t) : Keeps s (t.domUp d) := by
  unfold State.domUp
  extract_lets +onlyGivenNames _ s1
  have h1 : Keeps s s1 := .ite _ (.banksUp (.ite _ (.modTile h (fun _ c => c)) h)) (.ite _ (.modTile h (fun _ c => c)) h)
  exact .fold (fun _ _ hk => .setReady hk) (.ite _ (.fold (fun _ _ hk => .ite _ (.put hk) hk) h1) h1)

theorem Keeps.deadHeld {s t : State} {n : Nat} (h : Keeps s t) : Keeps s (t.deadHeld n) := by
  unfold State.deadHeld
  split
  · exact h
  · exact .put (.modTile (.frame h) (fun _ c => c))

theorem Keeps.checksLost {s t : State} {h' : Nat} (h : Keeps s t) : Keeps s (t.checksLost h') := by
  unfold State.checksLost
  exact .fold (fun _ _ hk => .chk (.ite _ (.put (.put hk)) hk) (risingFrom_setAt _ _ _)) h

theorem Keeps.fabricLost {s t : State} {h' : Nat} (h : Keeps s t) : Keeps s (t.fabricLost h') := by
  unfold State.fabricLost
  extract_lets +onlyGivenNames _ _ movers s1
  have h1 : Keeps s s1 := .checksLost (.fold (fun _ _ hk => .put (.put hk)) h)
  exact .same (.movers h1 fun c => risingFrom_removeAll c movers) rfl

theorem Keeps.scaleLost {s t : State} (h : Keeps s t) : Keeps s (t.scaleLost) := by
  unfold State.scaleLost
  exact .frame (.put (.put h))

theorem Keeps.controlLost {s t : State} (h : Keeps s t) : Keeps s (t.controlLost) := by
  unfold State.controlLost
  exact .frame (.put (.put (.put (.ite _ (.setStream (.ite _ (.stepAbandon h) h)) (.ite _ (.stepAbandon h) h)))))

theorem Keeps.bistCount {s t : State} (h : Keeps s t) : Keeps s (t.bistCount) := by
  unfold State.bistCount
  exact .put h

theorem Keeps.bistLog {s t : State} (h : Keeps s t) : Keeps s (t.bistLog) := by
  unfold State.bistLog
  exact .ite _ h (.coreLog h)

theorem Keeps.bistEnd {s t : State} (h : Keeps s t) : Keeps s (t.bistEnd) := by
  unfold State.bistEnd
  exact .ite _ (.bistLog (.cause (.frame (.put (.put h))))) h

theorem Keeps.bistHold {s t : State} (h : Keeps s t) : Keeps s (t.bistHold) := by
  unfold State.bistHold
  split
  · exact .put h
  · exact .cause (.put (.put (.put h)))

theorem Keeps.bistDrop {s t : State} {t' : Nat × Nat} (h : Keeps s t) : Keeps s (t.bistDrop t') := by
  unfold State.bistDrop
  exact .ite _ (.bistEnd (.bistCount (.ite _ (.bistHold (.frame h)) (.frame h)))) h

theorem Keeps.fwLost {s t : State} {n : Nat} (h : Keeps s t) : Keeps s (t.fwLost n) := by
  unfold State.fwLost
  exact .put h

theorem Keeps.idleTile {s t : State} {n : Nat} (h : Keeps s t) : Keeps s (t.idleTile n) := by
  unfold State.idleTile
  exact .fold (fun _ _ hk => .put hk) h

theorem Keeps.dropBegin {s t : State} {d : Nat} (h : Keeps s t) : Keeps s (t.dropBegin d) := by
  unfold State.dropBegin
  extract_lets +onlyGivenNames _ s6 _ _ s5 _ s4 s3 s2 s1
  have h6 : Keeps s s6 := .ite _
      (.fwLost (.idleTile (.modTile (.deadHeld (.stepLost (.laneLost (.fold (fun _ _ hk => .setReady hk) h)))) (fun _ c => c)))) <|
    .fold (fun _ _ hk => .setReady hk) h
  have h5 : Keeps s s5 := .fold (fun _ _ hk => .refuse (.put (.frame hk))) (.ite _ (.frame (.put h6)) h6)
  have h4 : Keeps s s4 := .ite _ (.frame h5) h5
  have h3 : Keeps s s3 := .ite _ (.selfDemote (.fabricLost (.clockChange h4))) h4
  have h2 : Keeps s s2 := .ite _ (.controlLost h3) (.ite _ (.scaleLost h3) h3)
  have h1 : Keeps s s1 := .ite _ (.fold (fun _ _ hk => .ite _ (.put hk) hk) h2) h2
  exact .ite _ (.bistDrop h1) (.ite _ (.bistDrop h1) h1)

theorem Keeps.domLow {s t : State} {d : Nat} {st : DomState} (h : Keeps s t) : Keeps s (t.domLow d st) := by
  unfold State.domLow
  extract_lets +onlyGivenNames s3 s2
  have h3 : Keeps s s3 := .setDom h
  have h2 : Keeps s s2 := .ite _ (.lose h3) h3
  refine .ite _ ?_ h2
  extract_lets +onlyGivenNames _ _ s1
  have h1 : Keeps s s1 := .fold (fun _ _ hk => .put hk) (.fold (fun _ _ hk => .clearRegs hk) h2)
  exact .ite _ (.setTile h1 fun _ => rfl) <|
    .ite _ (.frame h1) (.ite _ (.frame h1) (.ite _ (.frame (.lose h1)) (.ite _ (.same (.timers h1 fun _ => rfl) rfl) h1)))

theorem Keeps.evalDom {s t : State} {d : Nat} (h : Keeps s t) : Keeps s (t.evalDom d) := by
  have hheld : ∀ l, Keeps s { t.cause pgPOWER 7 with power := { t.power with held := l } } := fun l =>
    have hc : Keeps s (t.cause pgPOWER 7) := .cause h
    .same hc (by simp [kept])
  unfold State.evalDom
  extract_lets +onlyGivenNames _ _ _ _
  split
  · exact .ite _ h (.dropBegin (.setDom (.ite _ (hheld _) h)))
  · exact .ite _ (.setDom (.frame h)) (.ite _ (.setDom h) h)
  · exact .ite _ (.setDom (.frame h)) (.ite _ (.setDom h) h)
  · exact h

theorem Keeps.watchEdge {s t : State} (h : Keeps s t) : Keeps s (t.watchEdge) := by
  unfold State.watchEdge
  exact .ite _ h (.ite _ (.frame (.ite _ (.put h) (.put (.put h)))) (.frame (.put h)))

theorem Keeps.clockView {s t : State} (h : Keeps s t) : Keeps s (t.clockView) := by
  unfold State.clockView
  exact .put (.put h)

theorem Keeps.settle {s t : State} {ds : List Nat} (h : Keeps s t) : Keeps s (t.settle ds) := by
  unfold State.settle
  exact .clockView (.watchEdge (.fold (fun _ _ hk => .evalDom hk) (.fold (fun _ _ hk => .evalDom hk) h)))

theorem KeepsNext.actVote {s t : State} {src : Source} {off : Ofs} {v : Word32} (h : Keeps s t) : KeepsNext s (actVote src off v t) := by
  unfold Machine.actVote
  split
  · exact .next h
  · exact .next (.settle (.put h))

theorem Keeps.setFresh {s t : State} (h : Keeps s t) : Keeps s (t.setFresh) := by
  unfold State.setFresh
  exact .ite _ (.frame (.put (.put h))) h

theorem KeepsNext.actDomainOn {s t : State} {d : Fin 325} (h : Keeps s t) : KeepsNext s (actDomainOn d t) := by
  unfold Machine.actDomainOn
  exact .ite _ (by
    extract_lets +onlyGivenNames _ _ s1
    have h1 : Keeps s s1 := .ite _ (.frame (.domUp (.setDom h))) (.domUp (.setDom h))
    exact .next (.settle (.ite _ (.setFresh h1) h1))) (.next h)

theorem KeepsNext.execDomainLow {s t : State} {d : Fin 325} (h : Keeps s t) : KeepsNext s (execDomainLow d t) := by
  unfold Machine.execDomainLow
  exact .ite _ (.next (.settle (.ite _ (.frame (.put (.domLow h))) (.domLow h)))) (.next h)

theorem KeepsNext.actDomEn {s t : State} {src : Source} {w : Fin 11} {v : Word32} (h : Keeps s t) : KeepsNext s (actDomEn src w v t) := by
  unfold Machine.actDomEn
  exact .ite _ (.next (.refuse h)) (.ite _ (.next (.refuse h)) (.next (.settle (.ite _ (.cause (.put (.accept h))) (.put (.accept h))))))

theorem KeepsNext.actMult {s t : State} {src : Source} {v : BitVec 8} (h : Keeps s t) : KeepsNext s (actMult src v t) := by
  unfold Machine.actMult
  exact .ite _ (.next (.refuse h)) <|
    .ite _ (.next (.refuse h)) <|
    .ite _ (.next (.refuse h)) <|
    .ite _ (.next (.refuse h)) (.ite _ (.next (.accept h)) (.ite _ (.next (.refuse h)) (.next (.put (.put (.put (.put (.accept h))))))))

theorem KeepsNext.execRelockDone {s t : State} (h : Keeps s t) : KeepsNext s (execRelockDone t) := by
  unfold Machine.execRelockDone
  exact .ite _ (.next (.cause (.put (.put (.put h))))) (.next h)

theorem KeepsNext.execLockLost {s t : State} (h : Keeps s t) : KeepsNext s (execLockLost t) := by
  unfold Machine.execLockLost
  exact .ite _ (.next (.clockView (.clockChange (.causeErr (.bump (.put (.put (.put (.frame h))))))))) (.next h)

theorem KeepsNext.execPllRelock {s t : State} (h : Keeps s t) : KeepsNext s (execPllRelock t) := by
  unfold Machine.execPllRelock
  exact .ite _ (.next (.clockView (.put (.put (.put (.frame h)))))) (.next h)

theorem KeepsNext.execRootPllLock {s t : State} (h : Keeps s t) : KeepsNext s (execRootPllLock t) := by
  unfold Machine.execRootPllLock
  exact .ite _ (.next (.clockView (.put (.put h)))) (.next h)

theorem KeepsNext.actHalfCfg {s t : State} {src : Source} {west east : Fin 4} (h :
    Keeps s t) : KeepsNext s (actHalfCfg src west east t) := by
  unfold Machine.actHalfCfg
  exact .ite _ (.next (.refuse h)) <|
    .ite _ (.next (.refuse h)) <|
    .ite _ (.next (.refuse h)) <|
    .ite _ (.next (.clockView (.clockChange (.cause (.bump (.put (.put (.accept h)))))))) (.next (.put (.put (.accept h))))

theorem Keeps.setLevel {s t : State} {k : Nat} (h : Keeps s t) : Keeps s (t.setLevel k) := by
  unfold State.setLevel
  exact .ite _ (.cause (.put h)) (.put h)

theorem KeepsNext.execThrottleWindow {s t : State} (h : Keeps s t) : KeepsNext s (execThrottleWindow t) := by
  unfold Machine.execThrottleWindow
  exact .ite _ (.next h) (.next (.add (.setLevel h)))

theorem KeepsNext.execCapTrip {s t : State} (h : Keeps s t) : KeepsNext s (execCapTrip t) := by
  unfold Machine.execCapTrip
  exact .ite _ (.next h) (.next (.causeErr (.bump (.setLevel (.put (.frame (.ite _ (.add (.snd (.draw h))) (.snd (.draw h)))))))))

theorem KeepsNext.execCapTripRelease {s t : State} (h : Keeps s t) : KeepsNext s (execCapTripRelease t) := by
  unfold Machine.execCapTripRelease
  exact .next (.put (.frame h))

theorem Keeps.tripNow {s t : State} {i v : Nat} (h : Keeps s t) : Keeps s (t.tripNow i v) := by
  unfold State.tripNow
  exact .settle (.frame (.ite _ (.put h) (.aonLog (.put h))))

theorem KeepsNext.execWatchWake {s t : State} {temps : List (BitVec 16)} {panel cables : List Bool} (h :
    Keeps s t) : KeepsNext s (execWatchWake temps panel cables t) := by
  unfold Machine.execWatchWake
  exact .ite _ (.next h) (by
    extract_lets +onlyGivenNames _ _ _ _ _ _ s1
    have h1 : Keeps s s1 := .frame (.fold (fun _ _ hk => .tripNow hk) h)
    exact .ite _ (.next h1) (.next (.settle (.put (.cause (.aonLog (.bump (.put h1))))))))

/-! The meanings of Machine/Crown. -/

theorem Keeps.modCrown {s t : State} {f : CrownS → CrownS} (h : Keeps s t) : Keeps s (t.modCrown f) := by
  unfold State.modCrown
  exact .frame h

theorem Keeps.moveToken {s t : State} {v : Nat} (h : Keeps s t) : Keeps s (t.moveToken v) := by
  unfold State.moveToken
  extract_lets +onlyGivenNames _ _ s2 s1
  have h2 : Keeps s s2 := .ite _ (.fold (fun _ _ hk => .put hk) (.modCrown (.causeErr (.cause (.bump (.put h)))))) (.cause (.bump (.put h)))
  have h1 : Keeps s s1 := .ite _ (.modCrown (.coreLog h2)) h2
  exact .ite _ (.clearRegs h1) h1

theorem KeepsNext.actTokenHolder {s t : State} {src : Source} {v : Fin 4} (h : Keeps s t) : KeepsNext s (actTokenHolder src v t) := by
  unfold Machine.actTokenHolder
  exact .ite _ (.next (.refuse h)) <|
    .ite _ (.next (.refuse h)) (.ite _ (.next (.accept h)) (.ite _ (.next (.refuse h)) (.next (.moveToken (.accept h)))))

theorem KeepsNext.actHb {s t : State} {src : Source} {v : Fin 4} (h : Keeps s t) : KeepsNext s (actHb src v t) := by
  unfold Machine.actHb
  split
  · exact .next (.ite _ (.put h) h)
  · exact .next (.ite _ (.put h) h)
  · exact .next h

theorem KeepsNext.execHbBoundary {s t : State} (h : Keeps s t) : KeepsNext s (execHbBoundary t) := by
  unfold Machine.execHbBoundary
  exact .ite _ (.next h) <|
    .ite _ (.next (.moveToken (.put (.put (.put (.put h)))))) <|
    .ite _ (.next (.moveToken (.put (.put (.put (.put h)))))) (.next (.put (.put (.put (.put h)))))

theorem KeepsNext.actLock {s t : State} {src : Source} {v : BitVec 8} (h : Keeps s t) : KeepsNext s (actLock src v t) := by
  unfold Machine.actLock
  exact .ite _ (.next (.refuse h)) (.next (.put (.accept h)))

theorem Keeps.capLoop {s t : State} {p : Nat} (h : Keeps s t) : Keeps s (t.capLoop p) := by
  unfold State.capLoop
  exact .ite _ (.put h) (.frame (.put h))

theorem KeepsNext.execSensorSample {s t : State} {i : Fin 84} {v : BitVec 16} {ok : Bool} (h :
    Keeps s t) : KeepsNext s (execSensorSample i v ok t) := by
  unfold Machine.execSensorSample
  exact .ite _ (.next h) (.ite _ (.next (.put h)) (by
    extract_lets +onlyGivenNames _ _ _ s4 _ _ s3 s2 s1
    have h4 : Keeps s s4 := .ite _ (.cause (.put (.put (.put h)))) (.put (.put (.put h)))
    have h3 : Keeps s s3 := .put (.modCrown (.ite _ (.causeErr h4) h4))
    have h2 : Keeps s s2 := .ite _ (.coreLog h3) h3
    have h1 : Keeps s s1 := .ite _ (.capLoop h2) h2
    exact .next (.ite _ (.tripNow h1) h1)))

theorem KeepsNext.execTripSample {s t : State} {i : Fin 64} {v : BitVec 16} (h : Keeps s t) : KeepsNext s (execTripSample i v t) := by
  unfold Machine.execTripSample
  exact .next (.ite _ (.tripNow h) h)

theorem KeepsNext.execLogWrite {s t : State} (h : Keeps s t) : KeepsNext s (execLogWrite t) := by
  unfold Machine.execLogWrite
  refine .ite _ (.next h) ?_
  extract_lets +onlyGivenNames _ pick
  have hp : ∀ r u, pick = some (r, u) → Keeps t u := by
    intro r u e
    simp only [pick] at e
    split at e
    · cases e; exact .frame (.refl t)
    · cases e; exact .frame (.refl t)
    · split at e
      · cases e
      · cases e; exact .frame (.refl t)
    · cases e
  clear_value pick
  split
  · exact .next h
  · next _ r s4 =>
    have h4 : Keeps s s4 := h.trans (hp r s4 rfl)
    extract_lets +onlyGivenNames _ _ _ _ s3 s2 s1
    have h3 : Keeps s s3 := .frame h4
    have h2 : Keeps s s2 := .put h3
    have h1 : Keeps s s1 := .ite _ (.bump h2) h2
    exact .ite _ (.next h1) (.next (.coreLog (.modCrown h1)))

theorem Keeps.extend {s t : State} {k : Nat} {d : List Byte} (h : Keeps s t) : Keeps s (t.extend k d) := by
  unfold State.extend
  exact .fold (fun _ _ hk => .put hk) h

theorem Keeps.raiseRollback {s t : State} {svn : Nat} (h : Keeps s t) : Keeps s (t.raiseRollback svn) := by
  unfold State.raiseRollback
  exact .ite _ h (.coreLog (.cause (.put (.put (.frame h)))))

theorem Keeps.logRefused {s t : State} {slot : Nat} (h : Keeps s t) : Keeps s (t.logRefused slot) := by
  unfold State.logRefused
  exact .coreLog h

theorem Keeps.showDir {s t : State} (h : Keeps s t) : Keeps s (t.showDir) := by
  unfold State.showDir
  exact .put (.put (.put (.put h)))

theorem KeepsNext.execBoot {s t : State} (h : Keeps s t) : KeepsNext s (execBoot t) := by
  unfold Machine.execBoot
  exact .ite _ (.next h) (by
    extract_lets +onlyGivenNames _ _ _ _ s4 _ _ s3 s2 run _ _ _ _ _ _ _ _ _ _ _ _ _ _ s1
    have h4 : Keeps s s4 := .ite _ (.coreLog (.cause (.frame (.ite _ (.frame h) h)))) (.ite _ (.frame h) h)
    have h3 : Keeps s s3 := .ite _ (.logRefused h4) h4
    have h2 : Keeps s s2 := .ite _ (.logRefused h3) h3
    have h1 : Keeps s s1 := .showDir <| .setFresh <| .modCrown <| .modCrown <| .fold (fun _ _ hk => .put hk) <|
      .put (.put (.add (.put (.put (.frame (.ite _ (.raiseRollback h2) h2))))))
    clear_value run
    split
    · exact .next (.setReady (.coreLog (.cause (.put h1))))
    · exact .next (.setReady (.extend (.extend (.extend (.extend (.put (.put (.put h1)))))))))

theorem Keeps.putRsp {s t : State} {bs : List Byte} (h : Keeps s t) : Keeps s (t.putRsp bs) := by
  unfold State.putRsp
  exact .fold (fun _ _ hk => .put hk) h

theorem Keeps.mbFinish {s t : State} {seq : Nat} (h : Keeps s t) : Keeps s (t.mbFinish seq) := by
  unfold State.mbFinish
  exact .cause (.modCrown (.put (.put h)))

theorem Keeps.mbAnswer {s t : State} {self : Bool} {path : MbPath} {seq : Nat} {msg : List Byte} (h :
    Keeps s t) : Keeps s (t.mbAnswer self path seq msg) := by
  unfold State.mbAnswer
  split
  · exact .ite _ (.mbFinish (.putRsp h)) (.putRsp h)
  · exact .emit (.modCrown h)

theorem KeepsNext.mailbox {s t : State} {path : MbPath} {cmd reqLen : Nat} {inRecovery whileNone : Bool} {run : State → List Byte → State × Nat × List Byte} (hrun : ∀ u a, Keeps s u → Keeps1 s (run u a)) (h :
    Keeps s t) : KeepsNext s (mailbox path cmd reqLen inRecovery whileNone run t) := by
  unfold Machine.mailbox
  exact .ite _ (.next h) (by
    extract_lets +onlyGivenNames _ _ _ _
    split
    · exact .next (.mbAnswer h)
    · split
      · exact .next (.mbAnswer h)
      · exact .ite _ (.next (.mbAnswer h)) (.ite _ (.next (.mbAnswer h)) (.next (.mbAnswer (.fst (hrun _ _ h))))))

theorem KeepsNext.actMbGo {s t : State} {src : Source} (h : Keeps s t) : KeepsNext s (actMbGo src t) := by
  unfold Machine.actMbGo
  exact .ite _ (.next (.refuse h)) (.ite _ (by
    split
    · exact .next (.mbAnswer (.put h))
    · exact .next (.put h)) (.next (.put h)))

theorem KeepsNext.actMbComplete {s t : State} {src : Source} (h : Keeps s t) : KeepsNext s (actMbComplete src t) := by
  unfold Machine.actMbComplete
  exact .ite _ (.next (.refuse h)) (.ite _ (.next h) (.next (.mbFinish (by
    split
    · exact .putRsp h
    · exact .ite _ h (by
        split
        · exact .putRsp h
        · exact h)))))

theorem KeepsNext.execGetInfo {s t : State} {path : MbPath} (h : Keeps s t) : KeepsNext s (execGetInfo path t) := by
  unfold Machine.execGetInfo
  exact .mailbox (fun _ _ hk => .mk hk) h

theorem KeepsNext.execSetModuleId {s t : State} {path : MbPath} (h : Keeps s t) : KeepsNext s (execSetModuleId path t) := by
  unfold Machine.execSetModuleId
  exact .mailbox (fun _ _ hk => .ite _ (.mk hk) (.ite _ (.mk hk) (.mk (.put (.put hk))))) h

theorem KeepsNext.execSensorRead {s t : State} {path : MbPath} (h : Keeps s t) : KeepsNext s (execSensorRead path t) := by
  unfold Machine.execSensorRead
  exact .mailbox (fun _ _ hk => .ite _ (.mk hk) (.mk hk)) h

theorem KeepsNext.execThreshSet {s t : State} {path : MbPath} (h : Keeps s t) : KeepsNext s (execThreshSet path t) := by
  unfold Machine.execThreshSet
  exact .mailbox (fun _ _ hk => .ite _ (.mk hk) (.mk (.put (.put (.put (.put hk)))))) h

theorem KeepsNext.execLogRead {s t : State} {path : MbPath} (h : Keeps s t) : KeepsNext s (execLogRead path t) := by
  unfold Machine.execLogRead
  exact .mailbox (fun _ _ hk => .ite _ (.mk hk) (.mk hk)) h

theorem KeepsNext.execFwActivate {s t : State} {path : MbPath} (h : Keeps s t) : KeepsNext s (execFwActivate path t) := by
  unfold Machine.execFwActivate
  exact .mailbox (fun _ _ hk => .ite _ (.mk hk) (.ite _ (.mk hk) (.mk (.showDir (.frame hk))))) h

theorem KeepsNext.execFwCommit {s t : State} {path : MbPath} (h : Keeps s t) : KeepsNext s (execFwCommit path t) := by
  unfold Machine.execFwCommit
  exact .mailbox (fun _ _ hk => .ite _ (.mk hk) (.ite _ (.mk hk) (.mk (.raiseRollback (.put (.showDir (.modCrown (.frame hk)))))))) h

theorem KeepsNext.execLockSet {s t : State} {path : MbPath} (h : Keeps s t) : KeepsNext s (execLockSet path t) := by
  unfold Machine.execLockSet
  exact .mailbox (fun _ _ hk => .mk (.put hk)) h

theorem KeepsNext.execTokenAssign {s t : State} {path : MbPath} (h : Keeps s t) : KeepsNext s (execTokenAssign path t) := by
  unfold Machine.execTokenAssign
  exact .mailbox (fun _ _ hk => .ite _ (.mk hk) (.ite _ (.mk hk) (.ite _ (.mk (.refuse hk)) (.mk (.moveToken (.accept hk)))))) h

theorem KeepsNext.execCoreHalt {s t : State} {core : Fin 2} {addr : Nat} (h : Keeps s t) : KeepsNext s (execCoreHalt core addr t) := by
  unfold Machine.execCoreHalt
  exact .ite _ (.next h) (.next (.coreLog (.modCrown h)))

/-! The meanings of Machine/Scale. -/

theorem Keeps.setFlag {s t : State} {i : Nat} {v : Bool} (h : Keeps s t) : Keeps s (t.setFlag i v) := by
  unfold State.setFlag
  exact .put h

theorem Keeps.changeFlag {s t : State} {who i : Nat} {v : Bool} (h : Keeps s t) : Keeps s (t.changeFlag who i v) := by
  unfold State.changeFlag
  exact .ite _ (.modIssue (.setFlag h)) (.ite _ h (.setFlag h))

theorem Keeps.clearLive {s t : State} {n : Nat} (h : Keeps s t) : Keeps s (t.clearLive n) := by
  unfold State.clearLive
  exact .fold (fun _ _ hk => .put (.put (.put hk))) (.modTile h (fun _ c => c))

theorem Keeps.retune {s t : State} (h : Keeps s t) : Keeps s (t.retune) := by
  unfold State.retune
  exact .ite _ h (.ite _ (.cause (.bump h)) (.put (.put (.frame (.fold (fun _ _ hk => .clearLive hk) h)))))

theorem Keeps.scaleArrive {s t : State} {n : Nat} (h : Keeps s t) : Keeps s (t.scaleArrive n) := by
  unfold State.scaleArrive
  exact .ite _ (.bump (.frame h)) (by
    split
    · exact h
    · exact .ite _ (.frame (.frame h)) (.bump (.frame h)))

theorem Keeps.setTexp {s t : State} {t' : Nat} {b d : ℤ} (h : Keeps s t) : Keeps s (t.setTexp t' b d) := by
  unfold State.setTexp
  exact .put h

theorem Keeps.sendExps {s t : State} {ts : List Nat} (h : Keeps s t) : Keeps s (t.sendExps ts) := by
  unfold State.sendExps
  exact .fold (fun _ _ hk => .fold (fun _ _ hk2 => .ite _ (.put (.put hk2)) hk2) hk) h

theorem Keeps.scaleDone {s t : State} (h : Keeps s t) : Keeps s (t.scaleDone) := by
  unfold State.scaleDone
  exact .ite _ (.setFlag (.cause (.put (.put (.put h))))) (.cause (.put (.put (.put h))))

theorem Keeps.updTensor {s t : State} {t' : Nat} (h : Keeps s t) : Keeps s (t.updTensor t') := by
  unfold State.updTensor
  exact .setTexp (.frame h)

theorem Keeps.clearHist {s t : State} {t' : Nat} (h : Keeps s t) : Keeps s (t.clearHist t') := by
  unfold State.clearHist
  exact .frame h

theorem KeepsNext.actRetune {s t : State} (h : Keeps s t) : KeepsNext s (actRetune t) := by
  unfold Machine.actRetune
  exact .next (.retune h)

theorem KeepsNext.execRetuneUpdate {s t : State} (h : Keeps s t) : KeepsNext s (execRetuneUpdate t) := by
  unfold Machine.execRetuneUpdate
  exact .ite _ (.next h) (by
    extract_lets +onlyGivenNames s1
    have h1 : Keeps s s1 := .fold (fun _ _ hk => .put (.put (.put hk))) h
    exact .ite _ (.next (.scaleDone h1)) (.next (.scaleDone (.sendExps (.fold (fun _ _ hk => .updTensor hk) h1)))))

theorem KeepsNext.execRetuneTimeout {s t : State} (h : Keeps s t) : KeepsNext s (execRetuneTimeout t) := by
  unfold Machine.execRetuneTimeout
  exact .ite _ (.next h) (.next (.cause (.put (.put (.put (.frame h))))))

theorem KeepsNext.actApply {s t : State} {src : Source} (h : Keeps s t) : KeepsNext s (actApply src t) := by
  unfold Machine.actApply
  exact .ite _ (.next (.refuse h)) (.ite _ (.next h) (.next (.scaleDone (.sendExps h))))

/-! The meanings of Machine/Snet. -/

theorem Keeps.setBarDone {s t : State} {g : Nat} {v : Bool} (h : Keeps s t) : Keeps s (t.setBarDone g v) := by
  unfold State.setBarDone
  exact .put h

theorem Keeps.barErr {s t : State} (h : Keeps s t) : Keeps s (t.barErr) := by
  unfold State.barErr
  exact .cause (.bump h)

theorem Keeps.arrive {s t : State} {n g : Nat} (h : Keeps s t) : Keeps s (t.arrive n g) := by
  unfold State.arrive
  exact .ite _ (.barErr h) (.frame h)

theorem KeepsNext.execArrive {s t : State} {n : TileId} {g : Fin 64} (h : Keeps s t) : KeepsNext s (execArrive n g t) := by
  unfold Machine.execArrive
  exact .slot h (fun _ hk => .arrive hk)

theorem KeepsNext.execFlag {s t : State} {n : TileId} {f : Fin 16} {set : Bool} (h : Keeps s t) : KeepsNext s (execFlag n f set t) := by
  unfold Machine.execFlag
  exact .slot h (fun _ hk => .changeFlag hk)

theorem KeepsNext.actFlags {s t : State} {src : Source} {v : BitVec 16} (h : Keeps s t) : KeepsNext s (actFlags src v t) := by
  unfold Machine.actFlags
  exact .next (.ite _ (.put h) h)

theorem KeepsNext.actBarMask {s t : State} {src : Source} {g : Fin 64} {w : Fin 8} {v : Word32} (h :
    Keeps s t) : KeepsNext s (actBarMask src g w v t) := by
  unfold Machine.actBarMask
  exact .next (.ite _ (.put h) h)

theorem KeepsNext.execBarTmo {s t : State} {g : Fin 64} (h : Keeps s t) : KeepsNext s (execBarTmo g t) := by
  unfold Machine.execBarTmo
  exact .ite _ (.next h) (.next (.causeErr (.bump (.put (.frame h)))))

/-! The meanings of Machine/Neuron. -/

theorem Keeps.modEvt {s t : State} {n : Nat} {f : EvtS → EvtS} (h : Keeps s t) : Keeps s (t.modEvt n f) := by
  unfold State.modEvt
  exact .modTile h (fun _ c => c)

theorem Keeps.loadPset {s t : State} {n p : Nat} (h : Keeps s t) : Keeps s (t.loadPset n p) := by
  unfold State.loadPset
  extract_lets +onlyGivenNames _ _
  split
  · exact .ite _ (.put (.modEvt (.snd (.engineRead h)))) (.put (.modEvt (.snd (.engineRead h))))
  · exact .put (.modEvt (.snd (.engineRead h)))

theorem Keeps.roSet {s t : State} {n buf i v : Nat} (h : Keeps s t) : Keeps s (t.roSet n buf i v) := by
  unfold State.roSet
  exact .modEvt h

theorem Keeps.readout {s t : State} {n rdidx w k : Nat} (h : Keeps s t) : Keeps s (t.readout n rdidx w k) := by
  unfold State.readout
  exact .ite _ h (.ite _ (.roSet h) (.bump h))

theorem Keeps2.fireEntry {s t : State} {n base cap cnt dlp w k : Nat} (h : Keeps s t) : Keeps2 s (t.fireEntry n base cap cnt dlp w k) := by
  unfold State.fireEntry
  exact .ite _ (.mk (.cause (.bump h))) (.mk (.engineWrite h))

theorem Keeps2.sweepRecord {s : State} {base cap n neuron w : Nat} {st : List Byte} {acc : Nat × State} (hacc :
    Keeps2 s acc) : Keeps2 s (sweepRecord base cap n neuron w st acc) := by
  unfold State.sweepRecord
  exact .ite _ hacc (by
    extract_lets +onlyGivenNames _ _
    split
    · exact .mk (.cause (.bump (.snd hacc)))
    · exact .ite _ (.mk (.cause (.bump (.snd hacc)))) (by
        split
        · exact hacc
        · extract_lets +onlyGivenNames _
          split
          · exact .mk (.snd (.engineRead (.snd hacc)))
          · extract_lets +onlyGivenNames _ s2 s1
            have h2 : Keeps s s2 := .engineWrite (.snd (.engineRead (.snd hacc)))
            have h1 : Keeps s s1 := .ite _ (.cause (.bump h2)) h2
            exact .ite _ (.mk h1) (.mk (.readout (.snd (.fireEntry h1))))))

theorem Keeps2.sweepAll {s t : State} {n base cap : Nat} (h : Keeps s t) : Keeps2 s (t.sweepAll n base cap) := by
  unfold State.sweepAll
  exact .fold
      (fun _ _ hk => .fold (fun _ _ hk2 => .fold (fun _ _ hk3 => .sweepRecord hk3) hk2) <|
        .mk (.snd (.fold (fun _ _ hk2 => .mk (.snd (.engineRead (.snd hk2)))) (.mk (.snd hk))))) <|
    .mk h

theorem Keeps.roReport {s t : State} {n g : Nat} (h : Keeps s t) : Keeps s (t.roReport n g) := by
  unfold State.roReport
  exact .ite _ h (.ite _ (.modEvt h) (.fold (fun _ _ hk => .roSet hk) (.modEvt (.ite _ (.cause (.bump h)) h))))

theorem KeepsNext.actPsetLoad {s t : State} {src : Source} {n : TileId} (h : Keeps s t) : KeepsNext s (actPsetLoad src n t) := by
  unfold Machine.actPsetLoad
  exact .ite _ (.next h) (.next (.fold (fun _ _ hk => .loadPset hk) (.put h)))

theorem KeepsNext.execPsetLoadEnd {s t : State} {n : TileId} (h : Keeps s t) : KeepsNext s (execPsetLoadEnd n t) := by
  unfold Machine.execPsetLoadEnd
  exact .next (.put h)

/-! The meanings of Machine/Net. -/

theorem Keeps.modNet {s t : State} {f : NetS → NetS} (h : Keeps s t) : Keeps s (t.modNet f) := by
  unfold State.modNet
  exact .frame h

theorem Keeps.setLane {s t : State} {src dst : Nat} {l : Lane} (h : Keeps s t) : Keeps s (t.setLane src dst l) := by
  unfold State.setLane
  exact .modNet h

theorem Keeps.countGot {s t : State} {src dst : Nat} {ep : Bool} (h : Keeps s t) : Keeps s (t.countGot src dst ep) := by
  unfold State.countGot
  exact .modNet h

theorem Keeps.packetOver {s t : State} {q : Pkt} {late answered : Bool} (h : Keeps s t) : Keeps s (t.packetOver q late answered) := by
  unfold State.packetOver
  exact .modNet (.modNet h)

theorem Keeps.sendFence {s t : State} {src dst : Nat} {tag : Option Nat} {ev : Option Word64} {addr : Nat} {hop : Option (Nat × Nat)} (h :
    Keeps s t) : Keeps s (t.sendFence src dst tag ev addr hop) := by
  unfold State.sendFence
  exact .modNet (.setLane h)

theorem Keeps.hiddenFence {s t : State} {src dst : Nat} (h : Keeps s t) : Keeps s (t.hiddenFence src dst) := by
  unfold State.hiddenFence
  exact .sendFence h

theorem Keeps.launch {s t : State} {src dst : Nat} {w : Waiting} (h : Keeps s t) : Keeps s (t.launch src dst w) := by
  unfold State.launch
  exact .ite _ (.hiddenFence (.modNet (.setLane h))) (.modNet (.setLane h))

theorem Keeps.inject {s t : State} {src dst : Nat} {w : Waiting} (h : Keeps s t) : Keeps s (t.inject src dst w) := by
  unfold State.inject
  extract_lets +onlyGivenNames _ _
  split
  · exact .ite _ (.setLane h) (.sendFence h)
  · exact .ite _ (.setLane h) (.sendFence h)
  · exact .ite _ (.launch h) (.setLane h)

theorem Keeps.fenceOver {s t : State} {src dst : Nat} (h : Keeps s t) : Keeps s (t.fenceOver src dst) := by
  unfold State.fenceOver
  exact .fold (fun _ _ hk => .inject hk) (.ite _ (.hiddenFence (.setLane h)) (.setLane h))

theorem Keeps.request {s t : State} {p : Pkt} (h : Keeps s t) : Keeps s (t.request p) := by
  unfold State.request
  split
  · exact .inject h
  · exact .modNet h

theorem Keeps.sendEvent {s t : State} {src : Nat} {ev : Word64} (h : Keeps s t) : Keeps s (t.sendEvent src ev) := by
  unfold State.sendEvent
  exact .inject h

theorem Keeps.fabCause {s t : State} {b : Nat} (h : Keeps s t) : Keeps s (t.fabCause b) := by
  unfold State.fabCause
  exact .ite _ (.causeErr h) (.cause h)

theorem Keeps.parityLost {s t : State} (h : Keeps s t) : Keeps s (t.parityLost) := by
  unfold State.parityLost
  exact .fabCause (.bump h)

theorem Keeps.epDown {s t : State} {e : Nat} (h : Keeps s t) : Keeps s (t.epDown e) := by
  unfold State.epDown
  exact .fabCause (.put (.bump h))

theorem Keeps.unmapped {s t : State} {src a : Nat} (h : Keeps s t) : Keeps s (t.unmapped src a) := by
  unfold State.unmapped
  exact .fabCause (.put (.put (.bump h)))

theorem Keeps.crcDrop {s t : State} {dst : Nat} {c : BadFlit} (h : Keeps s t) : Keeps s (t.crcDrop dst c) := by
  unfold State.crcDrop
  exact .fabCause (.put (.put (.put (.bump h))))

theorem Keeps.crcDrops {s t : State} {dst : Nat} {l : List BadFlit} (h : Keeps s t) : Keeps s (t.crcDrops dst l) := by
  unfold State.crcDrops
  exact .fold (fun _ _ hk => .crcDrop hk) h

theorem Keeps2.copies {s t : State} {here : Nat → Nat → Nat → Bool} {n : Nat} {eps : List Nat} {luck : Luck} (h :
    Keeps s t) : Keeps2 s (t.copies here n eps luck) := by
  unfold State.copies
  exact .mk (.crcDrops h)

theorem Keeps.badPacket {s t : State} (h : Keeps s t) : Keeps s (t.badPacket) := by
  unfold State.badPacket
  exact .fabCause (.bump h)

/-! The meanings of Machine/Cuff. -/

theorem Keeps.cuffStat {s t : State} (h : Keeps s t) : Keeps s (t.cuffStat) := by
  unfold State.cuffStat
  exact .put (.put h)

theorem Keeps.cuffVote {s t : State} {half : Nat} {v : Bool} (h : Keeps s t) : Keeps s (t.cuffVote half v) := by
  unfold State.cuffVote
  exact .settle (.put h)

theorem Keeps.cuffHold {s t : State} {half vc : Nat} {i : CuffItem} (h : Keeps s t) : Keeps s (t.cuffHold half vc i) := by
  unfold State.cuffHold
  exact .ite _ h (by
    extract_lets +onlyGivenNames _ _ _ s1
    have h1 : Keeps s s1 := .cuffStat (.modNet (.ite _ (.cause (.bump h)) (.bump h)))
    exact .ite _ (.cuffVote h1) h1)

theorem Keeps.cuffLeave {s t : State} {i : CuffItem} (h : Keeps s t) : Keeps s (t.cuffLeave i) := by
  unfold State.cuffLeave
  exact .ite _ (.put (.snd (.draw (.cuffStat (.modNet h))))) h

theorem Keeps.cross {s t : State} {src dst vc : Nat} {i : CuffItem} {pass : State → State} (h :
    Keeps s t) (hpass : ∀ u, Keeps s u → Keeps s (pass u)) : Keeps s (t.cross src dst vc i pass) := by
  unfold State.cross
  exact .ite _ h (.ite _ (.cuffHold h) (hpass _ (.cuffLeave h)))

theorem Keeps.guard {s t : State} {ep vc : Nat} {ranges : List (Nat × Nat)} {go : State → State} (h :
    Keeps s t) (hgo : ∀ u, Keeps s u → Keeps s (go u)) : Keeps s (t.guard ep vc ranges go) := by
  unfold State.guard
  split
  · extract_lets +onlyGivenNames _ s1
    have h1 : Keeps s s1 := hgo _ (.fold (fun _ _ hk => .cuffLeave hk) h)
    exact .ite _ h1 (.modNet h1)
  · exact .ite _ (.fold (fun _ _ hk => .cuffHold hk) h) h

/-! The meanings of Machine/LinkBase. -/

theorem Keeps.modPort {s t : State} {p : Nat} {f : PortS → PortS} (h :
    Keeps s t) : Keeps s (t.modPort p f) :=
  .links h (risingFrom_setAt _ _ _)

theorem Keeps.rtDrop {s t : State} {why inp m : Nat} (h : Keeps s t) : Keeps s (t.rtDrop why inp m) := by
  unfold State.rtDrop
  exact .cause (.put (.put (.put (.bump h))))

theorem Keeps.releaseReply {s t : State} {m ep tag : Nat} (h : Keeps s t) : Keeps s (t.releaseReply m ep tag) := by
  unfold State.releaseReply
  exact .modNet h

theorem Keeps.sendUnit {s t : State} {p : Nat} {i : LinkItem} (h : Keeps s t) : Keeps s (t.sendUnit p i) := by
  unfold State.sendUnit
  exact .ite _ (.modPort (.add (.emit h))) (by
    split
    · exact .put (.modPort (.add (.emit h)))
    · exact .releaseReply (.modPort (.add (.emit h)))
    · exact .modPort (.add (.emit h)))

theorem KeepsSome.linkSlot {s t : State} {p : Nat} (h : Keeps s t) : KeepsSome s (t.linkSlot p) := .map fun _ => .sendUnit h

theorem Keeps.linkRun {s t : State} {p n : Nat} (h : Keeps s t) : Keeps s (linkRun p n t) := by
  induction n generalizing t with
  | zero => exact h
  | succ n ih =>
    unfold State.linkRun
    split
    · exact h
    · next s1 e => exact ih (.of_some e (.linkSlot h))

theorem Keeps.linkKick {s t : State} {p : Nat} (h : Keeps s t) : Keeps s (t.linkKick p) := by
  unfold State.linkKick
  exact .linkRun h

theorem Keeps.linkSend {s t : State} {p : Nat} {i : LinkItem} (h : Keeps s t) : Keeps s (t.linkSend p i) := by
  unfold State.linkSend
  exact .ite _ (.linkKick (.modPort h)) (.ite _ h (.rtDrop (.ite _ (.releaseReply h) h)))

theorem Keeps.sendMgmt {s t : State} {p : Nat} {body : List Byte} (h : Keeps s t) : Keeps s (t.sendMgmt p body) := by
  unfold State.sendMgmt
  exact .linkSend h

theorem Keeps.sendToken {s t : State} {p tok : Nat} (h : Keeps s t) : Keeps s (t.sendToken p tok) := by
  unfold State.sendToken
  exact .linkSend h

theorem Keeps.xevtDrop {s t : State} {f : Field} {p : Nat} (h : Keeps s t) : Keeps s (t.xevtDrop f p) := by
  unfold State.xevtDrop
  exact .cause (.bump h)

theorem Keeps.sendXevt {s t : State} {src : Nat} {ev : Word64} (h : Keeps s t) : Keeps s (t.sendXevt src ev) := by
  unfold State.sendXevt
  extract_lets +onlyGivenNames _
  split
  · exact .rtDrop h
  · exact .ite _ (.xevtDrop h) (.ite _ (.xevtDrop h) (.cross h (fun _ hk => .linkSend hk)))

theorem Keeps.sendTokens {s t : State} {v : Nat} (h : Keeps s t) : Keeps s (t.sendTokens v) := by
  unfold State.sendTokens
  exact .fold (fun _ _ hk => .sendToken hk) h

theorem Keeps.landingOut {s t : State} {c : Nat} (h : Keeps s t) : Keeps s (t.landingOut c) := by
  unfold State.landingOut
  exact .fold (fun _ _ hk => .fold (fun _ _ hk2 => .sendEvent hk2) (.modPort hk)) h

/-! The meanings of Machine/Access. -/

theorem Keeps.reply {s t : State} {target smod ep tag : Nat} {ack free : Bool} {status : Nat} {data : List Byte} {line : Option (Nat × Nat)} (h :
    Keeps s t) : Keeps s (t.reply target smod ep tag ack free status data line) := by
  unfold State.reply
  exact .ite _ (.ite _ (.modNet h) (.inject h)) (by
    split
    · exact .releaseReply (.rtDrop h)
    · exact .ite _ (.modNet h) (.inject h))

theorem Keeps.closeComb {s t : State} {c : Comb} (h : Keeps s t) : Keeps s (t.closeComb c) := by
  unfold State.closeComb
  exact .fold (fun _ _ hk => .reply hk) (.fold (fun _ _ hk => .reply hk) (.modNet h))

theorem Keeps.closeFor {s t : State} {a size : Nat} (h : Keeps s t) : Keeps s (t.closeFor a size) := by
  unfold State.closeFor
  exact .fold (fun _ _ hk => .closeComb hk) h

theorem Keeps3.readLine {s t : State} {ep a len : Nat} (h : Keeps s t) : Keeps3 s (t.readLine ep a len) := by
  unfold State.readLine
  exact .ite _ (.mk (.mk h)) (by
    split
    · exact .mk (.mk (.unmapped h))
    · exact .mk (.mk h)
    · exact .ite _ (.mk (.mk (.unmapped h))) (.mk (.mk (.epDown h)))
    · exact .ite _ (.mk (.mk (.epDown h))) (.lineRead h)
    · exact .ite _ (.mk (.mk (.epDown h))) (.lineRead h)
    · exact .ite _ (.mk (.mk (.epDown h))) (.chanRead h))

theorem Keeps2.writeLine {s t : State} {ep a : Nat} {bs : List Byte} (h : Keeps s t) : Keeps2 s (t.writeLine ep a bs) := by
  unfold State.writeLine
  exact .ite _ (.mk h) (by
    split
    · exact .mk (.unmapped h)
    · exact .mk h
    · exact .ite _ (.mk (.unmapped h)) (.mk (.epDown h))
    · exact .ite _ (.mk (.epDown h)) (.lineWrite h)
    · exact .ite _ (.mk (.epDown h)) (.lineWrite (.closeFor h))
    · exact .ite _ (.mk (.epDown h)) (.chanWrite h))

theorem Keeps3.readAny {s t : State} {ep a len : Nat} (h : Keeps s t) : Keeps3 s (t.readAny ep a len) := by
  unfold State.readAny
  exact .fold (fun _ _ hk => .mk (.mk (.snd (.tail (.readLine (.snd (.tail hk))))))) (.mk (.mk h))

theorem Keeps2.writeAny {s t : State} {ep a : Nat} {bs : List Byte} (h : Keeps s t) : Keeps2 s (t.writeAny ep a bs) := by
  unfold State.writeAny
  exact .fold (fun _ _ hk => .mk (.snd (.writeLine (.snd hk)))) (.mk h)

/-! The meanings of Machine/Synapse. -/

theorem Keeps2.rowAt {s t : State} {unit n row : Nat} (h : Keeps s t) : Keeps2 s (t.rowAt unit n row) := by
  unfold State.rowAt
  exact .ite _ (.mk h) (by
    extract_lets +onlyGivenNames _
    split
    · exact .mk (.snd (.engineRead h))
    · exact .ite _ (.mk (.snd (.engineRead h))) (.ite _ (.mk (.snd (.engineRead h))) (by
        extract_lets +onlyGivenNames _
        split <;> exact .mk (.snd (.engineRead (.snd (.engineRead h)))))))

theorem Keeps.mirrorLock {s t : State} {n : Nat} {h' : Option Nat} {v : Bool} (h : Keeps s t) : Keeps s (t.mirrorLock n h' v) := by
  unfold State.mirrorLock
  split
  · exact h
  · exact .ite _ h (.portAWrite h)

theorem Keeps.takeRow {s t : State} {n h' : Nat} (h : Keeps s t) : Keeps s (t.takeRow n h') := by
  unfold State.takeRow
  exact .mirrorLock (.modEvt h)

theorem Keeps.freeRow {s t : State} {n h' : Nat} (h : Keeps s t) : Keeps s (t.freeRow n h') := by
  unfold State.freeRow
  exact .modEvt (.mirrorLock h)

theorem Keeps.traceUpdate {s t : State} {n : Nat} {r : Row} {evs : List (Nat × Nat)} (h : Keeps s t) : Keeps s (t.traceUpdate n r evs) := by
  unfold State.traceUpdate
  exact .ite _ h (by
    extract_lets +onlyGivenNames _
    split
    · exact .snd (.engineRead h)
    · exact .engineWrite (.snd (.engineRead h)))

theorem KeepsNext.actHlockReq {s t : State} {src : Source} {n : TileId} {row : BitVec 16} (h :
    Keeps s t) : KeepsNext s (actHlockReq src n row t) := by
  unfold Machine.actHlockReq
  exact .ite _ (.next h) (.ite _ (.next (.refuse h)) (.next (.put (.put (.put h)))))

theorem KeepsNext.execHlockGrant {s t : State} {n : TileId} (h : Keeps s t) : KeepsNext s (execHlockGrant n t) := by
  unfold Machine.execHlockGrant
  exact .ite _ (.next h) (.ite _ (.next h) (.next (.cause (.mirrorLock (.modEvt (.put (.put h)))))))

theorem Keeps.hlockFree {s t : State} {n : Nat} (h : Keeps s t) : Keeps s (t.hlockFree n) := by
  unfold State.hlockFree
  exact .ite _ h (.put (.mirrorLock (.modEvt h)))

theorem KeepsNext.actHlockRel {s t : State} {src : Source} {n : TileId} (h : Keeps s t) : KeepsNext s (actHlockRel src n t) := by
  unfold Machine.actHlockRel
  exact .ite _ (.next h) (.next (.hlockFree h))

/-! The meanings of Machine/Events. -/

theorem Keeps.dropEvt {s t : State} {n why : Nat} {ev : Word64} (h : Keeps s t) : Keeps s (t.dropEvt n why ev) := by
  unfold State.dropEvt
  exact .ite _ (.put (.put (.bump h))) (.causeErr (.put (.put (.bump h))))

theorem Keeps.arriveEvent {s t : State} {n : Nat} {ev : Word64} (h : Keeps s t) : Keeps s (t.arriveEvent n ev) := by
  unfold State.arriveEvent
  exact .ite _ (.dropEvt h) (.ite _ (.dropEvt h) (.ite _ (.dropEvt h) (.ite _ (.dropEvt h) (.put (.modEvt (.ite _ (.cause h) h))))))

theorem Keeps.flushFifo {s t : State} {n : Nat} (h : Keeps s t) : Keeps s (t.flushFifo n) := by
  unfold State.flushFifo
  exact .fold (fun _ _ hk => .dropEvt hk) (.modEvt h)

theorem Keeps.closeDelivery {s t : State} {n : Nat} (h : Keeps s t) : Keeps s (t.closeDelivery n) := by
  unfold State.closeDelivery
  exact .modEvt (.ite _ (.cause h) h)

theorem Keeps.accumulate {s t : State} {n ofs addend : Nat} {late : Bool} (h : Keeps s t) : Keeps s (t.accumulate n ofs addend late) := by
  unfold State.accumulate
  extract_lets +onlyGivenNames _ s1
  have h1 : Keeps s s1 := .ite _ (.bankSkip (.snd (.tail (.lineAtomic h)))) (.snd (.tail (.lineAtomic h)))
  exact .ite _ (.engineWrite h1) h1

theorem Keeps.applyEvent {s t : State} {n : Nat} {r : Row} {all : Nat} {es : List Nat} {ev : Word64} (h :
    Keeps s t) : Keeps s (t.applyEvent n r all es ev) := by
  unfold State.applyEvent
  exact .fold (fun _ _ hk => .ite _ (.cause (.bump hk)) (by
    split
    · exact hk
    · exact .add (.accumulate hk))) h

theorem Keeps2.applyRow {s t : State} {n : Nat} {r : Row} {grp : List Word64} (h : Keeps s t) : Keeps2 s (t.applyRow n r grp) := by
  unfold State.applyRow
  exact .mk (.snd (.fold (fun _ _ hk => (by
    split
    · exact hk
    · extract_lets +onlyGivenNames _ _
      split
      · exact .mk (.snd (.engineRead (.snd hk)))
      · exact .mk (.fold (fun _ _ hk2 => .applyEvent hk2) (.ite _ (.add (.bump (.snd (.engineRead (.snd hk))))) (.snd (.engineRead (.snd hk))))))) (.mk h)))

theorem Keeps.applyGroup {s t : State} {n row : Nat} {grp : List Word64} (h : Keeps s t) : Keeps s (t.applyGroup n row grp) := by
  unfold State.applyGroup
  exact .modEvt (by
    split
    · exact .fold (fun _ _ hk => .dropEvt hk) (.snd (.rowAt (.modEvt h)))
    · exact .snd (.rowAt (.modEvt h))
    · exact .causeErr (.put (.put (.add (.snd (.rowAt (.modEvt h))))))
    · exact .ite _ (.traceUpdate (.snd (.applyRow (.snd (.rowAt (.modEvt h)))))) (.snd (.applyRow (.snd (.rowAt (.modEvt h))))))

theorem Keeps.lockWait {s t : State} {n : Nat} (h : Keeps s t) : Keeps s (t.lockWait n) := by
  unfold State.lockWait
  exact .ite _ h (.modEvt (.bump h))

theorem Keeps.lockWaited {s t : State} {n cyc : Nat} (h : Keeps s t) : Keeps s (t.lockWaited n cyc) := by
  unfold State.lockWaited
  exact .put h

theorem Keeps.evctl {s t : State} {n op : Nat} (h : Keeps s t) : Keeps s (t.evctl n op) := by
  unfold State.evctl
  extract_lets +onlyGivenNames _
  split
  · exact .ite _ h (.put h)
  · exact .ite _ (.put h) h
  · exact .put h

theorem KeepsNext.execEvctlStart {s t : State} {n : TileId} (h : Keeps s t) : KeepsNext s (execEvctlStart n t) := by
  unfold Machine.execEvctlStart
  exact .slot h (fun _ hk => .evctl hk)

theorem KeepsNext.execEvctlDrain {s t : State} {n : TileId} (h : Keeps s t) : KeepsNext s (execEvctlDrain n t) := by
  unfold Machine.execEvctlDrain
  exact .slot h (fun _ hk => .evctl hk)

theorem KeepsNext.execEvctlStop {s t : State} {n : TileId} (h : Keeps s t) : KeepsNext s (execEvctlStop n t) := by
  unfold Machine.execEvctlStop
  exact .slot h (fun _ hk => .evctl hk)

theorem KeepsNext.execDrainComplete {s t : State} {n : TileId} (h : Keeps s t) : KeepsNext s (execDrainComplete n t) := by
  unfold Machine.execDrainComplete
  exact .ite _ (.next (.cause (.put h))) (.next h)

theorem KeepsNext.execEventGroup {s t : State} {n : TileId} {waited : Nat} (h : Keeps s t) : KeepsNext s (execEventGroup n waited t) := by
  unfold Machine.execEventGroup
  extract_lets +onlyGivenNames _
  split
  · exact .next h
  · exact .ite _ (.next h) <|
      .ite _ (.next (.dropEvt (.modEvt h))) <|
      .ite _ (.next h) <|
      .ite _ (.next (.lockWait h)) <|
      .next (.applyGroup (.ite _ (.add (.modEvt (.ite _ (.lockWaited h) h))) (.modEvt (.ite _ (.lockWaited h) h))))

theorem KeepsNext.execLockTimeout {s t : State} {n : TileId} (h : Keeps s t) : KeepsNext s (execLockTimeout n t) := by
  unfold Machine.execLockTimeout
  exact .ite _ (.next h) (.next (.causeErr (.add (.modEvt (.lockWaited h)))))

/-! The meanings of Machine/Learn. -/

theorem Keeps.setApply {s t : State} {n : Nat} {j : Option ApplyJob} (h : Keeps s t) : Keeps s (t.setApply n j) := by
  unfold State.setApply
  exact .modEvt h

theorem Keeps.learnCmd {s t : State} {n args : Nat} {inStep : Bool} (h : Keeps s t) : Keeps s (t.learnCmd n args inStep) := by
  unfold State.learnCmd
  exact .ite _ (.ite _ (.arrive (.causeErr (.bump h))) (.causeErr (.bump h))) (.put (.setApply (.snd (by
    split
    · exact .mk (.snd (.engineRead h))
    · exact .mk (.snd (.draw (.snd (.engineRead h))))))))

theorem Keeps.gatherPost {s t : State} {n : Nat} {j : ApplyJob} (h : Keeps s t) : Keeps s (t.gatherPost n j) := by
  unfold State.gatherPost
  exact .fold (fun _ _ hk => .fold (fun _ _ hk2 => .engineWrite (.snd (.tail (.fold (fun _ _ hk3 => (by
    split
    · exact hk3
    · extract_lets +onlyGivenNames _
      split <;> exact .mk (.mk (.snd (.engineRead (.snd (.tail hk3))))))) (.mk (.mk hk2)))))) hk) h

theorem KeepsRow.rowEntry {s : State} {n : Nat} {j : ApplyJob} {r : Row} {env : LearnEnv} {wgt : Bool} {p : RowPass} {i : Nat} (hp :
    KeepsRow s p) : KeepsRow s (rowEntry n j r env wgt p i) := by
  unfold State.rowEntry
  extract_lets +onlyGivenNames _ _
  split
  extract_lets +onlyGivenNames _ s3
  have h3 : Keeps s s3 := .snd (.ite _ (.rng (.st hp)) (.mk (.st hp)))
  exact .ite _ (.mk h3) (by
    extract_lets +onlyGivenNames rd
    have h2 : Keeps2 s rd := .engineRead h3
    split
    · exact .mk (.snd h2)
    · extract_lets +onlyGivenNames s1
      have h1 : Keeps s s1 := .snd h2
      exact .ite _ (.fold (fun _ _ hk => .mk (.st hk)) (.mk h1)) (by
        extract_lets +onlyGivenNames _ _ _ _
        split
        · exact .mk (.bump h1)
        · exact .mk (.ite _ (.cause (.bump h1)) h1)))

theorem Keeps.sendMove {s t : State} {n hofs back : Nat} {up : Bool} (h : Keeps s t) : Keeps s (t.sendMove n hofs back up) := by
  unfold State.sendMove
  exact .request (.put (.modEvt h))

theorem KeepsRow.rowPass {s t : State} {n : Nat} {j : ApplyJob} {r : Row} {wgt : Bool} {blk bs : List Byte} {m : Nat} (h :
    Keeps s t) : KeepsRow s (t.rowPass n j r wgt blk bs m) := by
  unfold State.rowPass
  extract_lets +onlyGivenNames _ p
  have h1 : KeepsRow s p := .fold (fun _ _ hk => .rowEntry hk) (.mk h)
  exact .ite _ (.mk (.engineWrite (.st h1))) h1

theorem Keeps2.sweepTarget {s t : State} {n : Nat} {j : ApplyJob} {row : Nat} (h : Keeps s t) : Keeps2 s (t.sweepTarget n j row) := by
  unfold State.sweepTarget
  extract_lets +onlyGivenNames _ _
  split
  · exact .mk (.put h)
  · exact .ite _ (.mk (.bump (.put h))) (.ite _ (.mk (.put h)) (by
      extract_lets +onlyGivenNames _
      split
      · exact .mk (.bump (.snd (.rowAt (.put h))))
      · exact .mk (.ite _ (.snd (.rowAt (.put h))) (.bump (.snd (.rowAt (.put h)))))
      · exact .mk (.snd (.rowAt (.put h)))
      · exact .ite _ (.mk (.snd (.rowAt (.put h)))) (by
          extract_lets +onlyGivenNames _ d
          have h1 : Keeps2 s d := .engineRead (.snd (.engineRead (.snd (.rowAt (.put h)))))
          split
          · exact .mk (.snd h1)
          · exact .mk (.bump (.snd h1)))))

theorem Keeps2.sweepRow {s t : State} {n : Nat} {j : ApplyJob} {row : Nat} (h : Keeps s t) : Keeps2 s (t.sweepRow n j row) := by
  unfold State.sweepRow
  extract_lets +onlyGivenNames _
  split
  · exact .mk (.snd (.sweepTarget h))
  · extract_lets +onlyGivenNames _ s2 _ s1
    have h2 : Keeps s s2 := .freeRow (.st (.rowPass (.takeRow (.snd (.sweepTarget h)))))
    have h1 : Keeps s s1 := .bump (.ite _ (.causeErr (.put h2)) h2)
    exact .mk (.ite _ (.ite _ (.sendMove h1) (.ite _ (.sendMove h1) h1)) h1)

theorem Keeps.sweepCut {s t : State} {n : Nat} (h : Keeps s t) : Keeps s (t.sweepCut n) := by
  unfold State.sweepCut
  split
  · exact h
  · exact .ite _ h (by
      extract_lets +onlyGivenNames _ _
      split
      · exact .snd (.draw h)
      · exact .ite _ (.snd (.draw h)) (.freeRow (.st (.rowPass (.takeRow (.snd (.sweepTarget (.snd (.draw h)))))))))

theorem Keeps.learnOff {s t : State} {n : Nat} (h : Keeps s t) : Keeps s (t.learnOff n) := by
  unfold State.learnOff
  split
  · exact h
  · exact .ite _ (.arrive (.put (.put (.setApply h)))) (.put (.put (.setApply h)))

theorem KeepsNext.execLearn {s t : State} {n : TileId} {args : BitVec 24} (h : Keeps s t) : KeepsNext s (execLearn n args t) := by
  unfold Machine.execLearn
  exact .slot h (fun _ hk => .ite _ (.illegalOp hk) (.learnCmd hk))

theorem KeepsNext.actLearnCmdGo {s t : State} {src : Source} {n : TileId} {args : BitVec 24} (h :
    Keeps s t) : KeepsNext s (actLearnCmdGo src n args t) := by
  unfold Machine.actLearnCmdGo
  exact .ite _ (.next h) (.next (.learnCmd (.put h)))

theorem KeepsNext.execGatherEnd {s t : State} {n : TileId} (h : Keeps s t) : KeepsNext s (execGatherEnd n t) := by
  unfold Machine.execGatherEnd
  split
  · exact .next h
  · exact .ite _ (.next h) (.ite _ (.next (.cause (.put (.setApply (.gatherPost h))))) (.next (.setApply (.gatherPost h))))

theorem KeepsNext.execRowUpdate {s t : State} {n : TileId} {waited : Option Nat} (h :
    Keeps s t) : KeepsNext s (execRowUpdate n waited t) := by
  unfold Machine.execRowUpdate
  split
  · exact .next h
  · exact .ite _ (.next h) (.next (.setApply (by
      split
      · exact .ite _ (.lockWaited (.bump (.snd (.sweepRow h)))) (.snd (.sweepRow h))
      · exact .snd (.sweepRow h))))

theorem KeepsNext.execDelayMoveComplete {s t : State} {n : TileId} (h : Keeps s t) : KeepsNext s (execDelayMoveComplete n t) := by
  unfold Machine.execDelayMoveComplete
  extract_lets +onlyGivenNames _
  split
  · exact .next h
  · extract_lets +onlyGivenNames _ _
    split
    · exact .next (.ite _ (.put (.modEvt h)) (.modEvt h))
    · exact .ite _ (.next (.cause (.bump (.ite _ (.put (.modEvt h)) (.modEvt h))))) (by
        extract_lets +onlyGivenNames _ _ _ s1
        have h1 : Keeps s s1 := .engineWrite (.ite _ (.put (.modEvt h)) (.modEvt h))
        exact .ite _ (.next h1) (.next (.bump h1)))

theorem KeepsNext.execApplyFinish {s t : State} {n : TileId} (h : Keeps s t) : KeepsNext s (execApplyFinish n t) := by
  unfold Machine.execApplyFinish
  split
  · exact .next h
  · exact .ite _ (.next h) (by
      extract_lets +onlyGivenNames _ _ s1
      have h1 : Keeps s s1 := .cause (.put (.put (.put (.setApply h))))
      exact .next (.ite _ (.arrive h1) h1))

theorem KeepsNext.actLearnCtrlDone {s t : State} {src : Source} {n : TileId} (h : Keeps s t) : KeepsNext s (actLearnCtrlDone src n t) := by
  unfold Machine.actLearnCtrlDone
  extract_lets +onlyGivenNames _
  split
  · exact .next h
  · exact .ite _ (.next h) (.next (.put (.setApply h)))

/-! The meanings of Machine/Egress. -/

theorem Keeps.takeSlot {s t : State} {n : Nat} (h : Keeps s t) : Keeps s (t.takeSlot n) := by
  unfold State.takeSlot
  exact .modEvt h

theorem Keeps.deliverTile {s t : State} {n : Nat} (h : Keeps s t) : Keeps s (t.deliverTile n) := by
  unfold State.deliverTile
  exact .ite _ (.modEvt h) (.modEvt (.takeSlot h))

theorem Keeps.discardWork {s t : State} {n : Nat} {l : List Work} (h : Keeps s t) : Keeps s (t.discardWork n l) := by
  unfold State.discardWork
  exact .fold (fun _ _ hk => .cause (.bump hk)) h

theorem Keeps.closeEgress {s t : State} {n : Nat} (h : Keeps s t) : Keeps s (t.closeEgress n) := by
  unfold State.closeEgress
  extract_lets +onlyGivenNames _ _ _ _ _ s1
  have h1 : Keeps s s1 := .discardWork (.modEvt (.ite _ (.takeSlot h) h))
  exact .ite _ h1 (.ite _ (.cause (.put (.modEvt h1))) (.ite _ (.discardWork h1) (.modEvt h1)))

theorem Keeps.badEntry {s t : State} {n why space ofs : Nat} (h : Keeps s t) : Keeps s (t.badEntry n why space ofs) := by
  unfold State.badEntry
  exact .cause (.put (.put (.put (.bump h))))

theorem Keeps.emitEvent {s t : State} {n : Nat} {ev : Word64} (h : Keeps s t) : Keeps s (t.emitEvent n ev) := by
  unfold State.emitEvent
  exact .ite _ (.sendXevt (.bump h)) (.ite _ (.sendEvent (.bump h)) (.ite _ (.cause (.bump (.bump h))) (.put (.modEvt (.bump h)))))

theorem Keeps.setWork {s t : State} {n : Nat} {l : List Work} (h : Keeps s t) : Keeps s (t.setWork n l) := by
  unfold State.setWork
  exact .modEvt h

theorem Keeps.walkList {s t : State} {n sp base i w k : Nat} {late ag : Bool} {rest : List Work} (h :
    Keeps s t) : Keeps s (t.walkList n sp base i w k late ag rest) := by
  unfold State.walkList
  exact .ite _ (.badEntry (.setWork h)) (.guard h (fun _ hk => (by
    extract_lets +onlyGivenNames _ s2
    have h2 : Keeps s s2 := .snd (.tail (.ite _ (.lineRead hk) (.readLine hk)))
    exact .ite _ (.setWork h2) (by
      extract_lets +onlyGivenNames _ _ _ _ s1
      have h1 : Keeps s s1 := .ite _ h2 (.ite _ (.badEntry h2) (.ite _ (.badEntry h2) (.emitEvent h2)))
      exact .ite _ (.setWork h1) (.ite _ (.badEntry (.setWork h1)) (.setWork h1))))))

theorem Keeps.walk {s t : State} {n : Nat} (h : Keeps s t) : Keeps s (t.walk n) := by
  unfold State.walk
  split
  · exact h
  · exact .sendEvent (.setWork h)
  · exact .walkList h
  · exact .ite _ (.setWork h) <|
      .ite _ (.setWork (.snd (.tail (.lineRead h)))) <|
      .ite _ (.setWork (.snd (.tail (.lineRead h)))) <|
      .ite _ (.badEntry (.setWork (.snd (.tail (.lineRead h))))) (.walkList (.snd (.tail (.lineRead h))))

theorem Keeps.endHold {s t : State} {n : Nat} {deferIt : Bool} (h : Keeps s t) : Keeps s (t.endHold n deferIt) := by
  unfold State.endHold
  exact .ite _ h (by
    extract_lets +onlyGivenNames _ _ s1
    have h1 : Keeps s s1 := .ite _ (.modEvt (.put (.modEvt h))) (.discardWork (.put (.modEvt h)))
    exact .ite _ (.deliverTile h1) h1)

theorem KeepsNext.execWalkEntry {s t : State} {n : TileId} (h : Keeps s t) : KeepsNext s (execWalkEntry n t) := by
  unfold Machine.execWalkEntry
  exact .ite _ (.next (.walk h)) (.next h)

theorem KeepsNext.actDefer {s t : State} {src : Source} {n : TileId} (h : Keeps s t) : KeepsNext s (actDefer src n t) := by
  unfold Machine.actDefer
  exact .next (.ite _ (.endHold h) h)

theorem KeepsNext.actDrop {s t : State} {src : Source} {n : TileId} (h : Keeps s t) : KeepsNext s (actDrop src n t) := by
  unfold Machine.actDrop
  exact .next (.ite _ (.endHold h) h)

/-! The meanings of Machine/StepCtl. -/

theorem Keeps.modStep {s t : State} {f : StepS → StepS} (h : Keeps s t) : Keeps s (t.modStep f) := by
  unfold State.modStep
  exact .frame h

theorem Keeps.setPhase {s t : State} {p : Nat} (h : Keeps s t) : Keeps s (t.setPhase p) := by
  unfold State.setPhase
  exact .put h

theorem Keeps.modCtx {s t : State} {c : Nat} {f : CtxS → CtxS} (h : Keeps s t) : Keeps s (t.modCtx c f) := .ctx h (risingFrom_setAt _ _ _)

theorem Keeps.ctxCount {s t : State} {f : Field} {c n : Nat} (h : Keeps s t) : Keeps s (t.ctxCount f c n) := by
  unfold State.ctxCount
  exact .ite _ (.add h) (.cause (.put (.add h)))

theorem Keeps.freeSlot {s t : State} {c : Nat} (h : Keeps s t) : Keeps s (t.freeSlot c) := by
  unfold State.freeSlot
  exact .put (.modCtx h)

theorem Keeps.freeStaleOf {s t : State} {c : Nat} (h : Keeps s t) : Keeps s (t.freeStaleOf c) := by
  unfold State.freeStaleOf
  exact .snd (.fold (fun _ _ hk => .ite _ (.mk (.ctxCount (.freeSlot (.snd hk)))) (.mk (.snd hk))) (.mk h))

theorem Keeps.freeStale {s t : State} (h : Keeps s t) : Keeps s (t.freeStale) := by
  unfold State.freeStale
  exact .fold (fun _ _ hk => .freeStaleOf hk) h

theorem Keeps.sendPhase {s t : State} {p : Nat} (h : Keeps s t) : Keeps s (t.sendPhase p) := by
  unfold State.sendPhase
  exact .modStep (.setPhase h)

theorem Keeps.openIngest {s t : State} (h : Keeps s t) : Keeps s (t.openIngest) := by
  unfold State.openIngest
  exact .freeStale (.fold (fun _ _ hk => .modCtx hk) h)

theorem Keeps.startStep {s t : State} {learn : Bool} (h : Keeps s t) : Keeps s (t.startStep learn) := by
  unfold State.startStep
  exact .sendPhase (.openIngest (.modStep (.modStep (.ite _ (.cause (.bump h)) h))))

theorem Keeps.tryStart {s t : State} (h : Keeps s t) : Keeps s (t.tryStart) := by
  unfold State.tryStart
  exact .ite _ h (by
    split
    · exact h
    · exact .ite _ h (.ite _ (.causeErr (.reason (.modStep (.put h)))) (.ite _ (.modStep h) (.startStep h))))

theorem Keeps.handoverDone {s t : State} {sender : Bool} (h : Keeps s t) : Keeps s (t.handoverDone sender) := by
  unfold State.handoverDone
  exact .cause (.put (.modTwin (.ite _ h (.setRole h))))

theorem Keeps.closeStep {s t : State} (h : Keeps s t) : Keeps s (t.closeStep) := by
  unfold State.closeStep
  extract_lets +onlyGivenNames _ _ _ _ s2 s1
  have h2 : Keeps s s2 := .sendTokens (.cause (.modTwin (.modStep (.setPhase (.put (.put (.fold (fun _ _ hk => .modEvt hk) h)))))))
  have h1 : Keeps s s1 := .ite _ (.retune h2) h2
  exact .tryStart (by
    split
    · exact .ite _ (.handoverDone h1) h1
    · exact h1)

theorem Keeps.stepAdvance {s t : State} (h : Keeps s t) : Keeps s (t.stepAdvance) := by
  unfold State.stepAdvance
  exact .ite _ h (by
    extract_lets +onlyGivenNames _
    split
    · exact .sendPhase (.setBarDone h)
    · exact .sendPhase (.setBarDone h)
    · exact .ite _ h (.closeStep (.setBarDone h)))

theorem Keeps.closeDeliver {s t : State} (h : Keeps s t) : Keeps s (t.closeDeliver) := by
  unfold State.closeDeliver
  exact .sendPhase (.fold (fun _ _ hk => .closeEgress (.closeDelivery hk)) (.put (.put h)))

theorem Keeps.enterTile {s t : State} {n : Nat} (h : Keeps s t) : Keeps s (t.enterTile n) := by
  unfold State.enterTile
  extract_lets +onlyGivenNames p _
  clear_value p
  split
  · exact .modEvt (.modEvt h)
  · exact .deliverTile (.modEvt h)
  · exact .modEvt (.modEvt h)
  · exact .learnCmd (.modEvt h)
  · extract_lets +onlyGivenNames s1
    have h1 : Keeps s s1 := .fold (fun _ _ hk => .roReport hk) (.modEvt h)
    exact .ite _ (.arrive h1) h1

theorem Keeps.stepOne {s t : State} {learn : Bool} (h : Keeps s t) : Keeps s (t.stepOne learn) := by
  unfold State.stepOne
  exact .ite _ h (.ite _ (.cause (.bump h)) (.tryStart (.modStep h)))

theorem Keeps.stepRun {s t : State} (h : Keeps s t) : Keeps s (t.stepRun) := by
  unfold State.stepRun
  exact .ite _ h (.ite _ h (.tryStart (.modStep (.put h))))

theorem Keeps.periodWrite {s t : State} (h : Keeps s t) : Keeps s (t.periodWrite) := by
  unfold State.periodWrite
  exact .modStep h

theorem Keeps.stepHalt {s t : State} (h : Keeps s t) : Keeps s (t.stepHalt) := by
  unfold State.stepHalt
  exact .put h

theorem Keeps.stepOff {s t : State} (h : Keeps s t) : Keeps s (t.stepOff) := by
  unfold State.stepOff
  exact .modStep (.put (.ite _ (.stepAbandon h) h))

theorem KeepsNext.actOne {s t : State} (h : Keeps s t) : KeepsNext s (actOne t) := by
  unfold Machine.actOne
  exact .next (.stepOne h)

theorem KeepsNext.actOneLearn {s t : State} (h : Keeps s t) : KeepsNext s (actOneLearn t) := by
  unfold Machine.actOneLearn
  exact .next (.stepOne h)

theorem KeepsNext.actRun {s t : State} (h : Keeps s t) : KeepsNext s (actRun t) := by
  unfold Machine.actRun
  exact .next (.stepRun h)

theorem KeepsNext.actHalt {s t : State} (h : Keeps s t) : KeepsNext s (actHalt t) := by
  unfold Machine.actHalt
  exact .next (.stepHalt h)

theorem KeepsNext.execStepBoundary {s t : State} (h : Keeps s t) : KeepsNext s (execStepBoundary t) := by
  unfold Machine.execStepBoundary
  exact .ite _ (.next (.tryStart (.modStep h))) (.next h)

theorem KeepsNext.execPhaseEnter {s t : State} {n : TileId} (h : Keeps s t) : KeepsNext s (execPhaseEnter n t) := by
  unfold Machine.execPhaseEnter
  exact .ite _ (.next h) (.ite _ (.next (.closeDeliver (.enterTile (.modStep h)))) (.next (.stepAdvance (.enterTile (.modStep h)))))

theorem KeepsNext.execReadoutCopyEnd {s t : State} {n : TileId} (h : Keeps s t) : KeepsNext s (execReadoutCopyEnd n t) := by
  unfold Machine.execReadoutCopyEnd
  split
  · exact .next h
  · exact .next (.ite _ (.arrive (.cause (.put (.modEvt (.engineWrite h))))) (.cause (.put (.modEvt (.engineWrite h)))))

theorem KeepsNext.execDrainClose {s t : State} (h : Keeps s t) : KeepsNext s (execDrainClose t) := by
  unfold Machine.execDrainClose
  exact .ite _ (.next h) <|
    .ite _ (.ite _ (.next h) (.next (.landingOut (.freeStale (.sendPhase h))))) (.ite _ (.next (.closeDeliver h)) (.next h))

theorem KeepsNext.execNeuronSweepEnd {s t : State} {n : TileId} (h : Keeps s t) : KeepsNext s (execNeuronSweepEnd n t) := by
  unfold Machine.execNeuronSweepEnd
  split
  · exact .next h
  · exact .ite _ (.next h) (.next (.arrive (.modEvt (.put (.snd (.sweepAll h))))))

theorem KeepsNext.execBarrierComplete {s t : State} {g : Fin 64} (h : Keeps s t) : KeepsNext s (execBarrierComplete g t) := by
  unfold Machine.execBarrierComplete
  exact .ite _ (.next h) (by
    extract_lets +onlyGivenNames _ s1
    have h1 : Keeps s s1 := .fold (fun _ _ hk => .fold (fun _ _ hk2 => .ite _ (.sendMgmt hk2) hk2) hk) (.setBarDone (.frame h))
    exact .next (.ite _ (.stepAdvance h1) h1))

theorem KeepsNext.execStretch {s t : State} (h : Keeps s t) : KeepsNext s (execStretch t) := by
  unfold Machine.execStretch
  exact .ite _ (.next (.cause (.bump (.put h)))) (.next h)

theorem KeepsNext.execLateStep {s t : State} (h : Keeps s t) : KeepsNext s (execLateStep t) := by
  unfold Machine.execLateStep
  exact .ite _ (.next h) (.ite _ (.next (.cause (.put h))) (.ite _ (.next (.closeDeliver (.bump h))) (.next (.modStep (.bump h)))))

theorem KeepsNext.actClose {s t : State} {src : Source} (h : Keeps s t) : KeepsNext s (actClose src t) := by
  unfold Machine.actClose
  exact .ite _ (.next h) (.ite _ (.next (.closeDeliver (.bump h))) (.next (.modStep (.put (.bump h)))))

theorem KeepsNext.actExtend {s t : State} {src : Source} (h : Keeps s t) : KeepsNext s (actExtend src t) := by
  unfold Machine.actExtend
  exact .ite _ (.next h) (.next (.put h))

/-! The meanings of Machine/Fabric. -/

theorem Keeps2.undefRes {s t : State} {ws : List Nat} {t' : Tracked} (h : Keeps s t) : Keeps2 s (t.undefRes ws t') := by
  unfold State.undefRes
  split
  · exact .mk h
  · split
    · exact .mk (.snd (.draw h))
    · exact .mk (.snd (.fold (fun _ _ hk => .ite _ (.mk (.snd (.draw (.snd hk)))) (.mk (.snd hk))) (.mk h)))
    · exact .mk h

theorem Keeps.undefRead {s t : State} {a : PortA} {ws : List Nat} (h : Keeps s t) : Keeps s (t.undefRead a ws) := by
  unfold State.undefRead
  extract_lets +onlyGivenNames _ _
  split
  · exact .modTile h (fun _ c => c)
  · split
    · exact h
    · exact .modTile (.snd (.undefRes h)) (fun _ c => c)

theorem Keeps.collide {s t : State} {n kind : Nat} {ws : List Nat} {a : PortA} (h : Keeps s t) : Keeps s (t.collide n kind ws a) := by
  unfold State.collide
  exact .ite _ (.undefRead (.cause (.put (.put (.bump h))))) (.cause (.put (.put (.bump h))))

theorem Keeps3.lineAt {s t : State} {n kind : Nat} {coll : List PortA} {a len : Nat} {f : State → Nat × List Byte × State} (h :
    Keeps s t) (hf : ∀ u, Keeps s u → Keeps3 s (f u)) : Keeps3 s (t.lineAt n kind coll a len f) := by
  unfold State.lineAt
  extract_lets +onlyGivenNames _
  split
  · exact .mk (.mk (.collide h))
  · exact hf _ h

theorem Keeps3.serveMem {s t : State} {op src a size : Nat} {data : List Byte} {coll : List PortA} (h :
    Keeps s t) : Keeps3 s (t.serveMem op src a size data coll) := by
  unfold State.serveMem
  split
  · exact .mk (.mk (.unmapped h))
  · exact .mk (.mk h)
  · exact .ite _ (.mk (.mk (.unmapped h))) (.mk (.mk (.epDown h)))
  · exact .ite _ (.mk (.mk (.epDown h))) <|
      .ite _ (.mk (.mk (.unmapped h))) <|
      .ite _ (.fold (fun _ _ hk => .mk (.mk (.snd (.tail (.lineAt (.snd (.tail hk)) (fun _ hk2 => .lineRead hk2)))))) (.mk (.mk h))) <|
      .ite _
        (.fold (fun _ _ hk => .mk (.mk (.snd (.tail (.lineAt (.snd (.tail hk)) (fun _ hk2 => .mk (.mk (.snd (.lineWrite hk2))))))))) <|
          .mk (.mk h)) <|
      .lineAt h (fun _ hk => .mk (.mk (.snd (.tail (.lineAtomic hk)))))
  · exact .ite _ (.mk (.mk (.epDown h))) <|
      .ite _ (.mk (.mk (.unmapped h))) <|
      .ite _ (.readAny h) (.ite _ (.mk (.mk (.snd (.writeAny h)))) (.mk (.mk (.snd (.tail (.lineAtomic h))))))
  · exact .ite _ (.mk (.mk (.epDown h))) <|
      .ite _ (.mk (.mk (.unmapped h))) <|
      .ite _ (.chanRead h) (.ite _ (.mk (.mk (.snd (.chanWrite h)))) (.mk (.mk (.snd (.tail (.chanAtomic h))))))

theorem Keeps2.combRead {s t : State} {smod ep tag cls a : Nat} (h : Keeps s t) : Keeps2 s (t.combRead smod ep tag cls a) := by
  unfold State.combRead
  split
  · split
    · exact .mk (.bump (.modNet h))
    · exact .ite _ (.mk (.bump (.snd (.tail (.serveMem h))))) <|
        .ite _ (.mk (.snd (.tail (.serveMem h)))) (.mk (.modNet (.snd (.tail (.serveMem h)))))
  · exact .mk h

theorem Keeps2.performMem {s t : State} {op smod ep tag cls a size : Nat} {data : List Byte} {coll : List PortA} (h :
    Keeps s t) : Keeps2 s (t.performMem op smod ep tag cls a size data coll) := by
  unfold State.performMem
  exact .ite _ (.combRead h) (.mk (.snd (.tail (.serveMem (.ite _ (.closeFor h) h)))))

theorem Keeps.clearGot {s t : State} {src dst : Nat} {ep : Bool} (h : Keeps s t) : Keeps s (t.clearGot src dst ep) := by
  unfold State.clearGot
  exact .modNet h

theorem Keeps.lateRsp {s t : State} (h : Keeps s t) : Keeps s (t.lateRsp) := by
  unfold State.lateRsp
  exact .fabCause (.bump h)

theorem Keeps.fenceArrives {s t : State} {f : FenceRec} (h : Keeps s t) : Keeps s (t.fenceArrives f) := by
  unfold State.fenceArrives
  exact .modNet h

theorem Keeps.collErr {s t : State} {why g o : Nat} (h : Keeps s t) : Keeps s (t.collErr why g o) := by
  unfold State.collErr
  exact .fabCause (.put (.put (.put (.bump h))))

theorem Keeps2.redAt {s t : State} {sw g o port expect op : Nat} {line : List Byte} (h :
    Keeps s t) : Keeps2 s (t.redAt sw g o port expect op line) := by
  unfold State.redAt
  extract_lets +onlyGivenNames _ _ _ _ _
  split
  · exact .ite _ (.mk (.collErr h)) (.ite _ (.mk (.collErr h)) (.ite _ (.mk (.modNet h)) (.mk (.modNet h))))
  · split
    · exact .ite _ (.ite _ (.mk (.modNet h)) (.mk (.modNet h))) (.mk (.collErr h))
    · exact .ite _ (.mk (.modNet h)) (.mk (.modNet h))

theorem Keeps.dropGroup {s t : State} {g : Nat} (h : Keeps s t) : Keeps s (t.dropGroup g) := by
  unfold State.dropGroup
  exact .fold (fun _ _ hk => .collErr hk) (.modNet h)

theorem Keeps.scaleGroup {s t : State} (h : Keeps s t) : Keeps s (t.scaleGroup) := by
  unfold State.scaleGroup
  exact .put (.put (.put (.put (.put (.put (.fold (fun _ _ hk => .put hk) h))))))

theorem Keeps.scaleGroupFree {s t : State} (h : Keeps s t) : Keeps s (t.scaleGroupFree) := by
  unfold State.scaleGroupFree
  exact .dropGroup (.put h)

theorem Keeps.collOut {s t : State} {p g o : Nat} {line : List Byte} (h : Keeps s t) : Keeps s (t.collOut p g o line) := by
  unfold State.collOut
  split
  · exact .xevtDrop h
  · exact .modPort h
  · exact .linkSend (.modPort h)

theorem Keeps.redOver {s t : State} {r : Nat × Nat × Nat × Nat} {st : Nat} (h : Keeps s t) : Keeps s (t.redOver r st) := by
  unfold State.redOver
  exact .modTile (.modNet h) (fun _ c => c)

theorem Keeps.redResult {s t : State} {g o : Nat} {line : List Byte} {e : Nat} (h : Keeps s t) : Keeps s (t.redResult g o line e) := by
  unfold State.redResult
  exact .ite _ (.epDown h) (by
    split
    · extract_lets +onlyGivenNames s1
      have h1 : Keeps s s1 := .ite _ (.snd (.writeLine h)) (.unmapped h)
      split
      · exact .redOver h1
      · exact h1
    · exact .ite _ (.snd (.writeLine h)) (.unmapped h)
    · exact .snd (.writeLine h)
    · exact .collOut h
    · exact h)

theorem Keeps.postReply {s t : State} {tile : Nat} {key : Option Nat} {word : Nat} (h :
    Keeps s t) : Keeps s (t.postReply tile key word) := by
  unfold State.postReply
  split
  · exact h
  · exact .modTile h (fun _ c => c)

theorem KeepsNext.execCombineWindowClose {s t : State} {addr : Addr} {cls : Fin 8} (h :
    Keeps s t) : KeepsNext s (execCombineWindowClose addr cls t) := by
  unfold Machine.execCombineWindowClose
  split
  · exact .next h
  · exact .next (.closeComb h)

theorem KeepsNext.execEvt {s t : State} {src dst : Ep} {evs : List Word64} {luck : Luck} (h :
    Keeps s t) : KeepsNext s (execEvt src dst evs luck t) := by
  unfold Machine.execEvt
  exact .ite _ (.next h) (.next (.cross h (fun _ hk => .ite _ (.badPacket (.modNet (.modNet hk))) (.ite _ (.crcDrops (.modNet (.modNet hk))) (.ite _ (.epDown (.modNet (.modNet hk))) (.fold (fun _ _ hk2 => (by
    split
    · split
      · exact .fenceArrives hk2
      · exact hk2
    · extract_lets +onlyGivenNames _
      split
      · exact .arriveEvent (.countGot hk2)
      · exact .countGot hk2)) (.modNet hk)))))))

theorem Keeps.fenceLost {s t : State} {f : FenceRec} (h : Keeps s t) : Keeps s (t.fenceLost f) := by
  unfold State.fenceLost
  exact .modNet h

theorem Keeps.fncArrives {s t : State} {f : FenceRec} {luck : Luck} (h : Keeps s t) : Keeps s (t.fncArrives f luck) := by
  unfold State.fncArrives
  exact .cross h (fun _ hk => .ite _ (.badPacket (.fenceLost hk)) (.ite _ (.crcDrops (.fenceLost hk)) (.ite _ (by
    extract_lets +onlyGivenNames _
    split
    · exact .reply (.epDown (.fenceLost hk))
    · exact .modNet (.epDown (.fenceLost hk))) (.fenceArrives hk))))

theorem Keeps.fncCopies {s t : State} {src : Nat} {eps : List Nat} {luck : Luck} (h : Keeps s t) : Keeps s (t.fncCopies src eps luck) := by
  unfold State.fncCopies
  exact .ite _ h (.ite _ (.badPacket h) (.fold (fun _ _ hk => .ite _ hk (.epDown hk)) (.snd (.copies h))))

theorem KeepsNext.execFnc {s t : State} {src : Ep} {dst : FncTo} {luck : Luck} (h : Keeps s t) : KeepsNext s (execFnc src dst luck t) := by
  unfold Machine.execFnc
  split
  · exact .next (.fncCopies h)
  · split
    · exact .next h
    · exact .next (.fncArrives h)

theorem KeepsNext.execFenceDeliver {s t : State} {src : Ep} {dst : Dst} (h : Keeps s t) : KeepsNext s (execFenceDeliver src dst t) := by
  unfold Machine.execFenceDeliver
  split
  · exact .next h
  · exact .ite _ (by
      split
      · exact .next (.modNet (.arriveEvent (.clearGot (.modNet h))))
      · exact .next (.modNet (.clearGot (.modNet h)))) (by
      split
      · exact .next (.linkSend (.clearGot (.modNet h)))
      · exact .next (.modNet (.clearGot (.modNet h))))

theorem KeepsNext.execFenceTimeout {s t : State} {src : Ep} {dst : Dst} (h : Keeps s t) : KeepsNext s (execFenceTimeout src dst t) := by
  unfold Machine.execFenceTimeout
  split
  · exact .next h
  · exact .ite _ (.next h) (.next (.fabCause (.bump (.clearGot (.modNet h)))))

theorem Keeps.redLeaf {s t : State} {n g o : Nat} {line : List Byte} {luck : Luck} (h :
    Keeps s t) : Keeps s (t.redLeaf n g o line luck) := by
  unfold State.redLeaf
  refine .ite _ h ?_
  extract_lets +onlyGivenNames _ s1 bad
  have h1 : Keeps s s1 := .ite _ (.modNet (.track h)) h
  clear_value s1 bad
  refine .ite _ (.badPacket h1) (.ite _ (.crcDrops h1) (.ite _ (.scaleArrive h1) (.ite _ (.collErr h1) ?_)))
  extract_lets +onlyGivenNames _ _
  split
  · exact .snd (.redAt h1)
  · exact .modNet (.snd (.redAt h1))

theorem Keeps.redSpine {s t : State} {p : Nat × Nat × Nat × List Byte} {luck : Luck} (h : Keeps s t) : Keeps s (t.redSpine p luck) := by
  unfold State.redSpine
  exact .cross h (fun _ hk => .ite _ (.badPacket (.modNet hk)) (.ite _ (.crcDrops (.modNet hk)) (.ite _ (.collErr (.modNet hk)) (by
    extract_lets +onlyGivenNames _
    split
    · exact .snd (.redAt (.modNet hk))
    · exact .modNet (.snd (.redAt (.modNet hk)))))))

theorem Keeps.redOut {s t : State} {r : RedResult} {luck : Luck} (h : Keeps s t) : Keeps s (t.redOut r luck) := by
  unfold State.redOut
  exact .ite _ h (by
    extract_lets +onlyGivenNames _ _ _ s1
    have h1 : Keeps s s1 := .ite _ (.cuffLeave (.modNet h)) (.cuffHold (.modNet h))
    exact .ite _ (.badPacket h1) (.fold (fun _ _ hk => .redResult hk) (.snd (.copies h1))))

theorem KeepsNext.execRed {s t : State} {from_ : RedFrom} {g : Fin 64} {o : Carried (BitVec 16) Luck} (h :
    Keeps s t) : KeepsNext s (execRed from_ g o t) := by
  unfold Machine.execRed
  split
  · exact .next (.redLeaf h)
  · split
    · exact .next h
    · exact .next (.redSpine h)

theorem KeepsNext.execRedres {s t : State} {g : Fin 64} {o : Carried (BitVec 16) Luck} (h :
    Keeps s t) : KeepsNext s (execRedres g o t) := by
  unfold Machine.execRedres
  split
  · exact .next h
  · exact .next (.redOut h)

theorem KeepsNext.execReductionTimeout {s t : State} {sw : Fin 36} {g : Fin 64} {o : BitVec 16} (h :
    Keeps s t) : KeepsNext s (execReductionTimeout sw g o t) := by
  unfold Machine.execReductionTimeout
  split
  · exact .next h
  · exact .ite _ (.next h) (.next (.collErr (.modNet h)))

theorem KeepsNext.execProbe {s t : State} {cls : Fin 8} {luck : Luck} (h : Keeps s t) : KeepsNext s (execProbe cls luck t) := by
  unfold Machine.execProbe
  exact .ite _ (.next h) (.ite _ (.next (.badPacket h)) (.next (.crcDrops h)))

theorem KeepsNext.execCuffVoteWithdraw {s t : State} {half : Fin 2} (h : Keeps s t) : KeepsNext s (execCuffVoteWithdraw half t) := by
  unfold Machine.execCuffVoteWithdraw
  exact .ite _ (.next h) (.next (.cuffVote h))

theorem Keeps.remote {s t : State} {n op : Nat} {reg : Option Nat} {ra size : Nat} {data : List Byte} (h :
    Keeps s t) : Keeps s (t.remote n op reg ra size data) := by
  unfold State.remote
  exact .request (.track h)

theorem KeepsNext.execLoad8 {s t : State} {n : TileId} {rd ra : Reg} (h : Keeps s t) : KeepsNext s (execLoad8 n rd ra t) := by
  unfold Machine.execLoad8
  exact .slot h (fun _ hk => .remote (.snd (.readS hk)))

theorem KeepsNext.execStore8 {s t : State} {n : TileId} {ra rs : Reg} (h : Keeps s t) : KeepsNext s (execStore8 n ra rs t) := by
  unfold Machine.execStore8
  exact .slot h (fun _ hk => .remote (.snd (.readS (.snd (.readS hk)))))

theorem KeepsNext.execAtomic {s t : State} {n : TileId} {aop : Fin 8} {rd ra rs : Reg} (h :
    Keeps s t) : KeepsNext s (execAtomic n aop rd ra rs t) := by
  unfold Machine.execAtomic
  exact .slot h (fun _ hk => .remote (.snd (.readS (.snd (.readS hk)))))

theorem KeepsNext.execFence {s t : State} {n : TileId} {ra : Reg} (h : Keeps s t) : KeepsNext s (execFence n ra t) := by
  unfold Machine.execFence
  exact .slot h (fun _ hk => (by
    extract_lets +onlyGivenNames _ _ _ _ _ _ _
    split
    · exact .reply (.unmapped (.modNet (.track (.snd (.readS hk)))))
    · exact .ite _ (.inject (.modNet (.track (.snd (.readS hk))))) (by
        split
        · exact .inject (.modNet (.track (.snd (.readS hk))))
        · exact .ite _ (.reply (.unmapped (.modNet (.track (.snd (.readS hk)))))) (.rtDrop (.modNet (.track (.snd (.readS hk))))))))

/-! The meanings of Machine/Links. -/

theorem Keeps.setPortState {s t : State} {p v : Nat} (h : Keeps s t) : Keeps s (t.setPortState p v) := by
  unfold State.setPortState
  exact .put h

theorem Keeps.creditBack {s t : State} {p vc n : Nat} (h : Keeps s t) : Keeps s (t.creditBack p vc n) := by
  unfold State.creditBack
  exact .sendMgmt h

theorem Keeps.rxMgmt {s t : State} {p : Nat} {isCredit : Bool} (h : Keeps s t) : Keeps s (t.rxMgmt p isCredit) := by
  unfold State.rxMgmt
  exact .ite _ (.add h) (.creditBack (.add h))

theorem Keeps.trainFail {s t : State} {p code : Nat} {final : Bool} (h : Keeps s t) : Keeps s (t.trainFail p code final) := by
  unfold State.trainFail
  exact .causeErr (.modPort (.reason (.setPortState h)))

theorem Keeps.sendGrants {s t : State} {p : Nat} (h : Keeps s t) : Keeps s (t.sendGrants p) := by
  unfold State.sendGrants
  exact .fold (fun _ _ hk => .ite _ (.sendMgmt hk) hk) h

theorem Keeps.neighbourUp {s t : State} {id : Nat} (h : Keeps s t) : Keeps s (t.neighbourUp id) := by
  unfold State.neighbourUp
  exact .ite _ h (.frame h)

theorem Keeps.linkUp {s t : State} {p : Nat} {c : PeerCaps} {ver width : Nat} (h : Keeps s t) : Keeps s (t.linkUp p c ver width) := by
  unfold State.linkUp
  exact .linkKick (.sendGrants (.setReady (.cause (.setPortState (.neighbourUp (.modPort (.put (.put (.put (.put (.put (.put h))))))))))))

theorem Keeps.collKick {s t : State} {p g : Nat} (h : Keeps s t) : Keeps s (t.collKick p g) := by
  unfold State.collKick
  exact .fold (fun _ _ hk => .ite _ (.collOut hk) (.modPort hk)) (.modPort h)

theorem Keeps.addGrant {s t : State} {p g n : Nat} (h : Keeps s t) : Keeps s (t.addGrant p g n) := by
  unfold State.addGrant
  exact .collKick (.modPort h)

theorem Keeps.linkLost {s t : State} {p : Nat} (h : Keeps s t) : Keeps s (t.linkLost p) := by
  unfold State.linkLost
  extract_lets +onlyGivenNames _ _ _ s1
  have h1 : Keeps s s1 := .modPort (.fold (fun _ _ hk => .releaseReply hk) (.setReady (.setPortState h)))
  exact .ite _ h1 (.cause (.frame h1))

theorem Keeps.portOff {s t : State} {p : Nat} (h : Keeps s t) : Keeps s (t.portOff p) := by
  unfold State.portOff
  exact .tryStart (.modPort (.ite _ (.linkLost h) (.setPortState h)))

theorem Keeps.portOn {s t : State} {p : Nat} (h : Keeps s t) : Keeps s (t.portOn p) := by
  unfold State.portOn
  exact .modPort (.setPortState h)

theorem Keeps.landEvent {s t : State} {p stamp : Nat} {ev : Word64} (h : Keeps s t) : Keeps s (t.landEvent p stamp ev) := by
  unfold State.landEvent
  exact .ite _ (.xevtDrop h) (.ite _ (.sendEvent (.xevtDrop h)) (.ite _ (.sendEvent h) (.ite _ (.xevtDrop h) (.modPort h))))

theorem Keeps2.portWrite {s t : State} {p cls a : Nat} {data : List Byte} (h : Keeps s t) : Keeps2 s (t.portWrite p cls a data) := by
  unfold State.portWrite
  exact .mk (.request h)

theorem Keeps.collLand {s t : State} {p g o : Nat} {line : List Byte} (h : Keeps s t) : Keeps s (t.collLand p g o line) := by
  unfold State.collLand
  split
  · exact .xevtDrop h
  · exact .modPort (.snd (.portWrite h))

theorem Keeps.portWritten {s t : State} {p tag : Nat} (h : Keeps s t) : Keeps s (t.portWritten p tag) := by
  unfold State.portWritten
  split
  · exact h
  · exact .sendMgmt (.modPort h)

theorem Keeps.bcastOut {s t : State} {i d ep tag a : Nat} {data : List Byte} (h : Keeps s t) : Keeps s (t.bcastOut i d ep tag a data) := by
  unfold State.bcastOut
  exact .fold (fun _ _ hk => .ite _ hk (.ite _ (.bump hk) (.cross hk (fun _ hk2 => .linkSend hk2)))) h

theorem Keeps.bcastHere {s t : State} {p a : Nat} {data : List Byte} (h : Keeps s t) : Keeps s (t.bcastHere p a data) := by
  unfold State.bcastHere
  split
  · exact .snd (.portWrite h)
  · exact .snd (.portWrite h)
  · exact h

theorem Keeps.bring {s t : State} {p : Nat} {q : Pkt} (h : Keeps s t) : Keeps s (t.bring p q) := by
  unfold State.bring
  extract_lets +onlyGivenNames _
  split
  · exact .inject (.modNet h)
  · exact .reply (.unmapped (.modNet h))

theorem Keeps.bringFence {s t : State} {p sm ep tag addr : Nat} (h : Keeps s t) : Keeps s (t.bringFence p sm ep tag addr) := by
  unfold State.bringFence
  extract_lets +onlyGivenNames _
  split
  · exact .inject (.modNet (.modNet h))
  · exact .reply (.unmapped (.modNet h))

theorem Keeps.gateOver {s t : State} {g : Gate} {st : Nat} (h : Keeps s t) : Keeps s (t.gateOver g st) := by
  unfold State.gateOver
  exact .ite _ (.releaseReply (.modNet h)) (.ite _ (.reply (.modNet h)) (by
    split
    · exact .releaseReply (.rtDrop (.modNet h))
    · exact .cross (.modNet h) (fun _ hk => .linkSend hk)))

theorem Keeps.linkInReset {s t : State} {p : Nat} {k : LinkPkt} (h : Keeps s t) : Keeps s (t.linkInReset p k) := by
  unfold State.linkInReset
  split
  · exact .bump h
  · exact .bump h
  · exact .ite _ (.rtDrop h) (by
      split
      · exact .add h
      · exact .reply (.bump h)
      · exact .reply (.bump h)
      · exact .bump h)

theorem KeepsSome.rxLeave {s t : State} {p : Nat} {e : RxItem} {before : List RxItem} (h :
    Keeps s t) : KeepsSome s (t.rxLeave p e before) := by
  unfold State.rxLeave
  exact .ite _ (.some (.linkInReset h)) (by
    split
    · split
      · exact .some h
      · exact .ite _ .none (.some (.cross h (fun _ hk => .linkSend hk)))
    · exact .ite _ .none (by
        split
        · exact .some (.ite _ h (.bring h))
        · exact .ite _ .none (.some (.bringFence h))
        · exact .some h))

theorem Keeps.rxPort {s t : State} {p : Nat} {l kept : List RxItem} (h : Keeps s t) : Keeps s (rxPort p l kept t) := by
  induction l generalizing kept t with
  | nil => exact h
  | cons e l ih =>
    unfold State.rxPort
    refine .ite _ (ih h) ?_
    split
    · exact ih h
    · next s1 e => exact ih (.creditBack (.modPort (.of_some e (.rxLeave h))))

theorem Keeps.cuffPass {s t : State} (h : Keeps s t) : Keeps s (t.cuffPass) := by
  unfold State.cuffPass
  exact .fold (fun _ _ hk => (by
    split
    · exact .ite _ (.linkSend (.cuffLeave hk)) hk
    · exact hk)) h

theorem Keeps.linkPass {s t : State} (h : Keeps s t) : Keeps s (t.linkPass) := by
  unfold State.linkPass
  exact .fold (fun _ _ hk => .rxPort hk) (.cuffPass h)

theorem Keeps.linkHere {s t : State} {p : Nat} {k : LinkPkt} (h : Keeps s t) : Keeps s (t.linkHere p k) := by
  unfold State.linkHere
  split
  · exact .inject h
  · split
    · exact .modNet h
    · exact .ite _ (.fabCause (.bump h)) (.epDown h)
  · exact .fold (fun _ _ hk => .landEvent hk) h
  · exact .collLand h
  · exact .bcastOut (.bcastHere h)
  · exact h

theorem Keeps.linkTake {s t : State} {p : Nat} {k : LinkPkt} {poison : Bool} (h : Keeps s t) : Keeps s (t.linkTake p k poison) := by
  unfold State.linkTake
  exact .ite _ (.creditBack (.linkInReset h)) (by
    split
    · exact .creditBack (.ite _ h (.linkHere h))
    · exact .ite _ (by
        split
        · exact .modPort h
        · exact .modPort h
        · exact .creditBack (.ite _ h (.linkHere h))) (by
        split
        · exact .creditBack (.rtDrop h)
        · split
          · exact .ite _ (.modPort h) (.creditBack (.fold (fun _ _ hk => .xevtDrop hk) h))
          · exact .modPort h))

theorem Keeps.unitsLost {s t : State} {p : Nat} {luck : RxLuck} (h : Keeps s t) : Keeps s (t.unitsLost p luck) := by
  unfold State.unitsLost
  exact .ite _ (.ite _ h (.cause (.add h))) (.cause (.add (.ite _ h (.cause (.add h)))))

theorem KeepsNext.execTrainingEnd {s t : State} {p : Fin 8} {peer : PeerCaps} (h : Keeps s t) : KeepsNext s (execTrainingEnd p peer t) := by
  unfold Machine.execTrainingEnd
  exact .ite _ (.next h) (.ite _ (.next (.trainFail h)) (.ite _ (.next (.trainFail h)) (.ite _ (.next (.trainFail h)) (.next (.linkUp h)))))

theorem KeepsNext.execTrainTimeout {s t : State} {p : Fin 8} (h : Keeps s t) : KeepsNext s (execTrainTimeout p t) := by
  unfold Machine.execTrainTimeout
  exact .ite _ (.next (.trainFail h)) (.next h)

theorem KeepsNext.execTrainRetry {s t : State} {p : Fin 8} (h : Keeps s t) : KeepsNext s (execTrainRetry p t) := by
  unfold Machine.execTrainRetry
  exact .ite _ (.next (.setPortState h)) (.next h)

theorem KeepsNext.execLinkPacket {s t : State} {p : Fin 8} {pkt : LinkPkt} {luck : RxLuck} (h :
    Keeps s t) : KeepsNext s (execLinkPacket p pkt luck t) := by
  unfold Machine.execLinkPacket
  exact .ite _ (.next h) (by
    extract_lets +onlyGivenNames _ _ _ _
    split
    · exact .ite _ (.next (.unitsLost (.add h))) <|
        .ite _
          (.ite _ (.next (.creditBack (.add (.unitsLost (.add h))))) <|
            .ite _ (.next (.add (.unitsLost (.add h)))) (.next (.creditBack (.unitsLost (.add (.unitsLost (.add h))))))) <|
        .ite _ (.next (.add (.unitsLost (.add h)))) (.next (.unitsLost (.add (.unitsLost (.add h)))))
    · exact .ite _ (.next (.creditBack (.add (.unitsLost (.add h))))) (.next (.linkPass (.linkTake (.add (.unitsLost (.add h)))))))

theorem KeepsNext.execIdleUnit {s t : State} {p : Fin 8} (h : Keeps s t) : KeepsNext s (execIdleUnit p t) := by
  unfold Machine.execIdleUnit
  exact .ite _ (.next h) (.ite _ (.next (.sendToken (.linkKick (.linkPass h)))) (.next (.emit (.linkKick (.linkPass h)))))

theorem KeepsNext.execCredit {s t : State} {p : Fin 8} {pairs : List (Fin 15 × BitVec 16)} (h :
    Keeps s t) : KeepsNext s (execCredit p pairs t) := by
  unfold Machine.execCredit
  exact .ite _ (.next h) (.next (.linkPass (.linkKick (.fold (fun _ _ hk => .modPort hk) (.rxMgmt h)))))

theorem KeepsNext.execSteptok {s t : State} {p : Fin 8} {tok : Word32} (h : Keeps s t) : KeepsNext s (execSteptok p tok t) := by
  unfold Machine.execSteptok
  exact .ite _ (.next h) (.next (.tryStart (.frame (.put (.rxMgmt h)))))

theorem KeepsNext.execBartok {s t : State} {p : Fin 8} {k : Fin 4} (h : Keeps s t) : KeepsNext s (execBartok p k t) := by
  unfold Machine.execBartok
  exact .ite _ (.next h) (.next (.ite _ (.setFlag (.rxMgmt h)) (.rxMgmt h)))

theorem KeepsNext.execCgrant {s t : State} {p : Fin 8} {g : Fin 64} {cr : BitVec 8} (h :
    Keeps s t) : KeepsNext s (execCgrant p g cr t) := by
  unfold Machine.execCgrant
  exact .ite _ (.next h) (.next (.addGrant (.rxMgmt h)))

theorem KeepsNext.execCreturn {s t : State} {p : Fin 8} {g : Fin 64} {cr : BitVec 8} (h :
    Keeps s t) : KeepsNext s (execCreturn p g cr t) := by
  unfold Machine.execCreturn
  exact .ite _ (.next h) (.ite _ (.next (.rxMgmt h)) (.next (.addGrant (.rxMgmt h))))

theorem KeepsNext.execLinkDown {s t : State} {p : Fin 8} (h : Keeps s t) : KeepsNext s (execLinkDown p t) := by
  unfold Machine.execLinkDown
  exact .ite _ (.next h) <|
    .next (.tryStart (.modPort (.ite _ (.causeErr (.bump (.linkLost h))) (.cause (.add (.causeErr (.bump (.linkLost h))))))))

theorem KeepsNext.execFailover {s t : State} {p : Fin 8} (h : Keeps s t) : KeepsNext s (execFailover p t) := by
  unfold Machine.execFailover
  exact .ite _ (.next h) <|
    .ite _ (.next (.modPort h)) (.ite _ (.next (.cause (.put (.bump (.put (.modPort h)))))) (.next (.bump (.modPort h))))

theorem KeepsNext.actRtSel {s t : State} {src : Source} {bank : Bool} (h : Keeps s t) : KeepsNext s (actRtSel src bank t) := by
  unfold Machine.actRtSel
  exact .ite _ (.next (.refuse h)) (.ite _ (.next (.refuse h)) (.ite _ (.next (.refuse h)) (.next (.put (.accept h)))))

theorem KeepsNext.actXsyncCfg {s t : State} {src : Source} {v : Word32} (h : Keeps s t) : KeepsNext s (actXsyncCfg src v t) := by
  unfold Machine.actXsyncCfg
  exact .ite _
      (.ite _ (.next (.refuse h)) (.ite _ (.next (.refuse h)) (.ite _ (.next (.refuse h)) (.next (.sendTokens (.put (.put (.put h)))))))) <|
    .next (.tryStart (.put (.put (.put h))))

theorem KeepsNext.actXcolEnable {s t : State} {src : Source} {p : Fin 8} {k : Fin 4} {v : Word32} (h :
    Keeps s t) : KeepsNext s (actXcolEnable src p k v t) := by
  unfold Machine.actXcolEnable
  exact .ite _ (.next (.sendMgmt (.put (.put (.put h))))) (.next (.put (.put (.put h))))

theorem KeepsNext.execEvtLife {s t : State} {p : Fin 8} {landing : Bool} {k : Nat} (h :
    Keeps s t) : KeepsNext s (execEvtLife p landing k t) := by
  unfold Machine.execEvtLife
  exact .ite _ (.ite _ (.next (.xevtDrop (.modPort h))) (.next h)) (by
    split
    · exact .next h
    · exact .ite _ (.next (.linkKick (.xevtDrop (.modPort h)))) (.next h))

theorem Keeps.cuffDiscard {s t : State} {half : Nat} {i : CuffItem} (h : Keeps s t) : Keeps s (t.cuffDiscard half i) := by
  unfold State.cuffDiscard
  extract_lets +onlyGivenNames _ _
  split
  · exact .ite _ (.reply (.modNet h)) (.reply (.packetOver h))
  · split
    · exact .postReply (.frame h)
    · exact h
  · exact .modNet h
  · split
    · exact h
    · extract_lets +onlyGivenNames _
      split
      · exact .releaseReply (.modNet h)
      · exact .modNet h
  · exact .modNet h
  · exact .modNet h
  · split
    · exact h
    · extract_lets +onlyGivenNames _
      split
      · exact .reply (.fenceLost h)
      · exact .modNet (.fenceLost h)
  · exact .modNet h
  · exact .ite _ (.releaseReply h) h
  · exact .modNet h

theorem KeepsNext.execCuffTimeout {s t : State} {k : Nat} (h : Keeps s t) : KeepsNext s (execCuffTimeout k t) := by
  unfold Machine.execCuffTimeout
  split
  · exact .next h
  · exact .ite _ (.next h) (.next (.cuffDiscard (.causeErr (.bump (.put (.cuffStat (.modNet h)))))))

/-! The meanings of Machine/Queues. -/

theorem Keeps.modQueue {s t : State} {n : Nat} {f : QueueS → QueueS} (h : Keeps s t) : Keeps s (t.modQueue n f) := by
  unfold State.modQueue
  exact .modTile h (fun _ c => c)

theorem Keeps.modQnet {s t : State} {f : QNetS → QNetS} (h : Keeps s t) : Keeps s (t.modQnet f) := by
  unfold State.modQnet
  exact .frame h

theorem Keeps.notify {s t : State} {n q : Nat} (h : Keeps s t) : Keeps s (t.notify n q) := by
  unfold State.notify
  exact .ite _ (.setFlag h) h

theorem Keeps.qPush {s t : State} {n : Nat} {m : QMsg} (h : Keeps s t) : Keeps s (t.qPush n m) := by
  unfold State.qPush
  exact .ite _ (.notify (.modQueue h)) (.modQueue h)

theorem Keeps.qClean {s t : State} {n q slot k : Nat} (h : Keeps s t) : Keeps s (t.qClean n q slot k) := by
  unfold State.qClean
  exact .modQueue h

theorem Keeps2.qScan {s t : State} {n q slot : Nat} {words : List Nat} (h : Keeps s t) : Keeps2 s (t.qScan n q slot words) := by
  unfold State.qScan
  exact .mk (.ite _ (.ite _ h (.cause (.add (.modQueue h)))) (.causeErr (.add (.ite _ h (.cause (.add (.modQueue h)))))))

theorem Keeps.release {s t : State} {n : Nat} {e : QMsg} (h : Keeps s t) : Keeps s (t.release n e) := by
  unfold State.release
  exact .qPush (.modQueue h)

theorem Keeps.qReply {s t : State} {f : QFly} {code : Nat} (h : Keeps s t) : Keeps s (t.qReply f code) := by
  unfold State.qReply
  exact .modQnet h

theorem Keeps.qPlace {s t : State} {n : Nat} {f : QFly} (h : Keeps s t) : Keeps s (t.qPlace n f) := by
  unfold State.qPlace
  exact .ite _ (by
    extract_lets +onlyGivenNames _ _ _ _ _ s1
    have h1 : Keeps s s1 := .modQueue (.ite _ (.qClean (.snd (.qScan (.qReply (.bump h))))) (.snd (.qScan (.qReply (.bump h)))))
    exact .ite _ (.release h1) h1) (.qPush (.qClean (.qReply (.bump h))))

theorem Keeps.qDiscardDead {s t : State} {n : Nat} {f : QFly} (h : Keeps s t) : Keeps s (t.qDiscardDead n f) := by
  unfold State.qDiscardDead
  exact .ite _ (.cause (.bump (.qReply h))) (.qReply h)

theorem Keeps.unhold {s t : State} {n : Nat} (h : Keeps s t) : Keeps s (t.unhold n) := by
  unfold State.unhold
  exact .put (.modQueue h)

theorem Keeps.qDeadCheck {s t : State} {n : Nat} (h : Keeps s t) : Keeps s (t.qDeadCheck n) := by
  unfold State.qDeadCheck
  split
  · exact h
  · exact .ite _ (.qDiscardDead (.unhold h)) h

theorem Keeps.qArrive {s t : State} {f : QFly} (h : Keeps s t) : Keeps s (t.qArrive f) := by
  unfold State.qArrive
  exact .ite _ (.qDiscardDead h) (.ite _ (.qReply (.causeErr (.bump h))) (.ite _ (.qPlace h) (.ite _ (.qReply h) (.modQueue h))))

theorem Keeps.qLaunch {s t : State} {ch : Nat} {h' : QHead} (h : Keeps s t) : Keeps s (t.qLaunch ch h') := by
  unfold State.qLaunch
  exact .modQnet h

theorem Keeps.sendOver {s t : State} {n k code : Nat} (h : Keeps s t) : Keeps s (t.sendOver n k code) := by
  unfold State.sendOver
  exact .modTile (.modQueue (.ite _ (.bump h) (.ite _ (.bump h) h))) (fun _ c => c)

theorem Keeps.winOver {s t : State} {m code : Nat} (h : Keeps s t) : Keeps s (t.winOver m code) := by
  unfold State.winOver
  exact .cause (.put (.put (.put (.modQnet h))))

theorem Keeps.qRemove {s t : State} {n : Nat} {m : QMsg} (h : Keeps s t) : Keeps s (t.qRemove n m) := by
  unfold State.qRemove
  exact .modQueue h

theorem Keeps.qrecv {s t : State} {n op rd nm1 rs q : Nat} (h : Keeps s t) : Keeps s (t.qrecv n op rd nm1 rs q) := by
  unfold State.qrecv
  exact .ite _ (.illegalOp h) (by
    extract_lets +onlyGivenNames _ _
    split
    · exact .trackOwn (.ite _ h (.fold (fun _ _ hk => .trackOwn hk) h))
    · exact .ite _
          (.trackOwn <| .ite _ (.ite _ (.snd (.qScan h)) (.qRemove (.snd (.qScan h)))) <|
            .fold (fun _ _ hk => .trackOwn hk) (.ite _ (.snd (.qScan h)) (.qRemove (.snd (.qScan h)))))
        (.trackOwn (.ite _ (.qRemove (.snd (.qScan h))) (.fold (fun _ _ hk => .trackOwn hk) (.qRemove (.snd (.qScan h)))))))

theorem KeepsNext.execQsend {s t : State} {n : TileId} {mode : Fin 4} {rs : Reg} {nm1 : Fin 8} {ra rd : Reg} {tmo : BitVec 8} (h :
    Keeps s t) : KeepsNext s (execQsend n mode rs nm1 ra rd tmo t) := by
  unfold Machine.execQsend
  exact .slot h (fun _ hk => .ite _ (.illegalOp hk) (by
    extract_lets +onlyGivenNames _ _ s1
    have h1 : Keeps s s1 := .snd (.fold (fun _ _ hk2 => .mk (.snd (.readS (.snd hk2)))) (.mk (.snd (.readS hk))))
    exact .ite _ (.trackOwn (.bump h1)) (by
      split
      · exact .trackOwn h1
      · exact .track (.modQueue (.bump (.qLaunch h1))))))

theorem KeepsNext.execRecv {s t : State} {n : TileId} {rd : Reg} {nm1 : Fin 8} {rs : Reg} {q : Fin 64} (h :
    Keeps s t) : KeepsNext s (execRecv n rd nm1 rs q t) := by
  unfold Machine.execRecv
  exact .slot h (fun _ hk => .qrecv hk)

theorem KeepsNext.execPeek {s t : State} {n : TileId} {rd : Reg} {nm1 : Fin 8} {rs : Reg} {q : Fin 64} (h :
    Keeps s t) : KeepsNext s (execPeek n rd nm1 rs q t) := by
  unfold Machine.execPeek
  exact .slot h (fun _ hk => .qrecv hk)

theorem KeepsNext.execDiscard {s t : State} {n : TileId} {rd : Reg} {nm1 : Fin 8} {rs : Reg} {q : Fin 64} (h :
    Keeps s t) : KeepsNext s (execDiscard n rd nm1 rs q t) := by
  unfold Machine.execDiscard
  exact .slot h (fun _ hk => .qrecv hk)

theorem KeepsNext.execMessageHead {s t : State} {ch : BitVec 16} {core : Option CoreMsg} {parity : Bool} (h :
    Keeps s t) : KeepsNext s (execMessageHead ch core parity t) := by
  unfold Machine.execMessageHead
  extract_lets +onlyGivenNames f
  clear_value f
  split
  · exact .next h
  · exact .ite _ (.next (.parityLost (.modQnet h))) (.ite _ (.next h) (.next (.qArrive (.modQnet h))))

theorem KeepsNext.execSlotGrant {s t : State} {n : TileId} (h : Keeps s t) : KeepsNext s (execSlotGrant n t) := by
  unfold Machine.execSlotGrant
  split
  · exact .next h
  · exact .ite _ (.next (.qPlace (.unhold h))) (.next h)

theorem KeepsNext.execTimedExpiry {s t : State} {n : TileId} (h : Keeps s t) : KeepsNext s (execTimedExpiry n t) := by
  unfold Machine.execTimedExpiry
  split
  · exact .next h
  · exact .ite _ (.next h) (.ite _ (.next (.qPlace (.unhold h))) (.next (.qReply (.unhold h))))

theorem KeepsNext.execQstall {s t : State} {n : TileId} (h : Keeps s t) : KeepsNext s (execQstall n t) := by
  unfold Machine.execQstall
  extract_lets +onlyGivenNames _
  split
  · exact .next h
  · exact .ite _ (.next h) (.ite _ (.next (.qPlace (.unhold h))) (by
      extract_lets +onlyGivenNames _ _ _ s1
      have h1 : Keeps s s1 := .causeErr (.bump (.ite _ h (.put (.put (.put (.put h))))))
      exact .ite _ (.next (.put h1)) (.next (.qReply (.unhold h1)))))

theorem KeepsNext.execSendComplete {s t : State} {ch : Carried (BitVec 16) Bool} (h : Keeps s t) : KeepsNext s (execSendComplete ch t) := by
  unfold Machine.execSendComplete
  split
  · exact .next h
  · exact .ite _ (.next (.parityLost (.modQnet h))) <|
      .ite _ (.ite _ (.next (.sendOver (.modQnet h))) (.ite _ (.next (.bump (.modQueue (.modQnet h)))) (.next (.modQnet h)))) <|
      .ite _ (.next (.winOver (.modQnet h))) (.next (.modQnet h))

theorem KeepsNext.execLost {s t : State} {ch : BitVec 16} (h : Keeps s t) : KeepsNext s (execLost ch t) := by
  unfold Machine.execLost
  exact .ite _ (.next h) (by
    split
    · exact .next h
    · exact .ite _ (.next h) (.next (.sendOver (.modQueue h))))

theorem KeepsNext.actCombFlush {s t : State} {src : Source} {n : TileId} {v : Word32} (h :
    Keeps s t) : KeepsNext s (actCombFlush src n v t) := by
  unfold Machine.actCombFlush
  exact .ite _ (.next h) (.ite _ (.next (.put (.put h))) (by
    split
    · exact .next (.bump (.put (.put h)))
    · exact .next (.release (.put (.put h)))))

theorem KeepsNext.actPop {s t : State} {src : Source} {n : TileId} (h : Keeps s t) : KeepsNext s (actPop src n t) := by
  unfold Machine.actPop
  exact .ite _ (.next h) (by
    split
    · exact .next h
    · exact .next (.qRemove h))

theorem KeepsNext.actStallDiscard {s t : State} {src : Source} {n : TileId} (h : Keeps s t) : KeepsNext s (actStallDiscard src n t) := by
  unfold Machine.actStallDiscard
  extract_lets +onlyGivenNames _
  split
  · exact .next h
  · exact .ite _ (.next (.qReply (.unhold h))) (.next h)

theorem KeepsNext.actRetain {s t : State} {src : Source} {n : TileId} (h : Keeps s t) : KeepsNext s (actRetain src n t) := by
  unfold Machine.actRetain
  exact .ite _ (.next (.put h)) (.next h)

theorem Keeps.winWrite {s t : State} {m : Nat} {w : Fin 18 × Word32} (h : Keeps s t) : Keeps s (t.winWrite m w) := by
  unfold State.winWrite
  exact .ite _ (.modQnet h) (.ite _ (.modQnet h) h)

theorem Keeps.launchNow {s t : State} {m : Fin 4} {before : List (Fin 18 × Word32)} {v : Word32} (h :
    Keeps s t) : Keeps s (t.launchNow m before v) := by
  unfold State.launchNow
  exact .ite _ (.bump (.fold (fun _ _ hk => .winWrite hk) h)) (by
    extract_lets +onlyGivenNames _ _ s1
    have h1 : Keeps s s1 := .put (.fold (fun _ _ hk => .winWrite hk) h)
    exact .ite _ (.winOver h1) (.put (.modQnet (.qLaunch h1))))

theorem Keeps.hostOrder {s t : State} {i : HostWrite} {now : State → State} (h :
    Keeps s t) (hnow : ∀ u, Keeps s u → Keeps s (now u)) : Keeps s (t.hostOrder i now) := by
  unfold State.hostOrder
  exact .ite _ (.frame h) (.ite _ (.frame h) (hnow _ h))

theorem KeepsNext.execLaunch {s t : State} {m : Fin 4} {before : List (Fin 18 × Word32)} {v : Word32} (h :
    Keeps s t) : KeepsNext s (execLaunch m before v t) := by
  unfold Machine.execLaunch
  exact .next (.hostOrder h (fun _ hk => .launchNow hk))

/-! The meanings of Machine/Memory. -/

theorem Keeps.memTrain {s t : State} {c : Nat} {again : Bool} (h : Keeps s t) : Keeps s (t.memTrain c again) := by
  unfold State.memTrain
  exact .frame (.ite _ (.put (.setReady (.put (.put h)))) (.setReady (.put (.put h))))

theorem Keeps.memOff {s t : State} {c : Nat} (h : Keeps s t) : Keeps s (t.memOff c) := by
  unfold State.memOff
  exact .put (.setReady (.put (.frame h)))

theorem KeepsNext.execMemTrainEnd {s t : State} {c : Fin 32} {bin : Option (Fin 3)} (h :
    Keeps s t) : KeepsNext s (execMemTrainEnd c bin t) := by
  unfold Machine.execMemTrainEnd
  split
  · exact .next h
  · exact .ite _ (.next h) (by
      extract_lets +onlyGivenNames _
      split
      · exact .ite _ (.next h) (.next (.setReady (.put (.put (.put (.frame h))))))
      · exact .next (.causeErr (.reason (.put (.put (.frame h))))))

theorem KeepsNext.actRetrain {s t : State} {src : Source} {c : Fin 32} (h : Keeps s t) : KeepsNext s (actRetrain src c t) := by
  unfold Machine.actRetrain
  exact .ite _ (.next (.memTrain h)) (.next h)

theorem KeepsNext.execRefresh {s t : State} {c : Fin 32} (h : Keeps s t) : KeepsNext s (execRefresh c t) := by
  unfold Machine.execRefresh
  exact .next h

theorem KeepsNext.execDeviceReport {s t : State} {c : Fin 32} {temp : Fin 16} (h :
    Keeps s t) : KeepsNext s (execDeviceReport c temp t) := by
  unfold Machine.execDeviceReport
  exact .ite _ (.next (.put h)) (.next h)

theorem KeepsNext.execRecalibration {s t : State} {c : Fin 32} (h : Keeps s t) : KeepsNext s (execRecalibration c t) := by
  unfold Machine.execRecalibration
  exact .next h

theorem KeepsNext.execMemScrubRead {s t : State} {c : Fin 32} {displaced : Bool} (h :
    Keeps s t) : KeepsNext s (execMemScrubRead c displaced t) := by
  unfold Machine.execMemScrubRead
  exact .ite _ (.next h) (by
    extract_lets +onlyGivenNames _
    split
    · exact .next (.snd (.scrubTake h))
    · exact .next (.snd (.checkEach (.snd (.scrubTake h)))))

/-! The meanings of Machine/Movers. -/

theorem Keeps.modMover {s t : State} {m : Nat} {f : MoverS → MoverS} (h :
    Keeps s t) : Keeps s (t.modMover m f) :=
  .movers h (risingFrom_setAt _ _ _)

theorem Keeps.modChk {s t : State} {c : Nat} {f : ChkS → ChkS} (h : Keeps s t) : Keeps s (t.modChk c f) := .chk h (risingFrom_setAt _ _ _)

theorem Keeps.modJob {s t : State} {m : Nat} {f : MvJob → MvJob} (h : Keeps s t) : Keeps s (t.modJob m f) := by
  unfold State.modJob
  exact .modMover h

theorem Keeps.modPkt {s t : State} {m ofs : Nat} {f : MvPkt → MvPkt} (h : Keeps s t) : Keeps s (t.modPkt m ofs f) := by
  unfold State.modPkt
  exact .modJob h

theorem Keeps.dropPkt {s t : State} {m ofs : Nat} (h : Keeps s t) : Keeps s (t.dropPkt m ofs) := by
  unfold State.dropPkt
  exact .modJob h

theorem Keeps.setMvState {s t : State} {m v : Nat} (h : Keeps s t) : Keeps s (t.setMvState m v) := by
  unfold State.setMvState
  exact .put h

theorem Keeps.mvRequest {s t : State} {m op tag sp a size : Nat} {data : List Byte} (h :
    Keeps s t) : Keeps s (t.mvRequest m op tag sp a size data) := by
  unfold State.mvRequest
  exact .request h

theorem Keeps.mvKick {s t : State} {m : Nat} (h : Keeps s t) : Keeps s (t.mvKick m) := by
  unfold State.mvKick
  exact .ite _ h (by
    extract_lets +onlyGivenNames _
    split
    · exact .modMover (.setMvState h)
    · exact .mvRequest (.modMover (.setMvState h)))

theorem Keeps.mvClose {s t : State} {m st : Nat} (h : Keeps s t) : Keeps s (t.mvClose m st) := by
  unfold State.mvClose
  split
  · exact h
  · next f _ =>
    extract_lets +onlyGivenNames s8 s7 s6 s5 s4 s3 e2 e1 s2 s1 s0
    have h6 : Keeps s s6 := .put (.put (.ite _ (.bump (.ite _ h (.bump h))) (.ite _ h (.bump h))))
    have h5 : Keeps s s5 := .bump h6
    have h4 : Keeps s s4 := .ite _ (.put h5) h5
    have h3 : Keeps s s3 := .ite _ (.cause h4) h4
    have he : Keeps s e1 := by
      unfold e1
      split
      · exact .put (.put h3)
      · exact .put h3
    have h2 : Keeps s s2 := .ite _ h3 (.causeErr he)
    have h0 : Keeps s s0 := .setMvState (.modMover h2)
    refine .mvKick ?_
    split
    · exact .postReply h0
    · exact h0

theorem Keeps.mvFinish {s t : State} {m idx code retries : Nat} {ofs : Option Nat} {doneF irq abort : Bool} {post : Option (Nat × Nat)} (h :
    Keeps s t) : Keeps s (t.mvFinish m idx code retries ofs doneF irq abort post) := by
  unfold State.mvFinish
  exact .mvRequest (.put (.modMover h))

theorem Keeps.chkBegin {s t : State} {c poly : Nat} {cont : Bool} (h : Keeps s t) : Keeps s (t.chkBegin c poly cont) := by
  unfold State.chkBegin
  exact .ite _ (.put h) (.put (.put h))

theorem Keeps.chkFeed {s t : State} {c poly : Nat} {bs : List Byte} (h : Keeps s t) : Keeps s (t.chkFeed c poly bs) := by
  unfold State.chkFeed
  exact .put h

theorem Keeps.chkResult {s t : State} {c poly : Nat} (h : Keeps s t) : Keeps s (t.chkResult c poly) := by
  unfold State.chkResult
  exact .put h

theorem Keeps.chkMatch {s t : State} {c : Nat} {ok : Bool} (h : Keeps s t) : Keeps s (t.chkMatch c ok) := by
  unfold State.chkMatch
  exact .ite _ (.put h) (.cause (.bump (.put (.put h))))

theorem Keeps.chkEnd {s t : State} {c : Nat} (h : Keeps s t) : Keeps s (t.chkEnd c) := by
  unfold State.chkEnd
  exact .cause (.bump (.put (.put h)))

theorem Keeps.mvEnd {s t : State} {m code : Nat} {ofs : Option Nat} (h : Keeps s t) : Keeps s (t.mvEnd m code ofs) := by
  unfold State.mvEnd
  split
  · exact h
  · exact .mvFinish (by
      split
      · exact .ite _ (.chkEnd (.modChk h)) (.modChk h)
      · exact h)

theorem Keeps.mvRead {s t : State} {m ofs : Nat} (h : Keeps s t) : Keeps s (t.mvRead m ofs) := by
  unfold State.mvRead
  split
  · exact .mvRequest (.modPkt h)
  · exact h

theorem Keeps.mvWrite {s t : State} {m ofs : Nat} (h : Keeps s t) : Keeps s (t.mvWrite m ofs) := by
  unfold State.mvWrite
  split
  · exact .mvRequest (.modPkt (.ite _ (.bcastOut h) h))
  · exact h

theorem Keeps.mvSend {s t : State} {m : Nat} (h : Keeps s t) : Keeps s (t.mvSend m) := by
  unfold State.mvSend
  split
  · exact h
  · exact .ite _ h (.mvRead (.modJob h))

theorem Keeps.mvFeed {s t : State} {m : Nat} (h : Keeps s t) : Keeps s (t.mvFeed m) := by
  unfold State.mvFeed
  exact .fold (fun _ _ hk => (by
    split
    · exact hk
    · split
      · exact .modJob (.modPkt (.chkFeed hk))
      · exact hk)) h

theorem Keeps.mvSettle {s t : State} {m : Nat} (h : Keeps s t) : Keeps s (t.mvSettle m) := by
  unfold State.mvSettle
  extract_lets +onlyGivenNames _
  split
  · exact .modJob h
  · extract_lets +onlyGivenNames _
    split
    · exact .ite _ (.mvEnd (.put (.modJob h))) (.ite _ (.mvEnd (.put (.modJob h))) (.ite _ (.put (.modJob h)) (by
        split
        · exact .mvEnd (.put (.modJob h))
        · exact .ite _ (.mvEnd (.put (.modJob h))) (.ite _ (.mvEnd (.chkResult (.put (.modJob h)))) (by
            extract_lets +onlyGivenNames _ s1
            have h1 : Keeps s s1 := .put (.modJob (.chkResult (.put (.modJob h))))
            exact .ite _ (.mvWrite h1) (.mvRead h1))))))
    · exact .ite _ (.cause (.setMvState (.put (.put (.modJob h))))) (.put (.modJob h))

theorem Keeps.mvPump {s t : State} {m : Nat} (h : Keeps s t) : Keeps s (t.mvPump m) := by
  unfold State.mvPump
  exact .mvSettle (.fold (fun _ _ hk => .mvSend hk) h)

theorem Keeps.mvFail {s t : State} {m ofs code : Nat} (h : Keeps s t) : Keeps s (t.mvFail m ofs code) := by
  unfold State.mvFail
  exact .modJob (.dropPkt h)

theorem Keeps.mvBusy {s t : State} {m : Nat} {p : MvPkt} (h : Keeps s t) : Keeps s (t.mvBusy m p) := by
  unfold State.mvBusy
  exact .ite _ (.dropPkt (.bump h)) (.ite _ (.modPkt (.bump h)) (.ite _ (.mvFail (.bump h)) (.modPkt (.bump h))))

theorem Keeps.mvResend {s t : State} {m ofs : Nat} (h : Keeps s t) : Keeps s (t.mvResend m ofs) := by
  unfold State.mvResend
  extract_lets +onlyGivenNames _
  split
  · exact .ite _ (.mvWrite (.modJob (.modPkt h))) (.mvRead (.modJob (.modPkt h)))
  · exact .modJob (.modPkt h)

theorem Keeps.mvData {s t : State} {m ofs st : Nat} {data : List Byte} (h : Keeps s t) : Keeps s (t.mvData m ofs st data) := by
  unfold State.mvData
  split
  · exact h
  · exact .ite _ (.modPkt h) (.ite _ (.modPkt h) (.ite _ (.mvSettle (.dropPkt h)) (.mvWrite (.modPkt h))))

theorem KeepsSome.mvResponse {s t : State} {ep tag st : Nat} {data : List Byte} (h : Keeps s t) : KeepsSome s (t.mvResponse ep tag st data) :=
  .findSome fun _ => .ite _ .none (.ite _ (.some (.modMover h)) (.ite _ (.some (.mvClose h)) (.ite _ (.some (.mvKick (.modMover (.ite _ (.bump h) h))))
    (.map fun _ => .ite _ (.modPkt h) (.mvData h)))))

theorem Keeps.mvStart {s t : State} {m : Nat} (h : Keeps s t) : Keeps s (t.mvStart m) := by
  unfold State.mvStart
  split
  · exact h
  · extract_lets +onlyGivenNames _
    split
    · exact .mvPump (.setMvState h)
    · exact .mvPump (.chkBegin (.modJob (.modChk (.setMvState h))))

theorem Keeps.mvAbort {s t : State} {m : Nat} (h : Keeps s t) : Keeps s (t.mvAbort m) := by
  unfold State.mvAbort
  extract_lets +onlyGivenNames _
  split
  · exact .ite _ (.mvEnd (.modJob h)) (.mvSettle (.modJob h))
  · exact .ite _ (.modMover h) (.ite _ (.modMover h) (.setMvState h))

theorem Keeps.ringHead {s t : State} {m v : Nat} (h : Keeps s t) : Keeps s (t.ringHead m v) := by
  unfold State.ringHead
  exact .ite _ h (.ite _ (.refuse h) (.mvKick (.put h)))

theorem KeepsNext.execMove {s t : State} {n : TileId} {m : Fin 32} {rs rd : Reg} (h : Keeps s t) : KeepsNext s (execMove n m rs rd t) := by
  unfold Machine.execMove
  exact .slot h (fun _ hk => .ite _ (.illegalOp hk) (by
    extract_lets +onlyGivenNames _ s1
    have h1 : Keeps s s1 := .snd (.fold (fun _ _ hk2 => .mk (.snd (.readS (.snd hk2)))) (.mk hk))
    exact .frame (.ite _ h1 (.track h1))))

theorem KeepsNext.execPost {s t : State} {m : Fin 32} (h : Keeps s t) : KeepsNext s (execPost m t) := by
  unfold Machine.execPost
  split
  · exact .next h
  · exact .next <| .cross h <| fun _ hk => .ite _ (.postReply (.epDown (.frame hk))) <|
      .ite _ (.postReply (.frame hk)) <|
      .ite _ (.postReply (.cause (.bump (.frame hk)))) (.mvKick (.mvRequest (.put (.modMover (.frame hk)))))

theorem KeepsNext.actRingHead {s t : State} {src : Source} {m : Fin 32} {v : Word32} (h :
    Keeps s t) : KeepsNext s (actRingHead src m v t) := by
  unfold Machine.actRingHead
  exact .next (.ringHead h)

theorem KeepsNext.execDescFetch {s t : State} {m : Fin 32} (h : Keeps s t) : KeepsNext s (execDescFetch m t) := by
  unfold Machine.execDescFetch
  extract_lets +onlyGivenNames _ _
  split
  · exact .next h
  · exact .ite _ (.next (.mvFinish (.modMover h))) (.ite _ (.next (.mvFinish (.ite _ (.bump (.modMover h)) (.modMover h)))) (.ite _ (.next (.mvFinish (.modMover h))) (by
      extract_lets +onlyGivenNames c _ _
      clear_value c
      split
      · exact .next (.mvStart (.modMover (.modMover h)))
      · exact .ite _ (.next (.mvStart (.modMover (.modMover h)))) (.next (.setMvState (.modChk (.modMover (.modMover h))))))))

theorem KeepsNext.execCheckChannelGrant {s t : State} {c : Fin 8} (h : Keeps s t) : KeepsNext s (execCheckChannelGrant c t) := by
  unfold Machine.execCheckChannelGrant
  split
  · exact .next h
  · exact .ite _ (.next (.mvStart h)) (.next h)

theorem KeepsNext.execMoverPacketDone {s t : State} {m : Fin 32} {ofs : BitVec 27} (h :
    Keeps s t) : KeepsNext s (execMoverPacketDone m ofs t) := by
  unfold Machine.execMoverPacketDone
  extract_lets +onlyGivenNames _ _
  split
  · split
    · exact .next h
    · exact .ite _ (.next h) (.ite _ (.next (.mvPump (.mvBusy h))) (.ite _ (.next (.mvPump (.mvFail h))) (.ite _ (by
        split
        · exact .ite _ (.ite _ (.next (.mvSettle (.chkMatch (.dropPkt h)))) (.next (.mvEnd (.chkMatch (.dropPkt h))))) <|
            .next (.mvSettle (.dropPkt h))
        · exact .next (.mvSettle (.dropPkt h))) (.next (.mvPump (.mvSettle (.mvFeed (.add (.modPkt h)))))))))
  · exact .next h

theorem KeepsNext.execMoverRetry {s t : State} {m : Fin 32} {ofs : BitVec 27} (h : Keeps s t) : KeepsNext s (execMoverRetry m ofs t) := by
  unfold Machine.execMoverRetry
  split
  · exact .ite _ (.next (.mvResend h)) (.next h)
  · exact .next h

theorem KeepsNext.actMvResume {s t : State} {src : Source} {m : Fin 32} (h : Keeps s t) : KeepsNext s (actMvResume src m t) := by
  unfold Machine.actMvResume
  exact .ite _ (.next (.mvKick (.setMvState h))) (.next h)

theorem KeepsNext.actMvAbort {s t : State} {src : Source} {m : Fin 32} (h : Keeps s t) : KeepsNext s (actMvAbort src m t) := by
  unfold Machine.actMvAbort
  exact .ite _ (.next (.mvAbort h)) (.next h)

theorem KeepsNext.actRetry {s t : State} {src : Source} {m : Fin 32} (h : Keeps s t) : KeepsNext s (actRetry src m t) := by
  unfold Machine.actRetry
  extract_lets +onlyGivenNames _
  split
  · exact .ite _ (.next (.mvPump (.mvResend (.setMvState h)))) (.next h)
  · exact .next h

theorem KeepsNext.actSkip {s t : State} {src : Source} {m : Fin 32} (h : Keeps s t) : KeepsNext s (actSkip src m t) := by
  unfold Machine.actSkip
  extract_lets +onlyGivenNames _
  split
  · exact .ite _ (.next (.mvSettle (.mvFail (.setMvState h)))) (.next h)
  · exact .next h

/-! The meanings of Machine/Scalar. -/

theorem Keeps.aluR {s t : State} {n lat rd rs1 rs2 : Nat} {f : Nat → Nat → Nat} (h : Keeps s t) : Keeps s (t.aluR n lat rd rs1 rs2 f) := by
  unfold State.aluR
  exact .laterS (.snd (.readS (.snd (.readS h))))

theorem Keeps.aluI {s t : State} {n rd rs1 : Nat} {f : Nat → Nat} (h : Keeps s t) : Keeps s (t.aluI n rd rs1 f) := by
  unfold State.aluI
  exact .laterS (.snd (.readS h))

theorem Keeps.opLoad {s t : State} {n rd rs1 : Nat} {imm : BitVec 15} {len form : Nat} (h :
    Keeps s t) : Keeps s (t.opLoad n rd rs1 imm len form) := by
  unfold State.opLoad
  exact .ite _ (.trackOwn (.snd (.readS h))) (.trackOwn (.snd (.tail (.portARead (.snd (.readS h))))))

theorem Keeps.discardStore {s t : State} {n : Nat} (h : Keeps s t) : Keeps s (t.discardStore n) := by
  unfold State.discardStore
  exact .setErr h

theorem Keeps.opStore {s t : State} {n rd rs1 : Nat} {imm : BitVec 15} {len : Nat} (h :
    Keeps s t) : Keeps s (t.opStore n rd rs1 imm len) := by
  unfold State.opStore
  exact .ite _ (.discardStore (.snd (.readS (.snd (.readS h))))) (.portAWrite (.snd (.readS (.snd (.readS h)))))

theorem Keeps.opAtom {s t : State} {n sub rd rs1 rs2 : Nat} (h : Keeps s t) : Keeps s (t.opAtom n sub rd rs1 rs2) := by
  unfold State.opAtom
  exact .ite _ (.trackOwn (.snd (.readS (.snd (.readS h))))) (.trackOwn (.snd (.tail (.lineAtomic (.snd (.readS (.snd (.readS h))))))))

theorem Keeps.opMfv {s t : State} {n rd vs : Nat} {half : Bool} {idx : Nat} (h : Keeps s t) : Keeps s (t.opMfv n rd vs half idx) := by
  unfold State.opMfv
  exact .laterS (.snd (.readV h))

theorem Keeps.opRdcsr {s t : State} {n rd csr : Nat} (h : Keeps s t) : Keeps s (t.opRdcsr n rd csr) := by
  unfold State.opRdcsr
  exact .laterS h

theorem Keeps.opAdd {s t : State} {n rd a b : Nat} (h : Keeps s t) : Keeps s (t.opAdd n rd a b) := by
  unfold State.opAdd
  exact .aluR h

theorem Keeps.opSub {s t : State} {n rd a b : Nat} (h : Keeps s t) : Keeps s (t.opSub n rd a b) := by
  unfold State.opSub
  exact .aluR h

theorem Keeps.opAnd {s t : State} {n rd a b : Nat} (h : Keeps s t) : Keeps s (t.opAnd n rd a b) := by
  unfold State.opAnd
  exact .aluR h

theorem Keeps.opOr {s t : State} {n rd a b : Nat} (h : Keeps s t) : Keeps s (t.opOr n rd a b) := by
  unfold State.opOr
  exact .aluR h

theorem Keeps.opXor {s t : State} {n rd a b : Nat} (h : Keeps s t) : Keeps s (t.opXor n rd a b) := by
  unfold State.opXor
  exact .aluR h

theorem Keeps.opSll {s t : State} {n rd a b : Nat} (h : Keeps s t) : Keeps s (t.opSll n rd a b) := by
  unfold State.opSll
  exact .aluR h

theorem Keeps.opSrl {s t : State} {n rd a b : Nat} (h : Keeps s t) : Keeps s (t.opSrl n rd a b) := by
  unfold State.opSrl
  exact .aluR h

theorem Keeps.opSra {s t : State} {n rd a b : Nat} (h : Keeps s t) : Keeps s (t.opSra n rd a b) := by
  unfold State.opSra
  exact .aluR h

theorem Keeps.opSlt {s t : State} {n rd a b : Nat} (h : Keeps s t) : Keeps s (t.opSlt n rd a b) := by
  unfold State.opSlt
  exact .aluR h

theorem Keeps.opSltu {s t : State} {n rd a b : Nat} (h : Keeps s t) : Keeps s (t.opSltu n rd a b) := by
  unfold State.opSltu
  exact .aluR h

theorem Keeps.opMul {s t : State} {n rd a b : Nat} (h : Keeps s t) : Keeps s (t.opMul n rd a b) := by
  unfold State.opMul
  exact .aluR h

theorem Keeps.opMulh {s t : State} {n rd a b : Nat} (h : Keeps s t) : Keeps s (t.opMulh n rd a b) := by
  unfold State.opMulh
  exact .aluR h

theorem Keeps.opSelnz {s t : State} {n rd rs1 rs2 : Nat} (h : Keeps s t) : Keeps s (t.opSelnz n rd rs1 rs2) := by
  unfold State.opSelnz
  exact .ite _ (.laterS (.snd (.readS (.snd (.readS h))))) (.snd (.readS (.snd (.readS h))))

theorem Keeps.opAddi {s t : State} {n rd a : Nat} {imm : BitVec 15} (h : Keeps s t) : Keeps s (t.opAddi n rd a imm) := by
  unfold State.opAddi
  exact .aluI h

theorem Keeps.opAndi {s t : State} {n rd a : Nat} {imm : BitVec 15} (h : Keeps s t) : Keeps s (t.opAndi n rd a imm) := by
  unfold State.opAndi
  exact .aluI h

theorem Keeps.opOri {s t : State} {n rd a : Nat} {imm : BitVec 15} (h : Keeps s t) : Keeps s (t.opOri n rd a imm) := by
  unfold State.opOri
  exact .aluI h

theorem Keeps.opXori {s t : State} {n rd a : Nat} {imm : BitVec 15} (h : Keeps s t) : Keeps s (t.opXori n rd a imm) := by
  unfold State.opXori
  exact .aluI h

theorem Keeps.opSlli {s t : State} {n rd a sh : Nat} (h : Keeps s t) : Keeps s (t.opSlli n rd a sh) := by
  unfold State.opSlli
  exact .aluI h

theorem Keeps.opSrli {s t : State} {n rd a sh : Nat} (h : Keeps s t) : Keeps s (t.opSrli n rd a sh) := by
  unfold State.opSrli
  exact .aluI h

theorem Keeps.opSrai {s t : State} {n rd a sh : Nat} (h : Keeps s t) : Keeps s (t.opSrai n rd a sh) := by
  unfold State.opSrai
  exact .aluI h

theorem Keeps.opShori {s t : State} {n rd a : Nat} {imm : BitVec 15} (h : Keeps s t) : Keeps s (t.opShori n rd a imm) := by
  unfold State.opShori
  exact .aluI h

theorem KeepsNext.execAdd {s t : State} {n : TileId} {rd rs1 rs2 : Reg} (h : Keeps s t) : KeepsNext s (execAdd n rd rs1 rs2 t) := by
  unfold Machine.execAdd
  exact .slot h (fun _ hk => .opAdd hk)

theorem KeepsNext.execSub {s t : State} {n : TileId} {rd rs1 rs2 : Reg} (h : Keeps s t) : KeepsNext s (execSub n rd rs1 rs2 t) := by
  unfold Machine.execSub
  exact .slot h (fun _ hk => .opSub hk)

theorem KeepsNext.execAnd {s t : State} {n : TileId} {rd rs1 rs2 : Reg} (h : Keeps s t) : KeepsNext s (execAnd n rd rs1 rs2 t) := by
  unfold Machine.execAnd
  exact .slot h (fun _ hk => .opAnd hk)

theorem KeepsNext.execOr {s t : State} {n : TileId} {rd rs1 rs2 : Reg} (h : Keeps s t) : KeepsNext s (execOr n rd rs1 rs2 t) := by
  unfold Machine.execOr
  exact .slot h (fun _ hk => .opOr hk)

theorem KeepsNext.execXor {s t : State} {n : TileId} {rd rs1 rs2 : Reg} (h : Keeps s t) : KeepsNext s (execXor n rd rs1 rs2 t) := by
  unfold Machine.execXor
  exact .slot h (fun _ hk => .opXor hk)

theorem KeepsNext.execSll {s t : State} {n : TileId} {rd rs1 rs2 : Reg} (h : Keeps s t) : KeepsNext s (execSll n rd rs1 rs2 t) := by
  unfold Machine.execSll
  exact .slot h (fun _ hk => .opSll hk)

theorem KeepsNext.execSrl {s t : State} {n : TileId} {rd rs1 rs2 : Reg} (h : Keeps s t) : KeepsNext s (execSrl n rd rs1 rs2 t) := by
  unfold Machine.execSrl
  exact .slot h (fun _ hk => .opSrl hk)

theorem KeepsNext.execSra {s t : State} {n : TileId} {rd rs1 rs2 : Reg} (h : Keeps s t) : KeepsNext s (execSra n rd rs1 rs2 t) := by
  unfold Machine.execSra
  exact .slot h (fun _ hk => .opSra hk)

theorem KeepsNext.execSlt {s t : State} {n : TileId} {rd rs1 rs2 : Reg} (h : Keeps s t) : KeepsNext s (execSlt n rd rs1 rs2 t) := by
  unfold Machine.execSlt
  exact .slot h (fun _ hk => .opSlt hk)

theorem KeepsNext.execSltu {s t : State} {n : TileId} {rd rs1 rs2 : Reg} (h : Keeps s t) : KeepsNext s (execSltu n rd rs1 rs2 t) := by
  unfold Machine.execSltu
  exact .slot h (fun _ hk => .opSltu hk)

theorem KeepsNext.execMul {s t : State} {n : TileId} {rd rs1 rs2 : Reg} (h : Keeps s t) : KeepsNext s (execMul n rd rs1 rs2 t) := by
  unfold Machine.execMul
  exact .slot h (fun _ hk => .opMul hk)

theorem KeepsNext.execMulh {s t : State} {n : TileId} {rd rs1 rs2 : Reg} (h : Keeps s t) : KeepsNext s (execMulh n rd rs1 rs2 t) := by
  unfold Machine.execMulh
  exact .slot h (fun _ hk => .opMulh hk)

theorem KeepsNext.execSelnz {s t : State} {n : TileId} {rd rs1 rs2 : Reg} (h : Keeps s t) : KeepsNext s (execSelnz n rd rs1 rs2 t) := by
  unfold Machine.execSelnz
  exact .slot h (fun _ hk => .opSelnz hk)

theorem KeepsNext.execAddi {s t : State} {n : TileId} {rd rs1 : Reg} {imm : BitVec 15} (h :
    Keeps s t) : KeepsNext s (execAddi n rd rs1 imm t) := by
  unfold Machine.execAddi
  exact .slot h (fun _ hk => .opAddi hk)

theorem KeepsNext.execAndi {s t : State} {n : TileId} {rd rs1 : Reg} {imm : BitVec 15} (h :
    Keeps s t) : KeepsNext s (execAndi n rd rs1 imm t) := by
  unfold Machine.execAndi
  exact .slot h (fun _ hk => .opAndi hk)

theorem KeepsNext.execOri {s t : State} {n : TileId} {rd rs1 : Reg} {imm : BitVec 15} (h :
    Keeps s t) : KeepsNext s (execOri n rd rs1 imm t) := by
  unfold Machine.execOri
  exact .slot h (fun _ hk => .opOri hk)

theorem KeepsNext.execXori {s t : State} {n : TileId} {rd rs1 : Reg} {imm : BitVec 15} (h :
    Keeps s t) : KeepsNext s (execXori n rd rs1 imm t) := by
  unfold Machine.execXori
  exact .slot h (fun _ hk => .opXori hk)

theorem KeepsNext.execSlli {s t : State} {n : TileId} {rd rs1 : Reg} {sh : BitVec 6} (h :
    Keeps s t) : KeepsNext s (execSlli n rd rs1 sh t) := by
  unfold Machine.execSlli
  exact .slot h (fun _ hk => .opSlli hk)

theorem KeepsNext.execSrli {s t : State} {n : TileId} {rd rs1 : Reg} {sh : BitVec 6} (h :
    Keeps s t) : KeepsNext s (execSrli n rd rs1 sh t) := by
  unfold Machine.execSrli
  exact .slot h (fun _ hk => .opSrli hk)

theorem KeepsNext.execSrai {s t : State} {n : TileId} {rd rs1 : Reg} {sh : BitVec 6} (h :
    Keeps s t) : KeepsNext s (execSrai n rd rs1 sh t) := by
  unfold Machine.execSrai
  exact .slot h (fun _ hk => .opSrai hk)

theorem KeepsNext.execShori {s t : State} {n : TileId} {rd rs1 : Reg} {imm : BitVec 15} (h :
    Keeps s t) : KeepsNext s (execShori n rd rs1 imm t) := by
  unfold Machine.execShori
  exact .slot h (fun _ hk => .opShori hk)

theorem KeepsNext.execLd {s t : State} {n : TileId} {rd rs1 : Reg} {imm : BitVec 15} (h :
    Keeps s t) : KeepsNext s (execLd n rd rs1 imm t) := by
  unfold Machine.execLd
  exact .slot h (fun _ hk => .opLoad hk)

theorem KeepsNext.execLw {s t : State} {n : TileId} {rd rs1 : Reg} {imm : BitVec 15} (h :
    Keeps s t) : KeepsNext s (execLw n rd rs1 imm t) := by
  unfold Machine.execLw
  exact .slot h (fun _ hk => .opLoad hk)

theorem KeepsNext.execLwu {s t : State} {n : TileId} {rd rs1 : Reg} {imm : BitVec 15} (h :
    Keeps s t) : KeepsNext s (execLwu n rd rs1 imm t) := by
  unfold Machine.execLwu
  exact .slot h (fun _ hk => .opLoad hk)

theorem KeepsNext.execSd {s t : State} {n : TileId} {rd rs1 : Reg} {imm : BitVec 15} (h :
    Keeps s t) : KeepsNext s (execSd n rd rs1 imm t) := by
  unfold Machine.execSd
  exact .slot h (fun _ hk => .opStore hk)

theorem KeepsNext.execSw {s t : State} {n : TileId} {rd rs1 : Reg} {imm : BitVec 15} (h :
    Keeps s t) : KeepsNext s (execSw n rd rs1 imm t) := by
  unfold Machine.execSw
  exact .slot h (fun _ hk => .opStore hk)

theorem KeepsNext.execAtom {s t : State} {n : TileId} {sub : Fin 6} {rd rs1 rs2 : Reg} (h :
    Keeps s t) : KeepsNext s (execAtom n sub rd rs1 rs2 t) := by
  unfold Machine.execAtom
  exact .slot h (fun _ hk => .opAtom hk)

theorem KeepsNext.execMfv {s t : State} {n : TileId} {rd vs : Reg} {half : Bool} {idx : BitVec 8} (h :
    Keeps s t) : KeepsNext s (execMfv n rd vs half idx t) := by
  unfold Machine.execMfv
  exact .slot h (fun _ hk => .ite _ (.illegalOp hk) (.opMfv hk))

theorem KeepsNext.execRdcsr {s t : State} {n : TileId} {rd : Reg} {csr : Fin 3} (h : Keeps s t) : KeepsNext s (execRdcsr n rd csr t) := by
  unfold Machine.execRdcsr
  exact .slot h (fun _ hk => .opRdcsr hk)

theorem KeepsNext.execCompactAdd {s t : State} {n : TileId} {rd rs1 rs2 : Fin 16} (h :
    Keeps s t) : KeepsNext s (execCompactAdd n rd rs1 rs2 t) := by
  unfold Machine.execCompactAdd
  exact .slot h (fun _ hk => .opAdd hk)

theorem KeepsNext.execCompactSub {s t : State} {n : TileId} {rd rs1 rs2 : Fin 16} (h :
    Keeps s t) : KeepsNext s (execCompactSub n rd rs1 rs2 t) := by
  unfold Machine.execCompactSub
  exact .slot h (fun _ hk => .opSub hk)

theorem KeepsNext.execCompactAnd {s t : State} {n : TileId} {rd rs1 rs2 : Fin 16} (h :
    Keeps s t) : KeepsNext s (execCompactAnd n rd rs1 rs2 t) := by
  unfold Machine.execCompactAnd
  exact .slot h (fun _ hk => .opAnd hk)

theorem KeepsNext.execCompactOr {s t : State} {n : TileId} {rd rs1 rs2 : Fin 16} (h :
    Keeps s t) : KeepsNext s (execCompactOr n rd rs1 rs2 t) := by
  unfold Machine.execCompactOr
  exact .slot h (fun _ hk => .opOr hk)

theorem KeepsNext.execCompactXor {s t : State} {n : TileId} {rd rs1 rs2 : Fin 16} (h :
    Keeps s t) : KeepsNext s (execCompactXor n rd rs1 rs2 t) := by
  unfold Machine.execCompactXor
  exact .slot h (fun _ hk => .opXor hk)

theorem KeepsNext.execCompactSll {s t : State} {n : TileId} {rd rs1 rs2 : Fin 16} (h :
    Keeps s t) : KeepsNext s (execCompactSll n rd rs1 rs2 t) := by
  unfold Machine.execCompactSll
  exact .slot h (fun _ hk => .opSll hk)

theorem KeepsNext.execCompactSrl {s t : State} {n : TileId} {rd rs1 rs2 : Fin 16} (h :
    Keeps s t) : KeepsNext s (execCompactSrl n rd rs1 rs2 t) := by
  unfold Machine.execCompactSrl
  exact .slot h (fun _ hk => .opSrl hk)

theorem KeepsNext.execCompactMov {s t : State} {n : TileId} {rd rs1 : Fin 16} (h :
    Keeps s t) : KeepsNext s (execCompactMov n rd rs1 t) := by
  unfold Machine.execCompactMov
  exact .slot h (fun _ hk => .aluI hk)

/-! The meanings of Machine/Issue. -/

theorem KeepsNext.slotMeaning {s t : State} {i : Instr} (h : Keeps s t) : KeepsNext s (slotMeaning i t) := by
  unfold Machine.slotMeaning
  split
  · exact .execMove h
  · exact .execQsend h
  · exact .execRecv h
  · exact .execPeek h
  · exact .execDiscard h
  · exact .execEvctlStart h
  · exact .execEvctlDrain h
  · exact .execEvctlStop h
  · exact .execLearn h
  · exact .execArrive h
  · exact .execFlag h
  · exact .execLoad8 h
  · exact .execStore8 h
  · exact .execAtomic h
  · exact .execFence h
  · exact .execAdd h
  · exact .execSub h
  · exact .execAnd h
  · exact .execOr h
  · exact .execXor h
  · exact .execSll h
  · exact .execSrl h
  · exact .execSra h
  · exact .execSlt h
  · exact .execSltu h
  · exact .execMul h
  · exact .execMulh h
  · exact .execSelnz h
  · exact .execAddi h
  · exact .execAndi h
  · exact .execOri h
  · exact .execXori h
  · exact .execSlli h
  · exact .execSrli h
  · exact .execSrai h
  · exact .execShori h
  · exact .execLd h
  · exact .execLw h
  · exact .execLwu h
  · exact .execSd h
  · exact .execSw h
  · exact .execAtom h
  · exact .execMfv h
  · exact .execRdcsr h
  · exact .execCompactAdd h
  · exact .execCompactSub h
  · exact .execCompactAnd h
  · exact .execCompactOr h
  · exact .execCompactXor h
  · exact .execCompactSll h
  · exact .execCompactSrl h
  · exact .execCompactMov h
  · exact .execVadd h
  · exact .execVsub h
  · exact .execVmul h
  · exact .execVfma h
  · exact .execVmax h
  · exact .execVmin h
  · exact .execVlerp h
  · exact .execVrms h
  · exact .execVdive h
  · exact .execVrcp h
  · exact .execVrsqrt h
  · exact .execVexp2 h
  · exact .execVlog2 h
  · exact .execVsqrt h
  · exact .execVcmp h
  · exact .execVsel h
  · exact .execVcvt h
  · exact .execVred h
  · exact .execVscan h
  · exact .execVscanl h
  · exact .execVld h
  · exact .execVst h
  · exact .execVbcast h
  · exact .execVsetk h
  · exact .execVdq h
  · exact .execVq h
  · exact .execLdw h
  · exact .execSwapw h
  · exact .execMac h
  · exact .execOut h
  · exact .execClr h
  · exact .next h

theorem Keeps.runSlot {s t : State} {i : Instr} (h : Keeps s t) : Keeps s (runSlot i t) := by
  unfold Machine.runSlot
  split
  · next s1 e =>
      have h1 : Keeps s s1 := .of_next e (.slotMeaning h)
      exact h1
  · exact h

theorem Keeps.setLoops {s t : State} {n : Nat} {st : List LoopEntry} (h : Keeps s t) : Keeps s (t.setLoops n st) := by
  unfold State.setLoops
  exact .put (.modTile h (fun _ c => c))

theorem Keeps2.laneWord {s t : State} {n i : Nat} (h : Keeps s t) : Keeps2 s (t.laneWord n i) := by
  unfold State.laneWord
  split
  · exact .mk h
  · exact .ite _ (.mk h) (.draw h)

theorem Keeps.runBundle {s t : State} {n i : Nat} {st : List LoopEntry} {ops : List Instr} (h :
    Keeps s t) : Keeps s (t.runBundle n i st ops) := by
  unfold State.runBundle
  exact .fold (fun _ _ hk => .runSlot hk) (.put (.setLoops h))

theorem Keeps.executeLane {s t : State} {n : TileId} {g : Go} (h : Keeps s t) : Keeps s (t.executeLane n g) := by
  unfold State.executeLane
  exact .ite _ (.tileFault (.put h)) (by
    extract_lets +onlyGivenNames s2
    have h2 : Keeps s s2 := .ite _ (.put h) (.modTile (.add (.put h)) (fun _ c => c))
    exact .ite _ (.tileFault h2) (by
      extract_lets +onlyGivenNames _ s1
      have h1 : Keeps s s1 := .snd (.laneWord h2)
      split
      · exact .ite _ (.tileFault h1) (by
          split
          · exact .tileFault h1
          · exact .ite _ (.tileFault h1) (.runBundle h1))
      · exact .tileFault h1))

theorem Keeps.takeGo {s t : State} {n : Nat} {g : Go} (h : Keeps s t) : Keeps s (t.takeGo n g) := by
  unfold State.takeGo
  exact .modIssue h

theorem Keeps.bundleExecute {s t : State} {n : TileId} (h : Keeps s t) : Keeps s (t.bundleExecute n) := by
  unfold State.bundleExecute
  split
  · exact h
  · exact .ite _ (.executeLane (.takeGo h)) (.takeGo h)

theorem Keeps.condTake {s t : State} {cond arg : Nat} (h : Keeps s t) : Keeps s (t.condTake cond arg) := by
  unfold State.condTake
  split
  · exact .setBarDone h
  · exact .put h
  · exact .put h
  · exact h

theorem Keeps.waitCycle {s t : State} (h : Keeps s t) : Keeps s (t.waitCycle) := by
  unfold State.waitCycle
  exact .add h

theorem Keeps.waitOver {s t : State} {w : WaitRec} (h : Keeps s t) : Keeps s (t.waitOver w) := by
  unfold State.waitOver
  exact .modIssue (.put (.condTake h))

theorem Keeps.waitTest {s t : State} (h : Keeps s t) : Keeps s (t.waitTest) := by
  unfold State.waitTest
  split
  · exact h
  · exact .ite _ (.setStream (.waitOver (.waitCycle h))) (.ite _ (.faultHalt (.waitCycle h)) (.modIssue (.waitCycle h)))

theorem Keeps.armWait {s t : State} {cond arg index : Nat} (h : Keeps s t) : Keeps s (t.armWait cond arg index) := by
  unfold State.armWait
  exact .ite _ h (.ite _ (.ite _ (.waitOver (.modIssue h)) (.modIssue h)) (.ite _ (.modIssue h) (.put (.setStream (.modIssue h)))))

theorem Keeps.runGop {s t : State} {g : Gop} (h : Keeps s t) : Keeps s (t.runGop g) := by
  unfold State.runGop
  split
  · exact .stepOne h
  · exact .stepOne h
  · exact .stepRun h
  · exact .stepHalt h
  · exact .put h
  · exact .changeFlag h
  · exact .changeFlag h
  · exact h

theorem Keeps.runGops {s t : State} {a b : Gop} (h : Keeps s t) : Keeps s (t.runGops a b) := by
  unfold State.runGops
  split
  · exact .ite _ (.runGop h) (.runGop (.runGop h))
  · exact .runGop (.runGop h)

theorem Keeps.runEnd {s t : State} {index : Nat} (h : Keeps s t) : Keeps s (t.runEnd index) := by
  unfold State.runEnd
  exact .ite _ (.endStream h) h

theorem Keeps.enterHalted {s t : State} {cause index : Nat} (h : Keeps s t) : Keeps s (t.enterHalted cause index) := by
  unfold State.enterHalted
  exact .ite _ (.endStream h) (.endStream h)

theorem Keeps.stepHalted {s t : State} {index : Nat} (h : Keeps s t) : Keeps s (t.stepHalted index) := by
  unfold State.stepHalted
  exact .ite _ (.put (.enterHalted h)) (.enterHalted h)

theorem Keeps.executeGlobal {s t : State} {g : Go} (h : Keeps s t) : Keeps s (t.executeGlobal g) := by
  unfold State.executeGlobal
  split
  · exact .faultHalt h
  · extract_lets +onlyGivenNames _ s2 s1
    have h2 : Keeps s s2 := (by
      unfold s2
      split
      · exact .armWait (.runGops h)
      · exact .runGops h)
    have h1 : Keeps s s1 := .ite _ (.runEnd h2) h2
    exact .ite _ (.stepHalted h1) h1

theorem Keeps.executeDue {s t : State} (h : Keeps s t) : Keeps s (t.executeDue) := by
  unfold State.executeDue
  split
  · exact h
  · exact .ite _ h (.executeGlobal (.modIssue (.fold (fun _ _ hk => .bundleExecute hk) h)))

theorem Keeps2.globalWord {s t : State} {i : Nat} (h : Keeps s t) : Keeps2 s (t.globalWord i) := by
  unfold State.globalWord
  split
  · exact .mk h
  · exact .draw h

theorem Keeps.testExit {s t : State} {e : Option (Nat × Nat)} (h : Keeps s t) : Keeps s (t.testExit e) := by
  unfold State.testExit
  split
  · exact .modIssue h
  · exact .modIssue (.ite _ (.condTake h) h)

theorem Keeps.goOut {s t : State} {i : Nat} {w : Word128} {exit : Bool} {next : Nat} (h : Keeps s t) : Keeps s (t.goOut i w exit next) := by
  unfold State.goOut
  exact .modIssue (.put (.put h))

theorem Keeps.sendGo {s t : State} (h : Keeps s t) : Keeps s (t.sendGo) := by
  unfold State.sendGo
  exact .ite _ (.modIssue (.cause h)) (.ite _ (.faultHalt (.modIssue h)) (by
    extract_lets +onlyGivenNames _ s1
    have h1 : Keeps s s1 := .testExit (.snd (.globalWord (.modIssue h)))
    split
    · exact .faultHalt h1
    · exact .goOut (.modIssue h1)))

theorem Keeps.control {s t : State} (h : Keeps s t) : Keeps s (t.control) := by
  unfold State.control
  exact .ite _ h (.ite _ (.modIssue h) (.ite _ (.modIssue h) (.ite _ (.waitTest h) (.ite _ h (.sendGo h)))))

theorem Keeps.settleEnd {s t : State} (h : Keeps s t) : Keeps s (t.settleEnd) := by
  unfold State.settleEnd
  split
  · exact h
  · exact .ite _ h (.ite _ (.endStream h) (.enterHalted h))

theorem Keeps.nextPeriod {s t : State} (h : Keeps s t) : Keeps s (t.nextPeriod) := by
  unfold State.nextPeriod
  exact .fold (fun _ _ hk => .modTile hk (fun _ c => c)) (.fold (fun _ _ hk => .commitDue hk) (.modIssue (.frame h)))

theorem Keeps.launchPeriod {s t : State} (h : Keeps s t) : Keeps s (t.launchPeriod) := by
  unfold State.launchPeriod
  exact .settle (.nextPeriod (.stepAdvance (.settleEnd (.control (.executeDue h)))))

theorem KeepsNext.execLaunchWord {s t : State} (h : Keeps s t) : KeepsNext s (execLaunchWord t) := by
  unfold Machine.execLaunchWord
  exact .ite _ (.next (.launchPeriod h)) (.next h)

theorem KeepsNext.execBundleExecute {s t : State} {n : TileId} (h : Keeps s t) : KeepsNext s (execBundleExecute n t) := by
  unfold Machine.execBundleExecute
  exact .next (.bundleExecute h)

theorem Keeps.loopOp {s t : State} {who : Option TileId} {l : Lop} (h : Keeps s t) : Keeps s (t.loopOp who l) := by
  unfold State.loopOp
  split
  · split
    · exact .faultHalt h
    · exact .modIssue h
  · exact .ite _ h (by
      extract_lets +onlyGivenNames _
      split
      · exact .tileFault h
      · exact .ite _ (.tileFault h) (.setLoops h))

theorem Keeps.waitBundle {s t : State} {cond arg : Nat} (h : Keeps s t) : Keeps s (t.waitBundle cond arg) := by
  unfold State.waitBundle
  exact .ite _ (.armWait h) h

theorem KeepsNext.execLstart {s t : State} {who : Option TileId} {lvl : Fin 4} {count : BitVec 12} (h :
    Keeps s t) : KeepsNext s (execLstart who lvl count t) := by
  unfold Machine.execLstart
  exact .next (.loopOp h)

theorem KeepsNext.execLend {s t : State} {who : Option TileId} {lvl : Fin 4} (h : Keeps s t) : KeepsNext s (execLend who lvl t) := by
  unfold Machine.execLend
  exact .next (.loopOp h)

theorem KeepsNext.execLone {s t : State} {who : Option TileId} {lvl : Fin 4} {count : BitVec 12} (h :
    Keeps s t) : KeepsNext s (execLone who lvl count t) := by
  unfold Machine.execLone
  exact .next (.loopOp h)

theorem KeepsNext.execEnd {s t : State} (h : Keeps s t) : KeepsNext s (execEnd t) := by
  unfold Machine.execEnd
  exact .next (.runEnd h)

theorem KeepsNext.execExitif {s t : State} {cond : BitVec 7} {arg : BitVec 16} (h : Keeps s t) : KeepsNext s (execExitif cond arg t) := by
  unfold Machine.execExitif
  exact .next (.ite _ (.testExit h) (.faultHalt h))

theorem KeepsNext.execDbclr {s t : State} {bit : Fin 32} (h : Keeps s t) : KeepsNext s (execDbclr bit t) := by
  unfold Machine.execDbclr
  exact .next (.runGop h)

theorem KeepsNext.execSetflag {s t : State} {f : Fin 16} (h : Keeps s t) : KeepsNext s (execSetflag f t) := by
  unfold Machine.execSetflag
  exact .next (.runGop h)

theorem KeepsNext.execClrflag {s t : State} {f : Fin 16} (h : Keeps s t) : KeepsNext s (execClrflag f t) := by
  unfold Machine.execClrflag
  exact .next (.runGop h)

theorem KeepsNext.execWaitBarrier {s t : State} {g : Fin 64} (h : Keeps s t) : KeepsNext s (execWaitBarrier g t) := by
  unfold Machine.execWaitBarrier
  exact .next (.waitBundle h)

theorem KeepsNext.execWaitMover {s t : State} {m : Fin 32} (h : Keeps s t) : KeepsNext s (execWaitMover m t) := by
  unfold Machine.execWaitMover
  exact .next (.waitBundle h)

theorem KeepsNext.execWaitEvtDrain {s t : State} (h : Keeps s t) : KeepsNext s (execWaitEvtDrain t) := by
  unfold Machine.execWaitEvtDrain
  exact .next (.waitBundle h)

theorem KeepsNext.execWaitStepTimer {s t : State} (h : Keeps s t) : KeepsNext s (execWaitStepTimer t) := by
  unfold Machine.execWaitStepTimer
  exact .next (.waitBundle h)

theorem KeepsNext.execWaitDoorbell {s t : State} {bit : Fin 32} (h : Keeps s t) : KeepsNext s (execWaitDoorbell bit t) := by
  unfold Machine.execWaitDoorbell
  exact .next (.waitBundle h)

theorem KeepsNext.execWaitFlagSet {s t : State} {f : Fin 16} (h : Keeps s t) : KeepsNext s (execWaitFlagSet f t) := by
  unfold Machine.execWaitFlagSet
  exact .next (.waitBundle h)

theorem KeepsNext.execWaitFlagClr {s t : State} {f : Fin 16} (h : Keeps s t) : KeepsNext s (execWaitFlagClr f t) := by
  unfold Machine.execWaitFlagClr
  exact .next (.waitBundle h)

theorem KeepsNext.execWaitTracked {s t : State} (h : Keeps s t) : KeepsNext s (execWaitTracked t) := by
  unfold Machine.execWaitTracked
  exact .next (.waitBundle h)

theorem KeepsNext.execWaitCycles {s t : State} {cyc : BitVec 24} (h : Keeps s t) : KeepsNext s (execWaitCycles cyc t) := by
  unfold Machine.execWaitCycles
  exact .next (.waitBundle h)

theorem KeepsNext.execWaitSatisfied {s t : State} (h : Keeps s t) : KeepsNext s (execWaitSatisfied t) := by
  unfold Machine.execWaitSatisfied
  split
  · exact .next h
  · exact .ite _ (.next (.setStream (.waitOver (.waitCycle h)))) (.next h)

theorem KeepsNext.execWaitTimeout {s t : State} (h : Keeps s t) : KeepsNext s (execWaitTimeout t) := by
  unfold Machine.execWaitTimeout
  split
  · exact .next h
  · exact .ite _ (.next (.faultHalt (.waitCycle h))) (.next h)

theorem Keeps.startStream {s t : State} {r : ImageRec} (h : Keeps s t) : Keeps s (t.startStream r) := by
  unfold State.startStream
  exact .settle <| .setStream <| .modIssue <| .setHalt <| .put <| .fold (fun _ _ hk => .put hk) <|
    .fold (fun _ _ hk => .setLoops (.modTile hk (fun _ c => c))) h

theorem Keeps.stopNow {s t : State} (h : Keeps s t) : Keeps s (t.stopNow) := by
  unfold State.stopNow
  exact .settle (.stepAdvance (.endStream h))

theorem KeepsNext.actStart {s t : State} (h : Keeps s t) : KeepsNext s (actStart t) := by
  unfold Machine.actStart
  exact .ite _ (.next h) (by
    split
    · exact .next (.startStream h)
    · exact .next (.refuse h)
    · exact .next (.refuse h))

theorem KeepsNext.actStop {s t : State} (h : Keeps s t) : KeepsNext s (actStop t) := by
  unfold Machine.actStop
  exact .ite _ (.next h) (.ite _ (.next (.stopNow h)) (.ite _ (.next (.modIssue h)) (.next h)))

theorem KeepsNext.actDbgHalt {s t : State} (h : Keeps s t) : KeepsNext s (actDbgHalt t) := by
  unfold Machine.actDbgHalt
  exact .ite _ (.next (.modIssue h)) (.next h)

theorem KeepsNext.actResume {s t : State} (h : Keeps s t) : KeepsNext s (actResume t) := by
  unfold Machine.actResume
  exact .ite _ (.next h) (by
    split
    · exact .next (.stepAdvance (.put (.setStream (.modIssue h))))
    · exact .next (.stepAdvance (.setStream (.modIssue h))))

theorem KeepsNext.actDbgStep {s t : State} (h : Keeps s t) : KeepsNext s (actDbgStep t) := by
  unfold Machine.actDbgStep
  exact .ite _ (.next h) (by
    split
    · exact .ite _ (.next (.setHalt (.waitOver h))) (.next (.setHalt (.put (.modIssue h))))
    · exact .next (.stepAdvance (.setStream (.modIssue h))))

theorem KeepsNext.execStepDone {s t : State} (h : Keeps s t) : KeepsNext s (execStepDone t) := by
  unfold Machine.execStepDone
  exact .ite _ (.next (.executeDue h)) (.next h)

/-! The meanings of Machine/Host. -/

theorem Keeps.modPcie {s t : State} {f : PcieS → PcieS} (h : Keeps s t) : Keeps s (t.modPcie f) := by
  unfold State.modPcie
  exact .frame h

theorem Keeps.aer {s t : State} {e : AerError} (h : Keeps s t) : Keeps s (t.aer e) := by
  unfold State.aer
  exact .modPcie h

theorem Keeps.hostErr {s t : State} {st a : Nat} (h : Keeps s t) : Keeps s (t.hostErr st a) := by
  unfold State.hostErr
  exact .cause (.put (.put (.bump h)))

theorem Keeps.tlpsDone {s t : State} (h : Keeps s t) : Keeps s (t.tlpsDone) := by
  unfold State.tlpsDone
  exact .fold (fun _ _ hk => (by
    extract_lets +onlyGivenNames _ _ _ s1
    have h1 : Keeps s s1 := .ite _ (.modPcie hk) (.aer (.modPcie hk))
    exact .ite _ h1 (.emit h1))) h

theorem Keeps.tlpPart {s t : State} {id i st : Nat} {data : List Byte} (h : Keeps s t) : Keeps s (t.tlpPart id i st data) := by
  unfold State.tlpPart
  extract_lets +onlyGivenNames a _
  clear_value a
  split
  · exact .ite _ (.modPcie h) (.hostErr (.modPcie h))
  · exact .modPcie h

theorem Keeps.pciePump {s t : State} (h : Keeps s t) : Keeps s (t.pciePump) := by
  unfold State.pciePump
  exact .tlpsDone (.fold (fun _ _ hk => .ite _ hk (.fold (fun _ _ hk2 => (by
    split
    · exact hk2
    · exact .ite _ hk2 (by
        split
        · exact .tlpPart hk2
        · exact .request (.modPcie hk2)))) hk)) h)

theorem KeepsSome.pcieResponse {s t : State} {tag st : Nat} {data : List Byte} (h : Keeps s t) : KeepsSome s (t.pcieResponse tag st data) :=
  .ite _ (.some (.modPcie h)) (.findSome fun _ => .map fun _ => .pciePump (.tlpsDone (.tlpPart h)))

theorem Keeps.tlpIn {s t : State} {wr : Bool} {ofs len : Nat} {parts : List (Nat × List Byte × Nat)} (h :
    Keeps s t) : Keeps s (t.tlpIn wr ofs len parts) := by
  unfold State.tlpIn
  exact .pciePump (.modPcie h)

theorem Keeps.pcieCompute {s t : State} (h : Keeps s t) : Keeps s (t.pcieCompute) := by
  unfold State.pcieCompute
  exact .tlpsDone (.fold (fun _ _ hk => .tlpPart hk) (.modPcie h))

theorem Keeps.pcieReset {s t : State} {training : Bool} (h : Keeps s t) : Keeps s (t.pcieReset training) := by
  unfold State.pcieReset
  exact .frame (.clearRegs h)

theorem Keeps.pcieDown {s t : State} (h : Keeps s t) : Keeps s (t.pcieDown) := by
  unfold State.pcieDown
  exact .put (.put (.put (.put h)))

theorem Keeps.outTags {s t : State} (h : Keeps s t) : Keeps s (t.outTags) := by
  unfold State.outTags
  exact .fold (fun _ _ hk => (by
    split
    · exact hk
    · exact .ite _ hk (by
        split
        · exact hk
        · exact .emit (.modPcie hk)))) h

theorem Keeps2.hostServe {s t : State} {op ep key a size : Nat} {data : List Byte} (h :
    Keeps s t) : Keeps2 s (t.hostServe op ep key a size data) := by
  unfold State.hostServe
  exact .ite _ (.mk h) (.ite _ (.mk (.fold (fun _ _ hk => .emit hk) h)) (.mk (.outTags (.modPcie h))))

theorem Keeps.outDone {s t : State} {o : OutRead} {st : Nat} {data : List Byte} (h : Keeps s t) : Keeps s (t.outDone o st data) := by
  unfold State.outDone
  exact .outTags (.reply (.modPcie h))

theorem Keeps.outFail {s t : State} {o : OutRead} (h : Keeps s t) : Keeps s (t.outFail o) := by
  unfold State.outFail
  exact .outDone h

theorem KeepsNext.execPerstDeassert {s t : State} (h : Keeps s t) : KeepsNext s (execPerstDeassert t) := by
  unfold Machine.execPerstDeassert
  exact .ite _ (.next (.pcieDown (.pcieReset h))) (.next h)

theorem KeepsNext.execHotReset {s t : State} (h : Keeps s t) : KeepsNext s (execHotReset t) := by
  unfold Machine.execHotReset
  exact .next (.pcieReset h)

theorem KeepsNext.execFunctionLevelReset {s t : State} (h : Keeps s t) : KeepsNext s (execFunctionLevelReset t) := by
  unfold Machine.execFunctionLevelReset
  exact .next (.pcieReset h)

theorem KeepsNext.execPcieLinkDown {s t : State} (h : Keeps s t) : KeepsNext s (execPcieLinkDown t) := by
  unfold Machine.execPcieLinkDown
  exact .next (.pcieDown (.pcieReset h))

theorem KeepsNext.execPcieLinkTrained {s t : State} {speed : Fin 8} {width : Fin 32} {flit : Bool} (h :
    Keeps s t) : KeepsNext s (execPcieLinkTrained speed width flit t) := by
  unfold Machine.execPcieLinkTrained
  exact .ite _ (.next h) (.next (.put (.put (.put (.put (.modPcie h))))))

theorem KeepsNext.execBar2Tlp {s t : State} {tlp : Bar2Tlp} (h : Keeps s t) : KeepsNext s (execBar2Tlp tlp t) := by
  unfold Machine.execBar2Tlp
  split
  · exact .ite _ (.next (.emit (.aer h))) (.next (.tlpIn h))
  · exact .ite _ (.next (.aer h)) (.ite _ (.next (.aer (.bump h))) (.next (.tlpIn h)))

theorem KeepsNext.execMsixSend {s t : State} {vec : Fin 2048} (h : Keeps s t) : KeepsNext s (execMsixSend vec t) := by
  unfold Machine.execMsixSend
  exact .ite _ (.next (.emit (.frame h))) (.next h)

theorem KeepsNext.execHostCompletion {s t : State} {tag : BitVec 10} {c : HostCpl} (h :
    Keeps s t) : KeepsNext s (execHostCompletion tag c t) := by
  unfold Machine.execHostCompletion
  split
  · exact .next (.aer h)
  · exact .ite _ (.next (.outFail h)) (.next (.ite _ (.outDone (.modPcie h)) (.outTags (.modPcie h))))

theorem KeepsNext.execCompletionTimeout {s t : State} {tag : BitVec 10} (h : Keeps s t) : KeepsNext s (execCompletionTimeout tag t) := by
  unfold Machine.execCompletionTimeout
  split
  · exact .next h
  · exact .next (.outFail (.aer h))

theorem KeepsNext.execConfigurationRequest {s t : State} {req : CfgReq} (h : Keeps s t) : KeepsNext s (execConfigurationRequest req t) := by
  unfold Machine.execConfigurationRequest
  split
  · exact .next (.ite _ (.modPcie h) (.fold (fun _ _ hk => .outFail hk) (.modPcie h)))
  · exact .next (.modPcie h)
  · exact .next (.modPcie h)
  · exact .next (.modPcie h)
  · exact .next (.ite _ (.modPcie h) h)
  · exact .next (.ite _ (.modPcie h) h)
  · exact .next (.ite _ (.modPcie h) h)
  · exact .next (.modPcie h)
  · exact .next (.ite _ h (.modPcie h))
  · exact .ite _ (.next (.aer h)) (.ite _ (.next (.bump h)) (.next (.emit h)))
  · exact .next (.emit h)

theorem KeepsNext.execSetEndpointId {s t : State} {eid : BitVec 8} (h : Keeps s t) : KeepsNext s (execSetEndpointId eid t) := by
  unfold Machine.execSetEndpointId
  exact .ite _ (.next h) (.ite _ (.next (.emit h)) (.next (.emit (.frame h))))

theorem KeepsNext.execGetEndpointId {s t : State} (h : Keeps s t) : KeepsNext s (execGetEndpointId t) := by
  unfold Machine.execGetEndpointId
  exact .ite _ (.next (.emit h)) (.next h)

theorem KeepsNext.execGetMctpVersionSupport {s t : State} (h : Keeps s t) : KeepsNext s (execGetMctpVersionSupport t) := by
  unfold Machine.execGetMctpVersionSupport
  exact .ite _ (.next (.emit h)) (.next h)

theorem KeepsNext.execGetMessageTypeSupport {s t : State} (h : Keeps s t) : KeepsNext s (execGetMessageTypeSupport t) := by
  unfold Machine.execGetMessageTypeSupport
  exact .ite _ (.next (.emit h)) (.next h)

/-! The meanings of Machine/Streams. -/

theorem Keeps.rxDrop {s t : State} {f : Field} {p : Nat} (h : Keeps s t) : Keeps s (t.rxDrop f p) := by
  unfold State.rxDrop
  exact .cause (.bump h)

theorem Keeps.publish {s t : State} {c : Nat} {l : List (LandSlot × List (Nat × Nat))} (h : Keeps s t) : Keeps s (publish c l t) := by
  induction l generalizing t with
  | nil => exact .freeStaleOf h
  | cons e l ih =>
    obtain ⟨e, ws⟩ := e
    cases ws with
    | nil => exact ih (.modCtx h)
    | cons w ws => exact .freeStaleOf h

theorem Keeps.landWritten {s t : State} {ep tag : Nat} (h : Keeps s t) : Keeps s (t.landWritten ep tag) := by
  unfold State.landWritten
  exact .fold (fun _ _ hk => .ite _ (.publish (.modCtx hk)) hk) h

theorem Keeps.landSlot {s t : State} {c ep a : Nat} {e : LandSlot} {data : List Byte} (h :
    Keeps s t) : Keeps s (t.landSlot c ep a e data) := by
  unfold State.landSlot
  exact .ite _ (.modCtx (.snd (.writeAny h))) (.fold (fun _ _ hk => .request (.modCtx hk)) (.modCtx h))

theorem Keeps.ctxAccept {s t : State} {f : InFrame} {c : Nat} (h : Keeps s t) : Keeps s (t.ctxAccept f c) := by
  unfold State.ctxAccept
  exact .ite _ (.ctxCount h) <|
    .ite _ (.ctxCount (.put (.ite _ h (.ctxCount h)))) (.freeStaleOf (.add (.bump (.put (.landSlot (.put (.ite _ h (.ctxCount h))))))))

theorem KeepsNext.execIngestFrame {s t : State} {f : InFrame} (h : Keeps s t) : KeepsNext s (execIngestFrame f t) := by
  unfold Machine.execIngestFrame
  exact .ite _ (.next h) (.ite _ (.next (.rxDrop h)) (.ite _ (.next (.rxDrop h)) (.ite _ (.next (.bump h)) (.ite _ (.next (.rxDrop h)) (.ite _ (.next h) (by
    split
    · exact .next (.rxDrop h)
    · exact .ite _
          (.next (.rxDrop h))
        (.ite _ (.next (.rxDrop h)) (.ite _ (.next (.rxDrop h)) (.ite _ (.next (.rxDrop h)) (.next (.ctxAccept h)))))))))))

theorem Keeps.addrReply {s t : State} {p : Nat} {v6 : Bool} {q : AddrQuery} (h : Keeps s t) : Keeps s (t.addrReply p v6 q) := by
  unfold State.addrReply
  exact .ite _ h (.ite _ (.emit h) (.bump h))

theorem KeepsNext.execArpRequest {s t : State} {p : Fin 2} {q : AddrQuery} (h : Keeps s t) : KeepsNext s (execArpRequest p q t) := by
  unfold Machine.execArpRequest
  exact .next (.addrReply h)

theorem KeepsNext.execNeighborSolicitation {s t : State} {p : Fin 2} {q : AddrQuery} (h :
    Keeps s t) : KeepsNext s (execNeighborSolicitation p q t) := by
  unfold Machine.execNeighborSolicitation
  exact .next (.addrReply h)

theorem KeepsNext.execPauseFrame {s t : State} {p : Fin 2} (h : Keeps s t) : KeepsNext s (execPauseFrame p t) := by
  unfold Machine.execPauseFrame
  exact .ite _ (.next (.bump h)) (.next h)

theorem KeepsNext.execOtherFrame {s t : State} {p : Fin 2} (h : Keeps s t) : KeepsNext s (execOtherFrame p t) := by
  unfold Machine.execOtherFrame
  exact .ite _ (.next (.bump h)) (.next h)

theorem Keeps.sendCount {s t : State} {c n step first : Nat} {fin : Bool} {data : List Byte} (h :
    Keeps s t) : Keeps s (t.sendCount c n step first fin data) := by
  unfold State.sendCount
  exact .ite _ (.bump (.bump (.put h))) (.emit (.add (.bump (.put h))))

theorem Keeps.sendWindow {s t : State} {c n last g : Nat} (h : Keeps s t) : Keeps s (t.sendWindow c n last g) := by
  unfold State.sendWindow
  exact .ite _ (.ctxCount (.modCtx (.snd (.tail (.readAny h))))) <|
    .put (.fold (fun _ _ hk => .sendCount hk) (.modCtx (.snd (.tail (.readAny h)))))

theorem KeepsNext.execCountFrame {s t : State} {c : Fin 128} (h : Keeps s t) : KeepsNext s (execCountFrame c t) := by
  unfold Machine.execCountFrame
  exact .ite _ (.next h) (by
    extract_lets +onlyGivenNames _ _ _
    split
    · exact .next h
    · exact .next (.guard h (fun _ hk => .sendWindow hk)))

theorem KeepsNext.execGateTmo {s t : State} {c : Fin 128} (h : Keeps s t) : KeepsNext s (execGateTmo c t) := by
  unfold Machine.execGateTmo
  exact .ite _ (.next h) (.next (.ctxCount (.modCtx h)))

theorem Keeps.ctxWord {s t : State} {c v : Nat} (h : Keeps s t) : Keeps s (t.ctxWord c v) := by
  unfold State.ctxWord
  extract_lets +onlyGivenNames _ _ _ _ s1
  have h1 : Keeps s s1 := .put (.put (.put (.put (.put (.put (.put h))))))
  exact .ite _ (.modCtx (.put h1)) h1

theorem KeepsNext.actContextEnable {s t : State} {src : Source} {c : Fin 128} {v : Word32} (h :
    Keeps s t) : KeepsNext s (actContextEnable src c v t) := by
  unfold Machine.actContextEnable
  exact .ite _ (.next h) (.ite _ (by
    split
    · exact .next (.refuse h)
    · exact .next (.ctxWord h)) (.next (.ctxWord h)))

theorem KeepsNext.execStreamLinkUp {s t : State} {p : Fin 2} {media : Fin 4} (h :
    Keeps s t) : KeepsNext s (execStreamLinkUp p media t) := by
  unfold Machine.execStreamLinkUp
  exact .ite _ (.next (.cause (.put (.put h)))) (.next (.put h))

theorem KeepsNext.execStreamLinkDown {s t : State} {p : Fin 2} (h : Keeps s t) : KeepsNext s (execStreamLinkDown p t) := by
  unfold Machine.execStreamLinkDown
  exact .ite _ (.next (.causeErr (.put h))) (.next h)

/-! The meanings of Machine/Twin. -/

theorem Keeps.sendTwin {s t : State} {p sub flags h' : Nat} (h : Keeps s t) : Keeps s (t.sendTwin p sub flags h') := by
  unfold State.sendTwin
  exact .sendMgmt (.modTwin h)

theorem Keeps.twinIn {s t : State} {p : Nat} {u' : TwinUnit} {f : State → State} (h :
    Keeps s t) (hf : ∀ u, Keeps s u → Keeps s (f u)) : Keeps s (t.twinIn p u' f) := by
  unfold State.twinIn
  exact .ite _ h (.ite _ (.rxMgmt h) (.ite _ (.bump (.rxMgmt h)) (hf _ (.rxMgmt h))))

theorem Keeps.handoverFail {s t : State} (h : Keeps s t) : Keeps s (t.handoverFail) := by
  unfold State.handoverFail
  exact .ite _ h (.causeErr (.put (.modTwin h)))

theorem Keeps.handoverCheck {s t : State} {sender : Bool} (h : Keeps s t) : Keeps s (t.handoverCheck sender) := by
  unfold State.handoverCheck
  exact .ite _ (.handoverDone h) h

theorem Keeps.goSolo {s t : State} (h : Keeps s t) : Keeps s (t.goSolo) := by
  unfold State.goSolo
  exact .modTwin (.setRole (.handoverFail h))

theorem KeepsNext.actTwinRole {s t : State} {src : Source} {v : Fin 8} (h : Keeps s t) : KeepsNext s (actTwinRole src v t) := by
  unfold Machine.actTwinRole
  exact .ite _ (.next (.refuse h)) <|
    .ite _ (.next (.refuse h)) <|
    .ite _ (.next (.refuse h)) (.ite _ (.next (.refuse h)) (.next (.modTwin (.setRole (.handoverFail (.accept h))))))

theorem KeepsNext.execTwinHbSend {s t : State} (h : Keeps s t) : KeepsNext s (execTwinHbSend t) := by
  unfold Machine.execTwinHbSend
  exact .ite _ (.next h) (.next (.fold (fun _ _ hk => .sendTwin hk) h))

theorem KeepsNext.execTwinHb {s t : State} {p : Fin 8} {u' : TwinUnit} (h : Keeps s t) : KeepsNext s (execTwinHb p u' t) := by
  unfold Machine.execTwinHb
  exact .ite _ (.next h) (.next (.twinIn h (fun _ hk => .ite _ (.modTwin hk) hk)))

theorem Keeps.compareRoles {s t : State} {peer : Nat} (h : Keeps s t) : Keeps s (t.compareRoles peer) := by
  unfold State.compareRoles
  exact .ite _ (.ite _ h (.cause (.ite _ h (.bump h)))) (.ite _ (.cause (.ite _ h (.bump h))) (.ite _ (.modTwin h) (.ite _ (.modTwin h) h)))

theorem KeepsNext.execTwinWindow {s t : State} (h : Keeps s t) : KeepsNext s (execTwinWindow t) := by
  unfold Machine.execTwinWindow
  exact .ite _ (.next h) (by
    split
    · exact .next (.compareRoles (.put (.put (.put (.put (.modTwin h))))))
    · exact .ite _ (.next (.put h)) (.next (.ite _ (.modTwin (.causeErr (.put (.put h)))) (.causeErr (.put (.put h))))))

theorem KeepsNext.execTakeover {s t : State} (h : Keeps s t) : KeepsNext s (execTakeover t) := by
  unfold Machine.execTakeover
  exact .ite _ (.next h) <|
    .ite _ (.next (.modTwin h)) (.ite _ (.next (.cause (.modTwin h))) (.next (.cause (.bump (.setRole (.modTwin h))))))

theorem KeepsNext.execRoleConflict {s t : State} (h : Keeps s t) : KeepsNext s (execRoleConflict t) := by
  unfold Machine.execRoleConflict
  split
  · exact .next h
  · exact .ite _ (.next (.cause (.modTwin h))) (.next (.cause (.bump (.setRole (.modTwin h)))))

theorem KeepsNext.actSick {s t : State} {src : Source} {on : Bool} (h : Keeps s t) : KeepsNext s (actSick src on t) := by
  unfold Machine.actSick
  exact .next (.selfDemote (.put h))

theorem KeepsNext.execStepWatchdog {s t : State} (h : Keeps s t) : KeepsNext s (execStepWatchdog t) := by
  unfold Machine.execStepWatchdog
  exact .ite _ (.next h) (.next (.selfDemote (.modTwin h)))

theorem KeepsNext.actHandover {s t : State} {src : Source} (h : Keeps s t) : KeepsNext s (actHandover src t) := by
  unfold Machine.actHandover
  exact .ite _ (.next (.refuse h)) (by
    extract_lets +onlyGivenNames _ _
    split
    · exact .next (.sendTwin (.put (.modTwin h)))
    · exact .next (.put (.modTwin h)))

theorem KeepsNext.execHandoverRequest {s t : State} {p : Fin 8} {u' : TwinUnit} (h :
    Keeps s t) : KeepsNext s (execHandoverRequest p u' t) := by
  unfold Machine.execHandoverRequest
  exact .next (.twinIn h (fun _ hk => .ite _ (.sendTwin hk) (.put (.put (.modTwin (.sendTwin hk))))))

theorem KeepsNext.execHandoverAck {s t : State} {p : Fin 8} {u' : TwinUnit} (h : Keeps s t) : KeepsNext s (execHandoverAck p u' t) := by
  unfold Machine.execHandoverAck
  exact .next (.twinIn h (fun _ hk => .ite _ hk (.ite _ (.handoverFail hk) (.handoverCheck (.put (.modTwin hk))))))

theorem KeepsNext.execHandoverTimeout {s t : State} (h : Keeps s t) : KeepsNext s (execHandoverTimeout t) := by
  unfold Machine.execHandoverTimeout
  exact .ite _ (.next (.handoverFail h)) (.next h)

theorem KeepsNext.actDetach {s t : State} {src : Source} (h : Keeps s t) : KeepsNext s (actDetach src t) := by
  unfold Machine.actDetach
  exact .ite _ (.next h) (.next (.goSolo (.fold (fun _ _ hk => .sendTwin hk) h)))

theorem KeepsNext.execDetachUnit {s t : State} {p : Fin 8} {u' : TwinUnit} (h : Keeps s t) : KeepsNext s (execDetachUnit p u' t) := by
  unfold Machine.execDetachUnit
  exact .next (.twinIn h (fun _ hk => .cause (.goSolo hk)))

/-! The meanings of Machine/Panel. -/

theorem Keeps.modTimer {s t : State} {n : Nat} {f : TimerS → TimerS} (h :
    Keeps s t) : Keeps s (t.modTimer n f) :=
  .timers h (risingFrom_setAt _ _ _)

theorem Keeps.timerCause {s t : State} {n b : Nat} (h : Keeps s t) : Keeps s (t.timerCause n b) := by
  unfold State.timerCause
  exact .ite _ (.ite _ (.causeErr h) (.cause h)) h

theorem Keeps.timerStep {s t : State} {n v : Nat} (h : Keeps s t) : Keeps s (t.timerStep n v) := by
  unfold State.timerStep
  exact .ite _ (.timerCause (.put (.modTimer (.put h)))) (.put h)

theorem Keeps2.tickOne {s t : State} {n : Nat} (h : Keeps s t) : Keeps2 s (t.tickOne n) := by
  unfold State.tickOne
  exact .ite _ (.mk (.timerStep h)) <|
    .mk (.timerStep (.ite _ (.modTimer (.put (.timerCause (.put (.modTimer h))))) (.timerCause (.put (.modTimer h)))))

theorem Keeps.tickAll {s t : State} {n : Nat} (h : Keeps s t) : Keeps s (t.tickAll n) := by
  unfold State.tickAll
  exact .ite _ (.snd (.tickOne (.snd (.tickOne h)))) (.snd (.tickOne h))

theorem Keeps.gtTick {s t : State} {n : Nat} (h : Keeps s t) : Keeps s (t.gtTick n) := by
  unfold State.gtTick
  exact .ite _ h (.ite _ (.ite _ (.put h) (.put h)) (.tickAll h))

theorem Keeps.gtHold {s t : State} {n : Nat} (h : Keeps s t) : Keeps s (t.gtHold n) := by
  unfold State.gtHold
  exact .fold (fun _ _ hk => .modTimer (.put hk)) (.put h)

theorem Keeps.gtRelease {s t : State} {n : Nat} (h : Keeps s t) : Keeps s (t.gtRelease n) := by
  unfold State.gtRelease
  exact .fold (fun _ _ hk => .fold (fun _ _ hk2 => .ite _ (.tickAll hk2) hk2) (.put (.put hk))) (.put h)

theorem Keeps.gtRun {s t : State} {n : Nat} {run : Bool} (h : Keeps s t) : Keeps s (t.gtRun n run) := by
  unfold State.gtRun
  exact .put (.ite _ (.modTimer h) h)

theorem Keeps2.gtRead {s t : State} {n : Nat} (h : Keeps s t) : Keeps2 s (t.gtRead n) := by
  unfold State.gtRead
  exact .ite _ (.mk (.put h)) (.mk h)

theorem Keeps.capEnter {s t : State} {i : Nat} {falling : Bool} {v : Nat} (h : Keeps s t) : Keeps s (t.capEnter i falling v) := by
  unfold State.capEnter
  exact .timerCause (.put (.put h))

theorem Keeps.captureEdge {s t : State} {i : Nat} {falling read : Bool} (h : Keeps s t) : Keeps s (t.captureEdge i falling read) := by
  unfold State.captureEdge
  exact .ite _ h (.ite _ (.timerCause (.put h)) (.ite _ (.frame (.put h)) (.capEnter h)))

theorem Keeps.setRdata {s t : State} {src : Source} {v : Nat} (h : Keeps s t) : Keeps s (t.setRdata src v) := by
  unfold State.setRdata
  exact .frame h

theorem Keeps.detachReq {s t : State} (h : Keeps s t) : Keeps s (t.detachReq) := by
  unfold State.detachReq
  exact .ite _ (.bump h) (.cause h)

theorem Keeps.touchCheck {s t : State} (h : Keeps s t) : Keeps s (t.touchCheck) := by
  unfold State.touchCheck
  exact .ite _ h (.detachReq (.frame h))

theorem Keeps.padSample {s t : State} {touched : Bool} (h : Keeps s t) : Keeps s (t.padSample touched) := by
  unfold State.padSample
  exact .ite _ (.ite _ (.put h) (.cause (.put h))) (.touchCheck (.frame (.put h)))

theorem Keeps.panelStart {s t : State} (h : Keeps s t) : Keeps s (t.panelStart) := by
  unfold State.panelStart
  exact .put <| .put <| .put <| .put <| .put <| .put <| .modTimer <| .put <| .put <| .put <| .put <| .put <| .put <| .modTimer <| .put <|
    .put (.put (.put (.put (.put h))))

theorem KeepsNext.execButtonPress {s t : State} (h : Keeps s t) : KeepsNext s (execButtonPress t) := by
  unfold Machine.execButtonPress
  exact .ite _ (.next h) (.next (.ite _ (.cause (.captureEdge (.frame (.put h)))) (.captureEdge (.frame (.put h)))))

theorem KeepsNext.execButtonRelease {s t : State} {ms : Nat} (h : Keeps s t) : KeepsNext s (execButtonRelease ms t) := by
  unfold Machine.execButtonRelease
  exact .ite _ (.next h) <|
    .ite _ (.next (.cause (.captureEdge (.frame (.put h))))) <|
    .ite _ (.next (.captureEdge (.frame (.put h)))) <|
    .ite _ (.next (.bump (.captureEdge (.frame (.put h))))) <|
    .ite _ (.next (.cause (.put (.captureEdge (.frame (.put h)))))) (.next (.captureEdge (.frame (.put h))))

theorem KeepsNext.execLongPress {s t : State} (h : Keeps s t) : KeepsNext s (execLongPress t) := by
  unfold Machine.execLongPress
  exact .ite _ (.next h) (.next (.detachReq (.frame h)))

theorem KeepsNext.execPadChargeCycle {s t : State} {ns : BitVec 16} (h : Keeps s t) : KeepsNext s (execPadChargeCycle ns t) := by
  unfold Machine.execPadChargeCycle
  exact .ite _ (.next h) (.next (.padSample (.put h)))

theorem KeepsNext.execPadFault {s t : State} (h : Keeps s t) : KeepsNext s (execPadFault t) := by
  unfold Machine.execPadFault
  exact .ite _ (.next h) (.next (.padSample (.cause (.bump h))))

theorem KeepsNext.execLatch {s t : State} (h : Keeps s t) : KeepsNext s (execLatch t) := by
  unfold Machine.execLatch
  exact .ite _ (.next h) (.ite _ (.next (.ite _ (.put h) (.coreLog (.put h)))) (by
    extract_lets +onlyGivenNames s1
    have h1 : Keeps s s1 := .cause (.ite _ (.put h) (.coreLog (.put h)))
    exact .ite _ (.next (.selfDemote (.put h1))) (.next h1)))

theorem KeepsNext.execLatchCloses {s t : State} (h : Keeps s t) : KeepsNext s (execLatchCloses t) := by
  unfold Machine.execLatchCloses
  exact .ite _ (.next (.put h)) (.next h)

theorem KeepsNext.execCable {s t : State} {pres : BitVec 10} (h : Keeps s t) : KeepsNext s (execCable pres t) := by
  unfold Machine.execCable
  exact .ite _ (.next h) (.next (.ite _ (.put h) (.cause (.put h))))

theorem KeepsNext.execTick {s t : State} {t' : Fin 16} (h : Keeps s t) : KeepsNext s (execTick t' t) := by
  unfold Machine.execTick
  exact .next (.gtTick h)

theorem KeepsNext.execWrap {s t : State} {t' : Fin 16} (h : Keeps s t) : KeepsNext s (execWrap t' t) := by
  unfold Machine.execWrap
  exact .ite _ (.next (.gtTick h)) (.next h)

theorem KeepsNext.execMatch {s t : State} {t' : Fin 16} (h : Keeps s t) : KeepsNext s (execMatch t' t) := by
  unfold Machine.execMatch
  exact .ite _ (.next (.gtTick h)) (.next h)

theorem KeepsNext.actHold {s t : State} {src : Source} {t' : Fin 16} (h : Keeps s t) : KeepsNext s (actHold src t' t) := by
  unfold Machine.actHold
  exact .ite _ (.next (.refuse h)) (.ite _ (.next (.gtHold h)) (.next h))

theorem KeepsNext.actHoldRelease {s t : State} {src : Source} {t' : Fin 16} (h : Keeps s t) : KeepsNext s (actHoldRelease src t' t) := by
  unfold Machine.actHoldRelease
  exact .ite _ (.next (.refuse h)) (.ite _ (.next (.gtRelease h)) (.next h))

theorem KeepsNext.actGtCntRead {s t : State} {src : Source} {t' : Fin 16} (h : Keeps s t) : KeepsNext s (actGtCntRead src t' t) := by
  unfold Machine.actGtCntRead
  exact .ite _ (.next (.setRdata (.snd (.gtRead h)))) (.next h)

theorem KeepsNext.execCapture {s t : State} {i : Fin 16} {falling : Bool} {read : Option Source} (h :
    Keeps s t) : KeepsNext s (execCapture i falling read t) := by
  unfold Machine.execCapture
  exact .ite _ (.next h) (.next (by
    split
    · exact .setRdata (.captureEdge (.ite _ (.put h) h))
    · exact .captureEdge (.ite _ (.put h) h)))

theorem KeepsNext.execPendingCapture {s t : State} {i : Fin 16} {falling : Bool} (h :
    Keeps s t) : KeepsNext s (execPendingCapture i falling t) := by
  unfold Machine.execPendingCapture
  split
  · exact .next h
  · exact .ite _ (.next h) (.next (.capEnter (.frame (.put h))))

/-! The meanings of Machine/RegRead. -/

theorem Keeps.headScan {s t : State} {n i : Nat} (h : Keeps s t) : Keeps s (t.headScan n i) := by
  unfold State.headScan
  split
  · exact .ite _ (.snd (.qScan h)) h
  · exact h

theorem Keeps.unusedAccess {s t : State} {off : Nat} (h : Keeps s t) : Keeps s (t.unusedAccess off) := by
  unfold State.unusedAccess
  exact .cause (.put (.bump h))

theorem Keeps.downWrite {s t : State} (h : Keeps s t) : Keeps s (t.downWrite) := by
  unfold State.downWrite
  exact .cause (.bump h)

theorem Keeps.setShadow {s t : State} {h' : Shadow} (h : Keeps s t) : Keeps s (t.setShadow h') := by
  unfold State.setShadow
  exact .frame h

theorem Keeps2.pageRead {s t : State} {src : Source} {off : Nat} (h : Keeps s t) : Keeps2 s (t.pageRead src off) := by
  unfold State.pageRead
  exact .ite _ (.mk h) (by
    split
    · exact .mk h
    · exact .ite _ (.gtRead h) (.ite _ (.mk (.ite _ (.headScan h) h)) (.ite _ (by
        split
        · exact .ite _ (.mk h) (.mk h)
        · exact .mk h) (.mk (.setShadow h)))))

theorem Keeps.inService {s t : State} {p : Page} (h : Keeps s t) : Keeps s (t.inService p) := by
  unfold State.inService
  split
  · exact .frame h
  · exact .frame h
  · exact .frame h
  · exact .frame h
  · exact h

theorem Keeps.checkEnd {s t : State} {pg : Nat} (h : Keeps s t) : Keeps s (t.checkEnd pg) := by
  unfold State.checkEnd
  split
  · exact h
  · exact .ite _ h (by
      extract_lets +onlyGivenNames _
      split
      · exact .refuse (by
          split
          · split
            · exact .put (.put (.put (.frame h)))
            · exact .put (.frame h)
          · exact .put (.frame h))
      · extract_lets +onlyGivenNames s1
        have h1 : Keeps s s1 := .inService (.put (.accept (.put (.put (.frame h)))))
        split
        · exact .portOn h1
        · exact .memTrain h1
        · exact .panelStart h1
        · exact .mvKick h1
        · exact .scaleGroup h1
        · exact .settle h1
        · exact h1)

theorem Keeps.checkStart {s t : State} {src : Source} {p : Page} (h : Keeps s t) : Keeps s (t.checkStart src p) := by
  unfold State.checkStart
  exact .ite _ h (.put (.frame h))

theorem Keeps.slowed {s t : State} {src : Source} {off : Nat} (h : Keeps s t) : Keeps s (t.slowed src off) := by
  unfold State.slowed
  exact .ite _ (.frame h) h

theorem Keeps2.readNow {s t : State} {src : Source} {off : Nat} (h : Keeps s t) : Keeps2 s (t.readNow src off) := by
  unfold State.readNow
  exact .ite _ (.mk (.unusedAccess h)) (.ite _ (.mk h) (by
    split
    · exact .mk h
    · exact .pageRead (.checkEnd h)))

theorem Keeps3.bridgeGet {s t : State} {off : Nat} (h : Keeps s t) : Keeps3 s (t.bridgeGet off) := by
  unfold State.bridgeGet
  exact .ite _ (.mk (.mk (.unusedAccess h))) (.ite _ (.mk (.mk (.snd (.readNow h)))) (.mk (.mk (.snd (.readNow h)))))

theorem Keeps3.bridgeEach {s t : State} {ep a len : Nat} {wr : Bool} {f : State → Nat → Nat → Nat × Nat × State} (h :
    Keeps s t) (hf : ∀ u a b, Keeps s u → Keeps3 s (f u a b)) : Keeps3 s (t.bridgeEach ep a len wr f) := by
  unfold State.bridgeEach
  exact .ite _ (.mk (.mk (.unmapped h))) <|
    .ite _ (.mk (.mk h)) <|
    .mk (.mk (.snd (.tail (.fold (fun _ _ hk => .ite _ hk (.mk (.mk (.snd (.tail (hf _ _ _ (.snd (.tail hk)))))))) (.mk (.mk h))))))

theorem Keeps3.readVia {s t : State} {ep a len : Nat} (h : Keeps s t) : Keeps3 s (t.readVia ep a len) := by
  unfold State.readVia
  split
  · exact .bridgeEach h (fun _ _ _ hk => .bridgeGet hk)
  · exact .readAny h

/-! The meanings of Machine/Check. -/

theorem Keeps.scanOver {s t : State} {c : Nat} (h : Keeps s t) : Keeps s (t.scanOver c) := by
  unfold State.scanOver
  exact .chkEnd (.put (.modChk h))

theorem Keeps3.scanRead {s t : State} {c a len : Nat} {coll : List PortA} (h : Keeps s t) : Keeps3 s (t.scanRead c a len coll) := by
  unfold State.scanRead
  exact .ite _ (.mk (.mk h)) (by
    split
    · exact .readVia h
    · exact .serveMem h)

theorem Keeps2.scanFeed {s t : State} {c poly a len : Nat} {coll : List PortA} (h :
    Keeps s t) : Keeps2 s (t.scanFeed c poly a len coll) := by
  unfold State.scanFeed
  exact .fold
      (fun _ _ hk => .ite _ hk (.ite _ (.mk (.chkFeed (.snd (.tail (.scanRead (.snd hk)))))) (.mk (.snd (.tail (.scanRead (.snd hk))))))) <|
    .mk h

theorem Keeps.scanFail {s t : State} {c st : Nat} (h : Keeps s t) : Keeps s (t.scanFail c st) := by
  unfold State.scanFail
  exact .scanOver (.causeErr (.put h))

theorem KeepsNext.actScanGo {s t : State} {src : Source} {c : Fin 8} {op : Fin 4} {cont : Bool} (h :
    Keeps s t) : KeepsNext s (actScanGo src c op cont t) := by
  unfold Machine.actScanGo
  exact .ite _ (.next h) <|
    .ite _ (.next (.refuse h)) <|
    .ite _ (.next (.refuse h)) <|
    .ite _ (.next (.refuse h)) <|
    .ite _ (.next (.refuse h)) <|
    .ite _ (.next (.refuse h)) (.ite _ (.next (.refuse h)) (.next (.chkBegin (.modChk (.put (.put (.put h)))))))

theorem KeepsNext.actScanAbort {s t : State} {src : Source} {c : Fin 8} {processed : BitVec 30} (h :
    Keeps s t) : KeepsNext s (actScanAbort src c processed t) := by
  unfold Machine.actScanAbort
  extract_lets +onlyGivenNames _
  split
  · exact .next h
  · exact .ite _ (.next h) (.next (.scanOver (.fold (fun _ _ hk => .cuffLeave hk) (.snd (.scanFeed h)))))

/-! The meanings of Machine/Loader. -/

theorem Keeps.loadDone {s t : State} {ok : Bool} (h : Keeps s t) : Keeps s (t.loadDone ok) := by
  unfold State.loadDone
  exact .settle (.cause (.ite _ (.modIssue (.put (.put (.put h)))) (.setStream (.modIssue (.put (.put (.put h)))))))

theorem Keeps.loadFail {s t : State} {code : Nat} (h : Keeps s t) : Keeps s (t.loadFail code) := by
  unfold State.loadFail
  extract_lets +onlyGivenNames _ s1
  have h1 : Keeps s s1 := .fold (fun _ _ hk => .modTile hk (fun _ c => c)) h
  exact .loadDone (.modIssue (.reason (.ite _ h1 (.modIssue h1))))

theorem Keeps.writeLane {s t : State} {n start : Nat} {ws : List Word128} (h : Keeps s t) : Keeps s (t.writeLane n start ws) := by
  unfold State.writeLane
  exact .ite _ (.modIssue h) (.ite _ h (.modTile h (fun _ c => c)))

theorem Keeps2.loadSegment {s : State} {acc : Option Nat × State} {base : Nat} {x : Nat × Nat × Nat × Nat × Nat} (hacc :
    Keeps2 s acc) : Keeps2 s (loadSegment acc base x) := by
  unfold State.loadSegment
  split
  · exact hacc
  · exact .ite _ (.mk (.snd (.tail (.readVia (.snd hacc))))) <|
      .mk (.bump (.fold (fun _ _ hk => .writeLane hk) (.snd (.tail (.readVia (.snd hacc))))))

theorem Keeps2.loadChecks {s t : State} {a : Nat} (h : Keeps s t) : Keeps2 s (t.loadChecks a) := by
  unfold State.loadChecks
  exact .ite _ (.mk h) (.ite _ (.mk (.snd (.tail (.readVia h)))) (.ite _ (.mk (.snd (.tail (.readVia h)))) (.ite _ (.mk (.snd (.tail (.readVia h)))) (by
    extract_lets +onlyGivenNames _ s1
    have h1 : Keeps s s1 := .snd (.tail (.readVia (.snd (.tail (.readVia h)))))
    exact .ite _ (.mk h1) (.ite _ (.mk h1) (by
      split
      · exact .mk h1
      · exact .ite _ (.mk h1) (.ite _ (.mk h1) (.mk h1))))))))

theorem Keeps.loadBegin {s t : State} {a : Nat} (h : Keeps s t) : Keeps s (t.loadBegin a) := by
  unfold State.loadBegin
  exact .guard (.modIssue h) (fun _ hk => (by
    extract_lets +onlyGivenNames _
    split
    · exact .loadFail (.snd (.loadChecks (.modIssue hk)))
    · exact .settle (.modIssue (.snd (.loadChecks (.modIssue hk))))))

theorem KeepsNext.actLoad {s t : State} (h : Keeps s t) : KeepsNext s (actLoad t) := by
  unfold Machine.actLoad
  exact .ite _ (.next h) <|
    .ite _ (.next (.refuse h)) <|
    .next (.loadBegin (.ite _ (.modIssue (.put (.put (.put (.put h))))) (.setStream (.modIssue (.put (.put (.put (.put h))))))))

theorem Keeps.loadSegments {s t : State} {j : LoadJob} (h : Keeps s t) : Keeps s (t.loadSegments j) := by
  unfold State.loadSegments
  extract_lets +onlyGivenNames r
  have h1 : Keeps2 s r := .fold (fun _ _ hk => .loadSegment hk) (.mk h)
  split
  · exact .loadFail (.snd h1)
  · exact .loadDone (.put (.put (.put (.put (.put (.fold (fun _ _ hk => .put hk) (.modIssue (.snd h1))))))))

theorem KeepsNext.execLoadEnd {s t : State} (h : Keeps s t) : KeepsNext s (execLoadEnd t) := by
  unfold Machine.execLoadEnd
  split
  · split
    · exact .next (.loadBegin h)
    · exact .next h
  · exact .ite _ (.next h) (.next (.guard h (fun _ hk => .loadSegments hk)))

theorem KeepsNext.execLoadTimeout {s t : State} (h : Keeps s t) : KeepsNext s (execLoadTimeout t) := by
  unfold Machine.execLoadTimeout
  split
  · exact .next h
  · exact .next (.loadFail h)

/-! The meanings of Machine/Resets. -/

theorem Keeps.cold {s t : State} {cause : Nat} (h : Keeps s t) : Keeps s (t.cold cause) := by
  have hr : Keeps s { State.reset with flash := t.flash, fuses := t.fuses, rowfix := t.fuses.rows, out := t.out, fresh := t.fresh, pending := t.pending } := ⟨fun _ => rfl, h.2⟩
  unfold State.cold
  exact .aonLog (.fold (fun _ _ hk => .put hk) (.fold (fun _ _ hk => .put hk) (.put (.lose (.lose (.lose hr))))))

theorem Keeps.computeUnits {s t : State} (h : Keeps s t) : Keeps s t.computeUnits :=
  h.trans ⟨fun c => have ⟨m, r, _, _, d, l, _, _, _, i⟩ := canonical_parts c; canonical_of_parts m r rfl rfl d l rfl rfl rfl i, rfl⟩

theorem Keeps.windowsDead {s t : State} (h : Keeps s t) : Keeps s (t.windowsDead) := by
  unfold State.windowsDead
  exact .fold (fun _ _ hk => .winOver hk) h

theorem Keeps.computeBegin {s t : State} (h : Keeps s t) : Keeps s t.computeBegin := by
  unfold State.computeBegin
  extract_lets +onlyGivenNames _ _ _ s1
  have h1 : Keeps s s1 := .computeUnits (.fold (fun _ _ hk => .put hk) (.clearRegs h))
  exact .windowsDead (.pcieCompute (.selfDemote (.put (.lose (.lose (.frame (.dom h1 (risingFrom_filter _))))))))

theorem KeepsNext.execPowerOn {s t : State} (h : Keeps s t) : KeepsNext s (execPowerOn t) := by
  unfold Machine.execPowerOn
  exact .next (.cold h)

theorem KeepsNext.execInputPowerLoss {s t : State} {torn : Bool} (h : Keeps s t) : KeepsNext s (execInputPowerLoss torn t) := by
  unfold Machine.execInputPowerLoss
  extract_lets +onlyGivenNames _ r
  have hr : Keeps s r := .cold h
  clear_value r
  exact .next (.same (.dom hr (p := { r.power with dom := [], input := false }) fun _ => rfl) rfl)

theorem KeepsNext.execSupplyFault {s t : State} {vm : Fin 16} (h : Keeps s t) : KeepsNext s (execSupplyFault vm t) := by
  unfold Machine.execSupplyFault
  exact .ite _ (.next (.cold h)) (.next h)

theorem KeepsNext.actCold {s t : State} {src : Source} {key : BitVec 16} (h : Keeps s t) : KeepsNext s (actCold src key t) := by
  unfold Machine.actCold
  exact .ite _ (.next (.refuse h)) (.ite _ (.next (.refuse h)) (.next (.cold h)))

theorem KeepsNext.actCompute {s t : State} {src : Source} {key : BitVec 16} (h : Keeps s t) : KeepsNext s (actCompute src key t) := by
  unfold Machine.actCompute
  exact .ite _ (.next (.refuse h)) (.ite _ (.next (.refuse h)) (.ite _ (.next h) (.next (.computeBegin h))))

theorem KeepsNext.execComputeResetEnd {s t : State} (h : Keeps s t) : KeepsNext s (execComputeResetEnd t) := by
  unfold Machine.execComputeResetEnd
  exact .ite _ (.next h) (.next (.settle (.fold (fun _ _ hk => .ite _ (.domUp hk) hk) (.cause (.bump (.put h))))))

theorem Keeps.enOff {s t : State} {p : Page} (h : Keeps s t) : Keeps s (t.enOff p) := by
  unfold State.enOff
  split
  · exact .faultHalt h
  · exact .settle (.stepOff h)
  · exact .scaleGroupFree h
  · exact .portOff h
  · exact .memOff h
  · exact .mvAbort h
  · exact .flushFifo h
  · exact .learnOff h
  · exact .qDeadCheck h
  · exact h

theorem Keeps.clearEn {s t : State} {p : Page} (h : Keeps s t) : Keeps s (t.clearEn p) := by
  unfold State.clearEn
  exact .ite _ (.enOff (.put h)) h

theorem Keeps.mvReset {s t : State} {m : Nat} (h : Keeps s t) : Keeps s (t.mvReset m) := by
  unfold State.mvReset
  extract_lets +onlyGivenNames v idx s2 s1
  have h2 : Keeps s s2 := .ite _ (.mvFinish (.modMover h)) (.mvEnd h)
  have h1 : Keeps s s1 := .mvClose h2
  refine .movers (.fold (fun _ _ hk => ?_) h1) (risingFrom_remove m)
  split
  · exact .postReply hk
  · exact hk

theorem Keeps.blockHidden {s t : State} {p : Page} (h : Keeps s t) : Keeps s (t.blockHidden p) := by
  unfold State.blockHidden
  split
  · exact .settle (.frame h)
  · exact .frame h
  · exact .frame h
  · exact .frame h
  · exact .movers h (risingFrom_remove _)
  · exact .chk h (risingFrom_remove _)
  · exact .frame h
  · exact .links h (risingFrom_remove _)
  · exact .ctx h (risingFrom_filter _)
  · exact .same (.timers h fun _ => rfl) rfl
  · exact .frame h
  · exact .ite _ (.frame h) (.ite _ (.frame h) h)
  · exact .frame h
  · split
    · exact .modTile h (fun _ c => c)
    · exact .modTile h fun _ c => have ⟨_, b, d⟩ := Tile.canonical_parts c; Tile.canonical_of_parts rfl b d
    · exact .modTile h fun _ c => have ⟨a, _, _⟩ := Tile.canonical_parts c; Tile.canonical_of_parts a rfl rfl
    · exact .modTile h (fun _ c => c)
    · exact .modTile h (fun _ c => c)
    · exact .modEvt h
    · exact .modEvt h
    · exact .modEvt h
    · exact .modEvt h
    · exact .modEvt h
    · exact .modQueue h
    · exact h
  · exact h

theorem Keeps.bistStop {s t : State} (h : Keeps s t) : Keeps s (t.bistStop) := by
  unfold State.bistStop
  exact .frame h

theorem Keeps.blockStop {s t : State} {p : Page} (h : Keeps s t) : Keeps s (t.blockStop p) := by
  unfold State.blockStop
  extract_lets +onlyGivenNames _ _
  split
  · exact .mvReset (.clearEn (.ite _ (.sweepCut h) h))
  · split
    · exact .qDiscardDead (.unhold (.clearEn (.ite _ (.sweepCut h) h)))
    · exact .clearEn (.ite _ (.sweepCut h) h)
  · exact .hlockFree (.clearEn (.ite _ (.sweepCut h) h))
  · exact .bistStop (.clearEn (.ite _ (.sweepCut h) h))
  · exact .clearEn (.ite _ (.sweepCut h) h)

theorem KeepsNext.actBlockReset {s t : State} {src : Source} {pg : Ofs} (h : Keeps s t) : KeepsNext s (actBlockReset src pg t) := by
  unfold Machine.actBlockReset
  exact .ite _ (.next h) <|
    .next <| .put <| .put <| .fold (fun _ _ hk => .frame (.blockHidden (.clearBlock (.blockStop hk)))) <|
      .ite _ (.stepLost (.ite _ (.laneLost h) h)) (.ite _ (.laneLost h) h)

theorem KeepsNext.execBlockResetEnd {s t : State} {pg : Ofs} (h : Keeps s t) : KeepsNext s (execBlockResetEnd pg t) := by
  unfold Machine.execBlockResetEnd
  exact .ite _ (.next h) (.next (.fold (fun _ _ hk => .ite _ (.setReady hk) hk) (.put (.put h))))

theorem KeepsNext.actTileMap {s t : State} {src : Source} {n : TileId} {phys : BitVec 9} (h :
    Keeps s t) : KeepsNext s (actTileMap src n phys t) := by
  unfold Machine.actTileMap
  exact .ite _ (.next (.refuse h)) <|
    .ite _ (.next (.refuse h)) <|
    .ite _ (.next (.refuse h)) (.ite _ (.next (.refuse h)) (.ite _ (.next (.refuse h)) (.next (.put (.accept (.frame h))))))

theorem KeepsNext.actRowfixSoft {s t : State} {src : Source} {slice : Fin 64} {bank : Fin 16} {row : BitVec 8} (h :
    Keeps s t) : KeepsNext s (actRowfixSoft src slice bank row t) := by
  unfold Machine.actRowfixSoft
  exact .ite _ (.next (.refuse h)) (.ite _ (.next (.refuse h)) (.ite _ (.next (.refuse h)) (.next (.bump (.frame (.put (.put (.put h))))))))

theorem KeepsNext.actTfwGo {s t : State} {src : Source} (h : Keeps s t) : KeepsNext s (actTfwGo src t) := by
  unfold Machine.actTfwGo
  exact .ite _ (.next (.refuse h)) <|
    .ite _ (.next (.refuse h)) <|
    .ite _ (.next (.refuse h)) (.ite _ (.next (.refuse h)) (.ite _ (.next (.refuse h)) (.next (.put (.frame h)))))

theorem Keeps.tfwEnd {s t : State} {j : TfwJob} {good : Bool} {failed : List TileId} (h :
    Keeps s t) : Keeps s (t.tfwEnd j good failed) := by
  unfold State.tfwEnd
  extract_lets +onlyGivenNames _ s3 _ _ s2 s1
  have h3 : Keeps s s3 := .fold (fun _ _ hk => .fold (fun _ _ hk2 => .setReady hk2) (.put (.modTile hk (fun _ c => c)))) h
  have h2 : Keeps s s2 := .frame (.put h3)
  have h1 : Keeps s s1 := .cause (.put h2)
  exact .ite _ h1 (.causeErr (.put h1))

theorem KeepsNext.actBistGo {s t : State} {src : Source} (h : Keeps s t) : KeepsNext s (actBistGo src t) := by
  unfold Machine.actBistGo
  exact .ite _ (.next (.refuse h)) (by
    split
    · exact .next (.refuse h)
    · split
      · exact .next (.refuse h)
      · exact .ite _ (.next (.refuse h)) (by
          split
          · exact .next (.refuse h)
          · exact .ite _
                (.next (.refuse h))
              (.next (.bistEnd (.put (.put (.frame (.fold (fun _ _ hk => .fold (fun _ _ hk2 => .put (.setReady hk2)) hk) h))))))))

theorem Keeps2.bistImage {s t : State} {t' : Nat × Nat} (h : Keeps s t) : Keeps2 s (t.bistImage t') := by
  unfold State.bistImage
  exact .ite _
      (.fold (fun _ _ hk => .ite _ (.mk (.snd (.tail (.readLine (.snd hk))))) (.mk (.frame (.snd (.tail (.readLine (.snd hk))))))) (.mk h)) <|
    .mk (.frame h)

theorem Keeps.remit {s t : State} {x : Nat × Nat} (h : Keeps s t) : Keeps s (t.remit x) := by
  unfold State.remit
  extract_lets +onlyGivenNames _ s1
  have h1 : Keeps s s1 := .clearRegs (.ite _ (.deadHeld h) h)
  exact .ite _ (.zero (.setTile h1 fun _ => rfl)) h1

theorem Keeps.bistFinish {s t : State} {t' : Nat × Nat} {sig : Word64} {verdict : Nat} (h :
    Keeps s t) : Keeps s (t.bistFinish t' sig verdict) := by
  unfold State.bistFinish
  extract_lets +onlyGivenNames _ _ _ r _ s3 s2 s1
  have h4 : Keeps3 s r := .ite _ (.readAny (.frame h)) (.mk (.mk (.frame h)))
  have h3 : Keeps s s3 := .ite _ (.putMem (.snd (.tail h4))) (.ite _ (.snd (.tail h4)) (.remit (.frame h)))
  have h2 : Keeps s s2 := .ite _ h3 (.causeErr (.bump h3))
  have h1 : Keeps s s1 := .ite _ (.causeErr (.bump h2)) h2
  exact .bistEnd (.bistCount (.ite _ (.fold (fun _ _ hk => .setReady (.put hk)) (.frame h1)) h1))

theorem KeepsNext.execBistTargetStart {s t : State} {kind : Fin 6} {inst : Fin 512} (h :
    Keeps s t) : KeepsNext s (execBistTargetStart kind inst t) := by
  unfold Machine.execBistTargetStart
  exact .ite _ (.next h) (.next (.bistCount (.ite _ (.frame (.snd (.writeAny (.snd (.bistImage (.frame h)))))) (.frame h))))

theorem KeepsNext.execBistTargetEnd {s t : State} {kind : Fin 6} {inst : Fin 512} {sig : Word64} (h :
    Keeps s t) : KeepsNext s (execBistTargetEnd kind inst sig t) := by
  unfold Machine.execBistTargetEnd
  exact .ite _ (.next h) (.ite _ (.next (.ite _ (.bistHold (.frame (.frame h))) (.frame (.frame h)))) (.next (.bistFinish (.frame h))))

theorem Keeps.bistVerdict {s t : State} {v : Nat} (h : Keeps s t) : Keeps s (bistVerdict v t) := by
  unfold Machine.bistVerdict
  split
  · exact .ite _ h (.bistHold (.bistFinish (.frame h)))
  · exact h

theorem KeepsNext.actVerdictPass {s t : State} (h : Keeps s t) : KeepsNext s (actVerdictPass t) := by
  unfold Machine.actVerdictPass
  exact .next (.bistVerdict h)

theorem KeepsNext.actVerdictFail {s t : State} (h : Keeps s t) : KeepsNext s (actVerdictFail t) := by
  unfold Machine.actVerdictFail
  exact .next (.bistVerdict h)

theorem KeepsNext.actBistAbort {s t : State} (h : Keeps s t) : KeepsNext s (actBistAbort t) := by
  unfold Machine.actBistAbort
  exact .ite _ (.next h) <|
    .next <| .bistEnd <| .bistCount <| .put <| .fold (fun _ _ hk => .bistFinish hk) <|
      .fold (fun _ _ hk => .fold (fun _ _ hk2 => .setReady (.put hk2)) hk) (.frame h)

theorem KeepsNext.execBistRecord {s t : State} (h : Keeps s t) : KeepsNext s (execBistRecord t) := by
  unfold Machine.execBistRecord
  exact .ite _ (.next h) (.next (.put (.frame (.snd (.draw h)))))

/-! The meanings of Machine/Registers. -/

theorem Keeps.commit {s t : State} {r : RegRef} {v m : Nat} (h : Keeps s t) : Keeps s (t.commit r v m) := by
  unfold State.commit
  exact .fold (fun _ _ hk => (by
    extract_lets +onlyGivenNames _ _ _ _
    split
    · exact .put hk
    · exact .put hk
    · exact .put hk
    · exact .put hk
    · exact hk)) h

theorem KeepsSome.unitWrite {s t : State} {p : Page} {o v m : Nat} (h : Keeps s t) : KeepsSome s (t.unitWrite p o v m) := by
  unfold State.unitWrite
  extract_lets +onlyGivenNames _ _
  split
  · exact .ite _ (.some (.setSreg h)) .none
  · exact .ite _ (.some (.setVlane h)) (.ite _ (.some (.ite _ (.setVmask h) h)) .none)
  · exact .ite _ (.some (.frame h)) .none
  · exact .ite _ (.some (by
      split
      · next s1 e =>
          have h1 : Keeps s s1 := .of_next e (.actRngSeed h)
          exact h1
      · exact h)) .none
  · exact .none

theorem Keeps.afterWrite {s t : State} {p : Page} {o old new : Nat} (h : Keeps s t) : Keeps s (t.afterWrite p o old new) := by
  unfold State.afterWrite
  extract_lets +onlyGivenNames _ _ _
  split
  · exact .ite _ (.fold (fun _ _ hk => .clipCauses hk) (.ite _ (.clearHist h) h)) (.ite _ (.scaleGroup h) h)
  · exact .ite _ (.clipCauses h) h
  · exact .ite _ (.periodWrite h) h
  · exact .ite _ (.settle h) h
  · exact .ite _ (.selfDemote h) h
  · exact .ite _ (.touchCheck h) h
  · exact .ite _ (.dropGroup h) h
  · exact .ite _ (.modEvt h) h
  · exact .ite _ (.qDeadCheck h) h
  · exact h

theorem Keeps.outcome {s t : State} {r : Res} (h : Keeps s t) (hr : KeepsNext s r) : Keeps s (t.outcome r) := by
  unfold State.outcome
  split
  · exact hr _ rfl
  · exact h

theorem Keeps.onBits {s t : State} {v : Nat} {l : List (Nat × (State → Res))} (h :
    Keeps s t) (hl : KeepsEach s l) : Keeps s (t.onBits v l) := by
  unfold State.onBits
  induction l generalizing t with
  | nil => exact h
  | cons c l ih =>
    exact ih (.ite _ (.outcome h (hl c List.mem_cons_self t h)) h) fun d hd => hl d (List.mem_cons_of_mem c hd)

theorem KeepsSome.commandWrite {s t : State} {src : Source} {p : Page} {o : Nat} {w : Word32} (h :
    Keeps s t) : KeepsSome s (t.commandWrite src p o w) := by
  unfold State.commandWrite
  extract_lets +onlyGivenNames _ _ _
  split
  · exact .ite _ (.some (.onBits h (.cons (fun _ hk => .actLoad hk) .nil))) <|
      .ite _ (.some (.onBits h (.cons (fun _ hk => .actStart hk) (.cons (fun _ hk => .actStop hk) .nil)))) <|
      .ite _
        (.some <| .onBits h <| .cons (fun _ hk => .actDbgHalt hk) <|
          .cons (fun _ hk => .actResume hk) (.cons (fun _ hk => .actDbgStep hk) .nil))
      .none
  · exact .ite _
        (.some <| .onBits h <| .cons (fun _ hk => .actOne hk) <|
          .cons (fun _ hk => .actOneLearn hk) <|
          .cons (fun _ hk => .actRun hk) <|
          .cons (fun _ hk => .actHalt hk) (.cons (fun _ hk => .actClose hk) (.cons (fun _ hk => .actExtend hk) .nil)))
      .none
  · exact .ite _ (.some (.onBits h (.cons (fun _ hk => .actRetune hk) (.cons (fun _ hk => .actApply hk) .nil)))) .none
  · exact .ite _ (by
      extract_lets +onlyGivenNames _ _ s2
      have h2 : Keeps s s2 := .ite _ (.outcome (.put (.put h)) (.actScanGo (.put (.put h)))) (.put (.put h))
      exact .ite _ (by
        extract_lets +onlyGivenNames d
        have h1 : Keeps2 s d := .draw h2
        exact .some (.outcome (.snd h1) (.actScanAbort (.snd h1)))) (.some h2)) .none
  · exact .ite _ (.some (.outcome h (.actRingHead h))) <|
      .ite _
        (.some <| .onBits h <| .cons (fun _ hk => .actRetry hk) <|
          .cons (fun _ hk => .actSkip hk) (.cons (fun _ hk => .actMvAbort hk) (.cons (fun _ hk => .actMvResume hk) .nil)))
      .none
  · exact .ite _ (.some (.onBits h (.cons (fun _ hk => .actRetrain hk) .nil))) .none
  · exact .ite _ (.some (.outcome h (.actXcolEnable h))) <|
      .ite _ (.some (.outcome h (.actRtSel h))) (.ite _ (.some (.outcome h (.actXsyncCfg h))) .none)
  · exact .ite _ (.some (.outcome h (.actContextEnable h))) .none
  · exact .ite _ (.some (.outcome h (.actFlags h))) (.ite _ (.some (.outcome h (.actBarMask h))) .none)
  · exact .ite _ (.some (.outcome h (.actBankPwr h))) (.ite _ (.some (.outcome h (.actBankInit h))) .none)
  · exact .ite _ (.some (.outcome h (.actTokenHolder h))) <|
      .ite _ (.some (.outcome h (.actHb h))) <|
      .ite _ (.some (.onBits h (.cons (fun _ hk => .actMbGo hk) .nil))) <|
      .ite _ (.some (.onBits h (.cons (fun _ hk => .actMbComplete hk) .nil))) .none
  · exact .ite _ (.some (.outcome h (.actLock h))) .none
  · exact .ite _ (.some (.outcome h (.actMult h))) (.ite _ (.some (.outcome h (.actHalfCfg h))) .none)
  · exact .ite _ (.some (.outcome h (.actDomEn h))) .none
  · exact .ite _ (.some (.ite _ (.outcome h (.actCold h)) (.ite _ (.outcome h (.actCompute h)) h))) <|
      .ite _ (.some (.onBits h (.cons (fun _ hk => .actTfwGo hk) .nil))) <|
      .ite _ (.some (.outcome h (.actTileMap h))) (.ite _ (.some (.outcome h (.actRowfixSoft h))) .none)
  · exact .ite _
        (.some <| .onBits (.put h) <| .cons (fun _ hk => .actBistGo hk) <|
          .cons (fun _ hk => .actBistAbort hk) (.cons (fun _ hk => .actVerdictPass hk) (.cons (fun _ hk => .actVerdictFail hk) .nil)))
      .none
  · exact .ite _ (.some (.outcome h (.actTwinRole h))) <|
      .ite _
        (.some (.onBits (.outcome h (.actSick h)) (.cons (fun _ hk => .actHandover hk) (.cons (fun _ hk => .actDetach hk) .nil))))
      .none
  · exact .ite _ (.some (.outcome (.gtRun h) (.ite _ (.actHold (.gtRun h)) (.actHoldRelease (.gtRun h))))) .none
  · extract_lets +onlyGivenNames _
    split
    · exact .ite _ (.some (.outcome h (.actBankPwr h))) (.ite _ (.some (.outcome h (.actBankInit h))) .none)
    · exact .ite _
          (.some <| .onBits h <| .cons (fun _ hk => .next (.evctl hk)) <|
            .cons (fun _ hk => .next (.evctl hk)) (.cons (fun _ hk => .next (.evctl hk)) .nil))
        .none
    · exact .ite _ (.some (.onBits h (.cons (fun _ hk => .actPsetLoad hk) .nil))) .none
    · exact .ite _ (.some (.onBits (.put h) (.cons (fun _ hk => .actHlockReq hk) (.cons (fun _ hk => .actHlockRel hk) .nil)))) .none
    · exact .ite _ (.some (.onBits (.put h) (.cons (fun _ hk => .actLearnCmdGo hk) .nil))) <|
        .ite _ (.some (.onBits h (.cons (fun _ hk => .actLearnCtrlDone hk) .nil))) .none
    · exact .ite _ (.some (.onBits h (.cons (fun _ hk => .actDefer hk) (.cons (fun _ hk => .actDrop hk) .nil)))) .none
    · exact .ite _ (.some (.onBits h (.cons (fun _ hk => .actStallDiscard hk) (.cons (fun _ hk => .actRetain hk) .nil)))) .none
    · exact .ite _ (.some (.outcome h (.actCombFlush h))) (.ite _ (.some (.onBits h (.cons (fun _ hk => .actPop hk) .nil))) .none)
    · exact .none
  · exact .none

theorem Keeps.writeCtrl {s t : State} {src : Source} {p : Page} {v : Nat} (h : Keeps s t) : Keeps s (t.writeCtrl src p v) := by
  unfold State.writeCtrl
  exact .ite _ (.outcome h (.actBlockReset h)) (.ite _ (.refuse h) (by
    extract_lets +onlyGivenNames _ _ s1
    have h1 : Keeps s s1 := .ite _ (by
      split
      · exact .qReply (.unhold (.ite _ (.put h) h))
      · exact .ite _ (.put h) h) (.ite _ (.put h) h)
    exact .ite _ h1 (.ite _ (.checkStart h1) (.clearEn h1))))

theorem Keeps.writeStat {s t : State} {p : Page} {v : Nat} (h : Keeps s t) : Keeps s (t.writeStat p v) := by
  unfold State.writeStat
  exact .ite _ (.ite _ (.put h) h) (by
    extract_lets +onlyGivenNames _
    split
    · exact .put (.put (.put (.put (.ite _ (.put h) h))))
    · exact .put (.put (.put (.put (.put (.ite _ (.put h) h)))))
    · exact .put (.put (.put (.put (.put (.ite _ (.put h) h)))))
    · exact .put (.ite _ (.put h) h))

theorem Keeps.writeHeader {s t : State} {src : Source} {p : Page} {o v : Nat} (h : Keeps s t) : Keeps s (t.writeHeader src p o v) := by
  unfold State.writeHeader
  exact .ite _ h <|
    .ite _ (.writeCtrl h) <|
    .ite _ (.writeStat h) (.ite _ (.put (.put (.put (.put h)))) (.ite _ (.irqEdge (.put h)) (.ite _ (.put (.put h)) h)))

theorem Keeps.writeWhole {s t : State} {src : Source} {r : RegRef} {v m : Nat} (h : Keeps s t) : Keeps s (t.writeWhole src r v m) := by
  unfold State.writeWhole
  extract_lets +onlyGivenNames _ _ _ _ _
  split
  · exact .refuse h
  · exact .ite _ h (by
      split
      · next s1 e =>
          have h1 : Keeps s s1 := .of_some e (.unitWrite h)
          exact h1
      · exact .afterWrite (.commit h))

theorem Keeps.pageWrite {s t : State} {src : Source} {off : Nat} {w : Word32} (h : Keeps s t) : Keeps s (t.pageWrite src off w) := by
  unfold State.pageWrite
  exact .ite _ h (.ite _ (.writeHeader h) (.ite _ h (by
    split
    · exact h
    · exact .ite _ (by
        split
        · exact .refuse h
        · exact .ite _ h (by
            split
            · next s1 e =>
                have h1 : Keeps s s1 := .of_some e (.commandWrite h)
                exact h1
            · exact .writeWhole h)) (.ite _ (.setShadow h) (by
        split
        · exact .ite _ (.writeWhole (.setShadow h)) (.writeWhole h)
        · exact .writeWhole h)))))

theorem Keeps.writeNow {s t : State} {src : Source} {off : Nat} {w : Word32} (h : Keeps s t) : Keeps s (t.writeNow src off w) := by
  unfold State.writeNow
  exact .ite _ h <|
    .ite _ (.unusedAccess h) (.ite _ (.outcome h (.actVote h)) (.ite _ h (.ite _ (.downWrite h) (.pageWrite (.slowed (.checkEnd h))))))

theorem Keeps3.bridgePut {s t : State} {off : Nat} {w : Word32} (h : Keeps s t) : Keeps3 s (t.bridgePut off w) := by
  unfold State.bridgePut
  exact .ite _ (.mk (.mk (.writeNow h))) (.ite _ (.mk (.mk (.writeNow h))) (.mk (.mk (.writeNow h))))

theorem Keeps3.bridgeWrite {s t : State} {ep a : Nat} {data : List Byte} (h : Keeps s t) : Keeps3 s (t.bridgeWrite ep a data) := by
  unfold State.bridgeWrite
  exact .bridgeEach h (fun _ _ _ hk => .bridgePut hk)

theorem Keeps2.writeVia {s t : State} {ep a : Nat} {data : List Byte} (h : Keeps s t) : Keeps2 s (t.writeVia ep a data) := by
  unfold State.writeVia
  split
  · exact .mk (.snd (.tail (.bridgeWrite h)))
  · exact .writeAny h

theorem Keeps3.bridgeServe {s t : State} {ep op a size : Nat} {data : List Byte} (h :
    Keeps s t) : Keeps3 s (t.bridgeServe ep op a size data) := by
  unfold State.bridgeServe
  exact .ite _ (.bridgeEach h (fun _ _ _ hk => .bridgeGet hk)) (.ite _ (.bridgeWrite h) (.mk (.mk h)))

theorem Keeps.hostWriteNow {s t : State} {i : HostWrite} (h : Keeps s t) : Keeps s (t.hostWriteNow i) := by
  unfold State.hostWriteNow
  split
  · exact .writeNow h
  · exact .setRdata (.snd (.readNow h))
  · exact .launchNow h
  · exact .writeNow h
  · exact .writeNow h
  · exact .writeNow h

theorem Keeps.flushWrites {s t : State} (h : Keeps s t) : Keeps s (t.flushWrites) := by
  unfold State.flushWrites
  exact .fold (fun _ _ hk => (by
    split
    · exact hk
    · exact .ite _ hk (.hostWriteNow (.frame hk)))) h

theorem Keeps.hostWrite {s t : State} {w : HostWrite} (h : Keeps s t) : Keeps s (t.hostWrite w) := by
  unfold State.hostWrite
  exact .hostOrder (.flushWrites h) (fun _ hk => .hostWriteNow hk)

theorem Keeps.hostRead {s t : State} {off : Ofs} (h : Keeps s t) : Keeps s (t.hostRead off) := by
  unfold State.hostRead
  exact .ite _ (.hostOrder (.flushWrites h) (fun _ hk => hk)) (.hostWriteNow (.flushWrites h))

theorem KeepsNext.execRegisterWrite {s t : State} {src : Source} {off : Ofs} {v : Carried Word32 (Option Bool)} (h :
    Keeps s t) : KeepsNext s (execRegisterWrite src off v t) := by
  unfold Machine.execRegisterWrite
  extract_lets +onlyGivenNames _
  split
  · exact .next (.flushWrites (.ite _ (.hostWrite h) (.writeNow h)))
  · exact .next (.parityLost h)
  · exact .next (.parityLost (.flushWrites (.ite _ (.hostWrite h) (.writeNow h))))

theorem KeepsNext.actEnable {s t : State} {src : Source} {pg : Ofs} (h : Keeps s t) : KeepsNext s (actEnable src pg t) := by
  unfold Machine.actEnable
  exact .next (.writeNow h)

theorem KeepsNext.execConsistencyCheckEnd {s t : State} {pg : Ofs} (h : Keeps s t) : KeepsNext s (execConsistencyCheckEnd pg t) := by
  unfold Machine.execConsistencyCheckEnd
  exact .next (.checkEnd h)

theorem KeepsNext.actUnusedPageAccess {s t : State} {src : Source} {off : Ofs} {w : Option Word32} (h :
    Keeps s t) : KeepsNext s (actUnusedPageAccess src off w t) := by
  unfold Machine.actUnusedPageAccess
  exact .ite _ (.next h) (.next (.ite _ (.setRdata (.unusedAccess h)) (.unusedAccess h)))

theorem KeepsNext.actDownPageAccess {s t : State} {src : Source} {off : Ofs} {w : Option Word32} (h :
    Keeps s t) : KeepsNext s (actDownPageAccess src off w t) := by
  unfold Machine.actDownPageAccess
  exact .ite _ (.next h) (by
    split
    · exact .next (.setRdata (.snd (.readNow h)))
    · exact .next (.writeNow h))

theorem KeepsNext.execShadowRead {s t : State} {src : Source} {off : Ofs} (h : Keeps s t) : KeepsNext s (execShadowRead src off t) := by
  unfold Machine.execShadowRead
  exact .ite _ (.next (.hostRead h)) (.ite _ (.next h) (.next (.setRdata (.snd (.readNow h)))))

theorem KeepsNext.execShadowWrite {s t : State} {src : Source} {off : Ofs} {v : Word32} (h :
    Keeps s t) : KeepsNext s (execShadowWrite src off v t) := by
  unfold Machine.execShadowWrite
  exact .next (.flushWrites (.ite _ (.hostWrite h) (.writeNow h)))

theorem KeepsNext.execSlowWriteComplete {s t : State} {src : Source} {off : Ofs} (h :
    Keeps s t) : KeepsNext s (execSlowWriteComplete src off t) := by
  unfold Machine.execSlowWriteComplete
  exact .next (.frame h)

theorem KeepsNext.execRegisterBridgeRequest {s t : State} {req : BridgeReq} (h :
    Keeps s t) : KeepsNext s (execRegisterBridgeRequest req t) := by
  have hb : ∀ op a size data, ∃ r, t.bridgeServe epRBRIDGE op a size data = r ∧ Keeps3 s r := fun _ _ _ _ => ⟨_, rfl, .bridgeServe h⟩
  unfold Machine.execRegisterBridgeRequest
  cases req with
  | rd a len =>
    obtain ⟨r, e, hr⟩ := hb 0 a.toNat len []
    simp only [e]
    exact .next (.frame (.thd hr))
  | wr a data =>
    obtain ⟨r, e, hr⟩ := hb 1 a.toNat data.length data
    simp only [e]
    exact .next (.flushWrites (.frame (.thd hr)))
  | atom a => exact .next (.frame h)
  | fnc => exact .next (.frame h)

/-! The meanings of Machine/Attest. -/

theorem KeepsNext.crownAccess {s t : State} {path : MbPath} {len : Nat} {range : List Byte → Nat × Nat} {run : State → Res} (h :
    Keeps s t) (hrun : ∀ u, Keeps s u → KeepsNext s (run u)) : KeepsNext s (t.crownAccess path len range run) := by
  unfold State.crownAccess
  exact .next (.guard h (fun _ hk => .outcome hk (hrun _ hk)))

theorem Keeps1.crownWrite {s t : State} {a : Nat} {bs : List Byte} (h : Keeps s t) : Keeps1 s (t.crownWrite a bs) := by
  unfold State.crownWrite
  exact .ite _ (.mk (.snd (.writeVia h))) (.mk (.snd (.writeVia h)))

theorem KeepsNext.execFwStage {s t : State} {path : MbPath} (h : Keeps s t) : KeepsNext s (execFwStage path t) := by
  unfold Machine.execFwStage
  exact .crownAccess h <| fun _ hk => .mailbox
      (fun _ _ hk2 => .ite _ (.mk hk2) <|
        .ite _ (.mk hk2) <|
        .ite _ (.mk hk2) <|
        .ite _ (.mk (.frame (.snd (.tail (.readVia hk2))))) <|
        .ite _ (.mk (.frame (.snd (.tail (.readVia hk2))))) (.mk (.frame (.snd (.tail (.readVia hk2))))))
    hk

theorem Keeps2.cacheReady {s t : State} (h : Keeps s t) : Keeps2 s (t.cacheReady) := by
  unfold State.cacheReady
  exact .ite _ (.mk h) (.ite _ (.mk (.frame (.snd (.draw h)))) (.mk (.snd (.draw h))))

theorem keeps_sigIndex {s u : State} {i : Nat} (e : sigIndex s = some (i, u)) : Keeps s u := by
  unfold Machine.sigIndex at e
  extract_lets +onlyGivenNames _ _ _ _ fresh at e
  have hf : fresh = some (i, u) → Keeps s u := by
    intro e
    simp only [fresh] at e
    split at e
    · cases e; exact .frame (.refl s)
    · cases e
  clear_value fresh
  split at e
  · split at e
    · cases e; exact .frame (.refl s)
    · exact hf e
  · exact hf e

theorem KeepsNext.execAttest {s t : State} {path : MbPath} (h : Keeps s t) : KeepsNext s (execAttest path t) := by
  unfold Machine.execAttest
  refine .crownAccess h fun _ hk => .mailbox (fun u _ hu => .ite _ (.mk hu) (.ite _ (.mk (.snd (.cacheReady hu))) ?_)) hk
  extract_lets +onlyGivenNames s1
  have h1 : Keeps s s1 := .snd (.cacheReady hu)
  split
  · exact .mk (.put h1)
  · next e => exact .crownWrite (.put (.put (h1.trans (keeps_sigIndex e))))

theorem KeepsNext.execGetCert {s t : State} {path : MbPath} (h : Keeps s t) : KeepsNext s (execGetCert path t) := by
  unfold Machine.execGetCert
  exact .crownAccess h (fun _ hk => .mailbox (fun _ _ hk2 => .ite _ (.mk hk2) (.crownWrite hk2)) hk)

/-! The meanings of Machine/Inject. -/

theorem Keeps.injBad {s t : State} {n : Nat} (h : Keeps s t) : Keeps s (t.injBad n) := by
  unfold State.injBad
  exact .add h

theorem Keeps2.mapEntries {s t : State} {g : Nat} (h : Keeps s t) : Keeps2 s (t.mapEntries g) := by
  unfold State.mapEntries
  exact .mk (.injBad (.snd (.tail (.readVia h))))

theorem Keeps.sendBlock {s t : State} {fence : Bool} {l : List Word64} (h : Keeps s t) : Keeps s (t.sendBlock fence l) := by
  induction l generalizing t with
  | nil => exact h
  | cons e l ih =>
    cases l with
    | nil => exact .sendEvent h
    | cons d l => exact ih (.sendEvent h)

theorem Keeps.injectEvents {s t : State} {b : Block'} {bs : List Byte} (h : Keeps s t) : Keeps s (t.injectEvents b bs) := by
  unfold State.injectEvents
  exact .sendBlock (.injBad h)

theorem Keeps.injectCounts {s t : State} {b : Block'} {bs : List Byte} (h : Keeps s t) : Keeps s (t.injectCounts b bs) := by
  unfold State.injectCounts
  exact .sendBlock (.snd (.mapEntries h))

theorem Keeps.injectDeltas {s t : State} {b : Block'} {bs : List Byte} (h : Keeps s t) : Keeps s (t.injectDeltas b bs) := by
  unfold State.injectDeltas
  exact .sendBlock (.snd (.fold (fun _ _ hk => .ite _ (.mk (.snd (.tail (.readVia (.snd hk))))) (.fold (fun _ _ hk2 => (by
    split
    · split
      · exact .mk (.snd (.writeVia (.snd hk2)))
      · exact hk2
    · exact hk2)) (.mk (.snd (.tail (.readVia (.snd hk))))))) (.mk (.snd (.mapEntries h)))))

theorem Keeps.injectBlock {s t : State} {b : Block'} (h : Keeps s t) : Keeps s (t.injectBlock b) := by
  unfold State.injectBlock
  exact .ite _ (.injBad (.snd (.tail (.readVia h)))) (by
    split
    · exact .injectEvents (.snd (.tail (.readVia h)))
    · exact .injectCounts (.snd (.tail (.readVia h)))
    · exact .injectDeltas (.snd (.tail (.readVia h))))

theorem Keeps2.injDesc {s t : State} (h : Keeps s t) : Keeps2 s (t.injDesc) := by
  unfold State.injDesc
  exact .mk (.snd (.tail (.readVia h)))

theorem Keeps.injectRing {s t : State} {enc : Nat} (h : Keeps s t) : Keeps s (t.injectRing enc) := by
  unfold State.injectRing
  exact .guard h (fun _ hk => (by
    extract_lets +onlyGivenNames _
    split
    · exact .put (.injBad (.snd (.injDesc hk)))
    · exact .ite _ (.guard hk (fun _ hk2 => .put (.injectBlock (.snd (.injDesc hk2))))) hk))

theorem Keeps.injectSlot {s t : State} {enc c : Nat} (h : Keeps s t) : Keeps s (t.injectSlot enc c) := by
  unfold State.injectSlot
  split
  · exact h
  · exact .ite _ h (.guard h (fun _ hk => (by
      extract_lets +onlyGivenNames _ s1
      have h1 : Keeps s s1 := .freeSlot (.ite _ (.injBad hk) (.injectBlock hk))
      exact .freeStaleOf (.ite _ (.modCtx h1) h1))))

theorem Keeps.injectNext {s t : State} {enc : Nat} {src : Option (Fin 128)} (h : Keeps s t) : Keeps s (t.injectNext enc src) := by
  unfold State.injectNext
  exact .ite _ h (by
    split
    · exact .ite _ h (.injectRing h)
    · exact .injectSlot h)

theorem KeepsNext.execInjectEvent {s t : State} {from_ : Option (Fin 128)} (h : Keeps s t) : KeepsNext s (execInjectEvent from_ t) := by
  unfold Machine.execInjectEvent
  exact .next (.injectNext h)

theorem KeepsNext.execInjectCount {s t : State} {from_ : Option (Fin 128)} (h : Keeps s t) : KeepsNext s (execInjectCount from_ t) := by
  unfold Machine.execInjectCount
  exact .next (.injectNext h)

theorem KeepsNext.execInjectDelta {s t : State} {from_ : Option (Fin 128)} (h : Keeps s t) : KeepsNext s (execInjectDelta from_ t) := by
  unfold Machine.execInjectDelta
  exact .next (.injectNext h)

/-! The meanings of Machine/Requests. -/

theorem Keeps3.serve {s t : State} {p : Pkt} {coll : List PortA} (h : Keeps s t) : Keeps3 s (t.serve p coll) := by
  unfold State.serve
  extract_lets +onlyGivenNames _
  split
  · exact .mk (.mk (.unmapped h))
  · exact .ite _ (.mk (.mk h)) (.ite _ (.mk (.mk (.epDown h))) (.ite _ (.mk (.mk h)) (by
      split
      · exact .mk (.mk (.snd (.hostServe h)))
      · split
        · exact .mk (.mk (.snd (.tail (.bridgeServe h))))
        · exact .mk (.mk (.snd (.performMem h))))))

theorem Keeps2.serveAll {s t : State} {p : Pkt} {eps : List Nat} {coll : List PortA} (h :
    Keeps s t) : Keeps2 s (t.serveAll p eps coll) := by
  unfold State.serveAll
  exact .fold (fun _ _ hk => .ite _ (.mk (.unmapped (.snd hk))) (.mk (.snd (.tail (.serve (.snd hk)))))) (.mk h)

theorem Keeps.performAt {s t : State} {from_ t' : Nat} {q : Pkt} {coll : List PortA} (h :
    Keeps s t) : Keeps s (t.performAt from_ t' q coll) := by
  unfold State.performAt
  extract_lets +onlyGivenNames _ s1
  have h1 : Keeps s s1 := .ite _ (.snd (.tail (.serve h))) (.countGot (.snd (.tail (.serve h))))
  split
  · exact .reply h1
  · exact h1

theorem Keeps.travelOut {s t : State} {q : Pkt} {late : Bool} {luck : Luck} (h : Keeps s t) : Keeps s (t.travelOut q late luck) := by
  unfold State.travelOut
  extract_lets +onlyGivenNames _
  split
  · exact .ite _ (.reply (.unmapped (.packetOver h))) (.rtDrop (.packetOver h))
  · exact .cross (.modNet h) (fun _ hk => .ite _ (.crcDrops (.packetOver hk)) (.linkSend (.countGot (.crcDrops (.packetOver hk)))))

theorem Keeps.travelMany {s t : State} {q : Pkt} {eps : List Ep} {late : Bool} {luck : Luck} (h :
    Keeps s t) : Keeps s (t.travelMany q eps late luck) := by
  unfold State.travelMany
  extract_lets +onlyGivenNames _ _ _ _ _ _ _ _ s1
  have h1 : Keeps s s1 := .modNet (.snd (.serveAll (.snd (.copies (.cuffLeave h)))))
  exact .ite _ (.ite _ (.reply (.packetOver h1)) (.packetOver h1)) (.cuffHold (.modNet h1))

theorem Keeps.travel {s t : State} {q : Pkt} {late : Bool} {luck : Luck} (h : Keeps s t) : Keeps s (t.travel q late luck) := by
  unfold State.travel
  exact .ite _ h (.ite _ (.badPacket (.packetOver h)) (.ite _ (.travelOut h) (by
    split
    · exact .travelMany h
    · split
      · exact .reply (.unmapped (.packetOver h))
      · exact .cross h (fun _ hk => .ite _ (.performAt (.packetOver hk)) (.crcDrops (.packetOver hk))))))

theorem Keeps.foreign {s t : State} {e : Nat} {q : Pkt} {luck : Luck} (h : Keeps s t) : Keeps s (t.foreign e q luck) := by
  unfold State.foreign
  split
  · exact h
  · exact .cross h <| fun _ hk => .ite _ (.badPacket (.releaseReply (.modNet hk))) <|
      .ite _ (.performAt (.modNet hk)) (.crcDrops (.releaseReply (.modNet hk)))

theorem Keeps.requestRow {s t : State} {op : Fin 10} {p : Pkt} {luck : Luck} (h : Keeps s t) : Keeps s (t.requestRow op p luck) := by
  unfold State.requestRow
  exact .ite _ (by
    split
    · exact .foreign h
    · exact h) (.ite _ h (.ite _ h (.ite _ (by
    split
    · exact .travel h
    · exact h) (by
    split
    · exact .travel h
    · exact .ite _ h (.ite _ (.ite _ (.modNet h) (.request h)) (by
        split
        · exact .travel (.ite _ (.modNet h) (.request h))
        · exact .ite _ (.modNet h) (.request h)))))))

theorem Keeps.owner {s t : State} {ep tag st : Nat} {data : List Byte} (h : Keeps s t) : Keeps s (t.owner ep tag st data) := by
  unfold State.owner
  split
  · split
    · exact .modTile h (fun _ c => c)
    · exact .modEvt h
  · split
    · exact .portWritten h
    · refine .ite _ (.landWritten h) (.ite _ ?_ (.getD (.mvResponse h) h))
      split
      · next e => exact .flushWrites (.of_some e (.pcieResponse h))
      · exact h

theorem Keeps.retire {s t : State} {q : Pkt} {timedOut : Bool} (h : Keeps s t) : Keeps s (t.retire q timedOut) := by
  unfold State.retire
  exact .modNet (.modNet h)

theorem Keeps.fenceFreed {s t : State} {ep tag : Nat} (h : Keeps s t) : Keeps s (t.fenceFreed ep tag) := by
  unfold State.fenceFreed
  split
  · exact .fenceOver h
  · exact h

theorem Keeps.complete {s t : State} {ep tag st : Nat} {data : List Byte} (h : Keeps s t) : Keeps s (t.complete ep tag st data) := by
  unfold State.complete
  split
  · exact .gateOver (.fenceFreed h)
  · split
    · exact .lateRsp (.modNet h)
    · exact .owner (.fenceFreed (.retire h))

theorem Keeps.deliverRsp {s t : State} {r : Rsp} (h : Keeps s t) : Keeps s (t.deliverRsp r) := by
  unfold State.deliverRsp
  split
  · exact .complete h
  · split
    · exact .lateRsp h
    · exact .fold (fun _ _ hk => .complete hk) h

theorem Keeps.responseRow {s t : State} {ack : Bool} {ep tag : Nat} {luck : Luck} (h :
    Keeps s t) : Keeps s (t.responseRow ack ep tag luck) := by
  unfold State.responseRow
  extract_lets +onlyGivenNames _
  split
  · exact h
  · exact .cross h (fun _ hk => (by
      extract_lets +onlyGivenNames _ _ _ s1
      have h1 : Keeps s s1 := .ite _ (.badPacket (.modNet hk)) (.crcDrops (.modNet hk))
      split
      · exact .ite _ (.releaseReply h1) (.linkSend (.ite _ h1 (.countGot h1)))
      · exact .ite _ (.modNet h1) (.ite _ (.epDown h1) (.deliverRsp (.ite _ h1 (.countGot h1))))))

theorem Keeps.fenceEnds {s t : State} {src dst : Nat} {tag : Option Nat} {st : Nat} (h :
    Keeps s t) : Keeps s (t.fenceEnds src dst tag st) := by
  unfold State.fenceEnds
  split
  · exact .complete h
  · exact .fenceOver h

theorem Keeps.voteUpset {s t : State} {key copies b : Nat} (h : Keeps s t) : Keeps s (t.voteUpset key copies b) := by
  unfold State.voteUpset
  split
  · exact h
  · split
    · exact h
    · exact .ite _ h (.ite _ (.cause (.put (.bump h))) (.settle (.afterWrite (.put h))))

theorem KeepsNext.execRd {s t : State} {p : Pkt} {luck : Luck} (h : Keeps s t) : KeepsNext s (execRd p luck t) := by
  unfold Machine.execRd
  exact .next (.requestRow h)

theorem KeepsNext.execWr {s t : State} {p : Pkt} {luck : Luck} (h : Keeps s t) : KeepsNext s (execWr p luck t) := by
  unfold Machine.execWr
  exact .next (.requestRow h)

theorem KeepsNext.execAddI32 {s t : State} {p : Pkt} {luck : Luck} (h : Keeps s t) : KeepsNext s (execAddI32 p luck t) := by
  unfold Machine.execAddI32
  exact .next (.requestRow h)

theorem KeepsNext.execAddI64 {s t : State} {p : Pkt} {luck : Luck} (h : Keeps s t) : KeepsNext s (execAddI64 p luck t) := by
  unfold Machine.execAddI64
  exact .next (.requestRow h)

theorem KeepsNext.execAddF32 {s t : State} {p : Pkt} {luck : Luck} (h : Keeps s t) : KeepsNext s (execAddF32 p luck t) := by
  unfold Machine.execAddF32
  exact .next (.requestRow h)

theorem KeepsNext.execAdd2bf16 {s t : State} {p : Pkt} {luck : Luck} (h : Keeps s t) : KeepsNext s (execAdd2bf16 p luck t) := by
  unfold Machine.execAdd2bf16
  exact .next (.requestRow h)

theorem KeepsNext.execSwap64 {s t : State} {p : Pkt} {luck : Luck} (h : Keeps s t) : KeepsNext s (execSwap64 p luck t) := by
  unfold Machine.execSwap64
  exact .next (.requestRow h)

theorem KeepsNext.execDelayStep {s t : State} {p : Pkt} {luck : Luck} (h : Keeps s t) : KeepsNext s (execDelayStep p luck t) := by
  unfold Machine.execDelayStep
  exact .next (.requestRow h)

theorem KeepsNext.execRdrsp {s t : State} {ep : Ep} {tag : BitVec 12} {luck : Luck} (h :
    Keeps s t) : KeepsNext s (execRdrsp ep tag luck t) := by
  unfold Machine.execRdrsp
  exact .next (.responseRow h)

theorem KeepsNext.execWrack {s t : State} {ep : Ep} {tag : BitVec 12} {luck : Luck} (h :
    Keeps s t) : KeepsNext s (execWrack ep tag luck t) := by
  unfold Machine.execWrack
  exact .next (.responseRow h)

theorem KeepsNext.execFncack {s t : State} {src : Ep} {dst : Carried Dst Luck} (h : Keeps s t) : KeepsNext s (execFncack src dst t) := by
  unfold Machine.execFncack
  split
  · exact .next h
  · exact .next (.cross h (fun _ hk => .ite _ (.badPacket (.modNet hk)) (.ite _ (.crcDrops (.modNet hk)) (.ite _ (.epDown (.modNet hk)) (by
      split
      · exact .ite _ (.fenceEnds (.modNet hk)) (.lateRsp (.modNet hk))
      · exact .lateRsp (.modNet hk))))))

theorem KeepsNext.execFenceSourceTimeout {s t : State} {src : Ep} {dst : Dst} (h :
    Keeps s t) : KeepsNext s (execFenceSourceTimeout src dst t) := by
  unfold Machine.execFenceSourceTimeout
  split
  · exact .next h
  · exact .ite _ (.next h) (.next (.fenceEnds h))

theorem KeepsNext.execRequestTimeout {s t : State} {ep : Ep} {tag : BitVec 12} (h :
    Keeps s t) : KeepsNext s (execRequestTimeout ep tag t) := by
  unfold Machine.execRequestTimeout
  exact .ite _ (.next h) (.ite _ (.next (.complete h)) (by
    split
    · exact .next (.postReply (.frame h))
    · split
      · exact .next (.redOver h)
      · exact .next h))

theorem KeepsNext.execDbIssue {s t : State} {v : Word32} (h : Keeps s t) : KeepsNext s (execDbIssue v t) := by
  unfold Machine.execDbIssue
  exact .next (.hostWrite h)

theorem KeepsNext.execDbInj {s t : State} {v : Word32} (h : Keeps s t) : KeepsNext s (execDbInj v t) := by
  unfold Machine.execDbInj
  exact .next (.hostWrite h)

theorem KeepsNext.execDbMover {s t : State} {m : Fin 32} {v : Word32} (h : Keeps s t) : KeepsNext s (execDbMover m v t) := by
  unfold Machine.execDbMover
  exact .next (.hostWrite h)

theorem KeepsNext.execUpset {s t : State} {t' : UpsetTarget} (h : Keeps s t) : KeepsNext s (execUpset t' t) := by
  unfold Machine.execUpset
  split
  · split
    · exact .next (.flipBit h)
    · exact .next (.flipBit h)
    · exact .next (.flipBit h)
    · exact .next h
  · exact .next (.modTile h (fun _ c => c))
  · exact .next (.frame h)
  · exact .next (.modQueue h)
  · exact .next (.frame h)
  · exact .next (.voteUpset h)

/-! The meanings of Machine/Rows. -/

theorem KeepsNext.rowWrite {s t : State} {src : Source} {off w : Nat} {f : State → Res} (h :
    Keeps s t) (hf : ∀ u, Keeps s u → KeepsNext s (f u)) : KeepsNext s (t.rowWrite src off w f) := by
  unfold State.rowWrite
  exact .ite _ (.next (.hostWrite h)) <|
    .ite _ (.next h) <|
    .ite _ (.next (.unusedAccess h)) <|
    .ite _ (.next (.downWrite h)) <|
    .ite _ (.next (.slowed (.checkEnd h))) (.next (.outcome (.slowed (.checkEnd h)) (hf _ (.slowed (.checkEnd h)))))

theorem KeepsNext.flushed {s t : State} {f : State → Res} (hf : ∀ u, Keeps s u → KeepsNext s (f u)) (h :
    Keeps s t) : KeepsNext s (flushed f t) := by
  unfold State.flushed
  exact .next (.flushWrites (.outcome h (hf _ h)))

theorem KeepsNext.execLoad {s t : State} (h : Keeps s t) : KeepsNext s (execLoad t) := by
  unfold Machine.execLoad
  exact .rowWrite h (fun _ hk => .actLoad hk)

theorem KeepsNext.execStart {s t : State} (h : Keeps s t) : KeepsNext s (execStart t) := by
  unfold Machine.execStart
  exact .rowWrite h (fun _ hk => .actStart hk)

theorem KeepsNext.execStop {s t : State} (h : Keeps s t) : KeepsNext s (execStop t) := by
  unfold Machine.execStop
  exact .rowWrite h (fun _ hk => .actStop hk)

theorem KeepsNext.execDbgHalt {s t : State} (h : Keeps s t) : KeepsNext s (execDbgHalt t) := by
  unfold Machine.execDbgHalt
  exact .rowWrite h (fun _ hk => .actDbgHalt hk)

theorem KeepsNext.execResume {s t : State} (h : Keeps s t) : KeepsNext s (execResume t) := by
  unfold Machine.execResume
  exact .rowWrite h (fun _ hk => .actResume hk)

theorem KeepsNext.execDbgStep {s t : State} (h : Keeps s t) : KeepsNext s (execDbgStep t) := by
  unfold Machine.execDbgStep
  exact .rowWrite h (fun _ hk => .actDbgStep hk)

theorem KeepsNext.execOne {s t : State} (h : Keeps s t) : KeepsNext s (execOne t) := by
  unfold Machine.execOne
  exact .rowWrite h (fun _ hk => .actOne hk)

theorem KeepsNext.execOneLearn {s t : State} (h : Keeps s t) : KeepsNext s (execOneLearn t) := by
  unfold Machine.execOneLearn
  exact .rowWrite h (fun _ hk => .actOneLearn hk)

theorem KeepsNext.execRun {s t : State} (h : Keeps s t) : KeepsNext s (execRun t) := by
  unfold Machine.execRun
  exact .rowWrite h (fun _ hk => .actRun hk)

theorem KeepsNext.execHalt {s t : State} (h : Keeps s t) : KeepsNext s (execHalt t) := by
  unfold Machine.execHalt
  exact .rowWrite h (fun _ hk => .actHalt hk)

theorem KeepsNext.execClose {s t : State} {src : Source} (h : Keeps s t) : KeepsNext s (execClose src t) := by
  unfold Machine.execClose
  exact .rowWrite h (fun _ hk => .actClose hk)

theorem KeepsNext.execExtend {s t : State} {src : Source} (h : Keeps s t) : KeepsNext s (execExtend src t) := by
  unfold Machine.execExtend
  exact .rowWrite h (fun _ hk => .actExtend hk)

theorem KeepsNext.execRetune {s t : State} (h : Keeps s t) : KeepsNext s (execRetune t) := by
  unfold Machine.execRetune
  exact .rowWrite h (fun _ hk => .actRetune hk)

theorem KeepsNext.execApply {s t : State} {src : Source} (h : Keeps s t) : KeepsNext s (execApply src t) := by
  unfold Machine.execApply
  exact .rowWrite h (fun _ hk => .actApply hk)

theorem KeepsNext.execScanGo {s t : State} {src : Source} {c : Fin 8} {op : Fin 4} {cont : Bool} (h :
    Keeps s t) : KeepsNext s (execScanGo src c op cont t) := by
  unfold Machine.execScanGo
  exact .rowWrite h (fun _ hk => .actScanGo hk)

theorem KeepsNext.execScanAbort {s t : State} {src : Source} {c : Fin 8} {processed : BitVec 30} (h :
    Keeps s t) : KeepsNext s (execScanAbort src c processed t) := by
  unfold Machine.execScanAbort
  exact .rowWrite h (fun _ hk => .actScanAbort hk)

theorem KeepsNext.execRingHead {s t : State} {src : Source} {m : Fin 32} {v : Word32} (h :
    Keeps s t) : KeepsNext s (execRingHead src m v t) := by
  unfold Machine.execRingHead
  exact .rowWrite h (fun _ hk => .actRingHead hk)

theorem KeepsNext.execRetry {s t : State} {src : Source} {m : Fin 32} (h : Keeps s t) : KeepsNext s (execRetry src m t) := by
  unfold Machine.execRetry
  exact .rowWrite h (fun _ hk => .actRetry hk)

theorem KeepsNext.execSkip {s t : State} {src : Source} {m : Fin 32} (h : Keeps s t) : KeepsNext s (execSkip src m t) := by
  unfold Machine.execSkip
  exact .rowWrite h (fun _ hk => .actSkip hk)

theorem KeepsNext.execMvAbort {s t : State} {src : Source} {m : Fin 32} (h : Keeps s t) : KeepsNext s (execMvAbort src m t) := by
  unfold Machine.execMvAbort
  exact .rowWrite h (fun _ hk => .actMvAbort hk)

theorem KeepsNext.execMvResume {s t : State} {src : Source} {m : Fin 32} (h : Keeps s t) : KeepsNext s (execMvResume src m t) := by
  unfold Machine.execMvResume
  exact .rowWrite h (fun _ hk => .actMvResume hk)

theorem KeepsNext.execRetrain {s t : State} {src : Source} {c : Fin 32} (h : Keeps s t) : KeepsNext s (execRetrain src c t) := by
  unfold Machine.execRetrain
  exact .rowWrite h (fun _ hk => .actRetrain hk)

theorem KeepsNext.execXcolEnable {s t : State} {src : Source} {p : Fin 8} {k : Fin 4} {v : Word32} (h :
    Keeps s t) : KeepsNext s (execXcolEnable src p k v t) := by
  unfold Machine.execXcolEnable
  exact .rowWrite h (fun _ hk => .actXcolEnable hk)

theorem KeepsNext.execRtSel {s t : State} {src : Source} {bank : Bool} (h : Keeps s t) : KeepsNext s (execRtSel src bank t) := by
  unfold Machine.execRtSel
  exact .rowWrite h (fun _ hk => .actRtSel hk)

theorem KeepsNext.execXsyncCfg {s t : State} {src : Source} {v : Word32} (h : Keeps s t) : KeepsNext s (execXsyncCfg src v t) := by
  unfold Machine.execXsyncCfg
  exact .rowWrite h (fun _ hk => .actXsyncCfg hk)

theorem KeepsNext.execContextEnable {s t : State} {src : Source} {c : Fin 128} {v : Word32} (h :
    Keeps s t) : KeepsNext s (execContextEnable src c v t) := by
  unfold Machine.execContextEnable
  exact .rowWrite h (fun _ hk => .actContextEnable hk)

theorem KeepsNext.execFlags {s t : State} {src : Source} {v : BitVec 16} (h : Keeps s t) : KeepsNext s (execFlags src v t) := by
  unfold Machine.execFlags
  exact .rowWrite h (fun _ hk => .actFlags hk)

theorem KeepsNext.execBarMask {s t : State} {src : Source} {g : Fin 64} {w : Fin 8} {v : Word32} (h :
    Keeps s t) : KeepsNext s (execBarMask src g w v t) := by
  unfold Machine.execBarMask
  exact .rowWrite h (fun _ hk => .actBarMask hk)

theorem KeepsNext.execBankPwr {s t : State} {src : Source} {u' : Fin 320} {v : Word32} (h :
    Keeps s t) : KeepsNext s (execBankPwr src u' v t) := by
  unfold Machine.execBankPwr
  exact .rowWrite h (fun _ hk => .actBankPwr hk)

theorem KeepsNext.execBankInit {s t : State} {src : Source} {u' : Fin 320} {v : Word32} (h :
    Keeps s t) : KeepsNext s (execBankInit src u' v t) := by
  unfold Machine.execBankInit
  exact .rowWrite h (fun _ hk => .actBankInit hk)

theorem KeepsNext.execTokenHolder {s t : State} {src : Source} {v : Fin 4} (h : Keeps s t) : KeepsNext s (execTokenHolder src v t) := by
  unfold Machine.execTokenHolder
  exact .rowWrite h (fun _ hk => .actTokenHolder hk)

theorem KeepsNext.execHb {s t : State} {src : Source} {v : Fin 4} (h : Keeps s t) : KeepsNext s (execHb src v t) := by
  unfold Machine.execHb
  exact .rowWrite h (fun _ hk => .actHb hk)

theorem KeepsNext.execMbGo {s t : State} {src : Source} (h : Keeps s t) : KeepsNext s (execMbGo src t) := by
  unfold Machine.execMbGo
  exact .rowWrite h (fun _ hk => .actMbGo hk)

theorem KeepsNext.execMbComplete {s t : State} {src : Source} (h : Keeps s t) : KeepsNext s (execMbComplete src t) := by
  unfold Machine.execMbComplete
  exact .rowWrite h (fun _ hk => .actMbComplete hk)

theorem KeepsNext.execLock {s t : State} {src : Source} {v : BitVec 8} (h : Keeps s t) : KeepsNext s (execLock src v t) := by
  unfold Machine.execLock
  exact .rowWrite h (fun _ hk => .actLock hk)

theorem KeepsNext.execMult {s t : State} {src : Source} {v : BitVec 8} (h : Keeps s t) : KeepsNext s (execMult src v t) := by
  unfold Machine.execMult
  exact .rowWrite h (fun _ hk => .actMult hk)

theorem KeepsNext.execHalfCfg {s t : State} {src : Source} {west east : Fin 4} (h :
    Keeps s t) : KeepsNext s (execHalfCfg src west east t) := by
  unfold Machine.execHalfCfg
  exact .rowWrite h (fun _ hk => .actHalfCfg hk)

theorem KeepsNext.execDomEn {s t : State} {src : Source} {w : Fin 11} {v : Word32} (h : Keeps s t) : KeepsNext s (execDomEn src w v t) := by
  unfold Machine.execDomEn
  exact .rowWrite h (fun _ hk => .actDomEn hk)

theorem KeepsNext.execCold {s t : State} {src : Source} {key : BitVec 16} (h : Keeps s t) : KeepsNext s (execCold src key t) := by
  unfold Machine.execCold
  exact .rowWrite h (fun _ hk => .actCold hk)

theorem KeepsNext.execCompute {s t : State} {src : Source} {key : BitVec 16} (h : Keeps s t) : KeepsNext s (execCompute src key t) := by
  unfold Machine.execCompute
  exact .rowWrite h (fun _ hk => .flushed (fun _ hk2 => .actCompute hk2) hk)

theorem KeepsNext.execTfwGo {s t : State} {src : Source} (h : Keeps s t) : KeepsNext s (execTfwGo src t) := by
  unfold Machine.execTfwGo
  exact .rowWrite h (fun _ hk => .actTfwGo hk)

theorem KeepsNext.execTileMap {s t : State} {src : Source} {n : TileId} {phys : BitVec 9} (h :
    Keeps s t) : KeepsNext s (execTileMap src n phys t) := by
  unfold Machine.execTileMap
  exact .rowWrite h (fun _ hk => .actTileMap hk)

theorem KeepsNext.execRowfixSoft {s t : State} {src : Source} {slice : Fin 64} {bank : Fin 16} {row : BitVec 8} (h :
    Keeps s t) : KeepsNext s (execRowfixSoft src slice bank row t) := by
  unfold Machine.execRowfixSoft
  exact .rowWrite h (fun _ hk => .actRowfixSoft hk)

theorem KeepsNext.execBistGo {s t : State} {src : Source} (h : Keeps s t) : KeepsNext s (execBistGo src t) := by
  unfold Machine.execBistGo
  exact .rowWrite h (fun _ hk => .actBistGo hk)

theorem KeepsNext.execBistAbort {s t : State} (h : Keeps s t) : KeepsNext s (execBistAbort t) := by
  unfold Machine.execBistAbort
  exact .rowWrite h (fun _ hk => .actBistAbort hk)

theorem KeepsNext.execVerdictPass {s t : State} (h : Keeps s t) : KeepsNext s (execVerdictPass t) := by
  unfold Machine.execVerdictPass
  exact .rowWrite h (fun _ hk => .actVerdictPass hk)

theorem KeepsNext.execVerdictFail {s t : State} (h : Keeps s t) : KeepsNext s (execVerdictFail t) := by
  unfold Machine.execVerdictFail
  exact .rowWrite h (fun _ hk => .actVerdictFail hk)

theorem KeepsNext.execTwinRole {s t : State} {src : Source} {v : Fin 8} (h : Keeps s t) : KeepsNext s (execTwinRole src v t) := by
  unfold Machine.execTwinRole
  exact .rowWrite h (fun _ hk => .actTwinRole hk)

theorem KeepsNext.execSick {s t : State} {src : Source} {on : Bool} (h : Keeps s t) : KeepsNext s (execSick src on t) := by
  unfold Machine.execSick
  exact .rowWrite h (fun _ hk => .actSick hk)

theorem KeepsNext.execHandover {s t : State} {src : Source} (h : Keeps s t) : KeepsNext s (execHandover src t) := by
  unfold Machine.execHandover
  exact .rowWrite h (fun _ hk => .actHandover hk)

theorem KeepsNext.execDetach {s t : State} {src : Source} (h : Keeps s t) : KeepsNext s (execDetach src t) := by
  unfold Machine.execDetach
  exact .rowWrite h (fun _ hk => .actDetach hk)

theorem KeepsNext.execHold {s t : State} {src : Source} {t' : Fin 16} (h : Keeps s t) : KeepsNext s (execHold src t' t) := by
  unfold Machine.execHold
  exact .rowWrite h (fun _ hk => .actHold hk)

theorem KeepsNext.execHoldRelease {s t : State} {src : Source} {t' : Fin 16} (h : Keeps s t) : KeepsNext s (execHoldRelease src t' t) := by
  unfold Machine.execHoldRelease
  exact .rowWrite h (fun _ hk => .actHoldRelease hk)

theorem KeepsNext.execPsetLoad {s t : State} {src : Source} {n : TileId} (h : Keeps s t) : KeepsNext s (execPsetLoad src n t) := by
  unfold Machine.execPsetLoad
  exact .rowWrite h (fun _ hk => .actPsetLoad hk)

theorem KeepsNext.execHlockReq {s t : State} {src : Source} {n : TileId} {row : BitVec 16} (h :
    Keeps s t) : KeepsNext s (execHlockReq src n row t) := by
  unfold Machine.execHlockReq
  exact .rowWrite h (fun _ hk => .actHlockReq hk)

theorem KeepsNext.execHlockRel {s t : State} {src : Source} {n : TileId} (h : Keeps s t) : KeepsNext s (execHlockRel src n t) := by
  unfold Machine.execHlockRel
  exact .rowWrite h (fun _ hk => .actHlockRel hk)

theorem KeepsNext.execLearnCmdGo {s t : State} {src : Source} {n : TileId} {args : BitVec 24} (h :
    Keeps s t) : KeepsNext s (execLearnCmdGo src n args t) := by
  unfold Machine.execLearnCmdGo
  exact .rowWrite h (fun _ hk => .actLearnCmdGo hk)

theorem KeepsNext.execLearnCtrlDone {s t : State} {src : Source} {n : TileId} (h :
    Keeps s t) : KeepsNext s (execLearnCtrlDone src n t) := by
  unfold Machine.execLearnCtrlDone
  exact .rowWrite h (fun _ hk => .actLearnCtrlDone hk)

theorem KeepsNext.execDefer {s t : State} {src : Source} {n : TileId} (h : Keeps s t) : KeepsNext s (execDefer src n t) := by
  unfold Machine.execDefer
  exact .rowWrite h (fun _ hk => .actDefer hk)

theorem KeepsNext.execDrop {s t : State} {src : Source} {n : TileId} (h : Keeps s t) : KeepsNext s (execDrop src n t) := by
  unfold Machine.execDrop
  exact .rowWrite h (fun _ hk => .actDrop hk)

theorem KeepsNext.execStallDiscard {s t : State} {src : Source} {n : TileId} (h : Keeps s t) : KeepsNext s (execStallDiscard src n t) := by
  unfold Machine.execStallDiscard
  exact .rowWrite h (fun _ hk => .actStallDiscard hk)

theorem KeepsNext.execRetain {s t : State} {src : Source} {n : TileId} (h : Keeps s t) : KeepsNext s (execRetain src n t) := by
  unfold Machine.execRetain
  exact .rowWrite h (fun _ hk => .actRetain hk)

theorem KeepsNext.execCombFlush {s t : State} {src : Source} {n : TileId} {v : Word32} (h :
    Keeps s t) : KeepsNext s (execCombFlush src n v t) := by
  unfold Machine.execCombFlush
  exact .rowWrite h (fun _ hk => .actCombFlush hk)

theorem KeepsNext.execPop {s t : State} {src : Source} {n : TileId} (h : Keeps s t) : KeepsNext s (execPop src n t) := by
  unfold Machine.execPop
  exact .rowWrite h (fun _ hk => .actPop hk)

theorem KeepsNext.execRngSeed {s t : State} {src : Source} {n : TileId} {v : Word64} (h :
    Keeps s t) : KeepsNext s (execRngSeed src n v t) := by
  unfold Machine.execRngSeed
  exact .rowWrite (.ite _ (.hostWrite h) h) (fun _ hk => .actRngSeed hk)

theorem KeepsNext.execBlockReset {s t : State} {src : Source} {pg : Ofs} (h : Keeps s t) : KeepsNext s (execBlockReset src pg t) := by
  unfold Machine.execBlockReset
  exact .rowWrite h (fun _ hk => .actBlockReset hk)

theorem Keeps.kickHalf {s t : State} {d : Nat} (h : Keeps s t) : Keeps s (t.kickHalf d) := by
  unfold State.kickHalf
  exact .ite _ (.fold (fun _ _ hk => .mvKick hk) h) h

theorem KeepsNext.execDomainOn {s t : State} {d : Fin 325} (h : Keeps s t) : KeepsNext s (execDomainOn d t) := by
  unfold Machine.execDomainOn
  exact .next (.kickHalf (.outcome h (.actDomainOn h)))

theorem KeepsNext.rowAccess {s t : State} {src : Source} {off : Ofs} {w : Option Word32} {f : State → Res} (h :
    Keeps s t) (hf : ∀ u, Keeps s u → KeepsNext s (f u)) : KeepsNext s (t.rowAccess src off w f) := by
  unfold State.rowAccess
  exact .ite _ (by
    split
    · exact .next (.hostWrite h)
    · exact .next (.hostRead h)) (.ite _ (.next h) (.next (.outcome h (hf _ h))))

theorem KeepsNext.execEnable {s t : State} {src : Source} {pg : Ofs} (h : Keeps s t) : KeepsNext s (execEnable src pg t) := by
  unfold Machine.execEnable
  exact .rowAccess h (fun _ hk => .actEnable hk)

theorem KeepsNext.execUnusedPageAccess {s t : State} {src : Source} {off : Ofs} {w : Option Word32} (h :
    Keeps s t) : KeepsNext s (execUnusedPageAccess src off w t) := by
  unfold Machine.execUnusedPageAccess
  exact .rowAccess h (fun _ hk => .actUnusedPageAccess hk)

theorem KeepsNext.execDownPageAccess {s t : State} {src : Source} {off : Ofs} {w : Option Word32} (h :
    Keeps s t) : KeepsNext s (execDownPageAccess src off w t) := by
  unfold Machine.execDownPageAccess
  exact .rowAccess h (fun _ hk => .actDownPageAccess hk)

theorem KeepsNext.execVote {s t : State} {src : Source} {off : Ofs} {v : Word32} (h : Keeps s t) : KeepsNext s (execVote src off v t) := by
  unfold Machine.execVote
  exact .rowAccess h (fun _ hk => .actVote hk)

theorem KeepsNext.execGtCntRead {s t : State} {src : Source} {t' : Fin 16} (h : Keeps s t) : KeepsNext s (execGtCntRead src t' t) := by
  unfold Machine.execGtCntRead
  exact .rowAccess h (fun _ hk => .actGtCntRead hk)

/-! The meanings of Machine/Scan. -/

theorem Keeps2.scanWrite {s t : State} {c a : Nat} {data : List Byte} {coll : List PortA} (h :
    Keeps s t) : Keeps2 s (t.scanWrite c a data coll) := by
  unfold State.scanWrite
  exact .ite _ (.mk h) (by
    split
    · exact .writeVia h
    · exact .mk (.snd (.tail (.serveMem h))))

theorem Keeps.scanEnd {s t : State} {c : Nat} {coll : List PortA} (h : Keeps s t) : Keeps s (t.scanEnd c coll) := by
  unfold State.scanEnd
  split
  · exact h
  · exact .ite _ (.scanFail (.snd (.scanFeed h))) (.ite _ (by
      extract_lets +onlyGivenNames w
      have h1 : Keeps2 s w := .scanWrite (.chkResult (.snd (.scanFeed h)))
      exact .ite _ (.scanOver (.snd h1)) (.scanFail (.snd h1))) (.ite _ (by
      extract_lets +onlyGivenNames w
      have h2 : Keeps3 s w := .scanRead (.chkResult (.snd (.scanFeed h)))
      exact .ite _ (.scanOver (.chkMatch (.snd (.tail h2)))) (.scanFail (.snd (.tail h2)))) (.scanOver (.chkResult (.snd (.scanFeed h))))))

theorem KeepsNext.execScanDone {s t : State} {c : Fin 8} {coll : List PortA} (h : Keeps s t) : KeepsNext s (execScanDone c coll t) := by
  unfold Machine.execScanDone
  split
  · exact .next h
  · exact .ite _ (.next h) (.next (.guard h (fun _ hk => .scanEnd hk)))

theorem KeepsNext.execTfwLoadEnd {s t : State} {failed : List TileId} (h : Keeps s t) : KeepsNext s (execTfwLoadEnd failed t) := by
  unfold Machine.execTfwLoadEnd
  split
  · exact .next h
  · exact .ite _ (.next (.tfwEnd h)) (.next (.guard h (fun _ hk => .tfwEnd (.snd (.tail (.readVia hk))))))

/-! The dispatch and the step. -/

/-- Every command keeps the canonical form and the queue: each by the lemma of its own meaning. -/
theorem KeepsNext.exec (c : Instr) (s : State) : KeepsNext s (exec c s) := by
  cases c with
  | registerWrite _ _ _ => exact .execRegisterWrite (.refl s)
  | enable _ _ => exact .execEnable (.refl s)
  | consistencyCheckEnd _ => exact .execConsistencyCheckEnd (.refl s)
  | blockReset _ _ => exact .execBlockReset (.refl s)
  | blockResetEnd _ => exact .execBlockResetEnd (.refl s)
  | unusedPageAccess _ _ _ => exact .execUnusedPageAccess (.refl s)
  | downPageAccess _ _ _ => exact .execDownPageAccess (.refl s)
  | vote _ _ _ => exact .execVote (.refl s)
  | shadowRead _ _ => exact .execShadowRead (.refl s)
  | shadowWrite _ _ _ => exact .execShadowWrite (.refl s)
  | slowWriteComplete _ _ => exact .execSlowWriteComplete (.refl s)
  | registerBridgeRequest _ => exact .execRegisterBridgeRequest (.refl s)
  | load => exact .execLoad (.refl s)
  | loadEnd => exact .execLoadEnd (.refl s)
  | loadTimeout => exact .execLoadTimeout (.refl s)
  | start => exact .execStart (.refl s)
  | stop => exact .execStop (.refl s)
  | launchWord => exact .execLaunchWord (.refl s)
  | bundleExecute _ => exact .execBundleExecute (.refl s)
  | trackedOpComplete _ _ => exact .execTrackedOpComplete (.refl s)
  | lstart _ _ _ => exact .execLstart (.refl s)
  | lend _ _ => exact .execLend (.refl s)
  | lone _ _ _ => exact .execLone (.refl s)
  | endOp => exact .execEnd (.refl s)
  | exitif _ _ => exact .execExitif (.refl s)
  | dbclr _ => exact .execDbclr (.refl s)
  | setflag _ => exact .execSetflag (.refl s)
  | clrflag _ => exact .execClrflag (.refl s)
  | one => exact .execOne (.refl s)
  | oneLearn => exact .execOneLearn (.refl s)
  | run => exact .execRun (.refl s)
  | halt => exact .execHalt (.refl s)
  | waitBarrier _ => exact .execWaitBarrier (.refl s)
  | waitMover _ => exact .execWaitMover (.refl s)
  | waitEvtDrain => exact .execWaitEvtDrain (.refl s)
  | waitStepTimer => exact .execWaitStepTimer (.refl s)
  | waitDoorbell _ => exact .execWaitDoorbell (.refl s)
  | waitFlagSet _ => exact .execWaitFlagSet (.refl s)
  | waitFlagClr _ => exact .execWaitFlagClr (.refl s)
  | waitTracked => exact .execWaitTracked (.refl s)
  | waitCycles _ => exact .execWaitCycles (.refl s)
  | waitSatisfied => exact .execWaitSatisfied (.refl s)
  | waitTimeout => exact .execWaitTimeout (.refl s)
  | dbgHalt => exact .execDbgHalt (.refl s)
  | resume => exact .execResume (.refl s)
  | dbgStep => exact .execDbgStep (.refl s)
  | stepDone => exact .execStepDone (.refl s)
  | move _ _ _ _ => exact .execMove (.refl s)
  | qsend _ _ _ _ _ _ _ => exact .execQsend (.refl s)
  | recv _ _ _ _ _ => exact .execRecv (.refl s)
  | peek _ _ _ _ _ => exact .execPeek (.refl s)
  | discard _ _ _ _ _ => exact .execDiscard (.refl s)
  | evctlStart _ => exact .execEvctlStart (.refl s)
  | evctlDrain _ => exact .execEvctlDrain (.refl s)
  | evctlStop _ => exact .execEvctlStop (.refl s)
  | drainComplete _ => exact .execDrainComplete (.refl s)
  | learn _ _ => exact .execLearn (.refl s)
  | arrive _ _ => exact .execArrive (.refl s)
  | flag _ _ _ => exact .execFlag (.refl s)
  | load8 _ _ _ => exact .execLoad8 (.refl s)
  | store8 _ _ _ => exact .execStore8 (.refl s)
  | atomic _ _ _ _ _ => exact .execAtomic (.refl s)
  | fence _ _ => exact .execFence (.refl s)
  | add _ _ _ _ => exact .execAdd (.refl s)
  | sub _ _ _ _ => exact .execSub (.refl s)
  | andOp _ _ _ _ => exact .execAnd (.refl s)
  | orOp _ _ _ _ => exact .execOr (.refl s)
  | xorOp _ _ _ _ => exact .execXor (.refl s)
  | sll _ _ _ _ => exact .execSll (.refl s)
  | srl _ _ _ _ => exact .execSrl (.refl s)
  | sra _ _ _ _ => exact .execSra (.refl s)
  | slt _ _ _ _ => exact .execSlt (.refl s)
  | sltu _ _ _ _ => exact .execSltu (.refl s)
  | mul _ _ _ _ => exact .execMul (.refl s)
  | mulh _ _ _ _ => exact .execMulh (.refl s)
  | selnz _ _ _ _ => exact .execSelnz (.refl s)
  | addi _ _ _ _ => exact .execAddi (.refl s)
  | andi _ _ _ _ => exact .execAndi (.refl s)
  | ori _ _ _ _ => exact .execOri (.refl s)
  | xori _ _ _ _ => exact .execXori (.refl s)
  | slli _ _ _ _ => exact .execSlli (.refl s)
  | srli _ _ _ _ => exact .execSrli (.refl s)
  | srai _ _ _ _ => exact .execSrai (.refl s)
  | shori _ _ _ _ => exact .execShori (.refl s)
  | ld _ _ _ _ => exact .execLd (.refl s)
  | lw _ _ _ _ => exact .execLw (.refl s)
  | lwu _ _ _ _ => exact .execLwu (.refl s)
  | sd _ _ _ _ => exact .execSd (.refl s)
  | sw _ _ _ _ => exact .execSw (.refl s)
  | atom _ _ _ _ _ => exact .execAtom (.refl s)
  | mfv _ _ _ _ _ => exact .execMfv (.refl s)
  | rdcsr _ _ _ => exact .execRdcsr (.refl s)
  | compactAdd _ _ _ _ => exact .execCompactAdd (.refl s)
  | compactSub _ _ _ _ => exact .execCompactSub (.refl s)
  | compactAnd _ _ _ _ => exact .execCompactAnd (.refl s)
  | compactOr _ _ _ _ => exact .execCompactOr (.refl s)
  | compactXor _ _ _ _ => exact .execCompactXor (.refl s)
  | compactSll _ _ _ _ => exact .execCompactSll (.refl s)
  | compactSrl _ _ _ _ => exact .execCompactSrl (.refl s)
  | compactMov _ _ _ => exact .execCompactMov (.refl s)
  | vadd _ _ _ _ _ _ => exact .execVadd (.refl s)
  | vsub _ _ _ _ _ _ => exact .execVsub (.refl s)
  | vmul _ _ _ _ _ _ => exact .execVmul (.refl s)
  | vfma _ _ _ _ _ _ _ _ => exact .execVfma (.refl s)
  | vmax _ _ _ _ _ _ => exact .execVmax (.refl s)
  | vmin _ _ _ _ _ _ => exact .execVmin (.refl s)
  | vlerp _ _ _ _ _ _ _ => exact .execVlerp (.refl s)
  | vrms _ _ _ _ _ _ _ => exact .execVrms (.refl s)
  | vdive _ _ _ _ _ _ _ => exact .execVdive (.refl s)
  | vrcp _ _ _ _ _ => exact .execVrcp (.refl s)
  | vrsqrt _ _ _ _ _ => exact .execVrsqrt (.refl s)
  | vexp2 _ _ _ _ _ => exact .execVexp2 (.refl s)
  | vlog2 _ _ _ _ _ => exact .execVlog2 (.refl s)
  | vsqrt _ _ _ _ _ => exact .execVsqrt (.refl s)
  | vcmp _ _ _ _ _ _ _ => exact .execVcmp (.refl s)
  | vsel _ ty _ _ _ _ => exact .execVsel (ty := ty) (.refl s)
  | vcvt _ _ _ _ _ _ _ => exact .execVcvt (.refl s)
  | vred _ _ _ _ _ _ => exact .execVred (.refl s)
  | vscan _ _ _ _ _ _ => exact .execVscan (.refl s)
  | vscanl _ _ _ _ _ _ _ => exact .execVscanl (.refl s)
  | vld _ ty _ _ _ _ => exact .execVld (ty := ty) (.refl s)
  | vst _ ty _ _ _ _ => exact .execVst (ty := ty) (.refl s)
  | vbcast _ _ _ _ => exact .execVbcast (.refl s)
  | vsetk _ _ _ => exact .execVsetk (.refl s)
  | vdq _ _ _ _ _ => exact .execVdq (.refl s)
  | vq _ _ _ _ _ => exact .execVq (.refl s)
  | ldw _ _ => exact .execLdw (.refl s)
  | swapw _ => exact .execSwapw (.refl s)
  | swapwDeferred _ => exact .execSwapwDeferred (.refl s)
  | mac _ _ _ => exact .execMac (.refl s)
  | out _ _ _ => exact .execOut (.refl s)
  | clr _ _ _ => exact .execClr (.refl s)
  | eccWriteback _ => exact .execEccWriteback (.refl s)
  | scrubRead _ _ _ => exact .execScrubRead (.refl s)
  | bankPwr _ _ _ => exact .execBankPwr (.refl s)
  | bankTransitionEnd _ _ => exact .execBankTransitionEnd (.refl s)
  | bankInit _ _ _ => exact .execBankInit (.refl s)
  | initDone _ _ => exact .execInitDone (.refl s)
  | rngSeed _ _ _ => exact .execRngSeed (.refl s)
  | retune => exact .execRetune (.refl s)
  | retuneUpdate => exact .execRetuneUpdate (.refl s)
  | retuneTimeout => exact .execRetuneTimeout (.refl s)
  | apply _ => exact .execApply (.refl s)
  | walkEntry _ => exact .execWalkEntry (.refl s)
  | eventGroup _ _ => exact .execEventGroup (.refl s)
  | lockTimeout _ => exact .execLockTimeout (.refl s)
  | psetLoad _ _ => exact .execPsetLoad (.refl s)
  | psetLoadEnd _ => exact .execPsetLoadEnd (.refl s)
  | stepBoundary => exact .execStepBoundary (.refl s)
  | phaseEnter _ => exact .execPhaseEnter (.refl s)
  | readoutCopyEnd _ => exact .execReadoutCopyEnd (.refl s)
  | drainClose => exact .execDrainClose (.refl s)
  | neuronSweepEnd _ => exact .execNeuronSweepEnd (.refl s)
  | barrierComplete _ => exact .execBarrierComplete (.refl s)
  | stretch => exact .execStretch (.refl s)
  | lateStep => exact .execLateStep (.refl s)
  | close _ => exact .execClose (.refl s)
  | extend _ => exact .execExtend (.refl s)
  | defer _ _ => exact .execDefer (.refl s)
  | drop _ _ => exact .execDrop (.refl s)
  | injectEvent _ => exact .execInjectEvent (.refl s)
  | injectCount _ => exact .execInjectCount (.refl s)
  | injectDelta _ => exact .execInjectDelta (.refl s)
  | learnCmdGo _ _ _ => exact .execLearnCmdGo (.refl s)
  | gatherEnd _ => exact .execGatherEnd (.refl s)
  | rowUpdate _ _ => exact .execRowUpdate (.refl s)
  | delayMoveComplete _ => exact .execDelayMoveComplete (.refl s)
  | applyFinish _ => exact .execApplyFinish (.refl s)
  | learnCtrlDone _ _ => exact .execLearnCtrlDone (.refl s)
  | hlockReq _ _ _ => exact .execHlockReq (.refl s)
  | hlockGrant _ => exact .execHlockGrant (.refl s)
  | hlockRel _ _ => exact .execHlockRel (.refl s)
  | rd _ _ => exact .execRd (.refl s)
  | wr _ _ => exact .execWr (.refl s)
  | addI32 _ _ => exact .execAddI32 (.refl s)
  | addI64 _ _ => exact .execAddI64 (.refl s)
  | addF32 _ _ => exact .execAddF32 (.refl s)
  | add2bf16 _ _ => exact .execAdd2bf16 (.refl s)
  | swap64 _ _ => exact .execSwap64 (.refl s)
  | delayStep _ _ => exact .execDelayStep (.refl s)
  | rdrsp _ _ _ => exact .execRdrsp (.refl s)
  | wrack _ _ _ => exact .execWrack (.refl s)
  | evt _ _ _ _ => exact .execEvt (.refl s)
  | red _ _ _ => exact .execRed (.refl s)
  | redres _ _ => exact .execRedres (.refl s)
  | fnc _ _ _ => exact .execFnc (.refl s)
  | fncack _ _ => exact .execFncack (.refl s)
  | probe _ _ => exact .execProbe (.refl s)
  | fenceDeliver _ _ => exact .execFenceDeliver (.refl s)
  | fenceTimeout _ _ => exact .execFenceTimeout (.refl s)
  | fenceSourceTimeout _ _ => exact .execFenceSourceTimeout (.refl s)
  | requestTimeout _ _ => exact .execRequestTimeout (.refl s)
  | combineWindowClose _ _ => exact .execCombineWindowClose (.refl s)
  | reductionTimeout _ _ _ => exact .execReductionTimeout (.refl s)
  | barTmo _ => exact .execBarTmo (.refl s)
  | barMask _ _ _ _ => exact .execBarMask (.refl s)
  | flags _ _ => exact .execFlags (.refl s)
  | cuffTimeout _ => exact .execCuffTimeout (.refl s)
  | cuffVoteWithdraw _ => exact .execCuffVoteWithdraw (.refl s)
  | messageHead _ _ _ => exact .execMessageHead (.refl s)
  | slotGrant _ => exact .execSlotGrant (.refl s)
  | timedExpiry _ => exact .execTimedExpiry (.refl s)
  | qstall _ => exact .execQstall (.refl s)
  | sendComplete _ => exact .execSendComplete (.refl s)
  | lost _ => exact .execLost (.refl s)
  | combFlush _ _ _ => exact .execCombFlush (.refl s)
  | pop _ _ => exact .execPop (.refl s)
  | stallDiscard _ _ => exact .execStallDiscard (.refl s)
  | retain _ _ => exact .execRetain (.refl s)
  | trainingEnd _ _ => exact .execTrainingEnd (.refl s)
  | trainTimeout _ => exact .execTrainTimeout (.refl s)
  | trainRetry _ => exact .execTrainRetry (.refl s)
  | linkPacket _ _ _ => exact .execLinkPacket (.refl s)
  | idleUnit _ => exact .execIdleUnit (.refl s)
  | credit _ _ => exact .execCredit (.refl s)
  | steptok _ _ => exact .execSteptok (.refl s)
  | bartok _ _ => exact .execBartok (.refl s)
  | cgrant _ _ _ => exact .execCgrant (.refl s)
  | creturn _ _ _ => exact .execCreturn (.refl s)
  | linkDown _ => exact .execLinkDown (.refl s)
  | failover _ => exact .execFailover (.refl s)
  | rtSel _ _ => exact .execRtSel (.refl s)
  | xsyncCfg _ _ => exact .execXsyncCfg (.refl s)
  | xcolEnable _ _ _ _ => exact .execXcolEnable (.refl s)
  | evtLife _ _ _ => exact .execEvtLife (.refl s)
  | memTrainEnd _ _ => exact .execMemTrainEnd (.refl s)
  | retrain _ _ => exact .execRetrain (.refl s)
  | refresh c => exact .execRefresh (c := c) (.refl s)
  | deviceReport _ _ => exact .execDeviceReport (.refl s)
  | recalibration c => exact .execRecalibration (c := c) (.refl s)
  | memScrubRead _ _ => exact .execMemScrubRead (.refl s)
  | ringHead _ _ _ => exact .execRingHead (.refl s)
  | post _ => exact .execPost (.refl s)
  | descFetch _ => exact .execDescFetch (.refl s)
  | checkChannelGrant _ => exact .execCheckChannelGrant (.refl s)
  | moverPacketDone _ _ => exact .execMoverPacketDone (.refl s)
  | moverRetry _ _ => exact .execMoverRetry (.refl s)
  | mvResume _ _ => exact .execMvResume (.refl s)
  | mvAbort _ _ => exact .execMvAbort (.refl s)
  | retry _ _ => exact .execRetry (.refl s)
  | skip _ _ => exact .execSkip (.refl s)
  | scanGo _ _ _ _ => exact .execScanGo (.refl s)
  | scanAbort _ _ _ => exact .execScanAbort (.refl s)
  | scanDone _ _ => exact .execScanDone (.refl s)
  | perstDeassert => exact .execPerstDeassert (.refl s)
  | hotReset => exact .execHotReset (.refl s)
  | functionLevelReset => exact .execFunctionLevelReset (.refl s)
  | pcieLinkDown => exact .execPcieLinkDown (.refl s)
  | bar2Tlp _ => exact .execBar2Tlp (.refl s)
  | dbIssue _ => exact .execDbIssue (.refl s)
  | dbInj _ => exact .execDbInj (.refl s)
  | dbMover _ _ => exact .execDbMover (.refl s)
  | launch _ _ _ => exact .execLaunch (.refl s)
  | msixSend _ => exact .execMsixSend (.refl s)
  | hostCompletion _ _ => exact .execHostCompletion (.refl s)
  | setEndpointId _ => exact .execSetEndpointId (.refl s)
  | getEndpointId => exact .execGetEndpointId (.refl s)
  | getMctpVersionSupport => exact .execGetMctpVersionSupport (.refl s)
  | getMessageTypeSupport => exact .execGetMessageTypeSupport (.refl s)
  | ingestFrame _ => exact .execIngestFrame (.refl s)
  | arpRequest _ _ => exact .execArpRequest (.refl s)
  | neighborSolicitation _ _ => exact .execNeighborSolicitation (.refl s)
  | pauseFrame _ => exact .execPauseFrame (.refl s)
  | otherFrame _ => exact .execOtherFrame (.refl s)
  | countFrame _ => exact .execCountFrame (.refl s)
  | gateTmo _ => exact .execGateTmo (.refl s)
  | contextEnable _ _ _ => exact .execContextEnable (.refl s)
  | streamLinkUp _ _ => exact .execStreamLinkUp (.refl s)
  | streamLinkDown _ => exact .execStreamLinkDown (.refl s)
  | hb _ _ => exact .execHb (.refl s)
  | hbBoundary => exact .execHbBoundary (.refl s)
  | tokenHolder _ _ => exact .execTokenHolder (.refl s)
  | mbGo _ => exact .execMbGo (.refl s)
  | mbComplete _ => exact .execMbComplete (.refl s)
  | getInfo _ => exact .execGetInfo (.refl s)
  | setModuleId _ => exact .execSetModuleId (.refl s)
  | sensorRead _ => exact .execSensorRead (.refl s)
  | threshSet _ => exact .execThreshSet (.refl s)
  | logRead _ => exact .execLogRead (.refl s)
  | fwStage _ => exact .execFwStage (.refl s)
  | fwActivate _ => exact .execFwActivate (.refl s)
  | fwCommit _ => exact .execFwCommit (.refl s)
  | attest _ => exact .execAttest (.refl s)
  | getCert _ => exact .execGetCert (.refl s)
  | lockSet _ => exact .execLockSet (.refl s)
  | tokenAssign _ => exact .execTokenAssign (.refl s)
  | lock _ _ => exact .execLock (.refl s)
  | sensorSample _ _ _ => exact .execSensorSample (.refl s)
  | tripSample _ _ => exact .execTripSample (.refl s)
  | logWrite => exact .execLogWrite (.refl s)
  | boot => exact .execBoot (.refl s)
  | mult _ _ => exact .execMult (.refl s)
  | relockDone => exact .execRelockDone (.refl s)
  | lockLost => exact .execLockLost (.refl s)
  | pllRelock => exact .execPllRelock (.refl s)
  | halfCfg _ _ _ => exact .execHalfCfg (.refl s)
  | throttleWindow => exact .execThrottleWindow (.refl s)
  | capTrip => exact .execCapTrip (.refl s)
  | capTripRelease => exact .execCapTripRelease (.refl s)
  | domEn _ _ _ => exact .execDomEn (.refl s)
  | domainOn _ => exact .execDomainOn (.refl s)
  | domainLow _ => exact .execDomainLow (.refl s)
  | watchWake _ _ _ => exact .execWatchWake (.refl s)
  | powerOn => exact .execPowerOn (.refl s)
  | supplyFault vm => exact .execSupplyFault (vm := vm) (.refl s)
  | cold _ _ => exact .execCold (.refl s)
  | compute _ _ => exact .execCompute (.refl s)
  | computeResetEnd => exact .execComputeResetEnd (.refl s)
  | tileMap _ _ _ => exact .execTileMap (.refl s)
  | rowfixSoft _ _ _ _ => exact .execRowfixSoft (.refl s)
  | tfwGo _ => exact .execTfwGo (.refl s)
  | tfwLoadEnd _ => exact .execTfwLoadEnd (.refl s)
  | bistGo _ => exact .execBistGo (.refl s)
  | bistTargetStart _ _ => exact .execBistTargetStart (.refl s)
  | bistTargetEnd _ _ _ => exact .execBistTargetEnd (.refl s)
  | bistAbort => exact .execBistAbort (.refl s)
  | verdictPass => exact .execVerdictPass (.refl s)
  | verdictFail => exact .execVerdictFail (.refl s)
  | bistRecord => exact .execBistRecord (.refl s)
  | twinRole _ _ => exact .execTwinRole (.refl s)
  | twinHbSend => exact .execTwinHbSend (.refl s)
  | twinHb _ _ => exact .execTwinHb (.refl s)
  | twinWindow => exact .execTwinWindow (.refl s)
  | takeover => exact .execTakeover (.refl s)
  | roleConflict => exact .execRoleConflict (.refl s)
  | sick _ _ => exact .execSick (.refl s)
  | stepWatchdog => exact .execStepWatchdog (.refl s)
  | handover _ => exact .execHandover (.refl s)
  | handoverRequest _ _ => exact .execHandoverRequest (.refl s)
  | handoverAck _ _ => exact .execHandoverAck (.refl s)
  | handoverTimeout => exact .execHandoverTimeout (.refl s)
  | detach _ => exact .execDetach (.refl s)
  | detachUnit _ _ => exact .execDetachUnit (.refl s)
  | buttonPress => exact .execButtonPress (.refl s)
  | buttonRelease _ => exact .execButtonRelease (.refl s)
  | longPress => exact .execLongPress (.refl s)
  | padChargeCycle _ => exact .execPadChargeCycle (.refl s)
  | padFault => exact .execPadFault (.refl s)
  | latch => exact .execLatch (.refl s)
  | cable _ => exact .execCable (.refl s)
  | wrap _ => exact .execWrap (.refl s)
  | matchOp _ => exact .execMatch (.refl s)
  | hold _ _ => exact .execHold (.refl s)
  | holdRelease _ _ => exact .execHoldRelease (.refl s)
  | gtCntRead _ _ => exact .execGtCntRead (.refl s)
  | capture _ _ _ => exact .execCapture (.refl s)
  | pendingCapture _ _ => exact .execPendingCapture (.refl s)
  | inputPowerLoss _ => exact .execInputPowerLoss (.refl s)
  | rootPllLock => exact .execRootPllLock (.refl s)
  | pcieLinkTrained _ _ _ => exact .execPcieLinkTrained (.refl s)
  | configurationRequest _ => exact .execConfigurationRequest (.refl s)
  | completionTimeout _ => exact .execCompletionTimeout (.refl s)
  | tick _ => exact .execTick (.refl s)
  | latchCloses => exact .execLatchCloses (.refl s)
  | upset _ => exact .execUpset (.refl s)
  | coreHalt _ _ => exact .execCoreHalt (.refl s)

end Sys2Proof.Machine.State

namespace Sys2Proof.Machine
open State

/-- Taking the next command from the queue leaves every part of the canonical form. -/
theorem canonical_withPending {s : State} (h : s.canonical = true) (l : List Instr) : ({ s with pending := l } : State).canonical = true := h

/-- Settles O49: an empty queue changes nothing, and the command at its head keeps the canonical form. -/
theorem canonicalFormKept : Obligations.CanonicalFormKept := by
  unfold Obligations.CanonicalFormKept
  intro s t h e
  unfold step at e
  split at e
  · exact Host.Outcome.next.inj e ▸ h
  · next c rest _ => exact (KeepsNext.exec c _ t e).1 (canonical_withPending h rest)

end Sys2Proof.Machine
end

section
/-! A register write also performs the host's writes that are free to go (O1). -/
namespace Sys2Proof.Machine
open State

/-- The state after reset with a host write of 1 to REG_UNMAPPED_CNT in the queue behind BAR2 writes, none of which is outstanding. -/
def hostWriteFree : State := { State.reset with pcie := { PcieS.reset with writes := [(0, .register 0x50 1)] } }

/-- TMR_FIX_CNT, an ordinary 32-bit register of the GLOBAL page. -/
def tmrFixCnt : RegRef := ⟨pageAt 0x48, ⟨0x48, [], .cold, false, [⟨0, 32, .rw, 0⟩]⟩, 0x48, false⟩

/-- The count of accesses to unused pages that a command leaves. -/
def unmappedAfter (r : Res) : Nat :=
  match r with
  | .next t => t.get Reg.GLOBAL.REG_UNMAPPED_CNT.CNT
  | _ => 0

/-- The bridge writes TMR_FIX_CNT, and the host's write of REG_UNMAPPED_CNT is performed with it. -/
theorem unmappedAfter_write_hostWriteFree : unmappedAfter (exec (.registerWrite .bridge 0x48 ⟨0, none⟩) hostWriteFree) = 1 := by decide

theorem not_registerWriteStores : ¬ Claims.registerWriteStores := by
  intro h
  obtain ⟨t, ht, -, hsame, -⟩ := h hostWriteFree .bridge 0x48 0 tmrFixCnt (by decide) (by decide) (by decide) (by decide) (by decide) (by decide) (by decide)
  have hkept : t.get Reg.GLOBAL.REG_UNMAPPED_CNT.CNT = hostWriteFree.get Reg.GLOBAL.REG_UNMAPPED_CNT.CNT := hsame _ (by decide)
  have hone : t.get Reg.GLOBAL.REG_UNMAPPED_CNT.CNT = 1 := by
    have e := unmappedAfter_write_hostWriteFree
    rwa [ht] at e
  exact absurd (hkept.symm.trans hone) (by decide)

/-- Refutes O1 in its first claim: a write of the bridge ends with `flushWrites`, and no hypothesis keeps a host write that is free to go out of the queue. -/
theorem not_registerAccessesComplete : ¬ Obligations.RegisterAccessesComplete :=
  fun h => not_registerWriteStores h.1

end Sys2Proof.Machine
end

section
/-! A bank whose BANK_INIT bit is set does not rest in the state that its transition reaches (O9). -/
namespace Sys2Proof.Machine
open State

/-- Tile 3 is ON. Its bank 2 is on its way to RETENTION, which its BANK_PWR field names, and its BANK_INIT bit is set. -/
def initWhileChanging : State :=
  { ((State.reset.put (fld (bankPg 3 + 0x40) 0 32 0) 0x10).put (fld (bankPg 3 + 0x44) 0 32 0) 0x30).put (fld (bankPg 3 + 0x48) 0 16 0) 0x4 with
    bankTo := [(16 * 3 + 2, 1)], power := { State.reset.power with dom := [(3, .on)] } }

/-- At the end of the transition `bankWrite` finds the bank initialising and its field naming another state than ON: it abandons the initialisation and starts the next transition, so the bank reads CHANGING. -/
theorem bankStat_transitionEnd_initWhileChanging :
    (initWhileChanging.outcome (exec (.bankTransitionEnd 3 2) initWhileChanging)).bankStat 3 2 = 3 := by decide

theorem not_bankTransitionEnds : ¬ Claims.bankTransitionEnds := by
  intro h
  obtain ⟨t, ht, hreached, -⟩ := h initWhileChanging 3 2 1 (by decide) (by decide) (by decide) (by decide) (by decide)
  have hchanging : t.bankStat 3 2 = 3 := by
    have e := bankStat_transitionEnd_initWhileChanging
    rwa [ht] at e
  exact absurd (hreached.symm.trans hchanging) (by decide)

/-- Refutes O9 in its claim bankTransitionEnds: no hypothesis says that the bank's BANK_INIT bit is clear, and with the bit set a bank that reaches RETENTION loses its contents and starts another transition. -/
theorem not_banksAndMemoryChannels : ¬ Obligations.BanksAndMemoryChannels := by
  rintro ⟨-, -, -, -, -, -, -, -, -, -, hends, -⟩
  exact not_bankTransitionEnds hends

end Sys2Proof.Machine
end

section
/-! Every command answers a next state (O47), a command leaves the queue as it is (O48), and a step carries out the command at its front (O46). -/
namespace Sys2Proof.Machine
open State

/-- Settles O46: both parts are the two branches of `step`. -/
theorem stepRunsFront : Obligations.StepRunsFront := by
  unfold Obligations.StepRunsFront
  refine ⟨fun c rest s => rfl, fun s hempty => ?_⟩
  unfold step
  rw [hempty]

/-- Settles O48: what every command keeps (`KeepsNext.exec`) names the queue. -/
theorem commandsLeaveTheQueue : Obligations.CommandsLeaveTheQueue := by
  unfold Obligations.CommandsLeaveTheQueue
  intro c s t h
  obtain ⟨-, hqueue⟩ := KeepsNext.exec c s t h
  exact hqueue

/-! How a meaning that ends in a next state is put together: from its branches, and from the frames that the register writes, the other accesses and the mailbox commands share. -/

/-- The meaning answers a next state, so it ends in no fault and no refusal. -/
def Completes (r : Res) : Prop := ∃ t, r = .next t

section
variable {s : State}

theorem Completes.next : Completes (.next s) := ⟨s, rfl⟩

theorem Completes.ite {c : Prop} [Decidable c] {p q : Res} (hp : Completes p) (hq : Completes q) : Completes (if c then p else q) := by
  split <;> assumption

/-- A register write answers a next state whatever the command's own effect answers: it is made with `outcome`. -/
theorem Completes.rowWrite {src : Source} {off w : Nat} {f : State → Res} : Completes (s.rowWrite src off w f) :=
  .ite .next (.ite .next (.ite .next (.ite .next (.ite .next .next))))

theorem Completes.rowAccess {src : Source} {off : Ofs} {w : Option Word32} {f : State → Res} : Completes (s.rowAccess src off w f) := by
  unfold State.rowAccess
  refine .ite ?_ (.ite .next .next)
  split <;> exact .next

theorem Completes.execEnable {src : Source} {pg : Ofs} : Completes (execEnable src pg s) := by
  unfold Machine.execEnable
  exact .rowAccess

/-- A mailbox command answers with the stored response, a refusal of its header or what its own work gives: a next state in each case. -/
theorem Completes.mailbox {path : MbPath} {cmd len : Nat} {recovery whileNone : Bool} {run : State → List Byte → State × Nat × List Byte} :
    Completes (mailbox path cmd len recovery whileNone run s) := by
  unfold Machine.mailbox
  refine .ite .next ?_
  extract_lets
  split
  · exact .next
  · split
    · exact .next
    · exact .ite .next (.ite .next .next)

/-! The commands whose meaning branches on an operand or more than once on what it finds in the state. Where a match is on a local value, the value itself does not matter and `clear_value` drops it. -/

theorem Completes.execRegisterBridgeRequest {req : BridgeReq} : Completes (execRegisterBridgeRequest req s) := by
  cases req <;> exact .next

theorem Completes.execUpset {u : UpsetTarget} : Completes (execUpset u s) := by
  cases u with
  | memWord =>
    simp only [Machine.execUpset]
    split <;> exact .next
  | laneWord | globalWord | queueWord | crownWord | voted => exact .next

theorem Completes.execRed {from_ : RedFrom} {g : Fin 64} {o : Carried (BitVec 16) Luck} : Completes (execRed from_ g o s) := by
  cases from_ with
  | tile => exact .next
  | leaf =>
    conv => arg 1; whnf
    split <;> exact .next

theorem Completes.execFnc {src : Ep} {dst : FncTo} {luck : Luck} : Completes (execFnc src dst luck s) := by
  cases dst with
  | many => exact .next
  | one =>
    conv => arg 1; whnf
    split <;> exact .next

theorem Completes.execConfigurationRequest {req : CfgReq} : Completes (execConfigurationRequest req s) := by
  cases req with
  | bar4Other => exact .ite .next (.ite .next .next)
  | _ => exact .next

theorem Completes.execBar2Tlp {tlp : Bar2Tlp} : Completes (execBar2Tlp tlp s) := by
  cases tlp with
  | rd => exact .ite .next .next
  | wr => exact .ite .next (.ite .next .next)

theorem Completes.execLinkPacket {p : Fin 8} {pkt : LinkPkt} {luck : RxLuck} : Completes (execLinkPacket p pkt luck s) := by
  refine .ite .next ?_
  cases pkt with
  | stray => exact .ite .next (.ite (.ite .next (.ite .next .next)) (.ite .next .next))
  | _ => exact .ite .next .next

theorem Completes.execFenceDeliver {src : Ep} {dst : Dst} : Completes (execFenceDeliver src dst s) := by
  unfold Machine.execFenceDeliver
  split
  · exact .next
  · refine .ite ?_ ?_
    · split <;> exact .next
    · split <;> exact .next

theorem Completes.execMoverPacketDone {m : Fin 32} {ofs : BitVec 27} : Completes (execMoverPacketDone m ofs s) := by
  unfold Machine.execMoverPacketDone
  extract_lets
  split
  · split
    · exact .next
    · refine .ite .next (.ite .next (.ite .next (.ite ?_ .next)))
      split
      · exact .ite (.ite .next .next) .next
      · exact .next
  · exact .next

theorem Completes.execRequestTimeout {ep : Ep} {tag : BitVec 12} : Completes (execRequestTimeout ep tag s) := by
  unfold Machine.execRequestTimeout
  refine .ite .next (.ite .next ?_)
  split
  · exact .next
  · split <;> exact .next

theorem Completes.execDescFetch {m : Fin 32} : Completes (execDescFetch m s) := by
  unfold Machine.execDescFetch
  extract_lets
  split
  · exact .next
  · refine .ite .next (.ite .next (.ite .next ?_))
    extract_lets
    clear_value *
    split
    · exact .next
    · exact .ite .next .next

theorem Completes.execDelayMoveComplete {n : TileId} : Completes (execDelayMoveComplete n s) := by
  unfold Machine.execDelayMoveComplete
  extract_lets
  split
  · exact .next
  · split
    · exact .next
    · exact .ite .next (.ite .next .next)

theorem Completes.execTrackedOpComplete {n : TileId} {k : Nat} : Completes (execTrackedOpComplete n k s) := by
  unfold Machine.execTrackedOpComplete
  split
  · exact .next
  · split
    · exact .next
    · exact .ite .next .next

theorem Completes.execMemTrainEnd {c : Fin 32} {bin : Option (Fin 3)} : Completes (execMemTrainEnd c bin s) := by
  unfold Machine.execMemTrainEnd
  split
  · exact .next
  · refine .ite .next ?_
    split
    · exact .ite .next .next
    · exact .next

theorem Completes.execMessageHead {ch : BitVec 16} {core : Option CoreMsg} {parity : Bool} : Completes (execMessageHead ch core parity s) := by
  unfold Machine.execMessageHead
  extract_lets
  clear_value *
  split
  · exact .next
  · exact .ite .next (.ite .next .next)

theorem Completes.execLogWrite : Completes (execLogWrite s) := by
  unfold Machine.execLogWrite
  refine .ite .next ?_
  extract_lets
  clear_value *
  split
  · exact .next
  · exact .ite .next .next

theorem Completes.execBoot : Completes (execBoot s) := by
  unfold Machine.execBoot
  refine .ite .next ?_
  extract_lets
  clear_value *
  split <;> exact .next

/-- Every command answers a next state: the commands are grouped by how their meanings branch, and `whnf` shows the first match of a meaning. -/
theorem Completes.exec (c : Instr) (s : State) : Completes (exec c s) := by
  unfold Machine.exec
  cases c with
  -- One outcome: the meaning names the next state outright, and its cases lie inside that state.
  | consistencyCheckEnd | shadowWrite | slowWriteComplete | bundleExecute | lstart | lend | lone | endOp | exitif | dbclr | setflag | clrflag
  | waitBarrier | waitMover | waitEvtDrain | waitStepTimer | waitDoorbell | waitFlagSet | waitFlagClr | waitTracked | waitCycles | move | qsend | recv
  | peek | discard | evctlStart | evctlDrain | evctlStop | learn | arrive | flag | load8 | store8 | atomic | fence | add | sub | andOp | orOp | xorOp
  | sll | srl | sra | slt | sltu | mul | mulh | selnz | addi | andi | ori | xori | slli | srli | srai | shori | ld | lw | lwu | sd | sw | atom | mfv
  | rdcsr | compactAdd | compactSub | compactAnd | compactOr | compactXor | compactSll | compactSrl | compactMov | vadd | vsub | vmul | vfma | vmax
  | vmin | vlerp | vrms | vdive | vrcp | vrsqrt | vexp2 | vlog2 | vsqrt | vcmp | vsel | vcvt | vred | vscan | vscanl | vld | vst | vbcast | vsetk
  | vdq | vq | ldw | swapw | swapwDeferred | mac | out | clr | psetLoadEnd | injectEvent | injectCount | injectDelta | rd | wr | addI32 | addI64
  | addF32 | add2bf16 | swap64 | delayStep | rdrsp | wrack | refresh | recalibration | hotReset | functionLevelReset | pcieLinkDown | dbIssue | dbInj
  | dbMover | launch | arpRequest | neighborSolicitation | fwStage | attest | getCert | tripSample | capTripRelease | domainOn | powerOn
  | handoverRequest | handoverAck | detachUnit | inputPowerLoss | tick =>
    exact .next
  -- A write of one register, another access of register space, a mailbox command.
  | blockReset | load | start | stop | one | oneLearn | run | halt | dbgHalt | resume | dbgStep | bankPwr | bankInit | rngSeed | retune | apply
  | psetLoad | close | extend | defer | drop | learnCmdGo | learnCtrlDone | hlockReq | hlockRel | barMask | flags | combFlush | pop | stallDiscard
  | retain | rtSel | xsyncCfg | xcolEnable | retrain | ringHead | mvResume | mvAbort | retry | skip | scanGo | scanAbort | contextEnable | hb
  | tokenHolder | mbGo | mbComplete | lock | mult | halfCfg | domEn | cold | compute | tileMap | rowfixSoft | tfwGo | bistGo | bistAbort | verdictPass
  | verdictFail | twinRole | sick | handover | detach | hold | holdRelease =>
    exact .rowWrite
  | enable => exact .execEnable
  | unusedPageAccess | downPageAccess | vote | gtCntRead => exact .rowAccess
  | registerWrite =>
    conv => arg 1; whnf
    split <;> exact .next
  | getInfo | setModuleId | sensorRead | threshSet | logRead | fwActivate | fwCommit | lockSet | tokenAssign => exact .mailbox
  -- One test, two, or more: the event's condition, and what then decides between its outcomes (log entry 4).
  | blockResetEnd | launchWord | stepDone | drainComplete | initDone | retuneTimeout | walkEntry | lockTimeout | stepBoundary | barrierComplete
  | stretch | evt | barTmo | cuffVoteWithdraw | trainTimeout | trainRetry | credit | steptok | bartok | cgrant | linkDown | deviceReport
  | perstDeassert | msixSend | getEndpointId | getMctpVersionSupport | getMessageTypeSupport | pauseFrame | otherFrame | gateTmo | streamLinkUp
  | streamLinkDown | relockDone | lockLost | pllRelock | throttleWindow | capTrip | domainLow | supplyFault | computeResetEnd | bistTargetStart
  | bistRecord | twinHbSend | twinHb | stepWatchdog | handoverTimeout | buttonPress | longPress | padChargeCycle | padFault | cable | wrap | matchOp
  | capture | rootPllLock | pcieLinkTrained | latchCloses | coreHalt =>
    exact .ite .next .next
  | shadowRead | retuneUpdate | phaseEnter | hlockGrant | probe | idleUnit | creturn | setEndpointId | sensorSample | watchWake | bistTargetEnd =>
    exact .ite .next (.ite .next .next)
  | lateStep | failover | hbBoundary | takeover | latch => exact .ite .next (.ite .next (.ite .next .next))
  | trainingEnd => exact .ite .next (.ite .next (.ite .next (.ite .next .next)))
  | buttonRelease => exact .ite .next (.ite .next (.ite .next (.ite .next (.ite .next .next))))
  | drainClose => exact .ite .next (.ite (.ite .next .next) (.ite .next .next))
  -- Work in progress or an entry of a queue, of which there may be none (log entry 4).
  | loadTimeout | readoutCopyEnd | redres | fncack | combineWindowClose | post | completionTimeout =>
    conv => arg 1; whnf
    split <;> exact .next
  | waitSatisfied | waitTimeout | bankTransitionEnd | neuronSweepEnd | rowUpdate | applyFinish | fenceTimeout | fenceSourceTimeout | reductionTimeout
  | cuffTimeout | slotGrant | checkChannelGrant | scanDone | hostCompletion | tfwLoadEnd | roleConflict | pendingCapture =>
    conv => arg 1; whnf
    split
    · exact .next
    · exact .ite .next .next
  | gatherEnd | timedExpiry =>
    conv => arg 1; whnf
    split
    · exact .next
    · exact .ite .next (.ite .next .next)
  | qstall =>
    conv => arg 1; whnf
    split
    · exact .next
    · exact .ite .next (.ite .next (.ite .next .next))
  | eventGroup =>
    conv => arg 1; whnf
    split
    · exact .next
    · exact .ite .next (.ite .next (.ite .next (.ite .next .next)))
  | sendComplete =>
    conv => arg 1; whnf
    split
    · exact .next
    · exact .ite .next (.ite (.ite .next (.ite .next .next)) (.ite .next .next))
  | moverRetry =>
    conv => arg 1; whnf
    split
    · exact .ite .next .next
    · exact .next
  | loadEnd =>
    conv => arg 1; whnf
    split
    · split <;> exact .next
    · exact .ite .next .next
  -- Tests before such a choice.
  | memScrubRead | countFrame =>
    refine .ite .next ?_
    conv => arg 1; whnf
    split <;> exact .next
  | scrubRead =>
    refine .ite .next (.ite .next ?_)
    conv => arg 1; whnf
    split <;> exact .next
  | lost | twinWindow =>
    refine .ite .next ?_
    split
    · exact .next
    · exact .ite .next .next
  | evtLife =>
    refine .ite (.ite .next .next) ?_
    split
    · exact .next
    · exact .ite .next .next
  | eccWriteback =>
    refine .ite ?_ .next
    split
    · exact .ite .next .next
    · exact .next
  | ingestFrame =>
    refine .ite .next (.ite .next (.ite .next (.ite .next (.ite .next (.ite .next ?_)))))
    split
    · exact .next
    · exact .ite .next (.ite .next (.ite .next (.ite .next .next)))
  -- The commands whose meaning a lemma above takes apart.
  | registerBridgeRequest => exact .execRegisterBridgeRequest
  | upset => exact .execUpset
  | red => exact .execRed
  | fnc => exact .execFnc
  | configurationRequest => exact .execConfigurationRequest
  | bar2Tlp => exact .execBar2Tlp
  | linkPacket => exact .execLinkPacket
  | fenceDeliver => exact .execFenceDeliver
  | moverPacketDone => exact .execMoverPacketDone
  | requestTimeout => exact .execRequestTimeout
  | descFetch => exact .execDescFetch
  | delayMoveComplete => exact .execDelayMoveComplete
  | trackedOpComplete => exact .execTrackedOpComplete
  | memTrainEnd => exact .execMemTrainEnd
  | messageHead => exact .execMessageHead
  | logWrite => exact .execLogWrite
  | boot => exact .execBoot

end

/-- Settles O47: no branch of any command's meaning ends in a fault or a refusal. -/
theorem everyCommandCompletes : Obligations.EveryCommandCompletes := by
  unfold Obligations.EveryCommandCompletes
  exact Completes.exec

end Sys2Proof.Machine
end

section
/-! The words of the slots (O54 to O57): the fields of each format read back what stands in them, and each slot's decoder on a word of each of its formats. -/
namespace Sys2Proof.Machine

/-! Fields of a word. -/

theorem bits_eq (n hi lo : Nat) : bits n hi lo = n / 2 ^ lo % 2 ^ (hi + 1 - lo) := by
  unfold bits; rw [Nat.shiftRight_eq_div_pow]

theorem testBit_eq (n i : Nat) : n.testBit i = decide (n / 2 ^ i % 2 = 1) := Nat.testBit_eq_decide_div_mod_eq

theorem finOfNat_of_eq {k : Nat} [NeZero k] {x : Nat} {r : Fin k} (h : x = r.val) : Fin.ofNat k x = r := by
  subst h; exact Fin.ofNat_val_eq_self r

theorem bitVecOfNat_of_mod_eq {k x : Nat} {v : BitVec k} (h : x % 2 ^ k = v.toNat) : BitVec.ofNat k x = v :=
  BitVec.eq_of_toNat_eq h

theorem regField_of_eq {w lo : Nat} {r : Reg} (h : w / 2 ^ lo % 32 = r.val) : regField w lo = r := by
  refine finOfNat_of_eq ?_
  rw [bits_eq, show lo + 4 + 1 - lo = 5 by omega]
  exact h

theorem onTile_eq_some {n m : TileId} {x w : Nat} (h : onTile n m x = some w) : m = n ∧ w = x := by
  unfold onTile at h; split at h
  · cases h; exact ⟨Eq.symm ‹_›, rfl⟩
  · cases h

/-! SSLOT (R121). -/

/-- Format R is the word of an operation below 0x10 and of ATOM. -/
theorem decodeScalar_fmtR (n : TileId) {op sub : Nat} (rd a b : Reg) (h : 0 < op ∧ op < 0x10 ∨ op = 0x28) (hs : sub < 8) :
    fmtR op rd a b sub < 2 ^ 32 ∧ decodeScalar n (fmtR op rd a b sub) = (decodeR n op rd a b sub).map fun i => [i] := by
  have hrd := rd.isLt; have ha := a.isLt; have hb := b.isLt
  have e : fmtR op rd a b sub = op * 33554432 + rd.val * 1048576 + a.val * 32768 + b.val * 1024 + sub * 128 := rfl
  have hw : fmtR op rd a b sub < 2 ^ 31 := by omega
  have fop : bits (fmtR op rd a b sub) 30 25 = op := by rw [bits_eq]; omega
  have fsub : bits (fmtR op rd a b sub) 9 7 = sub := by rw [bits_eq]; omega
  have frd : regField (fmtR op rd a b sub) 20 = rd := regField_of_eq (by omega)
  have fa : regField (fmtR op rd a b sub) 15 = a := regField_of_eq (by omega)
  have fb : regField (fmtR op rd a b sub) 10 = b := regField_of_eq (by omega)
  refine ⟨by omega, ?_⟩
  unfold decodeScalar
  rw [if_neg (by omega), Nat.testBit_lt_two_pow hw, if_neg (by decide)]
  simp only [fop, frd, fa, fb, fsub]
  rw [if_pos (by omega), if_neg (by omega)]

/-- Format I is the word of every other operation. -/
theorem decodeScalar_fmtI (n : TileId) {op imm : Nat} (rd a : Reg) (h : 0x10 ≤ op ∧ op < 0x40 ∧ op ≠ 0x28) (hi : imm < 2 ^ 15) :
    fmtI op rd a imm < 2 ^ 32 ∧ decodeScalar n (fmtI op rd a imm) = (decodeI n op rd a (BitVec.ofNat 15 imm)).map fun i => [i] := by
  have hrd := rd.isLt; have ha := a.isLt
  have e : fmtI op rd a imm = op * 33554432 + rd.val * 1048576 + a.val * 32768 + imm := rfl
  have hw : fmtI op rd a imm < 2 ^ 31 := by omega
  have fop : bits (fmtI op rd a imm) 30 25 = op := by rw [bits_eq]; omega
  have frd : regField (fmtI op rd a imm) 20 = rd := regField_of_eq (by omega)
  have fa : regField (fmtI op rd a imm) 15 = a := regField_of_eq (by omega)
  have fimm : BitVec.ofNat 15 (fmtI op rd a imm) = BitVec.ofNat 15 imm := bitVecOfNat_of_mod_eq (by rw [BitVec.toNat_ofNat]; omega)
  refine ⟨by omega, ?_⟩
  unfold decodeScalar
  rw [if_neg (by omega), Nat.testBit_lt_two_pow hw, if_neg (by decide)]
  simp only [fop, frd, fa, fimm]
  rw [if_neg (by omega)]

/-- A word of format R that decodes to i. -/
theorem decodeScalar_of_decodeR {n : TileId} {op sub : Nat} {rd a b : Reg} {i : Instr} (h : 0 < op ∧ op < 0x10 ∨ op = 0x28) (hs : sub < 8)
    (hi : decodeR n op rd a b sub = some i) : fmtR op rd a b sub < 2 ^ 32 ∧ decodeScalar n (fmtR op rd a b sub) = some [i] := by
  simpa [hi] using decodeScalar_fmtR n rd a b h hs

/-- A word of format I that decodes to i. -/
theorem decodeScalar_of_decodeI {n : TileId} {op imm : Nat} {rd a : Reg} {i : Instr} (h : 0x10 ≤ op ∧ op < 0x40 ∧ op ≠ 0x28) (hm : imm < 2 ^ 15)
    (hi : decodeI n op rd a (BitVec.ofNat 15 imm) = some i) : fmtI op rd a imm < 2 ^ 32 ∧ decodeScalar n (fmtI op rd a imm) = some [i] := by
  simpa [hi] using decodeScalar_fmtI n rd a h hm

/-- A lane or element number of MFV and its HALF bit fill IMM15 above bit 5 (R121). -/
theorem decodeI_mfv (n : TileId) (rd vs : Reg) (half : Bool) (idx : BitVec 8) (h : half = true ∨ idx.toNat ≤ 127) :
    decodeI n 0x30 rd vs (BitVec.ofNat 15 (idx.toNat * 2 ^ 7 + if half then 64 else 0)) = some (.mfv n rd vs half idx) := by
  have hi := idx.isLt
  have e : (BitVec.ofNat 15 (idx.toNat * 2 ^ 7 + if half then 64 else 0)).toNat = idx.toNat * 128 + if half then 64 else 0 := by
    rw [BitVec.toNat_ofNat]; split <;> omega
  have fhalf : (idx.toNat * 128 + if half then 64 else 0).testBit 6 = half := by
    rw [testBit_eq]; cases half <;> simp <;> omega
  have fidx : bits (idx.toNat * 128 + if half then 64 else 0) 14 7 = idx.toNat := by rw [bits_eq]; split <;> omega
  have hz : (idx.toNat * 128 + if half then 64 else 0) % 64 = 0 := by split <;> omega
  simp only [decodeI, e, fhalf, fidx]
  rw [if_neg, BitVec.ofNat_toNat, BitVec.setWidth_eq]
  rintro (c | c)
  · exact c hz
  · rcases h with rfl | h
    · simp at c
    · simp at c; omega

theorem decodeI_rdcsr (n : TileId) (rd : Reg) (csr : Fin 3) : decodeI n 0x38 rd 0 (BitVec.ofNat 15 csr.val) = some (.rdcsr n rd csr) := by
  have h := csr.isLt
  have e : (BitVec.ofNat 15 csr.val).toNat = csr.val := by rw [BitVec.toNat_ofNat]; omega
  simp only [decodeI, e, h, dif_pos]

/-- The two values that decodeI takes from a shift count. -/
theorem shift_imm (sh : BitVec 6) : decide ((BitVec.ofNat 15 sh.toNat).toNat < 64) = true ∧ BitVec.ofNat 6 (BitVec.ofNat 15 sh.toNat).toNat = sh := by
  have h := sh.isLt
  have e : (BitVec.ofNat 15 sh.toNat).toNat = sh.toNat := by rw [BitVec.toNat_ofNat]; omega
  rw [e]; exact ⟨by simpa using h, by simp⟩

theorem decodeScalar_encodeScalar {n : TileId} {i : Instr} {w : Nat} (hi : i.wf = true) (h : encodeScalar n i = some w) : w < 2 ^ 32 ∧ decodeScalar n w = some [i] := by
  unfold encodeScalar at h
  split at h
  case h_30 => cases h
  all_goals obtain ⟨rfl, rfl⟩ := onTile_eq_some h
  -- Format R.
  case h_1 | h_2 | h_3 | h_4 | h_5 | h_6 | h_7 | h_8 | h_9 | h_10 | h_11 | h_12 | h_13 => exact decodeScalar_of_decodeR (by decide) (by decide) rfl
  case h_14 sub _ _ _ =>
    have hs := sub.isLt
    exact decodeScalar_of_decodeR (by decide) (by omega) (by simp [decodeR, hs])
  -- Format I with an immediate of 15 bits.
  case h_15 imm | h_16 imm | h_17 imm | h_18 imm | h_22 imm | h_23 imm | h_24 imm | h_25 imm | h_26 imm | h_27 imm =>
    exact decodeScalar_of_decodeI (by decide) imm.isLt (by simp [decodeI])
  -- Format I with a shift count.
  case h_19 sh | h_20 sh | h_21 sh =>
    exact decodeScalar_of_decodeI (by decide) (by have := sh.isLt; omega) (by simp only [decodeI, shift_imm]; rfl)
  case h_28 half idx =>
    exact decodeScalar_of_decodeI (by decide) (by have := idx.isLt; split <;> omega) (decodeI_mfv _ _ _ _ _ (by simpa [Instr.wf] using hi))
  case h_29 csr => exact decodeScalar_of_decodeI (by decide) (by have := csr.isLt; omega) (decodeI_rdcsr _ _ _)

/-! Pairs of compact operations. -/

/-- The fields of a compact operation's word. -/
theorem compactFields {op : Nat} (rd a b : Fin 16) (h : op < 8) {x : Nat} (hx : x = op * 2 ^ 12 + rd.val * 2 ^ 8 + a.val * 2 ^ 4 + b.val) :
    x < 2 ^ 15 ∧ bits x 14 12 = op ∧ bits x 11 8 = rd.val ∧ bits x 7 4 = a.val ∧ bits x 3 0 = b.val := by
  have hrd := rd.isLt; have ha := a.isLt; have hb := b.isLt
  simp only [bits_eq]; omega

theorem decodeCompact_encodeCompact {n : TileId} {i : Instr} {x : Nat} (h : encodeCompact n i = some x) :
    x < 2 ^ 15 ∧ bits x 11 8 = compactDest i ∧ decodeCompact n x = some i := by
  unfold encodeCompact at h
  dsimp only at h
  split at h
  case h_9 => cases h
  all_goals
    obtain ⟨rfl, hx⟩ := onTile_eq_some h
    obtain ⟨hw, fop, frd, fa, fb⟩ := compactFields _ _ _ (by decide) hx
    refine ⟨hw, frd, ?_⟩
    simp [decodeCompact, fop, frd, fa, fb]

theorem decodeScalar_encodePair {n : TileId} {i j : Instr} {w : Nat} (hd : compactDest i ≠ compactDest j ∨ compactDest i = 0) (h : encodePair n i j = some w) :
    w < 2 ^ 32 ∧ decodeScalar n w = some [i, j] := by
  unfold encodePair at h
  split at h
  · rename_i x y hx hy
    cases h
    obtain ⟨hxw, fx, ex⟩ := decodeCompact_encodeCompact hx
    obtain ⟨hyw, fy, ey⟩ := decodeCompact_encodeCompact hy
    have f31 : (2 ^ 31 + x * 2 ^ 16 + y).testBit 31 = true := by rw [testBit_eq, decide_eq_true_eq]; omega
    have f15 : (2 ^ 31 + x * 2 ^ 16 + y).testBit 15 = false := by rw [testBit_eq, decide_eq_false_iff_not]; omega
    have fhi : bits (2 ^ 31 + x * 2 ^ 16 + y) 30 16 = x := by rw [bits_eq]; omega
    have flo : bits (2 ^ 31 + x * 2 ^ 16 + y) 14 0 = y := by rw [bits_eq]; omega
    refine ⟨by omega, ?_⟩
    unfold decodeScalar
    rw [if_neg (by omega), if_pos f31]
    simp only [f15, fhi, flo, fx, fy, ex, ey]
    rw [if_neg]
    rintro (c | ⟨c, c'⟩)
    · cases c
    · exact hd.elim (fun k => k c) c'
  · cases h

/-! VSLOT (R124 to R126). -/

@[simp] theorem vtype_typeCode (ty : VType) : vtype (typeCode ty) = some ty := by cases ty <;> rfl

theorem typeCode_lt (ty : VType) : typeCode ty < 3 := by cases ty <;> decide

/-- A word of format V that decodes to i. -/
theorem decodeVector_of_decodeV {n : TileId} {op vc : Nat} {ty : VType} {vd va vb : Reg} {m : Fin 8} {neg : Bool} {i : Instr}
    (hop : 0 < op ∧ op < 0x40 ∧ ¬(0x28 ≤ op ∧ op ≤ 0x2B)) (hvc : vc < 32) (hint : ty = .int32 → intOk op vc = true) (hi : decodeV n op ty vd va vb m vc neg = some i) :
    fmtV op ty vd.val va.val vb.val m vc neg < 2 ^ 32 ∧ decodeVector n (fmtV op ty vd.val va.val vb.val m vc neg) = some [i] := by
  have ht := typeCode_lt ty
  have hvd := vd.isLt; have hva := va.isLt; have hvb := vb.isLt; have hm := m.isLt
  obtain ⟨b, hb, hb'⟩ : ∃ b, b < 2 ∧ (if neg then 1 else 0) = b := ⟨_, by split <;> decide, rfl⟩
  have e : fmtV op ty vd.val va.val vb.val m vc neg
      = op * 67108864 + typeCode ty * 16777216 + vd.val * 524288 + va.val * 16384 + vb.val * 512 + m.val * 64 + vc * 2 + b := by rw [← hb']; rfl
  generalize hw : fmtV op ty vd.val va.val vb.val m vc neg = w at e
  have fop : bits w 31 26 = op := by rw [bits_eq]; omega
  have fty : bits w 25 24 = typeCode ty := by rw [bits_eq]; omega
  have fvd : regField w 19 = vd := regField_of_eq (by omega)
  have fva : regField w 14 = va := regField_of_eq (by omega)
  have fvb : regField w 9 = vb := regField_of_eq (by omega)
  have fm : Fin.ofNat 8 (bits w 8 6) = m := finOfNat_of_eq (by rw [bits_eq]; omega)
  have fvc : bits w 5 1 = vc := by rw [bits_eq]; omega
  have fneg : w.testBit 0 = neg := by
    rw [testBit_eq, show w / 2 ^ 0 % 2 = b by omega, ← hb']; cases neg <;> rfl
  refine ⟨by omega, ?_⟩
  unfold decodeVector
  rw [if_neg (by omega)]
  simp only [fop, fty, fvd, fva, fvb, fm, fvc, fneg, vtype_typeCode]
  rw [if_neg (fun c => by simp [hint c.1] at c), if_neg hop.2.2, hi]
  rfl

/-- A word of format M that decodes to i. -/
theorem decodeVector_of_decodeM {n : TileId} {op imm : Nat} {ty : VType} {vd sa : Reg} {part : Fin 8} {i : Instr}
    (hop : 0x28 ≤ op ∧ op ≤ 0x2B) (himm : imm < 2 ^ 11) (hint : ty = .int32 → op ≤ 0x2A) (hi : decodeM n op ty vd sa part (BitVec.ofNat 11 imm) = some i) :
    fmtM op ty vd.val sa part.val imm < 2 ^ 32 ∧ decodeVector n (fmtM op ty vd.val sa part.val imm) = some [i] := by
  have ht := typeCode_lt ty
  have hvd := vd.isLt; have hsa := sa.isLt; have hp := part.isLt
  have e : fmtM op ty vd.val sa part.val imm = op * 67108864 + typeCode ty * 16777216 + vd.val * 524288 + sa.val * 16384 + part.val * 2048 + imm := rfl
  generalize hw : fmtM op ty vd.val sa part.val imm = w at e
  have fop : bits w 31 26 = op := by rw [bits_eq]; omega
  have fty : bits w 25 24 = typeCode ty := by rw [bits_eq]; omega
  have fvd : regField w 19 = vd := regField_of_eq (by omega)
  have fsa : regField w 14 = sa := regField_of_eq (by omega)
  have fpart : Fin.ofNat 8 (bits w 13 11) = part := finOfNat_of_eq (by rw [bits_eq]; omega)
  have fimm : BitVec.ofNat 11 w = BitVec.ofNat 11 imm := bitVecOfNat_of_mod_eq (by rw [BitVec.toNat_ofNat]; omega)
  have hok : ty = .int32 → intOk op (bits w 5 1) = true := fun c => by
    obtain rfl | rfl | rfl : op = 0x28 ∨ op = 0x29 ∨ op = 0x2A := by have := hint c; omega
    all_goals rfl
  refine ⟨by omega, ?_⟩
  unfold decodeVector
  rw [if_neg (by omega)]
  simp only [fop, fty, fvd, fsa, fpart, fimm, vtype_typeCode]
  rw [if_neg (fun c => by simp [hok c.1] at c), if_pos hop, hi]
  rfl

/-- TYPE of VCVT's result and its rounding bit in VC. -/
theorem decodeV_vcvt (n : TileId) (ty tt : VType) (vd va vb : Reg) (m : Fin 8) (st : Bool) :
    decodeV n 0x1A ty vd va vb m (typeCode tt * 8 + if st then 4 else 0) false = some (.vcvt n ty tt vd va m st) := by
  cases tt <;> cases st <;> rfl

theorem decodeVector_encodeVector {n : TileId} {i : Instr} {w : Nat} (hi : i.wf = true) (h : encodeVector n i = some w) : w < 2 ^ 32 ∧ decodeVector n w = some [i] := by
  unfold encodeVector at h
  split at h
  case h_27 => cases h
  all_goals
    obtain ⟨rfl, rfl⟩ := onTile_eq_some h
    simp only [Instr.wf, intVec, Bool.not_eq_true', beq_eq_false_iff_ne, Bool.and_eq_true, Bool.or_eq_true, decide_eq_true_eq, bne_iff_ne] at hi
  -- Operations of every TYPE, with a second source or without one.
  case h_1 | h_2 | h_5 | h_6 => exact decodeVector_of_decodeV (by decide) (by decide) (fun _ => rfl) rfl
  case h_17 tt _ _ _ st =>
    exact decodeVector_of_decodeV (vb := 0) (by decide) (by have := typeCode_lt tt; split <;> omega) (fun _ => rfl) (decodeV_vcvt ..)
  -- Operations that INT32 does not have.
  case h_25 | h_26 => exact decodeVector_of_decodeV (by decide) (by decide) (fun c => nomatch c) rfl
  case h_3 | h_20 => exact decodeVector_of_decodeV (by decide) (by decide) (fun c => absurd c hi) rfl
  case h_10 | h_11 | h_12 | h_13 | h_14 | h_19 => exact decodeVector_of_decodeV (vb := 0) (by decide) (by decide) (fun c => absurd c hi) rfl
  case h_4 vc _ => exact decodeVector_of_decodeV (by decide) vc.isLt (fun c => absurd c hi) (by simp [decodeV])
  case h_7 k | h_8 k => exact decodeVector_of_decodeV (by decide) (by have := k.isLt; omega) (fun c => absurd c hi) (by simp [decodeV])
  case h_9 k => exact decodeVector_of_decodeV (by decide) (by have := k.isLt; omega) (fun c => absurd c hi.1) (by simp [decodeV, hi.2])
  -- Operations with a condition on an operand.
  case h_15 md _ _ _ c =>
    have hm := md.isLt; have hc := c.isLt
    exact decodeVector_of_decodeV (vd := ⟨md.val, by omega⟩) (by decide) (by omega) (fun _ => rfl) (by simp [decodeV]; omega)
  case h_16 => exact decodeVector_of_decodeV (by decide) (by decide) (fun _ => rfl) (if_neg fun c => hi (congrArg Fin.val c))
  case h_18 op =>
    have ho := op.isLt
    exact decodeVector_of_decodeV (vb := 0) (by decide) (by omega) (fun c => decide_eq_true (hi.resolve_left fun k => k c)) (by simp [decodeV])
  -- Format M.
  case h_21 imm | h_22 imm => exact decodeVector_of_decodeM (by decide) imm.isLt (fun _ => by decide) (by simp [decodeM])
  case h_23 => exact decodeVector_of_decodeM (part := 0) (by decide) (by decide) (fun _ => by decide) rfl
  case h_24 k sa =>
    have hk := k.isLt
    exact decodeVector_of_decodeM (vd := ⟨k.val, by omega⟩) (part := 0) (by decide) (by decide) (fun c => nomatch c) (by simp [decodeM])

/-- Settles O54: each format's fields read back, so each operation's word goes to the branch of the decoder that names it. -/
theorem scalarWordsRoundTrip : Obligations.ScalarWordsRoundTrip := by
  unfold Obligations.ScalarWordsRoundTrip
  exact ⟨fun _ _ _ => decodeScalar_encodeScalar, fun _ _ _ _ => decodeScalar_encodePair, fun _ => rfl⟩

/-- Settles O55, in the same way as O54 for the formats V and M. -/
theorem vectorWordsRoundTrip : Obligations.VectorWordsRoundTrip := by
  unfold Obligations.VectorWordsRoundTrip
  exact ⟨fun _ _ _ => decodeVector_encodeVector, fun _ => rfl⟩

/-! ASLOT (R159). -/

/-- The fields of an array operation's word, whose operation stands in bits 15 to 12. -/
theorem arrayFields {base w : Nat} (d : Fin 16) (k : BitVec 8) (hb : base % 0x1000 = 0 ∧ base < 0x10000) (hw : w = base + d.val * 2 ^ 8 + k.toNat) :
    w < 2 ^ 16 ∧ bits w 15 12 = base / 0x1000 ∧ Fin.ofNat 16 (bits w 11 8) = d ∧ BitVec.ofNat 8 w = k := by
  have hd := d.isLt; have hk := k.isLt
  exact ⟨by omega, by rw [bits_eq]; omega, finOfNat_of_eq (by rw [bits_eq]; omega), bitVecOfNat_of_mod_eq (by omega)⟩

theorem decodeArray_encodeArray {n : TileId} {i : Instr} {w : Nat} (h : encodeArray n i = some w) : w < 2 ^ 16 ∧ decodeArray n w = some [i] := by
  unfold encodeArray at h
  split at h
  case h_6 => cases h
  all_goals obtain ⟨rfl, hw⟩ := onTile_eq_some h
  case h_1 d =>
    obtain ⟨hlt, fop, fd, fk⟩ := arrayFields d 0 (by decide) hw
    exact ⟨hlt, by simp only [decodeArray, fop, fd, fk]; rfl⟩
  case h_2 =>
    obtain ⟨hlt, fop, fd, fk⟩ := arrayFields 0 0 (by decide) hw
    exact ⟨hlt, by simp only [decodeArray, fop, fd, fk]; rfl⟩
  case h_3 d k | h_4 d k | h_5 d k =>
    obtain ⟨hlt, fop, fd, fk⟩ := arrayFields d k (by decide) hw
    exact ⟨hlt, by simp only [decodeArray, fop, fd, fk]⟩

/-! MSLOT (R80), class by class. -/

/-- MOVE (R359). -/
theorem decodeMslot_move (n : TileId) (m : Fin 32) (rs rd : Reg) (h : rs.val ≤ 28 ∧ ¬(rd.val ≠ 0 ∧ rs.val ≤ rd.val ∧ rd.val ≤ rs.val + 3)) {w : Nat}
    (hw : w = 2 ^ 28 + m.val * 2 ^ 23 + rs.val * 2 ^ 18 + rd.val * 2 ^ 13) : w < 2 ^ 32 ∧ decodeMslot n w = some [.move n m rs rd] := by
  have hm := m.isLt; have hrs := rs.isLt; have hrd := rd.isLt
  have fcls : bits w 31 28 = 1 := by rw [bits_eq]; omega
  have fm : Fin.ofNat 32 (bits w 27 23) = m := finOfNat_of_eq (by rw [bits_eq]; omega)
  have frs : bits w 22 18 = rs.val := by rw [bits_eq]; omega
  have frd : bits w 17 13 = rd.val := by rw [bits_eq]; omega
  have frs' : regField w 18 = rs := regField_of_eq (by omega)
  have frd' : regField w 13 = rd := regField_of_eq (by omega)
  refine ⟨by omega, ?_⟩
  simp only [decodeMslot, fcls, decodeMove, fm, frs, frd, frs', frd']
  rw [if_neg (by omega)]
  rfl

/-- QSEND (R286). -/
theorem decodeMslot_qsend (n : TileId) (mode : Fin 4) (rs : Reg) (nm : Fin 8) (ra rd : Reg) (tmo : BitVec 8)
    (h : mode.val ≠ 3 ∧ rs.val + nm.val ≤ 31 ∧ rd.val ≠ 0 ∧ (mode.val = 2 ↔ tmo.toNat ≠ 0)) {w : Nat}
    (hw : w = 2 * 2 ^ 28 + mode.val * 2 ^ 26 + rs.val * 2 ^ 21 + nm.val * 2 ^ 18 + ra.val * 2 ^ 13 + rd.val * 2 ^ 8 + tmo.toNat) :
    w < 2 ^ 32 ∧ decodeMslot n w = some [.qsend n mode rs nm ra rd tmo] := by
  have hmode := mode.isLt; have hrs := rs.isLt; have hnm := nm.isLt; have hra := ra.isLt; have hrd := rd.isLt; have htmo := tmo.isLt
  have fcls : bits w 31 28 = 2 := by rw [bits_eq]; omega
  have fmode : bits w 27 26 = mode.val := by rw [bits_eq]; omega
  have frs : bits w 25 21 = rs.val := by rw [bits_eq]; omega
  have fnm : bits w 20 18 = nm.val := by rw [bits_eq]; omega
  have frd : bits w 12 8 = rd.val := by rw [bits_eq]; omega
  have ftmo : bits w 7 0 = tmo.toNat := by rw [bits_eq]; omega
  have frs' : regField w 21 = rs := regField_of_eq (by omega)
  have fra' : regField w 13 = ra := regField_of_eq (by omega)
  have frd' : regField w 8 = rd := regField_of_eq (by omega)
  refine ⟨by omega, ?_⟩
  simp only [decodeMslot, fcls, decodeQsend, fmode, frs, fnm, frd, ftmo, frs', fra', frd']
  rw [if_neg (by omega)]
  simp

/-- RECV, PEEK and DISCARD (R289): one word but for its mode. -/
theorem decodeMslot_qrecv (n : TileId) (kind : Nat) (rd : Reg) (nm : Fin 8) (rs : Reg) (q : Fin 64)
    (h : rd.val + nm.val ≤ 31 ∧ rs.val ≠ 0 ∧ ¬(rd.val ≤ rs.val ∧ rs.val ≤ rd.val + nm.val)) (hk : kind < 3) {w : Nat}
    (hw : w = 3 * 2 ^ 28 + kind * 2 ^ 26 + rd.val * 2 ^ 21 + nm.val * 2 ^ 18 + rs.val * 2 ^ 13 + q.val * 2 ^ 7) :
    w < 2 ^ 32 ∧ decodeMslot n w = some [if kind = 0 then .recv n rd nm rs q else if kind = 1 then .peek n rd nm rs q else .discard n rd nm rs q] := by
  have hrd := rd.isLt; have hnm := nm.isLt; have hrs := rs.isLt; have hq := q.isLt
  have fcls : bits w 31 28 = 3 := by rw [bits_eq]; omega
  have fkind : bits w 27 26 = kind := by rw [bits_eq]; omega
  have frd : bits w 25 21 = rd.val := by rw [bits_eq]; omega
  have fnm : bits w 20 18 = nm.val := by rw [bits_eq]; omega
  have frs : bits w 17 13 = rs.val := by rw [bits_eq]; omega
  have fq : Fin.ofNat 64 (bits w 12 7) = q := finOfNat_of_eq (by rw [bits_eq]; omega)
  have frd' : regField w 21 = rd := regField_of_eq (by omega)
  have frs' : regField w 13 = rs := regField_of_eq (by omega)
  refine ⟨by omega, ?_⟩
  simp only [decodeMslot, fcls, decodeQrecv, fkind, frd, fnm, frs, fq, frd', frs']
  rw [if_neg (by omega), Fin.ofNat_val_eq_self]
  obtain rfl | rfl | rfl : kind = 0 ∨ kind = 1 ∨ kind = 2 := by omega
  all_goals rfl

/-- The fields of an EVCTL word (R191, R219, R220): the operation in bits 27 to 24 and its arguments. -/
theorem evctlFields {kind a w : Nat} (hk : kind < 16) (ha : a < 2 ^ 24) (hw : w = 4 * 2 ^ 28 + kind * 2 ^ 24 + a) :
    w < 2 ^ 32 ∧ bits w 31 28 = 4 ∧ bits w 27 24 = kind ∧ bits w 23 0 = a := by
  simp only [bits_eq]; omega

/-- ARRIVE (R268). -/
theorem decodeMslot_arrive (n : TileId) (g : Fin 64) : 5 * 2 ^ 28 + g.val < 2 ^ 32 ∧ decodeMslot n (5 * 2 ^ 28 + g.val) = some [.arrive n g] := by
  have hg := g.isLt
  generalize hw : 5 * 2 ^ 28 + g.val = w
  have fcls : bits w 31 28 = 5 := by rw [bits_eq]; omega
  have fz : bits w 27 6 = 0 := by rw [bits_eq]; omega
  have fg : Fin.ofNat 64 (bits w 5 0) = g := finOfNat_of_eq (by rw [bits_eq]; omega)
  refine ⟨by omega, ?_⟩
  simp only [decodeMslot, fcls, fz, fg, if_true]

/-- FLAG (R270). -/
theorem decodeMslot_flag (n : TileId) (f : Fin 16) (set : Bool) {w : Nat} (hw : w = 6 * 2 ^ 28 + (if set then 2 ^ 8 else 0) + f.val) :
    w < 2 ^ 32 ∧ decodeMslot n w = some [.flag n f set] := by
  have hf := f.isLt
  have fcls : bits w 31 28 = 6 := by rw [bits_eq]; split at hw <;> omega
  have fz : bits w 27 9 = 0 ∧ bits w 7 4 = 0 := by simp only [bits_eq]; split at hw <;> omega
  have ff : Fin.ofNat 16 (bits w 3 0) = f := finOfNat_of_eq (by rw [bits_eq]; split at hw <;> omega)
  have fset : w.testBit 8 = set := by
    rw [testBit_eq]
    cases set
    · exact decide_eq_false (by simp only [Bool.false_eq_true, if_false] at hw; omega)
    · exact decide_eq_true (by simp only [if_true] at hw; omega)
  refine ⟨by split at hw <;> omega, ?_⟩
  simp only [decodeMslot, fcls, fz, ff, fset, and_self, if_true]

/-- The fields of a REMOTE word (R265). -/
theorem remoteFields {kind aop w : Nat} (rd ra rs : Reg) (hk : kind < 8) (ha : aop < 8)
    (hw : w = 7 * 2 ^ 28 + kind * 2 ^ 25 + aop * 2 ^ 22 + rd.val * 2 ^ 17 + ra.val * 2 ^ 12 + rs.val * 2 ^ 7) :
    w < 2 ^ 32 ∧ bits w 31 28 = 7 ∧ w % 128 = 0 ∧ bits w 27 25 = kind ∧ bits w 24 22 = aop ∧ regField w 17 = rd ∧ regField w 12 = ra ∧ regField w 7 = rs := by
  have hrd := rd.isLt; have hra := ra.isLt; have hrs := rs.isLt
  exact ⟨by omega, by rw [bits_eq]; omega, by omega, by rw [bits_eq]; omega, by rw [bits_eq]; omega, regField_of_eq (by omega), regField_of_eq (by omega), regField_of_eq (by omega)⟩

theorem decodeMslot_encodeMslot {n : TileId} {i : Instr} {w : Nat} (hi : i.wf = true) (h : encodeMslot n i = some w) : w < 2 ^ 32 ∧ decodeMslot n w = some [i] := by
  unfold encodeMslot at h
  dsimp only at h
  split at h
  case h_16 => cases h
  all_goals
    obtain ⟨rfl, hw⟩ := onTile_eq_some h
    simp only [Instr.wf, Bool.and_eq_true, Bool.not_eq_true', Bool.and_eq_false_iff, decide_eq_true_eq, decide_eq_false_iff_not, bne_iff_ne, bne_eq_false_iff_eq, beq_iff_eq] at hi
  case h_1 => exact decodeMslot_move _ _ _ _ (by omega) hw
  case h_2 mode _ _ _ _ tmo =>
    obtain ⟨⟨⟨hmode, hlast⟩, hrd⟩, htmo⟩ := hi
    refine decodeMslot_qsend _ _ _ _ _ _ _ ⟨hmode, hlast, hrd, ?_⟩ hw
    split at htmo <;> simp_all [← BitVec.toNat_inj]
  case h_3 => exact decodeMslot_qrecv _ 0 _ _ _ _ (by omega) (by decide) hw
  case h_4 => exact decodeMslot_qrecv _ 1 _ _ _ _ (by omega) (by decide) hw
  case h_5 => exact decodeMslot_qrecv _ 2 _ _ _ _ (by omega) (by decide) hw
  case h_6 =>
    obtain ⟨hlt, fcls, fkind, fa⟩ := evctlFields (kind := 1) (a := 0) (by decide) (by decide) hw
    exact ⟨hlt, by simp only [decodeMslot, fcls, decodeEvctl, fkind, fa]; rfl⟩
  case h_7 =>
    obtain ⟨hlt, fcls, fkind, fa⟩ := evctlFields (kind := 2) (a := 0) (by decide) (by decide) hw
    exact ⟨hlt, by simp only [decodeMslot, fcls, decodeEvctl, fkind, fa]; rfl⟩
  case h_8 =>
    obtain ⟨hlt, fcls, fkind, fa⟩ := evctlFields (kind := 3) (a := 0) (by decide) (by decide) hw
    exact ⟨hlt, by simp only [decodeMslot, fcls, decodeEvctl, fkind, fa]; rfl⟩
  case h_9 args =>
    obtain ⟨hlt, fcls, fkind, fa⟩ := evctlFields (by decide) args.isLt hw
    exact ⟨hlt, by simp [decodeMslot, fcls, decodeEvctl, fkind, fa, hi]⟩
  case h_10 => exact hw ▸ decodeMslot_arrive _ _
  case h_11 => exact decodeMslot_flag _ _ _ hw
  case h_12 rd ra =>
    obtain ⟨hlt, fcls, fz, fkind, faop, frd, fra, -⟩ := remoteFields rd ra 0 (by decide) (by decide) hw
    exact ⟨hlt, by simp [decodeMslot, fcls, decodeRemote, fz, fkind, faop, frd, fra]⟩
  case h_13 ra rs =>
    obtain ⟨hlt, fcls, fz, fkind, faop, -, fra, frs⟩ := remoteFields 0 ra rs (by decide) (by decide) hw
    exact ⟨hlt, by simp [decodeMslot, fcls, decodeRemote, fz, fkind, faop, fra, frs]⟩
  case h_14 aop rd ra rs =>
    obtain ⟨hlt, fcls, fz, fkind, faop, frd, fra, frs⟩ := remoteFields rd ra rs (by decide) aop.isLt hw
    exact ⟨hlt, by simp [decodeMslot, fcls, decodeRemote, fz, fkind, faop, frd, fra, frs]⟩
  case h_15 ra =>
    obtain ⟨hlt, fcls, fz, fkind, faop, -, fra, -⟩ := remoteFields 0 ra 0 (by decide) (by decide) hw
    exact ⟨hlt, by simp [decodeMslot, fcls, decodeRemote, fz, fkind, faop, fra]⟩

/-- Settles O56, in the same way as O54 for ASLOT and the classes of MSLOT. -/
theorem arrayAndMoveWordsRoundTrip : Obligations.ArrayAndMoveWordsRoundTrip := by
  unfold Obligations.ArrayAndMoveWordsRoundTrip
  exact ⟨fun _ _ _ => decodeArray_encodeArray, fun _ _ _ => decodeMslot_encodeMslot, fun _ => ⟨rfl, rfl⟩⟩

/-! CTL, the lane word and the global word (R80 to R85). -/

theorem encodeCtl_lt {l : Lop} (h : l.wf = true) : encodeCtl l < 2 ^ 16 := by
  cases l <;> simp only [Lop.wf, Bool.and_eq_true, decide_eq_true_eq] at h <;> simp only [encodeCtl] <;> omega

theorem decodeCtl_of_bits {l : Lop} {w : Word128} (h : l.wf = true) (hw : bits w.toNat 127 112 = encodeCtl l) : decodeCtl w = some l := by
  have fields : ∀ {op lvl count}, op < 4 → lvl < 4 → count < 2 ^ 12 → encodeCtl l = op * 2 ^ 14 + lvl * 2 ^ 12 + count →
      bits (encodeCtl l) 15 14 = op ∧ bits (encodeCtl l) 13 12 = lvl ∧ bits (encodeCtl l) 11 0 = count := fun ho hl hc e => by
    simp only [e, bits_eq]; omega
  unfold decodeCtl
  simp only [hw]
  cases l <;> simp only [Lop.wf, Bool.and_eq_true, decide_eq_true_eq] at h
  case none => rfl
  case lstart lvl count =>
    obtain ⟨fop, flvl, fcount⟩ := fields (op := 1) (by decide) h.1 h.2 (by simp only [encodeCtl]; omega)
    simp only [fop, flvl, fcount]
  case lend lvl =>
    obtain ⟨fop, flvl, fcount⟩ := fields (op := 2) (count := 0) (by decide) h (by decide) rfl
    simp only [fop, flvl, fcount, if_true]
  case lone lvl count =>
    obtain ⟨fop, flvl, fcount⟩ := fields (op := 3) (by decide) h.1 h.2 rfl
    simp only [fop, flvl, fcount]

theorem toNat_word128 {x : Nat} (h : x < 2 ^ 128) : (BitVec.ofNat 128 x).toNat = x := by
  rw [BitVec.toNat_ofNat, Nat.mod_eq_of_lt h]

/-- The fields of a lane word. -/
theorem laneFields {x t c v a m : Nat} (ht : t < 2 ^ 16) (hc : c < 2 ^ 32) (hv : v < 2 ^ 32) (ha : a < 2 ^ 16) (hm : m < 2 ^ 32)
    (hx : x = t * 2 ^ 112 + c * 2 ^ 80 + v * 2 ^ 48 + a * 2 ^ 32 + m) :
    x < 2 ^ 128 ∧ bits x 127 112 = t ∧ bits x 111 80 = c ∧ bits x 79 48 = v ∧ bits x 47 32 = a ∧ bits x 31 0 = m := by
  simp only [bits_eq]; omega

theorem decodeLane_of_slots {n : TileId} {w : Word128} {cs vs as ms : List Instr} (dc : decodeScalar n (bits w.toNat 111 80) = some cs)
    (dv : decodeVector n (bits w.toNat 79 48) = some vs) (da : decodeArray n (bits w.toNat 47 32) = some as) (dm : decodeMslot n (bits w.toNat 31 0) = some ms) :
    decodeLane n w = some (as ++ vs ++ cs ++ ms) := by
  unfold decodeLane; rw [dc, dv, da, dm]

theorem decode_encodeLane {n : TileId} {l : Lop} {c v a m : Nat} {cs vs as ms : List Instr} (hl : l.wf = true) (hc : c < 2 ^ 32) (hv : v < 2 ^ 32) (ha : a < 2 ^ 16)
    (hm : m < 2 ^ 32) (dc : decodeScalar n c = some cs) (dv : decodeVector n v = some vs) (da : decodeArray n a = some as) (dm : decodeMslot n m = some ms) :
    decodeLane n (encodeLane l c v a m) = some (as ++ vs ++ cs ++ ms) ∧ decodeCtl (encodeLane l c v a m) = some l := by
  unfold encodeLane
  generalize hx : encodeCtl l * 2 ^ 112 + c * 2 ^ 80 + v * 2 ^ 48 + a * 2 ^ 32 + m = x
  obtain ⟨hlt, ft, fc, fv, fa, fm⟩ := laneFields (encodeCtl_lt hl) hc hv ha hm hx.symm
  have e := toNat_word128 hlt
  exact ⟨decodeLane_of_slots (by rw [e, fc, dc]) (by rw [e, fv, dv]) (by rw [e, fa, da]) (by rw [e, fm, dm]), decodeCtl_of_bits hl (by rw [e, ft])⟩

theorem decodeGop_encodeGop {g : Gop} (h : g.wf = true) : encodeGop g < 2 ^ 32 ∧ decodeGop (encodeGop g) = some g := by
  cases g <;> simp only [Gop.wf, condOk, Bool.and_eq_true, decide_eq_true_eq] at h
  case nop | stop => exact ⟨by decide, rfl⟩
  case exitif cond arg =>
    have fop : bits (encodeGop (.exitif cond arg)) 31 24 = 3 := by simp only [encodeGop, bits_eq]; omega
    have fcond : bits (encodeGop (.exitif cond arg)) 22 16 = cond := by simp only [encodeGop, bits_eq]; omega
    have farg : bits (encodeGop (.exitif cond arg)) 15 0 = arg := by simp only [encodeGop, bits_eq]; omega
    refine ⟨by simp only [encodeGop]; omega, ?_⟩
    simp [decodeGop, fop, fcond, farg, condOk, h]
  case step cmd =>
    have fop : bits (encodeGop (.step cmd)) 31 24 = 2 := by simp only [encodeGop, bits_eq]; omega
    have fcmd : bits (encodeGop (.step cmd)) 3 0 = cmd := by simp only [encodeGop, bits_eq]; omega
    exact ⟨by simp only [encodeGop]; omega, by simp only [decodeGop, fop, fcmd]; exact if_pos h⟩
  case dbclr b =>
    have fop : bits (encodeGop (.dbclr b)) 31 24 = 4 := by simp only [encodeGop, bits_eq]; omega
    have fb : bits (encodeGop (.dbclr b)) 4 0 = b := by simp only [encodeGop, bits_eq]; omega
    exact ⟨by simp only [encodeGop]; omega, by simp only [decodeGop, fop, fb]⟩
  case setflag f =>
    have fop : bits (encodeGop (.setflag f)) 31 24 = 5 := by simp only [encodeGop, bits_eq]; omega
    have ff : bits (encodeGop (.setflag f)) 3 0 = f := by simp only [encodeGop, bits_eq]; omega
    exact ⟨by simp only [encodeGop]; omega, by simp only [decodeGop, fop, ff]⟩
  case clrflag f =>
    have fop : bits (encodeGop (.clrflag f)) 31 24 = 6 := by simp only [encodeGop, bits_eq]; omega
    have ff : bits (encodeGop (.clrflag f)) 3 0 = f := by simp only [encodeGop, bits_eq]; omega
    exact ⟨by simp only [encodeGop]; omega, by simp only [decodeGop, fop, ff]⟩

/-- The WAIT half of a global word (R85). -/
def waitWord : Option (Nat × Nat) → Nat
  | some (c, a) => 2 ^ 31 + c * 2 ^ 24 + a
  | none => 0

theorem encodeGlobal_eq (l : Lop) (g : GWord) :
    encodeGlobal l g = BitVec.ofNat 128 (encodeCtl l * 2 ^ 112 + waitWord g.wait * 2 ^ 64 + encodeGop g.gop0 * 2 ^ 32 + encodeGop g.gop1) := by
  unfold encodeGlobal waitWord; rfl

/-- A well-formed WAIT reads back from the WAIT half. -/
theorem waitWord_fields {g : GWord} (h : Claims.waitWf g = true) :
    waitWord g.wait < 2 ^ 32 ∧ (if waitWord g.wait / 2 ^ 31 = 1 then some (waitWord g.wait / 2 ^ 24 % 2 ^ 7, waitWord g.wait % 2 ^ 24) else none) = g.wait
      ∧ (waitWord g.wait / 2 ^ 31 = 1 → condOk (waitWord g.wait / 2 ^ 24 % 2 ^ 7) = true) := by
  obtain ⟨wait, g0, g1⟩ := g
  cases wait with
  | none => simp [waitWord]
  | some p =>
    obtain ⟨c, a⟩ := p
    simp only [Claims.waitWf, Bool.and_eq_true, decide_eq_true_eq] at h
    obtain ⟨hok, ha⟩ := h
    have hc : c ≤ 9 := by simp only [condOk, Bool.and_eq_true, decide_eq_true_eq] at hok; exact hok.2
    have f31 : (2 ^ 31 + c * 2 ^ 24 + a) / 2 ^ 31 = 1 := by omega
    have fc : (2 ^ 31 + c * 2 ^ 24 + a) / 2 ^ 24 % 2 ^ 7 = c := by omega
    have fa : (2 ^ 31 + c * 2 ^ 24 + a) % 2 ^ 24 = a := by omega
    simp only [waitWord, f31, fc, fa, if_true]
    exact ⟨by omega, trivial, fun _ => hok⟩

/-- The fields of a global word: its loop operation, its WAIT bit, condition and argument, its two operations. -/
theorem globalFields {x t w g h : Nat} (ht : t < 2 ^ 16) (hw : w < 2 ^ 32) (hg : g < 2 ^ 32) (hh : h < 2 ^ 32) (hx : x = t * 2 ^ 112 + w * 2 ^ 64 + g * 2 ^ 32 + h) :
    x < 2 ^ 128 ∧ bits x 127 112 = t ∧ x / 2 ^ 95 % 2 = w / 2 ^ 31 ∧ bits x 94 88 = w / 2 ^ 24 % 2 ^ 7 ∧ bits x 87 64 = w % 2 ^ 24 ∧ bits x 63 32 = g ∧ bits x 31 0 = h := by
  simp only [bits_eq]; omega

/-- Two ENDs or two EXITIFs (R82), as decodeGlobal tests for them. -/
theorem decodeGlobal_of_parts {w : Word128} {l : Lop} {g0 g1 : Gop} (hl : decodeCtl w = some l) (h0 : decodeGop (bits w.toNat 63 32) = some g0)
    (h1 : decodeGop (bits w.toNat 31 0) = some g1) (hok : waitBit w = true → condOk (bits w.toNat 94 88) = true) (hstop : g0 ≠ .stop ∨ g1 ≠ .stop)
    (hexit : Claims.isExitif g0 = false ∨ Claims.isExitif g1 = false) :
    decodeGlobal w = some ⟨if waitBit w then some (bits w.toNat 94 88, bits w.toNat 87 64) else none, g0, g1⟩ := by
  have hbad : (waitBit w && !condOk (bits w.toNat 94 88)) = false := by
    cases e : waitBit w
    · rfl
    · rw [hok e]; rfl
  unfold decodeGlobal
  simp only [hl, h0, h1, hbad, Bool.or_false]
  split
  · exact absurd hstop (by simp)
  · exact absurd hexit (by simp [Claims.isExitif])
  · rfl

theorem decode_encodeGlobal {l : Lop} {g : GWord} (hl : l.wf = true) (h0 : g.gop0.wf = true) (h1 : g.gop1.wf = true) (hwait : Claims.waitWf g = true)
    (hstop : g.gop0 ≠ .stop ∨ g.gop1 ≠ .stop) (hexit : Claims.isExitif g.gop0 = false ∨ Claims.isExitif g.gop1 = false) :
    decodeGlobal (encodeGlobal l g) = some g ∧ decodeCtl (encodeGlobal l g) = some l := by
  obtain ⟨hlt0, d0⟩ := decodeGop_encodeGop h0
  obtain ⟨hlt1, d1⟩ := decodeGop_encodeGop h1
  obtain ⟨hltw, dw, okw⟩ := waitWord_fields hwait
  rw [encodeGlobal_eq]
  generalize hx : encodeCtl l * 2 ^ 112 + waitWord g.wait * 2 ^ 64 + encodeGop g.gop0 * 2 ^ 32 + encodeGop g.gop1 = x
  obtain ⟨hlt, ft, fb, fc, fa, f0, f1⟩ := globalFields (encodeCtl_lt hl) hltw hlt0 hlt1 hx.symm
  have e := toNat_word128 hlt
  have hctl : decodeCtl (BitVec.ofNat 128 x) = some l := decodeCtl_of_bits hl (by rw [e, ft])
  have fbit : waitBit (BitVec.ofNat 128 x) = decide (waitWord g.wait / 2 ^ 31 = 1) := by rw [waitBit, e, testBit_eq, fb]
  refine ⟨?_, hctl⟩
  rw [decodeGlobal_of_parts hctl (by rw [e, f0, d0]) (by rw [e, f1, d1]) (by rw [fbit, e, fc]; exact fun k => okw (of_decide_eq_true k)) hstop hexit, e, fbit, fc, fa]
  simp only [decide_eq_true_eq, dw]

/-- Settles O57: each slot word and each part of a word of 128 bits reads back from its own bits. -/
theorem laneAndGlobalWordsRoundTrip : Obligations.LaneAndGlobalWordsRoundTrip := by
  unfold Obligations.LaneAndGlobalWordsRoundTrip
  exact ⟨fun _ _ _ _ _ _ _ _ _ _ => decode_encodeLane, fun _ _ => decode_encodeGlobal⟩

end Sys2Proof.Machine
end

section
/-! Scalar arithmetic, logic, shifts and moves (O10): what the tile's slots share, and each result as a word of 64 bits. -/
namespace Sys2Proof.Machine
open State Claims

/-! What a slot operation shares. -/

/-- A slot operation of a tile that is ON (`State.slot`) completes with what it does. -/
theorem slot_completes {s u : State} {n : TileId} {P : State → Prop} (h : s.domOn n.val = true) (hu : P u) :
    ∃ t, (.next (if s.domOn n.val = true then u else s) : Res) = .next t ∧ P t := ⟨u, by rw [if_pos h], hu⟩

theorem readS_unmarked {s : State} {n r : Nat} (h : s.marked n false r = false) : s.readS n r = (s.sreg n r, s) := by
  unfold readS; rw [h]; rfl

theorem readV_unmarked {s : State} {n r : Nat} (h : s.marked n true r = false) : s.readV n r = (lanes.map (s.vlane n r), s) := by
  unfold readV; rw [h]; rfl

theorem laterS_eq (s : State) (n : TileId) (lat rd v : Nat) : s.laterS n.val lat rd v = withScalar s n lat rd (BitVec.ofNat 64 v) := rfl

theorem sreg_lt (s : State) (n r : Nat) : s.sreg n r < 2 ^ 64 := by
  unfold sreg; split
  · decide
  · exact (getAt 0 r (s.tile n).sregs).isLt

@[simp] theorem toNat_sval (s : State) (n : TileId) (r : Nat) : (sval s n r).toNat = s.sreg n.val r := by
  rw [sval, BitVec.toNat_ofNat, Nat.mod_eq_of_lt (sreg_lt s n.val r)]

@[simp] theorem ofNat_low64 (v : Nat) : BitVec.ofNat 64 (low 64 v) = BitVec.ofNat 64 v := by
  apply BitVec.eq_of_toNat_eq; simp [low]

/-- Format R: the operation of the words of its two sources. -/
theorem aluR_result {s : State} {n : TileId} {lat rd a b : Nat} {f : Nat → Nat → Nat} {v : Word64} (ha : s.marked n.val false a = false) (hb : s.marked n.val false b = false)
    (hf : BitVec.ofNat 64 (f (s.sreg n.val a) (s.sreg n.val b)) = v) : s.aluR n.val lat rd a b f = withScalar s n lat rd v := by
  unfold aluR; simp only [readS_unmarked ha, readS_unmarked hb, laterS_eq, ofNat_low64, hf]

/-- Format I: the operation of the word of its source. -/
theorem aluI_result {s : State} {n : TileId} {rd a : Nat} {f : Nat → Nat} {v : Word64} (ha : s.marked n.val false a = false)
    (hf : BitVec.ofNat 64 (f (s.sreg n.val a)) = v) : s.aluI n.val rd a f = withScalar s n 1 rd v := by
  unfold aluI; simp only [readS_unmarked ha, laterS_eq, ofNat_low64, hf]

/-! The operations on words. -/

theorem ofNat_sub64 {x y : Nat} (hy : y < 2 ^ 64) : BitVec.ofNat 64 (x + 2 ^ 64 - y) = BitVec.ofNat 64 x - BitVec.ofNat 64 y := by
  apply BitVec.eq_of_toNat_eq; simp only [BitVec.toNat_ofNat, BitVec.toNat_sub]; omega

theorem ofNat_shl64 (x k : Nat) : BitVec.ofNat 64 (x <<< k) = BitVec.ofNat 64 x <<< k := by
  apply BitVec.eq_of_toNat_eq
  simp only [BitVec.toNat_ofNat, BitVec.toNat_shiftLeft, Nat.shiftLeft_eq, Nat.mod_mul_mod]

theorem ofNat_shr64 {x : Nat} (hx : x < 2 ^ 64) (k : Nat) : BitVec.ofNat 64 (x >>> k) = BitVec.ofNat 64 x >>> k := by
  have hk : x >>> k < 2 ^ 64 := Nat.lt_of_le_of_lt (Nat.shiftRight_le x k) hx
  apply BitVec.eq_of_toNat_eq
  rw [BitVec.toNat_ushiftRight, BitVec.toNat_ofNat, BitVec.toNat_ofNat, Nat.mod_eq_of_lt hx, Nat.mod_eq_of_lt hk]

theorem signed64_eq (x : Nat) : signed 64 x = (BitVec.ofNat 64 x).toInt := by
  have e : (BitVec.ofNat 64 x).toNat = low 64 x := BitVec.toNat_ofNat ..
  rw [BitVec.toInt_eq_toNat_cond, e]
  unfold signed
  by_cases h : low 64 x < 2 ^ (64 - 1)
  · rw [if_pos h, if_pos (by omega)]
  · rw [if_neg h, if_neg (by omega)]; rfl

theorem ofNat_unsigned64 (i : Int) : BitVec.ofNat 64 (unsigned 64 i) = BitVec.ofInt 64 i := by
  apply BitVec.eq_of_toNat_eq
  simp only [unsigned, BitVec.toNat_ofNat, BitVec.toNat_ofInt]
  omega

theorem ofNat_sra64 (x k : Nat) : BitVec.ofNat 64 (unsigned 64 (signed 64 x / 2 ^ k)) = (BitVec.ofNat 64 x).sshiftRight k := by
  rw [ofNat_unsigned64, BitVec.sshiftRight_eq, Int.shiftRight_eq_div_pow, signed64_eq]; norm_cast

theorem ofNat_sext15 (imm : BitVec 15) : BitVec.ofNat 64 (sext15 imm) = imm.signExtend 64 := by
  unfold sext15; simp

theorem sval_def (s : State) (n : TileId) (r : Nat) : BitVec.ofNat 64 (s.sreg n.val r) = sval s n r := rfl

theorem sll_result {s : State} {n : TileId} {rd a b : Nat} (ha : s.marked n.val false a = false) (hb : s.marked n.val false b = false) :
    s.opSll n.val rd a b = withScalar s n 1 rd (sval s n a <<< ((sval s n b).toNat % 64)) :=
  aluR_result ha hb (by rw [ofNat_shl64, toNat_sval]; rfl)

theorem srl_result {s : State} {n : TileId} {rd a b : Nat} (ha : s.marked n.val false a = false) (hb : s.marked n.val false b = false) :
    s.opSrl n.val rd a b = withScalar s n 1 rd (sval s n a >>> ((sval s n b).toNat % 64)) :=
  aluR_result ha hb (by rw [ofNat_shr64 (sreg_lt ..), toNat_sval]; rfl)

theorem sub_result {s : State} {n : TileId} {rd a b : Nat} (ha : s.marked n.val false a = false) (hb : s.marked n.val false b = false) :
    s.opSub n.val rd a b = withScalar s n 1 rd (sval s n a - sval s n b) :=
  aluR_result ha hb (ofNat_sub64 (sreg_lt ..))

theorem slt_result {s : State} {n : TileId} {rd a b : Nat} (ha : s.marked n.val false a = false) (hb : s.marked n.val false b = false) :
    s.opSlt n.val rd a b = withScalar s n 1 rd (if (sval s n a).slt (sval s n b) then 1 else 0) :=
  aluR_result ha hb (by rw [signed64_eq, signed64_eq, sval_def, sval_def, BitVec.slt_eq_decide]; simp only [decide_eq_true_eq]; split <;> rfl)

theorem sltu_result {s : State} {n : TileId} {rd a b : Nat} (ha : s.marked n.val false a = false) (hb : s.marked n.val false b = false) :
    s.opSltu n.val rd a b = withScalar s n 1 rd (if (sval s n a).ult (sval s n b) then 1 else 0) :=
  aluR_result ha hb (by simp only [BitVec.ult_iff_toNat_lt, toNat_sval]; split <;> rfl)

theorem selnz_result {s : State} {n : TileId} {rd a b : Nat} (ha : s.marked n.val false a = false) (hb : s.marked n.val false b = false) :
    s.opSelnz n.val rd a b = if sval s n b ≠ 0 then withScalar s n 1 rd (sval s n a) else s := by
  have e : sval s n b ≠ 0 ↔ s.sreg n.val b ≠ 0 := by
    rw [← toNat_sval]; exact not_congr BitVec.toNat_eq
  unfold opSelnz
  simp only [readS_unmarked ha, readS_unmarked hb, laterS_eq, sval_def, e]

/-- Settles O10: every operand is read unmarked, and the model's arithmetic on numbers is the arithmetic of words of 64 bits. -/
theorem scalarArithmeticResults : Obligations.ScalarArithmeticResults := by
  unfold Obligations.ScalarArithmeticResults
  refine ⟨?add, ?cadd, ?sub, ?csub, ?and, ?cand, ?or, ?cor, ?xor, ?cxor, ?sll, ?csll, ?srl, ?csrl, ?sra, ?slt, ?sltu, ?mul, ?mulh, ?cmov, ?selnz,
    ?addi, ?andi, ?ori, ?xori, ?shori, ?slli, ?srli, ?srai⟩
  case add | cadd => exact fun _ _ _ _ _ hd ha hb => slot_completes hd (aluR_result ha hb (BitVec.ofNat_add ..))
  case sub | csub => exact fun _ _ _ _ _ hd ha hb => slot_completes hd (sub_result ha hb)
  case and | cand => exact fun _ _ _ _ _ hd ha hb => slot_completes hd (aluR_result ha hb BitVec.ofNat_and)
  case or | cor => exact fun _ _ _ _ _ hd ha hb => slot_completes hd (aluR_result ha hb BitVec.ofNat_or)
  case xor | cxor => exact fun _ _ _ _ _ hd ha hb => slot_completes hd (aluR_result ha hb BitVec.ofNat_xor)
  case sll | csll => exact fun _ _ _ _ _ hd ha hb => slot_completes hd (sll_result ha hb)
  case srl | csrl => exact fun _ _ _ _ _ hd ha hb => slot_completes hd (srl_result ha hb)
  case sra => exact fun _ _ _ _ _ hd ha hb => slot_completes hd (aluR_result ha hb (by rw [ofNat_sra64, toNat_sval]; rfl))
  case slt => exact fun _ _ _ _ _ hd ha hb => slot_completes hd (slt_result ha hb)
  case sltu => exact fun _ _ _ _ _ hd ha hb => slot_completes hd (sltu_result ha hb)
  case mul => exact fun _ _ _ _ _ hd ha hb => slot_completes hd (aluR_result ha hb (BitVec.ofNat_mul ..))
  case mulh => exact fun _ _ _ _ _ hd ha hb => slot_completes hd (aluR_result ha hb (by rw [ofNat_unsigned64, signed64_eq, signed64_eq]; rfl))
  case cmov => exact fun _ _ _ _ hd ha => slot_completes hd (aluI_result ha rfl)
  case selnz => exact fun _ _ _ _ _ hd ha hb => slot_completes hd (selnz_result ha hb)
  case addi => exact fun _ _ _ _ _ hd ha => slot_completes hd (aluI_result ha (by rw [BitVec.ofNat_add, ofNat_sext15]; rfl))
  case andi => exact fun _ _ _ _ _ hd ha => slot_completes hd (aluI_result ha (by rw [BitVec.ofNat_and, ofNat_sext15]; rfl))
  case ori => exact fun _ _ _ _ _ hd ha => slot_completes hd (aluI_result ha (by rw [BitVec.ofNat_or, ofNat_sext15]; rfl))
  case xori => exact fun _ _ _ _ _ hd ha => slot_completes hd (aluI_result ha (by rw [BitVec.ofNat_xor, ofNat_sext15]; rfl))
  case shori => exact fun _ _ _ _ _ hd ha => slot_completes hd (aluI_result ha (by rw [BitVec.ofNat_or, ofNat_shl64, BitVec.ofNat_toNat]; rfl))
  case slli => exact fun _ _ _ _ _ hd ha => slot_completes hd (aluI_result ha (ofNat_shl64 ..))
  case srli => exact fun _ _ _ _ _ hd ha => slot_completes hd (aluI_result ha (ofNat_shr64 (sreg_lt ..) _))
  case srai => exact fun _ _ _ _ _ hd ha => slot_completes hd (aluI_result ha (ofNat_sra64 ..))

end Sys2Proof.Machine
end

section
/-! The global word (O45), flags, doorbells and barriers (O4), and words written out from the tables (O58). -/
namespace Sys2Proof.Machine
open State Claims

/-- Settles O58: the decoder evaluates each word. -/
theorem slotWordsDecode : Obligations.SlotWordsDecode := by
  unfold Obligations.SlotWordsDecode
  exact ⟨rfl, rfl, rfl, rfl, rfl, rfl, rfl, rfl, rfl, rfl, rfl, rfl, rfl, rfl, rfl, rfl⟩

/-! One bit of a field. -/

/-- A number by what stands above bit i, at bit i and below it. -/
theorem exists_bit_parts (v i : Nat) : ∃ a c lo, c < 2 ∧ lo < 2 ^ i ∧ v = 2 ^ (i + 1) * a + (2 ^ i * c + lo) :=
  ⟨v / 2 ^ i / 2, v / 2 ^ i % 2, v % 2 ^ i, Nat.mod_lt _ (by decide), Nat.mod_lt _ (Nat.two_pow_pos i), by
    rw [Nat.pow_succ, Nat.mul_assoc, ← Nat.add_assoc, ← Nat.mul_add, Nat.div_add_mod, Nat.div_add_mod]⟩

theorem testBit_of_parts {a c lo i : Nat} (hc : c < 2) (hlo : lo < 2 ^ i) (j : Nat) :
    (2 ^ (i + 1) * a + (2 ^ i * c + lo)).testBit j = if j < i then lo.testBit j else if j = i then decide (c = 1) else a.testBit (j - (i + 1)) := by
  have hlt : 2 ^ i * c + lo < 2 ^ (i + 1) := by
    have : 2 ^ i * c ≤ 2 ^ i * 1 := Nat.mul_le_mul_left _ (by omega)
    rw [Nat.pow_succ]; omega
  rw [Nat.testBit_two_pow_mul_add _ hlt, Nat.testBit_two_pow_mul_add _ hlo]
  rcases Nat.lt_trichotomy j i with h | rfl | h
  · rw [if_pos (by omega), if_pos h, if_pos h]
  · rw [if_pos (by omega), if_neg (by omega), if_neg (by omega), if_pos rfl, Nat.sub_self]
    obtain rfl | rfl : c = 0 ∨ c = 1 := by omega
    all_goals rfl
  · rw [if_neg (by omega), if_neg (by omega), if_neg (by omega)]

theorem setBit_of_parts {a c lo i : Nat} (hc : c < 2) (hlo : lo < 2 ^ i) (b : Bool) :
    setBit (2 ^ (i + 1) * a + (2 ^ i * c + lo)) i b = 2 ^ (i + 1) * a + (2 ^ i * bnat b + lo) := by
  have hbit : (2 ^ (i + 1) * a + (2 ^ i * c + lo)).testBit i = decide (c = 1) := by
    rw [testBit_of_parts hc hlo, if_neg (Nat.lt_irrefl i), if_pos rfl]
  unfold setBit; rw [hbit]
  obtain rfl | rfl : c = 0 ∨ c = 1 := by omega
  all_goals cases b <;> simp [bnat]; omega

theorem testBit_setBit (v i j : Nat) (b : Bool) : (setBit v i b).testBit j = if j = i then b else v.testBit j := by
  obtain ⟨a, c, lo, hc, hlo, rfl⟩ := exists_bit_parts v i
  have hb : bnat b < 2 := by cases b <;> decide
  rw [setBit_of_parts hc hlo, testBit_of_parts hb hlo, testBit_of_parts hc hlo]
  rcases Nat.lt_trichotomy j i with h | rfl | h
  · rw [if_pos h, if_neg (by omega), if_pos h]
  · rw [if_neg (by omega), if_pos rfl, if_pos rfl]; cases b <;> rfl
  · rw [if_neg (by omega), if_neg (by omega), if_neg (by omega), if_neg (by omega), if_neg (by omega)]

theorem testBit_low {w j : Nat} (h : j < w) (v : Nat) : (low w v).testBit j = v.testBit j := by
  unfold low; rw [Nat.testBit_mod_two_pow]; simp [h]

/-- A bit of a field of which one bit has been set or cleared. -/
theorem testBit_get_put_setBit {s : State} (hs : s.Rising) {f : Field} (hw : f.width ≤ 64) {i j : Nat} (hj : j < f.width) (b : Bool) :
    ((s.put f (setBit (s.get f) i b)).get f).testBit j = if j = i then b else (s.get f).testBit j := by
  rw [get_put hs hw, testBit_low hj, testBit_setBit]

/-! Flags and doorbells. -/

theorem setFlag_bit {s : State} (hs : s.Rising) (f : Nat) {j : Nat} (hj : j < 16) (v : Bool) :
    ((s.setFlag f v).get Reg.SNET.FLAGS.FLAG).testBit j = if j = f then v else (s.get Reg.SNET.FLAGS.FLAG).testBit j :=
  testBit_get_put_setBit hs (by decide) hj v

theorem State.Rising.setFlag {s : State} (hs : s.Rising) (f : Nat) (v : Bool) : (s.setFlag f v).Rising := hs.put _ _

/-- No other source has set flag f in this period, so a clear of the issue controller takes effect (R270). -/
theorem clrflag_eq {s : State} {f : Nat} (h : s.issue.flagsSet.all (fun x => x.1 != f || x.2 == 256) = true) : s.runGop (.clrflag f) = s.setFlag f false := by
  have hno : s.issue.flagsSet.any (fun x => x.1 == f && x.2 != 256) = false := by
    rw [List.any_eq_false]
    intro x hx
    have := List.all_eq_true.1 h x hx
    simp only [Bool.or_eq_true, bne_iff_ne, beq_iff_eq] at this
    simp only [Bool.and_eq_true, beq_iff_eq, bne_iff_ne, not_and, not_not]
    exact fun e => this.resolve_left (fun k => k e)
  show s.changeFlag 256 f false = _
  unfold changeFlag
  rw [if_neg (by decide), hno]; rfl

theorem setflag_eq (s : State) (f : Nat) : s.runGop (.setflag f) = (s.setFlag f true).modIssue fun x => { x with flagsSet := (f, 256) :: x.flagsSet } := rfl

/-- The second of two flag operations on one flag decides (R82). -/
theorem runGops_flag_bit {s : State} (hs : s.Rising) {f : Nat} (hf : f < 16) (a b : Bool) (h : s.issue.flagsSet.all (fun x => x.1 != f || x.2 == 256) = true) :
    ((s.runGops (if a then .setflag f else .clrflag f) (if b then .setflag f else .clrflag f)).get Reg.SNET.FLAGS.FLAG).testBit f = b := by
  have hbit : ∀ {t : State}, t.Rising → ∀ v, ((t.setFlag f v).get Reg.SNET.FLAGS.FLAG).testBit f = v := fun ht v => by
    rw [setFlag_bit ht f hf, if_pos rfl]
  cases a <;> cases b
  case false.false =>
    show (((s.runGop (.clrflag f)).runGop (.clrflag f)).get _).testBit f = _
    rw [clrflag_eq h, clrflag_eq (s := s.setFlag f false) h]
    exact hbit (hs.setFlag f false) false
  case false.true =>
    show (((s.runGop (.clrflag f)).runGop (.setflag f)).get _).testBit f = _
    rw [clrflag_eq h, setflag_eq]
    exact hbit (hs.setFlag f false) true
  case true.false =>
    have e : s.runGops (.setflag f) (.clrflag f) = s.runGop (.clrflag f) := if_pos rfl
    show ((s.runGops (.setflag f) (.clrflag f)).get _).testBit f = _
    rw [e, clrflag_eq h]
    exact hbit hs false
  case true.true =>
    show (((s.runGop (.setflag f)).runGop (.setflag f)).get _).testBit f = _
    rw [setflag_eq, setflag_eq]
    exact hbit (t := (s.setFlag f true).modIssue _) (hs.setFlag f true) true

theorem dbclr_bit {s : State} (hs : s.Rising) (b : Nat) {j : Nat} (hj : j < 32) :
    ((s.runGop (.dbclr b)).get Reg.ISSUE.DBELL.BELL).testBit j = if j = b then false else (s.get Reg.ISSUE.DBELL.BELL).testBit j :=
  testBit_get_put_setBit hs (by decide) hj false

/-- Settles O45: GOP1 runs on what GOP0 leaves, and the decoder answers none on two ENDs and on two EXITIFs. -/
theorem globalWordRule : Obligations.GlobalWordRule := by
  unfold Obligations.GlobalWordRule
  refine ⟨fun s f a b hs h => runGops_flag_bit (canonical_regs hs) f.isLt a b h, fun s b hs => ?_, fun w h0 h1 => ?_, fun w c a c' a' h0 h1 => ?_⟩
  · show ((((s.runGop (.dbclr b.val)).runGop (.dbclr b.val))).get _).testBit _ = _
    rw [dbclr_bit (s := s.runGop (.dbclr b.val)) (Rising.put (canonical_regs hs) _ _) b.val b.isLt, if_pos rfl]
  · unfold decodeGlobal; rw [h0, h1]; cases decodeCtl w <;> rfl
  · unfold decodeGlobal; rw [h0, h1]; cases decodeCtl w <;> rfl

/-! A register write of a row whose page answers. -/

/-- No check runs at a page that answers. -/
theorem checkEnd_of_answers {s : State} {src : Source} {off : Nat} (h : s.answers src off = true) : s.checkEnd (pageAt off).base = s := by
  simp only [answers, Bool.and_eq_true] at h
  have hnone : (s.checking.find? fun c => c.1 == (pageAt off).base) = none := by
    rw [List.find?_eq_none]
    intro c hc
    have := List.all_eq_true.1 h.2 c hc
    simpa using this
  unfold checkEnd; rw [hnone]

/-- A write to a page that answers, and whose registers belong to no slower domain, has its effect at once. -/
theorem rowWrite_answers {s t : State} {src : Source} {off w : Nat} {f : State → Res} (hw : (src == .host && s.hostWaits) = false) (h : s.answers src off = true)
    (hslow : slowReg off = false) (hf : f s = .next t) : s.rowWrite src off w f = .next t := by
  have hc := checkEnd_of_answers h
  have hs : s.slowed src off = s := by unfold slowed; rw [hslow]; rfl
  simp only [answers, Bool.and_eq_true, Bool.not_eq_true', bne_iff_ne] at h
  obtain ⟨⟨⟨⟨⟨hsilent, hkind⟩, hup⟩, hreset⟩, hres⟩, -⟩ := h
  unfold rowWrite
  simp only [hw, hsilent, beq_eq_false_iff_ne.2 hkind, hup, hc, hs, hreset, hres, hf]
  rfl

theorem pageUp_of_answers {s : State} {src : Source} {off : Nat} (h : s.answers src off = true) (hk : (pageAt off).kind ≠ .crown) : s.pageUp (pageAt off) = true := by
  simp only [answers, Bool.and_eq_true] at h
  have hup := h.1.1.1.2
  unfold offUp aonReg at hup
  rw [beq_eq_false_iff_ne.2 hk] at hup
  simpa using hup

/-! What a cause and an error leave unchanged. -/

/-- A field that does not stand in a page's BLK_IRQ_STAT keeps its value at a cause. -/
theorem get_cause_outside {s : State} {pg b : Nat} {g : Field} (h : g.key / 64 ≠ pg + 0x18) : (s.cause pg b).get g = s.get g := by
  refine get_cause_ne fun e => h ?_
  rw [e]
  split
  · show ((pg + 0x18) * 64 + 0) / 64 = _; omega
  · split
    · show ((pg + 0x18) * 64 + 1) / 64 = _; omega
    · split
      · show ((pg + 0x18) * 64 + 2) / 64 = _; omega
      · show ((pg + 0x18) * 64 + 4) / 64 = _; omega

/-- A field that stands neither in a page's BLK_STAT nor in its BLK_IRQ_STAT keeps its value at an error. -/
theorem get_setErr_outside {s : State} {pg : Nat} {g : Field} (h : g.key / 64 ≠ pg + 0x18) (h' : g.key / 64 ≠ pg + 0x10) : (s.setErr pg).get g = s.get g := by
  unfold setErr
  rw [get_cause_outside h, get_put_ne]
  exact fun e => h' (by rw [e]; show ((pg + 0x10) * 64 + 2) / 64 = _; omega)

theorem get_causeErr_outside {s : State} {pg b : Nat} {g : Field} (h : g.key / 64 ≠ pg + 0x18) (h' : g.key / 64 ≠ pg + 0x10) : (s.causeErr pg b).get g = s.get g := by
  unfold causeErr; rw [get_cause_outside h, get_setErr_outside h h']

theorem get_err_setErr {s : State} (hs : s.Rising) (pg : Nat) : (s.setErr pg).get (Reg.HDR.BLK_STAT.ERR pg) = 1 := by
  unfold setErr
  rw [get_cause_outside (by show ((pg + 0x10) * 64 + 2) / 64 ≠ _; omega), get_put hs (Nat.le_of_ble_eq_true rfl)]; rfl

theorem get_err_causeErr {s : State} (hs : s.Rising) (pg b : Nat) : (s.causeErr pg b).get (Reg.HDR.BLK_STAT.ERR pg) = 1 := by
  unfold causeErr
  rw [get_cause_outside (by show ((pg + 0x10) * 64 + 2) / 64 ≠ _; omega), get_err_setErr hs]

/-- A counter of 32 bits counts one event (R58). -/
theorem get_bump {s : State} (hs : s.Rising) {f : Field} (hw : f.width ≤ 64) : (s.bump f).get f = s.counted f 1 := by
  unfold bump add counted
  rw [get_put hs hw, low, Nat.mod_eq_of_lt]
  have := Nat.two_pow_pos f.width
  omega

/-! The commands of O4. -/

theorem onlyFields_put_self (s : State) (f : Field) (v : Nat) : s.OnlyFields [f] (s.put f v) := onlyFields_put onlyFields_refl v (by simp)

theorem dbclr_clears : dbclrClears := fun s bit hs => by
  refine ⟨s.runGop (.dbclr bit.val), rfl, fun b hb => ?_, onlyFields_put_self ..⟩
  rw [dbclr_bit (canonical_regs hs) bit.val (List.mem_range.1 hb)]
  by_cases h : b = bit.val <;> simp [h]

theorem setflag_sets : setflagSets := fun s f hs => by
  refine ⟨(s.setFlag f.val true).modIssue fun x => { x with flagsSet := (f.val, 256) :: x.flagsSet }, rfl, fun b hb => ?_, rfl, (onlyFields_put_self s _ _).1, rfl⟩
  refine (setFlag_bit (canonical_regs hs) f.val (List.mem_range.1 hb) true).trans ?_
  by_cases h : b = f.val <;> simp [h]

theorem clrflag_clears : clrflagClears := fun s f hs h => by
  refine ⟨s.setFlag f.val false, congrArg Host.Outcome.next (clrflag_eq h), fun b hb => ?_, onlyFields_put_self ..⟩
  rw [setFlag_bit (canonical_regs hs) f.val (List.mem_range.1 hb)]
  by_cases hb : b = f.val <;> simp [hb]

theorem set_wins_over_clear : setWinsOverClear := fun s f h => by
  have e : s.changeFlag 256 f.val false = s := by unfold changeFlag; rw [if_neg (by decide), if_pos h]
  exact ⟨s, congrArg Host.Outcome.next e, rfl⟩

theorem flags_written : flagsWritten := fun s src v hs hw ha => by
  have hup : s.pageUp (pageAt State.pgSNET) = true := pageUp_of_answers ha (by decide)
  refine ⟨s.put Reg.SNET.FLAGS.FLAG v.toNat, rowWrite_answers hw ha (by decide) (by unfold actFlags; rw [hup]; rfl), ?_, onlyFields_put_self ..⟩
  rw [get_put (canonical_regs hs) (by decide)]
  exact Nat.mod_eq_of_lt v.isLt

/-- The fabric's pages (R49). -/
theorem pageAt_fabPg {i d : Nat} (hi : i < 16) (hd : d < 0x1000) : pageAt (fabPg i + d) = ⟨.fabric, fabPg i, i⟩ := by
  have e : fabPg i = 0x90000 + i * 0x1000 := rfl
  unfold pageAt
  simp only
  rw [if_neg (by omega), if_neg (by omega), if_neg (by omega), if_neg (by omega), if_neg (by omega), if_neg (by omega), if_neg (by omega), if_neg (by omega),
    if_neg (by omega), if_neg (by omega), if_neg (by omega), if_pos (by omega)]
  congr 1 <;> omega

theorem barMask_written : barMaskWritten := fun s src g w v hs hw ha => by
  have hg := g.isLt; have hw8 := w.isLt
  have hpage : pageAt (fabPg 3 + 0x100 + 0x20 * g.val + 4 * w.val) = pageAt (fabPg 3) := by
    rw [Nat.add_assoc, Nat.add_assoc]; exact pageAt_fabPg (by decide) (by omega)
  have hup : s.pageUp (pageAt (fabPg 3)) = true := hpage ▸ pageUp_of_answers ha (by rw [hpage]; decide)
  have hslow : slowReg (fabPg 3 + 0x100 + 0x20 * g.val + 4 * w.val) = false := by unfold slowReg; rw [hpage]; rfl
  refine ⟨s.put (Reg.SNETM.BAR_MASK.TILES g.val w.val) v.toNat, rowWrite_answers hw ha hslow (by unfold actBarMask; rw [hup]; rfl), ?_, onlyFields_put_self ..⟩
  rw [get_put (canonical_regs hs) (Nat.le_of_ble_eq_true rfl)]
  exact Nat.mod_eq_of_lt v.isLt

/-- What BAR_TMO leaves of a group that it abandons. -/
def barAbandoned (s : State) (g : Nat) : State :=
  let s := { s with bar := remove g s.bar }
  let f := Reg.SNET.BAR_TMO_STAT.TMO (g / 32)
  ((s.put f (setBit (s.get f) (g % 32) true)).bump Reg.SNET.BAR_TMO_CNT.CNT).causeErr State.pgSNET 4

theorem execBarTmo_abandons {s : State} {g : Fin 64} (hcyc : s.get Reg.SNET.BAR_TMO.CYC ≠ 0) (harr : s.arrived g.val ≠ 0) (hfull : s.barFull g.val = false)
    (htmo : s.barTmo g.val = false) : exec (.barTmo g) s = .next (barAbandoned s g.val) := by
  show execBarTmo g s = _
  unfold execBarTmo
  rw [if_neg (by simp [hcyc, harr, hfull, htmo])]
  rfl

theorem barAbandoned_bar (s : State) (g : Nat) : (barAbandoned s g).bar = remove g s.bar := by simp [barAbandoned]

theorem barTmo_abandons : barTmoAbandons := fun s g hs hcyc harr hfull htmo hbar => by
  have hg := g.isLt
  have hr : ∀ l, State.Rising { s with bar := l } := fun l => canonical_regs hs
  have hpg : State.pgSNET = 0x92000 := rfl
  have hbits : (Reg.SNET.BAR_TMO_STAT.TMO (g.val / 32)).key = (0x92050 + g.val / 32 * 4) * 64 := rfl
  have hcnt : (Reg.SNET.BAR_TMO_STAT.TMO (g.val / 32)).key ≠ Reg.SNET.BAR_TMO_CNT.CNT.key := by
    rw [hbits]; show _ ≠ 0x9205C * 64; omega
  refine ⟨barAbandoned s g.val, execBarTmo_abandons hcyc harr hfull htmo, ?_, ?_, ?_, ?_, fun h _ hne => ?_⟩
  · rw [arrived, barAbandoned_bar, getAt, lookup_remove_same g.val hbar]; rfl
  · show (State.get (causeErr _ _ _) _).testBit _ = true
    rw [get_causeErr_outside (by rw [hbits, hpg]; omega) (by rw [hbits, hpg]; omega), bump, add, get_put_ne hcnt, testBit_get_put_setBit (hr _) (Nat.le_of_ble_eq_true rfl), if_pos rfl]
    show g.val % 32 < 32; omega
  · show State.get (causeErr _ _ _) _ = _
    rw [get_causeErr_outside (by decide) (by decide), get_bump ((hr _).put _ _) (by decide), counted, get_put_ne hcnt.symm]
    rfl
  · exact get_err_causeErr (((hr _).put _ _).bump _) _ _
  · rw [arrived, barAbandoned_bar, getAt, lookup_remove_ne hne]; rfl

/-- Settles O4: a bit of a flag or doorbell field is set or cleared by itself, a written register reads back, and an abandoned barrier leaves the list of barriers. -/
theorem flagsAndBarriersComplete : Obligations.FlagsAndBarriersComplete := by
  unfold Obligations.FlagsAndBarriersComplete
  exact ⟨dbclr_clears, setflag_sets, clrflag_clears, set_wins_over_clear, flags_written, barMask_written, barTmo_abandons⟩

end Sys2Proof.Machine
end

section
/-! Vector arithmetic (O13) and illegal vector forms (O16). -/
namespace Sys2Proof.Machine
open State Claims

/-! The clock settings of the halves, which latencies depend on, stand in no tile's page. -/

theorem cyclesPerLaunch_put (s : State) {f : Field} (v : Nat) (hf : 0x1000000 * 64 ≤ f.key) (half : Nat) : (s.put f v).cyclesPerLaunch half = s.cyclesPerLaunch half := by
  have hw : Reg.CLOCK.HALF_CFG.WEST.key < 0x1000000 * 64 := by decide
  have he : Reg.CLOCK.HALF_CFG.EAST.key < 0x1000000 * 64 := by decide
  have heff : ∀ h, (s.put f v).effective h = s.effective h := fun h => by
    unfold effective
    rw [get_put_ne (Nat.ne_of_lt (Nat.lt_of_lt_of_le hw hf)), get_put_ne (Nat.ne_of_lt (Nat.lt_of_lt_of_le he hf))]
    rfl
  unfold cyclesPerLaunch slowLaunch
  simp only [heff]

theorem halves_put (s : State) {f : Field} (v : Nat) (hf : 0x1000000 * 64 ≤ f.key) (n : Nat) : (s.put f v).halves n = s.halves n := by
  unfold halves; rw [cyclesPerLaunch_put s v hf]

/-! The sticky flags. -/

/-- The flags set at issue: a change of VEC_FLAGS alone that keeps the latencies. -/
theorem vecFlags_frame (s : State) (n : TileId) (fl : VFlags) :
    (s.vecFlags n.val fl).tiles = s.tiles ∧ (s.vecFlags n.val fl).issue = s.issue ∧ (s.vecFlags n.val fl).halves n.val = s.halves n.val
      ∧ s.OnlyFields (vecFlagFields n) (s.vecFlags n.val fl) := by
  have hput : ∀ {t : State} (c : Prop) [Decidable c] {f : Field}, f.key ∈ (vecFlagFields n).map (·.key) → 0x1000000 * 64 ≤ f.key →
      (t.tiles = s.tiles ∧ t.issue = s.issue ∧ t.halves n.val = s.halves n.val ∧ s.OnlyFields (vecFlagFields n) t) →
      ((if c then t.put f 1 else t).tiles = s.tiles ∧ (if c then t.put f 1 else t).issue = s.issue ∧ (if c then t.put f 1 else t).halves n.val = s.halves n.val
        ∧ s.OnlyFields (vecFlagFields n) (if c then t.put f 1 else t)) := by
    intro t c _ f hf hk ⟨ht, hi, hh, ho⟩
    split
    · exact ⟨ht, hi, (halves_put t 1 hk n.val).trans hh, onlyFields_put ho 1 hf⟩
    · exact ⟨ht, hi, hh, ho⟩
  have hk : ∀ i, i < 3 → 0x1000000 * 64 ≤ (0x100406C + n.val * 0x10000) * 64 + i := fun i _ => by omega
  unfold vecFlags
  exact hput _ (by simp [vecFlagFields]) (hk 2 (by decide)) (hput _ (by simp [vecFlagFields]) (hk 1 (by decide))
    (hput _ (by simp [vecFlagFields]) (hk 0 (by decide)) ⟨rfl, rfl, rfl, onlyFields_refl⟩))

/-! Lanes. -/

/-- The selected lanes of a result, with their values, are the pairs that the claims list. -/
theorem laterV_lanes (s : State) (n lat r sel : Nat) (f : Nat → Nat) :
    s.laterV n lat r sel (lanes.map f) = s.later n lat (.vreg r (lanePairs sel f)) := by
  have h : ∀ l : List Nat, (l.zip (l.map f)).filterMap (fun c => if sel.testBit c.1 then some (c.1, BitVec.ofNat 32 c.2) else none)
      = (l.filter fun i => sel.testBit i).map fun i => (i, BitVec.ofNat 32 (f i)) := by
    intro l
    induction l with
    | nil => rfl
    | cons x xs ih => by_cases hx : sel.testBit x = true <;> simp [hx, ih]
  unfold laterV lanePairs; rw [h]

theorem lanesOf_map (ty : VType) (f : Nat → Nat × VFlags) (g : Nat → Nat) (l : List Nat) :
    lanesOf ty (((elemsOf ty (l.map g)).map f).map (·.1)) = l.map fun i => lane1 ty (fun a => (f a).1) (g i) := by
  cases ty with
  | bf16 =>
    induction l with
    | nil => rfl
    | cons x xs ih => exact congrArg (_ :: ·) ih
  | fp32 | int32 => simp [elemsOf, lanesOf, lane1]

theorem lanesOf_zipWith (ty : VType) (f : Nat → Nat → Nat × VFlags) (g h : Nat → Nat) (l : List Nat) :
    lanesOf ty (((elemsOf ty (l.map g)).zipWith f (elemsOf ty (l.map h))).map (·.1)) = l.map fun i => lane2 ty (fun a b => (f a b).1) (g i) (h i) := by
  cases ty with
  | bf16 =>
    induction l with
    | nil => rfl
    | cons x xs ih => exact congrArg (_ :: ·) ih
  | fp32 | int32 =>
    induction l with
    | nil => rfl
    | cons x xs ih => exact congrArg (_ :: ·) ih

theorem lanesOf_zip3 (ty : VType) (f : Nat → Nat → Nat → Nat × VFlags) (g h k : Nat → Nat) (l : List Nat) :
    lanesOf ty ((((elemsOf ty (l.map g)).zip (elemsOf ty (l.map h))).zipWith (fun (p : Nat × Nat) z => f p.1 p.2 z) (elemsOf ty (l.map k))).map (·.1))
      = l.map fun i => lane3 ty (fun a b c => (f a b c).1) (g i) (h i) (k i) := by
  cases ty with
  | bf16 =>
    induction l with
    | nil => rfl
    | cons x xs ih => exact congrArg (_ :: ·) ih
  | fp32 | int32 =>
    induction l with
    | nil => rfl
    | cons x xs ih => exact congrArg (_ :: ·) ih

/-! Results. -/

theorem modTile_tiles_congr {s t : State} (h : t.tiles = s.tiles) (n : Nat) (f : Tile → Tile) : (t.modTile n f).tiles = (s.modTile n f).tiles := by
  unfold modTile setTile tile; rw [h]

/-- A state whose VEC_FLAGS alone may differ puts a result on its way as the claims say it. -/
theorem vectorDone_later (s : State) (n : TileId) (fl : VFlags) (lat : Nat) (r : Result) : vectorDone s ((s.vecFlags n.val fl).later n.val lat r) n lat [r] := by
  obtain ⟨ht, hi, hh, ho⟩ := vecFlags_frame s n fl
  refine ⟨?_, ho.1, congrArg (fun x : State => { x with tiles := s.tiles }) ho.2⟩
  unfold later laterAt issueTime
  rw [modTile_tiles_congr ht, hi, hh]
  rfl

/-- An element-wise result: the flags at issue, the selected lanes after the latency. -/
theorem vDone_done (s : State) (n : TileId) (lat : Nat) (ty : VType) (vd mask : Nat) (es : List (Nat × VFlags)) (f : Nat → Nat) (h : lanesOf ty (es.map (·.1)) = lanes.map f) :
    vectorDone s (s.vDone n.val lat ty vd mask es) n lat [.vreg vd (lanePairs (s.maskBits n.val mask) f)] := by
  unfold vDone
  rw [h, laterV_lanes]
  exact vectorDone_later ..

theorem v1_done {s : State} {n : TileId} {va : Nat} (lat : Nat) (ty : VType) (vd mask : Nat) (f : Nat → Nat × VFlags) (ha : s.marked n.val true va = false) :
    vectorDone s (s.v1 n.val lat ty vd va mask f) n lat
      [.vreg vd (lanePairs (s.maskBits n.val mask) fun i => lane1 ty (fun a => (f a).1) (s.vlane n.val va i))] := by
  unfold v1; rw [readV_unmarked ha]
  exact vDone_done _ _ _ _ _ _ _ _ (lanesOf_map ..)

theorem v2_done {s : State} {n : TileId} {va vb : Nat} (lat : Nat) (ty : VType) (vd mask : Nat) (f : Nat → Nat → Nat × VFlags) (ha : s.marked n.val true va = false)
    (hb : s.marked n.val true vb = false) :
    vectorDone s (s.v2 n.val lat ty vd va vb mask f) n lat
      [.vreg vd (lanePairs (s.maskBits n.val mask) fun i => lane2 ty (fun a b => (f a b).1) (s.vlane n.val va i) (s.vlane n.val vb i))] := by
  unfold v2; simp only [readV_unmarked ha, readV_unmarked hb]
  exact vDone_done _ _ _ _ _ _ _ _ (lanesOf_zipWith ..)

/-- A type other than INT32 lets an operation on floating point run (R124). -/
theorem fpOnly_of_ne (s : State) (n : Nat) {ty : VType} (h : ty ≠ .int32) (f : State → State) : s.fpOnly n ty f = f s := if_neg h

theorem vfma_done {s : State} {n : TileId} {va vb vc : Nat} {ty : VType} (vd mask : Nat) (neg : Bool) (ha : s.marked n.val true va = false)
    (hb : s.marked n.val true vb = false) (hc : s.marked n.val true vc = false) (hty : ty ≠ .int32) :
    vectorDone s (s.opVfma n.val ty vd va vb mask vc neg) n 4
      [.vreg vd (lanePairs (s.maskBits n.val mask) fun i => lane3 ty (fun a b c => (eFma neg ty a b c).1) (s.vlane n.val va i) (s.vlane n.val vb i) (s.vlane n.val vc i))] := by
  unfold opVfma; simp only [fpOnly_of_ne _ _ hty, readV_unmarked ha, readV_unmarked hb, readV_unmarked hc]
  exact vDone_done _ _ _ _ _ _ _ _ (lanesOf_zip3 ..)

theorem v2_fp_done {s : State} {n : TileId} {va vb : Nat} {ty : VType} (lat vd mask : Nat) (f : Nat → Nat → Nat × VFlags) (ha : s.marked n.val true va = false)
    (hb : s.marked n.val true vb = false) (hty : ty ≠ .int32) :
    vectorDone s (s.fpOnly n.val ty (·.v2 n.val lat ty vd va vb mask f)) n lat
      [.vreg vd (lanePairs (s.maskBits n.val mask) fun i => lane2 ty (fun a b => (f a b).1) (s.vlane n.val va i) (s.vlane n.val vb i))] := by
  rw [fpOnly_of_ne _ _ hty]; exact v2_done lat ty vd mask f ha hb

theorem vdive_done {s : State} {n : TileId} {va vb k : Nat} {ty : VType} (vd mask : Nat) (ha : s.marked n.val true va = false) (hb : s.marked n.val true vb = false)
    (hty : ty ≠ .int32) (hk : k ≤ 14) :
    vectorDone s (s.opVdive n.val ty vd va vb mask k) n 10
      [.vreg vd (lanePairs (s.maskBits n.val mask) fun i => lane2 ty (fun a b => (fromF ty (vdive (s.kreg n.val k) (s.kreg n.val (k + 1)) (toF ty a) (toF ty b))).1)
        (s.vlane n.val va i) (s.vlane n.val vb i))] := by
  unfold opVdive
  rw [if_neg (Nat.not_lt.2 hk)]; exact v2_fp_done 10 vd mask _ ha hb hty

theorem vun_done {s : State} {n : TileId} {va : Nat} {ty : VType} (vd mask : Nat) (f : Nat → Nat × VFlags) (ha : s.marked n.val true va = false) (hty : ty ≠ .int32) :
    vectorDone s (s.opVun n.val ty vd va mask f) n 8
      [.vreg vd (lanePairs (s.maskBits n.val mask) fun i => lane1 ty (fun a => (fromF ty (f (toF ty a))).1) (s.vlane n.val va i))] := by
  unfold opVun
  rw [fpOnly_of_ne _ _ hty]; exact v1_done 8 ty vd mask _ ha

/-- Settles O13: the operands are read unmarked, and lane by lane the element operation gives the result that is on its way. -/
theorem vectorArithmeticResults : Obligations.VectorArithmeticResults := by
  unfold Obligations.VectorArithmeticResults
  refine ⟨?vadd, ?vsub, ?vmul, ?vmax, ?vmin, ?vfma, ?vlerp, ?vrms, ?vdive, ?vrcp, ?vrsqrt, ?vexp2, ?vlog2, ?vsqrt⟩
  case vadd | vsub | vmax | vmin => exact fun _ _ _ _ _ _ _ hd ha hb => slot_completes hd (v2_done 4 _ _ _ _ ha hb)
  case vmul => exact fun _ _ _ _ _ _ _ hd ha hb hty => slot_completes hd (v2_fp_done 4 _ _ _ ha hb hty)
  case vlerp => exact fun _ _ _ _ _ _ _ _ hd ha hb hty => slot_completes hd (v2_fp_done 4 _ _ _ ha hb hty)
  case vrms => exact fun _ _ _ _ _ _ _ _ hd ha hb hty => slot_completes hd (v2_fp_done 8 _ _ _ ha hb hty)
  case vfma => exact fun _ _ _ _ _ _ _ _ _ hd ha hb hc hty => slot_completes hd (vfma_done _ _ _ ha hb hc hty)
  case vdive => exact fun _ _ _ _ _ _ _ _ hd ha hb hty hk => slot_completes hd (vdive_done _ _ ha hb hty hk)
  case vrcp | vrsqrt | vexp2 | vlog2 | vsqrt => exact fun _ _ _ _ _ _ hd ha hty => slot_completes hd (vun_done _ _ _ ha hty)

end Sys2Proof.Machine
end

section
/-! What a fault of a tile records and leaves unchanged (R96, R102), and the vector forms that are illegal (O16). -/
namespace Sys2Proof.Machine
open State Claims

/-! The fault halt. -/

theorem State.Rising.modIssue {s : State} (hs : s.Rising) (f : IssueS → IssueS) : (s.modIssue f).Rising := hs

theorem State.Rising.setHalt {s : State} (hs : s.Rising) (c i : Nat) (t : Option Nat) : (s.setHalt c i t).Rising := (((hs.put _ _).put _ _).put _ _).put _ _

@[simp] theorem faultHalt_tiles (s : State) (c i : Nat) (t : Option Nat) : (s.faultHalt c i t).tiles = s.tiles := by
  unfold faultHalt; split
  · exact cause_tiles ..
  · rfl

@[simp] theorem faultHalt_mem (s : State) (c i : Nat) (t : Option Nat) : (s.faultHalt c i t).mem = s.mem := by
  unfold faultHalt; split
  · exact cause_mem ..
  · rfl

theorem State.Rising.faultHalt {s : State} (hs : s.Rising) (c i : Nat) (t : Option Nat) : (s.faultHalt c i t).Rising := by
  unfold State.faultHalt; split
  · have hw : (((s.setHalt c i t).setStream stFaulted).put Reg.ISSUE.RUN_STAT.WAITING 0).Rising := ((hs.setHalt c i t).put _ _).put _ _
    exact (hw.modIssue _).cause _ _
  · exact hs

/-- A fault halt writes registers of the issue controller only: those of a tile keep their values. -/
theorem get_faultHalt_tile {s : State} {c i : Nat} {t : Option Nat} {g : Field} (hg : 0x1000000 * 64 ≤ g.key) : (s.faultHalt c i t).get g = s.get g := by
  have hne : ∀ k, k < 0x1000000 * 64 → g.key ≠ k := fun k hk => by omega
  unfold faultHalt; split
  · rw [get_cause_outside (by show _ ≠ 0x6018; omega)]
    unfold setStream setHalt
    rw [modIssue_get, get_put_ne (hne _ (by decide)), get_put_ne (hne _ (by decide)), get_put_ne (hne _ (by decide)), get_put_ne (hne _ (by decide)), get_put_ne (hne _ (by decide)),
      get_put_ne (hne _ (by decide))]
  · rfl

/-- An active stream is FAULTED by a fault. -/
theorem stream_faultHalt {s : State} (hs : s.Rising) (ha : s.streamActive = true) (c i : Nat) (t : Option Nat) : (s.faultHalt c i t).stream = stFaulted := by
  unfold faultHalt; rw [if_pos ha]
  unfold stream
  rw [get_cause_outside (by decide)]
  unfold setStream
  rw [modIssue_get, get_put_ne (by decide), get_put (hs.setHalt c i t) (by decide)]
  rfl

/-! The records of a tile. -/

theorem lanePg_eq (n : Nat) : lanePg n = 0x1002000 + n * 0x10000 := by unfold lanePg tilePg; omega

@[simp] theorem laneRecord_tiles (s : State) (n i : Nat) : (s.laneRecord n i).tiles = s.tiles := by unfold laneRecord; split <;> rfl
@[simp] theorem laneRecord_mem (s : State) (n i : Nat) : (s.laneRecord n i).mem = s.mem := by unfold laneRecord; split <;> rfl

@[simp] theorem tileFault_tiles (s : State) (n c i : Nat) : (s.tileFault n c i).tiles = s.tiles := by
  unfold tileFault; simp only [faultHalt_tiles, setErr_tiles]; split <;> simp

@[simp] theorem tileFault_mem (s : State) (n c i : Nat) : (s.tileFault n c i).mem = s.mem := by
  unfold tileFault; simp only [faultHalt_mem, setErr_mem]; split <;> simp

/-- The first fault of a tile: its index, its cause, ERR and the fault halt. -/
theorem tileFault_first {s : State} {n : Nat} (h : s.laneHeld n = false) (c i : Nat) :
    s.tileFault n c i = (((s.put (Reg.LANE.LANE_FAULT.INDEX n) i).put (Reg.LANE.LANE_FAULT.CAUSE n) c).setErr (lanePg n)).faultHalt c i (some n) := by
  have hc : s.get (Reg.LANE.LANE_FAULT.CAUSE n) = 0 := by
    simp only [laneHeld, Bool.or_eq_false_iff, bne_eq_false_iff_eq] at h; exact h.1
  have hne : (Reg.LANE.LANE_FAULT.CAUSE n).key ≠ (Reg.LANE.LANE_FAULT.INDEX n).key := by
    show (0x1002050 + n * 0x10000) * 64 + 0 ≠ (0x1002050 + n * 0x10000) * 64 + 16; omega
  unfold tileFault laneRecord
  simp only [h, Bool.false_eq_true, if_false, get_put_ne hne, hc, if_true]

/-- A register of LANE_FAULT keeps its value at ERR and at the fault halt. -/
theorem get_laneFault_halt {s : State} {n c i : Nat} {t : Option Nat} {g : Field} (hg : g.key / 64 = 0x1002050 + n * 0x10000) :
    ((s.setErr (lanePg n)).faultHalt c i t).get g = s.get g := by
  rw [get_faultHalt_tile (by omega), get_setErr_outside (by rw [lanePg_eq]; omega) (by rw [lanePg_eq]; omega)]

theorem get_cause_tileFault {s : State} (hs : s.Rising) {n : Nat} (h : s.laneHeld n = false) (c i : Nat) : (s.tileFault n c i).get (Reg.LANE.LANE_FAULT.CAUSE n) = low 4 c := by
  have hk : (Reg.LANE.LANE_FAULT.CAUSE n).key / 64 = 0x1002050 + n * 0x10000 := by
    show ((0x1002050 + n * 0x10000) * 64 + 0) / 64 = _; omega
  rw [tileFault_first h, get_laneFault_halt hk, get_put (hs.put _ _) (Nat.le_of_ble_eq_true rfl)]; rfl

theorem get_err_tileFault {s : State} (hs : s.Rising) (n c i : Nat) : (s.tileFault n c i).get (Reg.HDR.BLK_STAT.ERR (lanePg n)) = 1 := by
  have hr : (s.laneRecord n i).Rising := by unfold laneRecord; split; exacts [hs, hs.put _ _]
  unfold tileFault
  rw [get_faultHalt_tile (by rw [lanePg_eq]; show _ ≤ (0x1002000 + n * 0x10000 + 0x10) * 64 + 2; omega), get_err_setErr]
  split; exacts [hr.put _ _, hr]

/-! Illegal slots. -/

/-- ILLEGAL_OP is recorded and nothing is computed (R81). -/
theorem illegalOp_recorded {s : State} {n : TileId} (hs : s.canonical = true) (h : s.laneHeld n.val = false) :
    (s.illegalOp n.val).get (Reg.LANE.LANE_FAULT.CAUSE n.val) = 0xB ∧ (s.illegalOp n.val).get (Reg.HDR.BLK_STAT.ERR (lanePg n.val)) = 1
      ∧ (s.illegalOp n.val).tiles = s.tiles ∧ (s.illegalOp n.val).mem = s.mem :=
  ⟨get_cause_tileFault (canonical_regs hs) h _ _, get_err_tileFault (canonical_regs hs) _ _ _, tileFault_tiles .., tileFault_mem ..⟩

/-- Settles O16: each form takes the branch of the operation that records ILLEGAL_OP. -/
theorem vectorIllegalForms : Obligations.VectorIllegalForms := by
  unfold Obligations.VectorIllegalForms
  refine ⟨?vmul, ?vfma, ?vrcp, ?vscan, ?vcmp, ?vsel, ?vdive⟩
  case vmul => exact fun s _ _ _ _ _ hs hd h => slot_completes hd (illegalOp_recorded hs h)
  case vfma => exact fun s _ _ _ _ _ _ hs hd h => slot_completes hd (illegalOp_recorded hs h)
  case vrcp => exact fun s _ _ _ _ hs hd h => slot_completes hd (illegalOp_recorded hs h)
  case vscan => exact fun s _ _ _ _ hs hd h => slot_completes hd (illegalOp_recorded hs h)
  case vcmp => exact fun s _ _ _ _ _ _ hs hd h => slot_completes hd (illegalOp_recorded hs h)
  case vsel => exact fun s _ _ _ _ _ hs hd h => slot_completes hd (illegalOp_recorded hs h)
  case vdive => exact fun s _ _ _ _ _ _ hs hd h => slot_completes hd (illegalOp_recorded hs h)

end Sys2Proof.Machine
end

section
/-! Claims that fail at a corner: stores over a byte that memory lists twice (O11, O15), a result of another tile that falls due in the same period (O12), a fabric that nothing holds ON
after a load has failed (O2). -/
namespace Sys2Proof.Machine
open State Claims

/-- The bytes that a command leaves at the start of tile 0's store. -/
def bytesAfter (len : Nat) (r : Res) : List Byte :=
  match r with
  | .next t => t.bytes (State.own 0 0) len
  | _ => []

/-- Tile 0 is ON, and byte 0 of its store is listed twice, as the canonical form forbids. -/
def byteListedTwice : State :=
  { State.reset with power := { State.reset.power with dom := [(0, .on), (323, .waking), (324, .on)] }, mem := [(0, 1), (0, 2)] }

/-- A stored 0 takes the first entry out and the second shows: s0 at address 0, and lanes 0 to 15 of v0. -/
theorem bytesAfter_sd_byteListedTwice : bytesAfter 8 (exec (.sd 0 0 0 0) byteListedTwice) = [2, 0, 0, 0, 0, 0, 0, 0] := by decide

theorem bytesAfter_vst_byteListedTwice : bytesAfter 4 (exec (.vst 0 .fp32 0 0 0 0) byteListedTwice) = [2, 0, 0, 0] := by decide

theorem not_sdStores : ¬ sdStores := by
  intro h
  obtain ⟨t, ht, hbytes, -⟩ := h byteListedTwice 0 0 0 0 (by decide) (by decide) (by decide) (by decide) (by decide) (by decide) (by decide)
  have htwo := bytesAfter_sd_byteListedTwice
  rw [ht] at htwo
  exact absurd (hbytes.symm.trans htwo) (by decide)

/-- Refutes O11 in SD's claim: it has no premise that the state is canonical, and where memory lists a byte twice a stored 0 does not read back. -/
theorem not_scalarMemoryResults : ¬ Obligations.ScalarMemoryResults := by
  unfold Obligations.ScalarMemoryResults
  rintro ⟨-, -, -, hsd, -⟩
  exact not_sdStores hsd

theorem not_vstStores : ¬ vstStores := by
  intro h
  obtain ⟨t, ht, hbytes, -⟩ := h byteListedTwice 0 .fp32 0 0 0 0 (by decide) (by decide) (by decide) (by decide) (by decide) (by decide) (by decide)
  have htwo := bytesAfter_vst_byteListedTwice
  rw [ht] at htwo
  exact absurd ((hbytes 0 (by decide)).symm.trans htwo) (by decide)

/-- Refutes O15 in VST's claim, in the same state as O11. -/
theorem not_vectorMemoryAndQuantiser : ¬ Obligations.VectorMemoryAndQuantiser := by
  unfold Obligations.VectorMemoryAndQuantiser
  rintro ⟨-, hvst, -⟩
  exact not_vstStores hvst

/-! A launch period lands the results of every tile. -/

/-- The memory that a command leaves. -/
def memAfter (r : Res) : List Host.Cell :=
  match r with
  | .next t => t.mem
  | _ => []

/-- The West fabric and tile 1 are ON; in the period to come s1 of tile 0 takes 5, and tile 1 stores a byte. -/
def storeFallsDue : State :=
  { ((State.reset.put (Reg.POWER.DOM_EN.EN 10) 7).put Reg.POWER.VOTE_FAB_W.VOTE 1) with
    power := { State.reset.power with dom := [(1, .on), (320, .on), (323, .waking), (324, .on)] }
    tiles := [(0, { Tile.reset with due := [⟨2, 0, .sreg 1 5⟩] }), (1, { Tile.reset with due := [⟨2, 0, .store 0 [1]⟩] })] }

theorem memAfter_launchWord_storeFallsDue : memAfter (exec .launchWord storeFallsDue) = [(0x400000, 1)] := by decide

theorem not_dueResultLands : ¬ dueResultLands := by
  intro h
  obtain ⟨t, ht, -, -, -, -, hmem⟩ := h storeFallsDue 0 1 0 5 (by decide) (by decide) (by decide) (by decide) (by decide) (by decide) (by decide) (by decide) (by decide) (by decide)
  have hone := memAfter_launchWord_storeFallsDue
  rw [ht] at hone
  exact absurd (hmem.symm.trans hone) (by decide)

/-- Refutes O12 in its claim about LAUNCH_WORD: it says that memory is unchanged, but in the same period a store of another tile's OUT can fall due. -/
theorem not_scalarMovesAndMarks : ¬ Obligations.ScalarMovesAndMarks := by
  unfold Obligations.ScalarMovesAndMarks
  rintro ⟨-, -, -, -, -, hdue⟩
  exact not_dueResultLands hdue

/-! A load keeps its fabric ON (R448). -/

/-- The reason that a command leaves in the ISSUE page. -/
def issueReasonAfter (r : Res) : Nat :=
  match r with
  | .next t => t.get (Reg.HDR.BLK_REASON.CODE pgISSUE)
  | _ => 0

/-- A load is in progress, an enable check of the ISSUE page runs, and only the load's DEP vote keeps the West fabric ON. -/
def loadHoldsFabric : State :=
  { (State.reset.put Reg.ISSUE.LOAD_CTRL.LOAD 1) with
    checking := [(pgISSUE, .host)]
    power := { State.reset.power with dom := [(320, .on), (323, .waking), (324, .on)] }
    issue := { State.reset.issue with job := some ⟨0, ⟨0, 0, 1, 0, 0, false, 16⟩, [], 0⟩ } }

/-- The load fails, the fabric drops, and the drop refuses the enable check with DOMAIN_OFF. -/
theorem issueReasonAfter_loadTimeout_loadHoldsFabric : issueReasonAfter (exec .loadTimeout loadHoldsFabric) = rcDomOff := by decide +kernel

theorem not_loadTimesOut : ¬ loadTimesOut := by
  intro h
  obtain ⟨t, ht, -, -, -, -, -, hreason, -⟩ := h loadHoldsFabric ⟨0, ⟨0, 0, 1, 0, 0, false, 16⟩, [], 0⟩ (by decide) rfl
  have hoff := issueReasonAfter_loadTimeout_loadHoldsFabric
  rw [ht] at hoff
  exact absurd (hreason.symm.trans hoff) (by decide)

/-- Refutes O2 in LOAD_TIMEOUT's claim: nothing in it keeps the fabric ON once the load's own vote is gone, and the drop writes the ISSUE page's reason again. -/
theorem not_streamControlCompletes : ¬ Obligations.StreamControlCompletes := by
  unfold Obligations.StreamControlCompletes
  rintro ⟨-, -, -, htmo, -⟩
  exact not_loadTimesOut htmo

end Sys2Proof.Machine
end

section
/-! Loops and waits of the stream (O3). -/
namespace Sys2Proof.Machine
open State Claims

/-! The loop rule (R83). -/

/-- No entry of a stack waits for its start bundle: LSTART at the stack's level pushes. -/
theorem loopEnter_push {st : List LoopEntry} {lvl i : Nat} (c : Nat) (hl : st.length = lvl) (h4 : lvl < 4) (ha : st.all (fun e => !e.again) = true) :
    loopEnter st lvl c i = some (⟨i, c, c == 0, false⟩ :: st) := by
  cases st with
  | nil => exact if_neg (by simp at hl; omega)
  | cons e t =>
    have he : e.again = false := by simp only [List.all_cons, Bool.and_eq_true, Bool.not_eq_true'] at ha; exact ha.1
    have hno : ¬ (lvl ≠ (e :: t).length ∨ 4 ≤ (e :: t).length) := by omega
    simp only [loopEnter, he, Bool.false_eq_true, if_false, if_neg hno]

/-- The last iteration of a counted loop leaves it. -/
theorem loopLeave_last {e : LoopEntry} {t : List LoopEntry} {lvl i : Nat} {exit : Bool} (hl : lvl + 1 = (e :: t).length) (hf : e.flag = false) (hr : e.remaining ≤ 1) :
    loopLeave (e :: t) lvl i exit = some (true, t, i + 1) := by
  unfold loopLeave
  simp [hl, hf, hr]

/-- An earlier iteration of a counted loop goes back to its start. -/
theorem loopLeave_repeat {e : LoopEntry} {t : List LoopEntry} {lvl i : Nat} {exit : Bool} (hl : lvl + 1 = (e :: t).length) (hf : e.flag = false) (hr : 1 < e.remaining) :
    loopLeave (e :: t) lvl i exit = some (false, { e with remaining := e.remaining - 1, again := true } :: t, e.start) := by
  unfold loopLeave
  simp [hl, hf, Nat.not_le.2 hr]

theorem loopOp_issue {s : State} {l : Lop} {st : List LoopEntry} {out : Option Bool} {next : Nat} (h : loopStep s.issue.loops l s.issue.next s.issue.exit = some (st, out, next)) :
    s.loopOp none l = s.modIssue fun x => { x with loops := st, next := if out.isSome then next % 16384 else x.next } := by
  unfold loopOp; rw [h]

theorem lstart_pushes : lstartPushes := fun s lvl count _ hl ha =>
  ⟨_, congrArg Host.Outcome.next (loopOp_issue (by rw [loopStep, loopEnter_push count.toNat hl lvl.isLt ha]; rfl)), rfl, rfl⟩

theorem lend_leaves : lendLeaves := fun s lvl e tl _ hs hl hf hr =>
  ⟨_, congrArg Host.Outcome.next (loopOp_issue (by rw [loopStep, hs, loopLeave_last (hs ▸ hl) hf hr]; rfl)), rfl, rfl⟩

theorem lend_repeats : lendRepeats := fun s lvl e tl _ hs hl hf hr =>
  ⟨_, congrArg Host.Outcome.next (loopOp_issue (by rw [loopStep, hs, loopLeave_repeat (hs ▸ hl) hf hr]; rfl)), rfl, rfl⟩

theorem lone_repeats : loneRepeats := fun s lvl count _ hl ha hc => by
  have hflag : (count.toNat == 0) = false := beq_eq_false_iff_ne.2 (by omega)
  have hstep : loopStep s.issue.loops (.lone lvl.val count.toNat) s.issue.next s.issue.exit
      = some (⟨s.issue.next, count.toNat - 1, false, true⟩ :: s.issue.loops, some false, s.issue.next) := by
    rw [loopStep, loopEnter_push count.toNat hl lvl.isLt ha, Option.bind_some, loopLeave_repeat (by simp [hl]) hflag hc, hflag]; rfl
  exact ⟨_, congrArg Host.Outcome.next (loopOp_issue hstep), rfl, rfl⟩

theorem lone_once : loneOnce := fun s lvl _ hl ha =>
  ⟨_, congrArg Host.Outcome.next (loopOp_issue (by
    rw [loopStep, loopEnter_push _ hl lvl.isLt ha, Option.bind_some, loopLeave_last (by simp [hl]) rfl (Nat.le_of_ble_eq_true rfl)]; rfl)), rfl, rfl⟩

theorem setLoops_tile (s : State) (n m : Nat) (st : List LoopEntry) : (s.setLoops n st).tile m = (s.modTile n fun t => { t with loops := st }).tile m := rfl

theorem lstart_pushes_tile : lstartPushesTile := fun s n lvl count hs hd hg hl ha => by
  have hgo : s.laneGo n.val = none := by unfold laneGo; rw [hg]; rfl
  have hat : s.loopAt n.val = (s.laneIndex n.val, false) := by unfold loopAt; rw [hgo]
  have hstep : s.loopOp (some n) (.lstart lvl.val count.toNat) = s.setLoops n.val (⟨s.laneIndex n.val, count.toNat, count.toNat == 0, false⟩ :: (s.tile n.val).loops) := by
    unfold loopOp
    simp only [hd, hat, loopStep, loopEnter_push count.toNat hl lvl.isLt ha]
    rfl
  refine ⟨_, congrArg Host.Outcome.next hstep, ?_, ?_, ?_, fun m hm => ?_⟩
  · rw [setLoops_tile, tile_modTile_same (canonical_tiles hs)]
  · unfold setLoops
    rw [get_put (Rising.modTile (canonical_regs hs) _ _) (Nat.le_of_ble_eq_true rfl), List.length_cons, hl]
    exact Nat.mod_eq_of_lt (by have := lvl.isLt; show _ < 2 ^ 3; omega)
  · exact (onlyFields_put_self (s.modTile n.val _) _ _).1
  · rw [setLoops_tile, tile_modTile_ne hm]

/-! A WAIT begins (R85). -/

theorem issue_modIssue (s : State) (f : IssueS → IssueS) : (s.modIssue f).issue = f s.issue := rfl

/-- A WAIT bundle of the running stream: WAITING, with the condition to be tested, and no GO until it holds. -/
theorem waitBundle_waits {s : State} (hs : s.Rising) (hrun : s.stream = stRunning) (hstep : s.issue.stepping = false) (hend : s.issue.ending = none) (cond arg : Nat) :
    ∃ t, (.next (s.waitBundle cond arg) : Res) = .next t ∧ t.stream = stWaiting
      ∧ t.issue = { s.issue with wait := some ⟨s.lastIndex, cond, arg, true, 0⟩, noGo := true } ∧ t.get Reg.ISSUE.RUN_STAT.WAITING = 1
      ∧ s.SameFields [Reg.ISSUE.RUN_STAT.STATE, Reg.ISSUE.RUN_STAT.WAITING] t := by
  have he : s.waitBundle cond arg
      = ((s.modIssue fun i => { i with wait := some ⟨s.lastIndex, cond, arg, true, 0⟩, noGo := true }).put Reg.ISSUE.RUN_STAT.STATE stWaiting).put Reg.ISSUE.RUN_STAT.WAITING 1 := by
    unfold waitBundle armWait
    rw [if_pos hrun]
    simp only [hrun, ne_eq, not_true, if_false, issue_modIssue, hstep, hend, Bool.false_eq_true, Option.isSome_none]
    rfl
  have hm := hs.modIssue fun i => { i with wait := some ⟨s.lastIndex, cond, arg, true, 0⟩, noGo := true }
  refine ⟨_, rfl, ?_, ?_, ?_, fun g hg => ?_⟩ <;> rw [he]
  · unfold stream
    rw [get_put_ne (by decide), get_put hm (by decide)]; rfl
  · rfl
  · rw [get_put (hm.put _ _) (by decide)]; rfl
  · simp only [List.map_cons, List.map_nil, List.mem_cons, List.not_mem_nil, or_false, not_or] at hg
    rw [get_put_ne hg.2, get_put_ne hg.1]; rfl

/-! A test of the WAIT (R86, R87). -/

/-- The period counts as a waiting one: WAIT_CYC alone changes. -/
theorem get_waitCycle_ne {s : State} {g : Field} (h : g.key ≠ Reg.ISSUE.WAIT_CYC.CNT.key) : s.waitCycle.get g = s.get g := get_put_ne h _

theorem State.Rising.waitCycle {s : State} (hs : s.Rising) : s.waitCycle.Rising := hs.put _ _

/-- Nothing stops the test of this period, and its condition holds. -/
theorem waitSatisfied_eq {s : State} {w : WaitRec} (hst : s.stream = stWaiting) (hw : s.issue.wait = some w) (hend : s.issue.ending = none) (hstop : s.issue.stopReq = false)
    (hhalt : s.issue.haltReq = false) (hc : s.condHolds w.cond w.arg w.tested = true) :
    execWaitSatisfied s = .next ((s.waitCycle.waitOver w).setStream stRunning) := by
  unfold execWaitSatisfied
  rw [hw]
  simp only [hst, hend, hstop, hhalt, hc]
  rfl

theorem wait_satisfied_runs : waitSatisfiedRuns := fun s w hs hst hw hend hstop hhalt hcond hflag => by
  have hr : s.waitCycle.Rising := Rising.waitCycle (canonical_regs hs)
  have hc : s.condHolds w.cond w.arg w.tested = true := by rw [hcond]; exact hflag
  have htake : s.waitCycle.condTake w.cond w.arg = s.waitCycle := by rw [hcond]; rfl
  refine ⟨_, waitSatisfied_eq hst hw hend hstop hhalt hc, ?_, ?_, ?_, ?_, ?_⟩ <;> unfold waitOver setStream <;> rw [htake]
  · unfold stream
    rw [get_put (Rising.modIssue (hr.put _ _) _) (by decide)]; rfl
  · rfl
  · rw [get_put_ne (by decide), modIssue_get, get_put hr (by decide)]; rfl
  · rw [get_put_ne (by decide), modIssue_get, get_put_ne (by decide), get_waitCycle_ne (by decide)]
  · rw [get_put_ne (by decide), modIssue_get, get_put_ne (by decide)]
    unfold waitCycle add counted
    rw [get_put (canonical_regs hs) (by decide), low, Nat.mod_eq_of_lt (by show min _ (2 ^ 64 - 1) < 2 ^ 64; omega)]

theorem wait_doorbell_is_taken : waitDoorbellIsTaken := fun s w hs hst hw hend hstop hhalt hcond hbit => by
  have hr : s.waitCycle.Rising := Rising.waitCycle (canonical_regs hs)
  have hc : s.condHolds w.cond w.arg w.tested = true := by rw [hcond]; exact hbit
  have htake : s.waitCycle.condTake w.cond w.arg
      = s.waitCycle.put Reg.ISSUE.DBELL.BELL (setBit (s.waitCycle.get Reg.ISSUE.DBELL.BELL) (w.arg % 32) false) := by rw [hcond]; rfl
  refine ⟨_, waitSatisfied_eq hst hw hend hstop hhalt hc, ?_, fun b hb => ?_⟩ <;> unfold waitOver setStream <;> rw [htake]
  · unfold stream
    rw [get_put (Rising.modIssue ((hr.put _ _).put _ _) _) (by decide)]; rfl
  · rw [get_put_ne (by decide), modIssue_get, get_put_ne (by decide), testBit_get_put_setBit hr (by decide) (List.mem_range.1 hb), get_waitCycle_ne (by decide)]
    by_cases h : b = w.arg % 32 <;> simp [h]

/-- What a fault halt records of an active stream. -/
theorem get_halt_faultHalt {s : State} (hs : s.Rising) (ha : s.streamActive = true) (c i : Nat) (t : Option Nat) :
    (s.faultHalt c i t).get Reg.ISSUE.HALT_CAUSE.CAUSE = low 4 c ∧ (s.faultHalt c i t).get Reg.ISSUE.HALT_CAUSE.INDEX = low 14 i := by
  unfold faultHalt; rw [if_pos ha]
  unfold setStream setHalt
  constructor
  · rw [get_cause_outside (by decide), modIssue_get, get_put_ne (by decide), get_put_ne (by decide), get_put_ne (by decide), get_put_ne (by decide), get_put_ne (by decide),
      get_put hs (by decide)]; rfl
  · rw [get_cause_outside (by decide), modIssue_get, get_put_ne (by decide), get_put_ne (by decide), get_put_ne (by decide), get_put_ne (by decide), get_put (hs.put _ _) (by decide)]; rfl

theorem wait_times_out : waitTimesOut := fun s w hs hst hw hend hstop hhalt hcond hflag htmo hle => by
  have hr : s.waitCycle.Rising := Rising.waitCycle (canonical_regs hs)
  have hc : s.condHolds w.cond w.arg w.tested = false := by rw [hcond]; exact hflag
  have hx : s.waitExpired w = true := by unfold waitExpired; simp [htmo, hle]
  have ha : s.waitCycle.streamActive = true := by
    unfold streamActive stream; rw [get_waitCycle_ne (by decide)]; unfold stream at hst; rw [hst]; rfl
  have he : execWaitTimeout s = .next (s.waitCycle.faultHalt 6 w.index none) := by
    unfold execWaitTimeout
    rw [hw]
    simp only [hst, hend, hstop, hhalt, hc, hx]
    rfl
  obtain ⟨hcause, hindex⟩ := get_halt_faultHalt hr ha 6 w.index none
  refine ⟨_, he, stream_faultHalt hr ha _ _ _, hcause, hindex, ?_⟩
  unfold faultHalt; rw [if_pos ha, cause_issue]; rfl

/-- Settles O3: the loop rule by its cases, and each test of a WAIT by what it writes of RUN_STAT, HALT_CAUSE and the doorbells. -/
theorem loopsAndWaitsComplete : Obligations.LoopsAndWaitsComplete := by
  unfold Obligations.LoopsAndWaitsComplete
  refine ⟨lstart_pushes, lstart_pushes_tile, lend_leaves, lend_repeats, lone_repeats, lone_once, ?barrier, ?mover, ?drain, ?timer, ?doorbell, ?flagSet, ?flagClr, ?tracked, ?cycles,
    wait_satisfied_runs, wait_doorbell_is_taken, wait_times_out⟩
  case barrier | mover | doorbell | flagSet | flagClr | cycles => exact fun _ _ hs hrun hstep hend => waitBundle_waits (canonical_regs hs) hrun hstep hend _ _
  case drain | timer | tracked => exact fun _ hs hrun hstep hend => waitBundle_waits (canonical_regs hs) hrun hstep hend _ _

end Sys2Proof.Machine
end

section
/-! The scalar registers of a tile (O53), and claims that fail in states which their premises admit: a byte that memory lists twice (O20), a READY field that holds more than its one bit (O36). -/
namespace Sys2Proof.Machine
open State Claims

/-! Scalar registers (R121): what is read after a write. -/

@[simp] theorem sreg_zero (s : State) (n : Nat) : s.sreg n 0 = 0 := rfl

@[simp] theorem setSreg_zero (s : State) (n v : Nat) : s.setSreg n 0 v = s := rfl

theorem setSreg_of_ne {r : Nat} (hr : r ≠ 0) (s : State) (n v : Nat) :
    s.setSreg n r v = s.modTile n fun t => { t with sregs := setAt 0 r (BitVec.ofNat 64 v) t.sregs } := if_neg hr

theorem sreg_of_ne {r : Nat} (hr : r ≠ 0) (s : State) (n : Nat) : s.sreg n r = (getAt 0 r (s.tile n).sregs).toNat := if_neg hr

theorem sreg_congr {s t : State} {m : Nat} (q : Nat) (h : t.tile m = s.tile m) : t.sreg m q = s.sreg m q := by unfold sreg; rw [h]

theorem sreg_setSreg_same {s : State} (hs : s.canonical = true) {r : Nat} (hr : r ≠ 0) (n v : Nat) : (s.setSreg n r v).sreg n r = v % 2 ^ 64 := by
  obtain ⟨hsregs, -, -⟩ := Tile.canonical_parts (tile_canonical hs n)
  rw [sreg_of_ne hr, setSreg_of_ne hr, tile_modTile_same (canonical_tiles hs), getAt_setAt_same 0 r _ hsregs, BitVec.toNat_ofNat]

theorem sreg_setSreg_ne {s : State} (hs : s.canonical = true) {n m r q : Nat} (h : m ≠ n ∨ q ≠ r) (v : Nat) : (s.setSreg n r v).sreg m q = s.sreg m q := by
  by_cases hr : r = 0
  · rw [hr, setSreg_zero]
  rw [setSreg_of_ne hr]
  by_cases hm : m = n
  · have hq : q ≠ r := h.resolve_left fun hne => hne hm
    unfold sreg
    rw [hm, tile_modTile_same (canonical_tiles hs), getAt_setAt_ne 0 hq]
  · exact sreg_congr q (tile_modTile_ne hm _)

/-- Settles O53: register 0 is no entry of a tile's list, and the other registers are, under rising keys. -/
theorem scalarZeroRegister : Obligations.ScalarZeroRegister := by
  unfold Obligations.ScalarZeroRegister
  exact fun s n r v hs => ⟨sreg_zero s n, setSreg_zero s n v, fun hr => sreg_setSreg_same hs hr n v, fun _ _ h => sreg_setSreg_ne hs h v⟩

/-! A write of a request over a byte that memory lists twice. -/

/-- A write of one 0 from tile 66 to the store of tile 3 (R241). -/
def zeroWrite : Pkt := { op := 1, src := 130, smod := 0, tag := 7, cls := 3, epoch := false, dmod := 0, addr := 0xC00108, size := 1, data := [0], mcast := none }

/-- The write is on its way, and its byte of the store is listed twice, as the canonical form forbids. -/
def targetListedTwice : State := { upState with net := { NetS.reset with out := [zeroWrite] }, mem := [(0xC00108, 1), (0xC00108, 2)] }

/-- The byte that a command leaves at the address of the write. -/
def targetAfter (r : Res) : List Byte :=
  match r with
  | .next t => t.bytes zeroWrite.addr.toNat zeroWrite.size
  | _ => []

/-- The stored 0 takes the first entry out and the second shows. -/
theorem targetAfter_wr_targetListedTwice : targetAfter (exec (.wr zeroWrite noLuck) targetListedTwice) = [2] := by decide

theorem not_writeServed : ¬ writeServed := by
  intro h
  obtain ⟨t, ht, -, hbytes, -⟩ := h targetListedTwice zeroWrite 3 (by decide) (by decide) (by decide)
  have htwo := targetAfter_wr_targetListedTwice
  rw [ht] at htwo
  exact absurd (hbytes.symm.trans htwo) (by decide)

/-- Refutes O20 in WR's claim: it has no premise that the state is canonical, and where memory lists a byte twice a stored 0 does not read back. -/
theorem not_fabricAccessesServed : ¬ Obligations.FabricAccessesServed := by
  unfold Obligations.FabricAccessesServed
  rintro ⟨-, hwrite, -⟩
  exact not_writeServed hwrite

/-! A domain comes ON over a READY field that holds 2. -/

/-- Tile 5 holds the host's vote and is waking, both fabrics are ON. READY of the tile's page 0 holds 2: one bit cannot, but the canonical form does not look at the widths of fields. -/
def readyTooWide : State :=
  { ((upState.put (Reg.HDR.BLK_VOTE.VOTE (tilePg 5 0)) 1).put { Reg.HDR.BLK_STAT.READY (tilePg 5 0) with width := 2 } 2) with
    power := { upState.power with dom := [(5, .waking), (320, .on), (321, .on)] } }

/-- The value of READY that a command leaves in page 0 of tile 5. -/
def readyAfter (r : Res) : Nat :=
  match r with
  | .next t => t.get (Reg.HDR.BLK_STAT.READY (tilePg 5 0))
  | _ => 0

/-- `setReady` finds READY other than 0 and leaves it. -/
theorem readyAfter_domainOn_readyTooWide : readyAfter (exec (.domainOn 5) readyTooWide) = 2 := by decide

theorem not_tileComesOn : ¬ tileComesOn := by
  intro h
  obtain ⟨t, ht, -, hready, -⟩ := h readyTooWide 5 (by decide) (by decide) (by decide) (by decide) (by decide) (by decide) (by decide)
  have htwo := readyAfter_domainOn_readyTooWide
  have hone : t.get (Reg.HDR.BLK_STAT.READY (tilePg 5 0)) = 1 := hready 0 (by decide)
  rw [show exec (.domainOn 5) readyTooWide = .next t from ht] at htwo
  exact absurd (hone.symm.trans htwo) (by decide)

/-- Refutes O36 in DOMAIN_ON's claim: it says that READY reads 1, but no premise bounds what READY held before, and a value other than 0 stays. -/
theorem not_powerDomainsComplete : ¬ Obligations.PowerDomainsComplete := by
  unfold Obligations.PowerDomainsComplete
  rintro ⟨hon, -⟩
  exact not_tileComesOn hon

end Sys2Proof.Machine
end

section
/-! OUT reads a row of the accumulator that is not there (O17). -/
namespace Sys2Proof.Machine
open State Claims

/-- Tile 3 is set up for an OUT of one BF16 group by descriptor 2, whose ACC_BASE holds 512. Nine bits cannot, but the canonical form does not look at the widths of fields. -/
def accBaseTooWide : State :=
  ((upState.put (Reg.HDR.BLK_CTRL.EN (tilePg 3 5)) 1).put (Reg.QUANT.CH_CFG.FMT 3 0) 7).put { Reg.ARRAY.DESC_W6.ACC_BASE 3 2 with width := 10 } 512

/-- The results that are on their way in tile 3 after a command. -/
def duesAfter (r : Res) : List Due :=
  match r with
  | .next t => (t.tile 3).due
  | _ => []

/-- The accumulator's last row is 511: OUT records the fault of a range (R164) and reads nothing. -/
theorem duesAfter_out_accBaseTooWide : duesAfter (exec (.out 3 2 0) accBaseTooWide) = [] := by decide

theorem not_outDrainsGroups : ¬ outDrainsGroups := by
  intro h
  obtain ⟨t, ht, hdues, -⟩ := h accBaseTooWide 3 2 (by decide) (by decide) (by decide) (by decide) (by decide) (by decide) (by decide) (by decide) (by decide) (by decide)
  have hnone : (t.tile 3).due = [] := by
    have e := duesAfter_out_accBaseTooWide
    rwa [ht] at e
  have hnew : newDues accBaseTooWide t 3 = [] := (congrArg (List.drop _) hnone).trans List.drop_nil
  rw [hnew] at hdues
  exact absurd hdues (by decide)

/-- Refutes O17 in OUT's claim: unlike those of MAC and CLR it has no premise that the rows lie in the accumulator, and with ACC_BASE above 511 OUT faults and stores nothing. -/
theorem not_matrixArrayAndScale : ¬ Obligations.MatrixArrayAndScale := by
  unfold Obligations.MatrixArrayAndScale
  rintro ⟨-, -, -, -, -, -, hout, -⟩
  exact not_outDrainsGroups hout

end Sys2Proof.Machine
end

section
/-! Steps start (O5): what the start of a step writes, and what holds one. -/
namespace Sys2Proof.Machine
open State Claims

/-! The stream contexts, which a new INGEST opens, stand apart from what the step controller reads. -/

/-- From s to t the step record, memory, the tiles and every field below the pages of the stream contexts stay. -/
structure SctxOnly (s t : State) : Prop where
  step : t.step = s.step
  mem : t.mem = s.mem
  tiles : t.tiles = s.tiles
  get : ∀ f : Field, f.key < 0x82000 * 64 → t.get f = s.get f

theorem SctxOnly.refl (s : State) : SctxOnly s s := ⟨rfl, rfl, rfl, fun _ _ => rfl⟩

theorem SctxOnly.trans {s t u : State} (h : SctxOnly s t) (k : SctxOnly t u) : SctxOnly s u :=
  ⟨k.step.trans h.step, k.mem.trans h.mem, k.tiles.trans h.tiles, fun f hf => (k.get f hf).trans (h.get f hf)⟩

theorem SctxOnly.modCtx {s t : State} (h : SctxOnly s t) (c : Nat) (f : CtxS → CtxS) : SctxOnly s (t.modCtx c f) := h.trans ⟨rfl, rfl, rfl, fun _ _ => rfl⟩

theorem SctxOnly.put {s t : State} (h : SctxOnly s t) {g : Field} (hg : 0x82000 * 64 ≤ g.key) (v : Nat) : SctxOnly s (t.put g v) :=
  h.trans ⟨rfl, rfl, rfl, fun f hf => get_put_ne (by omega) v⟩

theorem SctxOnly.cause {s t : State} (h : SctxOnly s t) (k b : Nat) : SctxOnly s (t.cause (sctxPg k) b) :=
  h.trans ⟨cause_step .., cause_mem .., cause_tiles .., fun f hf => get_cause_outside (by unfold sctxPg; omega)⟩

theorem SctxOnly.freeSlot {s t : State} (h : SctxOnly s t) (c : Nat) : SctxOnly s (t.freeSlot c) :=
  (h.modCtx c _).put (by show _ ≤ (0x82254 + c / 32 * 0x1000 + c % 32 * 0x60) * 64 + 16; omega) _

theorem SctxOnly.staleCounted {s t : State} (h : SctxOnly s t) (c : Nat) : SctxOnly s (t.ctxCount (Reg.SCTX.CTX_W18.STALE_CNT (c / 32) (c % 32)) c 1) := by
  have hadd : SctxOnly s (t.add (Reg.SCTX.CTX_W18.STALE_CNT (c / 32) (c % 32)) 1) :=
    h.put (by show _ ≤ (0x82248 + c / 32 * 0x1000 + c % 32 * 0x60) * 64 + 0; omega) _
  unfold ctxCount
  simp only
  split
  · exact hadd
  · exact (hadd.put (by show _ ≤ (0x82040 + c / 32 * 0x1000) * 64 + 0; omega) _).cause _ _

theorem SctxOnly.freeStaleOf {s t : State} (h : SctxOnly s t) (c : Nat) : SctxOnly s (t.freeStaleOf c) := by
  unfold State.freeStaleOf
  refine foldl_keeps (P := fun acc : Bool × State => SctxOnly s acc.2) (fun acc e hacc => ?_) h _
  split
  · exact (hacc.freeSlot c).staleCounted c
  · exact hacc

theorem SctxOnly.openIngest {s t : State} (h : SctxOnly s t) : SctxOnly s t.openIngest := by
  unfold State.openIngest State.freeStale
  exact foldl_keeps (fun _ x hu => hu.freeStaleOf x.1) (foldl_keeps (fun _ c hu => hu.modCtx c _) h _) _

/-! The start of a step. -/

/-- The step record of a step that starts (R192 to R194). -/
def stepStarted (s : State) (learn : Bool) : StepS where
  mask := s.tileMask
  paced := s.flag Reg.STEP.STEP_CFG.PACED
  bgrp := s.get Reg.STEP.STEP_CFG.BGRP
  wait := members s.tileMask 256
  learn := learn
  pend := none
  ran := if s.step.pend.isSome then s.step.ran else s.step.ran + 1
  bound := if s.flag Reg.STEP.STEP_CFG.PACED then some false else none
  late := false
  start := s.cclkW
  ended := false
  tokenWait := false

/-- From s to t a step has started: INGEST has been sent to the masked tiles, and below the pages of the stream contexts no other field changes. -/
structure StepStarted (s t : State) (learn : Bool) : Prop where
  phase : t.phase = 1
  step : t.step = stepStarted s learn
  mem : t.mem = s.mem
  tiles : t.tiles = s.tiles
  get : ∀ f : Field, f.key < 0x82000 * 64 → f.key ≠ Reg.STEP.STEP_STAT.PHASE.key → t.get f = s.get f

theorem phase_sendPhase {s : State} (hs : s.Rising) {p : Nat} (hp : p < 8) : (s.sendPhase p).phase = p := (get_put (f := Reg.STEP.STEP_STAT.PHASE) hs (by decide) p).trans (Nat.mod_eq_of_lt hp)

@[simp] theorem modStep_mem (s : State) (f : StepS → StepS) : (s.modStep f).mem = s.mem := rfl
@[simp] theorem modStep_tiles (s : State) (f : StepS → StepS) : (s.modStep f).tiles = s.tiles := rfl
@[simp] theorem modStep_get (s : State) (f : StepS → StepS) (g : Field) : (s.modStep f).get g = s.get g := rfl

@[simp] theorem sendPhase_mem (s : State) (p : Nat) : (s.sendPhase p).mem = s.mem := rfl
@[simp] theorem sendPhase_tiles (s : State) (p : Nat) : (s.sendPhase p).tiles = s.tiles := rfl
@[simp] theorem sendPhase_step (s : State) (p : Nat) : (s.sendPhase p).step = { s.step with wait := members s.step.mask 256 } := rfl

theorem get_sendPhase {s : State} {p : Nat} {f : Field} (h : f.key ≠ Reg.STEP.STEP_STAT.PHASE.key) : (s.sendPhase p).get f = s.get f := get_put_ne h p

/-- The state in which a step has started and the gates of INGEST are not yet open. -/
def stepOpened (s : State) (learn : Bool) : State := s.modStep fun t => { stepStarted s learn with wait := t.wait }

theorem startStep_onTime {s : State} (learn : Bool) (hlate : (s.flag Reg.STEP.STEP_CFG.PACED && (s.step.late || s.step.tokenWait)) = false) :
    s.startStep learn = (stepOpened s learn).openIngest.sendPhase 1 := by
  unfold startStep
  simp only [hlate, Bool.false_eq_true, if_false]
  refine congrArg (fun u : State => u.openIngest.sendPhase 1) ?_
  cases hp : s.step.pend <;> simp [modStep, hp, stepOpened, stepStarted]

/-- INGEST is sent in a state that differs from the one opened in the stream contexts alone. -/
theorem StepStarted.of_opened {s t : State} {learn : Bool} (hr : t.Rising) (h : SctxOnly (stepOpened s learn) t) : StepStarted s (t.sendPhase 1) learn where
  phase := phase_sendPhase hr (by decide)
  step := by rw [sendPhase_step, h.step]; rfl
  mem := by rw [sendPhase_mem, h.mem]; exact modStep_mem ..
  tiles := by rw [sendPhase_tiles, h.tiles]; exact modStep_tiles ..
  get f hf hne := by rw [get_sendPhase hne, h.get f hf]; exact modStep_get ..

/-- A step that is not late starts (R192, R194). -/
theorem startStep_started {s : State} (hs : s.canonical = true) (learn : Bool) (hlate : (s.flag Reg.STEP.STEP_CFG.PACED && (s.step.late || s.step.tokenWait)) = false) :
    StepStarted s (s.startStep learn) learn := by
  have hopen : Keeps s (stepOpened s learn).openIngest := ((Keeps.refl s).modStep).openIngest
  rw [startStep_onTime learn hlate]
  exact .of_opened (canonical_regs (hopen.1 hs)) (SctxOnly.refl _).openIngest

/-- A commanded step starts when nothing holds it: no step is in progress, the grid, the tiles and the tokens permit it (R194, R199, R330). -/
theorem tryStart_starts {s : State} {l : Bool} (hen : s.isEnabled pgSTEP = true) (hidle : s.stepActive = false) (hdue : s.stepDue = some l)
    (hgrid : (s.flag Reg.STEP.STEP_CFG.PACED && s.step.bound == some false) = false) (hready : s.stepReady = true) (htok : s.tokensOk = true) : s.tryStart = s.startStep l := by
  unfold tryStart
  simp [hen, hidle, hdue, hgrid, hready, htok]

/-- A step that waits for its boundary stays as it is (R194). -/
theorem tryStart_waits {s : State} {l : Bool} (hen : s.isEnabled pgSTEP = true) (hidle : s.stepActive = false) (hdue : s.stepDue = some l)
    (hgrid : (s.flag Reg.STEP.STEP_CFG.PACED && s.step.bound == some false) = true) : s.tryStart = s := by
  unfold tryStart
  simp [hen, hidle, hdue, hgrid]

/-- A commanded step whose tiles are not all there is refused (R199). -/
theorem tryStart_refused {s : State} {l : Bool} (hen : s.isEnabled pgSTEP = true) (hidle : s.stepActive = false) (hdue : s.stepDue = some l)
    (hgrid : (s.flag Reg.STEP.STEP_CFG.PACED && s.step.bound == some false) = false) (hready : s.stepReady = false) :
    s.tryStart = (((s.put Reg.STEP.STEP_STAT.RUN 0).modStep fun t => { t with pend := none, tokenWait := false }).reason pgSTEP rcDep 0x050).causeErr pgSTEP 9 := by
  unfold tryStart
  simp [hen, hidle, hdue, hgrid, hready]

/-- While a step is in progress no other one starts. -/
theorem tryStart_active {s : State} (h : s.stepActive = true) : s.tryStart = s := by
  unfold tryStart
  simp [h]

theorem flag_of_get_eq_zero {s : State} {f : Field} (h : s.get f = 0) : s.flag f = false := by simp [flag, h]
theorem flag_of_get_ne_zero {s : State} {f : Field} (h : s.get f ≠ 0) : s.flag f = true := by simp [flag, h]

/-! The commands of O5. -/

/-- A write of STEP_CTRL by the bridge has its effect at once. -/
theorem stepCtrl_write (w : Nat) {s t : State} {f : State → Res} (ha : s.answers .bridge (pgSTEP + 0x50) = true) (hf : f s = .next t) :
    s.rowWrite .bridge (pgSTEP + 0x50) w f = .next t := rowWrite_answers rfl ha (by decide) hf

/-- The state in which ONE or ONE_LEARN has been commanded. -/
def stepPending (s : State) (learn : Bool) : State := { s with step := { s.step with pend := some learn } }

theorem stepOne_free {s : State} (hen : s.isEnabled pgSTEP = true) (hpend : s.step.pend = none) (learn : Bool) : s.stepOne learn = (stepPending s learn).tryStart := by
  unfold stepOne
  simp only [hen, hpend, Bool.not_true, Bool.false_eq_true, if_false, Option.isSome_none]
  rfl

/-- What ONE and ONE_LEARN do with nothing in their way (R192, R193). -/
theorem stepOne_started {s : State} (hs : s.canonical = true) (hen : s.isEnabled pgSTEP = true) (hidle : s.stepActive = false) (hpend : s.step.pend = none)
    (hpaced : s.get Reg.STEP.STEP_CFG.PACED = 0) (hready : s.stepReady = true) (htok : s.tokensOk = true) (learn : Bool) :
    (s.stepOne learn).phase = 1 ∧ (s.stepOne learn).step.mask = s.tileMask ∧ (s.stepOne learn).step.wait = members s.tileMask 256 ∧ (s.stepOne learn).step.learn = learn
      ∧ (s.stepOne learn).step.pend = none ∧ (s.stepOne learn).stepCnt = s.stepCnt ∧ (s.stepOne learn).mem = s.mem ∧ (s.stepOne learn).tiles = s.tiles := by
  have hflag : (stepPending s learn).flag Reg.STEP.STEP_CFG.PACED = false := flag_of_get_eq_zero (s := s) hpaced
  have h : StepStarted (stepPending s learn) (s.stepOne learn) learn := by
    rw [stepOne_free hen hpend, tryStart_starts (s := stepPending s learn) (l := learn) hen hidle rfl (by rw [hflag]; rfl) hready htok]
    exact startStep_started (s := stepPending s learn) hs learn (by rw [hflag]; rfl)
  have hcnt := h.get Reg.STEP.STEP_CNT.CNT (by decide) (by decide)
  rw [h.step]
  exact ⟨h.phase, rfl, rfl, rfl, rfl, hcnt, h.mem, h.tiles⟩

theorem one_startsAStep : oneStartsAStep := fun s hs ha hen hidle hpend hpaced hready htok =>
  ⟨s.stepOne false, stepCtrl_write 1 ha rfl, stepOne_started hs hen hidle hpend hpaced hready htok false⟩

theorem oneLearn_startsAStep : oneLearnStartsAStep := fun s hs ha hen hidle hpend hpaced hready htok =>
  ⟨s.stepOne true, stepCtrl_write 2 ha rfl, stepOne_started hs hen hidle hpend hpaced hready htok true⟩

theorem one_waitsAtTheGrid : oneWaitsAtTheGrid := fun s _ ha hen hidle hpend hpaced hbound => by
  have hgrid : ((stepPending s false).flag Reg.STEP.STEP_CFG.PACED && (stepPending s false).step.bound == some false) = true := by
    rw [flag_of_get_ne_zero (s := stepPending s false) hpaced, show (stepPending s false).step.bound = some false from hbound]; rfl
  have ht : s.stepOne false = stepPending s false := by
    rw [stepOne_free hen hpend, tryStart_waits (s := stepPending s false) (l := false) hen hidle rfl hgrid]
  exact ⟨stepPending s false, stepCtrl_write 1 ha (congrArg Host.Outcome.next ht), rfl, rfl⟩

theorem second_commandCounted : secondCommandCounted := fun s hs ha hen hpend => by
  have ht : s.stepOne false = (s.bump Reg.STEP.CMD_OVR_CNT.CNT).cause pgSTEP 8 := by unfold stepOne; simp [hen, hpend]
  refine ⟨_, stepCtrl_write 1 ha (congrArg Host.Outcome.next ht), ?_, onlyNotices_cause (onlyNotices_put onlyNotices_refl _ (by decide)) (by decide)⟩
  rw [get_cause_outside (by decide), get_bump (canonical_regs hs) (by decide)]

/-- What a refused step leaves (R199). -/
def stepRefused (s : State) : State := (((s.put Reg.STEP.STEP_STAT.RUN 0).modStep fun t => { t with pend := none, tokenWait := false }).reason pgSTEP rcDep 0x050).causeErr pgSTEP 9

/-- Of the STEP page a refused step writes RUN and, in the header, BLK_STAT, BLK_IRQ_STAT and BLK_REASON. -/
theorem get_stepRefused {s : State} {f : Field} (h : 0x7020 * 64 ≤ f.key) (hrun : f.key ≠ Reg.STEP.STEP_STAT.RUN.key) : (stepRefused s).get f = s.get f := by
  have hlow : ∀ k, k < 0x7020 * 64 → f.key ≠ k := fun k hk => by omega
  have hpg : pgSTEP = 0x7000 := rfl
  unfold stepRefused reason
  rw [get_causeErr_outside (by omega) (by omega), get_put_ne (hlow _ (by decide)), get_put_ne (hlow _ (by decide))]
  exact get_put_ne hrun 0

theorem run_stepRefused {s : State} (hs : s.Rising) : (stepRefused s).get Reg.STEP.STEP_STAT.RUN = 0 := by
  unfold stepRefused reason
  rw [get_causeErr_outside (by decide) (by decide), get_put_ne (by decide), get_put_ne (by decide)]
  exact get_put hs (by decide) 0

theorem code_stepRefused {s : State} (hs : s.Rising) : (stepRefused s).get (Reg.HDR.BLK_REASON.CODE pgSTEP) = rcDep := by
  have hr : ((s.put Reg.STEP.STEP_STAT.RUN 0).modStep fun t => { t with pend := none, tokenWait := false }).Rising := hs.put Reg.STEP.STEP_STAT.RUN 0
  unfold stepRefused reason
  rw [get_causeErr_outside (by decide) (by decide), get_put_ne (by decide), get_put hr (by decide)]
  rfl

theorem err_stepRefused {s : State} (hs : s.Rising) : (stepRefused s).get (Reg.HDR.BLK_STAT.ERR pgSTEP) = 1 := by
  have hr : ((s.put Reg.STEP.STEP_STAT.RUN 0).modStep fun t => { t with pend := none, tokenWait := false }).Rising := hs.put Reg.STEP.STEP_STAT.RUN 0
  exact get_err_causeErr (hr.reason _ _ _) _ _

theorem pend_stepRefused (s : State) : (stepRefused s).step.pend = none := by
  unfold stepRefused
  rw [causeErr_step]
  rfl

theorem refused_withoutTiles : refusedWithoutTiles := fun s hs ha hen hidle hpend hpaced hready => by
  let u := stepPending s false
  have hr : u.Rising := canonical_regs (s := s) hs
  have hphase : s.phase = 0 := by unfold stepActive at hidle; exact bne_eq_false_iff_eq.1 hidle
  have hgrid : (u.flag Reg.STEP.STEP_CFG.PACED && u.step.bound == some false) = false := by
    rw [flag_of_get_eq_zero (s := u) hpaced]; rfl
  have ht : s.stepOne false = stepRefused u := (stepOne_free hen hpend false).trans (tryStart_refused (s := u) (l := false) hen hidle rfl hgrid hready)
  exact ⟨stepRefused u, stepCtrl_write 1 ha (congrArg Host.Outcome.next ht), (get_stepRefused (s := u) (by decide) (by decide)).trans hphase, pend_stepRefused u, run_stepRefused hr,
    code_stepRefused hr, err_stepRefused hr, get_stepRefused (s := u) (by decide) (by decide)⟩

/-! RUN: continuous running. -/

/-- The state in which continuous running has begun. -/
def stepRunning (s : State) : State := { s.put Reg.STEP.STEP_STAT.RUN 1 with step := { s.step with ran := 0 } }

theorem get_stepRunning {s : State} {f : Field} (h : f.key ≠ Reg.STEP.STEP_STAT.RUN.key) : (stepRunning s).get f = s.get f := get_put_ne h 1

theorem tileMask_stepRunning (s : State) : (stepRunning s).tileMask = s.tileMask := by
  have hget : ∀ w, (stepRunning s).get (Reg.STEP.TILE_MASK.TILES w) = s.get (Reg.STEP.TILE_MASK.TILES w) := fun w =>
    get_stepRunning (by show (0x70A0 + w * 4) * 64 + 0 ≠ 0x7054 * 64 + 6; omega)
  unfold tileMask
  simp only [hget]

theorem stepReady_stepRunning (s : State) : (stepRunning s).stepReady = s.stepReady := by
  have hready : ∀ n i, (stepRunning s).isReady (tilePg n i) = s.isReady (tilePg n i) := fun n i => by
    unfold isReady flag
    rw [get_stepRunning (by show (tilePg n i + 0x10) * 64 + 0 ≠ 0x7054 * 64 + 6; omega)]
  have hen : ∀ n i, (stepRunning s).isEnabled (tilePg n i) = s.isEnabled (tilePg n i) := fun n i => by
    unfold isEnabled flag
    rw [get_stepRunning (by show (tilePg n i + 0xC) * 64 + 0 ≠ 0x7054 * 64 + 6; omega)]
  have hdom : ∀ n, (stepRunning s).domOn n = s.domOn n := fun _ => rfl
  unfold stepReady pgEVENT pgNEURON pgEGRESS
  simp only [tileMask_stepRunning, hready, hen, hdom, List.all_cons, List.all_nil]

theorem tokensOk_stepRunning (s : State) : (stepRunning s).tokensOk = s.tokensOk := by
  have hen : (stepRunning s).flag (Reg.FL.XSYNC_CFG.EN 0) = s.flag (Reg.FL.XSYNC_CFG.EN 0) := by unfold flag; rw [get_stepRunning (by decide)]
  have hcnt : (stepRunning s).stepCnt = s.stepCnt := get_stepRunning (by decide)
  have hlook : (stepRunning s).get (Reg.FL.XSYNC_CFG.LOOKAHEAD 0) = s.get (Reg.FL.XSYNC_CFG.LOOKAHEAD 0) := get_stepRunning (by decide)
  have htok : (stepRunning s).tokens = s.tokens := rfl
  unfold tokensOk
  rw [hen, hcnt, hlook, htok]

theorem run_starts : runStarts := fun s hs ha hen hidle hpend hrun hpaced hevery hready htok => by
  let u := stepRunning s
  have hu : u.canonical = true := (keeps_put s Reg.STEP.STEP_STAT.RUN 1).1 hs
  have hget : u.get Reg.STEP.STEP_STAT.RUN = 1 := get_put (canonical_regs hs) (by decide) 1
  have hpaced' : u.flag Reg.STEP.STEP_CFG.PACED = false := flag_of_get_eq_zero ((get_stepRunning (by decide)).trans hpaced)
  have hen' : u.isEnabled pgSTEP = true := by unfold isEnabled flag at hen ⊢; rw [get_stepRunning (by decide)]; exact hen
  have hidle' : u.stepActive = false := by unfold stepActive at hidle ⊢; rw [get_stepRunning (by decide)]; exact hidle
  have hdue : u.stepDue = some false := by
    have hp : u.step.pend = none := hpend
    have he : u.get Reg.STEP.STEP_CFG.LEARN_EVERY = 0 := (get_stepRunning (by decide)).trans hevery
    unfold stepDue
    simp [hp, flag_of_get_ne_zero (show u.get Reg.STEP.STEP_STAT.RUN ≠ 0 by rw [hget]; decide), he]
  have ht : s.stepRun = u.startStep false := by
    have hbegin : s.stepRun = u.tryStart := by
      unfold stepRun
      simp only [hen, flag_of_get_eq_zero hrun, Bool.not_true, Bool.false_eq_true, if_false]
      rfl
    rw [hbegin]
    exact tryStart_starts hen' hidle' hdue (by rw [hpaced']; rfl) ((stepReady_stepRunning s).trans hready) ((tokensOk_stepRunning s).trans htok)
  have h : StepStarted u (u.startStep false) false := startStep_started hu false (by rw [hpaced']; rfl)
  have hstep := h.step
  refine ⟨u.startStep false, stepCtrl_write 4 ha (congrArg Host.Outcome.next ht), (h.get _ (by decide) (by decide)).trans hget, h.phase, ?ran, by rw [hstep]; rfl, ?wait⟩
  case ran =>
    rw [hstep]
    show (if u.step.pend.isSome then u.step.ran else u.step.ran + 1) = 1
    rw [show u.step.pend = none from hpend]
    rfl
  case wait => rw [hstep]; exact congrArg (members · 256) (tileMask_stepRunning s)

theorem halt_endsRunning : haltEndsRunning := fun s hs ha =>
  ⟨s.put Reg.STEP.STEP_STAT.RUN 0, stepCtrl_write 8 ha rfl, get_put (canonical_regs hs) (by decide) 0, onlyFields_put_self ..⟩

/-! STEP_BOUNDARY. -/

/-- The state in which the boundary has been reached. -/
def boundaryPassed (s : State) : State := { s with step := { s.step with bound := some true } }

theorem execStepBoundary_reached {s : State} (hbound : s.step.bound = some false) (hstream : s.stream ≠ stHalted) :
    exec .stepBoundary s = .next (boundaryPassed s).tryStart := if_pos ⟨hbound, hstream⟩

theorem boundary_reached : boundaryReached := fun s _ hbound hstream hactive =>
  ⟨boundaryPassed s, (execStepBoundary_reached hbound hstream).trans (congrArg Host.Outcome.next (tryStart_active (s := boundaryPassed s) hactive)), rfl, rfl⟩

theorem boundary_startsStep : boundaryStartsStep := fun s hs hbound hstream hen hidle hpend hlate htoken hready htok => by
  let u := boundaryPassed s
  have hdue : u.stepDue = some true := by
    have hp : u.step.pend = some true := hpend
    unfold stepDue; rw [hp]
  have hgrid : (u.flag Reg.STEP.STEP_CFG.PACED && u.step.bound == some false) = false := Bool.and_false _
  have honTime : (u.flag Reg.STEP.STEP_CFG.PACED && (u.step.late || u.step.tokenWait)) = false := by
    rw [show u.step.late = false from hlate, show u.step.tokenWait = false from htoken]; exact Bool.and_false _
  have h : StepStarted u (u.startStep true) true := startStep_started (s := u) hs true honTime
  have hstep := h.step
  refine ⟨u.startStep true, (execStepBoundary_reached hbound hstream).trans
    (congrArg Host.Outcome.next (tryStart_starts (s := u) hen hidle hdue hgrid hready htok)), h.phase, by rw [hstep]; rfl, ?_, h.get _ (by decide) (by decide)⟩
  rw [hstep]
  show (if u.flag Reg.STEP.STEP_CFG.PACED then some false else none) = _
  unfold flag
  simp only [bne_iff_ne]
  rfl

/-- Settles O5: a commanded step is held by the grid, the tiles or a step in progress, and one that nothing holds starts; what it writes beside the step record belongs to the stream contexts. -/
theorem stepsStart : Obligations.StepsStart := by
  unfold Obligations.StepsStart
  exact ⟨one_startsAStep, oneLearn_startsAStep, one_waitsAtTheGrid, second_commandCounted, refused_withoutTiles, run_starts, halt_endsRunning, boundary_reached, boundary_startsStep⟩

end Sys2Proof.Machine
end

section
/-! Claims that fail in states which their premises admit: a step number that is listed twice (O6), an injector's ring in a half that stands still (O7), a row that the learning-rule engine
holds (O8). -/
namespace Sys2Proof.Machine
open State Claims

/-! A readout copy lands over a step number that is listed twice. -/

/-- A copy of group 2 is under way in tile 3, whose list of the steps that closed the groups' windows names group 2 twice: the canonical form does not look at that list. -/
def windowListedTwice : State := upState.modTile 3 fun x => { x with evt := { x.evt with copies := [(2, 64, [1, 2])], roStep := [(2, 5), (2, 7)] } }

/-- The step that a command leaves for the window of group 2 in tile 3. -/
def windowStepAfter (r : Res) : Nat :=
  match r with
  | .next t => getAt 0 2 (t.evt 3).roStep
  | _ => 0

/-- In step 0 the first entry is taken out and the second shows. -/
theorem windowStepAfter_readoutCopyEnd_windowListedTwice : windowStepAfter (exec (.readoutCopyEnd 3) windowListedTwice) = 7 := by decide

theorem not_readoutCopyLands : ¬ readoutCopyLands := by
  intro h
  obtain ⟨t, ht, -, -, hstep, -⟩ := h windowListedTwice 3 2 64 [1, 2] [] (by decide) (by decide) (by decide)
  have hseven := windowStepAfter_readoutCopyEnd_windowListedTwice
  rw [ht] at hseven
  exact absurd (hstep.symm.trans hseven) (by decide)

/-- Refutes O6 in its claim about READOUT_COPY_END: no premise keeps the list of the windows' steps in order, and where it names a group twice the number 0 of a first step does not read back. -/
theorem not_stepPhasesComplete : ¬ Obligations.StepPhasesComplete := by
  unfold Obligations.StepPhasesComplete
  rintro ⟨-, -, hcopy, -⟩
  exact not_readoutCopyLands hcopy

/-! The injector's ring lies in a half that does not run (R273). -/

/-- INGEST is in progress, and the ring of the injector, in the store of tile 130, holds a descriptor of one event, whose payload stands at address 0. The East half is GATED. -/
def ringStandsStill : State :=
  { (((upState.put Reg.STEP.STEP_STAT.PHASE 1).put Reg.STEP.INJ_RING.ADDR 0x20800000).put Reg.STEP.INJ_HEAD.IDX 1).put Reg.CLOCK.HALF_CFG.EAST 2 with mem := [(0x2080000A, 1)] }

/-- The events that are on their way after a command. -/
def eventsAfter (r : Res) : List EvtFlight :=
  match r with
  | .next t => t.net.evts
  | _ => []

/-- The read of the descriptor waits in the cuff, and the injector with it. -/
theorem eventsAfter_injectEvent_ringStandsStill : eventsAfter (exec (.injectEvent none) ringStandsStill) = [] := by decide

theorem not_injectsEvent : ¬ injectsEvent := by
  intro h
  obtain ⟨t, ht, hevts, -⟩ := h ringStandsStill ⟨0, 1, 0, false, 0⟩ 0 (by decide) (by decide) (by decide) (by decide) (by decide) (by decide) (by decide) (by decide) (by decide) (by decide)
    (by decide) (by decide) (by decide) (by decide)
  have hnone := eventsAfter_injectEvent_ringStandsStill
  rw [ht] at hnone
  exact absurd (hevts.symm.trans hnone) (by decide)

/-- Refutes O7 in its claim about INJECT_EVENT: it has no premise that both halves run, and an injector whose ring lies in a half that is GATED waits at the cuff and sends nothing. -/
theorem not_lateStepsAndInjection : ¬ Obligations.LateStepsAndInjection := by
  unfold Obligations.LateStepsAndInjection
  rintro ⟨-, -, -, -, -, hinject, -⟩
  exact not_injectsEvent hinject

/-! The learning-rule engine holds the row of the group at the head (R228). -/

/-- The row of one 8-bit weight at offset 64 of tile 3's store. -/
def heldRow : Row := ⟨64, 1, 8, false, false, scaleValue 0 0x7F, 2, 0, false, false⟩

/-- Tile 3's running event engine has an event of that row at the head of its FIFO, and the learning-rule engine's lock slot holds the row. -/
def rowHeldByLearning : State :=
  { ((((((((upState.put (Reg.HDR.BLK_CTRL.EN (State.pgEVENT 3)) 1).put (Reg.EVENT.EVT_STAT.STATE 3) 1).put (Reg.SYNAPSE.ROW_COUNT.COUNT 3) 4).put (Reg.NEURON.N_CFG.N_M1 3) 9).put
      (Reg.NEURON.N_CFG.NB 3) 1).put (Reg.NEURON.WORLD.W_COUNT 3) 1).put (Reg.NEURON.STATE_LINE.LINE 3) 16).modTile 3 fun x => { x with evt := { x.evt with fifo := [0x60], elock := some 64 } }) with
    mem := [(0xC00000, 64), (0xC00003, 128), (0xC00040, 1), (0xC00042, 7), (0xC00044, 127), (0xC00046, 2), (0xC00048, 5)] }

/-- The FIFO of tile 3 after a command. -/
def fifoAfter (r : Res) : List Word64 :=
  match r with
  | .next t => (t.evt 3).fifo
  | _ => []

/-- The group waits for the row. -/
theorem fifoAfter_eventGroup_rowHeldByLearning : fifoAfter (exec (.eventGroup 3 0) rowHeldByLearning) = [0x60] := by decide

theorem not_eventAccumulates : ¬ eventAccumulates := by
  intro h
  obtain ⟨t, ht, -, hfifo, -⟩ := h rowHeldByLearning 3 0 1056 0x60 heldRow 5 (by decide) (by decide) (by decide) (by decide) (by decide) (by decide) (by decide) (by decide) (by decide)
    (by decide) (by decide) (by decide) (by decide) (by decide) (by decide) (by decide) (by decide) (by decide) (by decide) (by decide) (by decide) (by decide)
  have hwaits := fifoAfter_eventGroup_rowHeldByLearning
  rw [ht] at hwaits
  exact absurd (hfifo.symm.trans hwaits) (by decide)

/-- Refutes O8 in its claim about an EVENT_GROUP that accumulates: its premises exclude the host lock of the row and not the learning-rule engine's, under which the group waits. -/
theorem not_eventsAndNeuronsComplete : ¬ Obligations.EventsAndNeuronsComplete := by
  unfold Obligations.EventsAndNeuronsComplete
  rintro ⟨-, -, -, -, -, -, haccumulate, -⟩
  exact not_eventAccumulates haccumulate

end Sys2Proof.Machine
end

section
/-! A claim that fails in a state which its premises admit: the event engine reads the row that an apply comes to (O24). -/
namespace Sys2Proof.Machine
open State Claims

/-- Tile 3's apply is at row 2, over rows 2 to 5. -/
def applyAtRow2 : ApplyJob := ⟨256, [], [(0, 0, 1)], [], 2, 5, 1, false, 5⟩

/-- Row 2 of tile 3's store: one 8-bit weight at offset 64, with its learning block. -/
def rowOfOneWeight : Row := ⟨64, 1, 8, false, false, scaleValue 0 0x7F, 2, 0, true, false⟩

/-- The apply has come to row 2, nobody holds the row's lock, and the event engine's fetch tag names the row (R227). A group sets and clears the tag within its own command, but the canonical form does not look at it. -/
def rowBeingRead : State :=
  { ((((upState.put (Reg.HDR.BLK_CTRL.EN (pgLEARN 3)) 1).put (Reg.SYNAPSE.ROW_COUNT.COUNT 3) 9).put (Reg.NEURON.N_CFG.N_M1 3) 9).modTile 3
      fun x => { x with evt := { x.evt with apply := some applyAtRow2, fetch := some rowOfOneWeight.hofs } }) with
    mem := [(0xC00008, 64), (0xC0000B, 128), (0xC00040, 1), (0xC00042, 7), (0xC00043, 1), (0xC00044, 127), (0xC00046, 2), (0xC00080, 5)] }

/-- The rows that tile 3's engine has counted as done after a command. -/
def rowsDoneAfter (r : Res) : Nat :=
  match r with
  | .next t => t.get (Reg.LEARN.ROWS_DONE.CNT 3)
  | _ => 0

/-- The sweep passes over a row that is being read. -/
theorem rowsDoneAfter_rowUpdate_rowBeingRead : rowsDoneAfter (exec (.rowUpdate 3 none) rowBeingRead) = 0 := by decide

theorem not_rowUpdated : ¬ rowUpdated := by
  intro h
  obtain ⟨t, ht, -, -, hdone, -⟩ := h rowBeingRead 3 applyAtRow2 rowOfOneWeight 5 (by decide) (by decide) (by decide) (by decide) (by decide) (by decide) (by decide) (by decide) (by decide)
    (by decide) (by decide) (by decide) (by decide) (by decide) (by decide) (by decide) (by decide) (by decide) (by decide) (by decide) (by decide) (by decide) (by decide) (by decide)
  have hnone := rowsDoneAfter_rowUpdate_rowBeingRead
  rw [ht] at hnone
  exact absurd (hdone.symm.trans hnone) (by decide)

/-- Refutes O24 in its claim about ROW_UPDATE: its premises exclude the host lock of the row and not the fetch tag of the event engine (R228, R230), under which the sweep passes over the row
and counts nothing. -/
theorem not_learningComplete : ¬ Obligations.LearningComplete := by
  unfold Obligations.LearningComplete
  rintro ⟨-, -, -, -, hrow, -⟩
  exact not_rowUpdated hrow

end Sys2Proof.Machine
end

section
/-! A B-net header and its 128 bits (O59). -/
namespace Sys2Proof.Machine

theorem low_of_lt {w n : Nat} (h : n < 2 ^ w) : low w n = n := Nat.mod_eq_of_lt h

theorem bits_lt (n hi lo : Nat) : bits n hi lo < 2 ^ (hi + 1 - lo) := Nat.mod_lt _ (Nat.two_pow_pos _)

/-- A header's fields lie in their widths (R240). -/
def Hdr.inWidths (h : Hdr) : Prop :=
  h.addr < 2 ^ 48 ∧ h.tag < 2 ^ 12 ∧ h.sizeM1 < 2 ^ 12 ∧ h.opc < 2 ^ 4 ∧ h.status < 2 ^ 4 ∧ h.dmod < 2 ^ 12 ∧ h.smod < 2 ^ 12 ∧ h.ep < 2 ^ 9 ∧ h.aux < 2 ^ 15

/-- Packing cuts nothing off fields that lie in their widths. -/
theorem Hdr.pack_of_inWidths {h : Hdr} (hw : h.inWidths) :
    h.pack = h.addr * 2 ^ 80 + h.tag * 2 ^ 68 + h.sizeM1 * 2 ^ 56 + h.opc * 2 ^ 52 + h.status * 2 ^ 48 + h.dmod * 2 ^ 36 + h.smod * 2 ^ 24 + h.ep * 2 ^ 15 + h.aux := by
  obtain ⟨haddr, htag, hsize, hopc, hstatus, hdmod, hsmod, hep, haux⟩ := hw
  unfold Hdr.pack
  rw [low_of_lt haddr, low_of_lt htag, low_of_lt hsize, low_of_lt hopc, low_of_lt hstatus, low_of_lt hdmod, low_of_lt hsmod, low_of_lt hep, low_of_lt haux]

theorem Hdr.pack_lt {h : Hdr} (hw : h.inWidths) : h.pack < 2 ^ 128 := by
  rw [Hdr.pack_of_inWidths hw]
  unfold Hdr.inWidths at hw
  omega

theorem Hdr.unpack_pack {h : Hdr} (hw : h.inWidths) : Hdr.unpack h.pack = h := by
  rw [Hdr.pack_of_inWidths hw]
  unfold Hdr.inWidths at hw
  cases h
  simp only [Hdr.unpack, bits_eq, Hdr.mk.injEq] at hw ⊢
  omega

theorem Hdr.inWidths_unpack (n : Nat) : (Hdr.unpack n).inWidths :=
  ⟨bits_lt .., bits_lt .., bits_lt .., bits_lt .., bits_lt .., bits_lt .., bits_lt .., bits_lt .., bits_lt ..⟩

/-- The nine fields lie side by side from bit 0 to bit 127. -/
theorem Hdr.pack_unpack {n : Nat} (hn : n < 2 ^ 128) : (Hdr.unpack n).pack = n := by
  rw [Hdr.pack_of_inWidths (Hdr.inWidths_unpack n)]
  simp only [Hdr.unpack, bits_eq]
  omega

/-- Settles O59: nothing is cut off a field within its width, and the nine fields fill the 128 bits side by side. -/
theorem headersRoundTrip : Obligations.HeadersRoundTrip := by
  unfold Obligations.HeadersRoundTrip
  refine ⟨fun h haddr htag hsize hopc hstatus hdmod hsmod hep haux => ?_, fun n hn => Hdr.pack_unpack hn⟩
  have hw : h.inWidths := ⟨haddr, htag, hsize, hopc, hstatus, hdmod, hsmod, hep, haux⟩
  exact ⟨Hdr.pack_lt hw, Hdr.unpack_pack hw⟩

end Sys2Proof.Machine
end

section
/-! Claims that fail in states which their premises admit: a completion from an endpoint number that no endpoint has (O21), a request that the cuff holds for the West half (O22). -/
namespace Sys2Proof.Machine
open State Claims

/-! A completion whose source is no endpoint. -/

/-- Tile 0's read with tag 7 of 8 bytes in the store of tile 3. -/
def readOfTile3 : Pkt := { op := 0, src := 0, smod := 0, tag := 7, cls := 3, epoch := false, dmod := 0, addr := 0xC00108, size := 8, data := [], mcast := none }

/-- The load to register 5 that waits for it. -/
def loadToS5 : Tracked := ⟨false, some 5, 2, 1, none, 7, 0, [], none⟩

/-- Its data, from the 9-bit number 400, at which B-net has no endpoint (R237). -/
def dataFromNowhere : Rsp := ⟨0, 7, 400, false, 0, [1, 2, 3, 4, 5, 6, 7, 8], none, false, false, none⟩

/-- The read has been performed, and its completion is on its way; the LPDDR6 domain is OFF. -/
def completionFromNowhere : State :=
  State.modTile { upState with power := { upState.power with dom := [(0, .on), (3, .on), (320, .on), (321, .on), (323, .on)] },
                                 net := { NetS.reset with out := [readOfTile3], past := [(0, 7)], rsps := [dataFromNowhere] } } 0 fun x => { x with tracked := [loadToS5] }

/-- The completions on their way after a command. -/
def rspsAfter (r : Res) : List Rsp :=
  match r with
  | .next t => t.net.rsps
  | _ => []

/-- The number 400 counts as a third half's, whose fabric would be domain 322, the LPDDR6 domain: while that is OFF the completion stays where it is. -/
theorem rspsAfter_rdrsp_completionFromNowhere : rspsAfter (exec (.rdrsp readOfTile3.src readOfTile3.tag noLuck) completionFromNowhere) = [dataFromNowhere] := by decide

theorem not_readDataArrives : ¬ readDataArrives := by
  intro h
  obtain ⟨t, ht, -, hrsps, -⟩ := h completionFromNowhere readOfTile3 dataFromNowhere 0 loadToS5 5 (by decide) (by decide) (by decide) (by decide) (by decide) (by decide) (by decide) (by decide)
    (by decide) (by decide) (by decide) (by decide) (by decide) (by decide) (by decide) (by decide) (by decide) (by decide) (by decide) (by decide)
  have hwaits := rspsAfter_rdrsp_completionFromNowhere
  rw [ht] at hwaits
  exact absurd (hrsps.symm.trans hwaits) (by decide)

/-- Refutes O21 in RDRSP's claim: no premise says that the completion comes from one of B-net's 384 endpoints, and from a number beyond them it does not cross to its requester. -/
theorem not_responsesAndFencesComplete : ¬ Obligations.ResponsesAndFencesComplete := by
  unfold Obligations.ResponsesAndFencesComplete
  rintro ⟨hread, -⟩
  exact not_readDataArrives hread

/-! The cuff's answer comes from the side on which the request waits (R273). -/

/-- Tile 130's read with tag 7 of 8 bytes in the store of tile 3. -/
def readFromEast : Pkt := { op := 0, src := 194, smod := 0, tag := 7, cls := 3, epoch := false, dmod := 0, addr := 0xC00108, size := 8, data := [], mcast := none }

/-- The West half is GATED, and the cuff holds the read on the East side. -/
def heldForWest : State := { (upState.put Reg.CLOCK.HALF_CFG.WEST 2) with net := { NetS.reset with out := [readFromEast], cuff := [(0, 6, .req readFromEast)] } }

/-- The answer comes from endpoint 192, the first of the East half. -/
theorem rspsAfter_cuffTimeout_heldForWest : rspsAfter (exec (.cuffTimeout 0) heldForWest) = [⟨194, 7, 192, false, 3, [], none, false, true, none⟩] := by decide

theorem not_cuffExpires : ¬ cuffExpires := by
  intro h
  obtain ⟨t, ht, -, hrsps, -⟩ := h heldForWest 0 6 readFromEast (by decide) (by decide) (by decide) (by decide) (by decide)
  have heast := rspsAfter_cuffTimeout_heldForWest
  rw [ht] at heast
  exact absurd (hrsps.symm.trans heast) (by decide)

/-- Refutes O22 in CUFF_TIMEOUT's claim: it names endpoint 0 as the source of the cuff's answer for either half, and a request that was held for the West half is answered from the East side. -/
theorem not_reductionsAndCuffComplete : ¬ Obligations.ReductionsAndCuffComplete := by
  unfold Obligations.ReductionsAndCuffComplete
  rintro ⟨-, -, -, -, -, hcuff, -⟩
  exact not_cuffExpires hcuff

end Sys2Proof.Machine
end

section
/-! A claim that fails in a state that meets its premises: the tile that a RECV reads is listed twice (O18). -/
namespace Sys2Proof.Machine
open State Claims

/-- A message of one word for queue 5. -/
def waitingMessage : QMsg := ⟨5, 2, [0x77], 0x185, 9, 1, false, 0, false⟩

/-- A tile as after reset but for the message in its queue. -/
def tileOfOneMessage : Tile := { Tile.reset with queue := { QueueS.reset with msgs := [waitingMessage] } }

/-- A tile in which a load to register 5 is under way. -/
def tileOfOneLoad : Tile := { Tile.reset with tracked := [⟨false, some 5, 2, 1, none, 7, 0, [], none⟩] }

/-- Tile 3 is listed twice: RECV's claim has no premise that the state is canonical. -/
def tileListedTwice : State := { upState with tiles := [(3, tileOfOneMessage), (3, tileOfOneLoad)] }

/-- The tracked operations that a command leaves in tile 3. -/
def trackedAfter (r : Res) : Nat :=
  match r with
  | .next t => (t.tile 3).tracked.length
  | _ => 0

/-- Without its message the first entry is a tile as after reset and is taken out, and the load of the second stands beside the two reads. -/
theorem trackedAfter_recv_tileListedTwice : trackedAfter (exec (.recv 3 10 0 5 5) tileListedTwice) = 3 := by decide

theorem not_recvReads : ¬ recvReads := by
  intro h
  obtain ⟨t, ht, htracked, -⟩ := h tileListedTwice 3 10 0 5 5 waitingMessage (by decide) (by decide) (by decide) (by decide) (by decide) (by decide)
  have hthree := trackedAfter_recv_tileListedTwice
  rw [ht] at hthree
  exact absurd ((congrArg List.length htracked).symm.trans hthree) (by decide)

/-- Refutes O18 in RECV's claim: it has no premise that tiles are listed once, and where one is listed twice the second entry shows when the RECV has emptied the first. -/
theorem not_messagesMove : ¬ Obligations.MessagesMove := by
  unfold Obligations.MessagesMove
  rintro ⟨-, -, hrecv, -⟩
  exact not_recvReads hrecv

end Sys2Proof.Machine
end

section
/-! Stalls, combining windows and host windows (O19): the rules of a tile's queue state, then each command. -/
namespace Sys2Proof.Machine
open State Claims

/-! A tile's queue state: what is read after a change of it, and what a change leaves. -/

theorem tiles_rising_modTile {s : State} (h : risingFrom 0 s.tiles = true) (n : Nat) (f : Tile → Tile) : risingFrom 0 (s.modTile n f).tiles = true := risingFrom_setAt _ _ _ h

theorem tiles_rising_modQueue {s : State} (h : risingFrom 0 s.tiles = true) (n : Nat) (f : QueueS → QueueS) : risingFrom 0 (s.modQueue n f).tiles = true := tiles_rising_modTile h n _

theorem tile_modQueue {s : State} (h : risingFrom 0 s.tiles = true) (n : Nat) (f : QueueS → QueueS) : (s.modQueue n f).tile n = { s.tile n with queue := f (s.queue n) } :=
  tile_modTile_same h n _

theorem queue_modQueue {s : State} (h : risingFrom 0 s.tiles = true) (n : Nat) (f : QueueS → QueueS) : (s.modQueue n f).queue n = f (s.queue n) :=
  congrArg Tile.queue (tile_modQueue h n f)

theorem tile_of_tiles {s t : State} (h : t.tiles = s.tiles) (n : Nat) : t.tile n = s.tile n := by unfold tile; rw [h]

theorem queue_of_tiles {s t : State} (h : t.tiles = s.tiles) (n : Nat) : t.queue n = s.queue n := congrArg Tile.queue (tile_of_tiles h n)

theorem sameTiles_of_tiles {s t : State} (h : t.tiles = s.tiles) (n : Nat) : s.SameTiles n t := fun m _ => tile_of_tiles h m

theorem State.SameTiles.modTile {s t : State} {n : Nat} (h : s.SameTiles n t) (f : Tile → Tile) : s.SameTiles n (t.modTile n f) :=
  fun m hm => (tile_modTile_ne hm f).trans (h m hm)

theorem State.SameTiles.modQueue {s t : State} {n : Nat} (h : s.SameTiles n t) (f : QueueS → QueueS) : s.SameTiles n (t.modQueue n f) := h.modTile _

theorem sameFields_put {s t : State} {fs : List Field} (h : s.SameFields fs t) {f : Field} (v : Nat) (hf : f.key ∈ fs.map (·.key)) : s.SameFields fs (t.put f v) :=
  fun g hg => (get_put_ne (fun e => hg (by rw [e]; exact hf)) v).trans (h g hg)

/-! Where the fields of a stall stand: the records and HOLD in page 12, the counts in page 13. -/

theorem key_stallA_rx (n : Nat) : (Reg.QUEUE.STALL_A.RX n).key = (0x100C048 + n * 0x10000) * 64 + 0 := rfl
theorem key_stallA_waiter (n : Nat) : (Reg.QUEUE.STALL_A.WAITER n).key = (0x100C048 + n * 0x10000) * 64 + 16 := rfl
theorem key_stallB_ownValid (n : Nat) : (Reg.QUEUE.STALL_B.OWN_VALID n).key = (0x100C04C + n * 0x10000) * 64 + 16 := rfl
theorem key_stallB_ownTx (n : Nat) : (Reg.QUEUE.STALL_B.OWN_TX n).key = (0x100C04C + n * 0x10000) * 64 + 0 := rfl
theorem key_hold (n : Nat) : (Reg.QUEUE.STALL_CTRL.HOLD n).key = (0x100C050 + n * 0x10000) * 64 + 2 := rfl
theorem key_rxStallCnt (n q : Nat) : (Reg.QUEUE2.RX_STALL_CNT.CNT n q).key = (0x100D200 + n * 0x10000 + q * 0x4) * 64 := rfl

/-! The held message leaves the MSG input (`State.unhold`). -/

theorem queue_unhold {s : State} (h : risingFrom 0 s.tiles = true) (n : Nat) : (s.unhold n).queue n = { s.queue n with held := none } :=
  queue_modQueue h n fun q => { q with held := none }

theorem hold_unhold {s : State} (h : s.Rising) (n : Nat) : (s.unhold n).get (Reg.QUEUE.STALL_CTRL.HOLD n) = 0 :=
  get_put (s := s.modQueue n _) h (Nat.le_of_ble_eq_true rfl) 0

theorem get_unhold {s : State} {n : Nat} {g : Field} (h : g.key ≠ (Reg.QUEUE.STALL_CTRL.HOLD n).key) : (s.unhold n).get g = s.get g := get_put_ne h 0

theorem sameTiles_unhold (s : State) (n : Nat) : s.SameTiles n (s.unhold n) := (sameTiles_of_tiles (s := s) rfl n).modQueue fun q => { q with held := none }

/-! A stall (R295, R296). -/

/-- A message that joins no open entry cannot be placed while its queue has no free slot. -/
theorem placeable_full {s : State} {n : Nat} {f : QFly} (hc : f.comb = false) (h : 32 ≤ s.qOcc n f.head.queue) : s.placeable n f = false := by
  unfold placeable
  rw [hc, decide_eq_false (by omega)]
  rfl

/-- The record of the first stall, which later ones leave. -/
def stallRecorded (s : State) (n : Nat) (f : QFly) : State :=
  if s.get (Reg.QUEUE.STALL_A.RX n) ≠ 0 then s
  else
    (((s.put (Reg.QUEUE.STALL_A.WAITER n) f.ch).put (Reg.QUEUE.STALL_A.RX n) (State.rxCh n f.head.queue)).put
      (Reg.QUEUE.STALL_B.OWN_VALID n) (if (s.heldElsewhere n).isSome then 1 else 0)).put (Reg.QUEUE.STALL_B.OWN_TX n) (((s.heldElsewhere n).map (State.txCh n)).getD 0)

/-- A stall recorded, counted and reported; what becomes of the message is the mode's. -/
def stallReported (s : State) (n : Nat) (f : QFly) : State :=
  ((stallRecorded s n f).bump (Reg.QUEUE2.RX_STALL_CNT.CNT n f.head.queue)).causeErr (State.pgQUEUE n) 4

theorem stallRecorded_frame (s : State) (n : Nat) (f : QFly) :
    (stallRecorded s n f).tiles = s.tiles ∧ (stallRecorded s n f).qnet = s.qnet ∧ (stallRecorded s n f).mem = s.mem := by
  unfold stallRecorded
  split <;> exact ⟨rfl, rfl, rfl⟩

theorem State.Rising.stallRecorded {s : State} (h : s.Rising) (n : Nat) (f : QFly) : (stallRecorded s n f).Rising := by
  unfold Machine.stallRecorded
  split
  · exact h
  · exact (((h.put _ _).put _ _).put _ _).put _ _

theorem get_stallRecorded {s : State} {n : Nat} {f : QFly} {g : Field} (ha : g.key / 64 ≠ 0x100C048 + n * 0x10000) (hb : g.key / 64 ≠ 0x100C04C + n * 0x10000) :
    (stallRecorded s n f).get g = s.get g := by
  unfold stallRecorded
  split
  · rfl
  · rw [get_put_ne (by rw [key_stallB_ownTx]; omega), get_put_ne (by rw [key_stallB_ownValid]; omega), get_put_ne (by rw [key_stallA_rx]; omega),
      get_put_ne (by rw [key_stallA_waiter]; omega)]

theorem stallReported_frame (s : State) (n : Nat) (f : QFly) :
    (stallReported s n f).tiles = s.tiles ∧ (stallReported s n f).qnet = s.qnet ∧ (stallReported s n f).mem = s.mem := by
  obtain ⟨htiles, hqnet, hmem⟩ := stallRecorded_frame s n f
  simp only [stallReported, causeErr_tiles, causeErr_qnet, causeErr_mem, bump_tiles, bump_qnet, bump_mem]
  exact ⟨htiles, hqnet, hmem⟩

theorem State.Rising.stallReported {s : State} (h : s.Rising) (n : Nat) (f : QFly) : (stallReported s n f).Rising := ((h.stallRecorded n f).bump _).causeErr _ _

theorem pgQUEUE_eq (n : Nat) : State.pgQUEUE n = 0x100C000 + n * 0x10000 := by unfold State.pgQUEUE tilePg; omega

/-- The report of a stall writes, up to the end of page 12, the two records and the page's BLK_STAT and BLK_IRQ_STAT. -/
theorem get_stallReported {s : State} {n : Nat} {f : QFly} {g : Field} (hpg : g.key / 64 < 0x100D000 + n * 0x10000) (ha : g.key / 64 ≠ 0x100C048 + n * 0x10000)
    (hb : g.key / 64 ≠ 0x100C04C + n * 0x10000) (hs : g.key / 64 ≠ 0x100C010 + n * 0x10000) (hi : g.key / 64 ≠ 0x100C018 + n * 0x10000) :
    (stallReported s n f).get g = s.get g := by
  have hpage := pgQUEUE_eq n
  unfold stallReported
  rw [get_causeErr_outside (by omega) (by omega), bump, add, get_put_ne (by rw [key_rxStallCnt]; omega), get_stallRecorded ha hb]

theorem hostMode_stallReported (s : State) (n : Nat) (f : QFly) : (stallReported s n f).hostMode (State.pgQUEUE n) = s.hostMode (State.pgQUEUE n) := by
  have hkey : (Reg.HDR.BLK_CTRL.MODE (State.pgQUEUE n)).key / 64 = 0x100C00C + n * 0x10000 := by
    show ((State.pgQUEUE n + 0xC) * 64 + 1) / 64 = _
    rw [pgQUEUE_eq]; omega
  unfold hostMode flag
  rw [get_stallReported (by omega) (by omega) (by omega) (by omega) (by omega)]

theorem err_stallReported {s : State} (h : s.Rising) (n : Nat) (f : QFly) : (stallReported s n f).get (Reg.HDR.BLK_STAT.ERR (State.pgQUEUE n)) = 1 :=
  get_err_causeErr ((h.stallRecorded n f).bump _) _ _

theorem count_stallReported {s : State} (h : s.Rising) (n : Nat) (f : QFly) :
    (stallReported s n f).get (Reg.QUEUE2.RX_STALL_CNT.CNT n f.head.queue) = s.counted (Reg.QUEUE2.RX_STALL_CNT.CNT n f.head.queue) 1 := by
  have hkey := key_rxStallCnt n f.head.queue
  have hpage := pgQUEUE_eq n
  unfold stallReported
  rw [get_causeErr_outside (by omega) (by omega), get_bump (h.stallRecorded n f) (Nat.le_of_ble_eq_true rfl), counted, get_stallRecorded (by omega) (by omega)]
  rfl

/-- What the report keeps of the record's first register, STALL_A. -/
theorem get_stallReported_stallA {s : State} {n : Nat} {f : QFly} {g : Field} (hg : g.key / 64 = 0x100C048 + n * 0x10000) :
    (stallReported s n f).get g = (stallRecorded s n f).get g := by
  have hpage := pgQUEUE_eq n
  unfold stallReported
  rw [get_causeErr_outside (by omega) (by omega), bump, add, get_put_ne (by rw [key_rxStallCnt]; omega)]

theorem rx_stallReported {s : State} (h : s.Rising) {n : Nat} {f : QFly} (hfree : s.get (Reg.QUEUE.STALL_A.RX n) = 0) (hn : n < 256) (hq : f.head.queue < 64) :
    (stallReported s n f).get (Reg.QUEUE.STALL_A.RX n) = State.rxCh n f.head.queue := by
  have hlt : State.rxCh n f.head.queue < 2 ^ 16 := by unfold State.rxCh; omega
  rw [get_stallReported_stallA (by rw [key_stallA_rx]; omega)]
  unfold stallRecorded
  rw [if_neg (by simp [hfree]), get_put_ne (by rw [key_stallA_rx, key_stallB_ownTx]; omega), get_put_ne (by rw [key_stallA_rx, key_stallB_ownValid]; omega),
    get_put (h.put _ _) (Nat.le_of_ble_eq_true rfl)]
  exact Nat.mod_eq_of_lt hlt

theorem waiter_stallReported {s : State} (h : s.Rising) {n : Nat} {f : QFly} (hfree : s.get (Reg.QUEUE.STALL_A.RX n) = 0) (hch : f.ch < 65536) :
    (stallReported s n f).get (Reg.QUEUE.STALL_A.WAITER n) = f.ch := by
  rw [get_stallReported_stallA (by rw [key_stallA_waiter]; omega)]
  unfold stallRecorded
  rw [if_neg (by simp [hfree]), get_put_ne (by rw [key_stallA_waiter, key_stallB_ownTx]; omega), get_put_ne (by rw [key_stallA_waiter, key_stallB_ownValid]; omega),
    get_put_ne (by rw [key_stallA_waiter, key_stallA_rx]; omega), get_put h (Nat.le_of_ble_eq_true rfl)]
  exact Nat.mod_eq_of_lt hch

/-- QSTALL of a BLOCK message whose queue has no free slot, while nothing holds the timer. -/
theorem exec_qstall {s : State} {n : TileId} {f : QFly} (hheld : (s.queue n.val).held = some f) (hcomb : f.comb = false) (hmode : f.head.mode = 0) (hfull : 32 ≤ s.qOcc n.val f.head.queue)
    (htmo : s.get (Reg.QUEUE.QSTALL_TMO.CYC n.val) ≠ 0) (hhold : s.get (Reg.QUEUE.STALL_CTRL.HOLD n.val) = 0) :
    exec (.qstall n) s = .next (if s.hostMode (State.pgQUEUE n.val) then (stallReported s n.val f).put (Reg.QUEUE.STALL_CTRL.HOLD n.val) 1
      else ((stallReported s n.val f).unhold n.val).qReply f qSTALL) := by
  have hgo : ¬ (f.head.mode ≠ 0 ∨ s.get (Reg.QUEUE.QSTALL_TMO.CYC n.val) = 0 ∨ s.flag (Reg.QUEUE.STALL_CTRL.HOLD n.val) = true) := by
    simp [hmode, htmo, flag_of_get_eq_zero hhold]
  show execQstall n s = _
  unfold execQstall
  simp only [hheld, if_neg hgo, placeable_full hcomb hfull, Bool.false_eq_true, if_false]
  rw [← hostMode_stallReported s n.val f]
  exact (apply_ite Host.Outcome.next _ _ _).symm

theorem blocked_messageStalls : blockedMessageStalls := fun s n f hs hheld hcomb _ hmode hfull htmo hhold hhw hfree hch hq => by
  have hr : s.Rising := canonical_regs hs
  obtain ⟨htiles, hqnet, hmem⟩ := stallReported_frame s n.val f
  have hrise : risingFrom 0 (stallReported s n.val f).tiles = true := htiles ▸ canonical_tiles hs
  have hpage := pgQUEUE_eq n.val
  have hstay : ∀ {g : Field}, g.key / 64 ≠ 0x100C050 + n.val * 0x10000 → (((stallReported s n.val f).unhold n.val).qReply f qSTALL).get g = (stallReported s n.val f).get g :=
    fun h => get_unhold (by rw [key_hold]; omega)
  refine ⟨_, exec_qstall hheld hcomb hmode hfull htmo hhold, ?_⟩
  rw [hhw, if_neg Bool.false_ne_true]
  refine ⟨congrArg QueueS.held (queue_unhold hrise n.val), ?rx, ?qnet, ?waiter, ?count, ?err, ?tiles, hmem⟩
  case rx => rw [hstay (by rw [key_stallA_rx]; omega)]; exact rx_stallReported hr hfree n.isLt hq
  case qnet => show QNetS.mk _ _ _ _ _ = _; rw [← hqnet]; rfl
  case waiter => rw [hstay (by rw [key_stallA_waiter]; omega)]; exact waiter_stallReported hr hfree hch
  case count => rw [hstay (by rw [key_rxStallCnt]; omega)]; exact count_stallReported hr n.val f
  case err => rw [hstay (by show ((State.pgQUEUE n.val + 0x10) * 64 + 2) / 64 ≠ _; omega)]; exact err_stallReported hr n.val f
  case tiles => exact fun m hm => (sameTiles_unhold _ n.val m hm).trans (tile_of_tiles htiles m)

theorem stall_heldForHost : stallHeldForHost := fun s n f hs hheld hcomb _ hmode hfull htmo hhold hhost => by
  have hr : s.Rising := canonical_regs hs
  obtain ⟨htiles, hqnet, hmem⟩ := stallReported_frame s n.val f
  have hpage := pgQUEUE_eq n.val
  refine ⟨_, exec_qstall hheld hcomb hmode hfull htmo hhold, ?_⟩
  rw [hhost, if_pos rfl]
  refine ⟨?held, get_put (hr.stallReported n.val f) (Nat.le_of_ble_eq_true rfl) 1, hqnet, ?err, sameTiles_of_tiles htiles n.val, hmem⟩
  case held => exact (congrArg QueueS.held (queue_of_tiles htiles n.val)).trans hheld
  case err => rw [get_put_ne (by show (State.pgQUEUE n.val + 0x10) * 64 + 2 ≠ _; rw [key_hold]; omega)]; exact err_stallReported hr n.val f

/-! A send is over (R285, R287, R288). -/

/-- The tile's count of a send that came to nothing. -/
def sendCounted (s : State) (n k code : Nat) : State :=
  if code = qSTALL ∨ code = qTIMEOUT ∨ code = qLOST then s.bump (Reg.QUEUE.TX_STALL_CNT.CNT n k) else if code = qDEAD then s.bump (Reg.QUEUE.TX_DEAD_CNT.CNT n) else s

/-- A tracked operation after the send of channel k is over: its own receives the code. -/
def sendEnded (period k rd code : Nat) (x : Tracked) : Tracked :=
  if x.ready.isNone && x.tag == 4096 + k then { x with ready := some period, res := [.sreg rd (BitVec.ofNat 64 code)] } else x

/-- The tile that a send over leaves: its channel is free. -/
def tileSendOver (s : State) (n k code : Nat) : Tile :=
  { s.tile n with
    queue := { s.queue n with tx := (s.queue n).tx.filter fun x => x.1 != k }
    tracked := (s.tile n).tracked.map (sendEnded s.issue.period k ((((s.queue n).tx.find? fun x => x.1 == k).map (·.2.2)).getD 0) code) }

theorem sendCounted_frame (s : State) (n k code : Nat) :
    (sendCounted s n k code).tiles = s.tiles ∧ (sendCounted s n k code).qnet = s.qnet ∧ (sendCounted s n k code).mem = s.mem ∧ (sendCounted s n k code).issue = s.issue := by
  unfold sendCounted
  split
  · exact ⟨rfl, rfl, rfl, rfl⟩
  · split <;> exact ⟨rfl, rfl, rfl, rfl⟩

theorem sendOver_qnet (s : State) (n k code : Nat) : (s.sendOver n k code).qnet = s.qnet := (sendCounted_frame s n k code).2.1
theorem sendOver_mem (s : State) (n k code : Nat) : (s.sendOver n k code).mem = s.mem := (sendCounted_frame s n k code).2.2.1

theorem tile_sendOver {s : State} (h : risingFrom 0 s.tiles = true) (n k code : Nat) : (s.sendOver n k code).tile n = tileSendOver s n k code := by
  obtain ⟨htiles, -, -, hissue⟩ := sendCounted_frame s n k code
  have hrise : risingFrom 0 (sendCounted s n k code).tiles = true := htiles ▸ h
  have hqueue := queue_of_tiles htiles n
  refine (tile_modTile_same (tiles_rising_modQueue hrise n _) n _).trans ?_
  rw [tile_modQueue hrise]
  unfold tileSendOver
  rw [← tile_of_tiles htiles, ← hqueue, ← hissue]
  rfl

theorem sameTiles_sendOver (s : State) (n k code : Nat) : s.SameTiles n (s.sendOver n k code) :=
  ((sameTiles_of_tiles (sendCounted_frame s n k code).1 n).modQueue _).modTile _

/-- The one send under way of a tile with one tracked operation is over. -/
theorem tileSendOver_single {s : State} {n k id rd code : Nat} {tr : Tracked} (htx : (s.queue n).tx = [(k, id, rd)]) (htr : (s.tile n).tracked = [tr]) (htag : tr.tag = 4096 + k)
    (hready : tr.ready = none) : tileSendOver s n k code =
      { s.tile n with queue := { s.queue n with tx := [] }, tracked := [{ tr with ready := some s.issue.period, res := [.sreg rd (BitVec.ofNat 64 code)] }] } := by
  unfold tileSendOver sendEnded
  simp [htx, htr, htag, hready]

theorem send_completes : sendCompletes := fun s n k ch id rd code tr hs hch hdone htx htr htag hready hcode => by
  let u := s.modQnet fun q => { q with done := [] }
  have hn := n.isLt
  have hk := k.isLt
  have hexec : exec (.sendComplete ⟨ch, false⟩) s = .next (u.sendOver n.val k.val code) := by
    have hany : ((u.queue n.val).tx.any fun x => x.1 == k.val && x.2.1 == id) = true := by
      rw [show u.queue n.val = s.queue n.val from rfl, htx]; simp
    have hu : (s.modQnet fun q => { q with done := q.done.erase (id, ch.toNat, code) }) = u := by simp [modQnet, hdone, u]
    show execSendComplete _ s = _
    unfold execSendComplete
    simp only [hdone, List.find?_cons, beq_self_eq_true, Bool.false_eq_true, if_false]
    rw [hu, if_pos (by omega), show ch.toNat / 128 = n.val by omega, show ch.toNat % 64 = k.val by omega]
    exact if_pos hany
  have htile : (u.sendOver n.val k.val code).tile n.val = _ :=
    (tile_sendOver (s := u) (canonical_tiles hs) n.val k.val code).trans (tileSendOver_single (s := u) htx htr htag hready)
  subst hcode
  exact ⟨_, hexec, sendOver_qnet .., congrArg (·.queue.tx) htile, congrArg (·.tracked) htile, sameTiles_sendOver u n.val k.val 0, rfl, sendOver_mem ..⟩

theorem send_lost : sendLost := fun s n k ch id rd tr hs hch hguard htx htr htag hready => by
  let u := s.modQueue n.val fun q => { q with lost := q.lost ++ [id] }
  have hn := n.isLt
  have hk := k.isLt
  have hrise := canonical_tiles hs
  have hexec : exec (.lost ch) s = .next (u.sendOver n.val k.val qLOST) := by
    show execLost ch s = _
    unfold execLost
    simp only [show ch.toNat / 128 = n.val by omega, show ch.toNat % 64 = k.val by omega, htx, List.find?_cons, beq_self_eq_true, if_neg hguard]
    exact if_neg (by omega)
  have hq : u.queue n.val = { s.queue n.val with lost := (s.queue n.val).lost ++ [id] } := queue_modQueue hrise n.val _
  have ht : u.tile n.val = { s.tile n.val with queue := u.queue n.val } := (tile_modQueue hrise n.val _).trans (by rw [hq])
  have htile : (u.sendOver n.val k.val qLOST).tile n.val = _ :=
    (tile_sendOver (tiles_rising_modQueue hrise n.val _) n.val k.val qLOST).trans
      (tileSendOver_single (s := u) (by rw [hq]; exact htx) (by rw [ht]; exact htr) htag hready)
  refine ⟨_, hexec, congrArg (·.queue.tx) htile, (congrArg (·.queue.lost) htile).trans (congrArg QueueS.lost hq), congrArg (·.tracked) htile, ?count,
    fun m hm => (sameTiles_sendOver u n.val k.val qLOST m hm).trans (tile_modTile_ne hm _), sendOver_mem ..⟩
  case count => exact get_bump (s := u) (canonical_regs (s := s) hs) (Nat.le_of_ble_eq_true rfl)

/-! Register writes of the QUEUE pages (R49). -/

/-- A tile's pages (R49): page 13 continues QUEUE under the numbers from 0x100. -/
theorem pageAt_tilePg {n i d : Nat} (hn : n < 256) (hi : i < 15) (hd : d < 0x1000) : pageAt (tilePg n i + d) = ⟨.tile i, tilePg n i, if i = 13 then 0x100 + n else n⟩ := by
  have e : tilePg n i = 0x1000000 + n * 0x10000 + i * 0x1000 := rfl
  have hpage : (tilePg n i + d) / 0x1000 % 16 = i := by omega
  unfold pageAt
  simp only
  rw [if_neg (by omega), if_neg (by omega), if_neg (by omega), if_neg (by omega), if_neg (by omega), if_neg (by omega), if_neg (by omega), if_neg (by omega),
    if_neg (by omega), if_neg (by omega), if_neg (by omega), if_neg (by omega), if_neg (by omega), if_pos (by omega), hpage, if_neg (by omega)]
  have hinst : (tilePg n i + d - 0x1000000) / 0x10000 = n := by omega
  rw [hinst]
  congr 1
  omega

/-- No register of a tile's pages belongs to a slower domain (R66). -/
theorem slowReg_tilePg {n i d : Nat} (hn : n < 256) (hi : i < 15) (hd : d < 0x1000) : slowReg (tilePg n i + d) = false := by
  unfold slowReg
  rw [pageAt_tilePg hn hi hd]
  show ((if i = 13 then 0x100 + n else n) % 256 == 324) = false
  rw [beq_eq_false_iff_ne]
  omega

/-- A page of a tile whose register answers is up. -/
theorem pageUp_tilePg {s : State} {src : Source} {n i d : Nat} (hn : n < 256) (hi : i < 15) (hd : d < 0x1000) (ha : s.answers src (tilePg n i + d) = true) :
    s.pageUp (pageAt (tilePg n i)) = true := by
  have hpage : pageAt (tilePg n i) = pageAt (tilePg n i + d) := (pageAt_tilePg (d := 0) hn hi (by decide)).trans (pageAt_tilePg hn hi hd).symm
  have hkind : (pageAt (tilePg n i + d)).kind ≠ .crown := by rw [pageAt_tilePg hn hi hd]; exact nofun
  rw [hpage]
  exact pageUp_of_answers ha hkind

theorem head_popped : headPopped := fun s src n m hs hw ha hm => by
  have hup : s.pageUp (pageAt (State.pgQUEUE2 n.val)) = true := pageUp_tilePg n.isLt (by decide) (by decide) ha
  have hact : actPop src n s = .next (s.qRemove n.val m) := by
    unfold actPop
    simp only [hup, hm, Bool.not_true, Bool.false_eq_true, if_false]
  exact ⟨_, rowWrite_answers hw ha (slowReg_tilePg n.isLt (by decide) (by decide)) hact, queue_modQueue (canonical_tiles hs) n.val _, (sameTiles_of_tiles rfl n.val).modQueue _, rfl⟩

theorem stalled_messageDiscarded : stalledMessageDiscarded := fun s src n f hs hw ha hheld hhold => by
  have hup : s.pageUp (pageAt (State.pgQUEUE n.val)) = true := pageUp_tilePg n.isLt (by decide) (by decide) ha
  have hact : actStallDiscard src n s = .next ((s.unhold n.val).qReply f qSTALL) := by
    unfold actStallDiscard
    simp only [hheld, hup, flag_of_get_ne_zero hhold, Bool.and_self, if_true]
  exact ⟨_, rowWrite_answers hw ha (slowReg_tilePg n.isLt (by decide) (by decide)) hact, queue_unhold (canonical_tiles hs) n.val, hold_unhold (canonical_regs hs) n.val, rfl,
    fun g hg => get_unhold (by simpa using hg), sameTiles_unhold s n.val, rfl⟩

theorem stalled_messageRetained : stalledMessageRetained := fun s src n f hs hw ha _ hhold => by
  have hup : s.pageUp (pageAt (State.pgQUEUE n.val)) = true := pageUp_tilePg n.isLt (by decide) (by decide) ha
  have hact : actRetain src n s = .next (s.put (Reg.QUEUE.STALL_CTRL.HOLD n.val) 0) := by
    unfold actRetain
    simp only [hup, flag_of_get_ne_zero hhold, Bool.and_self, if_true]
  exact ⟨_, rowWrite_answers hw ha (slowReg_tilePg n.isLt (by decide) (by decide)) hact, get_put (canonical_regs hs) (Nat.le_of_ble_eq_true rfl) 0, onlyFields_put_self ..⟩

/-! COMB_FLUSH (R299). -/

/-- The queue and the key that a write of COMB_FLUSH leaves in it. -/
def flushNamed (s : State) (n : Nat) (v : Word32) : State := (s.put (Reg.QUEUE2.COMB_FLUSH.KEY n) (bits v.toNat 21 6)).put (Reg.QUEUE2.COMB_FLUSH.Q n) (bits v.toNat 5 0)

/-- A queue that does not notify sets no flag (R291). -/
theorem notify_quiet {s : State} {n q : Nat} (h : s.get (Reg.QUEUE.QCFG.NOTIFY n q) = 0) : s.notify n q = s := by
  unfold notify
  rw [flag_of_get_eq_zero h]
  rfl

/-- An open entry moves to the readable messages. -/
theorem release_quiet {s : State} {n : Nat} {e : QMsg} (h : s.get (Reg.QUEUE.QCFG.NOTIFY n e.queue) = 0) :
    s.release n e = (s.modQueue n fun q => { q with opens := q.opens.filter fun x => !(x.queue == e.queue && x.key == e.key) }).modQueue n fun q => { q with msgs := q.msgs ++ [e] } := by
  unfold release qPush
  simp only
  rw [notify_quiet (s := State.modQueue (State.modQueue s n _) n _) h]
  exact ite_self _

theorem queue_release_quiet {s : State} (hs : risingFrom 0 s.tiles = true) {n : Nat} {e : QMsg} (h : s.get (Reg.QUEUE.QCFG.NOTIFY n e.queue) = 0) :
    (s.release n e).queue n = { s.queue n with opens := (s.queue n).opens.filter fun x => !(x.queue == e.queue && x.key == e.key), msgs := (s.queue n).msgs ++ [e] } := by
  rw [release_quiet h, queue_modQueue (tiles_rising_modQueue hs n _), queue_modQueue hs]

theorem open_entryFlushed : openEntryFlushed := fun s src n v e hs hw ha hgo he hquiet => by
  let u := flushNamed s n.val v
  have hrise : risingFrom 0 u.tiles = true := canonical_tiles (s := s) hs
  have hup : s.pageUp (pageAt (State.pgQUEUE2 n.val)) = true := pageUp_tilePg n.isLt (by decide) (by decide) ha
  have hopen : u.openEntry n.val (bits v.toNat 5 0) (bits v.toNat 21 6) = some e := he
  have hact : actCombFlush src n v s = .next (u.release n.val { e with part := true }) := by
    unfold actCombFlush
    simp only [hup, hgo, Bool.not_true, Bool.false_eq_true, if_false]
    show (match u.openEntry _ _ _ with | none => _ | some e => _) = _
    rw [hopen]
    rfl
  have hnotify : u.get (Reg.QUEUE.QCFG.NOTIFY n.val e.queue) = 0 := by
    have hkey : (Reg.QUEUE.QCFG.NOTIFY n.val e.queue).key = (0x100C100 + n.val * 0x10000 + e.queue * 0x4) * 64 + 28 := rfl
    refine (get_put_ne ?_ _).trans ((get_put_ne ?_ _).trans hquiet)
    · show _ ≠ (0x100D054 + n.val * 0x10000) * 64 + 0; omega
    · show _ ≠ (0x100D054 + n.val * 0x10000) * 64 + 6; omega
  refine ⟨_, rowWrite_answers hw ha (slowReg_tilePg n.isLt (by decide) (by decide)) hact, ?_⟩
  have hqueue := queue_release_quiet hrise (e := { e with part := true }) hnotify
  refine ⟨congrArg QueueS.msgs hqueue, congrArg QueueS.opens hqueue, ?_⟩
  rw [release_quiet (e := { e with part := true }) hnotify]
  exact ⟨((sameTiles_of_tiles (s := s) (t := u) rfl n.val).modQueue _).modQueue _, rfl, rfl⟩

/-! The host's send windows (R376, R377). -/

/-- With no BAR2 write outstanding a LAUNCH is performed at once (R373). -/
theorem exec_launch {s : State} (hd3 : s.pcie.d3 = false) (htlps : s.pcie.tlps = []) (hwrites : s.pcie.writes = []) (m : Fin 4) (v : Word32) :
    exec (.launch m [] v) s = .next (s.launchNow m [] v) := by
  show execLaunch m [] v s = _
  unfold execLaunch hostOrder
  simp [hd3, htlps, hwrites]

theorem busy_windowCounts : busyWindowCounts := fun s m v hs hd3 htlps hwrites hbusy => by
  have ht : s.launchNow m [] v = s.bump Reg.GLOBAL.HQ_BUSY_CNT.CNT := if_pos (flag_of_get_ne_zero hbusy)
  exact ⟨_, (exec_launch hd3 htlps hwrites m v).trans (congrArg Host.Outcome.next ht), get_bump (canonical_regs hs) (by decide), onlyFields_put_self ..⟩

theorem window_launches : windowLaunches := fun s m v hs hd3 htlps hwrites hbusy hmode htmo => by
  have hr : s.Rising := canonical_regs hs
  have hfree : ¬ s.flag (Reg.WIN.STATUS.BUSY m.val) = true := by rw [flag_of_get_eq_zero hbusy]; exact Bool.false_ne_true
  have hgood : ¬ (bits v.toNat 18 17 = 3 ∨ (bits v.toNat 18 17 = 2 ∧ bits v.toNat 26 19 = 0) ∨ (bits v.toNat 18 17 ≠ 2 ∧ bits v.toNat 26 19 ≠ 0)) := by
    by_cases h2 : bits v.toNat 18 17 = 2 <;> by_cases h0 : bits v.toNat 26 19 = 0 <;> simp_all
  have hne : (Reg.WIN.STATUS.DONE m.val).key ≠ (Reg.WIN.STATUS.BUSY m.val).key := by
    show (0x8010048 + m.val * 0x100) * 64 + 31 ≠ (0x8010048 + m.val * 0x100) * 64 + 30; omega
  refine ⟨_, (exec_launch hd3 htlps hwrites m v).trans (congrArg Host.Outcome.next ((if_neg hfree).trans (if_neg hgood))), rfl, ?busy, ?done, ?fields, rfl, rfl⟩
  case busy => exact get_put (f := Reg.WIN.STATUS.BUSY m.val) (hr.put (Reg.WIN.STATUS.DONE m.val) 0) (Nat.le_of_ble_eq_true rfl) 1
  case done => exact (get_put_ne hne 1).trans (get_put (f := Reg.WIN.STATUS.DONE m.val) hr (Nat.le_of_ble_eq_true rfl) 0)
  case fields => exact sameFields_put (t := State.modQnet (State.qLaunch (s.put _ 0) _ _) _) (sameFields_put (fun _ _ => rfl) 0 (by simp)) 1 (by simp)

/-- Settles O19: a stall is reported before the message's fate is decided, a send that is over frees its channel and ends the operation that waits for it, and a register write of a tile's page
that answers has its effect at once. -/
theorem stallsAndWindowsComplete : Obligations.StallsAndWindowsComplete := by
  unfold Obligations.StallsAndWindowsComplete
  exact ⟨blocked_messageStalls, stall_heldForHost, send_completes, send_lost, open_entryFlushed, head_popped, stalled_messageDiscarded, stalled_messageRetained, window_launches, busy_windowCounts⟩

end Sys2Proof.Machine
end

section
/-! Claims about the Freash ports that fail in states which their premises admit: a READY field that holds more than its one bit (O25), a port that is listed as after reset (O26), a counter
that holds more than its 32 bits (O27). -/
namespace Sys2Proof.Machine
open State Claims

/-! Training ends over a READY field that holds 2. -/

/-- Port 2 trains. READY of its page holds 2: one bit cannot, but the canonical form does not look at the widths of fields. -/
def trainingOverWideReady : State :=
  (upState.put (Reg.FL.PORT_STAT.STATE 2) 1).put { Reg.HDR.BLK_STAT.READY (flPg 2) with width := 2 } 2

/-- Port 1 of module 7, of versions 2.0 to 3.1, whose four lanes lock in both directions. -/
def fullWidthPeer : PeerCaps := ⟨7, 1, 0x31, 0x20, 0, 0, 0⟩

/-- READY that a command leaves in the page of port 2. -/
def portReadyAfter (r : Res) : Nat :=
  match r with
  | .next t => t.get (Reg.HDR.BLK_STAT.READY (flPg 2))
  | _ => 0

/-- The port comes UP, and `setReady` leaves a READY other than 0 as it is. -/
theorem portReadyAfter_trainingEnd_trainingOverWideReady : portReadyAfter (exec (.trainingEnd 2 fullWidthPeer) trainingOverWideReady) = 2 := by decide

theorem not_trainingReachesUp : ¬ trainingReachesUp := by
  intro h
  obtain ⟨t, ht, -, -, -, -, -, -, -, hone, -⟩ := h trainingOverWideReady 2 fullWidthPeer (by decide) (by decide) (by decide) (by decide) (by decide) (by decide) (by decide) (by decide)
    (by decide) (by decide) (by decide) (by decide)
  have htwo := portReadyAfter_trainingEnd_trainingOverWideReady
  rw [ht] at htwo
  exact absurd (hone.symm.trans htwo) (by decide)

/-- Refutes O25 in TRAINING_END's claim of a port that comes UP: it says that READY reads 1, but no premise bounds what READY held before, and a value other than 0 stays. -/
theorem not_linkTrainingCompletes : ¬ Obligations.LinkTrainingCompletes := by
  unfold Obligations.LinkTrainingCompletes
  rintro ⟨hup, -⟩
  exact not_trainingReachesUp hup

/-! A packet without a route arrives at a port that is listed as after reset. -/

/-- Port 2 is UP, and the list of ports names it with the contents that it has after reset. No change of a port leaves such an entry, but the canonical form looks at the order of the keys alone. -/
def portListedAsReset : State := { upState.put (Reg.FL.PORT_STAT.STATE 2) 2 with links := [(2, PortS.reset)] }

/-- A fence confirmation for module 9, of which no routing bank has an entry. -/
def ackForModule9 : LinkPkt := .fncack false 9 7 0 5

/-- The ports that a command leaves listed. -/
def portsListedAfter (r : Res) : List Nat :=
  match r with
  | .next t => t.links.map Prod.fst
  | _ => []

/-- The packet is dropped, and once the CREDIT unit for it has left the queue again the port is no longer listed. -/
theorem portsListedAfter_linkPacket_portListedAsReset : portsListedAfter (exec (.linkPacket 2 ackForModule9 ⟨0, 0, 0, false⟩) portListedAsReset) = [] := by decide

theorem not_packetHasNoRoute : ¬ packetHasNoRoute := by
  intro h
  obtain ⟨t, ht, -, -, -, -, hlinks, -⟩ := h portListedAsReset 2 false 9 7 0 5 (by decide) (by decide) (by decide) (by decide) (by decide) (by decide)
  have hnone := portsListedAfter_linkPacket_portListedAsReset
  rw [show exec (.linkPacket 2 ackForModule9 ⟨0, 0, 0, false⟩) portListedAsReset = .next t from ht] at hnone
  have hkept : portsListedAfter (.next t) = portsListedAfter (.next portListedAsReset) := congrArg (List.map Prod.fst) hlinks
  exact absurd (hkept.symm.trans hnone) (by decide)

/-- Refutes O26 in LINK_PACKET's claim about a packet without a route: it says that the list of ports is unchanged, but the returned credit passes through the port's queue, and a port that is
then as after reset is taken out of the list. -/
theorem not_linkUnitsComplete : ¬ Obligations.LinkUnitsComplete := by
  unfold Obligations.LinkUnitsComplete
  rintro ⟨-, -, hroute, -⟩
  exact not_packetHasNoRoute hroute

/-! A link goes down over a drop counter that holds 2 ^ 32. -/

/-- Port 2 is UP with nothing queued. The count of packets dropped at ports that are not UP (R315) holds 2 ^ 32, which its 32 bits cannot. -/
def downOverWideCount : State :=
  (upState.put (Reg.FL.PORT_STAT.STATE 2) 2).put { Reg.FLC.RT_PORTDOWN_CNT.CNT 0 with width := 33 } (2 ^ 32)

/-- The count of packets dropped at ports that are not UP that a command leaves. -/
def portDownDropsAfter (r : Res) : Nat :=
  match r with
  | .next t => t.get (Reg.FLC.RT_PORTDOWN_CNT.CNT 0)
  | _ => 0

/-- With no packet lost the counter is not written. -/
theorem portDownDropsAfter_linkDown_downOverWideCount : portDownDropsAfter (exec (.linkDown 2) downOverWideCount) = 2 ^ 32 := by decide

theorem not_linkGoesDown : ¬ linkGoesDown := by
  intro h
  obtain ⟨t, ht, -, -, -, -, -, -, -, -, hdrops, -⟩ := h downOverWideCount 2 (by decide) (by decide) (by decide) (by decide) (by decide)
  have hkept := portDownDropsAfter_linkDown_downOverWideCount
  rw [ht] at hkept
  exact absurd (hdrops.symm.trans hkept) (by decide)

/-- Refutes O27 in LINK_DOWN's claim: it says that the count of dropped packets reads at most 2 ^ 32 - 1, but where nothing was queued the counter is not written, and no premise bounds what it
held before. -/
theorem not_linkStateAndRouting : ¬ Obligations.LinkStateAndRouting := by
  unfold Obligations.LinkStateAndRouting
  rintro ⟨hdown, -⟩
  exact not_linkGoesDown hdown

end Sys2Proof.Machine
end

section
/-! The state after reset (O50). -/
namespace Sys2Proof.Machine
open State Claims

/-- No register is listed after reset, so that every field reads its reset value. -/
theorem get_reset (f : Field) : State.reset.get f = f.reset % 2 ^ f.width := rfl

/-- The domains that are listed after reset are the crown and the always-on domain. -/
theorem domState_reset {d : Nat} (hd : d < 323) : State.reset.domState d = .off := by
  have hcrown : 323 ≠ d := by omega
  have hon : 324 ≠ d := by omega
  simp [domState, State.reset, getAt, lookup, hcrown, hon, hon.symm]

/-- Below the crown's domain no vote is set by reset. -/
theorem voteField_reset {d : Nat} (hd : d < 323) : (voteField d).reset = 0 := by
  unfold voteField
  split_ifs
  case neg => omega
  all_goals rfl

/-- No listed domain depends on a fabric, and nothing streams, loads or steps. -/
theorem dep_reset : ∀ d ∈ [320, 321], State.reset.dep d = false := by decide

theorem votes_reset {d : Nat} (hd : d < 323) : State.reset.votes d = 0 := by
  have hget : State.reset.get (voteField d) = 0 := by rw [get_reset, voteField_reset hd, Nat.zero_mod]
  have hdep : ((d == 320 || d == 321) && State.reset.dep d) = false := by
    by_cases h : d ∈ [320, 321]
    · rw [dep_reset d h, Bool.and_false]
    · have hne : d ≠ 320 ∧ d ≠ 321 := by simpa using h
      simp [hne]
  simp [votes, hget, hdep, setBit]

/-- Settles O50: nothing is listed after reset but the crown's and the always-on domain. -/
theorem stateAfterReset : Obligations.StateAfterReset := by
  unfold Obligations.StateAfterReset
  exact ⟨fun d hd => ⟨domState_reset hd, votes_reset hd⟩, by decide, by decide, by decide, get_reset, rfl, rfl, by decide⟩

end Sys2Proof.Machine
end

section
/-! The host sets the configuration of the PCIe function, and the crown answers MCTP control messages (O31). -/
namespace Sys2Proof.Machine
open State Claims

/-- With no outbound request waiting, Bus Master Enable has nothing to end (R380). -/
theorem busMasterSet_holds : busMasterSet := by
  intro s on hout
  refine ⟨_, rfl, ?_⟩
  cases on with
  | true => rfl
  | false => simp [modPcie, hout]

theorem bar2SizeSet_holds : bar2SizeSet := by
  intro s n
  refine ⟨_, rfl, ?_⟩
  by_cases h : 30 ≤ n ∧ n ≤ 38 <;> simp [h, modPcie]

theorem maxPayloadSet_holds : maxPayloadSet := by
  intro s n h
  exact ⟨_, rfl, if_pos (by simpa using h)⟩

theorem maxReadRequestSet_holds : maxReadRequestSet := by
  intro s n h
  exact ⟨_, rfl, if_pos (by simpa using h)⟩

theorem msixEntryWritten_holds : msixEntryWritten := by
  intro s vec w v hd3 htable
  have hrun : exec (.configurationRequest (.msixEntry vec w v)) s =
      .next (s.modPcie fun p => { p with table := setAt (if w.val = 3 then 1 else 0) (4 * vec.val + w.val) v p.table }) := by
    show execConfigurationRequest (.msixEntry vec w v) s = _
    simp [execConfigurationRequest, hd3]
  exact ⟨_, hrun, getAt_setAt_same _ _ _ htable, rfl⟩

theorem endpointIdSet_holds : endpointIdSet := by
  intro s eid hready hnull hbroadcast
  have hrun : exec (.setEndpointId eid) s = .next ({ s with crown := { s.crown with mctpEid := eid.toNat } }.emit (.mctp [0, 0, eid, 0])) := by
    have hvalid : ¬(eid = 0 ∨ eid = 255) := not_or.mpr ⟨hnull, hbroadcast⟩
    show execSetEndpointId eid s = _
    rw [execSetEndpointId, if_neg (by simp [hready]), if_neg hvalid]
  exact ⟨_, hrun, rfl⟩

theorem endpointIdRead_holds : endpointIdRead := fun s hready => ⟨s.emit (.mctp [0, BitVec.ofNat 8 s.crown.mctpEid, 0, 0]), if_pos hready, rfl⟩

theorem mctpVersionsAnswered_holds : mctpVersionsAnswered := fun s hready => ⟨s.emit (.mctp Config.mctpVersions), if_pos hready, rfl⟩

theorem mctpTypesAnswered_holds : mctpTypesAnswered := fun s hready => ⟨s.emit (.mctp Config.mctpTypes), if_pos hready, rfl⟩

/-- Settles O31: each request writes its one field of the function's state, and each message is answered. -/
theorem hostConfigurationCompletes : Obligations.HostConfigurationCompletes := by
  unfold Obligations.HostConfigurationCompletes
  exact ⟨busMasterSet_holds, fun _ _ => ⟨_, rfl, rfl⟩, fun _ _ => ⟨_, rfl, rfl⟩, fun _ _ => ⟨_, rfl, rfl⟩, bar2SizeSet_holds, maxPayloadSet_holds, maxReadRequestSet_holds, msixEntryWritten_holds,
    endpointIdSet_holds, endpointIdRead_holds, mctpVersionsAnswered_holds, mctpTypesAnswered_holds⟩

end Sys2Proof.Machine
end

section
/-! Claims that fail in states which their premises allow: a field that holds more than its bits (O23, O28, O30, O33, O44), a port that is listed as after reset (O39, O40), a request that repeats the
last SEQ (O34), a read that waits in the cuff (O32). -/
namespace Sys2Proof.Machine
open State Claims

/-! FLAG over a sync flag register that holds 2 ^ 20. -/

/-- FLAGS holds 2 ^ 20. Its 16 bits cannot, but the canonical form does not look at the widths of fields. -/
def flagsTooWide : State := upState.put { Reg.SNET.FLAGS.FLAG with width := 21 } (2 ^ 20)

/-- The flags that a command leaves. -/
def flagsAfter (r : Res) : Nat :=
  match r with
  | .next t => t.get Reg.SNET.FLAGS.FLAG
  | _ => 0

/-- The write keeps the 16 bits of the register. -/
theorem flagsAfter_flag_flagsTooWide : flagsAfter (exec (.flag 3 5 true) flagsTooWide) = 2 ^ 5 := by decide

theorem not_flagSet : ¬ flagSet := by
  intro h
  obtain ⟨t, ht, hflags, -⟩ := h flagsTooWide 3 5 (by decide) (by decide)
  have hkept := flagsAfter_flag_flagsTooWide
  rw [ht] at hkept
  exact absurd (hflags.symm.trans hkept) (by decide)

/-- Refutes O23 in FLAG's claim of a flag that is set: it says that every bit which FLAGS held stays, but no premise bounds what it held, and the write keeps 16 bits. -/
theorem not_tileRequestsComplete : ¬ Obligations.TileRequestsComplete := by
  unfold Obligations.TileRequestsComplete
  rintro ⟨-, -, -, -, -, -, -, -, -, hflag, -⟩
  exact not_flagSet hflag

/-! A descriptor ends with a code while ERR_STOP holds 2. -/

/-- The write of a status word of mover 5 (R356). -/
def statusWrite : Pkt := { op := 1, src := 186, smod := 0, tag := 9, cls := 5, epoch := false, dmod := 0, addr := 0xC0105C, size := 4, data := [0, 0, 0, 0], mcast := none }

/-- Its acknowledgement. -/
def statusAck : Rsp := ⟨186, 9, 3, false, 0, [], none, true, false, none⟩

/-- Descriptor 2 of mover 5 has ended with code 2 and its status word is on its way. -/
def failedFin : MvFin := ⟨9, 2, 2147483648, 2, none, true, false, false, none⟩

/-- The acknowledgement of the status word has come back. ERR_STOP of mover 5 holds 2: one bit cannot, but the canonical form does not look at the widths of fields. -/
def errStopTooWide : State :=
  { ((((upState.put (Reg.MOVER.RING_SIZE.LOG2 5) 4).put (Reg.MOVER.RING_HEAD.IDX 5) 3).put (Reg.MOVER.MV_STAT2.STATE 5) 1).put (Reg.MOVER.RING_TAIL.IDX 5) 2).put
      { Reg.MOVER.MV_CFG.ERR_STOP 5 with width := 2 } 2 with
    movers := [(5, { MoverS.reset with fin := some failedFin })]
    net := { NetS.reset with out := [statusWrite], past := [(186, 9)], rsps := [statusAck] } }

/-- The state of mover 5 that a command leaves. -/
def moverStateAfter (r : Res) : Nat :=
  match r with
  | .next t => t.get (Reg.MOVER.MV_STAT2.STATE 5)
  | _ => 0

/-- The mover is STOPPED: it takes an ERR_STOP other than 0 as set. -/
theorem moverStateAfter_wrack_errStopTooWide : moverStateAfter (exec (.wrack statusWrite.src statusWrite.tag noLuck) errStopTooWide) = 4 := by decide

theorem not_statusWritten : ¬ statusWritten := by
  intro h
  obtain ⟨t, ht, -, -, -, -, -, -, hstate, -⟩ := h errStopTooWide 5 statusWrite statusAck failedFin (by decide) (by decide) (by decide) (by decide) (by decide) (by decide) (by decide) (by decide)
    (by decide) (by decide) (by decide) (by decide) (by decide) (by decide) (by decide) (by decide) (by decide) (by decide) (by decide) (by decide) (by decide) (by decide) (by decide)
  have hstopped := moverStateAfter_wrack_errStopTooWide
  rw [ht] at hstopped
  exact absurd (hstate.symm.trans hstopped) (by decide)

/-- Refutes O28 in WRACK's claim of a status word: it says that the mover stops after an error only where ERR_STOP reads 1, but no premise bounds the field, and any value other than 0 stops it. -/
theorem not_moversComplete : ¬ Obligations.MoversComplete := by
  unfold Obligations.MoversComplete
  rintro ⟨-, -, -, -, -, -, -, -, -, -, hstatus, -⟩
  exact not_statusWritten hstatus

/-! A doorbell of the issue controller over a register that holds 2 ^ 32. -/

/-- DBELL holds 2 ^ 32. Its 32 bits cannot, but the canonical form does not look at the widths of fields. -/
def doorbellsTooWide : State := upState.put { Reg.ISSUE.DBELL.BELL with width := 33 } (2 ^ 32)

/-- The doorbells that a command leaves. -/
def doorbellsAfter (r : Res) : Nat :=
  match r with
  | .next t => t.get Reg.ISSUE.DBELL.BELL
  | _ => 0

/-- The write keeps the 32 bits of the register. -/
theorem doorbellsAfter_dbIssue_doorbellsTooWide : doorbellsAfter (exec (.dbIssue 1) doorbellsTooWide) = 1 := by decide

theorem not_issueDoorbell : ¬ issueDoorbell := by
  intro h
  obtain ⟨t, ht, hbells, -⟩ := h doorbellsTooWide 1 (by decide) (by decide) (by decide)
  have hkept := doorbellsAfter_dbIssue_doorbellsTooWide
  rw [ht] at hkept
  exact absurd (hbells.symm.trans hkept) (by decide)

/-- Refutes O30 in DB_ISSUE's claim: it says that every bit which DBELL held stays, but no premise bounds what it held, and the write keeps 32 bits. -/
theorem not_hostTransactionsComplete : ¬ Obligations.HostTransactionsComplete := by
  unfold Obligations.HostTransactionsComplete
  rintro ⟨-, -, -, -, -, -, -, -, hbell, -⟩
  exact not_issueDoorbell hbell

/-! A COUNT frame of a tile whose half is gated. -/

/-- Context 0 sends the counts of tile 130 through port 0, as `countFrameSent` asks; the East half, which holds the tile, is GATED, and the port is in the West half. -/
def countBehindGate : State :=
  (((((upState.put (Reg.SP.SP_STAT.LINK 0) 2).put (Reg.HDR.BLK_CTRL.EN (spPg 0)) 1).put (Reg.HDR.BLK_CTRL.EN (sctxPg 0)) 1).put (Reg.SCTX.CTX_W0.EN 0 0) 1 |>.put (Reg.SCTX.CTX_W0.DIR 0 0) 1
    |>.put (Reg.SCTX.CTX_W8.T_FIRST 0 0) 130 |>.put (Reg.SCTX.CTX_W8.W_FIRST 0 0) 130 |>.put (Reg.SCTX.CTX_W9.MAX_PAYLOAD 0 0) 64 |>.put (Reg.NEURON.RO_READY.READY 130) 1
    |>.put (Reg.NEURON.RO_GRP_W1.NEU 130 0) 2 |>.put (Reg.NEURON.RO_GRP_W2.W_COUNT 130 0) 3 |>.put (Reg.NEURON.RO_GRP_W3.DEST 130 0) 0x100)).put Reg.CLOCK.HALF_CFG.EAST 2

/-- The number of outputs of the state that a command leaves. -/
def outputsAfter (r : Res) : Nat :=
  match r with
  | .next t => t.out.length
  | _ => 0

/-- The read of the counts waits in the cuff (R273), and no frame leaves. -/
theorem outputsAfter_countFrame_countBehindGate : outputsAfter (exec (.countFrame 0) countBehindGate) = 0 := by decide

theorem not_countFrameSent : ¬ countFrameSent := by
  intro h
  obtain ⟨t, ht, -, -, -, hout, -⟩ := h countBehindGate 0 (by decide) (by decide) (by decide) (by decide) (by decide) (by decide) (by decide) (by decide) (by decide) (by decide) (by decide)
    (by decide) (by decide) (by decide) (by decide) (by decide) (by decide) (by decide)
  have hnone := outputsAfter_countFrame_countBehindGate
  rw [ht] at hnone
  exact absurd (hout.symm.trans hnone) (by decide)

/-- Refutes O32 in COUNT_FRAME's claim: it has no premise that the half of the tile runs, and a read into a gated half waits in the cuff instead of being served (R273). -/
theorem not_streamPortsComplete : ¬ Obligations.StreamPortsComplete := by
  unfold Obligations.StreamPortsComplete
  rintro ⟨-, -, -, -, -, -, -, -, -, -, -, hcount, -⟩
  exact not_countFrameSent hcount

/-! A lock over a LOCK register that holds 2 ^ 8. -/

/-- LOCK holds 2 ^ 8. Its 8 bits cannot, but the canonical form does not look at the widths of fields. -/
def locksTooWide : State := upState.put { Reg.SECURITY.LOCK.BITS with width := 9 } (2 ^ 8)

/-- The locks that a command leaves. -/
def locksAfter (r : Res) : Nat :=
  match r with
  | .next t => t.get Reg.SECURITY.LOCK.BITS
  | _ => 0

/-- The write keeps the 8 bits of the register. -/
theorem locksAfter_lock_locksTooWide : locksAfter (exec (.lock .host 5) locksTooWide) = 5 := by decide

theorem not_lockBitsSet : ¬ lockBitsSet := by
  intro h
  obtain ⟨t, ht, hlocks, -⟩ := h locksTooWide .host 5 (by decide) (by decide) (by decide) (by decide)
  have hkept := locksAfter_lock_locksTooWide
  rw [ht] at hkept
  exact absurd (hlocks.symm.trans hkept) (by decide)

/-- Refutes O33 in LOCK's claim: it says that every bit which LOCK held stays, but no premise bounds what it held, and the write keeps 8 bits. -/
theorem not_crownCompletes : ¬ Obligations.CrownCompletes := by
  unfold Obligations.CrownCompletes
  rintro ⟨-, -, -, -, -, -, -, hlock, -⟩
  exact not_lockBitsSet hlock

/-! A request that repeats the last SEQ of the mailbox. -/

/-- GET_INFO waits in the mailbox with SEQ 5, to which the response of the one byte 1 is kept; MB_RSP reads 0. -/
def repeatedRequest : State :=
  { ((((upState.put Reg.CROWN.TOKEN.HOLDER 0).put (Reg.HDR.BLK_STAT.READY pgCROWN) 1).put Reg.CROWN.MB_STAT.BUSY 1).put (Reg.CROWN.MB_REQ.DATA 0) 0x10100).put (Reg.CROWN.MB_REQ.DATA 1) 5 with
    crown := { upState.crown with lastSeq := [(0, 5, [1])] } }

/-- The first word of MB_RSP that a command leaves. -/
def responseAfter (r : Res) : Nat :=
  match r with
  | .next t => t.get (Reg.CROWN.MB_RSP.DATA 0)
  | _ => 0

/-- The kept response is written to MB_RSP. -/
theorem responseAfter_mbComplete_repeatedRequest : responseAfter (exec (.mbComplete .wcore) repeatedRequest) = 1 := by decide

theorem not_requestCompletes : ¬ requestCompletes := by
  intro h
  obtain ⟨t, ht, -, -, -, -, hsame, -⟩ := h repeatedRequest .wcore (by decide) (by decide) (by decide) (by decide) (by decide) (by decide) (by decide) (by decide)
  have hkept := responseAfter_mbComplete_repeatedRequest
  rw [ht] at hkept
  exact absurd ((hsame (Reg.CROWN.MB_RSP.DATA 0) (by decide)).symm.trans hkept) (by decide)

/-- Refutes O34 in MB_COMPLETE's claim: it says that MB_RSP is unchanged and kept with the request's SEQ, but a request that repeats the last SEQ is answered with the response that was kept
before (R407), which overwrites MB_RSP. -/
theorem not_mailboxCompletes : ¬ Obligations.MailboxCompletes := by
  unfold Obligations.MailboxCompletes
  rintro ⟨-, -, -, -, -, -, -, -, -, -, -, -, -, -, -, -, -, -, -, hcomplete⟩
  exact not_requestCompletes hcomplete

/-! Units of the twin arrive at a port that is listed as after reset. -/

/-- The module is PRIMARY, its twin is module 7 at port 7, and the list of ports names port 7 with the contents that it has after reset. No change of a port leaves such an entry, but the
canonical form looks at the order of the keys alone. -/
def twinPortListedAsReset : State :=
  { ((((upState.put (Reg.FL.PORT_STAT.STATE 7) 2).put (Reg.FL.PEER.VALID 7) 1).put (Reg.FL.PEER.ID 7) 7).put Reg.TWIN.TWIN_ROLE.ROLE 2).put Reg.TWIN.TWIN_STAT.HANDOVER_PEND 1 with
    links := [(7, PortS.reset)], twin := { TwinS.reset with handover := some (true, false), hstep := 9 } }

/-- A command that changes register fields alone keeps the list of ports. -/
theorem links_of_onlyFields {s t : State} {fs : List Field} (h : s.OnlyFields fs t) : t.links = s.links := by
  have e := congrArg State.links h.2
  exact e

/-- A unit of the twin that is healthy and names step 9. -/
def healthyUnit : TwinUnit := ⟨0, 3, true, false, 7, 0, 9⟩

/-- The unit counts as a heartbeat, and once the CREDIT unit for it has left the queue again the port is no longer listed. -/
theorem portsListedAfter_twinHb_twinPortListedAsReset : portsListedAfter (exec (.twinHb 7 healthyUnit) twinPortListedAsReset) = [] := by decide

theorem not_heartbeatCounts : ¬ heartbeatCounts := by
  intro h
  obtain ⟨t, ht, -, -, hframe⟩ := h twinPortListedAsReset 7 healthyUnit (by decide) (by decide) (by decide) (by decide) (by decide)
  have hnone := portsListedAfter_twinHb_twinPortListedAsReset
  rw [ht] at hnone
  have hframeLinks := links_of_onlyFields hframe
  have hlinks : t.links = twinPortListedAsReset.links := hframeLinks
  have hkept : portsListedAfter (.next t) = portsListedAfter (.next twinPortListedAsReset) := congrArg (List.map Prod.fst) hlinks
  exact absurd (hkept.symm.trans hnone) (by decide)

/-- Refutes O39 in TWIN_HB's claim of a good heartbeat: its frame keeps the list of ports, but the returned credit passes through the port's queue, and a port that is then as after reset is taken
out of the list. -/
theorem not_twinRolesComplete : ¬ Obligations.TwinRolesComplete := by
  unfold Obligations.TwinRolesComplete
  rintro ⟨-, -, -, -, -, -, -, hcounts, -⟩
  exact not_heartbeatCounts hcounts

/-- The handover is agreed, and the port is no longer listed. -/
theorem portsListedAfter_handoverAck_twinPortListedAsReset : portsListedAfter (exec (.handoverAck 7 healthyUnit) twinPortListedAsReset) = [] := by decide

theorem not_handoverAgreed : ¬ handoverAgreed := by
  intro h
  obtain ⟨t, ht, -, -, -, -, hframe⟩ := h twinPortListedAsReset 7 healthyUnit (by decide) (by decide) (by decide) (by decide) (by decide) (by decide) (by decide)
  have hnone := portsListedAfter_handoverAck_twinPortListedAsReset
  rw [ht] at hnone
  have hframeLinks := links_of_onlyFields hframe
  have hlinks : t.links = twinPortListedAsReset.links := hframeLinks
  have hkept : portsListedAfter (.next t) = portsListedAfter (.next twinPortListedAsReset) := congrArg (List.map Prod.fst) hlinks
  exact absurd (hkept.symm.trans hnone) (by decide)

/-- Refutes O40 in HANDOVER_ACK's claim of a handover that is agreed: its frame keeps the list of ports, from which the returned credit takes a port that is then as after reset. -/
theorem not_twinHandoverCompletes : ¬ Obligations.TwinHandoverCompletes := by
  unfold Obligations.TwinHandoverCompletes
  rintro ⟨-, -, -, -, hagreed, -⟩
  exact not_handoverAgreed hagreed

/-! DETACH while ALT_EN holds 2. -/

/-- The module is PRIMARY, ports 3 and 7 are UP with credit for twin units, and ALT_PORT is 3. ALT_EN holds 2: one bit cannot, but the canonical form does not look at the widths of fields. -/
def altEnTooWide : State :=
  { ((((upState.put (Reg.FL.PORT_STAT.STATE 3) 2).put (Reg.FL.PORT_STAT.STATE 7) 2).put Reg.TWIN.TWIN_ROLE.ROLE 2).put Reg.TWIN.TWIN_CFG.ALT_PORT 3).put { Reg.TWIN.TWIN_CFG.ALT_EN with width := 2 } 2 with
    links := [(3, { PortS.reset with credits := [(14, 2)] }), (7, { PortS.reset with credits := [(14, 16)] })] }

/-- The number of units that a command sends in state s. -/
def unitsSent (s : State) (r : Res) : Nat :=
  match r with
  | .next t => ((t.out.drop s.out.length).filter isUnit).length
  | _ => 0

/-- A unit leaves on both ports: an ALT_EN other than 0 counts as set. -/
theorem unitsSent_detach_altEnTooWide : unitsSent altEnTooWide (exec (.detach .host) altEnTooWide) = 2 := by decide

theorem not_detachLeaves : ¬ detachLeaves := by
  intro h
  obtain ⟨t, ht, -, hunits⟩ := h altEnTooWide .host (by decide) (by decide) (by decide) (by decide) (by decide) (by decide)
  have htwo := unitsSent_detach_altEnTooWide
  rw [ht] at htwo
  have hone : unitsSent altEnTooWide (.next t) = (detachPorts altEnTooWide).length := by
    simpa [unitsSent] using congrArg List.length hunits
  exact absurd (hone.symm.trans htwo) (by decide)

/-- Refutes O44 in DETACH's claim: it counts ALT_PORT as a path only where ALT_EN reads 1, but no premise bounds the field, and the module sends on ALT_PORT for any value other than 0. -/
theorem not_detachRule : ¬ Obligations.DetachRule := by
  unfold Obligations.DetachRule
  rintro ⟨hleaves, -⟩
  exact not_detachLeaves hleaves

end Sys2Proof.Machine
end

section
/-! The service panel (O41). -/
namespace Sys2Proof.Machine
open State Claims

/-! Reading a field after a write of another one, and after a cause. -/

theorem flag_put_ne {s : State} {f g : Field} (h : g.key ≠ f.key) (v : Nat) : (s.put f v).flag g = s.flag g := by unfold flag; rw [get_put_ne h]

theorem flag_cause_outside {s : State} {pg b : Nat} {g : Field} (h : g.key / 64 ≠ pg + 0x18) : (s.cause pg b).flag g = s.flag g := by unfold flag; rw [get_cause_outside h]

@[simp] theorem get_setPanel (s : State) (p : PanelS) (g : Field) : { s with panel := p }.get g = s.get g := rfl

@[simp] theorem flag_setPanel (s : State) (p : PanelS) (g : Field) : { s with panel := p }.flag g = s.flag g := rfl

/-- A block-specific cause sets its bit of BLK_IRQ_STAT (R71). -/
theorem pageCause_cause {s : State} (hs : s.Rising) (pg : Nat) {b : Nat} (hlow : 4 ≤ b) (hhigh : b < 32) : PageCause (s.cause pg b) pg b := by
  have hbit := testBit_get_put_setBit (f := Reg.HDR.BLK_IRQ_STAT.BLK_SPEC pg) (i := b - 4) (j := b - 4) hs (Nat.le_of_ble_eq_true rfl) (show b - 4 < 28 by omega) true
  unfold PageCause State.cause
  rw [irqEdge_get, note_get]
  simpa [show b ≠ 0 by omega, show b ≠ 1 by omega, show b ≠ 2 by omega, show ¬b < 4 by omega] using hbit

theorem pageCause_put {t : State} {pg b : Nat} (h : PageCause t pg b) {f : Field} (hf : (Reg.HDR.BLK_IRQ_STAT.BLK_SPEC pg).key ≠ f.key) (v : Nat) : PageCause (t.put f v) pg b := by
  unfold PageCause; rw [get_put_ne hf]; exact h

/-! The frame of a panel command. -/

theorem panelOnly_refl (s : State) (pg : Nat) (fs : List Field) : PanelOnly s pg fs s := ⟨fun _ _ => rfl, rfl⟩

theorem panelOnly_setPanel {s t : State} {pg : Nat} {fs : List Field} (h : PanelOnly s pg fs t) (p : PanelS) : PanelOnly s pg fs { t with panel := p } := h

theorem panelOnly_notices {s t u : State} {pg : Nat} {fs ks : List Field} (h : PanelOnly s pg fs t) (hu : t.OnlyNotices ks u)
    (hks : ∀ k ∈ ks.map (·.key), k ∈ (fs ++ irqFields pg).map (·.key)) : PanelOnly s pg fs u := by
  obtain ⟨hget, hrest⟩ := h
  obtain ⟨hget', hrest'⟩ := hu
  refine ⟨fun f hf => (hget' f fun hk => hf (hks _ hk)).trans (hget f hf), ?_⟩
  rw [← hrest'] at hrest
  exact hrest

theorem panelOnly_put {s t : State} {pg : Nat} {fs : List Field} (h : PanelOnly s pg fs t) {f : Field} (hf : f.key ∈ (fs ++ irqFields pg).map (·.key)) (v : Nat) : PanelOnly s pg fs (t.put f v) :=
  panelOnly_notices h (ks := [f]) (onlyNotices_put onlyNotices_refl v (by simp)) (by simpa using hf)

theorem panelOnly_cause {s t : State} {pg : Nat} {fs : List Field} (h : PanelOnly s pg fs t) (b : Nat) : PanelOnly s pg fs (t.cause pg b) := by
  refine panelOnly_notices h (ks := irqFields pg) (onlyNotices_cause onlyNotices_refl ?_) fun k hk => ?_
  · unfold causeField
    split_ifs <;> simp [irqFields]
  · rw [List.map_append]
    exact List.mem_append_right _ hk

/-! The button. -/

/-- A capture input that is not enabled takes no edge (R509). -/
theorem captureEdge_disabled {s : State} {i : Nat} (h : s.flag (Reg.TIMERS.CAP_CFG.EN i) = false) (falling read : Bool) : s.captureEdge i falling read = s := by
  simp [captureEdge, h]

/-- The state with the button at a level and the long press forgotten. -/
def buttonAt (s : State) (level : Nat) : State := { s.put Reg.PANEL.PANEL_STAT.BUTTON level with panel := { s.panel with long := false } }

theorem get_buttonAt {s : State} (hs : s.Rising) {level : Nat} (h : level < 2) : (buttonAt s level).get Reg.PANEL.PANEL_STAT.BUTTON = level :=
  (get_put hs (Nat.le_of_ble_eq_true rfl) level).trans (Nat.mod_eq_of_lt h)

theorem flag_buttonAt (s : State) (level : Nat) {g : Field} (h : g.key ≠ Reg.PANEL.PANEL_STAT.BUTTON.key) : (buttonAt s level).flag g = s.flag g := flag_put_ne h level

theorem get_buttonAt_ne (s : State) (level : Nat) {g : Field} (h : g.key ≠ Reg.PANEL.PANEL_STAT.BUTTON.key) : (buttonAt s level).get g = s.get g := get_put_ne h level

theorem rising_buttonAt {s : State} (hs : s.Rising) (level : Nat) : (buttonAt s level).Rising := Rising.of (hs.put Reg.PANEL.PANEL_STAT.BUTTON level) rfl

theorem panelOnly_buttonAt (s : State) (level pg : Nat) (fs : List Field) : PanelOnly s pg (Reg.PANEL.PANEL_STAT.BUTTON :: fs) (buttonAt s level) :=
  panelOnly_setPanel (panelOnly_put (panelOnly_refl s pg _) (by simp) level) _

/-- A press while the panel runs and the button is up. -/
theorem exec_buttonPress {s : State} (hon : s.panelOn = true) (hup : s.get Reg.PANEL.PANEL_STAT.BUTTON = 0) : exec .buttonPress s =
    .next (if ((buttonAt s 1).captureEdge 14 true false).hostMode pgPANEL then ((buttonAt s 1).captureEdge 14 true false).cause pgPANEL 6 else (buttonAt s 1).captureEdge 14 true false) := by
  show execButtonPress s = _
  rw [execButtonPress, if_neg (by simp [hon, flag_of_get_eq_zero hup])]
  rfl

/-- What a release of the button does after its edge, with the long press as it was before. -/
def released (s : State) (long : Bool) (ms : Nat) : Res :=
  if s.hostMode pgPANEL then .next (s.cause pgPANEL 6)
  else if long then .next s
  else if ms < 20 then .next (s.bump Reg.PANEL.BOUNCE_CNT.CNT)
  else if ms < s.get Reg.PANEL.PANEL_CFG.LONG_MS then .next ((s.put Reg.PANEL.PANEL_CTRL.IDENT (1 - s.get Reg.PANEL.PANEL_CTRL.IDENT)).cause pgPANEL 4)
  else .next s

/-- A release while the panel runs, the button is down and its capture is off. -/
theorem exec_buttonRelease {s : State} (hon : s.panelOn = true) (hdown : s.get Reg.PANEL.PANEL_STAT.BUTTON = 1) (hcap : s.flag (Reg.TIMERS.CAP_CFG.EN 14) = false) (ms : Nat) :
    exec (.buttonRelease ms) s = released (buttonAt s 0) s.panel.long ms := by
  have hflag : s.flag Reg.PANEL.PANEL_STAT.BUTTON = true := flag_of_get_ne_zero (by omega)
  have hedge : (buttonAt s 0).captureEdge 14 false false = buttonAt s 0 := captureEdge_disabled ((flag_buttonAt s 0 (by decide)).trans hcap) _ _
  show execButtonRelease ms s = _
  rw [execButtonRelease, if_neg (by simp [hon, hflag])]
  show released ((buttonAt s 0).captureEdge 14 false false) s.panel.long ms = _
  rw [hedge]

theorem buttonPressed_holds : buttonPressed := by
  intro s hs hon hup hmode hcap
  have hedge : (buttonAt s 1).captureEdge 14 true false = buttonAt s 1 := captureEdge_disabled ((flag_buttonAt s 1 (by decide)).trans hcap) _ _
  have hown : (buttonAt s 1).hostMode pgPANEL = false := (flag_buttonAt s 1 (by decide)).trans hmode
  refine ⟨buttonAt s 1, ?_, rfl⟩
  rw [exec_buttonPress hon hup, hedge, if_neg (by simp [hown])]

theorem buttonToHost_holds : buttonToHost := by
  intro s hs hon hup hmode hcap
  have hedge : (buttonAt s 1).captureEdge 14 true false = buttonAt s 1 := captureEdge_disabled ((flag_buttonAt s 1 (by decide)).trans hcap) _ _
  have hhost : (buttonAt s 1).hostMode pgPANEL = true := (flag_buttonAt s 1 (by decide)).trans hmode
  have hrising := rising_buttonAt (canonical_regs hs) 1
  refine ⟨(buttonAt s 1).cause pgPANEL 6, ?_, ?_, pageCause_cause hrising _ (by decide) (by decide), cause_panel .., panelOnly_cause (panelOnly_buttonAt s 1 _ []) 6⟩
  · rw [exec_buttonPress hon hup, hedge, if_pos hhost]
  · rw [get_cause_outside (by decide), get_buttonAt (canonical_regs hs) (by decide)]

/-- TIMERS and PANEL run while the crown's domain is ON. -/
theorem sclkOn_eq (s : State) : s.sclkOn = s.domOn 323 := by
  have hhalf : (pageAt pgTIMERS).half = none := by decide
  have hdomain : (pageAt pgTIMERS).domain = 323 := by decide
  have hcompute : (pageAt pgTIMERS).inCompute = false := by decide
  simp [sclkOn, pageUp, hhalf, hdomain, hcompute]

theorem sclkOn_of_panelOn {s : State} (h : s.panelOn = true) : s.sclkOn = true := by
  simp only [panelOn, Bool.and_eq_true] at h
  exact h.1

/-- An edge on an enabled input with nothing pending enters the capture register at once (R509). -/
theorem captureEdge_enters {s : State} {i : Nat} {falling : Bool} (hclk : s.sclkOn = true) (hen : s.flag (Reg.TIMERS.CAP_CFG.EN i) = true) (hpend : s.flag (capPend i falling) = false) :
    s.captureEdge i falling false = s.capEnter i falling ((s.gtCnt (s.get (Reg.TIMERS.CAP_CFG.TMR i)) + s.get (Reg.TIMERS.GT_STAT.CATCHUP (s.get (Reg.TIMERS.CAP_CFG.TMR i)))) % 2 ^ 32) := by
  simp [captureEdge, hclk, hen, hpend]

/-- A timer's cause writes the notices of the TIMERS page alone. -/
theorem panelOnly_timerCause {s t : State} {fs : List Field} (h : PanelOnly s pgTIMERS fs t) (n : Nat) : PanelOnly s pgTIMERS fs (t.timerCause n 6) := by
  unfold State.timerCause
  split
  · exact panelOnly_cause h 6
  · exact h

theorem get_timerCause_outside {s : State} {n : Nat} {g : Field} (h : g.key / 64 ≠ pgTIMERS + 0x18) : (s.timerCause n 6).get g = s.get g := by
  unfold State.timerCause
  split
  · exact get_cause_outside h
  · rfl

theorem pressCaptured_holds : pressCaptured := by
  intro s hs hon hup hmode hcap hpend htmr
  have hr := rising_buttonAt (canonical_regs hs) 1
  have hclk : (buttonAt s 1).sclkOn = true := by
    have h := sclkOn_of_panelOn hon
    rw [sclkOn_eq] at h ⊢
    exact h
  have hedge := captureEdge_enters (falling := true) hclk ((flag_buttonAt s 1 (by decide)).trans hcap) ((flag_buttonAt s 1 (by decide)).trans (flag_of_get_eq_zero hpend))
  have htmr' : (buttonAt s 1).get (Reg.TIMERS.CAP_CFG.TMR 14) = 15 := (get_buttonAt_ne s 1 (by decide)).trans htmr
  have hcnt : (buttonAt s 1).gtCnt 15 = s.gtCnt 15 := get_buttonAt_ne s 1 (by decide)
  have hcatch : (buttonAt s 1).get (Reg.TIMERS.GT_STAT.CATCHUP 15) = s.get (Reg.TIMERS.GT_STAT.CATCHUP 15) := get_buttonAt_ne s 1 (by decide)
  rw [htmr', hcnt, hcatch] at hedge
  generalize hv : (s.gtCnt 15 + s.get (Reg.TIMERS.GT_STAT.CATCHUP 15)) % 2 ^ 32 = v at hedge
  have hlow : low 32 v = v := Nat.mod_eq_of_lt (hv ▸ Nat.mod_lt _ (by decide))
  have hown : ((buttonAt s 1).capEnter 14 true v).hostMode pgPANEL = false := by
    unfold hostMode flag State.capEnter
    rw [get_timerCause_outside (by decide), get_put_ne (by decide), get_put_ne (by decide), get_buttonAt_ne _ _ (by decide)]
    exact hmode
  refine ⟨(buttonAt s 1).capEnter 14 true v, ?_, ?_, ?_, ?_, ?_⟩
  · rw [exec_buttonPress hon hup, hedge, if_neg (by simp [hown])]
  · unfold State.capEnter
    rw [get_timerCause_outside (by decide), get_put_ne (by decide), get_put_ne (by decide), get_buttonAt (canonical_regs hs) (by decide)]
  · unfold State.capEnter
    rw [get_timerCause_outside (by decide), get_put_ne (by decide), show capField 14 true = Reg.TIMERS.CAP_FALL.VALUE 14 from rfl, get_put hr (Nat.le_of_ble_eq_true rfl)]
    exact hlow
  · unfold State.capEnter
    rw [get_timerCause_outside (by decide), show capNew 14 true = Reg.TIMERS.CAP_STAT.NEW_F 14 from rfl, get_put (hr.put _ _) (Nat.le_of_ble_eq_true rfl)]
    rfl
  · have hpress := panelOnly_buttonAt s 1 pgTIMERS (captureFields 14)
    exact panelOnly_timerCause (panelOnly_put (panelOnly_put hpress (f := capField 14 true) (by decide) _) (f := capNew 14 true) (by decide) _) _

/-! The release of the button. -/

theorem bounceCounted_holds : bounceCounted := by
  intro s ms hs hon hdown hmode hcap hlong hms
  have hown : (buttonAt s 0).hostMode pgPANEL = false := (flag_buttonAt s 0 (by decide)).trans hmode
  refine ⟨(buttonAt s 0).bump Reg.PANEL.BOUNCE_CNT.CNT, ?_, ?_, ?_, panelOnly_put (panelOnly_buttonAt s 0 _ [Reg.PANEL.BOUNCE_CNT.CNT]) (by decide) _⟩
  · rw [exec_buttonRelease hon hdown hcap, released, if_neg (by simp [hown]), if_neg (by simp [hlong]), if_pos hms]
  · exact (get_put_ne (by decide) _).trans (get_buttonAt (canonical_regs hs) (by decide))
  · rw [get_bump (rising_buttonAt (canonical_regs hs) 0) (Nat.le_of_ble_eq_true rfl)]
    unfold counted
    rw [get_buttonAt_ne s 0 (by decide)]

theorem shortPress_holds : shortPress := by
  intro s ms hs hon hdown hmode hcap hlong hbounce hms
  have hr := rising_buttonAt (canonical_regs hs) 0
  have hown : (buttonAt s 0).hostMode pgPANEL = false := (flag_buttonAt s 0 (by decide)).trans hmode
  have hident : (buttonAt s 0).get Reg.PANEL.PANEL_CTRL.IDENT = s.get Reg.PANEL.PANEL_CTRL.IDENT := get_buttonAt_ne s 0 (by decide)
  have hshort : ms < (buttonAt s 0).get Reg.PANEL.PANEL_CFG.LONG_MS := by rwa [get_buttonAt_ne s 0 (by decide)]
  refine ⟨((buttonAt s 0).put Reg.PANEL.PANEL_CTRL.IDENT (1 - s.get Reg.PANEL.PANEL_CTRL.IDENT)).cause pgPANEL 4, ?_, ?_, ?_, pageCause_cause (hr.put _ _) _ (by decide) (by decide), ?_⟩
  · rw [exec_buttonRelease hon hdown hcap, released, if_neg (by simp [hown]), if_neg (by simp [hlong]), if_neg (by omega), if_pos hshort, hident]
  · rw [get_cause_outside (by decide), get_put_ne (by decide), get_buttonAt (canonical_regs hs) (by decide)]
  · rw [get_cause_outside (by decide), get_put hr (Nat.le_of_ble_eq_true rfl)]
    exact Nat.mod_eq_of_lt (by show _ < 2; omega)
  · exact panelOnly_cause (panelOnly_put (panelOnly_buttonAt s 0 _ [Reg.PANEL.PANEL_CTRL.IDENT]) (by decide) _) 4

theorem longPressEnds_holds : longPressEnds := by
  intro s ms hs hon hdown hmode hcap hlong
  have hown : (buttonAt s 0).hostMode pgPANEL = false := (flag_buttonAt s 0 (by decide)).trans hmode
  refine ⟨buttonAt s 0, ?_, get_buttonAt (canonical_regs hs) (by decide), rfl, panelOnly_buttonAt s 0 _ []⟩
  rw [exec_buttonRelease hon hdown hcap, released, if_neg (by simp [hown]), if_pos hlong]

/-! A long press, and DETACH_REQ. -/

/-- A detach is requested once and counted while it runs (R502). -/
theorem detachReq_idle {s : State} (h : s.get Reg.PANEL.PANEL_CTRL.DETACHING = 0) : s.detachReq = s.cause pgPANEL 5 := by
  simp [detachReq, flag_of_get_eq_zero h]

theorem detachReq_running {s : State} (h : s.get Reg.PANEL.PANEL_CTRL.DETACHING = 1) : s.detachReq = s.bump Reg.PANEL.DETACH_DUP_CNT.CNT := by
  have hflag : s.flag Reg.PANEL.PANEL_CTRL.DETACHING = true := flag_of_get_ne_zero (by omega)
  simp [detachReq, hflag]

theorem exec_longPress {s : State} (hon : s.panelOn = true) (hmode : s.hostMode pgPANEL = false) (hdown : s.get Reg.PANEL.PANEL_STAT.BUTTON = 1) (hlong : s.panel.long = false) :
    exec .longPress s = .next { s with panel := { s.panel with long := true } }.detachReq := by
  have hflag : s.flag Reg.PANEL.PANEL_STAT.BUTTON = true := flag_of_get_ne_zero (by omega)
  show execLongPress s = _
  rw [execLongPress, if_neg (by simp [hon, hmode, hflag, hlong])]

theorem detachRequested_holds : detachRequested := by
  intro s hs hon hmode hdown hlong hidle
  have hr : { s with panel := { s.panel with long := true } }.Rising := canonical_regs hs
  refine ⟨_, (exec_longPress hon hmode hdown hlong).trans (congrArg _ (detachReq_idle hidle)), cause_panel .., pageCause_cause hr _ (by decide) (by decide), ?_⟩
  exact panelOnly_cause (panelOnly_setPanel (panelOnly_refl s _ _) _) 5

theorem detachRepeated_holds : detachRepeated := by
  intro s hs hon hmode hdown hlong hruns
  have hr : { s with panel := { s.panel with long := true } }.Rising := canonical_regs hs
  refine ⟨_, (exec_longPress hon hmode hdown hlong).trans (congrArg _ (detachReq_running hruns)), get_bump hr (Nat.le_of_ble_eq_true rfl), ?_⟩
  exact panelOnly_put (panelOnly_setPanel (panelOnly_refl s _ _) _) (by decide) _

/-! The pad. -/

/-- The state after a sample of the pad has been classified as touched or not, before its length is looked at (R501). -/
def sampled (s : State) (touched : Bool) : State :=
  { s.put Reg.PANEL.PANEL_STAT.TOUCHED (if touched then 1 else 0) with
    panel := { s.panel with touch := if touched then s.panel.touch + 10 else 0, touchSeen := touched && s.panel.touchSeen } }

theorem padSample_own {s : State} (hmode : s.hostMode pgPANEL = false) (touched : Bool) : s.padSample touched = (sampled s touched).touchCheck := by
  have hown : (s.put Reg.PANEL.PANEL_STAT.TOUCHED (if touched then 1 else 0)).hostMode pgPANEL = false := (flag_put_ne (by decide) _).trans hmode
  unfold State.padSample
  rw [if_neg (by simp [hown])]
  rfl

theorem rising_sampled {s : State} (hs : s.Rising) (touched : Bool) : (sampled s touched).Rising := Rising.of (hs.put Reg.PANEL.PANEL_STAT.TOUCHED (if touched then 1 else 0)) rfl

theorem get_sampled {s : State} (hs : s.Rising) (touched : Bool) : (sampled s touched).get Reg.PANEL.PANEL_STAT.TOUCHED = if touched then 1 else 0 :=
  (get_put hs (Nat.le_of_ble_eq_true rfl) _).trans (by cases touched <;> rfl)

theorem get_sampled_ne (s : State) (touched : Bool) {g : Field} (h : g.key ≠ Reg.PANEL.PANEL_STAT.TOUCHED.key) : (sampled s touched).get g = s.get g := get_put_ne h _

theorem pageCause_sampled {s : State} {b : Nat} {touched : Bool} (h : PageCause s pgPANEL b) : PageCause (sampled s touched) pgPANEL b := by
  unfold PageCause
  rw [get_sampled_ne s touched (by decide)]
  exact h

theorem panelOnly_sampled {s t : State} {fs : List Field} (h : PanelOnly s pgPANEL fs t) (hf : Reg.PANEL.PANEL_STAT.TOUCHED.key ∈ (fs ++ irqFields pgPANEL).map (·.key)) (touched : Bool) :
    PanelOnly s pgPANEL fs (sampled t touched) := panelOnly_setPanel (panelOnly_put h hf _) _

/-- Nothing is requested while the pad is not touched. -/
theorem touchCheck_untouched {s : State} (hs : s.Rising) : (sampled s false).touchCheck = sampled s false := by
  have hflag : (sampled s false).flag Reg.PANEL.PANEL_STAT.TOUCHED = false := flag_of_get_eq_zero (get_sampled hs false)
  simp [touchCheck, hflag]

/-- Nothing is requested before TOUCH_MS or after the request (R502). -/
theorem touchCheck_waits {s : State} (h : s.panel.touchSeen = true ∨ s.panel.touch < s.get Reg.PANEL.PANEL_CFG2.TOUCH_MS) : s.touchCheck = s := by
  rcases h with h | h <;> simp [touchCheck, h]

theorem touchCheck_requests {s : State} (htouched : s.get Reg.PANEL.PANEL_STAT.TOUCHED = 1) (hseen : s.panel.touchSeen = false) (hlong : s.get Reg.PANEL.PANEL_CFG2.TOUCH_MS ≤ s.panel.touch) :
    s.touchCheck = { s with panel := { s.panel with touchSeen := true } }.detachReq := by
  have hflag : s.flag Reg.PANEL.PANEL_STAT.TOUCHED = true := flag_of_get_ne_zero (by omega)
  rw [touchCheck, if_neg (by simp [hflag, hseen, hlong])]

theorem exec_padChargeCycle {s : State} (hon : s.panelOn = true) (ns : BitVec 16) {touched : Bool} (h : decide (s.get Reg.PANEL.PANEL_CFG2.TOUCH_THR ≤ ns.toNat) = touched) :
    exec (.padChargeCycle ns) s = .next ((s.put Reg.PANEL.PANEL_STAT.PAD_NS ns.toNat).padSample touched) := by
  show execPadChargeCycle ns s = _
  rw [execPadChargeCycle, if_neg (by simp [hon]), h]

theorem get_padNs {s : State} (hs : s.Rising) (ns : BitVec 16) : (s.put Reg.PANEL.PANEL_STAT.PAD_NS ns.toNat).get Reg.PANEL.PANEL_STAT.PAD_NS = ns.toNat :=
  (get_put hs (Nat.le_of_ble_eq_true rfl) _).trans (Nat.mod_eq_of_lt ns.isLt)

theorem panelOnly_padNs (s : State) (v : Nat) : PanelOnly s pgPANEL [Reg.PANEL.PANEL_STAT.PAD_NS, Reg.PANEL.PANEL_STAT.TOUCHED] (s.put Reg.PANEL.PANEL_STAT.PAD_NS v) :=
  panelOnly_put (panelOnly_refl s _ _) (by simp) v

theorem padUntouched_holds : padUntouched := by
  intro s ns hs hon hmode hbelow
  have hr : (s.put Reg.PANEL.PANEL_STAT.PAD_NS ns.toNat).Rising := Rising.put (canonical_regs hs) _ _
  have hown : (s.put Reg.PANEL.PANEL_STAT.PAD_NS ns.toNat).hostMode pgPANEL = false := (flag_put_ne (by decide) _).trans hmode
  refine ⟨sampled (s.put Reg.PANEL.PANEL_STAT.PAD_NS ns.toNat) false, ?_, ?_, get_sampled hr false, rfl, panelOnly_sampled (panelOnly_padNs s _) (by simp) false⟩
  · rw [exec_padChargeCycle hon ns (decide_eq_false (by omega)), padSample_own hown, touchCheck_untouched hr]
  · rw [get_sampled_ne _ _ (by decide), get_padNs (canonical_regs hs)]

theorem padTouched_holds : padTouched := by
  intro s ns hs hon hmode habove hwait
  have hr : (s.put Reg.PANEL.PANEL_STAT.PAD_NS ns.toNat).Rising := Rising.put (canonical_regs hs) _ _
  have hown : (s.put Reg.PANEL.PANEL_STAT.PAD_NS ns.toNat).hostMode pgPANEL = false := (flag_put_ne (by decide) _).trans hmode
  have hms : (sampled (s.put Reg.PANEL.PANEL_STAT.PAD_NS ns.toNat) true).get Reg.PANEL.PANEL_CFG2.TOUCH_MS = s.get Reg.PANEL.PANEL_CFG2.TOUCH_MS := by
    rw [get_sampled_ne _ _ (by decide), get_put_ne (by decide)]
  refine ⟨sampled (s.put Reg.PANEL.PANEL_STAT.PAD_NS ns.toNat) true, ?_, ?_, get_sampled hr true, rfl, panelOnly_sampled (panelOnly_padNs s _) (by simp) true⟩
  · rw [exec_padChargeCycle hon ns (decide_eq_true habove), padSample_own hown, touchCheck_waits]
    rw [hms]
    exact hwait.symm
  · rw [get_sampled_ne _ _ (by decide), get_padNs (canonical_regs hs)]

theorem touchDetaches_holds : touchDetaches := by
  intro s ns hs hon hmode habove hseen hlong hidle
  have hr : (s.put Reg.PANEL.PANEL_STAT.PAD_NS ns.toNat).Rising := Rising.put (canonical_regs hs) _ _
  have hown : (s.put Reg.PANEL.PANEL_STAT.PAD_NS ns.toNat).hostMode pgPANEL = false := (flag_put_ne (by decide) _).trans hmode
  generalize ht : sampled (s.put Reg.PANEL.PANEL_STAT.PAD_NS ns.toNat) true = t
  have htr : t.Rising := ht ▸ rising_sampled hr true
  have htouched : t.get Reg.PANEL.PANEL_STAT.TOUCHED = 1 := ht ▸ get_sampled hr true
  have hkeep : ∀ g : Field, g.key ≠ Reg.PANEL.PANEL_STAT.TOUCHED.key → g.key ≠ Reg.PANEL.PANEL_STAT.PAD_NS.key → t.get g = s.get g := fun g h1 h2 => by
    rw [← ht, get_sampled_ne _ _ h1, get_put_ne h2]
  have hpanel : t.panel = { s.panel with touch := s.panel.touch + 10 } := by rw [← ht]; rfl
  have hframe : PanelOnly s pgPANEL [Reg.PANEL.PANEL_STAT.PAD_NS, Reg.PANEL.PANEL_STAT.TOUCHED] t := ht ▸ panelOnly_sampled (panelOnly_padNs s _) (by simp) true
  have hseenRising : { t with panel := { t.panel with touchSeen := true } }.Rising := htr
  have hrequest : t.touchCheck = ({ t with panel := { t.panel with touchSeen := true } } : State).cause pgPANEL 5 := by
    rw [touchCheck_requests htouched (by rw [hpanel]; exact hseen) (by rw [hpanel, hkeep _ (by decide) (by decide)]; exact hlong)]
    exact detachReq_idle ((hkeep _ (by decide) (by decide)).trans hidle)
  refine ⟨({ t with panel := { t.panel with touchSeen := true } } : State).cause pgPANEL 5, ?_, pageCause_cause hseenRising _ (by decide) (by decide), ?_, ?_, ?_⟩
  · rw [exec_padChargeCycle hon ns (decide_eq_true habove), padSample_own hown, ht, hrequest]
  · exact (get_cause_outside (by decide)).trans htouched
  · rw [cause_panel, hpanel]
  · exact panelOnly_cause (panelOnly_setPanel hframe _) 5

theorem padToHost_holds : padToHost := by
  intro s ns hs hon hmode huntouched habove
  have hr : (s.put Reg.PANEL.PANEL_STAT.PAD_NS ns.toNat).Rising := Rising.put (canonical_regs hs) _ _
  have hwas : (s.put Reg.PANEL.PANEL_STAT.PAD_NS ns.toNat).flag Reg.PANEL.PANEL_STAT.TOUCHED = false := (flag_put_ne (by decide) _).trans (flag_of_get_eq_zero huntouched)
  generalize ht : (s.put Reg.PANEL.PANEL_STAT.PAD_NS ns.toNat).put Reg.PANEL.PANEL_STAT.TOUCHED 1 = t
  have hhost : t.hostMode pgPANEL = true := by
    rw [← ht]
    exact (flag_put_ne (by decide) _).trans ((flag_put_ne (by decide) _).trans hmode)
  have hsample : (s.put Reg.PANEL.PANEL_STAT.PAD_NS ns.toNat).padSample true = t.cause pgPANEL 7 := by
    unfold State.padSample
    simp only [hwas, if_true, ht, hhost]
    rfl
  refine ⟨t.cause pgPANEL 7, ?_, ?_, pageCause_cause ?_ _ (by decide) (by decide), ?_, ?_⟩
  · rw [exec_padChargeCycle hon ns (decide_eq_true habove), hsample]
  · rw [get_cause_outside (by decide), ← ht, get_put hr (Nat.le_of_ble_eq_true rfl)]
    rfl
  · exact ht ▸ hr.put _ _
  · rw [cause_panel, ← ht]
    rfl
  · exact panelOnly_cause (ht ▸ panelOnly_put (panelOnly_padNs s _) (by simp) 1) 7

theorem padFails_holds : padFails := by
  intro s hs hon hmode
  generalize ht : (s.bump Reg.PANEL.PAD_FAULT_CNT.CNT).cause pgPANEL 10 = t
  have htr : t.Rising := ht ▸ (Rising.bump (canonical_regs hs) _).cause _ _
  have hown : t.hostMode pgPANEL = false := by
    rw [← ht]
    exact (flag_cause_outside (by decide)).trans ((flag_put_ne (by decide) _).trans hmode)
  have hcause : PageCause t pgPANEL 10 := ht ▸ pageCause_cause (Rising.bump (canonical_regs hs) _) _ (by decide) (by decide)
  have hframe : PanelOnly s pgPANEL [Reg.PANEL.PAD_FAULT_CNT.CNT, Reg.PANEL.PANEL_STAT.TOUCHED] t := ht ▸ panelOnly_cause (panelOnly_put (panelOnly_refl s _ _) (by simp) _) 10
  refine ⟨sampled t false, ?_, ?_, pageCause_sampled hcause, get_sampled htr false, ?_, panelOnly_sampled hframe (by simp) false⟩
  · show execPadFault s = _
    rw [execPadFault, if_neg (by simp [hon]), ht, padSample_own hown, touchCheck_untouched htr]
  · rw [get_sampled_ne _ _ (by decide), ← ht, get_cause_outside (by decide), get_bump (canonical_regs hs) (Nat.le_of_ble_eq_true rfl)]
  · show { t.panel with touch := 0, touchSeen := false } = _
    rw [← ht, cause_panel]
    rfl

/-! The latch. -/

/-- The state with the latch open and its cause. -/
def latchOpened (s : State) : State := (s.put Reg.PANEL.PANEL_STAT.LATCH_OPEN 1).cause pgPANEL 8

theorem get_latchOpened {s : State} (hs : s.Rising) : (latchOpened s).get Reg.PANEL.PANEL_STAT.LATCH_OPEN = 1 :=
  (get_cause_outside (by decide)).trans (get_put hs (Nat.le_of_ble_eq_true rfl) 1)

theorem get_latchOpened_ne (s : State) {g : Field} (h : g.key / 64 ≠ pgPANEL + 0x18) (h' : g.key ≠ Reg.PANEL.PANEL_STAT.LATCH_OPEN.key) : (latchOpened s).get g = s.get g :=
  (get_cause_outside h).trans (get_put_ne h' 1)

theorem pageCause_latchOpened {s : State} (hs : s.Rising) : PageCause (latchOpened s) pgPANEL 8 := pageCause_cause (hs.put _ _) _ (by decide) (by decide)

theorem panelOnly_latchOpened (s : State) (fs : List Field) : PanelOnly s pgPANEL (Reg.PANEL.PANEL_STAT.LATCH_OPEN :: fs) (latchOpened s) :=
  panelOnly_cause (panelOnly_put (panelOnly_refl s _ _) (by simp) 1) 8

/-- The latch opens while that is safe and firmware does not run the panel. -/
theorem exec_latch {s : State} (hon : s.panelOn = true) (hmode : s.hostMode pgPANEL = false) (hsafe : s.flag Reg.PANEL.PANEL_CTRL.SAFE = true) (hshut : s.get Reg.PANEL.PANEL_STAT.LATCH_OPEN = 0) :
    exec .latch s = .next (if s.flag Reg.PANEL.PANEL_CFG.LATCH_SICK ∧ s.role = 2 then ((latchOpened s).put Reg.TWIN.TWIN_CTRL.SICK 1).selfDemote else latchOpened s) := by
  have hsafe' : (s.put Reg.PANEL.PANEL_STAT.LATCH_OPEN 1).flag Reg.PANEL.PANEL_CTRL.SAFE = true := (flag_put_ne (by decide) _).trans hsafe
  have hown : (s.put Reg.PANEL.PANEL_STAT.LATCH_OPEN 1).hostMode pgPANEL = false := (flag_put_ne (by decide) _).trans hmode
  have hsick : (latchOpened s).flag Reg.PANEL.PANEL_CFG.LATCH_SICK = s.flag Reg.PANEL.PANEL_CFG.LATCH_SICK := (flag_cause_outside (by decide)).trans (flag_put_ne (by decide) _)
  have hrole : (latchOpened s).role = s.role := get_latchOpened_ne s (by decide) (by decide)
  show execLatch s = _
  rw [execLatch, if_neg (by simp [hon, flag_of_get_eq_zero hshut])]
  simp only [hsafe', hown, if_true]
  rw [← hsick, ← hrole]
  rw [if_neg Bool.false_ne_true]
  exact (apply_ite Host.Outcome.next _ _ _).symm

theorem latchOpens_holds : latchOpens := by
  intro s hs hon hmode hsafe hshut hnot
  have hquiet : ¬(s.flag Reg.PANEL.PANEL_CFG.LATCH_SICK = true ∧ s.role = 2) := by
    rintro ⟨hsick, hrole⟩
    rcases hnot with h | h
    · rw [h] at hsick
      exact Bool.noConfusion hsick
    · exact h hrole
  refine ⟨latchOpened s, ?_, get_latchOpened (canonical_regs hs), pageCause_latchOpened (canonical_regs hs), panelOnly_latchOpened s []⟩
  rw [exec_latch hon hmode hsafe hshut, if_neg hquiet]

theorem latchMakesSick_holds : latchMakesSick := by
  intro s hs hon hmode hsafe hshut hsick hrole
  have hr : (latchOpened s).Rising := (Rising.put (canonical_regs hs) _ _).cause _ _
  generalize ht : (latchOpened s).put Reg.TWIN.TWIN_CTRL.SICK 1 = t
  have htr : t.Rising := ht ▸ hr.put _ _
  have hill : t.get Reg.TWIN.TWIN_CTRL.SICK = 1 := by
    rw [← ht, get_put hr (Nat.le_of_ble_eq_true rfl)]
    rfl
  have hactive : t.role = 2 := by
    rw [← ht]
    exact (get_put_ne (by decide) 1).trans ((get_latchOpened_ne s (by decide) (by decide)).trans hrole)
  have hunhealthy : t.healthy = false := by
    have hflag : t.flag Reg.TWIN.TWIN_CTRL.SICK = true := flag_of_get_ne_zero (by omega)
    simp [healthy, hflag]
  have hdemote : t.selfDemote = t.put Reg.TWIN.TWIN_ROLE.ROLE 3 := if_pos ⟨hactive, by simp [hunhealthy]⟩
  have hframe : PanelOnly s pgPANEL [Reg.PANEL.PANEL_STAT.LATCH_OPEN, Reg.TWIN.TWIN_CTRL.SICK, Reg.TWIN.TWIN_ROLE.ROLE] t := ht ▸ panelOnly_put (panelOnly_latchOpened s _) (by simp) 1
  refine ⟨t.put Reg.TWIN.TWIN_ROLE.ROLE 3, ?_, ?_, ?_, ?_, ?_, panelOnly_put hframe (by simp) 3⟩
  · rw [exec_latch hon hmode hsafe hshut, if_pos ⟨hsick, hrole⟩, ht, hdemote]
  · rw [get_put_ne (by decide), ← ht, get_put_ne (by decide), get_latchOpened (canonical_regs hs)]
  · rw [get_put_ne (by decide), hill]
  · exact get_put htr (Nat.le_of_ble_eq_true rfl) 3
  · exact pageCause_put (ht ▸ pageCause_put (pageCause_latchOpened (canonical_regs hs)) (by decide) 1) (by decide) 3

theorem latchAlreadyOpen_holds : latchAlreadyOpen := by
  intro s hopen
  have hflag : s.flag Reg.PANEL.PANEL_STAT.LATCH_OPEN = true := flag_of_get_ne_zero (by omega)
  exact ⟨s, if_pos (by simp [hflag]), rfl⟩

theorem latchShut_holds : latchShut := fun s hs hon =>
  ⟨s.put Reg.PANEL.PANEL_STAT.LATCH_OPEN 0, if_pos hon, get_put (canonical_regs hs) (Nat.le_of_ble_eq_true rfl) 0, onlyFields_put_self ..⟩

/-! The cables. -/

theorem exec_cable {s : State} (hon : s.panelOn = true) {pres : BitVec 10} (hne : s.get Reg.PANEL.CAGE_PRES.PRES ≠ pres.toNat) :
    exec (.cable pres) s = .next (if s.hostMode pgPANEL then s.put Reg.PANEL.CAGE_PRES.PRES pres.toNat else (s.put Reg.PANEL.CAGE_PRES.PRES pres.toNat).cause pgPANEL 9) := by
  have hmode : (s.put Reg.PANEL.CAGE_PRES.PRES pres.toNat).hostMode pgPANEL = s.hostMode pgPANEL := flag_put_ne (by decide) _
  show execCable pres s = _
  rw [execCable, if_neg (by simp [hon, hne])]
  simp only [hmode]

theorem get_cable {s : State} (hs : s.Rising) (pres : BitVec 10) : (s.put Reg.PANEL.CAGE_PRES.PRES pres.toNat).get Reg.PANEL.CAGE_PRES.PRES = pres.toNat :=
  (get_put hs (Nat.le_of_ble_eq_true rfl) _).trans (Nat.mod_eq_of_lt pres.isLt)

theorem cableChanged_holds : cableChanged := by
  intro s pres hs hon hmode hne
  refine ⟨(s.put Reg.PANEL.CAGE_PRES.PRES pres.toNat).cause pgPANEL 9, ?_, ?_, pageCause_cause (Rising.put (canonical_regs hs) _ _) _ (by decide) (by decide), ?_⟩
  · rw [exec_cable hon hne, if_neg (by simp [hmode])]
  · rw [get_cause_outside (by decide), get_cable (canonical_regs hs)]
  · exact panelOnly_cause (panelOnly_put (panelOnly_refl s _ _) (by simp) _) 9

theorem cableToHost_holds : cableToHost := fun s pres hs hon hmode hne =>
  ⟨s.put Reg.PANEL.CAGE_PRES.PRES pres.toNat, (exec_cable hon hne).trans (congrArg _ (if_pos hmode)), get_cable (canonical_regs hs) pres, onlyFields_put_self ..⟩

theorem panelDark_holds : panelDark := fun s _ hoff => ⟨s, if_pos (by simp [hoff]), rfl⟩

/-- Settles O41: each command of the panel writes its own fields, and its cause the notices of its page. -/
theorem panelCompletes : Obligations.PanelCompletes := by
  unfold Obligations.PanelCompletes
  exact ⟨buttonPressed_holds, buttonToHost_holds, pressCaptured_holds, bounceCounted_holds, shortPress_holds, longPressEnds_holds, detachRequested_holds, detachRepeated_holds, padUntouched_holds,
    padTouched_holds, touchDetaches_holds, padToHost_holds, padFails_holds, latchOpens_holds, latchMakesSick_holds, latchAlreadyOpen_holds, latchShut_holds, cableChanged_holds, cableToHost_holds,
    panelDark_holds⟩

end Sys2Proof.Machine
end

section
/-! The scans of the check units (O29): a line of a tile store that meets nothing is read as it stands. -/
namespace Sys2Proof.Machine
open State Claims

/-! A range within one line of a tile store. -/

/-- A range that lies between two multiples of g is one piece. -/
theorem pieces_one {g a len : Nat} (hlen : 0 < len) (h : a % g + len ≤ g) : pieces g a len = [(a, len)] := by
  have hg : 0 < g := by omega
  have ha : g * (a / g) + a % g = a := Nat.div_add_mod a g
  have hlast : (a + len - 1) / g = a / g := by
    rw [show a + len - 1 = a % g + len - 1 + g * (a / g) by omega, Nat.add_mul_div_left _ _ hg, Nat.div_eq_of_lt (by omega), Nat.zero_add]
  have hhi : (a / g + 0 + 1) * g = g * (a / g) + g := by rw [Nat.add_zero, Nat.add_mul, Nat.one_mul, Nat.mul_comm]
  have hlo : (a / g + 0) * g = g * (a / g) := by rw [Nat.add_zero, Nat.mul_comm]
  unfold pieces
  rw [if_neg (by omega), hlast, Nat.sub_self, List.range_one, List.map_singleton]
  simp only [hlo, hhi]
  rw [Nat.max_eq_left (by omega), Nat.min_eq_left (by omega), Nat.add_sub_cancel_left]

/-- The range [a, a + len) lies in one line of the store of a tile that is ON, in a bank that is ON; no stored bit is upset or lost, and the cuff has timed no access out. -/
structure TileLine (s : State) (a len : Nat) : Prop where
  tile : a / 0x400000 < 256
  on : s.domOn (a / 0x400000) = true
  line : a % 64 + len ≤ 64
  store : a % 0x400000 + len ≤ 0x300000
  pos : 0 < len
  bank : s.bankOn (a / 0x400000) (a % 0x400000 / 0x30000) = true
  sound : soundStore s = true
  clear : s.cuffClear = true

namespace TileLine

variable {s : State} {a len : Nat}

theorem region_eq (h : TileLine s a len) : region a = .tile (a / 0x400000) (a % 0x400000) := by
  obtain ⟨htile, -, -, hstore, hpos, -, -, -⟩ := h
  unfold region
  rw [if_pos (by omega)]
  exact if_pos (by omega)

theorem flips_nil (h : TileLine s a len) : s.flips = [] := by
  have hsound := h.sound
  simp only [soundStore, Bool.and_eq_true, List.isEmpty_iff] at hsound
  exact hsound.1

theorem undef_nil (h : TileLine s a len) : s.undef = [] := by
  have hsound := h.sound
  simp only [soundStore, Bool.and_eq_true, List.isEmpty_iff] at hsound
  exact hsound.2

theorem cut_nil (h : TileLine s a len) : s.net.cut = [] := by
  have hclear := h.clear
  simp only [cuffClear, Bool.and_eq_true, List.isEmpty_iff] at hclear
  exact hclear.2

theorem cuff_nil (h : TileLine s a len) : s.net.cuff = [] := by
  have hclear := h.clear
  simp only [cuffClear, Bool.and_eq_true, List.isEmpty_iff] at hclear
  exact hclear.1.2

theorem farLines_nil (h : TileLine s a len) (ep : Nat) (ranges : List (Nat × Nat)) : s.farLines ep ranges = [] := by
  have hclear := h.clear
  simp only [cuffClear, Bool.and_eq_true] at hclear
  obtain ⟨⟨⟨hwest, heast⟩, -⟩, -⟩ := hclear
  exact farLines_running hwest heast ep ranges

theorem wordErr_zero (h : TileLine s a len) (w : Nat) : s.wordErr w = 0 := by simp [wordErr, h.flips_nil, h.undef_nil, lookup]

theorem checkWords_ok (h : TileLine s a len) (ws : List Nat) (unit ep : Nat) : s.checkWords ws unit ep = (true, s) := by
  have hbad : ws.find? (fun w => s.wordErr w == 2) = none := List.find?_eq_none.2 fun w _ => by simp [h.wordErr_zero]
  have hupset : ws.filter (fun w => s.wordErr w == 1) = [] := List.filter_eq_nil_iff.2 fun w _ => by simp [h.wordErr_zero]
  simp only [checkWords, hbad, hupset, List.foldl_nil]

theorem lineRead_ok (h : TileLine s a len) (unit : Nat) : s.lineRead unit a len = (stOK, s.bytes a len, s) := by
  have hbank : bankAt a = some (a / 0x400000, a % 0x400000 / 0x30000, a % 0x400000) := by unfold bankAt; rw [h.region_eq]
  simp [lineRead, hbank, h.bank, h.checkWords_ok]

theorem serveMem_read (h : TileLine s a len) (ep : Nat) : s.serveMem 0 ep a len [] [] = (stOK, s.bytes a len, s) := by
  have hroom : ¬roomAt a < len := by
    have hstore := h.store
    unfold roomAt
    rw [h.region_eq]
    show ¬0x300000 - a % 0x400000 < len
    omega
  unfold serveMem
  rw [h.region_eq]
  simp [h.on, hroom, linesOf, pieces_one h.pos h.line, lineAt, h.lineRead_ok, first, stOK, stBUSY]

theorem scanRead_ok (h : TileLine s a len) (c : Nat) : s.scanRead c a len [] = (stOK, s.bytes a len, s) := by
  simp [scanRead, cutOff, h.cut_nil, h.region_eq, h.serveMem_read]

/-- The channel takes the bytes of the line. -/
theorem scanFeed_ok (h : TileLine s a len) (c poly : Nat) : s.scanFeed c poly a len [] = (stOK, s.chkFeed c poly (s.bytes a len)) := by
  have hline := h.line
  have hpiece : pieces 4096 a len = [(a, len)] := pieces_one h.pos (by omega)
  simp [scanFeed, hpiece, h.scanRead_ok]

/-- A part of the line that is not empty. -/
theorem part (h : TileLine s a len) {b n : Nat} (hn : 0 < n) (hlo : a ≤ b) (hhi : b + n ≤ a + len) : TileLine s b n := by
  obtain ⟨htile, hon, hline, hstore, hpos, hbank, hsound, hclear⟩ := h
  have hunit : b / 0x400000 = a / 0x400000 := by omega
  have hwhich : b % 0x400000 / 0x30000 = a % 0x400000 / 0x30000 := by omega
  exact ⟨by omega, hunit ▸ hon, by omega, by omega, hn, by rw [hunit, hwhich]; exact hbank, hsound, hclear⟩

/-- A write of a register between the clock's pages and those of the banks leaves the line as it is. -/
theorem put (h : TileLine s a len) {f : Field} (hlo : 0x10000 * 64 ≤ f.key) (hhi : f.key < 0x1000000 * 64) (v : Nat) : TileLine (s.put f v) a len := by
  obtain ⟨htile, hon, hline, hstore, hpos, hbank, hsound, hclear⟩ := h
  have hstat : (s.put f v).bankStat (a / 0x400000) (a % 0x400000 / 0x30000) = s.bankStat (a / 0x400000) (a % 0x400000 / 0x30000) := by
    have hkey : (fld (bankPg (a / 0x400000) + 0x44) 0 32 0).key ≠ f.key := by
      unfold bankPg tilePg fld
      rw [if_pos htile]
      show (0x1000000 + a / 0x400000 * 0x10000 + 1 * 0x1000 + 0x44) * 64 + 0 ≠ f.key
      omega
    unfold bankStat
    rw [get_put_ne hkey]
  have hnet : ∀ half, (s.put f v).netOn half = s.netOn half := fun half => by
    have hwest : Reg.CLOCK.HALF_CFG.WEST.key ≠ f.key := by show 0x2044 * 64 + 0 ≠ f.key; omega
    have heast : Reg.CLOCK.HALF_CFG.EAST.key ≠ f.key := by show 0x2044 * 64 + 2 ≠ f.key; omega
    unfold netOn effective
    rw [get_put_ne hwest, get_put_ne heast]
    rfl
  refine ⟨htile, hon, hline, hstore, hpos, ?_, hsound, ?_⟩
  · unfold bankOn
    rw [hstat]
    exact hbank
  · unfold cuffClear
    rw [hnet, hnet]
    exact hclear

end TileLine

theorem scanFeed_empty (s : State) (c poly a : Nat) (coll : List PortA) : s.scanFeed c poly a 0 coll = (stOK, s) := by simp [scanFeed, pieces]

/-! The registers of a channel: a fact about the keys of all eight. -/

theorem chanKey_ne {f g : Nat → Field} (h : ∀ c : Fin 8, (f c.val).key ≠ (g c.val).key) (c : Fin 8) : (f c.val).key ≠ (g c.val).key := h c

theorem chanKey_outside {f : Nat → Field} (h : ∀ c : Fin 8, (f c.val).key / 64 ≠ checkPg c.val + 0x18) (c : Fin 8) : (f c.val).key / 64 ≠ checkPg c.val + 0x18 := h c

/-! The end of a job. -/

/-- The registers that the end of a job writes, besides its notices. -/
def endFields (c : Nat) : List Field := [Reg.CHECK.SCAN_CTRL.GO c, Reg.CHECK.SCAN_STAT.HELD c, Reg.CHECK.SCAN_STAT.DONE c, Reg.CHECK.CHK_JOBS.CNT c]

theorem chanKey_notEnd {f : Nat → Field} (h : ∀ c : Fin 8, (f c.val).key ∉ (endFields c.val).map (·.key)) (c : Fin 8) : (f c.val).key ∉ (endFields c.val).map (·.key) := h c

/-- From s to t the job of channel c has ended, and no field outside its notices, GO and SCAN_STAT's HELD and DONE and the count of jobs changes. -/
structure ScanEnded (s t : State) (c : Nat) : Prop where
  scan : (t.chkCh c).scan = none
  go : t.get (Reg.CHECK.SCAN_CTRL.GO c) = 0
  held : t.get (Reg.CHECK.SCAN_STAT.HELD c) = 0
  done : t.get (Reg.CHECK.SCAN_STAT.DONE c) = 1
  jobs : t.get (Reg.CHECK.CHK_JOBS.CNT c) = s.counted (Reg.CHECK.CHK_JOBS.CNT c) 1
  get : ∀ g : Field, g.key / 64 ≠ checkPg c + 0x18 → g.key ∉ (endFields c).map (·.key) → t.get g = s.get g
  mem : t.mem = s.mem
  movers : t.movers = s.movers
  net : t.net = s.net

theorem scanOver_ends {s : State} (hs : s.Rising) (hchk : risingFrom 0 s.chk = true) (c : Fin 8) : ScanEnded s (s.scanOver c.val) c.val := by
  generalize hfree : s.modChk c.val (fun x => { x with scan := none }) = s0
  have hs0 : s0.Rising := hfree ▸ hs
  have hget0 : ∀ g : Field, s0.get g = s.get g := fun g => hfree ▸ rfl
  have hover : s.scanOver c.val = ((((s0.put (Reg.CHECK.SCAN_CTRL.GO c.val) 0).put (Reg.CHECK.SCAN_STAT.HELD c.val) 0).put (Reg.CHECK.SCAN_STAT.DONE c.val) 1).bump (Reg.CHECK.CHK_JOBS.CNT c.val)).cause
      (checkPg c.val) 4 := hfree ▸ rfl
  have hs1 := hs0.put (Reg.CHECK.SCAN_CTRL.GO c.val) 0
  have hs2 := hs1.put (Reg.CHECK.SCAN_STAT.HELD c.val) 0
  have hs3 := hs2.put (Reg.CHECK.SCAN_STAT.DONE c.val) 1
  rw [hover]
  constructor
  case scan =>
    unfold chkCh
    rw [cause_chk, ← hfree]
    show (getAt ChkS.reset c.val (setAt ChkS.reset c.val _ s.chk)).scan = none
    rw [getAt_setAt_same _ _ _ hchk]
  case go =>
    rw [get_cause_outside (chanKey_outside (by decide) c), bump, add, get_put_ne (chanKey_ne (by decide) c), get_put_ne (chanKey_ne (by decide) c), get_put_ne (chanKey_ne (by decide) c), get_put hs0 (Nat.le_of_ble_eq_true rfl)]
    rfl
  case held =>
    rw [get_cause_outside (chanKey_outside (by decide) c), bump, add, get_put_ne (chanKey_ne (by decide) c), get_put_ne (chanKey_ne (by decide) c), get_put hs1 (Nat.le_of_ble_eq_true rfl)]
    rfl
  case done =>
    rw [get_cause_outside (chanKey_outside (by decide) c), bump, add, get_put_ne (chanKey_ne (by decide) c), get_put hs2 (Nat.le_of_ble_eq_true rfl)]
    rfl
  case jobs =>
    rw [get_cause_outside (chanKey_outside (by decide) c), get_bump hs3 (Nat.le_of_ble_eq_true rfl)]
    unfold counted
    rw [get_put_ne (chanKey_ne (by decide) c), get_put_ne (chanKey_ne (by decide) c), get_put_ne (chanKey_ne (by decide) c), hget0]
  case get =>
    intro g hpage hg
    simp only [endFields, List.map_cons, List.map_nil, List.mem_cons, List.not_mem_nil, or_false, not_or] at hg
    obtain ⟨hgo, hheld, hdone, hjobs⟩ := hg
    rw [get_cause_outside hpage, bump, add, get_put_ne hjobs, get_put_ne hdone, get_put_ne hheld, get_put_ne hgo, hget0]
  case mem =>
    rw [cause_mem, ← hfree]
    rfl
  case movers =>
    rw [cause_movers, ← hfree]
    rfl
  case net =>
    rw [cause_net, ← hfree]
    rfl

/-! A refusal. -/

/-- What a refusal leaves: its reason and REFUSED, and the notices of its page (R60, R63). -/
theorem onlyRefusal_refuse {s : State} (hs : s.Rising) (pg : Nat) {code ofs : Nat} (hcode : low (Reg.HDR.BLK_REASON.CODE pg).width code = code)
    (hofs : low (Reg.HDR.BLK_REASON.OFFSET pg).width ofs = ofs) : OnlyRefusal s pg code ofs (s.refuse pg code ofs) := by
  have hreason : (s.put (Reg.HDR.BLK_REASON.CODE pg) code).Rising := hs.put _ _
  have hstat : ((s.put (Reg.HDR.BLK_REASON.CODE pg) code).put (Reg.HDR.BLK_REASON.OFFSET pg) ofs).Rising := hreason.put _ _
  refine ⟨?_, ?_, ?_, onlyNotices_refuse onlyNotices_refl _ _ ?_ ?_ ?_ ?_⟩
  · unfold State.refuse State.reason
    rw [get_cause_outside, get_put_ne, get_put_ne, get_put hs (Nat.le_of_ble_eq_true rfl), hcode]
    · show (pg + 0x14) * 64 + 0 ≠ (pg + 0x14) * 64 + 8
      omega
    · show (pg + 0x14) * 64 + 0 ≠ (pg + 0x10) * 64 + 3
      omega
    · show ((pg + 0x14) * 64 + 0) / 64 ≠ pg + 0x18
      omega
  · unfold State.refuse State.reason
    rw [get_cause_outside, get_put_ne, get_put hreason (Nat.le_of_ble_eq_true rfl), hofs]
    · show (pg + 0x14) * 64 + 8 ≠ (pg + 0x10) * 64 + 3
      omega
    · show ((pg + 0x14) * 64 + 8) / 64 ≠ pg + 0x18
      omega
  · unfold State.refuse State.reason
    rw [get_cause_outside, get_put hstat (Nat.le_of_ble_eq_true rfl)]
    · rfl
    · show ((pg + 0x10) * 64 + 3) / 64 ≠ pg + 0x18
      omega
  all_goals simp [reasonFields, irqFields, causeField]

/-! SCAN_GO. -/

theorem pageAt_scanCtrl : ∀ c : Fin 8, pageAt (checkPg c.val + 0x54) = pageAt (checkPg c.val) ∧ (pageAt (checkPg c.val + 0x54)).kind ≠ .crown := by decide

theorem pageUp_of_scanCtrl {s : State} {src : Source} {c : Fin 8} (h : s.answers src (checkPg c.val + 0x54) = true) : s.pageUp (pageAt (checkPg c.val)) = true := by
  obtain ⟨hpage, hkind⟩ := pageAt_scanCtrl c
  exact hpage ▸ pageUp_of_answers h hkind

theorem slowReg_scanCtrl (c : Fin 8) : slowReg (checkPg c.val + 0x54) = false := by decide +revert

/-- The state in which a job has been latched and its channel is held, before CHK_RUN is started. -/
def scanLatched (s : State) (c : Nat) (job : Nat × Nat × Nat × Nat) (cont : Bool) : State :=
  (((((s.put (Reg.CHECK.SCAN_CTRL.OP c) job.2.2.1).put (Reg.CHECK.SCAN_CTRL.CONT c) (if cont then 1 else 0)).put (Reg.CHECK.SCAN_CTRL.GO c) 1).modChk c fun x => { x with scan := some job }).put
    (Reg.CHECK.SCAN_STAT.HELD c) 1)

@[simp] theorem modChk_get (s : State) (c : Nat) (f : ChkS → ChkS) (g : Field) : (s.modChk c f).get g = s.get g := rfl

theorem rising_modChk {s : State} (h : s.Rising) (c : Nat) (f : ChkS → ChkS) : (s.modChk c f).Rising := h

theorem rising_scanLatched {s : State} (hs : s.Rising) (c : Nat) (job : Nat × Nat × Nat × Nat) (cont : Bool) : (scanLatched s c job cont).Rising := by
  have h := ((hs.put (Reg.CHECK.SCAN_CTRL.OP c) job.2.2.1).put (Reg.CHECK.SCAN_CTRL.CONT c) (if cont then 1 else 0)).put (Reg.CHECK.SCAN_CTRL.GO c) 1
  exact (rising_modChk h c _).put _ _

/-- From s to t a job has been latched, and only its registers have changed. -/
structure ScanLatched (s t : State) (c : Nat) (job : Nat × Nat × Nat × Nat) : Prop where
  scan : (t.chkCh c).scan = some job
  go : t.get (Reg.CHECK.SCAN_CTRL.GO c) = 1
  op : t.get (Reg.CHECK.SCAN_CTRL.OP c) = low 2 job.2.2.1
  held : t.get (Reg.CHECK.SCAN_STAT.HELD c) = 1
  same : s.SameFields [Reg.CHECK.SCAN_CTRL.GO c, Reg.CHECK.SCAN_CTRL.OP c, Reg.CHECK.SCAN_CTRL.CONT c, Reg.CHECK.SCAN_STAT.HELD c, Reg.CHECK.CHK_RUN.VALUE c] t
  mem : t.mem = s.mem
  movers : t.movers = s.movers

theorem scanLatched_latches {s : State} (hs : s.Rising) (hchk : risingFrom 0 s.chk = true) (c : Fin 8) (job : Nat × Nat × Nat × Nat) (cont : Bool) :
    ScanLatched s (scanLatched s c.val job cont) c.val job := by
  have hop := hs.put (Reg.CHECK.SCAN_CTRL.OP c.val) job.2.2.1
  have hcont := hop.put (Reg.CHECK.SCAN_CTRL.CONT c.val) (if cont then 1 else 0)
  have hgo := hcont.put (Reg.CHECK.SCAN_CTRL.GO c.val) 1
  unfold scanLatched
  constructor
  case scan =>
    show (getAt ChkS.reset c.val (setAt ChkS.reset c.val _ s.chk)).scan = some job
    rw [getAt_setAt_same _ _ _ hchk]
  case go =>
    rw [get_put_ne (chanKey_ne (by decide) c), modChk_get, get_put hcont (Nat.le_of_ble_eq_true rfl)]
    rfl
  case op =>
    rw [get_put_ne (chanKey_ne (by decide) c), modChk_get, get_put_ne (chanKey_ne (by decide) c), get_put_ne (chanKey_ne (by decide) c), get_put hs (Nat.le_of_ble_eq_true rfl)]
    rfl
  case held =>
    rw [get_put (rising_modChk hgo c.val _) (Nat.le_of_ble_eq_true rfl)]
    rfl
  case same =>
    intro g hg
    simp only [List.map_cons, List.map_nil, List.mem_cons, List.not_mem_nil, or_false, not_or] at hg
    obtain ⟨hgo', hop', hcont', hheld', -⟩ := hg
    rw [get_put_ne hheld', modChk_get, get_put_ne hgo', get_put_ne hcont', get_put_ne hop']
  case mem => rfl
  case movers => rfl

/-- The start of CHK_RUN leaves what has been latched. -/
theorem ScanLatched.started {s t : State} {c : Fin 8} {job : Nat × Nat × Nat × Nat} (h : ScanLatched s t c.val job) (v : Nat) : ScanLatched s (t.put (Reg.CHECK.CHK_RUN.VALUE c.val) v) c.val job := by
  obtain ⟨hscan, hgo, hop, hheld, hsame, hmem, hmovers⟩ := h
  refine ⟨hscan, ?_, ?_, ?_, fun g hg => ?_, hmem, hmovers⟩
  · rw [get_put_ne (chanKey_ne (by decide) c), hgo]
  · rw [get_put_ne (chanKey_ne (by decide) c), hop]
  · rw [get_put_ne (chanKey_ne (by decide) c), hheld]
  · rw [get_put_ne, hsame g hg]
    intro e
    exact hg (by simp [e])

theorem scanAccepted_holds : scanAccepted := by
  intro s src c op cont hs hw ha hop hen hbind hfree haddr hlen hmin hpop
  generalize hjob : (s.get (Reg.CHECK.SCAN_ADDR.ADDR c.val), s.get (Reg.CHECK.SCAN_LEN.LEN c.val), op.val, s.get (Reg.CHECK.CHK_CFG.POLY c.val)) = job
  have hrun : actScanGo src c op cont s =
      .next (if cont then scanLatched s c.val job cont else (scanLatched s c.val job cont).put (Reg.CHECK.CHK_RUN.VALUE c.val) (crcInit (s.get (Reg.CHECK.CHK_CFG.POLY c.val)))) := by
    rw [← hjob, actScanGo]
    simp only [pageUp_of_scanCtrl ha, hen, hbind, hfree, haddr, hlen, hop, hpop, Nat.not_lt.2 hmin]
    rfl
  obtain ⟨-, -, -, -, -, -, -, hchk, -, -⟩ := canonical_parts hs
  have hlatched := scanLatched_latches (canonical_regs hs) hchk c job cont
  have hop2 : low 2 job.2.2.1 = op.val := by
    rw [← hjob]
    exact Nat.mod_eq_of_lt op.isLt
  have hwrite := rowWrite_answers (w := 1 + 2 * op.val + if cont then 8 else 0) hw ha (slowReg_scanCtrl c) hrun
  have hrising := rising_scanLatched (canonical_regs hs) c.val job cont
  cases cont with
  | true =>
    obtain ⟨hscan, hgo, hop', hheld, hsame, hmem, hmovers⟩ := hlatched
    exact ⟨_, hwrite, hjob ▸ hscan, hgo, hop'.trans hop2, hheld, fun h => Bool.noConfusion h, hsame, hmem, hmovers⟩
  | false =>
    obtain ⟨hscan, hgo, hop', hheld, hsame, hmem, hmovers⟩ := hlatched.started (crcInit (s.get (Reg.CHECK.CHK_CFG.POLY c.val)))
    refine ⟨_, hwrite, hjob ▸ hscan, hgo, hop'.trans hop2, hheld, fun _ => ?_, hsame, hmem, hmovers⟩
    have hinit : crcInit (s.get (Reg.CHECK.CHK_CFG.POLY c.val)) < 2 ^ 64 := by
      unfold crcInit
      split_ifs <;> decide
    exact (get_put hrising (Nat.le_of_ble_eq_true rfl) _).trans (Nat.mod_eq_of_lt hinit)

theorem scanRefusedRange_holds : scanRefusedRange := by
  intro s src c cont hs hw ha
  have hrun : actScanGo src c 3 cont s = .next (s.refuse (checkPg c.val) rcRange 0x54) := by
    rw [actScanGo, if_neg (by simp [pageUp_of_scanCtrl ha]), if_pos (show (3 : Fin 4).val = 3 from rfl)]
  obtain ⟨hcode, -, hrefused, hframe⟩ := onlyRefusal_refuse (canonical_regs hs) (checkPg c.val) (code := rcRange) (ofs := 0x54) rfl rfl
  exact ⟨_, rowWrite_answers hw ha (slowReg_scanCtrl c) hrun, hcode, hrefused, hframe⟩

/-! SCAN_DONE. -/

/-- The result word of a job is that of the 64 bits that CHK_RUN holds. -/
theorem crcFinal_low (poly r : Nat) : crcFinal poly (r % 2 ^ 64) % 2 ^ 64 = crcFinal poly r % 2 ^ 64 := by
  unfold crcFinal
  split
  · rw [Nat.xor_mod_two_pow, Nat.xor_mod_two_pow (a := r), Nat.mod_mod]
  · exact Nat.mod_mod _ _

/-- The state in which the bytes of a job have passed and their result is stored. -/
def scanResult (s : State) (c poly : Nat) (bs : List Byte) : State := (s.chkFeed c poly bs).chkResult c poly

theorem rising_scanResult {s : State} (hs : s.Rising) (c poly : Nat) (bs : List Byte) : (scanResult s c poly bs).Rising := (hs.put _ _).put _ _

theorem get_scanResult {s : State} (hs : s.Rising) (c : Fin 8) (poly : Nat) (bs : List Byte) :
    (scanResult s c.val poly bs).get (Reg.CHECK.CHK_RESULT.VALUE c.val) = crcFinal poly (crcFeed poly (s.get (Reg.CHECK.CHK_RUN.VALUE c.val)) bs) % 2 ^ 64 := by
  unfold scanResult chkResult chkFeed
  rw [get_put (hs.put _ _) (Nat.le_of_ble_eq_true rfl), get_put hs (Nat.le_of_ble_eq_true rfl)]
  exact crcFinal_low poly _

theorem get_scanResult_ne (s : State) (c poly : Nat) (bs : List Byte) {g : Field} (hrun : g.key ≠ (Reg.CHECK.CHK_RUN.VALUE c).key) (hresult : g.key ≠ (Reg.CHECK.CHK_RESULT.VALUE c).key) :
    (scanResult s c poly bs).get g = s.get g := (get_put_ne hresult _).trans (get_put_ne hrun _)

/-- The count of jobs is not touched by the result. -/
theorem counted_scanResult (s : State) (c : Fin 8) (poly : Nat) (bs : List Byte) :
    (scanResult s c.val poly bs).counted (Reg.CHECK.CHK_JOBS.CNT c.val) 1 = s.counted (Reg.CHECK.CHK_JOBS.CNT c.val) 1 := by
  unfold counted
  rw [get_scanResult_ne s _ _ _ (chanKey_ne (by decide) c) (chanKey_ne (by decide) c)]

theorem tileLine_scanResult {s : State} {a len : Nat} (h : TileLine s a len) (c : Fin 8) (poly : Nat) (bs : List Byte) : TileLine (scanResult s c.val poly bs) a len := by
  have hkeys : ∀ c : Fin 8, 0x10000 * 64 ≤ (Reg.CHECK.CHK_RUN.VALUE c.val).key ∧ (Reg.CHECK.CHK_RUN.VALUE c.val).key < 0x1000000 * 64 ∧ 0x10000 * 64 ≤ (Reg.CHECK.CHK_RESULT.VALUE c.val).key
      ∧ (Reg.CHECK.CHK_RESULT.VALUE c.val).key < 0x1000000 * 64 := by decide
  obtain ⟨hrun, hrun', hresult, hresult'⟩ := hkeys c
  exact (h.put hrun hrun' _).put hresult hresult' _

/-- A job whose page is up and whose range meets nothing at the cuff ends at once. -/
theorem exec_scanDone {s : State} {c : Fin 8} {a len op poly : Nat} (hscan : (s.chkCh c.val).scan = some (a, len, op, poly)) (hup : s.pageUp (pageAt (checkPg c.val)) = true)
    (hclear : s.cuffClear = true) (hcut : (s.scanEnd c.val []).net.cut = []) : exec (.scanDone c []) s = .next (s.scanEnd c.val []) := by
  have hgo := guard_clear (ep := epCheck c.val) (vc := 10) (ranges := [(a, len + if op = 0 then 0 else 8)]) (go := fun s => s.scanEnd c.val []) hclear hcut
  show execScanDone c [] s = _
  rw [execScanDone, hscan]
  simp only [hup, Bool.not_true, Bool.false_eq_true, if_false]
  rw [hgo]

theorem scanStoresResult_holds : scanStoresResult := by
  intro s c a len poly hs hscan hup htile hon hline hlen hstore hbank hsound hclear
  have hrange : TileLine s a len := ⟨htile, hon, hline, hstore, hlen, hbank, hsound, hclear⟩
  have hend : s.scanEnd c.val [] = (scanResult s c.val poly (s.bytes a len)).scanOver c.val := by
    rw [scanEnd, hscan]
    simp only [hrange.scanFeed_ok]
    rfl
  obtain ⟨-, -, -, -, -, -, -, hchk, -, -⟩ := canonical_parts hs
  obtain ⟨hscan', hgo, hheld, hdone, hjobs, hget, hmem, hmovers, hnet⟩ :=
    scanOver_ends (rising_scanResult (canonical_regs hs) c.val poly (s.bytes a len)) (show risingFrom 0 (scanResult s c.val poly (s.bytes a len)).chk = true from hchk) c
  have hcut : (s.scanEnd c.val []).net.cut = [] := by
    rw [hend, hnet]
    exact hrange.cut_nil
  refine ⟨(scanResult s c.val poly (s.bytes a len)).scanOver c.val, ?_, ?_, hscan', hgo, hheld, hdone, hjobs.trans (counted_scanResult s c poly _), hmem, hmovers⟩
  · rw [exec_scanDone hscan hup hclear hcut, hend]
  · rw [hget _ (chanKey_outside (by decide) c) (chanKey_notEnd (by decide) c), get_scanResult (canonical_regs hs)]

/-- What is known of a state in which a job was matched before it ended: MATCH, and a net, memory and counters as they were. -/
structure Matched (s t : State) (c : Nat) (ok : Bool) : Prop where
  rising : t.Rising
  chk : t.chk = s.chk
  hit : t.get (Reg.CHECK.SCAN_STAT.MATCH c) = if ok then 1 else 0
  jobs : t.get (Reg.CHECK.CHK_JOBS.CNT c) = s.get (Reg.CHECK.CHK_JOBS.CNT c)
  mem : t.mem = s.mem
  net : t.net = s.net

theorem chkMatch_matched {s : State} (hs : s.Rising) (c : Fin 8) (ok : Bool) : Matched s (s.chkMatch c.val ok) c.val ok := by
  cases ok with
  | true =>
    refine ⟨hs.put _ _, rfl, ?_, ?_, rfl, rfl⟩
    · show (s.put (Reg.CHECK.SCAN_STAT.MATCH c.val) 1).get _ = _
      rw [get_put hs (Nat.le_of_ble_eq_true rfl)]
      rfl
    · exact get_put_ne (chanKey_ne (by decide) c) 1
  | false =>
    have hmatch := hs.put (Reg.CHECK.SCAN_STAT.MATCH c.val) 0
    have hmiss := (hmatch.put (Reg.CHECK.SCAN_STAT.MISMATCH c.val) 1).bump (Reg.CHECK.CHK_FAIL_CNT.CNT c.val)
    have hform : s.chkMatch c.val false = (((s.put (Reg.CHECK.SCAN_STAT.MATCH c.val) 0).put (Reg.CHECK.SCAN_STAT.MISMATCH c.val) 1).bump (Reg.CHECK.CHK_FAIL_CNT.CNT c.val)).cause (checkPg c.val) 5 := rfl
    rw [hform]
    refine ⟨hmiss.cause _ _, cause_chk .., ?_, ?_, cause_mem .., cause_net ..⟩
    · rw [get_cause_outside (chanKey_outside (by decide) c), bump, add, get_put_ne (chanKey_ne (by decide) c), get_put_ne (chanKey_ne (by decide) c), get_put hs (Nat.le_of_ble_eq_true rfl)]
      rfl
    · rw [get_cause_outside (chanKey_outside (by decide) c), bump, add, get_put_ne (chanKey_ne (by decide) c), get_put_ne (chanKey_ne (by decide) c), get_put_ne (chanKey_ne (by decide) c)]

theorem bytes_of_mem {s t : State} (hmem : t.mem = s.mem) (hundef : t.undef = s.undef) (a n : Nat) : t.bytes a n = s.bytes a n := by
  unfold bytes
  refine List.map_congr_left fun i _ => ?_
  rw [byte_eq, byte_eq, hmem, hundef]

theorem scanComparesResult_holds : scanComparesResult := by
  intro s c a len poly hs hscan hup htile hon hline hlen hstore hbank hsound hclear
  have hall : TileLine s a (len + 8) := ⟨htile, hon, by omega, by omega, by omega, hbank, hsound, hclear⟩
  have hrange : TileLine s a len := hall.part hlen le_rfl (by omega)
  have htrailer : TileLine s (a + len) 8 := hall.part (by omega) (by omega) (by omega)
  generalize hr : scanResult s c.val poly (s.bytes a len) = r
  have hrr : r.Rising := hr ▸ rising_scanResult (canonical_regs hs) c.val poly (s.bytes a len)
  have hword : r.get (Reg.CHECK.CHK_RESULT.VALUE c.val) = crcFinal poly (crcFeed poly (s.get (Reg.CHECK.CHK_RUN.VALUE c.val)) (s.bytes a len)) % 2 ^ 64 := hr ▸ get_scanResult (canonical_regs hs) c poly _
  have hread : r.scanRead c.val (a + len) 8 [] = (stOK, s.bytes (a + len) 8, r) := by
    have h := (tileLine_scanResult htrailer c poly (s.bytes a len)).scanRead_ok c.val
    rw [hr] at h
    rw [h, ← hr]
    rfl
  generalize hok : decide (ofBytes (s.bytes (a + len) 8) = r.get (Reg.CHECK.CHK_RESULT.VALUE c.val)) = ok
  have hend : s.scanEnd c.val [] = (r.chkMatch c.val ok).scanOver c.val := by
    rw [scanEnd, hscan]
    simp only [hrange.scanFeed_ok]
    show (let w := (scanResult s c.val poly (s.bytes a len)).scanRead c.val (a + len) 8 []
      if w.1 = stOK then (w.2.2.chkMatch c.val (ofBytes w.2.1 = (scanResult s c.val poly (s.bytes a len)).get (Reg.CHECK.CHK_RESULT.VALUE c.val))).scanOver c.val else w.2.2.scanFail c.val w.1) = _
    rw [hr, hread]
    simp only [if_true, hok]
  obtain ⟨-, -, -, -, -, -, -, hchk, -, -⟩ := canonical_parts hs
  obtain ⟨hmrising, hmchk, hhit, hmjobs, hmmem, hmnet⟩ := chkMatch_matched hrr c ok
  have hmchk' : risingFrom 0 (r.chkMatch c.val ok).chk = true := by
    rw [hmchk, ← hr]
    exact hchk
  obtain ⟨hscan', hgo, hheld, hdone, hjobs, hget, hmem, -, hnet⟩ := scanOver_ends hmrising hmchk' c
  have hcut : (s.scanEnd c.val []).net.cut = [] := by
    rw [hend, hnet, hmnet, ← hr]
    exact hrange.cut_nil
  refine ⟨(r.chkMatch c.val ok).scanOver c.val, ?_, ?_, hscan', hgo, hheld, hdone, ?_, ?_⟩
  · rw [exec_scanDone hscan hup hclear hcut, hend]
  · rw [hget _ (chanKey_outside (by decide) c) (chanKey_notEnd (by decide) c), hhit, ← hok, hword]
    simp only [decide_eq_true_eq]
  · rw [hjobs]
    unfold counted
    rw [hmjobs, ← hr, get_scanResult_ne s _ _ _ (chanKey_ne (by decide) c) (chanKey_ne (by decide) c)]
  · rw [hmem, hmmem, ← hr]
    rfl

/-! SCAN_ABORT. -/

/-- The bytes that have passed before an abort, none or a part of the line. -/
theorem scanFeed_part {s : State} {a len : Nat} (h : TileLine s a len) (c poly n : Nat) (hn : n ≤ len) :
    (s.scanFeed c poly a n []).2 = if n = 0 then s else s.chkFeed c poly (s.bytes a n) := by
  by_cases h0 : n = 0
  · rw [if_pos h0, h0, scanFeed_empty]
  · rw [if_neg h0, (h.part (Nat.pos_of_ne_zero h0) le_rfl (by omega)).scanFeed_ok]

theorem get_lt (s : State) {f : Field} (hw : f.width ≤ 64) : s.get f < 2 ^ 64 := by
  unfold State.get
  split
  · exact BitVec.isLt _
  · exact Nat.lt_of_lt_of_le (Nat.mod_lt _ (Nat.two_pow_pos _)) (Nat.pow_le_pow_right (by decide) hw)

theorem get_scanFeed_part {s : State} (hs : s.Rising) {a len : Nat} (h : TileLine s a len) (c poly n : Nat) (hn : n ≤ len) :
    (s.scanFeed c poly a n []).2.get (Reg.CHECK.CHK_RUN.VALUE c) = crcFeed poly (s.get (Reg.CHECK.CHK_RUN.VALUE c)) (s.bytes a n) % 2 ^ 64 := by
  rw [scanFeed_part h c poly n hn]
  split_ifs with h0
  · rw [h0]
    exact (Nat.mod_eq_of_lt (get_lt s (Nat.le_of_ble_eq_true rfl))).symm
  · exact get_put hs (Nat.le_of_ble_eq_true rfl) _

/-- With an empty cuff nothing leaves it. -/
theorem foldl_cuffLeave_empty {s : State} (h : s.net.cuff = []) (ep : Nat) (ls : List Nat) : ls.foldl (fun s l => s.cuffLeave (.acc ep l)) s = s := by
  induction ls with
  | nil => rfl
  | cons l ls ih =>
    rw [List.foldl_cons, cuffLeave_none (by simp [h])]
    exact ih

theorem scanReach_all {s : State} {a len : Nat} (h : TileLine s a len) (c : Nat) : s.scanReach c a len = len := by simp [scanReach, h.farLines_nil]

theorem scanAborted_holds : scanAborted := by
  intro s src c n a len op poly hs hw ha hscan htile hon hline hlen hstore hbank hsound hclear
  have hrange : TileLine s a len := ⟨htile, hon, hline, hstore, hlen, hbank, hsound, hclear⟩
  generalize hk : min len (n.toNat / 8 * 8) = k
  have hkle : k ≤ len := hk ▸ Nat.min_le_left _ _
  generalize hr : (s.scanFeed c.val poly a k []).2 = r
  have hform : r = if k = 0 then s else s.chkFeed c.val poly (s.bytes a k) := hr ▸ scanFeed_part hrange c.val poly k hkle
  have hrun : r.get (Reg.CHECK.CHK_RUN.VALUE c.val) = crcFeed poly (s.get (Reg.CHECK.CHK_RUN.VALUE c.val)) (s.bytes a k) % 2 ^ 64 := hr ▸ get_scanFeed_part (canonical_regs hs) hrange c.val poly k hkle
  have hrr : r.Rising := by
    rw [hform]
    split_ifs
    · exact canonical_regs hs
    · exact Rising.put (canonical_regs hs) _ _
  have hother : ∀ g : Field, g.key ≠ (Reg.CHECK.CHK_RUN.VALUE c.val).key → r.get g = s.get g := fun g hg => by
    rw [hform]
    split_ifs
    · rfl
    · exact get_put_ne hg _
  have hrest : r.chk = s.chk ∧ r.mem = s.mem ∧ r.net = s.net := by
    rw [hform]
    split_ifs <;> exact ⟨rfl, rfl, rfl⟩
  obtain ⟨hrchk, hrmem, hrnet⟩ := hrest
  have habort : actScanAbort src c n s = .next (r.scanOver c.val) := by
    rw [actScanAbort, hscan]
    simp only [pageUp_of_scanCtrl ha, scanReach_all hrange, hk, hr, Bool.not_true, Bool.false_eq_true, if_false]
    rw [foldl_cuffLeave_empty (by rw [hrnet]; exact hrange.cuff_nil)]
  obtain ⟨-, -, -, -, -, -, -, hchk, -, -⟩ := canonical_parts hs
  obtain ⟨hscan', hgo, hheld, hdone, hjobs, hget, hmem, -, -⟩ := scanOver_ends hrr (hrchk ▸ hchk) c
  refine ⟨_, rowWrite_answers hw ha (slowReg_scanCtrl c) habort, hscan', hgo, hheld, hdone, ?_, ?_, ?_, hmem.trans hrmem⟩
  · rw [hjobs]
    unfold counted
    rw [hother _ (chanKey_ne (by decide) c)]
  · rw [hget _ (chanKey_outside (by decide) c) (chanKey_notEnd (by decide) c), hrun]
  · rw [hget _ (chanKey_outside (by decide) c) (chanKey_notEnd (by decide) c), hother _ (chanKey_ne (by decide) c)]

/-- Settles O29: a scan reads its line as it stands, and its end writes the registers of its channel. -/
theorem scansComplete : Obligations.ScansComplete := by
  unfold Obligations.ScansComplete
  exact ⟨scanAccepted_holds, scanRefusedRange_holds, scanStoresResult_holds, scanComparesResult_holds, scanAborted_holds⟩

end Sys2Proof.Machine
end

section
/-! A self-test under a MAX_CONC that holds more than its bits (O38). -/
namespace Sys2Proof.Machine
open State Claims

/-- Tile 3 waits for its test, tiles 10 to 40 are under test. MAX_CONC holds 40: five bits cannot, but the canonical form does not look at the widths of fields. -/
def concTooWide : State :=
  { (upState.put Reg.BIST.BIST_STAT.ACTIVE 1).put { Reg.BIST.BIST_CFG.MAX_CONC with width := 6 } 40 with
    bist := { upState.bist with waiting := [(0, 3)], running := (List.range 31).map fun i => (0, i + 10) } }

/-- The count of targets under test that a command leaves. -/
def runningAfter (r : Res) : Nat :=
  match r with
  | .next t => t.get Reg.BIST.BIST_STAT.RUNNING
  | _ => 0

/-- Tile 3 starts as the 32nd, and RUNNING keeps 5 bits of the count. -/
theorem runningAfter_bistTargetStart_concTooWide : runningAfter (exec (.bistTargetStart 0 (Fin.ofNat 512 3)) concTooWide) = 0 := by decide

theorem not_tileTestStarts : ¬ tileTestStarts := by
  intro h
  obtain ⟨t, ht, -, hrunning, -⟩ := h concTooWide 3 [] (by decide) (by decide) (by decide) (by decide) (by decide)
  have hzero := runningAfter_bistTargetStart_concTooWide
  rw [show exec (.bistTargetStart 0 (Fin.ofNat 512 3)) concTooWide = .next t from ht] at hzero
  exact absurd (hrunning.symm.trans hzero) (by decide)

/-- Refutes O38 in BIST_TARGET_START's claim of a tile: it says that RUNNING reads up to 127, but the field has 5 bits, and no premise bounds MAX_CONC by what it can hold. -/
theorem not_selfTestCompletes : ¬ Obligations.SelfTestCompletes := by
  unfold Obligations.SelfTestCompletes
  rintro ⟨-, -, -, -, -, -, -, htile, -⟩
  exact not_tileTestStarts htile

end Sys2Proof.Machine
end
